-- ==== Sys2Proof/Word.lean ====
section
/-! DEFINITION. The words of the ZN-6480: bytes, register words, 64-bit quantities (R9, R36, R37). -/
namespace Sys2Proof

/-- One byte. -/
abbrev Byte := BitVec 8
/-- A register word: every register access is 32 bits wide (R36). -/
abbrev Word := BitVec 32
/-- A 64-bit quantity: a fabric address (R60), a pair of registers (R37), a head operand (R116). -/
abbrev DWord := BitVec 64

end Sys2Proof
end

