-- ==== Sys2Proof/Syntax.lean ====
section
/-! DEFINITION. The commands of the fabric: one constructor per row of the opcode table, with the operands the
manual gives the row. A command names the unit it acts on by die index, tile, port, engine or record. -/
namespace Sys2Proof

/-- A master of register accesses (R42). -/
inductive Master where
  | fmc
  | host (h : Nat)
  | service
deriving DecidableEq, Repr

/-- One register access as its master issues it (R36, R41): package field, die index, page, offset in the page,
size in bytes, and the value of a write. -/
structure RegAcc where
  master : Master
  pkg : Nat
  die : Nat
  page : Nat
  off : Nat
  size : Nat := 4
  value : Word := 0
deriving DecidableEq, Repr

/-- Press-unit states (R92). -/
inductive PressState where
  | unset | armed | run
deriving DecidableEq, Repr

/-- Traffic classes (R19, codes of R115). -/
inductive TClass where
  | bulk | fetch | log | weight | reduce | ctrl | mgmt
deriving DecidableEq, Repr

/-- A packet: the route word (R115), the common header (R116), EXT and the payload bytes, and the poison reason of
each payload flit (0 none, 1 buffer ECC, 2 part reset; R115). `via` is the model's own: the off-package port and pool class
that a transit grant or an adaptive packet's choice of lane names (R143, R146; log 14), and so is `nbytes`: the byte count of a message (log 40). -/
structure Packet where
  vc : Nat := 0
  leg : Bool := false
  dl : Bool := false
  pdl : Bool := false
  ord : Bool := false
  mc : Bool := false
  poison : Bool := false
  len : Nat := 0
  cls : TClass := .ctrl
  ctx : Nat := 0
  track : Nat := 0
  dest : DWord := 0
  opcode : Byte := 0
  srcPkg : Nat := 0
  srcDie : Nat := 0
  srcTile : Nat := 0
  srcPort : Nat := 0
  sseq : BitVec 16 := 0
  flags : Byte := 0
  operand : DWord := 0
  ext : List Byte := []
  payload : List Byte := []
  why : List Nat := []
  via : Nat := 0
  nbytes : Nat := 0
deriving DecidableEq, Repr

/-- What the router finds wrong with an arriving packet (R134, R481): internal failures are inputs of the model. -/
inductive ArrivalEvent where
  | ok
  | corrected (n : Nat)
  | headEcc
  | payloadEcc (flit : Nat)
  | routeParity
deriving DecidableEq, Repr

/-- The resource an arbiter grants (R161): an injection port and plane, or an output port, plane, VC and class. -/
inductive ArbRes where
  | inject (die tile port plane : Nat)
  | output (die tile port plane vc cls : Nat)
deriving DecidableEq, Repr

/-- One input buffer of a router (R127): die, physical tile, input port, plane, VC, escape class. -/
structure BufKey where
  die : Nat
  tile : Nat
  port : Nat
  plane : Nat
  vc : Nat
  cls : Nat
deriving DecidableEq, Repr

/-- The darner that executes a patch instruction; whether the fetch of the instruction found a parity error (R286). -/
structure DrnRef where
  die : Nat
  tile : Nat
  darner : Nat
  parity : Bool := false
deriving DecidableEq, Repr

/-- The fields of a patch instruction beside OP (R279). -/
structure PFields where
  pn : Bool := false
  pg : Nat := 0
  d : Nat := 0
  a : Nat := 0
  b : Nat := 0
  m : Nat := 0
  imm : Word := 0
deriving DecidableEq, Repr

/-- Who presents a CIP command: the CIP's tile, the stream and the context named (R354). -/
structure CipHdr where
  die : Nat
  tile : Nat
  stream : Nat
  ctx : Nat
deriving DecidableEq, Repr

/-- A seam as the packets between a home engine and the tiles name it: the engine's package, die, number and
record, the ticket (R318) and what a reservation asks for (R326). -/
structure SeamRef where
  pkg : Nat := 0
  die : Nat
  eng : Nat
  slot : Nat
  group : Nat
  gseq : Nat
  ctx : Nat
  darners : Nat := 1
  ordered : Bool := false
deriving DecidableEq, Repr

/-- One flit slot of a bridge module (R431): VALID, PLANE, HEAD, the 96-bit sideband field, the 64 data bytes. -/
structure FlitSlot where
  valid : Bool := false
  plane : Nat := 0
  head : Bool := false
  side : Nat := 0
  data : List Byte := []
deriving DecidableEq, Repr

/-- What a bridge module carries in one FCLK cycle (R431): two flit slots, 32 bits of the control stream, the CRC-24. -/
structure BridgeCycle where
  slot0 : FlitSlot
  slot1 : FlitSlot
  control : Nat
  crc : Nat
deriving DecidableEq, Repr

/-- A TLP header as the controller delivers it (R455, R576). -/
structure Tlp where
  bar : Nat
  offset : Nat
  length : Nat
  tag : Nat := 0
  data : List Byte := []
deriving DecidableEq, Repr

/-- The status inputs of a host adapter (R576): hst_link_up, hst_flr or hst_hot_reset, hst_msix_en, hst_msix_fmask. -/
structure HostPins where
  linkUp : Bool := false
  inReset : Bool := false
  msixEn : Bool := false
  msixMask : Bool := false
deriving DecidableEq, Repr

/-- Inputs of the package that have changed: STRAP[15:0] (R61), the status inputs of host adapters by number. -/
structure Pins where
  straps : Option (BitVec 16) := none
  hosts : List (Nat × HostPins) := []
deriving DecidableEq, Repr

/-- Where a service datagram comes from (R525, R526). -/
structure SvcSrc where
  addr : List Byte
  port : Nat
  seq : Word
deriving DecidableEq, Repr

/-- What becomes of a parity check as a task is taken (R270, R286). -/
inductive TaskErr where
  | ok | entryParity | storeParity
deriving DecidableEq, Repr

/-- What a darner's slots report while a task runs (R268): corrected errors, or one that cannot be corrected. -/
inductive SlotEcc where
  | ok
  | corrected (n : Nat)
  | bad
deriving DecidableEq, Repr

/-- What a training step or a training finds (R433, R445): success, spares taken, latency, the peer's ADAPT_SHARE as its
credits show it, failed lanes. -/
structure TrainResult where
  ok : Bool
  spares : Nat := 0
  companion : Nat := 0
  latency : Nat := 0
  share : Word := 0x08200018
  laneFail : Nat := 0
deriving DecidableEq, Repr

/-- The commands: one constructor per row of the opcode table. -/
inductive Instr where
  -- time base
  | pressBoundary (pins : Pins := {})
  | foldStart
  | portLockModeChange (die tile port : Nat)
  | gateWindowEdge (die tile port cls cycle : Nat)
  | epochCommand (die : Nat) (frame : List Byte) (idleBefore idleAfter : Bool)
  | epochTargetBoundary (die : Nat)
  | pressLost (die : Nat)
  | marker (die link : Nat) (st : PressState) (press : DWord) (period lag : Nat)
  -- register pages
  | registerWrite (a : RegAcc)
  | lowHalfRead (a : RegAcc)
  | shadowCommitImmediate (m : Master) (die page : Nat)
  | shadowCommitNextBoundary (m : Master) (die page : Nat)
  | shadowCommitScheduled (m : Master) (die page : Nat)
  | shadowCommitCancel (m : Master) (die page : Nat)
  | immediateCommitTakesEffect (die page : Nat)
  | arbFreezeWrite (m : Master) (die page : Nat) (value : Word)
  | priorityRegisterWrite (a : RegAcc)
  | govCeilingWrite (m : Master) (value : Word)
  -- plan
  | planCheck (m : Master)
  | planAdopt (m : Master)
  | planCancel (m : Master)
  | portOldPlanDrained (port : Nat)
  -- routing
  | packetArrival (die tile port : Nat) (p : Packet) (e : ArrivalEvent)
  | arbitrationDecision (r : ArbRes)
  | credit (die tile port plane vc cls n : Nat)
  | adaptEscWaitExpiry (b : BufKey)
  | escapeStall (b : BufKey)
  | transitReq (die tile : Nat) (p : Packet)
  | transitGrant (die tile : Nat) (p : Packet)
  | transitEscapeWaitExpiry (port : Nat) (p : Packet)
  -- memory requests and responses
  | read (die tile : Nat) (p : Packet)
  | write (die tile : Nat) (p : Packet)
  | readData (die tile : Nat) (p : Packet)
  | writeAck (die tile : Nat) (p : Packet)
  | status (die tile : Nat) (p : Packet)
  | mpRequestIssue (die tile : Nat)
  | mpResponse (die tile tag : Nat) (data : List Byte) (err : Bool)
  | mpStall (die tile tag : Nat)
  | cmResponse (die tile tag : Nat) (data : List Byte) (err : Bool)
  -- darners
  | taskDispatch (die tile darner : Nat) (data : List Byte) (e : TaskErr)
  | taskComplete (die tile darner : Nat) (data : List Byte) (e : SlotEcc)
  | reorderRelease (die tile stream : Nat)
  | stealRequest (die tile darner dir : Nat)
  | stealGrant (die tile darner : Nat) (data : List Byte) (linkErr : Bool)
  | patchRunComplete (die tile run : Nat)
  -- patch instructions
  | nop (u : DrnRef) (f : PFields)
  | next (u : DrnRef) (f : PFields)
  | drop (u : DrnRef) (f : PFields)
  | halt (u : DrnRef) (f : PFields)
  | loop (u : DrnRef) (f : PFields)
  | mov (u : DrnRef) (f : PFields)
  | abs (u : DrnRef) (f : PFields)
  | neg (u : DrnRef) (f : PFields)
  | lane (u : DrnRef) (f : PFields)
  | setl (u : DrnRef) (f : PFields)
  | salu (u : DrnRef) (f : PFields)
  | cmp (u : DrnRef) (f : PFields)
  | cls (u : DrnRef) (f : PFields)
  | pset (u : DrnRef) (f : PFields)
  | pone (u : DrnRef) (f : PFields)
  | plog (u : DrnRef) (f : PFields)
  | pcnt (u : DrnRef) (f : PFields)
  | acc (u : DrnRef) (f : PFields)
  | cnt (u : DrnRef) (f : PFields)
  | sel (u : DrnRef) (f : PFields)
  | azero (u : DrnRef) (f : PFields)
  | emit (u : DrnRef) (f : PFields)
  | kemit (u : DrnRef) (f : PFields)
  | psDataLoWrite (m : Master) (die page : Nat) (value : Word)
  | psLoadCmd (m : Master) (die page : Nat) (value : Word)
  | psLoadComplete (die tile : Nat)
  -- seams
  | seamOpen (die eng : Nat) (p : Packet)
  | seamAdmit (die tile : Nat) (p : Packet)
  | seamSummary (die eng rec : Nat) (p : Packet)
  | seamReserve (die tile : Nat) (r : SeamRef)
  | seamGrant (die eng rec : Nat) (fromDie fromTile : Nat) (outcome : BitVec 16)
  | seamYieldAsk (die eng rec : Nat) (fromDie fromTile : Nat)
  | seamYield (die tile : Nat) (r : SeamRef) (yielded : Bool)
  | seamSet (die tile : Nat) (r : SeamRef) (load : Nat)
  | seamPart (die tile : Nat) (r : SeamRef) (fromTile : Nat) (p : Packet)
  | seamData (die tile : Nat) (r : SeamRef) (fromDie fromTile : Nat) (p : Packet)
  | seamDone (die tile : Nat) (p : Packet)
  | seamAbort (die eng rec : Nat) (p : Packet)
  | seamRelease (die tile : Nat) (r : SeamRef)
  | seamTimeout (die eng rec : Nat)
  | seamResStall (die eng rec : Nat) (tileDie tile : Nat)
  | seamLinkLost (die eng rec : Nat)
  | seamAbortCmd (m : Master) (die page : Nat) (value : Word)
  -- CIP commands
  | send (h : CipHdr) (addr : DWord) (nbytes : Nat) (payload : List Byte)
  | add (h : CipHdr) (addr : DWord) (entry : Nat) (element : Word)
  | recv (h : CipHdr) (queue : Nat) (nowait : Bool)
  | ringWait (h : CipHdr) (ring : Nat)
  | ringFree (h : CipHdr) (ring : Nat) (head : DWord)
  | bskArm (h : CipHdr) (basket entry tag expect : Nat)
  | pegArmCmd (h : CipHdr) (addr : DWord) (target : Word) (auto : Bool)
  | pegAddCmd (h : CipHdr) (addr : DWord) (k : Word)
  | pegWaitCmd (h : CipHdr) (addr : DWord) (w : Word)
  | pegReadCmd (h : CipHdr) (addr : DWord)
  | dbWait (h : CipHdr) (doorbell : Nat) (v : Word)
  | deferRead (h : CipHdr)
  | fetchRequest (h : CipHdr) (addr : DWord)
  | copy (h : CipHdr) (desc : List Byte)
  | multicast (h : CipHdr) (desc : List Byte)
  | ringSend (h : CipHdr) (desc : List Byte)
  | logPut (h : CipHdr) (desc : List Byte)
  | patchRunPost (h : CipHdr) (desc : List Byte)
  | seamOpenPost (h : CipHdr) (desc : List Byte)
  -- messages, credits, rings, baskets, doorbells
  | msg (die tile : Nat) (p : Packet)
  | creditReq (die tile : Nat) (p : Packet)
  | creditGrant (die tile : Nat) (p : Packet)
  | creditReturn (die tile : Nat) (p : Packet)
  | ringReserve (die tile : Nat) (p : Packet)
  | ringGrant (die tile : Nat) (p : Packet)
  | ringCommit (die tile : Nat) (p : Packet)
  | bskAdd (die tile : Nat) (p : Packet)
  | bskDone (die tile : Nat) (p : Packet)
  | mcAck (die tile : Nat) (p : Packet)
  | dbInc (die tile : Nat) (p : Packet)
  | stallNote (die tile : Nat) (p : Packet)
  -- pegs
  | pegArm (die : Nat) (p : Packet)
  | pegAdd (die : Nat) (p : Packet)
  | pegWait (die : Nat) (p : Packet)
  | pegRead (die : Nat) (p : Packet)
  | pegDone (die tile : Nat) (p : Packet)
  -- waits of the CIP
  | creditIdleReturn (die tile entry : Nat)
  | creditStall (die tile stream : Nat)
  | mcAckHoldExpiry (die tile tree : Nat)
  | mcAckWaitExpiry (die tile tree : Nat)
  -- tally and log
  | checkpointCmd (m : Master) (die page : Nat) (value : Word)
  | tally0Read (a : RegAcc)
  | logRec (port : Nat) (record : List Byte)
  | datagramClose (port : Nat)
  | gapRecord (die ctx : Nat)
  -- pairs
  | pairDelta (p : Packet)
  | pairAck (port : Nat) (p : Packet)
  | heldEventApply (index : Nat)
  | pairLagLimit (index : Nat)
  | pairPrimaryLost
  | pairMirrorLost
  -- links
  | bridgeGroup (die bridge module : Nat) (c0 c1 c2 c3 : BridgeCycle)
  | course (port seq : Nat) (fecOk : Bool) (units : List (List Byte)) (sym : Nat)
  | ack (die link seq : Nat)
  | nak (die link seq : Nat) (select : Bool)
  | faultIdle (die link : Nat)
  | ident (die link fragment : Nat) (bytes : List Byte)
  | echo (die link : Nat) (reply : Bool) (count : Word)
  | moduleTrainingDone (die bridge module : Nat) (r : TrainResult)
  | dbrTrainFail (die bridge module : Nat)
  | trainingRetry (die link : Nat)
  | sundiTrainingStepDone (port : Nat) (r : TrainResult)
  | lnkTrainFail (port : Nat)
  | linkLoss (die link : Nat)
  | fecWindowEnd (port corrected : Nat)
  | dbrRetrain (m : Master) (die page : Nat) (value : Word)
  | lnkRetrain (m : Master) (die page : Nat) (value : Word)
  | stoLinkDown (port : Nat)
  | storageFrameReceived (port : Nat)
  -- host adapters
  | mrd (h : Nat) (t : Tlp)
  | mwr (h : Nat) (t : Tlp)
  | hstLinkDown (h : Nat)
  | hstFlr (h : Nat)
  | hstHotReset (h : Nat)
  -- laser modules
  | optModuleDetect (die g : Nat) (record : List Byte)
  | optRescan (m : Master) (die page : Nat) (value : Word)
  | laserHourTick (die g : Nat)
  | powerSample (die g : Nat) (i3cOk : Bool) (p0 p1 : Nat)
  -- faults
  | faultRecordDie (die : Nat) (parity : Bool)
  | faultRecordRoot
  | errNPulseEnd
  | errCtrlWrite (m : Master) (value : Word)
  | routerPoll (die tile : Nat)
  | quiesceResetPhase
  | quiesceLimit
  | quiesceReturn
  -- resets, contexts, power
  | fabricReset (m : Master)
  | dieReset (m : Master) (die : Nat)
  | tileReset (m : Master) (die tile : Nat)
  | portReset (m : Master) (die port : Nat)
  | contextActivate (m : Master) (ctx : Nat)
  | contextDeactivate (m : Master) (ctx : Nat)
  | contextResetRequest (m : Master) (ctx : Nat)
  | lp2Enter (m : Master)
  | lp3Enter (m : Master)
  | lpExit (m : Master)
  | lp1ReqWrite (m : Master) (index : Nat) (value : Word)
  | clWake (die tile : Nat)
  | por (straps : BitVec 16) (eccLost : Bool) (failedRouters : List (Nat × Nat)) (mistied : List Nat := [])
  | porNLow
  | fmcStart (partsOk0 partsOk1 : Bool)
  | rollbackWrite (m : Master) (value : Word)
  | areaDataRead (m : Master)
  | areaDataWrite (m : Master) (value : Word)
  -- service port and firmware
  | regRead (src : SvcSrc) (addr : DWord)
  | regWrite (src : SvcSrc) (addr : DWord) (value : Word)
  | stageWrite (src : SvcSrc) (offset : Nat) (data : List Byte)
  | stageRead (src : SvcSrc) (offset count : Nat)
  | ping (src : SvcSrc) (data : List Byte)
  | sidebandWrite (index : Nat) (data : List Byte)
  | svcCommit
  | fwCheck (m : Master)
  | fwCheckDone
  | fwProgram (m : Master)
  | fwProgramDone (readBackOk : Bool)
  | fwActivate (m : Master)
  | fwCancel (m : Master)
  | fwBind (m : Master)
  | activationLoadDone
  | activationLoadTimeout
  | pauseEnd
  -- JTAG
  | bypass (die : Nat) (tdi : Bool)
  | idcode (die : Nat)
  | samplePreload (die : Nat)
  | extest (die : Nat)
  -- events of the surroundings
  | referenceEdgesResumed (die : Nat)
  | brownOut
  | fabricSupplyLoss
  | stoPcsLinkUp (port : Nat)
  | unsupportedTlp (h tag : Nat) (nonPosted : Bool)
  | serviceDatagramRejected (src : SvcSrc) (bytes : List Byte)
  | cmRequestIssue (die tile : Nat)
deriving DecidableEq, Repr

end Sys2Proof
end

