-- ==== Sys2Proof/Decode.lean ====
section
/-! DEFINITION. The words of commands. No row of the opcode table has bits: a command is an event or a request named by its
operands, so no word spells one. -/
namespace Sys2Proof

/-- The command a word spells by the bits of the opcode table: none, since the table gives its rows no bits. -/
def decodeTableWord (_nbits _w : Nat) : Option Instr := none

end Sys2Proof
end

