-- ==== Sys2Proof/Config.lean ====
section
/-! DEFINITION. What an implementation or an integrator fixes, and the free values: every constant here has no
body, so nothing can be proved of its value. -/
namespace Sys2Proof.Config

/-- A value the manual leaves open, fresh for every reading of the counter `fresh` of the state (log 4). -/
opaque freeNat : Nat → Nat

/-- What a patch reads in GIDX, X and K in a prologue (`which` 0) or epilogue (1), where the manual gives them no value: one
value for each binding, COUNT and input (R395, log 24). -/
opaque freePatch : (bind : List Word) → (count : Nat) → (input : List Byte) → (which : Nat) → Nat

/-- MEM_MIB of the cluster of a compute tile, set by the integrator (R554, CIP page MEM_SIZE). -/
opaque memMiB : (die tile : Nat) → Nat

/-- PAGE_VERSION.STEPPING of a die: fixed by the silicon, no value in the manual (R45, log 11). -/
opaque stepping : (die : Nat) → BitVec 8

/-- The verification of an ECDSA P-384 signature (r then s) over a SHA-384 digest under key KEY_ID of the boot
ROM: the keys are not in the manual (R538, log 12). -/
opaque verify : (keyId : Nat) → (digest signature : List Byte) → Bool

end Sys2Proof.Config
end

