-- ==== Sys2Proof/Machine/State.lean ====
section
/-! DEFINITION. The state of the fabric as plain data: everything the manual gives the block, by chapter, and the
queue of the commands that wait. A keyed store is a list of key and value pairs with rising keys and no entry equal
to what an unlisted key reads as (SMap; operations in Ops.lean). -/
namespace Sys2Proof.Machine

/-- A store: (key, value), keys strictly rising, no entry equal to the value an unlisted key reads as. -/
abbrev SMap (V : Type) := List (Nat × V)

/-! ### Time base (04) -/

/-- An accepted rack epoch command whose target boundary has not come (R93): target cycle of FCLK, START_PRESS,
PERIOD_REF, FOLLOW. -/
structure EpochCmd where
  target : Nat
  start : Nat
  period : Nat
  follow : Bool
deriving DecidableEq, Repr

/-- One die's Press unit (R92): state, Press number, PERIOD_REF, the FCLK cycle at which the Press in progress
(in ARMED: the last armed boundary) began, FOLLOWED, the pending epoch command, whether a loss of reference has
been raised and not ended (R95), EPOCH_COUNT, the phase of each bridge (R96) and of each Sundi port, and the link whose marker gave
the unit its number, the cycle, and whether its phase too (R97). -/
structure PressUnit where
  st : PressState := .unset
  press : Nat := 0
  period : Nat := 0
  start : Nat := 0
  followed : Bool := false
  cmd : Option EpochCmd := none
  lost : Bool := false
  epochCount : Word := 0
  phases : SMap Int := []
  took : Option (Nat × Nat × Bool) := none
deriving DecidableEq, Repr

/-- The clock, the Press units, the plane lock and the straps. -/
structure TimeBase where
  fclk : Nat := 0
  porLow : Bool := false
  units : SMap PressUnit := []
  lockNow : Bool := false
  lockNext : Bool := false
  lockAfter : Bool := false
  inFold : Bool := false
  straps : BitVec 16 := 0
  strapsLive : BitVec 16 := 0
  mistied : List Nat := []
deriving DecidableEq, Repr

/-! ### Register pages (02) -/

/-- The commit request of a page (R49 to R53). -/
inductive CommitReq where
  | none
  | immediate
  | nextBoundary
  | scheduled (press : Nat)
  | heldScheduled (press : Nat)
deriving DecidableEq, Repr

/-- The header state of one page that its registers do not hold as plain words. -/
structure Page where
  commit : CommitReq := .none
  count : BitVec 16 := 0
  late : Bool := false
  overrun : Bool := false
  bad : Bool := false
  fault : Word := 0
  ctxSeen : List (Nat × Nat) := []
deriving DecidableEq, Repr

/-- Registers: values in effect and uncommitted shadow values by register key, page headers, the high halves
latched and held per master (R37), and the 64-bit statistics counters by page and selection. -/
structure Regs where
  eff : SMap Word := []
  shadow : SMap Word := []
  pages : SMap Page := []
  latch : SMap Word := []
  held : SMap Word := []
  counts : SMap DWord := []
deriving DecidableEq, Repr

/-! ### Routing, arbitration and shaping (05, 06) -/

/-- A packet in a queue of a router: the first cycle in which it may take part in a decision (R162, R163), the outputs it
still has to take (multicast: the branches left, R150), whether it also requests its escape output (R140), whether, in
transit, it asks for an escape grant (R148), the cycle it began to request its escape output in those two cases and
with a transit grant (R154), whether its wait has raised (R154), and whether a hem alone has held it (R581). -/
structure QPkt where
  pkt : Packet
  since : Nat := 0
  outs : List Nat := []
  alsoEscape : Bool := false
  expired : Bool := false
  escAt : Nat := 0
  stalled : Bool := false
  hemmed : Bool := false
deriving DecidableEq, Repr

/-- An arbiter (R163 to R166): grants counted, the requesters that have dropped to the lowest rank in the order they
did (the others rank before them, ascending), the previous winner per class plus
one (0: before requester 0), the last cycle of the transfer in progress, the cycle after its start. -/
structure Arb where
  count : Nat := 0
  order : List Nat := []
  prev : List Nat := [0, 0, 0, 0]
  endAt : Nat := 0
  startAt : Nat := 0
deriving DecidableEq, Repr

/-- A packet on the hop toward a tile's input port. -/
structure Wire where
  die : Nat
  tile : Nat
  port : Nat
  pkt : Packet
deriving DecidableEq, Repr

/-- A transit request at an egress, or one of an ingress (R147): who asks, for which egress port and pool class. -/
structure TransitReq where
  srcDie : Nat
  srcTile : Nat
  egress : Nat
  cls : Nat
  sseq : BitVec 16
deriving DecidableEq, Repr

/-- What the decisions of a cycle go by: the registers in effect, the credits used and the tokens of the shaper nodes at
its start (R168, R177). -/
structure CycleStart where
  eff : SMap Word := []
  used : SMap Nat := []
  tokens : SMap (Int × Nat) := []
deriving DecidableEq, Repr

/-- The routers: injection queues, input buffers, flits of the packet leaving a buffer and its decision cycle, credits used
per output, credits on the way back to a sender (R130), packets on hops and handed to endpoints, arbiters, node tokens, the
bytes charged to each node in this cycle (R179), the start of the cycle, the governor, gates, deferral counters, transit, the
packets on the seam collector of a memory-side die (R302). -/
structure Net where
  inject : SMap (List QPkt) := []
  bufs : SMap (List QPkt) := []
  leaving : SMap (Nat × Nat) := []
  used : SMap Nat := []
  owed : SMap Nat := []
  wires : List Wire := []
  delivered : List Wire := []
  arbs : SMap Arb := []
  tokens : SMap (Int × Nat) := []
  charges : SMap Nat := []
  at0 : CycleStart := {}
  govHist : List (Nat × Nat) := []
  govEst : List Nat := []
  govAge : Nat := 0
  gates : SMap Word := []
  defer : SMap Word := []
  poolUsed : SMap Nat := []
  transitWait : List TransitReq := []
  transitAsked : List TransitReq := []
  lockMode : SMap Bool := []
  reloaded : List Nat := []
  collect : SMap (List Packet) := []
deriving DecidableEq, Repr

/-! ### The plan (03) -/

/-- A slice of the plan (R77, R78): the members in rank order. -/
structure Slice where
  ctx : Nat
  members : List Nat
deriving DecidableEq, Repr

/-- A checked plan image (R81). -/
structure PlanImage where
  epoch : Nat
  shape : Nat
  pairMode : Bool
  minSundi : Nat
  racks : DWord
  twist : List Nat
  masks : List (Nat × DWord)
  slices : List Slice
  hash : List Byte
deriving DecidableEq, Repr

/-- The plan unit: the plan in effect, a checked one that waits (PENDING), its adoption Press, CODE, DRAINING, the staging range
locked while it waits (R530), the ports that still hold packets of the old plan (R85). -/
structure Plan where
  cur : Option PlanImage := none
  next : Option PlanImage := none
  adoptPress : Nat := 0
  code : Nat := 0
  draining : Bool := false
  lockAt : Nat := 0
  lockLen : Nat := 0
  strapChanged : Bool := false
  oldPorts : List Nat := []
deriving DecidableEq, Repr

/-! ### Memory ports (05) -/

/-- A request of a memory port toward its controller: tag, the packet, the stack offset, the cycle it was issued. -/
structure MpReq where
  tag : Nat
  pkt : Packet
  offset : Nat
  since : Nat
  stalled : Bool := false
deriving DecidableEq, Repr

structure MemPort where
  waiting : List Packet := []
  out : List MpReq := []
deriving DecidableEq, Repr

/-! ### Xadalin accumulators (07) -/

/-- A long accumulator of w bits with its state (R197, R199, R229): ZK 0 ordinary, 1 all-negative-zero, 2 empty, and
whether an invalid partial has been combined into it here (R209). -/
structure AccW (w : Nat) where
  a : BitVec w := 0
  zk : Nat := 2
  nan : Bool := false
  pinf : Bool := false
  ninf : Bool := false
  bad : Bool := false
deriving DecidableEq, Repr

/-- The 384-bit accumulator (R197). -/
abbrev Acc := AccW 384
/-- The FP64 accumulator of 2,176 bits (R229). -/
abbrev DAcc := AccW 2176

/-! ### Darners and patches (08, 09) -/

/-- A vector register: 128 bits and the scale tag (09, register specifiers). -/
structure Vec where
  bits : BitVec 128 := 0
  tag : Byte := 0x7F
deriving DecidableEq, Repr

/-- An active hardware loop (R281): level, first and last body address, iterations left, iteration index. -/
structure LoopSt where
  level : Nat
  first : Nat
  last : Nat
  left : Nat
  idx : Nat
deriving DecidableEq, Repr

/-- The section of a patch in progress (R274). -/
inductive Section where
  | prologue | body | epilogue | done
deriving DecidableEq, Repr

/-- The patch machine of one darner (09): registers, slots, PC, loops, the buffered records and the records written,
the instructions counted toward the budgets (R285), the group in progress and what the task counts. -/
structure Mach where
  v : SMap Vec := []
  x : Vec := {}
  k : BitVec 128 := 0
  s : SMap Word := []
  lc : SMap Word := []
  p : SMap (BitVec 16) := []
  p0 : BitVec 16 := 0
  slots : SMap Acc := []
  results : SMap Acc := []
  gidx : Nat := 0
  epiFree : Nat := 0
  first : Nat := 0
  count : Nat := 0
  pc : Nat := 0
  sect : Section := .done
  loops : List LoopSt := []
  buffered : List Byte := []
  records : List Byte := []
  bodyCount : Nat := 0
  sideCount : Nat := 0
  xflags : Byte := 0
  fault : Nat := 0
  input : List Byte := []
  scales : List Byte := []
  bind : List Word := []
deriving DecidableEq, Repr

/-- Task kinds (R240). -/
inductive TaskKind where
  | combine | deliver | patch
deriving DecidableEq, Repr

/-- A task queue entry (R240), with the entry's index, the cycle it entered, its run or its seam, its cost in cycles. -/
structure Task where
  entry : Nat
  kind : TaskKind
  stealable : Bool
  ordered : Bool
  stream : Nat := 0
  ctx : Nat
  born : Nat
  oseq : Nat := 0
  group : Nat := 0xFFF
  stripe : Nat := 0
  bind : Nat := 0
  count : Nat
  run : Nat := 0
  first : Nat := 0
  cost : Nat := 0
  seam : Option SeamRef := none
deriving DecidableEq, Repr

/-- One darner (R235): the task it runs and where the task came from (victim direction 0 to 3 plus 1, 0 its own
tile), whether it holds output or runs late work, END and ADMITTED (R246), the seam that reserves it and from
which Press on (R255), the victim of its last steal (R260), the steal it asks for, the bank it fetches from, the run of
its last PATCH task, whether the task's data came poisoned over a steal path (R269), the cycle at which it took its task
or began to hold, its patch machine. -/
structure Darner where
  task : Option Task := none
  from_ : Nat := 0
  holding : Bool := false
  late : Bool := false
  endAt : Nat := 0
  admitted : Nat := 0
  resv : Option SeamRef := none
  resvFrom : Nat := 0
  rot : Nat := 3
  asks : Option (Nat × Task × Nat) := none
  bank : Nat := 0
  lastRun : Nat := 0
  poisoned : Bool := false
  since : Nat := 0
  mach : Mach := {}
deriving DecidableEq, Repr

/-- A posted patch run (R244): its descriptor, the binding words resolved and the bank at acceptance (R292), the
admitted Press, what remains, the outputs placed and the results combined, the home darner of its admission (R246). -/
structure Run where
  stream : Nat := 0
  ctx : Nat := 0
  bindNo : Nat := 0
  noSteal : Bool := false
  count : Nat := 0
  src : DWord := 0
  dst : DWord := 0
  limit : Nat := 0
  tag : BitVec 16 := 0
  bind : List Word := []
  bank : Nat := 0
  press : Nat := 0
  reorder : Option Nat := none
  chunk : Nat := 0
  nChunks : Nat := 1
  entered : Nat := 0
  finished : Nat := 0
  outBytes : Nat := 0
  stopped : Bool := false
  outFull : Bool := false
  xflags : Byte := 0
  results : SMap Acc := []
  status : Nat := 0
  cost : Nat := 0
  home : Nat := 0
  late : Bool := false
deriving DecidableEq, Repr

/-- An output a reorder stream holds: OSEQ, the darner that holds it, the bytes, the fault code of its chunk. -/
structure HeldOut where
  oseq : Nat
  darner : Nat
  thief : Nat
  bytes : List Byte
  fault : Nat
  xflags : Byte := 0
deriving DecidableEq, Repr

structure Stream16 where
  active : Bool := false
  ctx : Nat := 0
  next : Nat := 0
  run : Nat := 0
  offset : Nat := 0
  held : List HeldOut := []
deriving DecidableEq, Repr

/-- A PS_LOAD in progress (R289): context, first index, instructions, granules whose read is outstanding (SSEQ,
first instruction, count), whether a read failed. -/
structure PsLoad where
  ctx : Nat
  first : Nat
  count : Nat
  reads : List (BitVec 16 × Nat × Nat)
deriving DecidableEq, Repr

structure DrnTile where
  queue : List Task := []
  darners : SMap Darner := []
  runs : SMap Run := []
  held : List Nat := []
  nextRun : Nat := 1
  streams : SMap Stream16 := []
  load : Option PsLoad := none
  sseq : BitVec 16 := 0
deriving DecidableEq, Repr

structure Darners where
  tiles : SMap DrnTile := []
  banks : SMap DWord := []
deriving DecidableEq, Repr

/-! ### Seams (10) -/

/-- A seam open descriptor (R313). -/
structure SeamDesc where
  kind : Nat := 0
  op : Nat := 0
  flags : Nat := 0
  resv3 : Nat := 0
  group : Nat := 0
  groupHi : Nat := 0
  tag : BitVec 16 := 0
  xctl : Word := 0
  root : Nat := 0
  count : Nat := 0
  countHi : Nat := 0
  src : DWord := 0
  dst : DWord := 0
  dstLimit : Nat := 0
  seed : DWord := 0
  cntDst : DWord := 0
deriving DecidableEq, Repr

/-- A value of one position as it travels: a partial of either path, or the bits of a moved element (empty: none), and
the contributions combined in it. -/
structure SVal where
  acc : Acc := {}
  dacc : DAcc := {}
  elem : List Byte := []
  n : Nat := 0
deriving DecidableEq, Repr

/-- A member's open: rank, endpoint, its stream, descriptor, replay epoch at acceptance, whether it is the shadow of a
backup slot and takes part (R343, R344), the cycle of its acceptance, and the input bytes the engine folds, by position. -/
structure MemberOpen where
  rank : Nat
  die : Nat
  tile : Nat
  stream : Nat
  desc : SeamDesc
  epoch : Nat
  shadow : Bool := false
  joined : Bool := false
  at_ : Nat := 0
  folded : SMap (List Byte) := []
deriving DecidableEq, Repr

/-- A load at an engine (R331, R348): the Press it is admitted to end in (R103), the cross-package step in progress and the Press
count that began in, the values by position in the load, whether they have been handed on and rounded, the output, the elements
written for each open by its index, whether it is finished, whether it runs late. -/
structure LoadSt where
  due : Nat
  step : Nat := 0
  stepAt : Nat := 0
  vals : SMap SVal := []
  sent : Bool := false
  final : Bool := false
  out : SMap (List Byte) := []
  wrote : SMap Nat := []
  finished : Bool := false
  late : Bool := false
deriving DecidableEq, Repr

/-- A partial or element at an engine from another package, or the totals from the stage engine, not yet used: load,
package, position, value. -/
structure InBox where
  load : Nat
  pkg : Nat
  pos : Nat
  val : SVal
deriving DecidableEq, Repr

/-- A request of a seam for resources that waits at a tile or stage engine (R330): the place, the Press count since which it
waits, whether it has raised SEAM_RES_STALL. -/
structure ResvAsk where
  die : Nat
  tile : Nat
  since : Nat
  stalled : Bool := false
deriving DecidableEq, Repr

/-- An open-seam record (R319). Phases as in VIEW_STATE: 0 exchange, 1 reserving, 2 set, 3 loading, 4 completing. On a
stage engine `home` names the home engine's record; on a home engine `stage` names the stage engine's. `lateOpens` are the
shadows' opens to be refused at completion, with whether the member still waits for an admission (R345); `old`: the sequence
counts of its group have been restarted since (R309). -/
structure SeamRec where
  group : Nat
  gseq : Nat
  ctx : Nat
  phase : Nat := 0
  first : Nat
  opens : List MemberOpen := []
  allIn : Option Nat := none
  missing : Option Nat := none
  summaries : List (List Byte) := []
  exchange : Option (Nat × Nat) := none
  fails : List (Nat × Nat) := []
  asked : Bool := false
  grants : List (Nat × Nat) := []
  reqs : List ResvAsk := []
  wait : Option (Nat × Nat) := none
  setPress : Nat := 0
  load : Nat := 0
  total : Nat := 0
  started : Nat := 0
  loads : SMap LoadSt := []
  inbox : List InBox := []
  xflags : Byte := 0
  home : Option SeamRef := none
  stage : Option SeamRef := none
  lateOpens : List (Packet × Bool) := []
  held : Bool := false
  old : Bool := false
deriving DecidableEq, Repr

/-- A seam's reservation at a tile or stage engine (R326, R327): waiting or granted, the darners and the stream and
basket taken, whether it is set, whether a yield has been asked for it. -/
structure TileResv where
  ref : SeamRef
  granted : Bool := false
  darners : List Nat := []
  stream : Nat := 16
  basket : Nat := 64
  set : Bool := false
  load : Nat := 0
  told : Bool := false
  asked : Bool := false
deriving DecidableEq, Repr

/-- A load at a member tile: stripes that have entered the queue, and the values held by position (R27): the children's partials,
at a delivering die root the load's values. `ready`: stripes whose DELIVER task waits for an entry; `rounded`: those entered.
`reads`: on the FP64 path the reads of the member's input still open, by SSEQ and byte offset; `raw`: their data by offset
until the last has come (R350). -/
structure TLoad where
  ref : SeamRef
  load : Nat
  entered : Nat := 0
  vals : SMap SVal := []
  ready : List Nat := []
  rounded : List Nat := []
  reads : List (BitVec 16 × Nat) := []
  raw : SMap (List Byte) := []
deriving DecidableEq, Repr

structure Seams where
  recs : SMap SeamRec := []
  deferred : SMap (List Packet) := []
  mirror : SMap (List Packet) := []
  seqs : SMap Nat := []
  posts : SMap Nat := []
  doneSeq : SMap Nat := []
  doneSet : List (Nat × Nat) := []
  resv : SMap (List TileResv) := []
  loads : SMap (List TLoad) := []
  early : SMap (List Packet) := []
  badGroups : List Nat := []
deriving DecidableEq, Repr

/-! ### The CIP (11) -/

/-- A credit cache entry (R363): destination queue address, context, credits held, last grant, outstanding
request, the Press of its last use. -/
structure CacheEntry where
  dest : DWord
  ctx : Nat
  credits : Nat := 0
  lastGrant : Nat := 0
  req : Option (BitVec 16) := none
  later : Bool := false
  used : Nat := 0
  stamp : Nat := 0
deriving DecidableEq, Repr

/-- What a blocked stream waits for (STREAM_STATE). -/
inductive Wait where
  | credit (addr : DWord) (nbytes : Nat) (payload : List Byte)
  | cacheEntry (addr : DWord) (nbytes : Nat) (payload : List Byte)
  | post (desc : List Byte)
  | arm (basket entry tag expect : Nat)
  | recv (queue : Nat)
  | ring (ring : Nat)
  | peg (p : Packet)
  | doorbell (d : Nat) (v : Word)
  | add (sseq : BitVec 16)
  | pause (c : Instr)
deriving DecidableEq, Repr

structure Stream where
  ctx : Nat
  wait : Wait
  since : Nat
  order : Nat
  stalled : Bool := false
  repeated : Bool := false
deriving DecidableEq, Repr

/-- A receive queue entry (R359), with the stamp of an ordered queue (R368). -/
structure QEntry where
  word : DWord
  data : List Byte
  stamp : Nat := 0
  stall : Bool := false
deriving DecidableEq, Repr

/-- A waiter for entries of a queue (R364): a credit request, or a local reservation of a stream. -/
inductive Waiter where
  | credit (p : Packet)
  | localResv (stream need : Nat)
deriving DecidableEq, Repr

structure Queue where
  tail : Nat := 0
  visible : List QEntry := []
  held : List QEntry := []
  outst : Nat := 0
  resv : Nat := 0
  waiters : List Waiter := []
  stallFrom : Word := 0
deriving DecidableEq, Repr

/-- A record placed in a ring: its unwrapped start and length, whether it is committed (R376). -/
structure RingRec where
  start : Nat
  len : Nat
  committed : Bool
deriving DecidableEq, Repr

structure Ring where
  head : Nat := 0
  tail : Nat := 0
  visible : Nat := 0
  recs : List RingRec := []
  marks : List Nat := []
  waiting : List Packet := []
deriving DecidableEq, Repr

/-- What a descriptor in progress waits for: to be started (its hold queue, a Press, an earlier multicast of its tree),
the answer to RING_RESERVE, the answer to a READ, to a WRITE, the acknowledgements of a multicast. -/
inductive DPhase where
  | queued | reserving | reading | writing | acking
deriving DecidableEq, Repr

/-- A descriptor held at the admission point or in progress (R378, R382, R408): `held` deferred at admission (R188), the
bytes moved, the piece in flight and its bytes, the SSEQ of the outstanding request, the NACK_RETRY answers in a row
(R586), whether it is to be repeated at step 7, the Press a credit wait for ring space began in (R371) and whether it
has stalled, the record's place in the ring, the bytes acknowledged, the Press of the last packet (R383). -/
structure Desc where
  id : Nat
  bytes : List Byte
  kind : Nat
  stream : Nat
  ctx : Nat
  held : Bool := false
  admPress : Nat := 0
  phase : DPhase := .queued
  pos : Nat := 0
  len : Nat := 0
  data : List Byte := []
  header : Bool := false
  sseq : BitVec 16 := 0
  nacks : Nat := 0
  again : Bool := false
  since : Nat := 0
  stalled : Bool := false
  ringOff : Nat := 0
  ringBase : Nat := 0
  ringSize : Nat := 0
  acked : Nat := 0
  injected : Nat := 0
  read : List Byte := []
deriving DecidableEq, Repr

/-- A request of the CIP to its cluster memory: tag, address, whether it writes, the packet it serves. -/
structure CmReq where
  tag : Nat
  addr : Nat
  we : Bool
  data : List Byte
  pkt : Option Packet
deriving DecidableEq, Repr

/-- A fetch outstanding (R559): stream, SSEQ. -/
structure Fetch where
  stream : Nat
  sseq : BitVec 16
deriving DecidableEq, Repr

/-- Acknowledged bytes of a tree gathered at a member or merging tile (R383). -/
structure AckMerge where
  tree : Nat
  dest : DWord
  ctx : Nat
  bytes : Nat
  at_ : Nat := 0
deriving DecidableEq, Repr

/-- An open posted and not yet answered (R316): SSEQ, stream, context, descriptor. -/
structure OpenPost where
  sseq : BitVec 16
  stream : Nat
  ctx : Nat
  desc : List Byte
deriving DecidableEq, Repr

structure Cip where
  cache : SMap CacheEntry := []
  freed : List CacheEntry := []
  streams : SMap Stream := []
  queues : SMap Queue := []
  rings : SMap Ring := []
  doorbells : SMap Word := []
  descs : List Desc := []
  nextDesc : Nat := 1
  sseq : SMap (BitVec 16) := []
  reqSeq : BitVec 16 := 0
  cmWaiting : List CmReq := []
  cmOut : List CmReq := []
  fetches : List Fetch := []
  order : Nat := 0
  opens : List OpenPost := []
deriving DecidableEq, Repr

structure Cips where
  tiles : SMap Cip := []
  merges : SMap (List AckMerge) := []
deriving DecidableEq, Repr

/-! ### Baskets and pegs (11) -/

structure BasketEntry where
  armed : Bool := false
  tag : Nat := 0
  expect : Nat := 0
  count : Nat := 0
  acc : Acc := {}
  armSeq : Nat := 0
deriving DecidableEq, Repr

structure PegWaiter where
  w : Word
  pkt : Packet
deriving DecidableEq, Repr

structure Peg where
  value : Word := 0
  target : Word := 0
  gen : Word := 0
  auto : Bool := false
  armed : Bool := false
  reached : Bool := false
  waiters : List PegWaiter := []
deriving DecidableEq, Repr

/-! ### Tally, log and pairs (12) -/

/-- A tally entry due (R403): kind, the keys of R404's order, IDENT, DIGEST, PRESS, the epoch record. -/
structure TEntry where
  kind : Nat
  key : List Nat
  ident : List Byte
  digest : List Byte
  press : Nat
  epochRec : List Byte := []
deriving DecidableEq, Repr

/-- The chain of one context (R398 to R409). On a following mirror its own entries wait two boundaries in delay1 and delay2, so that they
enter with the delta of their boundary (R414). `shown`: the tally, its PRESS and count that
reads return until the fold of the Press, where a boundary has entered more (R108). -/
structure Chain where
  epoch : Nat := 0
  tally : List Byte := []
  press : Nat := 0
  count : Word := 0
  lseq : Nat := 0
  due : List TEntry := []
  carried : List TEntry := []
  delay1 : List TEntry := []
  delay2 : List TEntry := []
  insq : SMap Nat := []
  shown : Option (List Byte × Nat × Word) := none
deriving DecidableEq, Repr

/-- A log record of a TLY unit (R409, R411): the storage ports it is still to reach, whether it goes out again after a
promotion (R422), whether it has left a storage port already (R416). -/
structure LogRec where
  ctx : Nat
  press : Nat
  ports : List Nat
  bytes : List Byte
  resent : Bool := false
  left : Bool := false
deriving DecidableEq, Repr

structure TlyUnit where
  buf : List LogRec := []
  flight : List LogRec := []
  held : List LogRec := []
  lost : SMap (Nat × Nat) := []
  mark : Nat := 0
deriving DecidableEq, Repr

structure Tally where
  chains : SMap Chain := []
  units : SMap TlyUnit := []
deriving DecidableEq, Repr

/-- A delta entry (R416) with the n of its delta and the Press from which it is due. -/
structure DeltaEvent where
  n : Nat
  due : Nat
  bytes : List Byte
  lagged : Bool := false
deriving DecidableEq, Repr

/-- A fragment of a delta (R450): its n, index, the die of the mirror port it came from, whether it is the last. -/
structure PairFrag where
  n : Nat
  idx : Nat
  die : Nat
  last : Bool
  bytes : List Byte
deriving DecidableEq, Repr

/-- The pair unit (12): ROLE, PROMOTED, FOLLOWING, the first Press whose boundary the pair counts, misses, whether a PAIR_ACK came in this
Press, Presses without one, the losses raised, fragments received, events held, n of the last delta, after an activation pause the next
delta to take and the first Press after the pause (R550), the primary's events since its last
boundary and deltas to send, the first divergence and how many. -/
structure Pair where
  role : Nat := 0
  promoted : Bool := false
  following : Bool := false
  base : Option Nat := none
  misses : Nat := 0
  acked : Bool := false
  ackMisses : Nat := 0
  mirrorLost : Bool := false
  primaryLost : Bool := false
  frags : List PairFrag := []
  held : List DeltaEvent := []
  last : Nat := 0
  behind : Option (Nat × Nat) := none
  events : List (List Byte) := []
  pendingDelta : List (Nat × List (List Byte)) := []
  divValid : Bool := false
  divCause : Nat := 0
  divCtx : Nat := 0
  divPress : Nat := 0
  divCount : Nat := 0
deriving DecidableEq, Repr

/-! ### Links and modules (13) -/

/-- States of a link: STATE codes of DBR_STATUS and LNK_STATUS. -/
inductive LinkState where
  | off | training | ready | up | hold | lowPower
deriving DecidableEq, Repr

/-- A group or course sent and kept for replay (R432, R441): its number, its control symbol, what it carries, and the packets
that end in it. -/
structure TxFrame where
  seq : Nat
  sym : Nat := 0
  slots : List FlitSlot := []
  units : List (List Byte) := []
  pkts : List Packet := []
deriving DecidableEq, Repr

/-- A packet partly received over a bridge module: its plane, the packet so far, the flits that have not come (R431). -/
structure RxPart where
  plane : Nat
  pkt : Packet
  left : Nat
deriving DecidableEq, Repr

/-- A bridge module or Sundi port (13): state, training step, cause of HOLD, sequence numbers, the groups or courses kept for
replay, packets partly received (of a Sundi port the units of the one in progress), NAKs in a row of one number, a replay the
activation pause holds (R429), whether the receiver waits for a replay, the Press a retrain began in, spares, the peer's
identity and whether a module's has come (R433), share and latency, failed lanes, the identity frame seen and its fragments, the
level, a marker accepted at the last boundary, loss (R448), a bridge lost whole (R491), courses received ahead of a selective
replay (R443), the peer's plan hash seen (R447), the state LP2 returns to (R434). -/
structure Link where
  st : LinkState := .off
  step : Nat := 0
  cause : Nat := 0
  peerSafe : Bool := false
  txSeq : Nat := 0
  rxSeq : Nat := 0
  replay : List TxFrame := []
  parts : List RxPart := []
  rxUnits : List (List Byte) := []
  replayDue : Option (Nat × Bool) := none
  back : LinkState := .off
  identSeen : Bool := false
  nakSeq : Nat := 0
  nakCount : Nat := 0
  waitingReplay : Bool := false
  since : Nat := 0
  spares : Nat := 0
  companion : Nat := 0
  peerDie : Nat := 0
  peerDir : Nat := 0
  peerShare : Word := 0x08200018
  laneFail : Nat := 0
  seen : List Byte := []
  frame : SMap (List Byte) := []
  level : Nat := 0
  lat : Nat := 0
  markerOk : Bool := false
  lost : Bool := false
  unplaced : Bool := false
  ahead : List (Nat × List (List Byte)) := []
  planSeen : Bool := false
deriving DecidableEq, Repr

/-- A storage port (R451): PCS link, the records of the datagram being filled with their RESENT flag, DSEQ. -/
structure StoPort where
  link : Bool := false
  filling : List (Bool × List Byte) := []
  dseq : Nat := 0
deriving DecidableEq, Repr

structure Links where
  mods : SMap Link := []
  ports : SMap Link := []
  stos : SMap StoPort := []
  folded : List (Nat × Nat) := []
deriving DecidableEq, Repr

/-- A request of a host adapter not yet answered: SSEQ, TLP tag, whether it writes, BAR offset, bytes collected. -/
structure HostReq where
  sseq : BitVec 16
  tag : Nat
  we : Bool
  offset : Nat
  left : Nat
deriving DecidableEq, Repr

/-- A host adapter (R454 to R459): inbound requests waiting and sent, the MSI-X table of 32 vectors (address,
data, mask), pending bits, causes, LAST_ERR. -/
structure HostPort where
  waiting : List (Bool × Tlp) := []
  sent : List HostReq := []
  sseq : BitVec 16 := 0
  msix : SMap Word := []
  pendingBits : Word := 0
  cause : Word := 0
  errValid : Bool := false
  errCode : Byte := 0
  errAddr : DWord := 0
  pins : HostPins := {}
deriving DecidableEq, Repr

/-- A laser module as OPT_STATUS.STATE names it, its record, HOURS, ticks since the store was written, failed I3C
transactions in a row, the power of both ports and the samples in a row below and above POWER_MIN. -/
structure Engine where
  st : Nat := 0
  record : List Byte := []
  hours : Nat := 0
  ticks : Nat := 0
  wear : Bool := false
  eol : Bool := false
  fails : Nat := 0
  p0 : Nat := 0
  p1 : Nat := 0
  low0 : Nat := 0
  low1 : Nat := 0
  good0 : Nat := 0
  good1 : Nat := 0
deriving DecidableEq, Repr

/-! ### Faults (14) -/

/-- A fault record (R466); severity 0 to 4. -/
structure FaultRec where
  code : Nat
  sev : Nat := 0
  masked : Bool := false
  page : Nat
  die : Nat
  bit : Nat
  ctx : Option Nat := none
  press : Nat := 0
  detail : Word := 0
  cycle : Nat := 0
deriving DecidableEq, Repr

/-- A part in quiesce (R482): kind of reset 2 to 4, die, tile or port, phase 1 to 4. -/
structure Quiesce where
  kind : Nat
  die : Nat
  part : Nat
  phase : Nat
  since : Nat
deriving DecidableEq, Repr

structure Faults where
  raised : List FaultRec := []
  recs : SMap (List FaultRec) := []
  toRoot : List FaultRec := []
  root : List FaultRec := []
  rootCount : Word := 0
  safeDies : List Nat := []
  isolated : List Nat := []
  errLow : Bool := false
  pulse : Bool := false
  safeCause : Word := 0
  ctxResets : List Nat := []
  failedTest : SMap Nat := []
  spare : SMap Nat := []
deriving DecidableEq, Repr

/-! ### Keep, resets, power (15) -/

structure Keep where
  rollback : Nat := 0
  unitHash : List Byte := List.replicate 32 0
  pairCfg : Word := 0x400
  replayEpoch : Nat := 0
  faultNext : Nat := 0
  faultTotal : Word := 0
  faultRecs : SMap FaultRec := []
  spares : SMap Byte := []
  accept : SMap DWord := []
  shadows : SMap (DWord × Nat) := []
  area : SMap Word := []
  lost : Bool := false
  ecc : Word := 0
  brownOut : Bool := false
  vbatLow : Bool := false
  onVbat : Bool := false
deriving DecidableEq, Repr

/-- A queued context command (R509). -/
structure CtxCmd where
  op : Nat
  ctx : Nat
deriving DecidableEq, Repr

/-- Power states of the package (R510). -/
inductive LpState where
  | running | entering (to3 : Bool) | lp2 | leaving | lp3
deriving DecidableEq, Repr

structure ResetPower where
  busy : Option Quiesce := none
  result : Nat := 0
  ctxCmds : List CtxCmd := []
  heldActs : List Nat := []
  ctxResult : Word := 0
  active : List Nat := []
  lostAct : List (Nat × Nat) := []
  dueResets : List Nat := []
  lp : LpState := .running
  lpCause : Nat := 0
  asleep : List (Nat × Nat) := []
  heldCmds : List Instr := []
deriving DecidableEq, Repr

/-! ### Firmware and the service port (16) -/

structure SetSlot where
  valid : Bool := false
  rb : Nat := 0
  epoch : Nat := 0
  actSeq : Nat := 0
deriving DecidableEq, Repr

/-- STATE of FW_STATUS. -/
inductive FwState where
  | idle | checking | checked | programming | ready | armed | pause
deriving DecidableEq, Repr

/-- The update unit (16): STATE and CODE, recovery, whether the FMC runs from a slot, the slots, FALLBACK, the epoch of the
library in use, the locked range (R530), what the checked bundle declares and the slot it goes to, P; the activation pause: whether it
holds, the cycle it began, PAUSE_LAST, whether the new set has taken effect, whether boundary work is carried to the boundary of R547,
the Presses that paused counts leave out (R549). -/
structure Firmware where
  st : FwState := .idle
  code : Nat := 0
  recovery : Bool := false
  running : Bool := false
  slot0 : SetSlot := {}
  slot1 : SetSlot := {}
  fallback : Bool := false
  libEpoch : Nat := 0
  lockAt : Nat := 0
  lockLen : Nat := 0
  newRb : Nat := 0
  newEpoch : Nat := 0
  newSlot : Nat := 0
  actPress : Nat := 0
  inPause : Bool := false
  pauseFrom : Nat := 0
  pauseLast : Nat := 0
  loaded : Bool := false
  carried : Bool := false
  pausedPresses : Nat := 0
deriving DecidableEq, Repr

/-- A cached reply (R529): key, TYPE, STATUS and body of the reply. -/
structure SvcReply where
  src : SvcSrc
  typ : Nat
  status : Nat
  body : List Byte
deriving DecidableEq, Repr

structure Service where
  valid : Bool := false
  config : List Byte := []
  index : Nat := 0
  map : SMap Byte := []
  cache : List SvcReply := []
  nseq : Word := 0
deriving DecidableEq, Repr

/-! ### Outputs -/

/-- What the fabric gives its surroundings, in order (log 3). -/
inductive Output where
  | regDone (m : Master) (status : Nat) (value : Word)
  | cipRsp (die tile stream status : Nat) (data : List Byte)
  | fetchRsp (die tile stream status : Nat) (data : List Byte)
  | mpReq (die port tag addr : Nat) (we : Bool) (data : List Byte)
  | cmReq (die tile tag addr : Nat) (we : Bool) (data : List Byte)
  | userRead (addr : DWord) (n : Nat)
  | userWrite (addr : DWord) (data : List Byte)
  | linkSym (die link seq typ body : Nat)
  | group (die link : Nat) (cycles : List BridgeCycle)
  | course (port : Nat) (lanes : List (Nat × List Byte))
  | datagram (port : Nat) (bytes : List Byte)
  | msix (h vector : Nat) (addr : DWord) (data : Word)
  | tlp (h tag status : Nat) (data : List Byte)
  | notice (entry : Nat) (bytes : List Byte)
  | svcReply (src : SvcSrc) (bytes : List Byte)
  | errN (low : Bool)
  | laser (die g : Nat) (on : Bool)
  | moduleStore (die g hours : Nat)
  | tdo (die : Nat) (value : Word)
deriving DecidableEq, Repr

/-- The state of the fabric. `out` and `fresh` are the model's own fields, `pending` the queue of commands. -/
structure State where
  tm : TimeBase := {}
  rg : Regs := {}
  nt : Net := {}
  pl : Plan := {}
  mp : SMap MemPort := []
  dr : Darners := {}
  se : Seams := {}
  ci : Cips := {}
  bk : SMap BasketEntry := []
  pg : SMap Peg := []
  ty : Tally := {}
  pr : Pair := {}
  lk : Links := {}
  hs : SMap HostPort := []
  op : SMap Engine := []
  ft : Faults := {}
  kp : Keep := {}
  rs : ResetPower := {}
  fw : Firmware := {}
  sv : Service := {}
  ram : List Host.Cell := []
  jt : SMap Word := []
  out : List Output := []
  fresh : Nat := 0
  pending : List Instr := []
deriving DecidableEq, Repr

/-- The fabric has no stop that a command of the table ends in: no meaning answers a fault. -/
inductive Fault where
  /-- Raised by no meaning: the manual gives every failure a status, a record or a severity action (14). Safe. -/
  | none
deriving DecidableEq, Repr

/-- Refusals. -/
inductive Refusal where
  /-- Raised by the dispatcher for a command without a meaning. Safe. -/
  | notModelled (mnemonic : String)
deriving DecidableEq, Repr

/-- The machine right after reset: every register at its reset value, every unit empty, no Press number, no plan,
Keep at the defaults of R521 (log 1). -/
def State.reset : State := {}

end Sys2Proof.Machine
end

