-- ==== Sys2Proof/Machine/Ops.lean ====
section
/-! DEFINITION. The shared operations every meaning uses: keyed stores, bytes and bit fields, little-endian fields,
keys of dies, tiles and pages, outputs, free values. -/
namespace Sys2Proof.Machine

/-! ### Keyed stores -/

/-- The value at key k, or d where the store lists none. -/
def look {V : Type} (d : V) : SMap V → Nat → V
  | [], _ => d
  | (k', v) :: m, k => if k' = k then v else look d m k

/-- The value at key k, if listed. -/
def look? {V : Type} : SMap V → Nat → Option V
  | [], _ => none
  | (k', v) :: m, k => if k' = k then some v else look? m k

/-- The store without key k. -/
def drop {V : Type} : SMap V → Nat → SMap V
  | [], _ => []
  | (k', v) :: m, k => if k' = k then drop m k else (k', v) :: drop m k

/-- The store with v at key k, keys rising. -/
def ins {V : Type} : SMap V → Nat → V → SMap V
  | [], k, v => [(k, v)]
  | (k', v') :: m, k, v =>
    if k < k' then (k, v) :: (k', v') :: m
    else if k = k' then (k, v) :: m
    else (k', v') :: ins m k v

/-- The store after a write of v at key k, where an unlisted key reads as d. -/
def put {V : Type} [DecidableEq V] (d : V) (m : SMap V) (k : Nat) (v : V) : SMap V :=
  if v = d then drop m k else ins m k v

/-- The store with f applied at key k. -/
def upd {V : Type} [DecidableEq V] (d : V) (m : SMap V) (k : Nat) (f : V → V) : SMap V :=
  put d m k (f (look d m k))

/-- Keys strictly rising from a lower bound, no entry equal to d. -/
def sorted {V : Type} [DecidableEq V] (d : V) : Nat → SMap V → Bool
  | _, [] => true
  | b, (k, v) :: m => decide (b ≤ k) && decide (v ≠ d) && sorted d (k + 1) m

/-- The canonical form of a store. -/
def canon {V : Type} [DecidableEq V] (d : V) (m : SMap V) : Bool := sorted d 0 m

/-- The canonical form of the one memory the block holds, staging SRAM: addresses rising, no byte listed that reads as an unlisted one. -/
def Memory.wf (m : List Host.Cell) : Bool := canon 0 m

/-- The entries whose keys satisfy p. -/
def keep {V : Type} (p : Nat → Bool) (m : SMap V) : SMap V := m.filter fun e => p e.1

/-! ### Bytes and bit fields -/

/-- Bits [hi:lo] of a number. -/
def bits (x hi lo : Nat) : Nat := (x >>> lo) % 2 ^ (hi + 1 - lo)

/-- Bit i of a number. -/
def bit (x i : Nat) : Bool := x.testBit i

/-- A Bool as a number. -/
def b2n (b : Bool) : Nat := if b then 1 else 0

/-- Bits [hi:lo] of a register word. -/
def wbits (x : Word) (hi lo : Nat) : Nat := bits x.toNat hi lo

/-- A number as a register word. -/
def w32 (n : Nat) : Word := BitVec.ofNat 32 n

/-- A number as a 64-bit quantity. -/
def w64 (n : Nat) : DWord := BitVec.ofNat 64 n

/-- Two registers as one 64-bit quantity, low half first (R37). -/
def pair64 (lo hi : Word) : DWord := w64 (lo.toNat + hi.toNat * 2 ^ 32)

/-- Bits [31:0] of a 64-bit quantity. -/
def lo32 (x : DWord) : Word := w32 x.toNat

/-- Bits [63:32] of a 64-bit quantity. -/
def hi32 (x : DWord) : Word := w32 (x.toNat >>> 32)

/-- A signed number as a 32-bit word. -/
def int32 (i : Int) : Word := BitVec.ofInt 32 i

/-- The n bytes of a number, least significant first (R9). -/
def leBytes : (n x : Nat) → List Byte
  | 0, _ => []
  | n + 1, x => BitVec.ofNat 8 x :: leBytes n (x / 256)

/-- The number that bytes spell, least significant first (R9). -/
def ofLe : List Byte → Nat
  | [] => 0
  | b :: bs => b.toNat + 256 * ofLe bs

/-- Byte i of a byte string (0 beyond its end). -/
def byteAt (bs : List Byte) (i : Nat) : Byte := bs.getD i 0

/-- n bytes from offset o. -/
def slice (bs : List Byte) (o n : Nat) : List Byte := (bs.drop o).take n

/-- The n-byte field at offset o. -/
def field (bs : List Byte) (o n : Nat) : Nat := ofLe (slice bs o n)

/-- Exactly n bytes: cut, or filled with zeros. -/
def padTo (n : Nat) (bs : List Byte) : List Byte := bs.take n ++ List.replicate (n - bs.length) 0

/-- bs with the bytes new at offset o. -/
def splice (bs : List Byte) (o : Nat) (new : List Byte) : List Byte :=
  padTo o bs ++ new ++ bs.drop (o + new.length)

/-- Cut into pieces of n bytes (fuel: the number of pieces allowed). -/
def chunk (n : Nat) : (fuel : Nat) → List Byte → List (List Byte)
  | 0, _ => []
  | _ + 1, [] => []
  | f + 1, bs => bs.take n :: chunk n f (bs.drop n)

/-- ⌈a / b⌉. -/
def ceilDiv (a b : Nat) : Nat := (a + b - 1) / b

/-- a − b, wrapping modulo 2^16, for serial numbers. -/
def seqLt (a b : BitVec 16) : Bool := a ≠ b && (b - a).toNat < 32768

/-- List update at index i. -/
def setAt {α : Type} (xs : List α) (i : Nat) (x : α) : List α := xs.set i x

/-- The first element that satisfies p, removed: (found, rest). -/
def takeFirst {α : Type} (p : α → Bool) : List α → Option α × List α
  | [] => (none, [])
  | x :: xs => if p x then (some x, xs) else let (r, ys) := takeFirst p xs; (r, x :: ys)

/-- Rewrites every element that satisfies p. -/
def mapIf {α : Type} (p : α → Bool) (f : α → α) (xs : List α) : List α :=
  xs.map fun x => if p x then f x else x

/-- Insertion by a strict order, stable. -/
def insBy {α : Type} (lt : α → α → Bool) (x : α) : List α → List α
  | [] => [x]
  | y :: ys => if lt x y then x :: y :: ys else y :: insBy lt x ys

/-- Stable insertion sort. -/
def sortBy {α : Type} (lt : α → α → Bool) : List α → List α
  | [] => []
  | x :: xs => insBy (fun a b => !lt b a) x (sortBy lt xs)

/-- Lexicographic order of lists of numbers. -/
def lexLt : List Nat → List Nat → Bool
  | [], [] => false
  | [], _ :: _ => true
  | _ :: _, [] => false
  | a :: as, b :: bs => if a < b then true else if b < a then false else lexLt as bs

/-- Runs an operation for every element of a list, in order. -/
def forEach {α : Type} (xs : List α) (f : α → State → State) (s : State) : State :=
  xs.foldl (fun s x => f x s) s

/-- The operation, if the condition holds. -/
def doIf (c : Bool) (f : State → State) (s : State) : State := if c then f s else s

/-! ### Keys -/

/-- Key of a tile of a die. -/
def tk (die tile : Nat) : Nat := die * 256 + tile

/-- Key of a page of a die. -/
def pk (die page : Nat) : Nat := die * 4096 + page

/-- Key of a register of a page; sel is the entry a select register names (0 where there is none). -/
def rk (die page off sel : Nat) : Nat := (pk die page * 4096 + off) * 16384 + sel

/-- Key of a darner. -/
def dkey (die tile d : Nat) : Nat := tk die tile * 8 + d

/-- Key of a seam engine of the package, and of one of its open-seam records. -/
def ek (die eng : Nat) : Nat := die * 4 + eng
def seamKey (die eng slot : Nat) : Nat := ek die eng * 256 + slot

/-! ### Outputs and free values -/

/-- Gives the surroundings o. -/
def emit (o : Output) (s : State) : State := { s with out := s.out ++ [o] }

/-- The pieces of an access to memory, one for each 512-byte granule: offset and bytes (R65). Fuel: the granules. -/
def granules : (fuel : Nat) → (addr off n : Nat) → List (Nat × Nat)
  | 0, _, _, _ => []
  | f + 1, addr, off, n =>
    if n = 0 then []
    else
      let k := min n (512 - (addr + off) % 512)
      (off, k) :: granules f addr (off + k) (n - k)
def granulesOf (a : DWord) (n : Nat) : List (Nat × Nat) := granules (n / 512 + 2) a.toNat 0 n

/-- A tile reads, or writes, bytes of its package's memory: one access for each granule (R65). The memory is the
surroundings'. -/
def userLoad (a : DWord) (n : Nat) (s : State) : State :=
  { s with out := s.out ++ (granulesOf a n).map fun e => .userRead (a + w64 e.1) e.2 }
def userStore (a : DWord) (bs : List Byte) (s : State) : State :=
  { s with out := s.out ++ (granulesOf a bs.length).map fun e => .userWrite (a + w64 e.1) (slice bs e.1 e.2) }

/-- The next free value: a value the manual leaves open. -/
def freeVal (s : State) : Nat := Config.freeNat s.fresh

/-- The state once the free value has been used. -/
def freshen (s : State) : State := { s with fresh := s.fresh + 1 }

end Sys2Proof.Machine
end

