-- ==== Sys2Proof/Machine/Hash.lean ====
section
/-! DEFINITION. SHA3-256 (R10, R81, R215, R401), SHA-384 (R538), the CRC-16 of R91, the CRC-24 of R431. Words are numbers below 2^64. -/
namespace Sys2Proof.Machine

/-! ### SHA3-256 -/

def m64 : Nat := 2 ^ 64

/-- Left rotation of a 64-bit word. -/
def rotl (x r : Nat) : Nat := if r = 0 then x else (x <<< r) % m64 ||| (x >>> (64 - r))

/-- The round constants of Keccak-f[1600]. -/
def kRC : List Nat :=
  [0x0000000000000001, 0x0000000000008082, 0x800000000000808A, 0x8000000080008000, 0x000000000000808B,
   0x0000000080000001, 0x8000000080008081, 0x8000000000008009, 0x000000000000008A, 0x0000000000000088,
   0x0000000080008009, 0x000000008000000A] ++
  [0x000000008000808B, 0x800000000000008B, 0x8000000000008089, 0x8000000000008003, 0x8000000000008002,
   0x8000000000000080, 0x000000000000800A, 0x800000008000000A, 0x8000000080008081, 0x8000000000008080,
   0x0000000080000001, 0x8000000080008008]

/-- The rotation offsets, lane x + 5 y. -/
def kRot : List Nat :=
  [0, 1, 62, 28, 27, 36, 44, 6, 55, 20, 3, 10, 43, 25, 39, 41, 45, 15, 21, 8, 18, 2, 61, 56, 14]

def lane (a : List Nat) (i : Nat) : Nat := a.getD i 0

/-- One round of Keccak-f[1600] on 25 lanes. -/
def kRound (a : List Nat) (rc : Nat) : List Nat :=
  let c := (List.range 5).map fun x =>
    lane a x ^^^ lane a (x + 5) ^^^ lane a (x + 10) ^^^ lane a (x + 15) ^^^ lane a (x + 20)
  let d := (List.range 5).map fun x => lane c ((x + 4) % 5) ^^^ rotl (lane c ((x + 1) % 5)) 1
  let t := (List.range 25).map fun i => lane a i ^^^ lane d (i % 5)
  let b := (List.range 25).map fun i =>
    let x' := i % 5
    let y' := i / 5
    let x := (x' + 3 * y') % 5
    let src := x + 5 * x'
    rotl (lane t src) (lane kRot src)
  let e := (List.range 25).map fun i =>
    let x := i % 5
    let y := i / 5
    lane b i ^^^ ((m64 - 1 - lane b ((x + 1) % 5 + 5 * y)) &&& lane b ((x + 2) % 5 + 5 * y))
  match e with
  | h :: r => (h ^^^ rc) :: r
  | [] => []

/-- Keccak-f[1600]. -/
def keccakF (a : List Nat) : List Nat := kRC.foldl kRound a

/-- Absorbs one block of 136 bytes. -/
def absorb (a : List Nat) (blk : List Byte) : List Nat :=
  keccakF ((List.range 25).map fun i => if i < 17 then lane a i ^^^ field blk (8 * i) 8 else lane a i)

/-- The message with the SHA-3 padding, a multiple of 136 bytes. -/
def sha3Pad (m : List Byte) : List Byte :=
  let r := 136 - m.length % 136
  if r = 1 then m ++ [0x86] else m ++ [0x06] ++ List.replicate (r - 2) 0 ++ [0x80]

/-- SHA3-256: 32 bytes in the order the function outputs them (R10). -/
def sha3 (m : List Byte) : List Byte :=
  let a := (chunk 136 (m.length / 136 + 1) (sha3Pad m)).foldl absorb (List.replicate 25 0)
  (leBytes 8 (lane a 0)) ++ (leBytes 8 (lane a 1)) ++ (leBytes 8 (lane a 2)) ++ (leBytes 8 (lane a 3))

/-! ### SHA-384 -/

def rotr (x r : Nat) : Nat := rotl x (64 - r)

/-- The XOR of several rotations of a word. -/
def rotations (x : Nat) (rs : List Nat) : Nat := rs.foldl (fun acc r => acc ^^^ rotr x r) 0

/-- The whole part of a k-th root, its n lowest bits sought from the highest down. -/
def rootFrom (k x : Nat) : (n acc : Nat) → Nat
  | 0, acc => acc
  | n + 1, acc => rootFrom k x n (if (acc + 2 ^ n) ^ k ≤ x then acc + 2 ^ n else acc)

/-- The first 64 bits of the fraction of the k-th root of p. -/
def rootWord (k p : Nat) : Nat := rootFrom k (p <<< (64 * k)) 70 0 % m64

/-- The primes below 410: 80 of them. -/
def smallPrimes : List Nat :=
  (List.range 410).filter fun n => decide (1 < n) && (List.range 19).all fun d => decide (n ≤ d + 2) || decide (n % (d + 2) ≠ 0)

/-- The round constants, from the cube roots of the first 80 primes, and the starting value, from the square roots of the 9th
to the 16th (FIPS 180-4). -/
def cubeWords : List Nat := smallPrimes.map (rootWord 3)
def startWords : List Nat := ((smallPrimes.drop 8).take 8).map (rootWord 2)

/-- The number that bytes spell, most significant first. -/
def ofBe (bs : List Byte) : Nat := ofLe bs.reverse
def beBytes (n x : Nat) : List Byte := (leBytes n x).reverse

/-- The words of a block that follow the last 16, n of them. -/
def schedule : (n : Nat) → (last16 : List Nat) → List Nat
  | 0, _ => []
  | n + 1, ws =>
    let spread (x : Nat) (rs : List Nat) (sh : Nat) : Nat := rotations x rs ^^^ (x >>> sh)
    let new := (lane ws 0 + spread (lane ws 1) [1, 8] 7 + lane ws 9 + spread (lane ws 14) [19, 61] 6) % m64
    new :: schedule n (ws.tail ++ [new])

/-- One round on the eight working words, with the sum of its constant and its message word. -/
def compressStep (x : List Nat) (kw : Nat) : List Nat :=
  let choice := lane x 6 ^^^ (lane x 4 &&& (lane x 5 ^^^ lane x 6))
  let major := (lane x 0 &&& lane x 1) ||| (lane x 2 &&& (lane x 0 ||| lane x 1))
  let add := lane x 7 + rotations (lane x 4) [14, 18, 41] + choice + kw
  let head := (add + rotations (lane x 0) [28, 34, 39] + major) % m64
  head :: (x.take 3 ++ (lane x 3 + add) % m64 :: (x.drop 4).take 3)

/-- One block of 128 bytes. -/
def compress (h : List Nat) (blk : List Byte) : List Nat :=
  let first := (chunk 8 16 blk).map ofBe
  let x := (cubeWords.zipWith (· + ·) (first ++ schedule 64 first)).foldl compressStep h
  h.zipWith (fun a b => (a + b) % m64) x

/-- SHA-384: 48 bytes. -/
def sha384 (m : List Byte) : List Byte :=
  let zeros := (128 + 112 - (m.length + 1) % 128) % 128
  let padded := m ++ 0x80 :: List.replicate zeros 0 ++ beBytes 16 (8 * m.length)
  (((chunk 128 (m.length / 128 + 2) padded).foldl compress startWords).take 6).flatMap (beBytes 8)

/-! ### CRC-16, polynomial 0x1021, initial value 0xFFFF (R91, R439) -/

/-- n steps of the register. -/
def crcSteps : Nat → Nat → Nat
  | 0, c => c
  | n + 1, c => if c.testBit 15 then crcSteps n (((c * 2) % 65536) ^^^ 0x1021) else crcSteps n ((c * 2) % 65536)

/-- The CRC-16 of bytes, most significant bit first, not reflected, no final XOR. -/
def crc16 (bs : List Byte) : Nat := bs.foldl (fun c b => crcSteps 8 (c ^^^ (b.toNat * 256))) 0xFFFF

/-! ### CRC-24, polynomial 0x864CFB (R431) -/

def crc24Steps : Nat → Nat → Nat
  | 0, c => c
  | n + 1, c => if c.testBit 23 then crc24Steps n (((c * 2) % 2 ^ 24) ^^^ 0x864CFB) else crc24Steps n ((c * 2) % 2 ^ 24)

/-- The CRC-24 of bytes. The manual gives the polynomial alone: initial value 0 and, as in the CRC-16 of R91, the most
significant bit first, not reflected, no final XOR (DESIGN CHOICE, log 120). -/
def crc24 (bs : List Byte) : Nat := bs.foldl (fun c b => crc24Steps 8 (c ^^^ (b.toNat * 2 ^ 16))) 0

end Sys2Proof.Machine
end

