-- ==== Sys2Proof/Machine/Topology.lean ====
section
/-! DEFINITION. Dies, tiles, tracks, fabric addresses and the torus shapes (01, 03, 05). -/
namespace Sys2Proof.Machine

/-- Die types (R15). -/
inductive DieType where
  | compute | memside | io
deriving DecidableEq, Repr

def dieU (d : Nat) : Nat := d % 8
def dieV (d : Nat) : Nat := d / 8
def mkDie (u v : Nat) : Nat := 8 * (v % 8) + u % 8

/-- The type of a die by its position (R15). -/
def dieType (d : Nat) : DieType :=
  let u := dieU d
  let v := dieV d
  if u = 1 ∨ u = 6 then .memside
  else if (v = 0 ∨ v = 7) ∧ (u = 0 ∨ u = 3 ∨ u = 4 ∨ u = 7) then .io
  else .compute

def allDies : List Nat := List.range 64

/-- Memory-side dies in ascending die index (R23). -/
def memDies : List Nat := allDies.filter fun d => dieType d = .memside

/-- I/O dies in ascending die index. -/
def ioDies : List Nat := allDies.filter fun d => dieType d = .io

/-- The die whose tally unit keeps context c (R23). -/
def tallyDie (c : Nat) : Nat := memDies.getD (c % 16) 1

/-- The host port number of an I/O die with v = 0, and back (R39, R454). -/
def hostDies : List Nat := [0, 3, 4, 7]
def hostDie (h : Nat) : Nat := hostDies.getD h 0

/-- Logical and physical tiles of a die (R16). -/
def nTiles (d : Nat) : Nat := match dieType d with | .compute => 128 | .memside => 16 | .io => 12
def nPhys (d : Nat) : Nat := match dieType d with | .compute => 144 | .memside => 20 | .io => 12

/-- The spare position in effect when no failure was found (R485). -/
def spareDefault (d : Nat) : Nat := match dieType d with | .compute => 8 | .memside => 4 | .io => 0

/-- The spare position k of a die (R485). -/
def spareOf (s : State) (d : Nat) : Nat := look (spareDefault d) s.ft.spare d

/-- Mesh column and row of logical tile n (R66, R121, R123). -/
def tCol (d n : Nat) : Nat := match dieType d with | .compute => n % 16 | _ => n % 4
def tRow (d n : Nat) : Nat := match dieType d with | .compute => n / 16 | _ => n / 4
def mkTile (d col row : Nat) : Nat := match dieType d with | .compute => 16 * row + col | _ => 4 * row + col
def nCols (d : Nat) : Nat := match dieType d with | .compute => 16 | _ => 4
def nRows (d : Nat) : Nat := match dieType d with | .compute => 8 | .memside => 4 | .io => 3

/-- The physical tile that serves logical tile n (R486). -/
def physTile (s : State) (d n : Nat) : Nat :=
  let k := spareOf s d
  match dieType d with
  | .compute => let r := n / 16; 16 * (if r < k then r else r + 1) + n % 16
  | .memside => let c := n % 4; 5 * (n / 4) + (if c < k then c else c + 1)
  | .io => n

/-- The logical tile a physical tile serves, if any (R126, R486). -/
def logTile (s : State) (d t : Nat) : Option Nat :=
  let k := spareOf s d
  match dieType d with
  | .compute =>
    let r := t / 16
    if r = k then none else some (16 * (if r < k then r else r - 1) + t % 16)
  | .memside =>
    let c := t % 5
    if c = k then none else some (4 * (t / 5) + (if c < k then c else c - 1))
  | .io => some t

/-- The home track of a logical tile (R126). -/
def homeTrack (d n : Nat) : Nat :=
  match dieType d with
  | .compute => n / 16
  | .memside => 2 * (n / 4) + (n % 4) % 2
  | .io => let x := n % 4; if n / 4 = 0 then x % 2 else if n / 4 = 1 then 2 + x else 6 + x % 2

/-- The row of a row track and the column of a column track (R124). -/
def trackRow (d t : Nat) : Nat :=
  match dieType d with
  | .compute => t
  | .memside => t / 2
  | .io => if t < 2 then 0 else if t < 6 then 1 else 2
def trackCol (d t : Nat) : Nat := match dieType d with | .compute => t | _ => t / 4

/-- The column track of a target tile (R126). -/
def colTrack (d n : Nat) : Nat := match dieType d with | .compute => tCol d n | _ => 4 * tCol d n

/-- What a G0 or G1 port attaches: a bridge module (bridge 0 +u, 1 −u, 2 +v, 3 −v) or a LNK port. -/
inductive Attach where
  | none
  | module (b m : Nat)
  | lnk (p : Nat)
deriving DecidableEq, Repr

/-- The attachments of the I/O die tiles (R123). -/
def ioAttach (n g : Nat) : Attach :=
  match n, g with
  | 0, 0 => .module 1 0 | 0, 1 => .module 3 0
  | 1, 0 => .module 3 1 | 1, 1 => .lnk 0
  | 2, 0 => .module 3 2 | 2, 1 => .lnk 1
  | 3, 0 => .module 0 0 | 3, 1 => .module 3 3
  | 4, 0 => .module 1 1 | 4, 1 => .module 1 2
  | 5, 0 => .lnk 2
  | 6, 0 => .lnk 3
  | 7, 0 => .module 0 1 | 7, 1 => .module 0 2
  | 8, 0 => .module 1 3 | 8, 1 => .module 2 0
  | 9, 0 => .module 2 1 | 9, 1 => .lnk 4
  | 10, 0 => .module 2 2 | 10, 1 => .lnk 5
  | 11, 0 => .module 0 3 | 11, 1 => .module 2 3
  | _, _ => .none

/-- The attachment of G port g (0 or 1) of logical tile n of die d: on compute and memory-side dies the u bridges
take G0 and the v bridges G1 of the gateway tiles of the tracks (R124; DEDUCED, log 21). -/
def attachOf (d n g : Nat) : Attach :=
  match dieType d with
  | .io => ioAttach n g
  | _ =>
    let c := tCol d n
    let r := tRow d n
    if g = 0 then
      if c = 0 then .module 1 (homeTrack d n / 2)
      else if c + 1 = nCols d then .module 0 (homeTrack d n / 2) else .none
    else
      if r = 0 then .module 3 (colTrack d n / 4)
      else if r + 1 = nRows d then .module 2 (colTrack d n / 4) else .none

/-- The tile and G port of LNK port p of an I/O die (R123). -/
def lnkTile (p : Nat) : Nat × Nat := [(1, 1), (2, 1), (5, 0), (6, 0), (9, 1), (10, 1)].getD p (1, 1)

/-- The die a bridge leads to (R71), and the bridge at its far end. -/
def bridgePeer (d b : Nat) : Nat :=
  match b with
  | 0 => mkDie (dieU d + 1) (dieV d)
  | 1 => mkDie (dieU d + 7) (dieV d)
  | 2 => mkDie (dieU d) (dieV d + 1)
  | _ => mkDie (dieU d) (dieV d + 7)
def bridgeBack (b : Nat) : Nat := match b with | 0 => 1 | 1 => 0 | 2 => 3 | _ => 2

/-- The tile where seam engine e of a die attaches, and its local port (R122, R123). -/
def engTile (d e : Nat) : Nat :=
  match dieType d with
  | .io => if e = 0 then 4 else 7
  | _ => [5, 6, 9, 10].getD e 5

/-! ### Fabric addresses (R60) -/

def aPkg (a : DWord) : Nat := bits a.toNat 63 52
def aDie (a : DWord) : Nat := bits a.toNat 51 46
def aRegion (a : DWord) : Nat := bits a.toNat 45 44
def aTile (a : DWord) : Nat := bits a.toNat 43 36
def aPort (a : DWord) : Nat := bits a.toNat 35 32
def aIdx (a : DWord) : Nat := bits a.toNat 31 0
def aOff44 (a : DWord) : Nat := bits a.toNat 43 0
def aOff36 (a : DWord) : Nat := bits a.toNat 35 0

/-- A fabric address of the endpoint region (R69). -/
def epAddr (pkg die n port idx : Nat) : DWord :=
  w64 (pkg * 2 ^ 52 + die * 2 ^ 46 + 2 ^ 44 + (if port ≥ 8 then 0xFF else n) * 2 ^ 36 + port * 2 ^ 32 + idx)

/-- A fabric address of the memory region. -/
def memAddr (pkg die off : Nat) : DWord := w64 (pkg * 2 ^ 52 + die * 2 ^ 46 + off)

/-- An address of a cluster memory. -/
def cmAddr (pkg die n off : Nat) : DWord := memAddr pkg die (n * 2 ^ 36 + off)

/-- The size of a cluster memory in bytes (R63, R554). -/
def cmSize (die n : Nat) : Nat := Config.memMiB die n * 2 ^ 20

/-- The bytes of a memory-side die's stacks (R63). -/
def stackBytes : Nat := 0x1800000000

/-- The memory port, and logical tile, that owns a stack byte (R64). -/
def memPort (off : Nat) : Nat := 8 * (off / 0xC00000000) + (off % 0xC00000000 / 512) % 8

/-- The role of a LNK port (R435, R436): a routed direction (0 to 5 hypercube, 6 +X to 11 −Z) with its lane, a mirror
port or a storage port. -/
inductive Role where
  | dir (d lane : Nat)
  | mirror (n : Nat)
  | storage (n : Nat)
deriving DecidableEq, Repr

/-- Roles in shapes 0 and 1, by I/O-die ordinal and port (R435). -/
def baseRole (i p : Nat) : Role :=
  match i, p with
  | 0, 0 => .dir 6 0 | 0, 1 => .dir 7 0 | 0, 2 => .dir 8 0 | 0, 3 => .dir 9 0 | 0, 4 => .dir 0 0 | 0, _ => .storage 0
  | 1, 0 => .dir 6 1 | 1, 1 => .dir 7 1 | 1, 2 => .dir 10 0 | 1, 3 => .dir 11 0 | 1, 4 => .dir 1 0 | 1, _ => .storage 1
  | 2, 0 => .dir 8 1 | 2, 1 => .dir 9 1 | 2, 2 => .dir 10 1 | 2, 3 => .dir 11 1 | 2, 4 => .dir 2 0 | 2, _ => .mirror 0
  | 3, 0 => .dir 6 2 | 3, 1 => .dir 7 2 | 3, 2 => .dir 8 2 | 3, 3 => .dir 9 2 | 3, 4 => .dir 10 2 | 3, _ => .dir 11 2
  | 4, 0 => .dir 6 3 | 4, 1 => .dir 7 3 | 4, 2 => .dir 8 3 | 4, 3 => .dir 9 3 | 4, 4 => .dir 10 3 | 4, _ => .dir 11 3
  | 5, 0 => .dir 6 4 | 5, 1 => .dir 7 4 | 5, 2 => .dir 8 4 | 5, 3 => .dir 9 4 | 5, 4 => .dir 3 0 | 5, _ => .storage 2
  | 6, 0 => .dir 6 5 | 6, 1 => .dir 7 5 | 6, 2 => .dir 10 4 | 6, 3 => .dir 11 4 | 6, 4 => .dir 4 0 | 6, _ => .storage 3
  | _, 0 => .dir 8 5 | _, 1 => .dir 9 5 | _, 2 => .dir 10 5 | _, 3 => .dir 11 5 | _, 4 => .dir 5 0 | _, _ => .mirror 1

/-- The role of port 6 i + p in a shape: in shape 2 ±Zk becomes ±X(k + 6) or ±Y(k + 3) (R436). -/
def portRole (shape port : Nat) : Role :=
  match baseRole (port / 6) (port % 6) with
  | .dir d l =>
    if shape = 2 ∧ d ≥ 10 then (if l < 3 then .dir (d - 4) (l + 6) else .dir (d - 2) (l + 3)) else .dir d l
  | r => r

/-- The ordinal of an I/O die (R435) and the die and LNK port of an off-package port. -/
def ioOrd (d : Nat) : Nat := (ioDies.findIdx? (fun x => x = d)).getD 0
def portDie (port : Nat) : Nat := ioDies.getD (port / 6) 0
def portOf (d p : Nat) : Nat := 6 * ioOrd d + p

/-- LNK port p of die d is a storage port (R435). -/
def isSto (d p : Nat) : Bool :=
  match baseRole (ioOrd d) p with | .storage _ => decide (dieType d = .io) | _ => false

/-- The off-package port that is storage port n, mirror port n. -/
def stoPort (n : Nat) : Nat := [5, 11, 35, 41].getD n 5
def mirrorPort (n : Nat) : Nat := [17, 47].getD n 17

/-- The port of a direction and lane in a shape, if any. -/
def dirPort (shape d lane : Nat) : Option Nat :=
  (List.range 48).find? fun q => portRole shape q = .dir d lane

/-- An address is mapped on its die (R63, R67). The size check of cluster memory uses the integrator's size. -/
def mapped (a : DWord) : Bool :=
  let d := aDie a
  match aRegion a with
  | 0 =>
    match dieType d with
    | .compute => decide (aTile a < 128) && decide (aOff36 a < cmSize d (aTile a))
    | .memside => decide (aOff44 a < stackBytes)
    | .io => false
  | 1 =>
    match aPort a with
    | 0 => decide (dieType d = .compute) && decide (aTile a < 128) && decide (aIdx a ≤ 0xFFFFFF)
    | 1 => decide (aTile a < nTiles d) && decide (aIdx a < 64)
    | 8 => decide (dieType d = .memside) && decide (aTile a = 0xFF) && decide (aIdx a < 1024)
    | 9 => decide (aTile a = 0xFF) &&
        (match dieType d with
         | .memside => decide (aIdx a < 1024) | .io => decide (aIdx a < 512) | .compute => false)
    | 10 => decide (dieType d = .memside) && decide (aTile a = 0xFF) && decide (aIdx a < 2048) &&
        decide (tallyDie (aIdx a) = d)
    | 11 => decide (d ∈ hostDies) && decide (aTile a = 0xFF) && decide (aIdx a = 0)
    | 12 => isSto d 5 && decide (aTile a = 0xFF) && decide (aIdx a = 0)
    | _ => false
  | 3 => decide (aOff44 a ≥ 0xFFFFF000000)
  | _ => false

/-- The logical tile and local port by which a local address is reached (R63 to R67, R121 to R123). -/
def targetTile (a : DWord) : Nat × Nat :=
  let d := aDie a
  match aRegion a with
  | 0 => match dieType d with
    | .compute => (aTile a, 10)
    | _ => (memPort (aOff44 a), 10)
  | 1 =>
    match aPort a with
    | 0 => (aTile a, 10)
    | 1 => (aTile a, 10)
    | 8 => (5, 11)
    | 9 => (engTile d (aIdx a / 256), if dieType d = .io then 10 else 11)
    | 10 => (10, 11)
    | 11 => (5, 10)
    | _ => (10, 9)
  | _ => if dieType d = .io then (0, 10) else (0, 11)

/-! ### The rack torus (R72, R73) -/

/-- Logical torus position of a local index in a shape. -/
def torusPos (shape i : Nat) : Nat × Nat × Nat :=
  let x := i % 4
  let y := i / 4 % 4
  let z := i / 16 % 4
  match shape with
  | 1 => (x + 4 * (z / 2), y, z % 2)
  | 2 => (x + 4 * (z % 2), y + 4 * (z / 2), 0)
  | _ => (x, y, z)

/-- The local index at a logical torus position. -/
def torusIdx (shape X Y Z : Nat) : Nat :=
  match shape with
  | 1 => X % 4 + 4 * Y + 16 * (2 * (X / 4) + Z)
  | 2 => X % 4 + 4 * (Y % 4) + 16 * (X / 4 + 2 * (Y / 4))
  | _ => X + 4 * Y + 16 * Z

/-- SX, SY, SZ of a shape. -/
def torusSize (shape : Nat) : Nat × Nat × Nat :=
  match shape with | 1 => (8, 4, 2) | 2 => (8, 8, 1) | _ => (4, 4, 4)

/-- Ports per direction (code 6 to 11) of a shape; 1 for a hypercube dimension (R72, R143). -/
def lanesOf (shape dir : Nat) : Nat :=
  if dir < 6 then 1
  else if shape = 2 then (if dir < 10 then 9 else 0) else 6

/-- The direction, 6 +X to 11 −Z, of a ring step (05, package route). -/
def ringDir (axis a b size : Nat) : Nat :=
  let k := (b + size - a) % size
  6 + 2 * axis + (if 2 * k ≤ size then 0 else 1)

/-- The next package-level direction from here to dst (05): none when the packet is at its package. -/
def nextHop (shape here dst : Nat) : Option Nat :=
  let dr := (here / 64) ^^^ (dst / 64)
  if dr ≠ 0 then some ((List.range 6).find? (fun d => dr.testBit d) |>.getD 0)
  else
    let rp := torusPos shape (here % 64)
    let x := rp.1
    let y := rp.2.1
    let z := rp.2.2
    let rp := torusPos shape (dst % 64)
    let x2 := rp.1
    let y2 := rp.2.1
    let z2 := rp.2.2
    let rp := torusSize shape
    let sx := rp.1
    let sy := rp.2.1
    let sz := rp.2.2
    if x ≠ x2 then some (ringDir 0 x x2 sx)
    else if y ≠ y2 then some (ringDir 1 y y2 sy)
    else if z ≠ z2 then some (ringDir 2 z z2 sz)
    else none

/-- The package a direction leads to (R73, R74). -/
def neighbour (shape : Nat) (twist : List Nat) (here dir : Nat) : Nat :=
  if dir < 6 then 64 * ((here / 64) ^^^ 2 ^ dir) + ((here % 64) ^^^ twist.getD dir 0)
  else
    let rp := torusPos shape (here % 64)
    let x := rp.1
    let y := rp.2.1
    let z := rp.2.2
    let rp := torusSize shape
    let sx := rp.1
    let sy := rp.2.1
    let sz := rp.2.2
    let step (a s : Nat) : Nat := if dir % 2 = 0 then (a + 1) % s else (a + s - 1) % s
    let i := match (dir - 6) / 2 with
      | 0 => torusIdx shape (step x sx) y z
      | 1 => torusIdx shape x (step y sy) z
      | _ => torusIdx shape x y (step z sz)
    64 * (here / 64) + i

/-- The package number (R61). -/
def pkgNo (s : State) : Nat := s.tm.straps.toNat % 4096

/-- The packages of the slice of a context in rank order (R77, R78, R83). -/
def sliceOf (s : State) (c : Nat) : List Nat :=
  match s.pl.cur with
  | none => [pkgNo s]
  | some p => match p.slices.find? (fun r => r.ctx = c) with
    | some r => r.members
    | none => [pkgNo s]

/-- A package is present in the plan in effect (R83). -/
def present (s : State) (pkg : Nat) : Bool :=
  match s.pl.cur with
  | none => pkg = pkgNo s
  | some p => match p.masks.find? (fun m => m.1 = pkg / 64) with
    | some m => m.2.toNat.testBit (pkg % 64)
    | none => false

/-- The torus shape and twist in effect. -/
def shapeOf (s : State) : Nat := (s.pl.cur.map (·.shape)).getD 0
def twistOf (s : State) : List Nat := (s.pl.cur.map (·.twist)).getD []

/-- Whether the package route from here to dst passes only present packages (R142), within n hops. -/
def routeUsable (s : State) : (n : Nat) → (here dst : Nat) → Bool
  | 0, _, _ => false
  | n + 1, here, dst =>
    present s here &&
    match nextHop (shapeOf s) here dst with
    | none => true
    | some d => routeUsable s n (neighbour (shapeOf s) (twistOf s) here d) dst

end Sys2Proof.Machine
end

