-- ==== Sys2Proof/Machine/Registers.lean ====
section
/-! DEFINITION. The register tables: page kinds, the page map (R58), one row per register with its access code, reset
value, writable bits, write-one-to-clear bits and select register (R12, R45), the fault sources (R480). -/
namespace Sys2Proof.Machine

/-- The kinds of register page (R58 and the owning chapters). -/
inductive PageKind where
  | prs | flt | dbr | tile0 | tile1 | tile2 | tile3 | cip | drn | bsk | seam0 | seam1 | seam2 | peg | tly0 | tly1 | lnk0 | lnk1 | opt | hst | sto | fmc0 | fmc1 | fmc2 | fmc3 | fmc4 | keep0 | keep1 | keep2 | keep3
deriving DecidableEq, Repr

/-- The access codes of R12; a W1C field is a `ro` row with bits in `w1`. -/
inductive Acc12 where
  | ro | wo | rw | rws | rwk
deriving DecidableEq, Repr

/-- One register: offset, access code, reset value, the bits a write changes, the bits a written 1 clears, the select
register with the bits that name the entry, whether it is the low half of a 64-bit quantity (R37), whether it is a
priority register (R170). -/
structure RegRow where
  off : Nat
  acc : Acc12
  rst : Nat := 0
  w : Nat := 0
  w1 : Nat := 0
  bank : Option (Nat × Nat × Nat) := none
  lo : Bool := false
  prio : Bool := false
deriving DecidableEq, Repr

/-- The common page header (R45). -/
def rowsHeader : List RegRow :=
  [
  /- PAGE_ID -/ { off := 0x0, acc := .ro },
  /- PAGE_VERSION -/ { off := 0x4, acc := .ro },
  /- PAGE_CAP -/ { off := 0x8, acc := .ro },
  /- PAGE_CTRL -/ { off := 0x10, acc := .rw, w := 0x3 },
  /- PAGE_STATUS -/ { off := 0x14, acc := .ro, rst := 0x1, w1 := 0x38 },
  /- FAULT_STATUS -/ { off := 0x18, acc := .ro, w1 := 0xFFFFFFFF },
  /- FAULT_MASK -/ { off := 0x1C, acc := .rw, w := 0xFFFFFFFF },
  /- FAULT_SEVERITY0 -/ { off := 0x20, acc := .rw, w := 0xFFFFFFFF },
  /- FAULT_SEVERITY1 -/ { off := 0x24, acc := .rw, w := 0xFFFFFFFF },
  /- FAULT_SEVERITY2 -/ { off := 0x28, acc := .rw, w := 0xFFFFFFFF },
  /- FAULT_SEVERITY3 -/ { off := 0x2C, acc := .rw, w := 0xFFFFFFFF },
  /- SHADOW_COMMIT -/ { off := 0x40, acc := .wo, w := 0xF },
  /- ARB_FREEZE -/ { off := 0x44, acc := .rw, w := 0xFFFF },
  /- ARB_MODE -/ { off := 0x48, acc := .rws, rst := 0x1001, w := 0xFF03 },
  /- COMMIT_PRESS_LO -/ { off := 0x50, acc := .rw, w := 0xFFFFFFFF, lo := true },
  /- COMMIT_PRESS_HI -/ { off := 0x54, acc := .rw, w := 0xFFFFFFFF }
  ]

/-- Registers of page kind prs (04). -/
def rowsPrs : List RegRow :=
  [
  /- PRS_CTRL -/ { off := 0x100, acc := .rw, w := 0x3 },
  /- PRS_STATUS -/ { off := 0x104, acc := .ro, w1 := 0xF8 },
  /- PRESS_LO -/ { off := 0x108, acc := .ro, lo := true },
  /- PRESS_HI -/ { off := 0x10C, acc := .ro },
  /- PERIOD_REF -/ { off := 0x110, acc := .ro },
  /- FOLD_CYCLES -/ { off := 0x114, acc := .rws, rst := 0x400, w := 0x3FFF },
  /- PHASE_LIMIT -/ { off := 0x118, acc := .rw, w := 0x3FFFF },
  /- CYCLE -/ { off := 0x11C, acc := .ro },
  /- LOCK_MODE -/ { off := 0x120, acc := .rws, w := 0x3 },
  /- LOCK_MASK_LO -/ { off := 0x124, acc := .rws, w := 0xFFFFFFFF, lo := true },
  /- LOCK_MASK_HI -/ { off := 0x128, acc := .rws, w := 0xFFFFFFFF },
  /- LOCK_STATE -/ { off := 0x12C, acc := .ro },
  /- OVERRUN_COUNT -/ { off := 0x130, acc := .rw, w := 0xFFFFFFFF },
  /- EPOCH_COUNT -/ { off := 0x134, acc := .ro },
  /- FOLD_VIEW -/ { off := 0x138, acc := .ro },
  /- BRIDGE_PHASE0 -/ { off := 0x140, acc := .ro },
  /- BRIDGE_PHASE1 -/ { off := 0x144, acc := .ro },
  /- BRIDGE_PHASE2 -/ { off := 0x148, acc := .ro },
  /- BRIDGE_PHASE3 -/ { off := 0x14C, acc := .ro }
  ]

/-- Registers of page kind flt (14). -/
def rowsFlt : List RegRow :=
  [
  /- FLT_STATUS -/ { off := 0x100, acc := .ro },
  /- QUIESCE_LIMIT -/ { off := 0x104, acc := .rw, rst := 0x10000, w := 0xFFFFFF },
  /- REC_SEL -/ { off := 0x108, acc := .rw, w := 0xF },
  /- REC_W0 -/ { off := 0x10C, acc := .ro },
  /- REC_W1 -/ { off := 0x110, acc := .ro },
  /- REC_W2 -/ { off := 0x114, acc := .ro },
  /- REC_W3 -/ { off := 0x118, acc := .ro },
  /- SPARE_CFG -/ { off := 0x120, acc := .rwk, w := 0x8000000F },
  /- SPARE_STATUS -/ { off := 0x124, acc := .ro },
  /- CNT_SEL -/ { off := 0x130, acc := .rw, w := 0x3 },
  /- CNT_LO -/ { off := 0x134, acc := .ro, lo := true },
  /- CNT_HI -/ { off := 0x138, acc := .ro },
  /- ERR_CTRL -/ { off := 0x180, acc := .rw, rst := 0x204, w := 0x800007FF },
  /- ERR_STATUS -/ { off := 0x184, acc := .ro },
  /- ROOT_SEL -/ { off := 0x188, acc := .rw, w := 0xFF },
  /- ROOT_W0 -/ { off := 0x18C, acc := .ro },
  /- ROOT_W1 -/ { off := 0x190, acc := .ro },
  /- ROOT_W2 -/ { off := 0x194, acc := .ro },
  /- ROOT_W3 -/ { off := 0x198, acc := .ro },
  /- ROOT_COUNT -/ { off := 0x19C, acc := .ro },
  /- SAFE_CAUSE -/ { off := 0x1A0, acc := .ro },
  /- DETOUR0 -/ { off := 0x1B0, acc := .rw, w := 0x80000F0F },
  /- DETOUR1 -/ { off := 0x1B4, acc := .rw, w := 0x80000F0F },
  /- DETOUR2 -/ { off := 0x1B8, acc := .rw, w := 0x80000F0F }
  ] ++
  [
  /- DETOUR3 -/ { off := 0x1BC, acc := .rw, w := 0x80000F0F },
  /- DETOUR4 -/ { off := 0x1C0, acc := .rw, w := 0x80000F0F },
  /- DETOUR5 -/ { off := 0x1C4, acc := .rw, w := 0x80000F0F }
  ]

/-- Registers of page kind dbr (13). -/
def rowsDbr : List RegRow :=
  [
  /- DBR_CTRL -/ { off := 0x100, acc := .rw, rst := 0x40801, w := 0xFFFF03 },
  /- DBR_STATUS -/ { off := 0x104, acc := .ro },
  /- DBR_PEER -/ { off := 0x108, acc := .ro },
  /- LANE_FAIL0 -/ { off := 0x10C, acc := .ro },
  /- LANE_FAIL1 -/ { off := 0x110, acc := .ro },
  /- LANE_FAIL2 -/ { off := 0x114, acc := .ro },
  /- CNT_SEL -/ { off := 0x120, acc := .rw, w := 0x7 },
  /- CNT_LO -/ { off := 0x124, acc := .ro, lo := true },
  /- CNT_HI -/ { off := 0x128, acc := .ro }
  ]

/-- Registers of page kind tile0 (05, 06). -/
def rowsTile0 : List RegRow :=
  [
  /- TILE_CTRL -/ { off := 0x100, acc := .rw, rst := 0x7, w := 0x7 },
  /- ESC_STALL_LIMIT -/ { off := 0x104, acc := .rw, rst := 0x10000, w := 0xFFFFFF },
  /- ADAPT_ESC_WAIT -/ { off := 0x108, acc := .rw, rst := 0x10, w := 0xFF },
  /- CREDIT_SEL -/ { off := 0x10C, acc := .rw, w := 0xFFC },
  /- CREDIT_VIEW -/ { off := 0x110, acc := .ro },
  /- FLIT_COUNT_SEL -/ { off := 0x114, acc := .rw, w := 0x7F },
  /- FLIT_COUNT_LO -/ { off := 0x118, acc := .ro, lo := true },
  /- FLIT_COUNT_HI -/ { off := 0x11C, acc := .ro },
  /- ESC_FALLBACK_LO -/ { off := 0x120, acc := .ro, lo := true },
  /- ESC_FALLBACK_HI -/ { off := 0x124, acc := .ro },
  /- FAULT_HEAD_LO -/ { off := 0x128, acc := .ro, lo := true },
  /- FAULT_HEAD_HI -/ { off := 0x12C, acc := .ro },
  /- ECC_CORRECTED -/ { off := 0x130, acc := .rw, w := 0xFFFFFFFF },
  /- PORT_PRIO0 -/ { off := 0x140, acc := .rws, w := 0xFFFFFF, prio := true },
  /- PORT_PRIO1 -/ { off := 0x144, acc := .rws, w := 0xFFFFFF, prio := true },
  /- PORT_PRIO2 -/ { off := 0x148, acc := .rws, w := 0xFFFFFF, prio := true },
  /- PORT_PRIO3 -/ { off := 0x14C, acc := .rws, w := 0xFFFFFF, prio := true },
  /- PORT_PRIO4 -/ { off := 0x150, acc := .rws, w := 0xFFFFFF, prio := true },
  /- PORT_PRIO5 -/ { off := 0x154, acc := .rws, w := 0xFFFFFF, prio := true },
  /- PORT_PRIO6 -/ { off := 0x158, acc := .rws, w := 0xFFFFFF, prio := true },
  /- PORT_PRIO7 -/ { off := 0x15C, acc := .rws, w := 0xFFFFFF, prio := true },
  /- PORT_PRIO8 -/ { off := 0x160, acc := .rws, w := 0xFFFFFF, prio := true },
  /- PORT_PRIO9 -/ { off := 0x164, acc := .rws, w := 0xFFFFFF, prio := true },
  /- PORT_PRIO10 -/ { off := 0x168, acc := .rws, w := 0xFFFFFF, prio := true }
  ] ++
  [
  /- PORT_PRIO11 -/ { off := 0x16C, acc := .rws, w := 0xFFFFFF, prio := true }
  ]

/-- Registers of page kind tile1 (05). -/
def rowsTile1 : List RegRow :=
  [
  /- CLASS_ORD -/ { off := 0x100, acc := .rws, rst := 0x64, w := 0x7F },
  /- HOME_TRACK -/ { off := 0x104, acc := .ro },
  /- PKG_ROUTE -/ { off := 0x108, acc := .rws, w := 0xFFFF },
  /- TWIST_LO -/ { off := 0x10C, acc := .rws, w := 0xFFFFFFFF, lo := true },
  /- TWIST_HI -/ { off := 0x110, acc := .rws, w := 0xF },
  /- RACKS_LO -/ { off := 0x114, acc := .rws, w := 0xFFFFFFFF, lo := true },
  /- RACKS_HI -/ { off := 0x118, acc := .rws, w := 0xFFFFFFFF },
  /- EGRESS_SEL -/ { off := 0x120, acc := .rw, w := 0xFF },
  /- EGRESS_ENTRY -/ { off := 0x124, acc := .rws, w := 0x803FFF01, bank := some (0x120, 7, 0) },
  /- TREE_SEL -/ { off := 0x128, acc := .rw, w := 0xFFF },
  /- TREE_ENTRY -/ { off := 0x12C, acc := .rws, w := 0xFFF, bank := some (0x128, 11, 0) }
  ]

/-- Registers of page kind tile2 (06). -/
def rowsTile2 : List RegRow :=
  [
  /- CTX_SEL -/ { off := 0x100, acc := .rw, w := 0x7FF },
  /- CTX_NODE -/ { off := 0x104, acc := .rws, w := 0xC000FFFF, bank := some (0x100, 10, 0) },
  /- CTX_BURST -/ { off := 0x108, acc := .rws, rst := 0x1000, w := 0xFFFFF, bank := some (0x100, 10, 0) },
  /- CTX_PRIO -/ { off := 0x10C, acc := .rws, w := 0x3, bank := some (0x100, 10, 0), prio := true },
  /- CTX_TOKENS -/ { off := 0x110, acc := .ro },
  /- CTX_STATE -/ { off := 0x114, acc := .ro },
  /- CTX_BYTES_LO -/ { off := 0x118, acc := .ro, lo := true },
  /- CTX_BYTES_HI -/ { off := 0x11C, acc := .ro },
  /- NODE_SEL -/ { off := 0x120, acc := .rw, w := 0x37 },
  /- NODE_CFG -/ { off := 0x124, acc := .rws, w := 0xE0FFFFFF, bank := some (0x120, 5, 0) },
  /- NODE_BURST -/ { off := 0x128, acc := .rws, rst := 0x1000, w := 0xFFFFF, bank := some (0x120, 5, 0) },
  /- NODE_TOKENS -/ { off := 0x12C, acc := .ro },
  /- GATE_SEL -/ { off := 0x130, acc := .rw, w := 0x37F },
  /- GATE_WIN -/ { off := 0x134, acc := .rws, w := 0xFFFFFFFF, bank := some (0x130, 9, 0) },
  /- GATE_STATUS -/ { off := 0x138, acc := .ro, w1 := 0xFFFFFFFF },
  /- SUB_LIMIT -/ { off := 0x13C, acc := .rws, w := 0xFFFFFFFF },
  /- CLASS_PRIO0 -/ { off := 0x140, acc := .rws, w := 0x3FFF, prio := true },
  /- CLASS_PRIO1 -/ { off := 0x144, acc := .rws, w := 0x3FFF, prio := true },
  /- GOV_LEVEL -/ { off := 0x150, acc := .ro },
  /- HEM_VIEW -/ { off := 0x154, acc := .ro },
  /- CNT_SEL -/ { off := 0x160, acc := .rw, w := 0x37 },
  /- CNT_LO -/ { off := 0x164, acc := .ro, lo := true },
  /- CNT_HI -/ { off := 0x168, acc := .ro },
  /- DEFER_SEL -/ { off := 0x170, acc := .rw, w := 0x7FF }
  ] ++
  [
  /- DEFER_PLANE -/ { off := 0x174, acc := .ro },
  /- DEFER_GOV -/ { off := 0x178, acc := .ro },
  /- DEFER_BUDGET -/ { off := 0x17C, acc := .ro },
  /- DEFER_OTHER -/ { off := 0x180, acc := .ro }
  ]

/-- Registers of page kind tile3 (05). -/
def rowsTile3 : List RegRow :=
  [
  /- MP_CTRL -/ { off := 0x100, acc := .rws, rst := 0x1, w := 0x1 },
  /- MP_STATUS -/ { off := 0x104, acc := .ro },
  /- MP_OUTSTANDING -/ { off := 0x108, acc := .rws, rst := 0x200, w := 0x3FF },
  /- MP_STALL_LIMIT -/ { off := 0x10C, acc := .rw, rst := 0x10000, w := 0xFFFFFF },
  /- MP_FAULT_ADDR_LO -/ { off := 0x110, acc := .ro, lo := true },
  /- MP_FAULT_ADDR_HI -/ { off := 0x114, acc := .ro },
  /- MP_PORT -/ { off := 0x118, acc := .ro },
  /- CNT_SEL -/ { off := 0x120, acc := .rw, w := 0x7 },
  /- CNT_LO -/ { off := 0x124, acc := .ro, lo := true },
  /- CNT_HI -/ { off := 0x128, acc := .ro }
  ]

/-- Registers of page kind cip (11). -/
def rowsCip : List RegRow :=
  [
  /- CIP_CTRL -/ { off := 0x100, acc := .rw, rst := 0x100820, w := 0xFFFFF1 },
  /- CIP_STATUS -/ { off := 0x104, acc := .ro },
  /- MEM_SIZE -/ { off := 0x108, acc := .ro },
  /- MC_ACK_WAIT -/ { off := 0x10C, acc := .rw, rst := 0x10, w := 0xFF },
  /- QUEUE_SEL -/ { off := 0x110, acc := .rw, w := 0x3FF },
  /- QUEUE_CFG -/ { off := 0x114, acc := .rws, rst := 0x80000, w := 0xFFFF07FF, bank := some (0x110, 9, 0) },
  /- QUEUE_BASE_LO -/ { off := 0x118, acc := .rws, w := 0xFFFFFFC0, bank := some (0x110, 9, 0), lo := true },
  /- QUEUE_BASE_HI -/ { off := 0x11C, acc := .rws, w := 0xF, bank := some (0x110, 9, 0) },
  /- QUEUE_OCC -/ { off := 0x120, acc := .ro },
  /- QUEUE_HELD -/ { off := 0x124, acc := .ro },
  /- QUEUE_CREDITS -/ { off := 0x128, acc := .ro },
  /- HEAD_META_LO -/ { off := 0x12C, acc := .ro, lo := true },
  /- HEAD_META_HI -/ { off := 0x130, acc := .ro },
  /- HEAD_DATA_LO -/ { off := 0x134, acc := .ro, lo := true },
  /- HEAD_DATA_HI -/ { off := 0x138, acc := .ro },
  /- STALL_FROM -/ { off := 0x13C, acc := .ro },
  /- RING_SEL -/ { off := 0x140, acc := .rw, w := 0xFF },
  /- RING_CFG -/ { off := 0x144, acc := .rws, w := 0xFE0007FF, bank := some (0x140, 7, 0) },
  /- RING_BASE_LO -/ { off := 0x148, acc := .rws, w := 0xFFFFF000, bank := some (0x140, 7, 0), lo := true },
  /- RING_BASE_HI -/ { off := 0x14C, acc := .rws, w := 0xF, bank := some (0x140, 7, 0) },
  /- RING_HEAD -/ { off := 0x150, acc := .ro },
  /- RING_TAIL -/ { off := 0x154, acc := .ro },
  /- RING_VISIBLE -/ { off := 0x158, acc := .ro },
  /- RING_WAITING -/ { off := 0x15C, acc := .ro }
  ] ++
  [
  /- CC_SEL -/ { off := 0x160, acc := .rw, w := 0xFF },
  /- CC_ENTRY -/ { off := 0x164, acc := .ro },
  /- CC_DEST_LO -/ { off := 0x168, acc := .ro, lo := true },
  /- CC_DEST_HI -/ { off := 0x16C, acc := .ro },
  /- STREAM_SEL -/ { off := 0x170, acc := .rw, w := 0x7F },
  /- STREAM_STATE -/ { off := 0x174, acc := .ro },
  /- STALL_DEST_LO -/ { off := 0x178, acc := .ro, lo := true },
  /- STALL_DEST_HI -/ { off := 0x17C, acc := .ro },
  /- MC_SEL -/ { off := 0x180, acc := .rw, w := 0xFFF },
  /- MC_ENTRY -/ { off := 0x184, acc := .rws, w := 0xFFFFFF80, bank := some (0x180, 11, 0) },
  /- DB_SEL -/ { off := 0x188, acc := .rw, w := 0xFF },
  /- DB_CFG -/ { off := 0x18C, acc := .rws, w := 0x800007FF, bank := some (0x188, 7, 0) },
  /- DB_VALUE -/ { off := 0x190, acc := .ro },
  /- CNT_SEL -/ { off := 0x1A0, acc := .rw, w := 0x7 },
  /- CNT_LO -/ { off := 0x1A4, acc := .ro, lo := true },
  /- CNT_HI -/ { off := 0x1A8, acc := .ro }
  ]

/-- Registers of page kind drn (08, 09). -/
def rowsDrn : List RegRow :=
  [
  /- DRN_CTRL -/ { off := 0x100, acc := .rw, rst := 0xF3, w := 0xF3 },
  /- DRN_STATUS -/ { off := 0x104, acc := .ro },
  /- DRN_RES_CAP -/ { off := 0x108, acc := .rws, rst := 0x6, w := 0xF },
  /- STEAL_AGE -/ { off := 0x10C, acc := .rw, rst := 0x20, w := 0xFFFF },
  /- PATCH_CHUNK -/ { off := 0x110, acc := .rws, rst := 0xC, w := 0x1F },
  /- TASKQ_STATUS -/ { off := 0x114, acc := .ro },
  /- HOLDQ_STATUS -/ { off := 0x118, acc := .ro },
  /- STEAL_SEL -/ { off := 0x120, acc := .rw, w := 0x7FF },
  /- STEAL_ALLOW -/ { off := 0x124, acc := .rws, rst := 0x2, w := 0xF, bank := some (0x120, 10, 0) },
  /- STEAL_USE -/ { off := 0x128, acc := .ro },
  /- DRN_SEL -/ { off := 0x130, acc := .rw, w := 0x7 },
  /- DRN_VIEW -/ { off := 0x134, acc := .ro },
  /- DRN_END -/ { off := 0x138, acc := .ro },
  /- DRN_ADMITTED -/ { off := 0x13C, acc := .ro },
  /- TASK_SEL -/ { off := 0x140, acc := .rw, w := 0x1FF },
  /- TASK_VIEW0 -/ { off := 0x144, acc := .ro },
  /- TASK_VIEW1 -/ { off := 0x148, acc := .ro },
  /- TASK_VIEW2 -/ { off := 0x14C, acc := .ro },
  /- TASK_VIEW3 -/ { off := 0x150, acc := .ro },
  /- CNT_SEL -/ { off := 0x160, acc := .rw, w := 0x7 },
  /- CNT_LO -/ { off := 0x164, acc := .ro, lo := true },
  /- CNT_HI -/ { off := 0x168, acc := .ro },
  /- ORD_SEL -/ { off := 0x170, acc := .rw, w := 0xF },
  /- ORD_STATE -/ { off := 0x174, acc := .ro }
  ] ++
  [
  /- ORD_NEXT -/ { off := 0x178, acc := .ro },
  /- PS_STATUS -/ { off := 0x180, acc := .ro, w1 := 0xC0 },
  /- PS_BANK -/ { off := 0x184, acc := .rws, w := 0x1 },
  /- PS_TAG0 -/ { off := 0x188, acc := .rws, w := 0xFFFFFFFF },
  /- PS_TAG1 -/ { off := 0x18C, acc := .rws, w := 0xFFFFFFFF },
  /- PS_ADDR -/ { off := 0x190, acc := .rw, w := 0x7FF },
  /- PS_DATA_LO -/ { off := 0x194, acc := .rw, w := 0xFFFFFFFF, lo := true },
  /- PS_DATA_HI -/ { off := 0x198, acc := .rw, w := 0xFFFFFFFF },
  /- PS_LOAD_LO -/ { off := 0x1A0, acc := .rw, w := 0xFFFFFFFF, lo := true },
  /- PS_LOAD_HI -/ { off := 0x1A4, acc := .rw, w := 0xFFFFFFFF },
  /- PS_LOAD_CMD -/ { off := 0x1A8, acc := .wo, w := 0xFFFFFFFF },
  /- BIND_SEL -/ { off := 0x1B0, acc := .rw, w := 0x1FF },
  /- BIND_W0 -/ { off := 0x1B4, acc := .rws, w := 0xFFFFFFFF, bank := some (0x1B0, 8, 0) },
  /- BIND_W1 -/ { off := 0x1B8, acc := .rws, w := 0xFFFFFFFF, bank := some (0x1B0, 8, 0) },
  /- BIND_W2 -/ { off := 0x1BC, acc := .rws, w := 0xFFFFFFFF, bank := some (0x1B0, 8, 0) },
  /- BIND_W3 -/ { off := 0x1C0, acc := .rws, w := 0xFFFFFFFF, bank := some (0x1B0, 8, 0) },
  /- BIND_W4 -/ { off := 0x1C4, acc := .rws, w := 0xFFFFFFFF, bank := some (0x1B0, 8, 0) },
  /- BIND_W5 -/ { off := 0x1C8, acc := .rws, w := 0xFFFFFFFF, bank := some (0x1B0, 8, 0) },
  /- BIND_W6 -/ { off := 0x1CC, acc := .rws, w := 0xFFFFFFFF, bank := some (0x1B0, 8, 0) },
  /- BIND_W7 -/ { off := 0x1D0, acc := .rws, w := 0xFFFFFFFF, bank := some (0x1B0, 8, 0) },
  /- BIND_W8 -/ { off := 0x1D4, acc := .rws, w := 0xFFFFFFFF, bank := some (0x1B0, 8, 0) },
  /- BIND_W9 -/ { off := 0x1D8, acc := .rws, w := 0xFFFFFFFF, bank := some (0x1B0, 8, 0) },
  /- PATCH_FAULT -/ { off := 0x1E0, acc := .ro }
  ]

/-- Registers of page kind bsk (11). -/
def rowsBsk : List RegRow :=
  [
  /- BSK_CTRL -/ { off := 0x100, acc := .rws, rst := 0x20, w := 0x7F },
  /- BSK_STATUS -/ { off := 0x104, acc := .ro },
  /- BSK_SEL -/ { off := 0x108, acc := .rw, w := 0x3F },
  /- BSK_CFG -/ { off := 0x10C, acc := .rws, w := 0xE01FFFFF, bank := some (0x108, 5, 0) },
  /- BSK_XCTL -/ { off := 0x110, acc := .rws, w := 0xFFFFFFFF, bank := some (0x108, 5, 0) },
  /- ENTRY_SEL -/ { off := 0x114, acc := .rw, w := 0x1F },
  /- ENTRY_STATE -/ { off := 0x118, acc := .ro },
  /- ENTRY_COUNT -/ { off := 0x11C, acc := .ro },
  /- BSK_OWNER -/ { off := 0x120, acc := .ro },
  /- CNT_SEL -/ { off := 0x130, acc := .rw, w := 0x3 },
  /- CNT_LO -/ { off := 0x134, acc := .ro, lo := true },
  /- CNT_HI -/ { off := 0x138, acc := .ro }
  ]

/-- Registers of page kind seam0 (10). -/
def rowsSeam0 : List RegRow :=
  [
  /- SEAM_CTRL -/ { off := 0x100, acc := .rw, rst := 0x1, w := 0x1 },
  /- SEAM_STATUS -/ { off := 0x104, acc := .ro, w1 := 0x80000000 },
  /- OPEN_WAIT -/ { off := 0x108, acc := .rw, rst := 0x10000, w := 0xFFFFFFFF },
  /- STAGE_WAIT -/ { off := 0x10C, acc := .rw, rst := 0x4, w := 0xFF },
  /- RES_STALL_LIMIT -/ { off := 0x110, acc := .rw, rst := 0x100, w := 0xFFFF },
  /- SEAM_ABORT_CMD -/ { off := 0x114, acc := .wo, w := 0x800000FF },
  /- CNT_SEL -/ { off := 0x120, acc := .rw, w := 0xF },
  /- CNT_LO -/ { off := 0x124, acc := .ro, lo := true },
  /- CNT_HI -/ { off := 0x128, acc := .ro },
  /- VIEW_SEL -/ { off := 0x130, acc := .rw, w := 0xFF },
  /- VIEW_STATE -/ { off := 0x134, acc := .ro },
  /- VIEW_GSEQ_LO -/ { off := 0x138, acc := .ro, lo := true },
  /- VIEW_GSEQ_HI -/ { off := 0x13C, acc := .ro },
  /- VIEW_PROGRESS -/ { off := 0x140, acc := .ro },
  /- VIEW_LOAD -/ { off := 0x144, acc := .ro },
  /- VIEW_WAIT -/ { off := 0x148, acc := .ro }
  ]

/-- Registers of page kind seam1 (10). -/
def rowsSeam1 : List RegRow :=
  [
  /- GROUP_SEL -/ { off := 0x100, acc := .rw, w := 0xFFF },
  /- GROUP_SEQ -/ { off := 0x104, acc := .ro },
  /- GROUP_OPEN -/ { off := 0x108, acc := .ro },
  /- GROUP_W0 -/ { off := 0x110, acc := .rws, w := 0xFFFFFFFF, bank := some (0x100, 11, 0) },
  /- GROUP_W1 -/ { off := 0x114, acc := .rws, w := 0xFFFFFFFF, bank := some (0x100, 11, 0) },
  /- GROUP_W2 -/ { off := 0x118, acc := .rws, w := 0xFFFFFFFF, bank := some (0x100, 11, 0) },
  /- GROUP_W3 -/ { off := 0x11C, acc := .rws, w := 0xFFFFFFFF, bank := some (0x100, 11, 0) },
  /- GROUP_W4 -/ { off := 0x120, acc := .rws, w := 0xFFFFFFFF, bank := some (0x100, 11, 0) },
  /- GROUP_W5 -/ { off := 0x124, acc := .rws, w := 0xFFFFFFFF, bank := some (0x100, 11, 0) },
  /- GROUP_W6 -/ { off := 0x128, acc := .rws, w := 0xFFFFFFFF, bank := some (0x100, 11, 0) },
  /- GROUP_W7 -/ { off := 0x12C, acc := .rws, w := 0xFFFFFFFF, bank := some (0x100, 11, 0) },
  /- GROUP_W8 -/ { off := 0x130, acc := .rws, w := 0xFFFFFFFF, bank := some (0x100, 11, 0) },
  /- GROUP_W9 -/ { off := 0x134, acc := .rws, w := 0xFFFFFFFF, bank := some (0x100, 11, 0) },
  /- GROUP_W10 -/ { off := 0x138, acc := .rws, w := 0xFFFFFFFF, bank := some (0x100, 11, 0) },
  /- GROUP_W11 -/ { off := 0x13C, acc := .rws, w := 0xFFFFFFFF, bank := some (0x100, 11, 0) }
  ]

/-- Registers of page kind seam2 (10). -/
def rowsSeam2 : List RegRow :=
  [
  /- SLOT_SEL -/ { off := 0x100, acc := .rw, w := 0x3FFF },
  /- SLOT -/ { off := 0x104, acc := .rws, w := 0xC3FFFFFF, bank := some (0x100, 13, 0) },
  /- SLOT_SEQ_P -/ { off := 0x108, acc := .ro },
  /- SLOT_SEQ_B -/ { off := 0x10C, acc := .ro }
  ]

/-- Registers of page kind peg (11). -/
def rowsPeg : List RegRow :=
  [
  /- PEG_SEL -/ { off := 0x100, acc := .rw, w := 0x3FF },
  /- PEG_CFG -/ { off := 0x104, acc := .rws, w := 0x800007FF, bank := some (0x100, 9, 0) },
  /- PEG_STATE -/ { off := 0x108, acc := .ro },
  /- PEG_VALUE -/ { off := 0x10C, acc := .ro },
  /- PEG_TARGET -/ { off := 0x110, acc := .ro },
  /- PEG_GEN -/ { off := 0x114, acc := .ro },
  /- WAIT_POOL -/ { off := 0x118, acc := .ro },
  /- CNT_SEL -/ { off := 0x120, acc := .rw, w := 0x3 },
  /- CNT_LO -/ { off := 0x124, acc := .ro, lo := true },
  /- CNT_HI -/ { off := 0x128, acc := .ro }
  ]

/-- Registers of page kind tly0 (12). -/
def rowsTly0 : List RegRow :=
  [
  /- TLY_SEL -/ { off := 0x100, acc := .rw, w := 0x7F },
  /- TLY_CFG -/ { off := 0x104, acc := .rws, w := 0xF80000E3, bank := some (0x100, 6, 0) },
  /- TLY_EPOCH_CFG -/ { off := 0x108, acc := .rws, w := 0xFFFFFFFF, bank := some (0x100, 6, 0) },
  /- TLY_STATUS -/ { off := 0x10C, acc := .ro },
  /- TALLY0 -/ { off := 0x110, acc := .ro },
  /- TALLY1 -/ { off := 0x114, acc := .ro },
  /- TALLY2 -/ { off := 0x118, acc := .ro },
  /- TALLY3 -/ { off := 0x11C, acc := .ro },
  /- TALLY4 -/ { off := 0x120, acc := .ro },
  /- TALLY5 -/ { off := 0x124, acc := .ro },
  /- TALLY6 -/ { off := 0x128, acc := .ro },
  /- TALLY7 -/ { off := 0x12C, acc := .ro },
  /- TALLY_PRESS_LO -/ { off := 0x130, acc := .ro, lo := true },
  /- TALLY_PRESS_HI -/ { off := 0x134, acc := .ro },
  /- TALLY_COUNT -/ { off := 0x138, acc := .ro },
  /- EPOCH_VIEW -/ { off := 0x13C, acc := .ro },
  /- CHECKPOINT_LO -/ { off := 0x150, acc := .rw, w := 0xFFFFFFFF, lo := true },
  /- CHECKPOINT_HI -/ { off := 0x154, acc := .rw, w := 0xFFFFFFFF },
  /- CHECKPOINT_CMD -/ { off := 0x158, acc := .wo, w := 0x8000007F },
  /- CNT_SEL -/ { off := 0x160, acc := .rw, w := 0x3 },
  /- CNT_LO -/ { off := 0x164, acc := .ro, lo := true },
  /- CNT_HI -/ { off := 0x168, acc := .ro }
  ]

/-- Registers of page kind tly1 (12). -/
def rowsTly1 : List RegRow :=
  [
  /- LOG_BUF -/ { off := 0x100, acc := .ro },
  /- LOG_HELD -/ { off := 0x104, acc := .ro },
  /- LOG_MARK_LO -/ { off := 0x108, acc := .ro, lo := true },
  /- LOG_MARK_HI -/ { off := 0x10C, acc := .ro }
  ]

/-- Registers of page kind lnk0 (13). -/
def rowsLnk0 : List RegRow :=
  [
  /- LNK_CTRL -/ { off := 0x100, acc := .rw, rst := 0x41001, w := 0xFFFF03 },
  /- LNK_STATUS -/ { off := 0x104, acc := .ro },
  /- LNK_LEVEL -/ { off := 0x108, acc := .ro, rst := 0x2 },
  /- LINK_LAT -/ { off := 0x10C, acc := .ro },
  /- LNK_PHASE -/ { off := 0x110, acc := .ro },
  /- EXPECT -/ { off := 0x114, acc := .ro },
  /- SEEN0 -/ { off := 0x120, acc := .ro },
  /- SEEN1 -/ { off := 0x124, acc := .ro },
  /- SEEN2 -/ { off := 0x128, acc := .ro },
  /- SEEN3 -/ { off := 0x12C, acc := .ro },
  /- SEEN4 -/ { off := 0x130, acc := .ro },
  /- SEEN5 -/ { off := 0x134, acc := .ro },
  /- SEEN6 -/ { off := 0x138, acc := .ro },
  /- SEEN7 -/ { off := 0x13C, acc := .ro },
  /- SEEN8 -/ { off := 0x140, acc := .ro },
  /- SEEN9 -/ { off := 0x144, acc := .ro },
  /- SEEN10 -/ { off := 0x148, acc := .ro },
  /- SEEN11 -/ { off := 0x14C, acc := .ro },
  /- SEEN12 -/ { off := 0x150, acc := .ro },
  /- SEEN13 -/ { off := 0x154, acc := .ro },
  /- SEEN14 -/ { off := 0x158, acc := .ro },
  /- SEEN15 -/ { off := 0x15C, acc := .ro }
  ]

/-- Registers of page kind lnk1 (13). -/
def rowsLnk1 : List RegRow :=
  [
  /- FEC_WINDOW -/ { off := 0x100, acc := .rw, rst := 0x18, w := 0x1F },
  /- FEC_BUDGET -/ { off := 0x104, acc := .rw, rst := 0x10000, w := 0xFFFFFFFF },
  /- FEC_BUDGET_EOL -/ { off := 0x108, acc := .rw, rst := 0x8000, w := 0xFFFFFFFF },
  /- LANE_STATUS -/ { off := 0x10C, acc := .ro },
  /- ADAPT_SHARE -/ { off := 0x110, acc := .rws, rst := 0x8200018, w := 0xFFFFFFFF },
  /- CNT_SEL -/ { off := 0x120, acc := .rw, w := 0x7 },
  /- CNT_LO -/ { off := 0x124, acc := .ro, lo := true },
  /- CNT_HI -/ { off := 0x128, acc := .ro }
  ]

/-- Registers of page kind opt (13). -/
def rowsOpt : List RegRow :=
  [
  /- OPT_CTRL -/ { off := 0x100, acc := .rw, rst := 0x1, w := 0x3 },
  /- OPT_STATUS -/ { off := 0x104, acc := .ro },
  /- MOD_ID0 -/ { off := 0x108, acc := .ro },
  /- MOD_ID1 -/ { off := 0x10C, acc := .ro },
  /- MOD_ID2 -/ { off := 0x110, acc := .ro },
  /- MOD_ID3 -/ { off := 0x114, acc := .ro },
  /- MOD_KEY_LO -/ { off := 0x118, acc := .ro, lo := true },
  /- MOD_KEY_HI -/ { off := 0x11C, acc := .ro },
  /- HOURS -/ { off := 0x120, acc := .ro },
  /- OPT_POWER -/ { off := 0x124, acc := .ro },
  /- POWER_MIN -/ { off := 0x128, acc := .rw, rst := 0x32, w := 0xFFFF }
  ]

/-- Registers of page kind hst (13). -/
def rowsHst : List RegRow :=
  [
  /- HST_CTRL -/ { off := 0x100, acc := .rw, rst := 0x1, w := 0x7FF0001 },
  /- HST_STATUS -/ { off := 0x104, acc := .ro },
  /- APERTURE_LO -/ { off := 0x108, acc := .rw, w := 0xFFFFFFFF, lo := true },
  /- APERTURE_HI -/ { off := 0x10C, acc := .rw, w := 0xFFFFFFFF },
  /- MSIX_CAUSE -/ { off := 0x110, acc := .ro, w1 := 0xFFFFFFFF },
  /- LAST_ERR -/ { off := 0x114, acc := .ro, w1 := 0x80000000 },
  /- LAST_ERR_ADDR_LO -/ { off := 0x118, acc := .ro, lo := true },
  /- LAST_ERR_ADDR_HI -/ { off := 0x11C, acc := .ro },
  /- CNT_SEL -/ { off := 0x120, acc := .rw, w := 0x7 },
  /- CNT_LO -/ { off := 0x124, acc := .ro, lo := true },
  /- CNT_HI -/ { off := 0x128, acc := .ro }
  ]

/-- Registers of page kind sto (13). -/
def rowsSto : List RegRow :=
  [
  /- STO_CTRL -/ { off := 0x100, acc := .rw, rst := 0x4000, w := 0xFF01 },
  /- STO_STATUS -/ { off := 0x104, acc := .ro },
  /- SRC_MAC_LO -/ { off := 0x108, acc := .rw, w := 0xFFFFFFFF, lo := true },
  /- SRC_MAC_HI -/ { off := 0x10C, acc := .rw, w := 0xFFFF },
  /- DST_MAC_LO -/ { off := 0x110, acc := .rw, w := 0xFFFFFFFF, lo := true },
  /- DST_MAC_HI -/ { off := 0x114, acc := .rw, w := 0xFFFF },
  /- SRC_IP0 -/ { off := 0x120, acc := .rw, w := 0xFFFFFFFF },
  /- SRC_IP1 -/ { off := 0x124, acc := .rw, w := 0xFFFFFFFF },
  /- SRC_IP2 -/ { off := 0x128, acc := .rw, w := 0xFFFFFFFF },
  /- SRC_IP3 -/ { off := 0x12C, acc := .rw, w := 0xFFFFFFFF },
  /- DST_IP0 -/ { off := 0x130, acc := .rw, w := 0xFFFFFFFF },
  /- DST_IP1 -/ { off := 0x134, acc := .rw, w := 0xFFFFFFFF },
  /- DST_IP2 -/ { off := 0x138, acc := .rw, w := 0xFFFFFFFF },
  /- DST_IP3 -/ { off := 0x13C, acc := .rw, w := 0xFFFFFFFF },
  /- UDP_PORTS -/ { off := 0x140, acc := .rw, w := 0xFFFFFFFF },
  /- FLOW -/ { off := 0x144, acc := .rw, w := 0xFFFFF },
  /- CNT_SEL -/ { off := 0x150, acc := .rw, w := 0x3 },
  /- CNT_LO -/ { off := 0x154, acc := .ro, lo := true },
  /- CNT_HI -/ { off := 0x158, acc := .ro }
  ]

/-- Registers of page kind fmc0 (01). -/
def rowsFmc0 : List RegRow :=
  [
  /- FMC_STATUS -/ { off := 0x100, acc := .ro },
  /- GOV_CEILING -/ { off := 0x104, acc := .rw, rst := 0x4B0, w := 0xFFF },
  /- GOV_STATE -/ { off := 0x108, acc := .ro },
  /- GOV_ESTIMATE -/ { off := 0x10C, acc := .ro },
  /- GOV_AVERAGE -/ { off := 0x110, acc := .ro },
  /- GOV_PEAK -/ { off := 0x114, acc := .rw, w := 0xFFFF },
  /- CNT_SEL -/ { off := 0x120, acc := .rw, w := 0x3 },
  /- CNT_LO -/ { off := 0x124, acc := .ro, lo := true },
  /- CNT_HI -/ { off := 0x128, acc := .ro }
  ]

/-- Registers of page kind fmc1 (03). -/
def rowsFmc1 : List RegRow :=
  [
  /- STRAPS -/ { off := 0x100, acc := .ro },
  /- STRAPS_LIVE -/ { off := 0x104, acc := .ro },
  /- PLAN_EPOCH -/ { off := 0x108, acc := .ro },
  /- PLAN_STATUS -/ { off := 0x10C, acc := .ro, w1 := 0x4 },
  /- PLAN_HASH0 -/ { off := 0x110, acc := .ro },
  /- PLAN_HASH1 -/ { off := 0x114, acc := .ro },
  /- PLAN_HASH2 -/ { off := 0x118, acc := .ro },
  /- PLAN_HASH3 -/ { off := 0x11C, acc := .ro },
  /- PLAN_HASH4 -/ { off := 0x120, acc := .ro },
  /- PLAN_HASH5 -/ { off := 0x124, acc := .ro },
  /- PLAN_HASH6 -/ { off := 0x128, acc := .ro },
  /- PLAN_HASH7 -/ { off := 0x12C, acc := .ro },
  /- PLAN_SHAPE -/ { off := 0x130, acc := .ro },
  /- PLAN_IMAGE_OFFSET -/ { off := 0x140, acc := .rw, w := 0xFFFFF000 },
  /- PLAN_IMAGE_LEN -/ { off := 0x144, acc := .rw, w := 0xFFFFFFFF },
  /- PLAN_ADOPT_PRESS_LO -/ { off := 0x148, acc := .rw, w := 0xFFFFFFFF, lo := true },
  /- PLAN_ADOPT_PRESS_HI -/ { off := 0x14C, acc := .rw, w := 0xFFFFFFFF },
  /- PLAN_CMD -/ { off := 0x150, acc := .wo, w := 0x7 }
  ]

/-- Registers of page kind fmc2 (12). -/
def rowsFmc2 : List RegRow :=
  [
  /- PAIR_CFG -/ { off := 0x100, acc := .rwk, w := 0xFF01 },
  /- PAIR_STATUS -/ { off := 0x104, acc := .ro },
  /- PAIR_LAST_LO -/ { off := 0x108, acc := .ro, lo := true },
  /- PAIR_LAST_HI -/ { off := 0x10C, acc := .ro },
  /- DIV_INFO -/ { off := 0x110, acc := .ro, w1 := 0x80000000 },
  /- DIV_PRESS_LO -/ { off := 0x114, acc := .ro, lo := true },
  /- DIV_PRESS_HI -/ { off := 0x118, acc := .ro },
  /- CNT_SEL -/ { off := 0x120, acc := .rw, w := 0x3 },
  /- CNT_LO -/ { off := 0x124, acc := .ro, lo := true },
  /- CNT_HI -/ { off := 0x128, acc := .ro }
  ]

/-- Registers of page kind fmc3 (15). -/
def rowsFmc3 : List RegRow :=
  [
  /- RESET_CMD -/ { off := 0x100, acc := .wo, w := 0xF03FFF00 },
  /- RESET_STATUS -/ { off := 0x104, acc := .ro },
  /- CTX_CMD -/ { off := 0x110, acc := .wo, w := 0xB00007FF },
  /- CTX_RESULT -/ { off := 0x114, acc := .ro },
  /- PWR_DIE_SEL -/ { off := 0x120, acc := .rw, w := 0x3F },
  /- LP1_REQ0 -/ { off := 0x124, acc := .rw, w := 0xFFFFFFFF, bank := some (0x120, 5, 0) },
  /- LP1_REQ1 -/ { off := 0x128, acc := .rw, w := 0xFFFFFFFF, bank := some (0x120, 5, 0) },
  /- LP1_REQ2 -/ { off := 0x12C, acc := .rw, w := 0xFFFFFFFF, bank := some (0x120, 5, 0) },
  /- LP1_REQ3 -/ { off := 0x130, acc := .rw, w := 0xFFFFFFFF, bank := some (0x120, 5, 0) },
  /- LP1_STATE0 -/ { off := 0x134, acc := .ro },
  /- LP1_STATE1 -/ { off := 0x138, acc := .ro },
  /- LP1_STATE2 -/ { off := 0x13C, acc := .ro },
  /- LP1_STATE3 -/ { off := 0x140, acc := .ro },
  /- LP_CMD -/ { off := 0x150, acc := .wo, w := 0x80000003 },
  /- LP_STATUS -/ { off := 0x154, acc := .ro }
  ]

/-- Registers of page kind fmc4 (16). -/
def rowsFmc4 : List RegRow :=
  [
  /- FW_CMD -/ { off := 0x100, acc := .wo, w := 0xF0000000 },
  /- FW_STATUS -/ { off := 0x104, acc := .ro },
  /- FW_OFFSET -/ { off := 0x108, acc := .rw, w := 0x3FFF000 },
  /- FW_PROGRESS -/ { off := 0x10C, acc := .ro },
  /- FW_ACT_PRESS_LO -/ { off := 0x110, acc := .rw, w := 0xFFFFFFFF, lo := true },
  /- FW_ACT_PRESS_HI -/ { off := 0x114, acc := .rw, w := 0xFFFFFFFF },
  /- FW_EPOCH_ACTIVE -/ { off := 0x118, acc := .ro },
  /- SLOT_STATUS -/ { off := 0x11C, acc := .ro },
  /- SLOT_EPOCH0 -/ { off := 0x120, acc := .ro },
  /- SLOT_EPOCH1 -/ { off := 0x124, acc := .ro },
  /- PAUSE_LAST -/ { off := 0x128, acc := .ro },
  /- SVC_STATUS -/ { off := 0x130, acc := .ro },
  /- NOTICE_SEQ -/ { off := 0x134, acc := .ro },
  /- CNT_SEL -/ { off := 0x140, acc := .rw, w := 0x7 },
  /- CNT_LO -/ { off := 0x144, acc := .ro, lo := true },
  /- CNT_HI -/ { off := 0x148, acc := .ro }
  ]

/-- Registers of page kind keep0 (15). -/
def rowsKeep0 : List RegRow :=
  [
  /- KEEP_STATUS -/ { off := 0x100, acc := .ro, w1 := 0x80000000 },
  /- REPLAY_EPOCH -/ { off := 0x104, acc := .ro },
  /- ROLLBACK -/ { off := 0x108, acc := .rwk, w := 0xFF },
  /- UNIT_HASH0 -/ { off := 0x110, acc := .rwk, w := 0xFFFFFFFF },
  /- UNIT_HASH1 -/ { off := 0x114, acc := .rwk, w := 0xFFFFFFFF },
  /- UNIT_HASH2 -/ { off := 0x118, acc := .rwk, w := 0xFFFFFFFF },
  /- UNIT_HASH3 -/ { off := 0x11C, acc := .rwk, w := 0xFFFFFFFF },
  /- UNIT_HASH4 -/ { off := 0x120, acc := .rwk, w := 0xFFFFFFFF },
  /- UNIT_HASH5 -/ { off := 0x124, acc := .rwk, w := 0xFFFFFFFF },
  /- UNIT_HASH6 -/ { off := 0x128, acc := .rwk, w := 0xFFFFFFFF },
  /- UNIT_HASH7 -/ { off := 0x12C, acc := .rwk, w := 0xFFFFFFFF },
  /- FAULT_NEXT -/ { off := 0x130, acc := .ro },
  /- FAULT_TOTAL -/ { off := 0x134, acc := .ro },
  /- KEEP_ECC -/ { off := 0x138, acc := .ro }
  ]

/-- Registers of page kind keep1 (13, 15). -/
def rowsKeep1 : List RegRow :=
  [
  /- ACCEPT_SEL -/ { off := 0x100, acc := .rw, w := 0x3F },
  /- ACCEPT_LO -/ { off := 0x104, acc := .rwk, w := 0xFFFFFFFF, bank := some (0x100, 5, 0), lo := true },
  /- ACCEPT_HI -/ { off := 0x108, acc := .rwk, w := 0xFFFFFFFF, bank := some (0x100, 5, 0) },
  /- HOUR_SEL -/ { off := 0x110, acc := .rw, w := 0x1F },
  /- SHADOW_KEY_LO -/ { off := 0x114, acc := .ro, lo := true },
  /- SHADOW_KEY_HI -/ { off := 0x118, acc := .ro },
  /- SHADOW_HOURS -/ { off := 0x11C, acc := .ro }
  ]

/-- Registers of page kind keep2 (15). -/
def rowsKeep2 : List RegRow :=
  [
  /- FREC_SEL -/ { off := 0x100, acc := .rw, w := 0x3F },
  /- FREC_W0 -/ { off := 0x104, acc := .ro },
  /- FREC_W1 -/ { off := 0x108, acc := .ro },
  /- FREC_W2 -/ { off := 0x10C, acc := .ro },
  /- FREC_W3 -/ { off := 0x110, acc := .ro }
  ]

/-- Registers of page kind keep3 (15). -/
def rowsKeep3 : List RegRow :=
  [
  /- AREA_ADDR -/ { off := 0x100, acc := .rw, w := 0x1FFC },
  /- AREA_DATA -/ { off := 0x104, acc := .rwk, w := 0xFFFFFFFF, bank := some (0x100, 12, 2) }
  ]

/-- The registers of a page kind from 0x100 upward. -/
def rowsOf : PageKind → List RegRow
  | .prs => rowsPrs
  | .flt => rowsFlt
  | .dbr => rowsDbr
  | .tile0 => rowsTile0
  | .tile1 => rowsTile1
  | .tile2 => rowsTile2
  | .tile3 => rowsTile3
  | .cip => rowsCip
  | .drn => rowsDrn
  | .bsk => rowsBsk
  | .seam0 => rowsSeam0
  | .seam1 => rowsSeam1
  | .seam2 => rowsSeam2
  | .peg => rowsPeg
  | .tly0 => rowsTly0
  | .tly1 => rowsTly1
  | .lnk0 => rowsLnk0
  | .lnk1 => rowsLnk1
  | .opt => rowsOpt
  | .hst => rowsHst
  | .sto => rowsSto
  | .fmc0 => rowsFmc0
  | .fmc1 => rowsFmc1
  | .fmc2 => rowsFmc2
  | .fmc3 => rowsFmc3
  | .fmc4 => rowsFmc4
  | .keep0 => rowsKeep0
  | .keep1 => rowsKeep1
  | .keep2 => rowsKeep2
  | .keep3 => rowsKeep3

/-- The register at an offset of a page kind. -/
def findRow (k : PageKind) (off : Nat) : Option RegRow :=
  if off < 0x100 then rowsHeader.find? (fun r => r.off = off) else (rowsOf k).find? (fun r => r.off = off)

/-- What a page is: its kind, its instance and its subpage. -/
structure PageInfo where
  kind : PageKind
  inst : Nat
  sub : Nat := 0
deriving DecidableEq, Repr

/-- The pages of a tile block (R58). -/
def tilePage (d t i : Nat) : Option PageInfo :=
  if t < nPhys d then
    match i with
    | 0 => some { kind := .tile0, inst := t }
    | 1 => some { kind := .tile1, inst := t, sub := 1 }
    | 2 => some { kind := .tile2, inst := t, sub := 2 }
    | 3 => match dieType d with
      | .compute => some { kind := .cip, inst := t }
      | .memside => some { kind := .tile3, inst := t, sub := 3 }
      | .io => none
    | 4 => if dieType d = .io then none else some { kind := .drn, inst := t }
    | 5 => some { kind := .bsk, inst := t }
    | _ => none
  else none

/-- The page map (R58): none where the page is absent (R38). Pages 0x725 to 0x72F of die (0,0), which the map gives to the FMC and no chapter
describes, are absent (DESIGN CHOICE, log 131). -/
def pageInfo (d page : Nat) : Option PageInfo :=
  if d ≥ 64 then none
  else if page = 0 then some { kind := .prs, inst := 0 }
  else if page = 1 then some { kind := .flt, inst := 0 }
  else if 0x10 ≤ page ∧ page < 0x20 then some { kind := .dbr, inst := (page - 0x10) / 4, sub := page % 4 }
  else if 0x100 ≤ page ∧ page < 0x580 then tilePage d ((page - 0x100) / 8) (page % 8)
  else if 0x600 ≤ page ∧ page < 0x640 then
    let e := (page - 0x600) / 16
    if (match dieType d with | .memside => true | .io => decide (e < 2) | .compute => false) then
      match page % 16 with
      | 0 => some { kind := .seam0, inst := e }
      | 1 => some { kind := .seam1, inst := e, sub := 1 }
      | 2 => some { kind := .seam2, inst := e, sub := 2 }
      | _ => none
    else none
  else match dieType d with
  | .memside =>
    if page = 0x680 then some { kind := .peg, inst := 0 }
    else if page = 0x690 then some { kind := .tly0, inst := 0 }
    else if page = 0x691 then some { kind := .tly1, inst := 0, sub := 1 }
    else none
  | .io =>
    if 0x700 ≤ page ∧ page < 0x70C then
      some (if page % 2 = 0 then { kind := .lnk0, inst := (page - 0x700) / 2 }
        else { kind := .lnk1, inst := (page - 0x700) / 2, sub := 1 })
    else if 0x710 ≤ page ∧ page < 0x713 then some { kind := .opt, inst := page - 0x710 }
    else if page = 0x718 ∧ dieV d = 0 then some { kind := .hst, inst := 0 }
    else if page = 0x719 ∧ isSto d 5 then some { kind := .sto, inst := 0 }
    else if d = 0 then
      match page with
      | 0x720 => some { kind := .fmc0, inst := 0 }
      | 0x721 => some { kind := .fmc1, inst := 0, sub := 1 }
      | 0x722 => some { kind := .fmc2, inst := 0, sub := 2 }
      | 0x723 => some { kind := .fmc3, inst := 0, sub := 3 }
      | 0x724 => some { kind := .fmc4, inst := 0, sub := 4 }
      | 0x730 => some { kind := .keep0, inst := 0 }
      | 0x731 => some { kind := .keep1, inst := 0, sub := 1 }
      | 0x732 => some { kind := .keep2, inst := 0, sub := 2 }
      | 0x733 => some { kind := .keep3, inst := 0, sub := 3 }
      | _ => none
    else none
  | .compute => none

/-- The page type code (02, Page type codes). -/
def typeCode : PageKind → Nat
  | .prs => 0x01 | .flt => 0x02 | .dbr => 0x03
  | .tile0 | .tile1 | .tile2 | .tile3 => 0x10
  | .cip => 0x11 | .drn => 0x12 | .bsk => 0x13
  | .seam0 | .seam1 | .seam2 => 0x20
  | .peg => 0x21 | .tly0 | .tly1 => 0x22
  | .lnk0 | .lnk1 => 0x30 | .opt => 0x31 | .hst => 0x32 | .sto => 0x33
  | .fmc0 | .fmc1 | .fmc2 | .fmc3 | .fmc4 => 0x40
  | .keep0 | .keep1 | .keep2 | .keep3 => 0x41

/-- The page holds RWS fields other than ARB_MODE (PAGE_CAP.SHADOWED). -/
def isShadowed (k : PageKind) : Bool := (rowsOf k).any fun r => r.acc = .rws

/-- The page has arbiters; their number (06). -/
def arbCount : PageKind → Nat
  | .tile0 => 12 | .tile2 => 4 | _ => 0

/-- Commits of the page take effect only at Press boundaries (the owning chapters). -/
def pressOnly : PageKind → Bool
  | .prs | .tile3 | .cip | .drn | .bsk | .seam1 | .seam2 | .peg | .tly0 => true
  | _ => false

/-- The fault sources of each page: source bit, code, default severity (R480). -/
def sourcesOf : PageKind → List (Nat × Nat × Nat)
  | .prs => [(0, 0x18, 1), (1, 0x19, 1), (2, 0x1A, 1), (3, 0x1B, 0), (4, 0x1C, 1)]
  | .flt => [(0, 0x8A, 4), (1, 0x8B, 4), (2, 0x8F, 1)]
  | .tile0 => [(0, 0x21, 1), (1, 0x22, 3), (2, 0x23, 1), (3, 0x24, 1), (4, 0x25, 2)]
  | .tile2 => [(0, 0x2C, 1)]
  | .tile3 => [(0, 0x27, 1), (1, 0x2E, 1)]
  | .cip => [(0, 0x58, 0)]
  | .drn => [(0, 0x38, 1), (1, 0x40, 0), (2, 0x39, 1), (3, 0x3A, 1), (4, 0x41, 0), (5, 0x44, 0), (6, 0x45, 1),
      (7, 0x32, 1)]
  | .seam0 => [(0, 0x32, 1), (1, 0x54, 1), (2, 0x55, 1)]
  | .tly0 => [(0, 0x6B, 0), (1, 0x6C, 1)]
  | .fmc1 => [(0, 0x90, 1)]
  | .fmc2 => [(0, 0x68, 1), (1, 0x69, 1), (2, 0x6A, 1)]
  | .dbr => [(0, 0x78, 1), (1, 0x79, 1), (2, 0x7A, 0), (3, 0x8C, 1), (4, 0x8D, 4)]
  | .lnk0 => [(0, 0x70, 1), (1, 0x71, 1), (2, 0x72, 1), (3, 0x73, 1), (4, 0x74, 1), (5, 0x75, 0), (6, 0x76, 0),
      (7, 0x8E, 1)]
  | .opt => [(0, 0x7B, 1), (1, 0x7C, 1), (2, 0x7D, 1), (3, 0x7E, 1), (4, 0x7F, 1)]
  | .sto => [(0, 0x80, 1)]
  | .hst => [(0, 0x81, 0)]
  | _ => []

/-- The reset value of FAULT_SEVERITY word w of a page kind: the default severities (R480). -/
def sevReset (k : PageKind) (w : Nat) : Nat :=
  (sourcesOf k).foldl (fun a e => if e.1 / 8 = w then a + e.2.2 * 16 ^ (e.1 % 8) else a) 0

/-- The reset value of a register of a page kind. -/
def rowReset (k : PageKind) (off : Nat) : Nat :=
  if 0x20 ≤ off ∧ off < 0x30 then sevReset k ((off - 0x20) / 4)
  else match findRow k off with | some r => r.rst | none => 0

/-- The block-specific bits of PAGE_CAP (05, 08). -/
def blockCap : PageKind → Nat
  | .tile3 => 512 | .drn => 0x2048 | _ => 0

/-- The page capabilities word (02, PAGE_CAP). -/
def pageCap (k : PageKind) : Nat :=
  b2n (isShadowed k) * 2 ^ 31 + b2n (arbCount k ≠ 0) * 2 ^ 30 + b2n (pressOnly k) * 2 ^ 29 +
    b2n (sourcesOf k ≠ []) * 2 ^ 28 + (arbCount k - 1) * 2 ^ 16 + blockCap k

/-- The page number of a tile subpage, of a bridge module, of a LNK subpage. -/
def tpage (t sub : Nat) : Nat := 0x100 + 8 * t + sub
def dbrPage (b m : Nat) : Nat := 0x10 + 4 * b + m
def lnkPage (p sub : Nat) : Nat := 0x700 + 2 * p + sub
def seamPage (e sub : Nat) : Nat := 0x600 + 16 * e + sub

end Sys2Proof.Machine
end

