-- ==== Sys2Proof/Machine/Access.lean ====
section
/-! DEFINITION. Register values in effect and in the shadow (R12, R48), page headers, statistics counters, the Press
unit's figures (R87 to R90), contexts active on a tile, and the raising of a fault (R466, R467). -/
namespace Sys2Proof.Machine

/-! ### Register values -/

/-- The reset value of a register of a die's page. -/
def resetOf (die page off : Nat) : Word :=
  match pageInfo die page with | some i => w32 (rowReset i.kind off) | none => 0

/-- The value in effect of a register, of the entry sel where it is banked. -/
def reg (s : State) (die page off : Nat) (sel : Nat := 0) : Word :=
  look (resetOf die page off) s.rg.eff (rk die page off sel)

/-- The shadow value of a RWS register: the value last written, or the value in effect (R48). -/
def shadowReg (s : State) (die page off : Nat) (sel : Nat := 0) : Word :=
  match look? s.rg.shadow (rk die page off sel) with
  | some v => v
  | none => reg s die page off sel

/-- Bits [hi:lo] of a register in effect. -/
def rfld (s : State) (die page off hi lo : Nat) (sel : Nat := 0) : Nat := wbits (reg s die page off sel) hi lo

/-- Two registers in effect as one 64-bit quantity (R37). -/
def reg64 (s : State) (die page off : Nat) (sel : Nat := 0) : DWord :=
  pair64 (reg s die page off sel) (reg s die page (off + 4) sel)

/-- A write of the value in effect. -/
def setReg (die page off sel : Nat) (v : Word) (s : State) : State :=
  { s with rg := { s.rg with eff := put (resetOf die page off) s.rg.eff (rk die page off sel) v } }

/-- A write of the shadow value. -/
def setShadow (die page off sel : Nat) (v : Word) (s : State) : State :=
  { s with rg := { s.rg with shadow := ins s.rg.shadow (rk die page off sel) v } }

/-- The header of a page. -/
def pageOf (s : State) (die page : Nat) : Page := look {} s.rg.pages (pk die page)

/-- A change of the header of a page. -/
def modPage (die page : Nat) (f : Page → Page) (s : State) : State :=
  { s with rg := { s.rg with pages := upd {} s.rg.pages (pk die page) f } }

/-- Sets PAGE_STATUS.BAD_WRITE (R46). -/
def badWrite (die page : Nat) : State → State := modPage die page fun p => { p with bad := true }

/-! ### Statistics counters -/

/-- Key of a 64-bit counter of a page. -/
def ckey (die page sel : Nat) : Nat := pk die page * 4096 + sel

/-- A statistics counter. -/
def countOf (s : State) (die page sel : Nat) : DWord := look 0 s.rg.counts (ckey die page sel)

/-- Adds n to a statistics counter. -/
def addCount (die page sel n : Nat) (s : State) : State :=
  { s with rg := { s.rg with counts := upd 0 s.rg.counts (ckey die page sel) (· + w64 n) } }

/-- Adds n to a 32-bit counter register that saturates. -/
def satCount (die page off n : Nat) (s : State) : State :=
  setReg die page off 0 (w32 (min 0xFFFFFFFF ((reg s die page off).toNat + n))) s

/-! ### The Press unit -/

/-- The Press unit of a die. -/
def unitOf (s : State) (die : Nat) : PressUnit := look {} s.tm.units die

/-- A change of a Press unit. -/
def modUnit (die : Nat) (f : PressUnit → PressUnit) (s : State) : State :=
  { s with tm := { s.tm with units := upd {} s.tm.units die f } }

/-- A die's Press unit is in RUN (R92). -/
def running (s : State) (die : Nat) : Bool := (unitOf s die).st = .run

/-- The Press number of a die. -/
def pressOf (s : State) (die : Nat) : Nat := (unitOf s die).press

/-- A Press of PERIOD_REF reference cycles has C = 64 × PERIOD_REF / 5 FCLK cycles (R87). -/
def pressCycles (period : Nat) : Nat := 64 * period / 5

/-- The fold in effect: the lower of FOLD_CYCLES and the largest multiple of 256 not above C / 4 (R89). -/
def foldOf (foldCycles period : Nat) : Nat := min foldCycles (pressCycles period / 4 / 256 * 256)

/-- FOLD_CYCLES in effect on die (0,0), which sets F on every die (R89). -/
def foldCycles (s : State) : Nat := rfld s 0 0 0x114 13 0

/-- C, F and B = C − F of a die (R89, R101). -/
def cyclesC (s : State) (die : Nat) : Nat := pressCycles (unitOf s die).period
def foldF (s : State) (die : Nat) : Nat := foldOf (foldCycles s) (unitOf s die).period
def budgetB (s : State) (die : Nat) : Nat := cyclesC s die - foldF s die

/-- The current cycle within the Press (R88). -/
def cycleOf (s : State) (die : Nat) : Nat := s.tm.fclk - (unitOf s die).start

/-- The limit in effect of PHASE_LIMIT (R98). -/
def phaseLimit (s : State) (die : Nat) : Nat :=
  let p := (unitOf s die).period
  let f := rfld s die 0 0x118 17 0
  if f = 0 then p / 4 else min f (p / 2)

/-- A die whose unit is in RUN and on whose Press package-wide decisions are taken: die (0,0), or the first die in
RUN (DEDUCED: every unit in RUN holds one number, R24; log 13). -/
def refDie (s : State) : Nat :=
  if running s 0 then 0 else (allDies.find? fun d => running s d).getD 0

/-- The package's Press number. -/
def pkgPress (s : State) : Nat := pressOf s (refDie s)

/-! ### Parts in a reset, in the safe state, asleep -/

/-- The die is in the safe state (R476), isolated (R472). -/
def isSafe (s : State) (die : Nat) : Bool := decide (die ∈ s.ft.safeDies)
def isIsolated (s : State) (die : Nat) : Bool := decide (die ∈ s.ft.isolated)

/-- A write of user memory by a die; in the safe state none is issued (R476). -/
def storeBy (die : Nat) (a : DWord) (bs : List Byte) (s : State) : State := if isSafe s die then s else userStore a bs s

/-- The die stays in reset: its DIE_TYPE tie-off disagrees with R15 (R553). -/
def notInService (s : State) (die : Nat) : Bool := decide (die ∈ s.tm.mistied)

/-- The logical tile is in LP1 (R510). -/
def isAsleep (s : State) (die tile : Nat) : Bool := decide ((die, tile) ∈ s.rs.asleep)

/-- A reset in progress covers the units of a tile (R482, R502). -/
def tileQuiesced (s : State) (die tile : Nat) : Bool :=
  match s.rs.busy with
  | some q =>
    decide (q.die = die) && (decide (q.kind = 2) || (decide (q.kind = 3) && decide (q.part = physTile s die tile)))
  | none => false

/-- A TILE_RESET in progress covers the router of a physical tile. -/
def routerQuiesced (s : State) (die t : Nat) : Bool :=
  match s.rs.busy with
  | some q => decide (q.kind = 3) && decide (q.die = die) && decide (q.part = t)
  | none => false

/-- A reset in progress covers a page's unit (R43 REG_RESET). -/
def pageQuiesced (s : State) (die page : Nat) (k : PageKind) : Bool :=
  match s.rs.busy with
  | none => false
  | some q =>
    decide (q.die = die) &&
    match q.kind with
    | 2 => !(k = .tile0 || k = .tile1 || k = .tile2 || k = .dbr) && decide (page < 0x720)
    | 3 => decide (0x100 ≤ page) && decide (page < 0x580) && decide ((page - 0x100) / 8 = q.part)
    | 4 =>
      if q.part < 16 then decide (page = 0x10 + q.part)
      else if q.part < 0x18 then
        decide (page = lnkPage (q.part - 16) 0) || decide (page = lnkPage (q.part - 16) 1) ||
          (decide (page = 0x719) && isSto die (q.part - 16))
      else decide (page = 0x718)
    | _ => false

/-- A port reset in progress covers a bridge module (link below 16) or LNK port (16 and up) of a die (R502). -/
def portQuiesced (s : State) (die link : Nat) : Bool :=
  match s.rs.busy with
  | some q => decide (q.kind = 4) && decide (q.die = die) && decide (q.part = link)
  | none => false

/-! ### Contexts -/

/-- The tile number that stands for every tile of a die in `lostAct`. -/
def wholeDie : Nat := 255

/-- Context c is active on a tile (R354): active on the package, and not lost there. -/
def activeOn (s : State) (die tile c : Nat) : Bool :=
  decide (c ∈ s.rs.active) && !decide ((tk die tile, c) ∈ s.rs.lostAct) &&
    !decide ((tk die wholeDie, c) ∈ s.rs.lostAct)

/-! ### Raising a fault -/

/-- The code of a source of a page (R480). -/
def srcCode (k : PageKind) (b : Nat) : Nat :=
  match (sourcesOf k).find? (fun e => e.1 = b) with | some e => e.2.1 | none => 0

/-- The severity field of a source of a page (R45), 4 for FLT_PARITY (R479). -/
def srcSev (s : State) (die page b : Nat) (k : PageKind) : Nat :=
  if k = .flt ∧ b = 0 then 4
  else min 4 (wbits (reg s die page (0x20 + 4 * (b / 8))) (4 * (b % 8) + 2) (4 * (b % 8)))

/-- A source is masked (R47); FLT_PARITY never is (R479). -/
def srcMasked (s : State) (die page b : Nat) (k : PageKind) : Bool :=
  !(decide (k = .flt) && decide (b = 0)) && (reg s die page 0x1C).toNat.testBit b

/-- The kind of a die's page (PRS where absent; raising names present pages only). -/
def kindOf (die page : Nat) : PageKind := match pageInfo die page with | some i => i.kind | none => .prs

/-- The severity a raising acts at: none where masked (R47); CONTEXT without a context acts as NOTIFY (R471), DIE on die (0,0) as
SAFE (R473). -/
def actSev (s : State) (die page b : Nat) (k : PageKind) (ctx : Option Nat) : Nat :=
  if srcMasked s die page b k then 0
  else match srcSev s die page b k with
    | 2 => if ctx.isSome then 2 else 1
    | 3 => if die = 0 then 4 else 3
    | n => n

/-- A raising while the FAULT_STATUS bit is 1 sends no record, unless its severity is CONTEXT and it names a context
this source has not caused to be reset (R467). -/
def raiseRecords (s : State) (die page b : Nat) (ctx : Option Nat) : Bool :=
  let p := pageOf s die page
  !p.fault.toNat.testBit b ||
    (decide (actSev s die page b (kindOf die page) ctx = 2) &&
      match ctx with | some c => !decide ((b, c) ∈ p.ctxSeen) | none => false)

/-- The record a raising sends to the collector (R466). -/
def raiseRec (s : State) (die page b : Nat) (ctx : Option Nat) (detail : Word) : FaultRec :=
  let k := kindOf die page
  { code := srcCode k b, sev := actSev s die page b k ctx, masked := srcMasked s die page b k, page := page, die := die,
    bit := b, ctx := ctx, press := pressOf s die % 2 ^ 32, detail := detail, cycle := s.tm.fclk }

/-- A fault source raises: the FAULT_STATUS bit, and a record toward the die's collector or a repeat counted
(R466, R467). -/
def raise (die page b : Nat) (ctx : Option Nat) (detail : Word) (s : State) : State :=
  let rec? := raiseRecords s die page b ctx
  let r := raiseRec s die page b ctx detail
  let seen := match ctx with | some c => if r.sev = 2 then [(b, c)] else [] | none => []
  let s := modPage die page (fun p => { p with
    fault := p.fault ||| w32 (2 ^ b)
    ctxSeen := p.ctxSeen ++ (if rec? then seen else []) }) s
  let s := doIf r.masked (addCount die 1 2 1) s
  if rec? then { s with ft := { s.ft with raised := s.ft.raised ++ [r] } } else addCount die 1 1 1 s

/-- A raising without a context or detail. -/
def raise0 (die page b : Nat) : State → State := raise die page b none 0

/-- A source of a PRS page raises, and its bit of PRS_STATUS is set: 0 MISMATCH, 1 PHASE, 2 LOST, 3 EPOCH_BAD, 4 OVERRUN (04). -/
def raisePrs (die b : Nat) (ctx : Option Nat) (detail : Word) (s : State) : State :=
  setReg die 0 0x104 0 (reg s die 0 0x104 ||| w32 (2 ^ [5, 6, 4, 3, 7].getD b 7)) (raise die 0 b ctx detail s)

/-- Clears FAULT_STATUS bits, which re-arms their sources (R467). -/
def clearFaults (die page : Nat) (m : Word) : State → State :=
  modPage die page fun p => { p with
    fault := p.fault &&& ~~~m
    ctxSeen := p.ctxSeen.filter fun e => !m.toNat.testBit e.1 }

/-! ### Completions -/

/-- The CIP answers a command of a stream with a status (R557). -/
def cipRsp (die tile stream status : Nat) (data : List Byte) : State → State :=
  emit (.cipRsp die tile stream status data)

/-- An admission outcome word (R186): outcome 0 ACCEPT, 1 DEFER, 2 REFUSE, and reason. -/
def outcome (o reason : Nat) : Nat := o * 2 ^ 14 + reason

end Sys2Proof.Machine
end

