-- ==== Sys2Proof/Machine/Routing.lean ====
section
/-! DEFINITION. Packets, buffers and routes (05): classes, planes and responses, the escape and adaptive outputs of a
tile, the egress of a package leg, and the injection of a packet by an endpoint. -/
namespace Sys2Proof.Machine

/-! ### Classes and packets -/

/-- CLASS codes (R115). -/
def clsCode : TClass → Nat
  | .bulk => 0 | .fetch => 1 | .log => 2 | .weight => 3 | .reduce => 4 | .ctrl => 5 | .mgmt => 6

/-- The plane of a class (R19); the locked plane is kept as plane 0 (R109, R133). -/
def planeOf : TClass → Nat
  | .bulk | .fetch | .log => 0 | .weight => 1 | .reduce => 2 | .ctrl | .mgmt => 3

/-- The flit size of a plane (R113). -/
def flitBytes (plane : Nat) : Nat := if plane = 3 then 16 else 64

/-- OPCODE[7] is RSP (R117). -/
def isRsp (p : Packet) : Bool := p.opcode.toNat.testBit 7

/-- MGMT and LOG belong to no context (R21). -/
def hasCtx (p : Packet) : Bool := !(p.cls = .mgmt || p.cls = .log)

/-- Payload flits a number of bytes takes on a class's plane (R114). -/
def flitsFor (cls : TClass) (n : Nat) : Nat := ceilDiv n (flitBytes (planeOf cls))

/-- The address of a packet's source endpoint (R116); a seam engine's packets name engine and record by SSEQ (log 28). -/
def srcAddr (p : Packet) : DWord :=
  epAddr p.srcPkg p.srcDie p.srcTile p.srcPort (if p.srcPort = 9 then p.sseq.toNat % 1024 else 0)

/-- The source endpoint of an answer as SRC_TILE and SRC_PORT name it (R67, R116): the endpoint the request was addressed
to. A memory, a multicast's member and a tile's router have no port code: they take code 0 with their tile (DESIGN CHOICE,
log 116). -/
def answerSrc (tile : Nat) (q : Packet) : Nat × Nat :=
  if q.mc ∨ aRegion q.dest ≠ 1 then (tile, 0) else (aTile q.dest, aPort q.dest)

/-- A response: to the request's source, with its SSEQ and FLAGS (R118). -/
def response (s : State) (die tile : Nat) (q : Packet) (opcode : Nat) (operand : DWord) (payload : List Byte) : Packet :=
  { cls := q.cls, ctx := q.ctx, dest := srcAddr q, opcode := BitVec.ofNat 8 opcode, srcPkg := pkgNo s, srcDie := die,
    srcTile := (answerSrc tile q).1, srcPort := (answerSrc tile q).2, sseq := q.sseq, flags := q.flags, operand := operand,
    payload := payload, len := flitsFor q.cls payload.length, why := List.replicate (flitsFor q.cls payload.length) 0 }

/-- A STATUS response of the request's group: OPCODE[3:0] is 0xF, OPERAND[7:0] the status code (R118). -/
def statusRsp (s : State) (die tile : Nat) (q : Packet) (code : Nat) : Packet :=
  response s die tile q (0x8F + q.opcode.toNat / 16 % 8 * 16) (w64 code) []

/-- A response carries a part-reset mark, a buffer-ECC mark (R135): what its requester completes with, 0 when it is
clean. -/
def poisonStatus (p : Packet) : Nat :=
  if p.poison || p.why.any (· = 2) then 0x88 else if p.why.any (· = 1) then 0x26 else 0

/-! ### Buffers -/

/-- Key of an input buffer, of an output's credit count. -/
def bkey (die tile port plane vc cls : Nat) : Nat :=
  ((((tk die tile) * 16 + port) * 4 + plane) * 4 + vc) * 4 + cls

/-- Key of an injection queue of a port and plane. -/
def ikey (die tile port plane : Nat) : Nat := (tk die tile * 16 + port) * 4 + plane

/-- VC1 and VC3 are adaptive. -/
def isAdaptive (vc : Nat) : Bool := vc % 2 = 1

/-- The escape class of a packet: 2 × LEG + DL on the package (R127); 0 on an adaptive VC. -/
def escCls (p : Packet) (vc : Nat) : Nat := if isAdaptive vc then 0 else 2 * b2n p.leg + b2n p.dl

/-- Adaptive flits of a plane and VC that a Sundi ingress holds by ADAPT_SHARE (R132). -/
def sundiAdaptive (share : Word) (plane : Nat) : Nat :=
  254656 * wbits share (8 * plane + 7) (8 * plane) / 64 / 2 / flitBytes plane

/-- Key of a bridge module and of a LNK port in the link stores. -/
def mkey (die b m : Nat) : Nat := die * 16 + 4 * b + m
def modOf (s : State) (die b m : Nat) : Link := look {} s.lk.mods (mkey die b m)
def lnkOf (s : State) (port : Nat) : Link := look {} s.lk.ports port

/-- A module carries another module's tracks (R491). -/
def carriesFold (s : State) (die b m : Nat) : Bool := s.lk.folded.any fun e => e.2 = mkey die b m

/-- A router port runs P0 and P1 as one plane (R111): its own mode, which it changes once it holds no flit of either. -/
def lockKey (die t port : Nat) : Nat := tk die t * 16 + port
def portLocked (s : State) (die t port : Nat) : Bool := look false s.nt.lockMode (lockKey die t port)

/-- The attachment of a port of a tile (none for mesh and local ports). -/
def outAttach (die n port : Nat) : Attach := if port = 8 ∨ port = 9 then attachOf die n (port - 8) else .none

/-- The module of a bridge that carries the tracks of module m now: itself, or the module it is folded onto (R491). -/
def carrier (s : State) (die b m : Nat) : Option Nat :=
  if (modOf s die b m).lost then (s.lk.folded.find? fun e => e.1 = mkey die b m).map fun e => e.2 % 4 else some m

/-- Flits of a module's ingress buffer for one track set: VC0 and VC2 9 per class for each set it carries, VC1 and VC3 72, of
which it gives 36 up where it carries a fold (R132, R492). -/
def moduleFlits (s : State) (die b m vc : Nat) : Nat :=
  if isAdaptive vc then (if carriesFold s die b ((carrier s die b m).getD m) then 36 else 72) else 9

/-- Flits of a Sundi port's ingress buffer; under plane lock P0's and P1's adaptive shares act as one (R132, R133). -/
def sundiFlits (share : Word) (locked : Bool) (plane vc : Nat) : Nat :=
  if isAdaptive vc then sundiAdaptive share plane + (if locked ∧ plane = 0 then sundiAdaptive share 1 else 0)
  else if locked ∧ plane = 0 then 18 else 9

/-- The flits of an input per plane, VC and class, given the ADAPT_SHARE a Sundi port goes by (R132, R133, R492). L0 and L1
are sized as a mesh port (DEDUCED, log 22). -/
def flitsAt (s : State) (die n port plane vc : Nat) (share : Nat → Word) : Nat :=
  let locked := portLocked s die (physTile s die n) port
  match outAttach die n port with
  | .lnk p => sundiFlits (share p) locked plane vc
  | .module b m => (if locked ∧ plane = 0 then 2 else 1) * moduleFlits s die b m vc
  | .none => (if locked ∧ plane = 0 then 2 else 1) * (if isAdaptive vc then 18 else 9)

/-- A port a tile's position and its die's type provide (R120 to R123). A LNK tile of an I/O die has its transit unit at L0
(log 16). -/
def portExists (die n port : Nat) : Bool :=
  let c := tCol die n
  let r := tRow die n
  match port with
  | 0 => decide (c + 1 < nCols die)
  | 1 => decide (0 < c)
  | 2 => decide (r + 1 < nRows die)
  | 3 => decide (0 < r)
  | 4 => dieType die = .compute && decide (c + 4 < 16)
  | 5 => dieType die = .compute && decide (4 ≤ c)
  | 6 => dieType die = .compute && decide (r + 4 < 8)
  | 7 => dieType die = .compute && decide (4 ≤ r)
  | 8 | 9 => outAttach die n port ≠ .none
  | 10 => dieType die ≠ .io || decide (n ∈ [0, 1, 2, 4, 5, 6, 7, 9, 10])
  | 11 => (dieType die = .compute && decide (n = 0)) || (dieType die = .memside && decide (n ∈ [0, 5, 6, 9, 10]))
  | _ => false

/-- The buffer size of an input of a router, per plane, VC and class, in flits; an absent port has none (R120, R132). -/
def bufSize (s : State) (die n port plane vc : Nat) : Nat :=
  if portExists die n port then flitsAt s die n port plane vc fun p => reg s die (lnkPage p 1) 0x110 else 0

/-- An output without a credit count: a local output, a storage port (R587). -/
def noCount (die n port : Nat) : Bool :=
  port = 10 || port = 11 || (match outAttach die n port with | .lnk p => isSto die p | _ => false)

/-- The downstream buffer of an output port, in flits; 0 where the output carries no credit count (R587) and where the
port is absent (R120). -/
def downSize (s : State) (die n port plane vc : Nat) : Nat :=
  if noCount die n port || !portExists die n port then 0
  else flitsAt s die n port plane vc fun p => (lnkOf s (portOf die p)).peerShare

/-- The number that stands for module m of bridge b in the keys of credit counts: a module's ingress is one buffer for all
its gateway tiles (R132). -/
def modTile (b m : Nat) : Nat := 200 + 4 * b + m

/-- Key of an output's credit count: the gateway tiles of a module share its count, and the track sets of a module share its
adaptive one (R492). -/
def credKey (s : State) (die t n port plane vc cls : Nat) : Nat :=
  match outAttach die n port with
  | .module b m => bkey die (modTile b (if isAdaptive vc then (carrier s die b m).getD m else m)) 8 plane vc cls
  | _ => bkey die t port plane vc cls

/-- Credits now held for a downstream buffer (R129). -/
def credits (s : State) (die t n port plane vc cls : Nat) : Nat :=
  downSize s die n port plane vc - look 0 s.nt.used (credKey s die t n port plane vc cls)

/-- Flits of a queue of packets. -/
def occupancy (q : List QPkt) : Nat := q.foldl (fun a x => a + x.pkt.len + 1) 0

/-- Flits held in an input buffer now: its packets, and of the one that leaves the flits still to go, one a cycle, two under
plane lock (R129, R133). -/
def heldFlits (s : State) (k : Nat) : Nat :=
  let rate := if portLocked s (k / 262144) (k / 1024 % 256) (k / 64 % 16) ∧ k / 16 % 4 = 0 then 2 else 1
  occupancy (look [] s.nt.bufs k) +
    (match look? s.nt.leaving k with | some (flits, at_) => flits - rate * (s.tm.fclk - at_) | none => 0)

/-! ### Steps on a die -/

/-- Express segments are in use on the column direction: only with no spare row in use (R121, R487). -/
def expressCol (s : State) (die : Nat) : Bool := dieType die = .compute && spareOf s die = 8
def expressRow (die : Nat) : Bool := dieType die = .compute

/-- The output toward column (row) `dst` from `at_`: the express segment where one starts here and does not pass it,
otherwise the mesh hop (R137). -/
def towardCol (x : Bool) (at_ dst : Nat) : Nat :=
  if at_ < dst then (if x ∧ at_ + 4 ≤ dst then 4 else 0) else (if x ∧ dst + 4 ≤ at_ then 5 else 1)
def towardRow (x : Bool) (at_ dst : Nat) : Nat :=
  if at_ < dst then (if x ∧ at_ + 4 ≤ dst then 6 else 2) else (if x ∧ dst + 4 ≤ at_ then 7 else 3)

/-- The tile a mesh or express output leads to, and the input port there, where the port exists (R120). -/
def meshStep (die n port : Nat) : Nat × Nat :=
  let c := tCol die n
  let r := tRow die n
  match port with
  | 0 => (mkTile die (c + 1) r, 1)
  | 1 => (mkTile die (c - 1) r, 0)
  | 2 => (mkTile die c (r + 1), 3)
  | 3 => (mkTile die c (r - 1), 2)
  | 4 => (mkTile die (c + 4) r, 5)
  | 5 => (mkTile die (c - 4) r, 4)
  | 6 => (mkTile die c (r + 4), 7)
  | _ => (mkTile die c (r - 4), 6)

/-- Ring direction from a to b: + when the ring distance is at most 4 (05, escape routing). -/
def ringPlus (a b : Nat) : Bool := (b + 8 - a) % 8 ≤ 4

/-- The G ports of a tile that carry a module of bridge b. -/
def gPorts (die n b : Nat) : List Nat :=
  [8, 9].filter fun g => match outAttach die n g with | .module b' _ => decide (b' = b) | _ => false

/-- The G port of a tile that carries module m of bridge b. -/
def gForModule (die n b m : Nat) : Option Nat :=
  if attachOf die n 0 = .module b m then some 8 else if attachOf die n 1 = .module b m then some 9 else none

/-- Where a leg ends: die, logical tile and output port there. -/
structure Target where
  die : Nat
  tile : Nat
  port : Nat
deriving DecidableEq, Repr

/-- The egress entry of a direction and lane at a tile (R143). -/
def egress (s : State) (die t dir lane : Nat) : Word := reg s die (tpage t 1) 0x124 (16 * dir + lane)

/-- The lane of an escape packet, or the next VALID lane of the direction, ascending with wrap-around (R143, R495). -/
def laneFor (s : State) (die t dir pkt_ dst : Nat) : Option Nat :=
  let P := lanesOf (rfld s die (tpage t 1) 0x108 9 8) dir
  if P = 0 then none
  else
    ((List.range P).map fun i => ((pkt_ + dst) % P + i) % P).find? fun l =>
      (egress s die t dir l).toNat.testBit 31

/-- The package-level direction by the tile's PKG_ROUTE (05, next_hop); none at the destination package. -/
def hopDir (s : State) (die t dst : Nat) : Option Nat :=
  let w := reg s die (tpage t 1) 0x108
  let shape := wbits w 9 8
  let dr := wbits w 15 10 ^^^ (dst / 64)
  if dr ≠ 0 then (List.range 6).find? fun d => dr.testBit d
  else
    let rp := torusPos shape (dst % 64)
    let x2 := rp.1
    let y2 := rp.2.1
    let z2 := rp.2.2
    let rp := torusSize shape
    let sx := rp.1
    let sy := rp.2.1
    let sz := rp.2.2
    let x := wbits w 2 0
    let y := wbits w 5 3
    let z := wbits w 7 6
    if x ≠ x2 then some (ringDir 0 x x2 sx)
    else if y ≠ y2 then some (ringDir 1 y y2 sy)
    else if z ≠ z2 then some (ringDir 2 z z2 sz)
    else none

/-- The port an egress entry names, if it is VALID and names a LNK port. -/
def entryPort (w : Word) : Option Nat :=
  if w.toNat.testBit 31 ∧ dieType (wbits w 21 16) = .io then
    ((List.range 6).find? fun p => lnkTile p = (wbits w 15 8, wbits w 0 0)).map fun p => portOf (wbits w 21 16) p
  else none

/-- The VALID lanes of a direction with the port each leads to. -/
def lanePorts (s : State) (die t d : Nat) : List (Nat × Nat) :=
  (List.range (lanesOf (rfld s die (tpage t 1) 0x108 9 8) d)).filterMap fun l =>
    (entryPort (egress s die t d l)).map fun q => (l, q)

/-- The port `via` names: the one an adaptive packet has chosen (R143), or the one its transit grant is for, with the pool
class of the slot (R146, R147). -/
def viaPort (p : Packet) : Nat := (p.via - 1) % 64
def viaCls (p : Packet) : Nat := (p.via - 1) / 64
def viaOf (port cls : Nat) : Nat := 1 + port + 64 * cls

/-- The direction and lane a packet leaves this package by, seen from a tile: the lane of the port it has a grant for or has
chosen, or the escape lane (R143, R146, R495). -/
def legOf (s : State) (die t : Nat) (p : Packet) : Option (Nat × Nat) :=
  match hopDir s die t (aPkg p.dest) with
  | none => none
  | some d =>
    let named := if p.via ≠ 0 then (lanePorts s die t d).find? fun e => e.2 = viaPort p else none
    match named with
    | some e => some (d, e.1)
    | none => if p.via ≠ 0 ∧ p.leg then none else (laneFor s die t d p.srcPkg (aPkg p.dest)).map fun l => (d, l)

/-- The target of a packet's leg on this package: its destination tile, or the tile that carries its egress port. -/
def targetOf (s : State) (die t : Nat) (p : Packet) : Option Target :=
  if aPkg p.dest = pkgNo s then
    let rp := targetTile p.dest
    some { die := aDie p.dest, tile := rp.1, port := rp.2 }
  else
    (legOf s die t p).map fun (d, l) =>
      let w := egress s die t d l
      { die := wbits w 21 16, tile := wbits w 15 8, port := 8 + wbits w 0 0 }

/-- The packet as it would travel on escape: an adaptive one enters with DL 0 and the home track of the tile where it enters
(R126, R141), and takes the escape lane unless it has a transit grant (R143). -/
def onEscape (die n : Nat) (p : Packet) : Packet :=
  if isAdaptive p.vc then
    { p with vc := p.vc / 2 * 2, dl := false, track := homeTrack die n, via := if p.leg then p.via else 0 }
  else p

/-- The adaptive packet of a leg that leaves this package chooses its lane where it starts: the VALID lane whose port has
the most adaptive credit for it, the lower lane on a tie, or the escape lane where none has credit for the whole packet
(R143: any lane that has credit; which one and when is a DESIGN CHOICE, log 117). -/
def chooseLane (s : State) (die t : Nat) (p : Packet) : Packet :=
  if !isAdaptive p.vc || p.mc || aPkg p.dest = pkgNo s then p
  else
    let credit (e : Nat × Nat) : Nat :=
      let d := portDie e.2
      let n := (lnkTile (e.2 % 6)).1
      credits s d (physTile s d n) n (8 + (lnkTile (e.2 % 6)).2) (planeOf p.cls) p.vc 0
    match hopDir s die t (aPkg p.dest) with
    | none => p
    | some d =>
      let best := ((lanePorts s die t d).filter fun e => decide (credit e ≥ p.len + 1)).foldl (fun b e => match b with
        | none => some e
        | some x => if credit e > credit x then some e else some x) none
      match best with | some e => { p with via := viaOf e.2 0 } | none => p

/-- The escape output at a tile (R136, R137); none at a gateway tile whose row or column does not carry the packet's track,
where the rules bring no packet. -/
def escOut (s : State) (die t n : Nat) (p : Packet) (g : Target) : Option Nat :=
  let x := decide (rfld s die (tpage t 0) 0x100 0 0 = 1)
  let c := tCol die n
  let r := tRow die n
  let tc := trackCol die (colTrack g.die g.tile)
  if dieU die ≠ dieU g.die then
    let plus := ringPlus (dieU die) (dieU g.die)
    let b := if plus then 0 else 1
    let edge := if plus then nCols die - 1 else 0
    match gForModule die n b (p.track / 2) with
    | some q => some q
    | none => if c = edge then none else some (towardCol (x && expressRow die) c edge)
  else if c ≠ tc then some (towardCol (x && expressRow die) c tc)
  else if dieV die ≠ dieV g.die then
    let plus := ringPlus (dieV die) (dieV g.die)
    let b := if plus then 2 else 3
    let edge := if plus then nRows die - 1 else 0
    match gForModule die n b (colTrack g.die g.tile / 4) with
    | some q => some q
    | none => if r = edge then none else some (towardRow (x && expressCol s die) r edge)
  else if r ≠ tRow die g.tile then some (towardRow (x && expressCol s die) r (tRow die g.tile))
  else some g.port

/-- Outputs along a row (column) from `at_` toward `to` that do not pass it. -/
def rowOuts (x : Bool) (at_ dst : Nat) : List Nat :=
  if at_ < dst then 0 :: (if x ∧ at_ + 4 ≤ dst then [4] else [])
  else if dst < at_ then 1 :: (if x ∧ dst + 4 ≤ at_ then [5] else []) else []
def colOuts (x : Bool) (at_ dst : Nat) : List Nat :=
  if at_ < dst then 2 :: (if x ∧ at_ + 4 ≤ dst then [6] else [])
  else if dst < at_ then 3 :: (if x ∧ dst + 4 ≤ at_ then [7] else []) else []

/-- The outputs an adaptive packet may take (R139). -/
def adaptOuts (s : State) (die t n : Nat) (g : Target) : List Nat :=
  let x := decide (rfld s die (tpage t 0) 0x100 0 0 = 1)
  let c := tCol die n
  let r := tRow die n
  let u? := decide (dieU die ≠ dieU g.die)
  let v? := decide (dieV die ≠ dieV g.die)
  let pu := ringPlus (dieU die) (dieU g.die)
  let pv := ringPlus (dieV die) (dieV g.die)
  let tc := if u? then (if pu then nCols die - 1 else 0) else trackCol die (colTrack g.die g.tile)
  let tr := if v? then (if pv then nRows die - 1 else 0) else tRow die g.tile
  let bu := if u? then gPorts die n (if pu then 0 else 1) else []
  let bv := if v? then gPorts die n (if pv then 2 else 3) else []
  if die = g.die ∧ n = g.tile then [g.port]
  else rowOuts (x && expressRow die) c tc ++ colOuts (x && expressCol s die) r tr ++ bu ++ bv


/-- The adaptive output the tile chooses: most free credits for the whole packet, lower port on a tie (R140). -/
def bestAdaptive (s : State) (die t n : Nat) (p : Packet) (g : Target) : Option Nat :=
  let plane := planeOf p.cls
  ((adaptOuts s die t n g).filter fun o => noCount die n o ||
    decide (credits s die t n o plane p.vc 0 ≥ p.len + 1)).foldl (fun best o =>
      match best with
      | none => some o
      | some b =>
        let cb := credits s die t n b plane p.vc 0
        let co := credits s die t n o plane p.vc 0
        if co > cb ∨ (co = cb ∧ o < b) then some o else some b) none

/-- A move along a column or across a v bridge, and along a row or across a u bridge (R138, R150). -/
def isYPort (die n port : Nat) : Bool :=
  match port with
  | 2 | 3 | 6 | 7 => true
  | _ => match outAttach die n port with | .module b _ => decide (b ≥ 2) | _ => false

/-- The crossing of bridge b of a die joins ring positions 7 and 0 (R138). -/
def isWrap (die b : Nat) : Bool :=
  match b with
  | 0 => dieU die = 7 | 1 => dieU die = 0 | 2 => dieV die = 7 | _ => dieV die = 0

/-- The PDL a packet carries on the next link when it leaves in direction d (R144): 1 on the link that joins positions S − 1
and 0 of its torus dimension and until it leaves that dimension (its PDL was cleared where it entered this package to change
it); 0 on a hypercube hop and on a detour (R496). -/
def pdlNext (s : State) (die t d : Nat) (p : Packet) : Bool :=
  let pos := torusPos (shapeOf s) (pkgNo s % 64)
  let sz := torusSize (shapeOf s)
  let (a, k) := match (d - 6) / 2 with | 0 => (pos.1, sz.1) | 1 => (pos.2.1, sz.2.1) | _ => (pos.2.2, sz.2.2)
  decide (d ≥ 6) && decide (hopDir s die t (aPkg p.dest) = some d) &&
    (p.pdl || (if d % 2 = 0 then decide (a + 1 = k) else decide (a = 0)))

/-- The packet as it leaves by an output: VC, dateline class and the package-leg bits (R138, R141, R144, R150).
`inPort` is the port it came in by. On a Sundi link DL returns to 0: the rules give datelines within a package only, and
the leg behind the link starts in a ring direction of its own (DESIGN CHOICE, log 118). -/
def afterHop (s : State) (die n inPort out : Nat) (escape : Bool) (p : Packet) : Packet :=
  let p := if escape then onEscape die n p else p
  let dl := if isYPort die n out && !isYPort die n inPort then false else p.dl
  match outAttach die n out with
  | .module b _ => { p with dl := dl || isWrap die b }
  | .lnk q =>
    match portRole (shapeOf s) (portOf die q) with
    | .dir d _ => { p with dl := false, leg := true, via := 0, pdl := pdlNext s die (physTile s die n) d p }
    | _ => p
  | .none => { p with dl := dl }

/-! ### Sending -/

/-- The injection queue of a port and plane. -/
def injQ (s : State) (k : Nat) : List QPkt := look [] s.nt.inject k

/-- The queue of a port and plane a packet waits in: one FIFO per context and class (R173). -/
def sameFlow (p q : Packet) : Bool := p.cls = q.cls && (p.ctx = q.ctx || !hasCtx p)

/-- A packet as it starts from a tile: VC, ORD, TRACK (R117, R128, R141). -/
def startPkt (s : State) (die n : Nat) (p : Packet) : Packet :=
  let t := physTile s die n
  let ord := (reg s die (tpage t 1) 0x100).toNat.testBit (clsCode p.cls)
  let adaptOk := decide (rfld s die (tpage t 0) 0x100 1 1 = 1)
  let esc := ord || !adaptOk || p.mc
  { p with ord := ord, vc := 2 * b2n (isRsp p) + b2n (!esc), dl := false, pdl := false, track := homeTrack die n }

/-- An endpoint at a port of a logical tile sends a packet: it joins the port's injection queue and takes part in decisions
from the next cycle on (R168). -/
def sendFrom (die n port : Nat) (p : Packet) (s : State) : State :=
  let p := startPkt s die n p
  let k := ikey die (physTile s die n) port (planeOf p.cls)
  let q := injQ s k
  { s with nt := { s.nt with inject := put [] s.nt.inject k (q ++ [{ pkt := p, since := s.tm.fclk + 1 }]) } }

/-- The local port and tile a die-level unit sends by (R122, R123). -/
def dieUnitPort (die : Nat) : Nat := if dieType die = .io then 10 else 11

/-- The loss of a packet with its link, or in a part reset, is reported to its requester: to the source of a request,
to the DEST of a response (R448, R483). -/
def lossTo (p : Packet) : DWord := if isRsp p then p.dest else srcAddr p

/-- The STATUS in place of a lost packet, from the tile that reports it (log 116). -/
def lossRsp (s : State) (die n code : Nat) (p : Packet) : Packet :=
  { statusRsp s die n p code with dest := lossTo p, srcTile := n, srcPort := 0 }

/-- A requester waits for what becomes of the packet; of LOG and MGMT and multicast packets none does. -/
def awaited (p : Packet) : Bool := !p.mc && decide (p.cls ≠ .log) && decide (p.cls ≠ .mgmt)

/-- A STATUS in place of a lost packet. -/
def sendLoss (die n port code : Nat) (p : Packet) (s : State) : State :=
  if awaited p then sendFrom die n port (lossRsp s die n code p) s else s

/-- A packet handed to an endpoint is consumed by the endpoint's command: its first entry leaves the list. -/
def consume (die tile : Nat) (p : Packet) (s : State) : State :=
  { s with nt := { s.nt with delivered :=
      (takeFirst (fun w : Wire => w.die = die && w.tile = tile && w.pkt = p) s.nt.delivered).2 } }

end Sys2Proof.Machine
end

