-- ==== Sys2Proof/Machine/Shaping.lean ====
section
/-! DEFINITION. Shaper nodes, gates and hems (06): token buckets, the permitted starts of R173 and R174, the charges,
and one cycle of the fabric clock with the counters of R581 that count cycles. -/
namespace Sys2Proof.Machine

/-! ### Nodes -/

/-- Key of a context node, of a class node (class code 0 to 5) or port node (7) of a tile. Port 0 L0, 1 L1, 2 G0,
3 G1, as NODE_SEL numbers them. -/
def ctxNodeKey (die t c : Nat) : Nat := tk die t * 4096 + c
def nodeKey (die t port cls : Nat) : Nat := tk die t * 4096 + 2048 + port * 8 + cls

/-- NODE_SEL's port of a tile port 8 to 11. -/
def nodePort (port : Nat) : Nat := match port with | 10 => 0 | 11 => 1 | 8 => 2 | _ => 3

/-- The throttle level in effect (R193). -/
def govLevel (s : State) : Nat := rfld s 0 0x720 0x108 3 0

/-- A configuration of a node: SHAPE_EN, RESET_FULL, RATE, BURST in bytes. -/
structure NodeCfg where
  en : Bool
  full : Bool
  rate : Nat
  burst : Nat
deriving DecidableEq, Repr

def nodeCfgOf (cfg burst : Word) : NodeCfg :=
  { en := cfg.toNat.testBit 31, full := cfg.toNat.testBit 30, rate := wbits cfg 15 0, burst := wbits burst 19 0 }

def ctxNode (s : State) (die t c : Nat) : NodeCfg :=
  nodeCfgOf (reg s die (tpage t 2) 0x104 c) (reg s die (tpage t 2) 0x108 c)

/-- The entry of NODE_CFG for a port and class. -/
def nodeSel (port cls : Nat) : Nat := 16 * port + cls
def portNode (s : State) (die t port cls : Nat) : NodeCfg :=
  nodeCfgOf (reg s die (tpage t 2) 0x124 (nodeSel port cls)) (reg s die (tpage t 2) 0x128 (nodeSel port cls))

/-- A G port of a tile is an egress shaping port: its attachment is a LNK or STO port (R171). -/
def isEgressPort (die n port : Nat) : Bool :=
  dieType die = .io && (port = 8 || port = 9) &&
    (match attachOf die n (port - 8) with | .lnk _ => true | _ => false)

/-- The physical rate of a port (R194). -/
def portRate (die n port : Nat) : Nat :=
  if port = 10 ∨ port = 11 then 53248
  else match attachOf die n (port - 8) with
    | .lnk p => if isSto die p then 12800 else 51200
    | _ => 51200

/-- The physical rate of a plane at a port (06, after R185). -/
def planeRate (s : State) (die n port plane : Nat) : Nat :=
  if port = 10 ∨ port = 11 then
    if plane = 3 then 4096 else if plane = 0 ∧ portLocked s die (physTile s die n) port then 32768 else 16384
  else portRate die n port

/-- The effective rate of a port node at a level: none is no limit (R193, R194); the scaled rate is rounded down
(DESIGN CHOICE, log 15). -/
def effRate (cfg : NodeCfg) (level phys : Nat) : Option Nat :=
  if level = 0 then (if cfg.en then some cfg.rate else none)
  else some ((16 - level) * (if cfg.en then min cfg.rate phys else phys) / 16)

/-- Tokens at a later cycle: the stored count grown by the rate, up to BURST (R177). -/
def grow (cfg : NodeCfg) (rate dt : Nat) (tok : Int) : Int := min (cfg.burst * 256) (tok + rate * dt)

/-- The tokens of a context or class node now. -/
def nodeTokens (s : State) (key : Nat) (cfg : NodeCfg) : Int :=
  let rp := look (0, 0) s.nt.tokens key
  let tok := rp.1
  let at_ := rp.2
  if cfg.en then grow cfg cfg.rate (s.tm.fclk - at_) tok else tok

/-- Tokens of a port node at `now`, stored at `at_`: each stretch between two changes of the throttle level (newest
first, the level before them all is 0) adds the effective rate it had (R177, R193). -/
def growLevels (cfg : NodeCfg) (phys at_ : Nat) (tok : Int) (now : Nat) : List (Nat × Nat) → Int
  | [] => match effRate cfg 0 phys with | some r => grow cfg r (now - at_) tok | none => tok
  | (c, l) :: rest =>
    let start := max c at_
    let before := if at_ < c then growLevels cfg phys at_ tok c rest else tok
    match effRate cfg l phys with | some r => grow cfg r (now - start) before | none => before

/-- The tokens of a port node now. -/
def portTokens (s : State) (die t n port : Nat) : Int :=
  let np := nodePort port
  let rp := look (0, 0) s.nt.tokens (nodeKey die t np 7)
  growLevels (portNode s die t np 7) (portRate die n port) rp.2 rp.1 s.tm.fclk s.nt.govHist

/-- The start of a packet of `bytes` counted bytes charges a node (R177); tokens never fall below
−(BURST + 1,024) bytes (R176). -/
def chargeTok (cfg : NodeCfg) (bytes : Nat) (tok : Int) : Int :=
  max (-(((cfg.burst + 1024) * 256 : Nat) : Int)) (tok - (256 * bytes : Nat))

/-! ### The start of a cycle (R168, R177) -/

/-- A new cycle begins: decisions of the cycle go by what stands now. -/
def startCycle (s : State) : State :=
  { s with nt := { s.nt with
    at0 := { eff := s.rg.eff, used := s.nt.used, tokens := s.nt.tokens }, charges := [] } }

/-- The fabric as the decisions of this cycle see it: a commit, a FREEZE bit, a credit, a charge of this cycle does not count
yet (R168, R177). -/
def atStart (s : State) : State :=
  { s with
    rg := { s.rg with eff := s.nt.at0.eff }
    nt := { s.nt with used := s.nt.at0.used, tokens := s.nt.at0.tokens } }

/-- The clock moves to cycle c. -/
def setClock (c : Nat) (s : State) : State := startCycle { s with tm := { s.tm with fclk := c } }

/-- Stores tokens as they stand now. -/
def setTok (key : Nat) (tok : Int) (s : State) : State :=
  { s with nt := { s.nt with tokens := put (0, 0) s.nt.tokens key (tok, s.tm.fclk) } }

/-- The port node's OVH (R178). -/
def ovhOf (s : State) (die t np : Nat) : Nat := rfld s die (tpage t 2) 0x124 23 16 (nodeSel np 7)

/-- The counted length of a packet at a port (R178). -/
def countedLen (s : State) (die t np : Nat) (p : Packet) : Nat :=
  (p.len + 1) * flitBytes (planeOf p.cls) + ovhOf s die t np

/-- Sets a node's tokens under R179, before the charges of this cycle. -/
def resetTok (key : Nat) (cfg : NodeCfg) (s : State) : State :=
  setTok key (chargeTok cfg (look 0 s.nt.charges key) (if cfg.full then (cfg.burst * 256 : Nat) else 0)) s

/-- A start is charged to a node in this cycle, whether or not the node limits starts yet (R179). -/
def noteCharge (key bytes : Nat) (s : State) : State :=
  { s with nt := { s.nt with charges := upd 0 s.nt.charges key (· + bytes) } }

/-- Every node of a tile at 0 tokens (R180). -/
def zeroTileTokens (die t : Nat) (s : State) : State :=
  let f (e : Nat × (Int × Nat)) : Nat × (Int × Nat) := if e.1 / 4096 = tk die t then (e.1, ((0 : Int), s.tm.fclk)) else e
  let s := { s with nt := { s.nt with tokens := s.nt.tokens.map f } }
  forEach [0, 1, 2, 3] (fun np s => setTok (nodeKey die t np 7) 0 s) s

/-- A tile leaves LP1: its units take their configuration from the mirror, its node tokens are 0 (R180, R512). -/
def wakeTile (die n : Nat) (s : State) : State :=
  if isAsleep s die n then
    zeroTileTokens die (physTile s die n)
      { s with rs := { s.rs with asleep := s.rs.asleep.filter fun e => e ≠ (die, n) } }
  else s

/-! ### Gates -/

/-- A word of a gate register as step 6 took it (R185). -/
def gateReg (s : State) (die t off sel : Nat) : Word :=
  look (resetOf die (tpage t 2) off) s.nt.gates (rk die (tpage t 2) off sel)

/-- A register key names a gate window or a class or port node of a TILE subpage 2. -/
def isGateKey (k : Nat) : Bool :=
  let off := k / 16384 % 4096
  let page := k / 16384 / 4096 % 4096
  decide (0x100 ≤ page) && decide (page < 0x580) && decide (page % 8 = 2) &&
    (off = 0x134 || off = 0x124 || off = 0x128)

/-- Step 6 takes the gate lists and the node words the hems use (R185). -/
def takeGates (s : State) : State :=
  { s with nt := { s.nt with gates := keep isGateKey s.rg.eff } }

/-- The entry of GATE_WIN for a port, class and window. -/
def gateSel (np cls w : Nat) : Nat := 256 * np + 16 * cls + w

/-- The windows of a list of GATE_WIN words: (open, close) in units of 32 cycles, in window order; used and valid ones
only (R182, R183); and whether any is invalid. -/
def validWins (B : Nat) : (prev : Nat) → List Word → List (Nat × Nat) × Bool
  | _, [] => ([], false)
  | prev, w :: ws =>
    let o := wbits w 15 0
    let c := wbits w 31 16
    if o = 0 ∧ c = 0 then validWins B prev ws
    else if c ≤ o ∨ o < prev ∨ 32 * o ≥ B then ((validWins B prev ws).1, true)
    else let (l, b) := validWins B c ws; ((o, c) :: l, b)

/-- A window whose OPEN equals the CLOSE before it continues it (R183): first and last cycle of each joined window,
clipped at B. -/
def joinWins (B : Nat) : List (Nat × Nat) → List (Nat × Nat)
  | [] => []
  | (o, c) :: ws =>
    match joinWins B ws with
    | (o2, e2) :: rest => if 32 * c = o2 then (32 * o, e2) :: rest else (32 * o, min (32 * c) B) :: (o2, e2) :: rest
    | [] => [(32 * o, min (32 * c) B)]

/-- The gate windows of a class at a port, as cycles [open, close); none: ungated (R182, R183). -/
def gateWins (s : State) (die t np cls : Nat) : Option (List (Nat × Nat)) :=
  if (gateReg s die t 0x124 (nodeSel np cls)).toNat.testBit 29 then
    let B := budgetB s die
    let ws := joinWins B (validWins B 0 ((List.range 16).map fun w => gateReg s die t 0x134 (gateSel np cls w))).1
    if ws = [] then none else some ws
  else none

/-- The plane a class code uses. -/
def planeOfCode (cls : Nat) : Nat := match cls with | 3 => 1 | 4 => 2 | 5 | 6 => 3 | _ => 0

/-- The hem H of a class at a port (R184). -/
def hemOf (s : State) (die t n port cls : Nat) : Nat :=
  let np := nodePort port
  let w := gateReg s die t 0x124 (nodeSel np 7)
  let cfg := nodeCfgOf w (gateReg s die t 0x128 (nodeSel np 7))
  let pr := planeRate s die n port (planeOfCode cls)
  let e := match effRate cfg (govLevel s) (portRate die n port) with | some r => min r pr | none => pr
  if e = 0 then 0xFFFF else ceilDiv ((9 * flitBytes (planeOfCode cls) + wbits w 23 16) * 256) e

/-- What a gate says of a start now: open, closed, or in the hem of its window (R182, R184). -/
inductive GateSay where
  | open_ | closed | hem
deriving DecidableEq, Repr

def gateSays (s : State) (die t n port cls : Nat) : GateSay :=
  if cls = 6 then .open_
  else
    match gateWins s die t (nodePort port) cls with
    | none => .open_
    | some ws =>
      let cyc := cycleOf s die
      match ws.find? fun w => decide (w.1 ≤ cyc) && decide (cyc < w.2) with
      | none => .closed
      | some w => if cyc + hemOf s die t n port cls ≥ w.2 then .hem else .open_

/-! ### Permitted starts -/

/-- Every bucket on the packet's path at this port permits its start: the context node at an injection port, the
class node and the port node (R173, R174, R176). MGMT passes without charge (R172). -/
def bucketsPermit (s : State) (die t n port : Nat) (p : Packet) : Bool :=
  if p.cls = .mgmt then true
  else
    let np := nodePort port
    let cc := clsCode p.cls
    let cfgC := ctxNode s die t p.ctx
    let cfgK := portNode s die t np cc
    let okCtx := port < 10 || !hasCtx p || !cfgC.en || decide (nodeTokens s (ctxNodeKey die t p.ctx) cfgC ≥ 0)
    let okCls := !cfgK.en || decide (nodeTokens s (nodeKey die t np cc) cfgK ≥ 0)
    let okPort := match effRate (portNode s die t np 7) (govLevel s) (portRate die n port) with
      | none => true
      | some _ => decide (portTokens s die t n port ≥ 0)
    okCtx && okCls && okPort

/-- Charges one node with a start. -/
def chargeNode (key : Nat) (cfg : NodeCfg) (bytes : Nat) (s : State) : State :=
  noteCharge key bytes (if cfg.en then setTok key (chargeTok cfg bytes (nodeTokens s key cfg)) s else s)

/-- Charges the context node of a tile and its CTX_BYTES counter. -/
def chargeCtx (die t c bytes : Nat) (s : State) : State :=
  addCount die (tpage t 2) (0x400 + c) bytes (chargeNode (ctxNodeKey die t c) (ctxNode s die t c) bytes s)

/-- A packet starts at a shaping port: its nodes are charged and the counters 0 and 1 of R581 count it (R177). -/
def chargeStart (die t n port : Nat) (p : Packet) (s : State) : State :=
  let np := nodePort port
  let bytes := countedLen s die t np p
  let s := addCount die (tpage t 2) (16 * np) bytes (addCount die (tpage t 2) (16 * np + 1) 1 s)
  if p.cls = .mgmt then s
  else
    let cc := clsCode p.cls
    let s := doIf (decide (port ≥ 10) && hasCtx p) (chargeCtx die t p.ctx bytes) s
    let s := chargeNode (nodeKey die t np cc) (portNode s die t np cc) bytes s
    let cfg := portNode s die t np 7
    noteCharge (nodeKey die t np 7) bytes (match effRate cfg (govLevel s) (portRate die n port) with
      | none => s
      | some _ => setTok (nodeKey die t np 7) (chargeTok cfg bytes (portTokens s die t n port)) s)

/-- A commit that puts a gate list into effect raises GATE_BAD for every list with an invalid window (R183). While no Press
period is known there is no B: the windows are judged against one another alone (log 67). -/
def checkGateList (die t np cls : Nat) (s : State) : State :=
  let B := if budgetB s die = 0 then 2 ^ 32 else budgetB s die
  if (validWins B 0 ((List.range 16).map fun w => reg s die (tpage t 2) 0x134 (gateSel np cls w))).2 then
    let st := reg s die (tpage t 2) 0x138
    raise0 die (tpage t 2) 0 (setReg die (tpage t 2) 0x138 0 (st ||| w32 (2 ^ (8 * np + cls))) s)
  else s

/-! ### Admission at the governor (R193) -/

/-- A seam open, a descriptor post, an activation is deferred with GOV_THROTTLE at the level in effect. -/
def govDefersSeam (s : State) : Bool := govLevel s ≥ 12
def govDefersPost (s : State) : Bool := govLevel s ≥ 14
def govDefersAct (s : State) : Bool := govLevel s ≥ 15

/-- Key of a deferral counter: 0 PLANE, 1 GOV, 2 BUDGET, 3 OTHER of a context at a logical tile (R191). -/
def deferKey (die n c k : Nat) : Nat := (tk die n * 2048 + c) * 4 + k

/-- The counter a deferral reason counts under (R191). -/
def deferIdx (reason : Nat) : Nat := if reason = 0x1E then 0 else if reason = 0x28 then 1 else if reason = 0x29 then 2 else 3

/-- Counts a deferral of a context at a tile (R191). -/
def countDefer (die n c reason : Nat) (s : State) : State :=
  { s with nt := { s.nt with defer := upd 0 s.nt.defer (deferKey die n c (deferIdx reason)) (· + 1) } }

/-- The four counters of a context at a tile. -/
def deferOf (s : State) (die n c k : Nat) : Word := look 0 s.nt.defer (deferKey die n c k)

end Sys2Proof.Machine
end

