-- ==== Sys2Proof/Machine/LinkBase.lean ====
section
/-! DEFINITION. What the links carry (13: R427, R430 to R432, R438 to R441; 05: R113 to R116): packets as flits and sidebands,
groups of a bridge module, courses of a Sundi port, their control symbols and numbers, and what is kept for replay. A link of a
die is a number: 4 × bridge + module below 16, 16 + LNK port above. -/
namespace Sys2Proof.Machine

/-! ### A link by number -/

def isMod (link : Nat) : Bool := decide (link < 16)
def linkPort (die link : Nat) : Nat := portOf die (link - 16)

/-- A Sundi link exists: a LNK port of an I/O die that is no storage port. -/
def isSundi (die link : Nat) : Bool :=
  decide (16 ≤ link) && decide (link < 22) && dieType die = .io && !isSto die (link - 16)
def isLink (die link : Nat) : Bool := isMod link || isSundi die link

def linkOf (s : State) (die link : Nat) : Link :=
  if isMod link then look {} s.lk.mods (die * 16 + link) else lnkOf s (linkPort die link)
def modMod (die b m : Nat) (f : Link → Link) (s : State) : State :=
  { s with lk := { s.lk with mods := upd {} s.lk.mods (mkey die b m) f } }
def modLnk (port : Nat) (f : Link → Link) (s : State) : State :=
  { s with lk := { s.lk with ports := upd {} s.lk.ports port f } }
def modLink (die link : Nat) (f : Link → Link) (s : State) : State :=
  if isMod link then { s with lk := { s.lk with mods := upd {} s.lk.mods (die * 16 + link) f } }
  else modLnk (linkPort die link) f s

/-! ### Packets as bits (R115, R116) -/

/-- A number from its fields, (width, value), the lowest first. -/
def packFields : List (Nat × Nat) → Nat
  | [] => 0
  | (w, v) :: fs => v % 2 ^ w + 2 ^ w * packFields fs

/-- The route word. -/
def routeWord (p : Packet) : Nat :=
  packFields [(64, p.dest.toNat), (3, p.track), (1, 0), (11, p.ctx), (3, clsCode p.cls), (4, p.len), (1, b2n p.poison),
    (1, b2n p.mc), (1, b2n p.ord), (1, b2n p.pdl), (1, b2n p.dl), (1, b2n p.leg), (2, p.vc), (2, if p.len = 0 then 3 else 2)]

/-- The common header. -/
def headerWord (p : Packet) : Nat :=
  packFields [(8, p.opcode.toNat), (12, p.srcPkg), (6, p.srcDie), (8, p.srcTile), (4, p.srcPort), (2, 0), (16, p.sseq.toNat),
    (8, p.flags.toNat), (64, p.operand.toNat)]

/-- The flit size of a packet. -/
def flitOf (p : Packet) : Nat := flitBytes (planeOf p.cls)

/-- The data field of flit k of a packet: the head with EXT, then the payload, zeros after its end. -/
def flitData (p : Packet) (k : Nat) : List Byte :=
  if k = 0 then leBytes 16 (headerWord p) ++ padTo (flitOf p - 16) p.ext
  else padTo (flitOf p) (slice p.payload ((k - 1) * flitOf p) (flitOf p))

/-- The 16-bit sideband of flit k ≥ 1. -/
def bodySide (p : Packet) (k : Nat) : Nat :=
  let why := p.why.getD (k - 1) 0
  packFields [(4, why), (4, k), (1, b2n (decide (why ≠ 0))), (1, b2n p.pdl), (1, b2n p.dl), (1, b2n p.leg), (2, p.vc),
    (2, if k = p.len then 1 else 0)]

/-- The class of a CLASS code; 7 is reserved. -/
def clsOfCode : Nat → Option TClass
  | 0 => some .bulk | 1 => some .fetch | 2 => some .log | 3 => some .weight | 4 => some .reduce | 5 => some .ctrl
  | 6 => some .mgmt | _ => none

/-- Bytes without the zeros at their end. -/
def trimZeros (bs : List Byte) : List Byte := (bs.reverse.dropWhile fun b => decide (b = 0)).reverse

/-- The packet a head flit begins; its payload is still to come. A reserved class names no packet. -/
def headPacket (side : Nat) (data : List Byte) : Option Packet :=
  (clsOfCode (bits side 81 79)).map fun cls =>
    let h := field data 0 16
    { vc := bits side 93 92, leg := side.testBit 91, dl := side.testBit 90, pdl := side.testBit 89, ord := side.testBit 88,
      mc := side.testBit 87, poison := side.testBit 86, len := bits side 85 82, cls := cls, ctx := bits side 78 68,
      track := bits side 66 64, dest := w64 (bits side 63 0), opcode := BitVec.ofNat 8 (bits h 7 0), srcPkg := bits h 19 8,
      srcDie := bits h 25 20, srcTile := bits h 33 26, srcPort := bits h 37 34, sseq := BitVec.ofNat 16 (bits h 55 40),
      flags := BitVec.ofNat 8 (bits h 63 56), operand := w64 (bits h 127 64),
      ext := trimZeros (slice data 16 (flitBytes (planeOf cls) - 16))
      nbytes := if planeOf cls = 3 then (byteAt data 16).toNat else 0 }

/-- A packet with one more flit of its payload. -/
def addFlit (p : Packet) (side : Nat) (data : List Byte) : Packet :=
  { p with payload := p.payload ++ padTo (flitOf p) data, why := p.why ++ [bits side 3 0] }

/-! ### Bridge modules: flit slots and groups (R431) -/

/-- What a slot carries behind a P3 head flit: the byte count of a message (DESIGN CHOICE, log 40). -/
def slotTail (p : Packet) (k : Nat) : List Byte :=
  if k = 0 ∧ planeOf p.cls = 3 ∧ p.nbytes ≠ 0 then [BitVec.ofNat 8 p.nbytes] else []

/-- The flits of a packet as slots. -/
def packetSlots (p : Packet) : List FlitSlot :=
  (List.range (p.len + 1)).map fun k =>
    { valid := true, plane := planeOf p.cls, head := decide (k = 0), side := if k = 0 then routeWord p else bodySide p k,
      data := flitData p k ++ slotTail p k }

/-- The 100 companion bits of a slot. -/
def slotBits (x : FlitSlot) : List (Nat × Nat) := [(1, b2n x.valid), (2, x.plane), (1, b2n x.head), (96, x.side)]

/-- The CRC-24 of a cycle: over its data and its 232 other companion bits (R431). -/
def cycleCrc (x : BridgeCycle) : Nat :=
  crc24 (padTo 64 x.slot0.data ++ padTo 64 x.slot1.data ++
    leBytes 29 (packFields (slotBits x.slot0 ++ slotBits x.slot1 ++ [(32, x.control)])))

/-- A cycle with its CRC. -/
def cycleOf2 (a b : FlitSlot) (control : Nat) : BridgeCycle :=
  let x : BridgeCycle := { slot0 := a, slot1 := b, control := control, crc := 0 }
  { x with crc := cycleCrc x }

/-- A group of four cycles: up to eight slots, and the control symbol with the group number in the control stream. -/
def groupOf (slots : List FlitSlot) (control : Nat) : List BridgeCycle :=
  (List.range 4).map fun i => cycleOf2 (slots.getD (2 * i) {}) (slots.getD (2 * i + 1) {}) (bits control (32 * i + 31) (32 * i))

/-- The control stream of a group received, its slots, whether every cycle's CRC is right. -/
def groupControl (xs : List BridgeCycle) : Nat := packFields (xs.map fun x => (32, x.control))
def groupSlots (xs : List BridgeCycle) : List FlitSlot := (xs.flatMap fun x => [x.slot0, x.slot1]).filter (·.valid)
def groupOk (xs : List BridgeCycle) : Bool := decide (xs.length = 4) && xs.all fun x => decide (x.crc = cycleCrc x)

/-! ### Sundi ports: units and courses (R438, R439) -/

/-- The envelope unit of a packet. -/
def envelope (p : Packet) : List Byte :=
  let h := leBytes 12 (routeWord p) ++ [0x5E, 0]
  h ++ leBytes 2 (crc16 h)

/-- The units of a packet: envelope, flits, and a trailer with the sidebands of its payload flits. -/
def packetUnits (p : Packet) : List (List Byte) :=
  [envelope p] ++ ((List.range (p.len + 1)).flatMap fun k => chunk 16 (flitOf p / 16) (flitData p k)) ++
    (if p.len = 0 then [] else
      [(List.range 8).flatMap fun i => leBytes 2 (if i + 1 ≤ p.len then bodySide p (i + 1) else 0)])

/-- Units a packet takes on a Sundi port (R439). -/
def pktUnits (p : Packet) : Nat := 1 + (p.len + 1) * flitBytes (planeOf p.cls) / 16 + b2n (decide (p.len > 0))

/-- A course: the control unit, then units, filled up with idle units. -/
def courseOf (units : List (List Byte)) (control : Nat) : List (List Byte) :=
  let us := leBytes 16 control :: units
  us ++ List.replicate (128 - us.length) (List.replicate 16 0)

/-- The lanes of a port in use: of 18, the lowest 16 that have not failed (R445). -/
def activeLanes (l : Link) : List Nat := ((List.range 18).filter fun i => !l.laneFail.testBit i).take 16

/-- The stream dealt to the lanes in blocks of 32 bytes, in ascending lane order (R438). -/
def deal (lanes : List Nat) (units : List (List Byte)) : List (Nat × List Byte) :=
  let blocks := chunk 32 64 units.flatten
  lanes.zipIdx.map fun e =>
    (e.1, (blocks.zipIdx.filter fun b => decide (b.2 % lanes.length = e.2)).flatMap (·.1))

/-- A unit in envelope position is an idle unit; it begins a packet, with a right CRC (R439). -/
def unitIdle (u : List Byte) : Bool := decide (byteAt u 12 = 0)
def unitOpens (u : List Byte) : Bool := decide (byteAt u 12 = 0x5E) && decide (field u 14 2 = crc16 (slice u 0 14))

/-- The units a packet takes, as its envelope says. -/
def envelopeUnits (u : List Byte) : Nat :=
  let w := field u 0 12
  let fb := match clsOfCode (bits w 81 79) with | some c => flitBytes (planeOf c) | none => 64
  1 + (bits w 85 82 + 1) * fb / 16 + b2n (decide (bits w 85 82 > 0))

/-- The packet its units spell. -/
def unitsPacket (us : List (List Byte)) : Option Packet :=
  let w := field (us.headD []) 0 12
  let body := us.tail.flatten
  (headPacket w body).map fun p =>
    let fb := flitOf p
    (List.range p.len).foldl (fun p k =>
      addFlit p (field body ((p.len + 1) * fb + 2 * k) 2) (slice body ((k + 1) * fb) fb)) { p with nbytes := 0 }

/-- The packets of a run of units: packets in order, the units of one still incomplete; none where a unit in envelope position
is neither idle nor a good envelope (R439). Fuel: the number of units. -/
def readUnits : (fuel : Nat) → List (List Byte) → Option (List Packet × List (List Byte))
  | _, [] => some ([], [])
  | 0, us => some ([], us)
  | f + 1, u :: us =>
    if unitOpens u then
      let n := envelopeUnits u
      if us.length + 1 < n then some ([], u :: us)
      else (readUnits f ((u :: us).drop n)).map fun r => ((unitsPacket ((u :: us).take n)).toList ++ r.1, r.2)
    else if unitIdle u then readUnits f us
    else none

/-! ### Sending (R427, R431, R432, R438, R441) -/

/-- Groups or courses kept for replay: 64 groups, 1 MiB of courses. -/
def replayMax (link : Nat) : Nat := if isMod link then 64 else 512

/-- A control symbol with its number: TYPE in [111:108], the body below, the number in [127:112] (R427). -/
def controlBits (seq sym : Nat) : Nat := sym % 2 ^ 112 + seq % 65536 * 2 ^ 112

/-- Puts a group or course on the link; one that carries its control symbol alone is given to the surroundings as the symbol
with its number. -/
def putFrame (die link : Nat) (f : TxFrame) (s : State) : State :=
  if f.slots = [] ∧ f.units = [] then emit (.linkSym die link f.seq (f.sym / 2 ^ 108) (f.sym % 2 ^ 108)) s
  else if isMod link then emit (.group die link (groupOf f.slots (controlBits f.seq f.sym))) s
  else emit (.course (linkPort die link) (deal (activeLanes (linkOf s die link)) (courseOf f.units (controlBits f.seq f.sym)))) s

/-- Sends a group or course with the next number and keeps it for replay. -/
def sendFrame (die link sym : Nat) (slots : List FlitSlot) (units : List (List Byte)) (pkts : List Packet) (s : State) : State :=
  let seq := ((linkOf s die link).txSeq + 1) % 65536
  let f : TxFrame := { seq := seq, sym := sym, slots := slots, units := units, pkts := pkts }
  putFrame die link f (modLink die link (fun l => { l with
    txSeq := seq, replay := (l.replay ++ [f]).drop ((l.replay.length + 1) - replayMax link) }) s)

/-- What a link may send: in the safe state an off-package port FAULT_IDLE alone; in the activation pause KEEPALIVE, MARKER,
CREDIT, ACK and NAK (R429). -/
def maySend (s : State) (die link typ : Nat) : Bool :=
  (!isSafe s die || isMod link || decide (typ = 6)) && (!s.fw.inPause || decide (typ ∈ [1, 2, 3, 4, 5]))

/-- The fabric sends a control symbol: in a group or course of its own while the link is UP, outside any number otherwise. -/
def sendSym (die link typ body : Nat) (s : State) : State :=
  if !maySend s die link typ then s
  else if (linkOf s die link).st = .up then sendFrame die link (typ * 2 ^ 108 + body % 2 ^ 108) [] [] [] s
  else emit (.linkSym die link 0 typ (body % 2 ^ 108)) s

/-- The slots of a packet, eight a group; it has at most nine (R114). -/
def slotGroups (xs : List FlitSlot) : List (List FlitSlot) :=
  if xs.length ≤ 8 then [xs] else [xs.take 8, xs.drop 8]

/-- A packet over a module: its flits in groups of eight slots; it ends in the last. -/
def sendGroups (die link : Nat) (p : Packet) : List (List FlitSlot) → State → State
  | [], s => s
  | g :: [], s => sendFrame die link 0 g [] [p] s
  | g :: gs, s => sendGroups die link p gs (sendFrame die link 0 g [] [] s)

/-- A packet leaves by a link: in groups of its own or in a course of its own (which packets share one is left open: log 121). -/
def sendPacket (die link : Nat) (p : Packet) (s : State) : State :=
  if isMod link then sendGroups die link p (slotGroups (packetSlots p)) s
  else sendFrame die link 0 [] (packetUnits p) [p] s

/-- Credits of one buffer go back over a link: a CREDIT symbol with one entry (R427). -/
def creditSym (die link plane vc cls n : Nat) : State → State :=
  sendSym die link 1 (packFields [(10, n), (2, cls), (2, vc), (2, plane), (89, 0), (3, 1)])

end Sys2Proof.Machine
end

