-- ==== Sys2Proof/Machine/Arbitration.lean ====
section
/-! DEFINITION. Arrival of packets at routers, arbitration decisions, credits, transit grants (05, 06). -/
namespace Sys2Proof.Machine

/-! ### Links as the routers see them -/

/-- A bridge module can take a packet: the module that carries its tracks is UP; with either end in the safe state fault records
alone, in the activation pause none (R429, R491). -/
def bridgeUsable (s : State) (die b m : Nat) (p : Packet) : Bool :=
  match carrier s die b m with
  | some m' =>
    (modOf s die b m').st = .up && (!(modOf s die b m').peerSafe && !isSafe s die || decide (p.cls = .mgmt)) && !s.fw.inPause &&
      !portQuiesced s die (4 * b + m')
  | none => false

/-- The bridge of a module is lost whole (R491, R493). -/
def bridgeLost (s : State) (die b m : Nat) : Bool := (modOf s die b m).unplaced

/-- A Sundi port carries a routed packet: UP, its peer's plan seen (R447), no return from a loss since the last adoption (R499), no
packet of the old plan left but for those, which hold a slot of its transit pool (R85), no activation pause (R429). -/
def portOpen (s : State) (port : Nat) (p : Packet) : Bool :=
  let l := lnkOf s port
  l.st = .up && l.planSeen && !l.lost && !s.fw.inPause && !portQuiesced s (portDie port) (16 + port % 6) &&
    (!decide (port ∈ s.pl.oldPorts) || (p.leg && decide (p.via ≠ 0) && decide (viaPort p = port)))

/-- The endpoint behind a port has not taken the last packet of this plane and VC it was handed: it signals no room for
another (R587; how many packets an endpoint holds is not in the manual: one per plane and VC, DESIGN CHOICE, log 119). -/
def endpointHolds (s : State) (die n out : Nat) (p : Packet) : Bool :=
  s.nt.delivered.any fun w => decide (w.die = die) && decide (w.tile = n) && decide (w.port = out) &&
    decide (planeOf w.pkt.cls = planeOf p.cls) && decide (w.pkt.vc = p.vc)

/-- A memory port has room for a request: fewer than MP_OUTSTANDING in hand, or ENABLE 0, where it answers at once (R159). -/
def mpRoom (s : State) (die n : Nat) : Bool :=
  let m := look {} s.mp (tk die n)
  decide (m.waiting.length + m.out.length < min 512 (rfld s die (tpage (physTile s die n) 3) 0x108 9 0)) ||
    decide (rfld s die (tpage (physTile s die n) 3) 0x100 0 0 = 0)

/-- The output can take packets as far as its link and endpoint go: a usable bridge module, an open Sundi port in a routed
direction, an endpoint with room (R62, R159, R587). A lost port takes packets only to replace them (R494); a mirror port
takes none (R62). -/
def outReady (s : State) (die n out : Nat) (p : Packet) : Bool :=
  portExists die n out &&
  match outAttach die n out with
  | .module b m => bridgeUsable s die b m p
  | .lnk q =>
    match portRole (shapeOf s) (portOf die q) with
    | .storage _ => !endpointHolds s die n out p
    | .mirror _ => false
    | .dir _ _ => portOpen s (portOf die q) p || (lnkOf s (portOf die q)).lost
  | .none => out < 10 ||
      (!endpointHolds s die n out p && (out ≠ 10 || dieType die ≠ .memside || isRsp p || mpRoom s die n))

/-! ### Requests of the packets at the front of buffers -/

/-- The queue of an input buffer. -/
def bufQ (s : State) (k : Nat) : List QPkt := look [] s.nt.bufs k

/-- The packet is in transit: it came over an off-package link and its destination package is not local (R146). -/
def inTransit (s : State) (p : Packet) : Bool := p.leg && aPkg p.dest ≠ pkgNo s

/-- The escape output of a packet, as it would travel on escape from here (R136, R141). -/
def escapeReq (s : State) (die t n : Nat) (p : Packet) : List (Nat × Bool) :=
  let e := onEscape die n p
  match targetOf s die t e with
  | none => []
  | some g => (escOut s die t n e g).toList.map fun o => (o, true)

/-- The outputs a front packet requests: (output, by escape); from the cycle `escAt` on where a grant or an escape request
is what it waited for (R136, R140, R146, R148, R149, R168). -/
def requests (s : State) (die t n : Nat) (q : QPkt) : List (Nat × Bool) :=
  if q.pkt.mc then q.outs.map fun o => (o, false)
  else if inTransit s q.pkt && (q.pkt.via = 0 || decide (s.tm.fclk < q.escAt)) then []
  else if isAdaptive q.pkt.vc && !q.expired then
    (match targetOf s die t q.pkt with
     | none => []
     | some g => (bestAdaptive s die t n q.pkt g).toList.map fun o => (o, false)) ++
      (if q.alsoEscape ∧ q.escAt ≤ s.tm.fclk then escapeReq s die t n q.pkt else [])
  else escapeReq s die t n q.pkt

/-- The class of the downstream buffer: 2 × LEG + DL, the PDL on a Sundi link, 0 on an adaptive VC (R127). -/
def downCls (die n out : Nat) (p : Packet) : Nat :=
  match outAttach die n out with
  | .lnk _ => if isAdaptive p.vc then 0 else b2n p.pdl
  | _ => escCls p p.vc

/-- The buffers of an input port on a plane: (VC, class). -/
def bufIds : List (Nat × Nat) :=
  [(0, 0), (0, 1), (0, 2), (0, 3), (1, 0), (2, 0), (2, 1), (2, 2), (2, 3), (3, 0)]

/-- A requester of an output: input port, its buffer, the packet, whether it takes the escape output. -/
structure Req where
  inPort : Nat
  key : Nat
  q : QPkt
  escape : Bool
deriving DecidableEq, Repr

/-- The requests at the front of the buffers of one input port for an output, plane, VC and class, of packets that were
there at the start of the cycle (R163, R168). -/
def portReqs (s : State) (die t n out plane vc cls inPort : Nat) : List Req :=
  bufIds.filterMap fun (v, c) =>
    let k := bkey die t inPort plane v c
    match bufQ s k with
    | [] => none
    | q :: _ => if s.tm.fclk < q.since then none else
      (requests s die t n q).findSome? fun (o, e) =>
        let p := afterHop s die n inPort o e q.pkt
        if o = out && p.vc = vc && downCls die n o p = cls then some { inPort := inPort, key := k, q := q, escape := e }
        else none

/-- Held at every source: the safe state (but for fault records), the activation pause, the drain Press for
off-package packets, the fold before a lock change on P0 and P1 (R85, R111, R476, R544). -/
def sourceHeld (s : State) (die : Nat) (p : Packet) : Bool :=
  (isSafe s die && !(p.cls = .mgmt)) || s.fw.inPause ||
    (s.pl.draining && aPkg p.dest ≠ pkgNo s && !p.mc) ||
    (s.tm.inFold && s.tm.lockNow ≠ s.tm.lockNext && (planeOf p.cls = 0 || planeOf p.cls = 1))

/-! ### Arbiters (R163 to R168) -/

/-- The mode of a page's arbiters in effect: TWO_LEVEL and STARVE_N. -/
def arbMode (s : State) (die page : Nat) : Bool × Nat :=
  (decide (rfld s die page 0x48 0 0 = 1), rfld s die page 0x48 15 8)

/-- Key of an arbiter: an output's, or a scheduler's of an injection port (stage 0 context, 1 class). -/
def outArb (die t port plane vc cls : Nat) : Nat := 2 ^ 32 + bkey die t port plane vc cls
def injArb (die t port plane stage : Nat) : Nat := ikey die t port plane * 2 + stage

/-- The first element of a list of numbers that is at least m, or the first of all. -/
def wrapFrom (m : Nat) (xs : List Nat) : Option Nat :=
  match xs.find? fun x => decide (m ≤ x) with | some x => some x | none => xs.head?

/-- The longest-waiting requester, ties to the lower number: elements are (requester, cycle it became front). -/
def oldest (xs : List (Nat × Nat)) : Option Nat :=
  (xs.foldl (fun b x => match b with
    | none => some x
    | some y => if x.2 < y.2 ∨ (x.2 = y.2 ∧ x.1 < y.1) then some x else some y) none).map (·.1)

/-- The winner among eligible requesters, in ascending number with the cycle each became front; `prio` gives a
requester's class (R164, R165, R166). -/
def pickWinner (twoLevel : Bool) (starve : Nat) (a : Arb) (prio : Nat → Nat) (xs : List (Nat × Nat)) : Option Nat :=
  let ids := xs.map (·.1)
  if starve ≠ 0 ∧ (a.count + 1) % starve = 0 then oldest xs
  else if twoLevel then
    match [0, 1, 2, 3].find? fun c => ids.any fun r => prio r = c with
    | none => none
    | some c => wrapFrom (a.prev.getD c 0) (ids.filter fun r => prio r = c)
  else
    match ids.find? fun r => !decide (r ∈ a.order) with
    | some r => some r
    | none => a.order.find? fun r => decide (r ∈ ids)

/-- The arbiter after a grant of `beats` beats decided at cycle now (R163, R164, R165, R166). -/
def afterGrant (a : Arb) (w cls now beats : Nat) : Arb :=
  { count := a.count + 1, order := a.order.filter (· ≠ w) ++ [w], prev := a.prev.set cls (w + 1), endAt := now + beats,
    startAt := now + 1 }

/-- Beats of a transfer: LEN + 1, or LEN / 2 + 1 under plane lock on P0 (R161). -/
def beatsOf (s : State) (die t port : Nat) (p : Packet) : Nat :=
  if portLocked s die t port ∧ planeOf p.cls = 0 then p.len / 2 + 1 else p.len + 1

/-- A FREEZE bit of a page's arbiter is set (R55). -/
def frozen (s : State) (die page a : Nat) : Bool := (reg s die page 0x44).toNat.testBit a

/-! ### A packet in an input buffer -/

/-- The cycle in which the last flit of a packet that leaves a buffer goes; 0 when none leaves. -/
def leavesAt (s : State) (k : Nat) : Nat :=
  match look? s.nt.leaving k with
  | none => 0
  | some (flits, at_) =>
    at_ + (if portLocked s (k / 262144) (k / 1024 % 256) (k / 64 % 16) ∧ k / 16 % 4 = 0 then (flits + 1) / 2 else flits)

/-- Adds a packet to an input buffer. It takes part in decisions from the next cycle on if the buffer was empty (R168), from
the last-beat cycle of the packet that leaves it on (R163). -/
def pushBuf (k : Nat) (q : QPkt) (s : State) : State :=
  { s with nt := { s.nt with
    bufs := put [] s.nt.bufs k (bufQ s k ++ [{ q with since := max (s.tm.fclk + 1) (leavesAt s k) }]) } }

/-- Replaces the front packet of a buffer. -/
def setFront (k : Nat) (q : QPkt) (s : State) : State :=
  match bufQ s k with
  | [] => s
  | _ :: qs => { s with nt := { s.nt with bufs := put [] s.nt.bufs k (q :: qs) } }

/-- The front packet leaves a buffer; the next one's age starts in its last-beat cycle (R163). -/
def popBuf (k beats : Nat) (s : State) : State :=
  match bufQ s k with
  | [] => s
  | q :: qs =>
    let rest := match qs with | [] => [] | x :: xs => { x with since := max x.since (s.tm.fclk + beats) } :: xs
    { s with nt := { s.nt with
      bufs := put [] s.nt.bufs k rest, leaving := ins s.nt.leaving k (q.pkt.len + 1, s.tm.fclk) } }

/-! ### Credits back to the sender (R130) -/

/-- The flits of a packet that leaves an input buffer go back to the sender as credits: the count of the tile before it, or,
over a link, one credit symbol of the link (R427). Injection ports carry no count. A router in a reset withholds all of them (R482). -/
def oweCredits (k flits : Nat) (s : State) : State :=
  let die := k / 262144
  let t := k / 1024 % 256
  let port := k / 64 % 16
  let plane := k / 16 % 4
  let vc := k / 4 % 4
  let cls := k % 4
  match logTile s die t with
  | none => s
  | some n =>
    if routerQuiesced s die t then s else
    let back (key : Nat) (s : State) : State := { s with nt := { s.nt with owed := upd 0 s.nt.owed key (· + flits) } }
    match outAttach die n port with
    | .module b m =>
      let d' := bridgePeer die b
      let m' := if isAdaptive vc then (carrier s die b m).getD m else m
      creditSym die (4 * b + (carrier s die b m).getD m) plane vc cls flits
        (back (bkey d' (modTile (bridgeBack b) m') 8 plane vc cls) s)
    | .lnk p => creditSym die (16 + p) plane vc cls flits s
    | .none =>
      if port < 8 ∧ portExists die n port then
        let up := meshStep die n port
        back (bkey die (physTile s die up.1) up.2 plane vc cls) s
      else s

/-- FAULT_HEAD of a tile takes the DEST of a packet that raised a fault. -/
def faultHead (die t : Nat) (p : Packet) (s : State) : State :=
  setReg die (tpage t 0) 0x12C 0 (hi32 p.dest) (setReg die (tpage t 0) 0x128 0 (lo32 p.dest) s)

/-- A fault of TILE subpage 0 about a packet. -/
def raiseHead (die t b : Nat) (p : Packet) (s : State) : State :=
  raise die (tpage t 0) b (if hasCtx p then some p.ctx else none) (lo32 p.dest) (faultHead die t p s)

/-- FLIT_COUNT of a port, plane and direction (0 out, 1 in). -/
def flitCount (die t port plane dir n : Nat) : State → State :=
  addCount die (tpage t 0) (port + 16 * plane + 64 * dir) n

/-! ### Transit (R146 to R148) -/

/-- The pool class of a packet at an egress: plane, VC and, on escape VCs, the PDL it will carry. -/
def poolCls (p : Packet) (pdl : Bool) : Nat :=
  (planeOf p.cls * 4 + p.vc) * 2 + (if isAdaptive p.vc then 0 else b2n pdl)

/-- Slots of a pool class (R132). -/
def poolSize (cls : Nat) : Nat := if isAdaptive (cls / 2 % 4) then 16 else 4

def poolKey (port cls : Nat) : Nat := port * 64 + cls
def poolUsed (s : State) (port cls : Nat) : Nat := look 0 s.nt.poolUsed (poolKey port cls)

/-- A slot can be granted: one is free, and the port holds no packet of the old plan (R85, R147). -/
def slotFree (s : State) (port cls : Nat) : Bool := decide (poolUsed s port cls < poolSize cls) && !decide (port ∈ s.pl.oldPorts)
def takeSlot (port cls : Nat) (s : State) : State :=
  { s with nt := { s.nt with poolUsed := upd 0 s.nt.poolUsed (poolKey port cls) (· + 1) } }
def freeSlot (port cls : Nat) (s : State) : State :=
  { s with nt := { s.nt with poolUsed := upd 0 s.nt.poolUsed (poolKey port cls) (· - 1) } }

/-- The routed direction of a port in the plan's shape. -/
def portDir (s : State) (port : Nat) : Nat := match portRole (shapeOf s) port with | .dir d _ => d | _ => 0

/-- The grants a packet in transit requests, as egress ports and pool classes: on its escape lane, or, while it is adaptive,
on every VALID lane (R148). -/
def transitPorts (s : State) (die t n : Nat) (q : QPkt) : List (Nat × Nat) :=
  let p := if q.expired then onEscape die n q.pkt else q.pkt
  match hopDir s die t (aPkg p.dest) with
  | none => []
  | some d =>
    let lanes := lanePorts s die t d
    let mine := if isAdaptive p.vc then lanes else
      match laneFor s die t d p.srcPkg (aPkg p.dest) with | some l => lanes.filter fun e => e.1 = l | none => []
    mine.map fun e => (e.2, poolCls p (pdlNext s die t (portDir s e.2) p))

/-- A TRANSIT_REQ or TRANSIT_GRANT packet; its OPERAND names the egress port and pool class (the manual gives it no
layout: DESIGN CHOICE, log 16). -/
def transitPkt (s : State) (op die tile : Nat) (dst : DWord) (port cls : Nat) (sseq : BitVec 16) : Packet :=
  { cls := .mgmt, dest := dst, opcode := BitVec.ofNat 8 op, srcPkg := pkgNo s, srcDie := die, srcTile := tile,
    srcPort := 0, sseq := sseq, operand := w64 (port + 256 * cls), leg := true }

/-- The transit unit of an ingress has asked for this slot and not been answered: at most one request per egress port and
pool class (R147). -/
def sameAsk (die n : Nat) (e : Nat × Nat) (r : TransitReq) : Bool :=
  r.srcDie = die && r.srcTile = n && r.egress = e.1 && r.cls = e.2

/-- The front packet takes a grant; it requests its output from now on. -/
def takeGrant (k port cls : Nat) (s : State) : State :=
  match bufQ s k with
  | [] => s
  | q :: _ => setFront k { q with escAt := s.tm.fclk + 1, pkt := { q.pkt with via := viaOf port cls } } s

/-- The request for a grant of the packet at the front of an ingress buffer, if it is in transit and has none: a slot on the
same die is granted in this cycle, elsewhere TRANSIT_REQ is sent, one per egress port and pool class (R146, R147). -/
def askTransit (die t n k : Nat) (s : State) : State :=
  match bufQ s k with
  | [] => s
  | q :: _ =>
    if !inTransit s q.pkt || q.pkt.via ≠ 0 then s
    else
    let ps := transitPorts s die t n q
    match ps.find? fun e => portDie e.1 = die && slotFree s e.1 e.2 with
    | some (port, cls) => takeGrant k port cls (takeSlot port cls s)
    | none => forEach ps (fun e s =>
        let r : TransitReq := { srcDie := die, srcTile := n, egress := e.1, cls := e.2, sseq := q.pkt.sseq }
        if portDie e.1 = die then
          if s.nt.transitWait.any (sameAsk die n e) then s
          else { s with nt := { s.nt with transitWait := s.nt.transitWait ++ [r] } }
        else if s.nt.transitAsked.any (sameAsk die n e) then s
        else
          sendFrom die n 10
            (transitPkt s 0x60 die n (epAddr (pkgNo s) (portDie e.1) (lnkTile (e.1 % 6)).1 0 0) e.1 e.2 q.pkt.sseq)
            { s with nt := { s.nt with transitAsked := s.nt.transitAsked ++ [r] } }) s

/-- The ingress buffers of the Sundi port of a tile. -/
def ingressKeys (die t n : Nat) : List Nat :=
  ([8, 9].filter fun g => match outAttach die n g with | .lnk _ => true | _ => false).flatMap fun g =>
    [0, 1, 2, 3].flatMap fun pl => bufIds.map fun (v, c) => bkey die t g pl v c

/-- Every packet at the front of an ingress buffer of a tile that needs a grant has asked for it (R146). -/
def askFronts (die t n : Nat) (s : State) : State := forEach (ingressKeys die t n) (fun k s => askTransit die t n k s) s

/-- A grant reaches the ingress: the first waiting packet of the class takes it; a grant no packet waits for frees its
slot (DEDUCED from R148: a packet takes the first grant; log 16), which the egress may then give to the next request. -/
def useGrant (die t n port cls : Nat) (s : State) : State :=
  match (ingressKeys die t n).find? fun k => match bufQ s k with
      | q :: _ => inTransit s q.pkt && q.pkt.via = 0 && (transitPorts s die t n q).any fun e => e = (port, cls)
      | [] => false with
  | some k => takeGrant k port cls s
  | none => freeSlot port cls s

/-- The egress grants the first of its waiting requests for which a slot is free. -/
def grantOne (port : Nat) (s : State) : State :=
  match s.nt.transitWait.find? fun r => r.egress = port && slotFree s port r.cls with
  | none => s
  | some r =>
    let s := takeSlot port r.cls { s with nt := { s.nt with transitWait := s.nt.transitWait.erase r } }
    if r.srcDie = portDie port then
      let t := physTile s r.srcDie r.srcTile
      askFronts r.srcDie t r.srcTile (useGrant r.srcDie t r.srcTile port r.cls s)
    else sendFrom (portDie port) (lnkTile (port % 6)).1 10
      (transitPkt s 0xE0 (portDie port) (lnkTile (port % 6)).1 (epAddr (pkgNo s) r.srcDie r.srcTile 0 0) port r.cls
        r.sseq) s

/-- The egress grants its waiting requests in arrival order while slots are free (R147). -/
def grantNext (port : Nat) (s : State) : State :=
  forEach (s.nt.transitWait.filter fun r => r.egress = port) (fun _ s => grantOne port s) s

/-- A slot of a pool is free again and serves the next request. -/
def releaseSlot (port cls : Nat) (s : State) : State := grantNext port (freeSlot port cls s)

/-- The slot a packet in transit holds, if any, is free again (R147). -/
def freeTransit (p : Packet) (s : State) : State :=
  if p.leg && p.via ≠ 0 then releaseSlot (viaPort p) (viaCls p) s else s

/-! ### Placing a packet at a tile -/

/-- The packet's escape output, or every adaptive output, leads to a lost bridge (R493). -/
def towardLost (s : State) (die t n : Nat) (p : Packet) : Bool :=
  match targetOf s die t p with
  | none => false
  | some g =>
    match escOut s die t n p g with
    | some o => (match outAttach die n o with | .module b m => bridgeLost s die b m | _ => false)
    | none => false

/-- A packet enters an input buffer of a tile and is routed: multicast by its tree entry, otherwise by escape or
adaptive rules (R136, R139, R149); one that no link can carry is replaced as in R448 (R493, R495). -/
def placePacket (die t n port cls : Nat) (p : Packet) (s : State) : State :=
  let k := bkey die t port (planeOf p.cls) p.vc cls
  let lose (s : State) : State := freeTransit p (sendLoss die n 10 0x77 p s)
  if p.mc then
    let w := rfld s die (tpage t 1) 0x12C 11 0 (bits p.dest.toNat 11 0)
    if w = 0 then raiseHead die t 4 p s
    else pushBuf k { pkt := p, outs := (List.range 12).filter fun o => w.testBit o } s
  else if towardLost s die t n p then lose s
  else if aPkg p.dest ≠ pkgNo s ∧ (legOf s die t p).isNone then lose s
  else pushBuf k { pkt := p } s

/-! ### PACKET_ARRIVAL -/

/-- The class of the input buffer a packet arrives in. -/
def inCls (die n port : Nat) (p : Packet) : Nat := downCls die n port p

/-- A packet that came over a Sundi link starts its leg here: it takes the home track of this tile (R126), and PDL returns to
0 where the next hop changes dimension (R144). -/
def ingressFix (s : State) (die t n port : Nat) (p : Packet) : Packet :=
  match outAttach die n port with
  | .lnk q =>
    let same := match portRole (shapeOf s) (portOf die q), hopDir s die t (aPkg p.dest) with
      | .dir d _, some d' => decide (d ≥ 6) && decide (d' ≥ 6) && decide (d / 2 = d' / 2)
      | _, _ => false
    { p with track := homeTrack die n, pdl := p.pdl && same }
  | _ => p

/-- The entry a routing decision reads, as a key: the tree entry, or the egress entry of the leg. -/
def entryKey (s : State) (die t : Nat) (p : Packet) : Nat :=
  if p.mc then rk die (tpage t 1) 0x12C (bits p.dest.toNat 11 0)
  else match legOf s die t p with
    | some (d, l) => rk die (tpage t 1) 0x124 (16 * d + l)
    | none => rk die (tpage t 1) 0x108 0

/-- A parity error of a route entry: reloaded from the mirror, or TILE_DEAD on a repeat before the next commit of its
page (R481). -/
def routeParity (die t : Nat) (p : Packet) (s : State) : State :=
  let k := entryKey s die t p
  if decide (k ∈ s.nt.reloaded) then raise die 1 1 none (w32 t) s
  else raiseHead die t 3 p { s with nt := { s.nt with reloaded := s.nt.reloaded ++ [k] } }

/-- The packet is for an endpoint of the tile's L0 or a basket: it wakes a tile in LP1 (R512). -/
def wakes (s : State) (die n : Nat) (p : Packet) : Bool :=
  if p.mc then false else
  match targetOf s die (physTile s die n) p with
  | some g => g.die = die && g.tile = n && g.port = 10
  | none => false

/-- A packet head reaches a router: it waits in the buffer of the class it was sent with (R127, R134, R136, R146, R175, R481). -/
def arrive (die t port : Nat) (p : Packet) (e : ArrivalEvent) (s : State) : State :=
  match logTile s die t with
  | none => s
  | some n =>
    let mirror := match outAttach die n port with
      | .lnk q => (match portRole (shapeOf s) (portOf die q) with | .dir _ _ => false | _ => true) | _ => false
    if mirror || !(decide (port < 10) && portExists die n port) then s
    else
      let s := { s with nt := { s.nt with wires :=
        (takeFirst (fun w : Wire => w.die = die && w.tile = t && w.port = port && w.pkt = p) s.nt.wires).2 } }
      let s := flitCount die t port (planeOf p.cls) 1 (p.len + 1) s
      let place (q : Packet) (s : State) : State :=
        let p := ingressFix s die t n port q
        let s := doIf (wakes s die n p) (wakeTile die n) s
        let transit := inTransit s p && (match outAttach die n port with | .lnk _ => true | _ => false)
        let s := doIf (transit && hasCtx p) (chargeCtx die t p.ctx (countedLen s die t (nodePort port) p)) s
        doIf transit (askFronts die t n) (placePacket die t n port (inCls die n port q) p s)
      match e with
      | .ok => place p s
      | .corrected k => place p (satCount die (tpage t 0) 0x130 k s)
      | .payloadEcc f => place { p with why := p.why.set f 1 } s
      | .headEcc => raiseHead die t 2 p s
      | .routeParity =>
        if decide (entryKey s die t p ∈ s.nt.reloaded) then raise die 1 1 none (w32 t) s
        else place p (routeParity die t p s)

/-! ### ARBITRATION_DECISION -/

/-- Where a packet that crossed a bridge on module m lands on die d, by its bridge b there: the gateway tile whose row
carries the packet's track, whose column carries its target's column track, or, for an adaptive packet, the one that holds
the fewest adaptive flits of its plane and VC, the lower column or row on a tie (R125); the gateway tiles of folded tracks are
unchanged (R492). A multicast packet has no target: over a v bridge it lands on the first gateway tile, columns ascending,
whose tree entry names its tree (DESIGN CHOICE, log 122). -/
def landing (s : State) (d b m : Nat) (p : Packet) : Nat × Nat :=
  let ms := m :: (s.lk.folded.filter fun e => e.2 = mkey d b m).map fun e => e.1 % 4
  let pos (n : Nat) : Nat := if b < 2 then tRow d n else tCol d n
  let cands := sortBy (fun x y => decide (pos x.1 < pos y.1))
    (ms.flatMap fun m' => (List.range (nTiles d)).filterMap fun n => (gForModule d n b m').map fun g => (n, g))
  let here (n : Nat) : Bool :=
    if b < 2 then decide (pos n = trackRow d p.track)
    else if p.mc then decide (rfld s d (tpage (physTile s d n) 1) 0x12C 11 0 (bits p.dest.toNat 11 0) ≠ 0)
    else match targetOf s d (physTile s d 0) p with
      | some g => decide (pos n = trackCol d (colTrack g.die g.tile))
      | none => false
  let free (c : Nat × Nat) : Nat :=
    bufSize s d c.1 c.2 (planeOf p.cls) p.vc - heldFlits s (bkey d (physTile s d c.1) c.2 (planeOf p.cls) p.vc 0)
  let best := if isAdaptive p.vc then
      cands.foldl (fun r c => match r with
        | none => some c
        | some x => if free c > free x then some c else some x) none
    else match cands.find? fun c => here c.1 with | some c => some c | none => cands.head?
  best.getD (0, 8)


/-- The packet leaves by an output: onto the wire to the next tile, across a bridge, off the package, or to the
endpoint (R71, R120, R432, R587). -/
def leaveBy (die n out : Nat) (p : Packet) (s : State) : State :=
  match outAttach die n out with
  | .module b m =>
    let m' := (carrier s die b m).getD m
    addCount die (dbrPage b m') 0 (p.len + 1) (sendPacket die (4 * b + m') p s)
  | .lnk q =>
    if isSto die q then { s with nt := { s.nt with delivered := s.nt.delivered ++ [{ die := die, tile := n, port := out, pkt := p }] } }
    else
      let port := portOf die q
      if (lnkOf s port).lost then addCount die (lnkPage q 1) 6 (b2n (awaited p)) (sendLoss die n 10 0x77 p s) else
      addCount die (lnkPage q 1) 0 (pktUnits p) (sendPacket die (16 + q) p s)
  | .none =>
    if out ≥ 10 then
      { s with nt := { s.nt with delivered := s.nt.delivered ++ [{ die := die, tile := n, port := out, pkt := p }] } }
    else
      let rp := meshStep die n out
      let n' := rp.1
      let g' := rp.2
      { s with nt := { s.nt with wires := s.nt.wires ++ [{ die := die, tile := physTile s die n', port := g', pkt := p }] } }

/-- An output has credit for the whole packet (R129). -/
def outRoom (s : State) (die t n out plane vc cls : Nat) (p : Packet) : Bool :=
  noCount die n out || decide (credits s die t n out plane vc cls ≥ p.len + 1)

/-- A requester of an output is eligible: credit for the whole packet, a ready link and, at an egress shaping port,
the class node, the port node and the gate of its class (R129, R162, R174). -/
def outEligible (s : State) (die t n out plane vc cls : Nat) (r : Req) : Bool :=
  outReady s die n out r.q.pkt && outRoom s die t n out plane vc cls r.q.pkt &&
    (!isEgressPort die n out ||
      (bucketsPermit s die t n out r.q.pkt && gateSays s die t n out (clsCode r.q.pkt.cls) = .open_))

/-- A granted packet starts at an output: the credit it takes, the buffer it leaves, the counters, the shaper nodes, the
transit slot it gives back (R129, R130, R147, R163, R581). -/
def startOut (die t n out plane vc cls beats : Nat) (r : Req) (s : State) : State :=
  let p := afterHop s die n r.inPort out r.escape r.q.pkt
  let s := if noCount die n out then s else
    { s with nt := { s.nt with used := upd 0 s.nt.used (credKey s die t n out plane vc cls) (· + (p.len + 1)) } }
  let left := if r.q.pkt.mc then r.q.outs.filter (· ≠ out) else []
  let s := if left = [] then askFronts die t n (oweCredits r.key (p.len + 1) (popBuf r.key beats s))
    else setFront r.key { r.q with outs := left } s
  let s := flitCount die t out plane 0 (p.len + 1) s
  let s := doIf (r.escape && isAdaptive r.q.pkt.vc) (addCount die (tpage t 0) 0x80 1) s
  let s := doIf (isEgressPort die n out) (chargeStart die t n out p) s
  let gone := match outAttach die n out with | .lnk _ => true | _ => false
  doIf gone (freeTransit r.q.pkt) (leaveBy die n out p s)

/-! ### The seam collector (R302) -/

/-- The gateway tile and port of a bridge module, the lowest. -/
def gateway (die b m : Nat) : Option (Nat × Nat) :=
  (List.range (nTiles die)).findSome? fun n => (gForModule die n b m).map fun g => (n, g)

/-- The gateways by which a packet of an engine may leave its die: the module of its route on an escape VC (R136), every module
of the bridges toward its target on an adaptive VC (R139). -/
def collectorOuts (die : Nat) (p : Packet) (g : Target) : List (Nat × Nat) :=
  let bu := if dieU die ≠ dieU g.die then [if ringPlus (dieU die) (dieU g.die) then 0 else 1] else []
  let bv := if dieV die ≠ dieV g.die then [if ringPlus (dieV die) (dieV g.die) then 2 else 3] else []
  let mods := if isAdaptive p.vc then (bu ++ bv).flatMap fun b => [0, 1, 2, 3].map fun m => (b, m)
    else match bu, bv with
      | b :: _, _ => [(b, p.track / 2)]
      | [], b :: _ => [(b, colTrack g.die g.tile / 4)]
      | [], [] => []
  mods.filterMap fun e => gateway die e.1 e.2

/-- The gateway a packet on the collector leaves by now: ready, with credit for it whole, of several the one with the most
credit, the first on a tie (R125, R129). -/
def collectorOut (s : State) (die : Nat) (p : Packet) : Option (Nat × Nat) :=
  let pl := planeOf p.cls
  let credit (e : Nat × Nat) : Nat :=
    credits s die (physTile s die e.1) e.1 e.2 pl p.vc (downCls die e.1 e.2 (afterHop s die e.1 11 e.2 false p))
  match targetOf s die (physTile s die 0) p with
  | none => none
  | some g =>
    if sourceHeld s die p then none
    else ((collectorOuts die p g).filter fun e => outReady s die e.1 e.2 p && decide (credit e ≥ p.len + 1)).foldl
      (fun b e => match b with
        | none => some e
        | some x => if credit e > credit x then some e else some x) none

/-- One packet of the collector goes, unless one before it on its VC still waits. -/
def collectorGo (die : Nat) (p : Packet) (s : State) : State :=
  let q := look [] s.nt.collect die
  match q.find? (fun x => x.vc = p.vc), collectorOut s die p with
  | some x, some (n, o) =>
    if x ≠ p then s
    else
      let p' := afterHop s die n 11 o false p
      let key := credKey s die (physTile s die n) n o (planeOf p.cls) p.vc (downCls die n o p')
      leaveBy die n o p' { s with nt := { s.nt with
        collect := upd [] s.nt.collect die (·.erase p), used := upd 0 s.nt.used key (· + (p.len + 1)) } }
  | _, _ => s

/-- What can leave the collector of a die leaves it, in order. -/
def collectorDrain (die : Nat) (s : State) : State := forEach (look [] s.nt.collect die) (fun p s => collectorGo die p s) s

/-- No bridge can carry a packet of an engine. -/
def collectorLost (s : State) (die n : Nat) (p : Packet) : Bool :=
  match targetOf s die (physTile s die n) p with
  | none => true
  | some g => (collectorOuts die p g).all fun e => match outAttach die e.1 e.2 with
    | .module b m => bridgeLost s die b m | _ => true

/-- An engine's REDUCE packet to another die takes the collector; one no bridge can carry is replaced as in R448 (R493). -/
def collectorSend (die n : Nat) (p : Packet) (s : State) : State :=
  let p := chooseLane s die (physTile s die n) (startPkt s die n p)
  if collectorLost s die n p then sendLoss die n 11 0x77 p s
  else collectorDrain die { s with nt := { s.nt with collect := upd [] s.nt.collect die (· ++ [p]) } }

/-- The decision of an output port arbiter (R161 to R168): the winner's packet starts. Eligibility, modes and priorities are
those of the start of the cycle (R168). Of several front packets of one input port that request the output, the first eligible
one in the order of `bufIds` stands for the port (the manual does not say which: DESIGN CHOICE, log 123). -/
def decideOutput (die t out plane vc cls : Nat) (s : State) : State :=
  match logTile s die t with
  | none => s
  | some n =>
    let ak := outArb die t out plane vc cls
    let a := look {} s.nt.arbs ak
    let s0 := atStart s
    if frozen s0 die (tpage t 0) out ∨ s.tm.fclk < a.endAt then s
    else
      let reqs := (List.range 12).filterMap fun i =>
        (portReqs s0 die t n out plane vc cls i).find? fun r =>
          outEligible s0 die t n out plane vc cls r && outRoom s die t n out plane vc cls r.q.pkt
      let rp := arbMode s0 die (tpage t 0)
      let two := rp.1
      let starve := rp.2
      let prio (i : Nat) : Nat := rfld s0 die (tpage t 0) (0x140 + 4 * out) (2 * i + 1) (2 * i)
      match pickWinner two starve a prio (reqs.map fun r => (r.inPort, r.q.since)) with
      | none => s
      | some w =>
        match reqs.find? fun r => r.inPort = w with
        | none => s
        | some r =>
          let beats := beatsOf s die t out r.q.pkt
          let arbs := put {} s.nt.arbs ak (afterGrant a w (prio w) s.tm.fclk beats)
          startOut die t n out plane vc cls beats r { s with nt := { s.nt with arbs := arbs } }

/-- The first packet of each context and class in an injection queue. -/
def fronts : List QPkt → List Packet → List QPkt
  | [], _ => []
  | q :: qs, seen =>
    if seen.any fun p => sameFlow p q.pkt then fronts qs seen else q :: fronts qs (q.pkt :: seen)

/-- A waiting packet has room: its router input buffer can take it whole, and nothing holds its source (R173). -/
def hasRoom (s : State) (die t n port : Nat) (p : Packet) : Bool :=
  !sourceHeld s die p &&
    decide (heldFlits s (bkey die t port (planeOf p.cls) p.vc (escCls p p.vc)) + p.len + 1 ≤
      bufSize s die n port (planeOf p.cls) p.vc)

/-- A packet may start at an injection port (R173); none of WEIGHT in a Press under lock (R19). -/
def injEligible (s : State) (die t n port : Nat) (p : Packet) : Bool :=
  !(decide (p.cls = .weight) && s.tm.lockNow) && hasRoom s die t n port p && bucketsPermit s die t n port p && gateSays s die t n port (clsCode p.cls) = .open_

/-- The context requester of a packet: 2,048 for packets without a context (R161). -/
def ctxReq (p : Packet) : Nat := if hasCtx p then p.ctx else 2048

/-- The cycle a requester's packet became front. A context has one front packet per class: the oldest of its eligible ones
gives its age (the manual does not say which: DESIGN CHOICE, log 123). -/
def sinceOf (xs : List QPkt) : Nat := xs.foldl (fun a q => min a q.since) (xs.headD { pkt := {} }).since

/-- The front packets' ages after one leaves: the next packet of the flow is at the front from cycle `now` on (R163). -/
def removeInj (q : QPkt) (now : Nat) (xs : List QPkt) : List QPkt :=
  let rest := xs.erase q
  let rec go : List QPkt → List QPkt
    | [] => []
    | x :: ys => if sameFlow x.pkt q.pkt then { x with since := now } :: ys else x :: go ys
  go rest

/-- The packets at the front of an injection queue that were there at the start of the cycle (R168, R173). -/
def waitingOn (s : State) (k : Nat) : List QPkt := (fronts (injQ s k) []).filter fun q => decide (q.since ≤ s.tm.fclk)

/-- An injection decision: the context scheduler, then the class scheduler (R173), by what stood at the start of the cycle
(R168). -/
def decideInject (die t port plane : Nat) (s : State) : State :=
  match logTile s die t with
  | none => s
  | some n =>
    let k := ikey die t port plane
    let a0 := look {} s.nt.arbs (injArb die t port plane 0)
    let a1 := look {} s.nt.arbs (injArb die t port plane 1)
    let pa := 2 * nodePort port
    let s0 := atStart s
    if frozen s0 die (tpage t 2) pa ∨ frozen s0 die (tpage t 2) (pa + 1) ∨ s.tm.fclk < a0.endAt then s
    else
      let fs := (waitingOn s k).filter fun q => injEligible s0 die t n port q.pkt
      let rp := arbMode s0 die (tpage t 2)
      let two := rp.1
      let starve := rp.2
      let prioC (c : Nat) : Nat := if c = 2048 then 0 else rfld s0 die (tpage t 2) 0x10C 1 0 c
      let prioK (c : Nat) : Nat := rfld s0 die (tpage t 2) (0x140 + 4 * nodePort port) (2 * c + 1) (2 * c)
      let ctxs := sortBy (fun a b => decide (a < b)) ((fs.map fun q => ctxReq q.pkt).eraseDups)
      match pickWinner two starve a0 prioC (ctxs.map fun c => (c, sinceOf (fs.filter fun q => ctxReq q.pkt = c))) with
      | none => s
      | some c =>
        let mine := fs.filter fun q => ctxReq q.pkt = c
        let clss := sortBy (fun a b => decide (a < b)) ((mine.map fun q => clsCode q.pkt.cls).eraseDups)
        match pickWinner two starve a1 prioK
            (clss.map fun z => (z, sinceOf (mine.filter fun q => clsCode q.pkt.cls = z))) with
        | none => s
        | some z =>
          match mine.find? fun q => clsCode q.pkt.cls = z with
          | none => s
          | some q =>
            let beats := beatsOf s die t port q.pkt
            let arbs := put {} s.nt.arbs (injArb die t port plane 0) (afterGrant a0 c (prioC c) s.tm.fclk beats)
            let arbs := put {} arbs (injArb die t port plane 1) (afterGrant a1 z (prioK z) s.tm.fclk beats)
            let s := { s with nt := { s.nt with arbs := arbs } }
            let s := { s with nt := { s.nt with
              inject := put [] s.nt.inject k (removeInj q (s.tm.fclk + beats) (injQ s k)) } }
            placePacket die t n port (escCls q.pkt q.pkt.vc) (chooseLane s0 die t q.pkt) (chargeStart die t n port q.pkt s)

/-! ### Credits and waits -/

/-- A credit return: one that would raise the count above the buffer size is discarded and raises CREDIT_OVERFLOW
(R130). -/
def creditReturn_ (die t port plane vc cls k : Nat) (s : State) : State :=
  match logTile s die t with
  | none => s
  | some n =>
    let key := credKey s die t n port plane vc cls
    let u := look 0 s.nt.used key
    let s := { s with nt := { s.nt with owed := upd 0 s.nt.owed key (· - k) } }
    if k > u then raise die (tpage t 0) 1 none (reg s die (tpage t 0) 0x128) s
    else { s with nt := { s.nt with used := put 0 s.nt.used key (u - k) } }

/-- The key of a buffer as commands name it. -/
def bufKey (b : BufKey) : Nat := bkey b.die b.tile b.port b.plane b.vc b.cls

/-- An adaptive packet at the front for ADAPT_ESC_WAIT cycles also requests its escape output (R140). -/
def escWait (b : BufKey) (s : State) : State :=
  match bufQ s (bufKey b) with
  | [] => s
  | q :: _ =>
    if isAdaptive q.pkt.vc ∧ !q.pkt.mc ∧ !q.alsoEscape ∧ !(inTransit s q.pkt && q.pkt.via = 0) ∧
        s.tm.fclk ≥ q.since + rfld s b.die (tpage b.tile 0) 0x108 7 0 then
      setFront (bufKey b) { q with alsoEscape := true, escAt := s.tm.fclk + 1 } s
    else s

/-- The cycle since which a front packet waits for an escape output; none while it requests none (R140, R146, R148, R154). -/
def escSince (s : State) (q : QPkt) : Option Nat :=
  if inTransit s q.pkt && q.pkt.via = 0 then none
  else if isAdaptive q.pkt.vc && !q.pkt.mc && !q.alsoEscape && !q.expired then none
  else some (max q.since q.escAt)

/-- A head flit that has waited for an escape output longer than ESC_STALL_LIMIT raises ESCAPE_STALL and keeps waiting
(R154). -/
def escStall (b : BufKey) (s : State) : State :=
  match bufQ s (bufKey b) with
  | [] => s
  | q :: _ =>
    match escSince s q with
    | none => s
    | some c =>
      if !q.stalled ∧ rfld s b.die (tpage b.tile 0) 0x100 2 2 = 1 ∧
          s.tm.fclk > c + rfld s b.die (tpage b.tile 0) 0x104 23 0 then
        raiseHead b.die b.tile 0 q.pkt (setFront (bufKey b) { q with stalled := true } s)
      else s

/-- A transit request reaches the egress tile (R147). -/
def transitArrive (die n : Nat) (p : Packet) (s : State) : State :=
  let port := bits p.operand.toNat 7 0
  let cls := bits p.operand.toNat 15 8
  let s := consume die n p s
  if portDie port ≠ die then s
  else grantNext port { s with nt := { s.nt with transitWait := s.nt.transitWait ++
    [{ srcDie := p.srcDie, srcTile := p.srcTile, egress := port, cls := cls, sseq := p.sseq }] } }

/-- A transit grant reaches the ingress tile (R147). -/
def transitGranted (die n : Nat) (p : Packet) (s : State) : State :=
  let port := bits p.operand.toNat 7 0
  let cls := bits p.operand.toNat 15 8
  let s := consume die n p s
  let asked (r : TransitReq) : Bool := r.srcDie = die && r.srcTile = n && r.egress = port && r.cls = cls
  let t := physTile s die n
  if s.nt.transitAsked.any asked then
    grantNext port (askFronts die t n (useGrant die t n port cls
      { s with nt := { s.nt with transitAsked := (takeFirst asked s.nt.transitAsked).2 } }))
  else s

/-- An adaptive transit packet without a grant after ADAPT_ESC_WAIT × 16 cycles requests an escape grant on its escape
lane and travels from here on as escape, in an escape buffer from the next tile on (R148). -/
def transitExpire (port : Nat) (p : Packet) (s : State) : State :=
  let die := portDie port
  let rp := lnkTile (port % 6)
  let n := rp.1
  let g := rp.2
  let t := physTile s die n
  let k := bkey die t (8 + g) (planeOf p.cls) p.vc 0
  match bufQ s k with
  | [] => s
  | q :: _ =>
    if q.pkt = p ∧ isAdaptive p.vc ∧ !q.expired ∧ inTransit s p ∧ p.via = 0 ∧
        s.tm.fclk ≥ q.since + 16 * rfld s die (tpage t 0) 0x108 7 0 then
      askTransit die t n k (setFront k { q with expired := true } s)
    else s

/-! ### One cycle of FCLK -/

/-- What holds a waiting packet at a shaping port this cycle (R581). -/
inductive Held where
  | no | gate | bucket | hem
deriving DecidableEq, Repr

def heldBy (s : State) (die t n port : Nat) (p : Packet) : Held :=
  match gateSays s die t n port (clsCode p.cls) with
  | .closed => .gate
  | .hem => if bucketsPermit s die t n port p then .hem else .bucket
  | .open_ => if bucketsPermit s die t n port p then .no else .bucket

/-- The packets waiting at an injection port over its planes, with whether each has room (R173, R581). -/
def waitingAt (s : State) (die t n port : Nat) : List (Packet × Bool) :=
  [0, 1, 2, 3].flatMap fun pl =>
    (waitingOn s (ikey die t port pl)).map fun q => (q.pkt, hasRoom s die t n port q.pkt)

/-- Whether a front packet competes for an output, and then whether the output has credit for it whole (R581, R173). -/
def competes (s : State) (die t n out key : Nat) (q : QPkt) : Option Bool :=
  if s.tm.fclk < q.since then none else
  ((requests s die t n q).find? fun r => decide (r.1 = out) && outReady s die n out q.pkt).map fun r =>
    let p := afterHop s die n (key / 64 % 16) out r.2 q.pkt
    outRoom s die t n out (planeOf p.cls) p.vc (downCls die n out p) p

/-- The buffers of a tile whose front packet competes for an egress shaping port. -/
def egressFronts (s : State) (die t n out : Nat) : List (Nat × QPkt × Bool) :=
  s.nt.bufs.filterMap fun e =>
    match e.2 with
    | [] => none
    | q :: _ => if e.1 / 1024 = tk die t then (competes s die t n out e.1 q).map fun room => (e.1, q, room) else none

/-- The packets that wait at a shaping port, with whether each has room (R581). -/
def waitersAt (s : State) (die t n port : Nat) : List (Packet × Bool) :=
  if port ≥ 10 then waitingAt s die t n port else (egressFronts s die t n port).map fun e => (e.2.1.pkt, e.2.2)

/-- A packet starts at a shaping port in this cycle. -/
def startsAt (s : State) (die t port : Nat) : Bool :=
  [0, 1, 2, 3].any fun pl =>
    if port ≥ 10 then decide ((look {} s.nt.arbs (injArb die t port pl 0)).startAt = s.tm.fclk + 1)
    else bufIds.any fun (v, c) => decide ((look {} s.nt.arbs (outArb die t port pl v c)).startAt = s.tm.fclk + 1)

/-- Counters 2 and 3 of R581 for one shaping port over one cycle in which no packet starts there: only counter 2 asks for
room. -/
def countHeld (die t port : Nat) (s : State) : State :=
  match logTile s die t with
  | none => s
  | some n =>
    let hs := if startsAt s die t port then [] else
      (waitersAt s die t n port).map fun w => (heldBy s die t n port w.1, w.2)
    let np := nodePort port
    let s := doIf (hs.any fun h => decide (h.1 = .bucket) && h.2) (addCount die (tpage t 2) (16 * np + 2) 1) s
    doIf (hs.any fun h => decide (h.1 = .gate)) (addCount die (tpage t 2) (16 * np + 3) 1) s

/-- The shaping ports with waiting packets: injection ports with a queue, egress ports a front packet competes for. -/
def busyPorts (s : State) : List (Nat × Nat × Nat) :=
  ((s.nt.inject.map fun e => (e.1 / 64 / 256, e.1 / 64 % 256, e.1 / 4 % 16)) ++
    (s.nt.bufs.flatMap fun e =>
      let die := e.1 / 1024 / 256
      let t := e.1 / 1024 % 256
      match logTile s die t with
      | none => []
      | some n => ([8, 9].filter fun out => isEgressPort die n out && decide (egressFronts s die t n out ≠ [])).map
          fun out => (die, t, out))).eraseDups

/-- Marks the packets only the hem of an egress port holds and counts each once (R581, counter 4). -/
def markEgress (die t n port : Nat) (s : State) : State :=
  forEach (egressFronts s die t n port) (fun e s =>
    let q := e.2.1
    if !q.hemmed && e.2.2 && heldBy s die t n port q.pkt = .hem then
      addCount die (tpage t 2) (16 * nodePort port + 4) 1 (setFront e.1 { q with hemmed := true } s)
    else s) s

/-- Marks the packets a hem alone holds and counts each once (R581, counter 4). -/
def markHems (die t port : Nat) (s : State) : State :=
  match logTile s die t with
  | none => s
  | some n =>
    if port < 10 then markEgress die t n port s else
    forEach [0, 1, 2, 3] (fun pl s =>
      let k := ikey die t port pl
      let isHem (q : QPkt) : Bool := !q.hemmed && hasRoom s die t n port q.pkt && heldBy s die t n port q.pkt = .hem
      let fs := waitingOn s k
      let newly := (injQ s k).filter fun q => decide (q ∈ fs) && isHem q
      if newly = [] then s
      else
        let q' := (injQ s k).map fun q => if decide (q ∈ newly) then { q with hemmed := true } else q
        addCount die (tpage t 2) (16 * nodePort port + 4) newly.length
          { s with nt := { s.nt with inject := put [] s.nt.inject k q' } }) s

/-- FCLK runs: POR_N is high and the package is not in LP2 or LP3 (R18). -/
def fclkRuns (s : State) : Bool :=
  !s.tm.porLow && (match s.rs.lp with | .lp2 | .leaving | .lp3 => false | _ => true)

/-- One cycle in which nothing starts: the held-cycle counters count, memory ports with a request that waits for
their controller count it (05, CNT_SEL 5), and the clock advances. -/
def tick (s : State) : State :=
  let s := forEach (busyPorts s) (fun e s => markHems e.1 e.2.1 e.2.2 (countHeld e.1 e.2.1 e.2.2 s)) s
  let s := forEach s.mp (fun e s =>
    if e.2.waiting ≠ [] ∧ e.2.out.length <
        min 512 (rfld s (e.1 / 256) (tpage (physTile s (e.1 / 256) (e.1 % 256)) 3) 0x108 9 0) then
      addCount (e.1 / 256) (tpage (physTile s (e.1 / 256) (e.1 % 256)) 3) 5 1 s else s) s
  setClock (s.tm.fclk + 1) (forEach s.nt.collect (fun e s => collectorDrain e.1 s) s)

/-- n cycles, one at a time. -/
def ticks : Nat → State → State
  | 0, s => s
  | n + 1, s => ticks n (tick s)

/-- The clock reaches cycle c; with nothing waiting at a shaping port or a memory port it moves there at once. -/
def advanceTo (c : Nat) (s : State) : State :=
  if c ≤ s.tm.fclk then s
  else if busyPorts s = [] ∧ s.mp.all (fun e => decide (e.2.waiting = [])) then
    setClock c (forEach s.nt.collect (fun e s => collectorDrain e.1 s) s)
  else ticks (c - s.tm.fclk) s

end Sys2Proof.Machine
end

