-- ==== Sys2Proof/Machine/Endpoint.lean ====
section
/-! DEFINITION. What every endpoint does with a packet handed to it (R118, R482, R472), and the Press counts of waits that
leave an activation pause out (R549). -/
namespace Sys2Proof.Machine

/-- The requests for an endpoint of a tile are answered with NACK_RETRY: a quiesce covers it (R482) or its die is
isolated (R472). -/
def fenced (s : State) (die n : Nat) : Bool := tileQuiesced s die n || isIsolated s die

/-- The part is in phase Q2 of a quiesce, or its die is isolated: what it owes is sent with POISON in the head (R472, R482). -/
def flushing (s : State) (die n : Nat) : Bool :=
  isIsolated s die || (tileQuiesced s die n && (match s.rs.busy with | some q => decide (q.phase = 2) | none => false))

/-- An endpoint of a tile answers a request. -/
def reply (die n port : Nat) (q : Packet) (opcode : Nat) (operand : DWord) (payload : List Byte) (s : State) : State :=
  sendFrom die n port { response s die n q opcode operand payload with poison := flushing s die n } s

/-- An endpoint answers a request with STATUS. -/
def replyStatus (die n port : Nat) (q : Packet) (code : Nat) (s : State) : State :=
  sendFrom die n port (statusRsp s die n q code) s

/-- A request that reaches a fenced endpoint is answered with NACK_RETRY; otherwise it is served (R482). -/
def served (die n port : Nat) (p : Packet) (f : State → State) (s : State) : State :=
  if fenced s die n then replyStatus die n port p 0x20 (consume die n p s) else f (consume die n p s)

/-- A byte count of a memory request lies in one granule (R119). The opcode table gives counts of 1 to 512 and no answer to a
count of 0: it is answered like an access outside its granule (DESIGN CHOICE, log 126). -/
def inGranule (a : DWord) (n : Nat) : Bool :=
  decide (1 ≤ n) && decide (n ≤ 512) && decide (a.toNat % 512 + n ≤ 512)

/-- The byte count of a READ or WRITE (R118). -/
def countBytes (p : Packet) : Nat := bits p.operand.toNat 9 0

/-- The Press count by which waits are measured: the Presses of activation pauses are left out (R549). -/
def waitPress (s : State) (die : Nat) : Nat := pressOf s die - s.fw.pausedPresses

/-- An arrival during the fold belongs to the next Press (R102, R368). -/
def stampPress (s : State) (die : Nat) : Nat := pressOf s die + b2n s.tm.inFold

end Sys2Proof.Machine
end

