-- ==== Sys2Proof/Machine/MemPort.lean ====
section
/-! DEFINITION. The memory port of a memory-side tile (05, TILE subpage 3; R119, R159, R160). -/
namespace Sys2Proof.Machine

/-- The memory port of a tile. -/
def mpOf (s : State) (die n : Nat) : MemPort := look {} s.mp (tk die n)

/-- A change of a memory port. -/
def modMp (die n : Nat) (f : MemPort → MemPort) (s : State) : State := { s with mp := upd {} s.mp (tk die n) f }

/-- The page of a tile's memory port. -/
def mpPage (s : State) (die n : Nat) : Nat := tpage (physTile s die n) 3

/-- MP_FAULT_ADDR takes the stack offset of a request. -/
def mpFaultAddr (die n off : Nat) (s : State) : State :=
  setReg die (mpPage s die n) 0x114 0 (w32 (off / 2 ^ 32 % 4096)) (setReg die (mpPage s die n) 0x110 0 (w32 off) s)

/-- A READ or WRITE at a memory port: refused where ENABLE is 0, where it leaves its granule or the stacks, otherwise
it waits for the controller (R119, R159). -/
def mpRequest (die n : Nat) (p : Packet) (s : State) : State :=
  let off := aOff44 p.dest
  if rfld s die (mpPage s die n) 0x100 0 0 = 0 then replyStatus die n 10 p 0x10 s
  else if !inGranule p.dest (countBytes p) ∨ off + countBytes p > stackBytes then replyStatus die n 10 p 0x10 s
  else modMp die n (fun m => { m with waiting := m.waiting ++ [p] }) s

/-- The tag of the next request: the least one no outstanding request has (the manual does not say which: DESIGN CHOICE, log
125). -/
def freeTag (m : MemPort) : Nat := ((List.range 512).find? fun t => m.out.all fun r => r.tag ≠ t).getD 0

/-- ENABLE is 0: every request that waits is answered with ADDR_UNMAPPED (R159). -/
def mpRefuse (die n : Nat) (s : State) : State :=
  if rfld s die (mpPage s die n) 0x100 0 0 ≠ 0 then s
  else
    let ws := (mpOf s die n).waiting
    forEach ws (fun p s => replyStatus die n 10 p 0x10 s) (modMp die n (fun m => { m with waiting := [] }) s)

/-- MP_REQUEST_ISSUE: the oldest waiting request goes to the controller, below MP_OUTSTANDING, while ENABLE is 1 (R159); in the safe
state no write does (R476). -/
def mpIssue (die n : Nat) (s : State) : State :=
  let m := mpOf s die n
  match m.waiting with
  | [] => s
  | p :: ps =>
    if rfld s die (mpPage s die n) 0x100 0 0 = 0 then mpRefuse die n s
    else if m.out.length ≥ min 512 (rfld s die (mpPage s die n) 0x108 9 0) || (isSafe s die && decide (p.opcode = 1)) then s
    else
      let tag := freeTag m
      let off := aOff44 p.dest
      let we := decide (p.opcode = 1)
      let req : MpReq := { tag := tag, pkt := p, offset := off, since := s.tm.fclk }
      let s := modMp die n (fun m => { m with waiting := ps, out := m.out ++ [req] }) s
      let s := addCount die (mpPage s die n) (b2n we) 1 (addCount die (mpPage s die n) (2 + b2n we) (countBytes p) s)
      emit (.mpReq die n tag off we (if we then p.payload.take (countBytes p) else [])) s

/-- MP_RESPONSE: data or acknowledgement return to the requester; an error raises MP_RSP_ERR and poisons the data, or
answers the write with DATA_POISON (R160). -/
def mpRespond (die n tag : Nat) (data : List Byte) (err : Bool) (s : State) : State :=
  match (mpOf s die n).out.find? fun r => r.tag = tag with
  | none => s
  | some r =>
    let q := r.pkt
    let s := modMp die n (fun m => { m with out := m.out.filter fun x => x.tag ≠ tag }) s
    let s := if err then
        addCount die (mpPage s die n) 4 1
          (raise die (mpPage s die n) 0 (if hasCtx q then some q.ctx else none) 0 (mpFaultAddr die n r.offset s))
      else s
    if q.opcode = 0 then
      let p := response s die n q 0x80 (w64 (countBytes q)) (padTo (countBytes q) data)
      let p := if err then { p with why := p.why.map fun _ => 1 } else p
      sendFrom die n 10 { p with poison := flushing s die n } s
    else if err then replyStatus die n 10 q 0x26 s
    else if q.operand.toNat.testBit 10 then reply die n 10 q 0x81 0 [] s
    else s

/-- MP_STALL: a response overdue by MP_STALL_LIMIT cycles raises MP_STALL once; the port keeps waiting (R159). -/
def mpStalled (die n tag : Nat) (s : State) : State :=
  match (mpOf s die n).out.find? fun r => r.tag = tag with
  | none => s
  | some r =>
    if r.stalled ∨ s.tm.fclk < r.since + rfld s die (mpPage s die n) 0x10C 23 0 then s
    else
      let s := modMp die n (fun m => { m with out := mapIf (fun x => x.tag = tag) (fun x => { x with stalled := true }) m.out }) s
      raise die (mpPage s die n) 1 (if hasCtx r.pkt then some r.pkt.ctx else none) 0 (mpFaultAddr die n r.offset s)

end Sys2Proof.Machine
end

