-- ==== Sys2Proof/Machine/Notify.lean ====
section
/-! DEFINITION. What the fabric tells its hosts of its own accord: MSI-X messages of the host adapters (R454, R458) and
notices of the service port (R531). -/
namespace Sys2Proof.Machine

def hostOf (s : State) (h : Nat) : HostPort := look {} s.hs h
def modHost (h : Nat) (f : HostPort → HostPort) (s : State) : State := { s with hs := upd {} s.hs h f }

/-- The HST page, and a counter of it. -/
def hostCount (h k : Nat) : State → State := addCount (hostDie h) 0x718 k 1

/-- Word i of the MSI-X table: four per vector, the last the vector control, whose mask bit is set after reset as in the
PCI Express layout (PRESUMED, log 30). -/
def msixWord (s : State) (h i : Nat) : Word := look (if i % 4 = 3 then 1 else 0) (hostOf s h).msix i

/-- The adapter is enabled. -/
def hostOn (s : State) (h : Nat) : Bool := rfld s (hostDie h) 0x718 0x100 0 0 = 1

/-- A vector is masked: by its mask bit, or all of them by the controller (R458, R577). -/
def msixMasked (s : State) (h v : Nat) : Bool :=
  (msixWord s h (4 * v + 3)).toNat.testBit 0 || !(hostOf s h).pins.msixEn || (hostOf s h).pins.msixMask

/-- A message of a vector: a memory write of its data at its address (R455, R458). -/
def sendMsix (h v : Nat) (s : State) : State :=
  emit (.msix h v (pair64 (msixWord s h (4 * v)) (msixWord s h (4 * v + 1))) (msixWord s h (4 * v + 2))) (hostCount h 4 s)

/-- A cause rises at one adapter: MSIX_CAUSE, and a message, or the pending bit while the vector is masked (R458). -/
def hostRise (h v : Nat) (s : State) : State :=
  let s := modHost h (fun x => { x with cause := x.cause ||| w32 (2 ^ v) }) s
  if !hostOn s h then s
  else if msixMasked s h v then modHost h (fun x => { x with pendingBits := x.pendingBits ||| w32 (2 ^ v) }) s
  else sendMsix h v s

/-- A pending vector that is no longer masked sends its message (PRESUMED, as PCI Express has it; log 30). -/
def msixUnmask (h v : Nat) (s : State) : State :=
  if (hostOf s h).pendingBits.toNat.testBit v && !msixMasked s h v then
    sendMsix h v (modHost h (fun x => { x with pendingBits := x.pendingBits &&& ~~~(w32 (2 ^ v)) }) s)
  else s

/-- The status inputs of an adapter take new values. -/
def hostPins (h : Nat) (p : HostPins) (s : State) : State :=
  if h < 4 then
    forEach (List.range 32) (fun v s => msixUnmask h v s) (modHost h (fun x => { x with pins := p }) s)
  else s

/-- A cause rises at every host adapter. -/
def hostCause (v : Nat) (s : State) : State := forEach [0, 1, 2, 3] (fun h s => hostRise h v s) s

/-- The allow-list entry k of the service configuration, which is held as the bytes of the sideband map from index 0x10 on (R532):
24 bytes at 0x28 + 24 k. -/
def allowEntry (cfg : List Byte) (k : Nat) : List Byte := slice cfg (0x18 + 24 * k) 24
def allowValid (cfg : List Byte) (k : Nat) : Bool := (byteAt (allowEntry cfg k) 22).toNat.testBit 0
def allowNotice (cfg : List Byte) (k : Nat) : Bool := (byteAt (allowEntry cfg k) 22).toNat.testBit 1

/-- A datagram of the service protocol that the fabric sends: header and body (R527). -/
def svcDatagram (s : State) (typ flags status : Nat) (seq : Word) (body : List Byte) : List Byte :=
  leBytes 4 0x53565A54 ++ leBytes 1 1 ++ leBytes 1 typ ++ leBytes 1 flags ++ leBytes 1 status ++ leBytes 4 seq.toNat ++
    leBytes 2 body.length ++ leBytes 2 (pkgNo s) ++ body

/-- The datagram of a notice (R531); its SEQ is 0 (log 31). -/
def noticeBytes (s : State) (kind : Nat) (content : List Byte) : List Byte :=
  svcDatagram s 0x10 0 0 0 (leBytes 4 s.sv.nseq.toNat ++ leBytes 1 kind ++ [0, 0, 0] ++ padTo 16 content)

/-- A notice (R531): kind 1 fault record, 2 firmware event, 3 plan event; to every VALID allow-list entry with NOTICE. A port
without a valid configuration sends none; NSEQ counts what is sent. -/
def notice (kind : Nat) (content : List Byte) (s : State) : State :=
  let ks := (List.range 4).filter fun k => allowValid s.sv.config k && allowNotice s.sv.config k
  if s.sv.valid && !ks.isEmpty then
    let s := forEach ks (fun k s => addCount 0 0x724 4 1 (emit (.notice k (noticeBytes s kind content)) s)) s
    { s with sv := { s.sv with nseq := s.sv.nseq + 1 } }
  else s

/-! ### FW_STATUS and its events (R531, R542) -/

def fwCode : FwState → Nat
  | .idle => 0 | .checking => 1 | .checked => 2 | .programming => 3 | .ready => 4 | .armed => 5 | .pause => 6

/-- FW_STATUS. -/
def fwStatus (s : State) : Word :=
  w32 (fwCode s.fw.st * 2 ^ 28 + b2n s.fw.recovery * 2 ^ 27 + s.fw.code * 2 ^ 16)

/-- STATE changes: a notice (R531). -/
def fwState (st : FwState) (s : State) : State :=
  if s.fw.st = st then s
  else
    let s := { s with fw := { s.fw with st := st } }
    notice 2 (leBytes 4 (fwStatus s).toNat) s

/-- A firmware command completes with a code and leaves a state: CODE, the notice, MSI-X vector 3 (R542). -/
def fwDone (code : Nat) (st : FwState) (s : State) : State :=
  let s := { s with fw := { s.fw with st := st, code := code } }
  hostCause 3 (notice 2 (leBytes 4 (fwStatus s).toNat) s)

end Sys2Proof.Machine
end

