-- ==== Sys2Proof/Machine/Chain.lean ====
section
/-! DEFINITION. The tally chain of a context, its log records and the log buffers of the TLY units (12: R398 to R412, R421,
R422), and the events of a pair's deltas as they are decided (R414). -/
namespace Sys2Proof.Machine

/-- The Xadalin level of this family member (R8, R401). -/
def xLevel : Nat := 1

/-! ### Chains -/

/-- The TLY unit of a context and its entry there (R23). -/
def tlyEntry (c : Nat) : Nat := c / 16
def tlyCfg (s : State) (c : Nat) : Word := reg s (tallyDie c) 0x690 0x104 (tlyEntry c)
def logEn (s : State) (c : Nat) : Bool := (tlyCfg s c).toNat.testBit 31
def chainBsk (s : State) (c : Nat) : Bool := (tlyCfg s c).toNat.testBit 30
def chainOrd (s : State) (c : Nat) : Bool := (tlyCfg s c).toNat.testBit 29
def epochFixed (s : State) (c : Nat) : Bool := (tlyCfg s c).toNat.testBit 28

def chainOf? (s : State) (c : Nat) : Option Chain := look? s.ty.chains c
def modChain (c : Nat) (f : Chain → Chain) (s : State) : State :=
  match look? s.ty.chains c with
  | some x => { s with ty := { s.ty with chains := ins s.ty.chains c (f x) } }
  | none => s
def unitTly (s : State) (die : Nat) : TlyUnit := look {} s.ty.units die
def modTly (die : Nat) (f : TlyUnit → TlyUnit) (s : State) : State :=
  { s with ty := { s.ty with units := upd {} s.ty.units die f } }

/-- The replay epoch of a context, 0 without a chain. -/
def ctxEpoch (s : State) (c : Nat) : Nat := match chainOf? s c with | some x => x.epoch | none => 0

/-- The replay epoch a context takes at its activation on an unpaired package or a primary (R398). -/
def epochAtStart (s : State) (c : Nat) : Nat :=
  if epochFixed s c then (reg s (tallyDie c) 0x690 0x108 (tlyEntry c)).toNat else s.kp.replayEpoch

/-- The role byte of the epoch record: 0 unpaired, 1 primary, 2 mirror. A mirror that follows keeps the primary's chain (R414; log 81). -/
def pairRole (s : State) : Nat := if s.pr.following then 1 else s.pr.role

/-- The firmware epoch of the set in use. -/
def fwEpoch (s : State) : Nat :=
  if s.fw.slot1.valid ∧ (!s.fw.slot0.valid ∨ s.fw.slot1.actSeq > s.fw.slot0.actSeq) then s.fw.slot1.epoch else s.fw.slot0.epoch

/-- PLAN_EPOCH in effect. -/
def planEpoch (s : State) : Nat := match s.pl.cur with | some p => p.epoch | none => 0

/-- The epoch record (R403). -/
def epochRecord (s : State) (c : Nat) : List Byte :=
  leBytes 4 (ctxEpoch s c) ++ leBytes 4 (fwEpoch s) ++ leBytes 4 (planEpoch s) ++ leBytes 1 xLevel ++ leBytes 1 (pairRole s) ++
    leBytes 2 (pkgNo s) ++ List.replicate 16 0

/-- An entry falls due to a context's chain; a context without a chain has none (R403). -/
def enterTally (c : Nat) (e : TEntry) : State → State := modChain c fun x => { x with due := x.due ++ [e] }

/-- IDENT of an EPOCH entry. -/
def epochIdent (c event : Nat) : List Byte := leBytes 2 c ++ [0, 0, 5] ++ leBytes 1 event ++ List.replicate 10 0

/-- An EPOCH entry: 0 activation, 1 firmware, 2 plan, 3 promotion. -/
def enterEpoch (c event press : Nat) (s : State) : State :=
  let r := epochRecord s c
  enterTally c { kind := 5, key := [event], ident := epochIdent c event, digest := sha3 r, press := press, epochRec := r } s

/-- The init record's hash (R401). -/
def initTally (c epoch : Nat) : List Byte :=
  sha3 ([0x58, 0x54, 0x4C, 0x59] ++ leBytes 2 c ++ leBytes 1 xLevel ++ [0] ++ leBytes 4 epoch ++ [0, 0, 0, 0])

/-- A chain starts with the context's activation (R401); the activation's EPOCH entry is due to the boundary that ends
the first live Press. -/
def startChain (c epoch press : Nat) (s : State) : State :=
  let s := { s with ty := { s.ty with chains := ins s.ty.chains c { epoch := epoch, tally := initTally c epoch } } }
  enterEpoch c 0 press s

/-- The chain is discarded (R407). -/
def dropChain (c : Nat) (s : State) : State := { s with ty := { s.ty with chains := drop s.ty.chains c } }

/-! ### Log records -/

/-- The log buffer of a TLY unit: 2 MiB (R412). -/
def logRoom : Nat := 2097152
def bytesOf (rs : List LogRec) : Nat := rs.foldl (fun a r => a + r.bytes.length) 0
def logUsed (u : TlyUnit) : Nat := bytesOf u.buf + bytesOf u.held

/-- The storage port of a die that is up. -/
def stoOf (s : State) (n : Nat) : StoPort := look {} s.lk.stos n
def stoSends (s : State) (n : Nat) : Bool :=
  (stoOf s n).link && decide (rfld s (portDie (stoPort n)) 0x719 0x100 0 0 = 1)

/-- The packets of a record: LOG, OPCODE 0x50, pieces of at most 512 bytes, to the storage port's endpoint. -/
def logPackets (s : State) (die port sseq : Nat) (bytes : List Byte) : List Packet :=
  (chunk 512 32 bytes).map fun b =>
    { cls := .log, dest := epAddr (pkgNo s) (portDie (stoPort port)) 0xFF 12 0, opcode := 0x50, srcPkg := pkgNo s,
      srcDie := die, srcTile := 0xFF, srcPort := 10, sseq := BitVec.ofNat 16 sseq, payload := b, len := ceilDiv b.length 64,
      why := List.replicate (ceilDiv b.length 64) 0 }

/-- The next record for a storage port leaves the buffer toward it, oldest first; a record leaves the buffer with its
last port (R409, R453). Fuel: the records. -/
def drainLog (die : Nat) : (fuel : Nat) → State → State
  | 0, s => s
  | f + 1, s =>
    let u := unitTly s die
    match u.buf.find? fun r => r.ports.any (stoSends s) with
    | none => s
    | some r =>
      let rp := r.ports.partition (stoSends s)
      let go := rp.1
      let stay := rp.2
      let s := forEach go (fun p s => forEach (logPackets s die p (field r.bytes 8 2) r.bytes) (fun q s => sendFrom die 10 11 q s)
        (addCount die 0x690 3 1 s)) s
      let buf' := if stay = [] then u.buf.erase r else u.buf.map fun x => if x = r then { r with ports := stay } else x
      let s := modTly die (fun u => { u with buf := buf', flight := u.flight ++ [{ r with ports := go }] }) s
      drainLog die f s

/-- The header of a record (R411). -/
def recHeader (s : State) (c rtype len lseq press : Nat) : List Byte :=
  leBytes 1 rtype ++ leBytes 1 (b2n s.pr.following) ++ leBytes 2 len ++ leBytes 2 c ++ [0, 0] ++ leBytes 8 lseq ++
    leBytes 8 press ++ leBytes 4 (ctxEpoch s c) ++ [0, 0, 0, 0]

/-- The storage ports of a context's records (R409). -/
def logPorts (s : State) (c : Nat) : List Nat :=
  let w := tlyCfg s c
  wbits w 1 0 :: (if w.toNat.testBit 7 then [wbits w 6 5] else [])

/-- Room for n bytes in a unit's buffer. -/
def logFits (s : State) (die n : Nat) : Bool := logUsed (unitTly s die) + n ≤ logRoom

/-- Puts a record with the next LSEQ in the buffer, or among the held ones of a following mirror (R412, R421). -/
def putRecord (c rtype press : Nat) (body : List Byte) (s : State) : State :=
  let die := tallyDie c
  let lseq := match chainOf? s c with | some x => x.lseq | none => 0
  let bytes := recHeader s c rtype (32 + body.length) lseq press ++ body
  let r : LogRec := { ctx := c, press := press, ports := logPorts s c, bytes := bytes }
  let s := modChain c (fun x => { x with lseq := x.lseq + 1 }) s
  let live := !s.pr.following || (s.kp.pairCfg).toNat.testBit 0
  let s := if s.pr.following then modTly die (fun u => { u with held := u.held ++ [{ r with bytes := r.bytes }] }) s else s
  if live then drainLog die 64 (modTly die (fun u => { u with buf := u.buf ++ [r] }) s) else s

/-- The GAP record of a context whose lost records are not yet named, once there is room (R412). -/
def sendGap (die c : Nat) (s : State) : State :=
  match look? (unitTly s die).lost c with
  | none => s
  | some (first, count) =>
    if logFits s die 48 then
      let s := modTly die (fun u => { u with lost := drop u.lost c }) s
      putRecord c 3 (pressOf s die) (leBytes 8 first ++ leBytes 8 count) s
    else s

/-- A record of n bytes is lost: its LSEQ joins the range a GAP record will name (R412). -/
def loseRecord (die c lseq : Nat) (s : State) : State :=
  let s := modTly die (fun u => { u with lost := match look? u.lost c with
    | some (a, k) => ins u.lost c (a, k + 1)
    | none => ins u.lost c (lseq, 1) }) s
  addCount die 0x690 2 1 (raise die 0x690 1 (some c) 0 s)

/-- Held records of a mirror make room for n bytes: the oldest are displaced and counted as lost (R421). -/
def displace (die n : Nat) : (fuel : Nat) → State → State
  | 0, s => s
  | f + 1, s =>
    if logFits s die n then s
    else match (unitTly s die).held with
      | [] => s
      | r :: _ =>
        let s := modTly die (fun u => { u with held := u.held.drop 1 }) s
        displace die n f (loseRecord die r.ctx (field r.bytes 8 8) s)

/-- A record of a context toward the log: true when it found room (R408, R412). -/
def logRecord (c rtype press : Nat) (body : List Byte) (s : State) : Bool × State :=
  let die := tallyDie c
  let n := 32 + body.length
  let s := sendGap die c s
  let s := if s.pr.following then displace die n (unitTly s die).held.length s else s
  let waits := (look? (unitTly s die).lost c).isSome && !s.pr.following
  if logFits s die n && !waits then (true, putRecord c rtype press body s)
  else
    let lseq := match chainOf? s c with | some x => x.lseq | none => 0
    (false, loseRecord die c lseq (modChain c (fun x => { x with lseq := x.lseq + 1 }) s))

/-! ### Step 5 of a boundary (R402, R404, R405) -/

/-- The rank of an entry's kind in R404's order. -/
def kindRank (k : Nat) : Nat := match k with | 5 => 0 | 0 => 1 | 1 => 2 | 2 => 3 | 3 => 4 | _ => 5

/-- Enters one entry into its chain and, where the context logs, sends its TALLY record. -/
def enterOne (c : Nat) (e : TEntry) (s : State) : State :=
  match chainOf? s c with
  | none => s
  | some x =>
    let t := sha3 (x.tally ++ e.digest ++ leBytes 8 e.press ++ e.ident)
    let s := modChain c (fun x => { x with tally := t, press := e.press, count := x.count + 1 }) s
    let s := addCount (tallyDie c) 0x690 0 1 s
    let s := if e.kind = 4 ∧ (tlyCfg s c).toNat.testBit 27 then hostCause 1 s else s
    if logEn s c then (logRecord c 1 e.press (e.ident ++ e.digest ++ t ++ e.epochRec) s).2 else s

/-- The entries due to a chain at this boundary, in R404's order. -/
def dueOrder (x : Chain) : List TEntry :=
  sortBy (fun a b => lexLt (kindRank a.kind :: a.key) (kindRank b.kind :: b.key)) x.due

/-- The chain of a context at step 5: what a read returns until the fold is what stood before the boundary's first entry. -/
def openStep5 (some_ : Bool) (x : Chain) : Chain := { x with shown := if some_ then some (x.tally, x.press, x.count) else none }

/-- Enters up to n of the entries carried to a context; how many are left of n. -/
def enterCarried (c n : Nat) (s : State) : Nat × State :=
  match chainOf? s c with
  | none => (n, s)
  | some x =>
    let now := x.carried.take n
    let s := modChain c (fun x => { openStep5 (now ≠ []) x with carried := x.carried.drop n }) s
    (n - now.length, forEach now (fun e s => enterOne c e s) s)

/-- Enters up to n of the boundary's own entries of a context; the others are carried. -/
def enterDue (c n : Nat) (s : State) : Nat × State :=
  match chainOf? s c with
  | none => (n, s)
  | some x =>
    let now := (dueOrder x).take n
    let s := modChain c (fun x => { (if x.shown.isSome then x else openStep5 (now ≠ []) x) with
      due := [], carried := x.carried ++ (dueOrder x).drop n }) s
    let s := addCount (tallyDie c) 0x690 1 (x.carried ++ (dueOrder x).drop n).length s
    (n - now.length, forEach now (fun e s => enterOne c e s) s)

/-- Step 5 at one TLY unit: the entries carried of every context, then the boundary's own, contexts ascending (DESIGN CHOICE, log 31: the
manual orders entries within a context only), 4,096 entries at most; what is left is carried and raises TALLY_BACKLOG. -/
def tallyUnitStep (die : Nat) (s : State) : State :=
  let cs := (s.ty.chains.map (·.1)).filter fun c => tallyDie c = die
  let rp := cs.foldl (fun (a : Nat × State) c => enterCarried c a.1 a.2) (4096, s)
  let s := (cs.foldl (fun (a : Nat × State) c => enterDue c a.1 a.2) rp).2
  let late := s.ty.chains.any fun e => tallyDie e.1 = die && e.2.carried ≠ []
  let s := if late then raise0 die 0x690 0 s else s
  drainLog die 64 s

/-- Step 5 (R105). -/
def tallyStep (s : State) : State := forEach memDies tallyUnitStep s

/-- The tally of a context, the PRESS of its last entry and the number of entries as reads return them (R406): until the fold of the
Press they are those before its first boundary (R108; DESIGN CHOICE: the latest moment the rule allows, log 32). -/
def tallyShown (s : State) (c : Nat) : List Byte × Nat × Word :=
  match chainOf? s c with
  | none => ([], 0, 0)
  | some x => x.shown.getD (x.tally, x.press, x.count)

/-- The fold begins: every entered value is readable. -/
def showTallies (s : State) : State :=
  { s with ty := { s.ty with chains := s.ty.chains.map fun e => (e.1, { e.2 with shown := none }) } }

/-- The LOG_MARK of a unit: the highest Press p such that every record with PRESS ≤ p has left a storage port (R416). -/
def logMark (s : State) (die : Nat) : Nat :=
  let u := unitTly s die
  ((u.buf ++ u.flight).filter fun r => !r.left).foldl (fun m r => min m (r.press - 1)) (pressOf s die - 1)

/-! ### Events of a pair (R413, R414, R416) -/

/-- The package is the primary of a pair that still has its mirror. -/
def isPrimary (s : State) : Bool := s.pr.role = 1 && !s.pr.mirrorLost

/-- A decision of the primary joins the delta of the boundary in progress. -/
def pairEvent (bytes : List Byte) (s : State) : State :=
  if isPrimary s then { s with pr := { s.pr with events := s.pr.events ++ [padTo 48 bytes] } } else s

/-- An ACTIVATE entry. -/
def evActivate (s : State) (c : Nat) (on : Bool) : List Byte :=
  [1, 0] ++ leBytes 2 c ++ leBytes 1 (b2n on) ++ [0, 0, 0] ++ leBytes 4 (if on then ctxEpoch s c else 0)
/-- An OPEN entry. -/
def evOpen (group die tile ordinal word gseq : Nat) : List Byte :=
  [2, 0] ++ leBytes 2 group ++ leBytes 1 die ++ leBytes 1 tile ++ [0, 0] ++ leBytes 8 ordinal ++ leBytes 2 word ++
    List.replicate 6 0 ++ leBytes 8 gseq
/-- A SEAM_DONE entry. -/
def evDone (group result xflags gseq : Nat) : List Byte :=
  [3, 0] ++ leBytes 2 group ++ leBytes 1 result ++ leBytes 1 xflags ++ [0, 0] ++ leBytes 8 gseq
/-- A PEG entry. -/
def evPeg (memNo peg gen : Nat) : List Byte := [4, 0] ++ leBytes 1 memNo ++ [0] ++ leBytes 2 peg ++ [0, 0] ++ leBytes 4 gen

end Sys2Proof.Machine
end

