-- ==== Sys2Proof/Machine/Flags.lean ====
section
/-! DEFINITION. XFLAGS, the eight result flags of R232. -/
namespace Sys2Proof.Machine

/-- XFLAGS bits (R232): INEXACT, OVERFLOW, UNDERFLOW, INVALID, NAN_IN, INF_OUT, SAT. -/
def xInexact : Byte := 0x01
def xOverflow : Byte := 0x02
def xUnderflow : Byte := 0x04
def xInvalid : Byte := 0x08
def xNanIn : Byte := 0x10
def xInfOut : Byte := 0x20
def xSat : Byte := 0x40

/-- A flag under a condition. -/
def flagIf (c : Bool) (f : Byte) : Byte := if c then f else 0

/-- Bit 0 and bit 2: the rounding left a remainder; the exact magnitude was below 2^emin and the element inexact. -/
def roundFlags (rem : Nat) (tiny : Bool) : Byte :=
  flagIf (decide (rem ≠ 0)) xInexact ||| flagIf (decide (rem ≠ 0) && tiny) xUnderflow

/-- Bits of an element that overflowed (R216, R232): OVERFLOW; INEXACT for a remainder, and for the largest finite value that
the rounding mode delivers under OVF = INF; SAT under OVF = SAT; INF_OUT where an infinity is delivered. -/
def overflowFlags (rem : Nat) (sat toInf infOut : Bool) : Byte :=
  xOverflow ||| flagIf (decide (rem ≠ 0) || (!sat && !toInf)) xInexact ||| flagIf sat xSat ||| flagIf (!sat && infOut) xInfOut

/-- Bits an XL or XD element sets (R219, R231). -/
def rawFlags (nan pinf ninf bad : Bool) : Byte :=
  flagIf nan xNanIn ||| flagIf ((pinf && ninf) || bad) xInvalid

end Sys2Proof.Machine
end

