-- ==== Sys2Proof/Machine/Xadalin.lean ====
section
/-! DEFINITION. Xadalin level 1 (07): accumulators of w bits that represent A × 2^−off (w 384, off 192; on the FP64
path w 2,176, off 1,074), input and output formats, partial encodings, final rounding, selection, sort keys, XCTL. -/
namespace Sys2Proof.Machine

/-! ### Input formats (R201 to R205) -/

/-- A floating-point format: exponent and fraction widths, bias, whether e = all ones encodes infinities and NaN
(IEEE), whether only the all-ones significand is NaN (E4M3), whether it is an MX element, and k of R202. -/
structure FloatFmt where
  E : Nat
  F : Nat
  bias : Nat
  ieee : Bool
  e4m3 : Bool := false
  mx : Bool := false
  k : Nat
deriving DecidableEq, Repr

/-- The floating-point input formats by code (R202). -/
def floatFmt (code : Nat) : Option FloatFmt :=
  match code with
  | 0x00 => some { E := 8, F := 23, bias := 127, ieee := true, k := 128 }
  | 0x01 => some { E := 5, F := 10, bias := 15, ieee := true, k := 16 }
  | 0x02 => some { E := 8, F := 7, bias := 127, ieee := true, k := 128 }
  | 0x03 => some { E := 4, F := 3, bias := 7, ieee := false, e4m3 := true, k := 9 }
  | 0x04 => some { E := 5, F := 2, bias := 15, ieee := true, k := 16 }
  | 0x08 => some { E := 4, F := 3, bias := 7, ieee := false, e4m3 := true, mx := true, k := 136 }
  | 0x09 => some { E := 5, F := 2, bias := 15, ieee := true, mx := true, k := 143 }
  | 0x0A => some { E := 2, F := 3, bias := 1, ieee := false, mx := true, k := 130 }
  | 0x0B => some { E := 3, F := 2, bias := 3, ieee := false, mx := true, k := 132 }
  | 0x0C => some { E := 2, F := 1, bias := 1, ieee := false, mx := true, k := 130 }
  | 0x18 => some { E := 11, F := 52, bias := 1023, ieee := true, k := 1024 }
  | _ => none

/-- The width of an integer input format (R202). -/
def intFmt (code : Nat) : Option Nat :=
  match code with | 0x10 => some 8 | 0x11 => some 16 | 0x12 => some 32 | _ => none

/-- The bits of one element of an input format, 0 for no format. -/
def fmtBits (code : Nat) : Nat :=
  match floatFmt code, intFmt code with
  | some f, _ => 1 + f.E + f.F
  | none, some n => n
  | none, none => 0

def isMX (code : Nat) : Bool := decide (0x08 ≤ code) && decide (code ≤ 0x0C)
def isInFmt (code : Nat) : Bool := fmtBits code ≠ 0

/-- The addend limit of an input format (R200, R202). -/
def addendLimit (code : Nat) : Nat :=
  match floatFmt code, intFmt code with
  | some f, _ => if code = 0x18 then 2 ^ 77 else 2 ^ (191 - f.k)
  | none, some n => 2 ^ (191 - n)
  | none, none => 0

/-! ### Entering an input (R199, R201, R203 to R205) -/

def accNaN {w : Nat} : AccW w := { zk := 0, nan := true }
def accInf {w : Nat} (neg : Bool) : AccW w := { zk := 0, pinf := !neg, ninf := neg }
def accZero {w : Nat} (neg : Bool) : AccW w := { zk := if neg then 1 else 0 }

/-- A finite nonzero value (−1)^s × m × 2^q in an accumulator (R201). -/
def accFinite {w : Nat} (off : Nat) (s : Bool) (m : Nat) (q : Int) : AccW w :=
  let mag := m <<< (q + off).toNat
  { a := BitVec.ofInt w (if s then -(mag : Int) else mag), zk := 0 }

/-- A floating-point element of format f with bits x and scale byte (MX, R204) as the state it enters with. -/
def enterFloat {w : Nat} (off : Nat) (f : FloatFmt) (x scale : Nat) : AccW w :=
  let s := x.testBit (f.E + f.F)
  let e := x / 2 ^ f.F % 2 ^ f.E
  let fr := x % 2 ^ f.F
  let eMax := 2 ^ f.E - 1
  if f.mx ∧ scale = 0xFF then accNaN
  else if f.ieee ∧ e = eMax then (if fr = 0 then accInf s else accNaN)
  else if f.e4m3 ∧ e = eMax ∧ fr = 2 ^ f.F - 1 then accNaN
  else if e = 0 ∧ fr = 0 then accZero s
  else
    let m := if e = 0 then fr else 2 ^ f.F + fr
    let q : Int := (if e = 0 then 1 else (e : Int)) - f.bias - f.F
    accFinite off s m (if f.mx then q + scale - 127 else q)

/-- An integer element of n bits (R205). -/
def enterInt {w : Nat} (off n x : Nat) : AccW w :=
  let v : Int := (BitVec.ofNat n x).toInt
  if v = 0 then accZero false else accFinite off (decide (v < 0)) v.natAbs 0

/-- One element of an input format: its bits, and its block's scale byte. -/
def enter {w : Nat} (off code x : Nat) (scale : Nat := 127) : AccW w :=
  match floatFmt code, intFmt code with
  | some f, _ => enterFloat off f x scale
  | none, some n => enterInt off n x
  | none, none => accNaN

/-- Element i of a packed byte string of width w bits per element, little-endian (R204). -/
def elemBits (bs : List Byte) (w i : Nat) : Nat :=
  field bs (w * i / 8) (ceilDiv (w * i % 8 + w) 8) / 2 ^ (w * i % 8) % 2 ^ w

/-- Element i of an input of a format, with its separate scale array for MX formats. -/
def enterAt {w : Nat} (off code : Nat) (bs scales : List Byte) (i : Nat) : AccW w :=
  enter off code (elemBits bs (fmtBits code) i) (if isMX code then (byteAt scales (i / 32)).toNat else 127)

/-! ### Combining -/

/-- Combining two accumulators for a sum (R198, R199). -/
def accAdd {w : Nat} (x y : AccW w) : AccW w :=
  { a := x.a + y.a
    zk := if x.zk = 0 ∨ y.zk = 0 then 0 else if x.zk = 2 ∧ y.zk = 2 then 2 else 1
    nan := x.nan || y.nan, pinf := x.pinf || y.pinf, ninf := x.ninf || y.ninf, bad := x.bad || y.bad }

/-- The order of two selected values without NaN: −∞ lowest, −0 below +0 (R223): x < y. -/
def accLt {w : Nat} (x y : AccW w) : Bool :=
  if x.ninf then !y.ninf
  else if y.ninf then false
  else if y.pinf then !x.pinf
  else if x.pinf then false
  else if x.a = 0 ∧ y.a = 0 then x.zk = 1 && y.zk ≠ 1
  else x.a.toInt < y.a.toInt

/-- A maximum or minimum of two selections; empty is the identity, NaN wins (R223). -/
def accSelect {w : Nat} (isMax : Bool) (x y : AccW w) : AccW w :=
  let bad := x.bad || y.bad
  if x.nan || y.nan then { (accNaN : AccW w) with bad := bad }
  else if x.zk = 2 then { y with bad := bad }
  else if y.zk = 2 then { x with bad := bad }
  else if (if isMax then accLt x y else accLt y x) then { y with bad := bad } else { x with bad := bad }

/-- Combining by kind: 0 sum, 1 maximum, 2 minimum. -/
def accComb {w : Nat} (kind : Nat) (x y : AccW w) : AccW w :=
  match kind with | 0 => accAdd x y | 1 => accSelect true x y | _ => accSelect false x y

/-! ### Partial encodings (R206 to R209, R230) -/

/-- The state bits [12:8] of an index word. -/
def stateBits {w : Nat} (x : AccW w) : Nat :=
  (x.zk + 4 * b2n x.nan + 8 * b2n x.pinf + 16 * b2n x.ninf) * 256

/-- The first rule of R208 applies: A is discarded. -/
def isSpecial {w : Nat} (x : AccW w) : Bool := x.nan || x.pinf || x.ninf || x.zk ≠ 0 || x.a = 0

/-- Trailing zero words of A, at most `most`. -/
def zeroWords (ws : Nat) : (most a : Nat) → Nat
  | 0, _ => 0
  | n + 1, a => if a % 2 ^ ws = 0 then 1 + zeroWords ws n (a / 2 ^ ws) else 0

/-- A canonical partial (R208): the form (true: long) and its bytes. `ws` bits per word, `most` the largest BASE; a
window is 128 bits; the DW-form has 4 zero bytes more. -/
def encodePartial {w : Nat} (ws most pad : Nat) (x : AccW w) : Bool × List Byte :=
  if isSpecial x then
    (false, List.replicate 16 0 ++ leBytes 4 (stateBits x) ++ List.replicate pad 0)
  else
    let base := zeroWords ws most x.a.toNat
    let win : Int := x.a.toInt / (2 ^ (ws * base) : Nat)
    if -(2 ^ 127 : Int) ≤ win ∧ win < 2 ^ 127 then
      (false, leBytes 16 (BitVec.ofInt 128 win).toNat ++ leBytes 4 (base + stateBits x) ++ List.replicate pad 0)
    else (true, leBytes (w / 8) x.a.toNat)

/-- W-form or L-form (R208). -/
def encodeW (x : Acc) : Bool × List Byte := encodePartial 32 8 0 x
/-- DW-form or DL-form (R230). -/
def encodeDW (x : DAcc) : Bool × List Byte := encodePartial 64 32 4 x

/-- A long partial: state ordinary (R207). -/
def decodeLong {w : Nat} (bs : List Byte) : AccW w := { a := BitVec.ofNat w (ofLe bs), zk := 0 }

/-- An invalid partial combines as a NaN input (R209). -/
def accBad {w : Nat} : AccW w := { zk := 0, nan := true, bad := true }

/-- A windowed partial; `baseBits` bits of the index word hold BASE (R206, R209, R230). -/
def decodeWindow {w : Nat} (ws most baseBits pad : Nat) (bs : List Byte) : AccW w :=
  let win : Int := (BitVec.ofNat 128 (field bs 0 16)).toInt
  let ix := field bs 16 4
  let base := ix % 2 ^ baseBits
  let zk := bits ix 9 8
  let reserved := ix / 2 ^ 13 ≠ 0 || bits ix 7 baseBits ≠ 0 || field bs 20 pad ≠ 0
  if base > most ∨ zk = 3 ∨ reserved then accBad
  else { a := BitVec.ofInt w (win * ((2 ^ (ws * base) : Nat) : Int)), zk := zk, nan := ix.testBit 10,
         pinf := ix.testBit 11, ninf := ix.testBit 12 }

/-- A partial of the seams and darners; the packet marks its form. -/
def decodeW (long : Bool) (bs : List Byte) : Acc := if long then decodeLong bs else decodeWindow 32 8 4 0 bs
def decodeDW (long : Bool) (bs : List Byte) : DAcc := if long then decodeLong bs else decodeWindow 64 32 6 4 bs

/-! ### Output formats and final rounding (R211 to R220) -/

/-- A floating-point output format (R212): bytes, p, emin, emax, infinities, the largest finite value and the
canonical NaN as bits, exponent field width and bias. -/
structure OutFmt where
  size : Nat
  p : Nat
  emin : Int
  emax : Int
  inf : Bool
  maxBits : Nat
  nanBits : Nat
  E : Nat
  bias : Nat
deriving DecidableEq, Repr

def outFmt (code : Nat) : Option OutFmt :=
  match code with
  | 0x00 => some {
      size := 4, p := 24, emin := -126, emax := 127, inf := true, maxBits := 0x7F7FFFFF,
      nanBits := 0x7FC00000, E := 8, bias := 127 }
  | 0x01 => some {
      size := 2, p := 11, emin := -14, emax := 15, inf := true, maxBits := 0x7BFF, nanBits := 0x7E00,
      E := 5, bias := 15 }
  | 0x02 => some {
      size := 2, p := 8, emin := -126, emax := 127, inf := true, maxBits := 0x7F7F, nanBits := 0x7FC0,
      E := 8, bias := 127 }
  | 0x03 => some {
      size := 1, p := 4, emin := -6, emax := 8, inf := false, maxBits := 0x7E, nanBits := 0x7F,
      E := 4, bias := 7 }
  | 0x04 => some {
      size := 1, p := 3, emin := -14, emax := 15, inf := true, maxBits := 0x7B, nanBits := 0x7E,
      E := 5, bias := 15 }
  | 0x18 => some {
      size := 8, p := 53, emin := -1022, emax := 1023, inf := true, maxBits := 0x7FEFFFFFFFFFFFFF,
      nanBits := 0x7FF8000000000000, E := 11, bias := 1023 }
  | _ => none

/-- The bytes of one element of an output format (R212). -/
def outSize (code : Nat) : Nat :=
  match outFmt code, intFmt code with
  | some f, _ => f.size
  | none, some n => n / 8
  | none, none => if code = 0x1E then 64 else if code = 0x1F then 288 else 0

/-- away() of the rounding modes (R214): RMODE, sign, n, remainder, shift, dither. -/
def roundsAway (rmode : Nat) (s : Bool) (n rem sh d : Nat) : Bool :=
  match rmode with
  | 0 => decide (2 * rem > 2 ^ sh) || (decide (2 * rem = 2 ^ sh) && decide (n % 2 = 1))
  | 1 => false
  | 2 => !s
  | 3 => s
  | 4 => decide (2 * rem ≥ 2 ^ sh)
  | _ => decide (rem * 2 ^ 32 / 2 ^ sh + d ≥ 2 ^ 32)

/-- The sign bit of a format. -/
def signOf (f : OutFmt) (s : Bool) : Nat := if s then 2 ^ (8 * f.size - 1) else 0

/-- The infinity of a format, or its canonical NaN in E4M3 (R216, R220). -/
def infBits (f : OutFmt) (s : Bool) : Nat :=
  if f.inf then signOf f s + (2 ^ f.E - 1) * 2 ^ (f.p - 1) else f.nanBits

/-- An element that overflows (R216), its remainder rem: its bits and flags. -/
def overflowOut (f : OutFmt) (s : Bool) (rmode : Nat) (sat : Bool) (rem : Nat) : Nat × Byte :=
  let toInf := match rmode with | 1 => false | 2 => !s | 3 => s | _ => true
  if sat then (signOf f s + f.maxBits, overflowFlags rem true false false)
  else if toInf then (infBits f s, overflowFlags rem false true f.inf)
  else (signOf f s + f.maxBits, overflowFlags rem false false false)

/-- n × 2^q with sign as bits of a format; n is below 2^(p−1) only in the lowest binade (R214). -/
def encodeFloat (f : OutFmt) (s : Bool) (n : Nat) (q : Int) : Nat :=
  if n < 2 ^ (f.p - 1) then signOf f s + n
  else signOf f s + (q + f.p - 1 + f.bias).toNat * 2 ^ (f.p - 1) + (n - 2 ^ (f.p - 1))

/-- The largest finite value as n × 2^q: the rounded value is beyond it (R214, R216). -/
def beyondMax (f : OutFmt) (n : Nat) (q : Int) : Bool :=
  let maxN := f.maxBits % 2 ^ (f.p - 1) + 2 ^ (f.p - 1)
  let maxQ : Int := f.emax - (f.p - 1)
  q > maxQ || (q = maxQ && n > maxN)

/-- The final rounding of a nonzero ordinary element to a floating-point format (R214, R217). -/
def roundOut {w : Nat} (off : Nat) (x : AccW w) (f : OutFmt) (rmode : Nat) (sat : Bool) (d : Nat) : Nat × Byte :=
  let s := x.a.toInt < 0
  let mg := x.a.toInt.natAbs
  let e : Int := (Nat.log2 mg : Int) - off
  let q : Int := max e f.emin - (f.p - 1)
  let sh := (q + off).toNat
  let n := mg >>> sh
  let rem := mg - (n <<< sh)
  let n1 := if rem ≠ 0 ∧ roundsAway rmode s n rem sh d then n + 1 else n
  let rp := if n1 = 2 ^ f.p then (n1 / 2, q + 1) else (n1, q)
  let n2 := rp.1
  let q2 := rp.2
  if beyondMax f n2 q2 then overflowOut f s rmode sat rem
  else (encodeFloat f s n2 q2, roundFlags rem (decide (e < f.emin)))

/-- The final rounding to an integer format of n bits (R218). -/
def roundInt {w : Nat} (off : Nat) (x : AccW w) (nb rmode d : Nat) : Nat × Byte :=
  let s := x.a.toInt < 0
  let mg := x.a.toInt.natAbs
  let n := mg >>> off
  let rem := mg - (n <<< off)
  let n1 := if rem ≠ 0 ∧ roundsAway rmode s n rem off d then n + 1 else n
  let v : Int := if s then -(n1 : Int) else n1
  let lo : Int := -(2 ^ (nb - 1) : Nat)
  let hi : Int := (2 ^ (nb - 1) : Nat) - 1
  let c := max lo (min hi v)
  ((BitVec.ofInt nb c).toNat, flagIf (decide (rem ≠ 0)) xInexact ||| flagIf (decide (c ≠ v)) xSat)

/-- Final delivery of a sum, maximum or minimum element to an output format: its bytes and XFLAGS (R211, R213, R218 to
R220, R231, R232). -/
def deliver {w : Nat} (off : Nat) (x : AccW w) (code rmode : Nat) (sat : Bool) (d : Nat) : List Byte × Byte :=
  let size := outSize code
  let badF := flagIf x.bad xInvalid
  let fin (r : Nat × Byte) : List Byte × Byte := (leBytes size r.1, r.2 ||| badF)
  if code = 0x1E ∨ code = 0x1F then
    let a := if isSpecial x then 0 else x.a.toNat
    (padTo size (leBytes (w / 8) a ++ leBytes 4 (stateBits x)), rawFlags x.nan x.pinf x.ninf x.bad)
  else
    match outFmt code, intFmt code with
    | some f, _ =>
      if x.nan then fin (f.nanBits, xNanIn)
      else if x.pinf && x.ninf then fin (f.nanBits, xInvalid)
      else if x.pinf then fin (infBits f false, if f.inf then xInfOut else xInvalid)
      else if x.ninf then fin (infBits f true, if f.inf then xInfOut else xInvalid)
      else if x.zk = 1 then fin (signOf f true, 0)
      else if x.zk = 2 ∨ x.a = 0 then fin (if rmode = 3 then signOf f true else 0, 0)
      else fin (roundOut off x f rmode sat d)
    | none, some nb =>
      if x.nan then fin (0, xNanIn)
      else if x.pinf && x.ninf then fin (0, xInvalid)
      else if x.pinf then fin (2 ^ (nb - 1) - 1, xSat)
      else if x.ninf then fin (2 ^ (nb - 1), xSat)
      else if x.zk = 1 ∨ x.zk = 2 ∨ x.a = 0 then fin (0, 0)
      else fin (roundInt off x nb rmode d)
    | none, none => ([], 0)

/-- The dither of an output element (R215). -/
def dither (ctx group gseq element epoch : Nat) (seed : DWord) : Nat :=
  field (sha3 ([0x58, 0x44, 0x49, 0x54] ++ leBytes 2 ctx ++ leBytes 2 group ++ leBytes 8 gseq ++ leBytes 8 element ++
    leBytes 4 epoch ++ leBytes 4 0 ++ leBytes 8 seed.toNat)) 0 4

/-! ### XCTL (R221, R222) -/

def xInFmt (x : Word) : Nat := wbits x 4 0
def xOutFmt (x : Word) : Nat := wbits x 12 8
def xRmode (x : Word) : Nat := wbits x 18 16
def xSatOvf (x : Word) : Bool := x.toNat.testBit 20

/-- What an XCTL is checked for: a sum, maximum or minimum; a sort, gather or filter; another operation. -/
inductive XOp where
  | combine | move | other
deriving DecidableEq, Repr

/-- XA_BAD_FORMAT (R222): the operation, whether it is a seam, whether it runs on a seam engine. -/
def xctlBad (x : Word) (op : XOp) (isSeam onEngine : Bool) : Bool :=
  let i := xInFmt x
  let o := xOutFmt x
  wbits x 31 21 ≠ 0 || x.toNat.testBit 19 || wbits x 15 13 ≠ 0 || wbits x 7 5 ≠ 0 ||
    !isInFmt i || outSize o = 0 || xRmode x > 5 ||
    (i = 0x18 && !(o = 0x18 || o = 0x00 || o = 0x1F)) ||
    (i ≠ 0x18 && (o = 0x18 || o = 0x1F)) ||
    (xRmode x = 5 && !isSeam) ||
    ((isMX i || i = 0x18) && op ≠ .combine) ||
    (op = .move && (o ≠ i || xRmode x ≠ 0)) ||
    (i = 0x18 && !onEngine)

/-! ### Sort keys (R224) -/

/-- The accepted key formats (R224). -/
def isKeyFmt (code : Nat) : Bool := (code ≤ 4) || (intFmt code).isSome

/-- The transformed key u of a key's bits (R224). -/
def sortKey (code k : Nat) : Nat :=
  let w := fmtBits code
  if (intFmt code).isSome then k ^^^ 2 ^ (w - 1)
  else if k.testBit (w - 1) then 2 ^ w - 1 - k else k ||| 2 ^ (w - 1)

end Sys2Proof.Machine
end

