-- ==== Sys2Proof/Machine/Patch.lean ====
section
/-! DEFINITION. The patch machine of a darner (09): bindings, the store and its library, operand classes, guards, loops,
sections and groups, budgets and faults. One command of the table executes the instruction at the darner's PC. -/
namespace Sys2Proof.Machine

/-! ### Bindings (R294, R295) -/

/-- A binding entry's words. -/
abbrev Bind := List Word

def bw (b : Bind) (i : Nat) : Word := b.getD i 0
def bKeyed (b : Bind) : Bool := (bw b 0).toNat.testBit 12
def bWhole (b : Bind) : Bool := (bw b 0).toNat.testBit 11
def bBudget (b : Bind) : Nat := wbits (bw b 0) 7 0
def bPro (b : Bind) : Nat := wbits (bw b 1) 31 22
def bBody (b : Bind) : Nat := wbits (bw b 1) 21 12
def bEpi (b : Bind) : Nat := wbits (bw b 1) 11 2
def bXctl (b : Bind) : Word := bw b 2
def bFmt (b : Bind) : Nat := xInFmt (bXctl b)
def bRes (b : Bind) (i : Nat) : Bool := (bw b 3).toNat.testBit i
def bSel (b : Bind) (i : Nat) : Bool := (bw b 4).toNat.testBit i
def bMin (b : Bind) (i : Nat) : Bool := (bw b 5).toNat.testBit i

/-- Elements of a lane group of an input format (R236), 4 in the keyed layout (R295). -/
def groupSize (b : Bind) : Nat :=
  if bKeyed b then 4 else match fmtBits (bFmt b) with | 32 => 4 | 16 => 8 | _ => 16

/-- No entry: 0x3FF. -/
def noEntry : Nat := 0x3FF

/-- R296 item 1 of an entry that matches: no BUDGET, a BODY above 0x2FF, MINMASK outside SELMASK, a reserved field, a
prologue or epilogue in a chunked binding. -/
def bindBad (b : Bind) : Bool :=
  bBudget b = 0 || bBody b > 0x2FF || decide (bw b 5 &&& ~~~(bw b 4) ≠ 0) ||
    decide (bw b 0 &&& 0xE700 ≠ 0) || decide (bw b 1 &&& 3 ≠ 0) ||
    (!bWhole b && (bPro b ≠ noEntry || bEpi b ≠ noEntry))

/-! ### The patch store (R288, R293, R298) -/

/-- The words of a patch instruction (R279). -/
def pword (op : Nat) (f : PFields) : DWord :=
  w64 (op * 2 ^ 58 + b2n f.pn * 2 ^ 57 + f.pg % 8 * 2 ^ 54 + f.d % 64 * 2 ^ 48 + f.a % 64 * 2 ^ 42 + f.b % 64 * 2 ^ 36 +
    f.m % 16 * 2 ^ 32 + f.imm.toNat)

/-- A library word without guard inversion: OP, PG, D, A, B, M, IMM. -/
def lw (op pg d a b m imm : Nat) : DWord :=
  pword op { pg := pg, d := d, a := a, b := b, m := m, imm := w32 imm }

/-- The library from 0x200 (R298): the instructions of each patch, whose number its address range fixes and whose effect
the table gives (DEDUCED, log 9). X is 0x08, K 0x09, S0 0x10, LI0 0x1A, IMM 0x1F, A0 0x20. -/
def library : List DWord :=
  [ /- SUM -/ lw 0x18 0 0x20 8 0 0 0, lw 1 0 0 0 0 0 0,
    /- ABSMAX -/ lw 9 0 0 8 0 0 0, lw 0x1A 0 0x20 0 0 0 0, lw 1 0 0 0 0 0 0,
    /- SELECT -/ lw 0x1A 0 0x20 8 0 0 0, lw 1 0 0 0 0 0 0,
    /- COUNT_NAN -/ lw 0x11 0 1 8 0 1 0, lw 0x19 1 0x20 0 0 0 0, lw 1 0 0 0 0 0 0,
    /- COPY -/ lw 0x20 0 0 8 0 0 0, lw 1 0 0 0 0 0 0,
    /- FILTER_GE -/ lw 0x10 0 1 8 0x10 5 0, lw 0x20 1 0 8 0 0 0, lw 1 0 0 0 0 0 0,
    /- FILTER_RANGE -/ lw 0x10 0 1 8 0x10 5 0, lw 0x10 1 1 8 0x11 2 0, lw 0x20 1 0 8 0 0 0, lw 1 0 0 0 0 0 0 ] ++
  [ /- FILTER_GE_IDX -/ lw 0x10 0 1 8 0x10 5 0, lw 0x20 1 0 8 0 1 0, lw 1 0 0 0 0 0 0,
    /- KEYED_SUM -/ lw 0x18 0 0x21 8 0 0 0, lw 4 0 0 0x1F 9 0 4, lw 0x13 0 1 0x1A 0 0 0, lw 0xB 1 0x10 9 0x1A 0 0,
    lw 0x10 1 2 0x15 0x1F 0 1, lw 0x10 2 2 0x10 0x14 1 0, lw 0x21 2 0 0x14 0x20 0 0, lw 0x1B 2 0x20 0 0 0 0,
    lw 8 1 0x14 0x10 0 0 0, lw 8 1 0x15 0x1F 0 0 1, lw 0x18 1 0x20 8 0 0 0, lw 1 0 0 0 0 0 0,
    /- its epilogue -/ lw 0x10 0 2 0x15 0x1F 0 1, lw 0x21 2 0 0x14 0x20 0 0, lw 1 0 0 0 0 0 0 ]

/-- A library word: OP 0x3F where no built-in patch lies, and before the FMC has loaded the library (R288, R293). -/
def libWord (s : State) (addr : Nat) : DWord :=
  if s.fw.running then library.getD (addr - 0x200) (lw 0x3F 0 0 0 0 0 0) else lw 0x3F 0 0 0 0 0 0

/-- Key of an instruction of a bank of a logical tile. -/
def bankKey (die n bank i : Nat) : Nat := (tk die n * 2 + bank) * 512 + i
def bankWord (s : State) (die n bank i : Nat) : DWord := look 0 s.dr.banks (bankKey die n bank i)

/-- What a darner fetches at an address from its bank and the library. -/
def fetchWord (s : State) (die n bank addr : Nat) : DWord :=
  if addr < 0x200 then bankWord s die n bank addr else libWord s addr

def opOf (w : DWord) : Nat := bits w.toNat 63 58

/-- The opcodes the table defines. -/
def isOp (op : Nat) : Bool :=
  op ≤ 4 || (8 ≤ op && op ≤ 0xD) || (0x10 ≤ op && op ≤ 0x15) || (0x18 ≤ op && op ≤ 0x1B) || op = 0x20 || op = 0x21

/-! ### Vectors, scalars, predicates -/

/-- Element e of width w of a vector. -/
def vElem (w : Nat) (v : Vec) (e : Nat) : Nat := v.bits.toNat / 2 ^ (w * e) % 2 ^ w

/-- A vector of elements of width w. -/
def vPack (w : Nat) : List Nat → Nat
  | [] => 0
  | x :: xs => x % 2 ^ w + 2 ^ w * vPack w xs
def vMake (w : Nat) (xs : List Nat) (tag : Byte) : Vec := { bits := BitVec.ofNat 128 (vPack w xs), tag := tag }

/-- The elements of a vector. -/
def vList (w g : Nat) (v : Vec) : List Nat := (List.range g).map (vElem w v)

/-- A vector operand: V0 to V7, X, K (four 32-bit keys). -/
def vRead (m : Mach) (r : Nat) : Vec :=
  if r < 8 then look {} m.v r else if r = 8 then m.x else { bits := m.k }

/-- The format of a vector operand: INT32 for K, otherwise the input format. -/
def vFmt (m : Mach) (r : Nat) : Nat := if r = 9 then 0x12 else bFmt m.bind

/-- The iteration index of the active loop of a level, 0 outside it. -/
def loopIdx (m : Mach) (l : Nat) : Nat :=
  match m.loops.find? fun x => x.level = l with | some x => x.idx | none => 0

/-- A scalar operand. -/
def sRead (m : Mach) (r : Nat) (imm : Word) : Word :=
  if r = 0x1F then imm
  else if r < 0x18 then look 0 m.s (r - 0x10)
  else if r < 0x1A then look 0 m.lc (r - 0x18)
  else if r < 0x1C then w32 (loopIdx m (r - 0x1A))
  else w32 m.gidx

/-- A write of S0 to S7, LC0, LC1. -/
def sWrite (r : Nat) (v : Word) (m : Mach) : Mach :=
  if r < 0x18 then { m with s := put 0 m.s (r - 0x10) v } else { m with lc := put 0 m.lc (r - 0x18) v }

/-- A predicate register; P0 is read-only. -/
def pRead (m : Mach) (i : Nat) : Nat := if i % 8 = 0 then m.p0.toNat else (look 0 m.p (i % 8)).toNat
def pWrite (i v : Nat) (m : Mach) : Mach := { m with p := put 0 m.p (i % 8) (BitVec.ofNat 16 v) }

/-- The guard's mask (R278). -/
def guardMask (m : Mach) (f : PFields) : Nat := (pRead m f.pg ^^^ (if f.pn then 0xFFFF else 0)) &&& m.p0.toNat

/-- The number of 1 bits of a mask. -/
def popcount (x : Nat) : Nat := ((List.range 16).filter fun i => x.testBit i).length

/-- A slot of the darner; an empty slot is the state with ZK 2. -/
def slotOf (m : Mach) (i : Nat) : Acc := look {} m.slots i
def setSlot (i : Nat) (a : Acc) (m : Mach) : Mach := { m with slots := put {} m.slots i a }

/-! ### Operand classes (R279, R283) -/

def clsV (r : Nat) : Bool := r < 10
def clsVD (r : Nat) : Bool := r < 8
def clsS (r : Nat) : Bool := (0x10 ≤ r && r ≤ 0x1C) || r = 0x1F
def clsSD (r : Nat) : Bool := 0x10 ≤ r && r ≤ 0x19
def clsA (r : Nat) : Bool := 0x20 ≤ r && r < 0x40
/-- A predicate destination: not P0. -/
def clsPD (r : Nat) : Bool := r % 8 ≠ 0

/-! ### Groups and sections (R274, R275, R277) -/

/-- Group with element 0 at run index gi: X, K, P0, GIDX; a chunked binding starts from its initial state (R275). -/
def loadGroup (gi : Nat) (m : Mach) : Mach :=
  let b := m.bind
  let g := groupSize b
  let w := fmtBits (bFmt b)
  let i0 := gi - m.first
  let n := min g (m.count - gi)
  let elem (e : Nat) : Nat := if e < n then
      (if bKeyed b then field m.input (8 * (i0 + e) + 4) 4 else elemBits m.input w (i0 + e)) else 0
  let key (e : Nat) : Nat := if bKeyed b ∧ e < n then field m.input (8 * (i0 + e)) 4 else 0
  let tag : Byte := if isMX (bFmt b) then byteAt m.scales (i0 / 32) else 0x7F
  let m := { m with
    gidx := gi, pc := bBody b, sect := .body, loops := [], bodyCount := 0,
    x := vMake w ((List.range g).map elem) tag,
    k := BitVec.ofNat 128 (vPack 32 ((List.range 4).map key)),
    p0 := BitVec.ofNat 16 (2 ^ n - 1) }
  if bWhole b then m
  else { m with v := [], s := (List.range 4).foldl (fun t i => put 0 t i (bw b (6 + i))) [], lc := [], p := [], slots := [] }

/-- P0 of a prologue or epilogue: bits [G − 1:0]. -/
def allP0 (b : Bind) : BitVec 16 := BitVec.ofNat 16 (2 ^ groupSize b - 1)

/-- A section without a current group, the prologue or the epilogue: GIDX, X and the keys of K are free (the manual gives
them no value there; log 24), one value for each binding, COUNT and input (R395). -/
def noGroup (free : Nat) (m : Mach) : Mach :=
  { m with p0 := allP0 m.bind, gidx := free % 2 ^ 32, x := { bits := BitVec.ofNat 128 free, tag := BitVec.ofNat 8 free },
           k := if bKeyed m.bind then BitVec.ofNat 128 free else 0, loops := [] }

/-- The start of a PATCH task: its prologue, or its first group. -/
def startMach (b : Bind) (first count : Nat) (input scales : List Byte) : Mach :=
  let free := Config.freePatch b count input 0
  let m : Mach := { bind := b, first := first, count := first + count, input := input, scales := scales,
                    epiFree := Config.freePatch b count input 1 }
  if bWhole b then
    let m := { m with s := (List.range 4).foldl (fun t i => put 0 t i (bw b (6 + i))) [] }
    if bPro b ≠ noEntry then
      noGroup free { m with sect := .prologue, pc := bPro b }
    else loadGroup first m
  else loadGroup first m

/-- The result slots of a binding. -/
def resSlots (b : Bind) : List Nat := (List.range 32).filter (bRes b)

/-- Combines a slot value of a binding: a sum, or a selection in the slot's direction (R199, R223). -/
def combSlot (b : Bind) (i : Nat) (x y : Acc) : Acc := accComb (if bSel b i then (if bMin b i then 2 else 1) else 0) x y

/-- Results combined slot by slot (R249, R277). -/
def joinResults (b : Bind) (xs ys : SMap Acc) : SMap Acc :=
  (resSlots b).foldl (fun r i => put {} r i (combSlot b i (look {} xs i) (look {} ys i))) []

/-- The task is over: a whole-run binding's result slots are its results. -/
def finishMach (m : Mach) : Mach :=
  { m with sect := .done, results := if bWhole m.bind then joinResults m.bind [] m.slots else m.results }

/-- The epilogue, where the binding has one. -/
def startEpi (m : Mach) : Mach :=
  if bEpi m.bind ≠ noEntry then
    noGroup m.epiFree { m with sect := .epilogue, pc := bEpi m.bind }
  else finishMach m

/-- The section's buffered records are written, or discarded. -/
def flushRecs (write : Bool) (m : Mach) : Mach :=
  { m with records := if write then m.records ++ m.buffered else m.records, buffered := [] }

/-- The end of a group: a chunked binding combines its result slots; the next group, or the end (R274, R277). -/
def endGroup (skip : Bool) (m : Mach) : Mach :=
  let m := if bWhole m.bind then m else { m with results := joinResults m.bind m.results m.slots }
  let gi := m.gidx + groupSize m.bind
  if skip ∨ gi ≥ m.count then (if bWhole m.bind then startEpi m else finishMach m) else loadGroup gi m

/-- NEXT (write), DROP (not write), HALT (skip) end the section (R274). -/
def endSection (write skip : Bool) (m : Mach) : Mach :=
  let m := flushRecs write m
  match m.sect with
  | .prologue => if skip then startEpi m else loadGroup m.first { m with loops := [] }
  | .body => endGroup skip m
  | .epilogue | .done => finishMach m

/-- The PC after an instruction at its PC, with the loops that end there (R281). Fuel: the loops. -/
def loopBack : (fuel : Nat) → (pc : Nat) → List LoopSt → Nat × List LoopSt
  | 0, pc, ls => (pc, ls)
  | _ + 1, pc, [] => (pc, [])
  | n + 1, pc, l :: ls =>
    if pc = l.last + 1 then
      if l.left > 1 then (l.first, { l with left := l.left - 1, idx := l.idx + 1 } :: ls)
      else loopBack n pc ls
    else (pc, l :: ls)

/-- The PC moves past the instruction and `skip` more. -/
def advance (skip : Nat) (m : Mach) : Mach :=
  let rp := loopBack 3 (m.pc + 1 + skip) m.loops
  let pc := rp.1
  let ls := rp.2
  { m with pc := pc, loops := ls }

/-! ### Budgets and faults (R284 to R286) -/

/-- The instruction would exceed its budget (R285). -/
def overBudget (m : Mach) : Bool :=
  match m.sect with
  | .body => m.bodyCount ≥ bBudget m.bind
  | _ => m.sideCount ≥ 16

/-- Counts one instruction. -/
def countInstr (m : Mach) : Mach :=
  match m.sect with
  | .body => { m with bodyCount := m.bodyCount + 1 }
  | _ => { m with sideCount := m.sideCount + 1 }

/-- A darner of a tile; a change of it. -/
def drnTile (s : State) (die n : Nat) : DrnTile := look {} s.dr.tiles (tk die n)
def modDrn (die n : Nat) (f : DrnTile → DrnTile) (s : State) : State :=
  { s with dr := { s.dr with tiles := upd {} s.dr.tiles (tk die n) f } }
def darnerOf (s : State) (die n d : Nat) : Darner := look {} (drnTile s die n).darners d
def modDarner (die n d : Nat) (f : Darner → Darner) : State → State :=
  modDrn die n fun t => { t with darners := upd {} t.darners d f }

/-- The page of a tile's darners. -/
def drnPage (s : State) (die n : Nat) : Nat := tpage (physTile s die n) 4

/-- The logical mesh neighbour in direction 0 E, 1 W, 2 N, 3 S (R260); none at the edge. -/
def meshNeighbour (die n dir : Nat) : Option Nat :=
  let c := tCol die n
  let r := tRow die n
  match dir with
  | 0 => if c + 1 < nCols die then some (mkTile die (c + 1) r) else none
  | 1 => if c > 0 then some (mkTile die (c - 1) r) else none
  | 2 => if r + 1 < nRows die then some (mkTile die c (r + 1)) else none
  | _ => if r > 0 then some (mkTile die c (r - 1)) else none

/-- The tile whose queue held the darner's task: its own, or the victim's (R261). -/
def ownerTile (die n : Nat) (d : Darner) : Nat :=
  if d.from_ = 0 then n else (meshNeighbour die n (d.from_ - 1)).getD n

/-- The fault source bit of a patch code. -/
def patchBit (code : Nat) : Nat := match code with | 0x40 => 1 | 0x41 => 4 | 0x44 => 5 | _ => 6

/-- A patch fault stops the task: PATCH_FAULT on the run's tile, the fault, no record of the chunk (R286). -/
def patchFault (u : DrnRef) (code : Nat) (s : State) : State :=
  let d := darnerOf s u.die u.tile u.darner
  let n := ownerTile u.die u.tile d
  let ctx := match d.task with | some t => t.ctx | none => 0
  let s := modDarner u.die u.tile u.darner (fun d => { d with mach := { d.mach with
    sect := .done, fault := code, records := [], buffered := [] } }) s
  raise u.die (drnPage s u.die n) (patchBit code) (some ctx) (w32 d.mach.pc)
    (setReg u.die (drnPage s u.die n) 0x1E0 0 (w32 (d.mach.pc * 2 ^ 22 + ctx * 2 ^ 11 + code)) s)

/-- The instruction at the PC cannot be one of the table's: a reserved OP, an address above 0x2FF (R283). -/
def badFetch (s : State) (u : DrnRef) (d : Darner) : Bool :=
  d.mach.sect ≠ .done && (d.mach.pc > 0x2FF || !isOp (opOf (fetchWord s u.die u.tile d.bank d.mach.pc)))

/-- After a move of the PC: an instruction that no command of the table executes faults at once, after its budget. -/
def fetchCheck (u : DrnRef) (s : State) : State :=
  let d := darnerOf s u.die u.tile u.darner
  if badFetch s u d then patchFault u (if overBudget d.mach then 0x40 else 0x41) s else s

/-- The outcome of one instruction: the machine after it, or a fault before it. -/
inductive PRes where
  | ok (m : Mach)
  | fault (code : Nat)

/-- The darner runs a PATCH task, is not stopped by the safe state, a reset, and the instruction at its PC is this one. -/
def canPatch (s : State) (u : DrnRef) (op : Nat) (f : PFields) : Bool :=
  let d := darnerOf s u.die u.tile u.darner
  (match d.task with | some t => t.kind = .patch | none => false) && d.mach.sect ≠ .done &&
    !isSafe s u.die && !tileQuiesced s u.die u.tile &&
    fetchWord s u.die u.tile d.bank d.mach.pc = pword op f && d.mach.pc ≤ 0x2FF

/-- One instruction of a darner: the budget, the parity of its fetch, legality, its effect under the guard's mask (R278, R283,
R285, R286). -/
def runPatch (u : DrnRef) (op : Nat) (f : PFields) (legal : State → Darner → Bool) (eff : Nat → Mach → PRes)
    (s : State) : State :=
  let d := darnerOf s u.die u.tile u.darner
  if canPatch s u op f then
    if overBudget d.mach then patchFault u 0x40 s
    else if u.parity then patchFault u 0x45 s
    else if legal s d then
      match eff (guardMask d.mach f) (countInstr d.mach) with
      | .fault c => patchFault u c s
      | .ok m => fetchCheck u (modDarner u.die u.tile u.darner (fun d => { d with mach := m }) s)
    else patchFault u 0x41 s
  else s

/-- An instruction that only changes registers, then moves to the next; `always`: it acts under an empty mask too. -/
def dataOp (always : Bool) (g : Nat → Mach → Mach) (mask : Nat) (m : Mach) : PRes :=
  .ok (advance 0 (if always ∨ mask ≠ 0 then g mask m else m))

/-- Records added to the section's buffer, at most 512 bytes (R284). -/
def addRecs (r : List Byte) (m : Mach) : PRes :=
  if m.buffered.length + r.length > 512 then .fault 0x44 else .ok (advance 0 { m with buffered := m.buffered ++ r })

end Sys2Proof.Machine
end

