-- ==== Sys2Proof/Machine/PatchIsa.lean ====
section
/-! DEFINITION. The patch instructions (R279 to R282), one definition per command. An instruction that the darner does not
have at its PC changes nothing (log 6). -/
namespace Sys2Proof.Machine

/-- M names no operation: it must be 0 (R283; DEDUCED, log 23). -/
def mZero (f : PFields) : Bool := f.m = 0

/-- nop. -/
def execNop (u : DrnRef) (f : PFields) (s : State) : Host.Outcome State Fault Refusal :=
  .next (runPatch u 0x00 f (fun _ _ => mZero f) (dataOp false fun _ m => m) s)

/-- next: end of section, its records are written (R274). -/
def execNext (u : DrnRef) (f : PFields) (s : State) : Host.Outcome State Fault Refusal :=
  .next (runPatch u 0x01 f (fun _ _ => mZero f)
    (fun mask m => .ok (if mask = 0 then advance 0 m else endSection true false m)) s)

/-- drop: end of section, its records are discarded (R274). -/
def execDrop (u : DrnRef) (f : PFields) (s : State) : Host.Outcome State Fault Refusal :=
  .next (runPatch u 0x02 f (fun _ _ => mZero f)
    (fun mask m => .ok (if mask = 0 then advance 0 m else endSection false false m)) s)

/-- halt: records written, remaining groups skipped, epilogue; illegal in a chunked binding (R274, R275). -/
def execHalt (u : DrnRef) (f : PFields) (s : State) : Host.Outcome State Fault Refusal :=
  .next (runPatch u 0x03 f (fun _ d => mZero f && bWhole d.mach.bind)
    (fun mask m => .ok (if mask = 0 then advance 0 m else endSection true true m)) s)

/-- The conditions of R281 on a LOOP at the PC that is not skipped: of an active loop, only a level-0 body bounds the body of a
level-1 LOOP. -/
def loopOk (s : State) (u : DrnRef) (d : Darner) (f : PFields) : Bool :=
  let m := d.mach
  let first := m.pc + 1
  let last := m.pc + f.b
  guardMask m f = 0 ||
    (m.loops.all (fun l => l.level ≠ f.m % 2) && last ≤ 0x2FF &&
      (f.m % 2 = 0 || m.loops.all fun l => decide (last ≤ l.last)) &&
      (List.range f.b).all fun i =>
        let o := opOf (fetchWord s u.die u.tile d.bank (first + i))
        !(o = 1 || o = 2 || o = 3))

/-- loop: the body repeats the latched count of times; skipped or 0 continues after it (R281). -/
def execLoop (u : DrnRef) (f : PFields) (s : State) : Host.Outcome State Fault Refusal :=
  .next (runPatch u 0x04 f
    (fun s d => f.m < 2 && clsS f.a && f.b ≠ 0 && loopOk s u d f)
    (fun mask m =>
      let n := (sRead m f.a f.imm).toNat % 2 ^ 16
      .ok (if mask = 0 ∨ n = 0 then advance f.b m
        else { m with pc := m.pc + 1, loops := { level := f.m % 2, first := m.pc + 1, last := m.pc + f.b, left := n, idx := 0 } :: m.loops }))
    s)

/-- The masked elements of a vector destination take new values; a vector copy takes the scale tag (R278). -/
def vUpdate (f : PFields) (g : Nat → Nat) (mask : Nat) (m : Mach) : Mach :=
  let n := groupSize m.bind
  let wd := fmtBits (bFmt m.bind)
  let ws := fmtBits (vFmt m f.a)
  let src := vRead m f.a
  let dst := vRead m f.d
  let xs := (List.range n).map fun e => if mask.testBit e then g (vElem ws src e) else vElem wd dst e
  { m with v := put {} m.v f.d (vMake wd xs src.tag) }

/-- mov: a vector, or a scalar, is copied. -/
def execMov (u : DrnRef) (f : PFields) (s : State) : Host.Outcome State Fault Refusal :=
  .next (runPatch u 0x08 f
    (fun _ _ => mZero f && ((clsVD f.d && clsV f.a) || (clsSD f.d && clsS f.a)))
    (dataOp false fun mask m =>
      if f.d < 8 then vUpdate f id mask m else sWrite f.d (sRead m f.a f.imm) m) s)

/-- abs of an element: the sign bit cleared; on integers two's-complement magnitude modulo 2^w. -/
def absElem (code x : Nat) : Nat :=
  let w := fmtBits code
  if (intFmt code).isSome then (if x.testBit (w - 1) then 2 ^ w - x else x) % 2 ^ w else x % 2 ^ (w - 1)

/-- neg of an element: the sign bit inverted; on integers negation modulo 2^w. -/
def negElem (code x : Nat) : Nat :=
  let w := fmtBits code
  if (intFmt code).isSome then (2 ^ w - x) % 2 ^ w else x ^^^ 2 ^ (w - 1)

/-- abs. -/
def execAbs (u : DrnRef) (f : PFields) (s : State) : Host.Outcome State Fault Refusal :=
  .next (runPatch u 0x09 f (fun _ _ => mZero f && clsVD f.d && clsV f.a)
    (dataOp false fun mask m => vUpdate f (absElem (vFmt m f.a)) mask m) s)

/-- neg. -/
def execNeg (u : DrnRef) (f : PFields) (s : State) : Host.Outcome State Fault Refusal :=
  .next (runPatch u 0x0A f (fun _ _ => mZero f && clsVD f.d && clsV f.a)
    (dataOp false fun mask m => vUpdate f (negElem (vFmt m f.a)) mask m) s)

/-- lane: the bits of element B mod G, zero-extended. -/
def execLane (u : DrnRef) (f : PFields) (s : State) : Host.Outcome State Fault Refusal :=
  .next (runPatch u 0x0B f (fun _ _ => mZero f && clsSD f.d && clsV f.a && clsS f.b)
    (dataOp false fun _ m =>
      let e := (sRead m f.b f.imm).toNat % groupSize m.bind
      sWrite f.d (w32 (vElem (fmtBits (vFmt m f.a)) (vRead m f.a) e)) m) s)

/-- setl: element B mod G of D takes the low w bits of A, where its mask bit is 1. -/
def execSetl (u : DrnRef) (f : PFields) (s : State) : Host.Outcome State Fault Refusal :=
  .next (runPatch u 0x0C f
    (fun _ d => mZero f && clsVD f.d && clsS f.a && clsS f.b && !isMX (bFmt d.mach.bind))
    (dataOp false fun mask m =>
      let n := groupSize m.bind
      let w := fmtBits (bFmt m.bind)
      let e := (sRead m f.b f.imm).toNat % n
      let dst := vRead m f.d
      let xs := (List.range n).map fun i =>
        if i = e ∧ mask.testBit e then (sRead m f.a f.imm).toNat else vElem w dst i
      { m with v := put {} m.v f.d (vMake w xs dst.tag) }) s)

/-- The operations of salu: 32-bit wrap, shifts by B mod 32. -/
def saluOp (op : Nat) (a b : Word) : Word :=
  match op with
  | 0 => a + b
  | 1 => a - b
  | 2 => a &&& b
  | 3 => a ||| b
  | 4 => a ^^^ b
  | 5 => a <<< (b.toNat % 32)
  | 6 => a >>> (b.toNat % 32)
  | _ => a.sshiftRight (b.toNat % 32)

/-- salu. -/
def execSalu (u : DrnRef) (f : PFields) (s : State) : Host.Outcome State Fault Refusal :=
  .next (runPatch u 0x0D f (fun _ _ => f.m < 8 && clsSD f.d && clsS f.a && clsS f.b)
    (dataOp false fun _ m => sWrite f.d (saluOp f.m (sRead m f.a f.imm) (sRead m f.b f.imm)) m) s)

/-- A comparison of two numbers or ordered values by condition code; none: unordered (R280). -/
def condHolds (m : Nat) (c : Option Ordering) : Bool :=
  match c with
  | none => m % 8 = 1
  | some o =>
    match m % 8 with
    | 0 => o = .eq | 1 => o ≠ .eq | 2 => o = .lt | 3 => o ≠ .gt | 4 => o = .gt | _ => o ≠ .lt

/-- Two elements, each of its format, by value: NaN is unordered, −0 equals +0 (R280). -/
def valueCmp (cx cy x y : Nat) : Option Ordering :=
  let a : Acc := enter 192 cx x
  let b : Acc := enter 192 cy y
  if a.nan || b.nan then none
  else if a.pinf && b.pinf || a.ninf && b.ninf then some .eq
  else if a.pinf || b.ninf then some .gt
  else if b.pinf || a.ninf then some .lt
  else some (compare a.a.toInt b.a.toInt)

/-- Two elements, each of its format, by transformed key (R224). -/
def keyCmp (cx cy x y : Nat) : Option Ordering := some (compare (sortKey cx x) (sortKey cy y))

/-- The predicate cmp computes before its mask (R280). -/
def cmpPred (f : PFields) (m : Mach) : Nat :=
  if clsS f.a ∧ clsS f.b then
    let c := compare (sRead m f.a f.imm).toInt (sRead m f.b f.imm).toInt
    if condHolds f.m (some c) then 0xFFFF else 0
  else
    let code := if clsV f.a then vFmt m f.a else vFmt m f.b
    let w := fmtBits code
    let fmt (r : Nat) : Nat := if clsV r then vFmt m r else code
    let opnd (r e : Nat) : Nat := if clsV r then vElem (fmtBits (vFmt m r)) (vRead m r) e else (sRead m r f.imm).toNat % 2 ^ w
    let cmp (e : Nat) : Option Ordering :=
      if f.m ≥ 8 then keyCmp (fmt f.a) (fmt f.b) (opnd f.a e) (opnd f.b e) else valueCmp (fmt f.a) (fmt f.b) (opnd f.a e) (opnd f.b e)
    (List.range (groupSize m.bind)).foldl (fun p e => if condHolds f.m (cmp e) then p + 2 ^ e else p) 0

/-- cmp. -/
def execCmp (u : DrnRef) (f : PFields) (s : State) : Host.Outcome State Fault Refusal :=
  .next (runPatch u 0x10 f
    (fun _ d => (f.m < 6 || (8 ≤ f.m && f.m < 14)) && clsPD f.d && (clsV f.a || clsS f.a) && (clsV f.b || clsS f.b) &&
      !isMX (bFmt d.mach.bind))
    (dataOp true fun mask m => pWrite f.d (cmpPred f m &&& mask) m) s)

/-- The class of an element as a bit of the class mask: NaN, infinity, zero, finite nonzero. -/
def elemClass (code x : Nat) : Nat :=
  let a : Acc := enter 192 code x
  if a.nan then 0 else if a.pinf || a.ninf then 1 else if a.a = 0 then 2 else 3

/-- cls. -/
def execCls (u : DrnRef) (f : PFields) (s : State) : Host.Outcome State Fault Refusal :=
  .next (runPatch u 0x11 f (fun _ d => f.m < 16 && clsPD f.d && clsV f.a && !isMX (bFmt d.mach.bind))
    (dataOp true fun mask m =>
      let code := vFmt m f.a
      let p := (List.range (groupSize m.bind)).foldl (fun p e =>
        if f.m.testBit (elemClass code (vElem (fmtBits code) (vRead m f.a) e)) then p + 2 ^ e else p) 0
      pWrite f.d (p &&& mask) m) s)

/-- pset. -/
def execPset (u : DrnRef) (f : PFields) (s : State) : Host.Outcome State Fault Refusal :=
  .next (runPatch u 0x12 f (fun _ _ => mZero f && clsPD f.d)
    (dataOp true fun mask m => pWrite f.d (f.imm.toNat % 2 ^ 16 &&& mask) m) s)

/-- pone. -/
def execPone (u : DrnRef) (f : PFields) (s : State) : Host.Outcome State Fault Refusal :=
  .next (runPatch u 0x13 f (fun _ _ => mZero f && clsPD f.d && clsS f.a)
    (dataOp true fun mask m => pWrite f.d (2 ^ ((sRead m f.a f.imm).toNat % groupSize m.bind) &&& mask) m) s)

/-- The operations of plog: and, or, xor, A and not B. -/
def plogOp (op a b : Nat) : Nat :=
  match op with | 0 => a &&& b | 1 => a ||| b | 2 => a ^^^ b | _ => a &&& (b ^^^ 0xFFFF)

/-- plog. -/
def execPlog (u : DrnRef) (f : PFields) (s : State) : Host.Outcome State Fault Refusal :=
  .next (runPatch u 0x14 f (fun _ _ => f.m < 4 && clsPD f.d)
    (dataOp true fun mask m => pWrite f.d (plogOp f.m (pRead m f.a) (pRead m f.b) &&& mask) m) s)

/-- pcnt. -/
def execPcnt (u : DrnRef) (f : PFields) (s : State) : Host.Outcome State Fault Refusal :=
  .next (runPatch u 0x15 f (fun _ _ => mZero f && clsSD f.d)
    (dataOp false fun mask m => sWrite f.d (w32 (popcount (pRead m f.a &&& mask))) m) s)

/-- The masked elements of a vector operand as accumulators, with the scale tag (R204). -/
def enterMasked (f : PFields) (mask : Nat) (m : Mach) : List Acc :=
  let v := vRead m f.a
  let code := vFmt m f.a
  ((List.range (groupSize m.bind)).filter fun e => mask.testBit e).map fun e =>
    enter 192 code (vElem (fmtBits code) v e) v.tag.toNat

/-- acc: each masked element enters a sum slot exactly (R201 to R205). -/
def execAcc (u : DrnRef) (f : PFields) (s : State) : Host.Outcome State Fault Refusal :=
  .next (runPatch u 0x18 f (fun _ d => mZero f && clsA f.d && clsV f.a && !bSel d.mach.bind (f.d - 0x20))
    (dataOp false fun mask m =>
      let i := f.d - 0x20
      setSlot i ((enterMasked f mask m).foldl accAdd (slotOf m i)) m) s)

/-- cnt: a sum slot gains the number of 1 bits of the mask. -/
def execCnt (u : DrnRef) (f : PFields) (s : State) : Host.Outcome State Fault Refusal :=
  .next (runPatch u 0x19 f (fun _ d => mZero f && clsA f.d && !bSel d.mach.bind (f.d - 0x20))
    (dataOp false fun mask m =>
      let i := f.d - 0x20
      setSlot i (accAdd (slotOf m i) (enterInt 192 32 (popcount mask))) m) s)

/-- sel: each masked element is selected in the slot's direction (R223). -/
def execSel (u : DrnRef) (f : PFields) (s : State) : Host.Outcome State Fault Refusal :=
  .next (runPatch u 0x1A f (fun _ d => mZero f && clsA f.d && clsV f.a && bSel d.mach.bind (f.d - 0x20))
    (dataOp false fun mask m =>
      let i := f.d - 0x20
      setSlot i ((enterMasked f mask m).foldl (accSelect (!bMin m.bind i)) (slotOf m i)) m) s)

/-- azero: the slot is empty with A = 0. -/
def execAzero (u : DrnRef) (f : PFields) (s : State) : Host.Outcome State Fault Refusal :=
  .next (runPatch u 0x1B f (fun _ _ => mZero f && clsA f.d)
    (dataOp false fun _ m => setSlot (f.d - 0x20) {} m) s)

/-- The records emit makes: masked elements in ascending order, in the input format's width, with index and key where
asked (R282). -/
def emitRecs (f : PFields) (mask : Nat) (m : Mach) : List Byte :=
  let w := fmtBits (bFmt m.bind)
  ((List.range (groupSize m.bind)).filter fun e => mask.testBit e).flatMap fun e =>
    (if f.m % 2 = 1 then leBytes 4 (m.gidx + e) else []) ++
    (if bKeyed m.bind then leBytes 4 (vElem 32 { bits := m.k } e) else []) ++
    leBytes (w / 8) (vElem w (vRead m f.a) e)

/-- emit. -/
def execEmit (u : DrnRef) (f : PFields) (s : State) : Host.Outcome State Fault Refusal :=
  .next (runPatch u 0x20 f (fun _ d => f.m < 2 && clsV f.a && !isMX (bFmt d.mach.bind))
    (fun mask m => if mask = 0 then .ok (advance 0 m) else addRecs (emitRecs f mask m) m) s)

/-- A slot's value under RXCTL (R214 to R220). -/
def deliverSlot (b : Bind) (a : Acc) : List Byte × Byte :=
  deliver 192 a (xOutFmt (bXctl b)) (xRmode (bXctl b)) (xSatOvf (bXctl b)) 0

/-- Zero-padded to a multiple of 4 bytes. -/
def pad4 (bs : List Byte) : List Byte := bs ++ List.replicate ((4 - bs.length % 4) % 4) 0

/-- kemit: a 4-byte key and the slot's value rounded under RXCTL; its flags join the run's (R282, R232). -/
def execKemit (u : DrnRef) (f : PFields) (s : State) : Host.Outcome State Fault Refusal :=
  .next (runPatch u 0x21 f (fun _ _ => mZero f && clsS f.a && clsA f.b)
    (fun mask m =>
      if mask = 0 then .ok (advance 0 m)
      else
        let r := deliverSlot m.bind (slotOf m (f.b - 0x20))
        addRecs (leBytes 4 (sRead m f.a f.imm).toNat ++ pad4 r.1) { m with xflags := m.xflags ||| r.2 }) s)

end Sys2Proof.Machine
end

