-- ==== Sys2Proof/Machine/Queues.lean ====
section
/-! DEFINITION. Receive queues, completion queues and their records (11: R359, R360, R364, R368, R370, R372, R380), and
what a descriptor's address checks answer (R68, R142, R585). -/
namespace Sys2Proof.Machine

/-! ### CIPs -/

def cipOf (s : State) (die n : Nat) : Cip := look {} s.ci.tiles (tk die n)
def modCip (die n : Nat) (f : Cip → Cip) (s : State) : State :=
  { s with ci := { s.ci with tiles := upd {} s.ci.tiles (tk die n) f } }

/-- The CIP page of a tile, its counters: 0 messages sent, 1 entries received, 2 credit requests, 3 credit waits,
4 CREDIT_STALL, 5 SEND_ABORTED, 6 discards, 7 MC_ACK sent. -/
def cipPage (s : State) (die n : Nat) : Nat := tpage (physTile s die n) 3
def cipCount (die n k : Nat) (s : State) : State := addCount die (cipPage s die n) k 1 s
def cipCountN (die n k x : Nat) (s : State) : State := if x = 0 then s else addCount die (cipPage s die n) k x s

/-- The metadata word (R360). -/
def metaWord (s : State) (die n stream sseq kind nbytes tag : Nat) : DWord :=
  w64 (stream * 2 ^ 57 + n * 2 ^ 50 + die * 2 ^ 44 + pkgNo s * 2 ^ 32 + sseq * 2 ^ 16 + kind * 2 ^ 14 + nbytes * 2 ^ 8 +
    tag % 256)

/-! ### Queues -/

/-- A queue's configuration in effect. -/
structure QCfg where
  en : Bool
  ordered : Bool
  cq : Bool
  size : Nat
  max : Nat
  ctx : Nat
deriving DecidableEq, Repr

def qcfgWord (w : Word) : QCfg :=
  { en := w.toNat.testBit 31, ordered := w.toNat.testBit 30, cq := w.toNat.testBit 29, size := 2 ^ wbits w 28 24,
    max := wbits w 23 16, ctx := wbits w 10 0 }

/-- The configuration of queue q of a tile; queues beyond 1,023 do not exist. -/
def qcfg (s : State) (die n q : Nat) : QCfg := qcfgWord (reg s die (cipPage s die n) 0x114 q)
def queueOf (s : State) (die n q : Nat) : Queue := look {} (cipOf s die n).queues q
def modQueue (die n q : Nat) (f : Queue → Queue) : State → State :=
  modCip die n fun c => { c with queues := upd {} c.queues q f }

/-- A queue serves a context: enabled and owned by it (R361, R362). -/
def qServes (s : State) (die n q ctx : Nat) : Bool := (qcfg s die n q).en && (qcfg s die n q).ctx = ctx

/-- Visible entries that take room: the stall record sits in the completion queue's last entry (R372). -/
def plainVisible (q : Queue) : Nat := (q.visible.filter fun e => !e.stall).length

/-- Slots of a tile's ordered store in use or promised: held entries, credits and reserved entries of its ordered queues
(R370). -/
def orderedUsed (s : State) (die n : Nat) : Nat :=
  (cipOf s die n).queues.foldl (fun a e =>
    if (qcfg s die n e.1).ordered then a + e.2.held.length + e.2.outst + e.2.resv else a) 0

/-- The free pool of a queue (R364, R370, R372). -/
def freePool (s : State) (die n q : Nat) : Nat :=
  let c := qcfg s die n q
  let x := queueOf s die n q
  let free := c.size - b2n c.cq - plainVisible x - x.held.length - x.outst - x.resv
  if c.ordered then min free (4096 - orderedUsed s die n) else free

/-- The fabric address of an entry's slot in the cluster's memory. -/
def entryAddr (s : State) (die n q i : Nat) : DWord :=
  let base := (reg s die (cipPage s die n) 0x118 q).toNat + wbits (reg s die (cipPage s die n) 0x11C q) 3 0 * 2 ^ 32
  cmAddr (pkgNo s) die n (base + 64 * (i % (qcfg s die n q).size))

/-- The 64 bytes of an entry (R359). -/
def entryBytes (e : QEntry) : List Byte := leBytes 8 e.word.toNat ++ padTo 56 e.data

/-- An entry is written to the cluster's memory and becomes visible (R359). -/
def makeVisible (die n q : Nat) (e : QEntry) (s : State) : State :=
  let x := queueOf s die n q
  storeBy die (entryAddr s die n q x.tail) (entryBytes e)
    (cipCount die n 1 (modQueue die n q (fun x => { x with tail := x.tail + 1, visible := x.visible ++ [e] }) s))

/-- A message or basket result of a context arrives for a queue: discarded and counted where the queue is not the
context's, the context not active, or stale credits overfill the queue (R362, R367); held with its stamp in an ordered
queue (R368); otherwise visible. -/
def arriveEntry (die n q ctx : Nat) (word : DWord) (data : List Byte) (s : State) : State :=
  let c := qcfg s die n q
  let x := queueOf s die n q
  if !qServes s die n q ctx ∨ !activeOn s die n ctx ∨ plainVisible x + x.held.length ≥ c.size - b2n c.cq then
    cipCount die n 6 s
  else
    let e : QEntry := { word := word, data := data, stamp := stampPress s die }
    if c.ordered ∧ !c.cq then modQueue die n q (fun x => { x with held := x.held ++ [e] }) s else makeVisible die n q e s

/-! ### Completion queues (R380) -/

/-- The lowest-numbered queue of a tile with ENABLE, CQ and the context. -/
def cqOf (s : State) (die n ctx : Nat) : Option Nat :=
  let pg := pk die (cipPage s die n) * 4096 + 0x114
  (s.rg.eff.find? fun e => e.1 / 16384 = pg &&
    (let c := qcfgWord e.2; c.en && c.cq && c.ctx = ctx)).map fun e => e.1 % 16384

/-- A record of a context is written to its completion queue: into a reserved entry, else discarded and counted. -/
def cqRecord (die n ctx : Nat) (rec_ : List Byte) (s : State) : State :=
  match cqOf s die n ctx with
  | none => cipCount die n 6 s
  | some q =>
    if (queueOf s die n q).resv = 0 then cipCount die n 6 s
    else
      let e : QEntry := { word := metaWord s die n 0x7F 0 1 16 0, data := rec_ }
      makeVisible die n q e (modQueue die n q (fun x => { x with resv := x.resv - 1 }) s)

/-- Reserved entries no record will use return to the pool. -/
def cqRelease (die n ctx k : Nat) (s : State) : State :=
  match cqOf s die n ctx with
  | none => s
  | some q => modQueue die n q (fun x => { x with resv := x.resv - k }) s

/-- A stall record of a context: the completion queue's last entry holds one unread at a time (R372). -/
def stallRecord (die n ctx result role : Nat) (who : DWord) (s : State) : State :=
  match cqOf s die n ctx with
  | none => cipCount die n 6 s
  | some q =>
    if (queueOf s die n q).visible.any (·.stall) then cipCount die n 6 s
    else
      let rec_ := [0, 0, 7, 0] ++ leBytes 2 result ++ leBytes 2 role ++ leBytes 8 who.toNat
      makeVisible die n q { word := metaWord s die n 0x7F 0 1 16 0, data := rec_, stall := true } s

/-- A 16-byte record: TAG, RKIND, XFLAGS, RESULT, a 4-byte count and the Press (R250, R380). -/
def record16 (tag rkind xflags result count press : Nat) : List Byte :=
  leBytes 2 tag ++ leBytes 1 rkind ++ leBytes 1 xflags ++ leBytes 2 result ++ [0, 0] ++ leBytes 4 count ++ leBytes 4 press

/-! ### Addresses at the source CIP (R68, R80, R142, R495, R585) -/

/-- A tile of this die has a usable first hop toward a package: a VALID lane (R495). -/
def firstHop (s : State) (die n pkg : Nat) : Bool :=
  let t := physTile s die n
  match hopDir s die t pkg with
  | none => true
  | some d => (laneFor s die t d (pkgNo s) pkg).isSome

/-- ADDR_NO_ROUTE, then ADDR_OUT_OF_SLICE, then ADDR_UNMAPPED; 0 where the address is good for the context (R68). -/
def addrStatus (s : State) (die n ctx : Nat) (a : DWord) : Nat :=
  let p := aPkg a
  if p ≠ pkgNo s ∧ (!present s p || !routeUsable s 32 (pkgNo s) p || !firstHop s die n p) then 0x11
  else if !decide (p ∈ sliceOf s ctx) then 0x12
  else if !mapped a then 0x10
  else 0

/-- Ignores the size of a cluster's memory: the span check of another cluster's memory (R585). -/
def inRegion0 (a : DWord) : Bool :=
  aRegion a = 0 &&
    match dieType (aDie a) with
    | .compute => aTile a < 128
    | .memside => aOff44 a < stackBytes
    | .io => false

/-- The span of a descriptor (R585): n bytes from a. -/
def spanStatus (s : State) (die tile ctx : Nat) (a : DWord) (n : Nat) : Nat :=
  let b := w64 (a.toNat + n - 1)
  let p := aPkg a
  if p ≠ pkgNo s ∧ (!present s p || !routeUsable s 32 (pkgNo s) p || !firstHop s die tile p) then 0x11
  else if !decide (p ∈ sliceOf s ctx) then 0x12
  else if !inRegion0 a ∨ !inRegion0 b ∨ a.toNat + n > 2 ^ 64 ∨ aPkg a ≠ aPkg b ∨ aDie a ≠ aDie b then 0x10
  else if dieType (aDie a) = .compute ∧ aTile a ≠ aTile b then 0x10
  else if p = pkgNo s ∧ aDie a = die ∧ dieType die = .compute ∧ aTile a = tile ∧ aOff36 b ≥ cmSize die tile then 0x10
  else 0

end Sys2Proof.Machine
end

