-- ==== Sys2Proof/Machine/Darners.lean ====
section
/-! DEFINITION. Darners, the task queue, posted patch runs, stealing and the reorder stage (08; 09: bindings at
acceptance, results). -/
namespace Sys2Proof.Machine

/-! ### Admission outcomes (R186) -/

/-- The answer of an admission point. -/
inductive Adm where
  | accept
  | defer (reason : Nat)
  | refuse (reason : Nat)
deriving DecidableEq, Repr

/-- The outcome word. -/
def admWord : Adm → Nat
  | .accept => outcome 0 0
  | .defer r => outcome 1 r
  | .refuse r => outcome 2 r

/-- The DMA descriptor post admission point: PRESS_UNSET, then an addressing status, then PLANE_LOCKED for what uses a
locked plane, then GOV_THROTTLE (R187, R193). -/
def dmaAdm (s : State) (die addr : Nat) (locked : Bool) : Adm :=
  if !running s die then .refuse 0x1F
  else if addr ≠ 0 then .refuse addr
  else if locked then .defer 0x1E
  else if govDefersPost s then .defer 0x28
  else .accept

/-! ### Runs and their bindings -/

def runOf (s : State) (die n id : Nat) : Option Run := look? (drnTile s die n).runs id
def modRun (die n id : Nat) (f : Run → Run) : State → State :=
  modDrn die n fun t => match look? t.runs id with | some r => { t with runs := ins t.runs id (f r) } | none => t

/-- The entry of a context's binding number at a tile: the lowest valid one in effect (R294). -/
def bindOf (s : State) (die n ctx b : Nat) : Option Bind :=
  let base := pk die (drnPage s die n) * 4096 + 0x1B4
  let hit (e : Nat × Word) : Bool :=
    e.1 / 16384 = base && e.2.toNat.testBit 31 && wbits e.2 30 20 = ctx && wbits e.2 19 16 = b
  (s.rg.eff.find? hit).map fun e =>
    (List.range 10).map fun w => reg s die (drnPage s die n) (0x1B4 + 4 * w) (e.1 % 16384)

/-- RBYTES: the size of the results area (R297). -/
def resBytes (b : Bind) : Nat := (resSlots b).length * (4 * ceilDiv (outSize (xOutFmt (bXctl b))) 4)

/-- The bank in effect, the tag of a bank (R290, R292). -/
def activeBank (s : State) (die n : Nat) : Nat := rfld s die (drnPage s die n) 0x184 0 0
def bankTag (s : State) (die n bank : Nat) : Word := reg s die (drnPage s die n) (0x188 + 4 * bank)

/-- A darner is reserved by a seam now: from the boundary that ends the Press in which the seam was set on (R255, R329; a grant
whose seam is set in a later Press waits for that boundary: log 98). `resvFrom` is 0 until the seam is set. -/
def reservedNow (s : State) (die n d : Nat) : Bool :=
  let x := darnerOf s die n d
  x.resv ≠ none && x.resvFrom ≠ 0 && decide (x.resvFrom ≤ pressOf s die)

/-- The darners of a tile reserved, or to be reserved from the next boundary. -/
def reservedCount (s : State) (die n : Nat) : Nat :=
  ((List.range 8).filter fun d => (darnerOf s die n d).resv ≠ none).length

/-- The unreserved darner with least END, the lower number on a tie (R246). -/
def homeDarner (s : State) (die n : Nat) : Option Nat :=
  ((List.range 8).filter fun d => !reservedNow s die n d).foldl (fun best d =>
    match best with
    | none => some d
    | some b => if (darnerOf s die n d).endAt < (darnerOf s die n b).endAt then some d else some b) none

/-- Cost of a run (R246), and of one of its tasks. -/
def runCost (b : Bind) (count : Nat) : Nat := 16 + ceilDiv count (groupSize b) * bBudget b

/-- R296 items 1 to 3 of a run. -/
def runRefusal (b : Bind) (r : Run) : Option Nat :=
  if bindBad b then some 0x42
  else if xctlBad (bXctl b) .combine false false ∨ (isMX (bFmt b) ∧ r.count % 32 ≠ 0) ∨
      (bKeyed b ∧ bFmt b ≠ 0 ∧ bFmt b ≠ 0x12) then some 0x30
  else if resBytes b > r.limit then some 0x43
  else none

/-- The Press window budget admission point (R246, R296): the answer, the binding and the home darner. -/
def budgetAdm (s : State) (die n : Nat) (r : Run) : Adm × Bind × Nat :=
  match bindOf s die n r.ctx r.bindNo with
  | none => (.refuse 0x42, [], 0)
  | some b =>
    match runRefusal b r with
    | some c => (.refuse c, b, 0)
    | none =>
      let B := budgetB s die
      let cost := runCost b r.count
      if cost > B then (.refuse 0x1D, b, 0)
      else
        match homeDarner s die n with
        | none => (.defer 0x29, b, 0)
        | some d =>
          let x := darnerOf s die n d
          let L := govLevel s
          if L > 0 ∧ x.admitted + cost > B * (16 - L) / 16 then (.defer 0x28, b, d)
          else if max (cycleOf s die) x.endAt + cost > B then (.defer 0x29, b, d)
          else (.accept, b, d)

/-! ### The task queue -/

/-- The lowest free entry index. -/
def freeEntry (t : DrnTile) : Nat := ((List.range 512).find? fun i => t.queue.all fun x => x.entry ≠ i).getD 511

/-- Patch entries in use; the patch share (R239). -/
def patchUsed (t : DrnTile) : Nat := (t.queue.filter fun x => x.kind = .patch).length
def patchShare (s : State) (die n : Nat) : Nat := 512 - 32 * reservedCount s die n

/-- Chunk k of a run as a task (R240, R248). -/
def chunkTask (t : DrnTile) (id : Nat) (r : Run) (size now : Nat) : Task :=
  let k := r.entered
  let first := k * size
  let count := if r.nChunks = 1 then r.count else min size (r.count - first)
  { entry := freeEntry t, kind := .patch, stealable := !r.noSteal, ordered := r.reorder.isSome, stream := r.reorder.getD 0,
    ctx := r.ctx, born := now, oseq := k, stripe := k, bind := r.bindNo, count := count, run := id, first := first,
    cost := runCost r.bind count }

/-- The next chunk of a run enters the queue, if the patch share has an entry (R248). -/
def enterChunk (die n id : Nat) (s : State) : State :=
  let t := drnTile s die n
  match look? t.runs id with
  | none => s
  | some r =>
    if decide (id ∈ t.held) || r.bind = [] || r.entered ≥ r.nChunks || patchUsed t ≥ patchShare s die n ||
        t.queue.length ≥ 512 then s
    else
      let x := chunkTask t id r r.chunk s.tm.fclk
      let x := if r.late then { x with stealable := x.stealable && decide (r.bank = activeBank s die n) } else x
      modDrn die n (fun t => { t with
        queue := t.queue ++ [x], runs := ins t.runs id { r with entered := r.entered + 1 } }) s

/-- Chunks enter as entries become free, runs in the order of their acceptance, chunks ascending. -/
def fillQueue (die n : Nat) (s : State) : State :=
  forEach (drnTile s die n).runs (fun e s =>
    forEach (List.range (min 512 (e.2.nChunks - e.2.entered))) (fun _ s => enterChunk die n e.1 s) s) s

/-! ### Admission of runs (R244 to R250) -/

/-- R379 of a patch-run descriptor: reserved fields, COUNT. -/
def runDescBad (x : List Byte) : Bool :=
  field x 1 1 ≥ 16 || field x 2 1 ≥ 2 || field x 3 1 ≠ 0 || field x 4 4 ≥ 2 ^ 24 || field x 4 4 = 0 || field x 0x1E 2 ≠ 0

/-- The run a descriptor describes. -/
def runOfDesc (stream ctx : Nat) (x : List Byte) : Run :=
  { stream := stream, ctx := ctx, bindNo := field x 1 1, noSteal := bit (field x 2 1) 0, count := field x 4 4,
    src := w64 (field x 8 8), dst := w64 (field x 0x10 8), limit := field x 0x18 4, tag := BitVec.ofNat 16 (field x 0x1C 2) }

/-- The patch-run records (R250). -/
def runRecord (die n : Nat) (r : Run) (rkind xflags result count press : Nat) (s : State) : State :=
  cqRecord die n r.ctx (record16 r.tag.toNat rkind xflags result count press) s

/-- The bytes a run reads from SRC, its scales among them (R204, R245), and those it writes at DST at least (R297); one each of a run
whose binding is not there. -/
def runSpans (s : State) (die n : Nat) (r : Run) : Nat × Nat :=
  match bindOf s die n r.ctx r.bindNo with
  | none => (1, 1)
  | some b =>
    (if bKeyed b then 8 * r.count else ceilDiv (r.count * fmtBits (bFmt b)) 8 + (if isMX (bFmt b) then r.count / 32 else 0),
      max 1 (resBytes b))

/-- The addressing status of a run: its SRC span, then its DST span, both memory (DEDUCED from R68, R244 and R585, log 112). -/
def runAddr (s : State) (die n : Nat) (r : Run) : Nat :=
  let src := spanStatus s die n r.ctx r.src (runSpans s die n r).1
  if src ≠ 0 then src else spanStatus s die n r.ctx r.dst (runSpans s die n r).2

/-- The two admission points of a run in turn: the DMA descriptor post (until it has accepted), then the budget. -/
def runAdm (s : State) (die n : Nat) (r : Run) : Adm × Bind × Nat :=
  let a := if r.status = 1 then Adm.accept else dmaAdm s die (runAddr s die n r) false
  match a with
  | .accept => budgetAdm s die n r
  | x => (x, [], 0)

/-- A run past the DMA descriptor post point is marked (status 1) while it is held. -/
def markPosted (s : State) (die n : Nat) (r : Run) : Run :=
  if r.status = 1 ∨ dmaAdm s die (runAddr s die n r) false = .accept then { r with status := 1 } else r

/-- Acceptance (R246 step 5, R248, R292). -/
def acceptRun (die n id d : Nat) (b : Bind) (s : State) : State :=
  let t := drnTile s die n
  match look? t.runs id with
  | none => s
  | some r =>
    let cost := runCost b r.count
    let now := cycleOf s die
    let size := 2 ^ rfld s die (drnPage s die n) 0x110 4 0
    let free := [12, 13, 14, 15].find? fun k => !(look ({} : Stream16) t.streams k).active
    let st := if bWhole b then none else free
    let r := { r with
      bind := b, bank := activeBank s die n, press := pressOf s die, cost := cost, home := d, status := 0, reorder := st,
      chunk := size, nChunks := if st.isSome then ceilDiv r.count size else 1 }
    let s := modDrn die n (fun t => { t with
      runs := ins t.runs id r
      held := t.held.filter (· ≠ id)
      streams := match st with | some k => put {} t.streams k { active := true, ctx := r.ctx, run := id } | none => t.streams }) s
    let s := modDarner die n d (fun x => { x with endAt := max now x.endAt + cost, admitted := x.admitted + cost }) s
    fillQueue die n (addCount die (drnPage s die n) 5 1 s)

/-- A run leaves the tile. -/
def dropRun (die n id : Nat) : State → State :=
  modDrn die n fun t => { t with
    runs := drop t.runs id
    held := t.held.filter (· ≠ id)
    streams := t.streams.filter fun e => !(decide (e.1 ≥ 12) && e.2.active && decide (e.2.run = id)) }

/-- The first evaluation of a run (R188, R250): the outcome word, and the state after it with the admission record. -/
def firstRun (die n : Nat) (r : Run) (s : State) : Nat × State :=
  let id := (drnTile s die n).nextRun
  let rp := runAdm s die n r
  let a := rp.1
  let b := rp.2.1
  let d := rp.2.2
  let a := match a with | .defer x => if (drnTile s die n).held.length ≥ 32 then Adm.refuse 0x2A else .defer x | x => x
  let s := runRecord die n r 1 0 (admWord a) 0 (pressOf s die) s
  let s := modDrn die n (fun t => { t with nextRun := t.nextRun + 1 }) s
  match a with
  | .accept => (admWord a, acceptRun die n id d b (modDrn die n (fun t => { t with runs := ins t.runs id r }) s))
  | .defer x =>
    (admWord a, countDefer die n r.ctx x (modDrn die n (fun t => { t with
      runs := ins t.runs id (markPosted s die n r), held := t.held ++ [id] }) s))
  | .refuse _ => (admWord a, cqRelease die n r.ctx 1 s)

/-- A later evaluation of a held run at step 7: a refusal writes the completion record with its reason (R250). -/
def laterRun (die n id : Nat) (s : State) : State :=
  match runOf s die n id with
  | none => s
  | some r =>
    let rp := runAdm s die n r
    let a := rp.1
    let b := rp.2.1
    let d := rp.2.2
    match a with
    | .accept => acceptRun die n id d b s
    | .defer x => countDefer die n r.ctx x (modRun die n id (markPosted s die n) s)
    | .refuse x => runRecord die n r 2 0 x 0 (pressOf s die) (dropRun die n id s)

/-- Applies a change to every darner of a tile. -/
def mapDarners (f : Darner → Darner) (ds : SMap Darner) : SMap Darner :=
  ds.filterMap fun e => if f e.2 = {} then none else some (e.1, f e.2)

/-- Step 7 of R105 at a tile: END and ADMITTED return to 0, then the held runs in arrival order (R246, R247). -/
def darnersStep7 (die n : Nat) (s : State) : State :=
  let s := modDrn die n (fun t => { t with darners := mapDarners (fun x => { x with endAt := 0, admitted := 0 }) t.darners }) s
  forEach (drnTile s die n).held (fun id s => laterRun die n id s) (fillQueue die n s)

/-! ### Dispatch (R241, R242) -/

/-- One seam: the engine, its record and the ticket. -/
def sameSeam (a b : SeamRef) : Bool :=
  a.pkg = b.pkg && a.die = b.die && a.eng = b.eng && a.slot = b.slot && a.group = b.group && a.gseq = b.gseq

/-- The darner runs a task for which it is neither reserved nor admitted (R257). -/
def isStealUse (x : Darner) (c : Nat) : Bool :=
  match x.task with
  | none => false
  | some t => t.ctx = c &&
      (match t.seam with
       | some r => !(match x.resv with | some q => sameSeam q r | none => false)
       | none => x.from_ ≠ 0)

/-- STEAL_USE of a context at a tile. -/
def stealUse (s : State) (die n c : Nat) : Nat :=
  ((List.range 8).filter fun d => isStealUse (darnerOf s die n d) c).length
def stealAllow (s : State) (die n c : Nat) : Nat := rfld s die (drnPage s die n) 0x124 3 0 c

/-- A chunk that the darner takes before anything else: of the run on the old bank whose chunks it has been running (R252), or,
on a reserved darner, of a run admitted to it in a Press before its reservation took effect (R255). -/
def mustRun (s : State) (die n d : Nat) (t : Task) : Bool :=
  let x := darnerOf s die n d
  match t.seam, runOf s die n t.run with
  | none, some r =>
    (decide (r.bank ≠ activeBank s die n) && decide (x.lastRun = t.run)) ||
      (reservedNow s die n d && decide (r.press < x.resvFrom) && (decide (r.home = d) || decide (x.lastRun = t.run)))
  | _, _ => false

/-- A run of the old bank that no darner of the tile has been running: any darner may then run it (DEDUCED, log 98). -/
def orphanRun (s : State) (die n id : Nat) : Bool := (List.range 8).all fun d => (darnerOf s die n d).lastRun ≠ id

/-- R241, R252 and R255: the darner may run the task of its own tile. -/
def mayRun (s : State) (die n d : Nat) (t : Task) : Bool :=
  let x := darnerOf s die n d
  if mustRun s die n d t then true
  else if reservedNow s die n d then
    (match x.resv, t.seam with | some a, some b => sameSeam a b | _, _ => false)
  else match t.seam with
    | some _ => decide (stealUse s die n t.ctx < stealAllow s die n t.ctx)
    | none =>
      match runOf s die n t.run with
      | none => false
      | some r => decide (r.bank = activeBank s die n) || orphanRun s die n t.run

/-- No undispatched task of the same stream has a lower OSEQ (R242). -/
def lowestInStream (q : List Task) (t : Task) : Bool :=
  !t.ordered || q.all fun u => !(u.ordered && u.stream = t.stream && decide (u.oseq < t.oseq))

/-- The oldest of tasks, the lower entry index on a tie. -/
def oldestTask (q : List Task) : Option Task :=
  q.foldl (fun best t => match best with
    | none => some t
    | some b => if t.born < b.born ∨ (t.born = b.born ∧ t.entry < b.entry) then some t else some b) none

/-- The task an idle darner takes from its own tile: what it must run first, else the oldest it may run (R242, R252, R255). -/
def pickTask (s : State) (die n d : Nat) : Option Task :=
  let q := (drnTile s die n).queue
  let may := q.filter fun t => mayRun s die n d t && lowestInStream q t
  match oldestTask (may.filter fun t => mustRun s die n d t) with
  | some t => some t
  | none => oldestTask may

/-- The darner can take a task: it is idle and nothing stops its tile. -/
def drnIdle (s : State) (die n d : Nat) : Bool :=
  let x := darnerOf s die n d
  x.task = none && !x.holding && decide (d < 8) && !(dieType die = .io) && decide (n < nTiles die) &&
    !isSafe s die && !isIsolated s die && !tileQuiesced s die n && !s.fw.carried

/-- A task leaves the queue. -/
def unqueue (die n : Nat) (t : Task) : State → State :=
  modDrn die n fun x => { x with queue := x.queue.filter fun u => u.entry ≠ t.entry }

/-- A darner starts a task of its own tile, or one stolen from direction `from_` − 1 (R237, R274). The patch machine of
a PATCH task starts with its run's binding; it fetches from `bank`. -/
def startTask (die n d from_ bank : Nat) (t : Task) (b : Bind) (data : List Byte) (s : State) : State :=
  let size := if bKeyed b then 8 * t.count else ceilDiv (t.count * fmtBits (bFmt b)) 8
  let mach := if t.kind = .patch then startMach b t.first t.count (data.take size) (data.drop size) else {}
  let s := modDarner die n d (fun x => { x with
    since := s.tm.fclk, task := some t, from_ := from_, bank := bank, lastRun := if t.kind = .patch then t.run else x.lastRun, asks := none,
    mach := mach, poisoned := false }) s
  if t.kind = .patch then fetchCheck { die := die, tile := n, darner := d } s else s

/-! ### The end of a chunk (R249, R251, R286, R268, R270) -/

/-- A chunk's output in chunk order: written at DST after the chunks before it, unless a fault or DST_LIMIT stops the
run. Its flags join the run's unless a fault stopped it or a chunk before it (R232, R263, R282). -/
def chunkOut (die n id : Nat) (bytes : List Byte) (fault : Nat) (xf : Byte) (s : State) : State :=
  match runOf s die n id with
  | none => s
  | some r =>
    let lim := r.limit - resBytes r.bind
    let r := { r with finished := r.finished + 1 }
    if r.stopped then modRun die n id (fun _ => r) s
    else if fault ≠ 0 then modRun die n id (fun _ => { r with stopped := true, status := fault }) s
    else
      let r := { r with xflags := r.xflags ||| xf }
      if r.outFull ∨ r.outBytes + bytes.length > lim then modRun die n id (fun _ => { r with outFull := true }) s
      else
        let s := modRun die n id (fun _ => { r with outBytes := r.outBytes + bytes.length }) s
        storeBy die (r.dst + w64 r.outBytes) bytes s

/-- The results of a chunk without a fault join the run's (R249, R277). -/
def chunkResults (die n id : Nat) (m : Mach) : State → State :=
  modRun die n id fun r => { r with results := joinResults r.bind r.results m.results }

/-- Counters 0 and 4 of a tile: the cycles a darner has been busy with its task, or has held its output. -/
def countBusy (die n d : Nat) (s : State) : State :=
  let x := darnerOf s die n d
  if x.task = none then s
  else modDarner die n d (fun x => { x with since := s.tm.fclk })
    (addCount die (drnPage s die n) (if x.holding then 4 else 0) (s.tm.fclk - x.since) s)

/-- The darner becomes idle. -/
def freeDarner (die n d : Nat) (s : State) : State :=
  modDarner die n d (fun x => { x with
    since := 0, task := none, from_ := 0, holding := false, late := false, poisoned := false, mach := {} }) (countBusy die n d s)

/-- A finished PATCH task of darner d of tile n, whose run is on `owner`: an ordered output is held, any other is placed
at once (R265). -/
def endChunk (die n d owner : Nat) (t : Task) (bytes : List Byte) (fault : Nat) (xf : Byte) (s : State) : State :=
  if t.ordered then
    let h : HeldOut := { oseq := t.oseq, darner := d, thief := n, bytes := bytes, fault := fault, xflags := xf }
    modDarner die n d (fun x => { x with holding := true })
      (countBusy die n d <| modDrn die owner (fun x => { x with streams := upd {} x.streams t.stream fun k => { k with held := k.held ++ [h] } }) s)
  else freeDarner die n d (chunkOut die owner t.run bytes fault xf s)

/-- A queue entry with a parity error is discarded; its chunk ends with TASK_PARITY (R270). -/
def dropChunk (die n : Nat) (t : Task) (s : State) : State :=
  let s := unqueue die n t s
  if t.ordered then
    let h : HeldOut := { oseq := t.oseq, darner := 255, thief := n, bytes := [], fault := 0x3A }
    modDrn die n (fun x => { x with streams := upd {} x.streams t.stream fun k => { k with held := k.held ++ [h] } }) s
  else chunkOut die n t.run [] 0x3A 0 s

/-- PATCH_RUN_COMPLETE: every chunk has ended; results are placed and the completion record written (R250, R297); a late run
counts in OVERRUN_COUNT (R103). -/
def completeRun (die n id : Nat) (s : State) : State :=
  match runOf s die n id with
  | none => s
  | some r =>
    if r.bind = [] ∨ r.finished < r.nChunks then s
    else
      let outs := (resSlots r.bind).map fun i => deliverSlot r.bind (look {} r.results i)
      let bytes := outs.flatMap fun o => pad4 o.1
      let s := if r.stopped then s else storeBy die (r.dst + w64 (r.limit - resBytes r.bind)) bytes s
      let s := doIf r.late (satCount die 0 0x130 1) s
      let xf := if r.stopped then r.xflags else outs.foldl (fun a o => a ||| o.2) r.xflags
      let code := if r.stopped then r.status else if r.outFull then 0x3B else 0
      fillQueue die n (dropRun die n id (runRecord die n r 2 xf.toNat code r.outBytes (r.press % 2 ^ 32) s))

/-! ### Stealing (R257 to R263, R292) -/

/-- STEAL_DIR of a tile for a direction. -/
def stealDir (s : State) (die n dir : Nat) : Bool := (reg s die (drnPage s die n) 0x100).toNat.testBit (4 + dir)
/-- The direction back. -/
def oppDir (dir : Nat) : Nat := match dir with | 0 => 1 | 1 => 0 | 2 => 3 | _ => 2

/-- R258 and R259 of a task at a victim v for a thief darner. -/
def maySteal (s : State) (die n d v dir : Nat) (t : Task) : Bool :=
  let x := darnerOf s die n d
  let res := match x.resv, t.seam with | some a, some b => reservedNow s die n d && sameSeam a b | _, _ => false
  t.stealable && (reg s die (drnPage s die v) 0x100).toNat.testBit 1 && stealDir s die n dir && stealDir s die v (oppDir dir) &&
    decide (s.tm.fclk ≥ t.born + rfld s die (drnPage s die v) 0x10C 15 0) &&
    (res || (!reservedNow s die n d && decide (stealUse s die n t.ctx < stealAllow s die n t.ctx))) &&
    lowestInStream (drnTile s die v).queue t &&
    (t.kind ≠ .patch ||
      (match runOf s die v t.run with
       | some r => r.bank = activeBank s die v && bankTag s die v r.bank ≠ 0 &&
           bankTag s die v r.bank = bankTag s die n (activeBank s die n)
       | none => false))

/-- The addresses a PATCH task's input is read from: its elements, and its blocks' scales behind the run's elements (R204, R245,
R295). -/
def chunkReads (r : Run) (t : Task) : List (DWord × Nat) :=
  let w := fmtBits (bFmt r.bind)
  if bKeyed r.bind then [(r.src + w64 (8 * t.first), 8 * t.count)]
  else
    (r.src + w64 (t.first * w / 8), ceilDiv (t.count * w) 8) ::
      (if isMX (bFmt r.bind) then [(r.src + w64 (r.count / 32 * (4 * w) + t.first / 32), ceilDiv t.count 32)] else [])

/-- The task a thief would take in a direction. -/
def stealTask (s : State) (die n d dir : Nat) : Option Task :=
  match meshNeighbour die n dir with
  | none => none
  | some v =>
    if tileQuiesced s die v then none
    else oldestTask ((drnTile s die v).queue.filter fun t => maySteal s die n d v dir t)

/-- The direction the rotation reaches first with a task (R260). -/
def stealFirst (s : State) (die n d : Nat) : Option Nat :=
  ([1, 2, 3, 4].map fun i => ((darnerOf s die n d).rot + i) % 4).find? fun dir => (stealTask s die n d dir).isSome

/-- STEAL_REQUEST. -/
def askSteal (die n d dir : Nat) (s : State) : State :=
  if drnIdle s die n d ∧ (reg s die (drnPage s die n) 0x100).toNat.testBit 0 ∧ (darnerOf s die n d).asks = none ∧
      pickTask s die n d = none ∧ stealFirst s die n d = some dir then
    match stealTask s die n d dir with
    | some t => modDarner die n d (fun x => { x with asks := some (dir, t, s.tm.fclk) }) s
    | none => s
  else s

/-- Another thief's request of the same task in the same cycle comes first: E, W, N, S as the victim sees them (R262). -/
def stealBeaten (s : State) (die v dir : Nat) (t : Task) (c : Nat) : Bool :=
  [0, 1, 2, 3].any fun k =>
    decide (k < oppDir dir) &&
      match meshNeighbour die v k with
      | none => false
      | some u => (List.range 8).any fun e => (darnerOf s die u e).asks = some (oppDir k, t, c)

/-- The victim's own darners would take the task now (R243). -/
def ownTakes (s : State) (die v : Nat) (t : Task) : Bool :=
  (List.range 8).any fun e => drnIdle s die v e && pickTask s die v e = some t

/-- STEAL_LINK: raised on both tiles, the direction disabled on both (R269). -/
def stealLinkErr (die n v dir : Nat) (c : Nat) (s : State) : State :=
  let clr (t dr : Nat) (s : State) : State :=
    raise die (drnPage s die t) 2 (some c) 0
      (setReg die (drnPage s die t) 0x100 0 (reg s die (drnPage s die t) 0x100 &&& ~~~(w32 (2 ^ (4 + dr)))) s)
  clr v (oppDir dir) (clr n dir s)

/-- A steal may be granted: the task still waits, and everything the request rested on still holds (R241 to R243, R257 to R259,
R262, R273, R292). -/
def maySettle (s : State) (die n d v dir c : Nat) (t : Task) : Bool :=
  decide (t ∈ (drnTile s die v).queue) && drnIdle s die n d && pickTask s die n d = none &&
    (reg s die (drnPage s die n) 0x100).toNat.testBit 0 && maySteal s die n d v dir t && !stealBeaten s die v dir t c &&
    !ownTakes s die v t && !tileQuiesced s die v

/-! ### The patch store (R289 to R291) -/

/-- A darner of the tile runs late work on the shadow bank, or has chunks of it still to run (R252, R291). -/
def shadowBusy (s : State) (die n : Nat) : Bool :=
  let t := drnTile s die n
  let old (id : Nat) : Bool := match look? t.runs id with | some r => r.bind ≠ [] && decide (r.bank ≠ activeBank s die n) | none => false
  (t.queue.any fun x => decide (x.kind = .patch) && old x.run) ||
    (t.runs.any fun e => old e.1 && decide (e.2.entered < e.2.nChunks)) ||
    (List.range 8).any fun d =>
      let x := darnerOf s die n d
      (match x.task with | some t => decide (t.kind = .patch) | none => false) && decide (x.bank ≠ activeBank s die n)

/-- Stores an instruction of a bank. -/
def setBank (die n bank i : Nat) (w : DWord) (s : State) : State :=
  { s with dr := { s.dr with banks := put 0 s.dr.banks (bankKey die n bank i) w } }

/-- The logical tile of a DRN page. -/
def pageTile (s : State) (die page : Nat) : Option Nat := logTile s die ((page - 0x100) / 8)

/-- PS_DATA_LO written: the instruction is stored in the shadow bank and PS_ADDR advances (R289, R291). The library is
read only. -/
def psStore (die page : Nat) (v : Word) (s : State) : State :=
  match pageTile s die page with
  | none => s
  | some n =>
    let a := rfld s die page 0x190 9 0
    if shadowBusy s die n then badWrite die page s
    else
      let s := if a < 0x200 then
          setBank die n (1 - activeBank s die n) a (pair64 v (reg s die page 0x198)) s else s
      setReg die page 0x190 0 (w32 ((reg s die page 0x190).toNat / 1024 * 1024 + (a + 1) % 1024)) (setReg die page 0x194 0 v s)

/-- The reads of a PS_LOAD, one per granule: (address, first instruction, instructions). Fuel: the granules. -/
def psPieces : (fuel : Nat) → (addr first count : Nat) → List (Nat × Nat × Nat)
  | 0, _, _, _ => []
  | f + 1, addr, first, count =>
    if count = 0 then []
    else
      let k := min count ((512 - addr % 512) / 8)
      (addr, first, k) :: psPieces f (addr + 8 * k) (first + k) (count - k)

/-- The BULK READ of a patch load; FLAGS 2 names it among the requests of the port (log 29). -/
def psReq (s : State) (die n ctx : Nat) (sseq : BitVec 16) (addr bytes : Nat) : Packet :=
  { cls := .bulk, ctx := ctx, dest := w64 addr, opcode := 0, srcPkg := pkgNo s, srcDie := die, srcTile := n,
    srcPort := 0, sseq := sseq, flags := 2, operand := w64 bytes }

/-- An answer to a load's read: its instructions are stored, or OP 0x3F with LOAD_ERR (R289). Whether it was one. -/
def psAnswer (die n : Nat) (sseq : BitVec 16) (status : Nat) (data : List Byte) (s : State) : State :=
  match (drnTile s die n).load with
  | none => s
  | some l =>
    match l.reads.find? fun r => r.1 = sseq with
    | none => s
    | some (_, first, k) =>
      let bank := 1 - activeBank s die n
      let word (i : Nat) : DWord := if status = 0 then w64 (field data (8 * i) 8) else lw 0x3F 0 0 0 0 0 0
      let s := forEach (List.range k) (fun i s => setBank die n bank (first + i) (word i) s) s
      let s := modDrn die n (fun t => { t with load := some { l with reads := l.reads.filter fun r => r.1 ≠ sseq } }) s
      let pg := drnPage s die n
      if status = 0 then s else setReg die pg 0x180 0 (reg s die pg 0x180 ||| 0x40) s

/-- One read of a load: its request is sent, or it is refused here (R68, R80). -/
def psRead (die n ctx : Nat) (q : BitVec 16) (addr bytes : Nat) (s : State) : State :=
  match spanStatus s die n ctx (w64 addr) bytes with
  | 0 => sendFrom die n 10 (psReq s die n ctx q addr bytes) s
  | c => psAnswer die n q c [] s

/-- PS_LOAD_CMD: BULK READ requests of the context, from the tile's L0 port (R289, R291). -/
def psLoadStart (die page : Nat) (v : Word) (s : State) : State :=
  match pageTile s die page with
  | none => s
  | some n =>
    let ctx := wbits v 30 20
    let count := wbits v 19 10
    let first := wbits v 9 0
    if !v.toNat.testBit 31 then s
    else if shadowBusy s die n || (drnTile s die n).load.isSome || decide (first + count > 512) || decide (count = 0) then
      badWrite die page s
    else
      let addr := (reg64 s die page 0x1A0).toNat / 8 * 8
      let ps := psPieces 10 addr first count
      let q0 := (drnTile s die n).sseq
      let reqs := ps.zipIdx.map fun (p, i) => (q0 + BitVec.ofNat 16 i, p)
      let s := modDrn die n (fun t => { t with
        sseq := t.sseq + BitVec.ofNat 16 ps.length
        load := some { ctx := ctx, first := first, count := count, reads := reqs.map fun r => (r.1, r.2.2.1, r.2.2.2) } }) s
      forEach reqs (fun r s => psRead die n ctx r.1 r.2.1 (8 * r.2.2.2) s) s

/-- PS_LOAD_COMPLETE: every read has been answered; LOADING returns to 0. -/
def psLoadEnd (die n : Nat) (s : State) : State :=
  match (drnTile s die n).load with
  | some l => if l.reads = [] then modDrn die n (fun t => { t with load := none }) s else s
  | none => s

/-! ### Late work and resets (R103, R252, R271) -/

/-- Undispatched chunks of late runs of a bank no longer active become unstealable (R252). -/
def unstealLate (die n : Nat) (s : State) : State :=
  let a := activeBank s die n
  let f (t : DrnTile) (x : Task) : Task :=
    match look? t.runs x.run with
    | some r => if x.kind = .patch ∧ r.bank ≠ a then { x with stealable := false } else x
    | none => x
  modDrn die n (fun t => { t with queue := t.queue.map (f t) }) s

/-- A darner after a reset of context c: its work, its reservation and its steal of c are gone. -/
def drnWithout (c : Nat) (x : Darner) : Darner :=
  let mine := match x.task with | some t => decide (t.ctx = c) | none => false
  let res := match x.resv with | some r => decide (r.ctx = c) | none => false
  let ask := match x.asks with | some (_, q, _) => decide (q.ctx = c) | none => false
  let x := if mine then
      { x with since := 0, task := none, from_ := 0, holding := false, late := false, poisoned := false, mach := {} } else x
  let x := if res then { x with resv := none, resvFrom := 0 } else x
  if ask then { x with asks := none } else x

/-- A tile's darners without context c. -/
def tileWithout (c : Nat) (t : DrnTile) : DrnTile :=
  let heldOf (id : Nat) : Bool := match look? t.runs id with | some r => decide (r.ctx = c) | none => false
  { t with
    queue := t.queue.filter (fun x => x.ctx ≠ c)
    held := t.held.filter (fun id => !heldOf id)
    runs := t.runs.filter (fun e => e.2.ctx ≠ c)
    streams := t.streams.filter (fun e => !(e.2.active && e.2.ctx = c))
    load := (match t.load with | some l => if l.ctx = c then none else some l | none => none)
    darners := mapDarners (drnWithout c) t.darners }

/-- CONTEXT_RESET of c at a tile: its tasks, held outputs, streams, runs; no record (R271, R508). -/
def drnCtxReset (die n c : Nat) (s : State) : State :=
  modDrn die n (tileWithout c) (forEach (List.range 8) (fun d s =>
    match (darnerOf s die n d).task with | some t => if t.ctx = c then countBusy die n d s else s | none => s) s)

/-- A run ends with a status before its work is done: its tasks and its darners' work are discarded. -/
def abortRun (die n id code : Nat) (s : State) : State :=
  match runOf s die n id with
  | none => s
  | some r =>
    let s := modDrn die n (fun t => { t with queue := t.queue.filter fun x => !(x.kind = .patch && x.run = id) }) s
    let mine (t : Nat) (x : Darner) : Bool :=
      match x.task with | some k => k.kind = .patch && k.run = id && decide (ownerTile die t x = n) | none => false
    let s := forEach (n :: ([0, 1, 2, 3].filterMap fun k => meshNeighbour die n k)) (fun t s =>
      forEach (List.range 8) (fun d s => if mine t (darnerOf s die t d) then freeDarner die t d s else s) s) s
    fillQueue die n (dropRun die n id (runRecord die n r 2 r.xflags.toNat code r.outBytes (r.press % 2 ^ 32) s))

/-- The seams whose tasks the darners of a tile run for a neighbour. -/
def borrowedSeams (s : State) (die n : Nat) : List SeamRef :=
  (List.range 8).filterMap fun d =>
    let x := darnerOf s die n d
    match x.task with | some t => if x.from_ ≠ 0 then t.seam else none | none => none

/-- A tile's darners are reset (R271): runs whose chunks it borrowed complete with PART_RESET; its own darner state is
empty, and thieves that hold its tasks are freed. -/
def drnTileReset (die n : Nat) (s : State) : State :=
  let borrowed := (List.range 8).filterMap fun d =>
    let x := darnerOf s die n d
    match x.task with
    | some t => if x.from_ ≠ 0 ∧ t.kind = .patch then some (ownerTile die n x, t.run) else none
    | none => none
  let s := forEach borrowed (fun e s => abortRun die e.1 e.2 0x88 s) s
  let nbs := [0, 1, 2, 3].filterMap fun k => meshNeighbour die n k
  let s := forEach nbs (fun t s => forEach (List.range 8) (fun d s =>
    let x := darnerOf s die t d
    if x.from_ ≠ 0 ∧ ownerTile die t x = n then freeDarner die t d s else s) s) s
  { s with dr := { s.dr with tiles := drop s.dr.tiles (tk die n) } }

end Sys2Proof.Machine
end

