-- ==== Sys2Proof/Machine/SeamBase.lean ====
section
/-! DEFINITION. Seams (10): groups and member slots, descriptors and signatures, positions and outputs, the load size, the
die tree, and how values travel in packets. -/
namespace Sys2Proof.Machine

/-! ### Groups (R304 to R308) -/

/-- The home die and engine of a group (R304). -/
def homeDie (g : Nat) : Nat := memDies.getD (g % 16) 1
def homeEng (g : Nat) : Nat := g / 16 % 4

/-- Word w of a group's entry in effect. -/
def gWord (s : State) (g w : Nat) : Word := reg s (homeDie g) (seamPage (homeEng g) 1) (0x110 + 4 * w) g
def gf (s : State) (g w hi lo : Nat) : Nat := wbits (gWord s g w) hi lo

def gValid (s : State) (g : Nat) : Bool := (gWord s g 0).toNat.testBit 31 && !decide (g ∈ s.se.badGroups)
def gXpkg (s : State) (g : Nat) : Bool := (gWord s g 0).toNat.testBit 30
def gDarners (s : State) (g : Nat) : Nat := gf s g 0 14 11
def gCtx (s : State) (g : Nat) : Nat := gf s g 0 10 0
def gLocal (s : State) (g : Nat) : Nat := gf s g 1 30 16
def gBase (s : State) (g : Nat) : Nat := gf s g 1 13 0
def gMembers (s : State) (g : Nat) : Nat := (gWord s g 2).toNat
def gRankBase (s : State) (g : Nat) : Nat := (gWord s g 3).toNat
def gQ (s : State) (g : Nat) : Nat := gf s g 4 23 16
def gHdims (s : State) (g : Nat) : Nat := gf s g 4 13 8
def gXe (s : State) (g : Nat) : Nat := gf s g 4 6 6
def gXdie (s : State) (g : Nat) : Nat := gf s g 4 5 0
def gLoadMax (s : State) (g : Nat) : Nat := if gf s g 5 23 0 = 0 then 16384 else gf s g 5 23 0
def gNext (s : State) (g : Nat) : Nat := gf s g 6 31 20
def gPrev (s : State) (g : Nat) : Nat := gf s g 6 19 8
def gPos (s : State) (g : Nat) : Nat := gf s g 6 7 0
def gPartner (s : State) (g d : Nat) : Nat :=
  if d % 2 = 0 then gf s g (8 + d / 2) 11 0 else gf s g (8 + d / 2) 23 12

/-- The hypercube dimensions of a group, ascending. -/
def gDims (s : State) (g : Nat) : List Nat := (List.range 6).filter fun d => (gHdims s g).testBit d

/-- R307: an entry that a commit puts into effect is taken as invalid. -/
def groupBad (s : State) (g : Nat) : Bool :=
  let D := gDarners s g
  (gWord s g 0).toNat.testBit 31 &&
    (D = 0 || D > 8 || gLocal s g = 0 || gLocal s g > 16384 || gBase s g + gLocal s g > 16384 ||
      gRankBase s g + gLocal s g > gMembers s g || (!gXpkg s g && gLocal s g ≠ gMembers s g) ||
      (gXpkg s g && (dieType (gXdie s g) ≠ .io || gQ s g = 0 || gQ s g > 64 || gPos s g ≥ gQ s g)) ||
      gLoadMax s g % 32 ≠ 0 ||
      gf s g 0 29 15 ≠ 0 || (gWord s g 1).toNat.testBit 31 || gf s g 1 15 14 ≠ 0 || gf s g 4 31 24 ≠ 0 ||
      gf s g 4 15 14 ≠ 0 || gf s g 4 7 7 ≠ 0 || gf s g 5 31 24 ≠ 0 || gWord s g 7 ≠ 0 ||
      gf s g 8 31 24 ≠ 0 || gf s g 9 31 24 ≠ 0 || gf s g 10 31 24 ≠ 0 || gWord s g 11 ≠ 0)

/-- Member slots of a die: every engine's subpage 2 reaches one bank, kept under engine 0 (R353). -/
def slotKey (die : Nat) : Nat := pk die (seamPage 0 2) * 4096 + 0x104
def slotWord (s : State) (die i : Nat) : Word := reg s die (seamPage 0 2) 0x104 i

/-- The endpoint of a slot word: primary, backup. -/
def slotPrimary (w : Word) : Nat × Nat := (wbits w 12 7, wbits w 6 0)
def slotBackup (w : Word) : Option (Nat × Nat) := if w.toNat.testBit 30 then some (wbits w 25 20, wbits w 19 13) else none

/-- The slot of an endpoint in a group: the lowest that names it; its index in the group (R308). -/
def findSlot (s : State) (g die tile : Nat) : Option (Nat × Word) :=
  let base := gBase s g
  let hit (e : Nat × Word) : Bool :=
    e.1 / 16384 = slotKey (homeDie g) && decide (base ≤ e.1 % 16384) && decide (e.1 % 16384 < base + gLocal s g) &&
      e.2.toNat.testBit 31 && (slotPrimary e.2 = (die, tile) || slotBackup e.2 = some (die, tile))
  (s.rg.eff.find? hit).map fun e => (e.1 % 16384 - base, e.2)

/-- Key of an endpoint's count in a group. -/
def seqKey (g die tile : Nat) : Nat := g * 65536 + tk die tile

/-! ### Descriptors (R313 to R315) -/

def descOf (x : List Byte) : SeamDesc :=
  { kind := field x 0 1, op := field x 1 1, flags := field x 2 1, resv3 := field x 3 1, group := field x 4 2 % 4096,
    groupHi := field x 4 2 / 4096, tag := BitVec.ofNat 16 (field x 6 2), xctl := w32 (field x 8 4), root := field x 0xC 4,
    count := field x 0x10 8 % 2 ^ 40, countHi := field x 0x10 8 / 2 ^ 40, src := w64 (field x 0x18 8),
    dst := w64 (field x 0x20 8), dstLimit := field x 0x28 8, seed := w64 (field x 0x30 8), cntDst := w64 (field x 0x38 8) }

def isComb (op : Nat) : Bool := 1 ≤ op && op ≤ 3
def isVar (op : Nat) : Bool := 7 ≤ op && op ≤ 9
def isOrdered (op : Nat) : Bool := 5 ≤ op && op ≤ 9
def isRooted (op : Nat) : Bool := op = 2 || op = 4 || op = 6 || op = 8 || op = 9
def crossOp (op : Nat) : Bool := op = 1 || op = 2 || op = 4 || op = 5
def combOf (d : SeamDesc) : Nat := d.flags % 4
def isDesc (d : SeamDesc) : Bool := d.flags.testBit 2
def isOrigin (d : SeamDesc) : Bool := d.flags.testBit 3
def noSteal (d : SeamDesc) : Bool := d.flags.testBit 4
def isF64 (d : SeamDesc) : Bool := xInFmt d.xctl = 0x18
def isSort (d : SeamDesc) : Bool := d.op = 9

/-- Bytes of n input elements, with the scales of an MX input (R204). -/
def inBytes (d : SeamDesc) (n : Nat) : Nat :=
  n * fmtBits (xInFmt d.xctl) / 8 + (if isMX (xInFmt d.xctl) then n / 32 else 0)

/-- The size of an output element or record (R314). -/
def outElem (d : SeamDesc) : Nat :=
  if isComb d.op then outSize (xOutFmt d.xctl)
  else fmtBits (xInFmt d.xctl) / 8 + (if isSort d && isOrigin d then 8 else 0)

/-- An address a member uses: memory of its own package. -/
def ownMem (s : State) (a : DWord) : Bool := aRegion a = 0 && aPkg a = pkgNo s

/-- SEAM_BAD_DESC (R315) of an open of rank r. The extent of DST is DST_LIMIT (DEDUCED, log 104). -/
def seamBadDesc (s : State) (d : SeamDesc) (r : Nat) : Bool :=
  let g := d.group
  let usesDst := !(d.op = 2 || d.op = 6 || d.op = 8 || d.op = 9) || d.root = r
  let usesSrc := d.op ≠ 4 || d.root = r
  let n := inBytes d d.count
  let overlap := usesSrc && usesDst && !(d.op = 1 && d.src = d.dst) && decide (d.src.toNat < d.dst.toNat + d.dstLimit) &&
    decide (d.dst.toNat < d.src.toNat + n)
  d.kind ≠ 0x10 || d.op = 0 || d.op > 9 || d.resv3 ≠ 0 || d.flags ≥ 32 || d.groupHi ≠ 0 || d.countHi ≠ 0 ||
    combOf d = 3 || (!isComb d.op && combOf d ≠ 0) || ((isDesc d || isOrigin d) && d.op ≠ 9) ||
    (!isVar d.op && d.count = 0) || (d.op = 3 && d.count % gMembers s g ≠ 0) ||
    d.root ≥ gMembers s g || (!isRooted d.op && d.root ≠ 0) ||
    (usesSrc && !ownMem s d.src) || (usesDst && !ownMem s d.dst) || (d.cntDst ≠ 0 && !ownMem s d.cntDst) || overlap ||
    (d.cntDst ≠ 0 && !isVar d.op) || (gXpkg s g && !crossOp d.op)

/-- XA_BAD_FORMAT of an open (R222, R315). -/
def seamBadFmt (d : SeamDesc) : Bool :=
  xctlBad d.xctl (if isComb d.op then .combine else .move) true true || (isMX (xInFmt d.xctl) && d.count % 32 ≠ 0)

/-- The signature record (R322). -/
def sigOf (d : SeamDesc) (epoch : Nat) : List Byte :=
  leBytes 1 d.op ++ leBytes 1 (d.flags % 16) ++ [0, 0] ++ leBytes 4 d.xctl.toNat ++ leBytes 4 d.root ++ leBytes 4 epoch ++
    leBytes 8 (if isVar d.op then 0 else d.count) ++ leBytes 8 d.seed.toNat

/-! ### Records -/

def recOf (s : State) (k : Nat) : Option SeamRec := look? s.se.recs k
def modRec (k : Nat) (f : SeamRec → SeamRec) (s : State) : State :=
  match look? s.se.recs k with
  | some r => { s with se := { s.se with recs := ins s.se.recs k (f r) } }
  | none => s

/-- The die, engine and slot of a record's key. -/
def keyDie (k : Nat) : Nat := k / 256 / 4
def keyEng (k : Nat) : Nat := k / 256 % 4
def keySlot (k : Nat) : Nat := k % 256
def keyPage (k : Nat) : Nat := seamPage (keyEng k) 0

/-- How packets and tiles name a seam of this package. -/
def refOf (s : State) (k : Nat) (r : SeamRec) : SeamRef :=
  { pkg := pkgNo s, die := keyDie k, eng := keyEng k, slot := keySlot k, group := r.group, gseq := r.gseq, ctx := r.ctx,
    darners := if (match r.opens with | o :: _ => isF64 o.desc | [] => false) then 0 else gDarners s r.group,
    ordered := match r.opens with | o :: _ => isOrdered o.desc.op | [] => false }
def keyOf (r : SeamRef) : Nat := seamKey r.die r.eng r.slot

/-- The record a reference names, if it still is that seam. -/
def recAt (s : State) (r : SeamRef) : Option SeamRec :=
  match recOf s (keyOf r) with
  | some x => if x.group = r.group ∧ x.gseq = r.gseq then some x else none
  | none => none

/-- Opens that give input, by rank; the descriptor all members agree on. -/
def serving (r : SeamRec) : List MemberOpen :=
  sortBy (fun a b => decide (a.rank < b.rank)) (r.opens.filter fun o => !o.shadow)
def descOfRec (r : SeamRec) : SeamDesc := match serving r with | o :: _ => o.desc | [] => {}

/-- Opens whose tiles take part: the serving ones and the joined shadows (R344). -/
def partOpens (r : SeamRec) : List MemberOpen := r.opens.filter fun o => !o.shadow || o.joined

/-- The tiles of a seam. -/
def seamTiles (r : SeamRec) : List (Nat × Nat) := ((partOpens r).map fun o => (o.die, o.tile)).eraseDups

/-! ### Positions (R312, R324, R331) -/

/-- T. -/
def totalOf (s : State) (r : SeamRec) : Nat :=
  let d := descOfRec r
  match d.op with
  | 5 | 6 => gMembers s r.group * d.count
  | 7 | 8 | 9 => (serving r).foldl (fun a o => a + o.desc.count) 0
  | _ => d.count

/-- The first position of rank q's elements in a gather or sort. -/
def rankStart (r : SeamRec) (q : Nat) : Nat :=
  let d := descOfRec r
  if isVar d.op then ((serving r).filter fun o => o.rank < q).foldl (fun a o => a + o.desc.count) 0
  else q * d.count

/-- The positions delivered to rank q (R310, R312). -/
def outRange (s : State) (r : SeamRec) (q : Nat) : Nat × Nat :=
  let d := descOfRec r
  let t := r.total
  let M := gMembers s r.group
  match d.op with
  | 2 | 6 | 8 | 9 => if q = d.root then (0, t) else (0, 0)
  | 3 => (q * (t / M), (q + 1) * (t / M))
  | _ => (0, t)

/-- A load's first position and its positions. -/
def loadFirst (r : SeamRec) (k : Nat) : Nat := k * r.load
def loadCount (r : SeamRec) (k : Nat) : Nat := min r.load (r.total - k * r.load)
def nLoads (r : SeamRec) : Nat := ceilDiv r.total r.load

/-- The part of rank q's delivered range in a load, as positions of the load. -/
def outInLoad (s : State) (r : SeamRec) (k q : Nat) : Nat × Nat :=
  let rp := outRange s r q
  let a := rp.1
  let b := rp.2
  let f := loadFirst r k
  (max a f - f, min b (f + loadCount r k) - f)

/-- The part of rank q's own elements in a load of a gather or sort, as positions of the load. -/
def ownInLoad (r : SeamRec) (k : Nat) (o : MemberOpen) : Nat × Nat :=
  let a := rankStart r o.rank
  let f := loadFirst r k
  (max a f - f, min (a + o.desc.count) (f + loadCount r k) - f)

/-- Bytes of output of rank q, or of its count array, are over DST_LIMIT (R323, R324); where DST_LIMIT is ignored (R314) nothing is
held against it. -/
def outFull (s : State) (r : SeamRec) (o : MemberOpen) : Bool :=
  let rp := outRange s r o.rank
  let a := rp.1
  let b := rp.2
  let ignored := decide (o.desc.op ∈ [2, 6, 8, 9]) && decide (o.rank ≠ o.desc.root)
  !ignored && ((b - a) * outElem o.desc > o.desc.dstLimit ||
    (o.desc.cntDst ≠ 0 && 8 * gMembers s r.group > o.desc.dstLimit))

/-! ### Load size (R332) -/

/-- The bridge of the home die by which a die's routes enter (leave) it, per dimension (R136, R139). -/
def enterU (home d : Nat) : Option Nat :=
  if dieU d = dieU home then none else some (if ringPlus (dieU d) (dieU home) then 1 else 0)
def enterV (home d : Nat) : Option Nat :=
  if dieV d = dieV home then none else some (if ringPlus (dieV d) (dieV home) then 3 else 2)
def leaveU (home d : Nat) : Option Nat :=
  if dieU d = dieU home then none else some (if ringPlus (dieU home) (dieU d) then 0 else 1)
def leaveV (home d : Nat) : Option Nat :=
  if dieV d = dieV home then none else some (if ringPlus (dieV home) (dieV d) then 2 else 3)

/-- The greatest count over the four bridges of the home die. -/
def maxBridge (f g : Nat → Option Nat) (ds : List Nat) : Nat :=
  [0, 1, 2, 3].foldl (fun m b => max m (ds.filter fun d => f d = some b || g d = some b).length) 0

/-- A seam is W-bound (R332). -/
def wBound (d : SeamDesc) : Bool := decide (xInFmt d.xctl ∈ [0x01, 0x03, 0x04, 0x10, 0x11, 0x12]) || combOf d ≠ 0

/-- t(l) of a seam, and its limit (R332). -/
def loadTime (s : State) (home : Nat) (r : SeamRec) (l : Nat) : Nat :=
  let d := descOfRec r
  let g := r.group
  let dies := ((serving r).map (·.die)).eraseDups
  let D := dies.length
  let dIn := maxBridge (enterU home) (enterV home) dies
  let dOut := maxBridge (leaveU home) (leaveV home) dies
  let mIn := maxBridge (enterU home) (enterV home) ((serving r).map (·.die))
  let M := gLocal s g
  let o := outElem d
  let e := outElem d
  let c8 := match fmtBits (xInFmt d.xctl) with | 32 => 8 | 16 => 4 | _ => 2
  let p := if wBound d then 1 else 3
  let b := if wBound d then 20 else 48
  let h := (gDims s g).length
  let body :=
    if isF64 d then (0, ceilDiv (mIn * l * 8) 512, ceilDiv (M * l) 8, ceilDiv (dOut * l * o) 512, 272)
    else if isComb d.op then
      (ceilDiv (ceilDiv l 32) (gDarners s g) * (c8 + 24 * p), ceilDiv (dIn * l * b) 512, ceilDiv (D * l * p) 64,
        ceilDiv (dOut * l * o) 512, b)
    else (0, ceilDiv (l * e) 512, if isSort d then ceilDiv l 4 else ceilDiv (l * e) 64, ceilDiv (dOut * l * e) 512, e)
  let tx := if gXpkg s g then ceilDiv ((2 + h) * l * body.2.2.2.2) 200 + 2048 else 0
  1024 + max body.1 (max body.2.1 body.2.2.1) + body.2.2.2.1 + tx

def loadLimit (s : State) (home : Nat) (r : SeamRec) : Nat :=
  budgetB s home - (if gXpkg s r.group then ceilDiv (phaseLimit s home * 64) 5 else 0)

/-- The largest k in lo + 1 … lo + 2^n − 1 or lo that holds, for a property that holds below and fails above (bisection). -/
def bisect (p : Nat → Bool) : (n lo : Nat) → Nat
  | 0, lo => lo
  | n + 1, lo => if p (lo + 2 ^ n) then bisect p n (lo + 2 ^ n) else bisect p n lo

/-- L, or none: PRESS_TOO_SHORT (R332). -/
def loadSize (s : State) (home : Nat) (r : SeamRec) : Option Nat :=
  let lim := loadLimit s home r
  if isSort (descOfRec r) then (if loadTime s home r r.total ≤ lim then some r.total else none)
  else
    let k := bisect (fun k => decide (32 * k ≤ gLoadMax s r.group) && decide (loadTime s home r (32 * k) ≤ lim)) 20 0
    if k = 0 then none else some (32 * k)

/-! ### The die tree (R333) -/

/-- The serving member tiles of a die, ascending. -/
def treeTiles (r : SeamRec) (die : Nat) : List Nat :=
  sortBy (fun a b => decide (a < b)) (((serving r).filter fun o => o.die = die).map (·.tile))

def dieRoot (r : SeamRec) (die : Nat) : Option Nat := (treeTiles r die).head?

/-- The parent of a member tile: the nearest member to its left in its row, else the first member of the nearest lower
row that holds members. -/
def treeParent (r : SeamRec) (die t : Nat) : Option Nat :=
  let ts := treeTiles r die
  let left := ts.filter fun x => tRow die x = tRow die t && decide (x < t)
  match left.getLast? with
  | some x => some x
  | none =>
    let below := ts.filter fun x => decide (tRow die x < tRow die t)
    match below.getLast? with
    | none => none
    | some y => below.find? fun x => tRow die x = tRow die y

def treeChildren (r : SeamRec) (die t : Nat) : List Nat := (treeTiles r die).filter fun x => treeParent r die x = some t

/-- A seam whose members all lie on one die of one package: the die root is the delivering unit (R335); not on the FP64 path,
which reserves no darner for DELIVER tasks (R350; DEDUCED, log 33). -/
def rootDelivers (s : State) (r : SeamRec) : Bool :=
  !isF64 (descOfRec r) && !gXpkg s r.group && ((serving r).map (·.die)).eraseDups.length = 1

/-! ### Values (R206 to R208, R230, R351) -/

/-- Combining two values: partials exactly, elements by the one contributor (R198, R348). -/
def joinVal (kind : Nat) (a b : SVal) : SVal :=
  { acc := accComb kind a.acc b.acc, dacc := accComb kind a.dacc b.dacc, elem := if a.elem = [] then b.elem else a.elem,
    n := a.n + b.n }

/-- Values joined into a store, from a first position on. -/
def joinVals (kind : Nat) (m : SMap SVal) : (pos : Nat) → List SVal → SMap SVal
  | _, [] => m
  | p, v :: vs => joinVals kind (upd {} m p fun x => joinVal kind x v) (p + 1) vs

/-- A value as it travels: whether long, and its bytes; an absent element is zeros and marked (log 34). -/
def encodeVal (d : SeamDesc) (v : SVal) : Bool × List Byte :=
  if !isComb d.op then (v.elem ≠ [], padTo (fmtBits (xInFmt d.xctl) / 8) v.elem)
  else if isF64 d then encodeDW v.dacc else encodeW v.acc

/-- The EXT of SEAM_PART and SEAM_DATA (R351). -/
def seamExt (eng slot load first forms n : Nat) : List Byte :=
  leBytes 2 (eng * 256 + slot) ++ [0, 0] ++ leBytes 4 load ++ leBytes 4 first ++ leBytes 4 forms ++ leBytes 2 n ++
    List.replicate 30 0

/-- The fields of EXT. -/
def extLoad (p : Packet) : Nat := field p.ext 4 4
def extFirst (p : Packet) : Nat := field p.ext 8 4
def extForms (p : Packet) : Nat := field p.ext 12 4
def extCount (p : Packet) : Nat := field p.ext 16 2

/-- Cuts encoded values into packets' worth: at most 512 bytes and 32 values; none spans two. Each piece: the first
value's index, FORMS, count, bytes. -/
def packVals : (idx first forms n : Nat) → (bytes : List Byte) → List (Bool × List Byte) →
    List (Nat × Nat × Nat × List Byte)
  | _, first, forms, n, bytes, [] => if n = 0 then [] else [(first, forms, n, bytes)]
  | idx, first, forms, n, bytes, (l, b) :: vs =>
    if n = 32 ∨ bytes.length + b.length > 512 then
      (first, forms, n, bytes) :: packVals (idx + 1) idx (b2n l) 1 b vs
    else packVals (idx + 1) first (forms + b2n l * 2 ^ n) (n + 1) (bytes ++ b) vs

/-- Values of a packet's payload: partials by FORMS, or elements. -/
def unpackVals (d : SeamDesc) (part : Bool) (marked : Bool) : (n forms : Nat) → List Byte → List SVal
  | 0, _, _ => []
  | k + 1, forms, bs =>
    let long := forms % 2 = 1
    if !isComb d.op then
      let w := fmtBits (xInFmt d.xctl) / 8
      { elem := if marked && !long then [] else bs.take w, n := 1 } :: unpackVals d part marked k (forms / 2) (bs.drop w)
    else if isF64 d then
      if part then
        let w := if long then 272 else 24
        { dacc := decodeDW long (bs.take w), n := 1 } :: unpackVals d part marked k (forms / 2) (bs.drop w)
      else { dacc := enter 1074 0x18 (field bs 0 8), n := 1 } :: unpackVals d part marked k (forms / 2) (bs.drop 8)
    else
      let w := if long then 48 else 20
      { acc := decodeW long (bs.take w), n := 1 } :: unpackVals d part marked k (forms / 2) (bs.drop w)

/-- Some value of a list came from an invalid partial: XA_FORM (R209). -/
def anyBad (vs : List SVal) : Bool := vs.any fun v => v.acc.bad || v.dacc.bad

/-- A packet of values combined from an invalid partial carries INVALID in FLAGS, so that the delivered element sets it (R209,
R232; the manual names no carrier: DESIGN CHOICE, log 124). -/
def badFlags (vs : List SVal) : Byte := flagIf (anyBad vs) xInvalid

/-- The values of a packet that carries INVALID: those that are NaN came from an invalid partial. -/
def inherit (p : Packet) (vs : List SVal) : List SVal :=
  if p.flags &&& xInvalid = 0 then vs
  else vs.map fun v => { v with acc := { v.acc with bad := v.acc.bad || v.acc.nan }, dacc := { v.dacc with bad := v.dacc.bad || v.dacc.nan } }

/-- SRC_TILE of a seam's packet: an engine is a die-level endpoint (R67, R116). -/
def seamSrc (tile port : Nat) : Nat := if port = 9 then 0xFF else tile

/-- A REDUCE packet of a seam (R351). -/
def reducePkt (s : State) (op ctx srcDie srcTile srcPort : Nat) (dst : DWord) (ext payload : List Byte) : Packet :=
  { cls := .reduce, ctx := ctx, dest := dst, opcode := BitVec.ofNat 8 op, srcPkg := pkgNo s, srcDie := srcDie,
    srcTile := seamSrc srcTile srcPort, srcPort := srcPort, ext := ext, payload := payload, len := ceilDiv payload.length 64,
    why := List.replicate (ceilDiv payload.length 64) 0 }

/-- A control packet of a seam. -/
def seamCtrl (s : State) (op ctx srcDie srcTile srcPort : Nat) (dst : DWord) (operand : Nat) (payload : List Byte) : Packet :=
  { cls := .ctrl, ctx := ctx, dest := dst, opcode := BitVec.ofNat 8 op, srcPkg := pkgNo s, srcDie := srcDie,
    srcTile := seamSrc srcTile srcPort, srcPort := srcPort, operand := w64 operand, payload := payload, len := ceilDiv payload.length 16,
    why := List.replicate (ceilDiv payload.length 16) 0 }

/-- The address of an engine's record, of a tile's reserved basket. -/
def engAddr (pkg die eng slot : Nat) : DWord := epAddr pkg die 0xFF 9 (256 * eng + slot)
def tileAddr (s : State) (die tile basket : Nat) : DWord := epAddr (pkgNo s) die tile 1 (basket % 64)

/-- The port an engine sends by: L1 on a memory-side die, L0 on an I/O die (R301). -/
def engPort (die : Nat) : Nat := dieUnitPort die

/-- An engine sends a packet of a record; SSEQ names engine and record, so that a LINK_DOWN finds its seam (R449; log 28). A home
engine's REDUCE packets to other dies take the collector (R302). -/
def engSend (k : Nat) (p : Packet) (s : State) : State :=
  let p := { p with sseq := BitVec.ofNat 16 (k % 1024) }
  let n := engTile (keyDie k) (keyEng k)
  if p.cls = .reduce ∧ dieType (keyDie k) = .memside ∧ !(aPkg p.dest = pkgNo s ∧ aDie p.dest = keyDie k) then
    collectorSend (keyDie k) n p s
  else sendFrom (keyDie k) n (engPort (keyDie k)) p s

/-- A member tile sends a packet of a seam; SSEQ names the home engine's record. -/
def tileSend (die n : Nat) (q : SeamRef) (p : Packet) : State → State :=
  sendFrom die n 10 { p with sseq := BitVec.ofNat 16 (256 * q.eng + q.slot) }

/-- Packets for values: SEAM_PART or SEAM_DATA from an endpoint to an address; `first` positions from the load's start.
`poison` marks them as data of a slot error (R268). -/
def valPackets (s : State) (op ctx srcDie srcTile srcPort : Nat) (dst : DWord) (eng slot load first : Nat) (poison : Bool)
    (vs : List (Bool × List Byte)) : List Packet :=
  (packVals 0 0 0 0 [] vs).map fun (i, forms, n, bytes) =>
    let p := reducePkt s op ctx srcDie srcTile srcPort dst (seamExt eng slot load (first + i) forms n) bytes
    if poison then { p with why := p.why.map fun _ => 1 } else p

/-- The first delivered packet of an opcode at a tile is consumed. -/
def consumeOp (die tile : Nat) (op : Byte) (s : State) : State :=
  { s with nt := { s.nt with delivered :=
      (takeFirst (fun w : Wire => w.die = die && w.tile = tile && w.pkt.opcode = op) s.nt.delivered).2 } }

end Sys2Proof.Machine
end

