-- ==== Sys2Proof/Machine/SeamResv.lean ====
section
/-! DEFINITION. Reservation of seams at member tiles and stage engines (10: R253 to R256, R326 to R330). -/
namespace Sys2Proof.Machine

/-- Reservations known at a tile; on an I/O die the tile of a stage engine stands for the engine. -/
def resvOf (s : State) (die n : Nat) : List TileResv := look [] s.se.resv (tk die n)
def modResv (die n : Nat) (f : List TileResv → List TileResv) (s : State) : State :=
  { s with se := { s.se with resv := upd [] s.se.resv (tk die n) f } }

/-- The BSK page of a tile; its basket share for seams (R384). -/
def bskPage (s : State) (die n : Nat) : Nat := tpage (physTile s die n) 5
def seamShare (s : State) (die n : Nat) : Nat := rfld s die (bskPage s die n) 0x100 6 0

/-- Ticket order (R318). -/
def ticketLt (a b : SeamRef) : Bool := decide (a.group < b.group) || (a.group = b.group && decide (a.gseq < b.gseq))

/-- The stage engine at a tile of an I/O die, the engine of a home die's records. -/
def stageEng (n : Nat) : Nat := if n = 4 then 0 else 1

/-- The lowest free open-seam record of an engine (R319). -/
def freeRec (s : State) (die eng : Nat) : Option Nat :=
  (List.range 256).find? fun i => (look? s.se.recs (seamKey die eng i)).isNone

/-- Resources of a tile with some reservations taken as given back. -/
structure TileFree where
  darners : Nat
  stream : Option Nat
  basket : Option Nat
  record : Option Nat
deriving DecidableEq, Repr

def tileFree (s : State) (die n : Nat) (without : List TileResv) : TileFree :=
  let held := (resvOf s die n).filter fun r => r.granted && !decide (r ∈ without)
  let back := without.foldl (fun a r => a + r.darners.length) 0
  let used := reservedCount s die n - back
  let cap := min 8 (rfld s die (drnPage s die n) 0x108 3 0)
  { darners := cap - used
    stream := (List.range 12).find? fun k => held.all fun r => r.stream ≠ k
    basket := (List.range (seamShare s die n)).find? fun k => held.all fun r => r.basket ≠ k
    record := freeRec s die (stageEng n) }

/-- A request fits (R326). -/
def resvFits (s : State) (die n : Nat) (q : SeamRef) (without : List TileResv) : Bool :=
  let f := tileFree s die n without
  if dieType die = .io then f.record.isSome || without ≠ []
  else decide (q.darners ≤ f.darners) && (!q.ordered || f.stream.isSome) && f.basket.isSome

/-- The port code of the endpoint that reserves: a tile's reduction endpoint, a stage engine (R67). -/
def resvPort (die : Nat) : Nat := if dieType die = .io then 9 else 1

/-- A tile answers a seam's engine: SEAM_GRANT with an outcome word. -/
def sendGrant (die n : Nat) (q : SeamRef) (a : Adm) (s : State) : State :=
  tileSend die n q (seamCtrl s 0xA2 q.ctx die n (resvPort die) (engAddr q.pkg q.die q.eng q.slot) (admWord a) []) s

/-- A failure joins a record's (R341). -/
def seamFail (k code rank : Nat) : State → State := modRec k fun r => { r with fails := r.fails ++ [(code, rank)] }

/-- What a poisoned packet fails its seam with (R135, R342). -/
def poisonFail (k : Nat) (p : Packet) (s : State) : State :=
  if poisonStatus p = 0x26 then seamFail k 0x26 0 s else if poisonStatus p ≠ 0 then seamFail k 0x88 0 s else s

/-- An invalid partial raises XA_FORM at the engine (R209). -/
def engBad (k : Nat) (r : SeamRec) (vs : List SVal) (s : State) : State :=
  if anyBad vs then raise (keyDie k) (keyPage k) 0 (some r.ctx) 0 s else s

/-- Packets that reached a stage engine before its record existed join the record (log 35); a poisoned or invalid one acts as
if it came now. `home` is the key of the home engine's record. -/
def takeEarly (k home : Nat) (d : SeamDesc) (s : State) : State :=
  match recOf s k with
  | none => s
  | some r =>
    let e := ek (keyDie k) (keyEng k)
    let tag := r.group * 2 ^ 48 + r.gseq
    let rp := (look [] s.se.early e).partition fun p => p.operand.toNat = tag
    let mine := rp.1
    let rest := rp.2
    let read (p : Packet) : List SVal := unpackVals d (p.opcode = 0x25) true (extCount p) (extForms p) p.payload
    let box := mine.flatMap fun p => (inherit p (read p)).zipIdx.map fun (v, i) =>
        ({ load := extLoad p, pkg := p.srcPkg, pos := extFirst p + i, val := v } : InBox)
    let s := { s with se := { s.se with early := put [] s.se.early e rest } }
    let s := forEach mine (fun p s => engBad k r (read p) (poisonFail home p s)) s
    modRec k (fun r => { r with inbox := r.inbox ++ box }) s

/-- A tile grants a request: the lowest unreserved darners, the lowest free stream and basket (R253, R384); on a stage
engine a record. -/
def grantResv (die n : Nat) (q : SeamRef) (s : State) : State :=
  let f := tileFree s die n []
  if dieType die = .io then
    let slot := f.record.getD 0
    let k := seamKey die (stageEng n) slot
    let d := match recAt s q with | some r => descOfRec r | none => {}
    let opens := match recAt s q with | some r => r.opens | none => []
    let r : SeamRec := { group := q.group, gseq := q.gseq, ctx := q.ctx, phase := 1, first := waitPress s die, opens := opens,
                         home := some q }
    let s := { s with se := { s.se with recs := ins s.se.recs k r } }
    let s := modRec (keyOf q) (fun r => { r with stage := some { q with die := die, eng := stageEng n, slot := slot } }) s
    let s := modResv die n (fun rs => rs.map fun r => if sameSeam r.ref q then { r with granted := true, basket := slot } else r) s
    takeEarly k (keyOf q) d (sendGrant die n q .accept s)
  else
    let ds := ((List.range 8).filter fun d => (darnerOf s die n d).resv = none).take q.darners
    let st := if q.ordered then f.stream.getD 16 else 16
    let s := forEach ds (fun d s => modDarner die n d (fun x => { x with resv := some q, resvFrom := 0 }) s) s
    let s := if st < 12 then modDrn die n (fun t => { t with streams := put {} t.streams st { active := true, ctx := q.ctx } }) s else s
    let s := modResv die n (fun rs => rs.map fun r =>
      if sameSeam r.ref q then { r with granted := true, darners := ds, stream := st, basket := f.basket.getD 64 } else r) s
    sendGrant die n q .accept s

/-- The seams of higher ticket whose resources would be enough, highest first, as few as suffice (R327). -/
def victims (s : State) (die n : Nat) (q : SeamRef) : List TileResv :=
  let cand := sortBy (fun a b => ticketLt b.ref a.ref)
    ((resvOf s die n).filter fun r => r.granted && !r.set && ticketLt q r.ref)
  match ((List.range (cand.length + 1)).find? fun i => resvFits s die n q (cand.take i)) with
  | some i => cand.take i
  | none => []

/-- Asks the engines of seams to yield. -/
def askYield (die n : Nat) (vs : List TileResv) (s : State) : State :=
  forEach (vs.filter fun r => !r.asked) (fun r s =>
    let s := modResv die n (fun rs => rs.map fun x => if sameSeam x.ref r.ref then { x with asked := true } else x) s
    tileSend die n r.ref (seamCtrl s 0x23 r.ref.ctx die n (resvPort die) (engAddr r.ref.pkg r.ref.die r.ref.eng r.ref.slot) 0 []) s) s

/-- Evaluates one waiting request (R327, R328). -/
def evalOne (die n : Nat) (q : SeamRef) (s : State) : State :=
  let refuse (c : Nat) (s : State) : State :=
    sendGrant die n q (.refuse c) (modResv die n (fun rs => rs.filter fun r => !sameSeam r.ref q) s)
  if dieType die ≠ .io ∧ q.darners > rfld s die (drnPage s die n) 0x108 3 0 then refuse 0x3C s
  else if dieType die ≠ .io ∧ seamShare s die n = 0 then refuse 0x53 s
  else if resvFits s die n q [] then grantResv die n q s
  else
    let s := askYield die n (victims s die n q) s
    match (resvOf s die n).find? fun r => sameSeam r.ref q with
    | some r =>
      if r.told then s
      else sendGrant die n q (.defer 0x52)
        (modResv die n (fun rs => rs.map fun x => if sameSeam x.ref q then { x with told := true } else x) s)
    | none => s

/-- Evaluates the waiting requests of a tile in ticket order (R327). -/
def evalResv (die n : Nat) (s : State) : State :=
  let ws := sortBy ticketLt (((resvOf s die n).filter fun r => !r.granted).map (·.ref))
  forEach ws (evalOne die n) s

/-- A darner that runs a task of a seam drops it. -/
def dropSeamTask (q : SeamRef) (die t d : Nat) (s : State) : State :=
  match (darnerOf s die t d).task with
  | some x => (match x.seam with | some r => if sameSeam r q then freeDarner die t d s else s | none => s)
  | none => s

/-- Releases what a seam holds at a tile: darners, stream, basket, queue entries, load data; thieves drop its tasks
(R256). -/
def releaseAt (die n : Nat) (q : SeamRef) (s : State) : State :=
  let mine (r : Option SeamRef) : Bool := match r with | some x => sameSeam x q | none => false
  match (resvOf s die n).find? fun r => sameSeam r.ref q with
  | none => s
  | some r =>
    let s := modResv die n (fun rs => rs.filter fun x => !sameSeam x.ref q) s
    if dieType die = .io then
      if r.granted then { s with se := { s.se with recs := drop s.se.recs (seamKey die (stageEng n) r.basket) } } else s
    else
      let s := forEach (n :: ([0, 1, 2, 3].filterMap fun k => meshNeighbour die n k)) (fun t s =>
        forEach (List.range 8) (fun d s =>
          if ownerTile die t (darnerOf s die t d) = n then dropSeamTask q die t d s else s) s) s
      let unres (x : Darner) : Darner := if mine x.resv then { x with resv := none, resvFrom := 0 } else x
      let s := modDrn die n (fun t => { t with
        queue := t.queue.filter (fun x => !mine x.seam)
        darners := mapDarners unres t.darners
        streams := if r.granted && decide (r.stream < 12) then drop t.streams r.stream else t.streams }) s
      { s with se := { s.se with loads := upd [] s.se.loads (tk die n) fun ls => ls.filter fun l => !sameSeam l.ref q } }

/-- A release while the seam goes on or yields: then the tile's waiting requests and its patch share. A seam's completion
releases without evaluating; what is free is available from step 7 on (R256). -/
def releaseEval (die n : Nat) (q : SeamRef) (s : State) : State :=
  let s := evalResv die n (releaseAt die n q s)
  if dieType die = .io then s else fillQueue die n s

end Sys2Proof.Machine
end

