-- ==== Sys2Proof/Machine/SeamLoads.lean ====
section
/-! DEFINITION. The loads of a seam (10: R27, R331, R334 to R336, R340, R344, R348, R350): stripes at member tiles, partials and
elements at engines, rounding and delivery, the cross-package steps. -/
namespace Sys2Proof.Machine

/-! ### Loads at an engine -/

def modLoad (k load : Nat) (f : LoadSt → LoadSt) : State → State :=
  modRec k fun r => match look? r.loads load with | some l => { r with loads := ins r.loads load (f l) } | none => r


/-- Every open that takes part has all its elements of a load (R335, R344). -/
def loadWritten (s : State) (r : SeamRec) (load : Nat) (l : LoadSt) : Bool :=
  r.opens.zipIdx.all fun (o, i) =>
    (o.shadow && !o.joined) ||
      (let (a, b) := outInLoad s r load o.rank; decide (look 0 l.wrote i ≥ b - a))

/-- A load is finished once its output is delivered and written; late work is counted as it ends (R103). -/
def checkFinished (k load : Nat) (s : State) : State :=
  match recOf s k with
  | none => s
  | some r =>
    match look? r.loads load with
    | none => s
    | some l =>
      if l.final && !l.finished && loadWritten s r load l then
        let s := modLoad k load (fun l => { l with finished := true, vals := [] }) s
        if l.late then satCount (keyDie k) 0 0x130 1 s else s
      else s

/-- Contributions an engine expects at a position of a load. -/
def expectAt (s : State) (r : SeamRec) (load pos : Nat) : Nat :=
  let d := descOfRec r
  let base := gRankBase s r.group
  if isComb d.op then
    (if isF64 d then (serving r).length else ((serving r).map (·.die)).eraseDups.length)
  else if gXpkg s r.group then
    let q := if d.op = 4 then d.root else (loadFirst r load + pos) / d.count
    b2n (decide (base ≤ q) && decide (q < base + gLocal s r.group))
  else 1

/-! ### Delivery (R335) -/

/-- Tile t of a die lies on the way from member tile c down to the tile of a rank that receives output. -/
def leadsTo (r : SeamRec) (die c : Nat) : (fuel : Nat) → (t : Nat) → Bool
  | 0, _ => false
  | f + 1, t => t = c || (match treeParent r die t with | some p => leadsTo r die c f p | none => false)

/-- A child needs a load's results: a member in its subtree receives part of them. -/
def childNeeds (s : State) (r : SeamRec) (die c load : Nat) : Bool :=
  (serving r).any fun o => o.die = die && leadsTo r die c 256 o.tile &&
    (let (a, b) := outInLoad s r load o.rank; decide (a < b))

/-- The basket a seam holds at a tile. -/
def basketOf (s : State) (die n : Nat) (q : SeamRef) : Nat :=
  match (resvOf s die n).find? fun r => sameSeam r.ref q with | some r => r.basket | none => 0

/-- SEAM_DATA of rounded results or moved elements toward a tile. -/
def dataToTile (s : State) (k : Nat) (q : SeamRef) (sd st sp die n load first : Nat) (elems : List (List Byte)) : List Packet :=
  valPackets s 0x26 q.ctx sd st sp (tileAddr s die n (basketOf s die n q)) (keyEng k) (keySlot k) load first false
    (elems.map fun e => (false, e))

/-- A member's CIP writes its share of results that reach its tile: elements from position `first` of a load. -/
def writeShare (k die n load first : Nat) (elems : List (List Byte)) (s : State) : State :=
  match recOf s k with
  | none => s
  | some r =>
    let d := descOfRec r
    forEach r.opens.zipIdx (fun (o, i) s =>
      if o.die = die ∧ o.tile = n ∧ (!o.shadow || o.joined) then
        let rp := outInLoad s r load o.rank
        let a := rp.1
        let b := rp.2
        let lo := max a first
        let hi := min b (first + elems.length)
        if lo < hi then
          let bytes := ((elems.drop (lo - first)).take (hi - lo)).flatten
          let at_ := (loadFirst r load + lo - (outRange s r o.rank).1) * outElem d
          modLoad k load (fun l => { l with wrote := upd 0 l.wrote i (· + (hi - lo)) }) (storeBy die (o.desc.dst + w64 at_) bytes s)
        else s
      else s) s

/-- Results at a tile: its own share, and on to the children that need them. -/
def tileDown (k : Nat) (q : SeamRef) (die n load first : Nat) (elems : List (List Byte)) (s : State) : State :=
  match recOf s k with
  | none => s
  | some r =>
    let s := writeShare k die n load first elems s
    let kids := (treeChildren r die n).filter fun c => childNeeds s r die c load
    let s := forEach kids (fun c s =>
      forEach (dataToTile s k q die n 1 die c load first elems) (fun p s => tileSend die n q p s) s) s
    checkFinished k load s

/-- One output element of a combining seam (R211, R215, R231). -/
def roundVal (r : SeamRec) (pos : Nat) (v : SVal) : List Byte × Byte :=
  let d := descOfRec r
  let x := d.xctl
  let ep := match serving r with | o :: _ => o.epoch | [] => 0
  let di := if xRmode x = 5 then dither r.ctx r.group r.gseq pos ep d.seed else 0
  if isF64 d then deliver 1074 v.dacc (xOutFmt x) (xRmode x) (xSatOvf x) di
  else deliver 192 v.acc (xOutFmt x) (xRmode x) (xSatOvf x) di

/-- The source rank and element index of a position of a gather or sort. -/
def originOf (r : SeamRec) (pos : Nat) : Nat × Nat :=
  match (serving r).find? fun o => decide (rankStart r o.rank ≤ pos) && decide (pos < rankStart r o.rank + o.desc.count) with
  | some o => (o.rank, pos - rankStart r o.rank)
  | none => (0, 0)

/-- The sorted records of a SORTV: by key, ties by source rank and element index in both directions (R224, R225, R311). -/
def sortOut (r : SeamRec) (elems : List (List Byte)) : List (List Byte) :=
  let d := descOfRec r
  let code := xInFmt d.xctl
  let keyed := elems.zipIdx.map fun (e, i) => (sortKey code (ofLe e), i, e)
  let lt (a b : Nat × Nat × List Byte) : Bool :=
    if a.1 = b.1 then decide (a.2.1 < b.2.1) else if isDesc d then decide (b.1 < a.1) else decide (a.1 < b.1)
  (sortBy lt keyed).map fun x =>
    if isOrigin d then let (q, i) := originOf r x.2.1; x.2.2 ++ leBytes 4 q ++ leBytes 4 i else x.2.2

/-- The whole output of a load at the engine and its flags. -/
def loadOut (r : SeamRec) (load n : Nat) (vals : SMap SVal) : List (List Byte) × Byte :=
  let d := descOfRec r
  let vs := (List.range n).map fun i => look {} vals i
  if isComb d.op then
    let os := vs.zipIdx.map fun (v, i) => roundVal r (loadFirst r load + i) v
    (os.map (·.1), os.foldl (fun a o => a ||| o.2) 0)
  else if isSort d then (sortOut r (vs.map (·.elem)), 0)
  else (vs.map (·.elem), 0)

/-- The count arrays of a v-variant, with load 0 (R324). -/
def writeCounts (r : SeamRec) (s : State) : State :=
  let counts := (serving r).flatMap fun o => leBytes 8 o.desc.count
  forEach (partOpens r) (fun o s => if o.desc.cntDst ≠ 0 then storeBy o.die o.desc.cntDst counts s else s) s

/-- The engine sends the shadows that take part their output directly (R344). -/
def sendShadows (k load : Nat) (elems : List (List Byte)) (s : State) : State :=
  match recOf s k with
  | none => s
  | some r =>
    let q := refOf s k r
    let sd := keyDie k
    let st := engTile sd (keyEng k)
    forEach (r.opens.filter fun o => o.shadow && o.joined) (fun o s =>
      let rp := outInLoad s r load o.rank
      let a := rp.1
      let b := rp.2
      forEach (dataToTile s k q sd st 9 o.die o.tile load a ((elems.drop a).take (b - a))) (engSend k) s) s

/-- The engine sends results down the die trees (R335). -/
def sendResults (k load : Nat) (elems : List (List Byte)) (s : State) : State :=
  match recOf s k with
  | none => s
  | some r =>
    let q := refOf s k r
    let sd := keyDie k
    let st := engTile sd (keyEng k)
    let dies := ((serving r).map (·.die)).eraseDups.filter fun dd => match dieRoot r dd with
      | some t => childNeeds s r dd t load | none => false
    forEach dies (fun dd s => match dieRoot r dd with
      | some t => forEach (dataToTile s k q sd st 9 dd t load 0 elems) (engSend k) s
      | none => s) s

/-- The output of a load is final at the engine: flags, counts, delivery; down the die trees unless the die root has delivered it
(R335). -/
def finishOut (k load : Nat) (elems : List (List Byte)) (fl : Byte) (send : Bool) (s : State) : State :=
  match recOf s k with
  | none => s
  | some r =>
    let outs := elems.zipIdx.foldl (fun m (e, i) => put [] m i e) []
    let s := modLoad k load (fun l => { l with final := true, out := outs }) (modRec k (fun r => { r with xflags := r.xflags ||| fl }) s)
    let s := if load = 0 then writeCounts r s else s
    checkFinished k load (sendShadows k load elems (doIf send (sendResults k load elems) s))

/-- Values from an engine to another engine: SEAM_PART for partials, SEAM_DATA for elements; OPERAND names the group and
GSEQ to an engine of another package (log 35). -/
def sendVals (k : Nat) (r : SeamRec) (dst : DWord) (eng slot load first : Nat) (vs : List SVal) (s : State) : State :=
  let d := descOfRec r
  let op := if isComb d.op then 0x25 else 0x26
  let ps := valPackets s op r.ctx (keyDie k) (engTile (keyDie k) (keyEng k)) 9 dst eng slot load first false
    (vs.map (encodeVal d))
  forEach ps (fun p s => engSend k { p with operand := w64 (r.group * 2 ^ 48 + r.gseq), flags := badFlags vs } s) s

/-- Values of a load's positions in a range. -/
def valsIn (m : SMap SVal) (a b : Nat) : List SVal := (List.range (b - a)).map fun i => look {} m (a + i)

/-- A home engine's load moves on: partials complete, totals back from the stage engine, output complete. -/
def advanceLoad (k load : Nat) (s : State) : State :=
  match recOf s k with
  | none => s
  | some r =>
    match look? r.loads load with
    | none => s
    | some l =>
      let n := loadCount r load
      if l.final then checkFinished k load s
      else if rootDelivers s r then
        if l.out.length = n then finishOut k load ((List.range n).map fun i => look [] l.out i) 0 false s else s
      else if !l.sent then
        if (List.range n).all fun i => decide ((look {} l.vals i).n ≥ expectAt s r load i) then
          let s := modLoad k load (fun l => { l with sent := true }) s
          if gXpkg s r.group then
            match r.stage with
            | some q => sendVals k r (engAddr (pkgNo s) q.die q.eng q.slot) q.eng q.slot load 0 (valsIn l.vals 0 n) s
            | none => s
          else let o := loadOut r load n l.vals; finishOut k load o.1 o.2 true s
        else s
      else
        let back := r.inbox.filter fun x => x.load = load
        if back.length ≥ n then
          let tot := back.foldl (fun m x => put {} m x.pos x.val) []
          let s := modRec k (fun r => { r with inbox := r.inbox.filter fun x => x.load ≠ load }) s
          let o := loadOut r load n tot
          finishOut k load o.1 o.2 true s
        else s

/-! ### Arrival at engines -/

/-- Folded input bytes of the endpoints of a backed-up rank, by position; the scales of MX blocks, which follow the elements in
the input (R204), behind every position (R344). -/
def foldInput (k load first : Nat) (die n : Nat) (elems scales : List (List Byte)) : State → State :=
  modRec k fun r => { r with opens := r.opens.map fun o =>
    if o.die = die ∧ o.tile = n ∧ r.opens.any (fun x => x.rank = o.rank && x.shadow && x.joined) then
      let at_ := loadFirst r load + first
      let m := elems.zipIdx.foldl (fun m (e, i) => put [] m (at_ + i) e) o.folded
      { o with folded := scales.zipIdx.foldl (fun m (e, i) => put [] m (2 ^ 48 + at_ / 32 + i) e) m }
    else o }

/-- SEAM_PART or SEAM_DATA at a home engine (R334, R335, R348, R350). -/
def homeArrive (k fromDie fromTile : Nat) (p : Packet) (s : State) : State :=
  match recOf s k with
  | none => s
  | some r =>
    let d := descOfRec r
    let load := extLoad p
    let part := decide (p.opcode = 0x25)
    match look? r.loads load with
    | none => s
    | some l =>
      let s := poisonFail k p s
      if dieType p.srcDie = .io ∧ gXpkg s r.group then
        let vs := unpackVals d part true (extCount p) (extForms p) p.payload
        let box := (inherit p vs).zipIdx.map fun (v, i) =>
          ({ load := load, pkg := p.srcPkg, pos := extFirst p + i, val := v } : InBox)
        advanceLoad k load (engBad k r vs (modRec k (fun r => { r with inbox := r.inbox ++ box }) s))
      else if rootDelivers s r then
        let w := outElem d
        let es := (List.range (extCount p)).map fun i => slice p.payload (i * w) w
        let outs := es.zipIdx.foldl (fun m (e, i) => put [] m (extFirst p + i) e) l.out
        let s := modLoad k load (fun l => { l with out := outs }) s
        advanceLoad k load (modRec k (fun r => { r with xflags := r.xflags ||| p.flags }) s)
      else
        let vs := unpackVals d part false (extCount p) (extForms p) p.payload
        let raw := isF64 d && !part
        let w := fmtBits (xInFmt d.xctl) / 8
        let es := (List.range (extCount p)).map fun i => slice p.payload (i * w) w
        let shadow := (r.opens.any fun o => o.die = fromDie && o.tile = fromTile && o.shadow) &&
          !(r.opens.any fun o => o.die = fromDie && o.tile = fromTile && !o.shadow)
        let s := if raw then foldInput k load (extFirst p) fromDie fromTile es [] s else s
        if raw && shadow then s
        else
          let s := modLoad k load (fun l => { l with vals := joinVals (combOf d) l.vals (extFirst p) (inherit p vs) }) s
          advanceLoad k load (engBad k r vs s)

/-! ### Stage engines (R348) -/

/-- The slice boundaries of a load. -/
def sliceAt (q j n : Nat) : Nat := j * n / q

/-- The steps of a load at a stage engine: 0 local, then reduce-scatter, hypercube, all-gather, deliver. -/
inductive Step48 where
  | local_
  | reduce (t : Nat)
  | hyper (d : Nat)
  | gather (t : Nat)
  | deliver
deriving DecidableEq, Repr

def stepKind (s : State) (g i : Nat) : Step48 :=
  let q := gQ s g
  let ds := gDims s g
  if i = 0 then .local_
  else if i < q then .reduce (i - 1)
  else if i < q + ds.length then .hyper (ds.getD (i - q) 0)
  else if i < q + ds.length + (q - 1) then .gather (i - q - ds.length)
  else .deliver

/-- j − t mod Q. -/
def modSub (j t q : Nat) : Nat := (j + q * (t + 1) - t) % q

/-- The slice a step receives, and the package it comes from. -/
def stepRecv (s : State) (g : Nat) (k : Step48) : Option (Nat × Nat) :=
  let j := gPos s g
  let q := gQ s g
  match k with
  | .reduce t => some (modSub j (t + 1) q, gPrev s g)
  | .hyper d => some ((j + 1) % q, gPartner s g d)
  | .gather t => some (modSub j t q, gPrev s g)
  | _ => none

/-- The slice a step sends, and to which package. -/
def stepSend (s : State) (g : Nat) (k : Step48) : Option (Nat × Nat) :=
  let j := gPos s g
  let q := gQ s g
  match k with
  | .reduce t => some (modSub j t q, gNext s g)
  | .hyper d => some ((j + 1) % q, gPartner s g d)
  | .gather t => some (modSub (j + 1) t q, gNext s g)
  | _ => none

/-- Takes the first value of a package and position of a load from an inbox. -/
def takeBox (load pkg pos : Nat) (xs : List InBox) : Option InBox × List InBox :=
  takeFirst (fun x => x.load = load && x.pkg = pkg && x.pos = pos) xs

/-- Takes the values of positions a … a + n − 1: none if one is missing. -/
def takeSlice (load pkg : Nat) : (n a : Nat) → List InBox → Option (List SVal × List InBox)
  | 0, _, xs => some ([], xs)
  | n + 1, a, xs =>
    match takeBox load pkg a xs with
    | (some x, ys) => (takeSlice load pkg n (a + 1) ys).map fun (vs, zs) => (x.val :: vs, zs)
    | (none, _) => none

/-- Begins a step: its data are sent. -/
def beginStep (k load : Nat) (s : State) : State :=
  match recOf s k with
  | none => s
  | some r =>
    match look? r.loads load with
    | none => s
    | some l =>
      let n := loadCount r load
      let kind := stepKind s r.group l.step
      match stepSend s r.group kind, kind, r.home with
      | some (x, pkg), _, _ =>
        let a := sliceAt (gQ s r.group) x n
        let b := sliceAt (gQ s r.group) (x + 1) n
        sendVals k r (engAddr pkg (gXdie s r.group) (gXe s r.group) 0) (gXe s r.group) 0 load a (valsIn l.vals a b) s
      | none, .deliver, some h =>
        sendVals k r (engAddr (pkgNo s) h.die h.eng h.slot) h.eng h.slot load 0 (valsIn l.vals 0 n) s
      | _, _, _ => s

/-- Ends a step if its data have arrived: the values after it and the inbox left. -/
def endStep (s : State) (r : SeamRec) (load : Nat) (l : LoadSt) : Option (SMap SVal × List InBox) :=
  let n := loadCount r load
  let kind := stepKind s r.group l.step
  match kind with
  | .local_ => if (List.range n).all fun i => (look {} l.vals i).n ≠ 0 then some (l.vals, r.inbox) else none
  | .deliver => none
  | _ =>
    match stepRecv s r.group kind with
    | none => none
    | some (x, pkg) =>
      let a := sliceAt (gQ s r.group) x n
      let b := sliceAt (gQ s r.group) (x + 1) n
      (takeSlice load pkg (b - a) a r.inbox).map fun (vs, box) =>
        let vals := match kind with
          | .gather _ => vs.zipIdx.foldl (fun m (v, i) => put {} m (a + i) v) l.vals
          | _ => joinVals (combOf (descOfRec r)) l.vals a vs
        (vals, box)

/-- A boundary at a stage engine's load: a step whose data have arrived ends and the next begins (R348); `now` is the Press count
by which waits are measured. -/
def stageLoad (k load now : Nat) (s : State) : State :=
  match recOf s k with
  | none => s
  | some r =>
    match look? r.loads load with
    | none => s
    | some l =>
      match endStep s r load l with
      | none => s
      | some (vals, box) =>
        let s := modRec k (fun r => { r with inbox := box }) s
        beginStep k load (modLoad k load (fun l => { l with vals := vals, step := l.step + 1, stepAt := now }) s)

/-- SEAM_PART or SEAM_DATA at a stage engine: from the home engine of its package, or from another package. -/
def stageArrive (die eng : Nat) (q : SeamRef) (p : Packet) (s : State) : State :=
  match recOf s (keyOf q) with
  | none => { s with se := { s.se with early := upd [] s.se.early (ek die eng) (· ++ [p]) } }
  | some r =>
    let k := keyOf q
    let d := descOfRec r
    let fail (s : State) : State := match r.home with | some h => poisonFail (keyOf h) p s | none => s
    let raw := unpackVals d (p.opcode = 0x25) true (extCount p) (extForms p) p.payload
    let s := engBad k r raw (fail s)
    let vs := inherit p raw
    if p.srcPkg = pkgNo s then
      modLoad k (extLoad p) (fun l => { l with vals := joinVals (combOf d) l.vals (extFirst p) vs }) s
    else
      let box := vs.zipIdx.map fun (v, i) =>
        ({ load := extLoad p, pkg := p.srcPkg, pos := extFirst p + i, val := v } : InBox)
      modRec k (fun r => { r with inbox := r.inbox ++ box }) s

/-! ### Member tiles (R27, R334) -/

def tloadsOf (s : State) (die n : Nat) : List TLoad := look [] s.se.loads (tk die n)
def tloadOf (s : State) (die n : Nat) (q : SeamRef) (load : Nat) : Option TLoad :=
  (tloadsOf s die n).find? fun l => sameSeam l.ref q && l.load = load
def modTLoad (die n : Nat) (q : SeamRef) (load : Nat) (f : TLoad → TLoad) (s : State) : State :=
  let g (l : TLoad) : TLoad := if sameSeam l.ref q && l.load = load then f l else l
  { s with se := { s.se with loads := upd [] s.se.loads (tk die n) (List.map g) } }

/-- The positions of a load that a tile enters: all of them for sums, and at the root of a broadcast; its own elements for gathers
and sorts. -/
def tileSpan (r : SeamRec) (die n load : Nat) : Nat × Nat :=
  let d := descOfRec r
  if isComb d.op then (0, loadCount r load)
  else match r.opens.find? fun o => o.die = die && o.tile = n with
    | some o => if d.op = 4 then (if o.rank = d.root then (0, loadCount r load) else (0, 0)) else ownInLoad r load o
    | none => (0, 0)

/-- The index in a member's input of a position of a load: sums and a broadcast enter every position, gathers and sorts their own. -/
def inIndex (r : SeamRec) (o : MemberOpen) (load pos : Nat) : Nat :=
  let d := descOfRec r
  loadFirst r load + pos - (if isComb d.op || d.op = 4 then 0 else rankStart r o.rank)

/-- Stripes of a tile in the loads before one: the OSEQ of the load's first (R264). -/
def stripesBefore (r : SeamRec) (die n load : Nat) : Nat :=
  (List.range load).foldl (fun a j => let (x, y) := tileSpan r die n j; a + ceilDiv (y - x) 32) 0

/-- The seam runs COMBINE tasks at its member tiles; on the FP64 path it has none (R350). -/
def hasTasks (r : SeamRec) : Bool := !isF64 (descOfRec r)

/-- Cycles of a COMBINE task: lane-cycles over 4, rounded up (R238). Elements that are moved are entered, and neither combined
with children's nor emitted as partials. -/
def combineCost (d : SeamDesc) (n kids : Nat) : Nat :=
  let c := match fmtBits (xInFmt d.xctl) with | 32 => 4 | 16 => 2 | _ => 1
  let p := if wBound d then 1 else 3
  ceilDiv (ceilDiv (n * c) 4 + (if isComb d.op then (kids + 1) * n * p else 0)) 4

/-- The tile is the delivering unit of the seam: its members' die root (R335). -/
def deliversAt (s : State) (r : SeamRec) (die n : Nat) : Bool := rootDelivers s r && decide (dieRoot r die = some n)

/-- A seam has room for another entry in a tile's queue: 32 for each darner it reserves, 512 in all (R239). -/
def entryRoom (s : State) (die n : Nat) (q : SeamRef) : Bool :=
  let t := drnTile s die n
  let used := (t.queue.filter fun x => match x.seam with | some y => sameSeam y q | none => false).length
  match (resvOf s die n).find? fun r => sameSeam r.ref q with
  | some v => decide (used < 32 * v.darners.length) && decide (t.queue.length < 512)
  | none => false

/-- The DELIVER task of the next stripe that is ready enters the delivering tile's queue (R240, R335). -/
def enterDeliver (k : Nat) (q : SeamRef) (die n load : Nat) (s : State) : State :=
  match recOf s k, tloadOf s die n q load with
  | some r, some l =>
    match l.ready with
    | [] => s
    | st :: rest =>
      if !entryRoom s die n q then s
      else
        let cnt := min 32 (loadCount r load - 32 * st)
        let x : Task := {
          entry := freeEntry (drnTile s die n), kind := .deliver, stealable := !noSteal (descOfRec r), ordered := false,
          ctx := q.ctx, born := s.tm.fclk, group := r.group, stripe := st, count := cnt, run := load, first := 32 * st,
          cost := ceilDiv cnt 4, seam := some q }
        modTLoad die n q load (fun l => { l with ready := rest, rounded := l.rounded ++ [st] })
          (modDrn die n (fun t => { t with queue := t.queue ++ [x] }) s)
  | _, _ => s

/-- The next stripe of a load enters a tile's queue (R239, R240). -/
def enterStripe (k : Nat) (q : SeamRef) (die n load : Nat) (s : State) : State :=
  match recOf s k, tloadOf s die n q load, (resvOf s die n).find? fun r => sameSeam r.ref q with
  | some r, some l, some v =>
    let rp := tileSpan r die n load
    let a := rp.1
    let b := rp.2
    let st := l.entered
    let t := drnTile s die n
    if a + 32 * st ≥ b ∨ !entryRoom s die n q ∨ !hasTasks r then s
    else
      let d := match r.opens.find? fun o => o.die = die && o.tile = n with | some o => o.desc | none => descOfRec r
      let cnt := min 32 (b - (a + 32 * st))
      let x : Task := {
        entry := freeEntry t, kind := .combine, stealable := !noSteal d, ordered := isOrdered d.op,
        stream := if isOrdered d.op then v.stream else 0, ctx := q.ctx, born := s.tm.fclk,
        oseq := stripesBefore r die n load + st, group := r.group, stripe := st, count := cnt, run := load,
        first := a + 32 * st, cost := combineCost d cnt (treeChildren r die n).length, seam := some q }
      modTLoad die n q load (fun l => { l with entered := l.entered + 1 })
        (modDrn die n (fun t => { t with queue := t.queue ++ [x] }) s)
  | _, _, _ => s

/-- Stripes enter as entries become free, loads in order, what is to be delivered first. -/
def fillSeam (die n : Nat) (s : State) : State :=
  forEach (tloadsOf s die n) (fun l s =>
    let s := forEach l.ready (fun _ s => enterDeliver (keyOf l.ref) l.ref die n l.load s) s
    forEach (List.range 256) (fun _ s => enterStripe (keyOf l.ref) l.ref die n l.load s) s) s

/-- The values a member's own input contributes to a stripe. -/
def ownVals (d : SeamDesc) (n : Nat) (data : List Byte) : List SVal :=
  let code := xInFmt d.xctl
  let w := fmtBits code
  let sz := n * w / 8
  (List.range n).map fun i =>
    if isComb d.op then { acc := enterAt 192 code (data.take sz) (data.drop sz) i, n := 1 }
    else { elem := slice data (i * (w / 8)) (w / 8), n := 1 }

/-- Every child's partials of a stripe have been combined at the tile (R27); moved elements have one contributor (R334). -/
def kidsReady (r : SeamRec) (die n : Nat) (l : TLoad) (t : Task) : Bool :=
  let kids := (treeChildren r die n).length
  !isComb (descOfRec r).op || (List.range t.count).all fun i => (look {} l.vals (t.first + i)).n ≥ kids

/-- The stripe of a COMBINE task complete: own input with the children's partials. -/
def stripeVals (d : SeamDesc) (l : TLoad) (t : Task) (data : List Byte) : List SVal :=
  (ownVals d t.count data).zipIdx.map fun (v, i) =>
    let c := look {} l.vals (t.first + i)
    { joinVal (combOf d) c v with n := 1 }

/-- A tile's partials or elements go to its parent, at the die root to the home engine. -/
def sendUp (k : Nat) (q : SeamRef) (die n load first : Nat) (poison : Bool) (vs : List SVal) (s : State) : State :=
  match recOf s k with
  | none => s
  | some r =>
    let d := descOfRec r
    let op := if isComb d.op then 0x25 else 0x26
    let dst := match treeParent r die n with
      | some p => tileAddr s die p (basketOf s die p q)
      | none => engAddr q.pkg q.die q.eng q.slot
    forEach (valPackets s op q.ctx die n 1 dst q.eng q.slot load first poison (vs.map (encodeVal d)))
      (fun p s => tileSend die n q { p with flags := badFlags vs } s) s

/-- Stripes of a delivering tile's load whose elements are all there; a sort's once the whole load is. -/
def movedStripes (r : SeamRec) (load : Nat) (l : TLoad) : List Nat :=
  let n := loadCount r load
  let come (a c : Nat) : Bool := (List.range c).all fun i => (look {} l.vals (a + i)).n ≠ 0
  (List.range (ceilDiv n 32)).filter fun st =>
    !decide (st ∈ l.ready) && !decide (st ∈ l.rounded) &&
      (if isSort (descOfRec r) then come 0 n else come (32 * st) (min 32 (n - 32 * st)))

/-- Values of a load are complete at the delivering tile: they are kept there until their DELIVER task (R335). -/
def keepVals (k : Nat) (q : SeamRef) (die n load first : Nat) (vs : List SVal) (s : State) : State :=
  match recOf s k with
  | none => s
  | some r =>
    fillSeam die n (modTLoad die n q load (fun l =>
      let l := { l with vals := vs.zipIdx.foldl (fun m (v, i) => put {} m (first + i) v) l.vals }
      { l with ready := l.ready ++ (if isComb (descOfRec r).op then [first / 32] else movedStripes r load l) }) s)

/-- The tile tells the engine that its seam fails (SEAM_ABORT, R342). -/
def tileAbort (die n : Nat) (q : SeamRef) (code : Nat) (s : State) : State :=
  tileSend die n q (seamCtrl s 0x28 q.ctx die n 1 (engAddr q.pkg q.die q.eng q.slot) code []) s

/-- A COMBINE task of tile `n` (the owner of the queue entry) ends with the member's input bytes of its stripe. -/
def combineDone (k : Nat) (q : SeamRef) (die n : Nat) (t : Task) (data : List Byte) (poison : Bool) (s : State) : State :=
  match recOf s k, tloadOf s die n q t.run with
  | some r, some l =>
    let d := descOfRec r
    let w := fmtBits (xInFmt d.xctl)
    let es := (List.range t.count).map fun i => leBytes (ceilDiv w 8) (elemBits data w i)
    let scales := if isMX (xInFmt d.xctl) then (data.drop (t.count * w / 8)).map fun b => [b] else []
    let isShadow := !(r.opens.any fun o => o.die = die && o.tile = n && !o.shadow)
    let s := foldInput k t.run t.first die n es scales s
    if isShadow then s
    else
      let vs := stripeVals d l t data
      if deliversAt s r die n then keepVals k q die n t.run t.first vs s
      else sendUp k q die n t.run t.first poison vs s
  | _, _ => s

/-- The output element of a position of a delivering tile's load, and its flags (R211, R226, R311, R335). -/
def stripeOut (r : SeamRec) (load : Nat) (l : TLoad) (first n : Nat) : List (List Byte × Byte) :=
  let d := descOfRec r
  if isComb d.op then (List.range n).map fun i => roundVal r (loadFirst r load + first + i) (look {} l.vals (first + i))
  else if isSort d then
    ((((sortOut r ((List.range (loadCount r load)).map fun i => (look {} l.vals i).elem)).drop first).take n).map fun e => (e, 0))
  else (List.range n).map fun i => ((look {} l.vals (first + i)).elem, 0)

/-- A DELIVER task: the die root rounds a stripe, delivers it and sends the engine a copy with its flags (R335). -/
def deliverDone (k : Nat) (q : SeamRef) (die n : Nat) (t : Task) (s : State) : State :=
  match recOf s k, tloadOf s die n q t.run with
  | some r, some l =>
    let os := stripeOut r t.run l t.first t.count
    let fl := os.foldl (fun a o => a ||| o.2) 0
    let es := os.map (·.1)
    let ps := valPackets s 0x26 q.ctx die n 1 (engAddr q.pkg q.die q.eng q.slot) q.eng q.slot t.run t.first false
      (es.map fun e => (false, e))
    let s := forEach ps (fun p s => tileSend die n q { p with flags := fl } s) s
    tileDown k q die n t.run t.first es s
  | _, _ => s

/-- SEAM_PART at a member tile: a child's partials join the stripes (R27, R334). -/
def tilePart (k : Nat) (q : SeamRef) (die n : Nat) (p : Packet) (s : State) : State :=
  match recOf s k with
  | none => s
  | some r =>
    let d := descOfRec r
    let vs := unpackVals d true false (extCount p) (extForms p) p.payload
    let s := poisonFail k p s
    let s := if anyBad vs then raise die (drnPage s die n) 7 (some q.ctx) 0 s else s
    modTLoad die n q (extLoad p) (fun l => { l with vals := joinVals (combOf d) l.vals (extFirst p) (inherit p vs) }) s

/-- SEAM_DATA at a member tile: elements from a child go on upward (the tree concatenates), results from the engine or
the parent go downward (R334, R335). -/
def tileData (k : Nat) (q : SeamRef) (die n fromDie fromTile : Nat) (p : Packet) (s : State) : State :=
  match recOf s k with
  | none => s
  | some r =>
    let d := descOfRec r
    if fromDie = die ∧ fromTile ∈ treeChildren r die n then
      let vs := unpackVals d false false (extCount p) (extForms p) p.payload
      let s := poisonFail k p s
      if deliversAt s r die n then keepVals k q die n (extLoad p) (extFirst p) vs s
      else sendUp k q die n (extLoad p) (extFirst p) (decide (poisonStatus p ≠ 0)) vs s
    else
      let w := outElem d
      let es := (List.range (extCount p)).map fun i => slice p.payload (i * w) w
      let shadowOnly := !(r.opens.any fun o => o.die = die && o.tile = n && !o.shadow)
      if shadowOnly then checkFinished k (extLoad p) (writeShare k die n (extLoad p) (extFirst p) es s)
      else tileDown k q die n (extLoad p) (extFirst p) es s

/-! ### The FP64 path at a member tile (R350) -/

/-- A member's tile reads its input of a load through its CIP, one BULK READ per granule; FLAGS 3 names these among the requests of
the port (log 29). -/
def rawStart (k : Nat) (q : SeamRef) (die n load : Nat) (s : State) : State :=
  match recOf s k with
  | none => s
  | some r =>
    match r.opens.find? fun o => o.die = die && o.tile = n with
    | none => s
    | some o =>
      let rp := tileSpan r die n load
      let a := o.desc.src + w64 (8 * inIndex r o load rp.1)
      let q0 := (drnTile s die n).sseq
      let ps := (granulesOf a (8 * (rp.2 - rp.1))).zipIdx.map fun e => (q0 + BitVec.ofNat 16 e.2, e.1)
      let l : TLoad := { ref := q, load := load, reads := ps.map fun e => (e.1, e.2.1) }
      let s := modDrn die n (fun t => { t with sseq := t.sseq + BitVec.ofNat 16 ps.length }) s
      let s := { s with se := { s.se with loads := upd [] s.se.loads (tk die n) (· ++ [l]) } }
      forEach ps (fun e s => sendFrom die n 10 { psReq s die n q.ctx e.1 (a.toNat + e.2.1) e.2.2 with flags := 3 } s) s

/-- The tile sends the raw elements of a load to the home engine as SEAM_DATA, once it has them all. -/
def rawSend (k : Nat) (q : SeamRef) (die n : Nat) (l : TLoad) (s : State) : State :=
  let bs := l.raw.flatMap (·.2)
  let es := chunk 8 (bs.length / 8) bs
  let first := match recOf s k with | some r => (tileSpan r die n l.load).1 | none => 0
  forEach (valPackets s 0x26 q.ctx die n 1 (engAddr q.pkg q.die q.eng q.slot) q.eng q.slot l.load first false
    (es.map fun e => (false, e))) (fun p s => tileSend die n q p s) (modTLoad die n q l.load (fun l => { l with raw := [] }) s)

/-- An answer to such a read: data, or a status that fails the seam (R342). -/
def rawData (die n : Nat) (sseq : BitVec 16) (code : Nat) (data : List Byte) (s : State) : State :=
  match (tloadsOf s die n).find? fun l => l.reads.any fun e => e.1 = sseq with
  | none => s
  | some l =>
    let off := match l.reads.find? fun e => e.1 = sseq with | some e => e.2 | none => 0
    let l' := { l with reads := l.reads.filter fun e => e.1 ≠ sseq, raw := ins l.raw off data }
    let s := modTLoad die n l.ref l.load (fun _ => l') s
    if code ≠ 0 then tileAbort die n l.ref code s
    else if l'.reads = [] then rawSend (keyOf l.ref) l.ref die n l' s
    else s

end Sys2Proof.Machine
end

