-- ==== Sys2Proof/Machine/SeamOps.lean ====
section
/-! DEFINITION. Opening, matching, setting, completing and failing seams; the boundary steps of the engines (10). -/
namespace Sys2Proof.Machine

/-! ### Opening (R316 to R321, R343 to R345) -/

/-- The record of a group's GSEQ at its home engine. -/
def findRec (s : State) (g gseq : Nat) : Option Nat :=
  (s.se.recs.find? fun e => e.1 / 256 = ek (homeDie g) (homeEng g) && e.2.group = g && e.2.gseq = gseq && e.2.home = none && !e.2.old).map
    (·.1)

/-- The GSEQ an endpoint's next accepted open takes (R317). -/
def nextSeq (s : State) (g die tile : Nat) : Nat := look 0 s.se.seqs (seqKey g die tile)
def bumpSeq (g die tile : Nat) (s : State) : State :=
  { s with se := { s.se with seqs := upd 0 s.se.seqs (seqKey g die tile) (· + 1) } }

/-- The seam of a GSEQ has completed. -/
def seamDoneAt (s : State) (g k : Nat) : Bool := decide (k < look 0 s.se.doneSeq g) || decide ((g, k) ∈ s.se.doneSet)

/-- A GSEQ completes; the lowest one not completed moves past it. Fuel: the completed ones above it. -/
def advanceDone (g : Nat) : (fuel : Nat) → State → State
  | 0, s => s
  | f + 1, s =>
    let lo := look 0 s.se.doneSeq g
    if (g, lo) ∈ s.se.doneSet then
      advanceDone g f { s with se := { s.se with
        doneSet := s.se.doneSet.filter (· ≠ (g, lo)), doneSeq := put 0 s.se.doneSeq g (lo + 1) } }
    else s
def markDone (g k : Nat) (s : State) : State :=
  let s := { s with se := { s.se with doneSet := s.se.doneSet ++ [(g, k)] } }
  advanceDone g s.se.doneSet.length s

/-- Open records and enabled state of an engine. -/
def seamEnabled (s : State) (die eng : Nat) : Bool := rfld s die (seamPage eng 0) 0x100 0 0 = 1

/-- The admission of an open at its home engine (R187, R316). -/
def openAdm (s : State) (die eng : Nat) (p : Packet) : Adm :=
  let d := descOf p.payload
  let g := d.group
  let k := nextSeq s g p.srcDie p.srcTile
  if !running s die then .refuse 0x1F
  else if g = 0xFFF ∨ homeDie g ≠ die ∨ homeEng g ≠ eng ∨ !gValid s g ∨ gCtx s g ≠ p.ctx then .refuse 0x4B
  else
    match findSlot s g p.srcDie p.srcTile with
    | none => .refuse 0x4B
    | some (i, _) =>
      if seamBadDesc s d (gRankBase s g + i) then .refuse 0x4A
      else if seamBadFmt d then .refuse 0x30
      else if gMembers s g > addendLimit (xInFmt d.xctl) then .refuse 0x31
      else if seamDoneAt s g k then .refuse 0x50
      else if (findRec s g k).isNone ∧ ((freeRec s die eng).isNone ∨ !seamEnabled s die eng) then .refuse 0x48
      else if govDefersSeam s then .defer 0x28
      else .accept

/-- SEAM_ADMIT to the member; OPERAND also carries bits [31:0] of the evaluation's Press for the record (R338; log 28). -/
def sendAdmit (die eng : Nat) (p : Packet) (a : Adm) (s : State) : State :=
  sendFrom die (engTile die eng) (engPort die)
    (response s die (engTile die eng) p 0xA0 (w64 (admWord a + pressOf s die % 2 ^ 32 * 2 ^ 32)) []) s

/-- The open is a shadow's of a seam already set: it is refused at completion (R345). -/
def isLateShadow (s : State) (p : Packet) : Bool :=
  let g := (descOf p.payload).group
  match findRec s g (nextSeq s g p.srcDie p.srcTile) with
  | none => false
  | some k =>
    match recOf s k, findSlot s g p.srcDie p.srcTile with
    | some r, some (i, _) => decide (r.phase ≥ 2) && (r.opens.any fun o => o.rank = gRankBase s g + i)
    | _, _ => false

/-- SEAM_RESERVE to one tile of a seam (R326); the request waits there from now on (R330). -/
def sendReserve (k : Nat) (die n : Nat) (s : State) : State :=
  match recOf s k with
  | none => s
  | some r =>
    let dst := if dieType die = .io then engAddr (pkgNo s) die (stageEng n) 0 else tileAddr s die n 0
    let ask : ResvAsk := { die := die, tile := n, since := waitPress s (keyDie k) }
    engSend k (seamCtrl s 0x22 r.ctx (keyDie k) (engTile (keyDie k) (keyEng k)) 9 dst r.gseq [])
      (modRec k (fun r => { r with reqs := (r.reqs.filter fun x => !(x.die = die && x.tile = n)) ++ [ask] }) s)

/-! ### Summaries between home engines (R347) -/

/-- Summaries to the home engine of the group on another package; OPERAND names group and GSEQ (log 35). -/
def sendSummaries (k : Nat) (r : SeamRec) (pkg : Nat) (xs : List (List Byte)) (s : State) : State :=
  forEach (chunk 512 64 xs.flatten) (fun b s =>
    let p := reducePkt s 0x21 r.ctx (keyDie k) (engTile (keyDie k) (keyEng k)) 9 (engAddr pkg (keyDie k) (keyEng k) 0) [] b
    engSend k { p with operand := w64 (r.group * 2 ^ 48 + r.gseq) } s) s

/-- SEAM_SUMMARY at a home engine: new summaries are kept; those of the ring go on round it (DEDUCED: an engine knows only its ring
neighbours, log 36). -/
def summaryArrive (k : Nat) (p : Packet) (s : State) : State :=
  match recOf s k with
  | none => s
  | some r =>
    let new_ := (chunk 64 8 p.payload).filter fun x => r.summaries.all fun y => field y 0 2 ≠ field x 0 2
    let s := modRec k (fun r => { r with summaries := r.summaries ++ new_ }) s
    if p.srcPkg / 64 = pkgNo s / 64 then
      let on := new_.filter fun x => field x 0 2 ≠ gNext s r.group
      if on = [] then s else sendSummaries k r (gNext s r.group) on s
    else s

/-! ### Acceptance -/

/-- The shadow of a rank whose first open was accepted in the same cycle serves instead if it is the primary (R343). -/
def settleServing (now : Nat) (primary : Nat × Nat) (o : MemberOpen) (os : List MemberOpen) : List MemberOpen :=
  if (o.die, o.tile) = primary ∧ os.any (fun x => x.rank = o.rank && x.at_ = now) then
    (os.map fun x => if x.rank = o.rank then { x with shadow := true, joined := true } else x) ++
      [{ o with shadow := false, joined := false }]
  else os ++ [o]

/-- An open is accepted: it takes the endpoint's next GSEQ and joins, or takes, the seam's record (R317, R319). -/
def acceptOpen (die eng : Nat) (p : Packet) (s : State) : State :=
  let d := descOf p.payload
  let g := d.group
  let gseq := nextSeq s g p.srcDie p.srcTile
  match findSlot s g p.srcDie p.srcTile with
  | none => s
  | some (i, w) =>
    let rank := gRankBase s g + i
    let k := match findRec s g gseq with | some k => k | none => seamKey die eng ((freeRec s die eng).getD 0)
    let isNew := (findRec s g gseq).isNone
    let s := bumpSeq g p.srcDie p.srcTile s
    let early := (look [] s.se.early (ek die eng)).filter fun x => x.operand.toNat = g * 2 ^ 48 + gseq
    let s := if isNew then
        let r : SeamRec := { group := g, gseq := gseq, ctx := p.ctx, first := waitPress s die }
        forEach early (fun x s => summaryArrive k x s) { s with se := { s.se with
            recs := ins s.se.recs k r
            early := upd [] s.se.early (ek die eng) fun es => es.filter fun x => x.operand.toNat ≠ g * 2 ^ 48 + gseq } }
      else s
    match recOf s k with
    | none => s
    | some r =>
      let served := r.opens.any fun o => o.rank = rank
      let o : MemberOpen := {
        rank := rank, die := p.srcDie, tile := p.srcTile, stream := p.flags.toNat, desc := d, epoch := ctxEpoch s p.ctx,
        shadow := served, joined := served, at_ := s.tm.fclk }
      let opens := settleServing s.tm.fclk (slotPrimary w) o r.opens
      let full := (opens.filter fun o => !o.shadow).length ≥ gLocal s g
      let s := modRec k (fun r => { r with
        opens := opens, allIn := if full && r.allIn.isNone then some (stampPress s die) else r.allIn }) s
      if served ∧ r.phase = 1 ∧ r.asked then sendReserve k p.srcDie p.srcTile s else s

/-- An open refused for SEAM_LATE_OPEN still advances its endpoint's count (R320). -/
def afterRefusal (p : Packet) (c : Nat) (s : State) : State :=
  let g := (descOf p.payload).group
  if c = 0x50 then bumpSeq g p.srcDie p.srcTile s
  else if c = 0x48 then addCount (homeDie g) (seamPage (homeEng g) 0) 2 1 s else s

/-- The post ordinal of an endpoint for a group (R416). -/
def postOrdinal (s : State) (p : Packet) : Nat := look 0 s.se.posts (seqKey (descOf p.payload).group p.srcDie p.srcTile)

/-- An OPEN event of the pair. -/
def openEvent (p : Packet) (ordinal : Nat) (a : Adm) (gseq : Nat) : State → State :=
  pairEvent (evOpen (descOf p.payload).group p.srcDie p.srcTile ordinal (admWord a) gseq)

/-- Completion record of a deferred open that is refused later (R188, R338). -/
def lateRefusal (die eng : Nat) (p : Packet) (c : Nat) (s : State) : State :=
  let d := descOf p.payload
  let rec_ := leBytes 2 d.tag.toNat ++ [4, 0] ++ leBytes 2 c ++ [0, 0] ++ leBytes 4 0 ++ leBytes 4 (pressOf s die % 2 ^ 32)
  sendFrom die (engTile die eng) (engPort die)
    (seamCtrl s 0x27 p.ctx die (engTile die eng) 9 (epAddr (pkgNo s) p.srcDie p.srcTile 0 0) 0 rec_) s

/-- The outcome of an evaluation; `first` sends the admission (R188). The ordinal travels in the packet's OPERAND here. -/
def applyOpen (die eng : Nat) (first : Bool) (p : Packet) (a : Adm) (s : State) : State :=
  let g := (descOf p.payload).group
  let gseq := nextSeq s g p.srcDie p.srcTile
  let s := if !first && (match a with | .defer _ => true | _ => false) then s else openEvent p p.operand.toNat a gseq s
  match a with
  | .accept => doIf first (sendAdmit die eng p a) (acceptOpen die eng p s)
  | .defer x =>
    let s := countDefer die (engTile die eng) p.ctx x s
    if first then sendAdmit die eng p a { s with se := { s.se with deferred := upd [] s.se.deferred (ek die eng) (· ++ [p]) } } else s
  | .refuse x =>
    let s := afterRefusal p x s
    if first then sendAdmit die eng p a s else lateRefusal die eng p x s

/-- The late open of a shadow waits with its seam; `first`: its member still waits for an admission (R345). -/
def holdLate (first : Bool) (p : Packet) (s : State) : State :=
  let g := (descOf p.payload).group
  match findRec s g (nextSeq s g p.srcDie p.srcTile) with
  | some k => modRec k (fun r => { r with lateOpens := r.lateOpens ++ [(p, first)] }) s
  | none => s

/-- What an evaluation does: SEAM_LATE_OPEN of a shadow, at completion, comes in its place among the reasons of R316. -/
def evalOpen (die eng : Nat) (first : Bool) (p : Packet) (a : Adm) (s : State) : State :=
  match a with
  | .refuse _ => applyOpen die eng first p a s
  | _ => if isLateShadow s p then holdLate first p s else applyOpen die eng first p a s

/-- The first evaluation of an open: the deferral table of an engine holds 64 (R188). -/
def firstAdm (s : State) (die eng : Nat) (p : Packet) : Adm :=
  match openAdm s die eng p with
  | .defer x => if (look [] s.se.deferred (ek die eng)).length ≥ 64 then .refuse 0x2A else .defer x
  | x => x

/-- SEAM_OPEN at its home engine: the first evaluation; a following mirror keeps it for the primary's outcome (R413), an activation pause
for the step 7 that opens admission again (R547). -/
def openArrive (die eng : Nat) (p : Packet) (s : State) : State :=
  let key := seqKey (descOf p.payload).group p.srcDie p.srcTile
  let p := { p with operand := w64 (postOrdinal s p) }
  let s := { s with se := { s.se with posts := upd 0 s.se.posts key (· + 1) } }
  if s.pr.following then { s with se := { s.se with mirror := upd [] s.se.mirror (ek die eng) (· ++ [p]) } }
  else if s.fw.carried then { s with se := { s.se with mirror := upd [] s.se.mirror (ek die eng) (· ++ [p]) } }
  else evalOpen die eng true p (firstAdm s die eng p) s

/-- Step 7: the deferred opens of an engine in arrival order. -/
def openStep7 (die eng : Nat) (s : State) : State :=
  if s.pr.following then s else
  forEach (look [] s.se.deferred (ek die eng)) (fun p s =>
    let a := openAdm s die eng p
    let stays := (match a with | .defer _ => true | _ => false) && !isLateShadow s p
    let s := if stays then s
      else { s with se := { s.se with deferred := upd [] s.se.deferred (ek die eng) fun ps => ps.erase p } }
    evalOpen die eng false p a s) s

/-! ### Completion (R337 to R341, R344) -/

/-- The order of failures (R341). -/
def failOrder : List Nat := [0x89, 0x88, 0x51, 0x4D, 0x4C, 0x49, 0x4E, 0x4F, 0x1D, 0x3C, 0x53, 0x38, 0x3A, 0x26]

/-- The failure a seam completes with. -/
def worstFail (fs : List (Nat × Nat)) : Option (Nat × Nat) :=
  match failOrder.findSome? fun c => fs.find? fun f => f.1 = c with
  | some f => some f
  | none => fs.head?

/-- The seam identity (R339). -/
def seamIdent (r : SeamRec) : List Byte := leBytes 2 r.ctx ++ leBytes 2 r.group ++ [0, 0, 0, 0] ++ leBytes 8 r.gseq

/-- The signature of rank 0, as this package knows it: its own member's, or a summary's; zeros where rank 0 never opened
(DEDUCED, log 105). -/
def sigZero (s : State) (r : SeamRec) : List Byte :=
  match r.opens.find? fun o => o.rank = 0 && !o.shadow with
  | some o => sigOf o.desc o.epoch
  | none => match r.summaries.find? fun x => field x 8 4 = 0 with
    | some x => slice x 0x20 32
    | none => List.replicate 32 0

/-- The seam's whole output in position order. -/
def wholeOut (r : SeamRec) : List Byte := r.loads.flatMap fun e => e.2.out.flatMap (·.2)

/-- The seam digest (R339). -/
def seamDigest (s : State) (r : SeamRec) (code : Nat) : List Byte :=
  let head := seamIdent r ++ sigZero s r ++ leBytes 8 r.total ++ leBytes 1 code ++ leBytes 1 r.xflags.toNat ++ [0, 0] ++
    leBytes 4 (gMembers s r.group)
  sha3 (head ++ (if code = 0 then wholeOut r else []))

/-- A seam record of 16 bytes (R338). -/
def seamRecord (tag rkind xflags result loads rank press : Nat) : List Byte :=
  leBytes 2 tag ++ leBytes 1 rkind ++ leBytes 1 xflags ++ leBytes 2 result ++ leBytes 2 (min 0xFFFF loads) ++ leBytes 4 rank ++
    leBytes 4 press

/-- The digests of a rank with a joined shadow differ, agree, or there is none (R344). -/
def foldedOf (o : MemberOpen) : List Byte := sha3 (sigOf o.desc o.epoch ++ o.folded.flatMap (·.2))
def compareShadows (k : Nat) (r : SeamRec) (s : State) : State :=
  forEach (r.opens.filter fun o => o.shadow && o.joined) (fun o s =>
    match r.opens.find? fun x => x.rank = o.rank && !x.shadow with
    | none => s
    | some x =>
      if foldedOf o = foldedOf x then addCount (keyDie k) (keyPage k) 4 1 s
      else raise (keyDie k) (keyPage k) 2 (some r.ctx) 0 (addCount (keyDie k) (keyPage k) 5 1 s)) s

/-- SEAM_ABORT to the other packages of a seam, by the summaries held (R342, R349). OPERAND also names group and GSEQ
(log 35). -/
def abortOthers (k : Nat) (r : SeamRec) (code : Nat) (s : State) : State :=
  let pkgs := ((r.summaries.map fun x => field x 0 2) ++ [gNext s r.group, gPrev s r.group] ++
    (gDims s r.group).map (gPartner s r.group)).eraseDups.filter fun p => p ≠ pkgNo s
  if gXpkg s r.group then
    forEach pkgs (fun p s => engSend k (seamCtrl s 0x28 r.ctx (keyDie k) (engTile (keyDie k) (keyEng k)) 9
      (engAddr p (keyDie k) (keyEng k) 0) (code + r.group * 2 ^ 8 + r.gseq % 2 ^ 44 * 2 ^ 20) []) s) s
  else s

/-- The places a seam reserves at: its tiles, and the stage engine's tile; where the group's entry names another stage engine now, the
one that granted too. -/
def resvPlaces (s : State) (r : SeamRec) : List (Nat × Nat) :=
  seamTiles r ++ (if gXpkg s r.group then [(gXdie s r.group, engTile (gXdie s r.group) (gXe s r.group))] else []) ++
    (match r.stage with
      | some x => if gXpkg s r.group ∧ gXdie s r.group = x.die ∧ gXe s r.group = x.eng then [] else [(x.die, engTile x.die x.eng)]
      | none => [])

/-- Everything a seam holds on the package is released; what is free is available from step 7 on (R256, R337). -/
def releaseSeam (k : Nat) (r : SeamRec) (s : State) : State :=
  forEach (resvPlaces s r) (fun t s => releaseAt t.1 t.2 (refOf s k r) s) s

/-- The late opens of a seam are refused at its completion (R345); of one whose group's counts have been restarted they count no more
(R309, R320). -/
def refuseLate (k : Nat) (r : SeamRec) (s : State) : State :=
  forEach r.lateOpens (fun (p, first) s =>
    if !r.old then applyOpen (keyDie k) (keyEng k) first p (.refuse 0x50) s
    else if first then sendAdmit (keyDie k) (keyEng k) p (.refuse 0x50) s
    else lateRefusal (keyDie k) (keyEng k) p 0x50 s) s

/-- The record of a member's completion: the loads whose output was written for it, its own rank on success, else the reported
one (R338). -/
def doneRecord (s : State) (r : SeamRec) (o : MemberOpen) (code rank press : Nat) : List Byte :=
  let n := (r.loads.filter fun e => e.2.finished && (!o.shadow || o.joined) &&
    (let (a, b) := outInLoad s r e.1 o.rank; decide (a < b))).length
  seamRecord o.desc.tag.toNat 4 r.xflags.toNat code n (if code = 0 then o.rank else rank) (press % 2 ^ 32)

/-- The completion of a seam at the boundary that ends Press `press`: tally, records, release, late opens (R337). -/
def completeSeam (k code rank press : Nat) (s : State) : State :=
  match recOf s k with
  | none => s
  | some r =>
    let s := pairEvent (evDone r.group code r.xflags.toNat r.gseq) s
    let s := enterTally r.ctx { kind := 0, key := [r.group, r.gseq], ident := seamIdent r, digest := seamDigest s r code,
                                press := press } s
    let s := addCount (keyDie k) (keyPage k) (if code = 0 then 0 else 1) 1 s
    let s := compareShadows k r s
    let s := forEach r.opens (fun o s => engSend k (seamCtrl s 0x27 r.ctx (keyDie k) (engTile (keyDie k) (keyEng k)) 9
      (epAddr (pkgNo s) o.die o.tile 0 0) 0 (doneRecord s r o code rank press)) s) s
    let s := releaseSeam k r s
    let s := { s with se := { s.se with recs := drop s.se.recs k } }
    refuseLate k r (if r.old then s else markDone r.group r.gseq s)

/-! ### Matching (R323, R346, R347) -/

/-- The lowest rank whose signature differs from a given one. -/
def lowestDiff (os : List MemberOpen) (sig : List Byte) : Option Nat :=
  (os.find? fun o => sigOf o.desc o.epoch ≠ sig).map (·.rank)

/-- The lowest local rank without an accepted open. -/
def missingRank (s : State) (r : SeamRec) : Nat :=
  let base := gRankBase s r.group
  ((List.range (gLocal s r.group)).find? fun i => r.opens.all fun o => o.rank ≠ base + i).getD 0 + base

/-- The 64-byte summary of this package (R347). DIFF_RANK of a package that timed out is its lowest missing rank (log 36). -/
def summaryOf (s : State) (r : SeamRec) : List Byte :=
  let g := r.group
  let sig := match serving r with | o :: _ => sigOf o.desc o.epoch | [] => List.replicate 32 0
  let diff := match r.missing with | some m => m | none => (lowestDiff (serving r) sig).getD 0xFFFFFFFF
  leBytes 2 (pkgNo s) ++ leBytes 1 (gPos s g) ++ leBytes 1 (gQ s g) ++ leBytes 1 (gHdims s g) ++
    leBytes 1 (b2n r.missing.isSome) ++ [0, 0] ++ leBytes 4 (gRankBase s g) ++ leBytes 4 (gLocal s g) ++
    leBytes 4 (gMembers s g) ++ leBytes 4 diff ++ List.replicate 8 0 ++ sig

/-- The racks that the partners along the first n dimensions of a group reach from the own one. -/
def racksAfter (s : State) (g n : Nat) : List Nat :=
  ((gDims s g).take n).foldl (fun rs d => rs ++ rs.map (· ^^^ 2 ^ d)) [pkgNo s / 64]

/-- The summary of a package that lies at a ring position of a rack. -/
def summaryAtPos (r : SeamRec) (pkg rack pos : Nat) : Bool :=
  r.summaries.any fun x => field x 0 2 = pkg && pkg / 64 = rack && field x 2 1 = pos

/-- R346 over the summaries held; the fields that no summary carries are the own ones. -/
def shapeOk (s : State) (r : SeamRec) : Bool :=
  let g := r.group
  let xs := r.summaries
  let Q := gQ s g
  let rack := pkgNo s / 64
  let want := racksAfter s g (gDims s g).length
  let racks := (xs.map fun x => field x 0 2 / 64).eraseDups
  let spans := sortBy (fun a b => decide (a.1 < b.1)) (xs.map fun x => (field x 8 4, field x 0xC 4))
  let cover := spans.foldl (fun a e => match a with
    | some n => if e.1 = n then some (n + e.2) else none
    | none => none) (some 0)
  (xs.all fun x => field x 3 1 = Q && field x 4 1 = gHdims s g && field x 0x10 4 = gMembers s g) &&
    racks.length = want.length && (racks.all fun k => decide (k ∈ want)) &&
    (racks.all fun k => (List.range Q).all fun j =>
      (xs.filter fun x => field x 0 2 / 64 = k && field x 2 1 = j).length = 1) &&
    decide (xs.length = Q * want.length) &&
    (Q = 1 || (summaryAtPos r (gNext s g) rack ((gPos s g + 1) % Q) && summaryAtPos r (gPrev s g) rack ((gPos s g + Q - 1) % Q))) &&
    ((gDims s g).all fun d => summaryAtPos r (gPartner s g d) (rack ^^^ 2 ^ d) (gPos s g)) &&
    cover = some (gMembers s g)

/-- The check of R323 once every signature is known: a failure, or none. -/
def matchFail (s : State) (r : SeamRec) : Option (Nat × Nat) :=
  let g := r.group
  let full := (serving r).find? fun o => outFull s { r with total := totalOf s r } o
  let shape1 := isSort (descOfRec r) && decide (totalOf s r > 65536)
  if gXpkg s g then
    let late := (r.summaries.filter fun x => field x 5 1 = 1).map fun x => field x 0x14 4
    let sig := sigZero s r
    let diffs := r.summaries.filterMap fun x =>
      if slice x 0x20 32 ≠ sig then some (field x 8 4)
      else if field x 0x14 4 ≠ 0xFFFFFFFF then some (field x 0x14 4) else none
    let low (l : List Nat) : Option Nat := l.foldl (fun m x => match m with | none => some x | some y => some (min x y)) none
    match low late with
    | some m => some (0x4C, m)
    | none =>
      match low diffs with
      | some m => some (0x49, m)
      | none => if !shapeOk s r || shape1 then some (0x4E, 0) else full.map fun o => (0x4F, o.rank)
  else
    match r.opens.find? fun o => o.rank = 0 && !o.shadow with
    | none => some (0x49, 0)
    | some z =>
      match lowestDiff (serving r) (sigOf z.desc z.epoch) with
      | some m => some (0x49, m)
      | none => if shape1 then some (0x4E, 0) else full.map fun o => (0x4F, o.rank)

/-- The steps of the summary exchange: the ring where Q > 1, then one per dimension. -/
def exchangeSteps (s : State) (g : Nat) : Nat := b2n (decide (gQ s g > 1)) + (gDims s g).length

/-- Step i of the exchange has brought what it brings: the summaries of every rack reached by then. -/
def exchangeDone (s : State) (r : SeamRec) (i : Nat) : Bool :=
  let ring := b2n (decide (gQ s r.group > 1))
  (racksAfter s r.group (i + 1 - ring)).all fun k =>
    decide ((r.summaries.filter fun x => field x 0 2 / 64 = k).length ≥ gQ s r.group)

/-- Begins step i of the exchange. -/
def beginExchange (k i press : Nat) (s : State) : State :=
  match recOf s k with
  | none => s
  | some r =>
    let ring := decide (gQ s r.group > 1)
    let s := modRec k (fun r => { r with exchange := some (i, press) }) s
    if ring && i = 0 then sendSummaries k r (gNext s r.group) [summaryOf s r] s
    else
      let d := (gDims s r.group).getD (i - b2n ring) 0
      sendSummaries k r (gPartner s r.group d) r.summaries s

/-- The match takes effect (R323, R324): a failure, an empty output, or the reservation. T is known where the signatures agree (log 105);
what only this package can see is told to the others. -/
def takeMatch (k : Nat) (s : State) : State :=
  match recOf s k with
  | none => s
  | some r =>
    match matchFail s r with
    | some (c, rank) =>
      let s := if c = 0x4E ∨ c = 0x4F then modRec k (fun r => { r with total := totalOf s r }) (abortOthers k r c s) else s
      seamFail k c rank s
    | none =>
      let t := totalOf s r
      modRec k (fun r => { r with phase := if t = 0 then 4 else 1, total := t }) s

/-! ### Reservation and setting at the engine (R326 to R330, R332) -/


/-- Sends the requests. -/
def startReserve (k : Nat) (s : State) : State :=
  match recOf s k with
  | none => s
  | some r => modRec k (fun r => { r with asked := true }) (forEach (resvPlaces s r) (fun t s => sendReserve k t.1 t.2 s) s)

/-- SEAM_SET, with L, to every place. -/
def sendSet (k l : Nat) (s : State) : State :=
  match recOf s k with
  | none => s
  | some r => forEach (resvPlaces s r) (fun t s =>
      let dst := if dieType t.1 = .io then engAddr (pkgNo s) t.1 (stageEng t.2) (match r.stage with | some q => q.slot | none => 0)
        else tileAddr s t.1 t.2 (basketOf s t.1 t.2 (refOf s k r))
      engSend k (seamCtrl s 0x24 r.ctx (keyDie k) (engTile (keyDie k) (keyEng k)) 9 dst l []) s) s

/-- The seam is set if every grant is held: L is fixed, or the seam fails with PRESS_TOO_SHORT (R329, R332). -/
def trySet (k : Nat) (s : State) : State :=
  match recOf s k with
  | none => s
  | some r =>
    if r.phase = 1 && r.asked && (resvPlaces s r).all (fun t => decide (t ∈ r.grants)) then
      match loadSize s (keyDie k) r with
      | none => seamFail k 0x1D 0 s
      | some l =>
        let missing := (serving r).filter fun o => match findSlot s r.group o.die o.tile with
          | some (_, w) => (slotBackup w).isSome && !(r.opens.any fun x => x.rank = o.rank && x.shadow)
          | none => false
        let s := modRec k (fun r => { r with phase := 2, setPress := pressOf s (keyDie k), load := l, wait := none }) s
        sendSet k l (addCount (keyDie k) (keyPage k) 6 missing.length s)
    else s

/-- SEAM_GRANT at the engine (R328, R329). -/
def grantArrive (k die n : Nat) (word : Nat) (s : State) : State :=
  match recOf s k with
  | none => s
  | some r =>
    if r.phase ≠ 1 then s
    else
      match word / 2 ^ 14 % 4 with
      | 0 => trySet k (modRec k (fun r => { r with
          grants := if (die, n) ∈ r.grants then r.grants else r.grants ++ [(die, n)]
          reqs := r.reqs.filter fun x => !(x.die = die && x.tile = n)
          wait := if r.wait = some (die, n) then none else r.wait }) s)
      | 1 => modRec k (fun r => { r with wait := some (die, n) }) s
      | _ => seamFail k (word % 256) 0 s

/-- SEAM_YIELD_ASK at the engine: a seam not set releases every grant and goes back to reservation (R327). -/
def yieldAsk (k die n : Nat) (s : State) : State :=
  match recOf s k with
  | none => s
  | some r =>
    let answer (y : Nat) (s : State) : State :=
      let dst := if dieType die = .io then engAddr (pkgNo s) die (stageEng n) 0 else tileAddr s die n 0
      engSend k (seamCtrl s 0xA3 r.ctx (keyDie k) (engTile (keyDie k) (keyEng k)) 9 dst y []) s
    if r.phase = 1 then
      let s := forEach (r.grants.filter (· ≠ (die, n))) (fun t s =>
        let dst := if dieType t.1 = .io then engAddr (pkgNo s) t.1 (stageEng t.2) 0 else tileAddr s t.1 t.2 0
        engSend k (seamCtrl s 0x29 r.ctx (keyDie k) (engTile (keyDie k) (keyEng k)) 9 dst 0 []) s) s
      let again := r.grants
      let s := modRec k (fun r => { r with grants := [], stage := none }) (answer 1 s)
      addCount (keyDie k) (keyPage k) 3 1 (forEach again (fun t s => sendReserve k t.1 t.2 s) s)
    else answer 0 s

/-! ### The boundary (R105, R323, R337, R347, R348) -/

/-- The Press a finished seam completes with: the admitted one of its last load, at most the Press the boundary ends (R103, R338). One
that finished while a mirror held it takes the Press of the boundary that promotes (R419). -/
def donePress (r : SeamRec) (press : Nat) : Nat :=
  match r.held, r.loads.getLast? with | false, some (_, l) => min press l.due | _, _ => press

/-- The seam's last load has been delivered. -/
def allLoadsDone (r : SeamRec) : Bool :=
  r.phase = 4 || (r.phase = 3 && decide (r.started ≥ nLoads r) && r.loads.all fun e => e.2.finished)

/-- The end of Press n at a home engine's record: matching, then completion; a following mirror holds a completion until
the primary's (R413). -/
def recBoundary (k n : Nat) (s : State) : State :=
  match recOf s k with
  | none => s
  | some r =>
    let due : Bool := match r.allIn with | some a => decide (a ≤ n) | none => r.missing.isSome
    let s :=
      if r.phase = 0 ∧ due = true ∧ r.fails.isEmpty = true then
        if !gXpkg s r.group then (if r.missing.isSome then s else takeMatch k s)
        else
          match r.exchange with
          | none =>
            let own := summaryOf s r
            let s := modRec k (fun r => { r with summaries := own :: r.summaries.filter fun x => field x 0 2 ≠ pkgNo s }) s
            if exchangeSteps s r.group = 0 then takeMatch k s else s
          | some (i, _) =>
            if exchangeDone s r i ∧ i + 1 ≥ exchangeSteps s r.group then takeMatch k s else s
      else s
    match recOf s k with
    | none => s
    | some r =>
      match worstFail r.fails with
      | some (c, rank) => if s.pr.following then modRec k (fun r => { r with held := true }) s else completeSeam k c rank n s
      | none =>
        if allLoadsDone r then
          if s.pr.following then modRec k (fun r => { r with held := true }) s else completeSeam k 0 0 (donePress r n) s
        else s

/-- Unfinished loads admitted to end in Press n, which ends, run late and raise PRESS_OVERRUN once (R103). -/
def lateLoads (k n : Nat) (s : State) : State :=
  match recOf s k with
  | none => s
  | some r =>
    forEach (r.loads.filter fun e => !e.2.finished && !e.2.late && decide (e.2.due ≤ n)) (fun e s =>
      raisePrs (keyDie k) 4 (some r.ctx) 0 (modLoad k e.1 (fun l => { l with late := true }) s)) s

/-- The loads of a seam that were to end in a Press of an activation pause, or after it, end one Press later for each (R549). -/
def putOff (n : Nat) (r : SeamRec) : SeamRec :=
  { r with loads := r.loads.map fun e => (e.1, if e.2.due ≥ n then { e.2 with due := e.2.due + 1 } else e.2) }

/-- Press n of an activation pause ends. -/
def pauseLoads (n : Nat) (s : State) : State :=
  { s with se := { s.se with recs := s.se.recs.map fun e => (e.1, putOff n e.2) } }

/-- Seam completions and matches at the end of Press n, in ticket order, before step 5. -/
def seamsBoundary (n : Nat) (s : State) : State :=
  let homes := (s.se.recs.filter fun e => e.2.home = none).map fun e => (e.2.group, e.2.gseq, e.1)
  let order := sortBy (fun a b => lexLt [a.1, a.2.1] [b.1, b.2.1]) homes
  forEach order (fun e s => recBoundary e.2.2 n (lateLoads e.2.2 n s)) s

/-- The Presses a load takes: one, across packages 2Q + h (R331, R348). -/
def loadSpan (s : State) (g : Nat) : Nat := if gXpkg s g then 2 * gQ s g + (gDims s g).length else 1

/-- A load starts in Press m: at the engine, at the member tiles, at the stage engine (R329, R348). Where the package gives it nothing,
its partials are complete at once. -/
def startLoad (k m : Nat) (s : State) : State :=
  match recOf s k with
  | none => s
  | some r =>
    let i := r.started
    let l : LoadSt := { due := m + loadSpan s r.group - 1, stepAt := waitPress s (keyDie k) }
    let s := modRec k (fun r => { r with phase := 3, started := i + 1, loads := ins r.loads i l }) s
    let s := addCount (keyDie k) (keyPage k) 7 1 s
    let s := match r.stage with
      | some q => modRec (keyOf q) (fun x => { x with
          phase := 3, load := r.load, total := r.total, started := i + 1, loads := ins x.loads i l }) s
      | none => s
    let q := refOf s k r
    let s := if hasTasks r then
        forEach (seamTiles r) (fun t s => fillSeam t.1 t.2 { s with se := { s.se with
          loads := upd [] s.se.loads (tk t.1 t.2) (· ++ [{ ref := q, load := i }]) } }) s
      else forEach (seamTiles r) (fun t s => rawStart k q t.1 t.2 i s) s
    advanceLoad k i s

/-- Step 7 of the boundary into Press m for a record: the exchange goes on, reservation is asked for, a load starts, the
stage engine's steps move on. -/
def recStep7 (k m : Nat) (s : State) : State :=
  match recOf s k with
  | none => s
  | some r =>
    if r.home.isSome then forEach r.loads (fun e s => stageLoad k e.1 (waitPress s (keyDie k)) s) s
    else if r.phase = 0 ∧ gXpkg s r.group then
      match r.exchange with
      | none =>
        if (match r.allIn with | some a => decide (a < m) | none => r.missing.isSome) then beginExchange k 0 (waitPress s (keyDie k)) s else s
      | some (i, _) =>
        if exchangeDone s r i ∧ i + 1 < exchangeSteps s r.group then
          beginExchange k (i + 1) (waitPress s (keyDie k)) s else s
    else if r.phase = 1 then
      if !r.asked then startReserve k s else s
    else if (r.phase = 2 ∧ r.setPress < m) ∨ r.phase = 3 then
      if r.started < nLoads r then startLoad k m s else s
    else s

/-- A waiting reservation is counted as deferred once at each step 7 (R328). -/
def countWaits (s : State) : State :=
  forEach s.se.resv (fun e s => forEach (e.2.filter fun r => !r.granted) (fun r s =>
    countDefer (e.1 / 256) (e.1 % 256) r.ref.ctx 0x52 s) s) s

/-- Step 7 of the boundary into Press m for every engine. -/
def seamsStep7 (m : Nat) (s : State) : State :=
  let s := forEach s.se.deferred (fun e s => openStep7 (e.1 / 4) (e.1 % 4) s) s
  let s := countWaits (forEach s.se.resv (fun e s => evalResv (e.1 / 256) (e.1 % 256) s) s)
  forEach (s.se.recs.map (·.1)) (fun k s => recStep7 k m s) s

/-! ### Failures, resets (R309, R325, R330, R342, R349) -/

/-- SEAM_TIMEOUT: not every open within OPEN_WAIT Presses of the first (R325). -/
def seamTimedOut (k : Nat) (s : State) : State :=
  match recOf s k with
  | none => s
  | some r =>
    let w := (reg s (keyDie k) (keyPage k) 0x108).toNat
    if r.home.isSome ∨ r.phase ≠ 0 ∨ r.allIn.isSome ∨ r.missing.isSome ∨ w = 0 ∨ waitPress s (keyDie k) ≤ r.first + w then s
    else
      let m := missingRank s r
      let s := modRec k (fun r => { r with missing := some m }) s
      if gXpkg s r.group then s else seamFail k 0x4C m s

/-- SEAM_RES_STALL: a request at one place waits more than RES_STALL_LIMIT Presses (R330). -/
def resStalled (k die n : Nat) (s : State) : State :=
  match recOf s k with
  | none => s
  | some r =>
    let lim := rfld s (keyDie k) (keyPage k) 0x110 15 0
    let here (x : ResvAsk) : Bool := x.die = die && x.tile = n
    if r.phase = 1 ∧ r.reqs.any (fun x => here x && !x.stalled && decide (waitPress s (keyDie k) > x.since + lim)) then
      raise (keyDie k) (keyPage k) 1 (some r.ctx) 0 (modRec k (fun r => { r with
        reqs := r.reqs.map (fun x => if here x then { x with stalled := true } else x), wait := some (die, n) }) s)
    else s

/-- A step's data are overdue by STAGE_WAIT Presses: of the exchange, or of a load at the stage engine (R349). -/
def stepOverdue (s : State) (k : Nat) (r : SeamRec) : Bool :=
  let w := rfld s (keyDie k) (keyPage k) 0x10C 7 0
  let now := waitPress s (keyDie k)
  if r.phase = 0 then
    match r.exchange with
    | some (i, at_) => !exchangeDone s r i && decide (now > at_ + w)
    | none => false
  else
    match r.stage with
    | some q => (match recOf s (keyOf q) with
      | some x => x.loads.any fun e =>
          (match stepKind s r.group e.2.step with | .deliver => false | _ => true) &&
            (endStep s x e.1 e.2).isNone && decide (now > e.2.stepAt + w)
      | none => false)
    | none => false

/-- SEAM_LINK_LOST (R349). -/
def seamLinkLostAt (k : Nat) (s : State) : State :=
  match recOf s k with
  | none => s
  | some r =>
    if r.home.isNone ∧ gXpkg s r.group ∧ r.fails = [] ∧ stepOverdue s k r then
      abortOthers k r 0x51 (seamFail k 0x51 0 s)
    else s

/-- A commit that changes a group's entry or slots aborts its open seams and restarts its sequence counts (R309). -/
def groupChanged (g : Nat) (s : State) : State :=
  let ks := (s.se.recs.filter fun e => e.2.group = g && e.2.home = none).map (·.1)
  let s := forEach ks (fun k s => modRec k (fun r => { r with old := true }) (seamFail k 0x4D 0 s)) s
  { s with se := { s.se with
      seqs := keep (fun x => x / 65536 ≠ g) s.se.seqs
      posts := keep (fun x => x / 65536 ≠ g) s.se.posts
      doneSeq := drop s.se.doneSeq g
      doneSet := s.se.doneSet.filter fun e => e.1 ≠ g } }

/-- CONTEXT_RESET: the context's records leave without a record of theirs; other packages are told (R342, R508). -/
def seamCtxReset (c : Nat) (s : State) : State :=
  let ks := (s.se.recs.filter fun e => e.2.ctx = c && e.2.home = none).map (·.1)
  let s := forEach ks (fun k s => match recOf s k with
    | none => s
    | some r =>
      let places := resvPlaces s r
      let s := releaseSeam k r (abortOthers k r 0x88 s)
      let s := { s with se := { s.se with recs := drop s.se.recs k } }
      forEach places (fun t s => if dieType t.1 = .io then evalResv t.1 t.2 s else fillQueue t.1 t.2 (evalResv t.1 t.2 s)) s) s
  let keepP (ps : List Packet) : List Packet := ps.filter fun p => p.ctx ≠ c
  let clean (m : SMap (List Packet)) : SMap (List Packet) :=
    (m.map fun e => (e.1, keepP e.2)).filter fun e => e.2 ≠ []
  let gs := (List.range 4095).filter fun g => decide (gCtx s g = c) && gValid s g
  forEach gs (fun g s => groupChanged g s)
    { s with se := { s.se with deferred := clean s.se.deferred, mirror := clean s.se.mirror, early := clean s.se.early } }

/-- Every seam with a member on a tile, with a task that the tile borrowed (R271), or with its engine there, fails with a code. -/
def failSeamsAt (die : Nat) (tile : Option Nat) (code : Nat) (s : State) : State :=
  let lent : List SeamRef := match tile with | some t => borrowedSeams s die t | none => []
  let hit (k : Nat) (r : SeamRec) : Bool :=
    r.home.isNone &&
      ((tile.isNone && keyDie k = die) || (r.opens.any fun o => o.die = die && (match tile with | some t => o.tile = t | none => true)) ||
        (lent.any fun q => sameSeam q (refOf s k r)) ||
        (match r.stage with | some q => q.die = die && tile.isNone | none => false))
  forEach (s.se.recs.filter fun e => hit e.1 e.2) (fun e s => abortOthers e.1 e.2 code (seamFail e.1 code 0 s)) s

end Sys2Proof.Machine
end

