-- ==== Sys2Proof/Machine/Tasks.lean ====
section
/-! DEFINITION. The commands of darners (08): dispatch, completion, ordered release, steals, the end of a run; and the
loading of patches (R289). -/
namespace Sys2Proof.Machine

/-- The addresses a COMBINE task of a member's tile reads: its elements of the stripe, and its blocks' scales behind the member's elements
(R204, R245). -/
def stripeReads (r : SeamRec) (die n : Nat) (t : Task) : List (DWord × Nat) :=
  match r.opens.find? fun o => o.die = die && o.tile = n with
  | none => []
  | some o =>
    let code := xInFmt o.desc.xctl
    let w := fmtBits code
    let i := inIndex r o t.run t.first
    (o.desc.src + w64 (i * w / 8), ceilDiv (t.count * w) 8) ::
      (if isMX code then [(o.desc.src + w64 (o.desc.count / 32 * (4 * w) + i / 32), ceilDiv t.count 32)] else [])

/-- The addresses a task of tile `n`'s queue reads; a DELIVER task reads none. -/
def taskReads (s : State) (die n : Nat) (t : Task) : List (DWord × Nat) :=
  match t.kind, t.seam with
  | .patch, _ => (match runOf s die n t.run with | some r => chunkReads r t | none => [])
  | .combine, some q => (match recOf s (keyOf q) with | some r => stripeReads r die n t | none => [])
  | _, _ => []

/-- A task that starts has its input read, one access for each granule (R65). -/
def readInput (die n : Nat) (t : Task) (s : State) : State := forEach (taskReads s die n t) (fun a s => userLoad a.1 a.2 s) s

/-- TASK_DISPATCH: the task R242 picks starts; an entry with a parity error is discarded and fails its run or seam (R270);
a parity error of the patch store stops the task as it fetches (R286). -/
def dispatchTask (die n d : Nat) (data : List Byte) (e : TaskErr) (s : State) : State :=
  if !drnIdle s die n d then s
  else
    match pickTask s die n d with
    | none => s
    | some t =>
      if e = .entryParity then
        let s := raise die (drnPage s die n) 3 (some t.ctx) 0 s
        match t.seam with
        | some q => fillSeam die n (tileAbort die n q 0x3A (unqueue die n t s))
        | none => fillQueue die n (dropChunk die n t s)
      else
        let b := match runOf s die n t.run with | some r => if t.kind = .patch then r.bind else [] | none => []
        let bank := match runOf s die n t.run with
          | some r => if t.kind = .patch then r.bank else activeBank s die n
          | none => activeBank s die n
        let s := readInput die n t (startTask die n d 0 bank t b data (unqueue die n t s))
        let s := if e = .storeParity ∧ t.kind = .patch then patchFault { die := die, tile := n, darner := d } 0x45 s else s
        fillSeam die n (fillQueue die n s)

/-- A seam task has run: its output leaves the tile that owns it (R261); a slot or steal-path error poisons it and fails the
seam (R268, R269, R342). -/
def endSeamTask (die n owner d : Nat) (q : SeamRef) (t : Task) (data : List Byte) (poison : Bool) (s : State) : State :=
  let s := if poison then tileAbort die owner q 0x38 s else s
  let s := if t.kind = .combine then combineDone (keyOf q) q die owner t data poison s else deliverDone (keyOf q) q die owner t s
  fillSeam die owner (freeDarner die n d s)

/-- The run's darner code of a finished PATCH task: the patch fault, or an error of its slots or of the steal path. -/
def chunkFault (x : Darner) (e : SlotEcc) : Nat :=
  if x.mach.fault ≠ 0 then x.mach.fault else if e = .bad ∨ x.poisoned then 0x38 else 0

/-- Corrected slot errors are counted, an uncorrectable one raises DRN_ACC_ECC (R268). -/
def slotErrors (die n ctx : Nat) (e : SlotEcc) (s : State) : State :=
  match e with
  | .ok => s
  | .corrected k => addCount die (drnPage s die n) 6 k s
  | .bad => raise die (drnPage s die n) 0 (some ctx) 0 s

/-- TASK_COMPLETE (R240, R249, R261, R265). -/
def completeTask (die n d : Nat) (data : List Byte) (e : SlotEcc) (s : State) : State :=
  let x := darnerOf s die n d
  match x.task with
  | none => s
  | some t =>
    let owner := ownerTile die n x
    if x.holding || isSafe s die then s
    else
      match t.kind, t.seam with
      | .patch, _ =>
        if x.mach.sect ≠ .done then s
        else
          let code := chunkFault x e
          let s := addCount die (drnPage s die n) 1 1 (slotErrors die n t.ctx e s)
          let s := if code = 0 then chunkResults die owner t.run x.mach s else s
          fillQueue die owner (endChunk die n d owner t (if code = 0 then x.mach.records else []) code x.mach.xflags s)
      | _, none => s
      | k, some q =>
        let ready := match recOf s (keyOf q), tloadOf s die owner q t.run with
          | some r, some l => k = .deliver || kidsReady r die owner l t
          | _, _ => true
        if !ready then s
        else
          let s := addCount die (drnPage s die n) 1 1 (slotErrors die n t.ctx e s)
          let poison := decide (e = .bad) || x.poisoned
          if t.ordered then
            let h : HeldOut := { oseq := t.oseq, darner := d, thief := n, bytes := data, fault := if poison then 0x38 else 0 }
            modDarner die n d (fun x => { x with holding := true })
              (countBusy die n d (modDrn die owner (fun x => { x with
                streams := upd {} x.streams t.stream fun k => { k with held := k.held ++ [h] } }) s))
          else endSeamTask die n owner d q t data poison s

/-- REORDER_RELEASE: the held output of the stream's next OSEQ leaves (R251, R265). -/
def releaseOrdered (die n st : Nat) (s : State) : State :=
  let k := look ({} : Stream16) (drnTile s die n).streams st
  match k.held.find? fun h => h.oseq = k.next with
  | none => s
  | some h =>
    let s := modDrn die n (fun t => { t with streams := upd {} t.streams st fun k => { k with
      next := k.next + 1, offset := k.offset + h.bytes.length, held := k.held.filter fun x => x.oseq ≠ h.oseq } }) s
    if st ≥ 12 then
      let s := chunkOut die n k.run h.bytes h.fault h.xflags s
      fillQueue die n (if h.darner < 8 then freeDarner die h.thief h.darner s else s)
    else
      match (darnerOf s die h.thief h.darner).task with
      | some t => (match t.seam with
        | some q => endSeamTask die h.thief n h.darner q t h.bytes (decide (h.fault ≠ 0)) s
        | none => s)
      | none => s

/-- STEAL_GRANT: eight cycles after the request; the thief reads the input (R261). -/
def grantSteal (die n d : Nat) (data : List Byte) (linkErr : Bool) (s : State) : State :=
  match (darnerOf s die n d).asks with
  | none => s
  | some (dir, t, c) =>
    if s.tm.fclk < c + 8 then s
    else
      let none_ := modDarner die n d (fun x => { x with asks := none }) s
      match meshNeighbour die n dir with
      | none => none_
      | some v =>
        if !maySettle s die n d v dir c t then none_
        else
          let b := match runOf s die v t.run with | some r => if t.kind = .patch then r.bind else [] | none => []
          let s := unqueue die v t s
          let s := startTask die n d (dir + 1) (activeBank s die n) t b data s
          let s := modDarner die n d (fun x => { x with
            rot := dir, endAt := x.endAt + t.cost, admitted := x.admitted + t.cost, poisoned := linkErr }) s
          let s := addCount die (drnPage s die v) 3 1 (addCount die (drnPage s die n) 2 1 s)
          fillQueue die v (readInput die v t (doIf linkErr (stealLinkErr die n v dir t.ctx) s))

/-! ### Late work (R103, R273) -/

/-- A task that runs as Press m begins is late: a patch run's in any case, a seam's if its load was to end in a Press before m. -/
def lateTask (s : State) (m : Nat) (t : Task) : Bool :=
  match t.seam with
  | none => true
  | some q => match recOf s (keyOf q) with
    | some r => (match look? r.loads t.run with | some l => decide (l.due < m) | none => false)
    | none => false

/-- The end of a Press at a tile: what its darners run is late, and each run admitted in it that is not over is late work and
raises PRESS_OVERRUN. -/
def markLate (die n : Nat) (s : State) : State :=
  let lates := (drnTile s die n).runs.filter fun e => e.2.bind ≠ [] && !e.2.late
  let m := pressOf s die
  let lateD (x : Darner) : Darner :=
    match x.task with | some t => { x with late := x.late || lateTask s m t } | none => x
  let s := modDrn die n (fun t => { t with
    runs := t.runs.map (fun e => if e.2.bind ≠ [] then (e.1, { e.2 with late := true }) else e)
    darners := mapDarners lateD t.darners }) s
  forEach lates (fun e s => raisePrs die 4 (some e.2.ctx) 0 s) s

def execTaskDispatch (die tile darner : Nat) (data : List Byte) (e : TaskErr) (s : State) :
    Host.Outcome State Fault Refusal := .next (dispatchTask die tile darner data e s)
def execTaskComplete (die tile darner : Nat) (data : List Byte) (e : SlotEcc) (s : State) :
    Host.Outcome State Fault Refusal := .next (completeTask die tile darner data e s)
def execReorderRelease (die tile stream : Nat) (s : State) : Host.Outcome State Fault Refusal :=
  .next (releaseOrdered die tile stream s)
def execStealRequest (die tile darner dir : Nat) (s : State) : Host.Outcome State Fault Refusal :=
  .next (askSteal die tile darner dir s)
def execStealGrant (die tile darner : Nat) (data : List Byte) (linkErr : Bool) (s : State) :
    Host.Outcome State Fault Refusal := .next (grantSteal die tile darner data linkErr s)

end Sys2Proof.Machine
end

