-- ==== Sys2Proof/Machine/SeamCmds.lean ====
section
/-! DEFINITION. The commands of seams (10): packets at engines and member tiles, timeouts, aborts. -/
namespace Sys2Proof.Machine

/-- The record a packet between engines names: by group and GSEQ in its OPERAND when it comes from another package
(log 35), else the record the command names. -/
def namedRec (s : State) (die eng rec_ : Nat) (p : Packet) : Option Nat :=
  let x := p.operand.toNat
  if p.srcPkg = pkgNo s ∧ p.opcode ≠ 0x21 then some (seamKey die eng rec_)
  else
    let hit := if p.opcode = 0x28 then findRec s (bits x 19 8) (bits x 63 20) else findRec s (bits x 63 48) (bits x 47 0)
    match hit with
    | some k => if k / 256 = ek die eng then some k else none
    | none => none

/-- A stage engine's record of a group and GSEQ. -/
def findStage (s : State) (die eng g gseq : Nat) : Option Nat :=
  (s.se.recs.find? fun e => e.1 / 256 = ek die eng && e.2.group = g && e.2.gseq = gseq && e.2.home.isSome).map (·.1)

/-- SEAM_PART or SEAM_DATA reaches an engine or a member tile: an engine is addressed at port 9 (R351). -/
def seamValues (die n : Nat) (q : SeamRef) (fromDie fromTile : Nat) (p : Packet) (s : State) : State :=
  let s := consume die n p s
  if aPort p.dest = 9 then
    if dieType die = .io then
      let eng := stageEng n
      match findStage s die eng (bits p.operand.toNat 63 48) (bits p.operand.toNat 47 0) with
      | some k => stageArrive die eng { q with die := die, eng := eng, slot := k % 256 } p s
      | none => { s with se := { s.se with early := upd [] s.se.early (ek die eng) (· ++ [p]) } }
    else homeArrive (keyOf q) fromDie fromTile p s
  else if (recAt s q).isNone then s
  else if p.opcode = 0x25 then tilePart (keyOf q) q die n p s
  else tileData (keyOf q) q die n fromDie fromTile p s

/-- SEAM_RESERVE at a tile: the request joins those that wait, and they are evaluated (R327). -/
def reserveArrive (die n : Nat) (q : SeamRef) (s : State) : State :=
  let s := consumeOp die n 0x22 s
  if (resvOf s die n).any (fun r => sameSeam r.ref q) ∨ (recAt s q).isNone then s
  else evalResv die n (modResv die n (fun rs => rs ++ [{ ref := q }]) s)

/-- SEAM_YIELD at a tile: what was yielded is free; a seam that holds is left alone (R327). -/
def yieldArrive (die n : Nat) (q : SeamRef) (yielded : Bool) (s : State) : State :=
  let s := consumeOp die n 0xA3 s
  if yielded then releaseEval die n q s else evalResv die n s

/-- SEAM_SET at a tile: the grant takes effect at the boundary that ends the Press in which the seam was set (R329, R332). -/
def setArrive (die n : Nat) (q : SeamRef) (load : Nat) (s : State) : State :=
  let s := modResv die n (fun rs => rs.map fun r => if sameSeam r.ref q then { r with set := true, load := load } else r)
    (consumeOp die n 0x24 s)
  match recAt s q with
  | none => s
  | some r => forEach (List.range 8) (fun d s => modDarner die n d (fun x =>
      if x.resv = some q then { x with resvFrom := r.setPress + 1 } else x) s) s

/-- SEAM_SUMMARY at a home engine; one that comes before the group's record is kept for it. -/
def summaryAt (die eng rec_ : Nat) (p : Packet) (s : State) : State :=
  match namedRec s die eng rec_ p with
  | some k => summaryArrive k p s
  | none => { s with se := { s.se with early := upd [] s.se.early (ek die eng) (· ++ [p]) } }

/-- SEAM_ABORT at an engine: the seam fails with the status carried (R342, R349); the first one goes on to the packages this engine knows
(DEDUCED, log 36). -/
def abortArrive (die eng rec_ : Nat) (p : Packet) (s : State) : State :=
  let s' := consume die (engTile die eng) p s
  match namedRec s die eng rec_ p with
  | some k =>
    let c := bits p.operand.toNat 7 0
    match recOf s k with
    | some r => seamFail k c 0 (doIf r.fails.isEmpty (abortOthers k r c) s')
    | none => s'
  | none => s'

/-- SEAM_ABORT_CMD written: GO fails the seam of the named record, at its home engine, with SEAM_ABORTED (R342). -/
def abortCmdEffect (die page : Nat) (v : Word) (s : State) : State :=
  if v.toNat.testBit 31 then
    let k := seamKey die ((page - 0x600) / 16) (wbits v 7 0)
    match recOf s k with
    | some r => seamFail (match r.home with | some h => keyOf h | none => k) 0x4D 0 s
    | none => s
  else s

def execSeamOpen (die eng : Nat) (p : Packet) (s : State) : Host.Outcome State Fault Refusal :=
  .next (served die (engTile die eng) (engPort die) p (openArrive die eng p) s)
def execSeamSummary (die eng rec : Nat) (p : Packet) (s : State) : Host.Outcome State Fault Refusal :=
  .next (summaryAt die eng rec p (consume die (engTile die eng) p s))
def execSeamReserve (die tile : Nat) (r : SeamRef) (s : State) : Host.Outcome State Fault Refusal :=
  .next (reserveArrive die tile r s)
def execSeamGrant (die eng rec fromDie fromTile : Nat) (outcome : BitVec 16) (s : State) :
    Host.Outcome State Fault Refusal :=
  .next (grantArrive (seamKey die eng rec) fromDie fromTile outcome.toNat (consumeOp die (engTile die eng) 0xA2 s))
def execSeamYieldAsk (die eng rec fromDie fromTile : Nat) (s : State) : Host.Outcome State Fault Refusal :=
  .next (yieldAsk (seamKey die eng rec) fromDie fromTile (consumeOp die (engTile die eng) 0x23 s))
def execSeamYield (die tile : Nat) (r : SeamRef) (yielded : Bool) (s : State) : Host.Outcome State Fault Refusal :=
  .next (yieldArrive die tile r yielded s)
def execSeamSet (die tile : Nat) (r : SeamRef) (load : Nat) (s : State) : Host.Outcome State Fault Refusal :=
  .next (setArrive die tile r load s)
def execSeamPart (die tile : Nat) (r : SeamRef) (fromTile : Nat) (p : Packet) (s : State) :
    Host.Outcome State Fault Refusal := .next (seamValues die tile r p.srcDie fromTile p s)
def execSeamData (die tile : Nat) (r : SeamRef) (fromDie fromTile : Nat) (p : Packet) (s : State) :
    Host.Outcome State Fault Refusal := .next (seamValues die tile r fromDie fromTile p s)
def execSeamAbort (die eng rec : Nat) (p : Packet) (s : State) : Host.Outcome State Fault Refusal :=
  .next (abortArrive die eng rec p s)
def execSeamRelease (die tile : Nat) (r : SeamRef) (s : State) : Host.Outcome State Fault Refusal :=
  .next (releaseEval die tile r (consumeOp die tile 0x29 s))
def execSeamTimeout (die eng rec : Nat) (s : State) : Host.Outcome State Fault Refusal :=
  .next (seamTimedOut (seamKey die eng rec) s)
def execSeamResStall (die eng rec tileDie tile : Nat) (s : State) : Host.Outcome State Fault Refusal :=
  .next (resStalled (seamKey die eng rec) tileDie tile s)
def execSeamLinkLost (die eng rec : Nat) (s : State) : Host.Outcome State Fault Refusal :=
  .next (seamLinkLostAt (seamKey die eng rec) s)

end Sys2Proof.Machine
end

