-- ==== Sys2Proof/Machine/CipBase.lean ====
section
/-! DEFINITION. The CIP (11): streams and their waits (R354, R582), the credit cache (R363, R365, R366), sends (R357), receives
(R361). -/
namespace Sys2Proof.Machine

/-! ### Streams -/

/-- What becomes of a command as it is presented. -/
inductive Gate where
  | go
  | ignore
  | status (code : Nat)
  | pause
deriving DecidableEq, Repr

/-- A stream has a command outstanding (R556). -/
def streamBusy (s : State) (die n st : Nat) : Bool :=
  let c := cipOf s die n
  (look? c.streams st).isSome || c.opens.any fun o => o.stream = st

/-- A tile has a CIP. -/
def hasCip (die n : Nat) : Bool := decide (die < 64) && dieType die = .compute && decide (n < 128)

/-- A CIP takes requests of its cores: FCLK runs (R555), its die is in service (R553), its tile not in LP1 (R560). -/
def cipReady (s : State) (die n : Nat) : Bool := hasCip die n && fclkRuns s && !notInService s die && !isAsleep s die n

/-- A command is accepted, answered at once, or blocked by the activation pause (R354, R544, R556, R582). -/
def cipGate (s : State) (h : CipHdr) : Gate :=
  if !cipReady s h.die h.tile || streamBusy s h.die h.tile h.stream || decide (h.stream ≥ 128) then .ignore
  else if isSafe s h.die then .status 0x89
  else if tileQuiesced s h.die h.tile then .status 0x20
  else if isIsolated s h.die then .status 0x88
  else if s.fw.carried then .pause
  else if !activeOn s h.die h.tile h.ctx then .status 0x5B
  else .go

/-- The wait is a credit wait (R371). -/
def isCreditWait : Wait → Bool
  | .credit _ _ _ | .cacheEntry _ _ _ | .post _ | .arm _ _ _ _ => true
  | _ => false

/-- A stream waits; one that waits already keeps its place and the Press its wait began in. -/
def waitOn (die n st ctx : Nat) (w : Wait) (s : State) : State :=
  match look? (cipOf s die n).streams st with
  | some x => modCip die n (fun c => { c with streams := ins c.streams st { x with wait := w } }) s
  | none =>
    let s := if isCreditWait w then cipCount die n 3 s else s
    modCip die n (fun c => { c with
      streams := ins c.streams st { ctx := ctx, wait := w, since := waitPress s die, order := c.order }
      order := c.order + 1 }) s

/-- A stream's command completes with a status and data. -/
def endStream (die n st code : Nat) (data : List Byte) (s : State) : State :=
  cipRsp die n st code data (modCip die n (fun c => { c with streams := drop c.streams st }) s)

/-- The meaning of a command of a stream once its gate is passed. -/
def cipCmd (h : CipHdr) (c : Instr) (f : State → State) (s : State) : State :=
  match cipGate s h with
  | .ignore => s
  | .status x => cipRsp h.die h.tile h.stream x [] s
  | .pause => waitOn h.die h.tile h.stream h.ctx (.pause c) s
  | .go => f s

/-- The next request number of a CIP (log 28). -/
def takeSeq (die n : Nat) (s : State) : BitVec 16 × State :=
  ((cipOf s die n).reqSeq, modCip die n (fun c => { c with reqSeq := c.reqSeq + 1 }) s)

/-- A CTRL request of a CIP. -/
def ctrlReq (s : State) (die n ctx op : Nat) (dest : DWord) (sseq : BitVec 16) (flags operand : Nat) : Packet :=
  { cls := .ctrl, ctx := ctx, dest := dest, opcode := BitVec.ofNat 8 op, srcPkg := pkgNo s, srcDie := die, srcTile := n,
    srcPort := 0, sseq := sseq, flags := BitVec.ofNat 8 flags, operand := w64 operand }

/-! ### Message addresses and the credit cache -/

/-- An index is a message address, a ring, a doorbell (R356). -/
def isMsgIdx (a : DWord) : Bool := aRegion a = 1 && aPort a = 0 && decide (aIdx a < 0x40000)
def isRingIdx (a : DWord) : Bool := aRegion a = 1 && aPort a = 0 && aIdx a / 256 = 0x1000
def isDbIdx (a : DWord) : Bool := aRegion a = 1 && aPort a = 0 && aIdx a / 256 = 0x2000

/-- The address of the queue of a message address: TAG 0. -/
def queueAddr (a : DWord) : DWord := w64 (a.toNat / 256 * 256)
def msgQueue (a : DWord) : Nat := aIdx a / 256 % 1024

/-- Fields of CIP_CTRL. -/
def creditAsk (s : State) (die n : Nat) : Nat := rfld s die (cipPage s die n) 0x100 15 8
def stallLimit (s : State) (die n : Nat) : Nat := rfld s die (cipPage s die n) 0x100 7 4
def abortOnStall (s : State) (die n : Nat) : Bool := rfld s die (cipPage s die n) 0x100 0 0 = 1
def ackHold (s : State) (die n : Nat) : Nat := 16 * rfld s die (cipPage s die n) 0x100 23 16

def findCache (s : State) (die n ctx : Nat) (a : DWord) : Option (Nat × CacheEntry) :=
  (cipOf s die n).cache.find? fun e => e.2.dest = queueAddr a && e.2.ctx = ctx
def modCache (die n i : Nat) (f : CacheEntry → CacheEntry) : State → State :=
  modCip die n fun c => { c with cache := c.cache.map fun e => if e.1 = i then (e.1, f e.2) else e }

/-- CREDIT_REQ of an entry (R363). -/
def askCredits (die n i : Nat) (s : State) : State :=
  match look? (cipOf s die n).cache i with
  | none => s
  | some e =>
    let rp := takeSeq die n s
    let q := rp.1
    let s := rp.2
    let s := modCache die n i (fun e => { e with req := some q, later := false }) s
    let p := ctrlReq s die n e.ctx 0x11 e.dest q 0x80 (creditAsk s die n)
    sendFrom die n 10 p (cipCount die n 2 s)

/-- An entry's credits go back to their queue and the entry is freed (R366); what its outstanding request brings is still to come. -/
def freeCache (die n i : Nat) (s : State) : State :=
  match look? (cipOf s die n).cache i with
  | none => s
  | some e =>
    let s := modCip die n (fun c => { c with
      cache := drop c.cache i, freed := if e.req.isSome then c.freed ++ [e] else c.freed }) s
    if e.credits = 0 then s
    else let (q, s) := takeSeq die n s; sendFrom die n 10 (ctrlReq s die n e.ctx 0x12 e.dest q 0 e.credits) s

/-- A stream waits for a credit of an entry. -/
def hasSender (c : Cip) (e : CacheEntry) : Bool :=
  c.streams.any fun x => match x.2.wait with
    | .credit a _ _ => queueAddr a = e.dest && x.2.ctx = e.ctx
    | _ => false

/-- The least recently used entry without a waiting send or a request outstanding. -/
def lruEntry (c : Cip) : Option Nat :=
  ((c.cache.filter fun e => e.2.req = none && !e.2.later && !hasSender c e.2).foldl (fun best e =>
    match best with
    | none => some e
    | some b => if e.2.stamp < b.2.stamp then some e else some b) (none : Option (Nat × CacheEntry))).map (·.1)

/-- The lowest free entry of the cache. -/
def freeSlotOf (c : Cip) : Option Nat := (List.range 256).find? fun i => (look? c.cache i).isNone

/-! ### Sends (R357) -/

/-- Key of a stream's sequence number in a context. -/
def sseqKey (st ctx : Nat) : Nat := st * 2048 + ctx

/-- The MSG packet of a send; its head has no field for the number of payload bytes (log 40). -/
def msgPacket (s : State) (die n st ctx : Nat) (a : DWord) (nbytes : Nat) (payload : List Byte) : Packet :=
  let body := padTo nbytes payload
  let flits := ceilDiv (nbytes - 8) 16
  { cls := .ctrl, ctx := ctx, dest := a, opcode := 0x10, srcPkg := pkgNo s, srcDie := die, srcTile := n, srcPort := 0,
    sseq := look 0 (cipOf s die n).sseq (sseqKey st ctx), flags := BitVec.ofNat 8 st, operand := w64 (field body 0 8),
    nbytes := nbytes, payload := padTo (16 * flits) (body.drop 8), len := flits, why := List.replicate flits 0 }

/-- A send takes a credit of its entry and its message leaves (R357, R363, R365). -/
def sendMsg (die n st ctx i : Nat) (a : DWord) (nbytes : Nat) (payload : List Byte) (s : State) : State :=
  let p := msgPacket s die n st ctx a nbytes payload
  let s := modCip die n (fun c => { c with
    sseq := upd 0 c.sseq (sseqKey st ctx) (· + 1), order := c.order + 1 }) s
  let s := modCache die n i (fun e => { e with
    credits := e.credits - 1, used := waitPress s die, stamp := (cipOf s die n).order }) s
  let s := cipCount die n 0 (sendFrom die n 10 p s)
  let s := match look? (cipOf s die n).cache i with
    | some e => if 2 * e.credits < e.lastGrant ∧ e.req = none ∧ !e.later then askCredits die n i s else s
    | none => s
  endStream die n st 0 [] s

/-- An entry is allocated for a destination and asks for credits; the send waits (R363). -/
def newEntry (die n st ctx i : Nat) (a : DWord) (nbytes : Nat) (payload : List Byte) (s : State) : State :=
  let s := modCip die n (fun c => { c with
    cache := ins c.cache i { dest := queueAddr a, ctx := ctx, used := waitPress s die, stamp := c.order }, order := c.order + 1 }) s
  waitOn die n st ctx (.credit a nbytes payload) (askCredits die n i s)

/-- A send goes on as far as it can: with a credit it is sent, else it waits for one, or for a cache entry (R363, R366). -/
def trySend (die n st ctx : Nat) (a : DWord) (nbytes : Nat) (payload : List Byte) (s : State) : State :=
  match findCache s die n ctx a with
  | some (i, e) =>
    if e.credits > 0 then sendMsg die n st ctx i a nbytes payload s
    else
      let s := if e.req = none ∧ !e.later then askCredits die n i s else s
      waitOn die n st ctx (.credit a nbytes payload) s
  | none =>
    match freeSlotOf (cipOf s die n) with
    | some i => newEntry die n st ctx i a nbytes payload s
    | none =>
      match lruEntry (cipOf s die n) with
      | some i => newEntry die n st ctx i a nbytes payload (freeCache die n i s)
      | none => waitOn die n st ctx (.cacheEntry a nbytes payload) s

/-- SEND (R357, R68). -/
def startSend (h : CipHdr) (a : DWord) (nbytes : Nat) (payload : List Byte) (s : State) : State :=
  let st := addrStatus s h.die h.tile h.ctx a
  if nbytes = 0 ∨ nbytes > 56 then cipRsp h.die h.tile h.stream 0x5C [] s
  else if st ≠ 0 then cipRsp h.die h.tile h.stream st [] s
  else if !isMsgIdx a then cipRsp h.die h.tile h.stream 0x10 [] s
  else trySend h.die h.tile h.stream h.ctx a nbytes payload s

/-- Every send that waits on an entry completes with a status. -/
def failSenders (die n i code : Nat) (s : State) : State :=
  match look? (cipOf s die n).cache i with
  | none => s
  | some e =>
    let sts := (cipOf s die n).streams.filter fun x => match x.2.wait with
      | .credit a _ _ => queueAddr a = e.dest && x.2.ctx = e.ctx
      | _ => false
    let s := forEach sts (fun x s => endStream die n x.1 code [] s) s
    if e.credits = 0 then modCip die n (fun c => { c with cache := drop c.cache i }) s else s

/-- The cache entry whose request a response answers. -/
def entryOfReq (s : State) (die n : Nat) (q : BitVec 16) : Option Nat :=
  ((cipOf s die n).cache.find? fun e => e.2.req = some q).map (·.1)

/-- The answer to the request of an entry freed meanwhile: its credits go back too (DEDUCED from R366, log 130). -/
def freedAnswer (die n : Nat) (q : BitVec 16) (granted : Nat) (s : State) : State :=
  match (cipOf s die n).freed.find? fun e => e.req = some q with
  | none => s
  | some e =>
    let s := modCip die n (fun c => { c with freed := c.freed.filter fun e => e.req ≠ some q }) s
    if granted = 0 then s
    else let (q, s) := takeSeq die n s; sendFrom die n 10 (ctrlReq s die n e.ctx 0x12 e.dest q 0 granted) s

/-- CREDIT_GRANT at the asking CIP. -/
def creditGranted (die n : Nat) (p : Packet) (s : State) : State :=
  match entryOfReq s die n p.sseq with
  | none => freedAnswer die n p.sseq (bits p.operand.toNat 15 0) s
  | some i => modCache die n i (fun e => { e with
      req := none, credits := e.credits + bits p.operand.toNat 15 0, lastGrant := bits p.operand.toNat 15 0 }) s

/-- STATUS in answer to CREDIT_REQ: CREDIT_LATER is repeated at step 7, any other completes the sends that wait (R100,
R363, R364). -/
def creditStatus (die n i code : Nat) (s : State) : State :=
  if code = 0x5E then modCache die n i (fun e => { e with req := none, later := true }) s
  else failSenders die n i code (modCache die n i (fun e => { e with req := none }) s)

/-! ### Receives (R359, R361) -/

/-- The head entry of a queue is read. -/
def popEntry (die n st q : Nat) (s : State) : State :=
  match (queueOf s die n q).visible with
  | [] => s
  | e :: es => endStream die n st 0 (entryBytes e) (modQueue die n q (fun x => { x with visible := es }) s)

/-- RECV. -/
def startRecv (h : CipHdr) (q : Nat) (nowait : Bool) (s : State) : State :=
  if !qServes s h.die h.tile q h.ctx then cipRsp h.die h.tile h.stream 0x5D [] s
  else if (queueOf s h.die h.tile q).visible ≠ [] then popEntry h.die h.tile h.stream q s
  else if nowait then cipRsp h.die h.tile h.stream 0x64 [] s
  else waitOn h.die h.tile h.stream h.ctx (.recv q) s

/-! ### Requests at the destination queue (R362 to R366) -/

/-- The metadata word of a message (R360). -/
def msgWord (p : Packet) (nbytes : Nat) : DWord :=
  w64 (p.flags.toNat % 128 * 2 ^ 57 + p.srcTile % 128 * 2 ^ 50 + p.srcDie * 2 ^ 44 + p.srcPkg * 2 ^ 32 + p.sseq.toNat * 2 ^ 16 +
    nbytes * 2 ^ 8 + aIdx p.dest % 256)

/-- The byte count of a message; of one that came over a Sundi link, where nothing carries it, a free value among those its length
allows (log 40). -/
def msgBytes (s : State) (p : Packet) : Nat :=
  if p.nbytes ≠ 0 then p.nbytes
  else if p.len = 0 then 1 + freeVal s % 8 else 16 * p.len - 7 + freeVal s % 16

/-- MSG at its destination: its credit is used, the entry arrives or is discarded (R100, R362, R368). -/
def msgArrive (die n : Nat) (p : Packet) (s : State) : State :=
  let q := msgQueue p.dest
  let nbytes := msgBytes s p
  let s := if p.nbytes ≠ 0 then s else freshen s
  if !running s die then cipCount die n 6 s
  else
    let s := if qServes s die n q p.ctx then modQueue die n q (fun x => { x with outst := x.outst - 1 }) s else s
    arriveEntry die n q p.ctx (msgWord p nbytes) ((leBytes 8 p.operand.toNat ++ p.payload).take nbytes) s

/-- Credit requests in a tile's waiter table (R364). -/
def waitersHeld (s : State) (die n : Nat) : Nat :=
  (cipOf s die n).queues.foldl (fun a e => a + (e.2.waiters.filter fun w => match w with | .credit _ => true | _ => false).length) 0

/-- Grants a request what it asks, CREDIT_MAX and the pool allow. -/
def grantCredits (die n q : Nat) (p : Packet) (s : State) : State :=
  let g := min (bits p.operand.toNat 15 0) (min (qcfg s die n q).max (freePool s die n q))
  reply die n 10 p 0x91 (w64 g) [] (modQueue die n q (fun x => { x with outst := x.outst + g }) s)

/-- CREDIT_REQ at its destination (R100, R363, R364). -/
def creditAsked (die n : Nat) (p : Packet) (s : State) : State :=
  let q := msgQueue p.dest
  if !running s die then replyStatus die n 10 p 0x1F s
  else if !isMsgIdx p.dest then replyStatus die n 10 p 0x10 s
  else if !qServes s die n q p.ctx then replyStatus die n 10 p 0x5D s
  else if (queueOf s die n q).waiters = [] ∧ freePool s die n q > 0 then grantCredits die n q p s
  else if waitersHeld s die n ≥ 1024 then replyStatus die n 10 p 0x5E s
  else modQueue die n q (fun x => { x with waiters := x.waiters ++ [.credit p] }) s

/-- CREDIT_RETURN at its destination (R366). -/
def creditBack (die n : Nat) (p : Packet) (s : State) : State :=
  let q := msgQueue p.dest
  if qServes s die n q p.ctx then modQueue die n q (fun x => { x with outst := x.outst - bits p.operand.toNat 15 0 }) s else s

end Sys2Proof.Machine
end

