-- ==== Sys2Proof/Machine/Rings.lean ====
section
/-! DEFINITION. Bulk receive rings, doorbells and DEFER_READ (11: R374 to R377, R381, R583, R584). -/
namespace Sys2Proof.Machine

/-- A ring's configuration in effect. -/
structure RCfg where
  en : Bool
  split : Bool
  log2 : Nat
  ctx : Nat
  base : Nat
deriving DecidableEq, Repr

def rcfg (s : State) (die n r : Nat) : RCfg :=
  let w := reg s die (cipPage s die n) 0x144 r
  { en := w.toNat.testBit 31, split := w.toNat.testBit 30, log2 := wbits w 29 25, ctx := wbits w 10 0,
    base := (reg s die (cipPage s die n) 0x148 r).toNat + wbits (reg s die (cipPage s die n) 0x14C r) 3 0 * 2 ^ 32 }
def RCfg.size (c : RCfg) : Nat := 2 ^ c.log2

def ringOf (s : State) (die n r : Nat) : Ring := look {} (cipOf s die n).rings r
def modRing (die n r : Nat) (f : Ring → Ring) : State → State :=
  modCip die n fun c => { c with rings := upd {} c.rings r f }

/-- A ring serves a context (R583). -/
def ringServes (s : State) (die n r ctx : Nat) : Bool := (rcfg s die n r).en && (rcfg s die n r).ctx = ctx

/-- The visible tail moves over committed records in reservation order (R376). Fuel: the records. -/
def advanceVisible : (fuel : Nat) → Ring → Ring
  | 0, x => x
  | f + 1, x =>
    match x.recs with
    | r :: rs =>
      if r.committed then advanceVisible f { x with recs := rs, visible := r.start + r.len, marks := x.marks ++ [r.start + r.len] }
      else x
    | [] => x

/-- A PAD record to the ring's end (R375). -/
def writePad (die n r toEnd : Nat) (s : State) : State :=
  let c := rcfg s die n r
  let x := ringOf s die n r
  let at_ := cmAddr (pkgNo s) die n (c.base + x.tail % c.size)
  let s := storeBy die at_ (leBytes 4 (toEnd - 16) ++ [1] ++ List.replicate 11 0) s
  modRing die n r (fun x =>
    let y := { x with tail := x.tail + toEnd, recs := x.recs ++ [{ start := x.tail, len := toEnd, committed := true }] }
    advanceVisible y.recs.length y) s

/-- Places a record of rec bytes, or lets it wait: the offset, and the ring after it (R375). -/
def placeRec (die n r rec_ : Nat) (s : State) : Option Nat × State :=
  let c := rcfg s die n r
  let free (s : State) : Nat := let x := ringOf s die n r; c.size - (x.tail - x.head)
  let toEnd := c.size - (ringOf s die n r).tail % c.size
  let pad := !c.split && decide (rec_ > toEnd)
  if pad && decide (toEnd > free s) then (none, s)
  else
    let s := if pad then writePad die n r toEnd s else s
    if rec_ > free s then (none, s)
    else
      let off := (ringOf s die n r).tail % c.size
      (some off, modRing die n r (fun x => { x with
        tail := x.tail + rec_, recs := x.recs ++ [{ start := x.tail, len := rec_, committed := false }] }) s)

/-- RING_GRANT: the offset in [31:0]; BASE[35:12] in [55:32] and LOG2_SIZE in [60:56], which the sender needs (log 41). -/
def ringGrantWord (c : RCfg) (off : Nat) : DWord := w64 (off + c.base / 4096 * 2 ^ 32 + c.log2 * 2 ^ 56)

/-- Serves the reservations that wait, oldest first; one that cannot be placed holds back the others. Fuel: their number. -/
def serveRing (die n r : Nat) : (fuel : Nat) → State → State
  | 0, s => s
  | f + 1, s =>
    match (ringOf s die n r).waiting with
    | [] => s
    | p :: ps =>
      let rp := placeRec die n r (bits p.operand.toNat 31 0) s
      match rp.1 with
      | none => rp.2
      | some off =>
        let s := modRing die n r (fun x => { x with waiting := ps }) rp.2
        serveRing die n r f (reply die n 10 p 0x93 (ringGrantWord (rcfg s die n r) off) [] s)

/-- RING_RESERVE at the destination (R375, R583). -/
def ringReserve (die n : Nat) (p : Packet) (s : State) : State :=
  let r := aIdx p.dest % 256
  if !isRingIdx p.dest then replyStatus die n 10 p 0x10 s
  else if !ringServes s die n r p.ctx then replyStatus die n 10 p 0x5D s
  else if bits p.operand.toNat 31 0 > (rcfg s die n r).size then replyStatus die n 10 p 0x5A s
  else
    let s := modRing die n r (fun x => { x with waiting := x.waiting ++ [p] }) s
    serveRing die n r (ringOf s die n r).waiting.length s

/-- RING_COMMIT at the destination (R362, R376). -/
def ringCommit (die n : Nat) (p : Packet) (s : State) : State :=
  let r := aIdx p.dest % 256
  if !activeOn s die n p.ctx then cipCount die n 6 s
  else if !ringServes s die n r p.ctx then s
  else
    let size := (rcfg s die n r).size
    let off := bits p.operand.toNat 31 0
    let hit (x : RingRec) : Bool := !x.committed && x.start % size = off
    modRing die n r (fun x =>
      let rp := takeFirst hit x.recs
      let found := rp.1
      match found with
      | none => x
      | some q => advanceVisible x.recs.length { x with recs := x.recs.map fun y => if y = q then { y with committed := true } else y }) s

/-- RING_WAIT (R355, R583). -/
def startRingWait (h : CipHdr) (r : Nat) (s : State) : State :=
  let x := ringOf s h.die h.tile r
  if !ringServes s h.die h.tile r h.ctx then cipRsp h.die h.tile h.stream 0x5D [] s
  else if x.visible > x.head then cipRsp h.die h.tile h.stream 0 (leBytes 8 x.visible) s
  else waitOn h.die h.tile h.stream h.ctx (.ring r) s

/-- RING_FREE (R377, R583). -/
def ringFree (h : CipHdr) (r : Nat) (head : DWord) (s : State) : State :=
  let x := ringOf s h.die h.tile r
  if !ringServes s h.die h.tile r h.ctx then cipRsp h.die h.tile h.stream 0x5D [] s
  else if head.toNat = x.head ∨ (x.head < head.toNat ∧ head.toNat ∈ x.marks) then
    let s := modRing h.die h.tile r (fun x => { x with head := head.toNat, marks := x.marks.filter fun m => m > head.toNat }) s
    cipRsp h.die h.tile h.stream 0 [] (serveRing h.die h.tile r x.waiting.length s)
  else cipRsp h.die h.tile h.stream 0x65 [] s

/-! ### Doorbells -/

/-- A doorbell serves a context (R584). -/
def dbServes (s : State) (die n d ctx : Nat) : Bool :=
  let w := reg s die (cipPage s die n) 0x18C d
  w.toNat.testBit 31 && wbits w 10 0 = ctx
def dbValue (s : State) (die n d : Nat) : Word := look 0 (cipOf s die n).doorbells d

/-- The doorbell has reached v in serial order (R584). -/
def dbReached (d v : Word) : Bool := (d - v).toNat < 2 ^ 31

/-- DB_INC (R362, R381). -/
def dbInc (die n : Nat) (p : Packet) (s : State) : State :=
  let d := bits p.operand.toNat 7 0
  if !activeOn s die n p.ctx || !dbServes s die n d p.ctx then cipCount die n 6 s
  else modCip die n (fun c => { c with doorbells := upd 0 c.doorbells d (· + 1) }) s

/-- DB_WAIT (R584). -/
def startDbWait (h : CipHdr) (d : Nat) (v : Word) (s : State) : State :=
  let x := dbValue s h.die h.tile d
  if !dbServes s h.die h.tile d h.ctx then cipRsp h.die h.tile h.stream 0x5D [] s
  else if dbReached x v then cipRsp h.die h.tile h.stream 0 (leBytes 4 x.toNat) s
  else waitOn h.die h.tile h.stream h.ctx (.doorbell d v) s

/-- DEFER_READ: the four deferral counters (R191). -/
def deferReadCmd (h : CipHdr) (s : State) : State :=
  cipRsp h.die h.tile h.stream 0 ([0, 1, 2, 3].flatMap fun k => leBytes 4 (deferOf s h.die h.tile h.ctx k).toNat) s

end Sys2Proof.Machine
end

