-- ==== Sys2Proof/Machine/Baskets.lean ====
section
/-! DEFINITION. Baskets (11: R384 to R387) and the merging of multicast acknowledgements (R383). -/
namespace Sys2Proof.Machine

/-- Key of a basket entry; its value; a change of it. -/
def bkKey (die n b e : Nat) : Nat := (tk die n * 64 + b) * 32 + e
def bkOf (s : State) (die n b e : Nat) : BasketEntry := look {} s.bk (bkKey die n b e)
def modBk (die n b e : Nat) (f : BasketEntry → BasketEntry) (s : State) : State :=
  { s with bk := upd {} s.bk (bkKey die n b e) f }

/-- A counter of the BSK page. -/
def bskCount (die n k : Nat) (s : State) : State := addCount die (bskPage s die n) k 1 s

/-- BSK_CFG and BSK_XCTL of a basket in effect. -/
def bskCfg (s : State) (die n b : Nat) : Word := reg s die (bskPage s die n) 0x10C b
def bskXctl (s : State) (die n b : Nat) : Word := reg s die (bskPage s die n) 0x110 b
def bskQueue (w : Word) : Nat := wbits w 20 11
def bskCtx (w : Word) : Nat := wbits w 10 0
def bskComb (w : Word) : Nat := wbits w 30 29

/-- R385: the XCTL a user basket cannot be bound with. -/
def bskXctlBad (w x : Word) : Bool :=
  bskComb w = 3 || xctlBad x .combine false false || isMX (xInFmt x) || xInFmt x = 0x18 || xOutFmt x = 0x1E || xOutFmt x = 0x1F ||
    xRmode x = 5

/-- A user basket is bound (R385); below SEAM_SHARE it serves seams only. -/
def bskBound (s : State) (die n b : Nat) : Bool :=
  let w := bskCfg s die n b
  w.toNat.testBit 31 && decide (b ≥ seamShare s die n) && !bskXctlBad w (bskXctl s die n b)

/-- A basket is reserved by a seam (R384). -/
def bskReserved (s : State) (die n b : Nat) : Bool := (resvOf s die n).any fun r => r.granted && r.basket = b

/-- An arm has its queue entry (R386). -/
def armEntry (die n b e tag expect : Nat) : State → State :=
  modBk die n b e fun x => { x with armed := true, tag := tag, expect := expect, count := 0, acc := {}, armSeq := x.armSeq + 1 }

/-- BSK_ARM (R386). -/
def startArm (h : CipHdr) (b e tag expect : Nat) (s : State) : State :=
  let w := bskCfg s h.die h.tile b
  let q := bskQueue w
  let done (c : Nat) (s : State) : State := cipRsp h.die h.tile h.stream c [] s
  if expect = 0 then done 0x5C s
  else if !bskBound s h.die h.tile b ∨ bskCtx w ≠ h.ctx then done 0x5F s
  else if !qServes s h.die h.tile q h.ctx then done 0x5D s
  else if (bkOf s h.die h.tile b e).armed then done 0x60 s
  else if (queueOf s h.die h.tile q).waiters = [] ∧ freePool s h.die h.tile q ≥ 1 then
    done 0 (armEntry h.die h.tile b e tag expect (modQueue h.die h.tile q (fun x => { x with resv := x.resv + 1 }) s))
  else
    let s := modQueue h.die h.tile q (fun x => { x with waiters := x.waiters ++ [.localResv h.stream 1] }) s
    waitOn h.die h.tile h.stream h.ctx (.arm b e tag expect) s

/-- ADD: one contribution to a basket of the fabric (R355, R68). -/
def startAdd (h : CipHdr) (a : DWord) (entry : Nat) (element : Word) (s : State) : State :=
  let st := addrStatus s h.die h.tile h.ctx a
  if st ≠ 0 then cipRsp h.die h.tile h.stream st [] s
  else if aRegion a ≠ 1 ∨ aPort a ≠ 1 then cipRsp h.die h.tile h.stream 0x10 [] s
  else
    let rp := takeSeq h.die h.tile s
    let q := rp.1
    let s := rp.2
    let p := ctrlReq s h.die h.tile h.ctx 0x15 a q (0x80 + h.stream) (element.toNat + entry % 32 * 2 ^ 32)
    waitOn h.die h.tile h.stream h.ctx (.add q) (sendFrom h.die h.tile 10 p s)

/-- The result of an entry whose count has reached EXPECT (R387), and its BASKET tally entry (R403). -/
def deliverBasket (die n b e : Nat) (s : State) : State :=
  let w := bskCfg s die n b
  let x := bskXctl s die n b
  let k := bkOf s die n b e
  let c := bskCtx w
  let q := bskQueue w
  let rp := deliver 192 k.acc (xOutFmt x) (xRmode x) (xSatOvf x) 0
  let bytes := rp.1
  let fl := rp.2
  let data := padTo 4 bytes ++ leBytes 1 fl.toNat ++ [0, 0, 0]
  let word := metaWord s die n 0x7F (32 * b + e) 2 8 k.tag
  let s := modBk die n b e (fun x => { x with armed := false, count := 0, acc := {} }) s
  let s := modQueue die n q (fun x => { x with resv := x.resv - 1 }) s
  let s := if chainBsk s c then
      enterTally c {
        kind := 2, key := [die, n, b, e], press := pressOf s die, digest := sha3 (entryBytes { word := word, data := data }),
        ident := leBytes 2 c ++ leBytes 1 die ++ leBytes 1 n ++ [2] ++ leBytes 1 b ++ leBytes 1 e ++ leBytes 1 k.tag ++
          leBytes 8 (k.armSeq - 1) } s
    else s
  arriveEntry die n q c word data (bskCount die n 1 s)

/-- BSK_ADD at a basket (R362, R387). -/
def bskAddArrive (die n : Nat) (p : Packet) (s : State) : State :=
  let b := aIdx p.dest % 64
  let e := bits p.operand.toNat 36 32
  let x := bskXctl s die n b
  let w := bskCfg s die n b
  if !activeOn s die n p.ctx then cipCount die n 6 s
  else if !bskBound s die n b ∨ bskCtx w ≠ p.ctx ∨ !(bkOf s die n b e).armed then replyStatus die n 10 p 0x5F (bskCount die n 2 s)
  else
    let v : Acc := enter 192 (xInFmt x) (bits p.operand.toNat 31 0 % 2 ^ fmtBits (xInFmt x))
    let s := modBk die n b e (fun k => { k with count := k.count + 1, acc := accComb (bskComb w) k.acc v }) (bskCount die n 0 s)
    let s := reply die n 10 p 0x95 0 [] s
    let k := bkOf s die n b e
    if k.count ≥ k.expect then deliverBasket die n b e s else s

/-- BSK_DONE or its STATUS completes the ADD that waits (R387). -/
def addAnswered (die n : Nat) (q : BitVec 16) (code : Nat) (s : State) : State :=
  match (cipOf s die n).streams.find? fun x => x.2.wait = .add q with
  | some x => endStream die n x.1 code [] s
  | none => s

/-- A basket is unbound: its armed entries are disarmed and their queue entries freed (R385); ARMSEQ restarts. -/
def unbindBasket (die n b q : Nat) (s : State) : State :=
  let armed := ((List.range 32).filter fun e => (bkOf s die n b e).armed).length
  let s := forEach (List.range 32) (fun e s => modBk die n b e (fun _ => {}) s) s
  modQueue die n q (fun x => { x with resv := x.resv - armed }) s

/-! ### Acknowledgements of multicasts (R383) -/

def mergesOf (s : State) (die n : Nat) : List AckMerge := look [] s.ci.merges (tk die n)
def modMerges (die n : Nat) (f : List AckMerge → List AckMerge) (s : State) : State :=
  { s with ci := { s.ci with merges := upd [] s.ci.merges (tk die n) f } }

/-- Bytes join an entry of tree and destination; its hold timer restarts for a member's own writes. -/
def addAck (die n tree ctx bytes : Nat) (dest : DWord) (restart : Bool) (s : State) : State :=
  let hit (m : AckMerge) : Bool := m.tree = tree && m.dest = dest
  let now := s.tm.fclk
  modMerges die n (fun ms =>
    if ms.any hit then ms.map fun m =>
      if hit m then { m with bytes := m.bytes + bytes, at_ := if restart then now else m.at_ } else m
    else ms ++ [{ tree := tree, dest := dest, ctx := ctx, bytes := bytes, at_ := now }]) s

/-- MC_ACK_HOLD_EXPIRY: the acknowledgement goes to the tree's owner (R383). -/
def ackHoldExpiry (die n tree : Nat) (s : State) : State :=
  match (mergesOf s die n).find? fun m => m.tree = tree && decide (s.tm.fclk ≥ m.at_ + ackHold s die n) with
  | none => s
  | some m =>
    let s := modMerges die n (fun ms => ms.erase m) s
    let p : Packet := {
      cls := .ctrl, ctx := m.ctx, dest := m.dest, opcode := 0x16, srcPkg := pkgNo s, srcDie := die, srcTile := n, srcPort := 0,
      operand := w64 (m.bytes % 2 ^ 48 + m.tree * 2 ^ 48) }
    sendFrom die n 10 p (doIf (hasCip die n) (cipCount die n 7) s)

/-- Entries of unbound baskets that can hold acknowledgements. -/
def ackRoom (s : State) (die n : Nat) : Nat :=
  32 * ((List.range 64).filter fun b => !bskReserved s die n b && !(hasCip die n && bskBound s die n b)).length

/-- An MC_ACK that waits in a router of a tile it passes is merged there (R383). -/
def mergeAck (die n : Nat) (p : Packet) (s : State) : State :=
  let t := physTile s die n
  let here (e : Nat × List QPkt) : Bool :=
    e.1 / 1024 = tk die t && (match e.2 with | q :: _ => q.pkt = p | [] => false)
  match s.nt.bufs.find? here with
  | none => s
  | some e =>
    let tree := bits p.operand.toNat 59 48
    let known := (mergesOf s die n).any fun m => m.tree = tree && m.dest = p.dest
    if known || decide ((mergesOf s die n).length < ackRoom s die n) then
      bskCount die n 3 (addAck die n tree p.ctx (bits p.operand.toNat 47 0) p.dest false
        (oweCredits e.1 (p.len + 1) (popBuf e.1 (p.len + 1) s)))
    else s

end Sys2Proof.Machine
end

