-- ==== Sys2Proof/Machine/Pegs.lean ====
section
/-! DEFINITION. Pegs (11: R388 to R390): the PEG unit of a memory-side die, and the peg commands of a CIP. -/
namespace Sys2Proof.Machine

def pegKey (die i : Nat) : Nat := die * 1024 + i
def pegOf (s : State) (die i : Nat) : Peg := look {} s.pg (pegKey die i)
def modPeg (die i : Nat) (f : Peg → Peg) (s : State) : State := { s with pg := upd {} s.pg (pegKey die i) f }

/-- A counter of the PEG page: 0 operations, 1 generations, 2 PEG_BUSY, 3 PEG_DENIED. -/
def pegCount (die k : Nat) : State → State := addCount die 0x680 k 1

/-- The number of a memory-side die (R23). -/
def memNo (die : Nat) : Nat := (memDies.findIdx? fun d => d = die).getD 0

/-- The answer of the PEG unit: VALUE and GEN. -/
def pegReply (die : Nat) (q : Packet) (value gen : Word) : State → State := reply die 5 11 q 0xB0 (pair64 value gen) []

/-- GEN is greater than w as serial numbers (R389). -/
def genPast (gen w : Word) : Bool := gen ≠ w && decide ((gen - w).toNat < 2 ^ 31)

/-- The peg's VALUE has reached TARGET and no generation stands for it yet (R389). -/
def pegReady (p : Peg) : Bool := p.armed && !p.reached && BitVec.sle p.target p.value

/-- A generation is complete: GEN rises, waiters with w < GEN are answered, AUTO takes TARGET from VALUE (R389). -/
def pegRelease (die i : Nat) (s : State) : State :=
  let p := pegOf s die i
  let gen := p.gen + 1
  let rp := p.waiters.partition fun w => genPast gen w.w
  let go := rp.1
  let stay := rp.2
  let s := modPeg die i (fun p => { p with gen := gen, waiters := stay }) s
  let s := forEach go (fun w s => pegReply die w.pkt p.value gen s) s
  let s := modPeg die i (fun p => if p.auto then { p with value := p.value - p.target } else { p with reached := true }) s
  pairEvent (evPeg (memNo die) i gen.toNat) (pegCount die 1 s)

/-- The waiters of a die's PEG unit (R390). -/
def pegPool (s : State) (die : Nat) : Nat :=
  s.pg.foldl (fun a e => if e.1 / 1024 = die then a + e.2.waiters.length else a) 0

/-- A peg serves a context (R388). -/
def pegServes (s : State) (die i ctx : Nat) : Bool :=
  let w := reg s die 0x680 0x104 i
  w.toNat.testBit 31 && wbits w 10 0 = ctx

/-- An operation of the PEG unit: denied, or performed on its peg (R388). -/
def pegOp (die : Nat) (p : Packet) (f : Nat → State → State) (s : State) : State :=
  let i := aIdx p.dest % 1024
  served die 5 11 p (fun s =>
    if pegServes s die i p.ctx then f i (pegCount die 0 s) else replyStatus die 5 11 p 0x62 (pegCount die 3 s)) s

/-- PEG_ARM. -/
def pegArmOp (die : Nat) (p : Packet) (i : Nat) (s : State) : State :=
  let s := modPeg die i (fun x => { x with
    value := 0, target := lo32 p.operand, auto := p.operand.toNat.testBit 32, armed := true, reached := false }) s
  pegReply die p 0 (pegOf s die i).gen s

/-- PEG_ADD; a following mirror leaves the release to the primary's delta (R413). -/
def pegAddOp (die : Nat) (p : Packet) (i : Nat) (s : State) : State :=
  let g := (pegOf s die i).gen
  let s := modPeg die i (fun x => { x with value := x.value + lo32 p.operand }) s
  let s := if pegReady (pegOf s die i) && !s.pr.following then pegRelease die i s else s
  pegReply die p (pegOf s die i).value g s

/-- PEG_WAIT (R389, R390). -/
def pegWaitOp (die : Nat) (p : Packet) (i : Nat) (s : State) : State :=
  let x := pegOf s die i
  let w := lo32 p.operand
  if genPast x.gen w then pegReply die p x.value x.gen s
  else if pegPool s die ≥ 4096 then replyStatus die 5 11 p 0x63 (pegCount die 2 s)
  else modPeg die i (fun x => { x with waiters := x.waiters ++ [{ w := w, pkt := p }] }) s

/-- PEG_READ. -/
def pegReadOp (die : Nat) (p : Packet) (i : Nat) (s : State) : State :=
  let x := pegOf s die i
  pegReply die p x.value x.gen s

def execPegArm (die : Nat) (p : Packet) (s : State) : Host.Outcome State Fault Refusal :=
  .next (pegOp die p (pegArmOp die p) s)
def execPegAdd (die : Nat) (p : Packet) (s : State) : Host.Outcome State Fault Refusal :=
  .next (pegOp die p (pegAddOp die p) s)
def execPegWait (die : Nat) (p : Packet) (s : State) : Host.Outcome State Fault Refusal :=
  .next (pegOp die p (pegWaitOp die p) s)
def execPegRead (die : Nat) (p : Packet) (s : State) : Host.Outcome State Fault Refusal :=
  .next (pegOp die p (pegReadOp die p) s)

/-- A peg command of a CIP: its request, for which the stream waits (R355, R68). -/
def startPeg (h : CipHdr) (a : DWord) (op operand : Nat) (s : State) : State :=
  let st := addrStatus s h.die h.tile h.ctx a
  if st ≠ 0 then cipRsp h.die h.tile h.stream st [] s
  else if aRegion a ≠ 1 ∨ aPort a ≠ 8 then cipRsp h.die h.tile h.stream 0x10 [] s
  else
    let rp := takeSeq h.die h.tile s
    let q := rp.1
    let s := rp.2
    let p := ctrlReq s h.die h.tile h.ctx op a q h.stream operand
    waitOn h.die h.tile h.stream h.ctx (.peg p) (sendFrom h.die h.tile 10 p s)

/-- The stream whose peg request a response answers. -/
def pegStream (s : State) (die n : Nat) (q : BitVec 16) : Option (Nat × Stream) :=
  (cipOf s die n).streams.find? fun x => match x.2.wait with | .peg p => p.sseq = q | _ => false

/-- PEG_DONE at the CIP. -/
def pegDoneArrive (die n : Nat) (p : Packet) (s : State) : State :=
  match pegStream s die n p.sseq with
  | some x => endStream die n x.1 0 (leBytes 8 p.operand.toNat) s
  | none => s

/-- STATUS in answer to a peg request: PEG_BUSY is repeated at step 7 (R390). -/
def pegStatus (die n : Nat) (p : Packet) (code : Nat) (s : State) : State :=
  match pegStream s die n p.sseq with
  | none => s
  | some x =>
    if code = 0x63 then modCip die n (fun c => { c with streams := ins c.streams x.1 { x.2 with repeated := true } }) s
    else endStream die n x.1 code [] s

end Sys2Proof.Machine
end

