-- ==== Sys2Proof/Machine/Dma.lean ====
section
/-! DEFINITION. DMA descriptors (11: R378 to R383, R585, R586; 12: R408): checks, admission, and the requests a descriptor makes
until it completes. -/
namespace Sys2Proof.Machine

/-! ### Fields and checks -/

def dKind (x : List Byte) : Nat := field x 0 1
def dFlags (x : List Byte) : Nat := field x 1 1
def dTag (x : List Byte) : Nat := field x 2 2
def dLen (x : List Byte) : Nat := field x 4 4
def dSrc (x : List Byte) : DWord := w64 (field x 8 8)
def dDst (x : List Byte) : DWord := w64 (field x 0x10 8)
def dAux (x : List Byte) : Nat := field x 0x18 4
def dAux2 (x : List Byte) : Nat := field x 0x1C 4

/-- MC_ENTRY of a tree at a CIP. -/
def mcEntry (s : State) (die n tree : Nat) : Word := reg s die (cipPage s die n) 0x184 tree

/-- The tree's entry is valid, of the context, and owned by this CIP (R379). -/
def treeOwned (s : State) (die n ctx tree : Nat) : Bool :=
  let w := mcEntry s die n tree
  w.toNat.testBit 31 && wbits w 30 20 = ctx && wbits w 19 14 = die && wbits w 13 7 = n

/-- The destination is a compute cluster's memory. -/
def isClusterMem (a : DWord) : Bool := aRegion a = 0 && dieType (aDie a) = .compute

/-- A reserved field of a seam open is nonzero (R313). -/
def seamReserved (x : List Byte) : Bool := field x 2 1 ≥ 32 || field x 3 1 ≠ 0 || field x 4 2 ≥ 4096 || field x 0x10 8 ≥ 2 ^ 40

/-- R379 of a descriptor, its length among it. -/
def descBad (s : State) (die n ctx : Nat) (x : List Byte) : Bool :=
  match dKind x with
  | 1 => x.length ≠ 32 || dFlags x > 1 || dLen x = 0 || dAux x > 255 || dAux2 x ≠ 0 || (dFlags x = 1 && !isClusterMem (dDst x))
  | 2 => x.length ≠ 32 || dFlags x ≠ 0 || dLen x = 0 || (dDst x).toNat ≥ 2 ^ 36 || dAux x > 4095 || dAux2 x = 0 ||
      !treeOwned s die n ctx (dAux x)
  | 3 => x.length ≠ 32 || dFlags x > 1 || dLen x = 0 || dLen x > 2 ^ 30 - 16 || dAux x > 255 || dAux2 x ≠ 0 ||
      (dFlags x = 1 && !(isRingIdx (dDst x) && dieType (aDie (dDst x)) = .compute))
  | 4 => x.length ≠ 32 || dFlags x ≠ 0 || dLen x = 0 || dLen x > 8192 || dDst x ≠ 0 || dAux x ≠ 0 || dAux2 x ≠ 0
  | 0x10 => x.length ≠ 64 || seamReserved x
  | 0x20 => x.length ≠ 32 || runDescBad x
  | _ => true

/-- The addressing status of a descriptor: its source span, then its destination (R68, R585). A MULTICAST's source is on a
memory-side die of its own package (R378). -/
def descAddr (s : State) (die n ctx : Nat) (x : List Byte) : Nat :=
  let src := spanStatus s die n ctx (dSrc x) (dLen x)
  if src ≠ 0 then src
  else match dKind x with
  | 1 => spanStatus s die n ctx (dDst x) (dLen x)
  | 2 => if dieType (aDie (dSrc x)) = .memside ∧ aPkg (dSrc x) = pkgNo s then 0 else 0x10
  | 3 =>
    let st := addrStatus s die n ctx (dDst x)
    if st ≠ 0 then st else if isRingIdx (dDst x) then 0 else 0x10
  | _ => 0

/-- The lock state of the Press that a post is admitted to: in the fold, of the next one (R102). -/
def lockAdmit (s : State) : Bool := if s.tm.inFold then s.tm.lockNext else s.tm.lockNow

/-- The admission of a descriptor (R110, R187). -/
def descAdm (s : State) (die n ctx : Nat) (x : List Byte) : Adm :=
  dmaAdm s die (descAddr s die n ctx x) (dKind x = 2 && lockAdmit s)

/-! ### Descriptors in progress -/

def descAt (s : State) (die n id : Nat) : Option Desc := (cipOf s die n).descs.find? fun d => d.id = id
def modDesc (die n id : Nat) (f : Desc → Desc) : State → State :=
  modCip die n fun c => { c with descs := mapIf (fun d => d.id = id) f c.descs }

/-- Ring bytes of a RING_SEND's record (R375). -/
def recBytes (x : List Byte) : Nat := 64 * ceilDiv (16 + dLen x) 64

/-- The address of byte o of a record in its ring. -/
def ringAddr (d : Desc) (o : Nat) : DWord :=
  let a := dDst d.bytes
  cmAddr (aPkg a) (aDie a) (aTile a) (d.ringBase + (d.ringOff + o) % d.ringSize)

/-- Where the next piece is written: a COPY's destination, the record's payload; for a MULTICAST the offset alone. -/
def pieceDst (d : Desc) : Nat :=
  match d.kind with
  | 3 => (ringAddr d (16 + d.pos)).toNat
  | 4 => 0
  | _ => (dDst d.bytes).toNat + d.pos

/-- The next piece: up to the end of the source granule, the destination granule, the ring, the descriptor (R65). -/
def pieceLen (d : Desc) : Nat :=
  let src := (dSrc d.bytes).toNat + d.pos
  let dst := pieceDst d
  let n := min (dLen d.bytes - d.pos) (512 - src % 512)
  match d.kind with
  | 4 => n
  | 3 => min (min n (512 - dst % 512)) (d.ringSize - (d.ringOff + 16 + d.pos) % d.ringSize)
  | _ => min n (512 - dst % 512)

/-- A BULK request of a CIP; FLAGS 0 names descriptors among the requests of the port (log 29). -/
def bulkReq (s : State) (die n ctx op : Nat) (dest : DWord) (sseq : BitVec 16) (operand : Nat) (data : List Byte) : Packet :=
  { cls := .bulk, ctx := ctx, dest := dest, opcode := BitVec.ofNat 8 op, srcPkg := pkgNo s, srcDie := die, srcTile := n,
    srcPort := 0, sseq := sseq, operand := w64 operand, payload := data, len := ceilDiv data.length 64,
    why := List.replicate (ceilDiv data.length 64) 0 }

/-- The payload of a write of the descriptor's record: padding to 64 bytes goes with the last piece. -/
def pieceData (d : Desc) : List Byte :=
  if d.kind = 3 ∧ d.pos + d.len = dLen d.bytes then d.data ++ List.replicate (recBytes d.bytes - 16 - dLen d.bytes) 0 else d.data

/-- The header of a record (R374). -/
def ringHeader (s : State) (die n : Nat) (d : Desc) : List Byte :=
  leBytes 4 (dLen d.bytes) ++ [0] ++ leBytes 1 (b2n (decide (d.ringOff + recBytes d.bytes > d.ringSize))) ++
    leBytes 2 (dTag d.bytes) ++ leBytes 8 (metaWord s die n d.stream 0 0 0 0).toNat

/-- The request of a descriptor's phase. -/
def phaseReq (s : State) (die n : Nat) (d : Desc) (q : BitVec 16) : Option Packet :=
  match d.phase with
  | .reserving => some (ctrlReq s die n d.ctx 0x13 (dDst d.bytes) q (0x80 + d.stream) (recBytes d.bytes))
  | .reading => some (bulkReq s die n d.ctx 0 (dSrc d.bytes + w64 d.pos) q d.len [])
  | .writing =>
    if d.header then some (bulkReq s die n d.ctx 1 (ringAddr d 0) q (16 + 1024) (ringHeader s die n d))
    else
      let data := pieceData d
      some (bulkReq s die n d.ctx 1 (w64 (pieceDst d)) q (data.length + 1024) data)
  | _ => none

/-- The memory-side tile whose memory port owns an address. -/
def memTile (a : DWord) : Nat := (targetTile a).1

/-- The read of a multicast's piece at the tile that owns it: the descriptor has reached that tile (01, A weight multicast; log 42). -/
def mcAsk (p : Packet) (s : State) : State :=
  let die := aDie p.dest
  let n := memTile p.dest
  if fenced s die n then replyStatus die n 10 p 0x20 s else mpRequest die n p s

/-- Sends the request of a descriptor's phase. -/
def request (die n id : Nat) (s : State) : State :=
  match descAt s die n id with
  | none => s
  | some d =>
    let rp := takeSeq die n s
    let q := rp.1
    let s := rp.2
    match phaseReq s die n d q with
    | some p =>
      let s := modDesc die n id (fun d => { d with sseq := q, again := false }) s
      if d.kind = 2 then mcAsk p s else sendFrom die n 10 p s
    | none => s

/-- The next piece is read. -/
def readNext (die n id : Nat) (s : State) : State :=
  request die n id (modDesc die n id (fun d => { d with phase := .reading, header := false, len := pieceLen d }) s)

/-- A multicast of a tree is under way at a CIP (R382). -/
def treeBusy (c : Cip) (tree : Nat) : Bool := c.descs.any fun d => d.kind = 2 && dAux d.bytes = tree && d.phase ≠ .queued

/-- The completion record leaves, and the descriptor with it (R380, R381). -/
def closeDesc (die n id code : Nat) (s : State) : State :=
  match descAt s die n id with
  | none => s
  | some d =>
    let count := if d.kind = 2 then d.acked / dLen d.bytes else 0
    let s := modCip die n (fun c => { c with descs := c.descs.filter fun x => x.id ≠ id }) s
    cqRecord die n d.ctx (record16 (dTag d.bytes) 6 0 code count (pressOf s die % 2 ^ 32)) s

/-- A descriptor that has been accepted begins, if it may: not before the Press it is admitted to (R102, R110, R382, R408). -/
def startDesc (die n id : Nat) (s : State) : State :=
  match descAt s die n id with
  | none => s
  | some d =>
    if d.held || d.phase ≠ .queued || decide (pressOf s die < d.admPress) then s
    else match d.kind with
    | 2 => if treeBusy (cipOf s die n) (dAux d.bytes) || s.tm.lockNow then s else readNext die n id s
    | 3 => request die n id (modDesc die n id (fun d => { d with phase := .reserving, since := waitPress s die }) s)
    | 4 => if logEn s d.ctx then readNext die n id s else closeDesc die n id 0x6D s
    | _ => readNext die n id s

/-- A descriptor completes; the next multicast of its tree starts (R382). -/
def finishDesc (die n id code : Nat) (s : State) : State :=
  match descAt s die n id with
  | none => s
  | some d =>
    let s := closeDesc die n id code s
    if d.kind = 2 then
      match (cipOf s die n).descs.find? fun x => x.kind = 2 && dAux x.bytes = dAux d.bytes && x.phase = .queued && !x.held with
      | some x => startDesc die n x.id s
      | none => s
    else s

/-- Every byte has been written: RING_COMMIT, the doorbell, the completion (R376, R381). -/
def finishWrites (die n id : Nat) (s : State) : State :=
  match descAt s die n id with
  | none => s
  | some d =>
    let a := dDst d.bytes
    let s := if d.kind = 3 then
        let rp := takeSeq die n s
        let q := rp.1
        let s := rp.2
        sendFrom die n 10 (ctrlReq s die n d.ctx 0x14 a q d.stream d.ringOff) s
      else s
    let s := if dFlags d.bytes = 1 then
        let rp := takeSeq die n s
        let q := rp.1
        let s := rp.2
        let db := epAddr (aPkg a) (aDie a) (aTile a) 0 (0x200000 + dAux d.bytes)
        sendFrom die n 10 (ctrlReq s die n d.ctx 0x17 db q d.stream (dAux d.bytes)) s
      else s
    finishDesc die n id 0 s

/-- The bytes of a LOG_PUT have been read: hashed, the INPUT entry and the INPUT record (R403, R408). -/
def finishLog (die n id : Nat) (s : State) : State :=
  match descAt s die n id with
  | none => s
  | some d =>
    let key := tk die n * 128 + d.stream
    let inseq := match chainOf? s d.ctx with | some x => look 0 x.insq key | none => 0
    let ident := leBytes 2 d.ctx ++ leBytes 1 die ++ leBytes 1 n ++ [1] ++ leBytes 1 d.stream ++ leBytes 2 (dTag d.bytes) ++
      leBytes 8 inseq
    let press := pressOf s die
    let s := modChain d.ctx (fun x => { x with insq := put 0 x.insq key (inseq + 1) }) s
    let s := enterTally d.ctx { kind := 1, key := [die, n, d.stream, inseq], ident := ident, digest := sha3 d.read, press := press } s
    let body := ident ++ padTo (8 * ceilDiv d.read.length 8) d.read
    let rp := logRecord d.ctx 2 press body s
    let ok := rp.1
    let s := rp.2
    finishDesc die n id (if ok then 0 else 0x6C) s

/-- The tree's WEIGHT packet with a piece, from the memory-side tile that owns it: DEST names the tree (R115), EXT the cluster memory
offset in its bytes 0 to 7 (log 42). -/
def weightPacket (s : State) (d : Desc) (data : List Byte) : Packet :=
  let src := dSrc d.bytes + w64 d.pos
  let off := (dDst d.bytes).toNat + d.pos
  { bulkReq s (aDie src) (memTile src) d.ctx 1 (w64 (pkgNo s * 2 ^ 52 + dAux d.bytes)) 0 d.len data with
    cls := .weight, mc := true, ext := leBytes 8 off }

/-- The data of a piece have come: they are written, or kept for the log; those of a multicast enter the fabric at the memory-side tile
that has read them, the root of the tree (01, A weight multicast). No numbered rule names that tile: DEDUCED from the section's example
(log 42). -/
def pieceRead (die n id : Nat) (data : List Byte) (s : State) : State :=
  match descAt s die n id with
  | none => s
  | some d =>
    let data := padTo d.len data
    match d.kind with
    | 2 =>
      let p := weightPacket s d data
      let s := sendFrom p.srcDie p.srcTile 10 p s
      let s := modDesc die n id (fun d => { d with pos := d.pos + d.len, nacks := 0 }) s
      if d.pos + d.len ≥ dLen d.bytes then
        let s := modDesc die n id (fun d => { d with phase := .acking, injected := waitPress s die }) s
        if d.acked ≥ dAux2 d.bytes * dLen d.bytes then finishDesc die n id 0 s else s
      else readNext die n id s
    | 4 =>
      let s := modDesc die n id (fun d => { d with read := d.read ++ data, pos := d.pos + d.len, nacks := 0 }) s
      if d.pos + d.len ≥ dLen d.bytes then finishLog die n id s else readNext die n id s
    | _ => request die n id (modDesc die n id (fun d => { d with phase := .writing, data := data, nacks := 0 }) s)

/-- A write has been acknowledged. -/
def pieceWritten (die n id : Nat) (s : State) : State :=
  match descAt s die n id with
  | none => s
  | some d =>
    let s := modDesc die n id (fun d => { d with
      nacks := 0, header := false, pos := if d.header then d.pos else d.pos + d.len, data := [] }) s
    let pos := if d.header then d.pos else d.pos + d.len
    if pos ≥ dLen d.bytes then finishWrites die n id s else readNext die n id s

/-- RING_GRANT: the header is written first (R376). -/
def ringGranted (die n : Nat) (p : Packet) (s : State) : State :=
  match (cipOf s die n).descs.find? fun d => d.phase = .reserving && d.sseq = p.sseq with
  | none => s
  | some d =>
    let x := p.operand.toNat
    request die n d.id (modDesc die n d.id (fun d => { d with
      phase := .writing, header := true, nacks := 0, ringOff := bits x 31 0, ringBase := bits x 55 32 * 4096, ringSize := 2 ^ bits x 60 56 }) s)

/-- The descriptor whose granule request a response answers. -/
def descOfReq (s : State) (die n : Nat) (q : BitVec 16) : Option Desc :=
  (cipOf s die n).descs.find? fun d => (d.phase = .reading || d.phase = .writing) && d.sseq = q && !d.again

/-- A status in answer to a granule request: NACK_RETRY is repeated at step 7, 16 in a row end the descriptor (R381, R586). -/
def descStatus (die n : Nat) (d : Desc) (code : Nat) (s : State) : State :=
  if code = 0x20 ∧ d.nacks + 1 < 16 then
    modDesc die n d.id (fun d => { d with nacks := d.nacks + 1, again := true }) s
  else finishDesc die n d.id code s

/-- MC_ACK at the owning CIP (R383); acknowledgements after completion are counted. -/
def ackArrive (die n : Nat) (p : Packet) (s : State) : State :=
  let tree := bits p.operand.toNat 59 48
  match (cipOf s die n).descs.find? fun d => d.kind = 2 && dAux d.bytes = tree && d.phase ≠ .queued && d.ctx = p.ctx with
  | none => cipCount die n 6 s
  | some d =>
    let acked := d.acked + bits p.operand.toNat 47 0
    let s := modDesc die n d.id (fun d => { d with acked := acked }) s
    if d.phase = .acking ∧ acked ≥ dAux2 d.bytes * dLen d.bytes then finishDesc die n d.id 0 s else s

/-- MC_ACK_WAIT_EXPIRY (R383). -/
def ackWaitExpiry (die n tree : Nat) (s : State) : State :=
  match (cipOf s die n).descs.find? fun d => d.kind = 2 && dAux d.bytes = tree && d.phase = .acking with
  | none => s
  | some d =>
    if waitPress s die ≥ d.injected + rfld s die (cipPage s die n) 0x10C 7 0 then finishDesc die n d.id 0x61 s else s

/-! ### Posts (R379, R380) -/

/-- A DMA descriptor at its admission point (R188): its record, and the outcome word for the command. -/
def admitDma (die n st ctx : Nat) (x : List Byte) (s : State) : State :=
  let a := descAdm s die n ctx x
  let a := match a with
    | .defer y => if ((cipOf s die n).descs.filter (·.held)).length ≥ 32 then Adm.refuse 0x2A else .defer y
    | y => y
  let s := cqRecord die n ctx (record16 (dTag x) 5 0 (admWord a) 0 (pressOf s die % 2 ^ 32)) s
  let id := (cipOf s die n).nextDesc
  let d : Desc := { id := id, bytes := x, kind := dKind x, stream := st, ctx := ctx, admPress := stampPress s die }
  let add (held : Bool) (s : State) : State :=
    modCip die n (fun c => { c with descs := c.descs ++ [{ d with held := held }], nextDesc := c.nextDesc + 1 }) s
  let s := match a with
    | .accept => startDesc die n id (add false s)
    | .defer y => countDefer die n ctx y (add true s)
    | .refuse _ => cqRelease die n ctx 1 s
  endStream die n st 0 (leBytes 2 (admWord a)) s

/-- A seam open leaves for the group's home engine; its command is answered with the outcome (R316, R321). -/
def sendOpen (die n st ctx : Nat) (x : List Byte) (s : State) : State :=
  let g := field x 4 2 % 4096
  let rp := takeSeq die n s
  let q := rp.1
  let s := rp.2
  let p := { ctrlReq s die n ctx 0x20 (engAddr (pkgNo s) (homeDie g) (homeEng g) 0) q st 0 with
    payload := x, len := 4, why := List.replicate 4 0 }
  let s := modCip die n (fun c => { c with
    streams := drop c.streams st, opens := c.opens ++ [{ sseq := q, stream := st, ctx := ctx, desc := x }] }) s
  sendFrom die n 10 p s

/-- A post that has its two completion-queue entries. -/
def admitPost (die n st ctx : Nat) (x : List Byte) (s : State) : State :=
  match dKind x with
  | 0x10 => sendOpen die n st ctx x s
  | 0x20 =>
    let rp := firstRun die n (runOfDesc st ctx x) s
    endStream die n st 0 (leBytes 2 rp.1) rp.2
  | _ => admitDma die n st ctx x s

/-- POST: checks, then two entries of the completion queue (R379, R380). -/
def startPost (h : CipHdr) (x : List Byte) (s : State) : State :=
  if descBad s h.die h.tile h.ctx x then cipRsp h.die h.tile h.stream 0x5C [] s
  else
    match cqOf s h.die h.tile h.ctx with
    | none => cipRsp h.die h.tile h.stream 0x5D [] s
    | some q =>
      if (queueOf s h.die h.tile q).waiters = [] ∧ freePool s h.die h.tile q ≥ 2 then
        admitPost h.die h.tile h.stream h.ctx x (modQueue h.die h.tile q (fun y => { y with resv := y.resv + 2 }) s)
      else
        let s := modQueue h.die h.tile q (fun y => { y with waiters := y.waiters ++ [.localResv h.stream 2] }) s
        waitOn h.die h.tile h.stream h.ctx (.post x) s

/-- SEAM_ADMIT at the member: the admission record, and the answer to the post (R321, R338). -/
def admitArrive (die n : Nat) (p : Packet) (s : State) : State :=
  match (cipOf s die n).opens.find? fun o => o.sseq = p.sseq with
  | none => s
  | some o =>
    let w := bits p.operand.toNat 15 0
    let s := modCip die n (fun c => { c with opens := c.opens.filter fun x => x.sseq ≠ p.sseq }) s
    let rec_ := seamRecord (field o.desc 6 2) 3 0 w 0 0 (bits p.operand.toNat 63 32)
    let s := cqRecord die n o.ctx rec_ s
    let s := if w / 2 ^ 14 = 2 then cqRelease die n o.ctx 1 s else s
    cipRsp die n o.stream 0 (leBytes 2 w) s

/-! ### Step 7 (R188, R390, R586) -/

/-- The held descriptors of a CIP in arrival order, the requests to be repeated, the accepted descriptors that can start now, the peg
waits and credit requests to be repeated. -/
def cipStep7 (die n : Nat) (s : State) : State :=
  let s := forEach ((cipOf s die n).descs.filter (·.held)) (fun d s =>
    match descAdm s die n d.ctx d.bytes with
    | .accept => startDesc die n d.id (modDesc die n d.id (fun d => { d with held := false }) s)
    | .defer y => countDefer die n d.ctx y s
    | .refuse y => finishDesc die n d.id y s) s
  let s := forEach ((cipOf s die n).descs.filter (·.again)) (fun d s => request die n d.id s) s
  let s := forEach ((cipOf s die n).descs.filter fun d => d.phase = .queued) (fun d s => startDesc die n d.id s) s
  let s := forEach ((cipOf s die n).streams.filter fun x => x.2.repeated) (fun x s =>
    match x.2.wait with
    | .peg p => sendFrom die n 10 p (modCip die n (fun c => { c with streams := ins c.streams x.1 { x.2 with repeated := false } }) s)
    | _ => s) s
  forEach ((cipOf s die n).cache.filter fun e => e.2.later) (fun e s => askCredits die n e.1 s) s

end Sys2Proof.Machine
end

