-- ==== Sys2Proof/Machine/Settle.lean ====
section
/-! DEFINITION. What becomes possible at a CIP is done at once (11): receivers and ring waits whose data have come, waiters of a
queue's free entries (R364), sends with a credit (R363), waiting ring reservations (R377), waits whose object has gone (R361,
R583). And the stalls of credit waits (R371 to R373). -/
namespace Sys2Proof.Machine

/-- A local reservation that has its entries goes on: the arm is made, the post admitted. An arm whose entry another stream has
armed meanwhile completes with BSK_BUSY and gives its queue entry back (DEDUCED from R386, log 72). -/
def resumeLocal (die n st : Nat) (s : State) : State :=
  match look? (cipOf s die n).streams st with
  | none => s
  | some x =>
    match x.wait with
    | .post d => admitPost die n st x.ctx d s
    | .arm b e tag expect =>
      if (bkOf s die n b e).armed then
        endStream die n st 0x60 [] (modQueue die n (bskQueue (bskCfg s die n b)) (fun y => { y with resv := y.resv - 1 }) s)
      else endStream die n st 0 [] (armEntry die n b e tag expect s)
    | _ => s

/-- A stream's POST waits for its entries: its admission is held during an activation pause (R547). -/
def postWaits (s : State) (die n st : Nat) : Bool :=
  match look? (cipOf s die n).streams st with
  | some x => (match x.wait with | .post _ => true | _ => false)
  | none => false

/-- Serves the waiters of a queue, oldest first (R364). Fuel: their number. -/
def serveQueue (die n q : Nat) : (fuel : Nat) → State → State
  | 0, s => s
  | f + 1, s =>
    let x := queueOf s die n q
    match x.waiters with
    | [] => s
    | w :: ws =>
      let pop (s : State) : State := modQueue die n q (fun x => { x with waiters := ws }) s
      match w with
      | .credit p =>
        if freePool s die n q = 0 then s else serveQueue die n q f (grantCredits die n q p (pop s))
      | .localResv st need =>
        if freePool s die n q < need || (s.fw.carried && postWaits s die n st) then s
        else serveQueue die n q f (resumeLocal die n st (modQueue die n q (fun x => { x with resv := x.resv + need }) (pop s)))

/-- A stream leaves the waiters of every queue. -/
def leaveQueues (die n st : Nat) (s : State) : State :=
  let keepW (w : Waiter) : Bool := match w with | .localResv x _ => x ≠ st | .credit _ => true
  forEach (cipOf s die n).queues (fun e s => modQueue die n e.1 (fun x => { x with waiters := x.waiters.filter keepW }) s) s

/-- One blocked stream, looked at again. -/
def wakeStream (die n st : Nat) (s : State) : State :=
  match look? (cipOf s die n).streams st with
  | none => s
  | some x =>
    match x.wait with
    | .recv q =>
      if !qServes s die n q x.ctx then endStream die n st 0x5D [] s else popEntry die n st q s
    | .ring r =>
      let y := ringOf s die n r
      if !ringServes s die n r x.ctx then endStream die n st 0x5D [] s
      else if y.visible > y.head then endStream die n st 0 (leBytes 8 y.visible) s else s
    | .doorbell d v =>
      let y := dbValue s die n d
      if dbReached y v then endStream die n st 0 (leBytes 4 y.toNat) s else s
    | .credit a k pl | .cacheEntry a k pl => trySend die n st x.ctx a k pl s
    | .arm b _ _ _ =>
      if !bskBound s die n b ∨ bskCtx (bskCfg s die n b) ≠ x.ctx then endStream die n st 0x5F [] (leaveQueues die n st s) else s
    | .post _ | .peg _ | .add _ | .pause _ => s

/-- The blocked streams of a CIP in the order their commands reached it. -/
def blockedOrder (s : State) (die n : Nat) : List Nat :=
  (sortBy (fun a b => decide (a.2.order < b.2.order)) (cipOf s die n).streams).map (·.1)

/-- Looks once at everything that waits at a CIP. -/
def settleOnce (die n : Nat) (s : State) : State :=
  let s := forEach (blockedOrder s die n) (fun st s => wakeStream die n st s) s
  let s := forEach ((cipOf s die n).queues.filter fun e => e.2.waiters ≠ []) (fun e s =>
    serveQueue die n e.1 e.2.waiters.length s) s
  forEach ((cipOf s die n).rings.filter fun e => e.2.waiting ≠ []) (fun e s => serveRing die n e.1 e.2.waiting.length s) s

/-- n looks. -/
def settleLoop (die n : Nat) : (fuel : Nat) → State → State
  | 0, s => s
  | f + 1, s => settleLoop die n f (settleOnce die n s)

/-- Nothing that could go on at a tile's CIP still waits. -/
def settleTile (die n : Nat) (s : State) : State :=
  let c := cipOf s die n
  let ws := c.queues.foldl (fun a e => a + e.2.waiters.length) 0
  if c.streams = [] ∧ ws = 0 ∧ c.rings.all (fun e => decide (e.2.waiting = [])) then s
  else settleLoop die n (c.streams.length + ws + 1) s

/-- Every CIP in use. -/
def settleAll (s : State) : State := forEach s.ci.tiles (fun e s => settleTile (e.1 / 256) (e.1 % 256) s) s

/-! ### CREDIT_STALL (R371 to R373) -/

/-- The destination of a credit wait, and the bytes and the tag of the message that waits. -/
def stallDest (s : State) (die n ctx : Nat) : Wait → DWord × Nat × Nat
  | .credit a k _ | .cacheEntry a k _ => (a, k, aIdx a % 256)
  | .post _ => (epAddr (pkgNo s) die n 0 ((cqOf s die n ctx).getD 0 * 256), 0, 0)
  | .arm b _ tag _ => (epAddr (pkgNo s) die n 0 (bskQueue (bskCfg s die n b) * 256), 0, tag)
  | _ => (0, 0, 0)

/-- The fault, the sender's record and the note to the destination. -/
def noteStall (die n st ctx : Nat) (a : DWord) (nbytes tag : Nat) (abort : Bool) (s : State) : State :=
  let pg := cipPage s die n
  let result := if abort then 0x59 else 0x58
  let s := setReg die pg 0x17C 0 (hi32 a) (setReg die pg 0x178 0 (lo32 a) s)
  let s := cipCount die n 4 (raise die pg 0 (some ctx) (lo32 a) s)
  let s := stallRecord die n ctx result 0 a s
  let me := metaWord s die n st (look 0 (cipOf s die n).sseq (sseqKey st ctx)).toNat 0 nbytes tag
  let rp := takeSeq die n s
  let q := rp.1
  let s := rp.2
  let s := sendFrom die n 10 (ctrlReq s die n ctx 0x18 a q (b2n abort) me.toNat) s
  doIf abort (cipCount die n 5) s

/-- A wait that began in a Press still holds STALL_LIMIT + 1 Presses after it. -/
def stallDue (s : State) (die n since : Nat) : Bool := decide (waitPress s die ≥ since + stallLimit s die n + 1)

/-- CREDIT_STALL of a stream's own wait. -/
def streamStall (die n st : Nat) (x : Stream) (s : State) : State :=
  let abort := abortOnStall s die n
  let rp := stallDest s die n x.ctx x.wait
  let s := noteStall die n st x.ctx rp.1 rp.2.1 rp.2.2 abort s
  if abort then endStream die n st 0x59 [] (leaveQueues die n st s)
  else modCip die n (fun c => { c with streams := ins c.streams st { x with stalled := true } }) s

/-- CREDIT_STALL of a descriptor's wait for ring space. -/
def descStall (die n st : Nat) (d : Desc) (s : State) : State :=
  let abort := abortOnStall s die n
  let s := noteStall die n st d.ctx (dDst d.bytes) 0 0 abort s
  if abort then finishDesc die n d.id 0x59 s else modDesc die n d.id (fun d => { d with stalled := true }) s

/-- CREDIT_STALL of a stream: a credit wait of its own, else a wait for ring space of one of its descriptors, that still holds
STALL_LIMIT + 1 Presses after the one it began in (R371, R373). -/
def creditStalled (die n st : Nat) (s : State) : State :=
  match (look? (cipOf s die n).streams st).filter fun x => isCreditWait x.wait && !x.stalled && stallDue s die n x.since with
  | some x => streamStall die n st x s
  | none =>
    match (cipOf s die n).descs.find? fun d => d.stream = st && d.phase = .reserving && !d.stalled && stallDue s die n d.since with
    | none => s
    | some d => descStall die n st d s

/-- STALL_NOTE at the destination (R372). -/
def stallNoted (die n : Nat) (p : Packet) (s : State) : State :=
  let s := if isMsgIdx p.dest then
      modQueue die n (msgQueue p.dest) (fun x => { x with stallFrom := hi32 p.operand }) s else s
  stallRecord die n p.ctx (if p.flags.toNat.testBit 0 then 0x59 else 0x58) 1 p.operand s

/-- CREDIT_IDLE_RETURN: an entry that no send has used during the four Presses before this one (R366). -/
def idleReturn (die n i : Nat) (s : State) : State :=
  match look? (cipOf s die n).cache i with
  | none => s
  | some e =>
    if waitPress s die ≥ e.used + 5 ∧ !hasSender (cipOf s die n) e then freeCache die n i s else s

end Sys2Proof.Machine
end

