-- ==== Sys2Proof/Machine/Endpoints.lean ====
section
/-! DEFINITION. Memory requests at their endpoints: memory ports, cluster memories behind a CIP (R119, R558), the tally endpoint
(R406). -/
namespace Sys2Proof.Machine

/-- The offset in the cluster memory a packet names: DEST of a request, bytes 0 to 7 of a multicast's EXT (log 42). -/
def cmOffset (p : Packet) : Nat := if p.mc then field p.ext 0 8 % 2 ^ 36 else aOff36 p.dest

/-- A READ or WRITE at a cluster memory: refused outside one granule or past MEM_SIZE, else it waits for the memory (R68,
R119, R585). A multicast has no requester to refuse. -/
def cmRequest (die n : Nat) (p : Packet) (s : State) : State :=
  let off := cmOffset p
  let k := countBytes p
  if k = 0 ∨ k > 512 ∨ off % 512 + k > 512 ∨ off + k > cmSize die n then (if p.mc then s else replyStatus die n 10 p 0x10 s)
  else
    let we := decide (p.opcode = 1)
    modCip die n (fun c => { c with cmWaiting := c.cmWaiting ++
      [{ tag := 0, addr := off, we := we, data := if we then padTo k p.payload else [], pkt := some p }] }) s

/-- The least tag no outstanding request of a CIP has (the manual does not say which: DESIGN CHOICE, log 125). -/
def freeCmTag (c : Cip) : Nat := ((List.range 1024).find? fun t => c.cmOut.all fun r => r.tag ≠ t).getD 0

/-- CM_REQUEST_ISSUE: the oldest waiting request goes to the cluster memory, below 1,024 outstanding (R558); in the safe state no write
does (R476). -/
def cmIssue (die n : Nat) (s : State) : State :=
  let c := cipOf s die n
  match c.cmWaiting with
  | [] => s
  | r :: rs =>
    if c.cmOut.length ≥ 1024 || (isSafe s die && r.we) then s
    else
      let r := { r with tag := freeCmTag c }
      emit (.cmReq die n r.tag r.addr r.we r.data) (modCip die n (fun c => { c with cmWaiting := rs, cmOut := c.cmOut ++ [r] }) s)

/-- The CIP of a tree's owner, as its MC_ENTRY names it at a member (R382). -/
def ownerAddr (s : State) (w : Word) : DWord := epAddr (pkgNo s) (wbits w 19 14) (wbits w 13 7) 0 0

/-- A member has written bytes of a multicast: they join its acknowledgement (R383). -/
def memberWrote (die n : Nat) (p : Packet) (s : State) : State :=
  let tree := aIdx p.dest % 4096
  let w := mcEntry s die n tree
  if w.toNat.testBit 31 ∧ wbits w 30 20 = p.ctx then addAck die n tree p.ctx (countBytes p) (ownerAddr s w) true s else s

/-- CM_RESPONSE: data, poisoned on an error, or an acknowledgement return to the requester (R160, R558). -/
def cmRespond (die n tag : Nat) (data : List Byte) (err : Bool) (s : State) : State :=
  match (cipOf s die n).cmOut.find? fun r => r.tag = tag with
  | none => s
  | some r =>
    let s := modCip die n (fun c => { c with cmOut := c.cmOut.filter fun x => x.tag ≠ tag }) s
    match r.pkt with
    | none => s
    | some q =>
      if q.mc then (if err then s else memberWrote die n q s)
      else if q.opcode = 0 then
        let p := response s die n q 0x80 (w64 (countBytes q)) (padTo (countBytes q) data)
        let p := if err then { p with why := p.why.map fun _ => 1 } else p
        sendFrom die n 10 { p with poison := flushing s die n } s
      else if err then replyStatus die n 10 q 0x26 s
      else if q.operand.toNat.testBit 10 then reply die n 10 q 0x81 0 [] s
      else s

/-- The multicast whose read a request at a memory port is. -/
def mcPiece (s : State) (q : Packet) : Option Desc :=
  if q.opcode = 0 ∧ q.cls = .bulk ∧ q.srcPkg = pkgNo s then (descOfReq s q.srcDie q.srcTile q.sseq).filter fun d => d.kind = 2 else none

/-- MP_RESPONSE: what has been read for a multicast is sent to its tree from here; everything else returns to its requester. -/
def mpAnswer (die n tag : Nat) (data : List Byte) (err : Bool) (s : State) : State :=
  match (mpOf s die n).out.find? fun r => r.tag = tag with
  | none => s
  | some r =>
    match mcPiece s r.pkt with
    | some d =>
      if err || flushing s die n then mpRespond die n tag data err s
      else pieceRead r.pkt.srcDie r.pkt.srcTile d.id data (modMp die n (fun m => { m with out := m.out.filter fun x => x.tag ≠ tag }) s)
    | none => mpRespond die n tag data err s

/-- The 48 bytes of a tally endpoint (R406). -/
def tallyBytes (s : State) (c : Nat) : List Byte :=
  let rp := tallyShown s c
  let t := rp.1
  let p := rp.2.1
  let n := rp.2.2
  padTo 32 t ++ leBytes 8 p ++ leBytes 8 n.toNat

/-- A READ of the tally endpoint. -/
def tallyRead (die n : Nat) (p : Packet) (s : State) : State :=
  let c := aIdx p.dest
  if countBytes p = 48 ∧ p.ctx = c then reply die n 11 p 0x80 48 (tallyBytes s c) s else replyStatus die n 11 p 0x6E s

/-- READ or WRITE at a tile: its memory port, its cluster memory, the tally unit; anything else is unmapped (R68). -/
def memArrive (die n : Nat) (p : Packet) (s : State) : State :=
  let port := if dieType die = .memside ∧ aRegion p.dest = 1 ∧ !p.mc then 11 else 10
  served die n port p (fun s =>
    if p.mc then (if hasCip die n ∧ p.opcode = 1 then cmRequest die n p s else s)
    else if aRegion p.dest = 0 then
      match dieType die with
      | .memside => mpRequest die n p s
      | .compute => cmRequest die n p s
      | .io => replyStatus die n 10 p 0x10 s
    else if aRegion p.dest = 1 ∧ aPort p.dest = 10 ∧ dieType die = .memside ∧ p.opcode = 0 then tallyRead die n p s
    else replyStatus die n port p 0x10 s) s

def execRead (die tile : Nat) (p : Packet) (s : State) : Host.Outcome State Fault Refusal := .next (memArrive die tile p s)
def execWrite (die tile : Nat) (p : Packet) (s : State) : Host.Outcome State Fault Refusal := .next (memArrive die tile p s)
def execMpRequestIssue (die tile : Nat) (s : State) : Host.Outcome State Fault Refusal := .next (mpIssue die tile s)
def execMpResponse (die tile tag : Nat) (data : List Byte) (err : Bool) (s : State) : Host.Outcome State Fault Refusal :=
  .next (mpAnswer die tile tag data err s)
def execMpStall (die tile tag : Nat) (s : State) : Host.Outcome State Fault Refusal := .next (mpStalled die tile tag s)
def execCmRequestIssue (die tile : Nat) (s : State) : Host.Outcome State Fault Refusal := .next (cmIssue die tile s)
def execCmResponse (die tile tag : Nat) (data : List Byte) (err : Bool) (s : State) : Host.Outcome State Fault Refusal :=
  .next (cmRespond die tile tag data err s)

/-! ### Routers and memory requests of the fabric (05, 06) -/

def execPacketArrival (die tile port : Nat) (p : Packet) (e : ArrivalEvent) (s : State) : Host.Outcome State Fault Refusal :=
  .next (arrive die tile port p e s)
def execArbitrationDecision (r : ArbRes) (s : State) : Host.Outcome State Fault Refusal :=
  .next (match r with
    | .inject d t p pl => decideInject d t p pl s
    | .output d t p pl vc c => decideOutput d t p pl vc c s)
def execCredit (die tile port plane vc cls n : Nat) (s : State) : Host.Outcome State Fault Refusal :=
  .next (creditReturn_ die tile port plane vc cls n s)
def execAdaptEscWaitExpiry (b : BufKey) (s : State) : Host.Outcome State Fault Refusal := .next (escWait b s)
def execEscapeStall (b : BufKey) (s : State) : Host.Outcome State Fault Refusal := .next (escStall b s)
def execTransitReq (die tile : Nat) (p : Packet) (s : State) : Host.Outcome State Fault Refusal := .next (transitArrive die tile p s)
def execTransitGrant (die tile : Nat) (p : Packet) (s : State) : Host.Outcome State Fault Refusal :=
  .next (transitGranted die tile p s)
def execTransitEscapeWaitExpiry (port : Nat) (p : Packet) (s : State) : Host.Outcome State Fault Refusal :=
  .next (transitExpire port p s)

end Sys2Proof.Machine
end

