-- ==== Sys2Proof/Machine/CipCmds.lean ====
section
/-! DEFINITION. The commands of the CIP (R354 to R356, R557), fetch requests (R559), the packets of messages, rings, baskets,
doorbells and pegs at their tiles (R358), the waits of the CIP, and what blocked commands answer when their unit is fenced
(R582). -/
namespace Sys2Proof.Machine

/-! ### Commands -/

/-- A CIP command, and what it makes possible at its tile. -/
def cipDo (h : CipHdr) (c : Instr) (f : State → State) (s : State) : State := settleTile h.die h.tile (cipCmd h c f s)

/-- A post of one of the six descriptor kinds. -/
def doPost (h : CipHdr) (c : Instr) (desc : List Byte) : State → State := cipDo h c (startPost h desc)

def doSend (h : CipHdr) (addr : DWord) (nbytes : Nat) (payload : List Byte) : State → State :=
  cipDo h (.send h addr nbytes payload) (startSend h addr nbytes payload)
def doAdd (h : CipHdr) (addr : DWord) (entry : Nat) (element : Word) : State → State :=
  cipDo h (.add h addr entry element) (startAdd h addr entry element)
def doRecv (h : CipHdr) (queue : Nat) (nowait : Bool) : State → State :=
  cipDo h (.recv h queue nowait) (startRecv h queue nowait)
def doRingWait (h : CipHdr) (ring : Nat) : State → State := cipDo h (.ringWait h ring) (startRingWait h ring)
def doRingFree (h : CipHdr) (ring : Nat) (head : DWord) : State → State := cipDo h (.ringFree h ring head) (ringFree h ring head)
def doBskArm (h : CipHdr) (basket entry tag expect : Nat) : State → State :=
  cipDo h (.bskArm h basket entry tag expect) (startArm h basket entry tag expect)
def doPegArmCmd (h : CipHdr) (addr : DWord) (target : Word) (auto : Bool) : State → State :=
  cipDo h (.pegArmCmd h addr target auto) (startPeg h addr 0x30 (target.toNat + b2n auto * 2 ^ 32))
def doPegAddCmd (h : CipHdr) (addr : DWord) (k : Word) : State → State :=
  cipDo h (.pegAddCmd h addr k) (startPeg h addr 0x31 k.toNat)
def doPegWaitCmd (h : CipHdr) (addr : DWord) (w : Word) : State → State :=
  cipDo h (.pegWaitCmd h addr w) (startPeg h addr 0x32 w.toNat)
def doPegReadCmd (h : CipHdr) (addr : DWord) : State → State := cipDo h (.pegReadCmd h addr) (startPeg h addr 0x33 0)
def doDbWait (h : CipHdr) (doorbell : Nat) (v : Word) : State → State := cipDo h (.dbWait h doorbell v) (startDbWait h doorbell v)
def doDeferRead (h : CipHdr) : State → State := cipDo h (.deferRead h) (deferReadCmd h)

/-- A command that waited for the end of an activation pause is presented again (R544). -/
def runCip (c : Instr) (s : State) : State :=
  match c with
  | .send h a n p => doSend h a n p s
  | .add h a e x => doAdd h a e x s
  | .recv h q w => doRecv h q w s
  | .ringWait h r => doRingWait h r s
  | .ringFree h r x => doRingFree h r x s
  | .bskArm h b e t x => doBskArm h b e t x s
  | .pegArmCmd h a t u => doPegArmCmd h a t u s
  | .pegAddCmd h a k => doPegAddCmd h a k s
  | .pegWaitCmd h a w => doPegWaitCmd h a w s
  | .pegReadCmd h a => doPegReadCmd h a s
  | .dbWait h d v => doDbWait h d v s
  | .deferRead h => doDeferRead h s
  | .copy h d => doPost h c d s
  | .multicast h d => doPost h c d s
  | .ringSend h d => doPost h c d s
  | .logPut h d => doPost h c d s
  | .patchRunPost h d => doPost h c d s
  | .seamOpenPost h d => doPost h c d s
  | _ => s

/-- The commands that the pause blocked at a CIP go on in their order. -/
def resumePaused (die n : Nat) (s : State) : State :=
  forEach (blockedOrder s die n) (fun st s =>
    match look? (cipOf s die n).streams st with
    | some x => (match x.wait with
      | .pause c => runCip c (modCip die n (fun k => { k with streams := drop k.streams st }) s)
      | _ => s)
    | none => s) s

def execSend (h : CipHdr) (addr : DWord) (nbytes : Nat) (payload : List Byte) (s : State) : Host.Outcome State Fault Refusal :=
  .next (doSend h addr nbytes payload s)
def execAdd (h : CipHdr) (addr : DWord) (entry : Nat) (element : Word) (s : State) : Host.Outcome State Fault Refusal :=
  .next (doAdd h addr entry element s)
def execRecv (h : CipHdr) (queue : Nat) (nowait : Bool) (s : State) : Host.Outcome State Fault Refusal :=
  .next (doRecv h queue nowait s)
def execRingWait (h : CipHdr) (ring : Nat) (s : State) : Host.Outcome State Fault Refusal := .next (doRingWait h ring s)
def execRingFree (h : CipHdr) (ring : Nat) (head : DWord) (s : State) : Host.Outcome State Fault Refusal :=
  .next (doRingFree h ring head s)
def execBskArm (h : CipHdr) (basket entry tag expect : Nat) (s : State) : Host.Outcome State Fault Refusal :=
  .next (doBskArm h basket entry tag expect s)
def execPegArmCmd (h : CipHdr) (addr : DWord) (target : Word) (auto : Bool) (s : State) : Host.Outcome State Fault Refusal :=
  .next (doPegArmCmd h addr target auto s)
def execPegAddCmd (h : CipHdr) (addr : DWord) (k : Word) (s : State) : Host.Outcome State Fault Refusal :=
  .next (doPegAddCmd h addr k s)
def execPegWaitCmd (h : CipHdr) (addr : DWord) (w : Word) (s : State) : Host.Outcome State Fault Refusal :=
  .next (doPegWaitCmd h addr w s)
def execPegReadCmd (h : CipHdr) (addr : DWord) (s : State) : Host.Outcome State Fault Refusal := .next (doPegReadCmd h addr s)
def execDbWait (h : CipHdr) (doorbell : Nat) (v : Word) (s : State) : Host.Outcome State Fault Refusal :=
  .next (doDbWait h doorbell v s)
def execDeferRead (h : CipHdr) (s : State) : Host.Outcome State Fault Refusal := .next (doDeferRead h s)
def execCopy (h : CipHdr) (desc : List Byte) (s : State) : Host.Outcome State Fault Refusal := .next (doPost h (.copy h desc) desc s)
def execMulticast (h : CipHdr) (desc : List Byte) (s : State) : Host.Outcome State Fault Refusal :=
  .next (doPost h (.multicast h desc) desc s)
def execRingSend (h : CipHdr) (desc : List Byte) (s : State) : Host.Outcome State Fault Refusal :=
  .next (doPost h (.ringSend h desc) desc s)
def execLogPut (h : CipHdr) (desc : List Byte) (s : State) : Host.Outcome State Fault Refusal :=
  .next (doPost h (.logPut h desc) desc s)
def execPatchRunPost (h : CipHdr) (desc : List Byte) (s : State) : Host.Outcome State Fault Refusal :=
  .next (doPost h (.patchRunPost h desc) desc s)
def execSeamOpenPost (h : CipHdr) (desc : List Byte) (s : State) : Host.Outcome State Fault Refusal :=
  .next (doPost h (.seamOpenPost h desc) desc s)

/-! ### Fetch requests (R559) -/

/-- A fetch completes. -/
def fetchDone (die n st : Nat) (q : BitVec 16) (code : Nat) (data : List Byte) (s : State) : State :=
  emit (.fetchRsp die n st code data) (modCip die n (fun c => { c with fetches := c.fetches.filter fun f => f.sseq ≠ q }) s)

/-- The READ of a fetch: one 64-byte line; FLAGS names the stream. -/
def fetchReq (s : State) (h : CipHdr) (a : DWord) (q : BitVec 16) : Packet :=
  { cls := .fetch, ctx := h.ctx, dest := w64 (a.toNat / 64 * 64), opcode := 0, srcPkg := pkgNo s, srcDie := h.die,
    srcTile := h.tile, srcPort := 0, sseq := q, flags := BitVec.ofNat 8 h.stream, operand := 64 }

/-- What a fetch request is answered at once, if it is (R559, R582, R68). -/
def fetchStatus (s : State) (h : CipHdr) (a : DWord) : Nat :=
  if isSafe s h.die then 0x89
  else if tileQuiesced s h.die h.tile then 0x20
  else if isIsolated s h.die then 0x88
  else if !activeOn s h.die h.tile h.ctx then 0x5B
  else if addrStatus s h.die h.tile h.ctx a ≠ 0 then addrStatus s h.die h.tile h.ctx a
  else if aRegion a ≠ 0 then 0x10
  else 0

/-- FETCH_REQUEST; at most four of a stream are outstanding. -/
def startFetch (h : CipHdr) (a : DWord) (s : State) : State :=
  let mine := ((cipOf s h.die h.tile).fetches.filter fun f => f.stream = h.stream).length
  if !cipReady s h.die h.tile || decide (mine ≥ 4) || decide (h.stream ≥ 128) then s
  else if fetchStatus s h a ≠ 0 then emit (.fetchRsp h.die h.tile h.stream (fetchStatus s h a) []) s
  else
    let rp := takeSeq h.die h.tile s
    let q := rp.1
    let s := rp.2
    let s := modCip h.die h.tile (fun c => { c with fetches := c.fetches ++ [{ stream := h.stream, sseq := q }] }) s
    sendFrom h.die h.tile 10 (fetchReq s h a q) s

def execFetchRequest (h : CipHdr) (addr : DWord) (s : State) : Host.Outcome State Fault Refusal := .next (startFetch h addr s)

/-! ### Packets at a CIP -/

/-- A request packet at a tile's CIP, and what it makes possible there. -/
def cipPacket (die n : Nat) (p : Packet) (f : State → State) (s : State) : State := settleTile die n (served die n 10 p f s)

/-- A response packet at a tile's CIP: discarded and counted while a quiesce covers it (R482). -/
def cipAnswer (die n : Nat) (p : Packet) (f : State → State) (s : State) : State :=
  let s := consume die n p s
  if fenced s die n then cipCount die n 6 s else settleTile die n (f s)

/-- A response as it counts for its requester: marked as poisoned, it is a STATUS with PART_RESET or DATA_POISON (R135). -/
def marked (p : Packet) (good bad : State → State) : State → State := if poisonStatus p ≠ 0 then bad else good

/-- MC_ACK: at the tree's owner, or at a tile that forwards it (R383). -/
def mcAckAt (die n : Nat) (p : Packet) (s : State) : State :=
  if aPkg p.dest = pkgNo s ∧ aDie p.dest = die ∧ aTile p.dest = n then cipPacket die n p (ackArrive die n p) s
  else mergeAck die n p s

def execMsg (die tile : Nat) (p : Packet) (s : State) : Host.Outcome State Fault Refusal :=
  .next (cipPacket die tile p (msgArrive die tile p) s)
def execCreditReq (die tile : Nat) (p : Packet) (s : State) : Host.Outcome State Fault Refusal :=
  .next (cipPacket die tile p (creditAsked die tile p) s)
def execCreditReturn (die tile : Nat) (p : Packet) (s : State) : Host.Outcome State Fault Refusal :=
  .next (cipPacket die tile p (creditBack die tile p) s)
def execRingReserve (die tile : Nat) (p : Packet) (s : State) : Host.Outcome State Fault Refusal :=
  .next (cipPacket die tile p (ringReserve die tile p) s)
def execRingCommit (die tile : Nat) (p : Packet) (s : State) : Host.Outcome State Fault Refusal :=
  .next (cipPacket die tile p (ringCommit die tile p) s)
def execBskAdd (die tile : Nat) (p : Packet) (s : State) : Host.Outcome State Fault Refusal :=
  .next (cipPacket die tile p (bskAddArrive die tile p) s)
def execMcAck (die tile : Nat) (p : Packet) (s : State) : Host.Outcome State Fault Refusal := .next (mcAckAt die tile p s)
def execDbInc (die tile : Nat) (p : Packet) (s : State) : Host.Outcome State Fault Refusal :=
  .next (cipPacket die tile p (dbInc die tile p) s)
def execStallNote (die tile : Nat) (p : Packet) (s : State) : Host.Outcome State Fault Refusal :=
  .next (cipPacket die tile p (stallNoted die tile p) s)
/-- The completion record reaches its reserved entry (R338, R380). -/
def execSeamDone (die tile : Nat) (p : Packet) (s : State) : Host.Outcome State Fault Refusal :=
  .next (cipAnswer die tile p (cqRecord die tile p.ctx (padTo 16 p.payload)) s)
def execPatchRunComplete (die tile run : Nat) (s : State) : Host.Outcome State Fault Refusal :=
  .next (settleTile die tile (completeRun die tile run s))
def execCreditIdleReturn (die tile entry : Nat) (s : State) : Host.Outcome State Fault Refusal :=
  .next (settleTile die tile (idleReturn die tile entry s))
def execCreditStall (die tile stream : Nat) (s : State) : Host.Outcome State Fault Refusal :=
  .next (settleTile die tile (creditStalled die tile stream s))
def execMcAckHoldExpiry (die tile tree : Nat) (s : State) : Host.Outcome State Fault Refusal :=
  .next (ackHoldExpiry die tile tree s)
def execMcAckWaitExpiry (die tile tree : Nat) (s : State) : Host.Outcome State Fault Refusal :=
  .next (settleTile die tile (ackWaitExpiry die tile tree s))

/-! ### Answers to the memory requests of a CIP -/

/-- A read of a CIP has been answered, with data or a status: a fetch, a patch load, a member's input on the FP64 path, or a descriptor
(log 29). -/
def readAnswered (die n : Nat) (p : Packet) (code : Nat) (data : List Byte) (s : State) : State :=
  if p.cls = .fetch then
    (if (cipOf s die n).fetches.any fun f => f.sseq = p.sseq then
      fetchDone die n (p.flags.toNat % 128) p.sseq code (if code = 0 then padTo 64 data else []) s else s)
  else if p.flags = 2 then psAnswer die n p.sseq code data s
  else if p.flags = 3 then rawData die n p.sseq code data s
  else match descOfReq s die n p.sseq with
  | none => s
  | some d =>
    if code ≠ 0 then descStatus die n d code s
    else if d.phase = .reading then pieceRead die n d.id data s else s

/-- A write of a descriptor has been acknowledged (R381); a marked answer ends the descriptor (R135). -/
def writeAnswered (die n : Nat) (p : Packet) (s : State) : State :=
  match descOfReq s die n p.sseq with
  | none => s
  | some d =>
    if poisonStatus p ≠ 0 then finishDesc die n d.id (poisonStatus p) s
    else if d.phase = .writing then pieceWritten die n d.id s else s

/-- STATUS of the message group (R358): CREDIT_REQ, RING_RESERVE or BSK_ADD is answered; FLAGS[7] is 1 in those (log 28). -/
def groupOneStatus (die n : Nat) (p : Packet) (code : Nat) (s : State) : State :=
  if !p.flags.toNat.testBit 7 then s
  else match entryOfReq s die n p.sseq with
  | some i => creditStatus die n i code s
  | none =>
    match (cipOf s die n).descs.find? fun d => d.phase = .reserving && d.sseq = p.sseq && !d.again with
    | some d => descStatus die n d code s
    | none => addAnswered die n p.sseq code (freedAnswer die n p.sseq 0 s)

/-- STATUS in place of SEAM_ADMIT: the post completes with it and gives its two entries back (R380, R482). -/
def openStatus (die n : Nat) (p : Packet) (code : Nat) (s : State) : State :=
  match (cipOf s die n).opens.find? fun o => o.sseq = p.sseq with
  | none => s
  | some o =>
    let s := modCip die n (fun c => { c with opens := c.opens.filter fun x => x.sseq ≠ p.sseq }) s
    cipRsp die n o.stream code [] (cqRelease die n o.ctx 2 s)

/-- STATUS at a CIP (R118, R449). -/
def cipStatus (die n : Nat) (p : Packet) (s : State) : State :=
  let code := if poisonStatus p ≠ 0 then poisonStatus p else bits p.operand.toNat 7 0
  match p.opcode.toNat / 16 with
  | 0x8 => readAnswered die n p code [] s
  | 0x9 => groupOneStatus die n p code s
  | 0xA => openStatus die n p code s
  | 0xB => pegStatus die n p code s
  | _ => s

def execCreditGrant (die tile : Nat) (p : Packet) (s : State) : Host.Outcome State Fault Refusal :=
  .next (cipAnswer die tile p (marked p (creditGranted die tile p) (cipStatus die tile p)) s)
def execRingGrant (die tile : Nat) (p : Packet) (s : State) : Host.Outcome State Fault Refusal :=
  .next (cipAnswer die tile p (marked p (ringGranted die tile p) (cipStatus die tile p)) s)
def execBskDone (die tile : Nat) (p : Packet) (s : State) : Host.Outcome State Fault Refusal :=
  .next (cipAnswer die tile p (marked p (addAnswered die tile p.sseq 0) (cipStatus die tile p)) s)
def execPegDone (die tile : Nat) (p : Packet) (s : State) : Host.Outcome State Fault Refusal :=
  .next (cipAnswer die tile p (marked p (pegDoneArrive die tile p) (cipStatus die tile p)) s)
def execSeamAdmit (die tile : Nat) (p : Packet) (s : State) : Host.Outcome State Fault Refusal :=
  .next (cipAnswer die tile p (marked p (admitArrive die tile p) (cipStatus die tile p)) s)

/-! ### Fences, isolation, resets (R582, R472, R482, R508) -/

/-- Every command of the streams of a CIP that a test names completes with a code, its open posts and fetches too. -/
def failStreams (die n : Nat) (ctx? : Nat → Bool) (code : Nat) (s : State) : State :=
  let c := cipOf s die n
  let s := forEach (c.streams.filter fun x => ctx? x.2.ctx) (fun x s => endStream die n x.1 code [] (leaveQueues die n x.1 s)) s
  forEach (c.opens.filter fun o => ctx? o.ctx) (fun o s =>
    cipRsp die n o.stream code [] (modCip die n (fun c => { c with opens := c.opens.filter fun x => x.sseq ≠ o.sseq }) s)) s

/-- Every request of a CIP completes with a code: fetches, descriptors, patch loads. -/
def failRequests (die n code : Nat) (s : State) : State :=
  let c := cipOf s die n
  let s := forEach c.fetches (fun f s => fetchDone die n f.stream f.sseq code [] s) s
  let s := forEach c.descs (fun d s => closeDesc die n d.id code s) s
  let s := forEach (tloadsOf s die n) (fun l s => forEach l.reads (fun r s => rawData die n r.1 code [] s) s) s
  match (drnTile s die n).load with
  | some l => forEach l.reads (fun r s => psAnswer die n r.1 code [] s) s
  | none => s

/-- Blocked commands of a tile when a fence or an isolation begins complete with PART_RESET, in the safe state with
FABRIC_SAFE (R582, R476). -/
def failBlocked (die n code : Nat) (s : State) : State :=
  if hasCip die n then failStreams die n (fun _ => true) code s else s

end Sys2Proof.Machine
end

