-- ==== Sys2Proof/Machine/Links.lean ====
section
/-! DEFINITION. Die bridges and Sundi ports (13: R427 to R449; 14: R489 to R499): acknowledgement and replay, training, identity,
loss, folds. What arrives over a link is in Frames.lean. -/
namespace Sys2Proof.Machine

/-! ### Pages and places of a link -/

/-- The page of a link (subpage 0) and the page of its counters. -/
def linkPage (link : Nat) : Nat := if isMod link then 0x10 + link else lnkPage (link - 16) 0
def cntPage (link : Nat) : Nat := if isMod link then 0x10 + link else lnkPage (link - 16) 1
def retrainWait (s : State) (die link : Nat) : Nat := rfld s die (linkPage link) 0x100 23 16
def retryLimit (s : State) (die link : Nat) : Nat := rfld s die (linkPage link) 0x100 15 8
def linkEnabled (s : State) (die link : Nat) : Bool := rfld s die (linkPage link) 0x100 0 0 = 1

/-- The gateway tiles and G ports of a link: of a module one for each track set it carries, its own first (R124, R492); of a Sundi port
its tile. -/
def linkGates (s : State) (die link : Nat) : List (Nat × Nat) :=
  if isMod link then
    let ms := link % 4 :: (s.lk.folded.filter fun e => e.2 = die * 16 + link).map fun e => e.1 % 4
    ms.filterMap fun m => gateway die (link / 4) m
  else
    let rp := lnkTile (link - 16)
    [(rp.1, 8 + rp.2)]

/-! ### Laser modules as the links see them -/

def ekey (die g : Nat) : Nat := die * 8 + g
def engineOf (s : State) (die g : Nat) : Engine := look {} s.op (ekey die g)
def modEngine (die g : Nat) (f : Engine → Engine) (s : State) : State := { s with op := upd {} s.op (ekey die g) f }

/-! ### Status words -/

def stateCode : LinkState → Nat
  | .off => 0 | .training => 1 | .ready => 2 | .up => 3 | .hold => 4 | .lowPower => 5

/-- DBR_STATUS or LNK_STATUS. -/
def linkStatus (s : State) (die link : Nat) : Word :=
  let l := linkOf s die link
  let top := stateCode l.st * 2 ^ 28 + l.cause * 2 ^ 16
  if isMod link then w32 (top + l.spares % 8 * 2 ^ 8 + l.companion % 2 * 2 ^ 4 + b2n l.peerSafe)
  else
    let eol := (engineOf s die ((link - 16) / 2)).eol
    w32 (top + l.step * 2 ^ 24 + b2n l.peerSafe * 2 ^ 8 + b2n eol * 2 ^ 7 + b2n l.markerOk)

/-- A fault of a link, with its status word (R466). -/
def linkFault (die link b : Nat) (s : State) : State := raise die (linkPage link) b none (linkStatus s die link) s

/-! ### Control symbols sent -/

/-- The identity frame of a port (R444). -/
def identFrame (s : State) (port : Nat) : List Byte :=
  let (role, lane) := match portRole (shapeOf s) port with
    | .dir d l => (d, if d < 6 then 0 else l) | .mirror n => (0x0C, n) | .storage _ => (0, 0)
  let straps := s.tm.straps.toNat
  let flags := b2n (straps.testBit 12) + 2 * b2n (straps.testBit 13) + 4 * b2n (running s (portDie port))
  let minL := max 1 (match s.pl.cur with | some p => p.minSundi | none => 0)
  leBytes 4 0x444E5553 ++ [2] ++ leBytes 1 minL ++ leBytes 2 (pkgNo s) ++ leBytes 1 port ++ leBytes 1 role ++ leBytes 1 lane ++
    leBytes 1 flags ++ leBytes 4 (fwEpoch s) ++ leBytes 4 (planEpoch s) ++ List.replicate 12 0 ++
    (match s.pl.cur with | some p => padTo 32 p.hash | none => List.replicate 32 0)

/-- The eight IDENT fragments of a port. -/
def sendIdent (port : Nat) (s : State) : State :=
  let f := identFrame s port
  forEach (List.range 8) (fun i s =>
    sendSym (portDie port) (16 + port % 6) 7 (i * 2 ^ 104 + field f (8 * i) 8) s) s

/-- IDENT fragment 0 of a bridge module: die index and bridge direction (R433). -/
def sendModIdent (die link : Nat) : State → State := sendSym die link 7 (die + link / 4 * 2 ^ 8)

/-! ### Credits by symbol (R427, R130) -/

/-- Credits of one buffer return to the counts of the link's track sets in order, as far as each has used any (log 50). -/
def returnTo (die plane vc cls : Nat) : List (Nat × Nat) → Nat → State → State
  | [], _, s => s
  | (n, g) :: rest, k, s =>
    let t := physTile s die n
    let u := look 0 s.nt.used (credKey s die t n g plane vc cls)
    let now := if rest = [] then k else min k u
    let s := if now = 0 then s else creditReturn_ die t g plane vc cls now s
    if k - now = 0 then s else returnTo die plane vc cls rest (k - now) s

/-! ### Acknowledgement, replay, retraining -/

/-- Numbers from `seq` on, as serial numbers. -/
def seqFrom (seq x : Nat) : Bool := decide ((x + 65536 - seq) % 65536 < 32768)

/-- ACK: groups or courses up to a number need no replay (R427, R432). -/
def acked (die link seq : Nat) (s : State) : State :=
  modLink die link (fun l => { l with nakCount := 0, replay := l.replay.filter fun e => e.seq ≠ seq && seqFrom seq e.seq }) s

/-- A retrain begins; what is held is replayed after it (R432, R445). A port whose peer is in the safe state waits for an IDENT, and in
the activation pause every link keeps its training state (R429). -/
def retrain (die link : Nat) (s : State) : State :=
  if !isLink die link || !linkEnabled s die link || s.fw.inPause || notInService s die ||
      (!isMod link && (linkOf s die link).peerSafe) then s
  else
    let s := modLink die link (fun l => { l with
      st := .training, step := b2n (!isMod link), cause := 0, since := waitPress s die, nakCount := 0, waitingReplay := false,
      ahead := [], planSeen := false, frame := [], identSeen := false, replayDue := none }) s
    addCount die (cntPage link) (if isMod link then 4 else 5) 1 s

/-- Sends kept groups or courses again, with the numbers they had. -/
def replaySend (die link : Nat) (fs : List TxFrame) (s : State) : State := forEach fs (putFrame die link) s

/-- What a NAK asks for: the groups or courses from the number named, or the one course. -/
def nakFrames (l : Link) (seq : Nat) (one : Bool) : List TxFrame := l.replay.filter fun e => if one then e.seq = seq else seqFrom seq e.seq

/-- Too many NAKs in a row of one number retrain the link (R432, R441); otherwise what they ask for is replayed. -/
def answerNak (die link seq : Nat) (one : Bool) (s : State) : State :=
  let l := linkOf s die link
  if l.nakCount > retryLimit s die link then retrain die link (linkFault die link (if isMod link then 2 else 6) s)
  else replaySend die link (nakFrames l seq one) (addCount die (cntPage link) (if isMod link then 3 else 4) 1 s)

/-- NAK. In the activation pause the replay waits for its end (R429). -/
def naked (die link seq : Nat) (select : Bool) (s : State) : State :=
  let l := linkOf s die link
  if !isLink die link || l.st ≠ .up || (isSafe s die && !isMod link) then s
  else
    let k := if l.nakSeq = seq ∧ l.nakCount > 0 then l.nakCount + 1 else 1
    let one := select && decide (l.level ≥ 2) && !isMod link
    let s := modLink die link (fun l => { l with nakSeq := seq, nakCount := k }) s
    if s.fw.inPause then modLink die link (fun l => { l with replayDue := some (seq, one) }) s else answerNak die link seq one s

/-- The end of an activation pause: a replay that waited is sent. -/
def resumeLink (die link : Nat) (s : State) : State :=
  match (linkOf s die link).replayDue with
  | some (seq, one) => answerNak die link seq one (modLink die link (fun l => { l with replayDue := none }) s)
  | none => s

/-- Credit counts toward a link's far end start at the buffer size (R482 Q4, R492). -/
def reinitCredits (die link : Nat) (s : State) : State :=
  forEach (linkGates s die link) (fun e s =>
    let base := credKey s die (physTile s die e.1) e.1 e.2 0 0 0
    { s with nt := { s.nt with used := keep (fun k => k / 64 ≠ base / 64) s.nt.used } }) s

/-- A link goes to HOLD with a cause and its fault. -/
def holdLink (die link cause b : Nat) (s : State) : State :=
  linkFault die link b (modLink die link (fun l => { l with
    st := .hold, cause := cause, since := if l.st = .up then waitPress s die else l.since }) s)

/-- A link is up: what it holds is replayed (R432, R434). -/
def linkUp (die link : Nat) (s : State) : State :=
  let s := modLink die link (fun l => { l with st := .up, cause := 0, step := if isMod link then 0 else 6, planSeen := true }) s
  let s := if isMod link then s else reinitCredits die link s
  replaySend die link (linkOf s die link).replay s

/-! ### Bridge modules (R433, R490) -/

/-- Both lanes are trained and the peer's IDENT has come: UP with the peer R71 gives, else HOLD (R433). -/
def moduleDecide (die link : Nat) (s : State) : State :=
  let l := linkOf s die link
  if l.st ≠ .training ∨ l.step ≠ 3 ∨ !l.identSeen then s
  else if l.peerDie = bridgePeer die (link / 4) ∧ l.peerDir = bridgeBack (link / 4) then linkUp die link s
  else holdLink die link 0x78 0 s

/-- MODULE_TRAINING_DONE: the lanes are trained, and IDENT fragment 0 goes out. More than four data spares or one companion spare fail
the training. -/
def moduleTrained (die b m : Nat) (r : TrainResult) (s : State) : State :=
  let link := 4 * b + m
  if (linkOf s die link).st ≠ .training || isSafe s die || s.fw.inPause then s
  else if !r.ok || decide (r.spares > 4) || decide (r.companion > 1) then linkFault die link 1 s
  else
    let s := modLink die link (fun l => { l with step := 3, spares := r.spares, companion := r.companion, laneFail := r.laneFail }) s
    moduleDecide die link (sendModIdent die link s)

/-- DBR_TRAIN_FAIL: not UP within 100 ms. -/
def moduleFails (die b m : Nat) (s : State) : State :=
  if (linkOf s die (4 * b + m)).st = .training && !isSafe s die && !s.fw.inPause then linkFault die (4 * b + m) 1 s else s

/-- A bridge module in HOLD holds groups that have not been acknowledged: it retries its training too (R434). -/
def holdRetries (l : Link) (link : Nat) : Bool := isMod link && decide (l.st = .hold) && !l.lost && decide (l.replay ≠ [])

/-- TRAINING_RETRY: one second later, from the first step. -/
def trainAgain (die link : Nat) (s : State) : State :=
  let l := linkOf s die link
  if isLink die link && (l.st = .training || holdRetries l link) && linkEnabled s die link && !s.fw.inPause then
    modLink die link (fun l => { l with st := .training, step := b2n (!isMod link), identSeen := false }) s
  else s

/-! ### Sundi ports (R437, R441 to R447) -/

/-- What the plan in effect expects at a port: package, ROLE, LANE (R437, R75). A mirror port of an unpaired package expects
nothing (DEDUCED, log 51). -/
def expectOf (s : State) (port : Nat) : Option (Nat × Nat × Nat) :=
  if s.pl.cur.isNone then none
  else match portRole (shapeOf s) port with
  | .dir d l =>
    let q := neighbour (shapeOf s) (twistOf s) (pkgNo s) d
    if present s q then some (q, if d < 6 then d else 6 + (d - 6) / 2 * 2 + (1 - d % 2), if d < 6 then 0 else l) else none
  | .mirror n => if s.tm.straps.toNat.testBit 12 then some (pkgNo s, 0x0C, n) else none
  | .storage _ => none

/-- The peer's frame agrees with what is expected (R446.3). -/
def seenRight (s : State) (port : Nat) (x : List Byte) (e : Nat × Nat × Nat) : Bool :=
  decide (field x 6 2 = e.1) && decide (field x 9 1 = e.2.1) && decide (field x 10 1 = e.2.2) &&
    (match portRole (shapeOf s) port with
     | .mirror _ => (byteAt x 11).toNat.testBit 1 != s.tm.straps.toNat.testBit 13
     | _ => true)

/-- The plan hash in effect. -/
def planHash (s : State) : List Byte := match s.pl.cur with | some p => padTo 32 p.hash | none => List.replicate 32 0

/-- The level of a port: the lower LEVEL_MAX, if no LEVEL_MIN is above it (R443). -/
def levelOf (s : State) (x : List Byte) : Option Nat :=
  let lv := min 2 (byteAt x 4).toNat
  let mine := max 1 (match s.pl.cur with | some p => p.minSundi | none => 0)
  if lv < mine ∨ lv < (byteAt x 5).toNat then none else some lv

/-- CHECK (R446); with PLAN_EPOCH 0 the port is READY. -/
def sundiCheck (die link : Nat) (s : State) : State :=
  let port := linkPort die link
  let x := (linkOf s die link).seen
  let s := modLink die link (fun l => { l with step := 6 }) s
  match levelOf s x with
  | none => holdLink die link 0x72 2 s
  | some lv =>
    let s := modLink die link (fun l => { l with level := lv }) s
    if planEpoch s = 0 then modLink die link (fun l => { l with st := .ready, cause := 0 }) s
    else match expectOf s port with
    | none => holdLink die link 0x73 3 s
    | some e =>
      if !seenRight s port x e then holdLink die link 0x70 0 s
      else if slice x 0x20 32 ≠ planHash s then holdLink die link 0x71 1 s
      else linkUp die link s

/-- A training step of a Sundi port fails: LNK_TRAIN_FAIL, retried a second later (R445). -/
def sundiFails (port : Nat) (s : State) : State :=
  let die := portDie port
  let link := 16 + port % 6
  if isSundi die link && (linkOf s die link).st = .training && !isSafe s die && !s.fw.inPause then linkFault die link 4 s else s

/-- An ECHO request carries the FCLK count at its sending (R427, R445). -/
def echoAsk (die link : Nat) (s : State) : State := sendSym die link 8 (s.tm.fclk % 2 ^ 32 * 2 ^ 16) s

/-- SUNDI_TRAINING_STEP_DONE: the step in progress has ended; LASER needs the engine powered, LANES 16 lanes, IDENT a latency
of at most 1,000 ns, that is 156 reference cycles (R441, R445, R490). -/
def sundiStep (port : Nat) (r : TrainResult) (s : State) : State :=
  let die := portDie port
  let link := 16 + port % 6
  let l := linkOf s die link
  if !isSundi die link || l.st ≠ .training || isSafe s die || s.fw.inPause || decide (l.step = 0) || decide (l.step > 5) then s
  else if l.step = 1 ∧ (engineOf s die (port % 6 / 2)).st ≠ 2 then s
  else if !r.ok ∨ (l.step = 3 ∧ r.spares > 2) then linkFault die link 4 s
  else
    let s := modLink die link (fun l => { l with
      spares := if l.step = 3 then r.spares else l.spares, laneFail := if l.step = 3 then r.laneFail else l.laneFail }) s
    if l.step = 4 then echoAsk die link (sendIdent port (modLink die link (fun l => { l with step := 5 }) s))
    else if l.step < 5 then modLink die link (fun l => { l with step := l.step + 1 }) s
    else
      let s := modLink die link (fun l => { l with lat := r.latency, peerShare := r.share }) s
      if r.latency > 156 then linkFault die link 4 s else sundiCheck die link s

/-- IDENT: a fragment of the peer's frame; a module's fragment 0 completes its training (R433). A held port whose peer left the safe state
retrains (R429); a running one learns its peer's plan (R447). -/
def identArrive (die link i : Nat) (bytes : List Byte) (s : State) : State :=
  if isMod link then
    (if i = 0 ∧ !isSafe s die ∧ !s.fw.inPause then moduleDecide die link (modLink die link (fun l => { l with
      peerDie := (byteAt bytes 0).toNat % 64, peerDir := (byteAt bytes 1).toNat % 4, identSeen := true }) s) else s)
  else if !isSundi die link || isSafe s die then s
  else
    let s := modLink die link (fun l => { l with frame := ins l.frame (i % 8) (padTo 8 bytes) }) s
    let l := linkOf s die link
    if l.frame.length < 8 then s
    else
      let x := l.frame.flatMap (·.2)
      let s := modLink die link (fun l => { l with frame := [], seen := x }) s
      if l.st = .hold && l.peerSafe then retrain die link (modLink die link (fun l => { l with peerSafe := false }) s)
      else if l.st = .up && slice x 0x20 32 = planHash s then modLink die link (fun l => { l with planSeen := true }) s
      else s

/-- ECHO: a request is answered; a reply gives the latency: half the round trip less the peer's turnaround, which the manual
leaves open: a free value (log 52); FCLK runs at 64/5 of the reference. -/
def echoArrive (die link : Nat) (reply : Bool) (count : Word) (s : State) : State :=
  if !isLink die link || isSafe s die then s
  else if !reply then sendSym die link 8 (count.toNat * 2 ^ 16 + 1) s
  else
    let trip := (s.tm.fclk + 2 ^ 32 - count.toNat) % 2 ^ 32
    let turn := freeVal s % (trip + 1)
    freshen (modLink die link (fun l => { l with lat := (trip - turn) * 5 / 128 }) s)

/-- FEC_WINDOW_END (R442). -/
def fecWindow (port corrected : Nat) (s : State) : State :=
  let die := portDie port
  let link := 16 + port % 6
  if !isSundi die link then s
  else
    let s := addCount die (cntPage link) 2 corrected s
    let eol := (engineOf s die (port % 6 / 2)).eol
    if corrected > (reg s die (cntPage link) (if eol then 0x108 else 0x104)).toNat then linkFault die link 5 s else s

/-! ### Loss (R434, R448, R490, R494) -/

/-- Packets a link holds only in part (R448). -/
def partialPackets (l : Link) : Nat := l.parts.length + b2n (decide (l.rxUnits ≠ []))

/-- A link is lost: what it sent without acknowledgement is replaced by LINK_DOWN statuses, what it holds only partly is discarded,
counted at a Sundi port (R448); a Sundi port raises PORT_LOST. -/
def loseLink (die link : Nat) (s : State) : State :=
  let l := linkOf s die link
  if !isLink die link || l.lost then s
  else
    let ps := l.replay.flatMap (·.pkts)
    let n := match linkGates s die link with | e :: _ => e.1 | [] => 0
    let s := modLink die link (fun l => { l with lost := true, replay := [], ahead := [], parts := [], rxUnits := [], replayDue := none }) s
    let s := forEach ps (fun p s => sendLoss die n 10 0x77 p s) s
    let s := addCount die (cntPage link) (if isMod link then 5 else 6) (ps.filter awaited).length s
    if isMod link then s else linkFault die link 7 (addCount die (cntPage link) 7 (partialPackets l) s)

/-- A link that is not UP and may be lost: one that trains or is held, a module or planned port that is OFF (R448, R498). -/
def mayLose (s : State) (die link : Nat) : Bool :=
  match (linkOf s die link).st with
  | .training | .hold => true
  | .off => isMod link || (expectOf s (linkPort die link)).isSome
  | _ => false

/-- LINK_LOSS: a link that has not trained within RETRAIN_WAIT Presses is lost. -/
def linkLoss (die link : Nat) (s : State) : State :=
  let l := linkOf s die link
  if !isLink die link || l.lost || isSafe s die || s.fw.inPause then s
  else if !mayLose s die link || decide (waitPress s die < l.since + retrainWait s die link + 1) then s
  else loseLink die link s

/-! ### Folds (R491, R492) -/

/-- The module of a bridge that takes a track set: m XOR 1 if it is up and carries no fold, else the lowest such module. -/
def foldOnto (s : State) (die b m : Nat) : Option Nat :=
  let ok (x : Nat) : Bool := let l := linkOf s die (4 * b + x); l.st = .up && !l.lost && !carriesFold s die b x
  if ok (m ^^^ 1) then some (m ^^^ 1) else (List.range 4).find? ok

/-- The far end of a module. -/
def farEnd (die b : Nat) : Nat × Nat := (bridgePeer die b, bridgeBack b)

/-- Places the tracks of module m of a bridge, at both ends, or loses the bridge. -/
def placeTracks (die b m : Nat) (s : State) : State :=
  let rp := farEnd die b
  let d' := rp.1
  let b' := rp.2
  match foldOnto s die b m with
  | some x =>
    let s := { s with lk := { s.lk with folded := s.lk.folded ++
      [(mkey die b m, mkey die b x), (mkey d' b' m, mkey d' b' x)] } }
    reinitCredits d' (4 * b' + x) (reinitCredits die (4 * b + x) s)
  | none =>
    let s := forEach (List.range 4) (fun x s => modLink d' (4 * b' + x) (fun l => { l with unplaced := true })
      (modLink die (4 * b + x) (fun l => { l with unplaced := true }) s)) s
    linkFault die (4 * b + m) 4 s

/-- A lost module is folded: its own tracks first, then the tracks it carried (R491). -/
def foldModule (die b m : Nat) (s : State) : State :=
  let rp := farEnd die b
  let d' := rp.1
  let b' := rp.2
  let carried := (s.lk.folded.filter fun e => e.2 = mkey die b m).map fun e => e.1 % 4
  let s := { s with lk := { s.lk with folded := s.lk.folded.filter fun e => e.2 ≠ mkey die b m ∧ e.2 ≠ mkey d' b' m } }
  let s := linkFault die (4 * b + m) 3 (loseLink d' (4 * b' + m) s)
  forEach (m :: carried) (fun x s => if (linkOf s die (4 * b + x)).unplaced then s else placeTracks die b x s) s

/-- Lost modules whose tracks no module carries yet are folded (R491). -/
def foldModules (s : State) : State :=
  forEach s.lk.mods (fun e s =>
    let l := look {} s.lk.mods e.1
    let placed := s.lk.folded.any fun f => f.1 = e.1
    let carries := s.lk.folded.any fun f => f.2 = e.1
    if l.lost && !l.unplaced && (!placed || carries) then foldModule (e.1 / 16) (e.1 / 4 % 4) (e.1 % 4) s else s) s

/-- The packets of engines that no bridge can carry any more are replaced (R493). -/
def sweepCollectors (s : State) : State :=
  forEach s.nt.collect (fun e s => forEach (e.2.filter fun p => collectorLost s e.1 5 p) (fun p s =>
    sendLoss e.1 5 11 0x77 p { s with nt := { s.nt with collect := upd [] s.nt.collect e.1 (·.erase p) } }) s) s

/-- Packets that wait for an output no link can carry any more are replaced; they leave their buffers (R448, R493, R495). -/
def sweepLost (s : State) : State :=
  forEach s.nt.bufs (fun e s =>
    let die := e.1 / 262144
    let t := e.1 / 1024 % 256
    match logTile s die t with
    | none => s
    | some n =>
      let gone (q : QPkt) : Bool := !q.pkt.mc &&
        (towardLost s die t n q.pkt || (decide (aPkg q.pkt.dest ≠ pkgNo s) && (legOf s die t q.pkt).isNone))
      let dead := (bufQ s e.1).filter gone
      if dead = [] then s
      else
        let s := { s with nt := { s.nt with bufs := put [] s.nt.bufs e.1 ((bufQ s e.1).filter fun q => !gone q) } }
        askFronts die t n (forEach dead (fun q s =>
          sendLoss die n 10 0x77 q.pkt (oweCredits e.1 (q.pkt.len + 1) (freeTransit q.pkt s))) s)) (sweepCollectors s)

/-- EGRESS_ENTRY of a direction and lane on every tile. -/
def setEgress (dir lane : Nat) (w : Word) (s : State) : State :=
  forEach allDies (fun d s => forEach (List.range (nPhys d)) (fun t s =>
    setReg d (tpage t 1) 0x124 (16 * dir + lane) w s) s) s

/-- The egress entry that leads to a port: VALID, die, tile, G port (R143). -/
def egressWord (port : Nat) : Word :=
  let rp := lnkTile (port % 6)
  let n := rp.1
  let g := rp.2
  w32 (2 ^ 31 + portDie port * 2 ^ 16 + n * 2 ^ 8 + g)

/-- The boundary after a port was lost: its direction and lane are no longer VALID, or a hypercube dimension takes its detour
(R494, R496). -/
def egressInvalidate (port : Nat) (s : State) : State :=
  match portRole (shapeOf s) port with
  | .dir d l =>
    let w := reg s 0 1 (0x1B0 + 4 * d)
    if d < 6 ∧ w.toNat.testBit 31 then
      match dirPort (shapeOf s) (wbits w 11 8) (wbits w 3 0) with
      | some q => setEgress d l (egressWord q) s
      | none => setEgress d l 0 s
    else setEgress d l 0 s
  | _ => s

/-- The lost ports whose egress entry still names them. -/
def lostPorts (s : State) : List Nat :=
  (List.range 48).filter fun q => (lnkOf s q).lost &&
    (match portRole (shapeOf s) q with
     | .dir d l => reg s 0 (tpage 0 1) 0x124 (16 * d + l) = egressWord q
     | _ => false)

/-- What the FMC does at a boundary about lost links. -/
def routeAround (s : State) : State :=
  let ports := lostPorts s
  let n := s.lk.folded.length
  let s := foldModules (forEach ports (fun q s => egressInvalidate q s) s)
  if ports = [] ∧ s.lk.folded.length = n then s else sweepLost s

/-! ### Registers DBR_CTRL and LNK_CTRL (RETRAIN, ENABLE) -/

/-- A write of DBR_CTRL or LNK_CTRL: ENABLE 0 turns the link off; it trains when enabled; RETRAIN retrains. -/
def linkCtrl (die page : Nat) (v : Word) (s : State) : State :=
  let link := if page < 0x20 then page - 0x10 else 16 + (page - 0x700) / 2
  let s := setReg die page 0x100 0 (v &&& 0xFFFF01) s
  if !isLink die link then s
  else if !v.toNat.testBit 0 then
    modLink die link (fun l => { l with st := .off, step := 0, cause := 0, since := if l.st = .off then l.since else waitPress s die }) s
  else if isSafe s die then s
  else if v.toNat.testBit 1 then retrain die link s
  else if (linkOf s die link).st = .off ∧ (isMod link ∨ (linkOf s die link).cause ≠ 0x7E) then retrain die link s
  else s

/-! ### Meanings -/

def execAck (die link seq : Nat) (s : State) : Host.Outcome State Fault Refusal := .next (acked die link seq s)
def execNak (die link seq : Nat) (select : Bool) (s : State) : Host.Outcome State Fault Refusal :=
  .next (naked die link seq select s)
def execIdent (die link fragment : Nat) (bytes : List Byte) (s : State) : Host.Outcome State Fault Refusal :=
  .next (identArrive die link fragment bytes s)
def execEcho (die link : Nat) (reply : Bool) (count : Word) (s : State) : Host.Outcome State Fault Refusal :=
  .next (echoArrive die link reply count s)
def execModuleTrainingDone (die bridge module : Nat) (r : TrainResult) (s : State) : Host.Outcome State Fault Refusal :=
  .next (moduleTrained die bridge module r s)
def execDbrTrainFail (die bridge module : Nat) (s : State) : Host.Outcome State Fault Refusal :=
  .next (moduleFails die bridge module s)
def execTrainingRetry (die link : Nat) (s : State) : Host.Outcome State Fault Refusal := .next (trainAgain die link s)
def execSundiTrainingStepDone (port : Nat) (r : TrainResult) (s : State) : Host.Outcome State Fault Refusal :=
  .next (sundiStep port r s)
def execLnkTrainFail (port : Nat) (s : State) : Host.Outcome State Fault Refusal := .next (sundiFails port s)
def execLinkLoss (die link : Nat) (s : State) : Host.Outcome State Fault Refusal := .next (linkLoss die link s)
def execFecWindowEnd (port corrected : Nat) (s : State) : Host.Outcome State Fault Refusal := .next (fecWindow port corrected s)

end Sys2Proof.Machine
end

