-- ==== Sys2Proof/Machine/Optical.lean ====
section
/-! DEFINITION. Laser modules (13: R460 to R464, R575): detection, hours, receive power. Engine g of an I/O die feeds its LNK ports
2g and 2g + 1. -/
namespace Sys2Proof.Machine

def optPage (g : Nat) : Nat := 0x710 + g
def isEngine (die g : Nat) : Bool := dieType die = .io && decide (g < 3)

/-- OPT_STATUS. -/
def optStatus (s : State) (die g : Nat) : Word :=
  let e := engineOf s die g
  let lim := rfld s die (optPage g) 0x128 15 0
  let low (p : Nat) : Nat := b2n (decide (e.st = 2) && decide (p < lim))
  w32 (e.st * 2 ^ 28 + b2n e.eol * 8 + b2n e.wear * 4 + low e.p1 * 2 + low e.p0)

/-- A fault of a module, with OPT_STATUS (R466). -/
def optFault (die g b : Nat) (s : State) : State := raise die (optPage g) b none (optStatus s die g) s

/-- The key of a record: bytes 0 to 7 of SHA3-256 over its bytes 0 to 15 (R460). -/
def moduleKey (record : List Byte) : DWord := w64 (field (sha3 (padTo 16 record)) 0 8)

/-- The key is on the accept list; an entry of zero is empty (R461). -/
def accepted (s : State) (key : DWord) : Bool := decide (key ≠ 0) && s.kp.accept.any fun e => e.2 = key

/-- The hour shadow of an engine in Keep: its entry is 3 × I/O ordinal + engine (R520). -/
def hourIdx (die g : Nat) : Nat := 3 * ioOrd die + g
def shadowOf (s : State) (die g : Nat) : DWord × Nat := look (0, 0) s.kp.shadows (hourIdx die g)
def setShadowHours (die g : Nat) (key : DWord) (hours : Nat) (s : State) : State :=
  { s with kp := { s.kp with shadows := put (0, 0) s.kp.shadows (hourIdx die g) (key, hours) } }

/-- The two ports of an engine, as links of its die. A storage port among them has no Sundi training: HOLD and HOLD_CAUSE are its
LNK_STATUS, its link is what its PCS reports (DEDUCED, log 108). -/
def enginePorts (g : Nat) : List Nat := [16 + 2 * g, 17 + 2 * g]

/-- The light of a port returns: a Sundi port retrains, a storage port leaves HOLD. -/
def relight (die link : Nat) (s : State) : State :=
  if isSundi die link then retrain die link (modLink die link (fun x => { x with cause := 0 }) s)
  else modLink die link (fun x => { x with st := .off, cause := 0 }) s

/-- The laser of an engine is on or off, as its surroundings see it. -/
def laserOut (die g : Nat) (on : Bool) : State → State := emit (.laser die g on)

/-- HOURS crosses 576,000 or 640,000 units (R463). -/
def checkWear (die g : Nat) (s : State) : State :=
  let e := engineOf s die g
  let s := if e.hours ≥ 576000 ∧ !e.wear then optFault die g 0 (modEngine die g (fun e => { e with wear := true }) s) else s
  if e.hours ≥ 640000 ∧ !e.eol then optFault die g 1 (modEngine die g (fun e => { e with eol := true }) s) else s

/-- OPT_MODULE_DETECT: the record is read; a listed module is powered, an unlisted one holds both ports OFF; HOURS is the greater
of store and shadow where the shadow holds the key (R460 to R462). A safe or sleeping package powers none. -/
def detect (die g : Nat) (record : List Byte) (s : State) : State :=
  if !isEngine die g then s
  else
    let record := padTo 32 record
    let key := moduleKey record
    let store := field record 16 4
    let sh := shadowOf s die g
    let hours := if sh.1 = key then max store sh.2 else store
    let on := rfld s die (optPage g) 0x100 0 0 = 1
    let st := if !accepted s key then 1 else if on then 2 else 3
    let s := modEngine die g (fun e => { e with
      st := st, record := record, hours := hours, ticks := 0, wear := false, eol := false, fails := 0, low0 := 0, low1 := 0,
      good0 := 0, good1 := 0 }) s
    let s := setShadowHours die g key hours s
    let s := laserOut die g (decide (st = 2)) s
    let s := if st = 1 then
        optFault die g 3 (forEach (enginePorts g) (fun l s => modLink die l (fun x => { x with st := .off, step := 0, cause := 0x7E }) s) s)
      else forEach (enginePorts g) (fun l s =>
        if (linkOf s die l).cause = 0x7E ∨ (linkOf s die l).cause = 0x7F ∨ (linkOf s die l).st = .off then relight die l s else s) s
    checkWear die g s

/-- The laser of an engine is switched off, both its ports held (R464). -/
def laserOff (die g st cause : Nat) (s : State) : State :=
  let s := laserOut die g false (modEngine die g (fun e => { e with st := st }) s)
  forEach (enginePorts g) (fun l s =>
    if (linkOf s die l).st = .off ∧ isSundi die l then s
    else modLink die l (fun x => { x with st := .hold, cause := cause, since := waitPress s die }) s) s

/-- LASER_HOUR_TICK: 225 s of laser-on time (R462, R463). -/
def hourTick (die g : Nat) (s : State) : State :=
  let e := engineOf s die g
  if !isEngine die g || e.st ≠ 2 then s
  else
    let s := modEngine die g (fun e => { e with hours := e.hours + 1, ticks := (e.ticks + 1) % 16 }) s
    let s := setShadowHours die g (moduleKey e.record) (e.hours + 1) s
    let s := if e.ticks = 15 then emit (.moduleStore die g (e.hours + 1)) s else s
    checkWear die g s

/-- One sample of a port's power: below POWER_MIN three times in a row the port is held, at or above it three times it retrains
(R464); the ports of an unlisted module stay OFF (R461). -/
def powerOf (die g k p : Nat) (s : State) : State :=
  let link := 16 + 2 * g + k
  let low := decide (p < rfld s die (optPage g) 0x128 15 0)
  let e := engineOf s die g
  let lows := if k = 0 then e.low0 else e.low1
  let goods := if k = 0 then e.good0 else e.good1
  let lows' := if low then min 3 (lows + 1) else 0
  let goods' := if low then 0 else min 3 (goods + 1)
  let s := modEngine die g (fun e =>
    if k = 0 then { e with p0 := p, low0 := lows', good0 := goods' } else { e with p1 := p, low1 := lows', good1 := goods' }) s
  if isSafe s die ∨ e.st = 1 then s
  else if low ∧ lows' = 3 ∧ lows < 3 then
    optFault die g 2 (modLink die link (fun x => { x with st := .hold, cause := 0x7D, since := waitPress s die }) s)
  else if !low ∧ goods' = 3 ∧ (linkOf s die link).st = .hold ∧ (linkOf s die link).cause = 0x7D then relight die link s
  else s

/-- POWER_SAMPLE: every 1 ms over I3C; three failed transactions in a row raise OPT_I3C (R464). -/
def powerSample (die g : Nat) (ok : Bool) (p0 p1 : Nat) (s : State) : State :=
  if !isEngine die g || (engineOf s die g).st = 0 then s
  else if !ok then
    let n := (engineOf s die g).fails + 1
    let s := modEngine die g (fun e => { e with fails := min 3 n }) s
    if n = 3 then
      let s := laserOff die g 4 0x7F s
      optFault die g 4 s
    else s
  else
    let s := modEngine die g (fun e => { e with fails := 0 }) s
    powerOf die g 1 (p1 % 65536) (powerOf die g 0 (p0 % 65536) s)

/-- OPT_CTRL written: POWER_EN 0 keeps the laser off; POWER_EN 1 powers a listed module; RESCAN has the identity read again, which the
surroundings answer with OPT_MODULE_DETECT. -/
def optCtrl (die g : Nat) (v : Word) (s : State) : State :=
  let s := setReg die (optPage g) 0x100 0 (v &&& 1) s
  let e := engineOf s die g
  if !v.toNat.testBit 0 ∧ e.st = 2 then laserOff die g 3 0 s
  else if v.toNat.testBit 0 ∧ e.st = 3 then
    let s := laserOut die g true (modEngine die g (fun e => { e with st := 2 }) s)
    forEach (enginePorts g) (fun l s => relight die l s) s
  else s

/-- RESCAN: the identity store is read again, from the record the module gave last. -/
def rescan (die g : Nat) (s : State) : State :=
  let e := engineOf s die g
  if e.st = 0 then s else detect die g e.record s

def execOptModuleDetect (die g : Nat) (record : List Byte) (s : State) : Host.Outcome State Fault Refusal :=
  .next (detect die g record s)
def execLaserHourTick (die g : Nat) (s : State) : Host.Outcome State Fault Refusal := .next (hourTick die g s)
def execPowerSample (die g : Nat) (i3cOk : Bool) (p0 p1 : Nat) (s : State) : Host.Outcome State Fault Refusal :=
  .next (powerSample die g i3cOk p0 p1 s)

end Sys2Proof.Machine
end

