-- ==== Sys2Proof/Machine/Faults.lean ====
section
/-! DEFINITION. Fault collectors, severities, ERR_N, isolation and the safe state (14: R466 to R479, R488; 13: R429). -/
namespace Sys2Proof.Machine

/-! ### Fault records (R466) -/

/-- The 16 bytes of a fault record. -/
def faultBytes (r : FaultRec) : List Byte :=
  leBytes 1 r.code ++ leBytes 1 ((if r.masked then 0 else r.sev) + 8 * b2n r.masked) ++ leBytes 2 (r.page % 4096) ++
    leBytes 1 r.die ++ leBytes 1 r.bit ++
    leBytes 2 (match r.ctx with | some c => 0x8000 + c % 2048 | none => 0) ++ leBytes 4 r.press ++ leBytes 4 r.detail.toNat

/-! ### Fencing a tile (R472, R476, R482) -/

/-- The outstanding fetches of a CIP complete with a code. -/
def failFetches (die n code : Nat) (s : State) : State :=
  forEach (cipOf s die n).fetches (fun f s => fetchDone die n f.stream f.sseq code [] s) s

/-- The posted patch runs of a tile complete with a code. -/
def failRuns (die n code : Nat) (s : State) : State :=
  forEach (drnTile s die n).runs (fun e s => abortRun die n e.1 code s) s

/-- What a fenced tile's endpoints have not sent yet: its requests are not issued, its responses carry POISON (R482 Q1, Q2). -/
def fenceQueue (xs : List QPkt) : List QPkt :=
  (xs.filter fun q => isRsp q.pkt).map fun q => { q with pkt := { q.pkt with poison := true } }

/-- The injection queues of a tile as its fence leaves them. -/
def fenceInject (die n : Nat) (s : State) : State :=
  let t := physTile s die n
  let f (e : Nat × List QPkt) : Nat × List QPkt := if e.1 / 64 = tk die t then (e.1, fenceQueue e.2) else e
  { s with nt := { s.nt with inject := (s.nt.inject.map f).filter fun e => e.2 ≠ [] } }

/-- A tile is fenced: its blocked commands, requests and runs complete with PART_RESET (R582, R482, R271). -/
def fenceTile (die n : Nat) (s : State) : State :=
  fenceInject die n (failRuns die n 0x88 (failRequests die n 0x88 (failBlocked die n 0x88 s)))

/-- Every logical tile of a die is fenced. -/
def fenceDie (die : Nat) (s : State) : State := forEach (List.range (nTiles die)) (fun n s => fenceTile die n s) s

/-- The active contexts whose tally a die keeps are reset at the next boundary (R472, R516, R579). -/
def resetKept (die : Nat) (s : State) : State :=
  if dieType die = .memside then
    { s with ft := { s.ft with ctxResets := s.ft.ctxResets ++ s.rs.active.filter fun c => tallyDie c = die } }
  else s

/-! ### What a part owes (R482 Q2) -/

/-- A request the part owes an answer gets one with POISON, which completes it with PART_RESET (R135). -/
def owe (die n port : Nat) (p : Packet) (s : State) : State :=
  sendFrom die n port { statusRsp s die n p 0x88 with poison := true } s

/-- The credit requests, ring reservations and memory requests not yet issued that wait at a tile are answered. -/
def flushTile (die n : Nat) (s : State) : State :=
  let c := cipOf s die n
  let asked := c.queues.flatMap fun e => e.2.waiters.filterMap fun w => match w with | .credit p => some p | .localResv _ _ => none
  let rings := c.rings.flatMap fun e => e.2.waiting
  let mem := c.cmWaiting.filterMap (·.pkt) ++ (mpOf s die n).waiting
  let s := modMp die n (fun m => { m with waiting := [] }) s
  let s := modCip die n (fun c => { c with
    queues := c.queues.map (fun e => (e.1, { e.2 with waiters := [] }))
    rings := c.rings.map (fun e => (e.1, { e.2 with waiting := [] }))
    cmWaiting := [] }) s
  forEach ((asked ++ rings ++ mem).filter fun p => !p.mc) (fun p s => owe die n 10 p s) s

/-- The waits at a die's pegs and the opens its engines hold are answered. -/
def flushDie (die : Nat) (s : State) : State :=
  let pegs := (s.pg.filter fun e => e.1 / 1024 = die).flatMap fun e => e.2.waiters.map (·.pkt)
  let opens := (s.se.deferred.filter fun e => e.1 / 4 = die).flatMap fun e => e.2.map fun p => (e.1 % 4, p)
  let s := { s with
    pg := s.pg.map (fun e => if e.1 / 1024 = die then (e.1, { e.2 with waiters := [] }) else e)
    se := { s.se with deferred := s.se.deferred.filter fun e => e.1 / 4 ≠ die } }
  let s := forEach pegs (fun p s => owe die 5 11 p s) s
  forEach opens (fun e s => owe die (engTile die e.1) (engPort die) e.2 s) s

/-! ### Isolation of a die (R472, R473) -/

/-- Every unit of a die but its routers is fenced and flushed: nothing is issued, what it owes is answered, its seams fail (R472, R482
Q1, Q2). -/
def quiesceUnits (die : Nat) (s : State) : State :=
  let s := failSeamsAt die none 0x88 (fenceDie die s)
  flushDie die (forEach (List.range (nTiles die)) (fun n s => flushTile die n s) s)

/-- A die is isolated. -/
def isolateDie (die : Nat) (s : State) : State :=
  if isIsolated s die || isSafe s die then s
  else
    let s := { s with ft := { s.ft with isolated := s.ft.isolated ++ [die] } }
    let s := resetKept die (quiesceUnits die s)
    if dieType die = .io then forEach (List.range 6) (fun p s => loseLink die (16 + p) s) s else s

/-! ### ERR_N (R474, R475) -/

/-- ERR_N at a level; it is driven only while the root collector runs (R524). -/
def setErr (low : Bool) (s : State) : State :=
  if s.ft.errLow = low ∨ (low ∧ !s.fw.running) then s
  else emit (.errN low) { s with ft := { s.ft with errLow := low } }

def errHold (s : State) : Bool := (reg s 0 1 0x180).toNat.testBit 31
def errThresh (s : State) : Nat := rfld s 0 1 0x180 10 8

/-- ERR_N is released unless a pulse runs, ERR_HOLD is 1 or the package is in the safe state. -/
def releaseErr (s : State) : State := if s.ft.pulse || errHold s || isSafe s 0 then s else setErr false s

/-- A pulse begins, or begins anew. -/
def pulseErr (s : State) : State :=
  if s.fw.running then setErr true { s with ft := { s.ft with pulse := true } } else s

/-- ERR_N_PULSE_END. -/
def pulseEnd (s : State) : State := releaseErr { s with ft := { s.ft with pulse := false } }

/-- ERR_CTRL written: a PULSE below 4 and an ERR_THRESH outside 1 to 4 leave their fields unchanged and set BAD_WRITE. -/
def errCtrl (v : Word) (s : State) : State :=
  let old := reg s 0 1 0x180
  let badP := decide (wbits v 7 0 < 4)
  let badT := decide (wbits v 10 8 = 0) || decide (wbits v 10 8 > 4)
  let p := if badP then wbits old 7 0 else wbits v 7 0
  let t := if badT then wbits old 10 8 else wbits v 10 8
  let s := setReg 0 1 0x180 0 (w32 (wbits v 31 31 * 2 ^ 31 + t * 2 ^ 8 + p)) s
  let s := doIf (badP || badT) (badWrite 0 1) s
  if v.toNat.testBit 31 then setErr true s else releaseErr s

/-! ### The safe state (R476 to R478) -/

/-- The members of a seam on a die: each gets a FABRIC_SAFE record through its own L0; the record of the engine keeps the
others. -/
def safeMembers (die k : Nat) (s : State) : State :=
  match recOf s k with
  | none => s
  | some r =>
    let mine := r.opens.filter fun o => o.die = die
    let s := forEach mine (fun o s => cqRecord die o.tile r.ctx (doneRecord s r o 0x89 0 (pressOf s die)) s) s
    if mine = [] then s
    else modRec k (fun r => { r with opens := r.opens.filter fun o => o.die ≠ die, fails := r.fails ++ [(0x89, 0)] }) s

/-- The safe state ends an activation pause; the activation does not take place (R478). -/
def cutPause (s : State) : State :=
  let cut := s.fw.st = .pause
  let s := { s with fw := { s.fw with inPause := false, carried := false, loaded := false, lockLen := if cut then 0 else s.fw.lockLen } }
  if cut then fwDone 0xA1 .idle s else s

/-- A die enters the safe state: its links send FAULT_IDLE; its blocked commands and the open seams of its streams complete with
FABRIC_SAFE; then nothing of it is injected, run or written to memory any more. -/
def enterSafe (die : Nat) (s : State) : State :=
  if isSafe s die || decide (die ≥ 64) then s
  else
    let s := forEach ((List.range 22).filter (isLink die)) (fun l s => sendSym die l 6 0 s) (cutPause s)
    let s := forEach (List.range (nTiles die)) (fun n s => failFetches die n 0x89 (failBlocked die n 0x89 s)) s
    let homes := (s.se.recs.filter fun e => e.2.home = none).map (·.1)
    let s := forEach homes (fun k s => safeMembers die k s) s
    let s := { s with ft := { s.ft with safeDies := s.ft.safeDies ++ [die] } }
    if die = 0 then setErr true s else s

/-! ### Die collectors (R468, R469) -/

/-- The MGMT packet of a record, to the root collector at L0 of tile 6 of die (0,0) (R25); its opcode and layout are not in the manual
(DESIGN CHOICE, log 18). -/
def recordPacket (s : State) (die : Nat) (r : FaultRec) : Packet :=
  { cls := .mgmt, dest := epAddr (pkgNo s) 0 6 0 0, opcode := 0x4F, srcPkg := pkgNo s, srcDie := die, srcTile := 0xFF,
    len := 1, payload := faultBytes r, why := [0] }

/-- The port of tile 0 by which a die's collector sends (R25). -/
def collectorPort (die : Nat) : Nat := if dieType die = .io then 10 else 11

/-- What a collector does with one record: it is kept, counted, forwarded. A DIE action on an isolated die is recorded only
(R473). -/
def collectOne (die : Nat) (r : FaultRec) (s : State) : State :=
  let r := if r.sev = 3 ∧ isIsolated s die then { r with sev := 0 } else r
  let s := { s with ft := { s.ft with
    recs := upd [] s.ft.recs die (fun rs => (r :: rs).take 16), toRoot := s.ft.toRoot ++ [r] } }
  doIf (decide (r.sev > 0)) (addCount die 1 3 1) (addCount die 1 0 1 (sendFrom die 0 (collectorPort die) (recordPacket s die r) s))

/-- The records in the order of their raising, those of one cycle in ascending page and source bit. -/
def recordOrder (rs : List FaultRec) : List FaultRec :=
  sortBy (fun a b => decide (a.cycle < b.cycle) || (decide (a.cycle = b.cycle) &&
    (decide (a.page < b.page) || (decide (a.page = b.page) && decide (a.bit < b.bit))))) rs

/-- FAULT_RECORD_DIE: the records that have reached a die's collector, after a parity error of its own if there is one (R479);
the most severe action is taken once. -/
def collect (die : Nat) (parity : Bool) (s : State) : State :=
  let s := doIf (parity && decide (die < 64)) (raise0 die 1 0) s
  let rs := recordOrder (s.ft.raised.filter fun r => r.die = die)
  if rs = [] then s
  else
    let s := { s with ft := { s.ft with raised := s.ft.raised.filter fun r => r.die ≠ die } }
    let s := forEach rs (fun r s => collectOne die r s) s
    match rs.find? fun r => r.sev = 4 with
    | some r =>
      let s := if s.ft.safeDies = [] then
          { s with ft := { s.ft with safeCause := w32 (field (faultBytes r) 0 4) } } else s
      enterSafe die s
    | none => if rs.any fun r => r.sev = 3 then isolateDie die s else s

/-! ### The root collector (R469 to R471, R474) -/

/-- A record in the fault record area of Keep, the oldest entry overwritten (R470, R520). -/
def keepRecord (r : FaultRec) (s : State) : State :=
  if s.kp.onVbat then s
  else { s with kp := { s.kp with
    faultRecs := ins s.kp.faultRecs s.kp.faultNext r, faultNext := (s.kp.faultNext + 1) % 64,
    faultTotal := s.kp.faultTotal + 1 } }

/-- The record that arrived first of those at the root collector, with its packet. -/
def arrivedRecord (s : State) : Option (Packet × FaultRec) :=
  (s.nt.delivered.filter fun w => w.die = 0 && w.tile = 6 && w.pkt.cls = .mgmt && w.pkt.opcode = 0x4F).findSome? fun w =>
    (s.ft.toRoot.find? fun r => faultBytes r = w.pkt.payload).map fun r => (w.pkt, r)

/-- FAULT_RECORD_ROOT: the record that arrived first is logged, written to Keep and acted on. -/
def rootRecord (s : State) : State :=
  match arrivedRecord s with
  | none => s
  | some (p, r) =>
    if !s.fw.running then s
    else
      let s := consume 0 6 p { s with ft := { s.ft with
        toRoot := s.ft.toRoot.erase r, root := (r :: s.ft.root).take 256, rootCount := s.ft.rootCount + 1 } }
      let s := keepRecord r s
      let s := if r.sev ≥ 1 then notice 1 (faultBytes r) (hostCause 0 s) else s
      let s := match r.ctx with
        | some c => if r.sev ≥ 2 then { s with ft := { s.ft with ctxResets := s.ft.ctxResets ++ [c] } } else s
        | none => s
      if r.sev ≥ errThresh s then pulseErr s else s

/-! ### FAULT_IDLE (R429) and the router poll (R488) -/

/-- FAULT_IDLE received: an off-package port holds; a bridge module's die enters the safe state. -/
def faultIdle (die link : Nat) (s : State) : State :=
  if isMod link then
    (if decide (die < 64) then enterSafe die (modLink die link (fun l => { l with peerSafe := true }) s) else s)
  else if !isSundi die link then s
  else modLink die link (fun l => { l with
    st := .hold, cause := 0, peerSafe := true, since := if l.st = .hold then l.since else waitPress s die }) s

/-- ROUTER_POLL: a router that has not answered, or reports an internal error (R485, DETAIL with TEST = 0). -/
def routerDead (die t : Nat) (s : State) : State :=
  if die < 64 ∧ t < nPhys die then raise die 1 1 none (w32 t) s else s

def execFaultRecordDie (die : Nat) (parity : Bool) (s : State) : Host.Outcome State Fault Refusal := .next (collect die parity s)
def execFaultRecordRoot (s : State) : Host.Outcome State Fault Refusal := .next (rootRecord s)
def execErrNPulseEnd (s : State) : Host.Outcome State Fault Refusal := .next (pulseEnd s)
def execFaultIdle (die link : Nat) (s : State) : Host.Outcome State Fault Refusal := .next (faultIdle die link s)
def execRouterPoll (die tile : Nat) (s : State) : Host.Outcome State Fault Refusal := .next (routerDead die tile s)

end Sys2Proof.Machine
end

