-- ==== Sys2Proof/Machine/Contexts.lean ====
section
/-! DEFINITION. Contexts on the package: activation (06: R187 to R190; 12: R398, R399), CONTEXT_RESET and deactivation (15: R507 to R509,
R516). -/
namespace Sys2Proof.Machine

/-! ### CONTEXT_RESET of a context (R508, R516) -/

/-- A CIP without what it holds of a context: its descriptors, cache entries, queues, rings, doorbells and sequence numbers. -/
def cipWithout (s : State) (die n c : Nat) (x : Cip) : Cip :=
  { x with
    descs := x.descs.filter (fun d => d.ctx ≠ c)
    cache := x.cache.filter (fun e => e.2.ctx ≠ c)
    freed := x.freed.filter (fun e => e.ctx ≠ c)
    queues := x.queues.filter (fun e => (qcfg s die n e.1).ctx ≠ c)
    rings := x.rings.filter (fun e => (rcfg s die n e.1).ctx ≠ c)
    doorbells := x.doorbells.filter (fun e => rfld s die (cipPage s die n) 0x18C 10 0 e.1 ≠ c)
    sseq := keep (fun k => k % 2048 ≠ c) x.sseq }

/-- A context leaves a tile's CIP: blocked commands complete with PART_RESET, held requests are discarded without a record. -/
def cipCtxReset (die n c : Nat) (s : State) : State :=
  modCip die n (cipWithout s die n c) (failStreams die n (fun x => decide (x = c)) 0x88 s)

/-- The baskets, acknowledgement merges, pegs and deferral counters of a context. -/
def unitsCtxReset (c : Nat) (s : State) : State :=
  let bskOf (k : Nat) : Nat := bskCtx (bskCfg s (k / 32 / 64 / 256) (k / 32 / 64 % 256) (k / 32 % 64))
  let merges := (s.ci.merges.map fun e => (e.1, e.2.filter fun m => m.ctx ≠ c)).filter fun e => e.2 ≠ []
  { s with
    bk := keep (fun k => bskOf k ≠ c) s.bk
    pg := keep (fun k => rfld s (k / 1024) 0x680 0x104 10 0 (k % 1024) ≠ c) s.pg
    ci := { s.ci with merges := merges }
    nt := { s.nt with defer := keep (fun k => k / 4 % 2048 ≠ c) s.nt.defer } }

/-- CONTEXT_RESET of a context: its runtime state on the package is lost and it is inactive; no record is written. -/
def ctxReset (c : Nat) (s : State) : State :=
  let s := if c ∈ s.rs.active then pairEvent (evActivate s c false) s else s
  let s := forEach (s.ci.tiles.map (·.1)) (fun k s => cipCtxReset (k / 256) (k % 256) c s) s
  let s := forEach (s.dr.tiles.map (·.1)) (fun k s => drnCtxReset (k / 256) (k % 256) c s) s
  let s := dropChain c (seamCtxReset c (unitsCtxReset c s))
  let s := modTly (tallyDie c) (fun u => { u with lost := drop u.lost c }) s
  { s with rs := { s.rs with
    active := s.rs.active.filter (· ≠ c), lostAct := s.rs.lostAct.filter fun e => e.2 ≠ c } }

/-! ### Activation (R187 to R190, R399) -/

/-- The RATE of a context's node at a tile, 0 where it is not shaped. -/
def shapedRate (s : State) (die n c : Nat) : Nat :=
  let cfg := ctxNode s die (physTile s die n) c
  if cfg.en then cfg.rate else 0

/-- CTX_OVERSUB at a tile: an injection port's SUB_LIMIT is exceeded (R190). -/
def oversub (s : State) (die n c : Nat) : Bool :=
  let lim := reg s die (tpage (physTile s die n) 2) 0x13C
  if lim = 0 ∨ !(ctxNode s die (physTile s die n) c).en then false
  else
    let sum := (s.rs.active.filter fun x => x ≠ c ∧ activeOn s die n x).foldl (fun a x => a + shapedRate s die n x) 0
    let total := sum + shapedRate s die n c
    let above (x : Nat) : Bool := x ≠ 0 && decide (total > x)
    above (wbits lim 15 0) || above (wbits lim 31 16)

/-- The admission of a context's activation at one tile, the capacity of the hold queue apart. -/
def tileAct (s : State) (c : Nat) (t : Nat × Nat) : Adm :=
  if !running s t.1 then .refuse 0x1F
  else if pkgNo s ∉ sliceOf s c then .refuse 0x13
  else if (sliceOf s c).length > 1 ∧ !epochFixed s c then .refuse 0x6F
  else if oversub s t.1 t.2 c then .refuse 0x2B
  else if govDefersAct s then .defer 0x28
  else .accept

/-- Every logical tile of the package in ascending order. -/
def allTiles : List (Nat × Nat) := allDies.flatMap fun d => (List.range (nTiles d)).map fun n => (d, n)

def isRefuse : Adm → Bool
  | .refuse _ => true
  | _ => false
def isDefer : Adm → Bool
  | .defer _ => true
  | _ => false

/-- The most severe outcome, with the reason of the lowest tile that gave it (R189). -/
def actAdm (s : State) (c : Nat) : Adm :=
  let xs := allTiles.map (tileAct s c)
  match xs.find? isRefuse with
  | some a => a
  | none => match xs.find? isDefer with | some a => a | none => .accept

/-- The hold queue of the activation point: as many as CTX_CMD queues (log 55: the manual gives no number). -/
def actHold : Nat := 64

/-- The tokens of a context's node at a tile where it is activated (R179). -/
def actTokens (c : Nat) (t : Nat × Nat) (s : State) : State :=
  let k := ctxNodeKey t.1 (physTile s t.1 t.2) c
  let cfg := ctxNode s t.1 (physTile s t.1 t.2) c
  if cfg.en ∨ cfg.full ∨ (look? s.nt.tokens k).isSome then resetTok k cfg s else s

/-- A context is active from the Press that begins: its node tokens are set on the tiles that did not have it (R179), a new chain starts
with a replay epoch (R398, R401). -/
def becomeActive (c epoch press : Nat) (s : State) : State :=
  let ts := allTiles.filter fun t => !activeOn s t.1 t.2 c
  let had := decide (c ∈ s.rs.active)
  let s := { s with rs := { s.rs with
    active := if had then s.rs.active else insBy (fun a b => decide (a < b)) c s.rs.active
    lostAct := s.rs.lostAct.filter fun e => e.2 ≠ c } }
  let s := forEach ts (fun t s => actTokens c t s) s
  if had then s else startChain c epoch press s

/-- CTX_RESULT: the outcome word of the last activation's first evaluation. -/
def actResult (c : Nat) (a : Adm) (s : State) : State :=
  { s with rs := { s.rs with ctxResult := w32 (2 ^ 31 + c * 2 ^ 16 + admWord a) } }

/-- One evaluation of an activation at step 7 (R188, R189). -/
def evalAct (c : Nat) (first : Bool) (s : State) : State :=
  let s := forEach s.rs.asleep (fun e s => wakeTile e.1 e.2 s) s
  let a := actAdm s c
  let a := match a with
    | .defer r => if first ∧ s.rs.heldActs.length ≥ actHold then .refuse 0x2A else .defer r
    | x => x
  let s := doIf first (actResult c a) s
  match a with
  | .accept =>
    let s := becomeActive c (epochAtStart s c) (pkgPress s) s
    pairEvent (evActivate s c true) s
  | .defer _ =>
    let s := forEach allTiles (fun t s => match tileAct s c t with | .defer r => countDefer t.1 t.2 c r s | _ => s) s
    { s with rs := { s.rs with heldActs := s.rs.heldActs ++ [c] } }
  | .refuse _ => s

/-! ### CTX_CMD (R509) -/

/-- The context holds work on the package. -/
def ctxHolds (s : State) (c : Nat) : Bool :=
  s.se.recs.any (fun e => e.2.ctx = c) || s.se.deferred.any (fun e => e.2.any fun p => p.ctx = c) ||
    s.dr.tiles.any (fun e => e.2.runs.any fun r => r.2.ctx = c) ||
    s.ci.tiles.any (fun e => e.2.descs.any (fun d => d.ctx = c) || e.2.streams.any (fun x => x.2.ctx = c) ||
      e.2.opens.any (fun o => o.ctx = c))

/-- CTX_CMD written with GO: held during an activation pause (R551), ignored with BAD_WRITE when the queue is full. OP 0 is reserved
and does nothing. -/
def ctxCmd (i : Instr) (op c : Nat) (s : State) : State :=
  if s.fw.inPause then { s with rs := { s.rs with heldCmds := s.rs.heldCmds ++ [i] } }
  else if op = 0 then s
  else if s.rs.ctxCmds.length ≥ 64 then badWrite 0 0x723 s
  else { s with rs := { s.rs with ctxCmds := s.rs.ctxCmds ++ [{ op := op, ctx := c }] } }

/-- The leading resets and deactivations of the queue that take effect at this boundary, and the rest. A deactivation that must wait
holds back what follows it, in write order; on a following mirror it waits for the primary's (R413). Fuel: the queue. -/
def leadResets (s : State) : List CtxCmd → List Nat × List CtxCmd
  | [] => ([], [])
  | x :: xs =>
    if x.op = 3 ∨ (x.op = 2 ∧ !ctxHolds s x.ctx ∧ (!s.pr.following ∨ x.ctx ∉ s.rs.active)) then
      let rp := leadResets s xs
      let a := rp.1
      let b := rp.2
      (x.ctx :: a, b)
    else ([], x :: xs)

/-- Step 3: every CONTEXT_RESET due takes effect, each once (R507). -/
def ctxStep3 (s : State) : State :=
  let rp := leadResets s s.rs.ctxCmds
  let lead := rp.1
  let rest := rp.2
  let due := sortBy (fun a b => decide (a < b)) ((s.ft.ctxResets ++ s.rs.dueResets ++ lead).eraseDups)
  let s := { s with rs := { s.rs with ctxCmds := rest, dueResets := [] }, ft := { s.ft with ctxResets := [] } }
  forEach due ctxReset s

/-- The leading activations of the queue, and the rest. -/
def leadActs : List CtxCmd → List Nat × List CtxCmd
  | [] => ([], [])
  | x :: xs => if x.op = 1 then let (a, b) := leadActs xs; (x.ctx :: a, b) else ([], x :: xs)

/-- Step 7: held activations in arrival order, then the leading ones of the queue. A following mirror keeps them until the primary's
delta or its promotion (R413, R419). -/
def ctxStep7 (s : State) : State :=
  let rp := leadActs s.rs.ctxCmds
  let acts := rp.1
  let rest := rp.2
  let held := s.rs.heldActs
  let s := { s with rs := { s.rs with ctxCmds := rest } }
  if s.pr.following then { s with rs := { s.rs with heldActs := held ++ acts } }
  else
    let s := { s with rs := { s.rs with heldActs := [] } }
    forEach acts (fun c s => evalAct c true s) (forEach held (fun c s => evalAct c false s) s)

end Sys2Proof.Machine
end

