-- ==== Sys2Proof/Machine/Resets.lean ====
section
/-! DEFINITION. Resets (15: R502 to R507, R516, R524; 14: R482 to R488): quiesce of a die, tile or port, FABRIC_RESET and POR. -/
namespace Sys2Proof.Machine

/-! ### What a part still holds -/

/-- The packets in a tile's injection queues. -/
def injHeld (s : State) (die t : Nat) : List Packet :=
  (s.nt.inject.filter fun e => e.1 / 64 = tk die t).flatMap fun e => e.2.map (·.pkt)

/-- The requests a tile has passed to its memory and not answered. -/
def memHeld (s : State) (die n : Nat) : List Packet :=
  (mpOf s die n).out.map (·.pkt) ++ (cipOf s die n).cmOut.filterMap (·.pkt)

/-- The packets in the input buffers of a tile's router. -/
def bufHeld (s : State) (die t : Nat) : List Packet :=
  (s.nt.bufs.filter fun e => e.1 / 1024 = tk die t).flatMap fun e => e.2.map (·.pkt)

/-- The packets a part under reset holds. -/
def heldByPart (s : State) (q : Quiesce) : List Packet :=
  match q.kind with
  | 2 => (List.range (nTiles q.die)).flatMap fun n => injHeld s q.die (physTile s q.die n) ++ memHeld s q.die n
  | 3 => bufHeld s q.die q.part ++ injHeld s q.die q.part ++
      (match logTile s q.die q.part with | some n => memHeld s q.die n | none => [])
  | _ => if q.part < 22 ∧ isLink q.die q.part then (linkOf s q.die q.part).replay.flatMap (·.pkts) else []

/-! ### Q3 (R516) -/

/-- A page without uncommitted shadow values, commit requests and statistics counters. -/
def resetPage (die page : Nat) (s : State) : State :=
  let ofPage (k : Nat) : Bool := k / 16384 / 4096 = pk die page
  let s := { s with rg := { s.rg with
    shadow := keep (fun k => !ofPage k) s.rg.shadow, held := keep (fun k => !ofPage k) s.rg.held,
    counts := keep (fun k => k / 4096 ≠ pk die page) s.rg.counts } }
  modPage die page (fun p => { p with commit := .none }) s

/-- The saturating counter registers of a page return to 0. -/
def zeroReg (die page off : Nat) (s : State) : State :=
  match pageInfo die page with
  | some _ => setReg die page off 0 0 s
  | none => s

/-- The contexts active on the package are lost at a tile, or at every tile of a die (R516). -/
def loseActive (die tile : Nat) (s : State) : State :=
  { s with rs := { s.rs with lostAct := (s.rs.lostAct ++ s.rs.active.map fun c => (tk die tile, c)).eraseDups } }

/-- The runtime state of contexts at a logical tile's endpoints is lost (R516 row Runtime); its credit cache stays. -/
def loseTileRuntime (die n : Nat) (s : State) : State :=
  let k := tk die n
  let s := drnTileReset die n s
  let c := cipOf s die n
  { s with
    ci := { s.ci with tiles := put {} s.ci.tiles k { reqSeq := c.reqSeq, nextDesc := c.nextDesc, cache := c.cache, freed := c.freed, order := c.order }
                      merges := drop s.ci.merges k }
    bk := keep (fun x => x / 32 / 64 ≠ k) s.bk
    se := { s.se with resv := drop s.se.resv k, loads := drop s.se.loads k } }

/-- A reset of a logical tile's endpoints: node tokens, deferral counters and credit caches go silently (R517). -/
def loseTile (die n : Nat) (s : State) : State :=
  let k := tk die n
  let s := modCip die n (fun c => { c with cache := [], freed := [], order := 0 }) (loseTileRuntime die n (wakeTile die n s))
  let s := { s with
    mp := drop s.mp k
    nt := { s.nt with inject := s.nt.inject.filter (fun e => e.1 / 64 ≠ tk die (physTile s die n))
                      defer := keep (fun x => x / 4 / 2048 ≠ k) s.nt.defer } }
  zeroTileTokens die (physTile s die n) s

/-- The pages 3 to 5 of a physical tile. -/
def resetEndpointPages (die t : Nat) (s : State) : State := forEach [3, 4, 5] (fun i s => resetPage die (tpage t i) s) s

/-- Q3 of a TILE_RESET: the physical tile with its router. -/
def resetTile (die t : Nat) (s : State) : State :=
  let arbOf (k : Nat) : Bool := if k ≥ 2 ^ 32 then (k - 2 ^ 32) / 1024 = tk die t else k / 128 = tk die t
  let s := { s with nt := { s.nt with
    bufs := s.nt.bufs.filter (fun e => e.1 / 1024 ≠ tk die t), arbs := s.nt.arbs.filter (fun e => !arbOf e.1) } }
  let s := match logTile s die t with
    | some n => loseActive die n (loseTile die n s)
    | none => s
  let s := forEach [0, 1, 2] (fun i s => resetPage die (tpage t i) s) (resetEndpointPages die t s)
  zeroReg die (tpage t 0) 0x130 (zeroTileTokens die t s)

/-- The runtime state of a die's units beside its tiles: pegs, tally unit and log buffer, the records of its seam engines. Seams homed
there complete with PART_RESET now, since their engine keeps nothing (DEDUCED from R472, log 43). -/
def loseUnits (die : Nat) (s : State) : State :=
  let homes := (s.se.recs.filter fun e => keyDie e.1 = die && e.2.home.isNone).map (·.1)
  let s := forEach homes (fun k s => completeSeam k 0x88 0 (pressOf s die) s) s
  let ofDie (e : Nat × List Packet) : Bool := e.1 / 4 = die
  { s with
    pg := keep (fun k => k / 1024 ≠ die) s.pg
    ty := { s.ty with units := drop s.ty.units die }
    se := { s.se with
      recs := s.se.recs.filter (fun e => keyDie e.1 ≠ die)
      deferred := s.se.deferred.filter (fun e => !ofDie e)
      mirror := s.se.mirror.filter (fun e => !ofDie e)
      early := s.se.early.filter (fun e => !ofDie e) } }

/-- The runtime state of every context on a die is lost (R516 row Runtime), of its tiles by `tile`: in a reset all of it, at a loss of the
reference the row Runtime alone (R579). -/
def loseRuntime (tile : Nat → Nat → State → State) (die : Nat) (s : State) : State :=
  let s := forEach (List.range (nTiles die)) (fun n s => tile die n s) s
  resetKept die (loseActive die wholeDie (loseUnits die s))

/-- The host port of a die. -/
def hostPortOf (die : Nat) : Option Nat := hostDies.findIdx? fun d => d = die

/-- A host adapter discards inbound requests not yet sent; later responses to those sent find no request (R459). -/
def hostDiscard (h : Nat) : State → State := modHost h fun x => { x with waiting := [], sent := [] }

/-- The pages of a die that its reset covers, tiles apart. -/
def dieUnitPages (die : Nat) : List Nat :=
  ([0, 1] ++ ((List.range 4).flatMap fun e => [seamPage e 0, seamPage e 1, seamPage e 2]) ++ [0x680, 0x690, 0x691] ++
    (List.range 12).map (0x700 + ·) ++ [0x710, 0x711, 0x712, 0x718, 0x719]).filter fun p => (pageInfo die p).isSome

/-- Q3 of a DIE_RESET. -/
def resetDie (die : Nat) (s : State) : State :=
  let s := loseRuntime loseTile die s
  let s := forEach (List.range (nPhys die)) (fun t s => resetEndpointPages die t (zeroTileTokens die t s)) s
  let s := forEach (dieUnitPages die) (fun p s => resetPage die p s) s
  let s := match hostPortOf die with | some h => hostDiscard h s | none => s
  zeroReg die 0 0x130 { s with tm := { s.tm with units := drop s.tm.units die } }

/-- A link under reset: down, with nothing kept or half received. -/
def linkOff (l : Link) : Link :=
  { l with st := .off, step := 0, cause := 0, replay := [], ahead := [], parts := [], rxUnits := [], replayDue := none }

/-- Q3 of a PORT_RESET: the counters and uncommitted values of its pages; the link is down until Q4. -/
def resetPort (die part : Nat) (s : State) : State :=
  if part < 16 then
    modLink die part linkOff (resetPage die (0x10 + part) s)
  else if part < 22 then
    let p := part - 16
    let s := resetPage die (lnkPage p 1) (resetPage die (lnkPage p 0) s)
    if isSto die p then
      let n := ((List.range 4).find? fun i => stoPort i = portOf die p).getD 0
      resetPage die 0x719 { s with lk := { s.lk with stos := upd {} s.lk.stos n fun x => { x with link := false } } }
    else modLink die part linkOff s
  else match hostPortOf die with
    | some h => hostDiscard h (resetPage die 0x718 s)
    | none => s

/-- Q3: the part is reset; what it still held is replaced by statuses first when QUIESCE_LIMIT ended its flush (R483). -/
def quiesceReset (q : Quiesce) (limit : Bool) (s : State) : State :=
  let held := if limit then heldByPart s q else []
  let s := match q.kind with
    | 2 => resetDie q.die s
    | 3 => resetTile q.die q.part s
    | _ => resetPort q.die q.part s
  let s := { s with rs := { s.rs with busy := some { q with phase := 3 } } }
  let n := if q.kind = 3 then (logTile s q.die q.part).getD 0 else 0
  forEach held (fun p s => sendLoss q.die n 10 (if isRsp p then 0x88 else 0x20) p s) s

/-- QUIESCE_RESET_PHASE: the part has drained. -/
def quiesceDrained (s : State) : State :=
  match s.rs.busy with
  | some q => if q.phase = 2 ∧ heldByPart s q = [] then quiesceReset q false s else s
  | none => s

/-- QUIESCE_LIMIT cycles have passed since Q1 (R483). -/
def quiesceLimit (s : State) : State :=
  match s.rs.busy with
  | some q =>
    if q.phase ≠ 2 ∨ s.tm.fclk < q.since + rfld s q.die 1 0x104 23 0 then s
    else if heldByPart s q = [] then quiesceReset q false s
    else quiesceReset q true (raise0 q.die 1 2 s)
  | none => s

/-! ### Q4 -/

/-- The neighbours' credit counts toward a tile's input buffers start at the buffer size. -/
def returnCredits (die n : Nat) (s : State) : State :=
  let t := physTile s die n
  let clear (d t g : Nat) (s : State) : State :=
    { s with nt := { s.nt with used := keep (fun k => k / 64 ≠ tk d t * 16 + g) s.nt.used } }
  let s := forEach ((List.range 8).filter fun out => portExists die n out) (fun out s =>
    let rp := meshStep die n out
    let n' := rp.1
    let g' := rp.2
    clear die (physTile s die n') g' s) s
  forEach [0, 1] (fun g s => match attachOf die n g with
    | .module b m => let rp := farEnd die b; clear rp.1 (modTile rp.2 m) 8 s
    | .lnk p => retrain die (16 + p) s
    | .none => s) (clear die t 10 (clear die t 11 s))

/-- QUIESCE_RETURN: the reset is done (RESULT 0). -/
def quiesceReturn (s : State) : State :=
  match s.rs.busy with
  | some q =>
    if q.phase ≠ 3 then s
    else
      let s := { s with rs := { s.rs with busy := none, result := 0 } }
      match q.kind with
      | 3 => (match logTile s q.die q.part with | some n => returnCredits q.die n s | none => s)
      | 4 => if q.part < 22 ∧ isLink q.die q.part then retrain q.die q.part (reinitCredits q.die q.part s) else s
      | _ => s
  | none => s

/-! ### RESET_CMD (R502 to R504) -/

/-- The target of a reset exists. -/
def resetTarget (kind die part : Nat) : Bool :=
  match kind with
  | 2 => decide (die < 64)
  | 3 => decide (die < 64) && decide (part < nPhys die)
  | 4 => decide (die < 64) &&
      (decide (part < 16) || (decide (part < 22) && decide (16 ≤ part) && dieType die = .io) ||
        (decide (part = 0x18) && (hostPortOf die).isSome))
  | _ => false

/-- LP2 ends at the next boundary (R510, R514). -/
def endLp2 (s : State) : State :=
  match s.rs.lp with
  | .lp2 => { s with rs := { s.rs with lp := .leaving } }
  | .entering _ => { s with rs := { s.rs with lp := .running } }
  | _ => s

/-- Q1 of a reset: the part is fenced; LP2 ends, a sleeping tile wakes (R504). -/
def startQuiesce (kind die part : Nat) (s : State) : State :=
  let s := endLp2 s
  let s := { s with rs := { s.rs with
    busy := some { kind := kind, die := die, part := part, phase := 2, since := s.tm.fclk }, result := 0 } }
  match kind with
  | 2 => quiesceUnits die s
  | 3 => (match logTile s die part with
    | some n => flushTile die n (failSeamsAt die (some n) 0x88 (fenceTile die n (wakeTile die n s)))
    | none => s)
  | _ => s

/-- A reset's RESULT without effect. -/
def resetResult (r : Nat) (s : State) : State := { s with rs := { s.rs with result := r } }

/-- RESET_CMD for a die, tile or port: held during an activation pause (R551). -/
def resetPart (i : Instr) (kind die part : Nat) (s : State) : State :=
  if s.fw.inPause then { s with rs := { s.rs with heldCmds := s.rs.heldCmds ++ [i] } }
  else if !resetTarget kind die part then resetResult 2 s
  else if s.ft.safeDies ≠ [] then resetResult 3 s
  else match s.rs.busy with
    | none => startQuiesce kind die part s
    | some q =>
      if kind = 2 ∧ q.die = die ∧ (q.kind = 3 ∨ q.kind = 4) then startQuiesce kind die part s else resetResult 1 s

/-! ### Router test and spares (R485) -/

/-- The position a failed physical tile lies in. -/
def testPos (die t : Nat) : Nat := match dieType die with | .compute => t / 16 | .memside => t % 5 | .io => t

/-- SPARE_CFG of a die (R523). -/
def spareCfg (s : State) (die : Nat) : Byte := look 0 s.kp.spares die

/-- One die's test: the failed positions, the spare position, TILE_DEAD. -/
def testDie (failed : List (Nat × Nat)) (die : Nat) (s : State) : State :=
  let ps := sortBy (fun a b => decide (a < b)) (((failed.filter fun e => e.1 = die ∧ e.2 < nPhys die).map fun e => testPos die e.2).eraseDups)
  let mask := ps.foldl (fun a p => a + 2 ^ p) 0
  let cfg := spareCfg s die
  let cfgP := if cfg.toNat.testBit 7 then [cfg.toNat % 16] else []
  let union := (cfgP ++ ps).eraseDups
  let bad := if dieType die = .io then decide (ps ≠ []) else decide (union.length > 1)
  let k := match dieType die with
    | .io => 0
    | _ => if bad then ps.headD (spareDefault die) else union.headD (spareDefault die)
  let s := { s with ft := { s.ft with
    failedTest := put 0 s.ft.failedTest die mask, spare := put (spareDefault die) s.ft.spare die k } }
  if bad then raise die 1 1 none (w32 (2 ^ 31 + mask)) s else s

def testRouters (failed : List (Nat × Nat)) (s : State) : State := forEach allDies (fun d s => testDie failed d s) s

/-! ### FABRIC_RESET and POR (R505, R516, R524) -/

/-- Every laser is off (R515). -/
def lasersOff (s : State) : State :=
  forEach s.op (fun e s => if e.2.st = 2 then laserOut (e.1 / 8) (e.1 % 8) false s else s) s

/-- Every bridge module trains, but for those of a die that stays in reset (R524 step 4, R553). -/
def trainModules (s : State) : State :=
  let m : Link := { st := .training }
  let dies := allDies.filter fun d => !notInService s d
  { s with lk := { s.lk with mods := dies.flatMap fun d => (List.range 16).map fun x => (d * 16 + x, m) } }

/-- The service configuration stored in the FMC area of Keep (R532). -/
def storedConfig (s : State) : List Byte := (List.range 30).flatMap fun i => leBytes 4 (look 0 s.kp.area i).toNat
def configValid (c : List Byte) : Bool := decide (field c 0x16 2 ≠ 0)

/-- Bring-up from step 1 with Keep and what survives in s: straps sampled, every unit at its reset value, routers tested, modules
training. -/
def bringUp (failed : List (Nat × Nat)) (s : State) : State :=
  let live := s.tm.strapsLive
  let s1 := lasersOff s
  let s1 : State := {
    kp := s1.kp, fw := { slot0 := s1.fw.slot0, slot1 := s1.fw.slot1 }, ram := s1.ram, jt := s1.jt, out := s1.out,
    fresh := s1.fresh, pending := s1.pending,
    tm := { fclk := s1.tm.fclk, straps := live, strapsLive := live, mistied := s1.tm.mistied } }
  let role := if live.toNat.testBit 12 then (if live.toNat.testBit 13 then 2 else 1) else 0
  let s1 := { s1 with pr := { role := role, following := decide (role = 2) } }
  startCycle (testRouters failed (trainModules s1))

/-- REPLAY_EPOCH advances (R400). -/
def nextEpoch (s : State) : State := { s with kp := { s.kp with replayEpoch := (s.kp.replayEpoch + 1) % 2 ^ 32 } }

/-- The positions that failed the last test fail again where a reset gives no new result: the failures stay (R485). -/
def failedAgain (s : State) : List (Nat × Nat) :=
  s.ft.failedTest.flatMap fun e => (List.range 12).filterMap fun p =>
    if e.2.testBit p then some (e.1, match dieType e.1 with | .compute => 16 * p | _ => p) else none

/-- FABRIC_RESET: everything except Keep and staging SRAM; out of LP3 the FMC runs on and keeps its root log (R515, R516). -/
def fabricReset (lp3 : Bool) (s : State) : State :=
  let s' := bringUp (failedAgain s) (nextEpoch s)
  let s' := if s.ft.errLow then emit (.errN false) s' else s'
  if lp3 then { s' with
    fw := { s'.fw with running := s.fw.running, recovery := s.fw.recovery, libEpoch := s.fw.libEpoch, fallback := s.fw.fallback }
    sv := s.sv
    ft := { s'.ft with root := s.ft.root, rootCount := s.ft.rootCount } }
  else s'

/-- The check of Keep at the release of POR: VBAT loss writes the defaults (R519, R521). -/
def checkKeep (eccLost : Bool) (s : State) : State :=
  if s.kp.brownOut || eccLost then { s with kp := { lost := true, vbatLow := s.kp.vbatLow } }
  else nextEpoch { s with kp := { s.kp with lost := false, onVbat := false, ecc := 0 } }

/-- POR: the release of POR_N, with the inputs of that moment: the straps, the dies whose DIE_TYPE disagrees with R15. -/
def por (straps : BitVec 16) (eccLost : Bool) (failed : List (Nat × Nat)) (mistied : List Nat) (s : State) : State :=
  let s := checkKeep eccLost s
  let s := { s with tm := { s.tm with strapsLive := straps, mistied := mistied }, ram := [] }
  bringUp failed s

/-- POR_N_LOW: the fabric stops; ERR_N is high-impedance (R564, R569). -/
def porLow (s : State) : State :=
  let s := if s.ft.errLow then emit (.errN false) s else s
  { s with tm := { s.tm with porLow := true }, ft := { s.ft with errLow := false, pulse := false }, fw := { s.fw with running := false } }

/-! ### Supplies of Keep (R518) -/

/-- BROWN_OUT: VBAT below 2.2 V while Keep runs from it. -/
def brownedOut (s : State) : State := if s.kp.onVbat then { s with kp := { s.kp with brownOut := true } } else s

/-- FABRIC_SUPPLY_LOSS: Keep runs from VBAT, ERR_N is high-impedance. -/
def supplyLost (s : State) : State := let s := porLow s; { s with kp := { s.kp with onVbat := true } }

/-- CL_WAKE (R560). -/
def clWoken (die tile : Nat) (s : State) : State := wakeTile die tile s

def execQuiesceResetPhase (s : State) : Host.Outcome State Fault Refusal := .next (quiesceDrained s)
def execQuiesceLimit (s : State) : Host.Outcome State Fault Refusal := .next (quiesceLimit s)
def execQuiesceReturn (s : State) : Host.Outcome State Fault Refusal := .next (quiesceReturn s)
def execPor (straps : BitVec 16) (eccLost : Bool) (failedRouters : List (Nat × Nat)) (s : State) (mistied : List Nat := []) :
    Host.Outcome State Fault Refusal := .next (por straps eccLost failedRouters mistied s)
def execPorNLow (s : State) : Host.Outcome State Fault Refusal := .next (porLow s)
def execBrownOut (s : State) : Host.Outcome State Fault Refusal := .next (brownedOut s)
def execFabricSupplyLoss (s : State) : Host.Outcome State Fault Refusal := .next (supplyLost s)
def execClWake (die tile : Nat) (s : State) : Host.Outcome State Fault Refusal := .next (clWoken die tile s)

end Sys2Proof.Machine
end

