-- ==== Sys2Proof/Machine/Power.lean ====
section
/-! DEFINITION. Low-power states (15: R510 to R515), the Keep domain's registers (R518 to R523, R580) and the start of the FMC (16: R533 to
R536). -/
namespace Sys2Proof.Machine

/-! ### LP1 (R510 to R512) -/

/-- LP1_REQ of a logical tile. -/
def lp1Req (s : State) (die n : Nat) : Bool := (reg s 0 0x723 (0x124 + 4 * (n / 32)) die).toNat.testBit (n % 32)

/-- A tile meets the conditions of LP1 (R511). -/
def lp1Idle (s : State) (die n : Nat) : Bool :=
  let t := drnTile s die n
  let c := cipOf s die n
  let free (x : Darner) : Bool := x.task.isNone && !x.holding && x.resv.isNone
  t.darners.all (fun e => free e.2) && t.queue.isEmpty && t.held.isEmpty && t.load.isNone &&
    c.streams.isEmpty && c.descs.isEmpty && c.opens.isEmpty &&
    !(s.bk.any fun e => e.1 / 32 / 64 = tk die n && e.2.armed) &&
    !((resvOf s die n).any fun r => r.granted && decide (r.basket < 64)) &&
    c.queues.all (fun e => e.2.held.isEmpty) && c.rings.all (fun e => e.2.waiting.isEmpty) &&
    c.cache.all (fun e => e.2.req = none && !e.2.later) &&
    (mpOf s die n).waiting.isEmpty && (mpOf s die n).out.isEmpty

/-- A tile enters LP1: its CIP returns every cached credit, the counters of the stopped units are 0 (R511, R516). -/
def enterLp1 (die n : Nat) (s : State) : State :=
  let s := forEach (cipOf s die n).cache (fun e s => freeCache die n e.1 s) s
  let s := forEach [3, 4, 5] (fun i s =>
    { s with rg := { s.rg with counts := keep (fun k => k / 4096 ≠ pk die (tpage (physTile s die n) i)) s.rg.counts } }) s
  { s with rs := { s.rs with asleep := s.rs.asleep ++ [(die, n)] } }

/-- The tiles with LP1 requested, by the LP1_REQ words that are not zero. -/
def lp1Wanted (s : State) : List (Nat × Nat) :=
  let dies := allDies.filter fun d => [0, 1, 2, 3].any fun i => reg s 0 0x723 (0x124 + 4 * i) d ≠ 0
  dies.flatMap fun d => ((List.range (nTiles d)).filter fun n => lp1Req s d n).map fun n => (d, n)

/-- Just after step 7: every tile with LP1 requested that meets R511 enters it. -/
def lp1Step (s : State) : State :=
  forEach (lp1Wanted s) (fun e s =>
    if !isAsleep s e.1 e.2 && !tileQuiesced s e.1 e.2 && lp1Idle s e.1 e.2 then enterLp1 e.1 e.2 s else s) s

/-- LP1_REQ written: a cleared bit wakes its tile. -/
def lp1Write (i : Nat) (v : Word) (s : State) : State :=
  let die := rfld s 0 0x723 0x120 5 0
  let s := setReg 0 0x723 (0x124 + 4 * i) die v s
  forEach ((List.range 32).filter fun b => !v.toNat.testBit b) (fun b s => wakeTile die (32 * i + b) s) s

/-! ### LP2 and LP3 (R510, R513 to R515) -/

/-- The CAUSE that refuses LP2 and LP3, 0 if none (R513). -/
def lpRefusal (s : State) : Nat :=
  if s.rs.active ≠ [] then 1 else if s.lk.ports.any fun e => decide (e.2.st = .up) then 2 else 0

/-- LP_CMD 1 or 2. A reset in progress refuses it without a CAUSE (R504; log 57). -/
def lpEnter (to3 : Bool) (s : State) : State :=
  if s.rs.lp ≠ .running ∨ s.rs.busy.isSome then s
  else if lpRefusal s ≠ 0 then { s with rs := { s.rs with lpCause := lpRefusal s } }
  else { s with rs := { s.rs with lp := .entering to3 } }

/-- LP_CMD 3: LP2 ends at the next boundary, LP3 with a FABRIC_RESET. -/
def lpLeave (s : State) : State :=
  match s.rs.lp with
  | .lp3 => fabricReset true s
  | _ => endLp2 s

/-- The links as LP2 takes them: every module in L1, off-package ports in LOW POWER (R434, R510). -/
def sleepLinks (s : State) : State :=
  let down (l : Link) : Link := if l.st = .off then l else { l with st := .lowPower }
  { s with lk := { s.lk with
    mods := s.lk.mods.map (fun e => (e.1, { e.2 with st := .lowPower, back := e.2.st }))
    ports := s.lk.ports.map (fun e => (e.1, down e.2)) } }

/-- The links as LP2 leaves them, training kept (R516). -/
def wakeLinks (s : State) : State :=
  let port (l : Link) : Link :=
    if l.st ≠ .lowPower then l
    else { l with st := if l.cause ≠ 0 then .hold else if l.step = 6 then .ready else .training }
  { s with lk := { s.lk with
    mods := s.lk.mods.map (fun e => (e.1, if e.2.st = .lowPower then { e.2 with st := e.2.back, back := .off } else e.2))
    ports := s.lk.ports.map (fun e => (e.1, port e.2)) } }

/-- Every node of every tile with a stored token count at 0 (R180, R514). -/
def zeroTokens (s : State) : State :=
  { s with nt := { s.nt with tokens := s.nt.tokens.map fun e => (e.1, ((0 : Int), s.tm.fclk)) } }

/-- The lasers of every engine are off. -/
def sleepLasers (s : State) : State :=
  let s := lasersOff s
  { s with op := s.op.map fun e => (e.1, if e.2.st = 2 then { e.2 with st := 3 } else e.2) }

/-- The package state changes at a boundary: entry, if R513 still holds, or exit. -/
def lpStep (s : State) : State :=
  match s.rs.lp with
  | .entering to3 =>
    if lpRefusal s ≠ 0 then { s with rs := { s.rs with lp := .running, lpCause := lpRefusal s } }
    else if to3 then
      let s := sleepLinks (sleepLasers s)
      { s with rs := { s.rs with lp := .lp3 }, tm := { s.tm with units := [] } }
    else sleepLinks { s with rs := { s.rs with lp := .lp2 } }
  | .leaving => zeroTokens (wakeLinks { s with rs := { s.rs with lp := .running } })
  | _ => s

/-- The package is in LP2 or LP3, or about to leave LP2. -/
def lpSleeps (s : State) : Bool := match s.rs.lp with | .lp2 | .leaving | .lp3 => true | _ => false

/-! ### Keep's registers -/

/-- ROLLBACK written (R522). -/
def rollbackSet (v : Word) (s : State) : State :=
  if v.toNat > 255 ∨ v.toNat < s.kp.rollback then badWrite 0 0x730 s
  else { s with kp := { s.kp with rollback := v.toNat } }

/-- AREA_ADDR, and its step after an access (R580). -/
def areaAddr (s : State) : Nat := rfld s 0 0x733 0x100 12 2
def areaNext (s : State) : State := setReg 0 0x733 0x100 0 (w32 ((areaAddr s + 1) % 2048 * 4)) s

/-- The word AREA_DATA reads. -/
def areaWord (s : State) : Word := if areaAddr s < 1280 then look 0 s.kp.area (areaAddr s) else 0

/-- AREA_DATA written. -/
def areaSet (v : Word) (s : State) : State :=
  if areaAddr s < 1280 then areaNext { s with kp := { s.kp with area := put 0 s.kp.area (areaAddr s) v } }
  else areaNext (badWrite 0 0x733 s)

/-- SPARE_CFG of a die written: VALID 0 clears the entry (R523); reserved on I/O dies. -/
def spareSet (die : Nat) (v : Word) (s : State) : State :=
  if dieType die = .io then s
  else
    let b : Byte := if v.toNat.testBit 31 then BitVec.ofNat 8 (0x80 + wbits v 3 0) else 0
    { s with kp := { s.kp with spares := put 0 s.kp.spares die b } }

/-- UNIT_HASH word k written. -/
def unitHashSet (k : Nat) (v : Word) (s : State) : State :=
  { s with kp := { s.kp with unitHash := splice s.kp.unitHash (4 * k) (leBytes 4 v.toNat) } }

/-- Half of an accept-list entry written. -/
def acceptSet (k : Nat) (high : Bool) (v : Word) (s : State) : State :=
  let old : DWord := look 0 s.kp.accept k
  let new := if high then pair64 (lo32 old) v else pair64 v (hi32 old)
  { s with kp := { s.kp with accept := put 0 s.kp.accept k new } }

/-! ### The start of the FMC (R533 to R536) -/

/-- The set slots, and the active one: VALID with the greater ACT_SEQ, slot 0 on a tie (R533). -/
def fwSlot (s : State) (i : Nat) : SetSlot := if i = 1 then s.fw.slot1 else s.fw.slot0
def setFwSlot (i : Nat) (x : SetSlot) (s : State) : State :=
  { s with fw := if i = 1 then { s.fw with slot1 := x } else { s.fw with slot0 := x } }
def activeSlot (s : State) : Option Nat :=
  match s.fw.slot0.valid, s.fw.slot1.valid with
  | true, true => some (if s.fw.slot1.actSeq > s.fw.slot0.actSeq then 1 else 0)
  | true, false => some 0
  | false, true => some 1
  | false, false => none

/-- The service configuration takes effect as stored; NSEQ counts from 0 (R531, R532). -/
def loadService (s : State) : State :=
  let c := storedConfig s
  { s with sv := { valid := configValid c, config := c, map := (c.zipIdx.map fun e => (0x10 + e.2, e.1)).filter fun e => e.2 ≠ 0 } }

/-- The FMC runs from a slot; ERR_N is driven (R535, R536, R524). -/
def startFrom (i : Nat) (fallback : Bool) (s : State) : State :=
  let x := fwSlot s i
  let s := { s with
    fw := { s.fw with running := true, recovery := false, fallback := fallback, libEpoch := x.epoch, st := .idle, code := 0 }
    kp := { s.kp with rollback := if s.kp.lost then max s.kp.rollback x.rb else s.kp.rollback } }
  let s := loadService s
  if isSafe s 0 || errHold s then setErr true s else s

/-- FMC_START: the boot ROM's checks of each slot's contents are inputs; the rollback check is its own (R534). A running FMC does not
start again. -/
def fmcStart (ok0 ok1 : Bool) (s : State) : State :=
  if s.fw.running || s.tm.porLow then s
  else
    let ok (i : Nat) : Bool := (fwSlot s i).valid && (if i = 1 then ok1 else ok0) && decide (s.kp.rollback ≤ (fwSlot s i).rb)
    match activeSlot s with
    | some a =>
      if ok a then startFrom a false s
      else if ok (1 - a) then startFrom (1 - a) true s
      else loadService { s with fw := { s.fw with recovery := true } }
    | none => loadService { s with fw := { s.fw with recovery := true } }

def execFmcStart (partsOk0 partsOk1 : Bool) (s : State) : Host.Outcome State Fault Refusal := .next (fmcStart partsOk0 partsOk1 s)

end Sys2Proof.Machine
end

