-- ==== Sys2Proof/Machine/Storage.lean ====
section
/-! DEFINITION. The storage ports (12: R409 to R412; 13: R451 to R453): log records into datagrams, datagrams into frames. A storage
port is named by its number 0 to 3 (R435). -/
namespace Sys2Proof.Machine

/-- The die of a storage port, and a register and a counter of its page. -/
def stoDie (n : Nat) : Nat := portDie (stoPort n)
def stoReg (s : State) (n off : Nat) : Word := reg s (stoDie n) 0x719 off
def stoCount (n k x : Nat) : State → State := addCount (stoDie n) 0x719 k x
def modSto (n : Nat) (f : StoPort → StoPort) (s : State) : State :=
  { s with lk := { s.lk with stos := upd {} s.lk.stos n f } }

/-! ### A frame (R410, R451) -/

/-- The 24-byte datagram header (R410). -/
def dgramHeader (s : State) (n : Nat) (resent : Bool) (count : Nat) : List Byte :=
  leBytes 4 0x474F4C5A ++ leBytes 2 1 ++ leBytes 2 (pkgNo s) ++ leBytes 1 n ++
    leBytes 1 (b2n (s.pr.role = 2) + 2 * b2n resent) ++ leBytes 2 count ++ leBytes 4 s.kp.replayEpoch ++
    leBytes 8 (stoOf s n).dseq

/-- The words of a byte string, most significant byte first, summed. Fuel: the number of words. -/
def sumWords : (fuel : Nat) → List Byte → Nat
  | 0, _ => 0
  | _ + 1, [] => 0
  | f + 1, bs => ofBe (padTo 2 (bs.take 2)) + sumWords f (bs.drop 2)

/-- The UDP checksum over the IPv6 pseudo-header, the UDP header and the payload; a sum of 0 is sent as 0xFFFF. -/
def udpChecksum (bs : List Byte) : Nat :=
  let x := sumWords (bs.length / 2 + 1) bs % 65535
  if 65535 - x = 65535 then 65535 else 65535 - x

/-- The four registers of an address, in network order. -/
def stoIp (s : State) (n off : Nat) : List Byte :=
  [0, 1, 2, 3].flatMap fun k => leBytes 4 (stoReg s n (off + 4 * k)).toNat
def stoMac (s : State) (n off : Nat) : List Byte := leBytes 4 (stoReg s n off).toNat ++ leBytes 2 (stoReg s n (off + 4)).toNat

/-- The Ethernet frame of a datagram, preamble and FCS left to the MAC (R451). -/
def stoFrame (s : State) (n : Nat) (payload : List Byte) : List Byte :=
  let ports := beBytes 2 (wbits (stoReg s n 0x140) 15 0) ++ beBytes 2 (wbits (stoReg s n 0x140) 31 16)
  let len := 8 + payload.length
  let src := stoIp s n 0x120
  let dst := stoIp s n 0x130
  let sum := udpChecksum (src ++ dst ++ beBytes 4 len ++ [0, 0, 0, 17] ++ ports ++ beBytes 2 len ++ [0, 0] ++ payload)
  stoMac s n 0x110 ++ stoMac s n 0x108 ++ [0x86, 0xDD] ++
    beBytes 4 (6 * 2 ^ 28 + wbits (stoReg s n 0x144) 19 0) ++ beBytes 2 len ++ [17] ++
    leBytes 1 (wbits (stoReg s n 0x100) 15 8) ++ src ++ dst ++ ports ++ beBytes 2 len ++ beBytes 2 sum ++ payload

/-! ### Records and datagrams -/

/-- The most a datagram holds (R410). -/
def dgramRoom : Nat := 8952
def fillBytes (xs : List (Bool × List Byte)) : Nat := xs.foldl (fun a x => a + x.2.length) 24

/-- The record has left a storage port: nothing holds LOG_MARK back for it (R416). -/
def recordLeft (bytes : List Byte) (u : TlyUnit) : TlyUnit :=
  { u with buf := mapIf (fun r => r.bytes = bytes) (fun r => { r with left := true }) u.buf
           flight := u.flight.filter fun r => r.bytes ≠ bytes }

/-- The records of one datagram: those at the front that fit and go out for the first time alike, or again. -/
def dgramSplit (again : Bool) : (room : Nat) → List (Bool × List Byte) → List (Bool × List Byte) × List (Bool × List Byte)
  | _, [] => ([], [])
  | room, x :: xs =>
    if x.1 = again ∧ x.2.length ≤ room then let (a, b) := dgramSplit again (room - x.2.length) xs; (x :: a, b) else ([], x :: xs)

/-- A datagram is closed and sent; while the PCS reports no link nothing is sent (R451, R453). -/
def datagramClose (n : Nat) (s : State) : State :=
  match (stoOf s n).filling with
  | [] => s
  | x :: more =>
    if !stoSends s n then s
    else
      let rp := dgramSplit x.1 (dgramRoom - 24) (x :: more)
      let xs := rp.1
      let rest := rp.2
      let payload := dgramHeader s n x.1 xs.length ++ xs.flatMap (·.2)
      let f := stoFrame s n payload
      let s := stoCount n 0 1 (stoCount n 1 f.length (emit (.datagram n f) s))
      let s := modSto n (fun p => { p with filling := rest, dseq := p.dseq + 1 }) s
      forEach xs (fun x s => modTly (tallyDie (field x.2 4 2)) (recordLeft x.2) s) s

/-- The LOG packets of a record have been handed to the STO block. -/
def consumeRecord (n : Nat) (record : List Byte) (s : State) : State :=
  forEach (chunk 512 32 record) (fun b s => { s with nt := { s.nt with delivered :=
    (takeFirst (fun w : Wire => w.die = stoDie n && w.pkt.opcode = 0x50 && w.pkt.payload = b) s.nt.delivered).2 } }) s

/-- Whether a unit sends a record again after a promotion (R422). -/
def isResent (s : State) (record : List Byte) : Bool :=
  (unitTly s (tallyDie (field record 4 2))).flight.any fun r => r.resent && r.bytes = record

/-- LOG_REC: a record starts or extends a datagram; one that would not fit, or that a promotion sends again among others, closes the
datagram before it (R410, R451). A disabled port takes none. -/
def logRecArrive (n : Nat) (record : List Byte) (s : State) : State :=
  let s := consumeRecord n record s
  if wbits (stoReg s n 0x100) 0 0 = 0 then s
  else
    let again := isResent s record
    let xs := (stoOf s n).filling
    let s := if fillBytes xs + record.length > dgramRoom ∨ (xs.any fun x => x.1 ≠ again) then datagramClose n s else s
    modSto n (fun p => { p with filling := p.filling ++ [(again, record)] }) s

/-- GAP_RECORD: room has returned for the GAP record of a context (R412). -/
def gapSent (die c : Nat) (s : State) : State := if tallyDie c = die then drainLog die 64 (sendGap die c s) else s

/-- STO_LINK_DOWN (R453). -/
def stoLost (n : Nat) (s : State) : State :=
  stoCount n 3 1 (raise0 (stoDie n) 0x719 0 (modSto n (fun p => { p with link := false }) s))

/-- STO_PCS_LINK_UP: the records that wait in the log buffers are sent (R453). -/
def stoLinked (n : Nat) (s : State) : State :=
  forEach memDies (fun d s => drainLog d (unitTly s d).buf.length s) (modSto n (fun p => { p with link := true }) s)

def execLogRec (port : Nat) (record : List Byte) (s : State) : Host.Outcome State Fault Refusal := .next (logRecArrive port record s)
def execDatagramClose (port : Nat) (s : State) : Host.Outcome State Fault Refusal := .next (datagramClose port s)
def execGapRecord (die ctx : Nat) (s : State) : Host.Outcome State Fault Refusal := .next (gapSent die ctx s)
def execStoLinkDown (port : Nat) (s : State) : Host.Outcome State Fault Refusal := .next (stoLost port s)
def execStorageFrameReceived (port : Nat) (s : State) : Host.Outcome State Fault Refusal := .next (stoCount port 2 1 s)
def execStoPcsLinkUp (port : Nat) (s : State) : Host.Outcome State Fault Refusal := .next (stoLinked port s)

end Sys2Proof.Machine
end

