-- ==== Sys2Proof/Machine/Plan.lean ====
section
/-! DEFINITION. The plan (03: R72 to R86): the staged image checked, adopted at a boundary, the ports that change over (13: R447; 14:
R498, R499). -/
namespace Sys2Proof.Machine

/-! ### Staging SRAM -/

/-- The 64 MiB of staging SRAM (R528). -/
def stagingBytes : Nat := 67108864

/-- n bytes of staging SRAM from offset o; a byte nothing has written reads 0 (log 7). -/
def ramBytes (s : State) (o n : Nat) : List Byte := (List.range n).map fun i => look (0 : Byte) s.ram (o + i)

/-- Bytes written into staging SRAM. -/
def ramWrite : (o : Nat) → List Byte → List Host.Cell → List Host.Cell
  | _, [], m => m
  | o, b :: bs, m => ramWrite (o + 1) bs (put (0 : Byte) m o b)

/-! ### The image (R81, R82) -/

def allZero (bs : List Byte) : Bool := bs.all (· = 0)

/-- The member list of a slice record. -/
def sliceMembers (bs : List Byte) (o n : Nat) : List Nat := (List.range n).map fun i => field bs (o + 4 + 2 * i) 2
def sliceLen (n : Nat) : Nat := (4 + 2 * n + 7) / 8 * 8

/-- The slice records from offset o: none where one passes the end. Fuel: their number. -/
def parseSlices (bs : List Byte) : (count : Nat) → (o : Nat) → Option (List Slice × Nat × Bool)
  | 0, o => some ([], o, true)
  | k + 1, o =>
    let n := field bs (o + 2) 2
    if o + 8 > bs.length ∨ o + sliceLen n > bs.length then none
    else match parseSlices bs k (o + sliceLen n) with
      | none => none
      | some (rest, e, ok) =>
        let pad := slice bs (o + 4 + 2 * n) (sliceLen n - (4 + 2 * n))
        some ({ ctx := field bs o 2, members := sliceMembers bs o n } :: rest, e, ok && allZero pad)

/-- The present racks in ascending order. -/
def racksOf (w : DWord) : List Nat := (List.range 64).filter fun r => w.toNat.testBit r

/-- The package masks, one per present rack. -/
def parseMasks (bs : List Byte) (racks : List Nat) : List (Nat × DWord) :=
  racks.zipIdx.map fun e => (e.1, w64 (field bs (64 + 8 * e.2) 8))

def maskHas (ms : List (Nat × DWord)) (pkg : Nat) : Bool :=
  match ms.find? fun m => m.1 = pkg / 64 with
  | some m => m.2.toNat.testBit (pkg % 64)
  | none => false

/-- The slice records name contexts in strictly rising order, 1 to 4,096 present packages each, none twice (R78, R82). -/
def slicesOk (ms : List (Nat × DWord)) : (prev : Nat) → List Slice → Bool
  | _, [] => true
  | prev, x :: xs =>
    decide (prev ≤ x.ctx) && decide (x.ctx ≤ 2047) && decide (1 ≤ x.members.length) && decide (x.members.length ≤ 4096) &&
      x.members.all (maskHas ms) && decide x.members.Nodup && slicesOk ms (x.ctx + 1) xs

/-- The first failing code of a check, or the image (R82). An image whose records do not fill its LENGTH has a bad LENGTH (DEDUCED, log
58); so has one whose SLICE_COUNT is above 2,048, for which the manual names no code (DESIGN CHOICE, log 58). -/
def checkImage (s : State) (off len : Nat) : Nat × Option PlanImage :=
  if off + 64 > stagingBytes then (0x03, none)
  else
    let h := ramBytes s off 64
    let reserved := slice h 0x06 2 ++ slice h 0x0F 1 ++ slice h 0x1E 2 ++ slice h 0x28 24
    let flags := (byteAt h 0x0D).toNat
    let racks := w64 (field h 0x10 8)
    let twist := (slice h 0x18 6).map BitVec.toNat
    if field h 0 4 ≠ 0x4E4C505A ∨ field h 4 2 ≠ 1 ∨ !allZero reserved ∨ flags > 1 then (0x02, none)
    else if field h 0x20 4 ≠ len ∨ len % 8 ≠ 0 ∨ len > 20971520 ∨ off + len > stagingBytes ∨ field h 0x24 4 > 2048 ∨
        len < 64 + 8 * (racksOf racks).length then (0x03, none)
    else
      let bs := ramBytes s off len
      let ms := parseMasks bs (racksOf racks)
      match parseSlices bs (field h 0x24 4) (64 + 8 * ms.length) with
      | none => (0x03, none)
      | some (xs, e, padOk) =>
        if e ≠ len then (0x03, none)
        else if field h 8 4 ≤ planEpoch s then (0x04, none)
        else if (byteAt h 0x0C).toNat > 2 ∨ twist.any (· > 63) then (0x05, none)
        else if flags.testBit 0 ≠ s.tm.straps.toNat.testBit 12 then (0x06, none)
        else if !maskHas ms (pkgNo s) then (0x07, none)
        else if !padOk ∨ !slicesOk ms 0 xs then (0x08, none)
        else (0x01, some {
          epoch := field h 8 4, shape := (byteAt h 0x0C).toNat, pairMode := flags.testBit 0, minSundi := (byteAt h 0x0E).toNat,
          racks := racks, twist := twist, masks := ms, slices := xs, hash := sha3 bs })

/-! ### PLAN_CMD (R84) -/

/-- PLAN_STATUS. -/
def planStatus (s : State) : Word :=
  w32 (s.pl.code * 2 ^ 24 + b2n s.pl.strapChanged * 4 + b2n s.pl.draining * 2 + b2n s.pl.next.isSome)

/-- PLAN_STATUS.CODE takes a value; a change sends the notice and MSI-X vector 2 (R458, R531). -/
def planCode (c : Nat) (s : State) : State :=
  if s.pl.code = c then s
  else
    let s := { s with pl := { s.pl with code := c } }
    hostCause 2 (notice 3 (leBytes 4 (planStatus s).toNat) s)

/-- CHECK and ADOPT are ignored while a plan waits (R84) and while a firmware activation is armed or pauses the fabric (R543). -/
def planBusy (s : State) : Bool :=
  s.pl.next.isSome || (match s.fw.st with | .armed | .pause => true | _ => false)

/-- The staged image's place. -/
def planAt (s : State) : Nat := (reg s 0 0x721 0x140).toNat
def planLen (s : State) : Nat := (reg s 0 0x721 0x144).toNat

/-- PLAN_CMD.CHECK. -/
def planCheck (s : State) : State := if planBusy s then s else planCode (checkImage s (planAt s) (planLen s)).1 s

/-- PLAN_CMD.ADOPT: a failing image is reported before a Press that is not in the future (DESIGN CHOICE, log 58). -/
def planAdopt (s : State) : State :=
  if planBusy s then s
  else
    let p := (reg64 s 0 0x721 0x148).toNat
    let r := checkImage s (planAt s) (planLen s)
    match r.2 with
    | none => planCode r.1 s
    | some img =>
      if p ≤ pkgPress s + 1 then planCode 0x09 s
      else planCode r.1 { s with pl := { s.pl with next := some img, adoptPress := p, lockAt := planAt s, lockLen := planLen s } }

/-- PLAN_CMD.CANCEL: injections held by DRAINING may start again. -/
def planCancel (s : State) : State :=
  planCode 0x0B { s with pl := { s.pl with next := none, draining := false, lockLen := 0 } }

/-- A write of PLAN_CMD; CANCEL goes before the others, ADOPT before CHECK (DESIGN CHOICE, log 58). -/
def planCmd (v : Word) (s : State) : State :=
  if v.toNat.testBit 2 then planCancel s
  else if v.toNat.testBit 1 then planAdopt s
  else if v.toNat.testBit 0 then planCheck s
  else s

/-! ### Route tables derived from the plan (R72 to R75, R85) -/

/-- A value in effect that the FMC derives; the shadow follows it. -/
def setBoth (die page off sel : Nat) (v : Word) (s : State) : State :=
  let s := setReg die page off sel v s
  { s with rg := { s.rg with shadow := drop s.rg.shadow (rk die page off sel) } }

/-- The route words of a plan: offset, entry, value. A direction and lane is VALID where a neighbour is planned and its port not
lost (R498). -/
def routeWords (s : State) : List (Nat × Nat × Word) :=
  let shape := shapeOf s
  let rp := torusPos shape (pkgNo s % 64)
  let x := rp.1
  let y := rp.2.1
  let z := rp.2.2
  let t := twistOf s
  let tau := (List.range 6).foldl (fun a d => a + t.getD d 0 * 2 ^ (6 * d)) 0
  let racks : DWord := match s.pl.cur with | some p => p.racks | none => 0
  let ways := (List.range 12).flatMap fun d => (List.range (lanesOf shape d)).map fun l => (d, l)
  [(0x108, 0, w32 (x + y * 8 + z * 64 + shape * 256 + pkgNo s / 64 * 1024)), (0x10C, 0, w32 tau), (0x110, 0, w32 (tau / 2 ^ 32)),
    (0x114, 0, lo32 racks), (0x118, 0, hi32 racks)] ++
  ways.map fun e =>
    let ok (q : Nat) : Bool := present s (neighbour shape t (pkgNo s) e.1) && !(lnkOf s q).lost
    match dirPort shape e.1 e.2 with
    | some q => (0x124, 16 * e.1 + e.2, if ok q then egressWord q else 0)
    | none => (0x124, 16 * e.1 + e.2, 0)

/-- The derived tables commit on every tile; entries of directions a shape does not have are not VALID. -/
def commitRoutes (s : State) : State :=
  let ws := routeWords s
  forEach allDies (fun d s => forEach (List.range (nPhys d)) (fun t s =>
    forEach ws (fun e s => setBoth d (tpage t 1) e.1 e.2.1 e.2.2 s)
      { s with rg := { s.rg with eff := keep (fun k => !(k / 16384 = pk d (tpage t 1) * 4096 + 0x124)) s.rg.eff } }) s) s

/-! ### Adoption (R85, R86, R447, R499) -/

/-- The slice record of a context in a plan. -/
def recordIn (p : Option PlanImage) (c : Nat) : Option (List Nat) :=
  match p with
  | none => none
  | some x => (x.slices.find? fun r => r.ctx = c).map (·.members)

/-- The contexts whose records differ. -/
def changedSlices (a b : Option PlanImage) : List Nat :=
  let cs (p : Option PlanImage) : List Nat := match p with | some x => x.slices.map (·.ctx) | none => []
  ((cs a ++ cs b).eraseDups).filter fun c => recordIn a c ≠ recordIn b c

/-- A port changes over: it retrains where its expected neighbour changes, else it sends its new frame and waits for its peer's (R447);
one that runs though the plan expects no neighbour is held (R75). -/
def portChange (before : Option (Nat × Nat × Nat)) (port : Nat) (s : State) : State :=
  let die := portDie port
  let link := 16 + port % 6
  let l := lnkOf s port
  if !isSundi die link || l.st = .off || isSafe s die then s
  else if before = none ∧ expectOf s port = none ∧ (l.st = .up ∨ l.st = .ready) then holdLink die link 0x73 3 s
  else if before ≠ expectOf s port then retrain die link s
  else if l.st = .up ∨ l.st = .ready then sendIdent port (modLnk port (fun l => { l with planSeen := false }) s)
  else s

/-- Lost links that have trained UP again carry traffic from the adoption on, and their folds end (R499). -/
def restoreLinks (s : State) : State :=
  let up (l : Link) : Link := if l.st = .up then { l with lost := false, unplaced := false } else l
  let s := { s with lk := { s.lk with
    mods := s.lk.mods.map fun (e : Nat × Link) => (e.1, up e.2)
    ports := s.lk.ports.map fun (e : Nat × Link) => (e.1, up e.2) } }
  let still (k : Nat) : Bool := (look ({} : Link) s.lk.mods k).lost
  { s with lk := { s.lk with folded := s.lk.folded.filter fun e => still e.1 } }

/-- A package that promoted or lost its mirror pairs again at an adoption that resets every context it has active (R420). -/
def pairAgain (changed : List Nat) (s : State) : State :=
  if (s.pr.promoted ∨ s.pr.mirrorLost) ∧ s.tm.straps.toNat.testBit 12 ∧ s.rs.active.all (· ∈ changed) then
    let mirror := s.tm.straps.toNat.testBit 13
    { s with pr := { s.pr with role := if mirror then 2 else 1, following := mirror, promoted := false, base := none, misses := 0, ackMisses := 0,
                               acked := false, behind := none, held := [], frags := [], events := [], pendingDelta := [],
                               mirrorLost := false, primaryLost := false } }
  else s

/-- A port holds packets routed under the plan in effect: sent and not acknowledged, or with a slot of its transit pool (R85). -/
def portOld (s : State) (port : Nat) : Bool :=
  (lnkOf s port).replay.any (fun f => decide (f.pkts ≠ [])) || s.nt.poolUsed.any fun e => decide (e.1 / 64 = port) && decide (e.2 > 0)

/-- The plan that waits takes effect at the boundary into Press P. -/
def adoptNow (p : PlanImage) (s : State) : State :=
  let old := s.pl.cur
  let changed := changedSlices old (some p)
  let before := (List.range 48).map fun q => (expectOf s q, q)
  let s := restoreLinks s
  let s := { s with pl := { s.pl with cur := some p, next := none, draining := false, lockLen := 0,
                                      oldPorts := (List.range 48).filter (portOld s) } }
  let s := planCode 0x0A (commitRoutes s)
  let s := forEach before (fun e s => portChange e.1 e.2 s) s
  let s := { s with rs := { s.rs with dueResets := s.rs.dueResets ++ changed } }
  let s := forEach (s.rs.active.filter (· ∉ changed)) (fun c s => enterEpoch c 2 s.pl.adoptPress s) s
  pairAgain changed s

/-- Step 2 of a boundary into Press n: the plan due is adopted; in the Press before, DRAINING holds what would leave the package
(R85). -/
def planStep (n : Nat) (s : State) : State :=
  match s.pl.next with
  | none => s
  | some p =>
    if n ≥ s.pl.adoptPress then adoptNow p s
    else if n + 1 = s.pl.adoptPress then { s with pl := { s.pl with draining := true } }
    else s

/-- The boundary that ends Press P: a running port that has not seen its peer's new frame is held (R447). -/
def planLate (s : State) : State :=
  forEach (List.range 48) (fun q s =>
    if (lnkOf s q).st = .up ∧ !(lnkOf s q).planSeen then holdLink (portDie q) (16 + q % 6) 0x71 1 s else s) s

/-- PORT_OLD_PLAN_DRAINED: a port that holds no packet of the old plan carries those of the new one, and its pool grants slots again
(R85). -/
def oldDrained (port : Nat) (s : State) : State :=
  if portOld s port then s
  else
    grantNext port { s with pl := { s.pl with oldPorts := s.pl.oldPorts.filter (· ≠ port) } }

def execPortOldPlanDrained (port : Nat) (s : State) : Host.Outcome State Fault Refusal := .next (oldDrained port s)

end Sys2Proof.Machine
end

