-- ==== Sys2Proof/Machine/Firmware.lean ====
section
/-! DEFINITION. Firmware bundles and their checks, the firmware commands, the loads of an activation (16: R533 to R545). The end of the
pause is a boundary's (Boundary.lean). -/
namespace Sys2Proof.Machine

/-! ### The bundle (R537 to R539) -/

/-- A manifest entry. -/
structure PartEntry where
  typ : Nat
  level : Nat
  zero : Nat
  off : Nat
  size : Nat
  digest : List Byte
deriving DecidableEq, Repr

def maxBundle : Nat := 33554432

def partAt (m : List Byte) (i : Nat) : PartEntry :=
  { typ := field m (64 * i) 1, level := field m (64 * i + 1) 1, zero := field m (64 * i + 2) 2, off := field m (64 * i + 4) 4,
    size := field m (64 * i + 8) 4, digest := slice m (64 * i + 16) 48 }

/-- The header of the bundle at an offset of the staging memory; its PARTS, LENGTH and manifest. -/
def bundleHeader (s : State) (off : Nat) : List Byte := ramBytes s off 256
def bundleParts (h : List Byte) : Nat := field h 0x1C 2
def bundleLen (h : List Byte) : Nat := field h 0x18 4
def manifest (s : State) (off : Nat) : List PartEntry :=
  let n := bundleParts (bundleHeader s off)
  let m := ramBytes s (off + 256) (64 * n)
  (List.range n).map (partAt m)

/-- Two ranges share a byte. -/
def rangesMeet (a n b m : Nat) : Bool := decide (a < b + m) && decide (b < a + n) && decide (0 < n) && decide (0 < m)

def partTypes : List Nat := [0x01, 0x02, 0x03, 0x04, 0x10, 0x11]

/-- Each part after the signature and inside LENGTH, at a multiple of 64, of a defined type. -/
def partOk (len first : Nat) (p : PartEntry) : Bool :=
  decide (p.typ ∈ partTypes) && decide (p.zero = 0) && decide (p.off % 64 = 0) && decide (first ≤ p.off) && decide (p.off + p.size ≤ len)

/-- No two parts overlap. -/
def partsApart : List PartEntry → Bool
  | [] => true
  | p :: ps => ps.all (fun q => !rangesMeet p.off p.size q.off q.size) && partsApart ps

/-- The header's own checks of FW_FORMAT. -/
def headerOk (off : Nat) (h : List Byte) : Bool :=
  decide (field h 0 4 = 0x4C444E42) && decide (field h 4 2 = 1) && decide (field h 7 1 < 2) && allZero (slice h 0x15 3) &&
    decide (bundleLen h ≤ maxBundle) && decide (off + bundleLen h ≤ stagingBytes) && decide (6 ≤ bundleParts h) &&
    decide (bundleParts h ≤ 64) && decide (field h 0x1E 2 = 0) && allZero (slice h 0x40 192) &&
    (decide (field h 7 1 = 1) || allZero (slice h 0x20 32))

/-- The bytes the signature covers, and where the parts begin. -/
def signedLen (h : List Byte) : Nat := 256 + 64 * bundleParts h
def firstPart (h : List Byte) : Nat := signedLen h + 96

/-- FW_FORMAT passes. -/
def formatOk (s : State) (off : Nat) : Bool :=
  let h := bundleHeader s off
  headerOk off h && decide (firstPart h ≤ bundleLen h) && (manifest s off).all (partOk (bundleLen h) (firstPart h)) &&
    partsApart (manifest s off) && partTypes.all fun t => (manifest s off).any fun p => p.typ = t

/-- The signature verifies under the key named (R538). -/
def signatureOk (s : State) (off : Nat) : Bool :=
  let h := bundleHeader s off
  decide (field h 6 1 ≤ 3) &&
    Config.verify (field h 6 1) (sha384 (ramBytes s off (signedLen h))) (ramBytes s (off + signedLen h) 96)

/-- Each part's SHA-384 is its entry's. -/
def digestsOk (s : State) (off : Nat) : Bool :=
  (manifest s off).all fun p => sha384 (ramBytes s (off + p.off) p.size) = p.digest

/-- The Xadalin levels declared. -/
def levelsOk (s : State) (off : Nat) : Bool := (manifest s off).all fun p => p.level = if p.typ = 0x11 then xLevel else 0

/-- The first failing code of R539, or 0. -/
def checkBundle (s : State) (off : Nat) : Nat :=
  let h := bundleHeader s off
  if !formatOk s off then 0x98
  else if field h 8 4 ≠ 0x6480 ∨ !(field h 0x0C 4).testBit (Config.stepping 0).toNat then 0x99
  else if !signatureOk s off then 0x9A
  else if !digestsOk s off then 0x9B
  else if !levelsOk s off then 0x9C
  else if field h 7 1 = 1 ∧ (allZero s.kp.unitHash ∨ s.kp.unitHash ≠ slice h 0x20 32) then 0x9D
  else if field h 0x14 1 < s.kp.rollback then 0x9E
  else 0

/-! ### Commands (R540 to R543) -/

/-- The staging offset FW_OFFSET names. -/
def fwOffset (s : State) : Nat := (reg s 0 0x724 0x108).toNat

/-- Back to IDLE with a code; the bundle's range is no longer locked (R530). -/
def fwIdle (code : Nat) (s : State) : State := fwDone code .idle { s with fw := { s.fw with lockLen := 0 } }

/-- A command that its state does not allow completes with FW_STATE and changes nothing else (R542). -/
def fwWrong (s : State) : State := fwDone 0x9F s.fw.st s

/-- CHECK: the bundle is locked while it is read. -/
def fwCheck (s : State) : State :=
  if s.fw.st = .idle then
    let off := fwOffset s
    fwState .checking { s with fw := { s.fw with lockAt := off, lockLen := max 256 (min (bundleLen (bundleHeader s off)) maxBundle) } }
  else fwWrong s

/-- The end of CHECK: what the bundle declares is kept for PROGRAM and ACTIVATE. -/
def fwChecked (s : State) : State :=
  if s.fw.st = .checking then
    let c := checkBundle s s.fw.lockAt
    let h := bundleHeader s s.fw.lockAt
    if c ≠ 0 then fwIdle c s
    else fwDone 0 .checked { s with fw := { s.fw with newRb := field h 0x14 1, newEpoch := field h 0x10 4 } }
  else s

/-- The slot that is not active; slot 0 where neither holds a set. -/
def inactiveSlot (s : State) : Nat := if activeSlot s = some 0 then 1 else 0

/-- PROGRAM: the inactive slot's VALID is cleared first (R540). -/
def fwProgram (s : State) : State :=
  if s.fw.st = .checked then
    let i := inactiveSlot s
    let s := setFwSlot i {} s
    fwState .programming { s with fw := { s.fw with newSlot := i } }
  else fwWrong s

/-- The end of PROGRAM, by the read-back. -/
def fwProgrammed (ok : Bool) (s : State) : State :=
  if s.fw.st = .programming then
    if ok then
      fwDone 0 .ready (setFwSlot s.fw.newSlot { valid := true, rb := s.fw.newRb, epoch := s.fw.newEpoch, actSeq := 0 } s)
    else fwIdle 0xA2 s
  else s

/-- The new slot's ACT_SEQ is the old one's plus 1. -/
def takeSlot_ (s : State) : State :=
  let i := s.fw.newSlot
  let old := if (fwSlot s (1 - i)).valid then (fwSlot s (1 - i)).actSeq else 0
  setFwSlot i { fwSlot s i with actSeq := old + 1 } s

/-- ACTIVATE: in recovery the FMC restarts from the programmed slot (R542); else P must lie beyond the next Press (R543). -/
def fwActivate (s : State) : State :=
  if s.fw.st ≠ .ready ∨ s.pl.next.isSome then fwWrong s
  else if s.fw.recovery then startFrom s.fw.newSlot false (fwIdle 0 (takeSlot_ s))
  else
    let p := (reg64 s 0 0x724 0x110).toNat
    if p ≤ pkgPress s + 1 then fwDone 0xA0 .ready s
    else fwState .armed { s with fw := { s.fw with actPress := p } }

/-- CANCEL. -/
def fwCancel (s : State) : State :=
  match s.fw.st with
  | .idle | .pause => fwWrong s
  | _ => fwIdle 0 s

/-- BIND (R541). -/
def fwBind (s : State) : State :=
  if s.fw.st ≠ .idle then fwWrong s
  else if allZero s.kp.unitHash then
    fwDone 0 .idle { s with kp := { s.kp with unitHash := ramBytes s (fwOffset s) 32 } }
  else fwDone 0x9D .idle s

/-- FW_CMD written with GO = 1: in recovery only CHECK, PROGRAM and ACTIVATE are served (R534); other OP values are reserved. -/
def fwCmd (v : Word) (s : State) : State :=
  if !v.toNat.testBit 31 then s
  else match wbits v 30 28 with
  | 1 => fwCheck s
  | 2 => fwProgram s
  | 3 => fwActivate s
  | 4 => if s.fw.recovery then s else fwCancel s
  | 5 => if s.fw.recovery then s else fwBind s
  | _ => badWrite 0 0x724 s

/-! ### The loads of an activation (R545) -/

/-- Every Class A part is loaded: the activation takes effect. -/
def actLoaded (s : State) : State :=
  if s.fw.st = .pause ∧ !s.fw.loaded then
    let s := takeSlot_ { s with fw := { s.fw with loaded := true } }
    { s with kp := { s.kp with rollback := max s.kp.rollback (fwSlot s s.fw.newSlot).rb } }
  else s

/-- A load fails or is incomplete: the old set is restored, the activation completes with FW_ACT_FAILED. -/
def actFailed (s : State) : State := if s.fw.st = .pause ∧ !s.fw.loaded then fwIdle 0xA1 s else s

def execFwCheckDone (s : State) : Host.Outcome State Fault Refusal := .next (fwChecked s)
def execFwProgramDone (readBackOk : Bool) (s : State) : Host.Outcome State Fault Refusal := .next (fwProgrammed readBackOk s)
def execActivationLoadDone (s : State) : Host.Outcome State Fault Refusal := .next (actLoaded s)
def execActivationLoadTimeout (s : State) : Host.Outcome State Fault Refusal := .next (actFailed s)

end Sys2Proof.Machine
end

