-- ==== Sys2Proof/Machine/Commits.lean ====
section
/-! DEFINITION. Shadow commits (02: R48 to R54): requests, their judgement, and a commit taking effect with what it does to
the units of the page (R158, R164 to R166, R179, R183, R290, R307, R309, R370, R385, R392). -/
namespace Sys2Proof.Machine

/-! ### What a commit changes -/

/-- The page whose registers a shadow entry goes to: one bank of member slots serves a die (R353). -/
def homePage (die page off : Nat) : Nat :=
  if kindOf die page = .seam2 ∧ off = 0x104 then seamPage 0 2 else page

/-- A queue's configuration as a commit takes it (R370): never ordered with CQ, nor with more than 16,384 entries. -/
def orderedBad (w : Word) : Bool :=
  w.toNat.testBit 30 && (w.toNat.testBit 29 || decide (wbits w 28 24 = 15) || decide (wbits w 28 24 = 16))
def fixQueueCfg (w : Word) : Word := if orderedBad w then w32 (w.toNat - 2 ^ 30) else w

/-- The uncommitted shadow values of a page: offset, entry, value. -/
def pageShadow (s : State) (die page : Nat) : List (Nat × Nat × Word) :=
  (s.rg.shadow.filter fun e => e.1 / 16384 / 4096 = pk die page).map fun e =>
    (e.1 / 16384 % 4096, e.1 % 16384, (look? s.rg.shadow e.1).getD e.2)

/-- The value a commit puts into effect. -/
def committed (k : PageKind) (e : Nat × Nat × Word) : Nat × Nat × Word :=
  if k = .cip ∧ e.1 = 0x114 then (e.1, e.2.1, fixQueueCfg e.2.2) else e

/-- The shadow values of a page in effect; the shadow holds nothing more of it (R48). -/
def applyShadow (die page : Nat) (s : State) : State :=
  let es := (pageShadow s die page).map (committed (kindOf die page))
  let s := forEach es (fun e s => setReg die (homePage die page e.1) e.1 e.2.1 e.2.2 s) s
  { s with rg := { s.rg with shadow := keep (fun x => x / 16384 / 4096 ≠ pk die page) s.rg.shadow } }

/-- The entries a commit changes: offset and entry. -/
def commitChanges (s : State) (die page : Nat) : List (Nat × Nat) :=
  (((pageShadow s die page).map (committed (kindOf die page))).filter fun e =>
    reg s die (homePage die page e.1) e.1 e.2.1 ≠ e.2.2).map fun e => (e.1, e.2.1)

/-- The entries changed at some of the offsets. -/
def changedAt (ch : List (Nat × Nat)) (offs : List Nat) : List Nat :=
  ((ch.filter fun e => decide (e.1 ∈ offs)).map (·.2)).eraseDups

/-! ### Arbiters (R164 to R166) -/

/-- An arbiter of a page by its key. -/
def arbOfPage (die t : Nat) (k : PageKind) (key : Nat) : Bool :=
  match k with
  | .tile0 => decide (key ≥ 2 ^ 32) && decide ((key - 2 ^ 32) / 1024 = tk die t)
  | _ => decide (key < 2 ^ 32) && decide (key / 128 = tk die t)

/-- A change of STARVE_N restarts the count; one of TWO_LEVEL also the ranks and previous winners. -/
def restartArb (two : Bool) (a : Arb) : Arb :=
  if two then { a with count := 0, order := [], prev := [0, 0, 0, 0] } else { a with count := 0 }

def restartArbs (die t : Nat) (k : PageKind) (two : Bool) (s : State) : State :=
  let f (e : Nat × Arb) : Nat × Arb := if arbOfPage die t k e.1 then (e.1, restartArb two e.2) else e
  { s with nt := { s.nt with arbs := s.nt.arbs.map f } }

/-- The arbiters of a page after a commit, from ARB_MODE before and after. -/
def commitArbs (old new : Word) (die t : Nat) (k : PageKind) (s : State) : State :=
  let two := decide (wbits old 0 0 ≠ wbits new 0 0)
  if two ∨ wbits old 15 8 ≠ wbits new 15 8 then restartArbs die t k two s else s

/-! ### Shapers and gates (R179, R183) -/

def commitShapers (die t : Nat) (ch : List (Nat × Nat)) (s : State) : State :=
  let s := forEach (changedAt ch [0x104, 0x108]) (fun c s => resetTok (ctxNodeKey die t c) (ctxNode s die t c) s) s
  let s := forEach (changedAt ch [0x124, 0x128]) (fun x s =>
    resetTok (nodeKey die t (x / 16) (x % 16)) (portNode s die t (x / 16) (x % 16)) s) s
  let lists := ((changedAt ch [0x134]).map (· / 16)).eraseDups
  forEach (lists.filter fun x => x / 16 < 4 && x % 16 < 6) (fun x s => checkGateList die t (x / 16) (x % 16) s) s

/-! ### Queues and rings (R392) -/

/-- A waiter of a queue that is now disabled. -/
def denyWaiter (die n : Nat) (w : Waiter) (s : State) : State :=
  match w with
  | .credit p => replyStatus die n 10 p 0x5D s
  | .localResv st _ => endStream die n st 0x5D [] s

/-- A queue restarts empty; its waiters stay, or are denied where it is disabled. `held` is what a switch to unordered delivery at a
boundary leaves to step 4 (R106). -/
def restartQueue (die n q : Nat) (held : List QEntry) (s : State) : State :=
  let x := queueOf s die n q
  let s := cipCountN die n 6 (x.visible.length + x.held.length - held.length) s
  let on := (qcfg s die n q).en
  let s := modQueue die n q (fun x => { waiters := if on then x.waiters else [], held := held, stallFrom := x.stallFrom }) s
  if on then s else forEach x.waiters (fun w s => denyWaiter die n w s) s

/-- A ring restarts; its waiting reservations are denied. -/
def restartRing (die n r : Nat) (s : State) : State :=
  let x := ringOf s die n r
  forEach x.waiting (fun p s => replyStatus die n 10 p 0x5D s) (modRing die n r (fun _ => {}) s)

/-- A commit at a boundary that changes nothing of a queue but ORDERED from 1 to 0 restarts the queue (R392) and leaves its held
entries to step 4 (R106; DEDUCED, log 70). -/
def unordersOnly (old : State) (die page q : Nat) (ch : List (Nat × Nat)) (s : State) : Bool :=
  let w := reg old die page 0x114 q
  w.toNat.testBit 30 && decide (reg s die page 0x114 q = w - w32 (2 ^ 30)) && decide (q ∉ changedAt ch [0x118, 0x11C]) &&
    (match (pageOf old die page).commit with | .nextBoundary | .scheduled _ => true | _ => false)

def commitCip (old : State) (die page n : Nat) (bad : Bool) (ch : List (Nat × Nat)) (s : State) : State :=
  let s := doIf bad (badWrite die page) s
  let s := forEach (changedAt ch [0x114, 0x118, 0x11C]) (fun q s =>
    restartQueue die n q (if unordersOnly old die page q ch s then (queueOf s die n q).held else []) s) s
  let s := forEach (changedAt ch [0x144, 0x148, 0x14C]) (fun r s => restartRing die n r s) s
  settleTile die n s

/-! ### Baskets (R385) -/

/-- One basket after a commit of its page: `old` is the state before. -/
def commitBasket (old : State) (die page n b : Nat) (s : State) : State :=
  let w0 := bskCfg old die n b
  let w := bskCfg s die n b
  let s := doIf (w.toNat.testBit 31 && !bskBound s die n b) (badWrite die page) s
  if bskBound old die n b ∧ (!bskBound s die n b ∨ w ≠ w0 ∨ bskXctl s die n b ≠ bskXctl old die n b)
  then unbindBasket die n b (bskQueue w0) s else s

def commitBaskets (old : State) (die page n : Nat) (s : State) : State :=
  let s := forEach (List.range 64) (fun b s => commitBasket old die page n b s) s
  settleTile die n s

/-! ### Seam groups (R307, R309) -/

/-- The entry of group g as the commit leaves it, and its open seams aborted. -/
def commitGroup (g : Nat) (s : State) : State :=
  let die := homeDie g
  let pg := seamPage (homeEng g) 0
  let others := s.se.badGroups.filter (· ≠ g)
  let s := if groupBad s g then
      setReg die pg 0x104 0 (reg s die pg 0x104 ||| w32 (2 ^ 31)) { s with se := { s.se with badGroups := others ++ [g] } }
    else { s with se := { s.se with badGroups := others } }
  groupChanged g s

/-- The groups homed on a die whose range of slots has slot i. -/
def groupsOfSlot (s : State) (die i : Nat) : List Nat :=
  ((s.rg.eff.filter fun e => e.1 / 16384 / 4096 / 4096 = die && e.1 / 16384 % 4096 = 0x114 &&
      decide (e.1 / 16384 / 4096 % 4096 ∈ [0x601, 0x611, 0x621, 0x631])).map fun e => e.1 % 16384).filter fun g =>
    homeDie g = die && decide (gBase s g ≤ i) && decide (i < gBase s g + gLocal s g)

def commitSlots (die : Nat) (ch : List (Nat × Nat)) (s : State) : State :=
  let gs := ((changedAt ch [0x104]).flatMap (groupsOfSlot s die)).eraseDups
  forEach gs (fun g s => groupChanged g s) s

/-! ### A commit taking effect -/

/-- A PS_LOAD of the page's tile is in progress. -/
def psLoading (s : State) (die page : Nat) : Bool :=
  kindOf die page = .drn && (match pageTile s die page with | some n => (drnTile s die n).load.isSome | none => false)

/-- What a commit does to the page's unit; `old` is the state before, `ch` what changed. -/
def commitUnit (old : State) (die page : Nat) (ch : List (Nat × Nat)) (s : State) : State :=
  let t := (page - 0x100) / 8
  let k := kindOf die page
  let arbs (s : State) : State := commitArbs (reg old die page 0x48) (reg s die page 0x48) die t k s
  match k with
  | .tile0 => arbs s
  | .tile1 =>
    { s with nt := { s.nt with reloaded := s.nt.reloaded.filter fun x => decide (x / 16384 / 4096 ≠ pk die page) } }
  | .tile2 => commitShapers die t ch (arbs s)
  | .tile3 => match logTile s die t with | some n => mpRefuse die n s | none => s
  | .cip =>
    match logTile s die t with
    | some n => commitCip old die page n ((pageShadow old die page).any fun e => e.1 = 0x114 && orderedBad e.2.2) ch s
    | none => s
  | .drn => match logTile s die t with
    | some n => if changedAt ch [0x184] ≠ [] then unstealLate die n s else s
    | none => s
  | .bsk => match logTile s die t with | some n => commitBaskets old die page n s | none => s
  | .seam1 => forEach (changedAt ch ((List.range 12).map fun w => 0x110 + 4 * w)) (fun g s => commitGroup g s) s
  | .seam2 => commitSlots die ch s
  | _ => s

/-- A commit that is due takes effect, or is refused whole while a PS_LOAD is in progress (R290). -/
def takeCommit (die page : Nat) (s : State) : State :=
  if psLoading s die page then
    setReg die page 0x180 0 (reg s die page 0x180 ||| w32 128) (modPage die page (fun p => { p with commit := .none }) s)
  else
    let ch := commitChanges s die page
    let s' := modPage die page (fun p => { p with commit := .none, count := p.count + 1 }) (applyShadow die page s)
    commitUnit s die page ch s'

/-! ### Requests (R49 to R53) -/

/-- COMMIT_PRESS of a page. -/
def commitPress (s : State) (die page : Nat) : Nat := (reg64 s die page 0x50).toNat

/-- A request with COMMIT = 1 and no CANCEL: WHEN 0 immediate, 1 next boundary, 2 at COMMIT_PRESS. The Press a scheduled commit
goes by is COMMIT_PRESS as the request finds it: a later write of the register does not move it (the manual is silent: DESIGN
CHOICE, log 127). -/
def commitRequest (die page when_ : Nat) (s : State) : State :=
  let set (c : CommitReq) (s : State) : State := modPage die page (fun p => { p with commit := c }) s
  if (pageOf s die page).commit ≠ .none then modPage die page (fun p => { p with overrun := true }) s
  else if when_ = 0 ∧ !pressOnly (kindOf die page) then set .immediate s
  else if when_ < 2 then set .nextBoundary s
  else
    let p := commitPress s die page
    if !running s die then set (.heldScheduled p) s
    else if p ≤ pressOf s die then modPage die page (fun p => { p with late := true }) s
    else set (.scheduled p) s

/-- A write of SHADOW_COMMIT. -/
def shadowCommit (die page : Nat) (v : Word) (s : State) : State :=
  if wbits v 2 1 = 3 then badWrite die page s
  else if v.toNat.testBit 3 then modPage die page (fun p => { p with commit := .none }) s
  else if v.toNat.testBit 0 then commitRequest die page (wbits v 2 1) s
  else s

/-- A commit held while the unit was not in RUN, judged against the number the unit takes (R51). -/
def judgePage (n : Nat) (p : Page) : Page :=
  match p.commit with
  | .heldScheduled q => if q > n then { p with commit := .scheduled q } else { p with commit := .none, late := true }
  | _ => p

/-- The unit of a die enters RUN: its held commits are judged. -/
def judge (die : Nat) (s : State) : State :=
  let ks := (s.rg.pages.filter fun e => e.1 / 4096 = die).map (·.1)
  forEach ks (fun k s => modPage die (k % 4096) (judgePage (pressOf s die)) s) s

/-- A commit of a page is due at the boundary that begins Press n. A scheduled one whose Press passed while its unit was out of
RUN is due at the first boundary after (the manual is silent: DESIGN CHOICE, log 127). -/
def commitDue (n : Nat) (p : Page) : Bool :=
  match p.commit with | .nextBoundary => true | .scheduled q => decide (q ≤ n) | _ => false

/-- Step 2: the commits due on the dies that act, in ascending page number (R50, R105). -/
def commitsStep2 (acts : Nat → Bool) (n : Nat) (s : State) : State :=
  let ks := (s.rg.pages.filter fun e => acts (e.1 / 4096) && commitDue n e.2).map (·.1)
  let ks := sortBy (fun a b => decide (a % 4096 < b % 4096)) ks
  forEach ks (fun k s => takeCommit (k / 4096) (k % 4096) s) s

/-- No transfer that an arbiter of the page has granted is in progress (R49). -/
def pageIdle (s : State) (die page : Nat) : Bool :=
  let k := kindOf die page
  let t := (page - 0x100) / 8
  !(decide (k = .tile0) || decide (k = .tile2)) ||
    s.nt.arbs.all fun e => !arbOfPage die t k e.1 || decide (e.2.endAt ≤ s.tm.fclk)

/-- The immediate commit pending on a page takes effect where nothing is in progress on the page's arbiters; otherwise it goes on
waiting (R49). -/
def immediateCommit (die page : Nat) (s : State) : State :=
  match (pageOf s die page).commit with
  | .immediate => if pageIdle s die page then takeCommit die page s else s
  | _ => s

def execImmediateCommitTakesEffect (die page : Nat) (s : State) : Host.Outcome State Fault Refusal := .next (immediateCommit die page s)

end Sys2Proof.Machine
end

