-- ==== Sys2Proof/Machine/Press.lean ====
section
/-! DEFINITION. The Press units (04): rack epoch commands, the target boundary, the loss of the reference, Press markers and the
transfer of a number (R91 to R98, R578, R579); the lock mode of a port (R111) and the edges of gate windows (R182). -/
namespace Sys2Proof.Machine

/-! ### Rack epoch commands -/

/-- The fields of a valid frame (R91). -/
structure EpochFrame where
  follow : Bool
  start : Nat
  period : Nat
  delay : Nat
deriving DecidableEq, Repr

/-- PERIOD_REF in range (R87), DELAY in range (R91). -/
def periodOk (p : Nat) : Bool := decide (315 ≤ p) && decide (p ≤ 156250) && decide (p % 5 = 0)
def delayOk (d : Nat) : Bool := decide (320 ≤ d) && decide (d ≤ 1048575) && decide (d % 5 = 0)

/-- The frame read, if every check of R91 on its bits holds. -/
def parseEpoch (f : List Byte) : Option EpochFrame :=
  let period := field f 10 3
  let delay := field f 13 3
  if f.length = 18 ∧ field f 0 1 = 0xD5 ∧ field f 1 1 / 2 = 8 ∧ periodOk period ∧ delayOk delay ∧ crc16 (slice f 1 15) = field f 16 2
  then some { follow := field f 1 1 % 2 = 1, start := field f 2 8, period := period, delay := delay }
  else none

/-- A bridge module of the die that is UP carries markers from a neighbour in RUN (R578). -/
def runningNeighbour (s : State) (die : Nat) : Bool :=
  (List.range 4).any fun b => running s (bridgePeer die b) && (List.range 4).any fun m => (modOf s die b m).st = .up

/-- The target boundary agrees with the boundaries a unit counts (R94, R578). -/
def boundaryAgrees (u : PressUnit) (target period : Nat) : Bool :=
  decide (period = u.period) && decide (u.start < target) && decide ((target - u.start) % pressCycles u.period = 0)

/-- The number of the Press that begins at a boundary of the unit. -/
def numberAt (u : PressUnit) (target : Nat) : Nat := u.press + (target - u.start) / pressCycles u.period

/-- A valid command acts by the state of the unit (R93, R94, R578). -/
def epochActs (die : Nat) (f : EpochFrame) (s : State) : State :=
  let u := unitOf s die
  let target := s.tm.fclk + f.delay / 5 * 64
  let confirm : State → State := modUnit die fun u => { u with epochCount := u.epochCount + 1 }
  match u.st with
  | .unset =>
    if runningNeighbour s die then s
    else modUnit die (fun u => { u with cmd := some { target := target, start := f.start, period := f.period, follow := f.follow } }) s
  | .armed => if boundaryAgrees u target f.period then confirm s else raisePrs die 0 none 0 s
  | .run =>
    if boundaryAgrees u target f.period ∧ f.start = numberAt u target then confirm s else raisePrs die 0 none 0 s

/-- EPOCH_COMMAND: bits that follow no 16 cycles of 0 are no frame; an invalid frame raises EPOCH_CRC (R91). -/
def epochCommand (die : Nat) (frame : List Byte) (before after : Bool) (s : State) : State :=
  if s.tm.porLow ∨ notInService s die ∨ !before then s
  else match parseEpoch frame with
  | some f => if after then epochActs die f s else raisePrs die 3 none 0 s
  | none => raisePrs die 3 none 0 s

/-- The unit enters RUN with a number and the start of the Press in progress; its held commits are judged (R51). -/
def enterRun (die press period start : Nat) (followed : Bool) (s : State) : State :=
  judge die (modUnit die (fun u => { u with
    st := .run, press := press, period := period, start := start, followed := followed, cmd := none }) s)

/-- EPOCH_TARGET_BOUNDARY: the target boundary fixed by a pending command comes (R93). -/
def epochTarget (die : Nat) (s : State) : State :=
  match (unitOf s die).cmd with
  | none => s
  | some c =>
    let s := advanceTo c.target s
    if c.follow then
      modUnit die (fun u => { u with st := .armed, period := c.period, start := c.target, followed := false, cmd := none }) s
    else enterRun die c.start c.period c.target false s

/-! ### Loss of the reference (R95, R579) -/

/-- What a loss in RUN or ARMED takes from the die. -/
def lossEffects (die : Nat) (s : State) : State :=
  let s := if dieType die = .compute then
      forEach (List.range (nTiles die)) (fun n s => failStreams die n (fun _ => true) 0x88 s) s else s
  loseRuntime loseTileRuntime die (failSeamsAt die none 0x88 s)

/-- PRESS_LOST: once for each loss. In UNSET a pending command stays (the manual is silent: DESIGN CHOICE, log 129). -/
def pressLost (die : Nat) (s : State) : State :=
  let u := unitOf s die
  if u.lost ∨ s.tm.porLow then s
  else
    let s := raisePrs die 2 none 0 s
    if u.st = .unset then modUnit die (fun u => { u with lost := true }) s
    else lossEffects die (modUnit die (fun u => { lost := true, epochCount := u.epochCount, phases := u.phases }) s)

/-! ### Press markers (R96 to R98) -/

/-- A count of FCLK cycles in reference cycles, rounded down. -/
def refOfCycles (c : Nat) : Nat := c * 5 / 64

/-- The translated remote boundary in reference cycles: LAG FCLK cycles before the arrival (R428), less the link latency (R96). -/
def remoteBoundary (s : State) (die link lag : Nat) : Int :=
  (refOfCycles (s.tm.fclk - lag) : Int) - ((linkOf s die link).lat : Int)

/-- The local boundary nearest to a translated one: Presses from the boundary that began the Press in progress (−1, 0 or 1), and the
phase. -/
def nearest (start period : Nat) (t : Int) : Int × Int :=
  let d := t - (refOfCycles start : Int)
  let p : Int := period
  if 2 * d > p then (1, d - p) else if 2 * d < -p then (-1, d + p) else (0, d)

/-- A marker of a link's die may give a number (R97). -/
def mayFollow (s : State) (die link : Nat) : Bool :=
  isMod link || (isSundi die link && (reg s die 0 0x100).toNat.testBit 0)

/-- The key of a link's phase: its bridge, or the link itself for a Sundi port. -/
def phaseKey (link : Nat) : Nat := if isMod link then link / 4 else link

/-- The phase of a link, checked against the limit in effect (R98). -/
def setPhase (die link : Nat) (ph : Int) (s : State) : State :=
  let s := modUnit die (fun u => { u with phases := put 0 u.phases (phaseKey link) ph }) s
  let s := modLink die link (fun l => { l with markerOk := true }) s
  if ph.natAbs > phaseLimit s die then raisePrs die 1 none (w32 link) s else s

/-- A marker that disagrees: PRESS_MISMATCH, and the port goes to HOLD until its next training (R96). -/
def markerMismatch (die link : Nat) (s : State) : State :=
  raisePrs die 0 none (w32 link) (modLink die link (fun l => { l with
    st := .hold, cause := 0x18, since := if l.st = .up then waitPress s die else l.since }) s)

/-- A number moved by Presses. -/
def shiftPress (n : Nat) (k : Int) : Nat := (Int.toNat ((n : Int) + k))

/-- A unit takes its number from a marker of a link; `phase`: its phase too. -/
def takeRun (die link : Nat) (phase : Bool) (press period start : Nat) (s : State) : State :=
  modUnit die (fun u => { u with took := some (link, s.tm.fclk, phase) }) (enterRun die press period start true s)

/-- A unit in UNSET takes number and phase: the translated boundary, rounded to the nearest multiple of 5 reference cycles (R97). -/
def takePhase (die link press period : Nat) (t : Int) (s : State) : State :=
  let r := (t.toNat + 2) / 5 * 5
  setPhase die link (t - (r : Int)) (takeRun die link true press period (r / 5 * 64) s)

/-- Of the markers that Sundi ports bring in one cycle the one of the lowest port counts (R97). -/
def lowerPort (s : State) (die link : Nat) : Option Bool :=
  match (unitOf s die).took with
  | some (q, c, phase) => if c = s.tm.fclk ∧ 16 ≤ link ∧ link < q ∧ mayFollow s die link = true then some phase else none
  | none => none

/-- MARKER from a sender in RUN, by the state of the unit. -/
def markerRuns (die link press period lag : Nat) (s : State) : State :=
  let u := unitOf s die
  let t := remoteBoundary s die link lag
  match u.st with
  | .run =>
    let rp := nearest u.start u.period t
    let k := rp.1
    let ph := rp.2
    match lowerPort s die link with
    | some true => if periodOk period then takePhase die link press period t s else s
    | some false =>
      if period ≠ u.period then markerMismatch die link s
      else setPhase die link ph (takeRun die link false (shiftPress press (-k)) period u.start s)
    | none => if period = u.period ∧ shiftPress u.press k = press then setPhase die link ph s else markerMismatch die link s
  | .armed =>
    let rp := nearest u.start u.period t
    let k := rp.1
    let ph := rp.2
    if period ≠ u.period then markerMismatch die link s
    else if mayFollow s die link then setPhase die link ph (takeRun die link false (shiftPress press (-k)) period u.start s)
    else setPhase die link ph s
  | .unset => if mayFollow s die link && periodOk period then takePhase die link press period t s else s

/-- MARKER: one of a sender not in RUN carries no number and is not compared (DEDUCED, log 75). -/
def markerArrive (die link : Nat) (st : PressState) (press period lag : Nat) (s : State) : State :=
  let l := linkOf s die link
  if !isLink die link ∨ (l.st ≠ .up ∧ l.st ≠ .ready) ∨ st ≠ .run ∨ s.tm.porLow then s
  else markerRuns die link press period lag s

/-! ### Plane lock at a port (R111) -/

/-- A port holds a flit of P0 or P1: in an input buffer, or as an injection port's queue. -/
def holdsLocked (s : State) (die t port : Nat) : Bool :=
  s.nt.bufs.any (fun e => e.1 / 1024 = tk die t && decide (e.1 / 64 % 16 = port) && decide (e.1 / 16 % 4 < 2))

/-- PORT_LOCK_MODE_CHANGE: a port that holds no P0 or P1 flit takes the lock state in effect. -/
def portLockChange (die t port : Nat) (s : State) : State :=
  if holdsLocked s die t port then s
  else { s with nt := { s.nt with lockMode := put false s.nt.lockMode (lockKey die t port) s.tm.lockNow } }

/-! ### Gate window edges (R182) -/

/-- The cycles at which a class's windows open, enter their hem or close. -/
def gateEdges (s : State) (die t n port cls : Nat) : List Nat :=
  match gateWins s die t (nodePort port) cls with
  | none => []
  | some ws => ws.flatMap fun w => [w.1, w.2 - hemOf s die t n port cls, w.2]

/-- GATE_WINDOW_EDGE: the clock reaches an edge of a class's windows; what the gate permits follows from the cycle (gateSays). -/
def gateEdge (die t port cls cycle : Nat) (s : State) : State :=
  match logTile s die t with
  | none => s
  | some n =>
    if running s die && decide (cycle ∈ gateEdges s die t n port cls) then advanceTo ((unitOf s die).start + cycle) s else s

def execEpochCommand (die : Nat) (frame : List Byte) (idleBefore idleAfter : Bool) (s : State) : Host.Outcome State Fault Refusal :=
  .next (epochCommand die frame idleBefore idleAfter s)
def execEpochTargetBoundary (die : Nat) (s : State) : Host.Outcome State Fault Refusal := .next (epochTarget die s)
def execPressLost (die : Nat) (s : State) : Host.Outcome State Fault Refusal := .next (pressLost die s)
def execReferenceEdgesResumed (die : Nat) (s : State) : Host.Outcome State Fault Refusal :=
  .next (modUnit die (fun u => { u with lost := false }) s)
def execMarker (die link : Nat) (st : PressState) (press : DWord) (period lag : Nat) (s : State) :
    Host.Outcome State Fault Refusal := .next (markerArrive die link st press.toNat period lag s)
def execPortLockModeChange (die tile port : Nat) (s : State) : Host.Outcome State Fault Refusal := .next (portLockChange die tile port s)
def execGateWindowEdge (die tile port cls cycle : Nat) (s : State) : Host.Outcome State Fault Refusal :=
  .next (gateEdge die tile port cls cycle s)

end Sys2Proof.Machine
end

