-- ==== Sys2Proof/Machine/Pair.lean ====
section
/-! DEFINITION. Lockstep pairs (12: R413 to R424): the deltas of the primary, what a following mirror takes from them, divergences,
misses and promotion. -/
namespace Sys2Proof.Machine

/-- A following mirror; PAIR_LAG_LIMIT and LOG_MIRROR of PAIR_CFG. -/
def following (s : State) : Bool := s.pr.following
def lagLimit (s : State) : Nat := wbits s.kp.pairCfg 15 8
def pairCount (k : Nat) : State → State := addCount 0 0x722 k 1

/-! ### Divergences (R417) -/

/-- PAIR_DIVERGE with a cause: the first one is recorded, all are counted. -/
def diverge (cause ctx n : Nat) (s : State) : State :=
  let first := !s.pr.divValid
  let s := pairCount 2 (raise 0 0x722 0 (if ctx < 2048 then some ctx else none) (w32 cause) s)
  { s with pr := { s.pr with
    divValid := true, divCause := if first then cause else s.pr.divCause, divCtx := if first then ctx % 2048 else s.pr.divCtx,
    divPress := if first then n else s.pr.divPress, divCount := s.pr.divCount + 1 } }

/-- No context is named. -/
def noCtx : Nat := 2048

/-! ### Deltas of the primary (R414, R416) -/

/-- A TALLY entry. -/
def evTally (c entered : Nat) (tally : List Byte) : List Byte :=
  [5, 0] ++ leBytes 2 c ++ leBytes 4 entered ++ List.replicate 8 0 ++ padTo 32 tally

/-- The entries counted by every chain. -/
def chainCounts (s : State) : List (Nat × Nat) := s.ty.chains.map fun e => (e.1, e.2.count.toNat)

/-- The TALLY entries of a boundary, from the counts before it. -/
def talliesSince (before : List (Nat × Nat)) (s : State) : List (List Byte) :=
  (s.ty.chains.filterMap fun e =>
    let was := match before.find? fun b => b.1 = e.1 with | some b => b.2 | none => 0
    let k := (e.2.count.toNat + 2 ^ 32 - was) % 2 ^ 32
    if k = 0 ∨ e.2.count.toNat < was then none else some (evTally e.1 k e.2.tally))

/-- The primary's delta of the boundary that ended Press n is complete. -/
def closeDelta (n : Nat) (before : List (Nat × Nat)) (s : State) : State :=
  if isPrimary s then
    { s with pr := { s.pr with pendingDelta := s.pr.pendingDelta ++ [(n, s.pr.events ++ talliesSince before s)], events := [],
                               base := some (s.pr.base.getD n) } }
  else { s with pr := { s.pr with events := [] } }

/-- LOG_MARK of the package (R416). -/
def pkgLogMark (s : State) : Nat := (memDies.map (logMark s)).foldl min (pkgPress s - 1)

/-- The bytes of a delta. -/
def deltaBytes (s : State) (n : Nat) (entries : List (List Byte)) : List Byte :=
  leBytes 4 0x52494150 ++ leBytes 2 1 ++ leBytes 2 entries.length ++ leBytes 8 n ++ leBytes 8 (pkgLogMark s) ++ leBytes 4 (fwEpoch s) ++
    leBytes 1 xLevel ++ [0, 0, 0] ++ entries.flatMap (padTo 48)

/-! ### The mirror ports (R450) -/

/-- A MGMT request of the pair protocol on VC0, from the I/O die of a mirror port; DEST has no use there and is 0, SRC_TILE is that of a
die-level unit (R116; DESIGN CHOICE, log 81). -/
def pairPacket (s : State) (port op idx flags : Nat) (operand : DWord) (bytes : List Byte) : Packet :=
  { cls := .mgmt, opcode := BitVec.ofNat 8 op, srcPkg := pkgNo s, srcDie := portDie port, srcTile := 0xFF,
    sseq := BitVec.ofNat 16 idx, flags := BitVec.ofNat 8 flags, operand := operand, len := ceilDiv bytes.length 16, payload := bytes,
    why := List.replicate (ceilDiv bytes.length 16) 0 }

/-- PAIR_ACK: LEN 1; the flit holds n and the divergence count, 8 bytes each (its layout is not in the manual: DESIGN CHOICE, log 81). -/
def ackPacket (s : State) (port n : Nat) : Packet := pairPacket s port 0x62 0 0 0 (leBytes 8 n ++ leBytes 8 s.pr.divCount)

/-- The fragments of delta n: 128 bytes each, FLAGS[0] in the last, OPERAND n, SSEQ the index. -/
def deltaPackets (s : State) (port n : Nat) (bytes : List Byte) : List Packet :=
  let k := ceilDiv bytes.length 128
  (chunk 128 k bytes).zipIdx.map fun e => pairPacket s port 0x61 e.2 (b2n (decide (e.2 + 1 = k))) (w64 n) e.1

/-- Packets of the pair protocol leave by a mirror port that is UP; the manual gives them no credits, and none are taken (log 81). In the
safe state and in the activation pause nothing leaves (R429). -/
def mirrorSend (port : Nat) (ps : List Packet) (s : State) : State :=
  let l := lnkOf s port
  let die := portDie port
  if l.st = .up ∧ l.planSeen ∧ !l.lost ∧ !isSafe s die ∧ !s.fw.inPause then
    forEach ps (fun p s => addCount die (cntPage (16 + port % 6)) 0 (pktUnits p) (sendPacket die (16 + port % 6) p s)) s
  else s

/-- The same on both mirror ports. -/
def mirrorSends (f : Nat → List Packet) (s : State) : State :=
  forEach [mirrorPort 0, mirrorPort 1] (fun q s => mirrorSend q (f q) s) s

/-- PAIR_DELTA_SEND, in the fold of Press p: every delta n with n + 1 ≤ p goes out on both mirror ports. -/
def sendDeltas (p : Nat) (s : State) : State :=
  let rp := s.pr.pendingDelta.partition fun d => decide (d.1 + 1 ≤ p)
  let go := rp.1
  let stay := rp.2
  let s := { s with pr := { s.pr with pendingDelta := stay } }
  forEach go (fun d s => pairCount 0 (mirrorSends (fun q => deltaPackets s q d.1 (deltaBytes s d.1 d.2)) s)) s

/-- A packet that a mirror port brought is taken by the pair unit. -/
def pairTaken (p : Packet) : State → State := consume p.srcDie 0 p

/-- PAIR_DELTA: a fragment is kept until its delta's application boundary. -/
def deltaArrive (p : Packet) (s : State) : State :=
  let s := pairTaken p s
  let f : PairFrag := { n := p.operand.toNat, idx := p.sseq.toNat, die := p.srcDie, last := p.flags.toNat.testBit 0, bytes := p.payload }
  if !following s ∨ f ∈ s.pr.frags then s else { s with pr := { s.pr with frags := s.pr.frags ++ [f] } }

/-- The bytes of fragments 0 to k of a delta from one port. -/
def joinFrags (fs : List PairFrag) : (k : Nat) → Option (List Byte)
  | 0 => some []
  | k + 1 =>
    match joinFrags fs k, fs.find? fun f => f.idx = k with
    | some a, some f => some (a ++ f.bytes)
    | _, _ => none

/-- Delta n, if it is complete on a port. -/
def assembled (s : State) (n : Nat) : Option (List Byte) :=
  let fs := s.pr.frags.filter fun f => f.n = n
  (fs.map (·.die)).eraseDups.findSome? fun d =>
    let mine := fs.filter fun f => f.die = d
    match mine.find? fun f => f.last with
    | some l => joinFrags mine (l.idx + 1)
    | none => none

/-! ### Events at the mirror -/

def evType (x : List Byte) : Nat := field x 0 1
def evGroup (x : List Byte) : Nat := field x 2 2
def evGseq (x : List Byte) : Nat := field x 8 8

/-- The context an event concerns; noCtx for a peg. -/
def evCtx (s : State) (x : List Byte) : Nat :=
  match evType x with
  | 1 | 5 => field x 2 2
  | 2 | 3 => gCtx s (evGroup x)
  | _ => noCtx

/-- The open of an OPEN event at the mirror: the engine that keeps it, whether its first outcome is still to come, the packet. -/
def evOpenAt (s : State) (x : List Byte) : Option (Nat × Bool × Packet) :=
  let g := evGroup x
  let e := ek (homeDie g) (homeEng g)
  let hit (p : Packet) : Bool :=
    decide ((descOf p.payload).group = g) && decide (p.srcDie = field x 4 1) && decide (p.srcTile = field x 5 1) &&
      decide (p.operand.toNat = field x 8 8)
  match (look [] s.se.mirror e).find? hit with
  | some p => some (e, true, p)
  | none => match (look [] s.se.deferred e).find? hit with
    | some p => some (e, false, p)
    | none => none

/-- An outcome word. -/
def wordAdm (w : Nat) : Adm := match w / 2 ^ 14 with | 0 => .accept | 1 => .defer (w % 2 ^ 14) | _ => .refuse (w % 2 ^ 14)

/-- Entries that fell due to a chain in an operation enter at the next step 5 with those of their delta. -/
def advanceDue (c : Nat) (before : List TEntry) : State → State :=
  modChain c fun x => { x with due := before, delay2 := x.delay2 ++ x.due.drop before.length }

def dueOf (s : State) (c : Nat) : List TEntry := match chainOf? s c with | some x => x.due | none => []

/-- An OPEN outcome: GSEQ must agree with the mirror's count. -/
def applyOpenEv (n : Nat) (x : List Byte) (s : State) : State :=
  match evOpenAt s x with
  | none => s
  | some (e, first, p) =>
    let a := wordAdm (field x 16 2)
    if a = .accept ∧ nextSeq s (evGroup x) p.srcDie p.srcTile ≠ field x 24 8 then diverge 2 (evCtx s x) n s
    else
      let again := match a with | .defer _ => !first | _ => false
      let s := { s with se := { s.se with
        mirror := if first then upd [] s.se.mirror e (fun ps => ps.erase p) else s.se.mirror
        deferred := if first || again then s.se.deferred else upd [] s.se.deferred e fun ps => ps.erase p } }
      if again then s else applyOpen (homeDie (evGroup x)) (homeEng (evGroup x)) first p a s

/-- The Press a primary's completion at the boundary that ended Press n carries: a late seam's is that of its own last load, two Presses
before the mirror's (R103, R414; log 81). -/
def primaryPress (r : SeamRec) (code n : Nat) : Nat :=
  match code, r.loads.getLast? with | 0, some (_, l) => min n (l.due - 2) | _, _ => n

/-- A seam completion with the primary's RESULT, XFLAGS and Press. -/
def applyDoneEv (n : Nat) (x : List Byte) (s : State) : State :=
  match findRec s (evGroup x) (evGseq x) with
  | none => s
  | some k => match recOf s k with
    | none => s
    | some r =>
      let code := field x 4 1
      let rank := match r.fails.find? fun f => f.1 = code with | some f => f.2 | none => 0
      let before := dueOf s r.ctx
      let s := modRec k (fun r => { r with xflags := BitVec.ofNat 8 (field x 5 1) }) s
      advanceDue r.ctx before (completeSeam k code rank (primaryPress r code n) s)

/-- The peg of a PEG event. -/
def evPegAt (x : List Byte) : Nat × Nat := (memDies.getD (field x 2 1) 1, field x 4 2 % 1024)

/-- A peg release; a generation that TARGET arithmetic does not give diverges. -/
def applyPegEv (n : Nat) (x : List Byte) (s : State) : State :=
  let rp := evPegAt x
  let die := rp.1
  let i := rp.2
  if ((pegOf s die i).gen + 1).toNat ≠ field x 8 4 then diverge 2 noCtx n s else pegRelease die i s

/-- An activation with the primary's replay epoch, in the Press after boundary n / n + 1. -/
def applyActEv (n : Nat) (x : List Byte) (s : State) : State :=
  let c := field x 2 2 % 2048
  if field x 4 1 = 0 then { s with rs := { s.rs with dueResets := s.rs.dueResets ++ [c] } }
  else
    let s := { s with rs := { s.rs with heldActs := s.rs.heldActs.erase c } }
    advanceDue c [] (becomeActive c (field x 8 4) (n + 1) (actResult c .accept s))

/-- The mirror's own work for an event is ready (R415). A failed completion is ready once its record is open (DEDUCED, log 81). -/
def evReady (s : State) (x : List Byte) : Bool :=
  match evType x with
  | 2 => (evOpenAt s x).isSome
  | 3 => match findRec s (evGroup x) (evGseq x) with
    | some k => (match recOf s k with | some r => r.held || decide (field x 4 1 ≠ 0) | none => false)
    | none => false
  | 4 => pegReady (pegOf s (evPegAt x).1 (evPegAt x).2)
  | _ => true

/-- The event takes effect. -/
def applyEvent (e : DeltaEvent) (s : State) : State :=
  match evType e.bytes with
  | 1 => applyActEv e.n e.bytes s
  | 2 => applyOpenEv e.n e.bytes s
  | 3 => applyDoneEv e.n e.bytes s
  | 4 => applyPegEv e.n e.bytes s
  | _ => s

/-- A TALLY entry compared with the mirror's own tally. -/
def compareTally (e : DeltaEvent) (s : State) : State :=
  let c := field e.bytes 2 2 % 2048
  let own := match chainOf? s c with | some x => x.tally | none => []
  if own = slice e.bytes 16 32 then s else diverge 1 c e.n s

/-- Applies the held events of a class that are ready, in order; what is not ready stays. -/
def applyHeld (cls : List Byte → Bool) (s : State) : State :=
  s.pr.held.foldl (fun s e =>
    if cls e.bytes && evReady s e.bytes then
      applyEvent e { s with pr := { s.pr with held := s.pr.held.erase e } }
    else s) s

def isDeact (x : List Byte) : Bool := evType x = 1 && field x 4 1 = 0
def isActivate (x : List Byte) : Bool := evType x = 1 && field x 4 1 ≠ 0

/-- A TALLY entry may be compared: no event of its context, or of a peg, up to its delta is still held. -/
def tallyReady (s : State) (e : DeltaEvent) : Bool :=
  s.pr.held.all fun h => evType h.bytes = 5 || decide (h.n > e.n) || decide (evCtx s h.bytes ≠ evCtx s e.bytes)

/-- The TALLY entries that can be compared are (R417). -/
def compareHeld (s : State) : State :=
  s.pr.held.foldl (fun s e =>
    if evType e.bytes = 5 && tallyReady s e then
      compareTally e { s with pr := { s.pr with held := s.pr.held.erase e } }
    else s) s

/-! ### Application boundaries (R414 to R418) -/

/-- LOG_MARK discards held records (R421). -/
def takeLogMark (mark : Nat) (s : State) : State :=
  forEach memDies (fun d s => modTly d (fun u => { u with
    held := u.held.filter (fun r => decide (r.press > mark)), mark := max u.mark mark }) s) s

/-- Delta n with its bytes: FORMAT and EPOCH checks, LOG_MARK, the events held until they apply. -/
def takeDelta (n : Nat) (x : List Byte) (s : State) : State :=
  if field x 0 4 ≠ 0x52494150 ∨ field x 4 2 ≠ 1 ∨ x.length ≠ 32 + 48 * field x 6 2 then diverge 5 noCtx n s
  else
    let es := chunk 48 (field x 6 2) (x.drop 32)
    let good (y : List Byte) : Bool := decide (1 ≤ evType y) && decide (evType y ≤ 5)
    let s := takeLogMark (field x 0x10 8) s
    let s := if field x 0x18 4 ≠ fwEpoch s ∨ field x 0x1C 1 ≠ xLevel then diverge 4 noCtx n s else s
    let s := forEach (es.filter fun y => !good y) (fun _ s => diverge 5 noCtx n s) s
    let due := waitPress s (refDie s)
    pairCount 0 { s with pr := { s.pr with
      held := s.pr.held ++ (es.filter good).map fun y => { n := n, due := due, bytes := y }, last := n, misses := 0 } }

/-- The first boundary at which a mirror follows: what came before it is not due. -/
def mirrorBase (e : Nat) (s : State) : State :=
  if following s then { s with pr := { s.pr with base := some (s.pr.base.getD e) } } else s

/-- After an activation pause: the next delta of those whose boundaries the pause held, and the first Press after the pause (R550). -/
def catchUp (e : Nat) (s : State) : Option (Nat × Nat) :=
  if s.fw.carried then some (max (s.fw.actPress - 2) (s.pr.base.getD 0), e + 1) else s.pr.behind

/-- Delta m and those after it that are complete, at most as many as the fuel. -/
def assembledRun (s : State) : (fuel : Nat) → (m : Nat) → List Nat
  | 0, _ => []
  | f + 1, m => if (assembled s m).isSome then m :: assembledRun s f (m + 1) else []

/-- Delta e − 2 is due at the boundary that ends Press e. -/
def dueNow (e : Nat) (s : State) : Bool := decide (2 ≤ e) && decide (s.pr.base.getD 0 ≤ e - 2)

/-- The deltas the boundary that ends Press e applies; each is acknowledged. -/
def mirrorDeltas (e : Nat) (s : State) : List Nat :=
  if following s then
    match catchUp e s with
    | some (m, _) => assembledRun s (e - 1 - m) m
    | none => if dueNow e s && (assembled s (e - 2)).isSome then [e - 2] else []
  else []

/-- A delta that is complete is taken. -/
def takeOne (n : Nat) (s : State) : State := match assembled s n with | some x => takeDelta n x s | none => s

/-- A due delta that is not complete is missed. -/
def missOne (s : State) : State := pairCount 3 { s with pr := { s.pr with misses := s.pr.misses + 1 } }

/-- The fragments of deltas below n are of no more use; what is still behind. -/
def dropFrags (n : Nat) (behind : Option (Nat × Nat)) (s : State) : State :=
  { s with pr := { s.pr with frags := s.pr.frags.filter (fun f => decide (f.n ≥ n)), behind := behind } }

/-- The deltas due are taken or missed, at the beginning of a boundary. Those that a pause held are taken in order as they are complete;
none of a Press within the pause is missed (R549, R550). -/
def mirrorTake (e : Nat) (s : State) : State :=
  if following s then
    let ns := mirrorDeltas e s
    let s' := forEach ns takeOne s
    match catchUp e s with
    | none => dropFrags (e - 1) none (if dueNow e s && ns.isEmpty then missOne s' else s')
    | some (m, r) =>
      if m + ns.length ≥ e - 1 then dropFrags (e - 1) none s'
      else if e ≥ r + 2 then dropFrags (e - 1) none (missOne s')
      else dropFrags (m + ns.length) (some (m + ns.length, r)) s'
  else s

/-- Step 3: the deactivations. -/
def mirrorStep3 (s : State) : State := if following s then applyHeld isDeact s else s

/-- The mirror's own entries wait two boundaries (R414). -/
def delayEntries (x : Chain) : Chain := { x with due := x.delay2, delay2 := x.delay1, delay1 := x.due }

/-- Before step 5: completions and peg releases; the mirror's own entries of the delta's boundary. -/
def mirrorStep5 (s : State) : State :=
  if following s then
    let s := applyHeld (fun x => evType x = 3 || evType x = 4) s
    { s with ty := { s.ty with chains := s.ty.chains.map fun e => (e.1, delayEntries e.2) } }
  else s

/-- After step 5: tallies compared, an acknowledgement for each delta applied at this boundary. -/
def mirrorAck (ns : List Nat) (s : State) : State :=
  if following s then forEach ns (fun n s => pairCount 1 (mirrorSends (fun q => [ackPacket s q n]) s)) (compareHeld s) else s

/-- Step 7: activations and open outcomes. -/
def mirrorStep7 (s : State) : State :=
  if following s then applyHeld (fun x => evType x = 2) (applyHeld isActivate s) else s

/-- HELD_EVENT_APPLY: a held event whose work is ready applies. -/
def heldApply (i : Nat) (s : State) : State :=
  match s.pr.held[i]? with
  | some e =>
    if following s && evReady s e.bytes && evType e.bytes ≠ 5 then
      applyEvent e { s with pr := { s.pr with held := s.pr.held.eraseIdx i } }
    else s
  | none => s

/-- PAIR_LAG_LIMIT: an event held that many Presses after its application boundary; an OPEN whose post never came is cause CONTROL. -/
def lagExpired (i : Nat) (s : State) : State :=
  match s.pr.held[i]? with
  | some e =>
    if following s && !e.lagged && evType e.bytes ≠ 5 && decide (waitPress s (refDie s) ≥ e.due + lagLimit s) then
      let s := { s with pr := { s.pr with held := s.pr.held.set i { e with lagged := true } } }
      diverge (if evType e.bytes = 2 then 2 else 3) (evCtx s e.bytes) e.n s
    else s
  | none => s

/-! ### Losses and promotion (R418 to R422) -/

/-- PAIR_PRIMARY_LOST at the third miss in a row. -/
def primaryLost (s : State) : State :=
  if following s ∧ s.pr.misses ≥ 3 ∧ !s.pr.primaryLost then
    raise0 0 0x722 1 { s with pr := { s.pr with primaryLost := true } }
  else s

/-- PAIR_ACK at a mirror port of the primary. -/
def ackArrived (port : Nat) (p : Packet) (s : State) : State :=
  let s := consume (portDie port) 0 p s
  if isPrimary s then
    pairCount 1 { s with pr := { s.pr with acked := true, ackMisses := 0, last := field p.payload 0 8 } }
  else s

/-- The primary counts the Presses without an acknowledgement, from the first in which one is due (R549 leaves pauses out). -/
def countAcks (e : Nat) (s : State) : State :=
  if isPrimary s then
    let due := match s.pr.base with | some b => decide (e ≥ b + 3) | none => false
    { s with pr := { s.pr with acked := false,
                               ackMisses := if s.pr.acked ∨ !due ∨ s.fw.carried then s.pr.ackMisses else s.pr.ackMisses + 1 } }
  else s

/-- PAIR_MIRROR_LOST after three Presses without one: the package runs unpaired. -/
def mirrorLost (s : State) : State :=
  if isPrimary s ∧ s.pr.ackMisses ≥ 3 then
    raise0 0 0x722 2 { s with pr := { s.pr with mirrorLost := true, pendingDelta := [], events := [] } }
  else s

/-- A promotion is due at this boundary. -/
def promotes (s : State) : Bool := following s && s.pr.primaryLost

/-- The records held whose PRESS exceeds the last LOG_MARK go out with RESENT (R422). -/
def resendHeld (die : Nat) (s : State) : State :=
  let s := modTly die (fun u => { u with
    held := [], buf := u.buf ++ (u.held.filter fun r => decide (r.press > u.mark)).map fun r => { r with resent := true } }) s
  drainLog die 64 (forEach ((unitTly s die).lost.map (·.1)) (fun c s => sendGap die c s) s)

/-- Chains take at once what a mirror delayed. -/
def flushDelays (x : Chain) : Chain := { x with due := x.delay2 ++ x.delay1 ++ x.due, delay1 := [], delay2 := [] }

/-- Promotion, before the boundary's own steps: the mirror stops following (R419). -/
def promote (s : State) : State :=
  let s := { s with
    pr := { s.pr with following := false, promoted := true, role := 1, primaryLost := false, mirrorLost := true, misses := 0, held := [], behind := none,
                      frags := [], events := [] }
    ty := { s.ty with chains := s.ty.chains.map fun e => (e.1, flushDelays e.2) } }
  forEach memDies resendHeld s

/-- The pegs whose VALUE has reached TARGET release (R419). -/
def promotePegs (s : State) : State :=
  forEach ((s.pg.filter fun e => pegReady e.2).map (·.1)) (fun k s => pegRelease (k / 1024) (k % 1024) s) s

/-- An EPOCH entry with an EVENT into every active context. -/
def epochAll (event press : Nat) (s : State) : State := forEach s.rs.active (fun c s => enterEpoch c event press s) s

/-- Step 7 of a promotion: the opens that waited for the primary are evaluated. -/
def promoteOpens (s : State) : State :=
  let ms := s.se.mirror
  let s := { s with se := { s.se with mirror := [] } }
  forEach ms (fun m s => forEach m.2 (fun p s =>
    evalOpen (m.1 / 4) (m.1 % 4) true p (firstAdm s (m.1 / 4) (m.1 % 4) p) s) s) s

def execPairDelta (p : Packet) (s : State) : Host.Outcome State Fault Refusal := .next (deltaArrive p s)
def execPairAck (port : Nat) (p : Packet) (s : State) : Host.Outcome State Fault Refusal := .next (ackArrived port p s)
def execHeldEventApply (index : Nat) (s : State) : Host.Outcome State Fault Refusal := .next (heldApply index s)
def execPairLagLimit (index : Nat) (s : State) : Host.Outcome State Fault Refusal := .next (lagExpired index s)
def execPairPrimaryLost (s : State) : Host.Outcome State Fault Refusal := .next (primaryLost s)
def execPairMirrorLost (s : State) : Host.Outcome State Fault Refusal := .next (mirrorLost s)

end Sys2Proof.Machine
end

