-- ==== Sys2Proof/Machine/Views.lean ====
section
/-! DEFINITION. What read-only registers read as: one function per page kind from the unit's state. A register no function names reads
as the value in effect. -/
namespace Sys2Proof.Machine

/-- One half of a 64-bit quantity. -/
def half (v : DWord) (hi : Bool) : Word := if hi then hi32 v else lo32 v

/-- A statistics counter behind CNT_LO at `off` or CNT_HI at off + 4, selected by the register at `sel` (R37). -/
def cntHalf (s : State) (die page sel : Nat) (hi : Bool) : Word := half (countOf s die page (reg s die page sel).toNat) hi

/-- Four bytes of a byte string as a register word: byte 4k + j at bits [8j+7:8j]. -/
def byteWord (bs : List Byte) (k : Nat) : Word := w32 (field bs (4 * k) 4)

/-! ### Time base, faults (04, 14) -/

/-- PRS_STATUS: the events raised, FOLLOWED, STATE. -/
def prsStatus (s : State) (die : Nat) : Word :=
  let u := unitOf s die
  w32 (wbits (reg s die 0 0x104) 7 3 * 8 + b2n u.followed * 4 + (match u.st with | .unset => 0 | .armed => 1 | .run => 2))

def viewPrs (s : State) (die off : Nat) : Word :=
  let u := unitOf s die
  let on := decide (u.st ≠ .unset)
  match off with
  | 0x104 => prsStatus s die
  | 0x108 => lo32 (w64 u.press)
  | 0x10C => hi32 (w64 u.press)
  | 0x110 => w32 (if on then u.period else 0)
  | 0x114 => reg s 0 0 0x114
  | 0x11C => w32 (if on then cycleOf s die else 0)
  | 0x12C => w32 (b2n s.tm.lockNext * 2 + b2n s.tm.lockNow)
  | 0x134 => u.epochCount
  | 0x138 => w32 (if on then foldF s die else 0)
  | 0x140 | 0x144 | 0x148 | 0x14C => int32 (look 0 u.phases ((off - 0x140) / 4))
  | _ => reg s die 0 off

/-- SPARE_STATUS: IN_USE while the spare position is not the last one (R485, R487). -/
def spareStatus (s : State) (die : Nat) : Word :=
  let mask := look 0 s.ft.failedTest die
  let k := spareOf s die
  w32 (if dieType die = .io then mask else b2n (decide (k ≠ spareDefault die)) * 2 ^ 31 + k * 2 ^ 16 + mask)

/-- Word w of a fault record, 0 where there is none (R466). -/
def recWord (r : Option FaultRec) (w : Nat) : Word := match r with | some r => byteWord (faultBytes r) w | none => 0

def viewFlt (s : State) (die off : Nat) : Word :=
  let recs := look [] s.ft.recs die
  match off with
  | 0x100 => w32 (b2n (isSafe s die) * 2 ^ 31 + b2n (isIsolated s die) * 2 ^ 30 + recs.length)
  | 0x10C | 0x110 | 0x114 | 0x118 => recWord recs[(reg s die 1 0x108).toNat]? ((off - 0x10C) / 4)
  | 0x120 => let e := spareCfg s die; w32 (if e.toNat.testBit 7 then 2 ^ 31 + e.toNat % 16 else 0)
  | 0x124 => spareStatus s die
  | 0x134 => cntHalf s die 1 0x130 false
  | 0x138 => cntHalf s die 1 0x130 true
  | 0x184 => w32 (b2n (isSafe s 0) * 4 + b2n s.ft.pulse * 2 + b2n s.ft.errLow)
  | 0x18C | 0x190 | 0x194 | 0x198 => recWord s.ft.root[(reg s die 1 0x188).toNat]? ((off - 0x18C) / 4)
  | 0x19C => s.ft.rootCount
  | 0x1A0 => s.ft.safeCause
  | _ => reg s die 1 off

/-! ### Routers, shapers, memory ports (05, 06) -/

/-- CREDIT_VIEW of the buffer CREDIT_SEL names. -/
def creditView (s : State) (die t page : Nat) : Word :=
  let x := reg s die page 0x10C
  let port := wbits x 11 8
  match logTile s die t with
  | none => 0
  | some n =>
    w32 (downSize s die n port (wbits x 7 6) (wbits x 5 4) * 2 ^ 16 +
      credits s die t n port (wbits x 7 6) (wbits x 5 4) (wbits x 3 2))

def viewTile0 (s : State) (die t page off : Nat) : Word :=
  match off with
  | 0x110 => creditView s die t page
  | 0x118 => cntHalf s die page 0x114 false
  | 0x11C => cntHalf s die page 0x114 true
  | 0x120 => lo32 (countOf s die page 0x80)
  | 0x124 => hi32 (countOf s die page 0x80)
  | _ => reg s die page off

def viewTile1 (s : State) (die t page off : Nat) : Word :=
  match off with
  | 0x104 => match logTile s die t with | some n => w32 (homeTrack die n) | none => 0
  | _ => reg s die page off

/-- The tokens of a class or port node as NODE_SEL names it, in 1/256 byte. -/
def selTokens (s : State) (die t np cls : Nat) : Int :=
  if cls = 7 then
    match logTile s die t with | some n => portTokens s die t n ([10, 11, 8, 9].getD np 10) | none => 0
  else nodeTokens s (nodeKey die t np cls) (portNode s die t np cls)

def viewTile2 (s : State) (die t page off : Nat) : Word :=
  let c := (reg s die page 0x100).toNat
  let np := rfld s die page 0x120 5 4
  let cls := rfld s die page 0x120 2 0
  let dc := (reg s die page 0x170).toNat
  let n? := logTile s die t
  match off with
  | 0x110 => int32 (Int.tdiv (nodeTokens s (ctxNodeKey die t c) (ctxNode s die t c)) 256)
  | 0x114 => match n? with | some n => w32 (b2n (activeOn s die n c)) | none => 0
  | 0x118 => lo32 (countOf s die page (0x400 + c))
  | 0x11C => hi32 (countOf s die page (0x400 + c))
  | 0x12C => int32 (Int.tdiv (selTokens s die t np cls) 256)
  | 0x150 => w32 (govLevel s)
  | 0x154 => match n? with
    | some n => w32 (if cls < 6 then hemOf s die t n ([10, 11, 8, 9].getD np 10) cls else 0)
    | none => 0
  | 0x164 => cntHalf s die page 0x160 false
  | 0x168 => cntHalf s die page 0x160 true
  | 0x174 | 0x178 | 0x17C | 0x180 => match n? with | some n => deferOf s die n dc ((off - 0x174) / 4) | none => 0
  | _ => reg s die page off

/-- A bit the surroundings drive and the model is not told of (log 4). -/
def freeBit (s : State) : Nat := freeVal s % 2

def viewTile3 (s : State) (die t page off : Nat) : Word :=
  match off, logTile s die t with
  | 0x104, some n => w32 ((mpOf s die n).out.length * 2 ^ 16 + freeBit s)
  | 0x118, some n => w32 (n / 8 * 2 ^ 8 + n)
  | 0x124, _ => cntHalf s die page 0x120 false
  | 0x128, _ => cntHalf s die page 0x120 true
  | _, _ => reg s die page off

/-! ### The CIP (11) -/

/-- WAIT and OBJECT of STREAM_STATE. -/
def waitView (s : State) (die n ctx : Nat) : Wait → Nat × Nat
  | .credit a _ _ => (1, match findCache s die n ctx a with | some e => e.1 | none => 0)
  | .cacheEntry _ _ _ => (1, 0)
  | .post _ => (1, (cqOf s die n ctx).getD 0)
  | .arm b _ _ _ => (1, bskQueue (bskCfg s die n b))
  | .recv q => (2, q)
  | .ring r => (3, r)
  | .peg _ => (4, 0)
  | .doorbell d _ => (5, d)
  | .add _ => (6, 0)
  | .pause _ => (0, 0)

/-- STREAM_STATE of a stream. -/
def streamView (s : State) (die n st : Nat) : Word :=
  match look? (cipOf s die n).streams st with
  | none => 0
  | some x =>
    let rp := waitView s die n x.ctx x.wait
    let w := rp.1
    let o := rp.2
    w32 (w * 2 ^ 29 + x.ctx * 2 ^ 18 + min 15 (waitPress s die - x.since) * 2 ^ 14 + o)

/-- The registers of the selected queue that show its state. -/
def viewQueue (s : State) (die n q off : Nat) : Word :=
  let x := queueOf s die n q
  let head := x.visible.head?
  let word : DWord := match head with | some e => e.word | none => 0
  let data : List Byte := match head with | some e => e.data | none => []
  match off with
  | 0x120 =>
    let blocked := ((cipOf s die n).streams.filter fun e => match e.2.wait with | .recv q' => decide (q' = q) | _ => false).length
    w32 (blocked % 256 * 2 ^ 24 + x.visible.length)
  | 0x124 => w32 x.held.length
  | 0x128 => w32 (x.outst + x.resv)
  | 0x12C => lo32 word
  | 0x130 => hi32 word
  | 0x134 => byteWord data 0
  | 0x138 => byteWord data 1
  | _ => x.stallFrom

def viewRing (s : State) (die n r off : Nat) : Word :=
  let x := ringOf s die n r
  match off with
  | 0x150 => w32 x.head
  | 0x154 => w32 x.tail
  | 0x158 => w32 x.visible
  | _ => w32 x.waiting.length

def viewCache (s : State) (die n i off : Nat) : Word :=
  match look? (cipOf s die n).cache i with
  | none => 0
  | some e =>
    match off with
    | 0x164 => w32 (2 ^ 31 + b2n e.req.isSome * 2 ^ 30 + e.ctx * 2 ^ 16 + e.credits % 256)
    | 0x168 => lo32 e.dest
    | _ => hi32 e.dest

def viewCip (s : State) (die t page off : Nat) : Word :=
  match logTile s die t with
  | none => reg s die page off
  | some n =>
    match off with
    | 0x104 => w32 ((cipOf s die n).cache.length * 2 ^ 16 + waitersHeld s die n)
    | 0x108 => w32 (Config.memMiB die n)
    | 0x120 | 0x124 | 0x128 | 0x12C | 0x130 | 0x134 | 0x138 | 0x13C => viewQueue s die n (reg s die page 0x110).toNat off
    | 0x150 | 0x154 | 0x158 | 0x15C => viewRing s die n (reg s die page 0x140).toNat off
    | 0x164 | 0x168 | 0x16C => viewCache s die n (reg s die page 0x160).toNat off
    | 0x174 => streamView s die n (reg s die page 0x170).toNat
    | 0x190 => look 0 (cipOf s die n).doorbells (reg s die page 0x188).toNat
    | 0x1A4 => cntHalf s die page 0x1A0 false
    | 0x1A8 => cntHalf s die page 0x1A0 true
    | _ => reg s die page off

/-! ### Darners and the patch store (08, 09) -/

/-- A bit per darner of a tile. -/
def drnMask (p : Nat → Bool) : Nat := ((List.range 8).filter p).foldl (fun a d => a + 2 ^ d) 0

def drnStatus (s : State) (die n : Nat) : Word :=
  let x := darnerOf s die n
  w32 (drnMask (fun d => (x d).late) * 2 ^ 24 + drnMask (fun d => reservedNow s die n d) * 2 ^ 16 +
    drnMask (fun d => (x d).holding) * 2 ^ 8 + drnMask (fun d => (x d).task.isSome && !(x d).holding))

def kindCode : TaskKind → Nat
  | .combine => 0
  | .deliver => 1
  | .patch => 2

/-- DRN_VIEW of a darner. -/
def drnView (s : State) (die n d : Nat) : Word :=
  let x := darnerOf s die n d
  let g := if reservedNow s die n d then (match x.resv with | some q => q.group | none => 0xFFF) else 0xFFF
  let st := if x.task.isNone then 0 else if x.late then 4 else if x.holding then 3 else if x.from_ = 0 then 1 else 2
  match x.task with
  | some k => w32 (st * 2 ^ 29 + k.ctx * 2 ^ 18 + kindCode k.kind * 2 ^ 15 + g)
  | none => w32 g

/-- Word w of a task queue entry (R240). -/
def taskWord (s : State) (t : Task) (w : Nat) : Word :=
  match w with
  | 0 => w32 (2 ^ 31 + kindCode t.kind * 2 ^ 28 + b2n t.stealable * 2 ^ 27 + b2n t.ordered * 2 ^ 26 + t.stream * 2 ^ 22 +
      t.ctx * 2 ^ 11 + min 255 ((s.tm.fclk - t.born) / 64))
  | 1 => w32 t.oseq
  | 2 => w32 (t.group * 2 ^ 20 + t.stripe % 2 ^ 20)
  | _ => w32 (t.bind * 2 ^ 24 + t.count % 2 ^ 24)

/-- PS_STATUS: the two write-one-to-clear bits and the store's state. -/
def psStatus (s : State) (die n page : Nat) : Word :=
  w32 (wbits (reg s die page 0x180) 7 6 * 64 + b2n (shadowBusy s die n) * 16 + b2n (drnTile s die n).load.isSome * 8 +
    activeBank s die n)

/-- The instruction PS_ADDR names: a word of the active or shadow bank, or of the library. -/
def psWord (s : State) (die n page : Nat) : DWord :=
  let a := (reg s die page 0x190).toNat
  let i := a % 1024
  let b := if a.testBit 10 then activeBank s die n else 1 - activeBank s die n
  if i < 512 then bankWord s die n b i else if i < 768 then libWord s i else 0

/-- A counter of a tile's darners; 0 and 4 with the cycles of what still runs, or is still held. -/
def drnCount (s : State) (die n page sel : Nat) : DWord :=
  let run (d : Nat) : Nat :=
    let x := darnerOf s die n d
    if x.task.isSome && ((sel = 0 && !x.holding) || (sel = 4 && x.holding)) then s.tm.fclk - x.since else 0
  countOf s die page sel + w64 ((List.range 8).foldl (fun a d => a + run d) 0)

def viewDrn (s : State) (die t page off : Nat) : Word :=
  match logTile s die t with
  | none => reg s die page off
  | some n =>
    let x := drnTile s die n
    let d := (reg s die page 0x130).toNat
    let st := (reg s die page 0x170).toNat
    let o : Stream16 := look {} x.streams st
    match off with
    | 0x104 => drnStatus s die n
    | 0x114 => w32 ((patchShare s die n - patchUsed x) * 2 ^ 16 + x.queue.length)
    | 0x118 => w32 x.held.length
    | 0x128 => w32 (stealUse s die n (reg s die page 0x120).toNat)
    | 0x134 => drnView s die n d
    | 0x138 => w32 (darnerOf s die n d).endAt
    | 0x13C => w32 (darnerOf s die n d).admitted
    | 0x144 | 0x148 | 0x14C | 0x150 =>
      match x.queue.find? fun k => k.entry = (reg s die page 0x140).toNat with
      | some k => taskWord s k ((off - 0x144) / 4)
      | none => 0
    | 0x164 => lo32 (drnCount s die n page (reg s die page 0x160).toNat)
    | 0x168 => hi32 (drnCount s die n page (reg s die page 0x160).toNat)
    | 0x174 => w32 (b2n o.active * 2 ^ 31 + o.ctx * 2 ^ 16 + o.held.length)
    | 0x178 => w32 o.next
    | 0x180 => psStatus s die n page
    | 0x194 => lo32 (psWord s die n page)
    | 0x198 => hi32 (psWord s die n page)
    | _ => reg s die page off

/-! ### Baskets and pegs (11) -/

def viewBsk (s : State) (die t page off : Nat) : Word :=
  match logTile s die t with
  | none => reg s die page off
  | some n =>
    let b := (reg s die page 0x108).toNat
    let e := bkOf s die n b (reg s die page 0x114).toNat
    let rs := (resvOf s die n).filter fun r => r.granted && decide (r.basket < 64)
    match off with
    | 0x104 => w32 (rs.length * 2 ^ 16 + (mergesOf s die n).length)
    | 0x118 => w32 (b2n e.armed * 2 ^ 31 + e.tag * 2 ^ 20 + e.expect)
    | 0x11C => w32 e.count
    | 0x120 => match rs.find? fun r => r.basket = b with | some r => w32 (2 ^ 31 + r.ref.group) | none => 0
    | 0x134 => cntHalf s die page 0x130 false
    | 0x138 => cntHalf s die page 0x130 true
    | _ => reg s die page off

def viewPeg (s : State) (die off : Nat) : Word :=
  let p := pegOf s die (reg s die 0x680 0x100).toNat
  match off with
  | 0x108 => w32 (b2n p.armed * 2 ^ 31 + b2n p.auto * 2 ^ 30 + b2n p.reached * 2 ^ 29 + p.waiters.length)
  | 0x10C => p.value
  | 0x110 => p.target
  | 0x114 => p.gen
  | 0x118 => w32 (pegPool s die)
  | 0x124 => cntHalf s die 0x680 0x120 false
  | 0x128 => cntHalf s die 0x680 0x120 true
  | _ => reg s die 0x680 off

/-! ### Seams (10) -/

def viewSeam0 (s : State) (die e off : Nat) : Word :=
  let page := seamPage e 0
  let k := seamKey die e (reg s die page 0x130).toNat
  match off with
  | 0x104 =>
    w32 (wbits (reg s die page 0x104) 31 31 * 2 ^ 31 + (look [] s.se.deferred (ek die e)).length * 2 ^ 16 +
      (s.se.recs.filter fun x => x.1 / 256 = ek die e).length)
  | 0x124 => cntHalf s die page 0x120 false
  | 0x128 => cntHalf s die page 0x120 true
  | _ =>
    if off < 0x134 then reg s die page off
    else match recOf s k with
    | none => 0
    | some r =>
      match off with
      | 0x134 => w32 (2 ^ 31 + r.phase * 2 ^ 28 + r.group * 2 ^ 16 + r.ctx)
      | 0x138 => lo32 (w64 r.gseq)
      | 0x13C => w32 (r.gseq / 2 ^ 32 % 2 ^ 16)
      | 0x140 => w32 (min 0xFFFF (r.loads.filter fun x => x.2.finished).length * 2 ^ 16 + r.opens.length % 2 ^ 15)
      | 0x144 => w32 r.load
      | _ => match r.wait with | some (d, n) => w32 (2 ^ 31 + d * 2 ^ 16 + n) | none => 0

/-- The group GROUP_SEL names is homed on the engine. -/
def homedHere (s : State) (die e : Nat) : Bool :=
  let g := (reg s die (seamPage e 1) 0x100).toNat
  homeDie g = die && homeEng g = e && dieType die = .memside

def viewSeam1 (s : State) (die e off : Nat) : Word :=
  let page := seamPage e 1
  let g := (reg s die page 0x100).toNat
  match off with
  | 0x104 => if homedHere s die e then w32 (look 0 s.se.doneSeq g) else 0
  | 0x108 => if homedHere s die e then w32 (s.se.recs.filter fun x => x.2.group = g && x.2.home.isNone).length else 0
  | _ => reg s die page off

/-- The group a slot serves: the one homed on the die whose range of slots has it. -/
def slotGroup (s : State) (die i : Nat) : Option Nat := (groupsOfSlot s die i).head?

def viewSeam2 (s : State) (die e off : Nat) : Word :=
  let page := seamPage e 2
  let i := (reg s die page 0x100).toNat
  match off with
  | 0x108 => match slotGroup s die i with
    | some g => let (d, n) := slotPrimary (slotWord s die i); w32 (nextSeq s g d n)
    | none => 0
  | 0x10C => match slotGroup s die i, slotBackup (slotWord s die i) with
    | some g, some (d, n) => w32 (nextSeq s g d n)
    | _, _ => 0
  | _ => reg s die page off

/-! ### Tally and pair (12) -/

/-- The number of a memory-side die among its kind, and the context of the entry TLY_SEL names. -/
def tlyCtx (s : State) (die : Nat) : Nat := 16 * (reg s die 0x690 0x100).toNat + memNo die

def viewTly0 (s : State) (die off : Nat) : Word :=
  let c := tlyCtx s die
  let rp := tallyShown s c
  let t := rp.1
  let p := rp.2.1
  let n := rp.2.2
  match off with
  | 0x10C => match chainOf? s c with
    | some x => w32 (b2n x.shown.isSome * 2 ^ 31 + 2 ^ 30 + x.carried.length % 2 ^ 13)
    | none => 0
  | 0x110 | 0x114 | 0x118 | 0x11C | 0x120 | 0x124 | 0x128 | 0x12C => byteWord t ((off - 0x110) / 4)
  | 0x130 => lo32 (w64 p)
  | 0x134 => hi32 (w64 p)
  | 0x138 => n
  | 0x13C => w32 (ctxEpoch s c)
  | 0x164 => cntHalf s die 0x690 0x160 false
  | 0x168 => cntHalf s die 0x690 0x160 true
  | _ => reg s die 0x690 off

def viewTly1 (s : State) (die off : Nat) : Word :=
  let u := unitTly s die
  match off with
  | 0x100 => w32 (bytesOf u.buf)
  | 0x104 => w32 (bytesOf u.held)
  | 0x108 => lo32 (w64 (logMark s die))
  | 0x10C => hi32 (w64 (logMark s die))
  | _ => reg s die 0x691 off

/-- The number of mirror ports that are UP. -/
def mirrorsUp (s : State) : Nat := ([17, 47].filter fun q => (lnkOf s q).st = .up).length

def viewPair (s : State) (off : Nat) : Word :=
  let p := s.pr
  match off with
  | 0x100 => s.kp.pairCfg
  | 0x104 => w32 (p.role * 2 ^ 30 + b2n p.promoted * 2 ^ 29 + b2n p.following * 2 ^ 28 + mirrorsUp s * 2 ^ 8 +
      min 15 (if p.role = 1 then p.ackMisses else p.misses))
  | 0x108 => lo32 (w64 p.last)
  | 0x10C => hi32 (w64 p.last)
  | 0x110 => if p.divValid then w32 (2 ^ 31 + p.divCause * 2 ^ 28 + p.divCtx % 2048) else 0
  | 0x114 => lo32 (w64 (if p.divValid then p.divPress else 0))
  | 0x118 => hi32 (w64 (if p.divValid then p.divPress else 0))
  | 0x124 => cntHalf s 0 0x722 0x120 false
  | 0x128 => cntHalf s 0 0x722 0x120 true
  | _ => reg s 0 0x722 off

/-! ### Links, modules, storage and host adapters (13) -/

def viewDbr (s : State) (die link off : Nat) : Word :=
  let page := 0x10 + link
  let l := linkOf s die link
  match off with
  | 0x104 => linkStatus s die link
  | 0x108 => w32 (l.peerDie % 64 * 2 ^ 8 + l.peerDir % 4)
  | 0x10C | 0x110 | 0x114 => w32 (l.laneFail / 2 ^ (32 * ((off - 0x10C) / 4)))
  | 0x124 => cntHalf s die page 0x120 false
  | 0x128 => cntHalf s die page 0x120 true
  | _ => reg s die page off

/-- The state of a LNK port of a die: an off-package port, or nothing of a storage port (R451). -/
def viewLnk0 (s : State) (die p off : Nat) : Word :=
  let link := 16 + p
  let page := lnkPage p 0
  let l := linkOf s die link
  match off with
  | 0x104 => linkStatus s die link
  | 0x108 => w32 (l.level * 2 ^ 8 + 2)
  | 0x10C => w32 (l.lat % 2 ^ 20)
  | 0x110 => int32 (look 0 (unitOf s die).phases link)
  | 0x114 => match expectOf s (portOf die p) with
    | some (q, role, lane) => w32 (2 ^ 31 + q * 2 ^ 16 + role * 2 ^ 8 + lane)
    | none => 0
  | _ => if 0x120 ≤ off ∧ off ≤ 0x15C then byteWord l.seen ((off - 0x120) / 4) else reg s die page off

/-- LANE_STATUS: of 18 lanes, the lowest 16 that have not failed are in use. -/
def laneStatus (l : Link) : Word :=
  let used := ((List.range 18).filter fun i => !l.laneFail.testBit i).take 16
  if l.st = .off then 0 else w32 ((2 - l.spares) * 2 ^ 20 + used.foldl (fun a i => a + 2 ^ i) 0)

def viewLnk1 (s : State) (die p off : Nat) : Word :=
  let page := lnkPage p 1
  match off with
  | 0x10C => laneStatus (linkOf s die (16 + p))
  | 0x124 => cntHalf s die page 0x120 false
  | 0x128 => cntHalf s die page 0x120 true
  | _ => reg s die page off

def viewOpt (s : State) (die g off : Nat) : Word :=
  let e := engineOf s die g
  let key : DWord := if e.record = [] then 0 else moduleKey e.record
  match off with
  | 0x104 => optStatus s die g
  | 0x108 | 0x10C | 0x110 | 0x114 => byteWord e.record ((off - 0x108) / 4)
  | 0x118 => lo32 key
  | 0x11C => hi32 key
  | 0x120 => w32 e.hours
  | 0x124 => w32 (e.p1 % 2 ^ 16 * 2 ^ 16 + e.p0 % 2 ^ 16)
  | _ => reg s die (optPage g) off

def viewHst (s : State) (die off : Nat) : Word :=
  let h := (hostPortOf die).getD 0
  let x := hostOf s h
  match off with
  | 0x104 => w32 (b2n x.pins.inReset * 2 + b2n x.pins.linkUp)
  | 0x110 => x.cause
  | 0x114 => if x.errValid then w32 (2 ^ 31 + x.errCode.toNat) else 0
  | 0x118 => lo32 x.errAddr
  | 0x11C => hi32 x.errAddr
  | 0x124 => cntHalf s die 0x718 0x120 false
  | 0x128 => cntHalf s die 0x718 0x120 true
  | _ => reg s die 0x718 off

/-- The storage port of an I/O die. -/
def stoOfDie (die : Nat) : Nat := ((List.range 4).find? fun n => stoDie n = die).getD 0

def viewSto (s : State) (die off : Nat) : Word :=
  let x := stoOf s (stoOfDie die)
  match off with
  | 0x104 => w32 (freeBit s * 4 + b2n x.link * 3)
  | 0x154 => cntHalf s die 0x719 0x150 false
  | 0x158 => cntHalf s die 0x719 0x150 true
  | _ => reg s die 0x719 off

/-! ### The FMC pages and Keep (01, 03, 15, 16) -/

def viewFmc0 (s : State) (off : Nat) : Word :=
  match off with
  | 0x100 => w32 (b2n s.fw.recovery * 2 + b2n s.fw.running)
  | 0x124 => cntHalf s 0 0x720 0x120 false
  | 0x128 => cntHalf s 0 0x720 0x120 true
  | _ => reg s 0 0x720 off

def viewFmc1 (s : State) (off : Nat) : Word :=
  match off with
  | 0x100 => w32 s.tm.straps.toNat
  | 0x104 => w32 s.tm.strapsLive.toNat
  | 0x108 => w32 (planEpoch s)
  | 0x10C => planStatus s
  | 0x110 | 0x114 | 0x118 | 0x11C | 0x120 | 0x124 | 0x128 | 0x12C => byteWord (planHash s) ((off - 0x110) / 4)
  | 0x130 => match s.pl.cur with
    | some p => w32 (p.minSundi % 256 * 2 ^ 16 + b2n p.pairMode * 2 ^ 8 + p.shape % 4)
    | none => 0
  | _ => reg s 0 0x721 off

/-- RESET_STATUS.BUSY and KIND; FABRIC_RESET is one step of the model. -/
def resetStatus (s : State) : Word :=
  w32 ((match s.rs.busy with | some q => 2 ^ 31 + q.kind * 2 ^ 28 | none => 0) + s.rs.result)

/-- LP1_STATE word i of the die PWR_DIE_SEL names. -/
def lp1State (s : State) (i : Nat) : Word :=
  let die := (reg s 0 0x723 0x120).toNat
  w32 (((List.range 32).filter fun j => isAsleep s die (32 * i + j)).foldl (fun a j => a + 2 ^ j) 0)

def lpCode : LpState → Nat
  | .running => 0
  | .entering _ => 1
  | .lp2 | .leaving => 2
  | .lp3 => 3

def viewFmc3 (s : State) (off : Nat) : Word :=
  match off with
  | 0x104 => resetStatus s
  | 0x114 => w32 (s.rs.ctxResult.toNat % 2 ^ 30 + s.rs.ctxResult.toNat / 2 ^ 31 * 2 ^ 31 + b2n (decide (s.rs.ctxCmds ≠ [])) * 2 ^ 30)
  | 0x134 | 0x138 | 0x13C | 0x140 => lp1State s ((off - 0x134) / 4)
  | 0x154 => w32 (lpCode s.rs.lp * 2 ^ 30 + s.rs.lpCause)
  | _ => reg s 0 0x723 off

/-- SLOT_STATUS. -/
def slotStatus (s : State) : Word :=
  w32 (b2n s.fw.fallback * 2 ^ 31 + (activeSlot s).getD 0 * 2 ^ 28 + b2n s.fw.slot1.valid * 2 ^ 25 + b2n s.fw.slot0.valid * 2 ^ 24 +
    s.fw.slot1.rb % 256 * 2 ^ 8 + s.fw.slot0.rb % 256)

def viewFmc4 (s : State) (off : Nat) : Word :=
  match off with
  | 0x104 => fwStatus s
  | 0x10C => if s.fw.st = .checking ∨ s.fw.st = .programming then w32 (freeVal s) else 0
  | 0x118 => w32 (fwEpoch s)
  | 0x11C => slotStatus s
  | 0x120 => w32 (if s.fw.slot0.valid then s.fw.slot0.epoch else 0)
  | 0x124 => w32 (if s.fw.slot1.valid then s.fw.slot1.epoch else 0)
  | 0x128 => w32 (s.fw.pauseLast % 2 ^ 20)
  | 0x130 => w32 (b2n s.sv.valid * 2 + freeBit s)
  | 0x134 => s.sv.nseq
  | 0x144 => cntHalf s 0 0x724 0x140 false
  | 0x148 => cntHalf s 0 0x724 0x140 true
  | _ => reg s 0 0x724 off

/-- Keep: the stored values. -/
def viewKeep0 (s : State) (off : Nat) : Word :=
  match off with
  | 0x100 => w32 (b2n s.kp.lost * 2 ^ 31 + b2n s.kp.vbatLow * 2 ^ 30)
  | 0x104 => w32 s.kp.replayEpoch
  | 0x108 => w32 s.kp.rollback
  | 0x110 | 0x114 | 0x118 | 0x11C | 0x120 | 0x124 | 0x128 | 0x12C => byteWord s.kp.unitHash ((off - 0x110) / 4)
  | 0x130 => w32 s.kp.faultNext
  | 0x134 => s.kp.faultTotal
  | 0x138 => s.kp.ecc
  | _ => reg s 0 0x730 off

def viewKeep1 (s : State) (off : Nat) : Word :=
  let key := look (0 : DWord) s.kp.accept (reg s 0 0x731 0x100).toNat
  let sh := look ((0 : DWord), 0) s.kp.shadows (reg s 0 0x731 0x110).toNat
  match off with
  | 0x104 => lo32 key
  | 0x108 => hi32 key
  | 0x114 => lo32 sh.1
  | 0x118 => hi32 sh.1
  | 0x11C => w32 sh.2
  | _ => reg s 0 0x731 off

def viewKeep2 (s : State) (off : Nat) : Word :=
  if off = 0x100 then reg s 0 0x732 off else recWord (look? s.kp.faultRecs (reg s 0 0x732 0x100).toNat) ((off - 0x104) / 4)

/-! ### The common header (R45) -/

/-- IDLE of ARB_FREEZE: bit a is 1 while no arbiter a of the page has a transfer in progress (R55); the bits above the page's arbiters
read 1 (the reset value of the field). -/
def arbIdle (s : State) (die page : Nat) (k : PageKind) : Nat :=
  let t := (page - 0x100) / 8
  let busy (a : Nat) : Bool := s.nt.arbs.any fun e =>
    arbOfPage die t k e.1 && decide (s.tm.fclk ≤ e.2.endAt) && decide (e.2.endAt ≠ 0) &&
      (match k with
       | .tile0 => decide ((e.1 - 2 ^ 32) / 64 % 16 = a)
       | _ => decide (2 * (e.1 / 8 % 16 - 10) + e.1 % 2 = a))
  ((List.range 16).filter fun a => !busy a).foldl (fun x a => x + 2 ^ a) 0

def pageStatus (s : State) (die page : Nat) : Word :=
  let p := pageOf s die page
  w32 (p.count.toNat * 2 ^ 16 + b2n p.late * 32 + b2n p.overrun * 16 + b2n p.bad * 8 + b2n (decide (p.commit ≠ .none)) * 4 + 1)

def viewHeader (s : State) (die page : Nat) (i : PageInfo) (off : Nat) : Word :=
  match off with
  | 0x00 => w32 (typeCode i.kind * 2 ^ 24 + i.sub * 2 ^ 20 + i.inst)
  | 0x04 => w32 (2 ^ 16 + (Config.stepping die).toNat * 2 ^ 8 + b2n (decide (typeCode i.kind ∈ [0x12, 0x13, 0x20])))
  | 0x08 => w32 (pageCap i.kind)
  | 0x14 => pageStatus s die page
  | 0x18 => (pageOf s die page).fault
  | 0x44 => w32 (arbIdle s die page i.kind * 2 ^ 16 + rfld s die page 0x44 15 0)
  | _ => reg s die page off

/-- What a register of a present page reads as, the shadow of a RWS register apart. -/
def view (s : State) (die page : Nat) (i : PageInfo) (off : Nat) : Word :=
  if off < 0x100 then viewHeader s die page i off
  else match i.kind with
  | .prs => viewPrs s die off
  | .flt => viewFlt s die off
  | .dbr => viewDbr s die (page - 0x10) off
  | .tile0 => viewTile0 s die i.inst page off
  | .tile1 => viewTile1 s die i.inst page off
  | .tile2 => viewTile2 s die i.inst page off
  | .tile3 => viewTile3 s die i.inst page off
  | .cip => viewCip s die i.inst page off
  | .drn => viewDrn s die i.inst page off
  | .bsk => viewBsk s die i.inst page off
  | .seam0 => viewSeam0 s die i.inst off
  | .seam1 => viewSeam1 s die i.inst off
  | .seam2 => viewSeam2 s die i.inst off
  | .peg => viewPeg s die off
  | .tly0 => viewTly0 s die off
  | .tly1 => viewTly1 s die off
  | .lnk0 => viewLnk0 s die i.inst off
  | .lnk1 => viewLnk1 s die i.inst off
  | .opt => viewOpt s die i.inst off
  | .hst => viewHst s die off
  | .sto => viewSto s die off
  | .fmc0 => viewFmc0 s off
  | .fmc1 => viewFmc1 s off
  | .fmc2 => viewPair s off
  | .fmc3 => viewFmc3 s off
  | .fmc4 => viewFmc4 s off
  | .keep0 => viewKeep0 s off
  | .keep1 => viewKeep1 s off
  | .keep2 => viewKeep2 s off
  | .keep3 => if off = 0x104 then areaWord s else reg s die page off

end Sys2Proof.Machine
end

