-- ==== Sys2Proof/Machine/RegisterPages.lean ====
section
/-! DEFINITION. Register accesses (02): the status of an access (R36 to R44), reads with their latched halves (R37, R406), writes with
their masks and out-of-range values (R46), and what a write of each register does. -/
namespace Sys2Proof.Machine

/-! ### Masters and statuses -/

/-- The die that receives a master's accesses: die (0,0) for the FMC and the service port, the host adapter's for a host (R477). -/
def masterDie : Master → Nat
  | .host h => hostDie h
  | _ => 0

def masterNo : Master → Nat
  | .fmc => 0
  | .service => 1
  | .host h => 2 + h

/-- The FMC executes code, from a slot or in recovery. -/
def fmcOn (s : State) : Bool := !s.tm.porLow && (s.fw.running || s.fw.recovery)

/-- The master can issue an access at all; if not, its command has no effect (log 6). -/
def masterOn (s : State) : Master → Bool
  | .host h => decide (h < 4) && !s.tm.porLow && hostOn s h && s.rs.lp ≠ .lp3
  | _ => fmcOn s

/-- FMC pages and KEEP pages. -/
def isKeepPage (k : PageKind) : Bool := typeCode k = 0x41
def isFmcPage (k : PageKind) : Bool := typeCode k = 0x40

/-- Write permission by master and page type (R42). -/
def permitted (s : State) (die page : Nat) (k : PageKind) (m : Master) : Bool :=
  if isKeepPage k then m = .fmc
  else if isFmcPage k then (match m with | .host _ => false | _ => true)
  else match m with | .host _ => !(reg s die page 0x10).toNat.testBit 1 | _ => true

/-- The register at an offset of a page: the header on every page (R45), offsets 0x180 and up of FLT only on die (0,0). -/
def rowAt (die : Nat) (i : PageInfo) (off : Nat) : Option RegRow :=
  if i.kind = .flt ∧ die ≠ 0 ∧ off ≥ 0x180 then none
  else findRow i.kind off

/-- A runtime register of a tile's stoppable units (R44, R510): what their read-only registers show and what commands them; MEM_SIZE
and MP_PORT are fixed. -/
def isRuntime (i : PageInfo) (off : Nat) : Bool :=
  decide (off ≥ 0x100) && (match i.kind with | .cip => decide (off ≠ 0x108) | .tile3 => decide (off ≠ 0x118) | _ => true) &&
    (match findRow i.kind off with | some r => r.acc = .ro || r.acc = .wo | none => false)

/-- The page's unit is asleep to this access: a runtime register of a tile in LP1, a die other than (0,0) in LP2, anything but the
FMC and Keep in LP3 (R44, R514, R510). -/
def asleepTo (s : State) (die page : Nat) (i : PageInfo) (off : Nat) : Bool :=
  (match s.rs.lp with
   | .lp2 | .leaving => decide (die ≠ 0)
   | .lp3 => !(isFmcPage i.kind || isKeepPage i.kind)
   | _ => false) ||
  (decide (0x100 ≤ page) && decide (page < 0x580) && decide (page % 8 ≥ 3) && isRuntime i off &&
    (match logTile s die i.inst with | some n => isAsleep s die n | none => false))

/-- The page's unit is held in a reset; in the safe state only the receiving die serves, in recovery only the update page and Keep
(R43, R477, R534, R553). -/
def heldInReset (s : State) (m : Master) (die page : Nat) (k : PageKind) : Bool :=
  pageQuiesced s die page k || notInService s die || (decide (masterDie m ≠ die) && (isSafe s die || isSafe s (masterDie m))) ||
    (s.fw.recovery && !(decide (page = 0x724) || isKeepPage k))

/-- The status of an access (R43): 0 REG_OK. The order of the checks is a DESIGN CHOICE (log 60). -/
def accessStatus (s : State) (a : RegAcc) (write : Bool) : Nat :=
  if a.pkg ≠ pkgNo s then 4
  else if a.size ≠ 4 ∨ a.off % 4 ≠ 0 then 2
  else match pageInfo a.die a.page with
    | none => 1
    | some i =>
      if heldInReset s a.master a.die a.page i.kind then 5
      else if asleepTo s a.die a.page i a.off then 6
      else if write && !permitted s a.die a.page i.kind a.master then 3
      else 0

/-! ### Reading -/

/-- FREEZE_CTL = 1 is in effect on a page. -/
def freezeCtl (s : State) (die page : Nat) : Bool := (reg s die page 0x48).toNat.testBit 1

/-- The entry a banked register stands for now. -/
def selOf (s : State) (die page : Nat) (row : RegRow) : Nat :=
  match row.bank with | some (o, hi, lo) => rfld s die page o hi lo | none => 0

/-- The value in effect of a RWS register, and its shadow value (R48). -/
def rwsEff (s : State) (die page : Nat) (row : RegRow) : Word :=
  reg s die (homePage die page row.off) row.off (selOf s die page row)
def rwsShadow (s : State) (die page : Nat) (row : RegRow) : Word :=
  match look? s.rg.shadow (rk die page row.off (selOf s die page row)) with
  | some v => v
  | none => rwsEff s die page row

/-- A field that only die (0,0) applies (04), or a group word of a group homed elsewhere (10). -/
def notHere (s : State) (die : Nat) (i : PageInfo) (off : Nat) : Bool :=
  match i.kind with
  | .prs => decide (die ≠ 0) && (decide (off = 0x120) || decide (off = 0x124) || decide (off = 0x128))
  | .seam1 => decide (0x110 ≤ off) && !homedHere s die i.inst
  | _ => false

/-- The value of a register now, latches apart. -/
def readNow (s : State) (die page : Nat) (i : PageInfo) (row : RegRow) : Word :=
  if notHere s die i row.off then 0
  else match row.acc with
  | .wo => 0
  | .rws =>
    if i.kind = .prs ∧ row.off = 0x114 ∧ die ≠ 0 then reg s 0 0 0x114
    else if (reg s die page 0x10).toNat.testBit 0 || (row.prio && freezeCtl s die page) then rwsEff s die page row
    else rwsShadow s die page row
  | .rw => if i.kind = .drn ∨ row.off = 0x44 then view s die page i row.off else reg s die page row.off (selOf s die page row)
  | _ => view s die page i row.off

/-- The view of a register takes a free value. -/
def usesFree (s : State) (k : PageKind) (off : Nat) : Bool :=
  match k with
  | .tile3 | .sto => decide (off = 0x104)
  | .fmc4 => decide (off = 0x130) || (decide (off = 0x10C) && (s.fw.st = .checking || s.fw.st = .programming))
  | _ => false

/-- Key of what a master has latched or holds of a register. -/
def latchKey (m : Master) (die page off : Nat) : Nat := rk die page off (masterNo m)

def setLatch (k : Nat) (v : Word) (s : State) : State := { s with rg := { s.rg with latch := ins s.rg.latch k v } }

/-- What a read of a register latches for its master: the high half of a 64-bit quantity (R37); the rest of a tally, its PRESS and
count (R406). -/
def latchRest (m : Master) (die page : Nat) (i : PageInfo) (row : RegRow) (s : State) : State :=
  let now := s
  let take (off : Nat) (s : State) : State :=
    match rowAt die i off with
    | some r => setLatch (latchKey m die page off) (readNow now die page i r) s
    | none => s
  if i.kind = .tly0 ∧ row.off = 0x110 then
    forEach [0x114, 0x118, 0x11C, 0x120, 0x124, 0x128, 0x12C, 0x130, 0x134, 0x138] take s
  else if row.lo then take (row.off + 4) s else s

/-- A register read: status, value, and the state after it. -/
def regRead (a : RegAcc) (s : State) : Nat × Word × State :=
  let st := accessStatus s a false
  match (if st = 0 then pageInfo a.die a.page else none) with
  | none => (st, 0, s)
  | some i =>
    match rowAt a.die i a.off with
    | none => (0, 0, s)
    | some row =>
      let k := latchKey a.master a.die a.page a.off
      match look? s.rg.latch k with
      | some v => (0, v, { s with rg := { s.rg with latch := drop s.rg.latch k } })
      | none =>
        let v := readNow s a.die a.page i row
        let s := latchRest a.master a.die a.page i row s
        let s := if usesFree s i.kind a.off then freshen s else s
        (0, v, if i.kind = .keep3 ∧ a.off = 0x104 then areaNext s else s)

/-! ### Writing: masks and ranges (R46) -/

/-- The bits of a register that a master's write may change, range checks apart. -/
def writable (i : PageInfo) (row : RegRow) (m : Master) : Nat :=
  let srcs := sourcesOf i.kind
  match row.off with
  | 0x10 => match m with | .host _ => 1 | _ => 3
  | 0x1C => srcs.foldl (fun a e => a + 2 ^ e.1) 0
  | 0x20 | 0x24 | 0x28 | 0x2C =>
    srcs.foldl (fun a e => if e.1 / 8 = (row.off - 0x20) / 4 then a + 7 * 16 ^ (e.1 % 8) else a) 0
  | _ => row.w

/-- The mask of a field if its value in v is out of range. -/
def badIf (c : Bool) (hi lo : Nat) : Nat := if c then 2 ^ (hi + 1) - 2 ^ lo else 0

/-- The value of a field lies outside lo..hi. -/
def outside (x lo hi : Nat) : Bool := decide (x < lo) || decide (x > hi)

/-- The out-of-range fields of a header register (R46). -/
def badHeader (i : PageInfo) (off : Nat) (v : Word) : Nat :=
  if 0x20 ≤ off ∧ off ≤ 0x2C then
    (sourcesOf i.kind).foldl (fun a e =>
      if e.1 / 8 = (off - 0x20) / 4 ∧ wbits v (4 * (e.1 % 8) + 2) (4 * (e.1 % 8)) > 4 then a + 7 * 16 ^ (e.1 % 8) else a) 0
  else if off = 0x48 then badIf (decide (wbits v 15 8 < 2)) 15 8
  else 0

/-- The four shares of ADAPT_SHARE add up to more than 64. -/
def shareBad (v : Word) : Bool := decide (wbits v 7 0 + wbits v 15 8 + wbits v 23 16 + wbits v 31 24 > 64)

/-- The out-of-range fields of a written value (R46 and the rules that own the fields). -/
def badBits (i : PageInfo) (off : Nat) (v : Word) : Nat :=
  if off < 0x100 then badHeader i off v
  else match i.kind with
  | .prs =>
    if off = 0x114 then badIf (outside (wbits v 13 0) 512 8192 || decide (wbits v 13 0 % 256 ≠ 0)) 13 0
    else if off = 0x120 then badIf (decide (wbits v 1 0 = 3)) 1 0 else 0
  | .flt =>
    if 0x1B0 ≤ off then
      badIf (outside (wbits v 11 8) 6 11) 11 8 + badIf (decide (wbits v 3 0 > (if wbits v 11 8 < 10 then 8 else 5))) 3 0
    else 0
  | .tile0 =>
    if off = 0x10C then badIf (decide (wbits v 11 8 > 11)) 11 8
    else if off = 0x114 then badIf (decide (wbits v 3 0 > 11)) 3 0 else 0
  | .tile1 => if off = 0x120 then badIf (decide (wbits v 7 4 > 11)) 7 4 else 0
  | .tile2 => if off = 0x120 then badIf (decide (wbits v 2 0 = 6)) 2 0 else 0
  | .tile3 => if off = 0x108 then badIf (outside (wbits v 9 0) 1 512) 9 0 else 0
  | .cip =>
    if off = 0x100 then badIf (decide (wbits v 15 8 = 0)) 15 8 + badIf (decide (wbits v 7 4 = 0)) 7 4
    else if off = 0x114 then badIf (outside (wbits v 28 24) 4 16) 28 24 + badIf (decide (wbits v 23 16 = 0)) 23 16
    else if off = 0x144 then badIf (outside (wbits v 29 25) 12 30) 29 25 else 0
  | .drn =>
    if off = 0x108 then badIf (decide (wbits v 3 0 > 8)) 3 0
    else if off = 0x110 then badIf (outside (wbits v 4 0) 8 16) 4 0
    else if off = 0x190 then badIf (decide (wbits v 9 0 > 0x2FF)) 9 0
    else if off = 0x124 then badIf (decide (wbits v 3 0 > 8)) 3 0 else 0
  | .bsk =>
    if off = 0x100 then badIf (decide (wbits v 6 0 > 64)) 6 0
    else if off = 0x10C then badIf (decide (wbits v 30 29 = 3)) 30 29 else 0
  | .seam0 => if off = 0x10C then badIf (decide (wbits v 7 0 = 0)) 7 0 else 0
  | .lnk1 =>
    if off = 0x100 then badIf (outside (wbits v 4 0) 16 30) 4 0
    else if off = 0x110 then badIf (shareBad v) 31 0 else 0
  | .hst =>
    if off = 0x108 then badIf (decide (v ≠ 0)) 31 0
    else if off = 0x10C then badIf (decide (wbits v 3 0 ≠ 0)) 31 0 else 0
  | .fmc0 => if off = 0x104 then badIf (outside (wbits v 11 0) 400 1900 || decide (wbits v 11 0 % 10 ≠ 0)) 11 0 else 0
  | .fmc2 => if off = 0x100 then badIf (decide (wbits v 15 8 = 0)) 15 8 else 0
  | .keep1 => if off = 0x110 then badIf (decide (wbits v 4 0 > 23)) 4 0 else 0
  | _ => 0

/-- The value a register takes from a write: its changeable bits, but for the fields out of range. -/
def merged (i : PageInfo) (row : RegRow) (m : Master) (cur v : Word) : Word :=
  let w := w32 (writable i row m) &&& ~~~(w32 (badBits i row.off v))
  (cur &&& ~~~w) ||| (v &&& w)

/-- BAD_WRITE where a changeable field is out of range. -/
def noteBad (die page : Nat) (i : PageInfo) (row : RegRow) (m : Master) (v : Word) (s : State) : State :=
  if w32 (writable i row m) &&& w32 (badBits i row.off v) = 0 then s else badWrite die page s

/-! ### Writing: registers -/

/-- The arbiters a priority register belongs to (R161, R170). -/
def prioArbs (k : PageKind) (off : Nat) : List Nat :=
  match k with
  | .tile0 => [(off - 0x140) / 4]
  | _ => if off = 0x10C then [0, 2] else if off = 0x140 then [1] else [3]

/-- NODE_CFG has fields that are reserved in one kind of node: OVH in class nodes, GATE_EN in port nodes (R11). -/
def unreserved (i : PageInfo) (row : RegRow) (sel : Nat) (v : Word) : Word :=
  match i.kind with
  | .tile2 => if row.off = 0x124 then v &&& ~~~(if sel % 8 = 7 then 0x20000000 else 0xFF0000) else v
  | _ => v

/-- A write of a RWS register: its shadow; a priority register under FREEZE_CTL = 1 takes it at once in both values, if its arbiters
are frozen (R48, R56, R170). -/
def writeRws (die page : Nat) (i : PageInfo) (row : RegRow) (m : Master) (v : Word) (s : State) : State :=
  let sel := selOf s die page row
  let s := noteBad die page i row m v s
  let v := unreserved i row sel v
  if row.prio && freezeCtl s die page then
    if (prioArbs i.kind row.off).all fun a => frozen s die page a then
      setBoth die page row.off sel (merged i row m (rwsEff s die page row) v) s
    else badWrite die page s
  else setShadow die page row.off sel (merged i row m (rwsShadow s die page row) v) s

/-- A write of a RW register. -/
def writeRw (die page : Nat) (i : PageInfo) (row : RegRow) (m : Master) (v : Word) (s : State) : State :=
  let sel := selOf s die page row
  setReg die page row.off sel (merged i row m (reg s die page row.off sel) v) (noteBad die page i row m v s)

/-- A register without an effect of its own. -/
def plainWrite (die page : Nat) (i : PageInfo) (row : RegRow) (m : Master) (v : Word) (s : State) : State :=
  match row.acc with
  | .rws => writeRws die page i row m v s
  | .rw | .rwk => writeRw die page i row m v s
  | .ro => if row.w1 = 0 then s else setReg die page row.off 0 (reg s die page row.off &&& ~~~(v &&& w32 row.w1)) s
  | .wo => s

/-- A saturating count or a peak that a write of 0 clears; another value does nothing (DESIGN CHOICE, log 61). -/
def clearWrite (die page off : Nat) (v : Word) (s : State) : State := if v = 0 then setReg die page off 0 0 s else s

/-- PAGE_STATUS written: COMMIT_LATE, COMMIT_OVERRUN and BAD_WRITE are cleared by a 1. -/
def clearStatus (v : Word) (p : Page) : Page :=
  { p with
    late := p.late && !v.toNat.testBit 5
    overrun := p.overrun && !v.toNat.testBit 4
    bad := p.bad && !v.toNat.testBit 3 }

/-- The header registers. -/
def headerWrite (die page : Nat) (i : PageInfo) (row : RegRow) (m : Master) (v : Word) (s : State) : State :=
  match row.off with
  | 0x14 => modPage die page (clearStatus v) s
  | 0x18 => clearFaults die page v s
  | 0x40 => shadowCommit die page v s
  | _ => plainWrite die page i row m v s

/-- RESET_CMD (R501 to R505). -/
def resetCmd (m : Master) (v : Word) (s : State) : State :=
  let die := wbits v 21 16
  let part := wbits v 15 8
  if !v.toNat.testBit 31 then s
  else match wbits v 30 28 with
  | 1 => fabricReset false s
  | 2 => resetPart (.dieReset m die) 2 die 0 s
  | 3 => resetPart (.tileReset m die part) 3 die part s
  | 4 => resetPart (.portReset m die part) 4 die part s
  | _ => resetResult 2 s

/-- CTX_CMD (R509). -/
def ctxCmdWrite (m : Master) (v : Word) (s : State) : State :=
  let c := wbits v 10 0
  if !v.toNat.testBit 31 then s
  else match wbits v 29 28 with
  | 1 => ctxCmd (.contextActivate m c) 1 c s
  | 2 => ctxCmd (.contextDeactivate m c) 2 c s
  | 3 => ctxCmd (.contextResetRequest m c) 3 c s
  | _ => s

/-- LP_CMD (R510, R513). -/
def lpCmd (v : Word) (s : State) : State :=
  if !v.toNat.testBit 31 then s
  else match wbits v 1 0 with
  | 1 => lpEnter false s
  | 2 => lpEnter true s
  | 3 => lpLeave s
  | _ => s

/-- A command held during the pause executes (R551). -/
def heldRun (i : Instr) (s : State) : State :=
  match i with
  | .dieReset _ die => resetPart i 2 die 0 s
  | .tileReset _ die t => resetPart i 3 die t s
  | .portReset _ die p => resetPart i 4 die p s
  | .contextActivate _ c => ctxCmd i 1 c s
  | .contextDeactivate _ c => ctxCmd i 2 c s
  | .contextResetRequest _ c => ctxCmd i 3 c s
  | _ => s

/-- CHECKPOINT_CMD: a CHECKPOINT entry with LABEL at the next step 5 (R403). -/
def checkpoint (die : Nat) (v : Word) (s : State) : State :=
  let c := 16 * wbits v 6 0 + memNo die
  let ident := leBytes 2 c ++ [0, 0, 4, 0, 0, 0] ++ leBytes 8 (reg64 s die 0x690 0x150).toNat
  let e : TEntry := { kind := 4, key := [], press := pressOf s die, ident := ident, digest := List.replicate 32 0 }
  if v.toNat.testBit 31 then enterTally c e s else s

/-- The registers of a SEAM page's subpage 1: a group homed elsewhere takes no write (10). -/
def groupWrite (die page : Nat) (i : PageInfo) (row : RegRow) (m : Master) (v : Word) (s : State) : State :=
  if notHere s die i row.off then badWrite die page s else plainWrite die page i row m v s

/-- SPARE_CFG with a position that does not exist keeps the position it held (R46). -/
def spareWrite (die : Nat) (v : Word) (s : State) : State :=
  let top := match dieType die with | .compute => 8 | _ => 4
  if dieType die ≠ .io ∧ v.toNat.testBit 31 ∧ wbits v 3 0 > top then
    spareSet die (w32 (2 ^ 31 + (spareCfg s die).toNat % 16)) (badWrite die 1 s)
  else spareSet die v s

/-- GOV_CEILING: a ceiling taken is counted (R29). -/
def ceilingWrite (i : PageInfo) (row : RegRow) (m : Master) (v : Word) (s : State) : State :=
  let s := plainWrite 0 0x720 i row m v s
  if badBits i 0x104 v = 0 then addCount 0 0x720 2 1 { s with nt := { s.nt with govAge := 0 } } else s

/-- PAIR_CFG lives in Keep. -/
def pairWrite (i : PageInfo) (row : RegRow) (m : Master) (v : Word) (s : State) : State :=
  noteBad 0 0x722 i row m v { s with kp := { s.kp with pairCfg := merged i row m s.kp.pairCfg v } }

/-- The FMC pages. -/
def fmcWrite (page : Nat) (i : PageInfo) (row : RegRow) (m : Master) (v : Word) (s : State) : State :=
  match i.kind, row.off with
  | .fmc0, 0x104 => ceilingWrite i row m v s
  | .fmc0, 0x114 => clearWrite 0 page 0x114 v s
  | .fmc1, 0x10C => if v.toNat.testBit 2 then { s with pl := { s.pl with strapChanged := false } } else s
  | .fmc1, 0x150 => planCmd v s
  | .fmc2, 0x100 => pairWrite i row m v s
  | .fmc2, 0x110 => if v.toNat.testBit 31 then { s with pr := { s.pr with divValid := false } } else s
  | .fmc3, 0x100 => resetCmd m v s
  | .fmc3, 0x110 => ctxCmdWrite m v s
  | .fmc3, 0x124 => lp1Write 0 v s
  | .fmc3, 0x128 => lp1Write 1 v s
  | .fmc3, 0x12C => lp1Write 2 v s
  | .fmc3, 0x130 => lp1Write 3 v s
  | .fmc3, 0x150 => lpCmd v s
  | .fmc4, 0x100 => fwCmd v s
  | _, _ => plainWrite 0 page i row m v s

/-- The Keep pages (R519 to R523, R580). -/
def keepWrite (page : Nat) (i : PageInfo) (row : RegRow) (m : Master) (v : Word) (s : State) : State :=
  match i.kind, row.off with
  | .keep0, 0x100 => if v.toNat.testBit 31 then { s with kp := { s.kp with lost := false } } else s
  | .keep0, 0x108 => rollbackSet v s
  | .keep1, 0x104 => acceptSet (selOf s 0 page row) false v s
  | .keep1, 0x108 => acceptSet (selOf s 0 page row) true v s
  | .keep3, 0x104 => areaSet v s
  | .keep0, o => if 0x110 ≤ o ∧ o ≤ 0x12C then unitHashSet ((o - 0x110) / 4) v s else plainWrite 0 page i row m v s
  | _, _ => plainWrite 0 page i row m v s

/-- The pages of links, modules and host adapters (13). -/
def ioWrite (die page : Nat) (i : PageInfo) (row : RegRow) (m : Master) (v : Word) (s : State) : State :=
  match i.kind, row.off with
  | .dbr, 0x100 => linkCtrl die page v s
  | .lnk0, 0x100 => linkCtrl die page v s
  | .opt, 0x100 => doIf (v.toNat.testBit 1) (rescan die i.inst) (optCtrl die i.inst v s)
  | .hst, 0x110 => modHost ((hostPortOf die).getD 0) (fun x => { x with cause := x.cause &&& ~~~v }) s
  | .hst, 0x114 =>
    if v.toNat.testBit 31 then modHost ((hostPortOf die).getD 0) (fun x => { x with errValid := false }) s else s
  | _, _ => plainWrite die page i row m v s

/-- What a permitted write of a register does. -/
def writeEffect (die page : Nat) (i : PageInfo) (row : RegRow) (m : Master) (v : Word) (s : State) : State :=
  if row.off < 0x100 then headerWrite die page i row m v s
  else match i.kind with
  | .prs =>
    if row.off = 0x130 then clearWrite die page 0x130 v s
    else if notHere s die i row.off ∨ (row.off = 0x114 ∧ die ≠ 0) then s
    else plainWrite die page i row m v s
  | .flt =>
    if row.off = 0x120 then spareWrite die v s
    else if row.off = 0x180 then errCtrl v s
    else plainWrite die page i row m v s
  | .tile0 => if row.off = 0x130 then clearWrite die page 0x130 v s else plainWrite die page i row m v s
  | .drn =>
    if row.off = 0x194 then psStore die page v s
    else if row.off = 0x1A8 then psLoadStart die page v s
    else plainWrite die page i row m v s
  | .seam0 => if row.off = 0x114 then abortCmdEffect die page v s else plainWrite die page i row m v s
  | .seam1 => groupWrite die page i row m v s
  | .tly0 => if row.off = 0x158 then checkpoint die v s else plainWrite die page i row m v s
  | .dbr | .lnk0 | .opt | .hst => ioWrite die page i row m v s
  | .fmc0 | .fmc1 | .fmc2 | .fmc3 | .fmc4 => fmcWrite page i row m v s
  | .keep0 | .keep1 | .keep2 | .keep3 => keepWrite page i row m v s
  | .tile1 | .tile2 | .tile3 | .cip | .bsk | .seam2 | .peg | .tly1 | .lnk1 | .sto =>
    plainWrite die page i row m v s

/-! ### The halves of a 64-bit quantity (R37) -/

/-- The register is the high half of a pair. -/
def isHigh (i : PageInfo) (off : Nat) : Bool :=
  match findRow i.kind (off - 4) with | some r => decide (off ≥ 4) && r.lo | none => false

/-- A write of APERTURE with a nonzero must-be-zero bit in either half is ignored. -/
def apertureBad (i : PageInfo) (off : Nat) (lo hi : Word) : Bool :=
  i.kind = .hst && decide (off = 0x108) && (decide (badBits i 0x108 lo ≠ 0) || decide (badBits i 0x10C hi ≠ 0))

/-- A write of a low half together with the high half its master holds: both in one cycle. -/
def writePair (die page : Nat) (i : PageInfo) (row : RegRow) (m : Master) (lo hi : Word) (s : State) : State :=
  if apertureBad i row.off lo hi then badWrite die page s
  else
    let s := match rowAt die i (row.off + 4) with
      | some r => writeEffect die page i r m hi s
      | none => s
    writeEffect die page i row m lo s

/-- A permitted write: the high half of a pair is held, a low half takes the held one with it. -/
def writeRow (die page : Nat) (i : PageInfo) (row : RegRow) (m : Master) (v : Word) (s : State) : State :=
  let k := latchKey m die page (row.off + 4)
  if isHigh i row.off then { s with rg := { s.rg with held := ins s.rg.held (latchKey m die page row.off) v } }
  else if row.lo then
    match look? s.rg.held k with
    | some hi => writePair die page i row m v hi { s with rg := { s.rg with held := drop s.rg.held k } }
    | none => writeEffect die page i row m v s
  else writeEffect die page i row m v s

/-- A register write: status and the state after it. -/
def regWrite (a : RegAcc) (s : State) : Nat × State :=
  let st := accessStatus s a true
  match (if st = 0 then pageInfo a.die a.page else none) with
  | none => (st, s)
  | some i =>
    match rowAt a.die i a.off with
    | none => (0, s)
    | some row => (0, writeRow a.die a.page i row a.master a.value s)

/-! ### Meanings -/

/-- A read command of a master. -/
def doRead (a : RegAcc) (s : State) : State :=
  if masterOn s a.master then
    let rp := regRead a s
    let st := rp.1
    let v := rp.2.1
    let s := rp.2.2
    emit (.regDone a.master st v) s
  else s

/-- A write command of a master. -/
def doWrite (a : RegAcc) (s : State) : State :=
  if masterOn s a.master then
    let rp := regWrite a s
    let st := rp.1
    let s := rp.2
    emit (.regDone a.master st 0) s
  else s

/-- A write of one register of the local package. -/
def writeOf (m : Master) (die page off : Nat) (v : Word) (s : State) : State :=
  doWrite { master := m, pkg := pkgNo s, die := die, page := page, off := off, value := v } s

/-- A command register's value: GO with fields. -/
def goWord (n : Nat) : Word := w32 (2 ^ 31 + n)

def execRegisterWrite (a : RegAcc) (s : State) : Host.Outcome State Fault Refusal := .next (doWrite a s)
def execLowHalfRead (a : RegAcc) (s : State) : Host.Outcome State Fault Refusal := .next (doRead a s)
def execTally0Read (a : RegAcc) (s : State) : Host.Outcome State Fault Refusal := .next (doRead { a with off := 0x110 } s)
def execPriorityRegisterWrite (a : RegAcc) (s : State) : Host.Outcome State Fault Refusal := .next (doWrite a s)
def execShadowCommitImmediate (m : Master) (die page : Nat) (s : State) : Host.Outcome State Fault Refusal :=
  .next (writeOf m die page 0x40 1 s)
def execShadowCommitNextBoundary (m : Master) (die page : Nat) (s : State) : Host.Outcome State Fault Refusal :=
  .next (writeOf m die page 0x40 3 s)
def execShadowCommitScheduled (m : Master) (die page : Nat) (s : State) : Host.Outcome State Fault Refusal :=
  .next (writeOf m die page 0x40 5 s)
def execShadowCommitCancel (m : Master) (die page : Nat) (s : State) : Host.Outcome State Fault Refusal :=
  .next (writeOf m die page 0x40 8 s)
def execArbFreezeWrite (m : Master) (die page : Nat) (value : Word) (s : State) : Host.Outcome State Fault Refusal :=
  .next (writeOf m die page 0x44 value s)
def execGovCeilingWrite (m : Master) (value : Word) (s : State) : Host.Outcome State Fault Refusal :=
  .next (writeOf m 0 0x720 0x104 value s)
def execPlanCheck (m : Master) (s : State) : Host.Outcome State Fault Refusal := .next (writeOf m 0 0x721 0x150 1 s)
def execPlanAdopt (m : Master) (s : State) : Host.Outcome State Fault Refusal := .next (writeOf m 0 0x721 0x150 2 s)
def execPlanCancel (m : Master) (s : State) : Host.Outcome State Fault Refusal := .next (writeOf m 0 0x721 0x150 4 s)
def execPsDataLoWrite (m : Master) (die page : Nat) (value : Word) (s : State) : Host.Outcome State Fault Refusal :=
  .next (writeOf m die page 0x194 value s)
def execPsLoadCmd (m : Master) (die page : Nat) (value : Word) (s : State) : Host.Outcome State Fault Refusal :=
  .next (writeOf m die page 0x1A8 value s)
def execPsLoadComplete (die tile : Nat) (s : State) : Host.Outcome State Fault Refusal := .next (psLoadEnd die tile s)
def execSeamAbortCmd (m : Master) (die page : Nat) (value : Word) (s : State) : Host.Outcome State Fault Refusal :=
  .next (writeOf m die page 0x114 value s)
def execCheckpointCmd (m : Master) (die page : Nat) (value : Word) (s : State) : Host.Outcome State Fault Refusal :=
  .next (writeOf m die page 0x158 value s)
def execDbrRetrain (m : Master) (die page : Nat) (value : Word) (s : State) : Host.Outcome State Fault Refusal :=
  .next (writeOf m die page 0x100 value s)
def execLnkRetrain (m : Master) (die page : Nat) (value : Word) (s : State) : Host.Outcome State Fault Refusal :=
  .next (writeOf m die page 0x100 value s)
def execOptRescan (m : Master) (die page : Nat) (value : Word) (s : State) : Host.Outcome State Fault Refusal :=
  .next (writeOf m die page 0x100 value s)
def execErrCtrlWrite (m : Master) (value : Word) (s : State) : Host.Outcome State Fault Refusal :=
  .next (writeOf m 0 1 0x180 value s)
def execFabricReset (m : Master) (s : State) : Host.Outcome State Fault Refusal :=
  .next (writeOf m 0 0x723 0x100 (goWord (1 * 2 ^ 28)) s)
def execDieReset (m : Master) (die : Nat) (s : State) : Host.Outcome State Fault Refusal :=
  .next (writeOf m 0 0x723 0x100 (goWord (2 * 2 ^ 28 + die % 64 * 2 ^ 16)) s)
def execTileReset (m : Master) (die tile : Nat) (s : State) : Host.Outcome State Fault Refusal :=
  .next (writeOf m 0 0x723 0x100 (goWord (3 * 2 ^ 28 + die % 64 * 2 ^ 16 + tile % 256 * 2 ^ 8)) s)
def execPortReset (m : Master) (die port : Nat) (s : State) : Host.Outcome State Fault Refusal :=
  .next (writeOf m 0 0x723 0x100 (goWord (4 * 2 ^ 28 + die % 64 * 2 ^ 16 + port % 256 * 2 ^ 8)) s)
def execContextActivate (m : Master) (ctx : Nat) (s : State) : Host.Outcome State Fault Refusal :=
  .next (writeOf m 0 0x723 0x110 (goWord (1 * 2 ^ 28 + ctx % 2048)) s)
def execContextDeactivate (m : Master) (ctx : Nat) (s : State) : Host.Outcome State Fault Refusal :=
  .next (writeOf m 0 0x723 0x110 (goWord (2 * 2 ^ 28 + ctx % 2048)) s)
def execContextResetRequest (m : Master) (ctx : Nat) (s : State) : Host.Outcome State Fault Refusal :=
  .next (writeOf m 0 0x723 0x110 (goWord (3 * 2 ^ 28 + ctx % 2048)) s)
def execLp2Enter (m : Master) (s : State) : Host.Outcome State Fault Refusal := .next (writeOf m 0 0x723 0x150 (goWord 1) s)
def execLp3Enter (m : Master) (s : State) : Host.Outcome State Fault Refusal := .next (writeOf m 0 0x723 0x150 (goWord 2) s)
def execLpExit (m : Master) (s : State) : Host.Outcome State Fault Refusal := .next (writeOf m 0 0x723 0x150 (goWord 3) s)
def execLp1ReqWrite (m : Master) (index : Nat) (value : Word) (s : State) : Host.Outcome State Fault Refusal :=
  .next (writeOf m 0 0x723 (0x124 + 4 * (index % 4)) value s)
def execRollbackWrite (m : Master) (value : Word) (s : State) : Host.Outcome State Fault Refusal :=
  .next (writeOf m 0 0x730 0x108 value s)
def execAreaDataWrite (m : Master) (value : Word) (s : State) : Host.Outcome State Fault Refusal :=
  .next (writeOf m 0 0x733 0x104 value s)
def execAreaDataRead (m : Master) (s : State) : Host.Outcome State Fault Refusal :=
  .next (doRead { master := m, pkg := pkgNo s, die := 0, page := 0x733, off := 0x104 } s)
def execFwCheck (m : Master) (s : State) : Host.Outcome State Fault Refusal :=
  .next (writeOf m 0 0x724 0x100 (goWord (1 * 2 ^ 28)) s)
def execFwProgram (m : Master) (s : State) : Host.Outcome State Fault Refusal :=
  .next (writeOf m 0 0x724 0x100 (goWord (2 * 2 ^ 28)) s)
def execFwActivate (m : Master) (s : State) : Host.Outcome State Fault Refusal :=
  .next (writeOf m 0 0x724 0x100 (goWord (3 * 2 ^ 28)) s)
def execFwCancel (m : Master) (s : State) : Host.Outcome State Fault Refusal :=
  .next (writeOf m 0 0x724 0x100 (goWord (4 * 2 ^ 28)) s)
def execFwBind (m : Master) (s : State) : Host.Outcome State Fault Refusal :=
  .next (writeOf m 0 0x724 0x100 (goWord (5 * 2 ^ 28)) s)

end Sys2Proof.Machine
end

