-- ==== Sys2Proof/Machine/Boundary.lean ====
section
/-! DEFINITION. The fold and the boundary between two Presses (04: R88 to R90, R101 to R111; 01: R30; 11: R369; 16: R544 to R551). -/
namespace Sys2Proof.Machine

/-! ### The fold (R89, R108, R109) -/

/-- A multicast descriptor is posted on the package: it keeps automatic mode from locking (R109, R110). -/
def weightPosted (s : State) : Bool := s.ci.tiles.any fun e => e.2.descs.any fun d => decide (d.kind = 2)

/-- The lock state of Press m, decided in the fold of Press m − 2 from die (0,0)'s LOCK_MODE and LOCK_MASK. -/
def lockOf (m : Nat) (s : State) : Bool :=
  match rfld s 0 0 0x120 1 0 with
  | 1 => !weightPosted s
  | 2 => (reg64 s 0 0 0x124).toNat.testBit (m % 64)
  | _ => false

/-- FOLD_START: the last F cycles of the Press begin, the tally values are readable, the lock state of Press n + 2 is decided, deltas go
out; during an activation pause no link carries one (R429). -/
def foldStart (s : State) : State :=
  let d := refDie s
  if s.tm.inFold ∨ !running s d ∨ lpSleeps s then s
  else
    let n := pressOf s d
    let s := advanceTo ((unitOf s d).start + budgetB s d) s
    let s := showTallies { s with tm := { s.tm with inFold := true, lockAfter := lockOf (n + 2) s } }
    if s.fw.carried then s else sendDeltas n s

/-! ### Step 1 -/

/-- A Press unit at a boundary: a unit in RUN counts on (R90); one in ARMED keeps to its phase, up to cycle t. -/
def stepUnit (t : Nat) (u : PressUnit) : PressUnit :=
  let c := pressCycles u.period
  match u.st with
  | .run => { u with press := u.press + 1, start := u.start + c }
  | .armed => { u with start := u.start + (t - u.start) / c * c }
  | .unset => u

/-- The links have no marker of the Press that begins. -/
def noMarkers (ls : SMap Link) : SMap Link :=
  (ls.map fun (e : Nat × Link) => (e.1, { e.2 with markerOk := false })).filter fun e => e.2 ≠ {}

/-- Every unit counts; a Press of an activation pause is left out of the paused counts (R549). -/
def step1 (s : State) : State :=
  let f (e : Nat × PressUnit) : Nat × PressUnit := (e.1, stepUnit s.tm.fclk e.2)
  { s with
    tm := { s.tm with units := s.tm.units.map f, inFold := false }
    lk := { s.lk with mods := noMarkers s.lk.mods, ports := noMarkers s.lk.ports }
    fw := { s.fw with pausedPresses := s.fw.pausedPresses + b2n s.fw.carried } }

/-- The seams' loads that a Press of a pause puts off, at its end (R549). -/
def putOffLoads (s : State) : State := if s.fw.carried then pauseLoads (pkgPress s) s else s

/-- A strap input that differs from its sample is raised at every boundary (R61). -/
def checkStraps (s : State) : State :=
  if s.tm.strapsLive = s.tm.straps then s else raise0 0 0x721 0 { s with pl := { s.pl with strapChanged := true } }

/-! ### Step 4: ordered release (R106, R369) -/

/-- The source rank of an entry of a queue owned by a context. -/
def sourceRank (s : State) (ctx : Nat) (e : QEntry) : Nat :=
  let w := e.word.toNat
  2 ^ 20 * (sliceOf s ctx).idxOf (bits w 43 32) + 2 ^ 14 * bits w 49 44 + 2 ^ 7 * bits w 56 50 + bits w 63 57

/-- SSEQ of an entry. -/
def entrySeq (e : QEntry) : BitVec 16 := BitVec.ofNat 16 (bits e.word.toNat 31 16)

/-- Release order: source rank, then SSEQ as serial numbers. -/
def releasesFirst (s : State) (ctx : Nat) (a b : QEntry) : Bool :=
  let x := sourceRank s ctx a
  let y := sourceRank s ctx b
  decide (x < y) || (decide (x = y) && seqLt (entrySeq a) (entrySeq b))

/-- The RELEASE entry of a queue (R403). -/
def releaseEntry (die n q ctx press : Nat) (es : List QEntry) : TEntry :=
  { kind := 3, key := [die, n, q], press := press, digest := sha3 (es.flatMap entryBytes),
    ident := leBytes 2 ctx ++ leBytes 1 die ++ leBytes 1 n ++ [3, 0] ++ leBytes 2 q ++ leBytes 8 press }

/-- One queue releases the entries stamped up to the Press that ends. -/
def releaseQueue (die n q press : Nat) (s : State) : State :=
  let x := queueOf s die n q
  let ctx := (qcfg s die n q).ctx
  let es := sortBy (releasesFirst s ctx) (x.held.filter fun e => decide (e.stamp ≤ press))
  if es = [] then s
  else
    let s := modQueue die n q (fun x => { x with held := x.held.filter fun e => decide (e.stamp > press) }) s
    let s := forEach es (fun e s => makeVisible die n q e s) s
    doIf (chainOrd s ctx) (enterTally ctx (releaseEntry die n q ctx press es)) s

/-- Every queue of the dies that act. -/
def releaseAll (acts : Nat → Bool) (press : Nat) (s : State) : State :=
  forEach (s.ci.tiles.filter fun e => acts (e.1 / 256)) (fun e s =>
    forEach (e.2.queues.filter fun x => x.2.held ≠ []) (fun x s => releaseQueue (e.1 / 256) (e.1 % 256) x.1 press s) s) s

/-! ### Step 6 (R30, R109, R185) -/

/-- The estimate of the Press that ended: a free value, held by R30 to what keeps four Presses since the ceiling write's second boundary
at or below the ceiling on average (log 71). -/
def govEstimate (s : State) : Nat :=
  let x := freeVal s % 65536
  let room := 4 * rfld s 0 0x720 0x104 11 0 - (s.nt.govEst.take (min 3 (s.nt.govAge - 1))).foldl (· + ·) 0
  if s.nt.govAge = 0 then x else min x room

/-- The governor: the level decided before takes effect; a new one, a free value, is decided for the Press after. GOV_AVERAGE is the sum of
the last four estimates by 4, rounded down; an estimate not yet made counts 0 (the manual gives neither: DESIGN CHOICE, log 71). -/
def govern (s : State) : State :=
  if !s.fw.running then s
  else
    let e := govEstimate s
    let s := freshen s
    let next := freeVal s % 16
    let s := freshen s
    let was := govLevel s
    let level := rfld s 0 0x720 0x108 11 8
    let es := (e :: s.nt.govEst).take 4
    let avg := es.foldl (· + ·) 0 / 4
    let s := { s with nt := { s.nt with
      govEst := es, govAge := s.nt.govAge + 1, govHist := if was = level then s.nt.govHist else (s.tm.fclk, level) :: s.nt.govHist } }
    let s := setReg 0 0x720 0x108 0 (w32 (next * 256 + level)) s
    let s := setReg 0 0x720 0x10C 0 (w32 e) (setReg 0 0x720 0x110 0 (w32 avg) s)
    let s := setReg 0 0x720 0x114 0 (w32 (max avg (rfld s 0 0x720 0x114 15 0))) s
    let s := doIf (decide (level > 0)) (addCount 0 0x720 0 1) s
    doIf (decide (level ≥ 12)) (addCount 0 0x720 1 1) s

/-- The plane lock state of the new Press. -/
def shiftLock (s : State) : State :=
  { s with tm := { s.tm with lockNow := s.tm.lockNext, lockNext := s.tm.lockAfter } }

def step6 (s : State) : State := shiftLock (govern (takeGates s))

/-! ### Step 7 and what follows it -/

/-- Work admitted to the Press that ended and still running is late (R103). -/
def markAllLate (s : State) : State := forEach s.dr.tiles (fun e s => markLate (e.1 / 256) (e.1 % 256) s) s

/-- Admission opens for Press m: activations, opens of a promotion, held work of every tile of the dies that act, seams. -/
def step7 (acts : Nat → Bool) (m : Nat) (s : State) : State :=
  let s := ctxStep7 (mirrorStep7 s)
  let s := forEach ((s.ci.tiles.map (·.1)).filter fun k => acts (k / 256)) (fun k s =>
    cipStep7 (k / 256) (k % 256) (resumePaused (k / 256) (k % 256) s)) s
  let s := forEach ((s.dr.tiles.map (·.1)).filter fun k => acts (k / 256)) (fun k s => darnersStep7 (k / 256) (k % 256) s) s
  let s := seamsStep7 m s
  settleAll (if s.pr.following then s else promoteOpens s)

/-- The code of a Press-unit state (R92). -/
def pressCode : PressState → Nat
  | .unset => 0 | .armed => 1 | .run => 2

/-- A MARKER in the first control slot on every module that is UP, and on every Sundi port of a die without MARKER_OFF (R96, R428). A
die in the safe state sends only FAULT_IDLE (R429). It goes out in the cycle of the boundary: LAG is 0 (log 128). -/
def markers (s : State) : State :=
  let send (die link : Nat) (l : Link) (s : State) : State :=
    let u := unitOf s die
    if (l.st = .up ∨ l.st = .ready) ∧ u.st ≠ .unset ∧ !isSafe s die then
      sendSym die link 2 (pressCode u.st * 2 ^ 106 + u.period % 2 ^ 18 * 2 ^ 88 + u.press % 2 ^ 64) s else s
  let s := forEach s.lk.mods (fun e s => send (e.1 / 16) (e.1 % 16) e.2 s) s
  forEach s.lk.ports (fun e s =>
    let die := portDie e.1
    if (reg s die 0 0x100).toNat.testBit 1 then s else send die (16 + e.1 % 6) e.2 s) s

/-! ### The activation pause (R544 to R551) -/

/-- k of R546, and whether the pause ends at a boundary. -/
def pausePresses (period : Nat) : Nat := ceilDiv 46875 period
def pauseAtBoundary (period : Nat) : Bool := decide (pausePresses period * period ≤ 62500)

/-- The end of a pause that no boundary ends, in FCLK cycles: 62,500 reference cycles after its start. -/
def pauseLimit (s : State) : Nat := s.fw.pauseFrom + pressCycles 62500

/-- A KEEPALIVE on every link that is UP, or READY (R429). -/
def keepAlives (s : State) : State :=
  let send (die link : Nat) (l : Link) (s : State) : State := if l.st = .up ∨ l.st = .ready then sendSym die link 5 0 s else s
  let s := forEach s.lk.mods (fun e s => send (e.1 / 16) (e.1 % 16) e.2 s) s
  forEach s.lk.ports (fun e s => send (portDie e.1) (16 + e.1 % 6) e.2 s) s

/-- The pause begins. -/
def pauseBegins (s : State) : State :=
  keepAlives <| fwState .pause { s with fw := { s.fw with inPause := true, carried := true, pauseFrom := s.tm.fclk, loaded := false } }

/-- What the pause held of every link's replays goes on (R429). -/
def resumeLinks (s : State) : State :=
  let s := forEach s.lk.mods (fun e s => resumeLink (e.1 / 16) (e.1 % 16) s) s
  forEach s.lk.ports (fun e s => resumeLink (portDie e.1) (16 + e.1 % 6) s) s

/-- The pause ends: injection resumes, every Sundi port sends an identity frame, an activation that has taken effect completes, one that
has not is abandoned (R545, R547). -/
def pauseStops (s : State) : State :=
  let s := resumeLinks { s with fw := { s.fw with inPause := false, pauseLast := (s.tm.fclk - s.fw.pauseFrom) * 5 / 64 } }
  let s := forEach (s.lk.ports.filter fun e => decide (e.2.st = .up) || decide (e.2.st = .ready)) (fun e s => sendIdent e.1 s) s
  if s.fw.st = .pause then fwIdle (if s.fw.loaded then 0 else 0xA1) s else s

/-- The commands held during the pause execute at the boundary of R547. -/
def runHeld (s : State) : State :=
  let cs := s.rs.heldCmds
  forEach cs heldRun { s with rs := { s.rs with heldCmds := [] } }

/-! ### The boundary (R105) -/

/-- Steps 2 to 6 of the boundary from Press n: on a package that carries the work of a pause, of every boundary since its start. -/
def steps2to6 (n : Nat) (promoted : Bool) (s : State) : State :=
  let on : Nat → Bool := fun d => running s d
  let acts : Nat → Bool := fun d => running s d && !isSafe s d
  let s := planStep (n + 1) (commitsStep2 on (n + 1) s)
  let s := ctxStep3 (mirrorStep3 s)
  let s := seamsBoundary n (releaseAll acts n s)
  let s := doIf promoted (fun s => epochAll 3 n (promotePegs s)) s
  let s := doIf (s.fw.carried && s.fw.loaded) (epochAll 1 (n + 1)) s
  step6 (tallyStep (mirrorStep5 s))

/-- What ends with the boundary of R547. -/
def carriedDone (s : State) : State := { s with fw := { s.fw with carried := false, loaded := s.fw.loaded && s.fw.inPause } }

/-- Step 7 and what the boundary does after it; `start`: the pause begins here instead. -/
def afterSteps (start : Bool) (acts : Nat → Bool) (n : Nat) (s : State) : State :=
  if start then pauseBegins s
  else
    let s := carriedDone s
    if acts (refDie s) && !lpSleeps s then lp1Step (step7 acts (n + 1) s) else s

/-- A boundary of a package in which every step is performed; step 7 is not where the pause begins. -/
def fullBoundary (s : State) : State :=
  let n := pkgPress s
  let promoted := promotes s
  let before := chainCounts s
  let s := doIf promoted promote s
  let s := step1 (putOffLoads s)
  let s := doIf (decide (n = s.pl.adoptPress) && s.pl.cur.isSome && s.pl.next.isNone) planLate s
  let s := checkStraps (doIf s.fw.carried runHeld s)
  let s := mirrorBase n s
  let ns := mirrorDeltas n s
  let s := mirrorTake n s
  let s := mirrorAck ns (steps2to6 n promoted (markAllLate s))
  let acts : Nat → Bool := fun d => running s d && !isSafe s d
  let start := s.fw.st = .armed && decide (n + 1 ≥ s.fw.actPress) && !s.fw.carried
  let s := countAcks n s
  let s := afterSteps start acts n s
  routeAround (closeDelta n before s)

/-- A boundary inside the pause: the number advances, the work of the other steps is carried (R547); a primary's delta of it waits. -/
def pausedBoundary (s : State) : State := closeDelta (pkgPress s) (chainCounts s) (step6 (checkStraps (step1 (putOffLoads s))))

/-- The clock at a boundary; in LP2 only the Press units run (R510). -/
def reach (t : Nat) (s : State) : State :=
  if lpSleeps s then setClock (max t s.tm.fclk) s else advanceTo t s

/-- The Press of a package in RUN ends. -/
def runBoundary (s : State) : State :=
  let d := refDie s
  let u := unitOf s d
  let t := u.start + pressCycles u.period
  let s := foldStart s
  let s := if s.fw.inPause ∧ !pauseAtBoundary u.period ∧ pauseLimit s ≤ t then pauseStops (advanceTo (pauseLimit s) s) else s
  let s := reach t s
  let s := if s.fw.inPause ∧ pauseAtBoundary u.period ∧ u.press + 1 ≥ s.fw.actPress + pausePresses u.period then pauseStops s else s
  let s := if s.rs.lp = .leaving then lpStep s else s
  let s := if s.fw.inPause then pausedBoundary s else fullBoundary s
  markers (lpStep s)

/-- The inputs that have changed since the last boundary take their values (log 113). -/
def takePins (p : Pins) (s : State) : State :=
  let s := match p.straps with | some x => { s with tm := { s.tm with strapsLive := x } } | none => s
  forEach p.hosts (fun e s => hostPins e.1 e.2 s) s

/-- PRESS_BOUNDARY: of the units in RUN and, where there is none, of the first unit in ARMED. -/
def boundary (pins : Pins) (s : State) : State :=
  let s := takePins pins s
  if s.tm.porLow then s
  else if running s (refDie s) then runBoundary s
  else match allDies.find? fun d => decide ((unitOf s d).st = .armed) with
    | some d => markers (step1 (reach ((unitOf s d).start + cyclesC s d) s))
    | none => s

/-- PAUSE_END: within a Press, or with the boundary that ends the pause. -/
def pauseEnd (s : State) : State :=
  let u := unitOf s (refDie s)
  if !s.fw.inPause ∨ !running s (refDie s) then s
  else if pauseAtBoundary u.period then
    if u.press + 1 = s.fw.actPress + pausePresses u.period then boundary {} s else s
  else if pauseLimit s ≤ u.start + pressCycles u.period then pauseStops (advanceTo (pauseLimit s) s)
  else s

def execPressBoundary (s : State) (pins : Pins := {}) : Host.Outcome State Fault Refusal := .next (boundary pins s)
def execFoldStart (s : State) : Host.Outcome State Fault Refusal := .next (foldStart s)
def execPauseEnd (s : State) : Host.Outcome State Fault Refusal := .next (pauseEnd s)

end Sys2Proof.Machine
end

