-- ==== Sys2Proof/Machine/Frames.lean ====
section
/-! DEFINITION. What arrives over a link (13: R427 to R432, R438 to R441, R443): groups of a bridge module and courses of a Sundi
port, their control symbols, flits and units put together to packets, acknowledgement and replay requests. -/
namespace Sys2Proof.Machine

/-! ### Control symbols received (R427, R428) -/

/-- Entries of a CREDIT symbol: plane, VC, class, credits. -/
def creditEntries (body n : Nat) : List (Nat × Nat × Nat × Nat) :=
  (List.range n).map fun k =>
    let e := bits body (16 * k + 15) (16 * k)
    (bits e 15 14, bits e 13 12, bits e 11 10, bits e 9 0)

/-- The Press-unit state of a code (R92); code 3 is reserved. -/
def pressStOf : Nat → Option PressState
  | 0 => some .unset | 1 => some .armed | 2 => some .run | _ => none

/-- A control symbol's fields that must be 0 are 0, and its TYPE is none of the reserved ones. -/
def symGood (typ body : Nat) : Bool :=
  match typ with
  | 0 | 5 | 6 => decide (body = 0)
  | 1 => decide (bits body 107 105 ≤ 6) && decide (bits body 104 96 = 0)
  | 2 => decide (bits body 71 64 = 0) && (pressStOf (bits body 107 106)).isSome
  | 3 => decide (bits body 107 16 = 0)
  | 4 => decide (bits body 107 17 = 0)
  | 7 => decide (bits body 107 107 = 0) && decide (bits body 103 64 = 0)
  | 8 => decide (bits body 107 48 = 0) && decide (bits body 15 1 = 0)
  | _ => false

/-- A control symbol takes the effect of its row; one with a reserved TYPE or a nonzero reserved field is counted and ignored
(R428). -/
def applySym (die link sym : Nat) (s : State) : State :=
  let typ := sym / 2 ^ 108 % 16
  let body := sym % 2 ^ 108
  if !symGood typ body then addCount die (linkPage link) 0x100 1 s
  else match typ with
  | 1 => forEach (creditEntries body (bits body 107 105)) (fun e s =>
      returnTo die e.1 e.2.1 e.2.2.1 (linkGates s die link) e.2.2.2 s) s
  | 2 => markerArrive die link ((pressStOf (bits body 107 106)).getD .unset) (bits body 63 0) (bits body 105 88) (bits body 87 72) s
  | 3 => acked die link body s
  | 4 => naked die link (bits body 15 0) (body.testBit 16) s
  | 6 => faultIdle die link s
  | 7 => identArrive die link (bits body 106 104) (leBytes 8 (bits body 63 0)) s
  | 8 => echoArrive die link (body.testBit 0) (w32 (bits body 47 16)) s
  | _ => s

/-! ### Packets received -/

/-- A link is a mirror port (R435). -/
def isMirrorLink (s : State) (die link : Nat) : Bool :=
  !isMod link && (match portRole (shapeOf s) (linkPort die link) with | .mirror _ => true | _ => false)

/-- What a mirror port carries goes to the pair unit: the fragments of deltas and the acknowledgements; it carries no other packet
(R450). -/
def intoPair (die link : Nat) (p : Packet) (s : State) : State :=
  if p.opcode = 0x61 ∨ p.opcode = 0x62 then
    { s with nt := { s.nt with delivered := s.nt.delivered ++ [{ die := die, tile := 0, port := link, pkt := p }] } }
  else s

/-- A whole packet goes to its gateway tile; a REDUCE packet for an engine of a memory-side die goes from a module's ingress straight to
the engine (R302). A peer in the safe state sends only fault records (R429). -/
def intoDie (die link : Nat) (p : Packet) (s : State) : State :=
  if ((linkOf s die link).peerSafe || isSafe s die) && decide (p.cls ≠ .mgmt) then s
  else if isMirrorLink s die link then intoPair die link p (addCount die (cntPage link) 1 (pktUnits p) s)
  else
    let rp := if isMod link then landing s die (link / 4) (link % 4) p else (let x := lnkTile (link - 16); (x.1, 8 + x.2))
    let n := rp.1
    let g := rp.2
    let s := addCount die (cntPage link) 1 (if isMod link then p.len + 1 else pktUnits p) s
    if isMod link ∧ p.cls = .reduce ∧ dieType die = .memside ∧ aPkg p.dest = pkgNo s ∧ aDie p.dest = die ∧ aRegion p.dest = 1 ∧
        aPort p.dest = 9 then
      creditSym die link (planeOf p.cls) p.vc (inCls die n g p) (p.len + 1)
        { s with nt := { s.nt with delivered := s.nt.delivered ++
            [{ die := die, tile := engTile die (aIdx p.dest / 256), port := 11, pkt := p }] } }
    else { s with nt := { s.nt with wires := s.nt.wires ++ [{ die := die, tile := physTile s die n, port := g, pkt := p }] } }

/-- The packet in progress that a flit continues: on its plane and VC, on an escape VC also of its leg and DL (R131). -/
def continues (x : FlitSlot) (q : RxPart) : Bool :=
  q.plane = x.plane && q.pkt.vc = bits x.side 13 12 &&
    (isAdaptive q.pkt.vc || (q.pkt.leg == x.side.testBit 11 && q.pkt.dl == x.side.testBit 10))

/-- A flit slot: the packets in progress after it, and the packet it completes. A head of a reserved class and a flit of no packet are
dropped. -/
def takeFlit (x : FlitSlot) (ps : List RxPart) : List RxPart × Option Packet :=
  if x.head then
    match headPacket x.side x.data with
    | none => (ps, none)
    | some p => if p.len = 0 then (ps, some p) else (ps ++ [{ plane := x.plane, pkt := p, left := p.len }], none)
  else
    match ps.find? (continues x) with
    | none => (ps, none)
    | some q =>
      let p := addFlit q.pkt x.side x.data
      let rest := ps.erase q
      if q.left ≤ 1 then (rest, some p) else (rest ++ [{ q with pkt := p, left := q.left - 1 }], none)

/-- The slots of a group in order. -/
def takeSlots (die link : Nat) (xs : List FlitSlot) (s : State) : State :=
  forEach xs (fun x s =>
    let rp := takeFlit x (linkOf s die link).parts
    let s := modLink die link (fun l => { l with parts := rp.1 }) s
    match rp.2 with | some p => intoDie die link p s | none => s) s

/-- The units of a course behind those of the packet in progress: packets, and what is left; none for a bad envelope (R439). -/
def courseReads (l : Link) (us : List (List Byte)) : Option (List Packet × List (List Byte)) :=
  readUnits (l.rxUnits ++ us).length (l.rxUnits ++ us)

/-- The units of a course in order. -/
def takeUnits (die link : Nat) (r : List Packet × List (List Byte)) (s : State) : State :=
  forEach r.1 (fun p s => intoDie die link p s) (modLink die link (fun l => { l with rxUnits := r.2 }) s)

/-! ### Numbers (R432, R441, R443) -/

/-- The receiver works at level 2: a NAK asks for one course alone (R443). -/
def selective (link : Nat) (l : Link) : Bool := !isMod link && decide (l.level ≥ 2)

/-- A damaged group or course is counted and NAKed: at level 2 the course alone, else from the first one missing. -/
def damaged (die link seq : Nat) (s : State) : State :=
  let l := linkOf s die link
  let s := addCount die (cntPage link) (if isMod link then 2 else 3) 1 (modLink die link (fun l => { l with waitingReplay := true }) s)
  if selective link l then sendSym die link 4 (2 ^ 16 + seq) s else sendSym die link 4 ((l.rxSeq + 1) % 65536) s

/-- Courses received ahead of a selective replay follow it in order; one that turns out damaged is asked for again. Fuel: their
number. -/
def takeAhead (die link : Nat) : (fuel : Nat) → State → State
  | 0, s => s
  | f + 1, s =>
    let l := linkOf s die link
    let next := (l.rxSeq + 1) % 65536
    match l.ahead.find? fun e => e.1 = next with
    | none => s
    | some e =>
      let s := modLink die link (fun l => { l with ahead := l.ahead.filter fun e => e.1 ≠ next }) s
      match courseReads l e.2 with
      | none => damaged die link next s
      | some r => takeAhead die link f (takeUnits die link r (modLink die link (fun l => { l with rxSeq := next }) s))

/-- What a frame in order does: its contents, its symbol, the courses kept behind it, and its acknowledgement, which a frame without
contents does not get (log 128). -/
def inOrder (die link : Nat) (f : TxFrame) (contents : State → State) (s : State) : State :=
  let s := contents (modLink die link (fun l => { l with rxSeq := f.seq }) s)
  let s := takeAhead die link (linkOf s die link).ahead.length (applySym die link f.sym s)
  let s := modLink die link (fun l => { l with waitingReplay := decide (l.ahead ≠ []) }) s
  if f.slots = [] ∧ f.units.all unitIdle then s else sendSym die link 3 (linkOf s die link).rxSeq s

/-- A group or course with its number: in order it is taken; a damaged one is NAKed, and until its replay later ones are discarded, at
level 2 kept (R432, R441, R443). An off-package port in the safe state takes none (R429). -/
def receive (die link : Nat) (f : TxFrame) (ok : Bool) (s : State) : State :=
  let l := linkOf s die link
  if !isLink die link || l.st ≠ .up || (isSafe s die && !isMod link) then s
  else
    let next := (l.rxSeq + 1) % 65536
    if !ok then damaged die link f.seq s
    else if f.seq = next then
      (if isMod link then inOrder die link f (takeSlots die link f.slots) s
       else match courseReads l f.units with
        | none => damaged die link f.seq s
        | some r => inOrder die link f (takeUnits die link r) s)
    else if seqFrom f.seq next then sendSym die link 3 l.rxSeq s
    else if selective link l then
      applySym die link f.sym (modLink die link (fun l => { l with
        ahead := if l.ahead.any (fun e => e.1 = f.seq) then l.ahead else l.ahead ++ [(f.seq, f.units)] }) s)
    else if l.waitingReplay then s
    else sendSym die link 4 next (modLink die link (fun l => { l with waitingReplay := true }) s)

/-- A group of four cycles (R431). -/
def groupIn (die link : Nat) (cycles : List BridgeCycle) (s : State) : State :=
  let c := groupControl cycles
  receive die link { seq := bits c 127 112, sym := c % 2 ^ 112, slots := groupSlots cycles } (groupOk cycles) s

/-- A course: the number and the symbol of its control unit, and its 127 other units (R438). -/
def courseIn (port seq : Nat) (fecOk : Bool) (units : List (List Byte)) (sym : Nat) (s : State) : State :=
  receive (portDie port) (16 + port % 6) { seq := seq % 65536, sym := sym % 2 ^ 112, units := units } fecOk s

def execBridgeGroup (die bridge module : Nat) (c0 c1 c2 c3 : BridgeCycle) (s : State) : Host.Outcome State Fault Refusal :=
  .next (groupIn die (4 * bridge + module) [c0, c1, c2, c3] s)
def execCourse (port seq : Nat) (fecOk : Bool) (units : List (List Byte)) (sym : Nat) (s : State) : Host.Outcome State Fault Refusal :=
  .next (courseIn port seq fecOk units sym s)

end Sys2Proof.Machine
end

