-- ==== Sys2Proof/Machine/HostAdapter.lean ====
section
/-! DEFINITION. The host adapters (13: R454 to R459): inbound TLPs as register accesses, MSI-X table accesses and BULK requests, the
answers, and where READ_DATA, WRITE_ACK and STATUS responses go. -/
namespace Sys2Proof.Machine

/-! ### Completions and posted errors (R457) -/

/-- A completion status of a TLP: 0 successful, 1 UR, 2 CA. -/
def tlpStatus (code : Nat) : Nat := if code = 0 then 0 else if code = 0x01 ∨ code = 0x04 ∨ code = 0x10 then 1 else 2

/-- A non-posted request that failed completes with no data. -/
def cplError (h tag code : Nat) (s : State) : State :=
  emit (.tlp h tag (tlpStatus code) []) (hostCount h (tlpStatus code) s)

/-- A posted write that failed: LAST_ERR, the BAR offset with the BAR index / 2 above it, and the counter. -/
def postedError (h bar off code : Nat) (s : State) : State :=
  hostCount h 3 (modHost h (fun x => { x with
    errValid := true, errCode := BitVec.ofNat 8 code, errAddr := w64 (off + bar / 2 * 2 ^ 62) }) s)

/-! ### BAR0 and BAR2 -/

/-- The register access a BAR0 offset means (R40). -/
def hostAcc (s : State) (h : Nat) (t : Tlp) : RegAcc :=
  { master := .host h, pkg := pkgNo s, die := bits t.offset 29 24, page := bits t.offset 23 12, off := bits t.offset 11 0,
    size := t.length, value := w32 (ofLe (t.data.take 4)) }

/-- A register access of a host, answered as R457 says. -/
def hostReg (h : Nat) (we : Bool) (t : Tlp) (s : State) : State :=
  if we then
    let rp := regWrite (hostAcc s h t) s
    let st := rp.1
    let s := rp.2
    if st = 0 then s else postedError h t.bar t.offset st s
  else
    let rp := regRead (hostAcc s h t) s
    let st := rp.1
    let v := rp.2.1
    let s := rp.2.2
    if st = 0 then emit (.tlp h t.tag 0 (leBytes 4 v.toNat)) s else cplError h t.tag st s

/-- The MSI-X table and the pending-bit array as the bytes of BAR2 from a 4-byte offset on (R454). -/
def msixRead (s : State) (h off : Nat) : Word :=
  if off < 512 then msixWord s h (off / 4)
  else if off = 0x8000 then (hostOf s h).pendingBits else 0

/-- A word of the MSI-X table written; the pending bits are read only. -/
def msixWrite (h off : Nat) (v : Word) (s : State) : State :=
  let i := off / 4
  if off < 512 then
    msixUnmask h (i / 4) (modHost h (fun x => { x with msix := put (if i % 4 = 3 then 1 else 0) x.msix i v }) s)
  else s

/-- A BAR2 access, in whole words. -/
def hostMsix (h : Nat) (we : Bool) (t : Tlp) (s : State) : State :=
  let o := t.offset / 4 * 4
  let n := ceilDiv t.length 4
  if we then
    forEach (List.range n) (fun j s => msixWrite h (o + 4 * j) (w32 (ofLe (slice t.data (4 * j) 4))) s) s
  else emit (.tlp h t.tag 0 ((List.range n).flatMap fun j => leBytes 4 (msixRead s h (o + 4 * j)).toNat)) s

/-! ### BAR4: BULK requests of HOST_CTX (R456) -/

def hostCtx (s : State) (h : Nat) : Nat := rfld s (hostDie h) 0x718 0x100 26 16

/-- The fabric address of an aperture offset. -/
def apertureAddr (s : State) (h off : Nat) : DWord := reg64 s (hostDie h) 0x718 0x108 + w64 off

/-- The bytes from a fabric address up to the end of its granule, at most n (R65). -/
def inThisGranule (a : DWord) (n : Nat) : Nat := min n (512 - a.toNat % 512)

/-- The request of one granule, from tile 5 L0: a READ, or a WRITE that asks for WRITE_ACK. -/
def hostPacket (s : State) (h : Nat) (we : Bool) (q : BitVec 16) (a : DWord) (n : Nat) (data : List Byte) : Packet :=
  let data := if we then padTo n data else []
  { cls := .bulk, ctx := hostCtx s h, dest := a, opcode := if we then 1 else 0, srcPkg := pkgNo s, srcDie := hostDie h,
    srcTile := 0xFF, srcPort := 11, sseq := q, operand := w64 (n + (if we then 1024 else 0)), payload := data,
    len := ceilDiv data.length 64, why := List.replicate (ceilDiv data.length 64) 0 }

/-- One granule of a request goes to the fabric, if its address is good for the context (R68). -/
def hostIssue (h : Nat) (we : Bool) (tag off left : Nat) (data : List Byte) (s : State) : State :=
  let a := apertureAddr s h off
  let n := inThisGranule a left
  let code := addrStatus s (hostDie h) 5 (hostCtx s h) a
  if code ≠ 0 then (if we then postedError h 4 off code s else cplError h tag code s)
  else
    let q := (hostOf s h).sseq
    let r : HostReq := { sseq := q, tag := tag, we := we, offset := off, left := left }
    let s := modHost h (fun x => { x with sseq := x.sseq + 1, sent := x.sent ++ [r] }) s
    sendFrom (hostDie h) 5 10 (hostPacket s h we q a n data) s

/-- The pieces of a write, one per granule: BAR offset and bytes. Fuel: the pieces. -/
def writePieces (s : State) (h : Nat) : (fuel off : Nat) → List Byte → List (Nat × List Byte)
  | 0, _, _ => []
  | f + 1, off, data =>
    if data = [] then []
    else
      let n := inThisGranule (apertureAddr s h off) data.length
      (off, data.take n) :: writePieces s h f (off + n) (data.drop n)

/-- A BAR4 access is issued. -/
def hostBulk (h : Nat) (we : Bool) (t : Tlp) (s : State) : State :=
  if we then
    forEach (writePieces s h 10 t.offset (padTo t.length t.data)) (fun e s => hostIssue h true t.tag e.1 e.2.length e.2 s) s
  else if t.length = 0 then emit (.tlp h t.tag 0 []) s
  else hostIssue h false t.tag t.offset t.length [] s

/-! ### The order of inbound requests (R456) -/

/-- A write of the adapter has not been acknowledged. -/
def writesOut (x : HostPort) : Bool := x.sent.any fun r => r.we

/-- One inbound request is served. -/
def hostServe (h : Nat) (we : Bool) (t : Tlp) (s : State) : State :=
  match t.bar with
  | 0 => hostReg h we t s
  | 2 => hostMsix h we t s
  | _ => hostBulk h we t s

/-- The waiting requests are served in order; a read waits until every earlier write has been acknowledged. Fuel: the requests. -/
def hostDrain (h : Nat) : (fuel : Nat) → State → State
  | 0, s => s
  | f + 1, s =>
    match (hostOf s h).waiting with
    | [] => s
    | (we, t) :: rest =>
      if !we && writesOut (hostOf s h) then s
      else hostDrain h f (hostServe h we t (modHost h (fun x => { x with waiting := rest }) s))

def hostRun (h : Nat) (s : State) : State := hostDrain h ((hostOf s h).waiting.length + 1) s

/-- A TLP that is no memory access of a BAR of the adapter: completed with UR, or counted and dropped (R455). -/
def badTlp (h tag : Nat) (nonPosted : Bool) (s : State) : State :=
  if nonPosted then cplError h tag 1 s else hostCount h 5 s

/-- An inbound MRd or MWr. An adapter that is disabled or held in reset takes none (log 6). -/
def inbound (h : Nat) (we : Bool) (t : Tlp) (s : State) : State :=
  if !masterOn s (.host h) then s
  else
    let s := hostCount h 0 s
    if t.bar ≠ 0 ∧ t.bar ≠ 2 ∧ t.bar ≠ 4 then badTlp h t.tag (!we) s
    else hostRun h (modHost h (fun x => { x with waiting := x.waiting ++ [(we, t)] }) s)

/-- An inbound TLP of another type. -/
def otherTlp (h tag : Nat) (nonPosted : Bool) (s : State) : State :=
  if masterOn s (.host h) then badTlp h tag nonPosted (hostCount h 0 s) else s

/-! ### Answers -/

/-- An answer of the fabric to a request of the adapter. A read goes on with its next granule; one without a request was discarded
and is counted (R459). -/
def hostAnswer (h : Nat) (p : Packet) (code : Nat) (data : List Byte) (s : State) : State :=
  match takeFirst (fun r : HostReq => r.sseq = p.sseq) (hostOf s h).sent with
  | (none, _) => hostCount h 5 s
  | (some r, rest) =>
    let s := modHost h (fun x => { x with sent := rest }) s
    let n := inThisGranule (apertureAddr s h r.offset) r.left
    let s :=
      if r.we then (if code = 0 then s else postedError h 4 r.offset code s)
      else if code ≠ 0 then cplError h r.tag code s
      else
        let s := emit (.tlp h r.tag 0 (padTo n data)) s
        if n < r.left then hostIssue h false r.tag (r.offset + n) (r.left - n) [] s else s
    hostRun h s

/-- The response is one to a host adapter; which. -/
def toHost (die tile : Nat) (p : Packet) : Option Nat :=
  if tile = 5 ∧ aRegion p.dest = 1 ∧ aPort p.dest = 11 then hostPortOf die else none

/-- A response at a host adapter; while its tile is in quiesce the request completes with PART_RESET (R482). -/
def hostResponse (die h : Nat) (p : Packet) (code : Nat) (s : State) : State :=
  let code := if fenced s die 5 then 0x88 else if poisonStatus p ≠ 0 then poisonStatus p else code
  hostAnswer h p code p.payload (consume die 5 p s)

/-- READ_DATA. -/
def readDataAt (die n : Nat) (p : Packet) (s : State) : State :=
  match toHost die n p with
  | some h => hostResponse die h p 0 s
  | none => cipAnswer die n p (marked p (readAnswered die n p 0 p.payload) (cipStatus die n p)) s

/-- WRITE_ACK. -/
def writeAckAt (die n : Nat) (p : Packet) (s : State) : State :=
  match toHost die n p with
  | some h => hostResponse die h p 0 s
  | none => cipAnswer die n p (writeAnswered die n p) s

/-- STATUS to a seam engine: what it sent was lost with its link (R329, R448), or the answer is poisoned (R135). -/
def engineStatus (die : Nat) (p : Packet) (s : State) : State :=
  let i := aIdx p.dest
  let s := consume die (engTile die (i / 256)) p s
  let k := seamKey die (i / 256) (i % 256)
  if poisonStatus p ≠ 0 then poisonFail k p s else if bits p.operand.toNat 7 0 = 0x77 then seamFail k 0x51 0 s else s

/-- STATUS to the reduction endpoint of a tile: the seam that SSEQ names (log 28) is aborted when what the tile sent was lost, or the
answer is poisoned (R135). -/
def tileStatus (die n : Nat) (p : Packet) (s : State) : State :=
  let s := consume die n p s
  match (resvOf s die n).find? fun r => r.granted && decide (256 * r.ref.eng + r.ref.slot = p.sseq.toNat) with
  | some r =>
    if poisonStatus p ≠ 0 then tileAbort die n r.ref (poisonStatus p) s
    else if bits p.operand.toNat 7 0 = 0x77 then tileAbort die n r.ref 0x51 s else s
  | none => s

/-- STATUS (R118). -/
def statusAt (die n : Nat) (p : Packet) (s : State) : State :=
  match toHost die n p with
  | some h => hostResponse die h p (bits p.operand.toNat 7 0) s
  | none =>
    if aRegion p.dest = 1 ∧ aPort p.dest = 9 then engineStatus die p s
    else if aRegion p.dest = 1 ∧ aPort p.dest = 1 then tileStatus die n p s
    else cipAnswer die n p (cipStatus die n p) s

/-- A function-level or hot reset of an adapter (R459, R576); it lasts until the inputs say otherwise. -/
def hostReset (h : Nat) (s : State) : State :=
  if h < 4 then hostDiscard h (modHost h (fun x => { x with pins.inReset := true }) s) else s

/-! ### Meanings -/

def execMrd (h : Nat) (t : Tlp) (s : State) : Host.Outcome State Fault Refusal := .next (inbound h false t s)
def execMwr (h : Nat) (t : Tlp) (s : State) : Host.Outcome State Fault Refusal := .next (inbound h true t s)
def execUnsupportedTlp (h tag : Nat) (nonPosted : Bool) (s : State) : Host.Outcome State Fault Refusal :=
  .next (otherTlp h tag nonPosted s)
def execHstLinkDown (h : Nat) (s : State) : Host.Outcome State Fault Refusal :=
  .next (if h < 4 then raise0 (hostDie h) 0x718 0 (hostDiscard h (modHost h (fun x => { x with pins.linkUp := false }) s)) else s)
def execHstFlr (h : Nat) (s : State) : Host.Outcome State Fault Refusal := .next (hostReset h s)
def execHstHotReset (h : Nat) (s : State) : Host.Outcome State Fault Refusal := .next (hostReset h s)
def execReadData (die tile : Nat) (p : Packet) (s : State) : Host.Outcome State Fault Refusal := .next (readDataAt die tile p s)
def execWriteAck (die tile : Nat) (p : Packet) (s : State) : Host.Outcome State Fault Refusal := .next (writeAckAt die tile p s)
def execStatus (die tile : Nat) (p : Packet) (s : State) : Host.Outcome State Fault Refusal := .next (statusAt die tile p s)

end Sys2Proof.Machine
end

