-- ==== Sys2Proof/Machine/Service.lean ====
section
/-! DEFINITION. The service port and its reply cache (16: R525 to R530), the board-management sideband (R532), the test access ports
(17: R570). -/
namespace Sys2Proof.Machine

/-! ### Requests, replies and the cache (R526, R529) -/

/-- A request's source is that of a VALID allow-list entry (R526). -/
def listed (s : State) (src : SvcSrc) : Bool :=
  (List.range 4).any fun k => allowValid s.sv.config k && (allowEntry s.sv.config k).take 16 = padTo 16 src.addr

/-- A counter of the firmware page. -/
def svcCount (k : Nat) : State → State := addCount 0 0x724 k 1

/-- A reply goes to its source and is kept among the last 32. -/
def svcAnswer (src : SvcSrc) (typ status : Nat) (body : List Byte) (s : State) : State :=
  let r : SvcReply := { src := src, typ := typ, status := status, body := body }
  let s := { s with sv := { s.sv with cache := (r :: s.sv.cache).take 32 } }
  emit (.svcReply src (svcDatagram s typ 1 status src.seq body)) (doIf (decide (status = 0xA4)) (svcCount 3) s)

/-- A request: discarded without a valid configuration, or from a source not listed; answered from the cache; or executed. -/
def request_ (src : SvcSrc) (typ : Nat) (f : State → Nat × List Byte × State) (s : State) : State :=
  if !fmcOn s || !s.sv.valid then s
  else if !listed s src then svcCount 2 s
  else match s.sv.cache.find? fun r => r.src = src with
    | some r => emit (.svcReply src (svcDatagram s r.typ 3 r.status src.seq r.body)) (svcCount 1 s)
    | none =>
      let rp := f s
      let status := rp.1
      let body := rp.2.1
      let s := rp.2.2
      svcAnswer src typ status body (svcCount 0 s)

/-- SVC_BAD_MSG. -/
def badMsg (s : State) : Nat × List Byte × State := (0xA4, [], s)

/-! ### Register messages (R528, R41) -/

/-- The register access of a fabric address, executed by the FMC for the service port. -/
def svcAcc (addr : DWord) (value : Word) : RegAcc :=
  { master := .service, pkg := aPkg addr, die := aDie addr, page := bits addr.toNat 23 12, off := bits addr.toNat 11 0, value := value }

/-- The address lies in a configuration window; one that does not is answered with REG_ABSENT (DEDUCED, log 62). -/
def inWindow (addr : DWord) : Bool := aRegion addr = 3 && decide (aOff44 addr ≥ 0xFFFFF000000)

def svcRead (addr : DWord) (s : State) : Nat × List Byte × State :=
  if aPkg addr = pkgNo s ∧ !inWindow addr then (1, leBytes 4 0, s)
  else
    let rp := regRead (svcAcc addr 0) s
    let st := rp.1
    let v := rp.2.1
    let s := rp.2.2
    (st, leBytes 4 v.toNat, s)

def svcWrite (addr : DWord) (value : Word) (s : State) : Nat × List Byte × State :=
  if aPkg addr = pkgNo s ∧ !inWindow addr then (1, [], s)
  else
    let rp := regWrite (svcAcc addr value) s
    let st := rp.1
    let s := rp.2
    (st, [], s)

/-! ### Staging SRAM (R528, R530) -/

/-- Bytes o to o + n meet a locked range. -/
def stageLocked (s : State) (o n : Nat) : Bool :=
  rangesMeet o n s.fw.lockAt s.fw.lockLen || rangesMeet o n s.pl.lockAt s.pl.lockLen

def stageWrite (o : Nat) (data : List Byte) (s : State) : Nat × List Byte × State :=
  if data.length = 0 ∨ data.length > 1024 then badMsg s
  else if o + data.length > stagingBytes then (0xA5, [], s)
  else if stageLocked s o data.length then (0xA6, [], s)
  else (0, [], { s with ram := ramWrite o data s.ram })

def stageRead (o n : Nat) (s : State) : Nat × List Byte × State :=
  if n = 0 ∨ n > 1024 then badMsg s
  else if o + n > stagingBytes then (0xA5, [], s)
  else (0, ramBytes s o n, s)

def pingBack (data : List Byte) (s : State) : Nat × List Byte × State :=
  if data.length > 64 then badMsg s else (0, data, s)

/-- The body of a request agrees with its TYPE: its length, its reserved bytes (R527, R528). -/
def bodyOk (typ : Nat) (b : List Byte) : Bool :=
  match typ with
  | 1 => decide (b.length = 8)
  | 2 => decide (b.length = 16) && decide (field b 12 4 = 0)
  | 3 => decide (9 ≤ b.length) && decide (b.length ≤ 1032) && decide (field b 4 4 = 0)
  | 4 => decide (b.length = 8)
  | 5 => decide (b.length ≤ 64)
  | _ => false

/-- A datagram is a request of the service protocol (R527). -/
def requestOk (x : List Byte) : Bool :=
  decide (16 ≤ x.length) && decide (field x 0 4 = 0x53565A54) && decide (field x 4 1 = 1) && decide (field x 6 2 = 0) &&
    decide (field x 14 2 = 0) && decide (x.length = 16 + field x 12 2) && bodyOk (field x 5 1) (x.drop 16)

/-- SERVICE_DATAGRAM_REJECTED: one that is no request is answered with SVC_BAD_MSG, with the TYPE and SEQ it has; one of a source that is
not listed is discarded and counted (R526, R527). A request of a listed source is served by the row of its TYPE. -/
def rejected (src : SvcSrc) (x : List Byte) (s : State) : State :=
  if requestOk x ∧ listed s src then s else request_ { src with seq := w32 (field x 8 4) } (field x 5 1) badMsg s

/-! ### The sideband (R532) -/

/-- The configuration in the index map is stored in the FMC area of Keep and takes effect. -/
def svcCommit (s : State) : State :=
  let c := (List.range 120).map fun i => look (0 : Byte) s.sv.map (0x10 + i)
  let area := (List.range 30).foldl (fun m i => put 0 m i (byteWord c i)) s.kp.area
  { s with kp := { s.kp with area := area }, sv := { s.sv with config := c, valid := configValid c } }

/-- One byte of a private write. -/
def sidebandByte (i : Nat) (b : Byte) (s : State) : State :=
  if 0x10 ≤ i ∧ i < 0x88 then { s with sv := { s.sv with map := put 0 s.sv.map i b } }
  else if i = 0x88 ∧ b = 1 then svcCommit s
  else s

/-- A private write: an index byte and data from that index on. -/
def sideband (i : Nat) (data : List Byte) (s : State) : State :=
  if s.tm.porLow then s
  else forEach data.zipIdx (fun e s => sidebandByte (i + e.2) e.1 s) { s with sv := { s.sv with index := i } }

/-- The 16 read-only bytes at the head of the index map. -/
def sidebandHead (s : State) : List Byte :=
  leBytes 4 0x6480 ++ leBytes 2 (pkgNo s) ++
    leBytes 2 (b2n s.fw.recovery * 4 + b2n (decide (s.ft.safeDies ≠ [])) * 2 + b2n s.ft.errLow) ++ leBytes 4 (fwEpoch s) ++
    leBytes 4 s.kp.faultTotal.toNat

/-- What a private read of n bytes returns: those from the last index written. -/
def sidebandRead (n : Nat) (s : State) : List Byte :=
  (List.range n).map fun k =>
    let i := s.sv.index + k
    if i < 0x10 then byteAt (sidebandHead s) i else look (0 : Byte) s.sv.map i

/-! ### The test access ports (R570) -/

/-- The identification code of a die. -/
def idcodeOf (die : Nat) : Word :=
  let part := match dieType die with | .compute => 0x6481 | .memside => 0x6482 | .io => 0x6483
  w32 ((Config.stepping die).toNat % 16 * 2 ^ 28 + part * 2 ^ 12 + 0x3D1 * 2 + 1)

/-- One shift through the bypass bit of a die. -/
def bypassShift (die : Nat) (tdi : Bool) (s : State) : State :=
  emit (.tdo die (look 0 s.jt die)) { s with jt := put 0 s.jt die (w32 (b2n tdi)) }

/-- What the pins show: a free value (log 4). -/
def sampleOut (die : Nat) (s : State) : State := freshen (emit (.tdo die (w32 (freeVal s))) s)

/-! ### Meanings -/

def execRegRead (src : SvcSrc) (addr : DWord) (s : State) : Host.Outcome State Fault Refusal :=
  .next (request_ src 0x01 (svcRead addr) s)
def execRegWrite (src : SvcSrc) (addr : DWord) (value : Word) (s : State) : Host.Outcome State Fault Refusal :=
  .next (request_ src 0x02 (svcWrite addr value) s)
def execStageWrite (src : SvcSrc) (offset : Nat) (data : List Byte) (s : State) : Host.Outcome State Fault Refusal :=
  .next (request_ src 0x03 (stageWrite offset data) s)
def execStageRead (src : SvcSrc) (offset count : Nat) (s : State) : Host.Outcome State Fault Refusal :=
  .next (request_ src 0x04 (stageRead offset count) s)
def execPing (src : SvcSrc) (data : List Byte) (s : State) : Host.Outcome State Fault Refusal :=
  .next (request_ src 0x05 (pingBack data) s)
def execServiceDatagramRejected (src : SvcSrc) (bytes : List Byte) (s : State) : Host.Outcome State Fault Refusal :=
  .next (rejected src bytes s)
def execSidebandWrite (index : Nat) (data : List Byte) (s : State) : Host.Outcome State Fault Refusal :=
  .next (sideband index data s)
def execSvcCommit (s : State) : Host.Outcome State Fault Refusal := .next (sideband 0x88 [1] s)
def execBypass (die : Nat) (tdi : Bool) (s : State) : Host.Outcome State Fault Refusal := .next (bypassShift die tdi s)
def execIdcode (die : Nat) (s : State) : Host.Outcome State Fault Refusal := .next (emit (.tdo die (idcodeOf die)) s)
def execSamplePreload (die : Nat) (s : State) : Host.Outcome State Fault Refusal := .next (sampleOut die s)
def execExtest (die : Nat) (s : State) : Host.Outcome State Fault Refusal :=
  .next (if s.tm.porLow then sampleOut die s else bypassShift die false s)

end Sys2Proof.Machine
end

