-- ==== Sys2Proof/Machine/Dispatch.lean ====
section
/-! DEFINITION. One arm per command: its meaning. -/
namespace Sys2Proof.Machine

/-- The effect of a command on everything but the queue. -/
def exec (i : Instr) (s : State) : Host.Outcome State Fault Refusal :=
  match i with
  | .pressBoundary pins => Sys2Proof.Machine.execPressBoundary s pins
  | .foldStart => Sys2Proof.Machine.execFoldStart s
  | .portLockModeChange die tile port => Sys2Proof.Machine.execPortLockModeChange die tile port s
  | .gateWindowEdge die tile port cls cycle => Sys2Proof.Machine.execGateWindowEdge die tile port cls cycle s
  | .epochCommand die frame idleBefore idleAfter => Sys2Proof.Machine.execEpochCommand die frame idleBefore idleAfter s
  | .epochTargetBoundary die => Sys2Proof.Machine.execEpochTargetBoundary die s
  | .pressLost die => Sys2Proof.Machine.execPressLost die s
  | .marker die link st press period lag => Sys2Proof.Machine.execMarker die link st press period lag s
  | .registerWrite a => Sys2Proof.Machine.execRegisterWrite a s
  | .lowHalfRead a => Sys2Proof.Machine.execLowHalfRead a s
  | .shadowCommitImmediate m die page => Sys2Proof.Machine.execShadowCommitImmediate m die page s
  | .shadowCommitNextBoundary m die page => Sys2Proof.Machine.execShadowCommitNextBoundary m die page s
  | .shadowCommitScheduled m die page => Sys2Proof.Machine.execShadowCommitScheduled m die page s
  | .shadowCommitCancel m die page => Sys2Proof.Machine.execShadowCommitCancel m die page s
  | .immediateCommitTakesEffect die page => Sys2Proof.Machine.execImmediateCommitTakesEffect die page s
  | .arbFreezeWrite m die page value => Sys2Proof.Machine.execArbFreezeWrite m die page value s
  | .priorityRegisterWrite a => Sys2Proof.Machine.execPriorityRegisterWrite a s
  | .govCeilingWrite m value => Sys2Proof.Machine.execGovCeilingWrite m value s
  | .planCheck m => Sys2Proof.Machine.execPlanCheck m s
  | .planAdopt m => Sys2Proof.Machine.execPlanAdopt m s
  | .planCancel m => Sys2Proof.Machine.execPlanCancel m s
  | .portOldPlanDrained port => Sys2Proof.Machine.execPortOldPlanDrained port s
  | .packetArrival die tile port p e => Sys2Proof.Machine.execPacketArrival die tile port p e s
  | .arbitrationDecision r => Sys2Proof.Machine.execArbitrationDecision r s
  | .credit die tile port plane vc cls n => Sys2Proof.Machine.execCredit die tile port plane vc cls n s
  | .adaptEscWaitExpiry b => Sys2Proof.Machine.execAdaptEscWaitExpiry b s
  | .escapeStall b => Sys2Proof.Machine.execEscapeStall b s
  | .transitReq die tile p => Sys2Proof.Machine.execTransitReq die tile p s
  | .transitGrant die tile p => Sys2Proof.Machine.execTransitGrant die tile p s
  | .transitEscapeWaitExpiry port p => Sys2Proof.Machine.execTransitEscapeWaitExpiry port p s
  | .read die tile p => Sys2Proof.Machine.execRead die tile p s
  | .write die tile p => Sys2Proof.Machine.execWrite die tile p s
  | .readData die tile p => Sys2Proof.Machine.execReadData die tile p s
  | .writeAck die tile p => Sys2Proof.Machine.execWriteAck die tile p s
  | .status die tile p => Sys2Proof.Machine.execStatus die tile p s
  | .mpRequestIssue die tile => Sys2Proof.Machine.execMpRequestIssue die tile s
  | .mpResponse die tile tag data err => Sys2Proof.Machine.execMpResponse die tile tag data err s
  | .mpStall die tile tag => Sys2Proof.Machine.execMpStall die tile tag s
  | .cmResponse die tile tag data err => Sys2Proof.Machine.execCmResponse die tile tag data err s
  | .taskDispatch die tile darner data e => Sys2Proof.Machine.execTaskDispatch die tile darner data e s
  | .taskComplete die tile darner data e => Sys2Proof.Machine.execTaskComplete die tile darner data e s
  | .reorderRelease die tile stream => Sys2Proof.Machine.execReorderRelease die tile stream s
  | .stealRequest die tile darner dir => Sys2Proof.Machine.execStealRequest die tile darner dir s
  | .stealGrant die tile darner data linkErr => Sys2Proof.Machine.execStealGrant die tile darner data linkErr s
  | .patchRunComplete die tile run => Sys2Proof.Machine.execPatchRunComplete die tile run s
  | .nop u f => Sys2Proof.Machine.execNop u f s
  | .next u f => Sys2Proof.Machine.execNext u f s
  | .drop u f => Sys2Proof.Machine.execDrop u f s
  | .halt u f => Sys2Proof.Machine.execHalt u f s
  | .loop u f => Sys2Proof.Machine.execLoop u f s
  | .mov u f => Sys2Proof.Machine.execMov u f s
  | .abs u f => Sys2Proof.Machine.execAbs u f s
  | .neg u f => Sys2Proof.Machine.execNeg u f s
  | .lane u f => Sys2Proof.Machine.execLane u f s
  | .setl u f => Sys2Proof.Machine.execSetl u f s
  | .salu u f => Sys2Proof.Machine.execSalu u f s
  | .cmp u f => Sys2Proof.Machine.execCmp u f s
  | .cls u f => Sys2Proof.Machine.execCls u f s
  | .pset u f => Sys2Proof.Machine.execPset u f s
  | .pone u f => Sys2Proof.Machine.execPone u f s
  | .plog u f => Sys2Proof.Machine.execPlog u f s
  | .pcnt u f => Sys2Proof.Machine.execPcnt u f s
  | .acc u f => Sys2Proof.Machine.execAcc u f s
  | .cnt u f => Sys2Proof.Machine.execCnt u f s
  | .sel u f => Sys2Proof.Machine.execSel u f s
  | .azero u f => Sys2Proof.Machine.execAzero u f s
  | .emit u f => Sys2Proof.Machine.execEmit u f s
  | .kemit u f => Sys2Proof.Machine.execKemit u f s
  | .psDataLoWrite m die page value => Sys2Proof.Machine.execPsDataLoWrite m die page value s
  | .psLoadCmd m die page value => Sys2Proof.Machine.execPsLoadCmd m die page value s
  | .psLoadComplete die tile => Sys2Proof.Machine.execPsLoadComplete die tile s
  | .seamOpen die eng p => Sys2Proof.Machine.execSeamOpen die eng p s
  | .seamAdmit die tile p => Sys2Proof.Machine.execSeamAdmit die tile p s
  | .seamSummary die eng rec p => Sys2Proof.Machine.execSeamSummary die eng rec p s
  | .seamReserve die tile r => Sys2Proof.Machine.execSeamReserve die tile r s
  | .seamGrant die eng rec fromDie fromTile outcome => Sys2Proof.Machine.execSeamGrant die eng rec fromDie fromTile outcome s
  | .seamYieldAsk die eng rec fromDie fromTile => Sys2Proof.Machine.execSeamYieldAsk die eng rec fromDie fromTile s
  | .seamYield die tile r yielded => Sys2Proof.Machine.execSeamYield die tile r yielded s
  | .seamSet die tile r load => Sys2Proof.Machine.execSeamSet die tile r load s
  | .seamPart die tile r fromTile p => Sys2Proof.Machine.execSeamPart die tile r fromTile p s
  | .seamData die tile r fromDie fromTile p => Sys2Proof.Machine.execSeamData die tile r fromDie fromTile p s
  | .seamDone die tile p => Sys2Proof.Machine.execSeamDone die tile p s
  | .seamAbort die eng rec p => Sys2Proof.Machine.execSeamAbort die eng rec p s
  | .seamRelease die tile r => Sys2Proof.Machine.execSeamRelease die tile r s
  | .seamTimeout die eng rec => Sys2Proof.Machine.execSeamTimeout die eng rec s
  | .seamResStall die eng rec tileDie tile => Sys2Proof.Machine.execSeamResStall die eng rec tileDie tile s
  | .seamLinkLost die eng rec => Sys2Proof.Machine.execSeamLinkLost die eng rec s
  | .seamAbortCmd m die page value => Sys2Proof.Machine.execSeamAbortCmd m die page value s
  | .send h addr nbytes payload => Sys2Proof.Machine.execSend h addr nbytes payload s
  | .add h addr entry element => Sys2Proof.Machine.execAdd h addr entry element s
  | .recv h queue nowait => Sys2Proof.Machine.execRecv h queue nowait s
  | .ringWait h ring => Sys2Proof.Machine.execRingWait h ring s
  | .ringFree h ring head => Sys2Proof.Machine.execRingFree h ring head s
  | .bskArm h basket entry tag expect => Sys2Proof.Machine.execBskArm h basket entry tag expect s
  | .pegArmCmd h addr target auto => Sys2Proof.Machine.execPegArmCmd h addr target auto s
  | .pegAddCmd h addr k => Sys2Proof.Machine.execPegAddCmd h addr k s
  | .pegWaitCmd h addr w => Sys2Proof.Machine.execPegWaitCmd h addr w s
  | .pegReadCmd h addr => Sys2Proof.Machine.execPegReadCmd h addr s
  | .dbWait h doorbell v => Sys2Proof.Machine.execDbWait h doorbell v s
  | .deferRead h => Sys2Proof.Machine.execDeferRead h s
  | .fetchRequest h addr => Sys2Proof.Machine.execFetchRequest h addr s
  | .copy h desc => Sys2Proof.Machine.execCopy h desc s
  | .multicast h desc => Sys2Proof.Machine.execMulticast h desc s
  | .ringSend h desc => Sys2Proof.Machine.execRingSend h desc s
  | .logPut h desc => Sys2Proof.Machine.execLogPut h desc s
  | .patchRunPost h desc => Sys2Proof.Machine.execPatchRunPost h desc s
  | .seamOpenPost h desc => Sys2Proof.Machine.execSeamOpenPost h desc s
  | .msg die tile p => Sys2Proof.Machine.execMsg die tile p s
  | .creditReq die tile p => Sys2Proof.Machine.execCreditReq die tile p s
  | .creditGrant die tile p => Sys2Proof.Machine.execCreditGrant die tile p s
  | .creditReturn die tile p => Sys2Proof.Machine.execCreditReturn die tile p s
  | .ringReserve die tile p => Sys2Proof.Machine.execRingReserve die tile p s
  | .ringGrant die tile p => Sys2Proof.Machine.execRingGrant die tile p s
  | .ringCommit die tile p => Sys2Proof.Machine.execRingCommit die tile p s
  | .bskAdd die tile p => Sys2Proof.Machine.execBskAdd die tile p s
  | .bskDone die tile p => Sys2Proof.Machine.execBskDone die tile p s
  | .mcAck die tile p => Sys2Proof.Machine.execMcAck die tile p s
  | .dbInc die tile p => Sys2Proof.Machine.execDbInc die tile p s
  | .stallNote die tile p => Sys2Proof.Machine.execStallNote die tile p s
  | .pegArm die p => Sys2Proof.Machine.execPegArm die p s
  | .pegAdd die p => Sys2Proof.Machine.execPegAdd die p s
  | .pegWait die p => Sys2Proof.Machine.execPegWait die p s
  | .pegRead die p => Sys2Proof.Machine.execPegRead die p s
  | .pegDone die tile p => Sys2Proof.Machine.execPegDone die tile p s
  | .creditIdleReturn die tile entry => Sys2Proof.Machine.execCreditIdleReturn die tile entry s
  | .creditStall die tile stream => Sys2Proof.Machine.execCreditStall die tile stream s
  | .mcAckHoldExpiry die tile tree => Sys2Proof.Machine.execMcAckHoldExpiry die tile tree s
  | .mcAckWaitExpiry die tile tree => Sys2Proof.Machine.execMcAckWaitExpiry die tile tree s
  | .checkpointCmd m die page value => Sys2Proof.Machine.execCheckpointCmd m die page value s
  | .tally0Read a => Sys2Proof.Machine.execTally0Read a s
  | .logRec port record => Sys2Proof.Machine.execLogRec port record s
  | .datagramClose port => Sys2Proof.Machine.execDatagramClose port s
  | .gapRecord die ctx => Sys2Proof.Machine.execGapRecord die ctx s
  | .pairDelta p => Sys2Proof.Machine.execPairDelta p s
  | .pairAck port p => Sys2Proof.Machine.execPairAck port p s
  | .heldEventApply index => Sys2Proof.Machine.execHeldEventApply index s
  | .pairLagLimit index => Sys2Proof.Machine.execPairLagLimit index s
  | .pairPrimaryLost => Sys2Proof.Machine.execPairPrimaryLost s
  | .pairMirrorLost => Sys2Proof.Machine.execPairMirrorLost s
  | .bridgeGroup die bridge module c0 c1 c2 c3 => Sys2Proof.Machine.execBridgeGroup die bridge module c0 c1 c2 c3 s
  | .course port seq fecOk units sym => Sys2Proof.Machine.execCourse port seq fecOk units sym s
  | .ack die link seq => Sys2Proof.Machine.execAck die link seq s
  | .nak die link seq select => Sys2Proof.Machine.execNak die link seq select s
  | .faultIdle die link => Sys2Proof.Machine.execFaultIdle die link s
  | .ident die link fragment bytes => Sys2Proof.Machine.execIdent die link fragment bytes s
  | .echo die link reply count => Sys2Proof.Machine.execEcho die link reply count s
  | .moduleTrainingDone die bridge module r => Sys2Proof.Machine.execModuleTrainingDone die bridge module r s
  | .dbrTrainFail die bridge module => Sys2Proof.Machine.execDbrTrainFail die bridge module s
  | .trainingRetry die link => Sys2Proof.Machine.execTrainingRetry die link s
  | .sundiTrainingStepDone port r => Sys2Proof.Machine.execSundiTrainingStepDone port r s
  | .lnkTrainFail port => Sys2Proof.Machine.execLnkTrainFail port s
  | .linkLoss die link => Sys2Proof.Machine.execLinkLoss die link s
  | .fecWindowEnd port corrected => Sys2Proof.Machine.execFecWindowEnd port corrected s
  | .dbrRetrain m die page value => Sys2Proof.Machine.execDbrRetrain m die page value s
  | .lnkRetrain m die page value => Sys2Proof.Machine.execLnkRetrain m die page value s
  | .stoLinkDown port => Sys2Proof.Machine.execStoLinkDown port s
  | .storageFrameReceived port => Sys2Proof.Machine.execStorageFrameReceived port s
  | .mrd h t => Sys2Proof.Machine.execMrd h t s
  | .mwr h t => Sys2Proof.Machine.execMwr h t s
  | .hstLinkDown h => Sys2Proof.Machine.execHstLinkDown h s
  | .hstFlr h => Sys2Proof.Machine.execHstFlr h s
  | .hstHotReset h => Sys2Proof.Machine.execHstHotReset h s
  | .optModuleDetect die g record => Sys2Proof.Machine.execOptModuleDetect die g record s
  | .optRescan m die page value => Sys2Proof.Machine.execOptRescan m die page value s
  | .laserHourTick die g => Sys2Proof.Machine.execLaserHourTick die g s
  | .powerSample die g i3cOk p0 p1 => Sys2Proof.Machine.execPowerSample die g i3cOk p0 p1 s
  | .faultRecordDie die parity => Sys2Proof.Machine.execFaultRecordDie die parity s
  | .faultRecordRoot => Sys2Proof.Machine.execFaultRecordRoot s
  | .errNPulseEnd => Sys2Proof.Machine.execErrNPulseEnd s
  | .errCtrlWrite m value => Sys2Proof.Machine.execErrCtrlWrite m value s
  | .routerPoll die tile => Sys2Proof.Machine.execRouterPoll die tile s
  | .quiesceResetPhase => Sys2Proof.Machine.execQuiesceResetPhase s
  | .quiesceLimit => Sys2Proof.Machine.execQuiesceLimit s
  | .quiesceReturn => Sys2Proof.Machine.execQuiesceReturn s
  | .fabricReset m => Sys2Proof.Machine.execFabricReset m s
  | .dieReset m die => Sys2Proof.Machine.execDieReset m die s
  | .tileReset m die tile => Sys2Proof.Machine.execTileReset m die tile s
  | .portReset m die port => Sys2Proof.Machine.execPortReset m die port s
  | .contextActivate m ctx => Sys2Proof.Machine.execContextActivate m ctx s
  | .contextDeactivate m ctx => Sys2Proof.Machine.execContextDeactivate m ctx s
  | .contextResetRequest m ctx => Sys2Proof.Machine.execContextResetRequest m ctx s
  | .lp2Enter m => Sys2Proof.Machine.execLp2Enter m s
  | .lp3Enter m => Sys2Proof.Machine.execLp3Enter m s
  | .lpExit m => Sys2Proof.Machine.execLpExit m s
  | .lp1ReqWrite m index value => Sys2Proof.Machine.execLp1ReqWrite m index value s
  | .clWake die tile => Sys2Proof.Machine.execClWake die tile s
  | .por straps eccLost failedRouters mistied => Sys2Proof.Machine.execPor straps eccLost failedRouters s mistied
  | .porNLow => Sys2Proof.Machine.execPorNLow s
  | .fmcStart partsOk0 partsOk1 => Sys2Proof.Machine.execFmcStart partsOk0 partsOk1 s
  | .rollbackWrite m value => Sys2Proof.Machine.execRollbackWrite m value s
  | .areaDataRead m => Sys2Proof.Machine.execAreaDataRead m s
  | .areaDataWrite m value => Sys2Proof.Machine.execAreaDataWrite m value s
  | .regRead src addr => Sys2Proof.Machine.execRegRead src addr s
  | .regWrite src addr value => Sys2Proof.Machine.execRegWrite src addr value s
  | .stageWrite src offset data => Sys2Proof.Machine.execStageWrite src offset data s
  | .stageRead src offset count => Sys2Proof.Machine.execStageRead src offset count s
  | .ping src data => Sys2Proof.Machine.execPing src data s
  | .sidebandWrite index data => Sys2Proof.Machine.execSidebandWrite index data s
  | .svcCommit => Sys2Proof.Machine.execSvcCommit s
  | .fwCheck m => Sys2Proof.Machine.execFwCheck m s
  | .fwCheckDone => Sys2Proof.Machine.execFwCheckDone s
  | .fwProgram m => Sys2Proof.Machine.execFwProgram m s
  | .fwProgramDone readBackOk => Sys2Proof.Machine.execFwProgramDone readBackOk s
  | .fwActivate m => Sys2Proof.Machine.execFwActivate m s
  | .fwCancel m => Sys2Proof.Machine.execFwCancel m s
  | .fwBind m => Sys2Proof.Machine.execFwBind m s
  | .activationLoadDone => Sys2Proof.Machine.execActivationLoadDone s
  | .activationLoadTimeout => Sys2Proof.Machine.execActivationLoadTimeout s
  | .pauseEnd => Sys2Proof.Machine.execPauseEnd s
  | .bypass die tdi => Sys2Proof.Machine.execBypass die tdi s
  | .idcode die => Sys2Proof.Machine.execIdcode die s
  | .samplePreload die => Sys2Proof.Machine.execSamplePreload die s
  | .extest die => Sys2Proof.Machine.execExtest die s
  | .referenceEdgesResumed die => Sys2Proof.Machine.execReferenceEdgesResumed die s
  | .brownOut => Sys2Proof.Machine.execBrownOut s
  | .fabricSupplyLoss => Sys2Proof.Machine.execFabricSupplyLoss s
  | .stoPcsLinkUp port => Sys2Proof.Machine.execStoPcsLinkUp port s
  | .unsupportedTlp h tag nonPosted => Sys2Proof.Machine.execUnsupportedTlp h tag nonPosted s
  | .serviceDatagramRejected src bytes => Sys2Proof.Machine.execServiceDatagramRejected src bytes s
  | .cmRequestIssue die tile => Sys2Proof.Machine.execCmRequestIssue die tile s

end Sys2Proof.Machine
end

