-- ==== Sys2Proof/Safety.lean ====
section
/-! DEFINITION. The terms statements are made in: when a write of a register is taken, and what is true of the fabric in every state that a
step leaves (an invariant). -/
namespace Sys2Proof.Machine

/-- A write of a register by a master is taken: the master can act, the access is answered REG_OK, the page has the register (R43). -/
def Writes (s : State) (m : Master) (die page off : Nat) (v : Word) (i : PageInfo) (row : RegRow) : Prop :=
  masterOn s m = true ∧
    accessStatus s { master := m, pkg := pkgNo s, die := die, page := page, off := off, value := v } true = 0 ∧
    pageInfo die page = some i ∧ rowAt die i off = some row ∧ row.off = off

/-- A command register's write is taken. -/
def Commands (s : State) (m : Master) (die page off : Nat) (v : Word) : Prop :=
  masterOn s m = true ∧
    accessStatus s { master := m, pkg := pkgNo s, die := die, page := page, off := off, value := v } true = 0

/-- A packet joins the injection queue of a port of a logical tile at its end, as it starts there (VC, ORD and TRACK apart, R128, R141);
every other injection queue is as before. -/
def Sent (s t : State) (die n port : Nat) (q : Packet) : Prop :=
  let k := ikey die (physTile s die n) port (planeOf q.cls)
  (∃ x : QPkt, injQ t k = injQ s k ++ [x] ∧ x.since = s.tm.fclk + 1 ∧
    x.pkt = { q with vc := x.pkt.vc, ord := x.pkt.ord, track := x.pkt.track, dl := false, pdl := false } ∧
    x.pkt.vc / 2 = b2n (isRsp q)) ∧
    ∀ k', k' ≠ k → injQ t k' = injQ s k'

/-- A response to a request is sent: to its source, with its class, context, SSEQ and FLAGS (R118). -/
def Answered (s t : State) (die n port : Nat) (p : Packet) (opcode : Nat) (operand : DWord) (payload : List Byte) : Prop :=
  ∃ q : Packet, Sent s t die n port q ∧ q.dest = srcAddr p ∧ q.cls = p.cls ∧ q.ctx = p.ctx ∧ q.sseq = p.sseq ∧ q.flags = p.flags ∧
    q.opcode = BitVec.ofNat 8 opcode ∧ q.operand = operand ∧ q.payload = payload

/-- A STATUS response to a request: the request's group in OPCODE, the status code in OPERAND (R118). -/
def Refused (s t : State) (die n port : Nat) (p : Packet) (code : Nat) : Prop :=
  Answered s t die n port p (0x8F + p.opcode.toNat / 16 % 8 * 16) (w64 code) []

/-- A source's FAULT_STATUS shows a fault (R466). -/
def Shows (t : State) (die page b : Nat) : Prop := (pageOf t die page).fault.toNat.testBit b = true

/-- A Press unit outside UNSET has a legal PERIOD_REF (R87), and so has a command that waits for its target boundary. -/
def unitOk (u : PressUnit) : Bool :=
  (decide (u.st = .unset) || periodOk u.period) && (match u.cmd with | some c => periodOk c.period | none => true)

/-- The invariant: staging SRAM in its canonical form; every Press unit legal; ROLLBACK and the anti-rollback indices of the slots and of
the checked bundle in their eight bits (R522, R537); the slot PROGRAM writes is one of the two. -/
def Inv (s : State) : Prop :=
  Memory.wf s.ram = true ∧ (∀ e ∈ s.tm.units, unitOk e.2 = true) ∧ s.kp.rollback ≤ 255 ∧ s.fw.slot0.rb ≤ 255 ∧ s.fw.slot1.rb ≤ 255 ∧
    s.fw.newRb ≤ 255 ∧ s.fw.newSlot ≤ 1

/-- One step leads from s to t. -/
def Steps (s t : State) : Prop := step s = .next t

/-! ### CIPs -/

/-- A command has an effect at a tile's CIP, and everything that the effect made possible there is done at once (settleTile, R361, R364). -/
def Settles (i : Instr) (s : State) (die n : Nat) (P : State → Prop) : Prop := ∃ u, P u ∧ exec i s = .next (settleTile die n u)

/-- A command of a stream is answered, and nothing else has changed. -/
def Told (i : Instr) (s : State) (h : CipHdr) (code : Nat) (data : List Byte) : Prop :=
  Settles i s h.die h.tile fun u => u = emit (.cipRsp h.die h.tile h.stream code data) s

/-- A stream waits with its command. -/
def WaitsOn (u : State) (h : CipHdr) (w : Wait) : Prop :=
  ∃ x : Stream, look? (cipOf u h.die h.tile).streams h.stream = some x ∧ x.ctx = h.ctx ∧ x.wait = w

/-- A packet without what its way through the fabric decides: VC, ORD, TRACK, DL, PDL. -/
def unrouted (p : Packet) : Packet := { p with vc := 0, ord := false, track := 0, dl := false, pdl := false }

/-- Exactly these packets join the injection queue of a port of a logical tile at its end, in this order; every other injection queue is
as before. -/
def SentAll (s t : State) (die n port : Nat) (c : TClass) (qs : List Packet) : Prop :=
  let k := ikey die (physTile s die n) port (planeOf c)
  (injQ t k).map (fun x => unrouted x.pkt) = (injQ s k).map (fun x => unrouted x.pkt) ++ qs.map unrouted ∧
    ∀ k', k' ≠ k → injQ t k' = injQ s k'

/-! ### Frames -/

/-- The parts of State, by the names of its fields. -/
inductive Part where
  | tm | rg | nt | pl | mp | dr | se | ci | bk | pg | ty | pr | lk | hs | op | ft | kp | rs | fw | sv | ram | jt | out | fresh | pending
deriving DecidableEq, Repr

/-- A part is the same in two states. -/
def Part.same (s t : State) : Part → Prop
  | .tm => t.tm = s.tm
  | .rg => t.rg = s.rg
  | .nt => t.nt = s.nt
  | .pl => t.pl = s.pl
  | .mp => t.mp = s.mp
  | .dr => t.dr = s.dr
  | .se => t.se = s.se
  | .ci => t.ci = s.ci
  | .bk => t.bk = s.bk
  | .pg => t.pg = s.pg
  | .ty => t.ty = s.ty
  | .pr => t.pr = s.pr
  | .lk => t.lk = s.lk
  | .hs => t.hs = s.hs
  | .op => t.op = s.op
  | .ft => t.ft = s.ft
  | .kp => t.kp = s.kp
  | .rs => t.rs = s.rs
  | .fw => t.fw = s.fw
  | .sv => t.sv = s.sv
  | .ram => t.ram = s.ram
  | .jt => t.jt = s.jt
  | .out => t.out = s.out
  | .fresh => t.fresh = s.fresh
  | .pending => t.pending = s.pending

/-- The parts that may differ between two states: every other part is the same in both. -/
def ChangesOnly (ps : List Part) (s t : State) : Prop := ∀ p, p ∉ ps → p.same s t

/-- The darner runs a PATCH task that no fault has stopped, the instruction at its PC is this one, fetched without a parity error, and its
budget has room (R274, R285, R286). -/
def PatchReady (s : State) (u : DrnRef) (op : Nat) (f : PFields) : Prop :=
  let m := (darnerOf s u.die u.tile u.darner).mach
  canPatch s u op f = true ∧ overBudget m = false ∧ m.fault = 0 ∧ u.parity = false

/-- A patch instruction leaves the machine m' in its darner, and nothing of any other darner changes; where the next instruction cannot be
fetched its fault follows at once, which keeps the registers and discards the records (R283, R286). -/
def PatchStep (s t : State) (u : DrnRef) (m' : Mach) : Prop :=
  let d := darnerOf s u.die u.tile u.darner
  let d' := darnerOf t u.die u.tile u.darner
  d' = { d with mach := d'.mach } ∧
    d'.mach = { m' with sect := d'.mach.sect, fault := d'.mach.fault, records := d'.mach.records, buffered := d'.mach.buffered } ∧
    (d'.mach.fault = 0 → d'.mach = m') ∧
    (∀ n e, n ≠ u.tile ∨ e ≠ u.darner → darnerOf t u.die n e = darnerOf s u.die n e) ∧ ChangesOnly [.rg, .dr, .ft] s t

/-- A patch fault stops a darner's task: registers as before, no record of the chunk, the fault and PATCH_FAULT on the run's tile (R286). -/
def PatchStops (s t : State) (u : DrnRef) (code : Nat) : Prop :=
  let d := darnerOf s u.die u.tile u.darner
  let page := drnPage s u.die (ownerTile u.die u.tile d)
  darnerOf t u.die u.tile u.darner =
      { d with mach := { d.mach with sect := .done, fault := code, records := [], buffered := [] } } ∧
    Shows t u.die page (patchBit code) ∧ wbits (reg t u.die page 0x1E0) 10 0 = code ∧ ChangesOnly [.rg, .dr, .ft] s t

/-- What the write of a register can reach: a command register's effect may be anywhere but in staging SRAM and the JTAG bypass bits. -/
def registerParts : List Part := [.tm, .rg, .nt, .pl, .mp, .dr, .se, .ci, .bk, .pg, .ty, .pr, .lk, .hs, .op, .ft, .kp, .rs, .fw, .sv, .out]

/-- The parts of State each command may change. No command changes the queue of the commands that wait. -/
def footprint : Instr → List Part
  | .pressBoundary _ | .pauseEnd =>
    [.tm, .rg, .nt, .pl, .mp, .dr, .se, .ci, .bk, .pg, .ty, .pr, .lk, .hs, .op, .ft, .rs, .fw, .sv, .out, .fresh]
  | .foldStart =>
    [.tm, .rg, .nt, .ty, .pr, .lk, .out]
  | .portLockModeChange _ _ _ | .adaptEscWaitExpiry _ | .transitReq _ _ _ | .transitGrant _ _ _ | .transitEscapeWaitExpiry _ _ =>
    [.nt]
  | .gateWindowEdge _ _ _ _ _ | .epochTargetBoundary _ =>
    [.tm, .rg, .nt, .lk, .out]
  | .epochCommand _ _ _ _ =>
    [.tm, .rg, .ft]
  | .pressLost _ =>
    [.tm, .rg, .nt, .dr, .se, .ci, .bk, .pg, .ty, .pr, .lk, .ft, .rs, .out]
  | .marker _ _ _ _ _ _ =>
    [.tm, .rg, .lk, .ft]
  | .registerWrite _ | .shadowCommitImmediate _ _ _ | .shadowCommitNextBoundary _ _ _ | .shadowCommitScheduled _ _ _
  | .shadowCommitCancel _ _ _ | .arbFreezeWrite _ _ _ _ | .priorityRegisterWrite _ | .govCeilingWrite _ _ | .planCheck _
  | .planAdopt _ | .planCancel _ | .psDataLoWrite _ _ _ _ | .psLoadCmd _ _ _ _ | .seamAbortCmd _ _ _ _ | .checkpointCmd _ _ _ _
  | .dbrRetrain _ _ _ _ | .lnkRetrain _ _ _ _ | .optRescan _ _ _ _ | .errCtrlWrite _ _ | .fabricReset _ | .dieReset _ _
  | .tileReset _ _ _ | .portReset _ _ _ | .contextActivate _ _ | .contextDeactivate _ _ | .contextResetRequest _ _ | .lp2Enter _
  | .lp3Enter _ | .lpExit _ | .lp1ReqWrite _ _ _ | .rollbackWrite _ _ | .areaDataWrite _ _ | .regWrite _ _ _ | .fwCheck _
  | .fwProgram _ | .fwActivate _ | .fwCancel _ | .fwBind _ =>
    registerParts
  | .lowHalfRead _ | .tally0Read _ | .areaDataRead _ =>
    [.rg, .out, .fresh]
  | .immediateCommitTakesEffect _ _ =>
    [.rg, .nt, .mp, .dr, .se, .ci, .bk, .ft, .out]
  | .portOldPlanDrained _ =>
    [.nt, .pl]
  | .packetArrival _ _ _ _ _ =>
    [.rg, .nt, .ft, .rs]
  | .arbitrationDecision _ | .ident _ _ _ _ | .moduleTrainingDone _ _ _ _ | .sundiTrainingStepDone _ _ =>
    [.rg, .nt, .lk, .ft, .out]
  | .credit _ _ _ _ _ _ _ | .escapeStall _ =>
    [.rg, .nt, .ft]
  | .read _ _ _ | .write _ _ _ =>
    [.nt, .mp, .ci]
  | .readData _ _ _ | .writeAck _ _ _ | .status _ _ _ | .mrd _ _ | .mwr _ _ =>
    [.tm, .rg, .nt, .pl, .mp, .dr, .se, .ci, .bk, .pg, .ty, .pr, .lk, .hs, .op, .ft, .kp, .rs, .fw, .sv, .out, .fresh]
  | .mpRequestIssue _ _ =>
    [.rg, .nt, .mp, .out]
  | .mpResponse _ _ _ _ _ =>
    [.rg, .nt, .mp, .ci, .ty, .ft, .out]
  | .mpStall _ _ _ =>
    [.rg, .mp, .ft]
  | .cmResponse _ _ _ _ _ =>
    [.nt, .ci]
  | .taskDispatch _ _ _ _ _ | .taskComplete _ _ _ _ _ =>
    [.rg, .nt, .dr, .se, .ft, .out]
  | .reorderRelease _ _ _ =>
    [.rg, .nt, .dr, .se, .out]
  | .stealRequest _ _ _ _ | .psLoadComplete _ _ =>
    [.dr]
  | .stealGrant _ _ _ _ _ =>
    [.rg, .dr, .ft, .out]
  | .patchRunComplete _ _ _ | .seamDone _ _ _ | .send _ _ _ _ | .add _ _ _ _ | .recv _ _ _ | .ringWait _ _ | .ringFree _ _ _
  | .bskArm _ _ _ _ _ | .pegArmCmd _ _ _ _ | .pegAddCmd _ _ _ | .pegWaitCmd _ _ _ | .pegReadCmd _ _ | .dbWait _ _ _ | .deferRead _
  | .copy _ _ | .multicast _ _ | .ringSend _ _ | .logPut _ _ | .patchRunPost _ _ | .seamOpenPost _ _ | .creditReq _ _ _
  | .creditReturn _ _ _ | .ringReserve _ _ _ | .ringCommit _ _ _ | .dbInc _ _ _ | .stallNote _ _ _ | .creditIdleReturn _ _ _
  | .mcAckWaitExpiry _ _ _ =>
    [.rg, .nt, .mp, .dr, .ci, .bk, .out]
  | .nop _ _ | .next _ _ | .drop _ _ | .halt _ _ | .loop _ _ | .mov _ _ | .abs _ _ | .neg _ _ | .lane _ _ | .setl _ _ | .salu _ _
  | .cmp _ _ | .cls _ _ | .pset _ _ | .pone _ _ | .plog _ _ | .pcnt _ _ | .acc _ _ | .cnt _ _ | .sel _ _ | .azero _ _ | .emit _ _
  | .kemit _ _ =>
    [.rg, .dr, .ft]
  | .seamOpen _ _ _ =>
    [.rg, .nt, .se, .pr, .lk, .out]
  | .seamAdmit _ _ _ | .creditGrant _ _ _ | .ringGrant _ _ _ | .bskDone _ _ _ | .pegDone _ _ _ =>
    [.rg, .nt, .mp, .dr, .se, .ci, .bk, .ty, .ft, .out]
  | .seamSummary _ _ _ _ | .seamGrant _ _ _ _ _ _ | .seamYieldAsk _ _ _ _ _ | .seamAbort _ _ _ _ | .seamLinkLost _ _ _ =>
    [.rg, .nt, .se, .lk, .out]
  | .seamReserve _ _ _ | .seamYield _ _ _ _ | .seamRelease _ _ _ =>
    [.rg, .nt, .dr, .se, .ft]
  | .seamSet _ _ _ _ =>
    [.nt, .dr, .se]
  | .seamPart _ _ _ _ _ | .seamData _ _ _ _ _ _ =>
    [.rg, .nt, .dr, .se, .lk, .ft, .out]
  | .seamTimeout _ _ _ =>
    [.se]
  | .seamResStall _ _ _ _ _ =>
    [.rg, .se, .ft]
  | .fetchRequest _ _ =>
    [.nt, .ci, .out]
  | .msg _ _ _ =>
    [.rg, .nt, .mp, .dr, .ci, .bk, .out, .fresh]
  | .bskAdd _ _ _ =>
    [.rg, .nt, .mp, .dr, .ci, .bk, .ty, .out]
  | .mcAck _ _ _ =>
    [.rg, .nt, .mp, .dr, .ci, .bk, .lk, .out]
  | .pegArm _ _ | .pegWait _ _ =>
    [.rg, .nt, .pg]
  | .pegAdd _ _ =>
    [.rg, .nt, .pg, .pr]
  | .pegRead _ _ =>
    [.rg, .nt]
  | .creditStall _ _ _ =>
    [.rg, .nt, .mp, .dr, .ci, .bk, .ft, .out]
  | .mcAckHoldExpiry _ _ _ =>
    [.rg, .nt, .ci]
  | .logRec _ _ =>
    [.rg, .nt, .ty, .lk, .out]
  | .datagramClose _ =>
    [.rg, .ty, .lk, .out]
  | .gapRecord _ _ =>
    [.rg, .nt, .ty]
  | .pairDelta _ =>
    [.nt, .pr]
  | .pairAck _ _ =>
    [.rg, .nt, .pr]
  | .heldEventApply _ =>
    [.rg, .nt, .dr, .se, .pg, .ty, .pr, .lk, .ft, .rs, .out]
  | .pairLagLimit _ | .pairPrimaryLost | .pairMirrorLost =>
    [.rg, .pr, .ft]
  | .bridgeGroup _ _ _ _ _ _ _ | .course _ _ _ _ _ =>
    [.tm, .rg, .nt, .se, .ci, .lk, .hs, .ft, .fw, .sv, .out, .fresh]
  | .ack _ _ _ | .trainingRetry _ _ =>
    [.lk]
  | .nak _ _ _ _ =>
    [.rg, .lk, .ft, .out]
  | .faultIdle _ _ =>
    [.rg, .se, .ci, .lk, .hs, .ft, .fw, .sv, .out]
  | .echo _ _ _ _ =>
    [.nt, .lk, .out, .fresh]
  | .dbrTrainFail _ _ _ | .lnkTrainFail _ | .fecWindowEnd _ _ | .routerPoll _ _ =>
    [.rg, .ft]
  | .linkLoss _ _ =>
    [.rg, .nt, .lk, .ft]
  | .stoLinkDown _ =>
    [.rg, .lk, .ft]
  | .storageFrameReceived _ =>
    [.rg]
  | .hstLinkDown _ =>
    [.rg, .hs, .ft]
  | .hstFlr _ | .hstHotReset _ =>
    [.hs]
  | .optModuleDetect _ _ _ =>
    [.rg, .lk, .op, .ft, .kp, .out]
  | .laserHourTick _ _ =>
    [.rg, .op, .ft, .kp, .out]
  | .powerSample _ _ _ _ _ =>
    [.rg, .lk, .op, .ft, .out]
  | .faultRecordDie _ _ =>
    [.rg, .nt, .mp, .dr, .se, .ci, .pg, .lk, .hs, .ft, .fw, .sv, .out]
  | .faultRecordRoot =>
    [.rg, .nt, .hs, .ft, .kp, .sv, .out]
  | .errNPulseEnd =>
    [.ft, .out]
  | .quiesceResetPhase | .quiesceLimit =>
    [.tm, .rg, .nt, .mp, .dr, .se, .ci, .bk, .pg, .ty, .pr, .lk, .hs, .ft, .rs, .out]
  | .quiesceReturn =>
    [.rg, .nt, .lk, .rs]
  | .clWake _ _ =>
    [.nt, .rs]
  | .por _ _ _ _ =>
    [.tm, .rg, .nt, .pl, .mp, .dr, .se, .ci, .bk, .pg, .ty, .pr, .lk, .hs, .op, .ft, .kp, .rs, .fw, .sv, .ram, .out]
  | .porNLow =>
    [.tm, .ft, .fw, .out]
  | .fmcStart _ _ =>
    [.ft, .kp, .fw, .sv, .out]
  | .regRead _ _ =>
    [.rg, .sv, .out, .fresh]
  | .stageWrite _ _ _ =>
    [.rg, .sv, .ram, .out]
  | .stageRead _ _ _ | .ping _ _ | .serviceDatagramRejected _ _ =>
    [.rg, .sv, .out]
  | .sidebandWrite _ _ | .svcCommit =>
    [.kp, .sv]
  | .fwCheckDone | .fwProgramDone _ | .activationLoadTimeout =>
    [.rg, .hs, .fw, .sv, .out]
  | .activationLoadDone =>
    [.kp, .fw]
  | .bypass _ _ =>
    [.jt, .out]
  | .idcode _ =>
    [.out]
  | .samplePreload _ =>
    [.out, .fresh]
  | .extest _ =>
    [.jt, .out, .fresh]
  | .referenceEdgesResumed _ =>
    [.tm]
  | .brownOut =>
    [.kp]
  | .fabricSupplyLoss =>
    [.tm, .ft, .kp, .fw, .out]
  | .stoPcsLinkUp _ =>
    [.rg, .nt, .ty, .lk]
  | .unsupportedTlp _ _ _ =>
    [.rg, .out]
  | .cmRequestIssue _ _ =>
    [.ci, .out]

end Sys2Proof.Machine
end

