-- ==== Sys2Proof/Certificates/Slice0/Obligations.lean ====
section
/-! DEFINITION. The statements for the provers: what the commands of the fabric do, by families, from the rules of the manual. -/
section
open Sys2Proof Sys2Proof.Machine

/-- O1. With c at the front of the queue, a step is exec of c on the state with the queue's rest, and a next state it gives has that rest as
its queue. (95_what_each_step_holds.md.) -/
def Obligations.StepRunsTheFrontCommand : Prop :=
  ∀ (s : State) (c : Instr) (cs : List Instr), s.pending = c :: cs →
    step s = exec c { s with pending := cs } ∧ ∀ t, step s = .next t → t.pending = cs

/-- O2. On an empty queue a step gives a next state: while FCLK runs (POR_N high, package not in LP2 or LP3) the cycle number rises by one
and only the clock, the counters, the marks of packets held and what the seam collectors send change; while it does not run, nothing
changes. That a step on an empty queue is one cycle is the model's choice (log 2). (R18, 04_press_and_time_base.md.) -/
def Obligations.EmptyQueueIsOneCycle : Prop :=
  ∀ s : State, s.pending = [] → ∃ t, step s = .next t ∧ ChangesOnly [.tm, .rg, .nt, .lk, .out] s t ∧
    (fclkRuns s = true → t.tm.fclk = s.tm.fclk + 1 ∧ t.tm.units = s.tm.units) ∧ (fclkRuns s = false → t = s)

/-- O3. After reset the invariant holds, every Press unit is UNSET with no number taken, no plan is in effect, no context is active, no
packet, seam or record exists, no command waits, and a register reads its reset value. (R92, R522, 04_press_and_time_base.md,
15_reset_power_and_retention.md.) -/
def Obligations.ResetState : Prop :=
  Inv State.reset ∧ (∀ die, (unitOf State.reset die).st = .unset) ∧ State.reset.pl.cur = none ∧ State.reset.rs.active = [] ∧
    State.reset.nt = {} ∧ State.reset.se.recs = [] ∧ State.reset.ft.root = [] ∧ State.reset.pending = [] ∧
    ∀ die page off sel, reg State.reset die page off sel = resetOf die page off

/-- O4. From every state in which staging SRAM is in its canonical form, every Press unit outside UNSET and every pending epoch command has
a legal PERIOD_REF, and ROLLBACK and the anti-rollback indices fit their eight bits, a step gives such a state, whatever command it runs.
(R87, R91, R522, R537, R528.) -/
def Obligations.StepKeepsInvariant : Prop :=
  ∀ s t : State, Inv s → Steps s t → Inv t

/-- O5. No command ends in a fault or a refusal, whatever the state and its operands: every failure the manual names is a status, a record
or a severity action. For every command and state, the next state differs from the state before in no part but those the table of footprints
lists for that command: no command changes the queue, only staging writes and POR change staging SRAM, no fabric command touches the service
port, Keep or the JTAG bits unless listed. (95_what_each_step_holds.md.) -/
def Obligations.CommandFootprints : Prop :=
  ∀ (c : Instr) (s : State), ∃ t, exec c s = .next t ∧ ChangesOnly (footprint c) s t

/-- O6. PRESS_BOUNDARY of a package in RUN completes, whatever inputs have changed: every unit in RUN goes on in RUN with its number one
higher, its Press starting C = 64 × PERIOD_REF / 5 cycles later and its period unchanged; at the boundary at which the package enters LP3
the units lose their number instead (R510). (R90.) -/
def Obligations.PressNumberAdvances : Prop :=
  ∀ (s : State) (pins : Pins), s.tm.porLow = false → running s (refDie s) = true →
    ∃ t, exec (.pressBoundary pins) s = .next t ∧ ∀ die, running s die = true →
      t.rs.lp = .lp3 ∨
      (running t die = true ∧ (unitOf t die).press = (unitOf s die).press + 1 ∧ (unitOf t die).period = (unitOf s die).period ∧
        (unitOf t die).start = (unitOf s die).start + pressCycles (unitOf s die).period)

/-- O7. FOLD_START of a package in RUN that is awake and not in the fold completes: the clock is at cycle B of the Press or later, the tally
values are readable, the lock state decided is that of Press n + 2: never locked with LOCK_MODE 0, locked in automatic mode if no die holds
an admitted multicast descriptor, bit (n + 2) mod 64 of LOCK_MASK in scheduled mode. No Press unit changes. (R89, R108, R109.) -/
def Obligations.FoldDecidesTheLock : Prop :=
  ∀ s : State, s.tm.inFold = false → running s (refDie s) = true → lpSleeps s = false →
    ∃ t, exec .foldStart s = .next t ∧ t.tm.inFold = true ∧ t.tm.units = s.tm.units ∧
      t.tm.fclk ≥ (unitOf s (refDie s)).start + budgetB s (refDie s) ∧
      (rfld s 0 0 0x120 1 0 = 0 → t.tm.lockAfter = false) ∧
      (rfld s 0 0 0x120 1 0 = 1 → t.tm.lockAfter = !weightPosted s) ∧
      (rfld s 0 0 0x120 1 0 = 2 → t.tm.lockAfter = (reg64 s 0 0 0x124).toNat.testBit ((pressOf s (refDie s) + 2) % 64)) ∧
      (∀ e ∈ t.ty.chains, e.2.shown = none) ∧ ChangesOnly (footprint .foldStart) s t

/-- O8. A valid EPOCH_COMMAND at a unit in RUN of a die in service completes: where PERIOD_REF, target boundary and START_PRESS agree with
the running count, EPOCH_COUNT rises by one and nothing else changes; where they do not, the Press units are as before and PRESS_MISMATCH is
set in PRS_STATUS. Either way the running Press keeps its number, its start and its period. (R94.) -/
def Obligations.EpochCommandInRun : Prop :=
  ∀ (s : State) (die : Nat) (frame : List Byte) (f : EpochFrame), s.tm.porLow = false → notInService s die = false →
    parseEpoch frame = some f → running s die = true →
    let u := unitOf s die
    let target := s.tm.fclk + f.delay / 5 * 64
    ∃ t, exec (.epochCommand die frame true true) s = .next t ∧
      (unitOf t die).st = .run ∧ (unitOf t die).press = u.press ∧ (unitOf t die).start = u.start ∧ (unitOf t die).period = u.period ∧
      (f.period = u.period ∧ u.start < target ∧ (target - u.start) % pressCycles u.period = 0 ∧
          f.start = u.press + (target - u.start) / pressCycles u.period →
        t = modUnit die (fun u => { u with epochCount := u.epochCount + 1 }) s) ∧
      (¬ (f.period = u.period ∧ u.start < target ∧ (target - u.start) % pressCycles u.period = 0 ∧
          f.start = u.press + (target - u.start) / pressCycles u.period) →
        t.tm = s.tm ∧ (reg t die 0 0x104).toNat.testBit 5 = true ∧ (pageOf t die 0).fault.toNat.testBit 0 = true)

/-- O9. A valid EPOCH_COMMAND at a unit in UNSET completes: with a running neighbour over a bridge that is UP nothing changes; otherwise the
unit holds the command with its target boundary DELAY reference cycles on, and only the Press units change. An invalid frame, or one not
followed by 16 cycles of 0, raises EPOCH_CRC and changes no unit. A die whose DIE_TYPE disagrees with R15 stays in reset and takes no frame.
(R91, R93, R553, R578.) -/
def Obligations.EpochCommandOutsideRun : Prop :=
  (∀ (s : State) (die : Nat) (frame : List Byte) (before after : Bool), notInService s die = true →
    exec (.epochCommand die frame before after) s = .next s) ∧
  ∀ (s : State) (die : Nat) (frame : List Byte), s.tm.porLow = false → notInService s die = false →
    (∀ f, parseEpoch frame = some f → (unitOf s die).st = .unset →
      ∃ t, exec (.epochCommand die frame true true) s = .next t ∧
        (runningNeighbour s die = true → t = s) ∧
        (runningNeighbour s die = false → ChangesOnly [.tm] s t ∧ t.tm.fclk = s.tm.fclk ∧
          unitOf t die = { unitOf s die with cmd := some { target := s.tm.fclk + f.delay / 5 * 64, start := f.start, period := f.period, follow := f.follow } } ∧
          ∀ d, d ≠ die → unitOf t d = unitOf s d)) ∧
    (∀ after, parseEpoch frame = none ∨ after = false →
      ∃ t, exec (.epochCommand die frame true after) s = .next t ∧ t.tm = s.tm ∧
        (reg t die 0 0x104).toNat.testBit 3 = true ∧ (pageOf t die 0).fault.toNat.testBit 3 = true)

/-- O10. EPOCH_TARGET_BOUNDARY with a pending command completes: the clock is at the target boundary or later and the command is no longer
pending; with FOLLOW = 0 the unit is in RUN with START_PRESS as the number of the Press that begins there, with FOLLOW = 1 in ARMED. Every
other unit is as before. (R51, R93.) -/
def Obligations.TargetBoundarySetsThePressUnit : Prop :=
  ∀ (s : State) (die : Nat) (c : EpochCmd), (unitOf s die).cmd = some c →
    ∃ t, exec (.epochTargetBoundary die) s = .next t ∧ t.tm.fclk = max s.tm.fclk c.target ∧
      (unitOf t die).cmd = none ∧ (unitOf t die).period = c.period ∧ (unitOf t die).start = c.target ∧
      (unitOf t die).st = (if c.follow then .armed else .run) ∧ (c.follow = false → (unitOf t die).press = c.start) ∧
      (∀ d, d ≠ die → unitOf t d = unitOf s d) ∧ ChangesOnly [.tm, .rg, .nt, .lk, .out] s t

/-- O11. PRESS_LOST completes: a second one without edges between changes nothing; otherwise the unit is in UNSET, its loss is noted, its
count of epoch commands and its phases are kept, every other unit is as before and no plan, no Keep, no host adapter, no laser module and no
firmware state changes. REFERENCE_EDGES_RESUMED ends the loss and changes nothing else. (R95, R579.) -/
def Obligations.LossOfReference : Prop :=
  ∀ (s : State) (die : Nat),
    (∃ t, exec (.pressLost die) s = .next t ∧
      ((unitOf s die).lost = true → t = s) ∧
      ((unitOf s die).lost = false → s.tm.porLow = false →
        (unitOf t die).st = .unset ∧ (unitOf t die).lost = true ∧ (unitOf t die).epochCount = (unitOf s die).epochCount ∧
          (unitOf t die).phases = (unitOf s die).phases ∧ (∀ d, d ≠ die → unitOf t d = unitOf s d) ∧
          ChangesOnly [.tm, .rg, .nt, .dr, .se, .ci, .bk, .pg, .ty, .pr, .lk, .ft, .rs, .out] s t)) ∧
    exec (.referenceEdgesResumed die) s = .next (modUnit die (fun u => { u with lost := false }) s)

/-- O12. MARKER of a sender in RUN on a link that is UP, at a unit in RUN that has not taken its number from a higher port's marker in this
cycle (R97), completes: with the period and the number of the nearest local boundary it leaves its phase with the unit and changes no
number; with another period or number the port goes to HOLD with its cause and the unit is as before. Units of other dies are as before.
MARKER of a sender in RUN on a bridge module that is UP completes: a unit in UNSET enters RUN with the marker's number and a phase at the
translated boundary rounded to a multiple of 5 reference cycles, dropping a pending epoch command; a unit in ARMED with the same PERIOD_REF
enters RUN with the number of its Press in progress and keeps its phase. (R93, R96, R97, R98.) -/
def Obligations.MarkersCompareOrGiveTheNumber : Prop :=
  (∀ (s : State) (die link : Nat) (press : DWord) (period lag : Nat), s.tm.porLow = false → isLink die link = true →
      (linkOf s die link).st = .up → running s die = true → lowerPort s die link = none →
      let u := unitOf s die
      let near := nearest u.start u.period (remoteBoundary s die link lag)
      ∃ t, exec (.marker die link .run press period lag) s = .next t ∧ ChangesOnly [.tm, .rg, .lk, .ft] s t ∧
        (∀ d, d ≠ die → unitOf t d = unitOf s d) ∧
        (period = u.period ∧ shiftPress u.press near.1 = press.toNat →
          unitOf t die = { u with phases := put 0 u.phases (phaseKey link) near.2 } ∧ (linkOf t die link).markerOk = true ∧
            (linkOf t die link).st = .up) ∧
        (¬ (period = u.period ∧ shiftPress u.press near.1 = press.toNat) →
          unitOf t die = u ∧ (linkOf t die link).st = .hold ∧ (linkOf t die link).cause = 0x18 ∧
            (reg t die 0 0x104).toNat.testBit 5 = true)) ∧
  (∀ (s : State) (die link : Nat) (press : DWord) (period lag : Nat), s.tm.porLow = false → isLink die link = true →
      isMod link = true → (linkOf s die link).st = .up → periodOk period = true →
      let u := unitOf s die
      let b := remoteBoundary s die link lag
      ∃ t, exec (.marker die link .run press period lag) s = .next t ∧
        (u.st = .unset → (unitOf t die).st = .run ∧ (unitOf t die).press = press.toNat ∧ (unitOf t die).period = period ∧
          (unitOf t die).start = (b.toNat + 2) / 5 * 64 ∧ (unitOf t die).cmd = none ∧ (unitOf t die).followed = true) ∧
        (u.st = .armed → period = u.period → (unitOf t die).st = .run ∧ (unitOf t die).start = u.start ∧
          (unitOf t die).period = u.period ∧ (unitOf t die).press = shiftPress press.toNat (-(nearest u.start u.period b).1)))

/-- O13. PORT_LOCK_MODE_CHANGE completes: a port that holds a flit of P0 or P1 in an input buffer keeps its mode and nothing changes; an
empty one takes the lock state in effect, and every other port keeps its mode. GATE_WINDOW_EDGE of a tile in service and a running die
completes: at a cycle that is an open, a hem or a close edge of the class's windows the clock is at that cycle of the Press or later and no
Press unit changes; at another cycle nothing changes. (R111, R182, R183.) -/
def Obligations.LockModesAndGateEdges : Prop :=
  (∀ (s : State) (die t port : Nat), ∃ s', exec (.portLockModeChange die t port) s = .next s' ∧ ChangesOnly [.nt] s s' ∧
      s'.nt.bufs = s.nt.bufs ∧
      (holdsLocked s die t port = true → s' = s) ∧
      (holdsLocked s die t port = false → portLocked s' die t port = s.tm.lockNow ∧
        ∀ d x p, lockKey d x p ≠ lockKey die t port → portLocked s' d x p = portLocked s d x p)) ∧
  (∀ (s : State) (die t n port cls cycle : Nat), logTile s die t = some n → running s die = true →
      ∃ s', exec (.gateWindowEdge die t port cls cycle) s = .next s' ∧ s'.tm.units = s.tm.units ∧ ChangesOnly [.tm, .rg, .nt, .lk, .out] s s' ∧
        (cycle ∈ gateEdges s die t n port cls → s'.tm.fclk = max s.tm.fclk ((unitOf s die).start + cycle)) ∧
        (cycle ∉ gateEdges s die t n port cls → s' = s))

/-- O14. A register read or write of a master that can act, answered with a status other than REG_OK, completes with that status and the
value zero and leaves the whole state as it was; the status is REG_REMOTE for another package, REG_ALIGN for a size or an alignment other
than 32 bits in the local package, REG_ABSENT for an aligned access to an absent page. That REG_REMOTE comes first where several apply is
the model's choice (log 60). (R36, R38, R41, R42, R43.) -/
def Obligations.RefusedAccessHasNoEffect : Prop :=
  ∀ (s : State) (a : RegAcc), masterOn s a.master = true →
    (accessStatus s a true ≠ 0 →
      exec (.registerWrite a) s = .next (emit (.regDone a.master (accessStatus s a true) 0) s) ∧
      exec (.priorityRegisterWrite a) s = .next (emit (.regDone a.master (accessStatus s a true) 0) s)) ∧
    (accessStatus s a false ≠ 0 → exec (.lowHalfRead a) s = .next (emit (.regDone a.master (accessStatus s a false) 0) s)) ∧
    ∀ w, (a.pkg ≠ pkgNo s → accessStatus s a w = 4) ∧
      (a.pkg = pkgNo s → a.size ≠ 4 ∨ a.off % 4 ≠ 0 → accessStatus s a w = 2) ∧
      (a.pkg = pkgNo s → a.size = 4 → a.off % 4 = 0 → pageInfo a.die a.page = none → accessStatus s a w = 1)

/-- O15. REGISTER_WRITE and PRIORITY_REGISTER_WRITE of an RWS register that is no half of a pair, where the page serves the field and
mechanism 1 is not in effect on it, complete with REG_OK: the shadow value takes the written bits but for reserved and out-of-range fields,
every value in effect stays, and nothing outside the register pages and the answer changes. (R46, R48, R89, R353.) -/
def Obligations.ShadowedWriteKeepsValueInEffect : Prop :=
  ∀ (s : State) (m : Master) (die page off : Nat) (v : Word) (i : PageInfo) (row : RegRow), Writes s m die page off v i row →
    row.acc = .rws → row.lo = false → isHigh i row.off = false → notHere s die i row.off = false →
    ¬ (i.kind = .prs ∧ row.off = 0x114 ∧ die ≠ 0) → (row.prio && freezeCtl s die page) = false →
    let a : RegAcc := { master := m, pkg := pkgNo s, die := die, page := page, off := off, value := v }
    let sel := selOf s die page row
    ∃ t, exec (.registerWrite a) s = .next t ∧ exec (.priorityRegisterWrite a) s = .next t ∧
      t.out = s.out ++ [.regDone m 0 0] ∧ t.rg.eff = s.rg.eff ∧
      shadowReg t die page off sel = merged i row m (rwsShadow s die page row) (unreserved i row sel v) ∧ ChangesOnly [.rg, .out] s t

/-- O16. With FREEZE_CTL = 1 in effect, PRIORITY_REGISTER_WRITE of a priority register completes with REG_OK: with every arbiter of the
register frozen the value in effect and the shadow value both take the written bits; with one of them not frozen BAD_WRITE is set and no
register changes. (R56, R170.) -/
def Obligations.PriorityWriteUnderFreezeControl : Prop :=
  ∀ (s : State) (m : Master) (die page off : Nat) (v : Word) (i : PageInfo) (row : RegRow), Writes s m die page off v i row →
    row.acc = .rws → row.lo = false → isHigh i row.off = false → i.kind ∈ [PageKind.tile0, PageKind.tile2] →
    (row.prio && freezeCtl s die page) = true →
    let a : RegAcc := { master := m, pkg := pkgNo s, die := die, page := page, off := off, value := v }
    let sel := selOf s die page row
    ∃ t, exec (.priorityRegisterWrite a) s = .next t ∧ ChangesOnly [.rg, .out] s t ∧
      ((∀ x ∈ prioArbs i.kind row.off, frozen s die page x = true) →
        reg t die page off sel = merged i row m (rwsEff s die page row) (unreserved i row sel v) ∧
        shadowReg t die page off sel = merged i row m (rwsEff s die page row) (unreserved i row sel v)) ∧
      (¬ (∀ x ∈ prioArbs i.kind row.off, frozen s die page x = true) →
        (pageOf t die page).bad = true ∧ t.rg.eff = s.rg.eff ∧ t.rg.shadow = s.rg.shadow)

/-- O17. With no commit pending on a present page, SHADOW_COMMIT_IMMEDIATE leaves an immediate commit pending, or on a PRESS_ONLY page one
for the next boundary; SHADOW_COMMIT_NEXT_BOUNDARY one for the next boundary; SHADOW_COMMIT_SCHEDULED one for COMMIT_PRESS, held while the
unit is not in RUN, and where COMMIT_PRESS is not greater than the running Press number sets COMMIT_LATE and leaves none pending. No
register value, shadow or in effect, and nothing outside the page header changes. (R49, R50, R51, R54.) -/
def Obligations.CommitRequestsArePending : Prop :=
  ∀ (s : State) (m : Master) (die page : Nat) (v : Word) (i : PageInfo) (row : RegRow), Writes s m die page 0x40 v i row →
    (pageOf s die page).commit = .none →
    (∃ t, exec (.shadowCommitImmediate m die page) s = .next t ∧
      t = emit (.regDone m 0 0) (modPage die page (fun p => { p with
        commit := if pressOnly i.kind then .nextBoundary else .immediate }) s)) ∧
    (∃ t, exec (.shadowCommitNextBoundary m die page) s = .next t ∧
      t = emit (.regDone m 0 0) (modPage die page (fun p => { p with commit := .nextBoundary }) s)) ∧
    (∃ t, exec (.shadowCommitScheduled m die page) s = .next t ∧
      t = emit (.regDone m 0 0) (modPage die page (fun p =>
        if running s die = false then { p with commit := .heldScheduled (reg64 s die page 0x50).toNat }
        else if (reg64 s die page 0x50).toNat ≤ pressOf s die then { p with late := true }
        else { p with commit := .scheduled (reg64 s die page 0x50).toNat }) s))

/-- O18. While a commit is pending on a page, each of the three commit requests, and a REGISTER_WRITE of SHADOW_COMMIT with COMMIT = 1, no
CANCEL and a legal WHEN, leaves it pending and sets COMMIT_OVERRUN. SHADOW_COMMIT_CANCEL, and a write with CANCEL = 1 with or without
COMMIT, leaves none pending. Nothing else changes. (R53.) -/
def Obligations.PendingCommitOverrunsOrIsCancelled : Prop :=
  ∀ (s : State) (m : Master) (die page : Nat) (v : Word) (i : PageInfo) (row : RegRow), Writes s m die page 0x40 v i row →
    let ignored := emit (.regDone m 0 0) (modPage die page (fun p => { p with overrun := true }) s)
    let cancelled := emit (.regDone m 0 0) (modPage die page (fun p => { p with commit := .none }) s)
    let w := exec (.registerWrite { master := m, pkg := pkgNo s, die := die, page := page, off := 0x40, value := v }) s
    ((pageOf s die page).commit ≠ .none →
      exec (.shadowCommitImmediate m die page) s = .next ignored ∧ exec (.shadowCommitNextBoundary m die page) s = .next ignored ∧
      exec (.shadowCommitScheduled m die page) s = .next ignored ∧
      (v.toNat.testBit 0 = true → v.toNat.testBit 3 = false → wbits v 2 1 ≠ 3 → w = .next ignored)) ∧
    exec (.shadowCommitCancel m die page) s = .next cancelled ∧
    (v.toNat.testBit 3 = true → wbits v 2 1 ≠ 3 → w = .next cancelled)

/-- O19. IMMEDIATE_COMMIT_TAKES_EFFECT with an immediate commit pending, no transfer in progress on the page's arbiters and no load of a
patch store in progress on the page completes: no commit is pending on the page, COMMIT_COUNT is one higher, no other page's commit state
changes, and the page has no uncommitted shadow value left; on a page whose unit reacts with nothing but the new values, each register with
an uncommitted shadow value has it in effect. With none pending, or while a transfer is in progress on the page's arbiters, nothing changes:
a pending one goes on waiting. (R48, R49, R52, R54, R290.) -/
def Obligations.ImmediateCommitTakesShadows : Prop :=
  ∀ (s : State) (die page : Nat),
    ((pageOf s die page).commit ≠ .immediate ∨ pageIdle s die page = false → exec (.immediateCommitTakesEffect die page) s = .next s) ∧
    ((pageOf s die page).commit = .immediate → pageIdle s die page = true → psLoading s die page = false →
      ∃ t, exec (.immediateCommitTakesEffect die page) s = .next t ∧
        (pageOf t die page).commit = .none ∧ (pageOf t die page).count = (pageOf s die page).count + 1 ∧
        (∀ d p, pk d p ≠ pk die page → (pageOf t d p).commit = (pageOf s d p).commit ∧ (pageOf t d p).count = (pageOf s d p).count) ∧
        (∀ off sel, off < 4096 → sel < 16384 → look? t.rg.shadow (rk die page off sel) = none) ∧
        (kindOf die page ∉ [PageKind.tile2, PageKind.cip, PageKind.bsk, PageKind.seam1, PageKind.seam2, PageKind.drn] →
          ∀ off sel v, off < 4096 → sel < 16384 → look? s.rg.shadow (rk die page off sel) = some v → reg t die page off sel = v))

/-- O20. LOW_HALF_READ of a register of a present page that is answered REG_OK completes with the register's value; if it is the low half of
a pair, the high half is latched for that master, and a read of the high half from the same master returns the latched value and uses it up.
Apart from the latches, the answer, a counter of free values and the step of AREA_ADDR nothing changes. (R37, R48.) -/
def Obligations.ReadsAnswerAndLatch : Prop :=
  ∀ (s : State) (a : RegAcc) (i : PageInfo) (row : RegRow), masterOn s a.master = true → accessStatus s a false = 0 →
    pageInfo a.die a.page = some i → rowAt a.die i a.off = some row → row.off = a.off →
    let k := latchKey a.master a.die a.page a.off
    ∃ t, exec (.lowHalfRead a) s = .next t ∧ ChangesOnly [.rg, .out, .fresh] s t ∧
      (∀ v, look? s.rg.latch k = some v →
        t.out = s.out ++ [.regDone a.master 0 v] ∧ look? t.rg.latch k = none ∧ t.rg.eff = s.rg.eff) ∧
      (look? s.rg.latch k = none → t.out = s.out ++ [.regDone a.master 0 (readNow s a.die a.page i row)] ∧
        (row.lo = true → i.kind ≠ .tly0 → ∀ hi, rowAt a.die i (a.off + 4) = some hi →
          look? t.rg.latch (latchKey a.master a.die a.page (a.off + 4)) = some (readNow s a.die a.page i hi)))

/-- O21. TALLY_0_READ of the tally page of a memory-side die, with nothing latched there, completes with the first word of the selected
context's readable tally and latches the other seven words, the PRESS and the count for the same master. AREA_DATA_READ completes with the
word of the FMC area at AREA_ADDR and moves AREA_ADDR to the next word. (R406, R580.) -/
def Obligations.TallyAndAreaReads : Prop :=
  (∀ (s : State) (a : RegAcc) (i : PageInfo) (row : RegRow), masterOn s a.master = true →
    accessStatus s { a with off := 0x110 } false = 0 → pageInfo a.die a.page = some i → i.kind = .tly0 →
    rowAt a.die i 0x110 = some row → look? s.rg.latch (latchKey a.master a.die a.page 0x110) = none →
    ∃ t, exec (.tally0Read a) s = .next t ∧ t.out = s.out ++ [.regDone a.master 0 (readNow s a.die a.page i row)] ∧
      ∀ off ∈ [0x114, 0x118, 0x11C, 0x120, 0x124, 0x128, 0x12C, 0x130, 0x134, 0x138], ∃ r, rowAt a.die i off = some r ∧
        look? t.rg.latch (latchKey a.master a.die a.page off) = some (readNow s a.die a.page i r)) ∧
  (∀ (s : State) (m : Master), masterOn s m = true →
    accessStatus s { master := m, pkg := pkgNo s, die := 0, page := 0x733, off := 0x104 } false = 0 →
    look? s.rg.latch (latchKey m 0 0x733 0x104) = none →
    ∃ t, exec (.areaDataRead m) s = .next t ∧ t.out = s.out ++ [.regDone m 0 (areaWord s)] ∧
      areaAddr t = (areaAddr s + 1) % 2048 ∧ ChangesOnly [.rg, .out] s t)

/-- O22. ARB_FREEZE_WRITE on a page with arbiters completes with the FREEZE bit of each arbiter as written and the arbiters' counts and
orders as before. GOV_CEILING_WRITE completes: a ceiling of 400 to 1,900 in steps of 10 is in effect and counted; any other leaves the
ceiling and the count and sets BAD_WRITE. (R29, R46, R55.) -/
def Obligations.FreezeAndCeilingWrites : Prop :=
  (∀ (s : State) (m : Master) (die page : Nat) (v : Word) (i : PageInfo) (row : RegRow), Writes s m die page 0x44 v i row →
    ∃ t, exec (.arbFreezeWrite m die page v) s = .next t ∧ ChangesOnly [.rg, .out] s t ∧
      ∀ x, x < arbCount i.kind → frozen t die page x = v.toNat.testBit x) ∧
  (∀ (s : State) (m : Master) (v : Word), Commands s m 0 0x720 0x104 v →
    ∃ t, exec (.govCeilingWrite m v) s = .next t ∧ ChangesOnly [.rg, .nt, .out] s t ∧
      (400 ≤ wbits v 11 0 ∧ wbits v 11 0 ≤ 1900 ∧ wbits v 11 0 % 10 = 0 →
        rfld t 0 0x720 0x104 11 0 = wbits v 11 0 ∧ countOf t 0 0x720 2 = countOf s 0 0x720 2 + 1) ∧
      (¬ (400 ≤ wbits v 11 0 ∧ wbits v 11 0 ≤ 1900 ∧ wbits v 11 0 % 10 = 0) →
        rfld t 0 0x720 0x104 11 0 = rfld s 0 0x720 0x104 11 0 ∧ countOf t 0 0x720 2 = countOf s 0 0x720 2 ∧
        (pageOf t 0 0x720).bad = true))

/-- O23. PLAN_CHECK, PLAN_ADOPT and PLAN_CANCEL complete. With a plan waiting, or a firmware activation armed or pausing the fabric, CHECK
and ADOPT change nothing but the answer; else CHECK sets CODE to what the image shows; ADOPT of a good image for a Press past the next one
leaves it waiting for that Press with its staging range locked, for an earlier Press sets CODE 0x09, of a bad image sets its code; CANCEL
leaves no plan waiting, no DRAINING, no locked range, CODE 0x0B. An image is good only if its epoch rises, its PAIR flag is as strapped,
this package is present, and its slices name rising contexts with 1 to 4,096 present members, none twice. PORT_OLD_PLAN_DRAINED takes a port
that holds no packet of the old plan, unacknowledged or with a transit slot, off the list; requests that wait for its slots may then be
granted; with none nothing else changes. (R81, R82, R84, R85.) -/
def Obligations.PlanCommands : Prop :=
  (∀ (s : State) (m : Master) (v : Word), Commands s m 0 0x721 0x150 v →
    let r := checkImage s (reg s 0 0x721 0x140).toNat (reg s 0 0x721 0x144).toNat
    let p := (reg64 s 0 0x721 0x148).toNat
    let busy := s.pl.next ≠ none ∨ s.fw.st = .armed ∨ s.fw.st = .pause
    (∃ t, exec (.planCheck m) s = .next t ∧ ChangesOnly [.pl, .rg, .hs, .sv, .out] s t ∧
      (busy → t = emit (.regDone m 0 0) s) ∧ (¬ busy → t.pl = { s.pl with code := r.1 })) ∧
    (∃ t, exec (.planAdopt m) s = .next t ∧ ChangesOnly [.pl, .rg, .hs, .sv, .out] s t ∧
      (busy → t = emit (.regDone m 0 0) s) ∧ (¬ busy → r.2 = none → t.pl = { s.pl with code := r.1 }) ∧
      ∀ img, ¬ busy → r.2 = some img →
        (p ≤ pkgPress s + 1 → t.pl = { s.pl with code := 0x09 }) ∧
        (p > pkgPress s + 1 → t.pl = { s.pl with
          next := some img, adoptPress := p, code := 0x01, lockAt := (reg s 0 0x721 0x140).toNat, lockLen := (reg s 0 0x721 0x144).toNat })) ∧
    (∃ t, exec (.planCancel m) s = .next t ∧ ChangesOnly [.pl, .rg, .hs, .sv, .out] s t ∧
      t.pl = { s.pl with next := none, draining := false, lockLen := 0, code := 0x0B })) ∧
  (∀ (s : State) (off len : Nat) (img : PlanImage), (checkImage s off len).2 = some img →
    (checkImage s off len).1 = 0x01 ∧ off + len ≤ 67108864 ∧ planEpoch s < img.epoch ∧ img.shape ≤ 2 ∧
      img.pairMode = s.tm.straps.toNat.testBit 12 ∧ maskHas img.masks (pkgNo s) = true ∧
      img.slices.Pairwise (fun a b => a.ctx < b.ctx) ∧
      ∀ x ∈ img.slices, x.ctx ≤ 2047 ∧ 1 ≤ x.members.length ∧ x.members.length ≤ 4096 ∧ x.members.Nodup ∧
        ∀ q ∈ x.members, maskHas img.masks q = true) ∧
  (∀ (s : State) (port : Nat), ∃ t, exec (.portOldPlanDrained port) s = .next t ∧
    (((∃ f ∈ (lnkOf s port).replay, f.pkts ≠ []) ∨ ∃ e ∈ s.nt.poolUsed, e.1 / 64 = port ∧ 0 < e.2) → t = s) ∧
    ((∀ f ∈ (lnkOf s port).replay, f.pkts = []) → (∀ e ∈ s.nt.poolUsed, e.1 / 64 = port → e.2 = 0) →
      ChangesOnly [.nt, .pl] s t ∧ t.pl = { s.pl with oldPorts := s.pl.oldPorts.filter (· ≠ port) } ∧
      ((∀ r ∈ s.nt.transitWait, r.egress ≠ port) → t.nt = s.nt)))

/-- O24. PACKET_ARRIVAL completes in every state. At an input port the router has, no Sundi port, with no bridge lost, a packet for this
package joins the end of the buffer of its plane, VC and class, with every other buffer as before; a corrected error changes nothing of it,
a payload error marks the flit. A packet for another package with no usable leg is not placed; a STATUS ROUTE_DOWN goes to its requester. A
header error discards the packet, raises the fault and records its DEST in FAULT_HEAD. A route parity error raises ROUTE_PARITY and the
packet is placed, on a repeat TILE_DEAD and it is not. A multicast packet waits for the outputs of its tree entry, or raises MC_BAD where
the entry is empty. At the router port of a Sundi link: where the port is a mirror port the router takes nothing; otherwise, with no bridge
lost, a packet joins the end of the buffer of the class it was sent with and no other buffer gains a packet; one for this package has PDL 0
and the home track of its tile there. (R126, R127, R134, R135, R144, R146, R149, R410, R448, R450, R481.) -/
def Obligations.PacketsArriveInTheirBuffers : Prop :=
  (∀ (s : State) (die tile port : Nat) (p : Packet) (e : ArrivalEvent),
    ∃ t, exec (.packetArrival die tile port p e) s = .next t ∧ ChangesOnly [.rg, .nt, .ft, .rs] s t) ∧
  (∀ (s : State) (die tile port n : Nat) (p : Packet), logTile s die tile = some n → port < 10 → portExists die n port = true →
      (∀ q, outAttach die n port ≠ .lnk q) → (∀ b m, (modOf s die b m).unplaced = false) →
      let kq (q : Packet) := bkey die tile port (planeOf q.cls) q.vc (inCls die n port q)
      let placed (q : Packet) (outs : List Nat) (t : State) :=
        bufQ t (kq p) = bufQ s (kq p) ++ [{ pkt := q, since := max (s.tm.fclk + 1) (leavesAt s (kq p)), outs := outs }] ∧
        ∀ k, k ≠ kq p → bufQ t k = bufQ s k
      (p.mc = false → aPkg p.dest = pkgNo s →
        (∃ t, exec (.packetArrival die tile port p .ok) s = .next t ∧ ChangesOnly [.rg, .nt, .rs] s t ∧ placed p [] t) ∧
        (∀ c, ∃ t, exec (.packetArrival die tile port p (.corrected c)) s = .next t ∧ ChangesOnly [.rg, .nt, .rs] s t ∧ placed p [] t) ∧
        (∀ f, ∃ t, exec (.packetArrival die tile port p (.payloadEcc f)) s = .next t ∧ ChangesOnly [.rg, .nt, .rs] s t ∧
          placed { p with why := p.why.set f 1 } [] t) ∧
        (entryKey s die tile p ∉ s.nt.reloaded →
          ∃ t, exec (.packetArrival die tile port p .routeParity) s = .next t ∧ placed p [] t ∧ Shows t die (tpage tile 0) 3)) ∧
      (p.mc = false → aPkg p.dest ≠ pkgNo s → legOf s die tile p = none → p.cls ≠ .log → p.cls ≠ .mgmt → p.via = 0 →
        ∃ t, exec (.packetArrival die tile port p .ok) s = .next t ∧ t.nt.bufs = s.nt.bufs ∧
          ∃ q, Sent s t die n 10 q ∧ q.dest = lossTo p ∧ q.sseq = p.sseq ∧ q.operand = 0x77) ∧
      (∃ t, exec (.packetArrival die tile port p .headEcc) s = .next t ∧ t.nt.bufs = s.nt.bufs ∧ Shows t die (tpage tile 0) 2 ∧
        reg t die (tpage tile 0) 0x128 = lo32 p.dest ∧ reg t die (tpage tile 0) 0x12C = hi32 p.dest) ∧
      (entryKey s die tile p ∈ s.nt.reloaded →
        ∃ t, exec (.packetArrival die tile port p .routeParity) s = .next t ∧ t.nt.bufs = s.nt.bufs ∧ Shows t die 1 1) ∧
      (p.mc = true → let w := rfld s die (tpage tile 1) 0x12C 11 0 (bits p.dest.toNat 11 0)
        ∃ t, exec (.packetArrival die tile port p .ok) s = .next t ∧
          (w ≠ 0 → placed p ((List.range 12).filter fun o => w.testBit o) t) ∧
          (w = 0 → t.nt.bufs = s.nt.bufs ∧ Shows t die (tpage tile 0) 4))) ∧
  (∀ (s : State) (die tile port n q : Nat) (p : Packet), logTile s die tile = some n → outAttach die n port = .lnk q →
      p.mc = false → (∀ b m, (modOf s die b m).unplaced = false) →
      ∃ t, exec (.packetArrival die tile port p .ok) s = .next t ∧ ChangesOnly [.rg, .nt, .rs] s t ∧
        ((∀ d l, portRole (shapeOf s) (portOf die q) ≠ .dir d l) → t = s) ∧
        (∀ d l, portRole (shapeOf s) (portOf die q) = .dir d l →
          let k := bkey die tile port (planeOf p.cls) p.vc (if isAdaptive p.vc then 0 else b2n p.pdl)
          (aPkg p.dest = pkgNo s → hopDir s die tile (aPkg p.dest) = none →
            (let x : QPkt := { pkt := { p with pdl := false, track := homeTrack die n }, since := max (s.tm.fclk + 1) (leavesAt s k) };
              bufQ t k = bufQ s k ++ [x]) ∧ ∀ k', k' ≠ k → bufQ t k' = bufQ s k') ∧
          (aPkg p.dest ≠ pkgNo s → legOf s die tile p ≠ none →
            (bufQ t k).map (·.pkt.dest) = (bufQ s k).map (·.pkt.dest) ++ [p.dest] ∧
              ∀ k', k' ≠ k → (bufQ t k').map (·.pkt.dest) = (bufQ s k').map (·.pkt.dest))))

/-- O25. ARBITRATION_DECISION of an output port arbiter completes. A frozen arbiter, or one whose transfer has not come to its last beat,
grants nothing. Otherwise, with a requester eligible by what stood at the start of the cycle, it grants one of them, of the lowest class in
two-level mode unless the grant goes by age; the grant is counted and its transfer ends LEN + 1 beats later (LEN / 2 + 1 on a locked plane);
LEN + 1 credits are taken; a packet that is no multicast leaves the front of its buffer, and goes to the endpoint at a local port, to the
next tile at a mesh port, over the carrying module at a bridge, where it is kept for replay. ARBITRATION_DECISION of an injection port and
plane completes. With a scheduler of the port frozen, a transfer in progress or no packet at the front of its context and class that may
start, nothing changes. Otherwise, where the packets that wait are for endpoints of this package over bridges that stand, one of those
eligible leaves the queue and joins the router's buffer of its plane and VC; both schedulers count a grant and are busy for its beats. (R55,
R129, R162, R163, R164, R165, R166, R173.) -/
def Obligations.ArbitersGrantOne : Prop :=
  (∀ (s : State) (die tile out plane vc cls n : Nat), logTile s die tile = some n →
      let page := tpage tile 0
      let s0 := atStart s
      let a := look {} s.nt.arbs (outArb die tile out plane vc cls)
      let two := decide (rfld s0 die page 0x48 0 0 = 1)
      let starve := rfld s0 die page 0x48 15 8
      let prio (i : Nat) := rfld s0 die page (0x140 + 4 * out) (2 * i + 1) (2 * i)
      let can (i : Nat) (r : Req) := i < 12 ∧ r ∈ portReqs s0 die tile n out plane vc cls i ∧
        outEligible s0 die tile n out plane vc cls r = true ∧ outRoom s die tile n out plane vc cls r.q.pkt = true
      ∃ t, exec (.arbitrationDecision (.output die tile out plane vc cls)) s = .next t ∧
        ((frozen s0 die page out = true ∨ s.tm.fclk < a.endAt ∨ ∀ i r, ¬ can i r) → t = s) ∧
        (frozen s0 die page out = false → a.endAt ≤ s.tm.fclk → (∃ i r, can i r) → ∃ i r, can i r ∧
          let p := afterHop s die n i out r.escape r.q.pkt
          let beats := if portLocked s die tile out ∧ planeOf p.cls = 0 then p.len / 2 + 1 else p.len + 1
          (two = true → (starve = 0 ∨ (a.count + 1) % starve ≠ 0) → ∀ i' r', can i' r' → prio i ≤ prio i') ∧
          look {} t.nt.arbs (outArb die tile out plane vc cls) =
            { count := a.count + 1, order := a.order.filter (· ≠ i) ++ [i], prev := a.prev.set (prio i) (i + 1),
              endAt := s.tm.fclk + beats, startAt := s.tm.fclk + 1 } ∧
          (noCount die n out = false → let k := credKey s die tile n out plane vc cls
            look 0 t.nt.used k = look 0 s.nt.used k + (p.len + 1) ∧ ∀ k', k' ≠ k → look 0 t.nt.used k' = look 0 s.nt.used k') ∧
          (r.q.pkt.mc = false → let names (x : QPkt) := (x.pkt.dest, x.pkt.sseq, x.pkt.payload)
            (bufQ t r.key).map names = ((bufQ s r.key).map names).tail ∧ ∀ k', k' ≠ r.key → (bufQ t k').map names = (bufQ s k').map names) ∧
          (out = 10 ∨ out = 11 → t.nt.delivered = s.nt.delivered ++ [{ die := die, tile := n, port := out, pkt := p }]) ∧
          (out < 8 → let st := meshStep die n out
            t.nt.wires = s.nt.wires ++ [{ die := die, tile := physTile s die st.1, port := st.2, pkt := p }]) ∧
          (∀ b m, outAttach die n out = .module b m → b < 4 → m < 4 →
            ((modOf t die b ((carrier s die b m).getD m)).replay.getLast?).map (·.pkts) = some [p]))) ∧
  (∀ (s : State) (die tile port plane n : Nat), logTile s die tile = some n →
      let page := tpage tile 2
      let k := ikey die tile port plane
      let a := look {} s.nt.arbs (injArb die tile port plane 0)
      let b := look {} s.nt.arbs (injArb die tile port plane 1)
      let pa := 2 * nodePort port
      let s0 := atStart s
      let can (q : QPkt) := q ∈ fronts (injQ s k) [] ∧ q.since ≤ s.tm.fclk ∧ injEligible s0 die tile n port q.pkt = true
      let held := frozen s0 die page pa = true ∨ frozen s0 die page (pa + 1) = true ∨ s.tm.fclk < a.endAt
      ∃ t, exec (.arbitrationDecision (.inject die tile port plane)) s = .next t ∧
        ((held ∨ ∀ q, ¬ can q) → t = s) ∧
        (¬ held → (∃ q, can q) → (∀ q ∈ injQ s k, q.pkt.mc = false ∧ aPkg q.pkt.dest = pkgNo s) →
          (∀ x m, (modOf s die x m).unplaced = false) → ∃ q, can q ∧
            let kb := bkey die tile port (planeOf q.pkt.cls) q.pkt.vc (escCls q.pkt q.pkt.vc)
            let beats := if portLocked s die tile port ∧ planeOf q.pkt.cls = 0 then q.pkt.len / 2 + 1 else q.pkt.len + 1
            (injQ t k).map (·.pkt) = ((injQ s k).map (·.pkt)).erase q.pkt ∧ (∀ k', k' ≠ k → injQ t k' = injQ s k') ∧
            bufQ t kb = bufQ s kb ++ [{ pkt := q.pkt, since := max (s.tm.fclk + 1) (leavesAt s kb) }] ∧ (∀ k', k' ≠ kb → bufQ t k' = bufQ s k') ∧
            (look {} t.nt.arbs (injArb die tile port plane 0)).count = a.count + 1 ∧
            (look {} t.nt.arbs (injArb die tile port plane 0)).endAt = s.tm.fclk + beats ∧
            (look {} t.nt.arbs (injArb die tile port plane 1)).count = b.count + 1))

/-- O26. CREDIT, ADAPT_ESC_WAIT_EXPIRY and ESCAPE_STALL complete in every state. CREDIT at a tile in service: returned credits free as many
flits of the downstream buffer's count and are owed no longer, and change nothing else; more than are out are discarded and raise
CREDIT_OVERFLOW. ADAPT_ESC_WAIT_EXPIRY of a buffer whose front packet is adaptive, in no transit without a grant, and has waited
ADAPT_ESC_WAIT cycles makes it ask for its escape output too, from the next cycle on, and changes nothing else. ESCAPE_STALL of a front
packet that has asked for its escape output for longer than ESC_STALL_LIMIT raises ESCAPE_STALL and records its DEST; the packet keeps
waiting, and a second expiry changes nothing. (R130, R140, R154.) -/
def Obligations.CreditsAndWaits : Prop :=
  (∀ (s : State) (die tile port plane vc cls k : Nat) (b : BufKey),
    (∃ t, exec (.credit die tile port plane vc cls k) s = .next t ∧ ChangesOnly [.rg, .nt, .ft] s t) ∧
    (∃ t, exec (.adaptEscWaitExpiry b) s = .next t ∧ ChangesOnly [.nt] s t) ∧
    ∃ t, exec (.escapeStall b) s = .next t ∧ ChangesOnly [.rg, .nt, .ft] s t) ∧
  (∀ (s : State) (die tile port plane vc cls k n : Nat), logTile s die tile = some n → let key := credKey s die tile n port plane vc cls
    ∃ t, exec (.credit die tile port plane vc cls k) s = .next t ∧ look 0 t.nt.owed key = look 0 s.nt.owed key - k ∧
      (∀ k', k' ≠ key → look 0 t.nt.owed k' = look 0 s.nt.owed k') ∧ t.nt = { s.nt with used := t.nt.used, owed := t.nt.owed } ∧
      (k ≤ look 0 s.nt.used key → ChangesOnly [.nt] s t ∧ look 0 t.nt.used key = look 0 s.nt.used key - k ∧
        ∀ k', k' ≠ key → look 0 t.nt.used k' = look 0 s.nt.used k') ∧
      (look 0 s.nt.used key < k → t.nt.used = s.nt.used ∧ Shows t die (tpage tile 0) 1)) ∧
  (∀ (s : State) (b : BufKey) (q : QPkt) (qs : List QPkt), bufQ s (bufKey b) = q :: qs →
    (isAdaptive q.pkt.vc = true → q.pkt.mc = false → q.alsoEscape = false → inTransit s q.pkt = false ∨ q.pkt.via ≠ 0 →
      q.since + rfld s b.die (tpage b.tile 0) 0x108 7 0 ≤ s.tm.fclk →
      ∃ t, exec (.adaptEscWaitExpiry b) s = .next t ∧ bufQ t (bufKey b) = { q with alsoEscape := true, escAt := s.tm.fclk + 1 } :: qs ∧
        (∀ k, k ≠ bufKey b → bufQ t k = bufQ s k) ∧ t.nt = { s.nt with bufs := t.nt.bufs }) ∧
    (s.tm.fclk < q.since + rfld s b.die (tpage b.tile 0) 0x108 7 0 → exec (.adaptEscWaitExpiry b) s = .next s) ∧
    (inTransit s q.pkt = false ∨ q.pkt.via ≠ 0 → isAdaptive q.pkt.vc = false ∨ q.pkt.mc = true ∨ q.alsoEscape = true ∨ q.expired = true →
      q.stalled = false → rfld s b.die (tpage b.tile 0) 0x100 2 2 = 1 →
      max q.since q.escAt + rfld s b.die (tpage b.tile 0) 0x104 23 0 < s.tm.fclk →
      ∃ t, exec (.escapeStall b) s = .next t ∧ Shows t b.die (tpage b.tile 0) 0 ∧
        reg t b.die (tpage b.tile 0) 0x128 = lo32 q.pkt.dest ∧ reg t b.die (tpage b.tile 0) 0x12C = hi32 q.pkt.dest ∧
        bufQ t (bufKey b) = { q with stalled := true } :: qs ∧ (∀ k, k ≠ bufKey b → bufQ t k = bufQ s k) ∧
        exec (.escapeStall b) t = .next t))

/-- O27. TRANSIT_REQ at the tile of its egress completes: with a free slot and nobody waiting for the port, the slot is taken and
TRANSIT_GRANT goes to an asker on another die; with no slot free the request waits behind the others. TRANSIT_GRANT at an ingress that asked
completes: the request is no longer out, and where no packet in transit waits at the front of a buffer, and no request for the port, the
slot is freed. TRANSIT_ESCAPE_WAIT_EXPIRY of an adaptive packet in transit at the front of its ingress buffer, ungranted for 16 times
ADAPT_ESC_WAIT cycles, has it go on as escape: it keeps its place and asks for a slot of its escape lane's port alone; no other buffer
changes. How the requests are laid out in a packet is the model's choice (log 16). (R146, R147, R148.) -/
def Obligations.TransitGrants : Prop :=
  (∀ (s : State) (die tile : Nat) (p : Packet), let port := bits p.operand.toNat 7 0
    let c := bits p.operand.toNat 15 8
    portDie port = die →
    ∃ t, exec (.transitReq die tile p) s = .next t ∧ ChangesOnly [.nt] s t ∧
      (p.srcDie ≠ die → s.nt.transitWait.all (fun r => r.egress ≠ port) = true → slotFree s port c = true →
        poolUsed t port c = poolUsed s port c + 1 ∧ t.nt.transitWait = s.nt.transitWait ∧
        ∃ q, Sent s t die (lnkTile (port % 6)).1 10 q ∧ q.opcode = 0xE0 ∧ q.dest = epAddr (pkgNo s) p.srcDie p.srcTile 0 0 ∧ q.operand = w64 (port + 256 * c)) ∧
      ((∀ r ∈ s.nt.transitWait, r.egress = port → slotFree s port r.cls = false) → slotFree s port c = false →
        t.nt.transitWait = s.nt.transitWait ++ [{ srcDie := p.srcDie, srcTile := p.srcTile, egress := port, cls := c, sseq := p.sseq }] ∧
        t.nt.poolUsed = s.nt.poolUsed ∧ t.nt.inject = s.nt.inject)) ∧
  (∀ (s : State) (die tile : Nat) (p : Packet) (a : TransitReq), let port := bits p.operand.toNat 7 0
    let c := bits p.operand.toNat 15 8
    s.nt.transitAsked = [a] → a.srcDie = die → a.srcTile = tile → a.egress = port → a.cls = c →
    (∀ k, ∀ q ∈ (bufQ s k).head?, inTransit s q.pkt = false ∨ q.pkt.via ≠ 0) → (∀ r ∈ s.nt.transitWait, r.egress ≠ port) →
    ∃ t, exec (.transitGrant die tile p) s = .next t ∧ ChangesOnly [.nt] s t ∧ t.nt.transitAsked = [] ∧
      poolUsed t port c = poolUsed s port c - 1 ∧ t.nt.bufs = s.nt.bufs) ∧
  (∀ (s : State) (port : Nat) (p : Packet) (q : QPkt) (qs : List QPkt), let die := portDie port
    let at_ := lnkTile (port % 6)
    let tile := physTile s die at_.1
    let k := bkey die tile (8 + at_.2) (planeOf p.cls) p.vc 0
    let asks := transitPorts s die tile at_.1 { q with expired := true }
    bufQ s k = q :: qs → q.pkt = p → isAdaptive p.vc = true → q.expired = false → inTransit s p = true → p.via = 0 →
    q.since + 16 * rfld s die (tpage tile 0) 0x108 7 0 ≤ s.tm.fclk →
    ∃ t, exec (.transitEscapeWaitExpiry port p) s = .next t ∧ ChangesOnly [.nt] s t ∧
      (bufQ t k).map (·.expired) = true :: qs.map (·.expired) ∧ (bufQ t k).map (·.pkt.dest) = (bufQ s k).map (·.pkt.dest) ∧
      (∀ k', k' ≠ k → bufQ t k' = bufQ s k') ∧ asks.length ≤ 1 ∧
      ((∀ e ∈ asks, portDie e.1 ≠ die) → bufQ t k = { q with expired := true } :: qs ∧
        ∀ e ∈ asks, ∃ r ∈ t.nt.transitAsked, r.srcDie = die ∧ r.srcTile = at_.1 ∧ r.egress = e.1 ∧ r.cls = e.2))

/-- O28. READ and WRITE at a tile complete; the packet has been handed over. At a tile that a quiesce or an isolation covers they are
answered with NACK_RETRY. At a memory port with ENABLE 1 a request inside one granule and inside the stack waits behind the others; any
other is answered with ADDR_UNMAPPED. At a cluster memory a request inside one granule and inside MEM_SIZE waits for it; any other is
answered with ADDR_UNMAPPED. A READ of 48 bytes of the tally endpoint by its own context is answered with RD_DATA, any other with the status
of a bad length or context. What waits changes nothing else. (R68, R118, R119, R159, R406, R482, R585.) -/
def Obligations.MemoryRequestsWaitOrAreRefused : Prop :=
  ∀ (s : State) (die tile : Nat) (p : Packet), p.mc = false → ∀ i ∈ [Instr.read die tile p, Instr.write die tile p],
    ∃ t, exec i s = .next t ∧ ChangesOnly [.nt, .mp, .ci] s t ∧
      (aRegion p.dest = 0 → fenced s die tile = true → Refused s t die tile 10 p 0x20 ∧ t.mp = s.mp ∧ t.ci = s.ci) ∧
      (fenced s die tile = false → dieType die = .memside → aRegion p.dest = 0 →
        let off := bits p.dest.toNat 43 0
        let k := countBytes p
        let good := rfld s die (tpage (physTile s die tile) 3) 0x100 0 0 = 1 ∧ 1 ≤ k ∧ k ≤ 512 ∧ p.dest.toNat % 512 + k ≤ 512 ∧ off + k ≤ stackBytes
        (good → t.mp = upd {} s.mp (tk die tile) (fun m => { m with waiting := m.waiting ++ [p] }) ∧ ChangesOnly [.mp] (consume die tile p s) t) ∧
        (¬ good → Refused s t die tile 10 p 0x10 ∧ t.mp = s.mp ∧ t.ci = s.ci)) ∧
      (fenced s die tile = false → dieType die = .compute → aRegion p.dest = 0 →
        let off := bits p.dest.toNat 35 0
        let k := countBytes p
        let good := 1 ≤ k ∧ k ≤ 512 ∧ off % 512 + k ≤ 512 ∧ off + k ≤ cmSize die tile
        (good → ChangesOnly [.ci] (consume die tile p s) t ∧ ∃ r : CmReq, (cipOf t die tile).cmWaiting = (cipOf s die tile).cmWaiting ++ [r] ∧
          r.addr = off ∧ r.pkt = some p ∧ r.we = decide (p.opcode = 1) ∧ (p.opcode = 1 → r.data = padTo k p.payload)) ∧
        (¬ good → Refused s t die tile 10 p 0x10 ∧ t.ci = s.ci)) ∧
      (fenced s die tile = false → dieType die = .memside → aRegion p.dest = 1 → aPort p.dest = 10 → p.opcode = 0 →
        (countBytes p = 48 → p.ctx = aIdx p.dest → Answered s t die tile 11 p 0x80 48 (tallyBytes s p.ctx)) ∧
        (countBytes p ≠ 48 ∨ p.ctx ≠ aIdx p.dest → Refused s t die tile 11 p 0x6E))

/-- O29. MP_REQUEST_ISSUE and CM_REQUEST_ISSUE complete. With nothing waiting nothing changes. A memory port whose ENABLE is 0 has no
request left waiting, and answers a lone one with ADDR_UNMAPPED. Otherwise, with as many requests out as MP_OUTSTANDING (of a cluster memory
1,024) allows, or a write next on a die in the safe state, nothing changes; else the oldest waiting request goes to the controller and is
out under a tag no request that is out has; the others wait in their order. A memory port counts the request and its bytes. (R119, R159,
R476, R558.) -/
def Obligations.MemoryRequestsGoOutInOrder : Prop :=
  ∀ (s : State) (die tile : Nat),
    (let m := mpOf s die tile
     let page := tpage (physTile s die tile) 3
     let on := rfld s die page 0x100 0 0 = 1
     let full := min 512 (rfld s die page 0x108 9 0) ≤ m.out.length
     ∃ t, exec (.mpRequestIssue die tile) s = .next t ∧ ChangesOnly [.rg, .nt, .mp, .out] s t ∧
       (m.waiting = [] → t = s) ∧
       (rfld s die page 0x100 0 0 = 0 → m.waiting ≠ [] → ChangesOnly [.nt, .mp] s t ∧
         t.mp = upd {} s.mp (tk die tile) (fun m => { m with waiting := [] }) ∧
         ∀ p, m.waiting = [p] → Refused s t die tile 10 p 0x10) ∧
       (∀ p ps, m.waiting = p :: ps → on → (full ∨ (p.opcode = 1 ∧ isSafe s die = true) → t = s) ∧
        (¬ full → p.opcode ≠ 1 ∨ isSafe s die = false → ∃ tag, tag < 512 ∧ (∀ r ∈ m.out, r.tag ≠ tag) ∧
         let off := bits p.dest.toNat 43 0
         let we := decide (p.opcode = 1)
         t.nt = s.nt ∧
         t.mp = upd {} s.mp (tk die tile) (fun m => { m with waiting := ps, out := m.out ++ [{ tag := tag, pkt := p, offset := off, since := s.tm.fclk }] }) ∧
         t.out = s.out ++ [.mpReq die tile tag off we (if p.opcode = 1 then p.payload.take (countBytes p) else [])] ∧
         countOf t die page (if p.opcode = 1 then 1 else 0) = countOf s die page (if p.opcode = 1 then 1 else 0) + 1 ∧
         countOf t die page (if p.opcode = 1 then 3 else 2) = countOf s die page (if p.opcode = 1 then 3 else 2) + w64 (countBytes p)))) ∧
    (let c := cipOf s die tile
     ∃ t, exec (.cmRequestIssue die tile) s = .next t ∧ ChangesOnly [.ci, .out] s t ∧
       (c.cmWaiting = [] → t = s) ∧
       (∀ r rs, c.cmWaiting = r :: rs → (1024 ≤ c.cmOut.length ∨ (r.we = true ∧ isSafe s die = true) → t = s) ∧
        (c.cmOut.length < 1024 → r.we = false ∨ isSafe s die = false → ∃ tag, tag < 1024 ∧ (∀ x ∈ c.cmOut, x.tag ≠ tag) ∧
         cipOf t die tile = { c with cmWaiting := rs, cmOut := c.cmOut ++ [{ r with tag := tag }] } ∧
         (∀ k, k ≠ tk die tile → look {} t.ci.tiles k = look {} s.ci.tiles k) ∧
         t.out = s.out ++ [.cmReq die tile tag r.addr r.we r.data])))

/-- O30. MP_RESPONSE, MP_STALL and CM_RESPONSE complete in every state. Under the tag of a request that is out the request is no longer out;
a READ, other than for a multicast, is answered with RD_DATA of its bytes, each flit marked as poisoned after an error; a WRITE that asked
for one is answered with WR_ACK, after an error with DATA_POISON whether it asked or not. What has been read for a multicast is no answer:
its request is no longer out at its port. An error of a memory port raises MP_RSP_ERR and records the stack offset. A response under no
request's tag changes nothing. MP_STALL of a request overdue by MP_STALL_LIMIT cycles raises MP_STALL and records its offset; a second one
changes nothing. (R118, R159, R160, R558.) -/
def Obligations.MemoryResponsesReturn : Prop :=
  (∀ (s : State) (die tile tag : Nat) (data : List Byte) (err : Bool),
    (∃ t, exec (.mpResponse die tile tag data err) s = .next t ∧ ChangesOnly [.rg, .nt, .mp, .ci, .ty, .ft, .out] s t) ∧
    (∃ t, exec (.mpStall die tile tag) s = .next t ∧ ChangesOnly [.rg, .mp, .ft] s t) ∧
    ∃ t, exec (.cmResponse die tile tag data err) s = .next t ∧ ChangesOnly [.nt, .ci] s t) ∧
  (∀ (s : State) (die tile tag : Nat) (data : List Byte) (err : Bool), let page := tpage (physTile s die tile) 3
    ((∀ r ∈ (mpOf s die tile).out, r.tag ≠ tag) → exec (.mpResponse die tile tag data err) s = .next s ∧ exec (.mpStall die tile tag) s = .next s) ∧
    (∀ r, (mpOf s die tile).out.find? (fun r => decide (r.tag = tag)) = some r →
      (mcPiece s r.pkt = none → ∃ t, exec (.mpResponse die tile tag data err) s = .next t ∧ ChangesOnly [.rg, .nt, .mp, .ft] s t ∧
        t.mp = upd {} s.mp (tk die tile) (fun m => { m with out := m.out.filter fun x => decide (x.tag ≠ tag) }) ∧
        (r.pkt.opcode = 0 → Answered s t die tile 10 r.pkt 0x80 (w64 (countBytes r.pkt)) (padTo (countBytes r.pkt) data) ∧
          ∃ q, Sent s t die tile 10 q ∧ q.why = List.replicate (flitsFor r.pkt.cls (countBytes r.pkt)) (b2n err)) ∧
        (r.pkt.opcode ≠ 0 → err = false → r.pkt.operand.toNat.testBit 10 = true → Answered s t die tile 10 r.pkt 0x81 0 []) ∧
        (r.pkt.opcode ≠ 0 → err = false → r.pkt.operand.toNat.testBit 10 = false → t.nt = s.nt) ∧
        (r.pkt.opcode ≠ 0 → err = true → Refused s t die tile 10 r.pkt 0x26) ∧
        (err = true → Shows t die page 0 ∧ reg t die page 0x110 = w32 r.offset ∧ countOf t die page 4 = countOf s die page 4 + 1)) ∧
      (∀ d, mcPiece s r.pkt = some d → err = false → flushing s die tile = false →
        exec (.mpResponse die tile tag data err) s = .next (pieceRead r.pkt.srcDie r.pkt.srcTile d.id data
          { s with mp := upd {} s.mp (tk die tile) (fun m => { m with out := m.out.filter fun x => decide (x.tag ≠ tag) }) })) ∧
      (s.tm.fclk < r.since + rfld s die page 0x10C 23 0 → exec (.mpStall die tile tag) s = .next s) ∧
      (r.since + rfld s die page 0x10C 23 0 ≤ s.tm.fclk → r.stalled = false →
        ∃ t, exec (.mpStall die tile tag) s = .next t ∧ Shows t die page 1 ∧
          reg t die page 0x110 = w32 r.offset ∧ (mpOf t die tile).out.map (·.pkt) = (mpOf s die tile).out.map (·.pkt) ∧
          exec (.mpStall die tile tag) t = .next t))) ∧
  (∀ (s : State) (die tile tag : Nat) (data : List Byte) (err : Bool) (r : CmReq) (q : Packet),
    (cipOf s die tile).cmOut.find? (fun r => decide (r.tag = tag)) = some r → r.pkt = some q → q.mc = false →
    ∃ t, exec (.cmResponse die tile tag data err) s = .next t ∧
      cipOf t die tile = { cipOf s die tile with cmOut := (cipOf s die tile).cmOut.filter fun x => decide (x.tag ≠ tag) } ∧
      (q.opcode = 0 → Answered s t die tile 10 q 0x80 (w64 (countBytes q)) (padTo (countBytes q) data) ∧
        ∃ p, Sent s t die tile 10 p ∧ p.why = List.replicate (flitsFor q.cls (countBytes q)) (b2n err)) ∧
      (q.opcode ≠ 0 → err = true → Refused s t die tile 10 q 0x26) ∧
      (q.opcode ≠ 0 → err = false → q.operand.toNat.testBit 10 = true → Answered s t die tile 10 q 0x81 0 []) ∧
      (q.opcode ≠ 0 → err = false → q.operand.toNat.testBit 10 = false → t.nt = s.nt))

/-- O31. Each of the 23 patch instructions completes. Where the darner does not have it at its PC it changes nothing; where the budget of
the section is used up the task stops with BUDGET; where its fetch finds a parity error, with PS_PARITY; where M, the destination or the
binding makes it illegal it stops with the illegal-instruction code. A stop keeps every register, leaves no record of the chunk, raises the
fault on the run's tile and records code and context in PATCH_FAULT. That an M which names no operation must be 0 is read from the encoding
table by inference (log 23). (R275, R278, R283, R284, R285, R286.) -/
def Obligations.PatchFaultsStopTheTask : Prop :=
  ∀ (s : State) (u : DrnRef) (f : PFields),
    (∀ e ∈ [(0x00, Instr.nop u f), (0x01, .next u f), (0x02, .drop u f), (0x03, .halt u f), (0x04, .loop u f), (0x08, .mov u f),
        (0x09, .abs u f), (0x0A, .neg u f), (0x0B, .lane u f), (0x0C, .setl u f), (0x0D, .salu u f), (0x10, .cmp u f), (0x11, .cls u f),
        (0x12, .pset u f), (0x13, .pone u f), (0x14, .plog u f), (0x15, .pcnt u f), (0x18, .acc u f), (0x19, .cnt u f), (0x1A, .sel u f),
        (0x1B, .azero u f), (0x20, .emit u f), (0x21, .kemit u f)],
      (canPatch s u e.1 f = false → exec e.2 s = .next s) ∧
      (canPatch s u e.1 f = true → overBudget (darnerOf s u.die u.tile u.darner).mach = true →
        ∃ t, exec e.2 s = .next t ∧ PatchStops s t u 0x40) ∧
      (canPatch s u e.1 f = true → overBudget (darnerOf s u.die u.tile u.darner).mach = false → u.parity = true →
        ∃ t, exec e.2 s = .next t ∧ PatchStops s t u 0x45)) ∧
    (∀ e ∈ [(0x00, Instr.nop u f), (0x01, .next u f), (0x02, .drop u f), (0x03, .halt u f), (0x08, .mov u f), (0x09, .abs u f),
        (0x0A, .neg u f), (0x0B, .lane u f), (0x0C, .setl u f), (0x12, .pset u f), (0x13, .pone u f), (0x15, .pcnt u f), (0x18, .acc u f),
        (0x19, .cnt u f), (0x1A, .sel u f), (0x1B, .azero u f), (0x21, .kemit u f)],
      PatchReady s u e.1 f → f.m ≠ 0 → ∃ t, exec e.2 s = .next t ∧ PatchStops s t u 0x41) ∧
    (∀ e ∈ [(0x10, Instr.cmp u f), (0x11, .cls u f), (0x12, .pset u f), (0x13, .pone u f), (0x14, .plog u f)],
      PatchReady s u e.1 f → f.d % 8 = 0 → ∃ t, exec e.2 s = .next t ∧ PatchStops s t u 0x41) ∧
    (PatchReady s u 0x03 f → bWhole (darnerOf s u.die u.tile u.darner).mach.bind = false →
      ∃ t, exec (.halt u f) s = .next t ∧ PatchStops s t u 0x41)

/-- O32. NOP moves the PC on. NEXT, DROP and HALT under an empty mask do the same; in a body under any other mask they write (DROP: discard)
the buffered records and end the group: with groups left, and not for HALT, the next group starts at BODY with its P0 and no loop, a chunked
binding combining its result slots and starting from empty registers; else a whole-run binding goes to its epilogue, and without one, or
chunked, the task is done. LOOP pushes its body, first and last address, with the latched count; skipped or with count 0 it goes on past the
body. At the last address of the innermost loop the PC returns to the first while iterations are left, and leaves the loop after. (R274,
R275, R277, R281.) -/
def Obligations.PatchSectionsAndLoops : Prop :=
  (∀ (s : State) (u : DrnRef) (f : PFields), let m := (darnerOf s u.die u.tile u.darner).mach
    let mask := guardMask m f
    let g := groupSize m.bind
    (PatchReady s u 0x00 f → f.m = 0 → ∃ t, exec (.nop u f) s = .next t ∧ PatchStep s t u (advance 0 (countInstr m))) ∧
    (∀ e ∈ [(0x01, Instr.next u f, true, false), (0x02, .drop u f, false, false), (0x03, .halt u f, true, true)],
      PatchReady s u e.1 f → f.m = 0 → (e.2.2.2 = true → bWhole m.bind = true) →
      ∃ t, exec e.2.1 s = .next t ∧ ChangesOnly [.rg, .dr, .ft] s t ∧
        (mask = 0 → PatchStep s t u (advance 0 (countInstr m))) ∧
        (mask ≠ 0 → m.sect = .body → let m' := (darnerOf t u.die u.tile u.darner).mach
          let more := e.2.2.2 = false ∧ m.gidx + g < m.count
          (m'.fault = 0 → m'.records = (if e.2.2.1 then m.records ++ m.buffered else m.records) ∧ m'.buffered = []) ∧
          (more → m'.gidx = m.gidx + g ∧ m'.pc = bBody m.bind ∧ m'.loops = [] ∧ m'.bodyCount = 0 ∧ (m'.fault = 0 → m'.sect = .body) ∧
            m'.p0.toNat = 2 ^ min g (m.count - (m.gidx + g)) - 1 ∧
            (bWhole m.bind = false → m'.results = joinResults m.bind m.results m.slots ∧ m'.slots = [] ∧ m'.v = [] ∧ m'.p = [])) ∧
          (¬ more → bWhole m.bind = true → bEpi m.bind ≠ 0x3FF →
            m'.pc = bEpi m.bind ∧ m'.loops = [] ∧ (m'.fault = 0 → m'.sect = .epilogue)) ∧
          (¬ more → bWhole m.bind = false ∨ bEpi m.bind = 0x3FF → m'.sect = .done ∧
            (bWhole m.bind = false → m'.results = joinResults m.bind m.results m.slots) ∧
            (bWhole m.bind = true → m'.results = joinResults m.bind [] m.slots)))) ∧
    (PatchReady s u 0x04 f → f.m < 2 → clsS f.a = true → f.b ≠ 0 → loopOk s u (darnerOf s u.die u.tile u.darner) f = true →
      let n := (sRead m f.a f.imm).toNat % 65536
      ∃ t, exec (.loop u f) s = .next t ∧
        (mask = 0 ∨ n = 0 → PatchStep s t u (advance f.b (countInstr m))) ∧
        (mask ≠ 0 → n ≠ 0 → PatchStep s t u { countInstr m with
          pc := m.pc + 1, loops := { level := f.m, first := m.pc + 1, last := m.pc + f.b, left := n, idx := 0 } :: m.loops }))) ∧
  (∀ (m : Mach) (l : LoopSt) (ls : List LoopSt), m.loops = l :: ls →
    (m.pc ≠ l.last → advance 0 m = { m with pc := m.pc + 1 }) ∧
    (m.pc = l.last → 1 < l.left → advance 0 m = { m with pc := l.first, loops := { l with left := l.left - 1, idx := l.idx + 1 } :: ls }) ∧
    (m.pc = l.last → l.left ≤ 1 → (∀ x ∈ ls, x.last ≠ l.last) → advance 0 m = { m with pc := m.pc + 1, loops := ls }))

/-- O33. With a vector destination MOV copies, ABS takes magnitudes, NEG inverts signs (two's complement on the integer formats, the sign
bit on the others): each element whose mask bit is 1 takes its value, each other keeps its own, the scale tag is that of the source, no
other register changes; under an empty mask nothing but the PC and the count of instructions does. SETL puts the low bits of a scalar into
one element where its mask bit is 1. LANE gives a scalar the bits of one element. (R278, R279, R280.) -/
def Obligations.PatchVectorInstructions : Prop :=
  ∀ (s : State) (u : DrnRef) (f : PFields), let m := (darnerOf s u.die u.tile u.darner).mach
    let mask := guardMask m f
    let g := groupSize m.bind
    let c := vFmt m f.a
    let wa := fmtBits c
    let wd := fmtBits (bFmt m.bind)
    let int := (intFmt c).isSome = true
    g * wd ≤ 128 → f.m = 0 →
    (∀ e ∈ [(0x08, Instr.mov u f, fun x : Nat => x),
        (0x09, .abs u f, fun x => if int then (if x.testBit (wa - 1) then 2 ^ wa - x else x) % 2 ^ wa else x % 2 ^ (wa - 1)),
        (0x0A, .neg u f, fun x => if int then (2 ^ wa - x) % 2 ^ wa else x ^^^ 2 ^ (wa - 1))],
      PatchReady s u e.1 f → f.d < 8 → clsV f.a = true →
      ∃ t m', exec e.2.1 s = .next t ∧ PatchStep s t u m' ∧ m' = { advance 0 (countInstr m) with v := m'.v } ∧
        (∀ r, r ≠ f.d → look {} m'.v r = look {} m.v r) ∧ (mask = 0 → m'.v = m.v) ∧
        (mask ≠ 0 → (look {} m'.v f.d).tag = (vRead m f.a).tag ∧ ∀ i, i < g →
          vElem wd (look {} m'.v f.d) i =
            if mask.testBit i then e.2.2 (vElem wa (vRead m f.a) i) % 2 ^ wd else vElem wd (look {} m.v f.d) i)) ∧
    (PatchReady s u 0x0C f → f.d < 8 → clsS f.a = true → clsS f.b = true → isMX (bFmt m.bind) = false →
      ∃ t m', exec (.setl u f) s = .next t ∧ PatchStep s t u m' ∧ m' = { advance 0 (countInstr m) with v := m'.v } ∧
        (∀ r, r ≠ f.d → look {} m'.v r = look {} m.v r) ∧ (mask = 0 → m'.v = m.v) ∧
        (mask ≠ 0 → ∀ i, i < g → vElem wd (look {} m'.v f.d) i =
          if i = (sRead m f.b f.imm).toNat % g ∧ mask.testBit i then (sRead m f.a f.imm).toNat % 2 ^ wd
          else vElem wd (look {} m.v f.d) i)) ∧
    (PatchReady s u 0x0B f → clsSD f.d = true → clsV f.a = true → clsS f.b = true →
      ∃ t, exec (.lane u f) s = .next t ∧ PatchStep s t u (advance 0 (if mask = 0 then countInstr m else
        sWrite f.d (w32 (vElem wa (vRead m f.a) ((sRead m f.b f.imm).toNat % g))) (countInstr m))))

/-- O34. SALU writes the sum, difference, and, or, exclusive or, or the shift by B mod 32, MOV a scalar, PCNT the number of 1 bits of a
masked predicate, each only under a mask that is not empty. CMP, CLS, PSET, PONE and PLOG write a predicate: each bit under a 0 of the mask
becomes 0, each other is the comparison by value or by sort key of its element (of the scalars for two scalars), the class of its element
among those M names, the bit of IMM, the element A mod G, or the logical operation of two predicates. No other register changes. (R224,
R278, R279, R280.) -/
def Obligations.PatchScalarsAndPredicates : Prop :=
  ∀ (s : State) (u : DrnRef) (f : PFields), let m := (darnerOf s u.die u.tile u.darner).mach
    let mask := guardMask m f
    let g := groupSize m.bind
    let a := sRead m f.a f.imm
    let b := sRead m f.b f.imm
    let sets (i : Instr) (v : Word) := ∃ t, exec i s = .next t ∧
      PatchStep s t u (advance 0 (if mask = 0 then countInstr m else sWrite f.d v (countInstr m)))
    let bits16 (i : Instr) (p : Nat → Bool) := ∃ t m', exec i s = .next t ∧ PatchStep s t u m' ∧
      m' = { advance 0 (countInstr m) with p := m'.p } ∧ (∀ x, x % 8 ≠ f.d % 8 → pRead m' x = pRead m x) ∧
      ∀ x, x < 16 → (pRead m' f.d).testBit x = (mask.testBit x && p x)
    let opnd (c r i : Nat) := if clsV r then vElem (fmtBits (vFmt m r)) (vRead m r) i else (sRead m r f.imm).toNat % 2 ^ fmtBits c
    (PatchReady s u 0x0D f → clsSD f.d = true → clsS f.a = true → clsS f.b = true →
      (f.m = 0 → sets (.salu u f) (a + b)) ∧ (f.m = 1 → sets (.salu u f) (a - b)) ∧ (f.m = 2 → sets (.salu u f) (a &&& b)) ∧
      (f.m = 3 → sets (.salu u f) (a ||| b)) ∧ (f.m = 4 → sets (.salu u f) (a ^^^ b)) ∧
      (f.m = 5 → sets (.salu u f) (a <<< (b.toNat % 32))) ∧ (f.m = 6 → sets (.salu u f) (a >>> (b.toNat % 32))) ∧
      (f.m = 7 → sets (.salu u f) (a.sshiftRight (b.toNat % 32)))) ∧
    (PatchReady s u 0x08 f → f.m = 0 → clsSD f.d = true → clsS f.a = true → sets (.mov u f) a) ∧
    (PatchReady s u 0x15 f → f.m = 0 → clsSD f.d = true → sets (.pcnt u f) (w32 (popcount (pRead m f.a &&& mask)))) ∧
    (PatchReady s u 0x10 f → f.m < 6 ∨ (8 ≤ f.m ∧ f.m < 14) → f.d % 8 ≠ 0 → isMX (bFmt m.bind) = false →
      (clsS f.a = true → clsS f.b = true → bits16 (.cmp u f) fun _ => condHolds f.m (some (compare a.toInt b.toInt))) ∧
      (clsV f.a = true ∨ clsS f.a = true → clsV f.b = true ∨ clsS f.b = true → (clsS f.a && clsS f.b) = false →
        let c := if clsV f.a then vFmt m f.a else vFmt m f.b
        let ca := if clsV f.a then vFmt m f.a else c
        let cb := if clsV f.b then vFmt m f.b else c
        bits16 (.cmp u f) fun i => decide (i < g) && condHolds f.m (if 8 ≤ f.m then keyCmp ca cb (opnd c f.a i) (opnd c f.b i)
          else valueCmp ca cb (opnd c f.a i) (opnd c f.b i)))) ∧
    (PatchReady s u 0x11 f → f.m < 16 → f.d % 8 ≠ 0 → clsV f.a = true → isMX (bFmt m.bind) = false → let c := vFmt m f.a
      bits16 (.cls u f) fun i => decide (i < g) && f.m.testBit (elemClass c (vElem (fmtBits c) (vRead m f.a) i))) ∧
    (PatchReady s u 0x12 f → f.m = 0 → f.d % 8 ≠ 0 → bits16 (.pset u f) fun i => f.imm.toNat.testBit i) ∧
    (PatchReady s u 0x13 f → f.m = 0 → f.d % 8 ≠ 0 → clsS f.a = true → bits16 (.pone u f) fun i => decide (i = a.toNat % g)) ∧
    (PatchReady s u 0x14 f → f.d % 8 ≠ 0 → let x := pRead m f.a
      let y := pRead m f.b
      (f.m = 0 → bits16 (.plog u f) fun i => x.testBit i && y.testBit i) ∧
      (f.m = 1 → bits16 (.plog u f) fun i => x.testBit i || y.testBit i) ∧
      (f.m = 2 → bits16 (.plog u f) fun i => x.testBit i ^^ y.testBit i) ∧
      (f.m = 3 → bits16 (.plog u f) fun i => x.testBit i && !y.testBit i))

/-- O35. ACC adds to a sum slot the accumulator of every masked element, 384 bits wide, with the element's NaN and infinity marks joined;
CNT adds the number of mask bits at its place value; SEL takes each masked element by the slot's direction; AZERO empties the slot. No other
slot or register changes. EMIT appends the masked elements in ascending order, with their run index where M[0] is 1 and their key in a keyed
binding; KEMIT a key and the slot's value rounded under the binding's output format, whose flags join the run's. More than 512 buffered
bytes stop the task with the record overflow code. (R199, R203, R205, R223, R232, R282, R284.) -/
def Obligations.PatchSlotsAndRecords : Prop :=
  ∀ (s : State) (u : DrnRef) (f : PFields), let m := (darnerOf s u.die u.tile u.darner).mach
    let mask := guardMask m f
    let x := f.d - 0x20
    let c := vFmt m f.a
    let es := ((List.range (groupSize m.bind)).filter fun i => mask.testBit i).map fun i =>
      (enter 192 c (vElem (fmtBits c) (vRead m f.a) i) (vRead m f.a).tag.toNat : Acc)
    let slot (i : Instr) (q : Acc → Prop) := ∃ t m', exec i s = .next t ∧ PatchStep s t u m' ∧
      m' = { advance 0 (countInstr m) with slots := m'.slots } ∧ (∀ k, k ≠ x → slotOf m' k = slotOf m k) ∧ q (slotOf m' x)
    let recs (i : Instr) (r : List Byte) (xf : Byte) := ∃ t, exec i s = .next t ∧
      (mask = 0 → PatchStep s t u (advance 0 (countInstr m))) ∧
      (mask ≠ 0 → m.buffered.length + r.length ≤ 512 →
        PatchStep s t u (advance 0 { countInstr m with buffered := m.buffered ++ r, xflags := m.xflags ||| xf })) ∧
      (mask ≠ 0 → 512 < m.buffered.length + r.length → PatchStops s t u 0x44)
    (PatchReady s u 0x18 f → f.m = 0 → clsA f.d = true → clsV f.a = true → bSel m.bind x = false → slot (.acc u f) fun r =>
      r.a = (slotOf m x).a + (es.map (·.a)).sum ∧ r.nan = ((slotOf m x).nan || es.any (·.nan)) ∧
      r.pinf = ((slotOf m x).pinf || es.any (·.pinf)) ∧ r.ninf = ((slotOf m x).ninf || es.any (·.ninf))) ∧
    (PatchReady s u 0x19 f → f.m = 0 → clsA f.d = true → bSel m.bind x = false → slot (.cnt u f) fun r =>
      r.a = (slotOf m x).a + BitVec.ofNat 384 (popcount mask * 2 ^ 192)) ∧
    (PatchReady s u 0x1A f → f.m = 0 → clsA f.d = true → clsV f.a = true → bSel m.bind x = true → slot (.sel u f) fun r =>
      r = es.foldl (accSelect (!bMin m.bind x)) (slotOf m x)) ∧
    (PatchReady s u 0x1B f → f.m = 0 → clsA f.d = true → slot (.azero u f) fun r => r = if mask = 0 then slotOf m x else {}) ∧
    (PatchReady s u 0x20 f → f.m < 2 → clsV f.a = true → isMX (bFmt m.bind) = false →
      recs (.emit u f) (((List.range (groupSize m.bind)).filter fun i => mask.testBit i).flatMap fun i =>
        (if f.m = 1 then leBytes 4 (m.gidx + i) else []) ++ (if bKeyed m.bind then leBytes 4 (vElem 32 { bits := m.k } i) else []) ++
        leBytes (fmtBits (bFmt m.bind) / 8) (vElem (fmtBits (bFmt m.bind)) (vRead m f.a) i)) 0) ∧
    (PatchReady s u 0x21 f → f.m = 0 → clsS f.a = true → clsA f.b = true → let r := deliverSlot m.bind (slotOf m (f.b - 0x20))
      recs (.kemit u f) (leBytes 4 (sRead m f.a f.imm).toNat ++ r.1 ++ List.replicate ((4 - r.1.length % 4) % 4) 0) r.2)

/-- O36. Combining accumulators for a sum is commutative and associative, with the empty accumulator as identity, and maxima and minima of
canonical values are commutative and associative too, so an outcome does not depend on the order or grouping. An integer element enters at
its exact value. The encoding of a valid partial, windowed or long, on either path, decodes to the same accumulator. (R198, R199, R205,
R206, R207, R208, R223, R230.) -/
def Obligations.SumsAreOrderFreeAndTravelExactly : Prop :=
  (∀ (w : Nat) (x y z : AccW w), accAdd x y = accAdd y x ∧ accAdd (accAdd x y) z = accAdd x (accAdd y z)) ∧
  (∀ (w : Nat) (x : AccW w), x.zk ≤ 2 → accAdd {} x = x) ∧
  (∀ (w : Nat) (mx : Bool) (x y z : AccW w), (∀ a ∈ [x, y, z], a.zk ≤ 2 ∧ a.bad = false ∧ (a.nan = true → a = accNaN) ∧
      ((a.pinf || a.ninf) = true → a.a = 0 ∧ a.zk = 0 ∧ a.pinf ≠ a.ninf) ∧ (a.zk ≠ 0 → a = { zk := a.zk })) →
    accSelect mx x y = accSelect mx y x ∧ accSelect mx (accSelect mx x y) z = accSelect mx x (accSelect mx y z)) ∧
  (∀ x : BitVec 32, (enter 192 0x12 x.toNat : Acc).a.toInt = x.toInt * 2 ^ 192) ∧
  (∀ x : Acc, x.zk ≤ 2 → x.bad = false → (isSpecial x = true → x.a = 0) → decodeW (encodeW x).1 (encodeW x).2 = x) ∧
  (∀ x : DAcc, x.zk ≤ 2 → x.bad = false → (isSpecial x = true → x.a = 0) → decodeDW (encodeDW x).1 (encodeDW x).2 = x)

/-- O37. TASK_DISPATCH of a darner that cannot take a task changes nothing; else it takes the oldest task of its tile's queue that it may
run and that is lowest in its stream, of those it must run first where there are any, and no other darner changes. An entry with a parity
error raises TASK_PARITY and no darner takes it; a parity error of the store stops a patch task with its code. TASK_COMPLETE of a PATCH task
whose patch has not ended changes nothing; else an unordered task's records are written at DST after those before, within DST_LIMIT, and the
darner is idle; an ordered task's output is held by its darner. REORDER_RELEASE of the output of a run whose OSEQ is next moves the stream
on by one and by its length, and its darner is idle; with no such output it changes nothing. (R237, R240, R242, R249, R251, R265, R268,
R270, R286.) -/
def Obligations.TasksRunInOrder : Prop :=
  (∀ (s : State) (die n d : Nat) (data : List Byte),
    (∀ e, drnIdle s die n d = false ∨ pickTask s die n d = none → exec (.taskDispatch die n d data e) s = .next s) ∧
    (∀ x, drnIdle s die n d = true → pickTask s die n d = some x →
      (x ∈ (drnTile s die n).queue ∧ mayRun s die n d x = true ∧ lowestInStream (drnTile s die n).queue x = true ∧
        ∀ y ∈ (drnTile s die n).queue, mayRun s die n d y = true → lowestInStream (drnTile s die n).queue y = true →
          (mustRun s die n d y = true → mustRun s die n d x = true) ∧
          (mustRun s die n d y = mustRun s die n d x → x.born < y.born ∨ (x.born = y.born ∧ x.entry ≤ y.entry))) ∧
      (∃ t, exec (.taskDispatch die n d data .ok) s = .next t ∧ (darnerOf t die n d).task = some x ∧ (darnerOf t die n d).from_ = 0 ∧
        (darnerOf t die n d).since = s.tm.fclk ∧ ∀ n' d', n' ≠ n ∨ d' ≠ d → darnerOf t die n' d' = darnerOf s die n' d') ∧
      (∃ t, exec (.taskDispatch die n d data .entryParity) s = .next t ∧ Shows t die (drnPage s die n) 3 ∧
        ∀ n' d', darnerOf t die n' d' = darnerOf s die n' d') ∧
      (x.kind = .patch → ∃ t, exec (.taskDispatch die n d data .storeParity) s = .next t ∧ (darnerOf t die n d).task = some x ∧
        (darnerOf t die n d).mach.sect = .done ∧ (darnerOf t die n d).mach.fault = 0x45))) ∧
  (∀ (s : State) (die n d : Nat) (data : List Byte) (x : Task), let v := darnerOf s die n d
    let owner := ownerTile die n v
    v.task = some x → x.kind = .patch →
    (v.mach.sect ≠ .done ∨ v.holding = true ∨ isSafe s die = true → ∀ e, exec (.taskComplete die n d data e) s = .next s) ∧
    (v.mach.sect = .done → v.holding = false → isSafe s die = false →
      ∃ t, exec (.taskComplete die n d data .ok) s = .next t ∧
        countOf t die (drnPage s die n) 1 = countOf s die (drnPage s die n) 1 + 1 ∧
        (x.ordered = true → darnerOf t die n d = { v with holding := true, since := s.tm.fclk } ∧
          ∃ h : HeldOut, h.oseq = x.oseq ∧ h.darner = d ∧ h.thief = n ∧
            h.bytes = (if v.mach.fault = 0 ∧ v.poisoned = false then v.mach.records else []) ∧
            (look ({} : Stream16) (drnTile t die owner).streams x.stream).held =
              (look ({} : Stream16) (drnTile s die owner).streams x.stream).held ++ [h]) ∧
        (x.ordered = false → (darnerOf t die n d).task = none ∧ (darnerOf t die n d).holding = false ∧
          ∀ r, runOf s die owner x.run = some r → ∃ r', runOf t die owner x.run = some r' ∧ r'.finished = r.finished + 1 ∧
            (v.mach.fault = 0 → v.poisoned = false → r.stopped = false → r.outFull = false →
              let full := r.limit - resBytes r.bind < r.outBytes + v.mach.records.length
              (full → r'.outFull = true ∧ r'.outBytes = r.outBytes) ∧
              (¬ full → v.mach.records ≠ [] → r'.outBytes = r.outBytes + v.mach.records.length ∧
                t.out = (userStore (r.dst + w64 r.outBytes) v.mach.records s).out)) ∧
            (v.mach.fault ≠ 0 → r.stopped = false → r'.stopped = true ∧ r'.status = v.mach.fault)))) ∧
  (∀ (s : State) (die n st : Nat), let k := look ({} : Stream16) (drnTile s die n).streams st
    ((∀ h ∈ k.held, h.oseq ≠ k.next) → exec (.reorderRelease die n st) s = .next s) ∧
    (12 ≤ st → ∀ h, k.held.find? (fun h => decide (h.oseq = k.next)) = some h →
      ∃ t, exec (.reorderRelease die n st) s = .next t ∧ (h.darner < 8 → (darnerOf t die h.thief h.darner).task = none) ∧
        let k' := look ({} : Stream16) (drnTile t die n).streams st
        k'.next = k.next + 1 ∧ k'.offset = k.offset + h.bytes.length ∧ k'.held = k.held.filter fun x => decide (x.oseq ≠ h.oseq)))

/-- O38. STEAL_REQUEST of an idle darner with STEAL_EN, no task of its own and none asked for notes the oldest task its first direction in
rotation permits; in any other case it changes nothing. STEAL_GRANT before the eighth cycle, or with nothing asked, changes nothing; then,
if the task still waits, what the request rested on still holds and neither the victim nor an earlier direction takes it, the thief runs it,
its cost joins END and ADMITTED, both tiles count it; an error of the path also raises STEAL_LINK on both tiles, ends STEAL_DIR between them
and poisons the task; if not, only the request ends. PATCH_RUN_COMPLETE of a run with chunks left has no effect; else the run leaves the
tile and its completion record goes to the completion queue. (R250, R258, R259, R260, R261, R262, R269, R297.) -/
def Obligations.StealsAndRunEnds : Prop :=
  (∀ (s : State) (die n d dir : Nat), let ok := drnIdle s die n d = true ∧ (reg s die (drnPage s die n) 0x100).toNat.testBit 0 = true ∧
      (darnerOf s die n d).asks = none ∧ pickTask s die n d = none ∧ stealFirst s die n d = some dir
    (¬ ok → exec (.stealRequest die n d dir) s = .next s) ∧
    (ok → ∃ t v x, exec (.stealRequest die n d dir) s = .next t ∧ ChangesOnly [.dr] s t ∧ meshNeighbour die n dir = some v ∧
      x ∈ (drnTile s die v).queue ∧ maySteal s die n d v dir x = true ∧
      darnerOf t die n d = { darnerOf s die n d with asks := some (dir, x, s.tm.fclk) } ∧
      ∀ n' d', n' ≠ n ∨ d' ≠ d → darnerOf t die n' d' = darnerOf s die n' d')) ∧
  (∀ (s : State) (die n d : Nat) (data : List Byte) (err : Bool),
    ((darnerOf s die n d).asks = none → exec (.stealGrant die n d data err) s = .next s) ∧
    (∀ dir x c, (darnerOf s die n d).asks = some (dir, x, c) →
      (s.tm.fclk < c + 8 → exec (.stealGrant die n d data err) s = .next s) ∧
      (c + 8 ≤ s.tm.fclk → ∀ v, meshNeighbour die n dir = some v →
        let ok := x ∈ (drnTile s die v).queue ∧ drnIdle s die n d = true ∧ pickTask s die n d = none ∧
          (reg s die (drnPage s die n) 0x100).toNat.testBit 0 = true ∧ maySteal s die n d v dir x = true ∧
          stealBeaten s die v dir x c = false ∧ ownTakes s die v x = false ∧ tileQuiesced s die v = false
        ∃ t, exec (.stealGrant die n d data err) s = .next t ∧
          (¬ ok → ChangesOnly [.dr] s t ∧ darnerOf t die n d = { darnerOf s die n d with asks := none } ∧
            (drnTile t die v).queue = (drnTile s die v).queue) ∧
          (ok → let y := darnerOf t die n d
            y.task = some x ∧ y.from_ = dir + 1 ∧ y.rot = dir ∧ y.asks = none ∧ y.poisoned = err ∧
            y.endAt = (darnerOf s die n d).endAt + x.cost ∧ y.admitted = (darnerOf s die n d).admitted + x.cost ∧
            countOf t die (drnPage s die n) 2 = countOf s die (drnPage s die n) 2 + 1 ∧
            countOf t die (drnPage s die v) 3 = countOf s die (drnPage s die v) 3 + 1 ∧
            (err = true → dir < 4 → Shows t die (drnPage s die n) 2 ∧ Shows t die (drnPage s die v) 2 ∧ stealDir t die n dir = false ∧
              stealDir t die v (oppDir dir) = false))))) ∧
  (∀ (s : State) (die n id : Nat),
    ((∀ r, runOf s die n id = some r → r.bind = [] ∨ r.finished < r.nChunks) →
      exec (.patchRunComplete die n id) s = .next (settleTile die n s)) ∧
    (∀ r, runOf s die n id = some r → r.bind ≠ [] → r.nChunks ≤ r.finished →
      Settles (.patchRunComplete die n id) s die n fun t => runOf t die n id = none ∧
        ∀ q, cqOf s die n r.ctx = some q → (queueOf s die n q).resv ≠ 0 → ∃ e xf,
          (queueOf t die n q).visible = (queueOf s die n q).visible ++ [e] ∧ (queueOf t die n q).resv = (queueOf s die n q).resv - 1 ∧
          e.data = record16 r.tag.toNat 2 xf (if r.stopped then r.status else if r.outFull then 0x3B else 0) r.outBytes
            (r.press % 2 ^ 32)))

/-- O39. PS_DATA_LO_WRITE on a DRN page completes: the instruction formed with the high half goes to the shadow bank at PS_ADDR, which moves
on; every other instruction stays. PS_LOAD_CMD with GO, no load running, a COUNT of 1 or more and FIRST + COUNT up to 512 starts a load
whose reads leave by the tile's L0 as BULK requests of the context, and together cover COUNT where none is refused; a refused one sets
LOAD_ERR. While late work runs on the shadow bank both are ignored and set BAD_WRITE, as is a load command out of range or during a load.
PS_LOAD_COMPLETE ends a load whose reads have all been answered and changes nothing else. (R37, R43, R46, R289, R291.) -/
def Obligations.PatchStoreLoads : Prop :=
  (∀ (s : State) (m : Master) (die page n : Nat) (v : Word) (i : PageInfo) (row : RegRow),
    Writes s m die page 0x194 v i row → i.kind = .drn → pageTile s die page = some n →
    let a := rfld s die page 0x190 9 0
    let hi := (look? s.rg.held (latchKey m die page 0x198)).getD (reg s die page 0x198)
    ∃ t, exec (.psDataLoWrite m die page v) s = .next t ∧ ChangesOnly [.rg, .dr, .out] s t ∧
      (shadowBusy s die n = true → (pageOf t die page).bad = true ∧ t.dr = s.dr) ∧
      (shadowBusy s die n = false → rfld t die page 0x190 9 0 = (a + 1) % 1024 ∧
        (a < 0x200 → bankWord t die n (1 - activeBank s die n) a = pair64 v hi) ∧
        ∀ n' b j, bankKey die n' b j ≠ bankKey die n (1 - activeBank s die n) a ∨ 0x200 ≤ a →
          bankWord t die n' b j = bankWord s die n' b j)) ∧
  (∀ (s : State) (m : Master) (die page n : Nat) (v : Word) (i : PageInfo) (row : RegRow),
    Writes s m die page 0x1A8 v i row → i.kind = .drn → pageTile s die page = some n →
    let ctx := wbits v 30 20
    let count := wbits v 19 10
    let first := wbits v 9 0
    let ok := shadowBusy s die n = false ∧ (drnTile s die n).load = none ∧ first + count ≤ 512 ∧ count ≠ 0
    ∃ t, exec (.psLoadCmd m die page v) s = .next t ∧ ChangesOnly [.rg, .nt, .dr, .out] s t ∧
      (v.toNat.testBit 31 = false → t = emit (.regDone m 0 0) s) ∧
      (v.toNat.testBit 31 = true → ¬ ok → (pageOf t die page).bad = true ∧ t.dr = s.dr ∧ t.nt = s.nt) ∧
      (v.toNat.testBit 31 = true → ok → ∃ l : PsLoad, (drnTile t die n).load = some l ∧ l.ctx = ctx ∧ l.first = first ∧ l.count = count ∧
        let bad (e : Nat × Nat × Nat) := spanStatus s die n ctx (w64 e.1) (8 * e.2.2) ≠ 0
        let pieces := psPieces 10 ((reg64 s die page 0x1A0).toNat / 8 * 8) first count
        ((∀ e ∈ pieces, ¬ bad e) → (l.reads.map fun r => r.2.2).sum = count) ∧
        ((∃ e ∈ pieces, bad e) → (reg t die page 0x180).toNat.testBit 6 = true) ∧
        (injQ t (ikey die (physTile s die n) 10 0)).length = (injQ s (ikey die (physTile s die n) 10 0)).length + l.reads.length)) ∧
  (∀ (s : State) (die n : Nat) (l : PsLoad), (drnTile s die n).load = some l →
    ∃ t, exec (.psLoadComplete die n) s = .next t ∧ (l.reads ≠ [] → t = s) ∧
      (l.reads = [] → ChangesOnly [.dr] s t ∧ (drnTile t die n) = { drnTile s die n with load := none } ∧ t.dr.banks = s.dr.banks))

/-- O40. Each of the eighteen CIP commands completes. Without a CIP, asleep, without FCLK, on a die held in reset, with a command of the
stream outstanding or a stream above 127 it changes nothing; in the safe state it is answered FABRIC_SAFE, under a reset NACK_RETRY, on an
isolated die PART_RESET; in an activation pause its stream waits; for a context that is not active it is answered with CTX_INACTIVE. Each of
the eight request packets of the CIP at a fenced tile is answered with STATUS NACK_RETRY; each response packet there is discarded and
counted. After the effect the tile settles, which changes nothing where nothing waits. Commands that meet no gate: later statements. That a
disabled command has no effect is the model's choice (log 6). (R354, R472, R482, R544, R553, R555, R556, R560, R582.) -/
def Obligations.CommandsAndPacketsAtAFencedTile : Prop :=
  (∀ (s : State) (h : CipHdr) (a y : DWord) (k q e b g x : Nat) (v : Word) (w : Bool) (d : List Byte),
    ∀ i ∈ [Instr.send h a k d, .add h a e v, .recv h q w, .ringWait h q, .ringFree h q y, .bskArm h b e g x, .pegArmCmd h a v w,
        .pegAddCmd h a v, .pegWaitCmd h a v, .pegReadCmd h a, .dbWait h q v, .deferRead h, .copy h d, .multicast h d, .ringSend h d,
        .logPut h d, .patchRunPost h d, .seamOpenPost h d],
      let taken := cipReady s h.die h.tile = true ∧ streamBusy s h.die h.tile h.stream = false ∧ h.stream < 128
      (¬ taken → Settles i s h.die h.tile fun u => u = s) ∧
      (taken → (isSafe s h.die = true → Told i s h 0x89 []) ∧
        (isSafe s h.die = false → (tileQuiesced s h.die h.tile = true → Told i s h 0x20 []) ∧
          (tileQuiesced s h.die h.tile = false → (isIsolated s h.die = true → Told i s h 0x88 []) ∧
            (isIsolated s h.die = false → (s.fw.carried = true → Settles i s h.die h.tile fun u =>
                WaitsOn u h (.pause i) ∧ ChangesOnly [.ci] s u ∧
                  ∀ st, st ≠ h.stream → look? (cipOf u h.die h.tile).streams st = look? (cipOf s h.die h.tile).streams st) ∧
              (s.fw.carried = false → activeOn s h.die h.tile h.ctx = false → Told i s h 0x5B [])))))) ∧
  (∀ (s : State) (die n : Nat) (p : Packet),
    (fenced s die n = true → ∀ i ∈ [Instr.msg die n p, .creditReq die n p, .creditReturn die n p, .ringReserve die n p, .ringCommit die n p,
        .bskAdd die n p, .dbInc die n p, .stallNote die n p],
      Settles i s die n fun u => Refused s u die n 10 p 0x20 ∧ ChangesOnly [.nt] s u) ∧
    (fenced s die n = true → ∀ i ∈ [Instr.creditGrant die n p, .ringGrant die n p, .bskDone die n p, .pegDone die n p,
        .seamAdmit die n p, .seamDone die n p],
      ∃ t, exec i s = .next t ∧ ChangesOnly [.rg, .nt] s t ∧ countOf t die (cipPage s die n) 6 = countOf s die (cipPage s die n) 6 + 1)) ∧
  (∀ (s : State) (die n : Nat), (cipOf s die n).streams = [] → (∀ e ∈ (cipOf s die n).queues, e.2.waiters = []) →
    (∀ e ∈ (cipOf s die n).rings, e.2.waiting = []) → settleTile die n s = s)

/-- O41. SEND past its gate: a length outside 1 to 56 is answered BAD_DESC, an address by its status, one that is no message address
ADDR_UNMAPPED. With a credit the message leaves with the next number of its stream and context, the entry loses the credit, a CREDIT_REQ
follows below half the last grant; without one it waits and asks; with no entry it takes a free one, else the least recently used, whose
credits go back, else it waits for an entry. MSG uses its credit and arrives; CREDIT_REQ is granted from the free pool, waits, or is refused
by its first cause; CREDIT_GRANT and CREDIT_RETURN move credits; CREDIT_IDLE_RETURN frees an unused entry; CREDIT_STALL raises the fault
once, sends the note and aborts under ABORT; STALL_NOTE records it. How MSG carries its byte count is the model's choice (log 40); where it
has none the count is a free value its length allows. (R357, R360, R362, R363, R364, R365, R366, R368, R371, R372, R373.) -/
def Obligations.MessagesAndCredits : Prop :=
  (∀ (s : State) (h : CipHdr) (a : DWord) (k : Nat) (d : List Byte), cipGate s h = .go →
    let c := cipOf s h.die h.tile
    let bad := addrStatus s h.die h.tile h.ctx a
    let ask := ctrlReq s h.die h.tile h.ctx 0x11 (queueAddr a) c.reqSeq 0x80 (creditAsk s h.die h.tile)
    let w := Wait.credit a k d
    (k = 0 ∨ 56 < k → Told (.send h a k d) s h 0x5C []) ∧
    (0 < k → k ≤ 56 → bad ≠ 0 → Told (.send h a k d) s h bad []) ∧
    (0 < k → k ≤ 56 → bad = 0 → isMsgIdx a = false → Told (.send h a k d) s h 0x10 []) ∧
    (0 < k → k ≤ 56 → bad = 0 → isMsgIdx a = true →
      (∀ i e, findCache s h.die h.tile h.ctx a = some (i, e) → look? c.cache i = some e →
        let again := decide (2 * (e.credits - 1) < e.lastGrant) && decide (e.req = none) && !e.later
        (0 < e.credits → Settles (.send h a k d) s h.die h.tile fun u =>
          u.out = s.out ++ [.cipRsp h.die h.tile h.stream 0 []] ∧ look? (cipOf u h.die h.tile).streams h.stream = none ∧
          SentAll s u h.die h.tile 10 .ctrl (msgPacket s h.die h.tile h.stream h.ctx a k d :: if again then [ask] else []) ∧
          look 0 (cipOf u h.die h.tile).sseq (sseqKey h.stream h.ctx) = look 0 c.sseq (sseqKey h.stream h.ctx) + 1 ∧
          ∃ e', look? (cipOf u h.die h.tile).cache i = some e' ∧ e'.credits = e.credits - 1 ∧ e'.used = waitPress s h.die ∧
            e'.req = if again then some c.reqSeq else e.req) ∧
        (e.credits = 0 → Settles (.send h a k d) s h.die h.tile fun u => WaitsOn u h w ∧ u.out = s.out ∧
          SentAll s u h.die h.tile 10 .ctrl (if e.req = none ∧ e.later = false then [ask] else []))) ∧
      (findCache s h.die h.tile h.ctx a = none →
        (∀ i, freeSlotOf c = some i → Settles (.send h a k d) s h.die h.tile fun u => WaitsOn u h w ∧ u.out = s.out ∧
          SentAll s u h.die h.tile 10 .ctrl [ask] ∧ ∃ e', look? (cipOf u h.die h.tile).cache i = some e' ∧ e'.dest = queueAddr a ∧
            e'.ctx = h.ctx ∧ e'.credits = 0 ∧ e'.req = some c.reqSeq) ∧
        (freeSlotOf c = none → (∀ i e, lruEntry c = some i → look? c.cache i = some e →
          Settles (.send h a k d) s h.die h.tile fun u => WaitsOn u h w ∧
            SentAll s u h.die h.tile 10 .ctrl ((if e.credits = 0 then [] else
              [ctrlReq s h.die h.tile e.ctx 0x12 e.dest c.reqSeq 0 e.credits]) ++
              [{ ask with sseq := if e.credits = 0 then c.reqSeq else c.reqSeq + 1 }]) ∧
            ∃ e', look? (cipOf u h.die h.tile).cache i = some e' ∧ e'.dest = queueAddr a ∧ e'.ctx = h.ctx ∧ e'.credits = 0) ∧
          (lruEntry c = none → Settles (.send h a k d) s h.die h.tile fun u => WaitsOn u h (.cacheEntry a k d) ∧ u.out = s.out ∧
            ChangesOnly [.rg, .ci] s u))))) ∧
  (∀ (s : State) (die n : Nat) (p : Packet), fenced s die n = false → let q := msgQueue p.dest
    let x := queueOf s die n q
    let size := msgBytes s p
    let g := qcfg s die n q
    let room := plainVisible x + x.held.length < g.size - b2n g.cq
    let e : QEntry := { word := msgWord p size, data := (leBytes 8 p.operand.toNat ++ p.payload).take size, stamp := stampPress s die }
    (running s die = false → Settles (.msg die n p) s die n fun u => ChangesOnly [.rg, .nt, .fresh] s u ∧
      (p.nbytes ≠ 0 → u.fresh = s.fresh) ∧
      countOf u die (cipPage s die n) 6 = countOf s die (cipPage s die n) 6 + 1) ∧
    (running s die = true → Settles (.msg die n p) s die n fun u => ChangesOnly [.rg, .nt, .ci, .out, .fresh] s u ∧
      (p.nbytes ≠ 0 → u.fresh = s.fresh) ∧ (qServes s die n q p.ctx = true → (queueOf u die n q).outst = x.outst - 1) ∧
      (qServes s die n q p.ctx = true ∧ activeOn s die n p.ctx = true ∧ room →
        (queueOf u die n q).visible = x.visible ++ (if g.ordered ∧ g.cq = false then [] else [e]) ∧
        (queueOf u die n q).held = x.held ++ (if g.ordered ∧ g.cq = false then [e] else []) ∧
        u.out = if g.ordered ∧ g.cq = false then s.out else (storeBy die (entryAddr s die n q x.tail) (entryBytes e) s).out) ∧
      (¬ (qServes s die n q p.ctx = true ∧ activeOn s die n p.ctx = true ∧ room) →
        (queueOf u die n q).visible = x.visible ∧ (queueOf u die n q).held = x.held ∧ u.out = s.out)) ∧
    let no (c : Nat) := Settles (.creditReq die n p) s die n fun u => Refused s u die n 10 p c ∧ ChangesOnly [.nt] s u
    let fits := x.waiters = [] ∧ 0 < freePool s die n q
    let grant := min (bits p.operand.toNat 15 0) (min g.max (freePool s die n q))
    (running s die = false → no 0x1F) ∧ (running s die = true → isMsgIdx p.dest = false → no 0x10) ∧
    (running s die = true → isMsgIdx p.dest = true → qServes s die n q p.ctx = false → no 0x5D) ∧
    (running s die = true → isMsgIdx p.dest = true → qServes s die n q p.ctx = true →
      (fits → Settles (.creditReq die n p) s die n fun u => Answered s u die n 10 p 0x91 (w64 grant) [] ∧
        (queueOf u die n q).outst = x.outst + grant) ∧
      (¬ fits → 1024 ≤ waitersHeld s die n → no 0x5E) ∧
      (¬ fits → waitersHeld s die n < 1024 → Settles (.creditReq die n p) s die n fun u => u.nt.inject = s.nt.inject ∧
        (queueOf u die n q).waiters = x.waiters ++ [.credit p])) ∧
    (Settles (.creditReturn die n p) s die n fun u => (queueOf u die n q).outst =
      if qServes s die n q p.ctx then x.outst - bits p.operand.toNat 15 0 else x.outst) ∧
    Settles (.stallNote die n p) s die n fun u => ChangesOnly [.rg, .nt, .ci, .out] s u ∧
      (isMsgIdx p.dest = true → (queueOf u die n q).stallFrom = hi32 p.operand) ∧
      (∀ r, cqOf s die n p.ctx = some r → (∀ e ∈ (queueOf s die n r).visible, e.stall = false) →
        ∃ e : QEntry, (queueOf u die n r).visible = (queueOf s die n r).visible ++ [e] ∧ e.stall = true)) ∧
  (∀ (s : State) (die n i : Nat) (e : CacheEntry) (p : Packet), look? (cipOf s die n).cache i = some e →
    let idle := e.used + 5 ≤ waitPress s die ∧ hasSender (cipOf s die n) e = false
    (fenced s die n = false → poisonStatus p = 0 → entryOfReq s die n p.sseq = some i →
      Settles (.creditGrant die n p) s die n fun u => ChangesOnly [.nt, .ci] s u ∧ look? (cipOf u die n).cache i =
        some { e with req := none, credits := e.credits + bits p.operand.toNat 15 0, lastGrant := bits p.operand.toNat 15 0 }) ∧
    (¬ idle → Settles (.creditIdleReturn die n i) s die n fun u => u = s) ∧
    (idle → Settles (.creditIdleReturn die n i) s die n fun u => look? (cipOf u die n).cache i = none ∧
      SentAll s u die n 10 .ctrl (if e.credits = 0 then [] else [ctrlReq s die n e.ctx 0x12 e.dest (cipOf s die n).reqSeq 0 e.credits]))) ∧
  (∀ (s : State) (die n st : Nat) (x : Stream), look? (cipOf s die n).streams st = some x →
    let due := isCreditWait x.wait = true ∧ x.stalled = false ∧ x.since + stallLimit s die n + 1 ≤ waitPress s die
    let dest := stallDest s die n x.ctx x.wait
    let abort := abortOnStall s die n
    (due → Settles (.creditStall die n st) s die n fun u => Shows u die (cipPage s die n) 0 ∧
      countOf u die (cipPage s die n) 4 = countOf s die (cipPage s die n) 4 + 1 ∧
      (∃ m, SentAll s u die n 10 .ctrl [m] ∧ m.opcode = 0x18 ∧ m.dest = dest.1 ∧ m.ctx = x.ctx ∧ m.flags = BitVec.ofNat 8 (b2n abort)) ∧
      (abort = true → look? (cipOf u die n).streams st = none ∧ .cipRsp die n st 0x59 [] ∈ u.out) ∧
      (abort = false → look? (cipOf u die n).streams st = some { x with stalled := true }))) ∧
  (∀ (s : State) (die n st : Nat), (∀ x, look? (cipOf s die n).streams st = some x →
      isCreditWait x.wait = false ∨ x.stalled = true ∨ waitPress s die < x.since + stallLimit s die n + 1) →
    let due (d : Desc) := decide (d.stream = st) && decide (d.phase = .reserving) && !d.stalled &&
      decide (d.since + stallLimit s die n + 1 ≤ waitPress s die)
    ((∀ d ∈ (cipOf s die n).descs, due d = false) → Settles (.creditStall die n st) s die n fun u => u = s) ∧
    ((∃ d ∈ (cipOf s die n).descs, due d = true) → Settles (.creditStall die n st) s die n fun u => Shows u die (cipPage s die n) 0))

/-- O42. RECV past its gate of a queue not its context's is answered QUEUE_BAD; else the oldest visible entry is returned and leaves; with
none it is answered QUEUE_EMPTY or the stream waits. BSK_ARM is refused by its first cause; with an entry of the queue free it arms the
basket entry, else it waits. ADD is answered with the status of its address, or its BSK_ADD leaves and the stream waits. BSK_ADD of a
context not active is discarded and counted, of a basket or entry not armed for it refused; else it is acknowledged and combined, and where
the count reaches EXPECT the entry is disarmed and its result goes to the queue. BSK_DONE completes the ADD that waits. (R355, R359, R361,
R385, R386, R387, R403.) -/
def Obligations.ReceivesAndBaskets : Prop :=
  (∀ (s : State) (h : CipHdr) (q : Nat) (nowait : Bool), cipGate s h = .go → let c := cipOf s h.die h.tile
    (qServes s h.die h.tile q h.ctx = false → Told (.recv h q nowait) s h 0x5D []) ∧
    (qServes s h.die h.tile q h.ctx = true →
      (∀ e es, (queueOf s h.die h.tile q).visible = e :: es → Settles (.recv h q nowait) s h.die h.tile fun u =>
        ChangesOnly [.ci, .out] s u ∧ u.out = s.out ++ [.cipRsp h.die h.tile h.stream 0 (entryBytes e)] ∧
        queueOf u h.die h.tile q = { queueOf s h.die h.tile q with visible := es }) ∧
      ((queueOf s h.die h.tile q).visible = [] → nowait = true → Told (.recv h q nowait) s h 0x64 []) ∧
      ((queueOf s h.die h.tile q).visible = [] → nowait = false → Settles (.recv h q nowait) s h.die h.tile fun u =>
        WaitsOn u h (.recv q) ∧ ChangesOnly [.ci] s u ∧ (cipOf u h.die h.tile).queues = c.queues))) ∧
  (∀ (s : State) (h : CipHdr) (b e tag expect : Nat), cipGate s h = .go → let w := bskCfg s h.die h.tile b
    let q := bskQueue w
    let k := bkOf s h.die h.tile b e
    let i := Instr.bskArm h b e tag expect
    let bound := bskBound s h.die h.tile b = true ∧ bskCtx w = h.ctx
    let room := (queueOf s h.die h.tile q).waiters = [] ∧ 1 ≤ freePool s h.die h.tile q
    (expect = 0 → Told i s h 0x5C []) ∧ (expect ≠ 0 → ¬ bound → Told i s h 0x5F []) ∧
    (expect ≠ 0 → bound → qServes s h.die h.tile q h.ctx = false → Told i s h 0x5D []) ∧
    (expect ≠ 0 → bound → qServes s h.die h.tile q h.ctx = true →
      ((bkOf s h.die h.tile b e).armed = true → Told i s h 0x60 []) ∧
      ((bkOf s h.die h.tile b e).armed = false → room → Settles i s h.die h.tile fun u =>
        u.out = s.out ++ [.cipRsp h.die h.tile h.stream 0 []] ∧
        bkOf u h.die h.tile b e = { k with armed := true, tag := tag, expect := expect, count := 0, acc := {}, armSeq := k.armSeq + 1 } ∧
        (queueOf u h.die h.tile q).resv = (queueOf s h.die h.tile q).resv + 1) ∧
      ((bkOf s h.die h.tile b e).armed = false → ¬ room → Settles i s h.die h.tile fun u => WaitsOn u h (.arm b e tag expect) ∧
        u.out = s.out ∧ u.bk = s.bk ∧
        (queueOf u h.die h.tile q).waiters = (queueOf s h.die h.tile q).waiters ++ [.localResv h.stream 1]))) ∧
  (∀ (s : State) (h : CipHdr) (a : DWord) (e : Nat) (v : Word), cipGate s h = .go → let c := cipOf s h.die h.tile
    let bad := addrStatus s h.die h.tile h.ctx a
    (bad ≠ 0 → Told (.add h a e v) s h bad []) ∧ (bad = 0 → aRegion a ≠ 1 ∨ aPort a ≠ 1 → Told (.add h a e v) s h 0x10 []) ∧
    (bad = 0 → aRegion a = 1 → aPort a = 1 → Settles (.add h a e v) s h.die h.tile fun u => WaitsOn u h (.add c.reqSeq) ∧
      ChangesOnly [.nt, .ci] s u ∧ (cipOf u h.die h.tile).reqSeq = c.reqSeq + 1 ∧
      SentAll s u h.die h.tile 10 .ctrl [ctrlReq s h.die h.tile h.ctx 0x15 a c.reqSeq (0x80 + h.stream) (v.toNat + e % 32 * 2 ^ 32)])) ∧
  (∀ (s : State) (die n : Nat) (p : Packet), fenced s die n = false → let b := aIdx p.dest % 64
    let e := bits p.operand.toNat 36 32
    let x := bskXctl s die n b
    let w := bskCfg s die n b
    let k := bkOf s die n b e
    let q := bskQueue w
    let ready := bskBound s die n b = true ∧ bskCtx w = p.ctx ∧ k.armed = true
    let acc := accComb (bskComb w) k.acc (enter 192 (xInFmt x) (bits p.operand.toNat 31 0 % 2 ^ fmtBits (xInFmt x)))
    (activeOn s die n p.ctx = false → Settles (.bskAdd die n p) s die n fun u => ChangesOnly [.rg, .nt] s u ∧
      countOf u die (cipPage s die n) 6 = countOf s die (cipPage s die n) 6 + 1) ∧
    (activeOn s die n p.ctx = true → ¬ ready → Settles (.bskAdd die n p) s die n fun u => ChangesOnly [.rg, .nt] s u ∧
      Refused s u die n 10 p 0x5F ∧ countOf u die (bskPage s die n) 2 = countOf s die (bskPage s die n) 2 + 1) ∧
    (activeOn s die n p.ctx = true → ready → Settles (.bskAdd die n p) s die n fun u => Answered s u die n 10 p 0x95 0 [] ∧
      (k.count + 1 < k.expect → bkOf u die n b e = { k with count := k.count + 1, acc := acc } ∧ u.ci = s.ci ∧ u.ty = s.ty ∧
        u.out = s.out) ∧
      (k.expect ≤ k.count + 1 → bkOf u die n b e = { k with armed := false, count := 0, acc := {} } ∧
        (queueOf u die n q).resv = (queueOf s die n q).resv - 1 ∧ (chainBsk s p.ctx = false → u.ty = s.ty) ∧
        let y := queueOf s die n q
        let g := qcfg s die n q
        let rp := deliver 192 acc (xOutFmt x) (xRmode x) (xSatOvf x) 0
        (qServes s die n q p.ctx = true → g.ordered = false → plainVisible y + y.held.length < g.size - b2n g.cq →
          ∃ z : QEntry, (queueOf u die n q).visible = y.visible ++ [z] ∧ z.data = padTo 4 rp.1 ++ leBytes 1 rp.2.toNat ++ [0, 0, 0] ∧
            z.word = metaWord s die n 0x7F (32 * b + e) 2 8 k.tag)))) ∧
  (∀ (s : State) (die n st : Nat) (x : Stream) (p : Packet), fenced s die n = false → poisonStatus p = 0 →
    (cipOf s die n).streams.find? (fun y => decide (y.2.wait = .add p.sseq)) = some (st, x) →
    Settles (.bskDone die n p) s die n fun u => u.out = s.out ++ [.cipRsp die n st 0 []] ∧ look? (cipOf u die n).streams st = none ∧
      ChangesOnly [.nt, .ci, .out] s u)

/-- O43. RING_WAIT, RING_FREE and DB_WAIT of an object not the context's are answered QUEUE_BAD. RING_WAIT and DB_WAIT answer at once where
the tail is past the head or the value is reached, and wait otherwise; RING_FREE takes a head that is the present one or the end of a
visible record, else RING_HEAD_BAD. RING_RESERVE is refused by its first cause; with none waiting it is granted where it fits, after a PAD
to the ring's end where it may not wrap, and else waits. RING_COMMIT of the oldest record makes it visible. RING_GRANT at the sender writes
the record's header. DB_INC adds one. DEFER_READ returns the four deferral counters. The layout of the grant word is the model's (log 41).
(R191, R362, R374, R375, R376, R377, R381, R583, R584.) -/
def Obligations.RingsAndDoorbells : Prop :=
  (∀ (s : State) (h : CipHdr) (r : Nat) (head : DWord), cipGate s h = .go → let x := ringOf s h.die h.tile r
    let ok := ringServes s h.die h.tile r h.ctx
    let good := head.toNat = x.head ∨ (x.head < head.toNat ∧ head.toNat ∈ x.marks)
    (ok = false → Told (.ringWait h r) s h 0x5D [] ∧ Told (.ringFree h r head) s h 0x5D []) ∧
    (ok = true → x.head < x.visible → Told (.ringWait h r) s h 0 (leBytes 8 x.visible)) ∧
    (ok = true → x.visible ≤ x.head → Settles (.ringWait h r) s h.die h.tile fun u => WaitsOn u h (.ring r) ∧ ChangesOnly [.ci] s u ∧
      ringOf u h.die h.tile r = x) ∧
    (ok = true → ¬ good → Told (.ringFree h r head) s h 0x65 []) ∧
    (ok = true → good → Settles (.ringFree h r head) s h.die h.tile fun u => (ringOf u h.die h.tile r).head = head.toNat ∧
      u.out.getLast? = some (.cipRsp h.die h.tile h.stream 0 []) ∧ (x.waiting = [] → u.nt = s.nt ∧
        ringOf u h.die h.tile r = { x with head := head.toNat, marks := x.marks.filter fun m => m > head.toNat }))) ∧
  (∀ (s : State) (die n : Nat) (p : Packet), fenced s die n = false → let r := aIdx p.dest % 256
    let x := ringOf s die n r
    let c := rcfg s die n r
    let need := bits p.operand.toNat 31 0
    let i := Instr.ringReserve die n p
    let no (k : Nat) := Settles i s die n fun u => Refused s u die n 10 p k ∧ ChangesOnly [.nt] s u
    let waits (u : State) := (ringOf u die n r).waiting = [p] ∧ u.nt.inject = s.nt.inject
    (isRingIdx p.dest = false → no 0x10) ∧
    (isRingIdx p.dest = true → ringServes s die n r p.ctx = false → no 0x5D) ∧
    (isRingIdx p.dest = true → ringServes s die n r p.ctx = true → c.size < need → no 0x5A) ∧
    (isRingIdx p.dest = true → ringServes s die n r p.ctx = true → need ≤ c.size → x.waiting = [] →
      let free := c.size - (x.tail - x.head)
      let toEnd := c.size - x.tail % c.size
      let pad := c.split = false ∧ toEnd < need
      let out := (storeBy die (cmAddr (pkgNo s) die n (c.base + x.tail % c.size)) (leBytes 4 (toEnd - 16) ++ [1] ++ List.replicate 11 0) s).out
      (¬ pad → need ≤ free → Settles i s die n fun u => Answered s u die n 10 p 0x93 (ringGrantWord c (x.tail % c.size)) [] ∧ u.out = s.out ∧
        ringOf u die n r = { x with tail := x.tail + need, recs := x.recs ++ [⟨x.tail, need, false⟩] }) ∧
      (¬ pad → free < need → Settles i s die n fun u => waits u ∧ u.out = s.out ∧ (ringOf u die n r).tail = x.tail) ∧
      (pad → free < toEnd → Settles i s die n fun u => waits u ∧ u.out = s.out ∧ (ringOf u die n r).tail = x.tail) ∧
      (pad → toEnd ≤ free → let left := c.size - (x.tail + toEnd - x.head)
        (need ≤ left → Settles i s die n fun u => u.out = out ∧ (ringOf u die n r).tail = x.tail + toEnd + need ∧
          Answered s u die n 10 p 0x93 (ringGrantWord c ((x.tail + toEnd) % c.size)) []) ∧
        (left < need → Settles i s die n fun u => u.out = out ∧ (ringOf u die n r).tail = x.tail + toEnd ∧ waits u))) ∧
    let live := activeOn s die n p.ctx = true ∧ ringServes s die n r p.ctx = true
    let hit (y : RingRec) := !y.committed && decide (y.start % c.size = need)
    (activeOn s die n p.ctx = false → Settles (.ringCommit die n p) s die n fun u => ChangesOnly [.rg, .nt] s u ∧
      countOf u die (cipPage s die n) 6 = countOf s die (cipPage s die n) 6 + 1) ∧
    (live → ∀ y ys, x.recs = y :: ys → hit y = true → y ∉ ys → (∀ z, ys.head? = some z → z.committed = false) →
      Settles (.ringCommit die n p) s die n fun u => ChangesOnly [.nt, .ci] s u ∧
        ringOf u die n r = { x with recs := ys, visible := y.start + y.len, marks := x.marks ++ [y.start + y.len] }) ∧
    (live → ∀ y ys, x.recs = y :: ys → y.committed = false → hit y = false → y ∉ ys →
      Settles (.ringCommit die n p) s die n fun u => ChangesOnly [.nt, .ci] s u ∧ (ringOf u die n r).visible = x.visible ∧
        (ringOf u die n r).head = x.head ∧ (ringOf u die n r).tail = x.tail)) ∧
  (∀ (s : State) (die n : Nat) (p : Packet) (d : Desc), fenced s die n = false → poisonStatus p = 0 → d.kind = 3 →
    (cipOf s die n).descs.find? (fun y => decide (y.phase = .reserving) && decide (y.sseq = p.sseq)) = some d → descAt s die n d.id = some d →
    let x := p.operand.toNat
    let q := (cipOf s die n).reqSeq
    let d' : Desc := { d with phase := .writing, header := true, ringOff := bits x 31 0, ringBase := bits x 55 32 * 4096, ringSize := 2 ^ bits x 60 56 }
    Settles (.ringGrant die n p) s die n fun u => ChangesOnly [.nt, .ci] s u ∧
      descAt u die n d.id = some { d' with sseq := q, again := false } ∧
      SentAll s u die n 10 .bulk [bulkReq s die n d.ctx 1 (ringAddr d' 0) q 1040 (ringHeader s die n d')]) ∧
  (∀ (s : State) (h : CipHdr) (d : Nat) (v : Word), cipGate s h = .go → let x := dbValue s h.die h.tile d
    (dbServes s h.die h.tile d h.ctx = false → Told (.dbWait h d v) s h 0x5D []) ∧
    (dbServes s h.die h.tile d h.ctx = true → (x - v).toNat < 2 ^ 31 → Told (.dbWait h d v) s h 0 (leBytes 4 x.toNat)) ∧
    (dbServes s h.die h.tile d h.ctx = true → 2 ^ 31 ≤ (x - v).toNat → Settles (.dbWait h d v) s h.die h.tile fun u =>
      WaitsOn u h (.doorbell d v) ∧ ChangesOnly [.ci] s u ∧ dbValue u h.die h.tile d = x) ∧
    Told (.deferRead h) s h 0 (leBytes 4 (deferOf s h.die h.tile h.ctx 0).toNat ++ leBytes 4 (deferOf s h.die h.tile h.ctx 1).toNat ++
      leBytes 4 (deferOf s h.die h.tile h.ctx 2).toNat ++ leBytes 4 (deferOf s h.die h.tile h.ctx 3).toNat)) ∧
  (∀ (s : State) (die n : Nat) (p : Packet), fenced s die n = false → let d := bits p.operand.toNat 7 0
    let ok := activeOn s die n p.ctx = true ∧ dbServes s die n d p.ctx = true
    (¬ ok → Settles (.dbInc die n p) s die n fun u => ChangesOnly [.rg, .nt] s u ∧
      countOf u die (cipPage s die n) 6 = countOf s die (cipPage s die n) 6 + 1) ∧
    (ok → Settles (.dbInc die n p) s die n fun u => ChangesOnly [.nt, .ci] s u ∧ dbValue u die n d = dbValue s die n d + 1 ∧
      ∀ e, e ≠ d → dbValue u die n e = dbValue s die n e))

/-- O44. A peg command past its gate is answered with the status of its address, or its request leaves and the stream waits. At the PEG unit
a request of another context is refused PEG_DENIED and counted. PEG_ARM sets VALUE, TARGET and AUTO; PEG_ADD adds and, where VALUE reaches
TARGET and no mirror follows, GEN rises, the waiters GEN has passed are answered with VALUE and GEN and leave, and AUTO takes TARGET from
VALUE; PEG_WAIT answers at once for a GEN past its word, is refused PEG_BUSY with 4,096 waiting, else waits; PEG_READ answers VALUE and GEN.
PEG_DONE completes the command that waits. (R355, R388, R389, R390, R413.) -/
def Obligations.Pegs : Prop :=
  (∀ (s : State) (h : CipHdr) (a : DWord) (tg : Word) (auto : Bool), cipGate s h = .go → let c := cipOf s h.die h.tile
    let bad := addrStatus s h.die h.tile h.ctx a
    ∀ e ∈ [(Instr.pegArmCmd h a tg auto, 0x30, tg.toNat + b2n auto * 2 ^ 32), (.pegAddCmd h a tg, 0x31, tg.toNat),
        (.pegWaitCmd h a tg, 0x32, tg.toNat), (.pegReadCmd h a, 0x33, 0)],
      (bad ≠ 0 → Told e.1 s h bad []) ∧ (bad = 0 → aRegion a ≠ 1 ∨ aPort a ≠ 8 → Told e.1 s h 0x10 []) ∧
      (bad = 0 → aRegion a = 1 → aPort a = 8 → Settles e.1 s h.die h.tile fun u =>
        let m := ctrlReq s h.die h.tile h.ctx e.2.1 a c.reqSeq h.stream e.2.2
        WaitsOn u h (.peg m) ∧ ChangesOnly [.nt, .ci] s u ∧ SentAll s u h.die h.tile 10 .ctrl [m])) ∧
  (∀ (s : State) (die : Nat) (p : Packet), let i := aIdx p.dest % 1024
    let x := pegOf s die i
    let w := lo32 p.operand
    let done (t : State) (v g : Word) := Answered s t die 5 11 p 0xB0 (pair64 v g) []
    let rest (t : State) := ∀ j, pegKey die j ≠ pegKey die i → pegOf t die j = pegOf s die j
    (∀ c ∈ [Instr.pegArm die p, .pegAdd die p, .pegWait die p, .pegRead die p],
      (fenced s die 5 = true → ∃ t, exec c s = .next t ∧ Refused s t die 5 11 p 0x20 ∧ t.pg = s.pg) ∧
      (fenced s die 5 = false → pegServes s die i p.ctx = false → ∃ t, exec c s = .next t ∧ Refused s t die 5 11 p 0x62 ∧ t.pg = s.pg ∧
        countOf t die 0x680 3 = countOf s die 0x680 3 + 1)) ∧
    (fenced s die 5 = false → pegServes s die i p.ctx = true →
      (∃ t, exec (.pegArm die p) s = .next t ∧ done t 0 x.gen ∧ rest t ∧ countOf t die 0x680 0 = countOf s die 0x680 0 + 1 ∧
        pegOf t die i = { x with value := 0, target := w, auto := p.operand.toNat.testBit 32, armed := true, reached := false }) ∧
      (∃ t, exec (.pegRead die p) s = .next t ∧ done t x.value x.gen ∧ t.pg = s.pg) ∧
      (genPast x.gen w = true → ∃ t, exec (.pegWait die p) s = .next t ∧ done t x.value x.gen ∧ t.pg = s.pg) ∧
      (genPast x.gen w = false → 4096 ≤ pegPool s die → ∃ t, exec (.pegWait die p) s = .next t ∧ Refused s t die 5 11 p 0x63 ∧ t.pg = s.pg ∧
        countOf t die 0x680 2 = countOf s die 0x680 2 + 1) ∧
      (genPast x.gen w = false → pegPool s die < 4096 → ∃ t, exec (.pegWait die p) s = .next t ∧ t.nt.inject = s.nt.inject ∧ rest t ∧
        pegOf t die i = { x with waiters := x.waiters ++ [⟨w, p⟩] }) ∧
      (∃ t, exec (.pegAdd die p) s = .next t ∧ rest t ∧
        let v := x.value + w
        let full := x.armed = true ∧ x.reached = false ∧ BitVec.sle x.target v = true ∧ s.pr.following = false
        let go := x.waiters.filter fun y => genPast (x.gen + 1) y.w
        let stay := x.waiters.filter fun y => !genPast (x.gen + 1) y.w
        let v' := if x.auto then v - x.target else v
        let rsp (q : Packet) (v g : Word) : Packet := { response s die 5 q 0xB0 (pair64 v g) [] with poison := flushing s die 5 }
        (¬ full → done t v x.gen ∧ pegOf t die i = { x with value := v }) ∧
        (full → pegOf t die i = { x with value := v', gen := x.gen + 1, waiters := stay, reached := if x.auto then x.reached else true } ∧
          countOf t die 0x680 1 = countOf s die 0x680 1 + 1 ∧
          (p.cls = .ctrl → (∀ y ∈ x.waiters, y.pkt.cls = .ctrl) →
            SentAll s t die 5 11 .ctrl (go.map (fun y => rsp y.pkt v (x.gen + 1)) ++ [rsp p v' x.gen])))))) ∧
  (∀ (s : State) (die n st : Nat) (x : Stream) (p : Packet), fenced s die n = false → poisonStatus p = 0 →
    pegStream s die n p.sseq = some (st, x) →
    Settles (.pegDone die n p) s die n fun u => u.out = s.out ++ [.cipRsp die n st 0 (leBytes 8 p.operand.toNat)] ∧
      look? (cipOf u die n).streams st = none ∧ ChangesOnly [.nt, .ci, .out] s u)

/-- O45. Each of the six posts past its gate completes: a bad descriptor is answered BAD_DESC, a tile without a completion queue of the
context QUEUE_BAD; without two free entries the post waits for them. A DMA descriptor is answered with its outcome word, which its admission
record holds too; accepted outside the fold, it begins: a COPY or a LOG_PUT of a context that logs reads its first piece, a RING_SEND
reserves, a MULTICAST has its first piece read at the memory port that owns it unless its tree is busy; accepted in the fold, it waits for
the next Press; deferred, it is held and counted, refused REFUSE HOLD_FULL with 32 held; refused, it gives its second entry back. A patch
run is answered the same way and leaves a run that is accepted or held. A seam open leaves for the home engine. (R110, R187, R250, R316,
R379, R380, R382, R408.) -/
def Obligations.DescriptorsArePostedAndAdmitted : Prop :=
  ∀ (s : State) (h : CipHdr) (x : List Byte), cipGate s h = .go →
    let die := h.die
    let n := h.tile
    let c := cipOf s die n
    let q0 := c.reqSeq
    let press := pressOf s die % 2 ^ 32
    ∀ i ∈ [Instr.copy h x, .multicast h x, .ringSend h x, .logPut h x, .patchRunPost h x, .seamOpenPost h x],
      (descBad s die n h.ctx x = true → Told i s h 0x5C []) ∧
      (descBad s die n h.ctx x = false → cqOf s die n h.ctx = none → Told i s h 0x5D []) ∧
      (∀ q, descBad s die n h.ctx x = false → cqOf s die n h.ctx = some q → (∀ d ∈ c.descs, d.id < c.nextDesc) →
        let y := queueOf s die n q
        let room := y.waiters = [] ∧ 2 ≤ freePool s die n q
        (¬ room → Settles i s die n fun u => WaitsOn u h (.post x) ∧ u.out = s.out ∧
          (queueOf u die n q).waiters = y.waiters ++ [.localResv h.stream 2] ∧ (cipOf u die n).descs = c.descs) ∧
        (room → dKind x < 0x10 →
          let a := match descAdm s die n h.ctx x with
            | .defer r => if 32 ≤ (c.descs.filter (·.held)).length then Adm.refuse 0x2A else .defer r
            | b => b
          let d0 : Desc := { id := c.nextDesc, bytes := x, kind := dKind x, stream := h.stream, ctx := h.ctx, admPress := stampPress s die }
          let begins := a = .accept ∧ s.tm.inFold = false
          let src := dSrc x
          let md := aDie src
          let mt := memTile src
          Settles i s die n fun u => u.out.getLast? = some (.cipRsp die n h.stream 0 (leBytes 2 (admWord a))) ∧
            (∃ e es, (queueOf u die n q).visible = y.visible ++ e :: es ∧ e.data = record16 (dTag x) 5 0 (admWord a) 0 press) ∧
            let reads := (cipOf u die n).descs = c.descs ++ [{ d0 with phase := .reading, len := pieceLen d0, sseq := q0 }] ∧
              SentAll s u die n 10 .bulk [bulkReq s die n h.ctx 0 (dSrc x) q0 (pieceLen d0) []]
            (a = .accept → s.tm.inFold = true → (cipOf u die n).descs = c.descs ++ [d0] ∧ u.nt.inject = s.nt.inject) ∧
            (begins → dKind x = 1 ∨ (dKind x = 4 ∧ logEn s h.ctx = true) → reads) ∧
            (begins → dKind x = 2 → treeBusy c (dAux x) = false → fenced s md mt = false → rfld s md (mpPage s md mt) 0x100 0 0 = 1 →
              bits src.toNat 43 0 + pieceLen d0 ≤ stackBytes →
              (cipOf u die n).descs = c.descs ++ [{ d0 with phase := .reading, len := pieceLen d0, sseq := q0 }] ∧
              (mpOf u md mt).waiting = (mpOf s md mt).waiting ++ [bulkReq s die n h.ctx 0 src q0 (pieceLen d0) []] ∧ u.nt.inject = s.nt.inject) ∧
            (begins → dKind x = 4 → logEn s h.ctx = false → (cipOf u die n).descs = c.descs ∧ u.nt.inject = s.nt.inject) ∧
            (a = .accept → dKind x = 2 → treeBusy c (dAux x) = true → (cipOf u die n).descs = c.descs ++ [d0] ∧ u.nt.inject = s.nt.inject) ∧
            (begins → dKind x = 3 →
              (cipOf u die n).descs = c.descs ++ [{ d0 with phase := .reserving, since := waitPress s die, sseq := q0 }] ∧
              SentAll s u die n 10 .ctrl [ctrlReq s die n h.ctx 0x13 (dDst x) q0 (0x80 + h.stream) (recBytes x)]) ∧
            (∀ r, a = .defer r → (cipOf u die n).descs = c.descs ++ [{ d0 with held := true }] ∧ u.nt.inject = s.nt.inject ∧
              deferOf u die n h.ctx (deferIdx r) = deferOf s die n h.ctx (deferIdx r) + 1) ∧
            (∀ r, a = .refuse r → (cipOf u die n).descs = c.descs ∧ u.nt.inject = s.nt.inject ∧ (queueOf u die n q).resv = y.resv)) ∧
        (room → dKind x = 0x20 →
          let r := runOfDesc h.stream h.ctx x
          let id := (drnTile s die n).nextRun
          let ad := runAdm s die n r
          let a := match ad.1 with
            | .defer k => if 32 ≤ (drnTile s die n).held.length then Adm.refuse 0x2A else .defer k
            | b => b
          Settles i s die n fun u => u.out.getLast? = some (.cipRsp die n h.stream 0 (leBytes 2 (admWord a))) ∧
            (∃ e, (queueOf u die n q).visible = y.visible ++ [e] ∧ e.data = record16 r.tag.toNat 1 0 (admWord a) 0 (pressOf s die)) ∧
            (a = .accept → ∃ r', runOf u die n id = some r' ∧ r'.bind = ad.2.1 ∧ r'.cost = runCost ad.2.1 r.count ∧ r'.press = pressOf s die ∧
              countOf u die (drnPage s die n) 5 = countOf s die (drnPage s die n) 5 + 1) ∧
            (∀ k, a = .defer k → runOf u die n id = some (markPosted s die n r) ∧
              (drnTile u die n).held = (drnTile s die n).held ++ [id]) ∧
            (∀ k, a = .refuse k → (drnTile u die n).runs = (drnTile s die n).runs ∧ (queueOf u die n q).resv = y.resv)) ∧
        (room → dKind x = 0x10 → let g := field x 4 2 % 4096
          Settles i s die n fun u => u.out = s.out ∧ (queueOf u die n q).resv = y.resv + 2 ∧
            (cipOf u die n).opens = c.opens ++ [{ sseq := q0, stream := h.stream, ctx := h.ctx, desc := x }] ∧
            SentAll s u die n 10 .ctrl [{ ctrlReq s die n h.ctx 0x20 (engAddr (pkgNo s) (homeDie g) (homeEng g) 0) q0 h.stream 0 with
              payload := x, len := 4, why := List.replicate 4 0 }]))

/-- O46. MC_ACK at the tree's owner adds its bytes to the multicast of its tree and context, which completes once all are sent and
acknowledged; with none it is counted. In a router of another tile it joins an entry of its tree and destination, or a free one, and leaves
the buffer. MC_ACK_HOLD_EXPIRY sends the entry due to the owner; MC_ACK_WAIT_EXPIRY of a multicast whose wait is over ends it with
MC_ACK_SHORT. FETCH_REQUEST with four of its stream outstanding changes nothing; else it is answered with the first status that holds, or
its READ of one line leaves. (R68, R382, R383, R559, R582.) -/
def Obligations.MulticastAcknowledgementsAndFetches : Prop :=
  (∀ (s : State) (die n : Nat) (p : Packet), let tree := bits p.operand.toNat 59 48
    let got := bits p.operand.toNat 47 0
    let mine := aPkg p.dest = pkgNo s ∧ aDie p.dest = die ∧ aTile p.dest = n
    let find (s : State) := (cipOf s die n).descs.find? fun d => decide (d.kind = 2) && decide (dAux d.bytes = tree) &&
      decide (d.phase ≠ .queued) && decide (d.ctx = p.ctx)
    (mine → fenced s die n = true → Settles (.mcAck die n p) s die n fun u => Refused s u die n 10 p 0x20) ∧
    (mine → fenced s die n = false → find s = none → Settles (.mcAck die n p) s die n fun u => ChangesOnly [.rg, .nt] s u ∧
      countOf u die (cipPage s die n) 6 = countOf s die (cipPage s die n) 6 + 1) ∧
    (mine → fenced s die n = false → ∀ d, find s = some d → descAt s die n d.id = some d →
      let all := d.phase = .acking ∧ dAux2 d.bytes * dLen d.bytes ≤ d.acked + got
      (¬ all → Settles (.mcAck die n p) s die n fun u => ChangesOnly [.nt, .ci] s u ∧
        descAt u die n d.id = some { d with acked := d.acked + got }) ∧
      (all → Settles (.mcAck die n p) s die n fun u => ∀ y ∈ (cipOf u die n).descs, y.id ≠ d.id)) ∧
    (¬ mine → let t := physTile s die n
      let at_ (e : Nat × List QPkt) := decide (e.1 / 1024 = tk die t) && (match e.2 with | q :: _ => decide (q.pkt = p) | [] => false)
      let known := (mergesOf s die n).any fun m => decide (m.tree = tree) && decide (m.dest = p.dest)
      (s.nt.bufs.find? at_ = none → exec (.mcAck die n p) s = .next s) ∧
      (known = false → ackRoom s die n ≤ (mergesOf s die n).length → exec (.mcAck die n p) s = .next s) ∧
      (∀ e, s.nt.bufs.find? at_ = some e → known = true ∨ (mergesOf s die n).length < ackRoom s die n →
        ∃ u m, exec (.mcAck die n p) s = .next u ∧ m ∈ mergesOf u die n ∧ m.tree = tree ∧ m.dest = p.dest ∧ got ≤ m.bytes ∧
          (known = false → mergesOf u die n = mergesOf s die n ++ [m] ∧ m.bytes = got) ∧
          countOf u die (bskPage s die n) 3 = countOf s die (bskPage s die n) 3 + 1))) ∧
  (∀ (s : State) (die n tree : Nat),
    let due (m : AckMerge) := decide (m.tree = tree) && decide (s.tm.fclk ≥ m.at_ + ackHold s die n)
    ((mergesOf s die n).find? due = none → exec (.mcAckHoldExpiry die n tree) s = .next s) ∧
    (∀ m, (mergesOf s die n).find? due = some m → ∃ u q, exec (.mcAckHoldExpiry die n tree) s = .next u ∧
      mergesOf u die n = (mergesOf s die n).erase m ∧ SentAll s u die n 10 .ctrl [q] ∧ q.opcode = 0x16 ∧ q.dest = m.dest ∧ q.ctx = m.ctx ∧
      q.operand = w64 (m.bytes % 2 ^ 48 + m.tree * 2 ^ 48)) ∧
    let wait := (cipOf s die n).descs.find? fun d => decide (d.kind = 2) && decide (dAux d.bytes = tree) && decide (d.phase = .acking)
    (wait = none → Settles (.mcAckWaitExpiry die n tree) s die n fun u => u = s) ∧
    (∀ d, wait = some d → let late := d.injected + rfld s die (cipPage s die n) 0x10C 7 0 ≤ waitPress s die
      (¬ late → Settles (.mcAckWaitExpiry die n tree) s die n fun u => u = s) ∧
      (late → Settles (.mcAckWaitExpiry die n tree) s die n fun u => (∀ y ∈ (cipOf u die n).descs, y.id ≠ d.id) ∧
        (descAt s die n d.id = some d → ∀ q, cqOf s die n d.ctx = some q → (queueOf s die n q).resv ≠ 0 →
          ∃ e es, (queueOf u die n q).visible = (queueOf s die n q).visible ++ e :: es ∧
            e.data = record16 (dTag d.bytes) 6 0 0x61 (d.acked / dLen d.bytes) (pressOf s die % 2 ^ 32))))) ∧
  (∀ (s : State) (h : CipHdr) (a : DWord), let mine := ((cipOf s h.die h.tile).fetches.filter fun f => decide (f.stream = h.stream)).length
    let taken := cipReady s h.die h.tile = true ∧ mine < 4 ∧ h.stream < 128
    let q := (cipOf s h.die h.tile).reqSeq
    let code := fetchStatus s h a
    (¬ taken → exec (.fetchRequest h a) s = .next s) ∧
    (taken → code ≠ 0 → exec (.fetchRequest h a) s = .next (emit (.fetchRsp h.die h.tile h.stream code []) s)) ∧
    (taken → code = 0 → ∃ u m, exec (.fetchRequest h a) s = .next u ∧ ChangesOnly [.nt, .ci] s u ∧ SentAll s u h.die h.tile 10 .fetch [m] ∧
      m.cls = .fetch ∧ m.opcode = 0 ∧ m.dest = w64 (a.toNat / 64 * 64) ∧ m.operand = 64 ∧ m.ctx = h.ctx ∧ m.sseq = q ∧
      (cipOf u h.die h.tile).fetches = (cipOf s h.die h.tile).fetches ++ [{ stream := h.stream, sseq := q }]))

/-- O47. At a CIP in no reset and on no isolated die, READ_DATA that is clean gives a fetch its line and lets a COPY write its piece;
WRITE_ACK lets a COPY read its next piece or, after the last, complete; STATUS gives a fetch its code, repeats a granule request NACK_RETRY
refused fewer than 16 times in a row, and ends the descriptor with any other code. In a reset or on an isolated die it is discarded and
counted. At a host adapter READ_DATA completes a read of one granule, WRITE_ACK ends the write, STATUS completes a read with its error; a
response no request waits for is counted. (R118, R381, R456, R457, R459, R482, R559, R586.) -/
def Obligations.ResponsesReachTheirRequester : Prop :=
  (∀ (s : State) (die n : Nat) (p : Packet), toHost die n p = none → fenced s die n = true → aPort p.dest = 0 →
    ∀ i ∈ [Instr.readData die n p, .writeAck die n p, .status die n p], ∃ t, exec i s = .next t ∧ ChangesOnly [.rg, .nt] s t ∧
      countOf t die (cipPage s die n) 6 = countOf s die (cipPage s die n) 6 + 1) ∧
  (∀ (s : State) (die n : Nat) (p : Packet), toHost die n p = none → fenced s die n = false → poisonStatus p = 0 → aPort p.dest = 0 →
    let q := (cipOf s die n).reqSeq
    let code := bits p.operand.toNat 7 0
    let gone (u : State) := (cipOf u die n).fetches = (cipOf s die n).fetches.filter fun f => decide (f.sseq ≠ p.sseq)
    (p.cls = .fetch → (∃ f ∈ (cipOf s die n).fetches, f.sseq = p.sseq) →
      (Settles (.readData die n p) s die n fun u => gone u ∧ u.out = s.out ++ [.fetchRsp die n (p.flags.toNat % 128) 0 (padTo 64 p.payload)]) ∧
      (p.opcode = 0x8F → code ≠ 0 →
        Settles (.status die n p) s die n fun u => gone u ∧ u.out = s.out ++ [.fetchRsp die n (p.flags.toNat % 128) code []])) ∧
    (∀ d, p.cls ≠ .fetch → p.flags ≠ 2 → p.flags ≠ 3 → descOfReq s die n p.sseq = some d → descAt s die n d.id = some d → d.kind = 1 → d.header = false →
      let nxt := d.pos + d.len
      (d.phase = .reading → Settles (.readData die n p) s die n fun u => ChangesOnly [.nt, .ci] s u ∧
        descAt u die n d.id = some { d with phase := .writing, data := padTo d.len p.payload, nacks := 0, sseq := q, again := false } ∧
        SentAll s u die n 10 .bulk [bulkReq s die n d.ctx 1 (w64 ((dDst d.bytes).toNat + d.pos)) q (d.len + 1024) (padTo d.len p.payload)]) ∧
      (d.phase = .writing → nxt < dLen d.bytes → Settles (.writeAck die n p) s die n fun u => ChangesOnly [.nt, .ci] s u ∧
        let k := pieceLen { d with pos := nxt }
        descAt u die n d.id = some { d with phase := .reading, pos := nxt, len := k, data := [], nacks := 0, sseq := q, again := false } ∧
        SentAll s u die n 10 .bulk [bulkReq s die n d.ctx 0 (dSrc d.bytes + w64 nxt) q k []]) ∧
      (d.phase = .writing → dLen d.bytes ≤ nxt → dFlags d.bytes = 0 → Settles (.writeAck die n p) s die n fun u =>
        (∀ y ∈ (cipOf u die n).descs, y.id ≠ d.id) ∧ u.nt.inject = s.nt.inject ∧
        ∀ r, cqOf s die n d.ctx = some r → (queueOf s die n r).resv ≠ 0 → ∃ e, (queueOf u die n r).visible = (queueOf s die n r).visible ++ [e] ∧
          e.data = record16 (dTag d.bytes) 6 0 0 0 (pressOf s die % 2 ^ 32)) ∧
      (p.opcode = 0x8F → code = 0x20 → d.nacks + 1 < 16 → Settles (.status die n p) s die n fun u => u.nt.inject = s.nt.inject ∧
        descAt u die n d.id = some { d with nacks := d.nacks + 1, again := true }) ∧
      (p.opcode = 0x8F → code ≠ 0 → ¬ (code = 0x20 ∧ d.nacks + 1 < 16) → Settles (.status die n p) s die n fun u =>
        (∀ y ∈ (cipOf u die n).descs, y.id ≠ d.id) ∧
        ∀ r, cqOf s die n d.ctx = some r → (queueOf s die n r).resv ≠ 0 → ∃ e, (queueOf u die n r).visible = (queueOf s die n r).visible ++ [e] ∧
          e.data = record16 (dTag d.bytes) 6 0 code 0 (pressOf s die % 2 ^ 32)))) ∧
  (∀ (s : State) (die n h : Nat) (p : Packet), toHost die n p = some h → (hostOf s h).waiting = [] →
    ((∀ r ∈ (hostOf s h).sent, r.sseq ≠ p.sseq) → ∀ i ∈ [Instr.readData die n p, .writeAck die n p, .status die n p],
      ∃ t, exec i s = .next t ∧ ChangesOnly [.rg, .nt] s t ∧ countOf t (hostDie h) 0x718 5 = countOf s (hostDie h) 0x718 5 + 1) ∧
    (∀ r rs, takeFirst (fun x : HostReq => decide (x.sseq = p.sseq)) (hostOf s h).sent = (some r, rs) →
      let k := inThisGranule (apertureAddr s h r.offset) r.left
      let code := if fenced s die 5 then 0x88 else if poisonStatus p ≠ 0 then poisonStatus p else bits p.operand.toNat 7 0
      (r.we = false → fenced s die 5 = false → poisonStatus p = 0 → r.left ≤ k → ∃ t, exec (.readData die n p) s = .next t ∧
        t.out = s.out ++ [.tlp h r.tag 0 (padTo k p.payload)] ∧ (hostOf t h).sent = rs) ∧
      (r.we = true → fenced s die 5 = false → poisonStatus p = 0 → ∃ t, exec (.writeAck die n p) s = .next t ∧ t.out = s.out ∧
        hostOf t h = { hostOf s h with sent := rs }) ∧
      (r.we = false → code ≠ 0 → ∃ t, exec (.status die n p) s = .next t ∧ t.out = s.out ++ [.tlp h r.tag (tlpStatus code) []] ∧
        (hostOf t h).sent = rs) ∧
      (r.we = true → code ≠ 0 → ∃ t, exec (.status die n p) s = .next t ∧ t.out = s.out ∧ (hostOf t h).errValid = true ∧
        (hostOf t h).errCode = BitVec.ofNat 8 code)))

/-- O48. SEAM_OPEN at a fenced engine is answered NACK_RETRY; a following mirror or an activation pause keeps it. Otherwise its outcome is
answered once: accepted, it takes the next GSEQ of its endpoint and joins the record of that GSEQ, a new one in the lowest free slot for its
first open; deferred, it is kept and counted, refused HOLD_FULL with 64 kept; refused, no record changes, and the count moves only for
SEAM_LATE_OPEN. An open of a shadow of a set seam that is not refused waits for the completion. SEAM_ADMIT writes the member's admission
record, answers its post and gives the second entry back on REFUSE; SEAM_DONE writes the completion record. SEAM_SUMMARY keeps the summaries
that are new and hands those of the ring on (log 36). (R187, R316, R317, R319, R320, R321, R325, R338, R345, R347, R413, R547.) -/
def Obligations.SeamsOpenAndAnswer : Prop :=
  (∀ (s : State) (die eng : Nat) (p : Packet), let n := engTile die eng
    let d := descOf p.payload
    let g := d.group
    let gseq := nextSeq s g p.srcDie p.srcTile
    let p' : Packet := { p with operand := w64 (postOrdinal s p) }
    let kept := look [] s.se.deferred (ek die eng)
    let a := match openAdm s die eng p with
      | .defer x => if 64 ≤ kept.length then Adm.refuse 0x2A else .defer x
      | b => b
    let refused := ∃ x, a = .refuse x
    let answer (t : State) := Answered s t die n (engPort die) p 0xA0 (w64 (admWord a + pressOf s die % 2 ^ 32 * 2 ^ 32)) []
    let go := fenced s die n = false ∧ s.pr.following = false ∧ s.fw.carried = false
    (fenced s die n = true → ∃ t, exec (.seamOpen die eng p) s = .next t ∧ Refused s t die n (engPort die) p 0x20 ∧ t.se = s.se) ∧
    (fenced s die n = false → s.pr.following = true ∨ s.fw.carried = true →
      ∃ t, exec (.seamOpen die eng p) s = .next t ∧ t.nt.inject = s.nt.inject ∧ t.se.recs = s.se.recs ∧
        look [] t.se.mirror (ek die eng) = look [] s.se.mirror (ek die eng) ++ [p']) ∧
    (go → ¬ refused → isLateShadow s p = true → ∀ k r, findRec s g gseq = some k → recOf s k = some r →
      ∃ t, exec (.seamOpen die eng p) s = .next t ∧ t.nt.inject = s.nt.inject ∧
        recOf t k = some { r with lateOpens := r.lateOpens ++ [(p', true)] }) ∧
    (go → refused ∨ isLateShadow s p = false → ∃ t, exec (.seamOpen die eng p) s = .next t ∧ ChangesOnly [.rg, .nt, .se, .pr, .lk, .out] s t ∧
      (a = .accept → nextSeq t g p.srcDie p.srcTile = gseq + 1 ∧
        (findRec s g gseq = none → (∀ y ∈ look [] s.se.early (ek die eng), y.operand.toNat ≠ g * 2 ^ 48 + gseq) →
          answer t ∧ ∃ x r o, freeRec s die eng = some x ∧ recOf t (seamKey die eng x) = some r ∧ r.group = g ∧
          r.gseq = gseq ∧ r.ctx = p.ctx ∧ r.phase = 0 ∧ r.opens = [o] ∧ o.die = p.srcDie ∧ o.tile = p.srcTile ∧ o.desc = d ∧
          o.shadow = false ∧ (∀ i w, findSlot s g p.srcDie p.srcTile = some (i, w) → o.rank = gRankBase s g + i)) ∧
        (∀ k r, findRec s g gseq = some k → recOf s k = some r → ∃ r', recOf t k = some r' ∧ r'.phase = r.phase ∧
          (r.phase ≠ 1 → answer t) ∧ ∃ o ∈ r'.opens, o.die = p.srcDie ∧ o.tile = p.srcTile ∧ o.desc = d)) ∧
      (∀ x, a = .defer x → answer t ∧ t.se.recs = s.se.recs ∧ look [] t.se.deferred (ek die eng) = kept ++ [p'] ∧
        deferOf t die n p.ctx (deferIdx x) = deferOf s die n p.ctx (deferIdx x) + 1) ∧
      (∀ x, a = .refuse x → answer t ∧ t.se.recs = s.se.recs ∧ t.se.deferred = s.se.deferred ∧
        nextSeq t g p.srcDie p.srcTile = if x = 0x50 then gseq + 1 else gseq))) ∧
  (∀ (s : State) (die n : Nat) (p : Packet), fenced s die n = false →
    let w := bits p.operand.toNat 15 0
    let writes (u : State) (ctx : Nat) (b : List Byte) := ∀ q, cqOf s die n ctx = some q → (queueOf s die n q).resv ≠ 0 →
      ∃ e, (queueOf u die n q).visible = (queueOf s die n q).visible ++ [e] ∧ e.data = b
    (Settles (.seamDone die n p) s die n fun u => ChangesOnly [.rg, .nt, .ci, .out] s u ∧ writes u p.ctx (padTo 16 p.payload) ∧
      (cqOf s die n p.ctx = none → u.ci = s.ci ∧ countOf u die (cipPage s die n) 6 = countOf s die (cipPage s die n) 6 + 1)) ∧
    (∀ o, poisonStatus p = 0 → (cipOf s die n).opens.find? (fun x => decide (x.sseq = p.sseq)) = some o →
      Settles (.seamAdmit die n p) s die n fun u => u.out.getLast? = some (.cipRsp die n o.stream 0 (leBytes 2 w)) ∧
        (cipOf u die n).opens = (cipOf s die n).opens.filter (fun x => decide (x.sseq ≠ p.sseq)) ∧
        writes u o.ctx (seamRecord (field o.desc 6 2) 3 0 w 0 0 (bits p.operand.toNat 63 32)) ∧
        ∀ q, cqOf s die n o.ctx = some q → (queueOf s die n q).resv ≠ 0 →
          (queueOf u die n q).resv = (queueOf s die n q).resv - (if w / 2 ^ 14 = 2 then 2 else 1))) ∧
  (∀ (s : State) (die eng x : Nat) (p : Packet),
    (namedRec s die eng x p = none → ∃ t, exec (.seamSummary die eng x p) s = .next t ∧ t.nt.inject = s.nt.inject ∧ t.se.recs = s.se.recs ∧
      look [] t.se.early (ek die eng) = look [] s.se.early (ek die eng) ++ [p]) ∧
    (∀ k r, namedRec s die eng x p = some k → recOf s k = some r →
      let new_ := (chunk 64 8 p.payload).filter fun b => r.summaries.all fun y => decide (field y 0 2 ≠ field b 0 2)
      let on_ := new_.filter fun b => decide (field b 0 2 ≠ gNext s r.group)
      ∃ t, exec (.seamSummary die eng x p) s = .next t ∧ ChangesOnly [.rg, .nt, .se, .lk, .out] s t ∧
        recOf t k = some { r with summaries := r.summaries ++ new_ } ∧
        (p.srcPkg / 64 ≠ pkgNo s / 64 ∨ on_ = [] → ChangesOnly [.nt, .se] s t ∧ t.nt.inject = s.nt.inject) ∧
        (p.srcPkg / 64 = pkgNo s / 64 → on_ ≠ [] → ∃ u m, ChangesOnly [.nt, .se] s u ∧ u.nt.inject = s.nt.inject ∧ t = engSend k m u ∧
          m.opcode = 0x21 ∧ m.payload = on_.flatten ∧ m.dest = engAddr (gNext s r.group) (keyDie k) (keyEng k) 0)))

/-- O49. SEAM_RESERVE of a seam known at the tile, or whose record has gone, only leaves the network. Where nothing else waits it is refused
above the tile's limit or with no basket share; granted with the lowest unreserved darners, the lowest free stream if ordered and the lowest
free basket; else deferred once. A stage engine takes a record. SEAM_GRANT joins the grants, notes a deferral, fails the seam on a refusal,
and with the last one fixes L and sends SEAM_SET to every place, or fails with PRESS_TOO_SHORT. SEAM_YIELD_ASK of a seam not set gives every
grant back and asks again; of a set one it is answered that it holds. SEAM_YIELD and SEAM_RELEASE free what the seam holds; SEAM_SET marks
its reservation, whose darners are then held from the Press after the one it was set in. (R253, R254, R256, R326, R327, R328, R329, R332,
R384.) -/
def Obligations.SeamsReserveYieldAndSet : Prop :=
  (∀ (s : State) (die n : Nat) (q : SeamRef), let rs := resvOf s die n
    let known := rs.any fun r => sameSeam r.ref q
    let limit := rfld s die (drnPage s die n) 0x108 3 0
    let f := tileFree s die n []
    let word (a : Adm) : Packet := { seamCtrl s 0xA2 q.ctx die n (resvPort die) (engAddr q.pkg q.die q.eng q.slot) (admWord a) [] with
      sseq := BitVec.ofNat 16 (256 * q.eng + q.slot) }
    let ds := ((List.range 8).filter fun d => decide ((darnerOf s die n d).resv = none)).take q.darners
    let st := if q.ordered then f.stream.getD 16 else 16
    (known = true ∨ recAt s q = none → ∃ t, exec (.seamReserve die n q) s = .next t ∧ ChangesOnly [.nt] s t ∧ t.nt.inject = s.nt.inject) ∧
    (known = false → recAt s q ≠ none → (∀ r ∈ rs, r.granted = true) → ∃ t, exec (.seamReserve die n q) s = .next t ∧
      ChangesOnly [.rg, .nt, .dr, .se, .ft] s t ∧
      (dieType die ≠ .io → limit < q.darners → SentAll s t die n 10 .ctrl [word (.refuse 0x3C)] ∧ resvOf t die n = rs ∧ t.dr = s.dr) ∧
      (dieType die ≠ .io → q.darners ≤ limit → seamShare s die n = 0 →
        SentAll s t die n 10 .ctrl [word (.refuse 0x53)] ∧ resvOf t die n = rs ∧ t.dr = s.dr) ∧
      (dieType die ≠ .io → q.darners ≤ limit → seamShare s die n ≠ 0 → resvFits s die n q [] = true →
        SentAll s t die n 10 .ctrl [word .accept] ∧
        resvOf t die n = rs ++ [{ ref := q, granted := true, darners := ds, stream := st, basket := f.basket.getD 64 }] ∧
        (∀ d ∈ ds, (darnerOf t die n d).resv = some q ∧ (darnerOf t die n d).resvFrom = 0) ∧
        ∀ d, d ∉ ds → darnerOf t die n d = darnerOf s die n d) ∧
      (dieType die ≠ .io → q.darners ≤ limit → seamShare s die n ≠ 0 → resvFits s die n q [] = false →
        (∀ r ∈ rs, r.set = true ∨ ticketLt q r.ref = false) →
        SentAll s t die n 10 .ctrl [word (.defer 0x52)] ∧ resvOf t die n = rs ++ [{ ref := q, told := true }] ∧ t.dr = s.dr) ∧
      (dieType die = .io → ∀ x, freeRec s die (stageEng n) = some x → SentAll s t die n 10 .ctrl [word .accept] ∧
        ∃ r, recOf t (seamKey die (stageEng n) x) = some r ∧ r.group = q.group ∧ r.gseq = q.gseq ∧ r.home = some q))) ∧
  (∀ (s : State) (die eng x fd fn : Nat) (w : BitVec 16) (r : SeamRec), let k := seamKey die eng x
    let kd := keyDie k
    let kt := engTile kd (keyEng k)
    let q := ikey kd (physTile s kd kt) (engPort kd) (planeOf .ctrl)
    recOf s k = some r →
    (r.phase ≠ 1 → ∃ t, exec (.seamGrant die eng x fd fn w) s = .next t ∧ ChangesOnly [.nt] s t) ∧
    (r.phase = 1 → let o := w.toNat / 2 ^ 14 % 4
      let grants := if (fd, fn) ∈ r.grants then r.grants else r.grants ++ [(fd, fn)]
      let reqs := r.reqs.filter fun y => !(decide (y.die = fd) && decide (y.tile = fn))
      let r' : SeamRec := { r with grants := grants, reqs := reqs, wait := if r.wait = some (fd, fn) then none else r.wait }
      let whole := r.asked = true ∧ ∀ y ∈ resvPlaces s r, y ∈ r'.grants
      ∃ t, exec (.seamGrant die eng x fd fn w) s = .next t ∧ ChangesOnly [.rg, .nt, .se] s t ∧
        (o = 1 → recOf t k = some { r with wait := some (fd, fn) } ∧ t.nt.inject = s.nt.inject) ∧
        (2 ≤ o → recOf t k = some { r with fails := r.fails ++ [(w.toNat % 256, 0)] } ∧ t.nt.inject = s.nt.inject) ∧
        (o = 0 → ¬ whole → recOf t k = some r' ∧ t.nt.inject = s.nt.inject) ∧
        (o = 0 → whole → (loadSize s kd r = none → recOf t k = some { r' with fails := r.fails ++ [(0x1D, 0)] }) ∧
          ∀ l, loadSize s kd r = some l →
            recOf t k = some { r' with phase := 2, setPress := pressOf s kd, load := l, wait := none } ∧
            (injQ t q).length = (injQ s q).length + (resvPlaces s r).length)) ∧
    (∃ t, exec (.seamYieldAsk die eng x fd fn) s = .next t ∧ ChangesOnly [.rg, .nt, .se] s t ∧
      (r.phase ≠ 1 → recOf t k = some r ∧ ∃ m, SentAll s t kd kt (engPort kd) .ctrl [m] ∧ m.opcode = 0xA3 ∧ m.operand = 0) ∧
      (r.phase = 1 → (∃ z, recOf t k = some z ∧ z = { r with grants := [], stage := none, reqs := z.reqs } ∧ ∀ y ∈ r.grants,
          ({ die := y.1, tile := y.2, since := waitPress s kd } : ResvAsk) ∈ z.reqs) ∧ countOf t kd (keyPage k) 3 = countOf s kd (keyPage k) 3 + 1 ∧
        (injQ t q).length = (injQ s q).length + (r.grants.filter fun y => decide (y ≠ (fd, fn))).length + 1 + r.grants.length))) ∧
  (∀ (s : State) (die n l : Nat) (q : SeamRef), let rs := resvOf s die n
    (∃ t, exec (.seamSet die n q l) s = .next t ∧ ChangesOnly [.nt, .dr, .se] s t ∧
      resvOf t die n = (rs.map fun r => if sameSeam r.ref q then { r with set := true, load := l } else r) ∧
      ∀ d, d < 8 → darnerOf t die n d = match recAt s q with
        | some r => let x := darnerOf s die n d
          if x.resv = some q then { x with resvFrom := r.setPress + 1 } else x
        | none => darnerOf s die n d) ∧
    ((∀ r ∈ rs, r.granted = true) → (∃ t, exec (.seamYield die n q false) s = .next t ∧ ChangesOnly [.nt] s t) ∧
      ∀ c ∈ [Instr.seamYield die n q true, .seamRelease die n q], ∃ t, exec c s = .next t ∧ ChangesOnly [.rg, .nt, .dr, .se] s t ∧
        resvOf t die n = rs.filter (fun r => !sameSeam r.ref q) ∧
        (dieType die ≠ .io → (∃ r ∈ rs, sameSeam r.ref q = true) →
          (∀ d y, (darnerOf t die n d).resv = some y → sameSeam y q = false) ∧
          ∀ z ∈ (drnTile t die n).queue, ∀ y, z.seam = some y → sameSeam y q = false)))

/-- O50. SEAM_PART or SEAM_DATA for a seam whose record has gone only leaves the network. SEAM_PART at a member tile joins each of its
partials to those of its load; at the home engine of a seam of this package it joins the load, and where every position then has all its
contributions, every output element is the rounding of its combined value, once; until then nothing is rounded. An invalid partial raises
XA_FORM. SEAM_DATA that reaches a member tile from above writes the member's share to its DST, one write a granule. What reaches a stage
engine before its record exists is kept. (R27, R198, R335, R344, R348, R351.) -/
def Obligations.SeamValuesCombineAndAreDelivered : Prop :=
  (∀ (s : State) (die n ft : Nat) (q : SeamRef) (p : Packet), aPort p.dest ≠ 9 →
    let load := extLoad p
    (recAt s q = none → ∀ c ∈ [Instr.seamPart die n q ft p, .seamData die n q p.srcDie ft p],
      ∃ t, exec c s = .next t ∧ ChangesOnly [.nt] s t ∧ t.nt.inject = s.nt.inject) ∧
    (∀ r, recAt s q = some r → p.opcode = 0x25 → let d := descOfRec r
      let vs := unpackVals d true false (extCount p) (extForms p) p.payload
      ∃ t, exec (.seamPart die n q ft p) s = .next t ∧ ChangesOnly [.rg, .nt, .se, .ft] s t ∧ t.nt.inject = s.nt.inject ∧
        (anyBad vs = true → Shows t die (drnPage s die n) 7) ∧
        ∀ l, tloadOf s die n q load = some l → ∃ l', tloadOf t die n q load = some l' ∧ l'.entered = l.entered ∧
          l'.vals = joinVals (combOf d) l.vals (extFirst p) (inherit p vs)) ∧
    (∀ r, recAt s q = some r → p.opcode = 0x26 → ¬ (p.srcDie = die ∧ ft ∈ treeChildren r die n) → let w := outElem (descOfRec r)
      let es := (List.range (extCount p)).map fun i => slice p.payload (i * w) w
      ∃ t, exec (.seamData die n q p.srcDie ft p) s = .next t ∧ ∀ o ∈ r.opens, o.die = die → o.tile = n → o.shadow = false →
        let span := outInLoad s r load o.rank
        let lo := max span.1 (extFirst p)
        let hi := min span.2 (extFirst p + es.length)
        lo < hi → ∀ y ∈ (storeBy die (o.desc.dst + w64 ((loadFirst r load + lo - (outRange s r o.rank).1) * w))
          ((es.drop (lo - extFirst p)).take (hi - lo)).flatten { s with out := [] }).out, y ∈ t.out)) ∧
  (∀ (s : State) (die n ft : Nat) (q : SeamRef) (p : Packet), aPort p.dest = 9 → dieType die ≠ .io →
    let k := keyOf q
    let load := extLoad p
    (recOf s k = none → ∃ t, exec (.seamPart die n q ft p) s = .next t ∧ ChangesOnly [.nt] s t ∧ t.nt.inject = s.nt.inject) ∧
    (∀ r l, recOf s k = some r → look? r.loads load = some l → poisonStatus p = 0 → p.opcode = 0x25 → gXpkg s r.group = false →
      rootDelivers s r = false → l.final = false → l.sent = false →
      let d := descOfRec r
      let vs := unpackVals d true false (extCount p) (extForms p) p.payload
      let vals := joinVals (combOf d) l.vals (extFirst p) (inherit p vs)
      let whole := ∀ i, i < loadCount r load → expectAt s r load i ≤ (look {} vals i).n
      ∃ t, exec (.seamPart die n q ft p) s = .next t ∧ ChangesOnly [.rg, .nt, .se, .lk, .ft, .out] s t ∧
        (anyBad vs = true → Shows t (keyDie k) (keyPage k) 0) ∧
        (¬ whole → recOf t k = some { r with loads := ins r.loads load { l with vals := vals } } ∧ t.nt.inject = s.nt.inject ∧ t.out = s.out) ∧
        (whole → isComb d.op = true → ∃ r' l', recOf t k = some r' ∧ look? r'.loads load = some l' ∧ l'.sent = true ∧ l'.final = true ∧
          ∀ i, i < loadCount r load → look [] l'.out i = (roundVal r (loadFirst r load + i) (look {} vals i)).1))) ∧
  (∀ (s : State) (die n ft : Nat) (q : SeamRef) (p : Packet), aPort p.dest = 9 → dieType die = .io →
    findStage s die (stageEng n) (bits p.operand.toNat 63 48) (bits p.operand.toNat 47 0) = none →
    ∀ c ∈ [Instr.seamPart die n q ft p, .seamData die n q p.srcDie ft p], ∃ t, exec c s = .next t ∧ ChangesOnly [.nt, .se] s t ∧
      look [] t.se.early (ek die (stageEng n)) = look [] s.se.early (ek die (stageEng n)) ++ [p])

/-- O51. SEAM_ABORT of a named record joins its status to the seam's failures. SEAM_TIMEOUT before every open is in and OPEN_WAIT Presses
past the first notes the lowest missing rank and, within a package, fails the seam with SEAM_MISSING; else it changes nothing.
SEAM_RES_STALL of a place whose grant is overdue raises SEAM_RES_STALL once for that request. SEAM_LINK_LOST of a seam across packages with
a step overdue fails it and tells the other packages. SEAM_ABORT_CMD with GO fails the seam of the record it names, at its home engine, with
SEAM_ABORTED, and without GO does nothing. No other record changes by these. (R325, R330, R342, R349.) -/
def Obligations.SeamsFail : Prop :=
  (∀ (s : State) (die eng x : Nat) (p : Packet),
    (namedRec s die eng x p = none → ∃ t, exec (.seamAbort die eng x p) s = .next t ∧ ChangesOnly [.nt] s t) ∧
    (∀ k r, namedRec s die eng x p = some k → recOf s k = some r → ∃ t, exec (.seamAbort die eng x p) s = .next t ∧
      ChangesOnly [.nt, .se] s t ∧ recOf t k = some { r with fails := r.fails ++ [(bits p.operand.toNat 7 0, 0)] } ∧ (r.fails ≠ [] → t.nt.inject = s.nt.inject) ∧
      ∀ k', k' ≠ k → recOf t k' = recOf s k')) ∧
  (∀ (s : State) (die eng x : Nat) (r : SeamRec), let k := seamKey die eng x
    let kd := keyDie k
    let kp := keyPage k
    recOf s k = some r →
    let wait := (reg s kd kp 0x108).toNat
    let timed := r.home = none ∧ r.phase = 0 ∧ r.allIn = none ∧ r.missing = none ∧ wait ≠ 0 ∧ r.first + wait < waitPress s kd
    let m := missingRank s r
    (¬ timed → exec (.seamTimeout die eng x) s = .next s) ∧
    (timed → ∃ t, exec (.seamTimeout die eng x) s = .next t ∧ ChangesOnly [.se] s t ∧ (∀ k', k' ≠ k → recOf t k' = recOf s k') ∧
      recOf t k = some { r with missing := some m, fails := r.fails ++ if gXpkg s r.group then [] else [(0x4C, m)] }) ∧
    (∀ td tn, let here (y : ResvAsk) := decide (y.die = td) && decide (y.tile = tn)
      let stall := r.phase = 1 ∧ ∃ y ∈ r.reqs, here y = true ∧ y.stalled = false ∧ y.since + rfld s kd kp 0x110 15 0 < waitPress s kd
      (¬ stall → exec (.seamResStall die eng x td tn) s = .next s) ∧
      (stall → ∃ t, exec (.seamResStall die eng x td tn) s = .next t ∧ ChangesOnly [.rg, .se, .ft] s t ∧ Shows t kd kp 1 ∧
        recOf t k = some { r with reqs := r.reqs.map (fun y => if here y then { y with stalled := true } else y), wait := some (td, tn) })) ∧
    (let lost := r.home = none ∧ gXpkg s r.group = true ∧ r.fails = [] ∧ stepOverdue s k r = true;
      (¬ lost → exec (.seamLinkLost die eng x) s = .next s) ∧
      (lost → ∃ t, exec (.seamLinkLost die eng x) s = .next t ∧ ChangesOnly [.nt, .se] s t ∧ recOf t k = some { r with fails := [(0x51, 0)] } ∧
        (gNext s r.group ≠ pkgNo s → ∃ y ∈ injQ t (ikey kd (physTile s kd (engTile kd (keyEng k))) (engPort kd) (planeOf .ctrl)),
          y.pkt.opcode = 0x28 ∧ y.pkt.dest = engAddr (gNext s r.group) kd (keyEng k) 0)))) ∧
  (∀ (s : State) (m : Master) (die page : Nat) (v : Word) (i : PageInfo) (row : RegRow), Writes s m die page 0x114 v i row → i.kind = .seam0 →
    let k := seamKey die ((page - 0x600) / 16) (wbits v 7 0)
    (v.toNat.testBit 31 = false → exec (.seamAbortCmd m die page v) s = .next (emit (.regDone m 0 0) s)) ∧
    (v.toNat.testBit 31 = true → ∀ r, recOf s k = some r →
      let h := match r.home with
        | some q => keyOf q
        | none => k
      ∃ t, exec (.seamAbortCmd m die page v) s = .next t ∧ ChangesOnly [.se, .out] s t ∧
        (∀ y, recOf s h = some y → recOf t h = some { y with fails := y.fails ++ [(0x4D, 0)] }) ∧ ∀ k', k' ≠ h → recOf t k' = recOf s k'))

/-- O52. CHECKPOINT_CMD with GO makes a CHECKPOINT entry with LABEL due to its context's chain; without GO it does nothing. LOG_REC at a
disabled port leaves it as it is; one that fits extends the datagram, one that does not, or whose RESENT differs, closes it first.
DATAGRAM_CLOSE with nothing held, or no link, changes nothing; else one frame leaves with the oldest records of one RESENT within 8,952
bytes and DSEQ moves on. GAP_RECORD once room has returned puts the first LSEQ and the count of the lost records in the log. A frame
received is counted and discarded; STO_LINK_DOWN raises STO_LINK_DOWN and counts; STO_PCS_LINK_UP sets the link. (R403, R409, R410, R411,
R412, R451, R453.) -/
def Obligations.LogRecordsReachStorage : Prop :=
  (∀ (s : State) (m : Master) (die page : Nat) (v : Word) (i : PageInfo) (row : RegRow), Writes s m die page 0x158 v i row → i.kind = .tly0 →
    let c := 16 * wbits v 6 0 + memNo die
    (v.toNat.testBit 31 = false → exec (.checkpointCmd m die page v) s = .next (emit (.regDone m 0 0) s)) ∧
    (v.toNat.testBit 31 = true → ∃ t, exec (.checkpointCmd m die page v) s = .next t ∧ ChangesOnly [.ty, .out] s t ∧
      (chainOf? s c = none → t.ty = s.ty) ∧ ∀ x, chainOf? s c = some x → ∃ e : TEntry, chainOf? t c = some { x with due := x.due ++ [e] } ∧
        e.kind = 4 ∧ e.digest = List.replicate 32 0 ∧ e.press = pressOf s die ∧
        e.ident = leBytes 2 c ++ [0, 0, 4, 0, 0, 0] ++ leBytes 8 (reg64 s die 0x690 0x150).toNat)) ∧
  (∀ (s : State) (n : Nat) (b : List Byte), let xs := (stoOf s n).filling
    let again := isResent s b
    let fits := fillBytes xs + b.length ≤ 8952 ∧ ∀ x ∈ xs, x.1 = again
    ∃ t, exec (.logRec n b) s = .next t ∧ ChangesOnly [.rg, .nt, .ty, .lk, .out] s t ∧
      (wbits (stoReg s n 0x100) 0 0 = 0 → t.lk = s.lk ∧ t.out = s.out) ∧
      (wbits (stoReg s n 0x100) 0 0 = 1 → (stoOf t n).filling.getLast? = some (again, b) ∧
        (fits → (stoOf t n).filling = xs ++ [(again, b)] ∧ t.out = s.out) ∧
        (¬ fits → stoSends s n = true → xs ≠ [] → (∃ f, t.out = s.out ++ [.datagram n f]) ∧ (stoOf t n).dseq = (stoOf s n).dseq + 1))) ∧
  (∀ (s : State) (n : Nat), let p := stoOf s n
    (p.filling = [] ∨ stoSends s n = false → exec (.datagramClose n) s = .next s) ∧
    (∀ x xs, p.filling = x :: xs → stoSends s n = true → ∃ t ys rest, exec (.datagramClose n) s = .next t ∧
      ChangesOnly [.rg, .ty, .lk, .out] s t ∧ x :: xs = ys ++ rest ∧ (∀ y ∈ ys, y.1 = x.1) ∧ (ys.map fun y => y.2.length).sum ≤ 8928 ∧
      (∀ z zs, rest = z :: zs → z.1 ≠ x.1 ∨ 8928 < (ys.map fun y => y.2.length).sum + z.2.length) ∧
      stoOf t n = { p with filling := rest, dseq := p.dseq + 1 } ∧
      t.out = s.out ++ [.datagram n (stoFrame s n (dgramHeader s n x.1 ys.length ++ ys.flatMap (·.2)))] ∧
      countOf t (stoDie n) 0x719 0 = countOf s (stoDie n) 0x719 0 + 1)) ∧
  (∀ (s : State) (c : Nat), let die := tallyDie c
    let lost (s : State) := look? (unitTly s die).lost c
    ∀ x f k, chainOf? s c = some x → lost s = some (f, k) → s.pr.following = false →
      ∃ t, exec (.gapRecord die c) s = .next t ∧ ChangesOnly [.rg, .nt, .ty] s t ∧
        (logFits s die 48 = false → lost t = some (f, k)) ∧
        (logFits s die 48 = true → lost t = none ∧ (∃ x', chainOf? t c = some x' ∧ x'.lseq = x.lseq + 1) ∧
          ∃ r ∈ (unitTly t die).buf ++ (unitTly t die).flight, r.bytes.drop 32 = leBytes 8 f ++ leBytes 8 k ∧ r.ctx = c)) ∧
  (∀ (s : State) (n : Nat),
    (∃ t, exec (.storageFrameReceived n) s = .next t ∧ ChangesOnly [.rg] s t ∧
      countOf t (stoDie n) 0x719 2 = countOf s (stoDie n) 0x719 2 + 1) ∧
    (∃ t, exec (.stoLinkDown n) s = .next t ∧ ChangesOnly [.rg, .lk, .ft] s t ∧ Shows t (stoDie n) 0x719 0 ∧
      stoOf t n = { stoOf s n with link := false } ∧ countOf t (stoDie n) 0x719 3 = countOf s (stoDie n) 0x719 3 + 1) ∧
    (∃ t, exec (.stoPcsLinkUp n) s = .next t ∧ ChangesOnly [.rg, .nt, .ty, .lk] s t ∧ stoOf t n = { stoOf s n with link := true } ∧
      ((∀ d ∈ memDies, (unitTly s d).buf = []) → ChangesOnly [.lk] s t)))

/-- O53. PAIR_DELTA is kept once by a following mirror and ignored by any other package. PAIR_ACK at a primary with its mirror counts, notes
its delta and ends the run of Presses without one. HELD_EVENT_APPLY of an event whose work is ready takes it from the held ones and applies
it: a seam completes, a peg releases, a deactivation becomes due; else nothing changes. PAIR_LAG_LIMIT of an event held the limit raises
PAIR_DIVERGE once for it, and the first divergence is recorded. PAIR_PRIMARY_LOST at the third miss in a row and PAIR_MIRROR_LOST at the
third Press without an acknowledgement raise their faults once; the package then runs unpaired. (R389, R413, R414, R415, R416, R417, R418.)
-/
def Obligations.PairsFollowAndNoticeLosses : Prop :=
  (∀ (s : State) (p : Packet), let f : PairFrag := ⟨p.operand.toNat, p.sseq.toNat, p.srcDie, p.flags.toNat.testBit 0, p.payload⟩
    (s.pr.following = false ∨ f ∈ s.pr.frags → exec (.pairDelta p) s = .next (consume p.srcDie 0 p s)) ∧
    (s.pr.following = true → f ∉ s.pr.frags → ∃ t, exec (.pairDelta p) s = .next t ∧ ChangesOnly [.nt, .pr] s t ∧
      t.nt = (consume p.srcDie 0 p s).nt ∧ t.pr = { s.pr with frags := s.pr.frags ++ [f] })) ∧
  (∀ (s : State) (q : Nat) (p : Packet), (isPrimary s = false → exec (.pairAck q p) s = .next (consume (portDie q) 0 p s)) ∧
    (isPrimary s = true → ∃ t, exec (.pairAck q p) s = .next t ∧ ChangesOnly [.rg, .nt, .pr] s t ∧ t.nt = (consume (portDie q) 0 p s).nt ∧
      t.pr = { s.pr with acked := true, ackMisses := 0, last := field p.payload 0 8 } ∧ countOf t 0 0x722 1 = countOf s 0 0x722 1 + 1)) ∧
  (∀ (s : State) (i : Nat) (e : DeltaEvent), let b := e.bytes
    (s.pr.held[i]? = none → exec (.heldEventApply i) s = .next s ∧ exec (.pairLagLimit i) s = .next s) ∧
    (s.pr.held[i]? = some e →
      (s.pr.following = false ∨ evReady s b = false ∨ evType b = 5 → exec (.heldEventApply i) s = .next s) ∧
      (s.pr.following = true → evReady s b = true → evType b ≠ 5 → ∃ t, exec (.heldEventApply i) s = .next t ∧
        t.pr.held = s.pr.held.eraseIdx i ∧
        (evType b = 1 → field b 4 1 = 0 → t.rs.dueResets = s.rs.dueResets ++ [field b 2 2 % 2048]) ∧
        (evType b = 3 → ∀ k, findRec s (evGroup b) (evGseq b) = some k → recOf t k = none) ∧
        (evType b = 4 → let x := pegOf s (evPegAt b).1 (evPegAt b).2
          ((x.gen + 1).toNat = field b 8 4 → (pegOf t (evPegAt b).1 (evPegAt b).2).gen = x.gen + 1) ∧
          ((x.gen + 1).toNat ≠ field b 8 4 → t.pg = s.pg ∧ Shows t 0 0x722 0 ∧ t.pr.divCount = s.pr.divCount + 1))) ∧
      let due := s.pr.following = true ∧ e.lagged = false ∧ evType b ≠ 5 ∧ e.due + lagLimit s ≤ waitPress s (refDie s)
      (¬ due → exec (.pairLagLimit i) s = .next s) ∧
      (due → ∃ t, exec (.pairLagLimit i) s = .next t ∧ ChangesOnly [.rg, .pr, .ft] s t ∧ Shows t 0 0x722 0 ∧
        t.pr.held = s.pr.held.set i { e with lagged := true } ∧ t.pr.divCount = s.pr.divCount + 1 ∧ t.pr.divValid = true ∧
        (s.pr.divValid = false → t.pr.divCause = (if evType b = 2 then 2 else 3) ∧ t.pr.divPress = e.n) ∧
        (s.pr.divValid = true → t.pr.divCause = s.pr.divCause ∧ t.pr.divCtx = s.pr.divCtx ∧ t.pr.divPress = s.pr.divPress)))) ∧
  (∀ (s : State), let up := s.pr.following = true ∧ 3 ≤ s.pr.misses ∧ s.pr.primaryLost = false
    let down := isPrimary s = true ∧ 3 ≤ s.pr.ackMisses
    (¬ up → exec .pairPrimaryLost s = .next s) ∧
    (up → ∃ t, exec .pairPrimaryLost s = .next t ∧ Shows t 0 0x722 1 ∧ t.pr = { s.pr with primaryLost := true }) ∧
    (¬ down → exec .pairMirrorLost s = .next s) ∧
    (down → ∃ t, exec .pairMirrorLost s = .next t ∧ Shows t 0 0x722 2 ∧ isPrimary t = false ∧
      t.pr = { s.pr with mirrorLost := true, pendingDelta := [], events := [] }))

/-- O54. A group sent reads back its number, symbol and slots under right CRCs; a symbol goes out with its frame's number, kept for replay.
A group or course at a link not UP, or at an off-package port in the safe state, changes nothing. A damaged one is counted and NAKed, at
level 2 alone; the next in order puts its packets on the wire, those for a memory-side die's engine to the engine, a mirror port's to the
pair unit, takes its symbol's effect and is acknowledged, if it has contents (log 128); a repeated one is acknowledged again; one ahead of
the next is kept at level 2, else NAKed once and then discarded. ACK releases what it acknowledges. NAK replays what it names, after an
activation pause where one runs; more of one number than the limit raises the replay fault and retrains. LINK_LOSS of a link that has not
retrained in time marks it lost, empties it and counts, and raises PORT_LOST on a Sundi port. (R427, R428, R429, R431, R432, R434, R438,
R441, R443, R448.) -/
def Obligations.GroupsAndCoursesArriveInOrder : Prop :=
  (∀ (f : TxFrame), f.slots.length ≤ 8 → (∀ x ∈ f.slots, x.valid = true) → let xs := groupOf f.slots (controlBits f.seq f.sym)
    groupOk xs = true ∧ groupSlots xs = f.slots ∧ bits (groupControl xs) 127 112 = f.seq % 65536 ∧
      groupControl xs % 2 ^ 112 = f.sym % 2 ^ 112) ∧
  (∀ (s : State) (die link typ body : Nat), let l := linkOf s die link
    let f : TxFrame := { seq := (l.txSeq + 1) % 65536, sym := typ * 2 ^ 108 + body % 2 ^ 108 }
    let t := sendSym die link typ body s
    (maySend s die link typ = false → t = s) ∧
    (maySend s die link typ = true → (l.st ≠ .up → t = emit (.linkSym die link 0 typ (body % 2 ^ 108)) s) ∧
      (l.st = .up → ChangesOnly [.lk, .out] s t ∧ t.out = s.out ++ [.linkSym die link f.seq typ (body % 2 ^ 108)] ∧
        linkOf t die link = { l with txSeq := f.seq, replay := (l.replay ++ [f]).drop (l.replay.length + 1 - replayMax link) }))) ∧
  (∀ (s : State) (die link : Nat) (f : TxFrame) (ok : Bool) (c : Instr),
    (∃ b m c0 c1 c2 c3, c = .bridgeGroup die b m c0 c1 c2 c3 ∧ link = 4 * b + m ∧ m < 4 ∧ b < 4 ∧ let xs := [c0, c1, c2, c3]
      ok = groupOk xs ∧ f = { seq := bits (groupControl xs) 127 112, sym := groupControl xs % 2 ^ 112, slots := groupSlots xs }) ∨
      (∃ port seq us sym, c = .course port seq ok us sym ∧ die = portDie port ∧ link = 16 + port % 6 ∧
        f = { seq := seq % 65536, sym := sym % 2 ^ 112, units := us }) →
    let l := linkOf s die link
    let next := (l.rxSeq + 1) % 65536
    let old := f.seq ≠ next ∧ (next + 65536 - f.seq) % 65536 < 32768
    let far := f.seq ≠ next ∧ 32768 ≤ (next + 65536 - f.seq) % 65536
    let sel := link ≥ 16 ∧ 2 ≤ l.level
    let live := isLink die link = true ∧ l.st = .up ∧ (link < 16 ∨ isSafe s die = false)
    let bad := ok = false ∨ (16 ≤ link ∧ f.seq = next ∧ courseReads l f.units = none)
    let whole := if link < 16
      then (f.slots.foldl (fun (a : List RxPart × List Packet) x => let r := takeFlit x a.1; (r.1, a.2 ++ r.2.toList)) (l.parts, [])).2
      else (courseReads l f.units).elim [] (·.1)
    let ps := if l.peerSafe = true ∨ isSafe s die = true then whole.filter fun p => decide (p.cls = .mgmt) else whole
    let engine (p : Packet) := decide (link < 16) && decide (p.cls = .reduce) && decide (dieType die = .memside) &&
      decide (aPkg p.dest = pkgNo s) && decide (aDie p.dest = die) && decide (aRegion p.dest = 1) && decide (aPort p.dest = 9)
    let mirror := isMirrorLink s die link = true
    (¬ live → exec c s = .next s) ∧
    (live → bad → ∃ u, exec c s = .next (sendSym die link 4 (if sel then 2 ^ 16 + f.seq else next) u) ∧ ChangesOnly [.rg, .lk] s u ∧
      linkOf u die link = { l with waitingReplay := true }) ∧
    (live → ¬ bad → f.seq = next → l.ahead = [] → ∃ u, (linkOf u die link).rxSeq = f.seq ∧ (let v := applySym die link f.sym u
        let w := modLink die link (fun l => { l with waitingReplay := decide (l.ahead ≠ []) }) v
        exec c s = .next (if f.slots = [] ∧ f.units.all unitIdle = true then w else sendSym die link 3 (linkOf w die link).rxSeq w)) ∧
      (¬ mirror → u.nt.wires.map (·.pkt) = s.nt.wires.map (·.pkt) ++ ps.filter (fun p => !engine p) ∧
        u.nt.delivered.map (·.pkt) = s.nt.delivered.map (·.pkt) ++ ps.filter engine) ∧
      (mirror → u.nt.wires = s.nt.wires ∧ u.nt.delivered.map (·.pkt) = s.nt.delivered.map (·.pkt) ++
        ps.filter fun p => decide (p.opcode = 0x61 ∨ p.opcode = 0x62))) ∧
    (live → ¬ bad → old → exec c s = .next (sendSym die link 3 l.rxSeq s)) ∧
    (live → ¬ bad → far → sel → ∃ u, exec c s = .next (applySym die link f.sym u) ∧ ChangesOnly [.lk] s u ∧ linkOf u die link =
      { l with ahead := if l.ahead.any (fun e => decide (e.1 = f.seq)) then l.ahead else l.ahead ++ [(f.seq, f.units)] }) ∧
    (live → ¬ bad → far → ¬ sel → (l.waitingReplay = true → exec c s = .next s) ∧
      (l.waitingReplay = false → ∃ u, exec c s = .next (sendSym die link 4 next u) ∧ ChangesOnly [.lk] s u ∧
        linkOf u die link = { l with waitingReplay := true }))) ∧
  (∀ (s : State) (die link seq : Nat) (one : Bool), let l := linkOf s die link
    let live := isLink die link = true ∧ l.st = .up ∧ (link < 16 ∨ isSafe s die = false)
    let k := if l.nakSeq = seq ∧ 0 < l.nakCount then l.nakCount + 1 else 1
    let limit := retryLimit s die link
    let after (e : TxFrame) := decide ((e.seq + 65536 - seq) % 65536 < 32768)
    let alone := one && decide (2 ≤ l.level) && decide (16 ≤ link)
    let fs := l.replay.filter fun e => if alone then decide (e.seq = seq) else after e
    let noted := { l with nakSeq := seq, nakCount := k }
    (∃ t, exec (.ack die link seq) s = .next t ∧ ChangesOnly [.lk] s t ∧
      linkOf t die link = { l with nakCount := 0, replay := l.replay.filter fun e => decide (e.seq ≠ seq) && after e }) ∧
    (¬ live → exec (.nak die link seq one) s = .next s) ∧
    (live → s.fw.inPause = true → ∃ t, exec (.nak die link seq one) s = .next t ∧ ChangesOnly [.lk] s t ∧
      linkOf t die link = { noted with replayDue := some (seq, alone) }) ∧
    (live → s.fw.inPause = false → k ≤ limit → ∃ u, exec (.nak die link seq one) s = .next (replaySend die link fs u) ∧
      ChangesOnly [.rg, .lk] s u ∧ linkOf u die link = noted) ∧
    (live → s.fw.inPause = false → limit < k → ∃ t, exec (.nak die link seq one) s = .next t ∧
      Shows t die (linkPage link) (if link < 16 then 2 else 6) ∧
      (linkEnabled s die link = true → notInService s die = false → (link < 16 ∨ l.peerSafe = false) →
        (linkOf t die link).st = .training ∧ (linkOf t die link).replay = l.replay))) ∧
  (∀ (s : State) (die link : Nat), let l := linkOf s die link
    let late := isLink die link = true ∧ l.lost = false ∧ isSafe s die = false ∧ s.fw.inPause = false ∧
      (l.st = .training ∨ l.st = .hold ∨ (l.st = .off ∧ (link < 16 ∨ (expectOf s (linkPort die link)).isSome = true))) ∧
      l.since + retrainWait s die link + 1 ≤ waitPress s die
    (¬ late → exec (.linkLoss die link) s = .next s) ∧
    (late → ∃ t, exec (.linkLoss die link) s = .next t ∧ ChangesOnly [.rg, .nt, .lk, .ft] s t ∧
      linkOf t die link = { l with lost := true, replay := [], ahead := [], parts := [], rxUnits := [], replayDue := none } ∧
      (16 ≤ link → Shows t die (linkPage link) 7)))

/-- O55. A module that trained sends its identity and, its peer's having come, comes UP with the peer of its bridge and goes to HOLD with
another; a failed training, or spares above the limits, raises its fault and changes no state. A Sundi port goes on step by step, its LASER
step only with the engine powered; after LANES it sends its identity in eight fragments and an ECHO; with a latency within 156 cycles it is
checked: HOLD with the cause of the first check that fails, READY without a plan, else UP. IDENT fragment 0 tells a module its peer; a port
keeps fragments until eight are there. A request ECHO is answered; a reply gives a latency no longer than half the round trip, the peer's
turnaround being a free value (log 52). A write of RETRAIN retrains, of ENABLE 0 turns the link off. FEC_WINDOW_END counts and raises FEC
over its threshold. In the safe state and in an activation pause links keep their training state. (R428, R429, R433, R441, R442, R443, R444,
R445, R446, R490.) -/
def Obligations.LinksTrainAndLearnTheirPeer : Prop :=
  (∀ (s : State) (die b m : Nat) (r : TrainResult), m < 4 → b < 4 → let k := 4 * b + m
    let l := linkOf s die k
    let live := l.st = .training ∧ isSafe s die = false ∧ s.fw.inPause = false
    let good := r.ok = true ∧ r.spares ≤ 4 ∧ r.companion ≤ 1
    let peer := l.peerDie = bridgePeer die b ∧ l.peerDir = bridgeBack b
    (¬ live → exec (.moduleTrainingDone die b m r) s = .next s ∧ exec (.dbrTrainFail die b m) s = .next s) ∧
    (live → (∃ t, exec (.dbrTrainFail die b m) s = .next t ∧ Shows t die (0x10 + k) 1 ∧ t.lk = s.lk) ∧
      (¬ good → ∃ t, exec (.moduleTrainingDone die b m r) s = .next t ∧ Shows t die (0x10 + k) 1 ∧ t.lk = s.lk) ∧
      (good → ∃ t, exec (.moduleTrainingDone die b m r) s = .next t ∧ (linkOf t die k).spares = r.spares ∧
        (l.identSeen = false → (linkOf t die k).st = .training ∧ (linkOf t die k).step = 3) ∧
        (l.identSeen = true → peer → (linkOf t die k).st = .up ∧ (linkOf t die k).cause = 0) ∧
        (l.identSeen = true → ¬ peer → (linkOf t die k).st = .hold ∧ (linkOf t die k).cause = 0x78 ∧ Shows t die (0x10 + k) 0)))) ∧
  (∀ (s : State) (port : Nat) (r : TrainResult), let die := portDie port
    let k := 16 + port % 6
    let l := linkOf s die k
    let p := linkPage k
    let live := isSundi die k = true ∧ l.st = .training ∧ isSafe s die = false ∧ s.fw.inPause = false
    let step := live ∧ 1 ≤ l.step ∧ l.step ≤ 5 ∧ (l.step = 1 → (engineOf s die (port % 6 / 2)).st = 2)
    let good := r.ok = true ∧ (l.step = 3 → r.spares ≤ 2)
    (¬ live → exec (.lnkTrainFail port) s = .next s) ∧
    (live → ∃ t, exec (.lnkTrainFail port) s = .next t ∧ Shows t die p 4 ∧ t.lk = s.lk) ∧
    (¬ step → exec (.sundiTrainingStepDone port r) s = .next s) ∧
    (step → ¬ good → ∃ t, exec (.sundiTrainingStepDone port r) s = .next t ∧ Shows t die p 4 ∧ t.lk = s.lk) ∧
    (step → good → l.step < 4 → ∃ t, exec (.sundiTrainingStepDone port r) s = .next t ∧ ChangesOnly [.lk] s t ∧
      (linkOf t die k).step = l.step + 1 ∧ (linkOf t die k).st = .training) ∧
    (step → good → l.step = 4 → ∃ t, exec (.sundiTrainingStepDone port r) s = .next t ∧ ChangesOnly [.lk, .out] s t ∧
      (linkOf t die k).step = 5 ∧ ∃ o, t.out = s.out ++ o ∧ o.length = 9) ∧
    (step → good → l.step = 5 → ∃ t, exec (.sundiTrainingStepDone port r) s = .next t ∧ (linkOf t die k).lat = r.latency ∧
      (156 < r.latency → Shows t die p 4 ∧ (linkOf t die k).st = .training) ∧
      (r.latency ≤ 156 → let x := l.seen
        (levelOf s x = none → (linkOf t die k).st = .hold ∧ (linkOf t die k).cause = 0x72 ∧ Shows t die p 2) ∧
        (∀ lv, levelOf s x = some lv → (linkOf t die k).level = lv ∧
          (planEpoch s = 0 → (linkOf t die k).st = .ready) ∧
          (planEpoch s ≠ 0 → expectOf s (linkPort die k) = none → (linkOf t die k).st = .hold ∧ (linkOf t die k).cause = 0x73) ∧
          (planEpoch s ≠ 0 → ∀ e, expectOf s (linkPort die k) = some e →
            (seenRight s (linkPort die k) x e = false → (linkOf t die k).st = .hold ∧ (linkOf t die k).cause = 0x70) ∧
            (seenRight s (linkPort die k) x e = true → slice x 0x20 32 ≠ planHash s →
              (linkOf t die k).st = .hold ∧ (linkOf t die k).cause = 0x71) ∧
            (seenRight s (linkPort die k) x e = true → slice x 0x20 32 = planHash s → (linkOf t die k).st = .up)))))) ∧
  (∀ (s : State) (die k i : Nat) (bytes : List Byte) (count : Word), let l := linkOf s die k
    (∃ t, exec (.trainingRetry die k) s = .next t ∧ ChangesOnly [.lk] s t ∧ linkOf t die k =
      if isLink die k = true ∧ (l.st = .training ∨ (k < 16 ∧ l.st = .hold ∧ l.lost = false ∧ l.replay ≠ [])) ∧ linkEnabled s die k = true ∧
        s.fw.inPause = false then { l with st := .training, step := (if k < 16 then 0 else 1), identSeen := false } else l) ∧
    (isSafe s die = true → exec (.ident die k i bytes) s = .next s ∧ ∀ r, exec (.echo die k r count) s = .next s) ∧
    (isSafe s die = false → isLink die k = true →
      exec (.echo die k false count) s = .next (sendSym die k 8 (count.toNat * 2 ^ 16 + 1) s) ∧
      (∃ t turn, exec (.echo die k true count) s = .next t ∧ t.fresh = s.fresh + 1 ∧
        let trip := (s.tm.fclk + 2 ^ 32 - count.toNat) % 2 ^ 32
        turn ≤ trip ∧ linkOf t die k = { l with lat := (trip - turn) * 5 / 128 }) ∧
      (k < 16 → i ≠ 0 ∨ s.fw.inPause = true → exec (.ident die k i bytes) s = .next s) ∧
      (k < 16 → i = 0 → s.fw.inPause = false → let pd := (byteAt bytes 0).toNat % 64
        let pb := (byteAt bytes 1).toNat % 4
        let waits := l.st = .training ∧ l.step = 3
        let right := pd = bridgePeer die (k / 4) ∧ pb = bridgeBack (k / 4)
        ∃ t, exec (.ident die k i bytes) s = .next t ∧
          (¬ waits → ChangesOnly [.lk] s t ∧ linkOf t die k = { l with peerDie := pd, peerDir := pb, identSeen := true }) ∧
          (waits → right → (linkOf t die k).st = .up) ∧
          (waits → ¬ right → (linkOf t die k).st = .hold ∧ (linkOf t die k).cause = 0x78 ∧ Shows t die (0x10 + k) 0)) ∧
      (16 ≤ k → let f := ins l.frame (i % 8) (padTo 8 bytes)
        ∃ t, exec (.ident die k i bytes) s = .next t ∧ ChangesOnly [.rg, .lk] s t ∧
          (f.length < 8 → linkOf t die k = { l with frame := f }) ∧
          (8 ≤ f.length → (linkOf t die k).frame = [] ∧ (linkOf t die k).seen = f.flatMap (·.2) ∧
            (l.st = .hold → l.peerSafe = true → (linkOf t die k).peerSafe = false ∧ (linkEnabled s die k = true → s.fw.inPause = false →
              notInService s die = false → (linkOf t die k).st = .training)))))) ∧
  (∀ (s : State) (port n : Nat), let die := portDie port
    let k := 16 + port % 6
    isSundi die k = true → ∃ t, exec (.fecWindowEnd port n) s = .next t ∧ ChangesOnly [.rg, .ft] s t ∧
      countOf t die (cntPage k) 2 = countOf s die (cntPage k) 2 + w64 n ∧
      ((reg s die (cntPage k) (if (engineOf s die (port % 6 / 2)).eol then 0x108 else 0x104)).toNat < n → Shows t die (linkPage k) 5)) ∧
  (∀ (s : State) (m : Master) (die page : Nat) (v : Word) (i : PageInfo) (row : RegRow), Writes s m die page 0x100 v i row →
    ∀ c k, (c = .dbrRetrain m die page v ∧ i.kind = .dbr ∧ k = page - 0x10 ∧ page < 0x20) ∨
        (c = .lnkRetrain m die page v ∧ i.kind = .lnk0 ∧ k = 16 + (page - 0x700) / 2 ∧ 0x20 ≤ page) → isLink die k = true →
      let l := linkOf s die k
      ∃ t, exec c s = .next t ∧ ChangesOnly [.rg, .lk, .out] s t ∧ reg t die page 0x100 = v &&& 0xFFFF01 ∧
        (v.toNat.testBit 0 = false → linkOf t die k = { l with st := .off, step := 0, cause := 0, since := if l.st = .off then l.since else waitPress s die }) ∧
        (v.toNat.testBit 0 = true → v.toNat.testBit 1 = true → isSafe s die = false → s.fw.inPause = false →
          notInService s die = false → (k < 16 ∨ l.peerSafe = false) → (linkOf t die k).st = .training ∧
          (linkOf t die k).replay = l.replay) ∧
        (v.toNat.testBit 0 = true → isSafe s die = true → linkOf t die k = l))

/-- O56. MRd and MWr of a host adapter that is disabled change nothing (log 6); a read behind an unanswered write waits; BAR0 is a register
access, completed or recorded in LAST_ERR; BAR2 reads or writes a word of the MSI-X table, and a pending message goes out when its vector is
unmasked (model's choice, log 30); BAR4 becomes a READ or WRITE of one granule of HOST_CTX from tile 5, or fails with its address's status;
another BAR or type of TLP is completed with UR or counted. Link loss, FLR and hot reset discard what the adapter waits for.
OPT_MODULE_DETECT powers a listed module and holds an unlisted one off; a laser hour counts, ages and every 16th is stored; a sample sets
the ports' power, the third low one in a row holds the port, the third failed transaction in a row switches the laser off. OPT_RESCAN
switches and reads the module again. (R40, R454, R455, R456, R457, R459, R460, R461, R462, R463, R464.) -/
def Obligations.HostRequestsAndLasers : Prop :=
  (∀ (s : State) (h tag : Nat) (p : Tlp) (b : Bool), masterOn s (.host h) = false →
    exec (.mrd h p) s = .next s ∧ exec (.mwr h p) s = .next s ∧ exec (.unsupportedTlp h tag b) s = .next s) ∧
  (∀ (s : State) (h tag : Nat) (p : Tlp) (b : Bool), masterOn s (.host h) = true → p.bar ≠ 0 → p.bar ≠ 2 → p.bar ≠ 4 → ∀ c g np,
    (c = .unsupportedTlp h tag b ∧ g = tag ∧ np = b) ∨ (c = .mrd h p ∧ g = p.tag ∧ np = true) ∨ (c = .mwr h p ∧ g = p.tag ∧ np = false) →
      ∃ t, exec c s = .next t ∧ ChangesOnly [.rg, .out] s t ∧ countOf t (hostDie h) 0x718 0 = countOf s (hostDie h) 0x718 0 + 1 ∧
        (np = true → t.out = s.out ++ [.tlp h g 1 []] ∧ countOf t (hostDie h) 0x718 1 = countOf s (hostDie h) 0x718 1 + 1) ∧
        (np = false → t.out = s.out ∧ countOf t (hostDie h) 0x718 5 = countOf s (hostDie h) 0x718 5 + 1)) ∧
  (∀ (s : State) (h : Nat) (p : Tlp) (we : Bool), masterOn s (.host h) = true → p.bar = 0 ∨ p.bar = 2 ∨ p.bar = 4 →
    let c : Instr := if we then .mwr h p else .mrd h p
    let x := hostOf s h
    let w := x.waiting ++ [(we, p)]
    (∀ y r, w = (false, y) :: r → writesOut x = true →
      ∃ t, exec c s = .next t ∧ ChangesOnly [.rg, .hs] s t ∧ hostOf t h = { x with waiting := w }) ∧
    (x.waiting = [] → we = true ∨ writesOut x = false →
      ∃ u, ChangesOnly [.rg, .hs] s u ∧ (∀ y, hostOf u y = hostOf s y) ∧ (∀ d g o k, reg u d g o k = reg s d g o k) ∧
        countOf u (hostDie h) 0x718 0 = countOf s (hostDie h) 0x718 0 + 1 ∧
        (p.bar = 0 → we = false → let r := regRead (hostAcc s h p) u
          (r.1 = 0 → exec c s = .next (emit (.tlp h p.tag 0 (leBytes 4 r.2.1.toNat)) r.2.2)) ∧
          (r.1 ≠ 0 → exec c s = .next (emit (.tlp h p.tag (tlpStatus r.1) []) (hostCount h (tlpStatus r.1) u)))) ∧
        (p.bar = 0 → we = true → let r := regWrite (hostAcc s h p) u
          (r.1 = 0 → (hostOf r.2 h).waiting = [] → exec c s = .next r.2) ∧
          (r.1 ≠ 0 → ∃ t, exec c s = .next t ∧ t.out = s.out ∧ hostOf t h = { x with errValid := true, errCode := BitVec.ofNat 8 r.1, errAddr := w64 p.offset })) ∧
        (p.bar = 2 → p.length = 4 → we = false →
          exec c s = .next (emit (.tlp h p.tag 0 (leBytes 4 (msixRead s h (p.offset / 4 * 4)).toNat)) u)) ∧
        (p.bar = 2 → p.length = 4 → we = true → let k := p.offset / 4
          (128 ≤ k → exec c s = .next u) ∧
          (k < 128 → ∃ t, exec c s = .next t ∧ msixWord t h k = w32 (ofLe (p.data.take 4)) ∧ (∀ j, j ≠ k → msixWord t h j = msixWord s h j) ∧
            let sends := x.pendingBits.toNat.testBit (k / 4) = true ∧ msixMasked t h (k / 4) = false
            t.out = s.out ++ (if sends then [.msix h (k / 4) (pair64 (msixWord t h (k / 4 * 4)) (msixWord t h (k / 4 * 4 + 1)))
              (msixWord t h (k / 4 * 4 + 2))] else []))) ∧
        (p.bar = 4 → p.length ≠ 0 → let a := apertureAddr s h p.offset
          let n := inThisGranule a p.length
          let code := addrStatus s (hostDie h) 5 (hostCtx s h) a
          (we = true → p.length ≤ n) →
          (code ≠ 0 → ∃ t, exec c s = .next t ∧ t.nt = s.nt ∧
            (we = false → t.out = s.out ++ [.tlp h p.tag (tlpStatus code) []]) ∧
            (we = true → hostOf t h = { x with errValid := true, errCode := BitVec.ofNat 8 code, errAddr := w64 (p.offset + 2 ^ 63) })) ∧
          (code = 0 → ∃ t, exec c s = .next t ∧ t.out = s.out ∧
            Sent s t (hostDie h) 5 10 (hostPacket s h we x.sseq a n (if we then padTo p.length p.data else [])) ∧
            let r : HostReq := { sseq := x.sseq, tag := p.tag, we := we, offset := p.offset, left := p.length }
            hostOf t h = { x with sseq := x.sseq + 1, sent := x.sent ++ [r] })))) ∧
  (∀ (s : State) (h : Nat), (4 ≤ h → ∀ c ∈ [Instr.hstLinkDown h, .hstFlr h, .hstHotReset h], exec c s = .next s) ∧
    (h < 4 → ∀ c ∈ [Instr.hstLinkDown h, .hstFlr h, .hstHotReset h], ∃ t, exec c s = .next t ∧
      hostOf t h = (let x := hostOf s h
        { x with waiting := [], sent := [], pins := if c = .hstLinkDown h then { x.pins with linkUp := false } else { x.pins with inReset := true } }) ∧ (∀ y, y ≠ h → hostOf t y = hostOf s y) ∧
      (c = .hstLinkDown h → Shows t (hostDie h) 0x718 0 ∧ ChangesOnly [.rg, .hs, .ft] s t) ∧ (c ≠ .hstLinkDown h → ChangesOnly [.hs] s t))) ∧
  (∀ (s : State) (die g : Nat) (bytes : List Byte), (isEngine die g = false → exec (.optModuleDetect die g bytes) s = .next s) ∧
    (isEngine die g = true → let rc := padTo 32 bytes
      let sh := shadowOf s die g
      let hours := if sh.1 = moduleKey rc then max (field rc 16 4) sh.2 else field rc 16 4
      let st := if accepted s (moduleKey rc) = false then 1 else if rfld s die (optPage g) 0x100 0 0 = 1 then 2 else 3
      ∃ t, exec (.optModuleDetect die g bytes) s = .next t ∧ (engineOf t die g).st = st ∧ (engineOf t die g).record = rc ∧
        (engineOf t die g).hours = hours ∧ (engineOf t die g).wear = decide (576000 ≤ hours) ∧
        (engineOf t die g).eol = decide (640000 ≤ hours) ∧ shadowOf t die g = (moduleKey rc, hours) ∧
        (∃ o, t.out = s.out ++ .laser die g (decide (st = 2)) :: o) ∧
        (st = 1 → Shows t die (optPage g) 3 ∧ ∀ l ∈ enginePorts g, (linkOf t die l).st = .off ∧ (linkOf t die l).cause = 0x7E))) ∧
  (∀ (s : State) (die g : Nat), let e := engineOf s die g
    let on := isEngine die g = true ∧ e.st = 2
    (¬ on → exec (.laserHourTick die g) s = .next s) ∧
    (on → ∃ t, exec (.laserHourTick die g) s = .next t ∧ ChangesOnly [.rg, .op, .ft, .kp, .out] s t ∧
      (engineOf t die g).hours = e.hours + 1 ∧ (engineOf t die g).ticks = (e.ticks + 1) % 16 ∧
      shadowOf t die g = (moduleKey e.record, e.hours + 1) ∧
      t.out = s.out ++ (if e.ticks = 15 then [.moduleStore die g (e.hours + 1)] else []) ∧
      (576000 ≤ e.hours + 1 → (engineOf t die g).wear = true ∧ (e.wear = false → Shows t die (optPage g) 0)) ∧
      (640000 ≤ e.hours + 1 → (engineOf t die g).eol = true ∧ (e.eol = false → Shows t die (optPage g) 1)))) ∧
  (∀ (s : State) (die g p0 p1 : Nat), let e := engineOf s die g
    let lim := rfld s die (optPage g) 0x128 15 0
    let on := isEngine die g = true ∧ e.st ≠ 0
    (∀ b, ¬ on → exec (.powerSample die g b p0 p1) s = .next s) ∧
    (on → e.fails ≠ 2 → ∃ t, exec (.powerSample die g false p0 p1) s = .next t ∧ ChangesOnly [.op] s t ∧
      engineOf t die g = { e with fails := min 3 (e.fails + 1) }) ∧
    (on → e.fails = 2 → ∃ t, exec (.powerSample die g false p0 p1) s = .next t ∧ (engineOf t die g).st = 4 ∧ Shows t die (optPage g) 4 ∧
      t.out = s.out ++ [.laser die g false] ∧
      ∀ l ∈ enginePorts g, (linkOf s die l).st ≠ .off → (linkOf t die l).st = .hold ∧ (linkOf t die l).cause = 0x7F) ∧
    (on → ∃ t, exec (.powerSample die g true p0 p1) s = .next t ∧ (engineOf t die g).fails = 0 ∧ (engineOf t die g).p0 = p0 % 65536 ∧
      (engineOf t die g).p1 = p1 % 65536 ∧ (engineOf t die g).low0 = (if p0 % 65536 < lim then min 3 (e.low0 + 1) else 0) ∧
      (engineOf t die g).low1 = (if p1 % 65536 < lim then min 3 (e.low1 + 1) else 0) ∧
      (isSafe s die = false → e.st ≠ 1 → p0 % 65536 < lim → e.low0 = 2 →
        (linkOf t die (16 + 2 * g)).st = .hold ∧ (linkOf t die (16 + 2 * g)).cause = 0x7D ∧ Shows t die (optPage g) 2) ∧
      (isSafe s die = false → e.st ≠ 1 → p1 % 65536 < lim → e.low1 = 2 →
        (linkOf t die (17 + 2 * g)).st = .hold ∧ (linkOf t die (17 + 2 * g)).cause = 0x7D ∧ Shows t die (optPage g) 2) ∧
      (isSafe s die = false → e.st ≠ 1 → isSundi die (16 + 2 * g) = true → lim ≤ p0 % 65536 → e.good0 = 2 → linkEnabled s die (16 + 2 * g) = true →
        s.fw.inPause = false → notInService s die = false → (linkOf s die (16 + 2 * g)).peerSafe = false →
        (linkOf s die (16 + 2 * g)).st = .hold → (linkOf s die (16 + 2 * g)).cause = 0x7D → (linkOf t die (16 + 2 * g)).st = .training))) ∧
  (∀ (s : State) (m : Master) (die page : Nat) (v : Word) (i : PageInfo) (row : RegRow), Writes s m die page 0x100 v i row → i.kind = .opt →
    let e := engineOf s die i.inst
    ∃ t, exec (.optRescan m die page v) s = .next t ∧ reg t die page 0x100 = v &&& 1 ∧
      (v.toNat.testBit 1 = true → e.st ≠ 0 → let good := accepted s (moduleKey (padTo 32 e.record))
        (engineOf t die i.inst).st = if good = false then 1 else if v.toNat.testBit 0 then 2 else 3) ∧
      (v.toNat.testBit 1 = false → v.toNat.testBit 0 = false → e.st = 2 → (engineOf t die i.inst).st = 3) ∧
      (v.toNat.testBit 1 = false → v.toNat.testBit 0 = true → e.st = 3 → (engineOf t die i.inst).st = 2) ∧
      (e.st = 0 ∨ e.st = 1 ∨ e.st = 4 → v.toNat.testBit 1 = false → engineOf t die i.inst = e))

/-- O57. FAULT_RECORD_DIE with nothing raised changes nothing; else the die's records leave as MGMT packets for the root collector in the
order of their cycles, within one in ascending page and bit (a DIE action on an isolated die as recorded only), are counted, and the most
severe action is taken: SAFE puts the die into the safe state, which sends FAULT_IDLE on every link, DIE isolates it; a parity error raises
FLT_PARITY. FAULT_RECORD_ROOT with none arrived, or without a running FMC, changes nothing; else the record that arrived first is logged,
kept in Keep unless on VBAT, raises MSI-X cause 0 from NOTIFY on, resets its context from CONTEXT on, and drives ERR_N at ERR_THRESH. The
end of the pulse releases ERR_N unless held or safe. ERR_CTRL takes its fields in range. A router found dead raises TILE_DEAD with its tile.
FAULT_IDLE holds a Sundi port; on a bridge module its die enters the safe state. The layout of a record's packet is the model's choice (log
18). (R429, R466, R468, R469, R470, R471, R473, R474, R475, R476, R479, R488.) -/
def Obligations.FaultsAreCollectedAndActedOn : Prop :=
  (∀ (s : State) (die : Nat), let rs := recordOrder (s.ft.raised.filter fun r => decide (r.die = die))
    let adj (r : FaultRec) : FaultRec := if r.sev = 3 ∧ isIsolated s die = true then { r with sev := 0 } else r
    let safe := ∃ r ∈ rs, r.sev = 4
    (rs = [] → exec (.faultRecordDie die false) s = .next s) ∧
    (rs ≠ [] → ∃ t, exec (.faultRecordDie die false) s = .next t ∧ t.ft.toRoot = s.ft.toRoot ++ rs.map adj ∧
      look [] t.ft.recs die = ((rs.map adj).reverse ++ look [] s.ft.recs die).take 16 ∧
      countOf t die 1 0 = countOf s die 1 0 + w64 rs.length ∧
      countOf t die 1 3 = countOf s die 1 3 + w64 (rs.map adj |>.filter fun r => decide (r.sev > 0)).length ∧
      (isSafe t die = true ↔ isSafe s die = true ∨ (safe ∧ die < 64)) ∧
      (isIsolated t die = true ↔ isIsolated s die = true ∨ (¬ safe ∧ isSafe s die = false ∧ ∃ r ∈ rs, r.sev = 3)) ∧
      (safe → die < 64 → isSafe s die = false → ∃ o o', t.out = s.out ++ o ++ ((List.range 22).filter (isLink die)).map (fun l => let x := linkOf s die l
        .linkSym die l (if x.st = .up then (x.txSeq + 1) % 65536 else 0) 6 0) ++ o') ∧
      ((∀ r ∈ rs, r.sev < 3) → SentAll s t die 0 (collectorPort die) .mgmt (rs.map (recordPacket s die))) ∧
      (safe → s.ft.safeDies = [] → ∀ r, rs.find? (fun r => decide (r.sev = 4)) = some r → t.ft.safeCause = w32 (field (faultBytes r) 0 4))) ∧
    (die < 64 → ∃ t, exec (.faultRecordDie die true) s = .next t ∧ Shows t die 1 0 ∧
      ((pageOf s die 1).fault.toNat.testBit 0 = false → isSafe t die = true))) ∧
  (∀ s : State, (arrivedRecord s = none ∨ s.fw.running = false → exec .faultRecordRoot s = .next s) ∧
    (∀ p r, arrivedRecord s = some (p, r) → s.fw.running = true →
      ∃ t, exec .faultRecordRoot s = .next t ∧ ChangesOnly [.rg, .nt, .hs, .ft, .kp, .sv, .out] s t ∧ t.ft.toRoot = s.ft.toRoot.erase r ∧
        t.nt = (consume 0 6 p s).nt ∧
        t.ft.root = (r :: s.ft.root).take 256 ∧ t.ft.rootCount = s.ft.rootCount + 1 ∧
        (s.kp.onVbat = true → t.kp = s.kp) ∧
        (s.kp.onVbat = false → t.kp.faultNext = (s.kp.faultNext + 1) % 64 ∧ t.kp.faultTotal = s.kp.faultTotal + 1 ∧
          look? t.kp.faultRecs s.kp.faultNext = some r ∧ ∀ k, k ≠ s.kp.faultNext → look? t.kp.faultRecs k = look? s.kp.faultRecs k) ∧
        (∀ h, h < 4 → (hostOf t h).cause.getLsbD 0 = ((hostOf s h).cause.getLsbD 0 || decide (1 ≤ r.sev))) ∧
        t.ft.ctxResets = s.ft.ctxResets ++ (match r.ctx with | some c => if 2 ≤ r.sev then [c] else [] | none => []) ∧
        (errThresh s ≤ r.sev → t.ft.pulse = true ∧ t.ft.errLow = true) ∧
        (r.sev < errThresh s → t.ft.pulse = s.ft.pulse ∧ t.ft.errLow = s.ft.errLow))) ∧
  (∀ s : State, ∃ t, exec .errNPulseEnd s = .next t ∧ ChangesOnly [.ft, .out] s t ∧ t.ft.pulse = false ∧
    let keeps := errHold s = true ∨ isSafe s 0 = true ∨ s.ft.errLow = false
    (keeps → t.ft.errLow = s.ft.errLow ∧ t.out = s.out) ∧ (¬ keeps → t.ft.errLow = false ∧ t.out = s.out ++ [.errN false])) ∧
  (∀ (s : State) (m : Master) (v : Word), Commands s m 0 1 0x180 v → let old := reg s 0 1 0x180
    let p := if wbits v 7 0 < 4 then wbits old 7 0 else wbits v 7 0
    let h := if wbits v 10 8 = 0 ∨ 4 < wbits v 10 8 then wbits old 10 8 else wbits v 10 8
    ∃ t, exec (.errCtrlWrite m v) s = .next t ∧ ChangesOnly [.rg, .ft, .out] s t ∧
      reg t 0 1 0x180 = w32 (wbits v 31 31 * 2 ^ 31 + h * 2 ^ 8 + p) ∧
      (wbits v 7 0 < 4 ∨ wbits v 10 8 = 0 ∨ 4 < wbits v 10 8 → (pageOf t 0 1).bad = true) ∧
      (v.toNat.testBit 31 = true → s.fw.running = true → t.ft.errLow = true) ∧
      (v.toNat.testBit 31 = false → s.ft.pulse = false → isSafe s 0 = false → t.ft.errLow = false)) ∧
  (∀ (s : State) (die tile : Nat), let ok := die < 64 ∧ tile < nPhys die
    (¬ ok → exec (.routerPoll die tile) s = .next s) ∧
    (ok → ∃ t, exec (.routerPoll die tile) s = .next t ∧ ChangesOnly [.rg, .ft] s t ∧ Shows t die 1 1 ∧
      ((pageOf s die 1).fault.toNat.testBit 1 = false →
        ∃ r : FaultRec, t.ft.raised = s.ft.raised ++ [r] ∧ r.die = die ∧ r.page = 1 ∧ r.bit = 1 ∧ r.detail = w32 tile))) ∧
  (∀ (s : State) (die link : Nat), let l := linkOf s die link
    (isLink die link = false ∨ (link < 16 ∧ 64 ≤ die) → exec (.faultIdle die link) s = .next s) ∧
    (link < 16 → die < 64 → ∃ t, exec (.faultIdle die link) s = .next t ∧ isSafe t die = true ∧ (linkOf t die link).peerSafe = true ∧
      (linkOf t die link).st = l.st ∧ (isSafe s die = true → ChangesOnly [.lk] s t ∧ linkOf t die link = { l with peerSafe := true })) ∧
    (isSundi die link = true → ∃ t, exec (.faultIdle die link) s = .next t ∧ ChangesOnly [.lk] s t ∧
      linkOf t die link = { l with st := .hold, cause := 0, peerSafe := true, since := (linkOf t die link).since } ∧
      (l.st = .hold → (linkOf t die link).since = l.since)))

/-- O58. RESET_CMD for a die, tile or port is held in an activation pause, else answered 2 without a target, 3 in a safe package, 1 while
another runs (a DIE_RESET takes over that of its tile or port), else its part is in quiesce. A drained part is reset; at the limit it is
reset with the rest replaced, raising QUIESCE_TIMEOUT; at the end RESULT is 0. FABRIC_RESET keeps Keep, staging SRAM and the slots alone and
trains every module of the dies in service. CTX_CMD queues up to 64 commands, else BAD_WRITE. LP_CMD 1 and 2 in RUNNING with no reset
(model's choice, log 57) are refused with their CAUSE or enter at the next boundary; 3 ends LP2 at the next boundary, cancels an entry
(model's choice), and ends LP3 with a FABRIC_RESET that the FMC survives. LP1_REQ wakes the tiles whose bits are 0; CL_WAKE wakes a tile.
(R482, R483, R502, R503, R504, R505, R509, R510, R512, R513, R515, R516.) -/
def Obligations.ResetsContextsAndLowPower : Prop :=
  (∀ (s : State) (m : Master) (c : Instr) (kind die part : Nat), die < 64 → part < 256 →
    (c = .dieReset m die ∧ kind = 2 ∧ part = 0) ∨ (c = .tileReset m die part ∧ kind = 3) ∨ (c = .portReset m die part ∧ kind = 4) →
    Commands s m 0 0x723 0x100 (w32 (2 ^ 31 + (kind * 2 ^ 28 + die * 2 ^ 16 + part * 2 ^ 8))) →
    let free := s.fw.inPause = false ∧ resetTarget kind die part = true ∧ s.ft.safeDies = []
    let q : Quiesce := { kind := kind, die := die, part := part, phase := 2, since := s.tm.fclk }
    (s.fw.inPause = true → ∃ t, exec c s = .next t ∧ ChangesOnly [.rs, .out] s t ∧ t.rs = { s.rs with heldCmds := s.rs.heldCmds ++ [c] }) ∧
    (s.fw.inPause = false → resetTarget kind die part = false → ∃ t, exec c s = .next t ∧ ChangesOnly [.rs, .out] s t ∧
      t.rs = { s.rs with result := 2 }) ∧
    (s.fw.inPause = false → resetTarget kind die part = true → s.ft.safeDies ≠ [] → ∃ t, exec c s = .next t ∧
      ChangesOnly [.rs, .out] s t ∧ t.rs = { s.rs with result := 3 }) ∧
    (free → ∀ b, s.rs.busy = some b → let takes := kind = 2 ∧ b.die = die ∧ (b.kind = 3 ∨ b.kind = 4)
      (¬ takes → ∃ t, exec c s = .next t ∧ ChangesOnly [.rs, .out] s t ∧ t.rs = { s.rs with result := 1 }) ∧
      (takes → ∃ t, exec c s = .next t ∧ t.rs.busy = some q ∧ t.rs.result = 0)) ∧
    (free → s.rs.busy = none → ∃ t, exec c s = .next t ∧ t.rs.busy = some q ∧ t.rs.result = 0 ∧
      t.rs.lp = (if s.rs.lp = .lp2 then .leaving else match s.rs.lp with | .entering _ => .running | x => x) ∧
      (∀ n, kind = 3 → logTile s die part = some n → isAsleep t die n = false) ∧ (kind = 4 → ChangesOnly [.rs, .out] s t) ∧
      (∀ e, kind = 2 → e.1 / 4 = die → e ∉ t.se.deferred))) ∧
  (∀ (s : State), let q := s.rs.busy.getD { kind := 0, die := 0, part := 0, phase := 0, since := 0 }
    let drains := q.phase = 2 ∧ heldByPart s q = []
    let late := q.phase = 2 ∧ q.since + rfld s q.die 1 0x104 23 0 ≤ s.tm.fclk
    let done (t : State) := t.rs.busy = some { q with phase := 3 } ∧
      (q.kind = 2 → unitOf t q.die = {} ∧ (∀ e ∈ t.pg, e.1 / 1024 ≠ q.die) ∧ look? t.ty.units q.die = none ∧
        (∀ e ∈ t.se.recs, keyDie e.1 ≠ q.die)) ∧
      (q.kind = 3 → (∀ e ∈ t.nt.bufs, e.1 / 1024 ≠ tk q.die q.part) ∧
        ∀ n, logTile s q.die q.part = some n → isAsleep t q.die n = false ∧ look? t.mp (tk q.die n) = none) ∧
      (q.kind = 4 → isLink q.die q.part = true → q.part < 22 →
        linkOf t q.die q.part = linkOff (linkOf s q.die q.part))
    (¬ drains → exec .quiesceResetPhase s = .next s) ∧
    (drains → ∃ t, exec .quiesceResetPhase s = .next t ∧ done t) ∧
    (¬ late → exec .quiesceLimit s = .next s) ∧
    (late → ∃ t, exec .quiesceLimit s = .next t ∧ t.rs.busy = some { q with phase := 3 } ∧
      (heldByPart s q = [] → done t) ∧ (heldByPart s q ≠ [] → Shows t q.die 1 2)) ∧
    (q.phase ≠ 3 → exec .quiesceReturn s = .next s) ∧
    (q.phase = 3 → ∃ t, exec .quiesceReturn s = .next t ∧ t.rs = { s.rs with busy := none, result := 0 } ∧
      (q.kind = 4 → q.part < 22 → isLink q.die q.part = true → linkEnabled s q.die q.part = true → s.fw.inPause = false →
        notInService s q.die = false → (q.part < 16 ∨ (linkOf s q.die q.part).peerSafe = false) → (linkOf t q.die q.part).st = .training))) ∧
  (∀ (s : State) (m : Master), Commands s m 0 0x723 0x100 (w32 (2 ^ 31 + 2 ^ 28)) → ∃ t, exec (.fabricReset m) s = .next t ∧
    t.ram = s.ram ∧ t.pending = s.pending ∧ t.kp = { s.kp with replayEpoch := (s.kp.replayEpoch + 1) % 2 ^ 32 } ∧
    t.fw = { slot0 := s.fw.slot0, slot1 := s.fw.slot1 } ∧ t.rs = {} ∧ t.ci = {} ∧ t.dr = {} ∧ t.se = {} ∧ t.nt = {} ∧ t.tm.units = [] ∧
    t.rg.eff = [] ∧ t.rg.shadow = [] ∧ t.ft.safeDies = [] ∧ t.ft.isolated = [] ∧ t.ft.errLow = false ∧
    (∀ d x, d < 64 → x < 16 → linkOf t d x = if notInService s d = true then {} else { st := .training }) ∧ t.lk.ports = [] ∧ (∃ o, t.out = s.out ++ o ++ [.regDone m 0 0])) ∧
  (∀ (s : State) (m : Master) (c : Instr) (op ctx : Nat), ctx < 2048 →
    (c = .contextActivate m ctx ∧ op = 1) ∨ (c = .contextDeactivate m ctx ∧ op = 2) ∨ (c = .contextResetRequest m ctx ∧ op = 3) →
    Commands s m 0 0x723 0x110 (w32 (2 ^ 31 + (op * 2 ^ 28 + ctx))) →
    ∃ t, exec c s = .next t ∧ ChangesOnly [.rg, .rs, .out] s t ∧
      (s.fw.inPause = true → t.rs = { s.rs with heldCmds := s.rs.heldCmds ++ [c] }) ∧
      (s.fw.inPause = false → s.rs.ctxCmds.length < 64 → t.rs = { s.rs with ctxCmds := s.rs.ctxCmds ++ [{ op := op, ctx := ctx }] }) ∧
      (s.fw.inPause = false → 64 ≤ s.rs.ctxCmds.length → t.rs = s.rs ∧ (pageOf t 0 0x723).bad = true)) ∧
  (∀ (s : State) (m : Master) (deep : Bool), let c : Instr := if deep then .lp3Enter m else .lp2Enter m
    Commands s m 0 0x723 0x150 (w32 (2 ^ 31 + (if deep then 2 else 1))) →
    ∃ t, exec c s = .next t ∧ ChangesOnly [.rs, .out] s t ∧ t.out = s.out ++ [.regDone m 0 0] ∧
      let ok := s.rs.lp = .running ∧ s.rs.busy = none
      let linkUp := ∃ e ∈ s.lk.ports, e.2.st = .up
      (¬ ok → t.rs = s.rs) ∧ (ok → s.rs.active ≠ [] → t.rs = { s.rs with lpCause := 1 }) ∧
      (ok → s.rs.active = [] → linkUp → t.rs = { s.rs with lpCause := 2 }) ∧
      (ok → s.rs.active = [] → ¬ linkUp → t.rs = { s.rs with lp := .entering deep })) ∧
  (∀ (s : State) (m : Master), Commands s m 0 0x723 0x150 (w32 (2 ^ 31 + 3)) → ∃ t, exec (.lpExit m) s = .next t ∧
    (s.rs.lp = .lp3 → t.rs = {} ∧ t.ram = s.ram ∧ t.fw.running = s.fw.running ∧ t.sv = s.sv ∧ t.ft.root = s.ft.root ∧
      t.kp = { s.kp with replayEpoch := (s.kp.replayEpoch + 1) % 2 ^ 32 } ∧ ∀ d x, d < 64 → x < 16 → linkOf t d x = if notInService s d = true then {} else { st := .training }) ∧
    (s.rs.lp ≠ .lp3 → ChangesOnly [.rs, .out] s t ∧
      t.rs = { s.rs with lp := if s.rs.lp = .lp2 then .leaving else match s.rs.lp with | .entering _ => .running | x => x })) ∧
  (∀ (s : State) (m : Master) (k : Nat) (v : Word), Commands s m 0 0x723 (0x124 + 4 * (k % 4)) v →
    let die := rfld s 0 0x723 0x120 5 0
    ∃ t, exec (.lp1ReqWrite m k v) s = .next t ∧ ChangesOnly [.rg, .nt, .rs, .out] s t ∧
      (∀ n, n / 32 = k % 4 → lp1Req t die n = v.toNat.testBit (n % 32)) ∧
      ∀ d n, isAsleep t d n = (isAsleep s d n && !(decide (d = die) && decide (n / 32 = k % 4) && !v.toNat.testBit (n % 32)))) ∧
  (∀ (s : State) (die tile : Nat), ∃ t, exec (.clWake die tile) s = .next t ∧ ChangesOnly [.nt, .rs] s t ∧
    isAsleep t die tile = false ∧ ∀ d n, d ≠ die ∨ n ≠ tile → isAsleep t d n = isAsleep s d n)

/-- O59. POR samples the straps, loses staging SRAM and all but Keep, keeps Keep or its defaults after a loss, trains every module of the
dies in service (R553) and finds dead routers; POR_N low and a supply loss stop the FMC and release ERR_N. FMC_START runs the active slot
that passes with ROLLBACK, else the other, else recovery. ROLLBACK only rises; AREA_DATA writes the word AREA_ADDR names and steps it. A
service request is discarded without a configuration, counted when not listed, answered again from the cache, else executed and its reply
kept; REG_READ, REG_WRITE, STAGE_WRITE, STAGE_READ and PING give their status and data; a rejected datagram SVC_BAD_MSG. The sideband sets
its map and index; its commit stores and applies the configuration. BYPASS shifts a bit, IDCODE is the die's, SAMPLE/PRELOAD and EXTEST
under POR_N show free values (log 4). (R518, R519, R522, R524, R525, R526, R528, R529, R530, R532, R534, R570.) -/
def Obligations.PowerOnKeepAndTheServicePort : Prop :=
  (∀ (s : State) (straps : BitVec 16) (lossy : Bool) (failed : List (Nat × Nat)) (tied : List Nat), ∃ t, exec (.por straps lossy failed tied) s = .next t ∧
    t.pending = s.pending ∧ t.tm = { fclk := s.tm.fclk, straps := straps, strapsLive := straps, mistied := tied } ∧ t.ram = [] ∧
    t.fw = { slot0 := s.fw.slot0, slot1 := s.fw.slot1 } ∧ t.rs = {} ∧ t.ci = {} ∧ t.dr = {} ∧ t.se = {} ∧ t.nt = {} ∧ t.rg.eff = [] ∧
    (lossy = true ∨ s.kp.brownOut = true → t.kp = { lost := true, vbatLow := s.kp.vbatLow }) ∧
    (lossy = false → s.kp.brownOut = false →
      t.kp = { s.kp with lost := false, onVbat := false, ecc := 0, replayEpoch := (s.kp.replayEpoch + 1) % 2 ^ 32 }) ∧
    t.pr.role = (if straps.getLsbD 12 then (if straps.getLsbD 13 then 2 else 1) else 0) ∧ (t.pr.following = true ↔ t.pr.role = 2) ∧
    (∀ d x, d < 64 → x < 16 → linkOf t d x = if d ∈ tied then {} else { st := .training }) ∧
    (∀ d x y, d < 64 → x < nPhys d → y < nPhys d → (d, x) ∈ failed → (d, y) ∈ failed → testPos d x ≠ testPos d y ∨ dieType d = .io → Shows t d 1 1)) ∧
  (∀ s : State, let cut := if s.ft.errLow then s.out ++ [.errN false] else s.out
    (∃ t, exec .brownOut s = .next t ∧ ChangesOnly [.kp] s t ∧ t.kp = { s.kp with brownOut := s.kp.brownOut || s.kp.onVbat }) ∧
    ∀ c, c = .porNLow ∨ c = .fabricSupplyLoss → ∃ t, exec c s = .next t ∧ ChangesOnly [.tm, .ft, .fw, .kp, .out] s t ∧
      t.tm = { s.tm with porLow := true } ∧ t.fw = { s.fw with running := false } ∧ t.ft = { s.ft with errLow := false, pulse := false } ∧
      t.out = cut ∧ t.kp = { s.kp with onVbat := s.kp.onVbat || decide (c = .fabricSupplyLoss) }) ∧
  (∀ (s : State) (ok0 ok1 : Bool), let may (i : Nat) := (fwSlot s i).valid = true ∧ (if i = 1 then ok1 else ok0) = true ∧ s.kp.rollback ≤ (fwSlot s i).rb
    (s.fw.running = true ∨ s.tm.porLow = true → exec (.fmcStart ok0 ok1) s = .next s) ∧
    (s.fw.running = false → s.tm.porLow = false →
      (∀ a i, activeSlot s = some a → (i = a ∨ (i = 1 - a ∧ ¬ may a)) → may i → ∃ t, exec (.fmcStart ok0 ok1) s = .next t ∧
        ChangesOnly [.ft, .kp, .fw, .sv, .out] s t ∧ t.fw = { s.fw with running := true, recovery := false, fallback := decide (i ≠ a), libEpoch := (fwSlot s i).epoch, st := .idle, code := 0 } ∧
        t.kp = { s.kp with rollback := if s.kp.lost then max s.kp.rollback (fwSlot s i).rb else s.kp.rollback } ∧
        t.sv.config = storedConfig s ∧ (t.sv.valid = true ↔ field (storedConfig s) 0x16 2 ≠ 0) ∧ t.sv.nseq = 0) ∧
      (activeSlot s = none ∨ (¬ may 0 ∧ ¬ may 1) → ∃ t, exec (.fmcStart ok0 ok1) s = .next t ∧
        t.fw = { s.fw with recovery := true } ∧ t.kp = s.kp ∧ t.sv.config = storedConfig s))) ∧
  (∀ (s : State) (m : Master) (v : Word),
    (Commands s m 0 0x730 0x108 v → ∃ t, exec (.rollbackWrite m v) s = .next t ∧ ChangesOnly [.rg, .kp, .out] s t ∧
      let ok := s.kp.rollback ≤ v.toNat ∧ v.toNat ≤ 255
      (ok → t.kp = { s.kp with rollback := v.toNat }) ∧ (¬ ok → t.kp = s.kp ∧ (pageOf t 0 0x730).bad = true)) ∧
    (Commands s m 0 0x733 0x104 v → ∃ t, exec (.areaDataWrite m v) s = .next t ∧ ChangesOnly [.rg, .kp, .out] s t ∧
      areaAddr t = (areaAddr s + 1) % 2048 ∧ (1280 ≤ areaAddr s → t.kp = s.kp ∧ (pageOf t 0 0x733).bad = true) ∧
      (areaAddr s < 1280 → look 0 t.kp.area (areaAddr s) = v ∧ ∀ k, k ≠ areaAddr s → look 0 t.kp.area k = look 0 s.kp.area k))) ∧
  (∀ (s : State) (src : SvcSrc) (c : Instr) (typ : Nat) (x : List Byte), (typ = 1 ∧ ∃ a, c = .regRead src a) ∨ (typ = 2 ∧ ∃ a v, c = .regWrite src a v) ∨
      (typ = 3 ∧ ∃ o d, c = .stageWrite src o d) ∨ (typ = 4 ∧ ∃ o n, c = .stageRead src o n) ∨ (typ = 5 ∧ ∃ d, c = .ping src d) ∨
      (requestOk x = false ∧ typ = field x 5 1 ∧ src.seq = w32 (field x 8 4) ∧ c = .serviceDatagramRejected src x) →
    let on := fmcOn s = true ∧ s.sv.valid = true
    (¬ on → exec c s = .next s) ∧
    (on → listed s src = false → ∃ t, exec c s = .next t ∧ ChangesOnly [.rg] s t ∧ countOf t 0 0x724 2 = countOf s 0 0x724 2 + 1) ∧
    (on → listed s src = true → ∀ r, s.sv.cache.find? (fun r => decide (r.src = src)) = some r → ∃ t, exec c s = .next t ∧
      ChangesOnly [.rg, .out] s t ∧ countOf t 0 0x724 1 = countOf s 0 0x724 1 + 1 ∧ t.out = s.out ++ [.svcReply src (svcDatagram s r.typ 3 r.status src.seq r.body)]) ∧
    (on → listed s src = true → (∀ r ∈ s.sv.cache, r.src ≠ src) → ∃ t status body, exec c s = .next t ∧
      (∃ o, t.out = s.out ++ o ++ [.svcReply src (svcDatagram s typ 1 status src.seq body)]) ∧ (∃ r, t.sv.cache.head? = some r ∧ r.src = src ∧ r.status = status ∧ r.body = body) ∧
      (∀ a, c = .regRead src a → (aPkg a = pkgNo s → inWindow a = true) → status = accessStatus s (svcAcc a 0) false ∧
        body = leBytes 4 (regRead (svcAcc a 0) s).2.1.toNat) ∧
      (∀ a v, c = .regWrite src a v → (aPkg a = pkgNo s → inWindow a = true) → status = accessStatus s (svcAcc a v) true ∧ body = [] ∧
        ChangesOnly [.rg, .sv, .out] (regWrite (svcAcc a v) s).2 t ∧ t.rg.eff = (regWrite (svcAcc a v) s).2.rg.eff ∧
        t.rg.shadow = (regWrite (svcAcc a v) s).2.rg.shadow) ∧
      (∀ a, aPkg a = pkgNo s → inWindow a = false → (c = .regRead src a → status = 1 ∧ body = leBytes 4 0) ∧
        ∀ v, c = .regWrite src a v → status = 1 ∧ body = [] ∧ t.rg.eff = s.rg.eff ∧ t.rg.shadow = s.rg.shadow) ∧
      (∀ o d, c = .stageWrite src o d → body = [] ∧
        let good := d.length ≠ 0 ∧ d.length ≤ 1024
        let fits := o + d.length ≤ stagingBytes
        (¬ good → status = 0xA4) ∧ (good → ¬ fits → status = 0xA5) ∧ (good → fits → stageLocked s o d.length = true → status = 0xA6) ∧
        (status ≠ 0 → t.ram = s.ram) ∧
        (good → fits → stageLocked s o d.length = false → status = 0 ∧ ramBytes t o d.length = d ∧
          ∀ k, k < o ∨ o + d.length ≤ k → look (0 : Byte) t.ram k = look 0 s.ram k)) ∧
      (∀ o n, c = .stageRead src o n → t.ram = s.ram ∧ (n = 0 ∨ 1024 < n → status = 0xA4 ∧ body = []) ∧
        (n ≠ 0 → n ≤ 1024 → stagingBytes < o + n → status = 0xA5 ∧ body = []) ∧
        (n ≠ 0 → n ≤ 1024 → o + n ≤ stagingBytes → status = 0 ∧ body = ramBytes s o n)) ∧
      (∀ d, c = .ping src d → (d.length ≤ 64 → status = 0 ∧ body = d) ∧ (64 < d.length → status = 0xA4 ∧ body = [])) ∧
      (c = .serviceDatagramRejected src x → status = 0xA4 ∧ body = []))) ∧
  (∀ (s : State) (src : SvcSrc) (x : List Byte), requestOk x = true →
    (listed s src = true → exec (.serviceDatagramRejected src x) s = .next s) ∧
    (listed s src = false → ∃ t, exec (.serviceDatagramRejected src x) s = .next t ∧ ChangesOnly [.rg] s t ∧
      countOf t 0 0x724 2 = countOf s 0 0x724 2 + (if fmcOn s && s.sv.valid then 1 else 0))) ∧
  (∀ (s : State) (i : Nat) (d : List Byte), (s.tm.porLow = true → exec (.sidebandWrite i d) s = .next s ∧ exec .svcCommit s = .next s) ∧
    (s.tm.porLow = false → (∃ t, exec (.sidebandWrite i d) s = .next t ∧ ChangesOnly [.kp, .sv] s t ∧ t.sv.index = i ∧
        (i + d.length ≤ 0x88 → t.kp = s.kp ∧ t.sv.config = s.sv.config) ∧
        ∀ k, 0x10 ≤ k → k < 0x88 → look 0 t.sv.map k = if i ≤ k ∧ k < i + d.length then byteAt d (k - i) else look 0 s.sv.map k) ∧
      (∃ t, exec .svcCommit s = .next t ∧ ChangesOnly [.kp, .sv] s t ∧ let cfg := (List.range 120).map fun i => look (0 : Byte) s.sv.map (0x10 + i)
        t.sv.config = cfg ∧ (t.sv.valid = true ↔ field cfg 0x16 2 ≠ 0) ∧ (∀ k, k < 30 → look 0 t.kp.area k = byteWord cfg k) ∧
        ∀ k, 30 ≤ k → look 0 t.kp.area k = look 0 s.kp.area k))) ∧
  (∀ (s : State) (die : Nat) (b : Bool), (∃ t, exec (.bypass die b) s = .next t ∧ ChangesOnly [.jt, .out] s t ∧
      t.out = s.out ++ [.tdo die (look 0 s.jt die)] ∧ look 0 t.jt die = (if b then 1 else 0) ∧ ∀ d, d ≠ die → look 0 t.jt d = look 0 s.jt d) ∧
    (∃ t x, exec (.idcode die) s = .next t ∧ ChangesOnly [.out] s t ∧ t.out = s.out ++ [.tdo die x] ∧ wbits x 0 0 = 1 ∧ wbits x 11 1 = 0x3D1 ∧
      wbits x 27 12 = (match dieType die with | .compute => 0x6481 | .memside => 0x6482 | .io => 0x6483)) ∧
    (∃ t, exec (.samplePreload die) s = .next t ∧ ChangesOnly [.out, .fresh] s t ∧ t.out = s.out ++ [.tdo die (w32 (freeVal s))]) ∧
    (s.tm.porLow = true → exec (.extest die) s = exec (.samplePreload die) s) ∧ (s.tm.porLow = false → exec (.extest die) s = exec (.bypass die false) s))

/-- O60. CHECK in IDLE locks the bundle and reads it; its end gives the first failing code and IDLE, or CHECKED with the bundle's rollback
index, which is not below ROLLBACK and whose signature and digests hold. PROGRAM in CHECKED clears the inactive slot and leaves the active
one; its end makes the slot valid with ACT_SEQ 0 and READY, or PROGRAM_FAILED. ACTIVATE in READY with no plan pending starts the FMC from
the slot in recovery, else is armed for a Press beyond the next, or ACT_LATE. CANCEL and BIND act in their states; in recovery they do
nothing (model's choice). Other states give FW_STATE. In the pause the loads' end takes the slot and raises ROLLBACK, their timeout abandons
it. PAUSE_END outside a pause changes nothing; where no boundary ends the pause it ends within the Press. (R529, R530, R533, R537, R538,
R539, R540, R541, R542, R543, R545, R547.) -/
def Obligations.FirmwareIsCheckedProgrammedAndActivated : Prop :=
  (∀ (s : State) (m : Master) (c : Instr) (op : Nat), (op = 1 ∧ c = .fwCheck m) ∨ (op = 2 ∧ c = .fwProgram m) ∨ (op = 3 ∧ c = .fwActivate m) ∨
      (op = 4 ∧ c = .fwCancel m) ∨ (op = 5 ∧ c = .fwBind m) → Commands s m 0 0x724 0x100 (w32 (2 ^ 31 + op * 2 ^ 28)) →
    let f := s.fw
    let idle (t : State) (code : Nat) := t.fw = { f with st := .idle, code := code, lockLen := 0 } ∧ ∀ h, h < 4 → (hostOf t h).cause.getLsbD 3 = true
    let allowed := (op = 1 ∧ f.st = .idle) ∨ (op = 2 ∧ f.st = .checked) ∨ (op = 3 ∧ f.st = .ready ∧ s.pl.next = none) ∨
      (op = 4 ∧ f.st ≠ .idle ∧ f.st ≠ .pause) ∨ (op = 5 ∧ f.st = .idle)
    (f.recovery = true → op = 4 ∨ op = 5 → ∃ t, exec c s = .next t ∧ ChangesOnly [.out] s t) ∧
    (f.recovery = false ∨ op ≤ 3 →
      (¬ allowed → ∃ t, exec c s = .next t ∧ ChangesOnly [.rg, .hs, .fw, .sv, .out] s t ∧ t.fw = { f with code := 0x9F } ∧
        ∀ h, h < 4 → (hostOf t h).cause.getLsbD 3 = true) ∧
      (allowed → op = 1 → ∃ t, exec c s = .next t ∧ ChangesOnly [.rg, .fw, .sv, .out] s t ∧ ∃ len, 256 ≤ len ∧ len ≤ maxBundle ∧
        t.fw = { f with st := .checking, lockAt := fwOffset s, lockLen := len }) ∧
      (allowed → op = 2 → ∃ t i, exec c s = .next t ∧ i ≤ 1 ∧ activeSlot s ≠ some i ∧ t.fw.st = .programming ∧ t.fw.newSlot = i ∧
        fwSlot t i = {} ∧ fwSlot t (1 - i) = fwSlot s (1 - i) ∧ t.kp = s.kp) ∧
      (allowed → op = 3 → f.recovery = true → f.newSlot ≤ 1 → ∃ t, exec c s = .next t ∧ t.fw.running = true ∧ t.fw.recovery = false ∧
        t.fw.st = .idle ∧ t.fw.code = 0 ∧ t.fw.lockLen = 0 ∧ t.fw.libEpoch = (fwSlot s f.newSlot).epoch ∧
        let old := fwSlot s (1 - f.newSlot)
        (fwSlot t f.newSlot).actSeq = (if old.valid then old.actSeq else 0) + 1 ∧ fwSlot t (1 - f.newSlot) = old) ∧
      (allowed → op = 3 → f.recovery = false → let p := (reg64 s 0 0x724 0x110).toNat
        (p ≤ pkgPress s + 1 → ∃ t, exec c s = .next t ∧ t.fw = { f with code := 0xA0 }) ∧
        (pkgPress s + 1 < p → ∃ t, exec c s = .next t ∧ t.fw = { f with st := .armed, actPress := p })) ∧
      (allowed → op = 4 → ∃ t, exec c s = .next t ∧ idle t 0 ∧ t.kp = s.kp) ∧
      (allowed → op = 5 → ∃ t, exec c s = .next t ∧ (s.kp.unitHash = List.replicate 32 0 → t.fw = { f with code := 0 } ∧
          t.kp = { s.kp with unitHash := ramBytes s (fwOffset s) 32 }) ∧
        ((∃ b ∈ s.kp.unitHash, b ≠ 0) → t.fw = { f with code := 0x9D } ∧ t.kp = s.kp)))) ∧
  (∀ s : State, let f := s.fw
    let off := f.lockAt
    let hd := bundleHeader s off
    (f.st ≠ .checking → exec .fwCheckDone s = .next s) ∧
    (f.st = .checking → checkBundle s off ≠ 0 → ∃ t, exec .fwCheckDone s = .next t ∧ ChangesOnly [.rg, .hs, .fw, .sv, .out] s t ∧
      t.fw = { f with st := .idle, code := checkBundle s off, lockLen := 0 }) ∧
    (f.st = .checking → checkBundle s off = 0 → ∃ t, exec .fwCheckDone s = .next t ∧ ChangesOnly [.rg, .hs, .fw, .sv, .out] s t ∧
      t.fw = { f with st := .checked, code := 0, newRb := field hd 0x14 1, newEpoch := field hd 0x10 4 } ∧ t.kp.rollback ≤ t.fw.newRb ∧
      field hd 0 4 = 0x4C444E42 ∧ field hd 8 4 = 0x6480 ∧ off + bundleLen hd ≤ stagingBytes ∧
      Config.verify (field hd 6 1) (sha384 (ramBytes s off (signedLen hd))) (ramBytes s (off + signedLen hd) 96) = true ∧
      (∀ p ∈ manifest s off, sha384 (ramBytes s (off + p.off) p.size) = p.digest ∧ p.off + p.size ≤ bundleLen hd) ∧
      (∀ x ∈ partTypes, ∃ p ∈ manifest s off, p.typ = x) ∧ (field hd 7 1 = 1 → s.kp.unitHash = slice hd 0x20 32))) ∧
  (∀ (s : State) (ok : Bool), let f := s.fw
    (f.st ≠ .programming → exec (.fwProgramDone ok) s = .next s) ∧
    (f.st = .programming → ∃ t, exec (.fwProgramDone false) s = .next t ∧ ChangesOnly [.rg, .hs, .fw, .sv, .out] s t ∧
      t.fw = { f with st := .idle, code := 0xA2, lockLen := 0 }) ∧
    (f.st = .programming → f.newSlot ≤ 1 → ∃ t, exec (.fwProgramDone true) s = .next t ∧ ChangesOnly [.rg, .hs, .fw, .sv, .out] s t ∧
      t.fw.st = .ready ∧ t.fw.code = 0 ∧ fwSlot t f.newSlot = { valid := true, rb := f.newRb, epoch := f.newEpoch, actSeq := 0 } ∧
      fwSlot t (1 - f.newSlot) = fwSlot s (1 - f.newSlot))) ∧
  (∀ s : State, let f := s.fw
    let waits := f.st = .pause ∧ f.loaded = false
    (¬ waits → exec .activationLoadDone s = .next s ∧ exec .activationLoadTimeout s = .next s) ∧
    (waits → ∃ t, exec .activationLoadTimeout s = .next t ∧ ChangesOnly [.rg, .hs, .fw, .sv, .out] s t ∧
      t.fw = { f with st := .idle, code := 0xA1, lockLen := 0 }) ∧
    (waits → f.newSlot ≤ 1 → ∃ t, exec .activationLoadDone s = .next t ∧ ChangesOnly [.kp, .fw] s t ∧ t.fw.loaded = true ∧ t.fw.st = .pause ∧
      let old := fwSlot s (1 - f.newSlot)
      fwSlot t f.newSlot = { fwSlot s f.newSlot with actSeq := (if old.valid then old.actSeq else 0) + 1 } ∧
      fwSlot t (1 - f.newSlot) = old ∧ t.kp = { s.kp with rollback := max s.kp.rollback (fwSlot s f.newSlot).rb })) ∧
  (∀ s : State, let u := unitOf s (refDie s)
    let inside := s.fw.inPause = true ∧ running s (refDie s) = true
    let within := inside ∧ pauseAtBoundary u.period = false ∧ pauseLimit s ≤ u.start + pressCycles u.period
    (¬ inside → exec .pauseEnd s = .next s) ∧
    (inside → pauseAtBoundary u.period = true → u.press + 1 = s.fw.actPress + pausePresses u.period → exec .pauseEnd s = exec (.pressBoundary {}) s) ∧
    (inside → pauseAtBoundary u.period = true → u.press + 1 ≠ s.fw.actPress + pausePresses u.period → exec .pauseEnd s = .next s) ∧
    (inside → pauseAtBoundary u.period = false → u.start + pressCycles u.period < pauseLimit s → exec .pauseEnd s = .next s) ∧
    (within → ∃ t, exec .pauseEnd s = .next t ∧ t.fw.inPause = false ∧ t.tm.fclk = max s.tm.fclk (pauseLimit s) ∧ t.tm.units = s.tm.units ∧
      t.fw.pauseLast = (max s.tm.fclk (pauseLimit s) - s.fw.pauseFrom) * 5 / 64 ∧
      (s.fw.st = .pause → t.fw.st = .idle ∧ t.fw.code = (if s.fw.loaded then 0 else 0xA1) ∧ t.fw.lockLen = 0) ∧
      (s.fw.st ≠ .pause → t.fw.st = s.fw.st)))

end
end

