-- ==== Sys2Proof/Laws/Frame.lean ====
section
/-! SUPPORT. What each operation leaves unchanged: a mask names the parts of State an operation may change, and two states agree outside a
mask when clearing those parts makes them equal. -/
set_option linter.unusedTactic false
set_option linter.unreachableTactic false
set_option linter.unusedVariables false
namespace Sys2Proof.Machine

/-- Parts of State, one Bool each. -/
structure Mask where
  tm : Bool
  rg : Bool
  nt : Bool
  pl : Bool
  mp : Bool
  dr : Bool
  se : Bool
  ci : Bool
  bk : Bool
  pg : Bool
  ty : Bool
  pr : Bool
  lk : Bool
  hs : Bool
  op : Bool
  ft : Bool
  kp : Bool
  rs : Bool
  fw : Bool
  sv : Bool
  ram : Bool
  jt : Bool
  out : Bool
  fresh : Bool
  pending : Bool

/-- The state with the parts of a mask cleared. -/
def State.clr (M : Mask) (s : State) : State where
  tm := if M.tm then ({} : State).tm else s.tm
  rg := if M.rg then ({} : State).rg else s.rg
  nt := if M.nt then ({} : State).nt else s.nt
  pl := if M.pl then ({} : State).pl else s.pl
  mp := if M.mp then ({} : State).mp else s.mp
  dr := if M.dr then ({} : State).dr else s.dr
  se := if M.se then ({} : State).se else s.se
  ci := if M.ci then ({} : State).ci else s.ci
  bk := if M.bk then ({} : State).bk else s.bk
  pg := if M.pg then ({} : State).pg else s.pg
  ty := if M.ty then ({} : State).ty else s.ty
  pr := if M.pr then ({} : State).pr else s.pr
  lk := if M.lk then ({} : State).lk else s.lk
  hs := if M.hs then ({} : State).hs else s.hs
  op := if M.op then ({} : State).op else s.op
  ft := if M.ft then ({} : State).ft else s.ft
  kp := if M.kp then ({} : State).kp else s.kp
  rs := if M.rs then ({} : State).rs else s.rs
  fw := if M.fw then ({} : State).fw else s.fw
  sv := if M.sv then ({} : State).sv else s.sv
  ram := if M.ram then ({} : State).ram else s.ram
  jt := if M.jt then ({} : State).jt else s.jt
  out := if M.out then ({} : State).out else s.out
  fresh := if M.fresh then ({} : State).fresh else s.fresh
  pending := if M.pending then ({} : State).pending else s.pending

theorem State.clr_tm (M : Mask) (h : M.tm = false) (s t : State) (e : s.clr M = t.clr M) : s.tm = t.tm := by
  have := congrArg State.tm e
  simpa [State.clr, h] using this

theorem State.clr_rg (M : Mask) (h : M.rg = false) (s t : State) (e : s.clr M = t.clr M) : s.rg = t.rg := by
  have := congrArg State.rg e
  simpa [State.clr, h] using this

theorem State.clr_nt (M : Mask) (h : M.nt = false) (s t : State) (e : s.clr M = t.clr M) : s.nt = t.nt := by
  have := congrArg State.nt e
  simpa [State.clr, h] using this

theorem State.clr_pl (M : Mask) (h : M.pl = false) (s t : State) (e : s.clr M = t.clr M) : s.pl = t.pl := by
  have := congrArg State.pl e
  simpa [State.clr, h] using this

theorem State.clr_mp (M : Mask) (h : M.mp = false) (s t : State) (e : s.clr M = t.clr M) : s.mp = t.mp := by
  have := congrArg State.mp e
  simpa [State.clr, h] using this

theorem State.clr_dr (M : Mask) (h : M.dr = false) (s t : State) (e : s.clr M = t.clr M) : s.dr = t.dr := by
  have := congrArg State.dr e
  simpa [State.clr, h] using this

theorem State.clr_se (M : Mask) (h : M.se = false) (s t : State) (e : s.clr M = t.clr M) : s.se = t.se := by
  have := congrArg State.se e
  simpa [State.clr, h] using this

theorem State.clr_ci (M : Mask) (h : M.ci = false) (s t : State) (e : s.clr M = t.clr M) : s.ci = t.ci := by
  have := congrArg State.ci e
  simpa [State.clr, h] using this

theorem State.clr_bk (M : Mask) (h : M.bk = false) (s t : State) (e : s.clr M = t.clr M) : s.bk = t.bk := by
  have := congrArg State.bk e
  simpa [State.clr, h] using this

theorem State.clr_pg (M : Mask) (h : M.pg = false) (s t : State) (e : s.clr M = t.clr M) : s.pg = t.pg := by
  have := congrArg State.pg e
  simpa [State.clr, h] using this

theorem State.clr_ty (M : Mask) (h : M.ty = false) (s t : State) (e : s.clr M = t.clr M) : s.ty = t.ty := by
  have := congrArg State.ty e
  simpa [State.clr, h] using this

theorem State.clr_pr (M : Mask) (h : M.pr = false) (s t : State) (e : s.clr M = t.clr M) : s.pr = t.pr := by
  have := congrArg State.pr e
  simpa [State.clr, h] using this

theorem State.clr_lk (M : Mask) (h : M.lk = false) (s t : State) (e : s.clr M = t.clr M) : s.lk = t.lk := by
  have := congrArg State.lk e
  simpa [State.clr, h] using this

theorem State.clr_hs (M : Mask) (h : M.hs = false) (s t : State) (e : s.clr M = t.clr M) : s.hs = t.hs := by
  have := congrArg State.hs e
  simpa [State.clr, h] using this

theorem State.clr_op (M : Mask) (h : M.op = false) (s t : State) (e : s.clr M = t.clr M) : s.op = t.op := by
  have := congrArg State.op e
  simpa [State.clr, h] using this

theorem State.clr_ft (M : Mask) (h : M.ft = false) (s t : State) (e : s.clr M = t.clr M) : s.ft = t.ft := by
  have := congrArg State.ft e
  simpa [State.clr, h] using this

theorem State.clr_kp (M : Mask) (h : M.kp = false) (s t : State) (e : s.clr M = t.clr M) : s.kp = t.kp := by
  have := congrArg State.kp e
  simpa [State.clr, h] using this

theorem State.clr_rs (M : Mask) (h : M.rs = false) (s t : State) (e : s.clr M = t.clr M) : s.rs = t.rs := by
  have := congrArg State.rs e
  simpa [State.clr, h] using this

theorem State.clr_fw (M : Mask) (h : M.fw = false) (s t : State) (e : s.clr M = t.clr M) : s.fw = t.fw := by
  have := congrArg State.fw e
  simpa [State.clr, h] using this

theorem State.clr_sv (M : Mask) (h : M.sv = false) (s t : State) (e : s.clr M = t.clr M) : s.sv = t.sv := by
  have := congrArg State.sv e
  simpa [State.clr, h] using this

theorem State.clr_ram (M : Mask) (h : M.ram = false) (s t : State) (e : s.clr M = t.clr M) : s.ram = t.ram := by
  have := congrArg State.ram e
  simpa [State.clr, h] using this

theorem State.clr_jt (M : Mask) (h : M.jt = false) (s t : State) (e : s.clr M = t.clr M) : s.jt = t.jt := by
  have := congrArg State.jt e
  simpa [State.clr, h] using this

theorem State.clr_out (M : Mask) (h : M.out = false) (s t : State) (e : s.clr M = t.clr M) : s.out = t.out := by
  have := congrArg State.out e
  simpa [State.clr, h] using this

theorem State.clr_fresh (M : Mask) (h : M.fresh = false) (s t : State) (e : s.clr M = t.clr M) : s.fresh = t.fresh := by
  have := congrArg State.fresh e
  simpa [State.clr, h] using this

theorem State.clr_pending (M : Mask) (h : M.pending = false) (s t : State) (e : s.clr M = t.clr M) : s.pending = t.pending := by
  have := congrArg State.pending e
  simpa [State.clr, h] using this

theorem upd_bk (M : Mask) (hbk : M.bk = true) (s : State) (bk : _) :
    (State.mk (State.tm s) (State.rg s) (State.nt s) (State.pl s) (State.mp s) (State.dr s) (State.se s) (State.ci s) bk (State.pg s) (State.ty s) (State.pr s) (State.lk s) (State.hs s) (State.op s) (State.ft s) (State.kp s) (State.rs s) (State.fw s) (State.sv s) (State.ram s) (State.jt s) (State.out s) (State.fresh s) (State.pending s)).clr M = s.clr M := by
  simp [State.clr, hbk]

theorem upd_ci (M : Mask) (hci : M.ci = true) (s : State) (ci : _) :
    (State.mk (State.tm s) (State.rg s) (State.nt s) (State.pl s) (State.mp s) (State.dr s) (State.se s) ci (State.bk s) (State.pg s) (State.ty s) (State.pr s) (State.lk s) (State.hs s) (State.op s) (State.ft s) (State.kp s) (State.rs s) (State.fw s) (State.sv s) (State.ram s) (State.jt s) (State.out s) (State.fresh s) (State.pending s)).clr M = s.clr M := by
  simp [State.clr, hci]

theorem upd_dr (M : Mask) (hdr : M.dr = true) (s : State) (dr : _) :
    (State.mk (State.tm s) (State.rg s) (State.nt s) (State.pl s) (State.mp s) dr (State.se s) (State.ci s) (State.bk s) (State.pg s) (State.ty s) (State.pr s) (State.lk s) (State.hs s) (State.op s) (State.ft s) (State.kp s) (State.rs s) (State.fw s) (State.sv s) (State.ram s) (State.jt s) (State.out s) (State.fresh s) (State.pending s)).clr M = s.clr M := by
  simp [State.clr, hdr]

theorem upd_fresh (M : Mask) (hfresh : M.fresh = true) (s : State) (fresh : _) :
    (State.mk (State.tm s) (State.rg s) (State.nt s) (State.pl s) (State.mp s) (State.dr s) (State.se s) (State.ci s) (State.bk s) (State.pg s) (State.ty s) (State.pr s) (State.lk s) (State.hs s) (State.op s) (State.ft s) (State.kp s) (State.rs s) (State.fw s) (State.sv s) (State.ram s) (State.jt s) (State.out s) fresh (State.pending s)).clr M = s.clr M := by
  simp [State.clr, hfresh]

theorem upd_ft (M : Mask) (hft : M.ft = true) (s : State) (ft : _) :
    (State.mk (State.tm s) (State.rg s) (State.nt s) (State.pl s) (State.mp s) (State.dr s) (State.se s) (State.ci s) (State.bk s) (State.pg s) (State.ty s) (State.pr s) (State.lk s) (State.hs s) (State.op s) ft (State.kp s) (State.rs s) (State.fw s) (State.sv s) (State.ram s) (State.jt s) (State.out s) (State.fresh s) (State.pending s)).clr M = s.clr M := by
  simp [State.clr, hft]

theorem upd_ft_fw (M : Mask) (hft : M.ft = true) (hfw : M.fw = true) (s : State) (ft : _) (fw : _) :
    (State.mk (State.tm s) (State.rg s) (State.nt s) (State.pl s) (State.mp s) (State.dr s) (State.se s) (State.ci s) (State.bk s) (State.pg s) (State.ty s) (State.pr s) (State.lk s) (State.hs s) (State.op s) ft (State.kp s) (State.rs s) fw (State.sv s) (State.ram s) (State.jt s) (State.out s) (State.fresh s) (State.pending s)).clr M = s.clr M := by
  simp [State.clr, hft, hfw]

theorem upd_ft_rs (M : Mask) (hft : M.ft = true) (hrs : M.rs = true) (s : State) (ft : _) (rs : _) :
    (State.mk (State.tm s) (State.rg s) (State.nt s) (State.pl s) (State.mp s) (State.dr s) (State.se s) (State.ci s) (State.bk s) (State.pg s) (State.ty s) (State.pr s) (State.lk s) (State.hs s) (State.op s) ft (State.kp s) rs (State.fw s) (State.sv s) (State.ram s) (State.jt s) (State.out s) (State.fresh s) (State.pending s)).clr M = s.clr M := by
  simp [State.clr, hft, hrs]

theorem upd_fw (M : Mask) (hfw : M.fw = true) (s : State) (fw : _) :
    (State.mk (State.tm s) (State.rg s) (State.nt s) (State.pl s) (State.mp s) (State.dr s) (State.se s) (State.ci s) (State.bk s) (State.pg s) (State.ty s) (State.pr s) (State.lk s) (State.hs s) (State.op s) (State.ft s) (State.kp s) (State.rs s) fw (State.sv s) (State.ram s) (State.jt s) (State.out s) (State.fresh s) (State.pending s)).clr M = s.clr M := by
  simp [State.clr, hfw]

theorem upd_hs (M : Mask) (hhs : M.hs = true) (s : State) (hs : _) :
    (State.mk (State.tm s) (State.rg s) (State.nt s) (State.pl s) (State.mp s) (State.dr s) (State.se s) (State.ci s) (State.bk s) (State.pg s) (State.ty s) (State.pr s) (State.lk s) hs (State.op s) (State.ft s) (State.kp s) (State.rs s) (State.fw s) (State.sv s) (State.ram s) (State.jt s) (State.out s) (State.fresh s) (State.pending s)).clr M = s.clr M := by
  simp [State.clr, hhs]

theorem upd_jt (M : Mask) (hjt : M.jt = true) (s : State) (jt : _) :
    (State.mk (State.tm s) (State.rg s) (State.nt s) (State.pl s) (State.mp s) (State.dr s) (State.se s) (State.ci s) (State.bk s) (State.pg s) (State.ty s) (State.pr s) (State.lk s) (State.hs s) (State.op s) (State.ft s) (State.kp s) (State.rs s) (State.fw s) (State.sv s) (State.ram s) jt (State.out s) (State.fresh s) (State.pending s)).clr M = s.clr M := by
  simp [State.clr, hjt]

theorem upd_kp (M : Mask) (hkp : M.kp = true) (s : State) (kp : _) :
    (State.mk (State.tm s) (State.rg s) (State.nt s) (State.pl s) (State.mp s) (State.dr s) (State.se s) (State.ci s) (State.bk s) (State.pg s) (State.ty s) (State.pr s) (State.lk s) (State.hs s) (State.op s) (State.ft s) kp (State.rs s) (State.fw s) (State.sv s) (State.ram s) (State.jt s) (State.out s) (State.fresh s) (State.pending s)).clr M = s.clr M := by
  simp [State.clr, hkp]

theorem upd_kp_fw (M : Mask) (hkp : M.kp = true) (hfw : M.fw = true) (s : State) (kp : _) (fw : _) :
    (State.mk (State.tm s) (State.rg s) (State.nt s) (State.pl s) (State.mp s) (State.dr s) (State.se s) (State.ci s) (State.bk s) (State.pg s) (State.ty s) (State.pr s) (State.lk s) (State.hs s) (State.op s) (State.ft s) kp (State.rs s) fw (State.sv s) (State.ram s) (State.jt s) (State.out s) (State.fresh s) (State.pending s)).clr M = s.clr M := by
  simp [State.clr, hkp, hfw]

theorem upd_kp_sv (M : Mask) (hkp : M.kp = true) (hsv : M.sv = true) (s : State) (kp : _) (sv : _) :
    (State.mk (State.tm s) (State.rg s) (State.nt s) (State.pl s) (State.mp s) (State.dr s) (State.se s) (State.ci s) (State.bk s) (State.pg s) (State.ty s) (State.pr s) (State.lk s) (State.hs s) (State.op s) (State.ft s) kp (State.rs s) (State.fw s) sv (State.ram s) (State.jt s) (State.out s) (State.fresh s) (State.pending s)).clr M = s.clr M := by
  simp [State.clr, hkp, hsv]

theorem upd_lk (M : Mask) (hlk : M.lk = true) (s : State) (lk : _) :
    (State.mk (State.tm s) (State.rg s) (State.nt s) (State.pl s) (State.mp s) (State.dr s) (State.se s) (State.ci s) (State.bk s) (State.pg s) (State.ty s) (State.pr s) lk (State.hs s) (State.op s) (State.ft s) (State.kp s) (State.rs s) (State.fw s) (State.sv s) (State.ram s) (State.jt s) (State.out s) (State.fresh s) (State.pending s)).clr M = s.clr M := by
  simp [State.clr, hlk]

theorem upd_mp (M : Mask) (hmp : M.mp = true) (s : State) (mp : _) :
    (State.mk (State.tm s) (State.rg s) (State.nt s) (State.pl s) mp (State.dr s) (State.se s) (State.ci s) (State.bk s) (State.pg s) (State.ty s) (State.pr s) (State.lk s) (State.hs s) (State.op s) (State.ft s) (State.kp s) (State.rs s) (State.fw s) (State.sv s) (State.ram s) (State.jt s) (State.out s) (State.fresh s) (State.pending s)).clr M = s.clr M := by
  simp [State.clr, hmp]

theorem upd_nt (M : Mask) (hnt : M.nt = true) (s : State) (nt : _) :
    (State.mk (State.tm s) (State.rg s) nt (State.pl s) (State.mp s) (State.dr s) (State.se s) (State.ci s) (State.bk s) (State.pg s) (State.ty s) (State.pr s) (State.lk s) (State.hs s) (State.op s) (State.ft s) (State.kp s) (State.rs s) (State.fw s) (State.sv s) (State.ram s) (State.jt s) (State.out s) (State.fresh s) (State.pending s)).clr M = s.clr M := by
  simp [State.clr, hnt]

theorem upd_nt_ci_bk_pg (M : Mask) (hnt : M.nt = true) (hci : M.ci = true) (hbk : M.bk = true) (hpg : M.pg = true) (s : State) (nt : _) (ci : _) (bk : _) (pg : _) :
    (State.mk (State.tm s) (State.rg s) nt (State.pl s) (State.mp s) (State.dr s) (State.se s) ci bk pg (State.ty s) (State.pr s) (State.lk s) (State.hs s) (State.op s) (State.ft s) (State.kp s) (State.rs s) (State.fw s) (State.sv s) (State.ram s) (State.jt s) (State.out s) (State.fresh s) (State.pending s)).clr M = s.clr M := by
  simp [State.clr, hnt, hci, hbk, hpg]

theorem upd_nt_mp (M : Mask) (hnt : M.nt = true) (hmp : M.mp = true) (s : State) (nt : _) (mp : _) :
    (State.mk (State.tm s) (State.rg s) nt (State.pl s) mp (State.dr s) (State.se s) (State.ci s) (State.bk s) (State.pg s) (State.ty s) (State.pr s) (State.lk s) (State.hs s) (State.op s) (State.ft s) (State.kp s) (State.rs s) (State.fw s) (State.sv s) (State.ram s) (State.jt s) (State.out s) (State.fresh s) (State.pending s)).clr M = s.clr M := by
  simp [State.clr, hnt, hmp]

theorem upd_op (M : Mask) (hop : M.op = true) (s : State) (op : _) :
    (State.mk (State.tm s) (State.rg s) (State.nt s) (State.pl s) (State.mp s) (State.dr s) (State.se s) (State.ci s) (State.bk s) (State.pg s) (State.ty s) (State.pr s) (State.lk s) (State.hs s) op (State.ft s) (State.kp s) (State.rs s) (State.fw s) (State.sv s) (State.ram s) (State.jt s) (State.out s) (State.fresh s) (State.pending s)).clr M = s.clr M := by
  simp [State.clr, hop]

theorem upd_out (M : Mask) (hout : M.out = true) (s : State) (out : _) :
    (State.mk (State.tm s) (State.rg s) (State.nt s) (State.pl s) (State.mp s) (State.dr s) (State.se s) (State.ci s) (State.bk s) (State.pg s) (State.ty s) (State.pr s) (State.lk s) (State.hs s) (State.op s) (State.ft s) (State.kp s) (State.rs s) (State.fw s) (State.sv s) (State.ram s) (State.jt s) out (State.fresh s) (State.pending s)).clr M = s.clr M := by
  simp [State.clr, hout]

theorem upd_pending (M : Mask) (hpending : M.pending = true) (s : State) (pending : _) :
    (State.mk (State.tm s) (State.rg s) (State.nt s) (State.pl s) (State.mp s) (State.dr s) (State.se s) (State.ci s) (State.bk s) (State.pg s) (State.ty s) (State.pr s) (State.lk s) (State.hs s) (State.op s) (State.ft s) (State.kp s) (State.rs s) (State.fw s) (State.sv s) (State.ram s) (State.jt s) (State.out s) (State.fresh s) pending).clr M = s.clr M := by
  simp [State.clr, hpending]

theorem upd_pg (M : Mask) (hpg : M.pg = true) (s : State) (pg : _) :
    (State.mk (State.tm s) (State.rg s) (State.nt s) (State.pl s) (State.mp s) (State.dr s) (State.se s) (State.ci s) (State.bk s) pg (State.ty s) (State.pr s) (State.lk s) (State.hs s) (State.op s) (State.ft s) (State.kp s) (State.rs s) (State.fw s) (State.sv s) (State.ram s) (State.jt s) (State.out s) (State.fresh s) (State.pending s)).clr M = s.clr M := by
  simp [State.clr, hpg]

theorem upd_pl (M : Mask) (hpl : M.pl = true) (s : State) (pl : _) :
    (State.mk (State.tm s) (State.rg s) (State.nt s) pl (State.mp s) (State.dr s) (State.se s) (State.ci s) (State.bk s) (State.pg s) (State.ty s) (State.pr s) (State.lk s) (State.hs s) (State.op s) (State.ft s) (State.kp s) (State.rs s) (State.fw s) (State.sv s) (State.ram s) (State.jt s) (State.out s) (State.fresh s) (State.pending s)).clr M = s.clr M := by
  simp [State.clr, hpl]

theorem upd_pr (M : Mask) (hpr : M.pr = true) (s : State) (pr : _) :
    (State.mk (State.tm s) (State.rg s) (State.nt s) (State.pl s) (State.mp s) (State.dr s) (State.se s) (State.ci s) (State.bk s) (State.pg s) (State.ty s) pr (State.lk s) (State.hs s) (State.op s) (State.ft s) (State.kp s) (State.rs s) (State.fw s) (State.sv s) (State.ram s) (State.jt s) (State.out s) (State.fresh s) (State.pending s)).clr M = s.clr M := by
  simp [State.clr, hpr]

theorem upd_ram (M : Mask) (hram : M.ram = true) (s : State) (ram : _) :
    (State.mk (State.tm s) (State.rg s) (State.nt s) (State.pl s) (State.mp s) (State.dr s) (State.se s) (State.ci s) (State.bk s) (State.pg s) (State.ty s) (State.pr s) (State.lk s) (State.hs s) (State.op s) (State.ft s) (State.kp s) (State.rs s) (State.fw s) (State.sv s) ram (State.jt s) (State.out s) (State.fresh s) (State.pending s)).clr M = s.clr M := by
  simp [State.clr, hram]

theorem upd_rg (M : Mask) (hrg : M.rg = true) (s : State) (rg : _) :
    (State.mk (State.tm s) rg (State.nt s) (State.pl s) (State.mp s) (State.dr s) (State.se s) (State.ci s) (State.bk s) (State.pg s) (State.ty s) (State.pr s) (State.lk s) (State.hs s) (State.op s) (State.ft s) (State.kp s) (State.rs s) (State.fw s) (State.sv s) (State.ram s) (State.jt s) (State.out s) (State.fresh s) (State.pending s)).clr M = s.clr M := by
  simp [State.clr, hrg]

theorem upd_rg_nt (M : Mask) (hrg : M.rg = true) (hnt : M.nt = true) (s : State) (rg : _) (nt : _) :
    (State.mk (State.tm s) rg nt (State.pl s) (State.mp s) (State.dr s) (State.se s) (State.ci s) (State.bk s) (State.pg s) (State.ty s) (State.pr s) (State.lk s) (State.hs s) (State.op s) (State.ft s) (State.kp s) (State.rs s) (State.fw s) (State.sv s) (State.ram s) (State.jt s) (State.out s) (State.fresh s) (State.pending s)).clr M = s.clr M := by
  simp [State.clr, hrg, hnt]

theorem upd_rs (M : Mask) (hrs : M.rs = true) (s : State) (rs : _) :
    (State.mk (State.tm s) (State.rg s) (State.nt s) (State.pl s) (State.mp s) (State.dr s) (State.se s) (State.ci s) (State.bk s) (State.pg s) (State.ty s) (State.pr s) (State.lk s) (State.hs s) (State.op s) (State.ft s) (State.kp s) rs (State.fw s) (State.sv s) (State.ram s) (State.jt s) (State.out s) (State.fresh s) (State.pending s)).clr M = s.clr M := by
  simp [State.clr, hrs]

theorem upd_se (M : Mask) (hse : M.se = true) (s : State) (se : _) :
    (State.mk (State.tm s) (State.rg s) (State.nt s) (State.pl s) (State.mp s) (State.dr s) se (State.ci s) (State.bk s) (State.pg s) (State.ty s) (State.pr s) (State.lk s) (State.hs s) (State.op s) (State.ft s) (State.kp s) (State.rs s) (State.fw s) (State.sv s) (State.ram s) (State.jt s) (State.out s) (State.fresh s) (State.pending s)).clr M = s.clr M := by
  simp [State.clr, hse]

theorem upd_se_ci_bk (M : Mask) (hse : M.se = true) (hci : M.ci = true) (hbk : M.bk = true) (s : State) (se : _) (ci : _) (bk : _) :
    (State.mk (State.tm s) (State.rg s) (State.nt s) (State.pl s) (State.mp s) (State.dr s) se ci bk (State.pg s) (State.ty s) (State.pr s) (State.lk s) (State.hs s) (State.op s) (State.ft s) (State.kp s) (State.rs s) (State.fw s) (State.sv s) (State.ram s) (State.jt s) (State.out s) (State.fresh s) (State.pending s)).clr M = s.clr M := by
  simp [State.clr, hse, hci, hbk]

theorem upd_se_pg (M : Mask) (hse : M.se = true) (hpg : M.pg = true) (s : State) (se : _) (pg : _) :
    (State.mk (State.tm s) (State.rg s) (State.nt s) (State.pl s) (State.mp s) (State.dr s) se (State.ci s) (State.bk s) pg (State.ty s) (State.pr s) (State.lk s) (State.hs s) (State.op s) (State.ft s) (State.kp s) (State.rs s) (State.fw s) (State.sv s) (State.ram s) (State.jt s) (State.out s) (State.fresh s) (State.pending s)).clr M = s.clr M := by
  simp [State.clr, hse, hpg]

theorem upd_se_pg_ty (M : Mask) (hse : M.se = true) (hpg : M.pg = true) (hty : M.ty = true) (s : State) (se : _) (pg : _) (ty : _) :
    (State.mk (State.tm s) (State.rg s) (State.nt s) (State.pl s) (State.mp s) (State.dr s) se (State.ci s) (State.bk s) pg ty (State.pr s) (State.lk s) (State.hs s) (State.op s) (State.ft s) (State.kp s) (State.rs s) (State.fw s) (State.sv s) (State.ram s) (State.jt s) (State.out s) (State.fresh s) (State.pending s)).clr M = s.clr M := by
  simp [State.clr, hse, hpg, hty]

theorem upd_sv (M : Mask) (hsv : M.sv = true) (s : State) (sv : _) :
    (State.mk (State.tm s) (State.rg s) (State.nt s) (State.pl s) (State.mp s) (State.dr s) (State.se s) (State.ci s) (State.bk s) (State.pg s) (State.ty s) (State.pr s) (State.lk s) (State.hs s) (State.op s) (State.ft s) (State.kp s) (State.rs s) (State.fw s) sv (State.ram s) (State.jt s) (State.out s) (State.fresh s) (State.pending s)).clr M = s.clr M := by
  simp [State.clr, hsv]

theorem upd_tm (M : Mask) (htm : M.tm = true) (s : State) (tm : _) :
    (State.mk tm (State.rg s) (State.nt s) (State.pl s) (State.mp s) (State.dr s) (State.se s) (State.ci s) (State.bk s) (State.pg s) (State.ty s) (State.pr s) (State.lk s) (State.hs s) (State.op s) (State.ft s) (State.kp s) (State.rs s) (State.fw s) (State.sv s) (State.ram s) (State.jt s) (State.out s) (State.fresh s) (State.pending s)).clr M = s.clr M := by
  simp [State.clr, htm]

theorem upd_tm_ft_fw (M : Mask) (htm : M.tm = true) (hft : M.ft = true) (hfw : M.fw = true) (s : State) (tm : _) (ft : _) (fw : _) :
    (State.mk tm (State.rg s) (State.nt s) (State.pl s) (State.mp s) (State.dr s) (State.se s) (State.ci s) (State.bk s) (State.pg s) (State.ty s) (State.pr s) (State.lk s) (State.hs s) (State.op s) ft (State.kp s) (State.rs s) fw (State.sv s) (State.ram s) (State.jt s) (State.out s) (State.fresh s) (State.pending s)).clr M = s.clr M := by
  simp [State.clr, htm, hft, hfw]

theorem upd_tm_lk_fw (M : Mask) (htm : M.tm = true) (hlk : M.lk = true) (hfw : M.fw = true) (s : State) (tm : _) (lk : _) (fw : _) :
    (State.mk tm (State.rg s) (State.nt s) (State.pl s) (State.mp s) (State.dr s) (State.se s) (State.ci s) (State.bk s) (State.pg s) (State.ty s) (State.pr s) lk (State.hs s) (State.op s) (State.ft s) (State.kp s) (State.rs s) fw (State.sv s) (State.ram s) (State.jt s) (State.out s) (State.fresh s) (State.pending s)).clr M = s.clr M := by
  simp [State.clr, htm, hlk, hfw]

theorem upd_tm_ram (M : Mask) (htm : M.tm = true) (hram : M.ram = true) (s : State) (tm : _) (ram : _) :
    (State.mk tm (State.rg s) (State.nt s) (State.pl s) (State.mp s) (State.dr s) (State.se s) (State.ci s) (State.bk s) (State.pg s) (State.ty s) (State.pr s) (State.lk s) (State.hs s) (State.op s) (State.ft s) (State.kp s) (State.rs s) (State.fw s) (State.sv s) ram (State.jt s) (State.out s) (State.fresh s) (State.pending s)).clr M = s.clr M := by
  simp [State.clr, htm, hram]

theorem upd_tm_rg_nt_pl_mp_dr_se_ci_bk_pg_ty_pr_lk_hs_op_ft_rs_fw_sv (M : Mask) (htm : M.tm = true) (hrg : M.rg = true) (hnt : M.nt = true) (hpl : M.pl = true) (hmp : M.mp = true) (hdr : M.dr = true) (hse : M.se = true) (hci : M.ci = true) (hbk : M.bk = true) (hpg : M.pg = true) (hty : M.ty = true) (hpr : M.pr = true) (hlk : M.lk = true) (hhs : M.hs = true) (hop : M.op = true) (hft : M.ft = true) (hrs : M.rs = true) (hfw : M.fw = true) (hsv : M.sv = true) (s : State) (tm : _) (rg : _) (nt : _) (pl : _) (mp : _) (dr : _) (se : _) (ci : _) (bk : _) (pg : _) (ty : _) (pr : _) (lk : _) (hs : _) (op : _) (ft : _) (rs : _) (fw : _) (sv : _) :
    (State.mk tm rg nt pl mp dr se ci bk pg ty pr lk hs op ft (State.kp s) rs fw sv (State.ram s) (State.jt s) (State.out s) (State.fresh s) (State.pending s)).clr M = s.clr M := by
  simp [State.clr, htm, hrg, hnt, hpl, hmp, hdr, hse, hci, hbk, hpg, hty, hpr, hlk, hhs, hop, hft, hrs, hfw, hsv]

theorem upd_tm_rs (M : Mask) (htm : M.tm = true) (hrs : M.rs = true) (s : State) (tm : _) (rs : _) :
    (State.mk tm (State.rg s) (State.nt s) (State.pl s) (State.mp s) (State.dr s) (State.se s) (State.ci s) (State.bk s) (State.pg s) (State.ty s) (State.pr s) (State.lk s) (State.hs s) (State.op s) (State.ft s) (State.kp s) rs (State.fw s) (State.sv s) (State.ram s) (State.jt s) (State.out s) (State.fresh s) (State.pending s)).clr M = s.clr M := by
  simp [State.clr, htm, hrs]

theorem upd_ty (M : Mask) (hty : M.ty = true) (s : State) (ty : _) :
    (State.mk (State.tm s) (State.rg s) (State.nt s) (State.pl s) (State.mp s) (State.dr s) (State.se s) (State.ci s) (State.bk s) (State.pg s) ty (State.pr s) (State.lk s) (State.hs s) (State.op s) (State.ft s) (State.kp s) (State.rs s) (State.fw s) (State.sv s) (State.ram s) (State.jt s) (State.out s) (State.fresh s) (State.pending s)).clr M = s.clr M := by
  simp [State.clr, hty]

theorem upd_ty_pr (M : Mask) (hty : M.ty = true) (hpr : M.pr = true) (s : State) (ty : _) (pr : _) :
    (State.mk (State.tm s) (State.rg s) (State.nt s) (State.pl s) (State.mp s) (State.dr s) (State.se s) (State.ci s) (State.bk s) (State.pg s) ty pr (State.lk s) (State.hs s) (State.op s) (State.ft s) (State.kp s) (State.rs s) (State.fw s) (State.sv s) (State.ram s) (State.jt s) (State.out s) (State.fresh s) (State.pending s)).clr M = s.clr M := by
  simp [State.clr, hty, hpr]

theorem forEach_clr {α : Type} (M : Mask) (xs : List α) (f : α → State → State) (s : State) (h : ∀ x t, (f x t).clr M = t.clr M) :
    (forEach xs f s).clr M = s.clr M := by
  unfold forEach
  induction xs generalizing s with
  | nil => rfl
  | cons x xs ih => exact (ih (f x s)).trans (h x s)

theorem foldl_clr {α : Type} (M : Mask) (xs : List α) (f : State → α → State) (s : State) (h : ∀ t x, (f t x).clr M = t.clr M) :
    (xs.foldl f s).clr M = s.clr M := by
  induction xs generalizing s with
  | nil => rfl
  | cons x xs ih => exact (ih (f s x)).trans (h s x)

theorem doIf_clr (M : Mask) (c : Bool) (f : State → State) (s : State) (h : ∀ t, (f t).clr M = t.clr M) :
    (doIf c f s).clr M = s.clr M := by
  unfold doIf
  split
  · exact h s
  · rfl


end Sys2Proof.Machine
end

