-- ==== Sys2Proof/Laws/FrameNet.lean ====
section
/-! SUPPORT. What each operation of Ops, Access, Routing, Shaping, LinkBase, Arbitration, Endpoint, MemPort leaves unchanged: a state after it agrees with the state before outside
the parts it may change. -/
set_option linter.unusedTactic false
set_option linter.unreachableTactic false
set_option linter.unusedVariables false
set_option linter.unusedSimpArgs false

namespace Sys2Proof.Machine

theorem emit_clr (M : Mask) (hout : M.out = true) (a0 : Output) (a1 : State)  :
    (emit a0 a1).clr M = a1.clr M := by
  unfold emit
  repeat' first
    | with_reducible rfl | split | simp only [upd_out M hout] | with_reducible refine (foldl_clr M _ _ _ ?_).trans ?_ | intro _
    | dsimp only

theorem freshen_clr (M : Mask) (hfresh : M.fresh = true) (a0 : State)  :
    (freshen a0).clr M = a0.clr M := by
  unfold freshen
  repeat' first
    | with_reducible rfl | split | simp only [upd_fresh M hfresh] | with_reducible refine (foldl_clr M _ _ _ ?_).trans ?_ | intro _
    | dsimp only

theorem userLoad_clr (M : Mask) (hout : M.out = true) (a0 : DWord) (a1 : ℕ) (a2 : State)  :
    (userLoad a0 a1 a2).clr M = a2.clr M := by
  unfold userLoad
  repeat' first
    | with_reducible rfl | split | simp only [upd_out M hout] | with_reducible refine (foldl_clr M _ _ _ ?_).trans ?_ | intro _
    | dsimp only

theorem userStore_clr (M : Mask) (hout : M.out = true) (a0 : DWord) (a1 : List Byte) (a2 : State)  :
    (userStore a0 a1 a2).clr M = a2.clr M := by
  unfold userStore
  repeat' first
    | with_reducible rfl | split | simp only [upd_out M hout] | with_reducible refine (foldl_clr M _ _ _ ?_).trans ?_ | intro _
    | dsimp only

theorem addCount_clr (M : Mask) (hrg : M.rg = true) (a0 : ℕ) (a1 : ℕ) (a2 : ℕ) (a3 : ℕ) (a4 : State)  :
    (addCount a0 a1 a2 a3 a4).clr M = a4.clr M := by
  unfold addCount
  repeat' first
    | with_reducible rfl | split | simp only [upd_rg M hrg] | with_reducible refine (foldl_clr M _ _ _ ?_).trans ?_ | intro _
    | dsimp only

theorem modPage_clr (M : Mask) (hrg : M.rg = true) (a0 : ℕ) (a1 : ℕ) (a2 : Page → Page) (a3 : State)  :
    (modPage a0 a1 a2 a3).clr M = a3.clr M := by
  unfold modPage
  repeat' first
    | with_reducible rfl | split | simp only [upd_rg M hrg] | with_reducible refine (foldl_clr M _ _ _ ?_).trans ?_ | intro _
    | dsimp only

theorem badWrite_clr (M : Mask) (hrg : M.rg = true) (a0 : ℕ) (a1 : ℕ) (a2 : State)  :
    (badWrite a0 a1 a2).clr M = a2.clr M := by
  unfold badWrite
  repeat' first
    | with_reducible rfl | split | with_reducible refine (modPage_clr M hrg _ _ _ _ ).trans ?_
    | with_reducible refine (foldl_clr M _ _ _ ?_).trans ?_ | intro _ | dsimp only

theorem cipRsp_clr (M : Mask) (hout : M.out = true) (a0 : ℕ) (a1 : ℕ) (a2 : ℕ) (a3 : ℕ) (a4 : List Byte) (a5 : State)  :
    (cipRsp a0 a1 a2 a3 a4 a5).clr M = a5.clr M := by
  unfold cipRsp
  repeat' first
    | with_reducible rfl | split | with_reducible refine (emit_clr M hout _ _ ).trans ?_
    | with_reducible refine (foldl_clr M _ _ _ ?_).trans ?_ | intro _ | dsimp only

theorem clearFaults_clr (M : Mask) (hrg : M.rg = true) (a0 : ℕ) (a1 : ℕ) (a2 : Word) (a3 : State)  :
    (clearFaults a0 a1 a2 a3).clr M = a3.clr M := by
  unfold clearFaults
  repeat' first
    | with_reducible rfl | split | with_reducible refine (modPage_clr M hrg _ _ _ _ ).trans ?_
    | with_reducible refine (foldl_clr M _ _ _ ?_).trans ?_ | intro _ | dsimp only

theorem modUnit_clr (M : Mask) (htm : M.tm = true) (a0 : ℕ) (a1 : PressUnit → PressUnit) (a2 : State)  :
    (modUnit a0 a1 a2).clr M = a2.clr M := by
  unfold modUnit
  repeat' first
    | with_reducible rfl | split | simp only [upd_tm M htm] | with_reducible refine (foldl_clr M _ _ _ ?_).trans ?_ | intro _
    | dsimp only

theorem raise_clr (M : Mask) (hrg : M.rg = true) (hft : M.ft = true) (a0 : ℕ) (a1 : ℕ) (a2 : ℕ) (a3 : Option ℕ) (a4 : Word) (a5 : State)  :
    (raise a0 a1 a2 a3 a4 a5).clr M = a5.clr M := by
  unfold raise
  repeat' first
    | with_reducible rfl | split | with_reducible refine (modPage_clr M hrg _ _ _ _ ).trans ?_
    | with_reducible refine (addCount_clr M hrg _ _ _ _ _ ).trans ?_ | with_reducible refine (doIf_clr M _ _ _ ?_).trans ?_
    | simp only [upd_ft M hft, upd_rg M hrg] | with_reducible refine (foldl_clr M _ _ _ ?_).trans ?_ | intro _ | dsimp only

theorem raise0_clr (M : Mask) (hrg : M.rg = true) (hft : M.ft = true) (a0 : ℕ) (a1 : ℕ) (a2 : ℕ) (a3 : State)  :
    (raise0 a0 a1 a2 a3).clr M = a3.clr M := by
  unfold raise0
  repeat' first
    | with_reducible rfl | split | with_reducible refine (raise_clr M hrg hft _ _ _ _ _ _ ).trans ?_
    | with_reducible refine (foldl_clr M _ _ _ ?_).trans ?_ | intro _ | dsimp only

theorem setReg_clr (M : Mask) (hrg : M.rg = true) (a0 : ℕ) (a1 : ℕ) (a2 : ℕ) (a3 : ℕ) (a4 : Word) (a5 : State)  :
    (setReg a0 a1 a2 a3 a4 a5).clr M = a5.clr M := by
  unfold setReg
  repeat' first
    | with_reducible rfl | split | simp only [upd_rg M hrg] | with_reducible refine (foldl_clr M _ _ _ ?_).trans ?_ | intro _
    | dsimp only

theorem raisePrs_clr (M : Mask) (hrg : M.rg = true) (hft : M.ft = true) (a0 : ℕ) (a1 : ℕ) (a2 : Option ℕ) (a3 : Word) (a4 : State)  :
    (raisePrs a0 a1 a2 a3 a4).clr M = a4.clr M := by
  unfold raisePrs
  repeat' first
    | with_reducible rfl | split | with_reducible refine (setReg_clr M hrg _ _ _ _ _ _ ).trans ?_
    | with_reducible refine (raise_clr M hrg hft _ _ _ _ _ _ ).trans ?_ | with_reducible refine (foldl_clr M _ _ _ ?_).trans ?_
    | intro _ | dsimp only

theorem satCount_clr (M : Mask) (hrg : M.rg = true) (a0 : ℕ) (a1 : ℕ) (a2 : ℕ) (a3 : ℕ) (a4 : State)  :
    (satCount a0 a1 a2 a3 a4).clr M = a4.clr M := by
  unfold satCount
  repeat' first
    | with_reducible rfl | split | with_reducible refine (setReg_clr M hrg _ _ _ _ _ _ ).trans ?_
    | with_reducible refine (foldl_clr M _ _ _ ?_).trans ?_ | intro _ | dsimp only

theorem setShadow_clr (M : Mask) (hrg : M.rg = true) (a0 : ℕ) (a1 : ℕ) (a2 : ℕ) (a3 : ℕ) (a4 : Word) (a5 : State)  :
    (setShadow a0 a1 a2 a3 a4 a5).clr M = a5.clr M := by
  unfold setShadow
  repeat' first
    | with_reducible rfl | split | simp only [upd_rg M hrg] | with_reducible refine (foldl_clr M _ _ _ ?_).trans ?_ | intro _
    | dsimp only

theorem storeBy_clr (M : Mask) (hout : M.out = true) (a0 : ℕ) (a1 : DWord) (a2 : List Byte) (a3 : State)  :
    (storeBy a0 a1 a2 a3).clr M = a3.clr M := by
  unfold storeBy
  repeat' first
    | with_reducible rfl | split | with_reducible refine (userStore_clr M hout _ _ _ ).trans ?_
    | with_reducible refine (foldl_clr M _ _ _ ?_).trans ?_ | intro _ | dsimp only

theorem consume_clr (M : Mask) (hnt : M.nt = true) (a0 : ℕ) (a1 : ℕ) (a2 : Packet) (a3 : State)  :
    (consume a0 a1 a2 a3).clr M = a3.clr M := by
  unfold consume
  repeat' first
    | with_reducible rfl | split | simp only [upd_nt M hnt] | with_reducible refine (foldl_clr M _ _ _ ?_).trans ?_ | intro _
    | dsimp only

theorem sendFrom_clr (M : Mask) (hnt : M.nt = true) (a0 : ℕ) (a1 : ℕ) (a2 : ℕ) (a3 : Packet) (a4 : State)  :
    (sendFrom a0 a1 a2 a3 a4).clr M = a4.clr M := by
  unfold sendFrom
  repeat' first
    | with_reducible rfl | split | simp only [upd_nt M hnt] | with_reducible refine (foldl_clr M _ _ _ ?_).trans ?_ | intro _
    | dsimp only

theorem sendLoss_clr (M : Mask) (hnt : M.nt = true) (a0 : ℕ) (a1 : ℕ) (a2 : ℕ) (a3 : ℕ) (a4 : Packet) (a5 : State)  :
    (sendLoss a0 a1 a2 a3 a4 a5).clr M = a5.clr M := by
  unfold sendLoss
  repeat' first
    | with_reducible rfl | split | with_reducible refine (sendFrom_clr M hnt _ _ _ _ _ ).trans ?_
    | with_reducible refine (foldl_clr M _ _ _ ?_).trans ?_ | intro _ | dsimp only

theorem atStart_clr (M : Mask) (hrg : M.rg = true) (hnt : M.nt = true) (a0 : State)  :
    (atStart a0).clr M = a0.clr M := by
  unfold atStart
  repeat' first
    | with_reducible rfl | split | simp only [upd_nt M hnt, upd_rg M hrg, upd_rg_nt M hrg hnt]
    | with_reducible refine (foldl_clr M _ _ _ ?_).trans ?_ | intro _ | dsimp only

theorem setTok_clr (M : Mask) (hnt : M.nt = true) (a0 : ℕ) (a1 : ℤ) (a2 : State)  :
    (setTok a0 a1 a2).clr M = a2.clr M := by
  unfold setTok
  repeat' first
    | with_reducible rfl | split | simp only [upd_nt M hnt] | with_reducible refine (foldl_clr M _ _ _ ?_).trans ?_ | intro _
    | dsimp only

theorem noteCharge_clr (M : Mask) (hnt : M.nt = true) (a0 : ℕ) (a1 : ℕ) (a2 : State)  :
    (noteCharge a0 a1 a2).clr M = a2.clr M := by
  unfold noteCharge
  repeat' first
    | with_reducible rfl | split | simp only [upd_nt M hnt] | with_reducible refine (foldl_clr M _ _ _ ?_).trans ?_ | intro _
    | dsimp only

theorem chargeNode_clr (M : Mask) (hnt : M.nt = true) (a0 : ℕ) (a1 : NodeCfg) (a2 : ℕ) (a3 : State)  :
    (chargeNode a0 a1 a2 a3).clr M = a3.clr M := by
  unfold chargeNode
  repeat' first
    | with_reducible rfl | split | with_reducible refine (setTok_clr M hnt _ _ _ ).trans ?_
    | with_reducible refine (noteCharge_clr M hnt _ _ _ ).trans ?_ | with_reducible refine (foldl_clr M _ _ _ ?_).trans ?_ | intro _
    | dsimp only

theorem chargeCtx_clr (M : Mask) (hrg : M.rg = true) (hnt : M.nt = true) (a0 : ℕ) (a1 : ℕ) (a2 : ℕ) (a3 : ℕ) (a4 : State)  :
    (chargeCtx a0 a1 a2 a3 a4).clr M = a4.clr M := by
  unfold chargeCtx
  repeat' first
    | with_reducible rfl | split | with_reducible refine (chargeNode_clr M hnt _ _ _ _ ).trans ?_
    | with_reducible refine (addCount_clr M hrg _ _ _ _ _ ).trans ?_ | with_reducible refine (foldl_clr M _ _ _ ?_).trans ?_ | intro _
    | dsimp only

theorem chargeStart_clr (M : Mask) (hrg : M.rg = true) (hnt : M.nt = true) (a0 : ℕ) (a1 : ℕ) (a2 : ℕ) (a3 : ℕ) (a4 : Packet) (a5 : State)  :
    (chargeStart a0 a1 a2 a3 a4 a5).clr M = a5.clr M := by
  unfold chargeStart
  repeat' first
    | with_reducible rfl | split | with_reducible refine (chargeCtx_clr M hrg hnt _ _ _ _ _ ).trans ?_
    | with_reducible refine (chargeNode_clr M hnt _ _ _ _ ).trans ?_ | with_reducible refine (setTok_clr M hnt _ _ _ ).trans ?_
    | with_reducible refine (addCount_clr M hrg _ _ _ _ _ ).trans ?_ | with_reducible refine (noteCharge_clr M hnt _ _ _ ).trans ?_
    | with_reducible refine (doIf_clr M _ _ _ ?_).trans ?_ | with_reducible refine (foldl_clr M _ _ _ ?_).trans ?_ | intro _
    | dsimp only

theorem checkGateList_clr (M : Mask) (hrg : M.rg = true) (hft : M.ft = true) (a0 : ℕ) (a1 : ℕ) (a2 : ℕ) (a3 : ℕ) (a4 : State)  :
    (checkGateList a0 a1 a2 a3 a4).clr M = a4.clr M := by
  unfold checkGateList
  repeat' first
    | with_reducible rfl | split | with_reducible refine (setReg_clr M hrg _ _ _ _ _ _ ).trans ?_
    | with_reducible refine (raise0_clr M hrg hft _ _ _ _ ).trans ?_ | with_reducible refine (foldl_clr M _ _ _ ?_).trans ?_ | intro _
    | dsimp only

theorem countDefer_clr (M : Mask) (hnt : M.nt = true) (a0 : ℕ) (a1 : ℕ) (a2 : ℕ) (a3 : ℕ) (a4 : State)  :
    (countDefer a0 a1 a2 a3 a4).clr M = a4.clr M := by
  unfold countDefer
  repeat' first
    | with_reducible rfl | split | simp only [upd_nt M hnt] | with_reducible refine (foldl_clr M _ _ _ ?_).trans ?_ | intro _
    | dsimp only

theorem resetTok_clr (M : Mask) (hnt : M.nt = true) (a0 : ℕ) (a1 : NodeCfg) (a2 : State)  :
    (resetTok a0 a1 a2).clr M = a2.clr M := by
  unfold resetTok
  repeat' first
    | with_reducible rfl | split | with_reducible refine (setTok_clr M hnt _ _ _ ).trans ?_
    | with_reducible refine (foldl_clr M _ _ _ ?_).trans ?_ | intro _ | dsimp only

theorem startCycle_clr (M : Mask) (hnt : M.nt = true) (a0 : State)  :
    (startCycle a0).clr M = a0.clr M := by
  unfold startCycle
  repeat' first
    | with_reducible rfl | split | simp only [upd_nt M hnt] | with_reducible refine (foldl_clr M _ _ _ ?_).trans ?_ | intro _
    | dsimp only

theorem setClock_clr (M : Mask) (htm : M.tm = true) (hnt : M.nt = true) (a0 : ℕ) (a1 : State)  :
    (setClock a0 a1).clr M = a1.clr M := by
  unfold setClock
  repeat' first
    | with_reducible rfl | split | with_reducible refine (startCycle_clr M hnt _ ).trans ?_ | simp only [upd_nt M hnt, upd_tm M htm]
    | with_reducible refine (foldl_clr M _ _ _ ?_).trans ?_ | intro _ | dsimp only

theorem takeGates_clr (M : Mask) (hnt : M.nt = true) (a0 : State)  :
    (takeGates a0).clr M = a0.clr M := by
  unfold takeGates
  repeat' first
    | with_reducible rfl | split | simp only [upd_nt M hnt] | with_reducible refine (foldl_clr M _ _ _ ?_).trans ?_ | intro _
    | dsimp only

theorem zeroTileTokens_clr (M : Mask) (hnt : M.nt = true) (a0 : ℕ) (a1 : ℕ) (a2 : State)  :
    (zeroTileTokens a0 a1 a2).clr M = a2.clr M := by
  unfold zeroTileTokens
  repeat' first
    | with_reducible rfl | split | with_reducible refine (setTok_clr M hnt _ _ _ ).trans ?_
    | with_reducible refine (forEach_clr M _ _ _ ?_).trans ?_ | simp only [upd_nt M hnt]
    | with_reducible refine (foldl_clr M _ _ _ ?_).trans ?_ | intro _ | dsimp only

theorem wakeTile_clr (M : Mask) (hnt : M.nt = true) (hrs : M.rs = true) (a0 : ℕ) (a1 : ℕ) (a2 : State)  :
    (wakeTile a0 a1 a2).clr M = a2.clr M := by
  unfold wakeTile
  repeat' first
    | with_reducible rfl | split | with_reducible refine (zeroTileTokens_clr M hnt _ _ _ ).trans ?_
    | simp only [upd_nt M hnt, upd_rs M hrs] | with_reducible refine (foldl_clr M _ _ _ ?_).trans ?_ | intro _ | dsimp only

theorem modLnk_clr (M : Mask) (hlk : M.lk = true) (a0 : ℕ) (a1 : Link → Link) (a2 : State)  :
    (modLnk a0 a1 a2).clr M = a2.clr M := by
  unfold modLnk
  repeat' first
    | with_reducible rfl | split | simp only [upd_lk M hlk] | with_reducible refine (foldl_clr M _ _ _ ?_).trans ?_ | intro _
    | dsimp only

theorem modLink_clr (M : Mask) (hlk : M.lk = true) (a0 : ℕ) (a1 : ℕ) (a2 : Link → Link) (a3 : State)  :
    (modLink a0 a1 a2 a3).clr M = a3.clr M := by
  unfold modLink
  repeat' first
    | with_reducible rfl | split | with_reducible refine (modLnk_clr M hlk _ _ _ ).trans ?_ | simp only [upd_lk M hlk]
    | with_reducible refine (foldl_clr M _ _ _ ?_).trans ?_ | intro _ | dsimp only

theorem putFrame_clr (M : Mask) (hout : M.out = true) (a0 : ℕ) (a1 : ℕ) (a2 : TxFrame) (a3 : State)  :
    (putFrame a0 a1 a2 a3).clr M = a3.clr M := by
  unfold putFrame
  repeat' first
    | with_reducible rfl | split | with_reducible refine (emit_clr M hout _ _ ).trans ?_
    | with_reducible refine (foldl_clr M _ _ _ ?_).trans ?_ | intro _ | dsimp only

theorem sendFrame_clr (M : Mask) (hlk : M.lk = true) (hout : M.out = true) (a0 : ℕ) (a1 : ℕ) (a2 : ℕ) (a3 : List FlitSlot) (a4 : List (List Byte)) (a5 : List Packet) (a6 : State)  :
    (sendFrame a0 a1 a2 a3 a4 a5 a6).clr M = a6.clr M := by
  unfold sendFrame
  repeat' first
    | with_reducible rfl | split | with_reducible refine (modLink_clr M hlk _ _ _ _ ).trans ?_
    | with_reducible refine (putFrame_clr M hout _ _ _ _ ).trans ?_ | with_reducible refine (foldl_clr M _ _ _ ?_).trans ?_ | intro _
    | dsimp only

theorem sendSym_clr (M : Mask) (hlk : M.lk = true) (hout : M.out = true) (a0 : ℕ) (a1 : ℕ) (a2 : ℕ) (a3 : ℕ) (a4 : State)  :
    (sendSym a0 a1 a2 a3 a4).clr M = a4.clr M := by
  unfold sendSym
  repeat' first
    | with_reducible rfl | split | with_reducible refine (emit_clr M hout _ _ ).trans ?_
    | with_reducible refine (sendFrame_clr M hlk hout _ _ _ _ _ _ _ ).trans ?_ | with_reducible refine (foldl_clr M _ _ _ ?_).trans ?_
    | intro _ | dsimp only

theorem creditSym_clr (M : Mask) (hlk : M.lk = true) (hout : M.out = true) (a0 : ℕ) (a1 : ℕ) (a2 : ℕ) (a3 : ℕ) (a4 : ℕ) (a5 : ℕ) (a6 : State)  :
    (creditSym a0 a1 a2 a3 a4 a5 a6).clr M = a6.clr M := by
  unfold creditSym
  repeat' first
    | with_reducible rfl | split | with_reducible refine (sendSym_clr M hlk hout _ _ _ _ _ ).trans ?_
    | with_reducible refine (foldl_clr M _ _ _ ?_).trans ?_ | intro _ | dsimp only

theorem modMod_clr (M : Mask) (hlk : M.lk = true) (a0 : ℕ) (a1 : ℕ) (a2 : ℕ) (a3 : Link → Link) (a4 : State)  :
    (modMod a0 a1 a2 a3 a4).clr M = a4.clr M := by
  unfold modMod
  repeat' first
    | with_reducible rfl | split | simp only [upd_lk M hlk] | with_reducible refine (foldl_clr M _ _ _ ?_).trans ?_ | intro _
    | dsimp only

theorem sendGroups_clr (M : Mask) (hlk : M.lk = true) (hout : M.out = true) (a0 : ℕ) (a1 : ℕ) (a2 : Packet) (a3 : List (List FlitSlot)) (a4 : State)  :
    (sendGroups a0 a1 a2 a3 a4).clr M = a4.clr M := by
  induction a3 generalizing a4 with
  | nil => rfl
  | cons g gs ih =>
    cases gs with
    | nil => exact sendFrame_clr M hlk hout _ _ _ _ _ _ _
    | cons g' gs => exact (ih _).trans (sendFrame_clr M hlk hout _ _ _ _ _ _ _)

theorem sendPacket_clr (M : Mask) (hlk : M.lk = true) (hout : M.out = true) (a0 : ℕ) (a1 : ℕ) (a2 : Packet) (a3 : State)  :
    (sendPacket a0 a1 a2 a3).clr M = a3.clr M := by
  unfold sendPacket
  repeat' first
    | with_reducible rfl | split | with_reducible refine (sendFrame_clr M hlk hout _ _ _ _ _ _ _ ).trans ?_
    | with_reducible refine (sendGroups_clr M hlk hout _ _ _ _ _ ).trans ?_ | with_reducible refine (foldl_clr M _ _ _ ?_).trans ?_
    | intro _ | dsimp only

theorem leaveBy_clr (M : Mask) (hrg : M.rg = true) (hnt : M.nt = true) (hlk : M.lk = true) (hout : M.out = true) (a0 : ℕ) (a1 : ℕ) (a2 : ℕ) (a3 : Packet) (a4 : State)  :
    (leaveBy a0 a1 a2 a3 a4).clr M = a4.clr M := by
  unfold leaveBy
  repeat' first
    | with_reducible rfl | split | with_reducible refine (sendPacket_clr M hlk hout _ _ _ _ ).trans ?_
    | with_reducible refine (addCount_clr M hrg _ _ _ _ _ ).trans ?_ | with_reducible refine (sendLoss_clr M hnt _ _ _ _ _ _ ).trans ?_
    | simp only [upd_nt M hnt, upd_out M hout, upd_rg M hrg, upd_lk M hlk, upd_rg_nt M hrg hnt]
    | with_reducible refine (foldl_clr M _ _ _ ?_).trans ?_ | intro _ | dsimp only

theorem collectorGo_clr (M : Mask) (hrg : M.rg = true) (hnt : M.nt = true) (hlk : M.lk = true) (hout : M.out = true) (a0 : ℕ) (a1 : Packet) (a2 : State)  :
    (collectorGo a0 a1 a2).clr M = a2.clr M := by
  unfold collectorGo
  repeat' first
    | with_reducible rfl | split | with_reducible refine (leaveBy_clr M hrg hnt hlk hout _ _ _ _ _ ).trans ?_
    | simp only [upd_nt M hnt, upd_out M hout, upd_rg M hrg, upd_lk M hlk, upd_rg_nt M hrg hnt]
    | with_reducible refine (foldl_clr M _ _ _ ?_).trans ?_ | intro _ | dsimp only

theorem collectorDrain_clr (M : Mask) (hrg : M.rg = true) (hnt : M.nt = true) (hlk : M.lk = true) (hout : M.out = true) (a0 : ℕ) (a1 : State)  :
    (collectorDrain a0 a1).clr M = a1.clr M := by
  unfold collectorDrain
  repeat' first
    | with_reducible rfl | split | with_reducible refine (collectorGo_clr M hrg hnt hlk hout _ _ _ ).trans ?_
    | with_reducible refine (forEach_clr M _ _ _ ?_).trans ?_ | with_reducible refine (foldl_clr M _ _ _ ?_).trans ?_ | intro _
    | dsimp only

theorem countHeld_clr (M : Mask) (hrg : M.rg = true) (a0 : ℕ) (a1 : ℕ) (a2 : ℕ) (a3 : State)  :
    (countHeld a0 a1 a2 a3).clr M = a3.clr M := by
  unfold countHeld
  repeat' first
    | with_reducible rfl | split | with_reducible refine (addCount_clr M hrg _ _ _ _ _ ).trans ?_
    | with_reducible refine (doIf_clr M _ _ _ ?_).trans ?_ | with_reducible refine (foldl_clr M _ _ _ ?_).trans ?_ | intro _
    | dsimp only

theorem setFront_clr (M : Mask) (hnt : M.nt = true) (a0 : ℕ) (a1 : QPkt) (a2 : State)  :
    (setFront a0 a1 a2).clr M = a2.clr M := by
  unfold setFront
  repeat' first
    | with_reducible rfl | split | simp only [upd_nt M hnt] | with_reducible refine (foldl_clr M _ _ _ ?_).trans ?_ | intro _
    | dsimp only

theorem markEgress_clr (M : Mask) (hrg : M.rg = true) (hnt : M.nt = true) (a0 : ℕ) (a1 : ℕ) (a2 : ℕ) (a3 : ℕ) (a4 : State)  :
    (markEgress a0 a1 a2 a3 a4).clr M = a4.clr M := by
  unfold markEgress
  repeat' first
    | with_reducible rfl | split | with_reducible refine (addCount_clr M hrg _ _ _ _ _ ).trans ?_
    | with_reducible refine (setFront_clr M hnt _ _ _ ).trans ?_ | with_reducible refine (forEach_clr M _ _ _ ?_).trans ?_
    | with_reducible refine (foldl_clr M _ _ _ ?_).trans ?_ | intro _ | dsimp only

theorem markHems_clr (M : Mask) (hrg : M.rg = true) (hnt : M.nt = true) (a0 : ℕ) (a1 : ℕ) (a2 : ℕ) (a3 : State)  :
    (markHems a0 a1 a2 a3).clr M = a3.clr M := by
  unfold markHems
  repeat' first
    | with_reducible rfl | split | with_reducible refine (addCount_clr M hrg _ _ _ _ _ ).trans ?_
    | with_reducible refine (markEgress_clr M hrg hnt _ _ _ _ _ ).trans ?_ | with_reducible refine (forEach_clr M _ _ _ ?_).trans ?_
    | simp only [upd_nt M hnt, upd_rg M hrg, upd_rg_nt M hrg hnt] | with_reducible refine (foldl_clr M _ _ _ ?_).trans ?_ | intro _
    | dsimp only

theorem tick_clr (M : Mask) (htm : M.tm = true) (hrg : M.rg = true) (hnt : M.nt = true) (hlk : M.lk = true) (hout : M.out = true) (a0 : State)  :
    (tick a0).clr M = a0.clr M := by
  unfold tick
  repeat' first
    | with_reducible rfl | split | with_reducible refine (countHeld_clr M hrg _ _ _ _ ).trans ?_
    | with_reducible refine (collectorDrain_clr M hrg hnt hlk hout _ _ ).trans ?_
    | with_reducible refine (addCount_clr M hrg _ _ _ _ _ ).trans ?_ | with_reducible refine (markHems_clr M hrg hnt _ _ _ _ ).trans ?_
    | with_reducible refine (setClock_clr M htm hnt _ _ ).trans ?_ | with_reducible refine (forEach_clr M _ _ _ ?_).trans ?_
    | with_reducible refine (foldl_clr M _ _ _ ?_).trans ?_ | intro _ | dsimp only

theorem ticks_clr (M : Mask) (htm : M.tm = true) (hrg : M.rg = true) (hnt : M.nt = true) (hlk : M.lk = true) (hout : M.out = true) (a0 : ℕ) (a1 : State)  :
    (ticks a0 a1).clr M = a1.clr M := by
  induction a0 generalizing a1 with
  | zero => rfl
  | succ _ ih =>
    unfold ticks
    repeat' first
      | with_reducible rfl | split | with_reducible refine (ih _).trans ?_
      | with_reducible refine (tick_clr M htm hrg hnt hlk hout _ ).trans ?_ | with_reducible refine (foldl_clr M _ _ _ ?_).trans ?_
      | intro _ | dsimp only

theorem advanceTo_clr (M : Mask) (htm : M.tm = true) (hrg : M.rg = true) (hnt : M.nt = true) (hlk : M.lk = true) (hout : M.out = true) (a0 : ℕ) (a1 : State)  :
    (advanceTo a0 a1).clr M = a1.clr M := by
  unfold advanceTo
  repeat' first
    | with_reducible rfl | split | with_reducible refine (collectorDrain_clr M hrg hnt hlk hout _ _ ).trans ?_
    | with_reducible refine (ticks_clr M htm hrg hnt hlk hout _ _ ).trans ?_
    | with_reducible refine (setClock_clr M htm hnt _ _ ).trans ?_ | with_reducible refine (forEach_clr M _ _ _ ?_).trans ?_
    | with_reducible refine (foldl_clr M _ _ _ ?_).trans ?_ | intro _ | dsimp only

theorem faultHead_clr (M : Mask) (hrg : M.rg = true) (a0 : ℕ) (a1 : ℕ) (a2 : Packet) (a3 : State)  :
    (faultHead a0 a1 a2 a3).clr M = a3.clr M := by
  unfold faultHead
  repeat' first
    | with_reducible rfl | split | with_reducible refine (setReg_clr M hrg _ _ _ _ _ _ ).trans ?_
    | with_reducible refine (foldl_clr M _ _ _ ?_).trans ?_ | intro _ | dsimp only

theorem raiseHead_clr (M : Mask) (hrg : M.rg = true) (hft : M.ft = true) (a0 : ℕ) (a1 : ℕ) (a2 : ℕ) (a3 : Packet) (a4 : State)  :
    (raiseHead a0 a1 a2 a3 a4).clr M = a4.clr M := by
  unfold raiseHead
  repeat' first
    | with_reducible rfl | split | with_reducible refine (faultHead_clr M hrg _ _ _ _ ).trans ?_
    | with_reducible refine (raise_clr M hrg hft _ _ _ _ _ _ ).trans ?_ | with_reducible refine (foldl_clr M _ _ _ ?_).trans ?_
    | intro _ | dsimp only

theorem routeParity_clr (M : Mask) (hrg : M.rg = true) (hnt : M.nt = true) (hft : M.ft = true) (a0 : ℕ) (a1 : ℕ) (a2 : Packet) (a3 : State)  :
    (routeParity a0 a1 a2 a3).clr M = a3.clr M := by
  unfold routeParity
  repeat' first
    | with_reducible rfl | split | with_reducible refine (raiseHead_clr M hrg hft _ _ _ _ _ ).trans ?_
    | with_reducible refine (raise_clr M hrg hft _ _ _ _ _ _ ).trans ?_
    | simp only [upd_nt M hnt, upd_ft M hft, upd_rg M hrg, upd_rg_nt M hrg hnt] | with_reducible refine (foldl_clr M _ _ _ ?_).trans ?_
    | intro _ | dsimp only

theorem takeGrant_clr (M : Mask) (hnt : M.nt = true) (a0 : ℕ) (a1 : ℕ) (a2 : ℕ) (a3 : State)  :
    (takeGrant a0 a1 a2 a3).clr M = a3.clr M := by
  unfold takeGrant
  repeat' first
    | with_reducible rfl | split | with_reducible refine (setFront_clr M hnt _ _ _ ).trans ?_
    | with_reducible refine (foldl_clr M _ _ _ ?_).trans ?_ | intro _ | dsimp only

theorem takeSlot_clr (M : Mask) (hnt : M.nt = true) (a0 : ℕ) (a1 : ℕ) (a2 : State)  :
    (takeSlot a0 a1 a2).clr M = a2.clr M := by
  unfold takeSlot
  repeat' first
    | with_reducible rfl | split | simp only [upd_nt M hnt] | with_reducible refine (foldl_clr M _ _ _ ?_).trans ?_ | intro _
    | dsimp only

theorem askTransit_clr (M : Mask) (hnt : M.nt = true) (a0 : ℕ) (a1 : ℕ) (a2 : ℕ) (a3 : ℕ) (a4 : State)  :
    (askTransit a0 a1 a2 a3 a4).clr M = a4.clr M := by
  unfold askTransit
  repeat' first
    | with_reducible rfl | split | with_reducible refine (takeGrant_clr M hnt _ _ _ _ ).trans ?_
    | with_reducible refine (takeSlot_clr M hnt _ _ _ ).trans ?_ | with_reducible refine (sendFrom_clr M hnt _ _ _ _ _ ).trans ?_
    | with_reducible refine (forEach_clr M _ _ _ ?_).trans ?_ | simp only [upd_nt M hnt]
    | with_reducible refine (foldl_clr M _ _ _ ?_).trans ?_ | intro _ | dsimp only

theorem askFronts_clr (M : Mask) (hnt : M.nt = true) (a0 : ℕ) (a1 : ℕ) (a2 : ℕ) (a3 : State)  :
    (askFronts a0 a1 a2 a3).clr M = a3.clr M := by
  unfold askFronts
  repeat' first
    | with_reducible rfl | split | with_reducible refine (askTransit_clr M hnt _ _ _ _ _ ).trans ?_
    | with_reducible refine (forEach_clr M _ _ _ ?_).trans ?_ | with_reducible refine (foldl_clr M _ _ _ ?_).trans ?_ | intro _
    | dsimp only

theorem flitCount_clr (M : Mask) (hrg : M.rg = true) (a0 : ℕ) (a1 : ℕ) (a2 : ℕ) (a3 : ℕ) (a4 : ℕ) (a5 : ℕ) (a6 : State)  :
    (flitCount a0 a1 a2 a3 a4 a5 a6).clr M = a6.clr M := by
  unfold flitCount
  repeat' first
    | with_reducible rfl | split | with_reducible refine (addCount_clr M hrg _ _ _ _ _ ).trans ?_
    | with_reducible refine (foldl_clr M _ _ _ ?_).trans ?_ | intro _ | dsimp only

theorem freeSlot_clr (M : Mask) (hnt : M.nt = true) (a0 : ℕ) (a1 : ℕ) (a2 : State)  :
    (freeSlot a0 a1 a2).clr M = a2.clr M := by
  unfold freeSlot
  repeat' first
    | with_reducible rfl | split | simp only [upd_nt M hnt] | with_reducible refine (foldl_clr M _ _ _ ?_).trans ?_ | intro _
    | dsimp only

theorem useGrant_clr (M : Mask) (hnt : M.nt = true) (a0 : ℕ) (a1 : ℕ) (a2 : ℕ) (a3 : ℕ) (a4 : ℕ) (a5 : State)  :
    (useGrant a0 a1 a2 a3 a4 a5).clr M = a5.clr M := by
  unfold useGrant
  repeat' first
    | with_reducible rfl | split | with_reducible refine (takeGrant_clr M hnt _ _ _ _ ).trans ?_
    | with_reducible refine (freeSlot_clr M hnt _ _ _ ).trans ?_ | with_reducible refine (foldl_clr M _ _ _ ?_).trans ?_ | intro _
    | dsimp only

theorem grantOne_clr (M : Mask) (hnt : M.nt = true) (a0 : ℕ) (a1 : State)  :
    (grantOne a0 a1).clr M = a1.clr M := by
  unfold grantOne
  repeat' first
    | with_reducible rfl | split | with_reducible refine (askFronts_clr M hnt _ _ _ _ ).trans ?_
    | with_reducible refine (takeSlot_clr M hnt _ _ _ ).trans ?_ | with_reducible refine (useGrant_clr M hnt _ _ _ _ _ _ ).trans ?_
    | with_reducible refine (sendFrom_clr M hnt _ _ _ _ _ ).trans ?_ | simp only [upd_nt M hnt]
    | with_reducible refine (foldl_clr M _ _ _ ?_).trans ?_ | intro _ | dsimp only

theorem grantNext_clr (M : Mask) (hnt : M.nt = true) (a0 : ℕ) (a1 : State)  :
    (grantNext a0 a1).clr M = a1.clr M := by
  unfold grantNext
  repeat' first
    | with_reducible rfl | split | with_reducible refine (grantOne_clr M hnt _ _ ).trans ?_
    | with_reducible refine (forEach_clr M _ _ _ ?_).trans ?_ | with_reducible refine (foldl_clr M _ _ _ ?_).trans ?_ | intro _
    | dsimp only

theorem releaseSlot_clr (M : Mask) (hnt : M.nt = true) (a0 : ℕ) (a1 : ℕ) (a2 : State)  :
    (releaseSlot a0 a1 a2).clr M = a2.clr M := by
  unfold releaseSlot
  repeat' first
    | with_reducible rfl | split | with_reducible refine (grantNext_clr M hnt _ _ ).trans ?_
    | with_reducible refine (freeSlot_clr M hnt _ _ _ ).trans ?_ | with_reducible refine (foldl_clr M _ _ _ ?_).trans ?_ | intro _
    | dsimp only

theorem freeTransit_clr (M : Mask) (hnt : M.nt = true) (a0 : Packet) (a1 : State)  :
    (freeTransit a0 a1).clr M = a1.clr M := by
  unfold freeTransit
  repeat' first
    | with_reducible rfl | split | with_reducible refine (releaseSlot_clr M hnt _ _ _ ).trans ?_
    | with_reducible refine (foldl_clr M _ _ _ ?_).trans ?_ | intro _ | dsimp only

theorem pushBuf_clr (M : Mask) (hnt : M.nt = true) (a0 : ℕ) (a1 : QPkt) (a2 : State)  :
    (pushBuf a0 a1 a2).clr M = a2.clr M := by
  unfold pushBuf
  repeat' first
    | with_reducible rfl | split | simp only [upd_nt M hnt] | with_reducible refine (foldl_clr M _ _ _ ?_).trans ?_ | intro _
    | dsimp only

theorem placePacket_clr (M : Mask) (hrg : M.rg = true) (hnt : M.nt = true) (hft : M.ft = true) (a0 : ℕ) (a1 : ℕ) (a2 : ℕ) (a3 : ℕ) (a4 : ℕ) (a5 : Packet) (a6 : State)  :
    (placePacket a0 a1 a2 a3 a4 a5 a6).clr M = a6.clr M := by
  unfold placePacket
  repeat' first
    | with_reducible rfl | split | with_reducible refine (raiseHead_clr M hrg hft _ _ _ _ _ ).trans ?_
    | with_reducible refine (freeTransit_clr M hnt _ _ ).trans ?_ | with_reducible refine (pushBuf_clr M hnt _ _ _ ).trans ?_
    | with_reducible refine (sendLoss_clr M hnt _ _ _ _ _ _ ).trans ?_ | with_reducible refine (foldl_clr M _ _ _ ?_).trans ?_ | intro _
    | dsimp only

theorem arrive_clr (M : Mask) (hrg : M.rg = true) (hnt : M.nt = true) (hft : M.ft = true) (hrs : M.rs = true) (a0 : ℕ) (a1 : ℕ) (a2 : ℕ) (a3 : Packet) (a4 : ArrivalEvent) (a5 : State)  :
    (arrive a0 a1 a2 a3 a4 a5).clr M = a5.clr M := by
  unfold arrive
  repeat' first
    | with_reducible rfl | split | with_reducible refine (raiseHead_clr M hrg hft _ _ _ _ _ ).trans ?_
    | with_reducible refine (chargeCtx_clr M hrg hnt _ _ _ _ _ ).trans ?_
    | with_reducible refine (routeParity_clr M hrg hnt hft _ _ _ _ ).trans ?_
    | with_reducible refine (askFronts_clr M hnt _ _ _ _ ).trans ?_ | with_reducible refine (satCount_clr M hrg _ _ _ _ _ ).trans ?_
    | with_reducible refine (raise_clr M hrg hft _ _ _ _ _ _ ).trans ?_ | with_reducible refine (wakeTile_clr M hnt hrs _ _ _ ).trans ?_
    | with_reducible refine (flitCount_clr M hrg _ _ _ _ _ _ _ ).trans ?_
    | with_reducible refine (placePacket_clr M hrg hnt hft _ _ _ _ _ _ _ ).trans ?_
    | with_reducible refine (doIf_clr M _ _ _ ?_).trans ?_
    | simp only [upd_nt M hnt, upd_rs M hrs, upd_ft M hft, upd_ft_rs M hft hrs, upd_rg M hrg, upd_rg_nt M hrg hnt]
    | with_reducible refine (foldl_clr M _ _ _ ?_).trans ?_ | intro _ | dsimp only

theorem collectorSend_clr (M : Mask) (hrg : M.rg = true) (hnt : M.nt = true) (hlk : M.lk = true) (hout : M.out = true) (a0 : ℕ) (a1 : ℕ) (a2 : Packet) (a3 : State)  :
    (collectorSend a0 a1 a2 a3).clr M = a3.clr M := by
  unfold collectorSend
  repeat' first
    | with_reducible rfl | split | with_reducible refine (collectorDrain_clr M hrg hnt hlk hout _ _ ).trans ?_
    | with_reducible refine (sendLoss_clr M hnt _ _ _ _ _ _ ).trans ?_
    | simp only [upd_nt M hnt, upd_out M hout, upd_rg M hrg, upd_lk M hlk, upd_rg_nt M hrg hnt]
    | with_reducible refine (foldl_clr M _ _ _ ?_).trans ?_ | intro _ | dsimp only

theorem creditReturn__clr (M : Mask) (hrg : M.rg = true) (hnt : M.nt = true) (hft : M.ft = true) (a0 : ℕ) (a1 : ℕ) (a2 : ℕ) (a3 : ℕ) (a4 : ℕ) (a5 : ℕ) (a6 : ℕ) (a7 : State)  :
    (creditReturn_ a0 a1 a2 a3 a4 a5 a6 a7).clr M = a7.clr M := by
  unfold creditReturn_
  repeat' first
    | with_reducible rfl | split | with_reducible refine (raise_clr M hrg hft _ _ _ _ _ _ ).trans ?_
    | simp only [upd_nt M hnt, upd_ft M hft, upd_rg M hrg, upd_rg_nt M hrg hnt] | with_reducible refine (foldl_clr M _ _ _ ?_).trans ?_
    | intro _ | dsimp only

theorem decideInject_clr (M : Mask) (hrg : M.rg = true) (hnt : M.nt = true) (hft : M.ft = true) (a0 : ℕ) (a1 : ℕ) (a2 : ℕ) (a3 : ℕ) (a4 : State)  :
    (decideInject a0 a1 a2 a3 a4).clr M = a4.clr M := by
  unfold decideInject
  repeat' first
    | with_reducible rfl | split | with_reducible refine (atStart_clr M hrg hnt _ ).trans ?_
    | with_reducible refine (chargeStart_clr M hrg hnt _ _ _ _ _ _ ).trans ?_
    | with_reducible refine (placePacket_clr M hrg hnt hft _ _ _ _ _ _ _ ).trans ?_
    | simp only [upd_nt M hnt, upd_ft M hft, upd_rg M hrg, upd_rg_nt M hrg hnt] | with_reducible refine (foldl_clr M _ _ _ ?_).trans ?_
    | intro _ | dsimp only

theorem popBuf_clr (M : Mask) (hnt : M.nt = true) (a0 : ℕ) (a1 : ℕ) (a2 : State)  :
    (popBuf a0 a1 a2).clr M = a2.clr M := by
  unfold popBuf
  repeat' first
    | with_reducible rfl | split | simp only [upd_nt M hnt] | with_reducible refine (foldl_clr M _ _ _ ?_).trans ?_ | intro _
    | dsimp only

theorem oweCredits_clr (M : Mask) (hnt : M.nt = true) (hlk : M.lk = true) (hout : M.out = true) (a0 : ℕ) (a1 : ℕ) (a2 : State)  :
    (oweCredits a0 a1 a2).clr M = a2.clr M := by
  unfold oweCredits
  repeat' first
    | with_reducible rfl | split | with_reducible refine (creditSym_clr M hlk hout _ _ _ _ _ _ _ ).trans ?_
    | simp only [upd_nt M hnt, upd_out M hout, upd_lk M hlk] | with_reducible refine (foldl_clr M _ _ _ ?_).trans ?_ | intro _
    | dsimp only

theorem startOut_clr (M : Mask) (hrg : M.rg = true) (hnt : M.nt = true) (hlk : M.lk = true) (hout : M.out = true) (a0 : ℕ) (a1 : ℕ) (a2 : ℕ) (a3 : ℕ) (a4 : ℕ) (a5 : ℕ) (a6 : ℕ) (a7 : ℕ) (a8 : Req) (a9 : State)  :
    (startOut a0 a1 a2 a3 a4 a5 a6 a7 a8 a9).clr M = a9.clr M := by
  unfold startOut
  repeat' first
    | with_reducible rfl | split | with_reducible refine (leaveBy_clr M hrg hnt hlk hout _ _ _ _ _ ).trans ?_
    | with_reducible refine (freeTransit_clr M hnt _ _ ).trans ?_ | with_reducible refine (addCount_clr M hrg _ _ _ _ _ ).trans ?_
    | with_reducible refine (askFronts_clr M hnt _ _ _ _ ).trans ?_
    | with_reducible refine (chargeStart_clr M hrg hnt _ _ _ _ _ _ ).trans ?_
    | with_reducible refine (setFront_clr M hnt _ _ _ ).trans ?_ | with_reducible refine (popBuf_clr M hnt _ _ _ ).trans ?_
    | with_reducible refine (flitCount_clr M hrg _ _ _ _ _ _ _ ).trans ?_
    | with_reducible refine (oweCredits_clr M hnt hlk hout _ _ _ ).trans ?_ | with_reducible refine (doIf_clr M _ _ _ ?_).trans ?_
    | simp only [upd_nt M hnt, upd_out M hout, upd_rg M hrg, upd_lk M hlk, upd_rg_nt M hrg hnt]
    | with_reducible refine (foldl_clr M _ _ _ ?_).trans ?_ | intro _ | dsimp only

theorem decideOutput_clr (M : Mask) (hrg : M.rg = true) (hnt : M.nt = true) (hlk : M.lk = true) (hout : M.out = true) (a0 : ℕ) (a1 : ℕ) (a2 : ℕ) (a3 : ℕ) (a4 : ℕ) (a5 : ℕ) (a6 : State)  :
    (decideOutput a0 a1 a2 a3 a4 a5 a6).clr M = a6.clr M := by
  unfold decideOutput
  repeat' first
    | with_reducible rfl | split | with_reducible refine (atStart_clr M hrg hnt _ ).trans ?_
    | with_reducible refine (startOut_clr M hrg hnt hlk hout _ _ _ _ _ _ _ _ _ _ ).trans ?_
    | simp only [upd_nt M hnt, upd_out M hout, upd_rg M hrg, upd_lk M hlk, upd_rg_nt M hrg hnt]
    | with_reducible refine (foldl_clr M _ _ _ ?_).trans ?_ | intro _ | dsimp only

theorem escStall_clr (M : Mask) (hrg : M.rg = true) (hnt : M.nt = true) (hft : M.ft = true) (a0 : BufKey) (a1 : State)  :
    (escStall a0 a1).clr M = a1.clr M := by
  unfold escStall
  repeat' first
    | with_reducible rfl | split | with_reducible refine (raiseHead_clr M hrg hft _ _ _ _ _ ).trans ?_
    | with_reducible refine (setFront_clr M hnt _ _ _ ).trans ?_ | with_reducible refine (foldl_clr M _ _ _ ?_).trans ?_ | intro _
    | dsimp only

theorem escWait_clr (M : Mask) (hnt : M.nt = true) (a0 : BufKey) (a1 : State)  :
    (escWait a0 a1).clr M = a1.clr M := by
  unfold escWait
  repeat' first
    | with_reducible rfl | split | with_reducible refine (setFront_clr M hnt _ _ _ ).trans ?_
    | with_reducible refine (foldl_clr M _ _ _ ?_).trans ?_ | intro _ | dsimp only

theorem transitArrive_clr (M : Mask) (hnt : M.nt = true) (a0 : ℕ) (a1 : ℕ) (a2 : Packet) (a3 : State)  :
    (transitArrive a0 a1 a2 a3).clr M = a3.clr M := by
  unfold transitArrive
  repeat' first
    | with_reducible rfl | split | with_reducible refine (grantNext_clr M hnt _ _ ).trans ?_
    | with_reducible refine (consume_clr M hnt _ _ _ _ ).trans ?_ | simp only [upd_nt M hnt]
    | with_reducible refine (foldl_clr M _ _ _ ?_).trans ?_ | intro _ | dsimp only

theorem transitExpire_clr (M : Mask) (hnt : M.nt = true) (a0 : ℕ) (a1 : Packet) (a2 : State)  :
    (transitExpire a0 a1 a2).clr M = a2.clr M := by
  unfold transitExpire
  repeat' first
    | with_reducible rfl | split | with_reducible refine (setFront_clr M hnt _ _ _ ).trans ?_
    | with_reducible refine (askTransit_clr M hnt _ _ _ _ _ ).trans ?_ | with_reducible refine (foldl_clr M _ _ _ ?_).trans ?_ | intro _
    | dsimp only

theorem transitGranted_clr (M : Mask) (hnt : M.nt = true) (a0 : ℕ) (a1 : ℕ) (a2 : Packet) (a3 : State)  :
    (transitGranted a0 a1 a2 a3).clr M = a3.clr M := by
  unfold transitGranted
  repeat' first
    | with_reducible rfl | split | with_reducible refine (grantNext_clr M hnt _ _ ).trans ?_
    | with_reducible refine (askFronts_clr M hnt _ _ _ _ ).trans ?_ | with_reducible refine (useGrant_clr M hnt _ _ _ _ _ _ ).trans ?_
    | with_reducible refine (consume_clr M hnt _ _ _ _ ).trans ?_ | simp only [upd_nt M hnt]
    | with_reducible refine (foldl_clr M _ _ _ ?_).trans ?_ | intro _ | dsimp only

theorem reply_clr (M : Mask) (hnt : M.nt = true) (a0 : ℕ) (a1 : ℕ) (a2 : ℕ) (a3 : Packet) (a4 : ℕ) (a5 : DWord) (a6 : List Byte) (a7 : State)  :
    (reply a0 a1 a2 a3 a4 a5 a6 a7).clr M = a7.clr M := by
  unfold reply
  repeat' first
    | with_reducible rfl | split | with_reducible refine (sendFrom_clr M hnt _ _ _ _ _ ).trans ?_
    | with_reducible refine (foldl_clr M _ _ _ ?_).trans ?_ | intro _ | dsimp only

theorem replyStatus_clr (M : Mask) (hnt : M.nt = true) (a0 : ℕ) (a1 : ℕ) (a2 : ℕ) (a3 : Packet) (a4 : ℕ) (a5 : State)  :
    (replyStatus a0 a1 a2 a3 a4 a5).clr M = a5.clr M := by
  unfold replyStatus
  repeat' first
    | with_reducible rfl | split | with_reducible refine (sendFrom_clr M hnt _ _ _ _ _ ).trans ?_
    | with_reducible refine (foldl_clr M _ _ _ ?_).trans ?_ | intro _ | dsimp only

theorem served_clr (M : Mask) (hnt : M.nt = true) (a0 : ℕ) (a1 : ℕ) (a2 : ℕ) (a3 : Packet) (a4 : State → State) (a5 : State) (hf4 : ∀ x0, (a4 x0).clr M = x0.clr M) :
    (served a0 a1 a2 a3 a4 a5).clr M = a5.clr M := by
  unfold served
  repeat' first
    | with_reducible rfl | split | with_reducible refine (replyStatus_clr M hnt _ _ _ _ _ _ ).trans ?_
    | with_reducible refine (consume_clr M hnt _ _ _ _ ).trans ?_ | with_reducible refine (foldl_clr M _ _ _ ?_).trans ?_
    | with_reducible refine (hf4 _).trans ?_ | with_reducible refine (hf4 _ _).trans ?_ | with_reducible refine (hf4 _ _ _).trans ?_
    | intro _ | dsimp only

theorem modMp_clr (M : Mask) (hmp : M.mp = true) (a0 : ℕ) (a1 : ℕ) (a2 : MemPort → MemPort) (a3 : State)  :
    (modMp a0 a1 a2 a3).clr M = a3.clr M := by
  unfold modMp
  repeat' first
    | with_reducible rfl | split | simp only [upd_mp M hmp] | with_reducible refine (foldl_clr M _ _ _ ?_).trans ?_ | intro _
    | dsimp only

theorem mpFaultAddr_clr (M : Mask) (hrg : M.rg = true) (a0 : ℕ) (a1 : ℕ) (a2 : ℕ) (a3 : State)  :
    (mpFaultAddr a0 a1 a2 a3).clr M = a3.clr M := by
  unfold mpFaultAddr
  repeat' first
    | with_reducible rfl | split | with_reducible refine (setReg_clr M hrg _ _ _ _ _ _ ).trans ?_
    | with_reducible refine (foldl_clr M _ _ _ ?_).trans ?_ | intro _ | dsimp only

theorem mpRefuse_clr (M : Mask) (hnt : M.nt = true) (hmp : M.mp = true) (a0 : ℕ) (a1 : ℕ) (a2 : State)  :
    (mpRefuse a0 a1 a2).clr M = a2.clr M := by
  unfold mpRefuse
  repeat' first
    | with_reducible rfl | split | with_reducible refine (replyStatus_clr M hnt _ _ _ _ _ _ ).trans ?_
    | with_reducible refine (modMp_clr M hmp _ _ _ _ ).trans ?_ | with_reducible refine (forEach_clr M _ _ _ ?_).trans ?_
    | with_reducible refine (foldl_clr M _ _ _ ?_).trans ?_ | intro _ | dsimp only

theorem mpIssue_clr (M : Mask) (hrg : M.rg = true) (hnt : M.nt = true) (hmp : M.mp = true) (hout : M.out = true) (a0 : ℕ) (a1 : ℕ) (a2 : State)  :
    (mpIssue a0 a1 a2).clr M = a2.clr M := by
  unfold mpIssue
  repeat' first
    | with_reducible rfl | split | with_reducible refine (mpRefuse_clr M hnt hmp _ _ _ ).trans ?_
    | with_reducible refine (addCount_clr M hrg _ _ _ _ _ ).trans ?_ | with_reducible refine (modMp_clr M hmp _ _ _ _ ).trans ?_
    | with_reducible refine (emit_clr M hout _ _ ).trans ?_ | with_reducible refine (foldl_clr M _ _ _ ?_).trans ?_ | intro _
    | dsimp only

theorem mpRequest_clr (M : Mask) (hnt : M.nt = true) (hmp : M.mp = true) (a0 : ℕ) (a1 : ℕ) (a2 : Packet) (a3 : State)  :
    (mpRequest a0 a1 a2 a3).clr M = a3.clr M := by
  unfold mpRequest
  repeat' first
    | with_reducible rfl | split | with_reducible refine (replyStatus_clr M hnt _ _ _ _ _ _ ).trans ?_
    | with_reducible refine (modMp_clr M hmp _ _ _ _ ).trans ?_ | with_reducible refine (foldl_clr M _ _ _ ?_).trans ?_ | intro _
    | dsimp only

theorem mpRespond_clr (M : Mask) (hrg : M.rg = true) (hnt : M.nt = true) (hmp : M.mp = true) (hft : M.ft = true) (a0 : ℕ) (a1 : ℕ) (a2 : ℕ) (a3 : List Byte) (a4 : Bool) (a5 : State)  :
    (mpRespond a0 a1 a2 a3 a4 a5).clr M = a5.clr M := by
  unfold mpRespond
  repeat' first
    | with_reducible rfl | split | with_reducible refine (replyStatus_clr M hnt _ _ _ _ _ _ ).trans ?_
    | with_reducible refine (mpFaultAddr_clr M hrg _ _ _ _ ).trans ?_ | with_reducible refine (addCount_clr M hrg _ _ _ _ _ ).trans ?_
    | with_reducible refine (modMp_clr M hmp _ _ _ _ ).trans ?_ | with_reducible refine (sendFrom_clr M hnt _ _ _ _ _ ).trans ?_
    | with_reducible refine (raise_clr M hrg hft _ _ _ _ _ _ ).trans ?_
    | with_reducible refine (reply_clr M hnt _ _ _ _ _ _ _ _ ).trans ?_ | with_reducible refine (foldl_clr M _ _ _ ?_).trans ?_
    | intro _ | dsimp only

theorem mpStalled_clr (M : Mask) (hrg : M.rg = true) (hmp : M.mp = true) (hft : M.ft = true) (a0 : ℕ) (a1 : ℕ) (a2 : ℕ) (a3 : State)  :
    (mpStalled a0 a1 a2 a3).clr M = a3.clr M := by
  unfold mpStalled
  repeat' first
    | with_reducible rfl | split | with_reducible refine (mpFaultAddr_clr M hrg _ _ _ _ ).trans ?_
    | with_reducible refine (modMp_clr M hmp _ _ _ _ ).trans ?_ | with_reducible refine (raise_clr M hrg hft _ _ _ _ _ _ ).trans ?_
    | with_reducible refine (foldl_clr M _ _ _ ?_).trans ?_ | intro _ | dsimp only

end Sys2Proof.Machine
end

