-- ==== Sys2Proof/Laws/FrameDarner.lean ====
section
/-! SUPPORT. What each operation of Patch, Queues, Notify, Chain, Darners leaves unchanged: a state after it agrees with the state before outside
the parts it may change. -/
set_option linter.unusedTactic false
set_option linter.unreachableTactic false
set_option linter.unusedVariables false
set_option linter.unusedSimpArgs false

namespace Sys2Proof.Machine

theorem modDrn_clr (M : Mask) (hdr : M.dr = true) (a0 : ℕ) (a1 : ℕ) (a2 : DrnTile → DrnTile) (a3 : State)  :
    (modDrn a0 a1 a2 a3).clr M = a3.clr M := by
  unfold modDrn
  repeat' first
    | with_reducible rfl | split | simp only [upd_dr M hdr] | with_reducible refine (foldl_clr M _ _ _ ?_).trans ?_ | intro _
    | dsimp only

theorem modDarner_clr (M : Mask) (hdr : M.dr = true) (a0 : ℕ) (a1 : ℕ) (a2 : ℕ) (a3 : Darner → Darner) (a4 : State)  :
    (modDarner a0 a1 a2 a3 a4).clr M = a4.clr M := by
  unfold modDarner
  repeat' first
    | with_reducible rfl | split | with_reducible refine (modDrn_clr M hdr _ _ _ _ ).trans ?_
    | with_reducible refine (foldl_clr M _ _ _ ?_).trans ?_ | intro _ | dsimp only

theorem patchFault_clr (M : Mask) (hrg : M.rg = true) (hdr : M.dr = true) (hft : M.ft = true) (a0 : DrnRef) (a1 : ℕ) (a2 : State)  :
    (patchFault a0 a1 a2).clr M = a2.clr M := by
  unfold patchFault
  repeat' first
    | with_reducible rfl | split | with_reducible refine (setReg_clr M hrg _ _ _ _ _ _ ).trans ?_
    | with_reducible refine (modDarner_clr M hdr _ _ _ _ _ ).trans ?_
    | with_reducible refine (raise_clr M hrg hft _ _ _ _ _ _ ).trans ?_ | with_reducible refine (foldl_clr M _ _ _ ?_).trans ?_
    | intro _ | dsimp only

theorem fetchCheck_clr (M : Mask) (hrg : M.rg = true) (hdr : M.dr = true) (hft : M.ft = true) (a0 : DrnRef) (a1 : State)  :
    (fetchCheck a0 a1).clr M = a1.clr M := by
  unfold fetchCheck
  repeat' first
    | with_reducible rfl | split | with_reducible refine (patchFault_clr M hrg hdr hft _ _ _ ).trans ?_
    | with_reducible refine (foldl_clr M _ _ _ ?_).trans ?_ | intro _ | dsimp only

theorem runPatch_clr (M : Mask) (hrg : M.rg = true) (hdr : M.dr = true) (hft : M.ft = true) (a0 : DrnRef) (a1 : ℕ) (a2 : PFields) (a3 : State → Darner → Bool) (a4 : ℕ → Mach → PRes) (a5 : State)  :
    (runPatch a0 a1 a2 a3 a4 a5).clr M = a5.clr M := by
  unfold runPatch
  repeat' first
    | with_reducible rfl | split | with_reducible refine (modDarner_clr M hdr _ _ _ _ _ ).trans ?_
    | with_reducible refine (fetchCheck_clr M hrg hdr hft _ _ ).trans ?_
    | with_reducible refine (patchFault_clr M hrg hdr hft _ _ _ ).trans ?_ | with_reducible refine (foldl_clr M _ _ _ ?_).trans ?_
    | intro _ | dsimp only

theorem modCip_clr (M : Mask) (hci : M.ci = true) (a0 : ℕ) (a1 : ℕ) (a2 : Cip → Cip) (a3 : State)  :
    (modCip a0 a1 a2 a3).clr M = a3.clr M := by
  unfold modCip
  repeat' first
    | with_reducible rfl | split | simp only [upd_ci M hci] | with_reducible refine (foldl_clr M _ _ _ ?_).trans ?_ | intro _
    | dsimp only

theorem modQueue_clr (M : Mask) (hci : M.ci = true) (a0 : ℕ) (a1 : ℕ) (a2 : ℕ) (a3 : Queue → Queue) (a4 : State)  :
    (modQueue a0 a1 a2 a3 a4).clr M = a4.clr M := by
  unfold modQueue
  repeat' first
    | with_reducible rfl | split | with_reducible refine (modCip_clr M hci _ _ _ _ ).trans ?_
    | with_reducible refine (foldl_clr M _ _ _ ?_).trans ?_ | intro _ | dsimp only

theorem cipCount_clr (M : Mask) (hrg : M.rg = true) (a0 : ℕ) (a1 : ℕ) (a2 : ℕ) (a3 : State)  :
    (cipCount a0 a1 a2 a3).clr M = a3.clr M := by
  unfold cipCount
  repeat' first
    | with_reducible rfl | split | with_reducible refine (addCount_clr M hrg _ _ _ _ _ ).trans ?_
    | with_reducible refine (foldl_clr M _ _ _ ?_).trans ?_ | intro _ | dsimp only

theorem makeVisible_clr (M : Mask) (hrg : M.rg = true) (hci : M.ci = true) (hout : M.out = true) (a0 : ℕ) (a1 : ℕ) (a2 : ℕ) (a3 : QEntry) (a4 : State)  :
    (makeVisible a0 a1 a2 a3 a4).clr M = a4.clr M := by
  unfold makeVisible
  repeat' first
    | with_reducible rfl | split | with_reducible refine (storeBy_clr M hout _ _ _ _ ).trans ?_
    | with_reducible refine (modQueue_clr M hci _ _ _ _ _ ).trans ?_ | with_reducible refine (cipCount_clr M hrg _ _ _ _ ).trans ?_
    | with_reducible refine (foldl_clr M _ _ _ ?_).trans ?_ | intro _ | dsimp only

theorem arriveEntry_clr (M : Mask) (hrg : M.rg = true) (hci : M.ci = true) (hout : M.out = true) (a0 : ℕ) (a1 : ℕ) (a2 : ℕ) (a3 : ℕ) (a4 : DWord) (a5 : List Byte) (a6 : State)  :
    (arriveEntry a0 a1 a2 a3 a4 a5 a6).clr M = a6.clr M := by
  unfold arriveEntry
  repeat' first
    | with_reducible rfl | split | with_reducible refine (makeVisible_clr M hrg hci hout _ _ _ _ _ ).trans ?_
    | with_reducible refine (modQueue_clr M hci _ _ _ _ _ ).trans ?_ | with_reducible refine (cipCount_clr M hrg _ _ _ _ ).trans ?_
    | with_reducible refine (foldl_clr M _ _ _ ?_).trans ?_ | intro _ | dsimp only

theorem cipCountN_clr (M : Mask) (hrg : M.rg = true) (a0 : ℕ) (a1 : ℕ) (a2 : ℕ) (a3 : ℕ) (a4 : State)  :
    (cipCountN a0 a1 a2 a3 a4).clr M = a4.clr M := by
  unfold cipCountN
  repeat' first
    | with_reducible rfl | split | with_reducible refine (addCount_clr M hrg _ _ _ _ _ ).trans ?_
    | with_reducible refine (foldl_clr M _ _ _ ?_).trans ?_ | intro _ | dsimp only

theorem cqRecord_clr (M : Mask) (hrg : M.rg = true) (hci : M.ci = true) (hout : M.out = true) (a0 : ℕ) (a1 : ℕ) (a2 : ℕ) (a3 : List Byte) (a4 : State)  :
    (cqRecord a0 a1 a2 a3 a4).clr M = a4.clr M := by
  unfold cqRecord
  repeat' first
    | with_reducible rfl | split | with_reducible refine (makeVisible_clr M hrg hci hout _ _ _ _ _ ).trans ?_
    | with_reducible refine (modQueue_clr M hci _ _ _ _ _ ).trans ?_ | with_reducible refine (cipCount_clr M hrg _ _ _ _ ).trans ?_
    | with_reducible refine (foldl_clr M _ _ _ ?_).trans ?_ | intro _ | dsimp only

theorem cqRelease_clr (M : Mask) (hci : M.ci = true) (a0 : ℕ) (a1 : ℕ) (a2 : ℕ) (a3 : ℕ) (a4 : State)  :
    (cqRelease a0 a1 a2 a3 a4).clr M = a4.clr M := by
  unfold cqRelease
  repeat' first
    | with_reducible rfl | split | with_reducible refine (modQueue_clr M hci _ _ _ _ _ ).trans ?_
    | with_reducible refine (foldl_clr M _ _ _ ?_).trans ?_ | intro _ | dsimp only

theorem stallRecord_clr (M : Mask) (hrg : M.rg = true) (hci : M.ci = true) (hout : M.out = true) (a0 : ℕ) (a1 : ℕ) (a2 : ℕ) (a3 : ℕ) (a4 : ℕ) (a5 : DWord) (a6 : State)  :
    (stallRecord a0 a1 a2 a3 a4 a5 a6).clr M = a6.clr M := by
  unfold stallRecord
  repeat' first
    | with_reducible rfl | split | with_reducible refine (makeVisible_clr M hrg hci hout _ _ _ _ _ ).trans ?_
    | with_reducible refine (cipCount_clr M hrg _ _ _ _ ).trans ?_ | with_reducible refine (foldl_clr M _ _ _ ?_).trans ?_ | intro _
    | dsimp only

theorem hostCount_clr (M : Mask) (hrg : M.rg = true) (a0 : ℕ) (a1 : ℕ) (a2 : State)  :
    (hostCount a0 a1 a2).clr M = a2.clr M := by
  unfold hostCount
  repeat' first
    | with_reducible rfl | split | with_reducible refine (addCount_clr M hrg _ _ _ _ _ ).trans ?_
    | with_reducible refine (foldl_clr M _ _ _ ?_).trans ?_ | intro _ | dsimp only

theorem sendMsix_clr (M : Mask) (hrg : M.rg = true) (hout : M.out = true) (a0 : ℕ) (a1 : ℕ) (a2 : State)  :
    (sendMsix a0 a1 a2).clr M = a2.clr M := by
  unfold sendMsix
  repeat' first
    | with_reducible rfl | split | with_reducible refine (hostCount_clr M hrg _ _ _ ).trans ?_
    | with_reducible refine (emit_clr M hout _ _ ).trans ?_ | with_reducible refine (foldl_clr M _ _ _ ?_).trans ?_ | intro _
    | dsimp only

theorem modHost_clr (M : Mask) (hhs : M.hs = true) (a0 : ℕ) (a1 : HostPort → HostPort) (a2 : State)  :
    (modHost a0 a1 a2).clr M = a2.clr M := by
  unfold modHost
  repeat' first
    | with_reducible rfl | split | simp only [upd_hs M hhs] | with_reducible refine (foldl_clr M _ _ _ ?_).trans ?_ | intro _
    | dsimp only

theorem hostRise_clr (M : Mask) (hrg : M.rg = true) (hhs : M.hs = true) (hout : M.out = true) (a0 : ℕ) (a1 : ℕ) (a2 : State)  :
    (hostRise a0 a1 a2).clr M = a2.clr M := by
  unfold hostRise
  repeat' first
    | with_reducible rfl | split | with_reducible refine (sendMsix_clr M hrg hout _ _ _ ).trans ?_
    | with_reducible refine (modHost_clr M hhs _ _ _ ).trans ?_ | with_reducible refine (foldl_clr M _ _ _ ?_).trans ?_ | intro _
    | dsimp only

theorem hostCause_clr (M : Mask) (hrg : M.rg = true) (hhs : M.hs = true) (hout : M.out = true) (a0 : ℕ) (a1 : State)  :
    (hostCause a0 a1).clr M = a1.clr M := by
  unfold hostCause
  repeat' first
    | with_reducible rfl | split | with_reducible refine (hostRise_clr M hrg hhs hout _ _ _ ).trans ?_
    | with_reducible refine (forEach_clr M _ _ _ ?_).trans ?_ | with_reducible refine (foldl_clr M _ _ _ ?_).trans ?_ | intro _
    | dsimp only

theorem notice_clr (M : Mask) (hrg : M.rg = true) (hsv : M.sv = true) (hout : M.out = true) (a0 : ℕ) (a1 : List Byte) (a2 : State)  :
    (notice a0 a1 a2).clr M = a2.clr M := by
  unfold notice
  repeat' first
    | with_reducible rfl | split | with_reducible refine (addCount_clr M hrg _ _ _ _ _ ).trans ?_
    | with_reducible refine (emit_clr M hout _ _ ).trans ?_ | with_reducible refine (forEach_clr M _ _ _ ?_).trans ?_
    | simp only [upd_out M hout, upd_sv M hsv, upd_rg M hrg] | with_reducible refine (foldl_clr M _ _ _ ?_).trans ?_ | intro _
    | dsimp only

theorem fwDone_clr (M : Mask) (hrg : M.rg = true) (hhs : M.hs = true) (hfw : M.fw = true) (hsv : M.sv = true) (hout : M.out = true) (a0 : ℕ) (a1 : FwState) (a2 : State)  :
    (fwDone a0 a1 a2).clr M = a2.clr M := by
  unfold fwDone
  repeat' first
    | with_reducible rfl | split | with_reducible refine (hostCause_clr M hrg hhs hout _ _ ).trans ?_
    | with_reducible refine (notice_clr M hrg hsv hout _ _ _ ).trans ?_
    | simp only [upd_out M hout, upd_sv M hsv, upd_rg M hrg, upd_fw M hfw, upd_hs M hhs]
    | with_reducible refine (foldl_clr M _ _ _ ?_).trans ?_ | intro _ | dsimp only

theorem fwState_clr (M : Mask) (hrg : M.rg = true) (hfw : M.fw = true) (hsv : M.sv = true) (hout : M.out = true) (a0 : FwState) (a1 : State)  :
    (fwState a0 a1).clr M = a1.clr M := by
  unfold fwState
  repeat' first
    | with_reducible rfl | split | with_reducible refine (notice_clr M hrg hsv hout _ _ _ ).trans ?_
    | simp only [upd_out M hout, upd_sv M hsv, upd_rg M hrg, upd_fw M hfw] | with_reducible refine (foldl_clr M _ _ _ ?_).trans ?_
    | intro _ | dsimp only

theorem msixUnmask_clr (M : Mask) (hrg : M.rg = true) (hhs : M.hs = true) (hout : M.out = true) (a0 : ℕ) (a1 : ℕ) (a2 : State)  :
    (msixUnmask a0 a1 a2).clr M = a2.clr M := by
  unfold msixUnmask
  repeat' first
    | with_reducible rfl | split | with_reducible refine (sendMsix_clr M hrg hout _ _ _ ).trans ?_
    | with_reducible refine (modHost_clr M hhs _ _ _ ).trans ?_ | with_reducible refine (foldl_clr M _ _ _ ?_).trans ?_ | intro _
    | dsimp only

theorem hostPins_clr (M : Mask) (hrg : M.rg = true) (hhs : M.hs = true) (hout : M.out = true) (a0 : ℕ) (a1 : HostPins) (a2 : State)  :
    (hostPins a0 a1 a2).clr M = a2.clr M := by
  unfold hostPins
  repeat' first
    | with_reducible rfl | split | with_reducible refine (modHost_clr M hhs _ _ _ ).trans ?_
    | with_reducible refine (msixUnmask_clr M hrg hhs hout _ _ _ ).trans ?_ | with_reducible refine (forEach_clr M _ _ _ ?_).trans ?_
    | with_reducible refine (foldl_clr M _ _ _ ?_).trans ?_ | intro _ | dsimp only

theorem modTly_clr (M : Mask) (hty : M.ty = true) (a0 : ℕ) (a1 : TlyUnit → TlyUnit) (a2 : State)  :
    (modTly a0 a1 a2).clr M = a2.clr M := by
  unfold modTly
  repeat' first
    | with_reducible rfl | split | simp only [upd_ty M hty] | with_reducible refine (foldl_clr M _ _ _ ?_).trans ?_ | intro _
    | dsimp only

theorem loseRecord_clr (M : Mask) (hrg : M.rg = true) (hty : M.ty = true) (hft : M.ft = true) (a0 : ℕ) (a1 : ℕ) (a2 : ℕ) (a3 : State)  :
    (loseRecord a0 a1 a2 a3).clr M = a3.clr M := by
  unfold loseRecord
  repeat' first
    | with_reducible rfl | split | with_reducible refine (modTly_clr M hty _ _ _ ).trans ?_
    | with_reducible refine (addCount_clr M hrg _ _ _ _ _ ).trans ?_ | with_reducible refine (raise_clr M hrg hft _ _ _ _ _ _ ).trans ?_
    | with_reducible refine (foldl_clr M _ _ _ ?_).trans ?_ | intro _ | dsimp only

theorem displace_clr (M : Mask) (hrg : M.rg = true) (hty : M.ty = true) (hft : M.ft = true) (a0 : ℕ) (a1 : ℕ) (a2 : ℕ) (a3 : State)  :
    (displace a0 a1 a2 a3).clr M = a3.clr M := by
  induction a2 generalizing a3 with
  | zero => rfl
  | succ _ ih =>
    unfold displace
    repeat' first
      | with_reducible rfl | split | with_reducible refine (ih _).trans ?_
      | with_reducible refine (loseRecord_clr M hrg hty hft _ _ _ _ ).trans ?_
      | with_reducible refine (modTly_clr M hty _ _ _ ).trans ?_ | with_reducible refine (foldl_clr M _ _ _ ?_).trans ?_ | intro _
      | dsimp only

theorem drainLog_clr (M : Mask) (hrg : M.rg = true) (hnt : M.nt = true) (hty : M.ty = true) (a0 : ℕ) (a1 : ℕ) (a2 : State)  :
    (drainLog a0 a1 a2).clr M = a2.clr M := by
  induction a1 generalizing a2 with
  | zero => rfl
  | succ _ ih =>
    unfold drainLog
    repeat' first
      | with_reducible rfl | split | with_reducible refine (ih _).trans ?_ | with_reducible refine (modTly_clr M hty _ _ _ ).trans ?_
      | with_reducible refine (addCount_clr M hrg _ _ _ _ _ ).trans ?_ | with_reducible refine (sendFrom_clr M hnt _ _ _ _ _ ).trans ?_
      | with_reducible refine (forEach_clr M _ _ _ ?_).trans ?_ | with_reducible refine (foldl_clr M _ _ _ ?_).trans ?_ | intro _
      | dsimp only

theorem dropChain_clr (M : Mask) (hty : M.ty = true) (a0 : ℕ) (a1 : State)  :
    (dropChain a0 a1).clr M = a1.clr M := by
  unfold dropChain
  repeat' first
    | with_reducible rfl | split | simp only [upd_ty M hty] | with_reducible refine (foldl_clr M _ _ _ ?_).trans ?_ | intro _
    | dsimp only

theorem modChain_clr (M : Mask) (hty : M.ty = true) (a0 : ℕ) (a1 : Chain → Chain) (a2 : State)  :
    (modChain a0 a1 a2).clr M = a2.clr M := by
  unfold modChain
  repeat' first
    | with_reducible rfl | split | simp only [upd_ty M hty] | with_reducible refine (foldl_clr M _ _ _ ?_).trans ?_ | intro _
    | dsimp only

theorem putRecord_clr (M : Mask) (hrg : M.rg = true) (hnt : M.nt = true) (hty : M.ty = true) (a0 : ℕ) (a1 : ℕ) (a2 : ℕ) (a3 : List Byte) (a4 : State)  :
    (putRecord a0 a1 a2 a3 a4).clr M = a4.clr M := by
  unfold putRecord
  repeat' first
    | with_reducible rfl | split | with_reducible refine (modTly_clr M hty _ _ _ ).trans ?_
    | with_reducible refine (drainLog_clr M hrg hnt hty _ _ _ ).trans ?_ | with_reducible refine (modChain_clr M hty _ _ _ ).trans ?_
    | with_reducible refine (foldl_clr M _ _ _ ?_).trans ?_ | intro _ | dsimp only

theorem sendGap_clr (M : Mask) (hrg : M.rg = true) (hnt : M.nt = true) (hty : M.ty = true) (a0 : ℕ) (a1 : ℕ) (a2 : State)  :
    (sendGap a0 a1 a2).clr M = a2.clr M := by
  unfold sendGap
  repeat' first
    | with_reducible rfl | split | with_reducible refine (putRecord_clr M hrg hnt hty _ _ _ _ _ ).trans ?_
    | with_reducible refine (modTly_clr M hty _ _ _ ).trans ?_ | with_reducible refine (foldl_clr M _ _ _ ?_).trans ?_ | intro _
    | dsimp only

theorem logRecord_clr (M : Mask) (hrg : M.rg = true) (hnt : M.nt = true) (hty : M.ty = true) (hft : M.ft = true) (a0 : ℕ) (a1 : ℕ) (a2 : ℕ) (a3 : List Byte) (a4 : State)  :
    (logRecord a0 a1 a2 a3 a4).2.clr M = a4.clr M := by
  unfold logRecord
  repeat' first
    | with_reducible rfl | split | with_reducible refine (putRecord_clr M hrg hnt hty _ _ _ _ _ ).trans ?_
    | with_reducible refine (loseRecord_clr M hrg hty hft _ _ _ _ ).trans ?_
    | with_reducible refine (modChain_clr M hty _ _ _ ).trans ?_ | with_reducible refine (displace_clr M hrg hty hft _ _ _ _ ).trans ?_
    | with_reducible refine (sendGap_clr M hrg hnt hty _ _ _ ).trans ?_ | with_reducible refine (foldl_clr M _ _ _ ?_).trans ?_
    | intro _ | dsimp only

theorem enterOne_clr (M : Mask) (hrg : M.rg = true) (hnt : M.nt = true) (hty : M.ty = true) (hhs : M.hs = true) (hft : M.ft = true) (hout : M.out = true) (a0 : ℕ) (a1 : TEntry) (a2 : State)  :
    (enterOne a0 a1 a2).clr M = a2.clr M := by
  unfold enterOne
  repeat' first
    | with_reducible rfl | split | with_reducible refine (logRecord_clr M hrg hnt hty hft _ _ _ _ _ ).trans ?_
    | with_reducible refine (hostCause_clr M hrg hhs hout _ _ ).trans ?_
    | with_reducible refine (addCount_clr M hrg _ _ _ _ _ ).trans ?_ | with_reducible refine (modChain_clr M hty _ _ _ ).trans ?_
    | with_reducible refine (foldl_clr M _ _ _ ?_).trans ?_ | intro _ | dsimp only

theorem enterCarried_clr (M : Mask) (hrg : M.rg = true) (hnt : M.nt = true) (hty : M.ty = true) (hhs : M.hs = true) (hft : M.ft = true) (hout : M.out = true) (a0 : ℕ) (a1 : ℕ) (a2 : State)  :
    (enterCarried a0 a1 a2).2.clr M = a2.clr M := by
  unfold enterCarried
  repeat' first
    | with_reducible rfl | split | with_reducible refine (modChain_clr M hty _ _ _ ).trans ?_
    | with_reducible refine (enterOne_clr M hrg hnt hty hhs hft hout _ _ _ ).trans ?_
    | with_reducible refine (forEach_clr M _ _ _ ?_).trans ?_ | with_reducible refine (foldl_clr M _ _ _ ?_).trans ?_ | intro _
    | dsimp only

theorem enterDue_clr (M : Mask) (hrg : M.rg = true) (hnt : M.nt = true) (hty : M.ty = true) (hhs : M.hs = true) (hft : M.ft = true) (hout : M.out = true) (a0 : ℕ) (a1 : ℕ) (a2 : State)  :
    (enterDue a0 a1 a2).2.clr M = a2.clr M := by
  unfold enterDue
  repeat' first
    | with_reducible rfl | split | with_reducible refine (addCount_clr M hrg _ _ _ _ _ ).trans ?_
    | with_reducible refine (modChain_clr M hty _ _ _ ).trans ?_
    | with_reducible refine (enterOne_clr M hrg hnt hty hhs hft hout _ _ _ ).trans ?_
    | with_reducible refine (forEach_clr M _ _ _ ?_).trans ?_ | with_reducible refine (foldl_clr M _ _ _ ?_).trans ?_ | intro _
    | dsimp only

theorem enterTally_clr (M : Mask) (hty : M.ty = true) (a0 : ℕ) (a1 : TEntry) (a2 : State)  :
    (enterTally a0 a1 a2).clr M = a2.clr M := by
  unfold enterTally
  repeat' first
    | with_reducible rfl | split | with_reducible refine (modChain_clr M hty _ _ _ ).trans ?_
    | with_reducible refine (foldl_clr M _ _ _ ?_).trans ?_ | intro _ | dsimp only

theorem enterEpoch_clr (M : Mask) (hty : M.ty = true) (a0 : ℕ) (a1 : ℕ) (a2 : ℕ) (a3 : State)  :
    (enterEpoch a0 a1 a2 a3).clr M = a3.clr M := by
  unfold enterEpoch
  repeat' first
    | with_reducible rfl | split | with_reducible refine (enterTally_clr M hty _ _ _ ).trans ?_
    | with_reducible refine (foldl_clr M _ _ _ ?_).trans ?_ | intro _ | dsimp only

theorem pairEvent_clr (M : Mask) (hpr : M.pr = true) (a0 : List Byte) (a1 : State)  :
    (pairEvent a0 a1).clr M = a1.clr M := by
  unfold pairEvent
  repeat' first
    | with_reducible rfl | split | simp only [upd_pr M hpr] | with_reducible refine (foldl_clr M _ _ _ ?_).trans ?_ | intro _
    | dsimp only

theorem showTallies_clr (M : Mask) (hty : M.ty = true) (a0 : State)  :
    (showTallies a0).clr M = a0.clr M := by
  unfold showTallies
  repeat' first
    | with_reducible rfl | split | simp only [upd_ty M hty] | with_reducible refine (foldl_clr M _ _ _ ?_).trans ?_ | intro _
    | dsimp only

theorem startChain_clr (M : Mask) (hty : M.ty = true) (a0 : ℕ) (a1 : ℕ) (a2 : ℕ) (a3 : State)  :
    (startChain a0 a1 a2 a3).clr M = a3.clr M := by
  unfold startChain
  repeat' first
    | with_reducible rfl | split | with_reducible refine (enterEpoch_clr M hty _ _ _ _ ).trans ?_ | simp only [upd_ty M hty]
    | with_reducible refine (foldl_clr M _ _ _ ?_).trans ?_ | intro _ | dsimp only

theorem tallyUnitStep_clr (M : Mask) (hrg : M.rg = true) (hnt : M.nt = true) (hty : M.ty = true) (hhs : M.hs = true) (hft : M.ft = true) (hout : M.out = true) (a0 : ℕ) (a1 : State)  :
    (tallyUnitStep a0 a1).clr M = a1.clr M := by
  unfold tallyUnitStep
  have enterCarrieds : ∀ (cs : List Nat) (a : Nat × State), (cs.foldl (fun (a : Nat × State) c => enterCarried c a.1 a.2) a).2.clr M = a.2.clr M := by
    intro cs
    induction cs with
    | nil => intro a; rfl
    | cons c cs ih => intro a; exact (ih _).trans (enterCarried_clr M hrg hnt hty hhs hft hout c a.1 a.2)
  have enterDues : ∀ (cs : List Nat) (a : Nat × State), (cs.foldl (fun (a : Nat × State) c => enterDue c a.1 a.2) a).2.clr M = a.2.clr M := by
    intro cs
    induction cs with
    | nil => intro a; rfl
    | cons c cs ih => intro a; exact (ih _).trans (enterDue_clr M hrg hnt hty hhs hft hout c a.1 a.2)
  repeat' first
    | with_reducible rfl | split | with_reducible refine (enterDues _ _).trans ?_ | with_reducible refine (enterCarrieds _ _).trans ?_
    | with_reducible refine (enterCarried_clr M hrg hnt hty hhs hft hout _ _ _ ).trans ?_
    | with_reducible refine (drainLog_clr M hrg hnt hty _ _ _ ).trans ?_
    | with_reducible refine (enterDue_clr M hrg hnt hty hhs hft hout _ _ _ ).trans ?_
    | with_reducible refine (raise0_clr M hrg hft _ _ _ _ ).trans ?_ | with_reducible refine (foldl_clr M _ _ _ ?_).trans ?_ | intro _
    | dsimp only

theorem tallyStep_clr (M : Mask) (hrg : M.rg = true) (hnt : M.nt = true) (hty : M.ty = true) (hhs : M.hs = true) (hft : M.ft = true) (hout : M.out = true) (a0 : State)  :
    (tallyStep a0).clr M = a0.clr M := by
  unfold tallyStep
  repeat' first
    | with_reducible rfl | split | with_reducible refine (tallyUnitStep_clr M hrg hnt hty hhs hft hout _ _ ).trans ?_
    | with_reducible refine (forEach_clr M _ _ _ ?_).trans ?_ | with_reducible refine (foldl_clr M _ _ _ ?_).trans ?_ | intro _
    | dsimp only

theorem dropRun_clr (M : Mask) (hdr : M.dr = true) (a0 : ℕ) (a1 : ℕ) (a2 : ℕ) (a3 : State)  :
    (dropRun a0 a1 a2 a3).clr M = a3.clr M := by
  unfold dropRun
  repeat' first
    | with_reducible rfl | split | with_reducible refine (modDrn_clr M hdr _ _ _ _ ).trans ?_
    | with_reducible refine (foldl_clr M _ _ _ ?_).trans ?_ | intro _ | dsimp only

theorem enterChunk_clr (M : Mask) (hdr : M.dr = true) (a0 : ℕ) (a1 : ℕ) (a2 : ℕ) (a3 : State)  :
    (enterChunk a0 a1 a2 a3).clr M = a3.clr M := by
  unfold enterChunk
  repeat' first
    | with_reducible rfl | split | with_reducible refine (modDrn_clr M hdr _ _ _ _ ).trans ?_
    | with_reducible refine (foldl_clr M _ _ _ ?_).trans ?_ | intro _ | dsimp only

theorem fillQueue_clr (M : Mask) (hdr : M.dr = true) (a0 : ℕ) (a1 : ℕ) (a2 : State)  :
    (fillQueue a0 a1 a2).clr M = a2.clr M := by
  unfold fillQueue
  repeat' first
    | with_reducible rfl | split | with_reducible refine (enterChunk_clr M hdr _ _ _ _ ).trans ?_
    | with_reducible refine (forEach_clr M _ _ _ ?_).trans ?_ | with_reducible refine (foldl_clr M _ _ _ ?_).trans ?_ | intro _
    | dsimp only

theorem runRecord_clr (M : Mask) (hrg : M.rg = true) (hci : M.ci = true) (hout : M.out = true) (a0 : ℕ) (a1 : ℕ) (a2 : Run) (a3 : ℕ) (a4 : ℕ) (a5 : ℕ) (a6 : ℕ) (a7 : ℕ) (a8 : State)  :
    (runRecord a0 a1 a2 a3 a4 a5 a6 a7 a8).clr M = a8.clr M := by
  unfold runRecord
  repeat' first
    | with_reducible rfl | split | with_reducible refine (cqRecord_clr M hrg hci hout _ _ _ _ _ ).trans ?_
    | with_reducible refine (foldl_clr M _ _ _ ?_).trans ?_ | intro _ | dsimp only

theorem countBusy_clr (M : Mask) (hrg : M.rg = true) (hdr : M.dr = true) (a0 : ℕ) (a1 : ℕ) (a2 : ℕ) (a3 : State)  :
    (countBusy a0 a1 a2 a3).clr M = a3.clr M := by
  unfold countBusy
  repeat' first
    | with_reducible rfl | split | with_reducible refine (modDarner_clr M hdr _ _ _ _ _ ).trans ?_
    | with_reducible refine (addCount_clr M hrg _ _ _ _ _ ).trans ?_ | with_reducible refine (foldl_clr M _ _ _ ?_).trans ?_ | intro _
    | dsimp only

theorem freeDarner_clr (M : Mask) (hrg : M.rg = true) (hdr : M.dr = true) (a0 : ℕ) (a1 : ℕ) (a2 : ℕ) (a3 : State)  :
    (freeDarner a0 a1 a2 a3).clr M = a3.clr M := by
  unfold freeDarner
  repeat' first
    | with_reducible rfl | split | with_reducible refine (modDarner_clr M hdr _ _ _ _ _ ).trans ?_
    | with_reducible refine (countBusy_clr M hrg hdr _ _ _ _ ).trans ?_ | with_reducible refine (foldl_clr M _ _ _ ?_).trans ?_
    | intro _ | dsimp only

theorem abortRun_clr (M : Mask) (hrg : M.rg = true) (hdr : M.dr = true) (hci : M.ci = true) (hout : M.out = true) (a0 : ℕ) (a1 : ℕ) (a2 : ℕ) (a3 : ℕ) (a4 : State)  :
    (abortRun a0 a1 a2 a3 a4).clr M = a4.clr M := by
  unfold abortRun
  repeat' first
    | with_reducible rfl | split | with_reducible refine (modDrn_clr M hdr _ _ _ _ ).trans ?_
    | with_reducible refine (dropRun_clr M hdr _ _ _ _ ).trans ?_ | with_reducible refine (fillQueue_clr M hdr _ _ _ ).trans ?_
    | with_reducible refine (runRecord_clr M hrg hci hout _ _ _ _ _ _ _ _ _ ).trans ?_
    | with_reducible refine (freeDarner_clr M hrg hdr _ _ _ _ ).trans ?_ | with_reducible refine (forEach_clr M _ _ _ ?_).trans ?_
    | with_reducible refine (foldl_clr M _ _ _ ?_).trans ?_ | intro _ | dsimp only

theorem acceptRun_clr (M : Mask) (hrg : M.rg = true) (hdr : M.dr = true) (a0 : ℕ) (a1 : ℕ) (a2 : ℕ) (a3 : ℕ) (a4 : Bind) (a5 : State)  :
    (acceptRun a0 a1 a2 a3 a4 a5).clr M = a5.clr M := by
  unfold acceptRun
  repeat' first
    | with_reducible rfl | split | with_reducible refine (modDarner_clr M hdr _ _ _ _ _ ).trans ?_
    | with_reducible refine (modDrn_clr M hdr _ _ _ _ ).trans ?_ | with_reducible refine (addCount_clr M hrg _ _ _ _ _ ).trans ?_
    | with_reducible refine (fillQueue_clr M hdr _ _ _ ).trans ?_ | with_reducible refine (foldl_clr M _ _ _ ?_).trans ?_ | intro _
    | dsimp only

theorem askSteal_clr (M : Mask) (hdr : M.dr = true) (a0 : ℕ) (a1 : ℕ) (a2 : ℕ) (a3 : ℕ) (a4 : State)  :
    (askSteal a0 a1 a2 a3 a4).clr M = a4.clr M := by
  unfold askSteal
  repeat' first
    | with_reducible rfl | split | with_reducible refine (modDarner_clr M hdr _ _ _ _ _ ).trans ?_
    | with_reducible refine (foldl_clr M _ _ _ ?_).trans ?_ | intro _ | dsimp only

theorem modRun_clr (M : Mask) (hdr : M.dr = true) (a0 : ℕ) (a1 : ℕ) (a2 : ℕ) (a3 : Run → Run) (a4 : State)  :
    (modRun a0 a1 a2 a3 a4).clr M = a4.clr M := by
  unfold modRun
  repeat' first
    | with_reducible rfl | split | with_reducible refine (modDrn_clr M hdr _ _ _ _ ).trans ?_
    | with_reducible refine (foldl_clr M _ _ _ ?_).trans ?_ | intro _ | dsimp only

theorem chunkOut_clr (M : Mask) (hdr : M.dr = true) (hout : M.out = true) (a0 : ℕ) (a1 : ℕ) (a2 : ℕ) (a3 : List Byte) (a4 : ℕ) (a5 : Byte) (a6 : State)  :
    (chunkOut a0 a1 a2 a3 a4 a5 a6).clr M = a6.clr M := by
  unfold chunkOut
  repeat' first
    | with_reducible rfl | split | with_reducible refine (modRun_clr M hdr _ _ _ _ _ ).trans ?_
    | with_reducible refine (storeBy_clr M hout _ _ _ _ ).trans ?_ | with_reducible refine (foldl_clr M _ _ _ ?_).trans ?_ | intro _
    | dsimp only

theorem chunkResults_clr (M : Mask) (hdr : M.dr = true) (a0 : ℕ) (a1 : ℕ) (a2 : ℕ) (a3 : Mach) (a4 : State)  :
    (chunkResults a0 a1 a2 a3 a4).clr M = a4.clr M := by
  unfold chunkResults
  repeat' first
    | with_reducible rfl | split | with_reducible refine (modRun_clr M hdr _ _ _ _ _ ).trans ?_
    | with_reducible refine (foldl_clr M _ _ _ ?_).trans ?_ | intro _ | dsimp only

theorem completeRun_clr (M : Mask) (hrg : M.rg = true) (hdr : M.dr = true) (hci : M.ci = true) (hout : M.out = true) (a0 : ℕ) (a1 : ℕ) (a2 : ℕ) (a3 : State)  :
    (completeRun a0 a1 a2 a3).clr M = a3.clr M := by
  unfold completeRun
  repeat' first
    | with_reducible rfl | split | with_reducible refine (storeBy_clr M hout _ _ _ _ ).trans ?_
    | with_reducible refine (dropRun_clr M hdr _ _ _ _ ).trans ?_ | with_reducible refine (fillQueue_clr M hdr _ _ _ ).trans ?_
    | with_reducible refine (runRecord_clr M hrg hci hout _ _ _ _ _ _ _ _ _ ).trans ?_
    | with_reducible refine (satCount_clr M hrg _ _ _ _ _ ).trans ?_ | with_reducible refine (doIf_clr M _ _ _ ?_).trans ?_
    | with_reducible refine (foldl_clr M _ _ _ ?_).trans ?_ | intro _ | dsimp only

theorem laterRun_clr (M : Mask) (hrg : M.rg = true) (hnt : M.nt = true) (hdr : M.dr = true) (hci : M.ci = true) (hout : M.out = true) (a0 : ℕ) (a1 : ℕ) (a2 : ℕ) (a3 : State)  :
    (laterRun a0 a1 a2 a3).clr M = a3.clr M := by
  unfold laterRun
  repeat' first
    | with_reducible rfl | split | with_reducible refine (modRun_clr M hdr _ _ _ _ _ ).trans ?_
    | with_reducible refine (dropRun_clr M hdr _ _ _ _ ).trans ?_
    | with_reducible refine (runRecord_clr M hrg hci hout _ _ _ _ _ _ _ _ _ ).trans ?_
    | with_reducible refine (countDefer_clr M hnt _ _ _ _ _ ).trans ?_
    | with_reducible refine (acceptRun_clr M hrg hdr _ _ _ _ _ _ ).trans ?_ | with_reducible refine (foldl_clr M _ _ _ ?_).trans ?_
    | intro _ | dsimp only

theorem darnersStep7_clr (M : Mask) (hrg : M.rg = true) (hnt : M.nt = true) (hdr : M.dr = true) (hci : M.ci = true) (hout : M.out = true) (a0 : ℕ) (a1 : ℕ) (a2 : State)  :
    (darnersStep7 a0 a1 a2).clr M = a2.clr M := by
  unfold darnersStep7
  repeat' first
    | with_reducible rfl | split | with_reducible refine (laterRun_clr M hrg hnt hdr hci hout _ _ _ _ ).trans ?_
    | with_reducible refine (modDrn_clr M hdr _ _ _ _ ).trans ?_ | with_reducible refine (fillQueue_clr M hdr _ _ _ ).trans ?_
    | with_reducible refine (forEach_clr M _ _ _ ?_).trans ?_ | with_reducible refine (foldl_clr M _ _ _ ?_).trans ?_ | intro _
    | dsimp only

theorem drnCtxReset_clr (M : Mask) (hrg : M.rg = true) (hdr : M.dr = true) (a0 : ℕ) (a1 : ℕ) (a2 : ℕ) (a3 : State)  :
    (drnCtxReset a0 a1 a2 a3).clr M = a3.clr M := by
  unfold drnCtxReset
  repeat' first
    | with_reducible rfl | split | with_reducible refine (modDrn_clr M hdr _ _ _ _ ).trans ?_
    | with_reducible refine (countBusy_clr M hrg hdr _ _ _ _ ).trans ?_ | with_reducible refine (forEach_clr M _ _ _ ?_).trans ?_
    | with_reducible refine (foldl_clr M _ _ _ ?_).trans ?_ | intro _ | dsimp only

theorem drnTileReset_clr (M : Mask) (hrg : M.rg = true) (hdr : M.dr = true) (hci : M.ci = true) (hout : M.out = true) (a0 : ℕ) (a1 : ℕ) (a2 : State)  :
    (drnTileReset a0 a1 a2).clr M = a2.clr M := by
  unfold drnTileReset
  repeat' first
    | with_reducible rfl | split | with_reducible refine (abortRun_clr M hrg hdr hci hout _ _ _ _ _ ).trans ?_
    | with_reducible refine (freeDarner_clr M hrg hdr _ _ _ _ ).trans ?_ | with_reducible refine (forEach_clr M _ _ _ ?_).trans ?_
    | simp only [upd_ci M hci, upd_out M hout, upd_rg M hrg, upd_dr M hdr] | with_reducible refine (foldl_clr M _ _ _ ?_).trans ?_
    | intro _ | dsimp only

theorem unqueue_clr (M : Mask) (hdr : M.dr = true) (a0 : ℕ) (a1 : ℕ) (a2 : Task) (a3 : State)  :
    (unqueue a0 a1 a2 a3).clr M = a3.clr M := by
  unfold unqueue
  repeat' first
    | with_reducible rfl | split | with_reducible refine (modDrn_clr M hdr _ _ _ _ ).trans ?_
    | with_reducible refine (foldl_clr M _ _ _ ?_).trans ?_ | intro _ | dsimp only

theorem dropChunk_clr (M : Mask) (hdr : M.dr = true) (hout : M.out = true) (a0 : ℕ) (a1 : ℕ) (a2 : Task) (a3 : State)  :
    (dropChunk a0 a1 a2 a3).clr M = a3.clr M := by
  unfold dropChunk
  repeat' first
    | with_reducible rfl | split | with_reducible refine (unqueue_clr M hdr _ _ _ _ ).trans ?_
    | with_reducible refine (modDrn_clr M hdr _ _ _ _ ).trans ?_
    | with_reducible refine (chunkOut_clr M hdr hout _ _ _ _ _ _ _ ).trans ?_ | with_reducible refine (foldl_clr M _ _ _ ?_).trans ?_
    | intro _ | dsimp only

theorem endChunk_clr (M : Mask) (hrg : M.rg = true) (hdr : M.dr = true) (hout : M.out = true) (a0 : ℕ) (a1 : ℕ) (a2 : ℕ) (a3 : ℕ) (a4 : Task) (a5 : List Byte) (a6 : ℕ) (a7 : Byte) (a8 : State)  :
    (endChunk a0 a1 a2 a3 a4 a5 a6 a7 a8).clr M = a8.clr M := by
  unfold endChunk
  repeat' first
    | with_reducible rfl | split | with_reducible refine (modDarner_clr M hdr _ _ _ _ _ ).trans ?_
    | with_reducible refine (modDrn_clr M hdr _ _ _ _ ).trans ?_ | with_reducible refine (countBusy_clr M hrg hdr _ _ _ _ ).trans ?_
    | with_reducible refine (chunkOut_clr M hdr hout _ _ _ _ _ _ _ ).trans ?_
    | with_reducible refine (freeDarner_clr M hrg hdr _ _ _ _ ).trans ?_ | with_reducible refine (foldl_clr M _ _ _ ?_).trans ?_
    | intro _ | dsimp only

theorem firstRun_clr (M : Mask) (hrg : M.rg = true) (hnt : M.nt = true) (hdr : M.dr = true) (hci : M.ci = true) (hout : M.out = true) (a0 : ℕ) (a1 : ℕ) (a2 : Run) (a3 : State)  :
    (firstRun a0 a1 a2 a3).2.clr M = a3.clr M := by
  unfold firstRun
  repeat' first
    | with_reducible rfl | split | with_reducible refine (cqRelease_clr M hci _ _ _ _ _ ).trans ?_
    | with_reducible refine (modDrn_clr M hdr _ _ _ _ ).trans ?_
    | with_reducible refine (runRecord_clr M hrg hci hout _ _ _ _ _ _ _ _ _ ).trans ?_
    | with_reducible refine (countDefer_clr M hnt _ _ _ _ _ ).trans ?_
    | with_reducible refine (acceptRun_clr M hrg hdr _ _ _ _ _ _ ).trans ?_ | with_reducible refine (foldl_clr M _ _ _ ?_).trans ?_
    | intro _ | dsimp only

theorem setBank_clr (M : Mask) (hdr : M.dr = true) (a0 : ℕ) (a1 : ℕ) (a2 : ℕ) (a3 : ℕ) (a4 : DWord) (a5 : State)  :
    (setBank a0 a1 a2 a3 a4 a5).clr M = a5.clr M := by
  unfold setBank
  repeat' first
    | with_reducible rfl | split | simp only [upd_dr M hdr] | with_reducible refine (foldl_clr M _ _ _ ?_).trans ?_ | intro _
    | dsimp only

theorem psAnswer_clr (M : Mask) (hrg : M.rg = true) (hdr : M.dr = true) (a0 : ℕ) (a1 : ℕ) (a2 : BitVec 16) (a3 : ℕ) (a4 : List Byte) (a5 : State)  :
    (psAnswer a0 a1 a2 a3 a4 a5).clr M = a5.clr M := by
  unfold psAnswer
  repeat' first
    | with_reducible rfl | split | with_reducible refine (setReg_clr M hrg _ _ _ _ _ _ ).trans ?_
    | with_reducible refine (setBank_clr M hdr _ _ _ _ _ _ ).trans ?_ | with_reducible refine (modDrn_clr M hdr _ _ _ _ ).trans ?_
    | with_reducible refine (forEach_clr M _ _ _ ?_).trans ?_ | with_reducible refine (foldl_clr M _ _ _ ?_).trans ?_ | intro _
    | dsimp only

theorem psLoadEnd_clr (M : Mask) (hdr : M.dr = true) (a0 : ℕ) (a1 : ℕ) (a2 : State)  :
    (psLoadEnd a0 a1 a2).clr M = a2.clr M := by
  unfold psLoadEnd
  repeat' first
    | with_reducible rfl | split | with_reducible refine (modDrn_clr M hdr _ _ _ _ ).trans ?_
    | with_reducible refine (foldl_clr M _ _ _ ?_).trans ?_ | intro _ | dsimp only

theorem psRead_clr (M : Mask) (hrg : M.rg = true) (hnt : M.nt = true) (hdr : M.dr = true) (a0 : ℕ) (a1 : ℕ) (a2 : ℕ) (a3 : BitVec 16) (a4 : ℕ) (a5 : ℕ) (a6 : State)  :
    (psRead a0 a1 a2 a3 a4 a5 a6).clr M = a6.clr M := by
  unfold psRead
  repeat' first
    | with_reducible rfl | split | with_reducible refine (sendFrom_clr M hnt _ _ _ _ _ ).trans ?_
    | with_reducible refine (psAnswer_clr M hrg hdr _ _ _ _ _ _ ).trans ?_ | with_reducible refine (foldl_clr M _ _ _ ?_).trans ?_
    | intro _ | dsimp only

theorem psLoadStart_clr (M : Mask) (hrg : M.rg = true) (hnt : M.nt = true) (hdr : M.dr = true) (a0 : ℕ) (a1 : ℕ) (a2 : Word) (a3 : State)  :
    (psLoadStart a0 a1 a2 a3).clr M = a3.clr M := by
  unfold psLoadStart
  repeat' first
    | with_reducible rfl | split | with_reducible refine (badWrite_clr M hrg _ _ _ ).trans ?_
    | with_reducible refine (psRead_clr M hrg hnt hdr _ _ _ _ _ _ _ ).trans ?_
    | with_reducible refine (modDrn_clr M hdr _ _ _ _ ).trans ?_ | with_reducible refine (forEach_clr M _ _ _ ?_).trans ?_
    | with_reducible refine (foldl_clr M _ _ _ ?_).trans ?_ | intro _ | dsimp only

theorem psStore_clr (M : Mask) (hrg : M.rg = true) (hdr : M.dr = true) (a0 : ℕ) (a1 : ℕ) (a2 : Word) (a3 : State)  :
    (psStore a0 a1 a2 a3).clr M = a3.clr M := by
  unfold psStore
  repeat' first
    | with_reducible rfl | split | with_reducible refine (badWrite_clr M hrg _ _ _ ).trans ?_
    | with_reducible refine (setReg_clr M hrg _ _ _ _ _ _ ).trans ?_ | with_reducible refine (setBank_clr M hdr _ _ _ _ _ _ ).trans ?_
    | with_reducible refine (foldl_clr M _ _ _ ?_).trans ?_ | intro _ | dsimp only

theorem startTask_clr (M : Mask) (hrg : M.rg = true) (hdr : M.dr = true) (hft : M.ft = true) (a0 : ℕ) (a1 : ℕ) (a2 : ℕ) (a3 : ℕ) (a4 : ℕ) (a5 : Task) (a6 : Bind) (a7 : List Byte) (a8 : State)  :
    (startTask a0 a1 a2 a3 a4 a5 a6 a7 a8).clr M = a8.clr M := by
  unfold startTask
  repeat' first
    | with_reducible rfl | split | with_reducible refine (modDarner_clr M hdr _ _ _ _ _ ).trans ?_
    | with_reducible refine (fetchCheck_clr M hrg hdr hft _ _ ).trans ?_ | with_reducible refine (foldl_clr M _ _ _ ?_).trans ?_
    | intro _ | dsimp only

theorem stealLinkErr_clr (M : Mask) (hrg : M.rg = true) (hft : M.ft = true) (a0 : ℕ) (a1 : ℕ) (a2 : ℕ) (a3 : ℕ) (a4 : ℕ) (a5 : State)  :
    (stealLinkErr a0 a1 a2 a3 a4 a5).clr M = a5.clr M := by
  unfold stealLinkErr
  repeat' first
    | with_reducible rfl | split | with_reducible refine (setReg_clr M hrg _ _ _ _ _ _ ).trans ?_
    | with_reducible refine (raise_clr M hrg hft _ _ _ _ _ _ ).trans ?_ | with_reducible refine (foldl_clr M _ _ _ ?_).trans ?_
    | intro _ | dsimp only

theorem unstealLate_clr (M : Mask) (hdr : M.dr = true) (a0 : ℕ) (a1 : ℕ) (a2 : State)  :
    (unstealLate a0 a1 a2).clr M = a2.clr M := by
  unfold unstealLate
  repeat' first
    | with_reducible rfl | split | with_reducible refine (modDrn_clr M hdr _ _ _ _ ).trans ?_
    | with_reducible refine (foldl_clr M _ _ _ ?_).trans ?_ | intro _ | dsimp only

end Sys2Proof.Machine
end

