-- ==== Sys2Proof/Laws/FrameSeam.lean ====
section
/-! SUPPORT. What each operation of SeamBase, SeamResv, SeamLoads, SeamOps, Tasks, SeamCmds leaves unchanged: a state after it agrees with the state before outside
the parts it may change. -/
set_option linter.unusedTactic false
set_option linter.unreachableTactic false
set_option linter.unusedVariables false
set_option linter.unusedSimpArgs false

namespace Sys2Proof.Machine

theorem consumeOp_clr (M : Mask) (hnt : M.nt = true) (a0 : ℕ) (a1 : ℕ) (a2 : Byte) (a3 : State)  :
    (consumeOp a0 a1 a2 a3).clr M = a3.clr M := by
  unfold consumeOp
  repeat' first
    | with_reducible rfl | split | simp only [upd_nt M hnt] | with_reducible refine (foldl_clr M _ _ _ ?_).trans ?_ | intro _
    | dsimp only

theorem engSend_clr (M : Mask) (hrg : M.rg = true) (hnt : M.nt = true) (hlk : M.lk = true) (hout : M.out = true) (a0 : ℕ) (a1 : Packet) (a2 : State)  :
    (engSend a0 a1 a2).clr M = a2.clr M := by
  unfold engSend
  repeat' first
    | with_reducible rfl | split | with_reducible refine (sendFrom_clr M hnt _ _ _ _ _ ).trans ?_
    | with_reducible refine (collectorSend_clr M hrg hnt hlk hout _ _ _ _ ).trans ?_
    | with_reducible refine (foldl_clr M _ _ _ ?_).trans ?_ | intro _ | dsimp only

theorem modRec_clr (M : Mask) (hse : M.se = true) (a0 : ℕ) (a1 : SeamRec → SeamRec) (a2 : State)  :
    (modRec a0 a1 a2).clr M = a2.clr M := by
  unfold modRec
  repeat' first
    | with_reducible rfl | split | simp only [upd_se M hse] | with_reducible refine (foldl_clr M _ _ _ ?_).trans ?_ | intro _
    | dsimp only

theorem tileSend_clr (M : Mask) (hnt : M.nt = true) (a0 : ℕ) (a1 : ℕ) (a2 : SeamRef) (a3 : Packet) (a4 : State)  :
    (tileSend a0 a1 a2 a3 a4).clr M = a4.clr M := by
  unfold tileSend
  repeat' first
    | with_reducible rfl | split | with_reducible refine (sendFrom_clr M hnt _ _ _ _ _ ).trans ?_
    | with_reducible refine (foldl_clr M _ _ _ ?_).trans ?_ | intro _ | dsimp only

theorem modResv_clr (M : Mask) (hse : M.se = true) (a0 : ℕ) (a1 : ℕ) (a2 : List TileResv → List TileResv) (a3 : State)  :
    (modResv a0 a1 a2 a3).clr M = a3.clr M := by
  unfold modResv
  repeat' first
    | with_reducible rfl | split | simp only [upd_se M hse] | with_reducible refine (foldl_clr M _ _ _ ?_).trans ?_ | intro _
    | dsimp only

theorem askYield_clr (M : Mask) (hnt : M.nt = true) (hse : M.se = true) (a0 : ℕ) (a1 : ℕ) (a2 : List TileResv) (a3 : State)  :
    (askYield a0 a1 a2 a3).clr M = a3.clr M := by
  unfold askYield
  repeat' first
    | with_reducible rfl | split | with_reducible refine (tileSend_clr M hnt _ _ _ _ _ ).trans ?_
    | with_reducible refine (modResv_clr M hse _ _ _ _ ).trans ?_ | with_reducible refine (forEach_clr M _ _ _ ?_).trans ?_
    | with_reducible refine (foldl_clr M _ _ _ ?_).trans ?_ | intro _ | dsimp only

theorem dropSeamTask_clr (M : Mask) (hrg : M.rg = true) (hdr : M.dr = true) (a0 : SeamRef) (a1 : ℕ) (a2 : ℕ) (a3 : ℕ) (a4 : State)  :
    (dropSeamTask a0 a1 a2 a3 a4).clr M = a4.clr M := by
  unfold dropSeamTask
  repeat' first
    | with_reducible rfl | split | with_reducible refine (freeDarner_clr M hrg hdr _ _ _ _ ).trans ?_
    | with_reducible refine (foldl_clr M _ _ _ ?_).trans ?_ | intro _ | dsimp only

theorem engBad_clr (M : Mask) (hrg : M.rg = true) (hft : M.ft = true) (a0 : ℕ) (a1 : SeamRec) (a2 : List SVal) (a3 : State)  :
    (engBad a0 a1 a2 a3).clr M = a3.clr M := by
  unfold engBad
  repeat' first
    | with_reducible rfl | split | with_reducible refine (raise_clr M hrg hft _ _ _ _ _ _ ).trans ?_
    | with_reducible refine (foldl_clr M _ _ _ ?_).trans ?_ | intro _ | dsimp only

theorem sendGrant_clr (M : Mask) (hnt : M.nt = true) (a0 : ℕ) (a1 : ℕ) (a2 : SeamRef) (a3 : Adm) (a4 : State)  :
    (sendGrant a0 a1 a2 a3 a4).clr M = a4.clr M := by
  unfold sendGrant
  repeat' first
    | with_reducible rfl | split | with_reducible refine (tileSend_clr M hnt _ _ _ _ _ ).trans ?_
    | with_reducible refine (foldl_clr M _ _ _ ?_).trans ?_ | intro _ | dsimp only

theorem seamFail_clr (M : Mask) (hse : M.se = true) (a0 : ℕ) (a1 : ℕ) (a2 : ℕ) (a3 : State)  :
    (seamFail a0 a1 a2 a3).clr M = a3.clr M := by
  unfold seamFail
  repeat' first
    | with_reducible rfl | split | with_reducible refine (modRec_clr M hse _ _ _ ).trans ?_
    | with_reducible refine (foldl_clr M _ _ _ ?_).trans ?_ | intro _ | dsimp only

theorem poisonFail_clr (M : Mask) (hse : M.se = true) (a0 : ℕ) (a1 : Packet) (a2 : State)  :
    (poisonFail a0 a1 a2).clr M = a2.clr M := by
  unfold poisonFail
  repeat' first
    | with_reducible rfl | split | with_reducible refine (seamFail_clr M hse _ _ _ _ ).trans ?_
    | with_reducible refine (foldl_clr M _ _ _ ?_).trans ?_ | intro _ | dsimp only

theorem takeEarly_clr (M : Mask) (hrg : M.rg = true) (hse : M.se = true) (hft : M.ft = true) (a0 : ℕ) (a1 : ℕ) (a2 : SeamDesc) (a3 : State)  :
    (takeEarly a0 a1 a2 a3).clr M = a3.clr M := by
  unfold takeEarly
  repeat' first
    | with_reducible rfl | split | with_reducible refine (poisonFail_clr M hse _ _ _ ).trans ?_
    | with_reducible refine (modRec_clr M hse _ _ _ ).trans ?_ | with_reducible refine (engBad_clr M hrg hft _ _ _ _ ).trans ?_
    | with_reducible refine (forEach_clr M _ _ _ ?_).trans ?_ | simp only [upd_ft M hft, upd_se M hse, upd_rg M hrg]
    | with_reducible refine (foldl_clr M _ _ _ ?_).trans ?_ | intro _ | dsimp only

theorem grantResv_clr (M : Mask) (hrg : M.rg = true) (hnt : M.nt = true) (hdr : M.dr = true) (hse : M.se = true) (hft : M.ft = true) (a0 : ℕ) (a1 : ℕ) (a2 : SeamRef) (a3 : State)  :
    (grantResv a0 a1 a2 a3).clr M = a3.clr M := by
  unfold grantResv
  repeat' first
    | with_reducible rfl | split | with_reducible refine (sendGrant_clr M hnt _ _ _ _ _ ).trans ?_
    | with_reducible refine (modDarner_clr M hdr _ _ _ _ _ ).trans ?_ | with_reducible refine (modDrn_clr M hdr _ _ _ _ ).trans ?_
    | with_reducible refine (takeEarly_clr M hrg hse hft _ _ _ _ ).trans ?_ | with_reducible refine (modRec_clr M hse _ _ _ ).trans ?_
    | with_reducible refine (modResv_clr M hse _ _ _ _ ).trans ?_ | with_reducible refine (forEach_clr M _ _ _ ?_).trans ?_
    | simp only [upd_nt M hnt, upd_ft M hft, upd_se M hse, upd_rg M hrg, upd_dr M hdr, upd_rg_nt M hrg hnt]
    | with_reducible refine (foldl_clr M _ _ _ ?_).trans ?_ | intro _ | dsimp only

theorem evalOne_clr (M : Mask) (hrg : M.rg = true) (hnt : M.nt = true) (hdr : M.dr = true) (hse : M.se = true) (hft : M.ft = true) (a0 : ℕ) (a1 : ℕ) (a2 : SeamRef) (a3 : State)  :
    (evalOne a0 a1 a2 a3).clr M = a3.clr M := by
  unfold evalOne
  repeat' first
    | with_reducible rfl | split | with_reducible refine (sendGrant_clr M hnt _ _ _ _ _ ).trans ?_
    | with_reducible refine (askYield_clr M hnt hse _ _ _ _ ).trans ?_
    | with_reducible refine (grantResv_clr M hrg hnt hdr hse hft _ _ _ _ ).trans ?_
    | with_reducible refine (modResv_clr M hse _ _ _ _ ).trans ?_ | with_reducible refine (foldl_clr M _ _ _ ?_).trans ?_ | intro _
    | dsimp only

theorem evalResv_clr (M : Mask) (hrg : M.rg = true) (hnt : M.nt = true) (hdr : M.dr = true) (hse : M.se = true) (hft : M.ft = true) (a0 : ℕ) (a1 : ℕ) (a2 : State)  :
    (evalResv a0 a1 a2).clr M = a2.clr M := by
  unfold evalResv
  repeat' first
    | with_reducible rfl | split | with_reducible refine (evalOne_clr M hrg hnt hdr hse hft _ _ _ _ ).trans ?_
    | with_reducible refine (forEach_clr M _ _ _ ?_).trans ?_ | with_reducible refine (foldl_clr M _ _ _ ?_).trans ?_ | intro _
    | dsimp only

theorem releaseAt_clr (M : Mask) (hrg : M.rg = true) (hdr : M.dr = true) (hse : M.se = true) (a0 : ℕ) (a1 : ℕ) (a2 : SeamRef) (a3 : State)  :
    (releaseAt a0 a1 a2 a3).clr M = a3.clr M := by
  unfold releaseAt
  repeat' first
    | with_reducible rfl | split | with_reducible refine (modDrn_clr M hdr _ _ _ _ ).trans ?_
    | with_reducible refine (dropSeamTask_clr M hrg hdr _ _ _ _ _ ).trans ?_
    | with_reducible refine (modResv_clr M hse _ _ _ _ ).trans ?_ | with_reducible refine (forEach_clr M _ _ _ ?_).trans ?_
    | simp only [upd_se M hse, upd_rg M hrg, upd_dr M hdr] | with_reducible refine (foldl_clr M _ _ _ ?_).trans ?_ | intro _
    | dsimp only

theorem releaseEval_clr (M : Mask) (hrg : M.rg = true) (hnt : M.nt = true) (hdr : M.dr = true) (hse : M.se = true) (hft : M.ft = true) (a0 : ℕ) (a1 : ℕ) (a2 : SeamRef) (a3 : State)  :
    (releaseEval a0 a1 a2 a3).clr M = a3.clr M := by
  unfold releaseEval
  repeat' first
    | with_reducible rfl | split | with_reducible refine (releaseAt_clr M hrg hdr hse _ _ _ _ ).trans ?_
    | with_reducible refine (evalResv_clr M hrg hnt hdr hse hft _ _ _ ).trans ?_
    | with_reducible refine (fillQueue_clr M hdr _ _ _ ).trans ?_ | with_reducible refine (foldl_clr M _ _ _ ?_).trans ?_ | intro _
    | dsimp only

theorem modLoad_clr (M : Mask) (hse : M.se = true) (a0 : ℕ) (a1 : ℕ) (a2 : LoadSt → LoadSt) (a3 : State)  :
    (modLoad a0 a1 a2 a3).clr M = a3.clr M := by
  unfold modLoad
  repeat' first
    | with_reducible rfl | split | with_reducible refine (modRec_clr M hse _ _ _ ).trans ?_
    | with_reducible refine (foldl_clr M _ _ _ ?_).trans ?_ | intro _ | dsimp only

theorem sendShadows_clr (M : Mask) (hrg : M.rg = true) (hnt : M.nt = true) (hlk : M.lk = true) (hout : M.out = true) (a0 : ℕ) (a1 : ℕ) (a2 : List (List Byte)) (a3 : State)  :
    (sendShadows a0 a1 a2 a3).clr M = a3.clr M := by
  unfold sendShadows
  repeat' first
    | with_reducible rfl | split | with_reducible refine (engSend_clr M hrg hnt hlk hout _ _ _ ).trans ?_
    | with_reducible refine (forEach_clr M _ _ _ ?_).trans ?_ | with_reducible refine (foldl_clr M _ _ _ ?_).trans ?_ | intro _
    | dsimp only

theorem writeCounts_clr (M : Mask) (hout : M.out = true) (a0 : SeamRec) (a1 : State)  :
    (writeCounts a0 a1).clr M = a1.clr M := by
  unfold writeCounts
  repeat' first
    | with_reducible rfl | split | with_reducible refine (storeBy_clr M hout _ _ _ _ ).trans ?_
    | with_reducible refine (forEach_clr M _ _ _ ?_).trans ?_ | with_reducible refine (foldl_clr M _ _ _ ?_).trans ?_ | intro _
    | dsimp only

theorem sendResults_clr (M : Mask) (hrg : M.rg = true) (hnt : M.nt = true) (hlk : M.lk = true) (hout : M.out = true) (a0 : ℕ) (a1 : ℕ) (a2 : List (List Byte)) (a3 : State)  :
    (sendResults a0 a1 a2 a3).clr M = a3.clr M := by
  unfold sendResults
  repeat' first
    | with_reducible rfl | split | with_reducible refine (engSend_clr M hrg hnt hlk hout _ _ _ ).trans ?_
    | with_reducible refine (forEach_clr M _ _ _ ?_).trans ?_ | with_reducible refine (foldl_clr M _ _ _ ?_).trans ?_ | intro _
    | dsimp only

theorem checkFinished_clr (M : Mask) (hrg : M.rg = true) (hse : M.se = true) (a0 : ℕ) (a1 : ℕ) (a2 : State)  :
    (checkFinished a0 a1 a2).clr M = a2.clr M := by
  unfold checkFinished
  repeat' first
    | with_reducible rfl | split | with_reducible refine (modLoad_clr M hse _ _ _ _ ).trans ?_
    | with_reducible refine (satCount_clr M hrg _ _ _ _ _ ).trans ?_ | with_reducible refine (foldl_clr M _ _ _ ?_).trans ?_ | intro _
    | dsimp only

theorem finishOut_clr (M : Mask) (hrg : M.rg = true) (hnt : M.nt = true) (hse : M.se = true) (hlk : M.lk = true) (hout : M.out = true) (a0 : ℕ) (a1 : ℕ) (a2 : List (List Byte)) (a3 : Byte) (a4 : Bool) (a5 : State)  :
    (finishOut a0 a1 a2 a3 a4 a5).clr M = a5.clr M := by
  unfold finishOut
  repeat' first
    | with_reducible rfl | split | with_reducible refine (modLoad_clr M hse _ _ _ _ ).trans ?_
    | with_reducible refine (sendShadows_clr M hrg hnt hlk hout _ _ _ _ ).trans ?_
    | with_reducible refine (writeCounts_clr M hout _ _ ).trans ?_
    | with_reducible refine (sendResults_clr M hrg hnt hlk hout _ _ _ _ ).trans ?_
    | with_reducible refine (modRec_clr M hse _ _ _ ).trans ?_ | with_reducible refine (checkFinished_clr M hrg hse _ _ _ ).trans ?_
    | with_reducible refine (doIf_clr M _ _ _ ?_).trans ?_ | with_reducible refine (foldl_clr M _ _ _ ?_).trans ?_ | intro _
    | dsimp only

theorem sendVals_clr (M : Mask) (hrg : M.rg = true) (hnt : M.nt = true) (hlk : M.lk = true) (hout : M.out = true) (a0 : ℕ) (a1 : SeamRec) (a2 : DWord) (a3 : ℕ) (a4 : ℕ) (a5 : ℕ) (a6 : ℕ) (a7 : List SVal) (a8 : State)  :
    (sendVals a0 a1 a2 a3 a4 a5 a6 a7 a8).clr M = a8.clr M := by
  unfold sendVals
  repeat' first
    | with_reducible rfl | split | with_reducible refine (engSend_clr M hrg hnt hlk hout _ _ _ ).trans ?_
    | with_reducible refine (forEach_clr M _ _ _ ?_).trans ?_ | with_reducible refine (foldl_clr M _ _ _ ?_).trans ?_ | intro _
    | dsimp only

theorem advanceLoad_clr (M : Mask) (hrg : M.rg = true) (hnt : M.nt = true) (hse : M.se = true) (hlk : M.lk = true) (hout : M.out = true) (a0 : ℕ) (a1 : ℕ) (a2 : State)  :
    (advanceLoad a0 a1 a2).clr M = a2.clr M := by
  unfold advanceLoad
  repeat' first
    | with_reducible rfl | split | with_reducible refine (modLoad_clr M hse _ _ _ _ ).trans ?_
    | with_reducible refine (finishOut_clr M hrg hnt hse hlk hout _ _ _ _ _ _ ).trans ?_
    | with_reducible refine (modRec_clr M hse _ _ _ ).trans ?_
    | with_reducible refine (sendVals_clr M hrg hnt hlk hout _ _ _ _ _ _ _ _ _ ).trans ?_
    | with_reducible refine (checkFinished_clr M hrg hse _ _ _ ).trans ?_ | with_reducible refine (foldl_clr M _ _ _ ?_).trans ?_
    | intro _ | dsimp only

theorem beginStep_clr (M : Mask) (hrg : M.rg = true) (hnt : M.nt = true) (hlk : M.lk = true) (hout : M.out = true) (a0 : ℕ) (a1 : ℕ) (a2 : State)  :
    (beginStep a0 a1 a2).clr M = a2.clr M := by
  unfold beginStep
  repeat' first
    | with_reducible rfl | split | with_reducible refine (sendVals_clr M hrg hnt hlk hout _ _ _ _ _ _ _ _ _ ).trans ?_
    | with_reducible refine (foldl_clr M _ _ _ ?_).trans ?_ | intro _ | dsimp only

theorem foldInput_clr (M : Mask) (hse : M.se = true) (a0 : ℕ) (a1 : ℕ) (a2 : ℕ) (a3 : ℕ) (a4 : ℕ) (a5 : List (List Byte)) (a6 : List (List Byte)) (a7 : State)  :
    (foldInput a0 a1 a2 a3 a4 a5 a6 a7).clr M = a7.clr M := by
  unfold foldInput
  repeat' first
    | with_reducible rfl | split | with_reducible refine (modRec_clr M hse _ _ _ ).trans ?_
    | with_reducible refine (foldl_clr M _ _ _ ?_).trans ?_ | intro _ | dsimp only

theorem sendUp_clr (M : Mask) (hnt : M.nt = true) (a0 : ℕ) (a1 : SeamRef) (a2 : ℕ) (a3 : ℕ) (a4 : ℕ) (a5 : ℕ) (a6 : Bool) (a7 : List SVal) (a8 : State)  :
    (sendUp a0 a1 a2 a3 a4 a5 a6 a7 a8).clr M = a8.clr M := by
  unfold sendUp
  repeat' first
    | with_reducible rfl | split | with_reducible refine (tileSend_clr M hnt _ _ _ _ _ ).trans ?_
    | with_reducible refine (forEach_clr M _ _ _ ?_).trans ?_ | with_reducible refine (foldl_clr M _ _ _ ?_).trans ?_ | intro _
    | dsimp only

theorem modTLoad_clr (M : Mask) (hse : M.se = true) (a0 : ℕ) (a1 : ℕ) (a2 : SeamRef) (a3 : ℕ) (a4 : TLoad → TLoad) (a5 : State)  :
    (modTLoad a0 a1 a2 a3 a4 a5).clr M = a5.clr M := by
  unfold modTLoad
  repeat' first
    | with_reducible rfl | split | simp only [upd_se M hse] | with_reducible refine (foldl_clr M _ _ _ ?_).trans ?_ | intro _
    | dsimp only

theorem enterDeliver_clr (M : Mask) (hdr : M.dr = true) (hse : M.se = true) (a0 : ℕ) (a1 : SeamRef) (a2 : ℕ) (a3 : ℕ) (a4 : ℕ) (a5 : State)  :
    (enterDeliver a0 a1 a2 a3 a4 a5).clr M = a5.clr M := by
  unfold enterDeliver
  repeat' first
    | with_reducible rfl | split | with_reducible refine (modDrn_clr M hdr _ _ _ _ ).trans ?_
    | with_reducible refine (modTLoad_clr M hse _ _ _ _ _ _ ).trans ?_ | with_reducible refine (foldl_clr M _ _ _ ?_).trans ?_ | intro _
    | dsimp only

theorem enterStripe_clr (M : Mask) (hdr : M.dr = true) (hse : M.se = true) (a0 : ℕ) (a1 : SeamRef) (a2 : ℕ) (a3 : ℕ) (a4 : ℕ) (a5 : State)  :
    (enterStripe a0 a1 a2 a3 a4 a5).clr M = a5.clr M := by
  unfold enterStripe
  repeat' first
    | with_reducible rfl | split | with_reducible refine (modDrn_clr M hdr _ _ _ _ ).trans ?_
    | with_reducible refine (modTLoad_clr M hse _ _ _ _ _ _ ).trans ?_ | with_reducible refine (foldl_clr M _ _ _ ?_).trans ?_ | intro _
    | dsimp only

theorem fillSeam_clr (M : Mask) (hdr : M.dr = true) (hse : M.se = true) (a0 : ℕ) (a1 : ℕ) (a2 : State)  :
    (fillSeam a0 a1 a2).clr M = a2.clr M := by
  unfold fillSeam
  repeat' first
    | with_reducible rfl | split | with_reducible refine (enterDeliver_clr M hdr hse _ _ _ _ _ _ ).trans ?_
    | with_reducible refine (enterStripe_clr M hdr hse _ _ _ _ _ _ ).trans ?_ | with_reducible refine (forEach_clr M _ _ _ ?_).trans ?_
    | with_reducible refine (foldl_clr M _ _ _ ?_).trans ?_ | intro _ | dsimp only

theorem keepVals_clr (M : Mask) (hdr : M.dr = true) (hse : M.se = true) (a0 : ℕ) (a1 : SeamRef) (a2 : ℕ) (a3 : ℕ) (a4 : ℕ) (a5 : ℕ) (a6 : List SVal) (a7 : State)  :
    (keepVals a0 a1 a2 a3 a4 a5 a6 a7).clr M = a7.clr M := by
  unfold keepVals
  repeat' first
    | with_reducible rfl | split | with_reducible refine (fillSeam_clr M hdr hse _ _ _ ).trans ?_
    | with_reducible refine (modTLoad_clr M hse _ _ _ _ _ _ ).trans ?_ | with_reducible refine (foldl_clr M _ _ _ ?_).trans ?_ | intro _
    | dsimp only

theorem combineDone_clr (M : Mask) (hnt : M.nt = true) (hdr : M.dr = true) (hse : M.se = true) (a0 : ℕ) (a1 : SeamRef) (a2 : ℕ) (a3 : ℕ) (a4 : Task) (a5 : List Byte) (a6 : Bool) (a7 : State)  :
    (combineDone a0 a1 a2 a3 a4 a5 a6 a7).clr M = a7.clr M := by
  unfold combineDone
  repeat' first
    | with_reducible rfl | split | with_reducible refine (foldInput_clr M hse _ _ _ _ _ _ _ _ ).trans ?_
    | with_reducible refine (sendUp_clr M hnt _ _ _ _ _ _ _ _ _ ).trans ?_
    | with_reducible refine (keepVals_clr M hdr hse _ _ _ _ _ _ _ _ ).trans ?_ | with_reducible refine (foldl_clr M _ _ _ ?_).trans ?_
    | intro _ | dsimp only

theorem writeShare_clr (M : Mask) (hse : M.se = true) (hout : M.out = true) (a0 : ℕ) (a1 : ℕ) (a2 : ℕ) (a3 : ℕ) (a4 : ℕ) (a5 : List (List Byte)) (a6 : State)  :
    (writeShare a0 a1 a2 a3 a4 a5 a6).clr M = a6.clr M := by
  unfold writeShare
  repeat' first
    | with_reducible rfl | split | with_reducible refine (modLoad_clr M hse _ _ _ _ ).trans ?_
    | with_reducible refine (storeBy_clr M hout _ _ _ _ ).trans ?_ | with_reducible refine (forEach_clr M _ _ _ ?_).trans ?_
    | with_reducible refine (foldl_clr M _ _ _ ?_).trans ?_ | intro _ | dsimp only

theorem tileDown_clr (M : Mask) (hrg : M.rg = true) (hnt : M.nt = true) (hse : M.se = true) (hout : M.out = true) (a0 : ℕ) (a1 : SeamRef) (a2 : ℕ) (a3 : ℕ) (a4 : ℕ) (a5 : ℕ) (a6 : List (List Byte)) (a7 : State)  :
    (tileDown a0 a1 a2 a3 a4 a5 a6 a7).clr M = a7.clr M := by
  unfold tileDown
  repeat' first
    | with_reducible rfl | split | with_reducible refine (tileSend_clr M hnt _ _ _ _ _ ).trans ?_
    | with_reducible refine (checkFinished_clr M hrg hse _ _ _ ).trans ?_
    | with_reducible refine (writeShare_clr M hse hout _ _ _ _ _ _ _ ).trans ?_
    | with_reducible refine (forEach_clr M _ _ _ ?_).trans ?_ | with_reducible refine (foldl_clr M _ _ _ ?_).trans ?_ | intro _
    | dsimp only

theorem deliverDone_clr (M : Mask) (hrg : M.rg = true) (hnt : M.nt = true) (hse : M.se = true) (hout : M.out = true) (a0 : ℕ) (a1 : SeamRef) (a2 : ℕ) (a3 : ℕ) (a4 : Task) (a5 : State)  :
    (deliverDone a0 a1 a2 a3 a4 a5).clr M = a5.clr M := by
  unfold deliverDone
  repeat' first
    | with_reducible rfl | split | with_reducible refine (tileSend_clr M hnt _ _ _ _ _ ).trans ?_
    | with_reducible refine (tileDown_clr M hrg hnt hse hout _ _ _ _ _ _ _ _ ).trans ?_
    | with_reducible refine (forEach_clr M _ _ _ ?_).trans ?_ | with_reducible refine (foldl_clr M _ _ _ ?_).trans ?_ | intro _
    | dsimp only

theorem homeArrive_clr (M : Mask) (hrg : M.rg = true) (hnt : M.nt = true) (hse : M.se = true) (hlk : M.lk = true) (hft : M.ft = true) (hout : M.out = true) (a0 : ℕ) (a1 : ℕ) (a2 : ℕ) (a3 : Packet) (a4 : State)  :
    (homeArrive a0 a1 a2 a3 a4).clr M = a4.clr M := by
  unfold homeArrive
  repeat' first
    | with_reducible rfl | split | with_reducible refine (modLoad_clr M hse _ _ _ _ ).trans ?_
    | with_reducible refine (foldInput_clr M hse _ _ _ _ _ _ _ _ ).trans ?_
    | with_reducible refine (poisonFail_clr M hse _ _ _ ).trans ?_ | with_reducible refine (modRec_clr M hse _ _ _ ).trans ?_
    | with_reducible refine (engBad_clr M hrg hft _ _ _ _ ).trans ?_
    | with_reducible refine (advanceLoad_clr M hrg hnt hse hlk hout _ _ _ ).trans ?_
    | with_reducible refine (foldl_clr M _ _ _ ?_).trans ?_ | intro _ | dsimp only

theorem rawSend_clr (M : Mask) (hnt : M.nt = true) (hse : M.se = true) (a0 : ℕ) (a1 : SeamRef) (a2 : ℕ) (a3 : ℕ) (a4 : TLoad) (a5 : State)  :
    (rawSend a0 a1 a2 a3 a4 a5).clr M = a5.clr M := by
  unfold rawSend
  repeat' first
    | with_reducible rfl | split | with_reducible refine (modTLoad_clr M hse _ _ _ _ _ _ ).trans ?_
    | with_reducible refine (tileSend_clr M hnt _ _ _ _ _ ).trans ?_ | with_reducible refine (forEach_clr M _ _ _ ?_).trans ?_
    | with_reducible refine (foldl_clr M _ _ _ ?_).trans ?_ | intro _ | dsimp only

theorem tileAbort_clr (M : Mask) (hnt : M.nt = true) (a0 : ℕ) (a1 : ℕ) (a2 : SeamRef) (a3 : ℕ) (a4 : State)  :
    (tileAbort a0 a1 a2 a3 a4).clr M = a4.clr M := by
  unfold tileAbort
  repeat' first
    | with_reducible rfl | split | with_reducible refine (tileSend_clr M hnt _ _ _ _ _ ).trans ?_
    | with_reducible refine (foldl_clr M _ _ _ ?_).trans ?_ | intro _ | dsimp only

theorem rawData_clr (M : Mask) (hnt : M.nt = true) (hse : M.se = true) (a0 : ℕ) (a1 : ℕ) (a2 : BitVec 16) (a3 : ℕ) (a4 : List Byte) (a5 : State)  :
    (rawData a0 a1 a2 a3 a4 a5).clr M = a5.clr M := by
  unfold rawData
  repeat' first
    | with_reducible rfl | split | with_reducible refine (rawSend_clr M hnt hse _ _ _ _ _ _ ).trans ?_
    | with_reducible refine (tileAbort_clr M hnt _ _ _ _ _ ).trans ?_ | with_reducible refine (modTLoad_clr M hse _ _ _ _ _ _ ).trans ?_
    | with_reducible refine (foldl_clr M _ _ _ ?_).trans ?_ | intro _ | dsimp only

theorem rawStart_clr (M : Mask) (hnt : M.nt = true) (hdr : M.dr = true) (hse : M.se = true) (a0 : ℕ) (a1 : SeamRef) (a2 : ℕ) (a3 : ℕ) (a4 : ℕ) (a5 : State)  :
    (rawStart a0 a1 a2 a3 a4 a5).clr M = a5.clr M := by
  unfold rawStart
  repeat' first
    | with_reducible rfl | split | with_reducible refine (modDrn_clr M hdr _ _ _ _ ).trans ?_
    | with_reducible refine (sendFrom_clr M hnt _ _ _ _ _ ).trans ?_ | with_reducible refine (forEach_clr M _ _ _ ?_).trans ?_
    | simp only [upd_nt M hnt, upd_se M hse, upd_dr M hdr] | with_reducible refine (foldl_clr M _ _ _ ?_).trans ?_ | intro _
    | dsimp only

theorem stageArrive_clr (M : Mask) (hrg : M.rg = true) (hse : M.se = true) (hft : M.ft = true) (a0 : ℕ) (a1 : ℕ) (a2 : SeamRef) (a3 : Packet) (a4 : State)  :
    (stageArrive a0 a1 a2 a3 a4).clr M = a4.clr M := by
  unfold stageArrive
  repeat' first
    | with_reducible rfl | split | with_reducible refine (modLoad_clr M hse _ _ _ _ ).trans ?_
    | with_reducible refine (poisonFail_clr M hse _ _ _ ).trans ?_ | with_reducible refine (modRec_clr M hse _ _ _ ).trans ?_
    | with_reducible refine (engBad_clr M hrg hft _ _ _ _ ).trans ?_ | simp only [upd_ft M hft, upd_se M hse, upd_rg M hrg]
    | with_reducible refine (foldl_clr M _ _ _ ?_).trans ?_ | intro _ | dsimp only

theorem stageLoad_clr (M : Mask) (hrg : M.rg = true) (hnt : M.nt = true) (hse : M.se = true) (hlk : M.lk = true) (hout : M.out = true) (a0 : ℕ) (a1 : ℕ) (a2 : ℕ) (a3 : State)  :
    (stageLoad a0 a1 a2 a3).clr M = a3.clr M := by
  unfold stageLoad
  repeat' first
    | with_reducible rfl | split | with_reducible refine (modLoad_clr M hse _ _ _ _ ).trans ?_
    | with_reducible refine (beginStep_clr M hrg hnt hlk hout _ _ _ ).trans ?_
    | with_reducible refine (modRec_clr M hse _ _ _ ).trans ?_ | with_reducible refine (foldl_clr M _ _ _ ?_).trans ?_ | intro _
    | dsimp only

theorem tileData_clr (M : Mask) (hrg : M.rg = true) (hnt : M.nt = true) (hdr : M.dr = true) (hse : M.se = true) (hout : M.out = true) (a0 : ℕ) (a1 : SeamRef) (a2 : ℕ) (a3 : ℕ) (a4 : ℕ) (a5 : ℕ) (a6 : Packet) (a7 : State)  :
    (tileData a0 a1 a2 a3 a4 a5 a6 a7).clr M = a7.clr M := by
  unfold tileData
  repeat' first
    | with_reducible rfl | split | with_reducible refine (sendUp_clr M hnt _ _ _ _ _ _ _ _ _ ).trans ?_
    | with_reducible refine (poisonFail_clr M hse _ _ _ ).trans ?_
    | with_reducible refine (keepVals_clr M hdr hse _ _ _ _ _ _ _ _ ).trans ?_
    | with_reducible refine (tileDown_clr M hrg hnt hse hout _ _ _ _ _ _ _ _ ).trans ?_
    | with_reducible refine (checkFinished_clr M hrg hse _ _ _ ).trans ?_
    | with_reducible refine (writeShare_clr M hse hout _ _ _ _ _ _ _ ).trans ?_ | with_reducible refine (foldl_clr M _ _ _ ?_).trans ?_
    | intro _ | dsimp only

theorem tilePart_clr (M : Mask) (hrg : M.rg = true) (hse : M.se = true) (hft : M.ft = true) (a0 : ℕ) (a1 : SeamRef) (a2 : ℕ) (a3 : ℕ) (a4 : Packet) (a5 : State)  :
    (tilePart a0 a1 a2 a3 a4 a5).clr M = a5.clr M := by
  unfold tilePart
  repeat' first
    | with_reducible rfl | split | with_reducible refine (poisonFail_clr M hse _ _ _ ).trans ?_
    | with_reducible refine (modTLoad_clr M hse _ _ _ _ _ _ ).trans ?_
    | with_reducible refine (raise_clr M hrg hft _ _ _ _ _ _ ).trans ?_ | with_reducible refine (foldl_clr M _ _ _ ?_).trans ?_
    | intro _ | dsimp only

theorem abortOthers_clr (M : Mask) (hrg : M.rg = true) (hnt : M.nt = true) (hlk : M.lk = true) (hout : M.out = true) (a0 : ℕ) (a1 : SeamRec) (a2 : ℕ) (a3 : State)  :
    (abortOthers a0 a1 a2 a3).clr M = a3.clr M := by
  unfold abortOthers
  repeat' first
    | with_reducible rfl | split | with_reducible refine (engSend_clr M hrg hnt hlk hout _ _ _ ).trans ?_
    | with_reducible refine (forEach_clr M _ _ _ ?_).trans ?_ | with_reducible refine (foldl_clr M _ _ _ ?_).trans ?_ | intro _
    | dsimp only

theorem sendSummaries_clr (M : Mask) (hrg : M.rg = true) (hnt : M.nt = true) (hlk : M.lk = true) (hout : M.out = true) (a0 : ℕ) (a1 : SeamRec) (a2 : ℕ) (a3 : List (List Byte)) (a4 : State)  :
    (sendSummaries a0 a1 a2 a3 a4).clr M = a4.clr M := by
  unfold sendSummaries
  repeat' first
    | with_reducible rfl | split | with_reducible refine (engSend_clr M hrg hnt hlk hout _ _ _ ).trans ?_
    | with_reducible refine (forEach_clr M _ _ _ ?_).trans ?_ | with_reducible refine (foldl_clr M _ _ _ ?_).trans ?_ | intro _
    | dsimp only

theorem summaryArrive_clr (M : Mask) (hrg : M.rg = true) (hnt : M.nt = true) (hse : M.se = true) (hlk : M.lk = true) (hout : M.out = true) (a0 : ℕ) (a1 : Packet) (a2 : State)  :
    (summaryArrive a0 a1 a2).clr M = a2.clr M := by
  unfold summaryArrive
  repeat' first
    | with_reducible rfl | split | with_reducible refine (sendSummaries_clr M hrg hnt hlk hout _ _ _ _ _ ).trans ?_
    | with_reducible refine (modRec_clr M hse _ _ _ ).trans ?_ | with_reducible refine (foldl_clr M _ _ _ ?_).trans ?_ | intro _
    | dsimp only

theorem sendReserve_clr (M : Mask) (hrg : M.rg = true) (hnt : M.nt = true) (hse : M.se = true) (hlk : M.lk = true) (hout : M.out = true) (a0 : ℕ) (a1 : ℕ) (a2 : ℕ) (a3 : State)  :
    (sendReserve a0 a1 a2 a3).clr M = a3.clr M := by
  unfold sendReserve
  repeat' first
    | with_reducible rfl | split | with_reducible refine (engSend_clr M hrg hnt hlk hout _ _ _ ).trans ?_
    | with_reducible refine (modRec_clr M hse _ _ _ ).trans ?_ | with_reducible refine (foldl_clr M _ _ _ ?_).trans ?_ | intro _
    | dsimp only

theorem bumpSeq_clr (M : Mask) (hse : M.se = true) (a0 : ℕ) (a1 : ℕ) (a2 : ℕ) (a3 : State)  :
    (bumpSeq a0 a1 a2 a3).clr M = a3.clr M := by
  unfold bumpSeq
  repeat' first
    | with_reducible rfl | split | simp only [upd_se M hse] | with_reducible refine (foldl_clr M _ _ _ ?_).trans ?_ | intro _
    | dsimp only

theorem acceptOpen_clr (M : Mask) (hrg : M.rg = true) (hnt : M.nt = true) (hse : M.se = true) (hlk : M.lk = true) (hout : M.out = true) (a0 : ℕ) (a1 : ℕ) (a2 : Packet) (a3 : State)  :
    (acceptOpen a0 a1 a2 a3).clr M = a3.clr M := by
  unfold acceptOpen
  repeat' first
    | with_reducible rfl | split | with_reducible refine (summaryArrive_clr M hrg hnt hse hlk hout _ _ _ ).trans ?_
    | with_reducible refine (sendReserve_clr M hrg hnt hse hlk hout _ _ _ _ ).trans ?_
    | with_reducible refine (modRec_clr M hse _ _ _ ).trans ?_ | with_reducible refine (bumpSeq_clr M hse _ _ _ _ ).trans ?_
    | with_reducible refine (forEach_clr M _ _ _ ?_).trans ?_
    | simp only [upd_nt M hnt, upd_out M hout, upd_se M hse, upd_rg M hrg, upd_lk M hlk, upd_rg_nt M hrg hnt]
    | with_reducible refine (foldl_clr M _ _ _ ?_).trans ?_ | intro _ | dsimp only

theorem advanceDone_clr (M : Mask) (hse : M.se = true) (a0 : ℕ) (a1 : ℕ) (a2 : State)  :
    (advanceDone a0 a1 a2).clr M = a2.clr M := by
  induction a1 generalizing a2 with
  | zero => rfl
  | succ _ ih =>
    unfold advanceDone
    repeat' first
      | with_reducible rfl | split | with_reducible refine (ih _).trans ?_ | simp only [upd_se M hse]
      | with_reducible refine (foldl_clr M _ _ _ ?_).trans ?_ | intro _ | dsimp only

theorem afterRefusal_clr (M : Mask) (hrg : M.rg = true) (hse : M.se = true) (a0 : Packet) (a1 : ℕ) (a2 : State)  :
    (afterRefusal a0 a1 a2).clr M = a2.clr M := by
  unfold afterRefusal
  repeat' first
    | with_reducible rfl | split | with_reducible refine (addCount_clr M hrg _ _ _ _ _ ).trans ?_
    | with_reducible refine (bumpSeq_clr M hse _ _ _ _ ).trans ?_ | with_reducible refine (foldl_clr M _ _ _ ?_).trans ?_ | intro _
    | dsimp only

theorem openEvent_clr (M : Mask) (hpr : M.pr = true) (a0 : Packet) (a1 : ℕ) (a2 : Adm) (a3 : ℕ) (a4 : State)  :
    (openEvent a0 a1 a2 a3 a4).clr M = a4.clr M := by
  unfold openEvent
  repeat' first
    | with_reducible rfl | split | with_reducible refine (pairEvent_clr M hpr _ _ ).trans ?_
    | with_reducible refine (foldl_clr M _ _ _ ?_).trans ?_ | intro _ | dsimp only

theorem lateRefusal_clr (M : Mask) (hnt : M.nt = true) (a0 : ℕ) (a1 : ℕ) (a2 : Packet) (a3 : ℕ) (a4 : State)  :
    (lateRefusal a0 a1 a2 a3 a4).clr M = a4.clr M := by
  unfold lateRefusal
  repeat' first
    | with_reducible rfl | split | with_reducible refine (sendFrom_clr M hnt _ _ _ _ _ ).trans ?_
    | with_reducible refine (foldl_clr M _ _ _ ?_).trans ?_ | intro _ | dsimp only

theorem sendAdmit_clr (M : Mask) (hnt : M.nt = true) (a0 : ℕ) (a1 : ℕ) (a2 : Packet) (a3 : Adm) (a4 : State)  :
    (sendAdmit a0 a1 a2 a3 a4).clr M = a4.clr M := by
  unfold sendAdmit
  repeat' first
    | with_reducible rfl | split | with_reducible refine (sendFrom_clr M hnt _ _ _ _ _ ).trans ?_
    | with_reducible refine (foldl_clr M _ _ _ ?_).trans ?_ | intro _ | dsimp only

theorem applyOpen_clr (M : Mask) (hrg : M.rg = true) (hnt : M.nt = true) (hse : M.se = true) (hpr : M.pr = true) (hlk : M.lk = true) (hout : M.out = true) (a0 : ℕ) (a1 : ℕ) (a2 : Bool) (a3 : Packet) (a4 : Adm) (a5 : State)  :
    (applyOpen a0 a1 a2 a3 a4 a5).clr M = a5.clr M := by
  unfold applyOpen
  repeat' first
    | with_reducible rfl | split | with_reducible refine (acceptOpen_clr M hrg hnt hse hlk hout _ _ _ _ ).trans ?_
    | with_reducible refine (openEvent_clr M hpr _ _ _ _ _ ).trans ?_
    | with_reducible refine (lateRefusal_clr M hnt _ _ _ _ _ ).trans ?_
    | with_reducible refine (sendAdmit_clr M hnt _ _ _ _ _ ).trans ?_
    | with_reducible refine (afterRefusal_clr M hrg hse _ _ _ ).trans ?_
    | with_reducible refine (countDefer_clr M hnt _ _ _ _ _ ).trans ?_ | with_reducible refine (doIf_clr M _ _ _ ?_).trans ?_
    | simp only [upd_nt M hnt, upd_pr M hpr, upd_out M hout, upd_se M hse, upd_rg M hrg, upd_lk M hlk, upd_rg_nt M hrg hnt]
    | with_reducible refine (foldl_clr M _ _ _ ?_).trans ?_ | intro _ | dsimp only

theorem beginExchange_clr (M : Mask) (hrg : M.rg = true) (hnt : M.nt = true) (hse : M.se = true) (hlk : M.lk = true) (hout : M.out = true) (a0 : ℕ) (a1 : ℕ) (a2 : ℕ) (a3 : State)  :
    (beginExchange a0 a1 a2 a3).clr M = a3.clr M := by
  unfold beginExchange
  repeat' first
    | with_reducible rfl | split | with_reducible refine (sendSummaries_clr M hrg hnt hlk hout _ _ _ _ _ ).trans ?_
    | with_reducible refine (modRec_clr M hse _ _ _ ).trans ?_ | with_reducible refine (foldl_clr M _ _ _ ?_).trans ?_ | intro _
    | dsimp only

theorem compareShadows_clr (M : Mask) (hrg : M.rg = true) (hft : M.ft = true) (a0 : ℕ) (a1 : SeamRec) (a2 : State)  :
    (compareShadows a0 a1 a2).clr M = a2.clr M := by
  unfold compareShadows
  repeat' first
    | with_reducible rfl | split | with_reducible refine (addCount_clr M hrg _ _ _ _ _ ).trans ?_
    | with_reducible refine (raise_clr M hrg hft _ _ _ _ _ _ ).trans ?_ | with_reducible refine (forEach_clr M _ _ _ ?_).trans ?_
    | with_reducible refine (foldl_clr M _ _ _ ?_).trans ?_ | intro _ | dsimp only

theorem markDone_clr (M : Mask) (hse : M.se = true) (a0 : ℕ) (a1 : ℕ) (a2 : State)  :
    (markDone a0 a1 a2).clr M = a2.clr M := by
  unfold markDone
  repeat' first
    | with_reducible rfl | split | with_reducible refine (advanceDone_clr M hse _ _ _ ).trans ?_ | simp only [upd_se M hse]
    | with_reducible refine (foldl_clr M _ _ _ ?_).trans ?_ | intro _ | dsimp only

theorem releaseSeam_clr (M : Mask) (hrg : M.rg = true) (hdr : M.dr = true) (hse : M.se = true) (a0 : ℕ) (a1 : SeamRec) (a2 : State)  :
    (releaseSeam a0 a1 a2).clr M = a2.clr M := by
  unfold releaseSeam
  repeat' first
    | with_reducible rfl | split | with_reducible refine (releaseAt_clr M hrg hdr hse _ _ _ _ ).trans ?_
    | with_reducible refine (forEach_clr M _ _ _ ?_).trans ?_ | with_reducible refine (foldl_clr M _ _ _ ?_).trans ?_ | intro _
    | dsimp only

theorem refuseLate_clr (M : Mask) (hrg : M.rg = true) (hnt : M.nt = true) (hse : M.se = true) (hpr : M.pr = true) (hlk : M.lk = true) (hout : M.out = true) (a0 : ℕ) (a1 : SeamRec) (a2 : State)  :
    (refuseLate a0 a1 a2).clr M = a2.clr M := by
  unfold refuseLate
  repeat' first
    | with_reducible rfl | split | with_reducible refine (lateRefusal_clr M hnt _ _ _ _ _ ).trans ?_
    | with_reducible refine (sendAdmit_clr M hnt _ _ _ _ _ ).trans ?_
    | with_reducible refine (applyOpen_clr M hrg hnt hse hpr hlk hout _ _ _ _ _ _ ).trans ?_
    | with_reducible refine (forEach_clr M _ _ _ ?_).trans ?_ | with_reducible refine (foldl_clr M _ _ _ ?_).trans ?_ | intro _
    | dsimp only

theorem completeSeam_clr (M : Mask) (hrg : M.rg = true) (hnt : M.nt = true) (hdr : M.dr = true) (hse : M.se = true) (hty : M.ty = true) (hpr : M.pr = true) (hlk : M.lk = true) (hft : M.ft = true) (hout : M.out = true) (a0 : ℕ) (a1 : ℕ) (a2 : ℕ) (a3 : ℕ) (a4 : State)  :
    (completeSeam a0 a1 a2 a3 a4).clr M = a4.clr M := by
  unfold completeSeam
  repeat' first
    | with_reducible rfl | split | with_reducible refine (engSend_clr M hrg hnt hlk hout _ _ _ ).trans ?_
    | with_reducible refine (addCount_clr M hrg _ _ _ _ _ ).trans ?_ | with_reducible refine (enterTally_clr M hty _ _ _ ).trans ?_
    | with_reducible refine (markDone_clr M hse _ _ _ ).trans ?_ | with_reducible refine (pairEvent_clr M hpr _ _ ).trans ?_
    | with_reducible refine (releaseSeam_clr M hrg hdr hse _ _ _ ).trans ?_
    | with_reducible refine (compareShadows_clr M hrg hft _ _ _ ).trans ?_
    | with_reducible refine (refuseLate_clr M hrg hnt hse hpr hlk hout _ _ _ ).trans ?_
    | with_reducible refine (forEach_clr M _ _ _ ?_).trans ?_
    | simp only [upd_nt M hnt, upd_ft M hft, upd_pr M hpr, upd_out M hout, upd_se M hse, upd_rg M hrg, upd_ty M hty, upd_lk M hlk, upd_ty_pr M hty hpr, upd_dr M hdr, upd_rg_nt M hrg hnt]
    | with_reducible refine (foldl_clr M _ _ _ ?_).trans ?_ | intro _ | dsimp only

theorem countWaits_clr (M : Mask) (hnt : M.nt = true) (a0 : State)  :
    (countWaits a0).clr M = a0.clr M := by
  unfold countWaits
  repeat' first
    | with_reducible rfl | split | with_reducible refine (countDefer_clr M hnt _ _ _ _ _ ).trans ?_
    | with_reducible refine (forEach_clr M _ _ _ ?_).trans ?_ | with_reducible refine (foldl_clr M _ _ _ ?_).trans ?_ | intro _
    | dsimp only

theorem holdLate_clr (M : Mask) (hse : M.se = true) (a0 : Bool) (a1 : Packet) (a2 : State)  :
    (holdLate a0 a1 a2).clr M = a2.clr M := by
  unfold holdLate
  repeat' first
    | with_reducible rfl | split | with_reducible refine (modRec_clr M hse _ _ _ ).trans ?_
    | with_reducible refine (foldl_clr M _ _ _ ?_).trans ?_ | intro _ | dsimp only

theorem evalOpen_clr (M : Mask) (hrg : M.rg = true) (hnt : M.nt = true) (hse : M.se = true) (hpr : M.pr = true) (hlk : M.lk = true) (hout : M.out = true) (a0 : ℕ) (a1 : ℕ) (a2 : Bool) (a3 : Packet) (a4 : Adm) (a5 : State)  :
    (evalOpen a0 a1 a2 a3 a4 a5).clr M = a5.clr M := by
  unfold evalOpen
  repeat' first
    | with_reducible rfl | split | with_reducible refine (holdLate_clr M hse _ _ _ ).trans ?_
    | with_reducible refine (applyOpen_clr M hrg hnt hse hpr hlk hout _ _ _ _ _ _ ).trans ?_
    | with_reducible refine (foldl_clr M _ _ _ ?_).trans ?_ | intro _ | dsimp only

theorem failSeamsAt_clr (M : Mask) (hrg : M.rg = true) (hnt : M.nt = true) (hse : M.se = true) (hlk : M.lk = true) (hout : M.out = true) (a0 : ℕ) (a1 : Option ℕ) (a2 : ℕ) (a3 : State)  :
    (failSeamsAt a0 a1 a2 a3).clr M = a3.clr M := by
  unfold failSeamsAt
  repeat' first
    | with_reducible rfl | split | with_reducible refine (abortOthers_clr M hrg hnt hlk hout _ _ _ _ ).trans ?_
    | with_reducible refine (seamFail_clr M hse _ _ _ _ ).trans ?_ | with_reducible refine (forEach_clr M _ _ _ ?_).trans ?_
    | with_reducible refine (foldl_clr M _ _ _ ?_).trans ?_ | intro _ | dsimp only

theorem sendSet_clr (M : Mask) (hrg : M.rg = true) (hnt : M.nt = true) (hlk : M.lk = true) (hout : M.out = true) (a0 : ℕ) (a1 : ℕ) (a2 : State)  :
    (sendSet a0 a1 a2).clr M = a2.clr M := by
  unfold sendSet
  repeat' first
    | with_reducible rfl | split | with_reducible refine (engSend_clr M hrg hnt hlk hout _ _ _ ).trans ?_
    | with_reducible refine (forEach_clr M _ _ _ ?_).trans ?_ | with_reducible refine (foldl_clr M _ _ _ ?_).trans ?_ | intro _
    | dsimp only

theorem trySet_clr (M : Mask) (hrg : M.rg = true) (hnt : M.nt = true) (hse : M.se = true) (hlk : M.lk = true) (hout : M.out = true) (a0 : ℕ) (a1 : State)  :
    (trySet a0 a1).clr M = a1.clr M := by
  unfold trySet
  repeat' first
    | with_reducible rfl | split | with_reducible refine (sendSet_clr M hrg hnt hlk hout _ _ _ ).trans ?_
    | with_reducible refine (addCount_clr M hrg _ _ _ _ _ ).trans ?_ | with_reducible refine (modRec_clr M hse _ _ _ ).trans ?_
    | with_reducible refine (seamFail_clr M hse _ _ _ _ ).trans ?_ | with_reducible refine (foldl_clr M _ _ _ ?_).trans ?_ | intro _
    | dsimp only

theorem grantArrive_clr (M : Mask) (hrg : M.rg = true) (hnt : M.nt = true) (hse : M.se = true) (hlk : M.lk = true) (hout : M.out = true) (a0 : ℕ) (a1 : ℕ) (a2 : ℕ) (a3 : ℕ) (a4 : State)  :
    (grantArrive a0 a1 a2 a3 a4).clr M = a4.clr M := by
  unfold grantArrive
  repeat' first
    | with_reducible rfl | split | with_reducible refine (trySet_clr M hrg hnt hse hlk hout _ _ ).trans ?_
    | with_reducible refine (modRec_clr M hse _ _ _ ).trans ?_ | with_reducible refine (seamFail_clr M hse _ _ _ _ ).trans ?_
    | with_reducible refine (foldl_clr M _ _ _ ?_).trans ?_ | intro _ | dsimp only

theorem groupChanged_clr (M : Mask) (hse : M.se = true) (a0 : ℕ) (a1 : State)  :
    (groupChanged a0 a1).clr M = a1.clr M := by
  unfold groupChanged
  repeat' first
    | with_reducible rfl | split | with_reducible refine (modRec_clr M hse _ _ _ ).trans ?_
    | with_reducible refine (seamFail_clr M hse _ _ _ _ ).trans ?_ | with_reducible refine (forEach_clr M _ _ _ ?_).trans ?_
    | simp only [upd_se M hse] | with_reducible refine (foldl_clr M _ _ _ ?_).trans ?_ | intro _ | dsimp only

theorem lateLoads_clr (M : Mask) (hrg : M.rg = true) (hse : M.se = true) (hft : M.ft = true) (a0 : ℕ) (a1 : ℕ) (a2 : State)  :
    (lateLoads a0 a1 a2).clr M = a2.clr M := by
  unfold lateLoads
  repeat' first
    | with_reducible rfl | split | with_reducible refine (modLoad_clr M hse _ _ _ _ ).trans ?_
    | with_reducible refine (raisePrs_clr M hrg hft _ _ _ _ _ ).trans ?_ | with_reducible refine (forEach_clr M _ _ _ ?_).trans ?_
    | with_reducible refine (foldl_clr M _ _ _ ?_).trans ?_ | intro _ | dsimp only

theorem openArrive_clr (M : Mask) (hrg : M.rg = true) (hnt : M.nt = true) (hse : M.se = true) (hpr : M.pr = true) (hlk : M.lk = true) (hout : M.out = true) (a0 : ℕ) (a1 : ℕ) (a2 : Packet) (a3 : State)  :
    (openArrive a0 a1 a2 a3).clr M = a3.clr M := by
  unfold openArrive
  repeat' first
    | with_reducible rfl | split | with_reducible refine (evalOpen_clr M hrg hnt hse hpr hlk hout _ _ _ _ _ _ ).trans ?_
    | simp only [upd_nt M hnt, upd_pr M hpr, upd_out M hout, upd_se M hse, upd_rg M hrg, upd_lk M hlk, upd_rg_nt M hrg hnt]
    | with_reducible refine (foldl_clr M _ _ _ ?_).trans ?_ | intro _ | dsimp only

theorem openStep7_clr (M : Mask) (hrg : M.rg = true) (hnt : M.nt = true) (hse : M.se = true) (hpr : M.pr = true) (hlk : M.lk = true) (hout : M.out = true) (a0 : ℕ) (a1 : ℕ) (a2 : State)  :
    (openStep7 a0 a1 a2).clr M = a2.clr M := by
  unfold openStep7
  repeat' first
    | with_reducible rfl | split | with_reducible refine (evalOpen_clr M hrg hnt hse hpr hlk hout _ _ _ _ _ _ ).trans ?_
    | with_reducible refine (forEach_clr M _ _ _ ?_).trans ?_
    | simp only [upd_nt M hnt, upd_pr M hpr, upd_out M hout, upd_se M hse, upd_rg M hrg, upd_lk M hlk, upd_rg_nt M hrg hnt]
    | with_reducible refine (foldl_clr M _ _ _ ?_).trans ?_ | intro _ | dsimp only

theorem pauseLoads_clr (M : Mask) (hse : M.se = true) (a0 : ℕ) (a1 : State)  :
    (pauseLoads a0 a1).clr M = a1.clr M := by
  unfold pauseLoads
  repeat' first
    | with_reducible rfl | split | simp only [upd_se M hse] | with_reducible refine (foldl_clr M _ _ _ ?_).trans ?_ | intro _
    | dsimp only

theorem takeMatch_clr (M : Mask) (hrg : M.rg = true) (hnt : M.nt = true) (hse : M.se = true) (hlk : M.lk = true) (hout : M.out = true) (a0 : ℕ) (a1 : State)  :
    (takeMatch a0 a1).clr M = a1.clr M := by
  unfold takeMatch
  repeat' first
    | with_reducible rfl | split | with_reducible refine (abortOthers_clr M hrg hnt hlk hout _ _ _ _ ).trans ?_
    | with_reducible refine (modRec_clr M hse _ _ _ ).trans ?_ | with_reducible refine (seamFail_clr M hse _ _ _ _ ).trans ?_
    | with_reducible refine (foldl_clr M _ _ _ ?_).trans ?_ | intro _ | dsimp only

theorem recBoundary_clr (M : Mask) (hrg : M.rg = true) (hnt : M.nt = true) (hdr : M.dr = true) (hse : M.se = true) (hty : M.ty = true) (hpr : M.pr = true) (hlk : M.lk = true) (hft : M.ft = true) (hout : M.out = true) (a0 : ℕ) (a1 : ℕ) (a2 : State)  :
    (recBoundary a0 a1 a2).clr M = a2.clr M := by
  unfold recBoundary
  repeat' first
    | with_reducible rfl | split | with_reducible refine (takeMatch_clr M hrg hnt hse hlk hout _ _ ).trans ?_
    | with_reducible refine (modRec_clr M hse _ _ _ ).trans ?_
    | with_reducible refine (completeSeam_clr M hrg hnt hdr hse hty hpr hlk hft hout _ _ _ _ _ ).trans ?_
    | with_reducible refine (foldl_clr M _ _ _ ?_).trans ?_ | intro _ | dsimp only

theorem startReserve_clr (M : Mask) (hrg : M.rg = true) (hnt : M.nt = true) (hse : M.se = true) (hlk : M.lk = true) (hout : M.out = true) (a0 : ℕ) (a1 : State)  :
    (startReserve a0 a1).clr M = a1.clr M := by
  unfold startReserve
  repeat' first
    | with_reducible rfl | split | with_reducible refine (sendReserve_clr M hrg hnt hse hlk hout _ _ _ _ ).trans ?_
    | with_reducible refine (modRec_clr M hse _ _ _ ).trans ?_ | with_reducible refine (forEach_clr M _ _ _ ?_).trans ?_
    | with_reducible refine (foldl_clr M _ _ _ ?_).trans ?_ | intro _ | dsimp only

theorem startLoad_clr (M : Mask) (hrg : M.rg = true) (hnt : M.nt = true) (hdr : M.dr = true) (hse : M.se = true) (hlk : M.lk = true) (hout : M.out = true) (a0 : ℕ) (a1 : ℕ) (a2 : State)  :
    (startLoad a0 a1 a2).clr M = a2.clr M := by
  unfold startLoad
  repeat' first
    | with_reducible rfl | split | with_reducible refine (fillSeam_clr M hdr hse _ _ _ ).trans ?_
    | with_reducible refine (rawStart_clr M hnt hdr hse _ _ _ _ _ _ ).trans ?_
    | with_reducible refine (addCount_clr M hrg _ _ _ _ _ ).trans ?_ | with_reducible refine (modRec_clr M hse _ _ _ ).trans ?_
    | with_reducible refine (advanceLoad_clr M hrg hnt hse hlk hout _ _ _ ).trans ?_
    | with_reducible refine (forEach_clr M _ _ _ ?_).trans ?_
    | simp only [upd_nt M hnt, upd_out M hout, upd_se M hse, upd_rg M hrg, upd_lk M hlk, upd_dr M hdr, upd_rg_nt M hrg hnt]
    | with_reducible refine (foldl_clr M _ _ _ ?_).trans ?_ | intro _ | dsimp only

theorem recStep7_clr (M : Mask) (hrg : M.rg = true) (hnt : M.nt = true) (hdr : M.dr = true) (hse : M.se = true) (hlk : M.lk = true) (hout : M.out = true) (a0 : ℕ) (a1 : ℕ) (a2 : State)  :
    (recStep7 a0 a1 a2).clr M = a2.clr M := by
  unfold recStep7
  repeat' first
    | with_reducible rfl | split | with_reducible refine (stageLoad_clr M hrg hnt hse hlk hout _ _ _ _ ).trans ?_
    | with_reducible refine (beginExchange_clr M hrg hnt hse hlk hout _ _ _ _ ).trans ?_
    | with_reducible refine (startReserve_clr M hrg hnt hse hlk hout _ _ ).trans ?_
    | with_reducible refine (startLoad_clr M hrg hnt hdr hse hlk hout _ _ _ ).trans ?_
    | with_reducible refine (forEach_clr M _ _ _ ?_).trans ?_ | with_reducible refine (foldl_clr M _ _ _ ?_).trans ?_ | intro _
    | dsimp only

theorem resStalled_clr (M : Mask) (hrg : M.rg = true) (hse : M.se = true) (hft : M.ft = true) (a0 : ℕ) (a1 : ℕ) (a2 : ℕ) (a3 : State)  :
    (resStalled a0 a1 a2 a3).clr M = a3.clr M := by
  unfold resStalled
  repeat' first
    | with_reducible rfl | split | with_reducible refine (modRec_clr M hse _ _ _ ).trans ?_
    | with_reducible refine (raise_clr M hrg hft _ _ _ _ _ _ ).trans ?_ | with_reducible refine (foldl_clr M _ _ _ ?_).trans ?_
    | intro _ | dsimp only

theorem seamCtxReset_clr (M : Mask) (hrg : M.rg = true) (hnt : M.nt = true) (hdr : M.dr = true) (hse : M.se = true) (hlk : M.lk = true) (hft : M.ft = true) (hout : M.out = true) (a0 : ℕ) (a1 : State)  :
    (seamCtxReset a0 a1).clr M = a1.clr M := by
  unfold seamCtxReset
  repeat' first
    | with_reducible rfl | split | with_reducible refine (groupChanged_clr M hse _ _ ).trans ?_
    | with_reducible refine (evalResv_clr M hrg hnt hdr hse hft _ _ _ ).trans ?_
    | with_reducible refine (fillQueue_clr M hdr _ _ _ ).trans ?_
    | with_reducible refine (abortOthers_clr M hrg hnt hlk hout _ _ _ _ ).trans ?_
    | with_reducible refine (releaseSeam_clr M hrg hdr hse _ _ _ ).trans ?_ | with_reducible refine (forEach_clr M _ _ _ ?_).trans ?_
    | simp only [upd_nt M hnt, upd_ft M hft, upd_out M hout, upd_se M hse, upd_rg M hrg, upd_lk M hlk, upd_dr M hdr, upd_rg_nt M hrg hnt]
    | with_reducible refine (foldl_clr M _ _ _ ?_).trans ?_ | intro _ | dsimp only

theorem seamLinkLostAt_clr (M : Mask) (hrg : M.rg = true) (hnt : M.nt = true) (hse : M.se = true) (hlk : M.lk = true) (hout : M.out = true) (a0 : ℕ) (a1 : State)  :
    (seamLinkLostAt a0 a1).clr M = a1.clr M := by
  unfold seamLinkLostAt
  repeat' first
    | with_reducible rfl | split | with_reducible refine (abortOthers_clr M hrg hnt hlk hout _ _ _ _ ).trans ?_
    | with_reducible refine (seamFail_clr M hse _ _ _ _ ).trans ?_ | with_reducible refine (foldl_clr M _ _ _ ?_).trans ?_ | intro _
    | dsimp only

theorem seamTimedOut_clr (M : Mask) (hse : M.se = true) (a0 : ℕ) (a1 : State)  :
    (seamTimedOut a0 a1).clr M = a1.clr M := by
  unfold seamTimedOut
  repeat' first
    | with_reducible rfl | split | with_reducible refine (modRec_clr M hse _ _ _ ).trans ?_
    | with_reducible refine (seamFail_clr M hse _ _ _ _ ).trans ?_ | with_reducible refine (foldl_clr M _ _ _ ?_).trans ?_ | intro _
    | dsimp only

theorem seamsBoundary_clr (M : Mask) (hrg : M.rg = true) (hnt : M.nt = true) (hdr : M.dr = true) (hse : M.se = true) (hty : M.ty = true) (hpr : M.pr = true) (hlk : M.lk = true) (hft : M.ft = true) (hout : M.out = true) (a0 : ℕ) (a1 : State)  :
    (seamsBoundary a0 a1).clr M = a1.clr M := by
  unfold seamsBoundary
  repeat' first
    | with_reducible rfl | split | with_reducible refine (lateLoads_clr M hrg hse hft _ _ _ ).trans ?_
    | with_reducible refine (recBoundary_clr M hrg hnt hdr hse hty hpr hlk hft hout _ _ _ ).trans ?_
    | with_reducible refine (forEach_clr M _ _ _ ?_).trans ?_ | with_reducible refine (foldl_clr M _ _ _ ?_).trans ?_ | intro _
    | dsimp only

theorem seamsStep7_clr (M : Mask) (hrg : M.rg = true) (hnt : M.nt = true) (hdr : M.dr = true) (hse : M.se = true) (hpr : M.pr = true) (hlk : M.lk = true) (hft : M.ft = true) (hout : M.out = true) (a0 : ℕ) (a1 : State)  :
    (seamsStep7 a0 a1).clr M = a1.clr M := by
  unfold seamsStep7
  repeat' first
    | with_reducible rfl | split | with_reducible refine (evalResv_clr M hrg hnt hdr hse hft _ _ _ ).trans ?_
    | with_reducible refine (recStep7_clr M hrg hnt hdr hse hlk hout _ _ _ ).trans ?_
    | with_reducible refine (openStep7_clr M hrg hnt hse hpr hlk hout _ _ _ ).trans ?_
    | with_reducible refine (countWaits_clr M hnt _ ).trans ?_ | with_reducible refine (forEach_clr M _ _ _ ?_).trans ?_
    | with_reducible refine (foldl_clr M _ _ _ ?_).trans ?_ | intro _ | dsimp only

theorem yieldAsk_clr (M : Mask) (hrg : M.rg = true) (hnt : M.nt = true) (hse : M.se = true) (hlk : M.lk = true) (hout : M.out = true) (a0 : ℕ) (a1 : ℕ) (a2 : ℕ) (a3 : State)  :
    (yieldAsk a0 a1 a2 a3).clr M = a3.clr M := by
  unfold yieldAsk
  repeat' first
    | with_reducible rfl | split | with_reducible refine (engSend_clr M hrg hnt hlk hout _ _ _ ).trans ?_
    | with_reducible refine (addCount_clr M hrg _ _ _ _ _ ).trans ?_
    | with_reducible refine (sendReserve_clr M hrg hnt hse hlk hout _ _ _ _ ).trans ?_
    | with_reducible refine (modRec_clr M hse _ _ _ ).trans ?_ | with_reducible refine (forEach_clr M _ _ _ ?_).trans ?_
    | with_reducible refine (foldl_clr M _ _ _ ?_).trans ?_ | intro _ | dsimp only

theorem slotErrors_clr (M : Mask) (hrg : M.rg = true) (hft : M.ft = true) (a0 : ℕ) (a1 : ℕ) (a2 : ℕ) (a3 : SlotEcc) (a4 : State)  :
    (slotErrors a0 a1 a2 a3 a4).clr M = a4.clr M := by
  unfold slotErrors
  repeat' first
    | with_reducible rfl | split | with_reducible refine (addCount_clr M hrg _ _ _ _ _ ).trans ?_
    | with_reducible refine (raise_clr M hrg hft _ _ _ _ _ _ ).trans ?_ | with_reducible refine (foldl_clr M _ _ _ ?_).trans ?_
    | intro _ | dsimp only

theorem endSeamTask_clr (M : Mask) (hrg : M.rg = true) (hnt : M.nt = true) (hdr : M.dr = true) (hse : M.se = true) (hout : M.out = true) (a0 : ℕ) (a1 : ℕ) (a2 : ℕ) (a3 : ℕ) (a4 : SeamRef) (a5 : Task) (a6 : List Byte) (a7 : Bool) (a8 : State)  :
    (endSeamTask a0 a1 a2 a3 a4 a5 a6 a7 a8).clr M = a8.clr M := by
  unfold endSeamTask
  repeat' first
    | with_reducible rfl | split | with_reducible refine (fillSeam_clr M hdr hse _ _ _ ).trans ?_
    | with_reducible refine (deliverDone_clr M hrg hnt hse hout _ _ _ _ _ _ ).trans ?_
    | with_reducible refine (tileAbort_clr M hnt _ _ _ _ _ ).trans ?_
    | with_reducible refine (combineDone_clr M hnt hdr hse _ _ _ _ _ _ _ _ ).trans ?_
    | with_reducible refine (freeDarner_clr M hrg hdr _ _ _ _ ).trans ?_ | with_reducible refine (foldl_clr M _ _ _ ?_).trans ?_
    | intro _ | dsimp only

theorem completeTask_clr (M : Mask) (hrg : M.rg = true) (hnt : M.nt = true) (hdr : M.dr = true) (hse : M.se = true) (hft : M.ft = true) (hout : M.out = true) (a0 : ℕ) (a1 : ℕ) (a2 : ℕ) (a3 : List Byte) (a4 : SlotEcc) (a5 : State)  :
    (completeTask a0 a1 a2 a3 a4 a5).clr M = a5.clr M := by
  unfold completeTask
  repeat' first
    | with_reducible rfl | split | with_reducible refine (slotErrors_clr M hrg hft _ _ _ _ _ ).trans ?_
    | with_reducible refine (modDarner_clr M hdr _ _ _ _ _ ).trans ?_ | with_reducible refine (modDrn_clr M hdr _ _ _ _ ).trans ?_
    | with_reducible refine (addCount_clr M hrg _ _ _ _ _ ).trans ?_ | with_reducible refine (fillQueue_clr M hdr _ _ _ ).trans ?_
    | with_reducible refine (endSeamTask_clr M hrg hnt hdr hse hout _ _ _ _ _ _ _ _ _ ).trans ?_
    | with_reducible refine (chunkResults_clr M hdr _ _ _ _ _ ).trans ?_
    | with_reducible refine (countBusy_clr M hrg hdr _ _ _ _ ).trans ?_
    | with_reducible refine (endChunk_clr M hrg hdr hout _ _ _ _ _ _ _ _ _ ).trans ?_
    | with_reducible refine (foldl_clr M _ _ _ ?_).trans ?_ | intro _ | dsimp only

theorem readInput_clr (M : Mask) (hout : M.out = true) (a0 : ℕ) (a1 : ℕ) (a2 : Task) (a3 : State)  :
    (readInput a0 a1 a2 a3).clr M = a3.clr M := by
  unfold readInput
  repeat' first
    | with_reducible rfl | split | with_reducible refine (userLoad_clr M hout _ _ _ ).trans ?_
    | with_reducible refine (forEach_clr M _ _ _ ?_).trans ?_ | with_reducible refine (foldl_clr M _ _ _ ?_).trans ?_ | intro _
    | dsimp only

theorem dispatchTask_clr (M : Mask) (hrg : M.rg = true) (hnt : M.nt = true) (hdr : M.dr = true) (hse : M.se = true) (hft : M.ft = true) (hout : M.out = true) (a0 : ℕ) (a1 : ℕ) (a2 : ℕ) (a3 : List Byte) (a4 : TaskErr) (a5 : State)  :
    (dispatchTask a0 a1 a2 a3 a4 a5).clr M = a5.clr M := by
  unfold dispatchTask
  repeat' first
    | with_reducible rfl | split | with_reducible refine (unqueue_clr M hdr _ _ _ _ ).trans ?_
    | with_reducible refine (fillSeam_clr M hdr hse _ _ _ ).trans ?_ | with_reducible refine (tileAbort_clr M hnt _ _ _ _ _ ).trans ?_
    | with_reducible refine (fillQueue_clr M hdr _ _ _ ).trans ?_ | with_reducible refine (dropChunk_clr M hdr hout _ _ _ _ ).trans ?_
    | with_reducible refine (patchFault_clr M hrg hdr hft _ _ _ ).trans ?_
    | with_reducible refine (readInput_clr M hout _ _ _ _ ).trans ?_ | with_reducible refine (raise_clr M hrg hft _ _ _ _ _ _ ).trans ?_
    | with_reducible refine (startTask_clr M hrg hdr hft _ _ _ _ _ _ _ _ _ ).trans ?_
    | with_reducible refine (foldl_clr M _ _ _ ?_).trans ?_ | intro _ | dsimp only

theorem grantSteal_clr (M : Mask) (hrg : M.rg = true) (hdr : M.dr = true) (hft : M.ft = true) (hout : M.out = true) (a0 : ℕ) (a1 : ℕ) (a2 : ℕ) (a3 : List Byte) (a4 : Bool) (a5 : State)  :
    (grantSteal a0 a1 a2 a3 a4 a5).clr M = a5.clr M := by
  unfold grantSteal
  repeat' first
    | with_reducible rfl | split | with_reducible refine (modDarner_clr M hdr _ _ _ _ _ ).trans ?_
    | with_reducible refine (unqueue_clr M hdr _ _ _ _ ).trans ?_ | with_reducible refine (addCount_clr M hrg _ _ _ _ _ ).trans ?_
    | with_reducible refine (fillQueue_clr M hdr _ _ _ ).trans ?_ | with_reducible refine (readInput_clr M hout _ _ _ _ ).trans ?_
    | with_reducible refine (stealLinkErr_clr M hrg hft _ _ _ _ _ _ ).trans ?_
    | with_reducible refine (startTask_clr M hrg hdr hft _ _ _ _ _ _ _ _ _ ).trans ?_
    | with_reducible refine (doIf_clr M _ _ _ ?_).trans ?_ | with_reducible refine (foldl_clr M _ _ _ ?_).trans ?_ | intro _
    | dsimp only

theorem markLate_clr (M : Mask) (hrg : M.rg = true) (hdr : M.dr = true) (hft : M.ft = true) (a0 : ℕ) (a1 : ℕ) (a2 : State)  :
    (markLate a0 a1 a2).clr M = a2.clr M := by
  unfold markLate
  repeat' first
    | with_reducible rfl | split | with_reducible refine (modDrn_clr M hdr _ _ _ _ ).trans ?_
    | with_reducible refine (raisePrs_clr M hrg hft _ _ _ _ _ ).trans ?_ | with_reducible refine (forEach_clr M _ _ _ ?_).trans ?_
    | with_reducible refine (foldl_clr M _ _ _ ?_).trans ?_ | intro _ | dsimp only

theorem releaseOrdered_clr (M : Mask) (hrg : M.rg = true) (hnt : M.nt = true) (hdr : M.dr = true) (hse : M.se = true) (hout : M.out = true) (a0 : ℕ) (a1 : ℕ) (a2 : ℕ) (a3 : State)  :
    (releaseOrdered a0 a1 a2 a3).clr M = a3.clr M := by
  unfold releaseOrdered
  repeat' first
    | with_reducible rfl | split | with_reducible refine (modDrn_clr M hdr _ _ _ _ ).trans ?_
    | with_reducible refine (fillQueue_clr M hdr _ _ _ ).trans ?_
    | with_reducible refine (endSeamTask_clr M hrg hnt hdr hse hout _ _ _ _ _ _ _ _ _ ).trans ?_
    | with_reducible refine (chunkOut_clr M hdr hout _ _ _ _ _ _ _ ).trans ?_
    | with_reducible refine (freeDarner_clr M hrg hdr _ _ _ _ ).trans ?_ | with_reducible refine (foldl_clr M _ _ _ ?_).trans ?_
    | intro _ | dsimp only

theorem abortArrive_clr (M : Mask) (hrg : M.rg = true) (hnt : M.nt = true) (hse : M.se = true) (hlk : M.lk = true) (hout : M.out = true) (a0 : ℕ) (a1 : ℕ) (a2 : ℕ) (a3 : Packet) (a4 : State)  :
    (abortArrive a0 a1 a2 a3 a4).clr M = a4.clr M := by
  unfold abortArrive
  repeat' first
    | with_reducible rfl | split | with_reducible refine (abortOthers_clr M hrg hnt hlk hout _ _ _ _ ).trans ?_
    | with_reducible refine (consume_clr M hnt _ _ _ _ ).trans ?_ | with_reducible refine (seamFail_clr M hse _ _ _ _ ).trans ?_
    | with_reducible refine (doIf_clr M _ _ _ ?_).trans ?_ | with_reducible refine (foldl_clr M _ _ _ ?_).trans ?_ | intro _
    | dsimp only

theorem abortCmdEffect_clr (M : Mask) (hse : M.se = true) (a0 : ℕ) (a1 : ℕ) (a2 : Word) (a3 : State)  :
    (abortCmdEffect a0 a1 a2 a3).clr M = a3.clr M := by
  unfold abortCmdEffect
  repeat' first
    | with_reducible rfl | split | with_reducible refine (seamFail_clr M hse _ _ _ _ ).trans ?_
    | with_reducible refine (foldl_clr M _ _ _ ?_).trans ?_ | intro _ | dsimp only

theorem reserveArrive_clr (M : Mask) (hrg : M.rg = true) (hnt : M.nt = true) (hdr : M.dr = true) (hse : M.se = true) (hft : M.ft = true) (a0 : ℕ) (a1 : ℕ) (a2 : SeamRef) (a3 : State)  :
    (reserveArrive a0 a1 a2 a3).clr M = a3.clr M := by
  unfold reserveArrive
  repeat' first
    | with_reducible rfl | split | with_reducible refine (evalResv_clr M hrg hnt hdr hse hft _ _ _ ).trans ?_
    | with_reducible refine (consumeOp_clr M hnt _ _ _ _ ).trans ?_ | with_reducible refine (modResv_clr M hse _ _ _ _ ).trans ?_
    | with_reducible refine (foldl_clr M _ _ _ ?_).trans ?_ | intro _ | dsimp only

theorem seamValues_clr (M : Mask) (hrg : M.rg = true) (hnt : M.nt = true) (hdr : M.dr = true) (hse : M.se = true) (hlk : M.lk = true) (hft : M.ft = true) (hout : M.out = true) (a0 : ℕ) (a1 : ℕ) (a2 : SeamRef) (a3 : ℕ) (a4 : ℕ) (a5 : Packet) (a6 : State)  :
    (seamValues a0 a1 a2 a3 a4 a5 a6).clr M = a6.clr M := by
  unfold seamValues
  repeat' first
    | with_reducible rfl | split | with_reducible refine (homeArrive_clr M hrg hnt hse hlk hft hout _ _ _ _ _ ).trans ?_
    | with_reducible refine (stageArrive_clr M hrg hse hft _ _ _ _ _ ).trans ?_
    | with_reducible refine (tileData_clr M hrg hnt hdr hse hout _ _ _ _ _ _ _ _ ).trans ?_
    | with_reducible refine (tilePart_clr M hrg hse hft _ _ _ _ _ _ ).trans ?_
    | with_reducible refine (consume_clr M hnt _ _ _ _ ).trans ?_
    | simp only [upd_nt M hnt, upd_ft M hft, upd_out M hout, upd_se M hse, upd_rg M hrg, upd_lk M hlk, upd_dr M hdr, upd_rg_nt M hrg hnt]
    | with_reducible refine (foldl_clr M _ _ _ ?_).trans ?_ | intro _ | dsimp only

theorem setArrive_clr (M : Mask) (hnt : M.nt = true) (hdr : M.dr = true) (hse : M.se = true) (a0 : ℕ) (a1 : ℕ) (a2 : SeamRef) (a3 : ℕ) (a4 : State)  :
    (setArrive a0 a1 a2 a3 a4).clr M = a4.clr M := by
  unfold setArrive
  repeat' first
    | with_reducible rfl | split | with_reducible refine (modDarner_clr M hdr _ _ _ _ _ ).trans ?_
    | with_reducible refine (consumeOp_clr M hnt _ _ _ _ ).trans ?_ | with_reducible refine (modResv_clr M hse _ _ _ _ ).trans ?_
    | with_reducible refine (forEach_clr M _ _ _ ?_).trans ?_ | with_reducible refine (foldl_clr M _ _ _ ?_).trans ?_ | intro _
    | dsimp only

theorem summaryAt_clr (M : Mask) (hrg : M.rg = true) (hnt : M.nt = true) (hse : M.se = true) (hlk : M.lk = true) (hout : M.out = true) (a0 : ℕ) (a1 : ℕ) (a2 : ℕ) (a3 : Packet) (a4 : State)  :
    (summaryAt a0 a1 a2 a3 a4).clr M = a4.clr M := by
  unfold summaryAt
  repeat' first
    | with_reducible rfl | split | with_reducible refine (summaryArrive_clr M hrg hnt hse hlk hout _ _ _ ).trans ?_
    | simp only [upd_nt M hnt, upd_out M hout, upd_se M hse, upd_rg M hrg, upd_lk M hlk, upd_rg_nt M hrg hnt]
    | with_reducible refine (foldl_clr M _ _ _ ?_).trans ?_ | intro _ | dsimp only

theorem yieldArrive_clr (M : Mask) (hrg : M.rg = true) (hnt : M.nt = true) (hdr : M.dr = true) (hse : M.se = true) (hft : M.ft = true) (a0 : ℕ) (a1 : ℕ) (a2 : SeamRef) (a3 : Bool) (a4 : State)  :
    (yieldArrive a0 a1 a2 a3 a4).clr M = a4.clr M := by
  unfold yieldArrive
  repeat' first
    | with_reducible rfl | split | with_reducible refine (releaseEval_clr M hrg hnt hdr hse hft _ _ _ _ ).trans ?_
    | with_reducible refine (evalResv_clr M hrg hnt hdr hse hft _ _ _ ).trans ?_
    | with_reducible refine (consumeOp_clr M hnt _ _ _ _ ).trans ?_ | with_reducible refine (foldl_clr M _ _ _ ?_).trans ?_ | intro _
    | dsimp only

end Sys2Proof.Machine
end

