-- ==== Sys2Proof/Laws/FrameCip.lean ====
section
/-! SUPPORT. What each operation of CipBase, Rings, Baskets, Pegs, Dma, Settle, Endpoints, CipCmds leaves unchanged: a state after it agrees with the state before outside
the parts it may change. -/
set_option linter.unusedTactic false
set_option linter.unreachableTactic false
set_option linter.unusedVariables false
set_option linter.unusedSimpArgs false

namespace Sys2Proof.Machine

theorem takeSeq_clr (M : Mask) (hci : M.ci = true) (a0 : ℕ) (a1 : ℕ) (a2 : State)  :
    (takeSeq a0 a1 a2).2.clr M = a2.clr M := by
  unfold takeSeq
  repeat' first
    | with_reducible rfl | split | with_reducible refine (modCip_clr M hci _ _ _ _ ).trans ?_
    | with_reducible refine (foldl_clr M _ _ _ ?_).trans ?_ | intro _ | dsimp only

theorem modCache_clr (M : Mask) (hci : M.ci = true) (a0 : ℕ) (a1 : ℕ) (a2 : ℕ) (a3 : CacheEntry → CacheEntry) (a4 : State)  :
    (modCache a0 a1 a2 a3 a4).clr M = a4.clr M := by
  unfold modCache
  repeat' first
    | with_reducible rfl | split | with_reducible refine (modCip_clr M hci _ _ _ _ ).trans ?_
    | with_reducible refine (foldl_clr M _ _ _ ?_).trans ?_ | intro _ | dsimp only

theorem askCredits_clr (M : Mask) (hrg : M.rg = true) (hnt : M.nt = true) (hci : M.ci = true) (a0 : ℕ) (a1 : ℕ) (a2 : ℕ) (a3 : State)  :
    (askCredits a0 a1 a2 a3).clr M = a3.clr M := by
  unfold askCredits
  repeat' first
    | with_reducible rfl | split | with_reducible refine (cipCount_clr M hrg _ _ _ _ ).trans ?_
    | with_reducible refine (sendFrom_clr M hnt _ _ _ _ _ ).trans ?_ | with_reducible refine (takeSeq_clr M hci _ _ _ ).trans ?_
    | with_reducible refine (modCache_clr M hci _ _ _ _ _ ).trans ?_ | with_reducible refine (foldl_clr M _ _ _ ?_).trans ?_ | intro _
    | dsimp only

theorem waitOn_clr (M : Mask) (hrg : M.rg = true) (hci : M.ci = true) (a0 : ℕ) (a1 : ℕ) (a2 : ℕ) (a3 : ℕ) (a4 : Wait) (a5 : State)  :
    (waitOn a0 a1 a2 a3 a4 a5).clr M = a5.clr M := by
  unfold waitOn
  repeat' first
    | with_reducible rfl | split | with_reducible refine (modCip_clr M hci _ _ _ _ ).trans ?_
    | with_reducible refine (cipCount_clr M hrg _ _ _ _ ).trans ?_ | with_reducible refine (foldl_clr M _ _ _ ?_).trans ?_ | intro _
    | dsimp only

theorem cipCmd_clr (M : Mask) (hrg : M.rg = true) (hci : M.ci = true) (hout : M.out = true) (a0 : CipHdr) (a1 : Instr) (a2 : State → State) (a3 : State) (hf2 : ∀ x0, (a2 x0).clr M = x0.clr M) :
    (cipCmd a0 a1 a2 a3).clr M = a3.clr M := by
  unfold cipCmd
  repeat' first
    | with_reducible rfl | split | with_reducible refine (cipRsp_clr M hout _ _ _ _ _ _ ).trans ?_
    | with_reducible refine (waitOn_clr M hrg hci _ _ _ _ _ _ ).trans ?_ | with_reducible refine (foldl_clr M _ _ _ ?_).trans ?_
    | with_reducible refine (hf2 _).trans ?_ | with_reducible refine (hf2 _ _).trans ?_ | with_reducible refine (hf2 _ _ _).trans ?_
    | intro _ | dsimp only

theorem grantCredits_clr (M : Mask) (hnt : M.nt = true) (hci : M.ci = true) (a0 : ℕ) (a1 : ℕ) (a2 : ℕ) (a3 : Packet) (a4 : State)  :
    (grantCredits a0 a1 a2 a3 a4).clr M = a4.clr M := by
  unfold grantCredits
  repeat' first
    | with_reducible rfl | split | with_reducible refine (modQueue_clr M hci _ _ _ _ _ ).trans ?_
    | with_reducible refine (reply_clr M hnt _ _ _ _ _ _ _ _ ).trans ?_ | with_reducible refine (foldl_clr M _ _ _ ?_).trans ?_
    | intro _ | dsimp only

theorem creditAsked_clr (M : Mask) (hnt : M.nt = true) (hci : M.ci = true) (a0 : ℕ) (a1 : ℕ) (a2 : Packet) (a3 : State)  :
    (creditAsked a0 a1 a2 a3).clr M = a3.clr M := by
  unfold creditAsked
  repeat' first
    | with_reducible rfl | split | with_reducible refine (replyStatus_clr M hnt _ _ _ _ _ _ ).trans ?_
    | with_reducible refine (modQueue_clr M hci _ _ _ _ _ ).trans ?_
    | with_reducible refine (grantCredits_clr M hnt hci _ _ _ _ _ ).trans ?_ | with_reducible refine (foldl_clr M _ _ _ ?_).trans ?_
    | intro _ | dsimp only

theorem creditBack_clr (M : Mask) (hci : M.ci = true) (a0 : ℕ) (a1 : ℕ) (a2 : Packet) (a3 : State)  :
    (creditBack a0 a1 a2 a3).clr M = a3.clr M := by
  unfold creditBack
  repeat' first
    | with_reducible rfl | split | with_reducible refine (modQueue_clr M hci _ _ _ _ _ ).trans ?_
    | with_reducible refine (foldl_clr M _ _ _ ?_).trans ?_ | intro _ | dsimp only

theorem freedAnswer_clr (M : Mask) (hnt : M.nt = true) (hci : M.ci = true) (a0 : ℕ) (a1 : ℕ) (a2 : BitVec 16) (a3 : ℕ) (a4 : State)  :
    (freedAnswer a0 a1 a2 a3 a4).clr M = a4.clr M := by
  unfold freedAnswer
  repeat' first
    | with_reducible rfl | split | with_reducible refine (modCip_clr M hci _ _ _ _ ).trans ?_
    | with_reducible refine (sendFrom_clr M hnt _ _ _ _ _ ).trans ?_ | with_reducible refine (takeSeq_clr M hci _ _ _ ).trans ?_
    | with_reducible refine (foldl_clr M _ _ _ ?_).trans ?_ | intro _ | dsimp only

theorem creditGranted_clr (M : Mask) (hnt : M.nt = true) (hci : M.ci = true) (a0 : ℕ) (a1 : ℕ) (a2 : Packet) (a3 : State)  :
    (creditGranted a0 a1 a2 a3).clr M = a3.clr M := by
  unfold creditGranted
  repeat' first
    | with_reducible rfl | split | with_reducible refine (freedAnswer_clr M hnt hci _ _ _ _ _ ).trans ?_
    | with_reducible refine (modCache_clr M hci _ _ _ _ _ ).trans ?_ | with_reducible refine (foldl_clr M _ _ _ ?_).trans ?_ | intro _
    | dsimp only

theorem endStream_clr (M : Mask) (hci : M.ci = true) (hout : M.out = true) (a0 : ℕ) (a1 : ℕ) (a2 : ℕ) (a3 : ℕ) (a4 : List Byte) (a5 : State)  :
    (endStream a0 a1 a2 a3 a4 a5).clr M = a5.clr M := by
  unfold endStream
  repeat' first
    | with_reducible rfl | split | with_reducible refine (cipRsp_clr M hout _ _ _ _ _ _ ).trans ?_
    | with_reducible refine (modCip_clr M hci _ _ _ _ ).trans ?_ | with_reducible refine (foldl_clr M _ _ _ ?_).trans ?_ | intro _
    | dsimp only

theorem failSenders_clr (M : Mask) (hci : M.ci = true) (hout : M.out = true) (a0 : ℕ) (a1 : ℕ) (a2 : ℕ) (a3 : ℕ) (a4 : State)  :
    (failSenders a0 a1 a2 a3 a4).clr M = a4.clr M := by
  unfold failSenders
  repeat' first
    | with_reducible rfl | split | with_reducible refine (modCip_clr M hci _ _ _ _ ).trans ?_
    | with_reducible refine (endStream_clr M hci hout _ _ _ _ _ _ ).trans ?_ | with_reducible refine (forEach_clr M _ _ _ ?_).trans ?_
    | with_reducible refine (foldl_clr M _ _ _ ?_).trans ?_ | intro _ | dsimp only

theorem creditStatus_clr (M : Mask) (hci : M.ci = true) (hout : M.out = true) (a0 : ℕ) (a1 : ℕ) (a2 : ℕ) (a3 : ℕ) (a4 : State)  :
    (creditStatus a0 a1 a2 a3 a4).clr M = a4.clr M := by
  unfold creditStatus
  repeat' first
    | with_reducible rfl | split | with_reducible refine (failSenders_clr M hci hout _ _ _ _ _ ).trans ?_
    | with_reducible refine (modCache_clr M hci _ _ _ _ _ ).trans ?_ | with_reducible refine (foldl_clr M _ _ _ ?_).trans ?_ | intro _
    | dsimp only

theorem freeCache_clr (M : Mask) (hnt : M.nt = true) (hci : M.ci = true) (a0 : ℕ) (a1 : ℕ) (a2 : ℕ) (a3 : State)  :
    (freeCache a0 a1 a2 a3).clr M = a3.clr M := by
  unfold freeCache
  repeat' first
    | with_reducible rfl | split | with_reducible refine (modCip_clr M hci _ _ _ _ ).trans ?_
    | with_reducible refine (sendFrom_clr M hnt _ _ _ _ _ ).trans ?_ | with_reducible refine (takeSeq_clr M hci _ _ _ ).trans ?_
    | with_reducible refine (foldl_clr M _ _ _ ?_).trans ?_ | intro _ | dsimp only

theorem msgArrive_clr (M : Mask) (hrg : M.rg = true) (hci : M.ci = true) (hout : M.out = true) (hfresh : M.fresh = true) (a0 : ℕ) (a1 : ℕ) (a2 : Packet) (a3 : State)  :
    (msgArrive a0 a1 a2 a3).clr M = a3.clr M := by
  unfold msgArrive
  repeat' first
    | with_reducible rfl | split | with_reducible refine (freshen_clr M hfresh _ ).trans ?_
    | with_reducible refine (modQueue_clr M hci _ _ _ _ _ ).trans ?_ | with_reducible refine (cipCount_clr M hrg _ _ _ _ ).trans ?_
    | with_reducible refine (arriveEntry_clr M hrg hci hout _ _ _ _ _ _ _ ).trans ?_
    | with_reducible refine (foldl_clr M _ _ _ ?_).trans ?_ | intro _ | dsimp only

theorem newEntry_clr (M : Mask) (hrg : M.rg = true) (hnt : M.nt = true) (hci : M.ci = true) (a0 : ℕ) (a1 : ℕ) (a2 : ℕ) (a3 : ℕ) (a4 : ℕ) (a5 : DWord) (a6 : ℕ) (a7 : List Byte) (a8 : State)  :
    (newEntry a0 a1 a2 a3 a4 a5 a6 a7 a8).clr M = a8.clr M := by
  unfold newEntry
  repeat' first
    | with_reducible rfl | split | with_reducible refine (modCip_clr M hci _ _ _ _ ).trans ?_
    | with_reducible refine (askCredits_clr M hrg hnt hci _ _ _ _ ).trans ?_
    | with_reducible refine (waitOn_clr M hrg hci _ _ _ _ _ _ ).trans ?_ | with_reducible refine (foldl_clr M _ _ _ ?_).trans ?_
    | intro _ | dsimp only

theorem popEntry_clr (M : Mask) (hci : M.ci = true) (hout : M.out = true) (a0 : ℕ) (a1 : ℕ) (a2 : ℕ) (a3 : ℕ) (a4 : State)  :
    (popEntry a0 a1 a2 a3 a4).clr M = a4.clr M := by
  unfold popEntry
  repeat' first
    | with_reducible rfl | split | with_reducible refine (modQueue_clr M hci _ _ _ _ _ ).trans ?_
    | with_reducible refine (endStream_clr M hci hout _ _ _ _ _ _ ).trans ?_ | with_reducible refine (foldl_clr M _ _ _ ?_).trans ?_
    | intro _ | dsimp only

theorem sendMsg_clr (M : Mask) (hrg : M.rg = true) (hnt : M.nt = true) (hci : M.ci = true) (hout : M.out = true) (a0 : ℕ) (a1 : ℕ) (a2 : ℕ) (a3 : ℕ) (a4 : ℕ) (a5 : DWord) (a6 : ℕ) (a7 : List Byte) (a8 : State)  :
    (sendMsg a0 a1 a2 a3 a4 a5 a6 a7 a8).clr M = a8.clr M := by
  unfold sendMsg
  repeat' first
    | with_reducible rfl | split | with_reducible refine (modCip_clr M hci _ _ _ _ ).trans ?_
    | with_reducible refine (cipCount_clr M hrg _ _ _ _ ).trans ?_
    | with_reducible refine (endStream_clr M hci hout _ _ _ _ _ _ ).trans ?_
    | with_reducible refine (askCredits_clr M hrg hnt hci _ _ _ _ ).trans ?_
    | with_reducible refine (sendFrom_clr M hnt _ _ _ _ _ ).trans ?_ | with_reducible refine (modCache_clr M hci _ _ _ _ _ ).trans ?_
    | with_reducible refine (foldl_clr M _ _ _ ?_).trans ?_ | intro _ | dsimp only

theorem startRecv_clr (M : Mask) (hrg : M.rg = true) (hci : M.ci = true) (hout : M.out = true) (a0 : CipHdr) (a1 : ℕ) (a2 : Bool) (a3 : State)  :
    (startRecv a0 a1 a2 a3).clr M = a3.clr M := by
  unfold startRecv
  repeat' first
    | with_reducible rfl | split | with_reducible refine (cipRsp_clr M hout _ _ _ _ _ _ ).trans ?_
    | with_reducible refine (popEntry_clr M hci hout _ _ _ _ _ ).trans ?_
    | with_reducible refine (waitOn_clr M hrg hci _ _ _ _ _ _ ).trans ?_ | with_reducible refine (foldl_clr M _ _ _ ?_).trans ?_
    | intro _ | dsimp only

theorem trySend_clr (M : Mask) (hrg : M.rg = true) (hnt : M.nt = true) (hci : M.ci = true) (hout : M.out = true) (a0 : ℕ) (a1 : ℕ) (a2 : ℕ) (a3 : ℕ) (a4 : DWord) (a5 : ℕ) (a6 : List Byte) (a7 : State)  :
    (trySend a0 a1 a2 a3 a4 a5 a6 a7).clr M = a7.clr M := by
  unfold trySend
  repeat' first
    | with_reducible rfl | split | with_reducible refine (sendMsg_clr M hrg hnt hci hout _ _ _ _ _ _ _ _ _ ).trans ?_
    | with_reducible refine (freeCache_clr M hnt hci _ _ _ _ ).trans ?_
    | with_reducible refine (askCredits_clr M hrg hnt hci _ _ _ _ ).trans ?_
    | with_reducible refine (waitOn_clr M hrg hci _ _ _ _ _ _ ).trans ?_
    | with_reducible refine (newEntry_clr M hrg hnt hci _ _ _ _ _ _ _ _ _ ).trans ?_
    | with_reducible refine (foldl_clr M _ _ _ ?_).trans ?_ | intro _ | dsimp only

theorem startSend_clr (M : Mask) (hrg : M.rg = true) (hnt : M.nt = true) (hci : M.ci = true) (hout : M.out = true) (a0 : CipHdr) (a1 : DWord) (a2 : ℕ) (a3 : List Byte) (a4 : State)  :
    (startSend a0 a1 a2 a3 a4).clr M = a4.clr M := by
  unfold startSend
  repeat' first
    | with_reducible rfl | split | with_reducible refine (cipRsp_clr M hout _ _ _ _ _ _ ).trans ?_
    | with_reducible refine (trySend_clr M hrg hnt hci hout _ _ _ _ _ _ _ _ ).trans ?_
    | with_reducible refine (foldl_clr M _ _ _ ?_).trans ?_ | intro _ | dsimp only

theorem dbInc_clr (M : Mask) (hrg : M.rg = true) (hci : M.ci = true) (a0 : ℕ) (a1 : ℕ) (a2 : Packet) (a3 : State)  :
    (dbInc a0 a1 a2 a3).clr M = a3.clr M := by
  unfold dbInc
  repeat' first
    | with_reducible rfl | split | with_reducible refine (modCip_clr M hci _ _ _ _ ).trans ?_
    | with_reducible refine (cipCount_clr M hrg _ _ _ _ ).trans ?_ | with_reducible refine (foldl_clr M _ _ _ ?_).trans ?_ | intro _
    | dsimp only

theorem deferReadCmd_clr (M : Mask) (hout : M.out = true) (a0 : CipHdr) (a1 : State)  :
    (deferReadCmd a0 a1).clr M = a1.clr M := by
  unfold deferReadCmd
  repeat' first
    | with_reducible rfl | split | with_reducible refine (cipRsp_clr M hout _ _ _ _ _ _ ).trans ?_
    | with_reducible refine (foldl_clr M _ _ _ ?_).trans ?_ | intro _ | dsimp only

theorem modRing_clr (M : Mask) (hci : M.ci = true) (a0 : ℕ) (a1 : ℕ) (a2 : ℕ) (a3 : Ring → Ring) (a4 : State)  :
    (modRing a0 a1 a2 a3 a4).clr M = a4.clr M := by
  unfold modRing
  repeat' first
    | with_reducible rfl | split | with_reducible refine (modCip_clr M hci _ _ _ _ ).trans ?_
    | with_reducible refine (foldl_clr M _ _ _ ?_).trans ?_ | intro _ | dsimp only

theorem writePad_clr (M : Mask) (hci : M.ci = true) (hout : M.out = true) (a0 : ℕ) (a1 : ℕ) (a2 : ℕ) (a3 : ℕ) (a4 : State)  :
    (writePad a0 a1 a2 a3 a4).clr M = a4.clr M := by
  unfold writePad
  repeat' first
    | with_reducible rfl | split | with_reducible refine (storeBy_clr M hout _ _ _ _ ).trans ?_
    | with_reducible refine (modRing_clr M hci _ _ _ _ _ ).trans ?_ | with_reducible refine (foldl_clr M _ _ _ ?_).trans ?_ | intro _
    | dsimp only

theorem placeRec_clr (M : Mask) (hci : M.ci = true) (hout : M.out = true) (a0 : ℕ) (a1 : ℕ) (a2 : ℕ) (a3 : ℕ) (a4 : State)  :
    (placeRec a0 a1 a2 a3 a4).2.clr M = a4.clr M := by
  unfold placeRec
  have writePad' := writePad_clr M hci hout
  repeat' first
    | with_reducible rfl | split | with_reducible refine (modRing_clr M hci _ _ _ _ _ ).trans ?_
    | with_reducible refine (writePad_clr M hci hout _ _ _ _ _ ).trans ?_ | with_reducible refine (foldl_clr M _ _ _ ?_).trans ?_
    | intro _ | dsimp only

theorem ringCommit_clr (M : Mask) (hrg : M.rg = true) (hci : M.ci = true) (a0 : ℕ) (a1 : ℕ) (a2 : Packet) (a3 : State)  :
    (ringCommit a0 a1 a2 a3).clr M = a3.clr M := by
  unfold ringCommit
  repeat' first
    | with_reducible rfl | split | with_reducible refine (cipCount_clr M hrg _ _ _ _ ).trans ?_
    | with_reducible refine (modRing_clr M hci _ _ _ _ _ ).trans ?_ | with_reducible refine (foldl_clr M _ _ _ ?_).trans ?_ | intro _
    | dsimp only

theorem serveRing_clr (M : Mask) (hnt : M.nt = true) (hci : M.ci = true) (hout : M.out = true) (a0 : ℕ) (a1 : ℕ) (a2 : ℕ) (a3 : ℕ) (a4 : State)  :
    (serveRing a0 a1 a2 a3 a4).clr M = a4.clr M := by
  induction a3 generalizing a4 with
  | zero => rfl
  | succ _ ih =>
    unfold serveRing
    repeat' first
      | with_reducible rfl | split | with_reducible refine (ih _).trans ?_
      | with_reducible refine (modRing_clr M hci _ _ _ _ _ ).trans ?_
      | with_reducible refine (placeRec_clr M hci hout _ _ _ _ _ ).trans ?_
      | with_reducible refine (reply_clr M hnt _ _ _ _ _ _ _ _ ).trans ?_ | with_reducible refine (foldl_clr M _ _ _ ?_).trans ?_
      | intro _ | dsimp only

theorem ringFree_clr (M : Mask) (hnt : M.nt = true) (hci : M.ci = true) (hout : M.out = true) (a0 : CipHdr) (a1 : ℕ) (a2 : DWord) (a3 : State)  :
    (ringFree a0 a1 a2 a3).clr M = a3.clr M := by
  unfold ringFree
  repeat' first
    | with_reducible rfl | split | with_reducible refine (cipRsp_clr M hout _ _ _ _ _ _ ).trans ?_
    | with_reducible refine (modRing_clr M hci _ _ _ _ _ ).trans ?_
    | with_reducible refine (serveRing_clr M hnt hci hout _ _ _ _ _ ).trans ?_ | with_reducible refine (foldl_clr M _ _ _ ?_).trans ?_
    | intro _ | dsimp only

theorem ringReserve_clr (M : Mask) (hnt : M.nt = true) (hci : M.ci = true) (hout : M.out = true) (a0 : ℕ) (a1 : ℕ) (a2 : Packet) (a3 : State)  :
    (ringReserve a0 a1 a2 a3).clr M = a3.clr M := by
  unfold ringReserve
  repeat' first
    | with_reducible rfl | split | with_reducible refine (replyStatus_clr M hnt _ _ _ _ _ _ ).trans ?_
    | with_reducible refine (modRing_clr M hci _ _ _ _ _ ).trans ?_
    | with_reducible refine (serveRing_clr M hnt hci hout _ _ _ _ _ ).trans ?_ | with_reducible refine (foldl_clr M _ _ _ ?_).trans ?_
    | intro _ | dsimp only

theorem startDbWait_clr (M : Mask) (hrg : M.rg = true) (hci : M.ci = true) (hout : M.out = true) (a0 : CipHdr) (a1 : ℕ) (a2 : Word) (a3 : State)  :
    (startDbWait a0 a1 a2 a3).clr M = a3.clr M := by
  unfold startDbWait
  repeat' first
    | with_reducible rfl | split | with_reducible refine (cipRsp_clr M hout _ _ _ _ _ _ ).trans ?_
    | with_reducible refine (waitOn_clr M hrg hci _ _ _ _ _ _ ).trans ?_ | with_reducible refine (foldl_clr M _ _ _ ?_).trans ?_
    | intro _ | dsimp only

theorem startRingWait_clr (M : Mask) (hrg : M.rg = true) (hci : M.ci = true) (hout : M.out = true) (a0 : CipHdr) (a1 : ℕ) (a2 : State)  :
    (startRingWait a0 a1 a2).clr M = a2.clr M := by
  unfold startRingWait
  repeat' first
    | with_reducible rfl | split | with_reducible refine (cipRsp_clr M hout _ _ _ _ _ _ ).trans ?_
    | with_reducible refine (waitOn_clr M hrg hci _ _ _ _ _ _ ).trans ?_ | with_reducible refine (foldl_clr M _ _ _ ?_).trans ?_
    | intro _ | dsimp only

theorem modMerges_clr (M : Mask) (hci : M.ci = true) (a0 : ℕ) (a1 : ℕ) (a2 : List AckMerge → List AckMerge) (a3 : State)  :
    (modMerges a0 a1 a2 a3).clr M = a3.clr M := by
  unfold modMerges
  repeat' first
    | with_reducible rfl | split | simp only [upd_ci M hci] | with_reducible refine (foldl_clr M _ _ _ ?_).trans ?_ | intro _
    | dsimp only

theorem ackHoldExpiry_clr (M : Mask) (hrg : M.rg = true) (hnt : M.nt = true) (hci : M.ci = true) (a0 : ℕ) (a1 : ℕ) (a2 : ℕ) (a3 : State)  :
    (ackHoldExpiry a0 a1 a2 a3).clr M = a3.clr M := by
  unfold ackHoldExpiry
  repeat' first
    | with_reducible rfl | split | with_reducible refine (cipCount_clr M hrg _ _ _ _ ).trans ?_
    | with_reducible refine (modMerges_clr M hci _ _ _ _ ).trans ?_ | with_reducible refine (sendFrom_clr M hnt _ _ _ _ _ ).trans ?_
    | with_reducible refine (doIf_clr M _ _ _ ?_).trans ?_ | with_reducible refine (foldl_clr M _ _ _ ?_).trans ?_ | intro _
    | dsimp only

theorem addAck_clr (M : Mask) (hci : M.ci = true) (a0 : ℕ) (a1 : ℕ) (a2 : ℕ) (a3 : ℕ) (a4 : ℕ) (a5 : DWord) (a6 : Bool) (a7 : State)  :
    (addAck a0 a1 a2 a3 a4 a5 a6 a7).clr M = a7.clr M := by
  unfold addAck
  repeat' first
    | with_reducible rfl | split | with_reducible refine (modMerges_clr M hci _ _ _ _ ).trans ?_
    | with_reducible refine (foldl_clr M _ _ _ ?_).trans ?_ | intro _ | dsimp only

theorem addAnswered_clr (M : Mask) (hci : M.ci = true) (hout : M.out = true) (a0 : ℕ) (a1 : ℕ) (a2 : BitVec 16) (a3 : ℕ) (a4 : State)  :
    (addAnswered a0 a1 a2 a3 a4).clr M = a4.clr M := by
  unfold addAnswered
  repeat' first
    | with_reducible rfl | split | with_reducible refine (endStream_clr M hci hout _ _ _ _ _ _ ).trans ?_
    | with_reducible refine (foldl_clr M _ _ _ ?_).trans ?_ | intro _ | dsimp only

theorem modBk_clr (M : Mask) (hbk : M.bk = true) (a0 : ℕ) (a1 : ℕ) (a2 : ℕ) (a3 : ℕ) (a4 : BasketEntry → BasketEntry) (a5 : State)  :
    (modBk a0 a1 a2 a3 a4 a5).clr M = a5.clr M := by
  unfold modBk
  repeat' first
    | with_reducible rfl | split | simp only [upd_bk M hbk] | with_reducible refine (foldl_clr M _ _ _ ?_).trans ?_ | intro _
    | dsimp only

theorem armEntry_clr (M : Mask) (hbk : M.bk = true) (a0 : ℕ) (a1 : ℕ) (a2 : ℕ) (a3 : ℕ) (a4 : ℕ) (a5 : ℕ) (a6 : State)  :
    (armEntry a0 a1 a2 a3 a4 a5 a6).clr M = a6.clr M := by
  unfold armEntry
  repeat' first
    | with_reducible rfl | split | with_reducible refine (modBk_clr M hbk _ _ _ _ _ _ ).trans ?_
    | with_reducible refine (foldl_clr M _ _ _ ?_).trans ?_ | intro _ | dsimp only

theorem bskCount_clr (M : Mask) (hrg : M.rg = true) (a0 : ℕ) (a1 : ℕ) (a2 : ℕ) (a3 : State)  :
    (bskCount a0 a1 a2 a3).clr M = a3.clr M := by
  unfold bskCount
  repeat' first
    | with_reducible rfl | split | with_reducible refine (addCount_clr M hrg _ _ _ _ _ ).trans ?_
    | with_reducible refine (foldl_clr M _ _ _ ?_).trans ?_ | intro _ | dsimp only

theorem deliverBasket_clr (M : Mask) (hrg : M.rg = true) (hci : M.ci = true) (hbk : M.bk = true) (hty : M.ty = true) (hout : M.out = true) (a0 : ℕ) (a1 : ℕ) (a2 : ℕ) (a3 : ℕ) (a4 : State)  :
    (deliverBasket a0 a1 a2 a3 a4).clr M = a4.clr M := by
  unfold deliverBasket
  repeat' first
    | with_reducible rfl | split | with_reducible refine (modQueue_clr M hci _ _ _ _ _ ).trans ?_
    | with_reducible refine (bskCount_clr M hrg _ _ _ _ ).trans ?_ | with_reducible refine (enterTally_clr M hty _ _ _ ).trans ?_
    | with_reducible refine (arriveEntry_clr M hrg hci hout _ _ _ _ _ _ _ ).trans ?_
    | with_reducible refine (modBk_clr M hbk _ _ _ _ _ _ ).trans ?_ | with_reducible refine (foldl_clr M _ _ _ ?_).trans ?_ | intro _
    | dsimp only

theorem bskAddArrive_clr (M : Mask) (hrg : M.rg = true) (hnt : M.nt = true) (hci : M.ci = true) (hbk : M.bk = true) (hty : M.ty = true) (hout : M.out = true) (a0 : ℕ) (a1 : ℕ) (a2 : Packet) (a3 : State)  :
    (bskAddArrive a0 a1 a2 a3).clr M = a3.clr M := by
  unfold bskAddArrive
  repeat' first
    | with_reducible rfl | split | with_reducible refine (replyStatus_clr M hnt _ _ _ _ _ _ ).trans ?_
    | with_reducible refine (cipCount_clr M hrg _ _ _ _ ).trans ?_ | with_reducible refine (bskCount_clr M hrg _ _ _ _ ).trans ?_
    | with_reducible refine (deliverBasket_clr M hrg hci hbk hty hout _ _ _ _ _ ).trans ?_
    | with_reducible refine (modBk_clr M hbk _ _ _ _ _ _ ).trans ?_ | with_reducible refine (reply_clr M hnt _ _ _ _ _ _ _ _ ).trans ?_
    | with_reducible refine (foldl_clr M _ _ _ ?_).trans ?_ | intro _ | dsimp only

theorem mergeAck_clr (M : Mask) (hrg : M.rg = true) (hnt : M.nt = true) (hci : M.ci = true) (hlk : M.lk = true) (hout : M.out = true) (a0 : ℕ) (a1 : ℕ) (a2 : Packet) (a3 : State)  :
    (mergeAck a0 a1 a2 a3).clr M = a3.clr M := by
  unfold mergeAck
  repeat' first
    | with_reducible rfl | split | with_reducible refine (addAck_clr M hci _ _ _ _ _ _ _ _ ).trans ?_
    | with_reducible refine (bskCount_clr M hrg _ _ _ _ ).trans ?_ | with_reducible refine (popBuf_clr M hnt _ _ _ ).trans ?_
    | with_reducible refine (oweCredits_clr M hnt hlk hout _ _ _ ).trans ?_ | with_reducible refine (foldl_clr M _ _ _ ?_).trans ?_
    | intro _ | dsimp only

theorem startAdd_clr (M : Mask) (hrg : M.rg = true) (hnt : M.nt = true) (hci : M.ci = true) (hout : M.out = true) (a0 : CipHdr) (a1 : DWord) (a2 : ℕ) (a3 : Word) (a4 : State)  :
    (startAdd a0 a1 a2 a3 a4).clr M = a4.clr M := by
  unfold startAdd
  repeat' first
    | with_reducible rfl | split | with_reducible refine (cipRsp_clr M hout _ _ _ _ _ _ ).trans ?_
    | with_reducible refine (sendFrom_clr M hnt _ _ _ _ _ ).trans ?_
    | with_reducible refine (waitOn_clr M hrg hci _ _ _ _ _ _ ).trans ?_ | with_reducible refine (takeSeq_clr M hci _ _ _ ).trans ?_
    | with_reducible refine (foldl_clr M _ _ _ ?_).trans ?_ | intro _ | dsimp only

theorem startArm_clr (M : Mask) (hrg : M.rg = true) (hci : M.ci = true) (hbk : M.bk = true) (hout : M.out = true) (a0 : CipHdr) (a1 : ℕ) (a2 : ℕ) (a3 : ℕ) (a4 : ℕ) (a5 : State)  :
    (startArm a0 a1 a2 a3 a4 a5).clr M = a5.clr M := by
  unfold startArm
  repeat' first
    | with_reducible rfl | split | with_reducible refine (cipRsp_clr M hout _ _ _ _ _ _ ).trans ?_
    | with_reducible refine (armEntry_clr M hbk _ _ _ _ _ _ _ ).trans ?_
    | with_reducible refine (modQueue_clr M hci _ _ _ _ _ ).trans ?_
    | with_reducible refine (waitOn_clr M hrg hci _ _ _ _ _ _ ).trans ?_ | with_reducible refine (foldl_clr M _ _ _ ?_).trans ?_
    | intro _ | dsimp only

theorem unbindBasket_clr (M : Mask) (hci : M.ci = true) (hbk : M.bk = true) (a0 : ℕ) (a1 : ℕ) (a2 : ℕ) (a3 : ℕ) (a4 : State)  :
    (unbindBasket a0 a1 a2 a3 a4).clr M = a4.clr M := by
  unfold unbindBasket
  repeat' first
    | with_reducible rfl | split | with_reducible refine (modQueue_clr M hci _ _ _ _ _ ).trans ?_
    | with_reducible refine (modBk_clr M hbk _ _ _ _ _ _ ).trans ?_ | with_reducible refine (forEach_clr M _ _ _ ?_).trans ?_
    | with_reducible refine (foldl_clr M _ _ _ ?_).trans ?_ | intro _ | dsimp only

theorem modPeg_clr (M : Mask) (hpg : M.pg = true) (a0 : ℕ) (a1 : ℕ) (a2 : Peg → Peg) (a3 : State)  :
    (modPeg a0 a1 a2 a3).clr M = a3.clr M := by
  unfold modPeg
  repeat' first
    | with_reducible rfl | split | simp only [upd_pg M hpg] | with_reducible refine (foldl_clr M _ _ _ ?_).trans ?_ | intro _
    | dsimp only

theorem pegReply_clr (M : Mask) (hnt : M.nt = true) (a0 : ℕ) (a1 : Packet) (a2 : Word) (a3 : Word) (a4 : State)  :
    (pegReply a0 a1 a2 a3 a4).clr M = a4.clr M := by
  unfold pegReply
  repeat' first
    | with_reducible rfl | split | with_reducible refine (reply_clr M hnt _ _ _ _ _ _ _ _ ).trans ?_
    | with_reducible refine (foldl_clr M _ _ _ ?_).trans ?_ | intro _ | dsimp only

theorem pegCount_clr (M : Mask) (hrg : M.rg = true) (a0 : ℕ) (a1 : ℕ) (a2 : State)  :
    (pegCount a0 a1 a2).clr M = a2.clr M := by
  unfold pegCount
  repeat' first
    | with_reducible rfl | split | with_reducible refine (addCount_clr M hrg _ _ _ _ _ ).trans ?_
    | with_reducible refine (foldl_clr M _ _ _ ?_).trans ?_ | intro _ | dsimp only

theorem pegRelease_clr (M : Mask) (hrg : M.rg = true) (hnt : M.nt = true) (hpg : M.pg = true) (hpr : M.pr = true) (a0 : ℕ) (a1 : ℕ) (a2 : State)  :
    (pegRelease a0 a1 a2).clr M = a2.clr M := by
  unfold pegRelease
  repeat' first
    | with_reducible rfl | split | with_reducible refine (pegReply_clr M hnt _ _ _ _ _ ).trans ?_
    | with_reducible refine (pegCount_clr M hrg _ _ _ ).trans ?_ | with_reducible refine (modPeg_clr M hpg _ _ _ _ ).trans ?_
    | with_reducible refine (pairEvent_clr M hpr _ _ ).trans ?_ | with_reducible refine (forEach_clr M _ _ _ ?_).trans ?_
    | with_reducible refine (foldl_clr M _ _ _ ?_).trans ?_ | intro _ | dsimp only

theorem pegAddOp_clr (M : Mask) (hrg : M.rg = true) (hnt : M.nt = true) (hpg : M.pg = true) (hpr : M.pr = true) (a0 : ℕ) (a1 : Packet) (a2 : ℕ) (a3 : State)  :
    (pegAddOp a0 a1 a2 a3).clr M = a3.clr M := by
  unfold pegAddOp
  repeat' first
    | with_reducible rfl | split | with_reducible refine (pegReply_clr M hnt _ _ _ _ _ ).trans ?_
    | with_reducible refine (modPeg_clr M hpg _ _ _ _ ).trans ?_
    | with_reducible refine (pegRelease_clr M hrg hnt hpg hpr _ _ _ ).trans ?_ | with_reducible refine (foldl_clr M _ _ _ ?_).trans ?_
    | intro _ | dsimp only

theorem pegArmOp_clr (M : Mask) (hnt : M.nt = true) (hpg : M.pg = true) (a0 : ℕ) (a1 : Packet) (a2 : ℕ) (a3 : State)  :
    (pegArmOp a0 a1 a2 a3).clr M = a3.clr M := by
  unfold pegArmOp
  repeat' first
    | with_reducible rfl | split | with_reducible refine (pegReply_clr M hnt _ _ _ _ _ ).trans ?_
    | with_reducible refine (modPeg_clr M hpg _ _ _ _ ).trans ?_ | with_reducible refine (foldl_clr M _ _ _ ?_).trans ?_ | intro _
    | dsimp only

theorem pegDoneArrive_clr (M : Mask) (hci : M.ci = true) (hout : M.out = true) (a0 : ℕ) (a1 : ℕ) (a2 : Packet) (a3 : State)  :
    (pegDoneArrive a0 a1 a2 a3).clr M = a3.clr M := by
  unfold pegDoneArrive
  repeat' first
    | with_reducible rfl | split | with_reducible refine (endStream_clr M hci hout _ _ _ _ _ _ ).trans ?_
    | with_reducible refine (foldl_clr M _ _ _ ?_).trans ?_ | intro _ | dsimp only

theorem pegOp_clr (M : Mask) (hrg : M.rg = true) (hnt : M.nt = true) (a0 : ℕ) (a1 : Packet) (a2 : ℕ → State → State) (a3 : State) (hf2 : ∀ x0 x1, (a2 x0 x1).clr M = x1.clr M) :
    (pegOp a0 a1 a2 a3).clr M = a3.clr M := by
  unfold pegOp
  repeat' first
    | with_reducible rfl | split | with_reducible refine (replyStatus_clr M hnt _ _ _ _ _ _ ).trans ?_
    | with_reducible refine (pegCount_clr M hrg _ _ _ ).trans ?_ | with_reducible refine (served_clr M hnt _ _ _ _ _ _ ?_).trans ?_
    | with_reducible refine (foldl_clr M _ _ _ ?_).trans ?_ | with_reducible refine (hf2 _).trans ?_
    | with_reducible refine (hf2 _ _).trans ?_ | with_reducible refine (hf2 _ _ _).trans ?_ | intro _ | dsimp only

theorem pegReadOp_clr (M : Mask) (hnt : M.nt = true) (a0 : ℕ) (a1 : Packet) (a2 : ℕ) (a3 : State)  :
    (pegReadOp a0 a1 a2 a3).clr M = a3.clr M := by
  unfold pegReadOp
  repeat' first
    | with_reducible rfl | split | with_reducible refine (pegReply_clr M hnt _ _ _ _ _ ).trans ?_
    | with_reducible refine (foldl_clr M _ _ _ ?_).trans ?_ | intro _ | dsimp only

theorem pegStatus_clr (M : Mask) (hci : M.ci = true) (hout : M.out = true) (a0 : ℕ) (a1 : ℕ) (a2 : Packet) (a3 : ℕ) (a4 : State)  :
    (pegStatus a0 a1 a2 a3 a4).clr M = a4.clr M := by
  unfold pegStatus
  repeat' first
    | with_reducible rfl | split | with_reducible refine (modCip_clr M hci _ _ _ _ ).trans ?_
    | with_reducible refine (endStream_clr M hci hout _ _ _ _ _ _ ).trans ?_ | with_reducible refine (foldl_clr M _ _ _ ?_).trans ?_
    | intro _ | dsimp only

theorem pegWaitOp_clr (M : Mask) (hrg : M.rg = true) (hnt : M.nt = true) (hpg : M.pg = true) (a0 : ℕ) (a1 : Packet) (a2 : ℕ) (a3 : State)  :
    (pegWaitOp a0 a1 a2 a3).clr M = a3.clr M := by
  unfold pegWaitOp
  repeat' first
    | with_reducible rfl | split | with_reducible refine (replyStatus_clr M hnt _ _ _ _ _ _ ).trans ?_
    | with_reducible refine (pegReply_clr M hnt _ _ _ _ _ ).trans ?_ | with_reducible refine (pegCount_clr M hrg _ _ _ ).trans ?_
    | with_reducible refine (modPeg_clr M hpg _ _ _ _ ).trans ?_ | with_reducible refine (foldl_clr M _ _ _ ?_).trans ?_ | intro _
    | dsimp only

theorem startPeg_clr (M : Mask) (hrg : M.rg = true) (hnt : M.nt = true) (hci : M.ci = true) (hout : M.out = true) (a0 : CipHdr) (a1 : DWord) (a2 : ℕ) (a3 : ℕ) (a4 : State)  :
    (startPeg a0 a1 a2 a3 a4).clr M = a4.clr M := by
  unfold startPeg
  repeat' first
    | with_reducible rfl | split | with_reducible refine (cipRsp_clr M hout _ _ _ _ _ _ ).trans ?_
    | with_reducible refine (sendFrom_clr M hnt _ _ _ _ _ ).trans ?_
    | with_reducible refine (waitOn_clr M hrg hci _ _ _ _ _ _ ).trans ?_ | with_reducible refine (takeSeq_clr M hci _ _ _ ).trans ?_
    | with_reducible refine (foldl_clr M _ _ _ ?_).trans ?_ | intro _ | dsimp only

theorem closeDesc_clr (M : Mask) (hrg : M.rg = true) (hci : M.ci = true) (hout : M.out = true) (a0 : ℕ) (a1 : ℕ) (a2 : ℕ) (a3 : ℕ) (a4 : State)  :
    (closeDesc a0 a1 a2 a3 a4).clr M = a4.clr M := by
  unfold closeDesc
  repeat' first
    | with_reducible rfl | split | with_reducible refine (modCip_clr M hci _ _ _ _ ).trans ?_
    | with_reducible refine (cqRecord_clr M hrg hci hout _ _ _ _ _ ).trans ?_ | with_reducible refine (foldl_clr M _ _ _ ?_).trans ?_
    | intro _ | dsimp only

theorem mcAsk_clr (M : Mask) (hnt : M.nt = true) (hmp : M.mp = true) (a0 : Packet) (a1 : State)  :
    (mcAsk a0 a1).clr M = a1.clr M := by
  unfold mcAsk
  repeat' first
    | with_reducible rfl | split | with_reducible refine (replyStatus_clr M hnt _ _ _ _ _ _ ).trans ?_
    | with_reducible refine (mpRequest_clr M hnt hmp _ _ _ _ ).trans ?_ | with_reducible refine (foldl_clr M _ _ _ ?_).trans ?_
    | intro _ | dsimp only

theorem modDesc_clr (M : Mask) (hci : M.ci = true) (a0 : ℕ) (a1 : ℕ) (a2 : ℕ) (a3 : Desc → Desc) (a4 : State)  :
    (modDesc a0 a1 a2 a3 a4).clr M = a4.clr M := by
  unfold modDesc
  repeat' first
    | with_reducible rfl | split | with_reducible refine (modCip_clr M hci _ _ _ _ ).trans ?_
    | with_reducible refine (foldl_clr M _ _ _ ?_).trans ?_ | intro _ | dsimp only

theorem request_clr (M : Mask) (hnt : M.nt = true) (hmp : M.mp = true) (hci : M.ci = true) (a0 : ℕ) (a1 : ℕ) (a2 : ℕ) (a3 : State)  :
    (request a0 a1 a2 a3).clr M = a3.clr M := by
  unfold request
  repeat' first
    | with_reducible rfl | split | with_reducible refine (mcAsk_clr M hnt hmp _ _ ).trans ?_
    | with_reducible refine (sendFrom_clr M hnt _ _ _ _ _ ).trans ?_ | with_reducible refine (modDesc_clr M hci _ _ _ _ _ ).trans ?_
    | with_reducible refine (takeSeq_clr M hci _ _ _ ).trans ?_ | with_reducible refine (foldl_clr M _ _ _ ?_).trans ?_ | intro _
    | dsimp only

theorem readNext_clr (M : Mask) (hnt : M.nt = true) (hmp : M.mp = true) (hci : M.ci = true) (a0 : ℕ) (a1 : ℕ) (a2 : ℕ) (a3 : State)  :
    (readNext a0 a1 a2 a3).clr M = a3.clr M := by
  unfold readNext
  repeat' first
    | with_reducible rfl | split | with_reducible refine (request_clr M hnt hmp hci _ _ _ _ ).trans ?_
    | with_reducible refine (modDesc_clr M hci _ _ _ _ _ ).trans ?_ | with_reducible refine (foldl_clr M _ _ _ ?_).trans ?_ | intro _
    | dsimp only

theorem startDesc_clr (M : Mask) (hrg : M.rg = true) (hnt : M.nt = true) (hmp : M.mp = true) (hci : M.ci = true) (hout : M.out = true) (a0 : ℕ) (a1 : ℕ) (a2 : ℕ) (a3 : State)  :
    (startDesc a0 a1 a2 a3).clr M = a3.clr M := by
  unfold startDesc
  repeat' first
    | with_reducible rfl | split | with_reducible refine (closeDesc_clr M hrg hci hout _ _ _ _ _ ).trans ?_
    | with_reducible refine (readNext_clr M hnt hmp hci _ _ _ _ ).trans ?_
    | with_reducible refine (request_clr M hnt hmp hci _ _ _ _ ).trans ?_
    | with_reducible refine (modDesc_clr M hci _ _ _ _ _ ).trans ?_ | with_reducible refine (foldl_clr M _ _ _ ?_).trans ?_ | intro _
    | dsimp only

theorem finishDesc_clr (M : Mask) (hrg : M.rg = true) (hnt : M.nt = true) (hmp : M.mp = true) (hci : M.ci = true) (hout : M.out = true) (a0 : ℕ) (a1 : ℕ) (a2 : ℕ) (a3 : ℕ) (a4 : State)  :
    (finishDesc a0 a1 a2 a3 a4).clr M = a4.clr M := by
  unfold finishDesc
  repeat' first
    | with_reducible rfl | split | with_reducible refine (closeDesc_clr M hrg hci hout _ _ _ _ _ ).trans ?_
    | with_reducible refine (startDesc_clr M hrg hnt hmp hci hout _ _ _ _ ).trans ?_
    | with_reducible refine (foldl_clr M _ _ _ ?_).trans ?_ | intro _ | dsimp only

theorem ackArrive_clr (M : Mask) (hrg : M.rg = true) (hnt : M.nt = true) (hmp : M.mp = true) (hci : M.ci = true) (hout : M.out = true) (a0 : ℕ) (a1 : ℕ) (a2 : Packet) (a3 : State)  :
    (ackArrive a0 a1 a2 a3).clr M = a3.clr M := by
  unfold ackArrive
  repeat' first
    | with_reducible rfl | split | with_reducible refine (cipCount_clr M hrg _ _ _ _ ).trans ?_
    | with_reducible refine (finishDesc_clr M hrg hnt hmp hci hout _ _ _ _ _ ).trans ?_
    | with_reducible refine (modDesc_clr M hci _ _ _ _ _ ).trans ?_ | with_reducible refine (foldl_clr M _ _ _ ?_).trans ?_ | intro _
    | dsimp only

theorem ackWaitExpiry_clr (M : Mask) (hrg : M.rg = true) (hnt : M.nt = true) (hmp : M.mp = true) (hci : M.ci = true) (hout : M.out = true) (a0 : ℕ) (a1 : ℕ) (a2 : ℕ) (a3 : State)  :
    (ackWaitExpiry a0 a1 a2 a3).clr M = a3.clr M := by
  unfold ackWaitExpiry
  repeat' first
    | with_reducible rfl | split | with_reducible refine (finishDesc_clr M hrg hnt hmp hci hout _ _ _ _ _ ).trans ?_
    | with_reducible refine (foldl_clr M _ _ _ ?_).trans ?_ | intro _ | dsimp only

theorem admitArrive_clr (M : Mask) (hrg : M.rg = true) (hci : M.ci = true) (hout : M.out = true) (a0 : ℕ) (a1 : ℕ) (a2 : Packet) (a3 : State)  :
    (admitArrive a0 a1 a2 a3).clr M = a3.clr M := by
  unfold admitArrive
  repeat' first
    | with_reducible rfl | split | with_reducible refine (cipRsp_clr M hout _ _ _ _ _ _ ).trans ?_
    | with_reducible refine (modCip_clr M hci _ _ _ _ ).trans ?_ | with_reducible refine (cqRelease_clr M hci _ _ _ _ _ ).trans ?_
    | with_reducible refine (cqRecord_clr M hrg hci hout _ _ _ _ _ ).trans ?_ | with_reducible refine (foldl_clr M _ _ _ ?_).trans ?_
    | intro _ | dsimp only

theorem admitDma_clr (M : Mask) (hrg : M.rg = true) (hnt : M.nt = true) (hmp : M.mp = true) (hci : M.ci = true) (hout : M.out = true) (a0 : ℕ) (a1 : ℕ) (a2 : ℕ) (a3 : ℕ) (a4 : List Byte) (a5 : State)  :
    (admitDma a0 a1 a2 a3 a4 a5).clr M = a5.clr M := by
  unfold admitDma
  repeat' first
    | with_reducible rfl | split | with_reducible refine (modCip_clr M hci _ _ _ _ ).trans ?_
    | with_reducible refine (cqRelease_clr M hci _ _ _ _ _ ).trans ?_
    | with_reducible refine (cqRecord_clr M hrg hci hout _ _ _ _ _ ).trans ?_
    | with_reducible refine (endStream_clr M hci hout _ _ _ _ _ _ ).trans ?_
    | with_reducible refine (startDesc_clr M hrg hnt hmp hci hout _ _ _ _ ).trans ?_
    | with_reducible refine (countDefer_clr M hnt _ _ _ _ _ ).trans ?_ | with_reducible refine (foldl_clr M _ _ _ ?_).trans ?_ | intro _
    | dsimp only

theorem sendOpen_clr (M : Mask) (hnt : M.nt = true) (hci : M.ci = true) (a0 : ℕ) (a1 : ℕ) (a2 : ℕ) (a3 : ℕ) (a4 : List Byte) (a5 : State)  :
    (sendOpen a0 a1 a2 a3 a4 a5).clr M = a5.clr M := by
  unfold sendOpen
  repeat' first
    | with_reducible rfl | split | with_reducible refine (modCip_clr M hci _ _ _ _ ).trans ?_
    | with_reducible refine (sendFrom_clr M hnt _ _ _ _ _ ).trans ?_ | with_reducible refine (takeSeq_clr M hci _ _ _ ).trans ?_
    | with_reducible refine (foldl_clr M _ _ _ ?_).trans ?_ | intro _ | dsimp only

theorem admitPost_clr (M : Mask) (hrg : M.rg = true) (hnt : M.nt = true) (hmp : M.mp = true) (hdr : M.dr = true) (hci : M.ci = true) (hout : M.out = true) (a0 : ℕ) (a1 : ℕ) (a2 : ℕ) (a3 : ℕ) (a4 : List Byte) (a5 : State)  :
    (admitPost a0 a1 a2 a3 a4 a5).clr M = a5.clr M := by
  unfold admitPost
  repeat' first
    | with_reducible rfl | split | with_reducible refine (firstRun_clr M hrg hnt hdr hci hout _ _ _ _ ).trans ?_
    | with_reducible refine (endStream_clr M hci hout _ _ _ _ _ _ ).trans ?_
    | with_reducible refine (sendOpen_clr M hnt hci _ _ _ _ _ _ ).trans ?_
    | with_reducible refine (admitDma_clr M hrg hnt hmp hci hout _ _ _ _ _ _ ).trans ?_
    | with_reducible refine (foldl_clr M _ _ _ ?_).trans ?_ | intro _ | dsimp only

theorem cipStep7_clr (M : Mask) (hrg : M.rg = true) (hnt : M.nt = true) (hmp : M.mp = true) (hci : M.ci = true) (hout : M.out = true) (a0 : ℕ) (a1 : ℕ) (a2 : State)  :
    (cipStep7 a0 a1 a2).clr M = a2.clr M := by
  unfold cipStep7
  repeat' first
    | with_reducible rfl | split | with_reducible refine (modCip_clr M hci _ _ _ _ ).trans ?_
    | with_reducible refine (request_clr M hnt hmp hci _ _ _ _ ).trans ?_
    | with_reducible refine (startDesc_clr M hrg hnt hmp hci hout _ _ _ _ ).trans ?_
    | with_reducible refine (finishDesc_clr M hrg hnt hmp hci hout _ _ _ _ _ ).trans ?_
    | with_reducible refine (askCredits_clr M hrg hnt hci _ _ _ _ ).trans ?_
    | with_reducible refine (countDefer_clr M hnt _ _ _ _ _ ).trans ?_ | with_reducible refine (sendFrom_clr M hnt _ _ _ _ _ ).trans ?_
    | with_reducible refine (modDesc_clr M hci _ _ _ _ _ ).trans ?_ | with_reducible refine (forEach_clr M _ _ _ ?_).trans ?_
    | with_reducible refine (foldl_clr M _ _ _ ?_).trans ?_ | intro _ | dsimp only

theorem descStatus_clr (M : Mask) (hrg : M.rg = true) (hnt : M.nt = true) (hmp : M.mp = true) (hci : M.ci = true) (hout : M.out = true) (a0 : ℕ) (a1 : ℕ) (a2 : Desc) (a3 : ℕ) (a4 : State)  :
    (descStatus a0 a1 a2 a3 a4).clr M = a4.clr M := by
  unfold descStatus
  repeat' first
    | with_reducible rfl | split | with_reducible refine (finishDesc_clr M hrg hnt hmp hci hout _ _ _ _ _ ).trans ?_
    | with_reducible refine (modDesc_clr M hci _ _ _ _ _ ).trans ?_ | with_reducible refine (foldl_clr M _ _ _ ?_).trans ?_ | intro _
    | dsimp only

theorem finishLog_clr (M : Mask) (hrg : M.rg = true) (hnt : M.nt = true) (hmp : M.mp = true) (hci : M.ci = true) (hty : M.ty = true) (hft : M.ft = true) (hout : M.out = true) (a0 : ℕ) (a1 : ℕ) (a2 : ℕ) (a3 : State)  :
    (finishLog a0 a1 a2 a3).clr M = a3.clr M := by
  unfold finishLog
  repeat' first
    | with_reducible rfl | split | with_reducible refine (logRecord_clr M hrg hnt hty hft _ _ _ _ _ ).trans ?_
    | with_reducible refine (enterTally_clr M hty _ _ _ ).trans ?_ | with_reducible refine (modChain_clr M hty _ _ _ ).trans ?_
    | with_reducible refine (finishDesc_clr M hrg hnt hmp hci hout _ _ _ _ _ ).trans ?_
    | with_reducible refine (foldl_clr M _ _ _ ?_).trans ?_ | intro _ | dsimp only

theorem finishWrites_clr (M : Mask) (hrg : M.rg = true) (hnt : M.nt = true) (hmp : M.mp = true) (hci : M.ci = true) (hout : M.out = true) (a0 : ℕ) (a1 : ℕ) (a2 : ℕ) (a3 : State)  :
    (finishWrites a0 a1 a2 a3).clr M = a3.clr M := by
  unfold finishWrites
  repeat' first
    | with_reducible rfl | split | with_reducible refine (finishDesc_clr M hrg hnt hmp hci hout _ _ _ _ _ ).trans ?_
    | with_reducible refine (sendFrom_clr M hnt _ _ _ _ _ ).trans ?_ | with_reducible refine (takeSeq_clr M hci _ _ _ ).trans ?_
    | with_reducible refine (foldl_clr M _ _ _ ?_).trans ?_ | intro _ | dsimp only

theorem pieceRead_clr (M : Mask) (hrg : M.rg = true) (hnt : M.nt = true) (hmp : M.mp = true) (hci : M.ci = true) (hty : M.ty = true) (hft : M.ft = true) (hout : M.out = true) (a0 : ℕ) (a1 : ℕ) (a2 : ℕ) (a3 : List Byte) (a4 : State)  :
    (pieceRead a0 a1 a2 a3 a4).clr M = a4.clr M := by
  unfold pieceRead
  repeat' first
    | with_reducible rfl | split | with_reducible refine (readNext_clr M hnt hmp hci _ _ _ _ ).trans ?_
    | with_reducible refine (finishLog_clr M hrg hnt hmp hci hty hft hout _ _ _ _ ).trans ?_
    | with_reducible refine (request_clr M hnt hmp hci _ _ _ _ ).trans ?_
    | with_reducible refine (finishDesc_clr M hrg hnt hmp hci hout _ _ _ _ _ ).trans ?_
    | with_reducible refine (sendFrom_clr M hnt _ _ _ _ _ ).trans ?_ | with_reducible refine (modDesc_clr M hci _ _ _ _ _ ).trans ?_
    | with_reducible refine (foldl_clr M _ _ _ ?_).trans ?_ | intro _ | dsimp only

theorem pieceWritten_clr (M : Mask) (hrg : M.rg = true) (hnt : M.nt = true) (hmp : M.mp = true) (hci : M.ci = true) (hout : M.out = true) (a0 : ℕ) (a1 : ℕ) (a2 : ℕ) (a3 : State)  :
    (pieceWritten a0 a1 a2 a3).clr M = a3.clr M := by
  unfold pieceWritten
  repeat' first
    | with_reducible rfl | split | with_reducible refine (readNext_clr M hnt hmp hci _ _ _ _ ).trans ?_
    | with_reducible refine (finishWrites_clr M hrg hnt hmp hci hout _ _ _ _ ).trans ?_
    | with_reducible refine (modDesc_clr M hci _ _ _ _ _ ).trans ?_ | with_reducible refine (foldl_clr M _ _ _ ?_).trans ?_ | intro _
    | dsimp only

theorem ringGranted_clr (M : Mask) (hnt : M.nt = true) (hmp : M.mp = true) (hci : M.ci = true) (a0 : ℕ) (a1 : ℕ) (a2 : Packet) (a3 : State)  :
    (ringGranted a0 a1 a2 a3).clr M = a3.clr M := by
  unfold ringGranted
  repeat' first
    | with_reducible rfl | split | with_reducible refine (request_clr M hnt hmp hci _ _ _ _ ).trans ?_
    | with_reducible refine (modDesc_clr M hci _ _ _ _ _ ).trans ?_ | with_reducible refine (foldl_clr M _ _ _ ?_).trans ?_ | intro _
    | dsimp only

theorem startPost_clr (M : Mask) (hrg : M.rg = true) (hnt : M.nt = true) (hmp : M.mp = true) (hdr : M.dr = true) (hci : M.ci = true) (hout : M.out = true) (a0 : CipHdr) (a1 : List Byte) (a2 : State)  :
    (startPost a0 a1 a2).clr M = a2.clr M := by
  unfold startPost
  repeat' first
    | with_reducible rfl | split | with_reducible refine (cipRsp_clr M hout _ _ _ _ _ _ ).trans ?_
    | with_reducible refine (admitPost_clr M hrg hnt hmp hdr hci hout _ _ _ _ _ _ ).trans ?_
    | with_reducible refine (modQueue_clr M hci _ _ _ _ _ ).trans ?_
    | with_reducible refine (waitOn_clr M hrg hci _ _ _ _ _ _ ).trans ?_ | with_reducible refine (foldl_clr M _ _ _ ?_).trans ?_
    | intro _ | dsimp only

theorem noteStall_clr (M : Mask) (hrg : M.rg = true) (hnt : M.nt = true) (hci : M.ci = true) (hft : M.ft = true) (hout : M.out = true) (a0 : ℕ) (a1 : ℕ) (a2 : ℕ) (a3 : ℕ) (a4 : DWord) (a5 : ℕ) (a6 : ℕ) (a7 : Bool) (a8 : State)  :
    (noteStall a0 a1 a2 a3 a4 a5 a6 a7 a8).clr M = a8.clr M := by
  unfold noteStall
  repeat' first
    | with_reducible rfl | split | with_reducible refine (setReg_clr M hrg _ _ _ _ _ _ ).trans ?_
    | with_reducible refine (cipCount_clr M hrg _ _ _ _ ).trans ?_
    | with_reducible refine (stallRecord_clr M hrg hci hout _ _ _ _ _ _ _ ).trans ?_
    | with_reducible refine (sendFrom_clr M hnt _ _ _ _ _ ).trans ?_ | with_reducible refine (raise_clr M hrg hft _ _ _ _ _ _ ).trans ?_
    | with_reducible refine (takeSeq_clr M hci _ _ _ ).trans ?_ | with_reducible refine (doIf_clr M _ _ _ ?_).trans ?_
    | with_reducible refine (foldl_clr M _ _ _ ?_).trans ?_ | intro _ | dsimp only

theorem descStall_clr (M : Mask) (hrg : M.rg = true) (hnt : M.nt = true) (hmp : M.mp = true) (hci : M.ci = true) (hft : M.ft = true) (hout : M.out = true) (a0 : ℕ) (a1 : ℕ) (a2 : ℕ) (a3 : Desc) (a4 : State)  :
    (descStall a0 a1 a2 a3 a4).clr M = a4.clr M := by
  unfold descStall
  repeat' first
    | with_reducible rfl | split | with_reducible refine (finishDesc_clr M hrg hnt hmp hci hout _ _ _ _ _ ).trans ?_
    | with_reducible refine (noteStall_clr M hrg hnt hci hft hout _ _ _ _ _ _ _ _ _ ).trans ?_
    | with_reducible refine (modDesc_clr M hci _ _ _ _ _ ).trans ?_ | with_reducible refine (foldl_clr M _ _ _ ?_).trans ?_ | intro _
    | dsimp only

theorem leaveQueues_clr (M : Mask) (hci : M.ci = true) (a0 : ℕ) (a1 : ℕ) (a2 : ℕ) (a3 : State)  :
    (leaveQueues a0 a1 a2 a3).clr M = a3.clr M := by
  unfold leaveQueues
  repeat' first
    | with_reducible rfl | split | with_reducible refine (modQueue_clr M hci _ _ _ _ _ ).trans ?_
    | with_reducible refine (forEach_clr M _ _ _ ?_).trans ?_ | with_reducible refine (foldl_clr M _ _ _ ?_).trans ?_ | intro _
    | dsimp only

theorem streamStall_clr (M : Mask) (hrg : M.rg = true) (hnt : M.nt = true) (hci : M.ci = true) (hft : M.ft = true) (hout : M.out = true) (a0 : ℕ) (a1 : ℕ) (a2 : ℕ) (a3 : Stream) (a4 : State)  :
    (streamStall a0 a1 a2 a3 a4).clr M = a4.clr M := by
  unfold streamStall
  repeat' first
    | with_reducible rfl | split | with_reducible refine (leaveQueues_clr M hci _ _ _ _ ).trans ?_
    | with_reducible refine (modCip_clr M hci _ _ _ _ ).trans ?_
    | with_reducible refine (endStream_clr M hci hout _ _ _ _ _ _ ).trans ?_
    | with_reducible refine (noteStall_clr M hrg hnt hci hft hout _ _ _ _ _ _ _ _ _ ).trans ?_
    | with_reducible refine (foldl_clr M _ _ _ ?_).trans ?_ | intro _ | dsimp only

theorem creditStalled_clr (M : Mask) (hrg : M.rg = true) (hnt : M.nt = true) (hmp : M.mp = true) (hci : M.ci = true) (hft : M.ft = true) (hout : M.out = true) (a0 : ℕ) (a1 : ℕ) (a2 : ℕ) (a3 : State)  :
    (creditStalled a0 a1 a2 a3).clr M = a3.clr M := by
  unfold creditStalled
  repeat' first
    | with_reducible rfl | split | with_reducible refine (descStall_clr M hrg hnt hmp hci hft hout _ _ _ _ _ ).trans ?_
    | with_reducible refine (streamStall_clr M hrg hnt hci hft hout _ _ _ _ _ ).trans ?_
    | with_reducible refine (foldl_clr M _ _ _ ?_).trans ?_ | intro _ | dsimp only

theorem idleReturn_clr (M : Mask) (hnt : M.nt = true) (hci : M.ci = true) (a0 : ℕ) (a1 : ℕ) (a2 : ℕ) (a3 : State)  :
    (idleReturn a0 a1 a2 a3).clr M = a3.clr M := by
  unfold idleReturn
  repeat' first
    | with_reducible rfl | split | with_reducible refine (freeCache_clr M hnt hci _ _ _ _ ).trans ?_
    | with_reducible refine (foldl_clr M _ _ _ ?_).trans ?_ | intro _ | dsimp only

theorem resumeLocal_clr (M : Mask) (hrg : M.rg = true) (hnt : M.nt = true) (hmp : M.mp = true) (hdr : M.dr = true) (hci : M.ci = true) (hbk : M.bk = true) (hout : M.out = true) (a0 : ℕ) (a1 : ℕ) (a2 : ℕ) (a3 : State)  :
    (resumeLocal a0 a1 a2 a3).clr M = a3.clr M := by
  unfold resumeLocal
  repeat' first
    | with_reducible rfl | split | with_reducible refine (admitPost_clr M hrg hnt hmp hdr hci hout _ _ _ _ _ _ ).trans ?_
    | with_reducible refine (armEntry_clr M hbk _ _ _ _ _ _ _ ).trans ?_
    | with_reducible refine (modQueue_clr M hci _ _ _ _ _ ).trans ?_
    | with_reducible refine (endStream_clr M hci hout _ _ _ _ _ _ ).trans ?_ | with_reducible refine (foldl_clr M _ _ _ ?_).trans ?_
    | intro _ | dsimp only

theorem serveQueue_clr (M : Mask) (hrg : M.rg = true) (hnt : M.nt = true) (hmp : M.mp = true) (hdr : M.dr = true) (hci : M.ci = true) (hbk : M.bk = true) (hout : M.out = true) (a0 : ℕ) (a1 : ℕ) (a2 : ℕ) (a3 : ℕ) (a4 : State)  :
    (serveQueue a0 a1 a2 a3 a4).clr M = a4.clr M := by
  induction a3 generalizing a4 with
  | zero => rfl
  | succ _ ih =>
    unfold serveQueue
    repeat' first
      | with_reducible rfl | split | with_reducible refine (ih _).trans ?_
      | with_reducible refine (resumeLocal_clr M hrg hnt hmp hdr hci hbk hout _ _ _ _ ).trans ?_
      | with_reducible refine (modQueue_clr M hci _ _ _ _ _ ).trans ?_
      | with_reducible refine (grantCredits_clr M hnt hci _ _ _ _ _ ).trans ?_ | with_reducible refine (foldl_clr M _ _ _ ?_).trans ?_
      | intro _ | dsimp only

theorem wakeStream_clr (M : Mask) (hrg : M.rg = true) (hnt : M.nt = true) (hci : M.ci = true) (hout : M.out = true) (a0 : ℕ) (a1 : ℕ) (a2 : ℕ) (a3 : State)  :
    (wakeStream a0 a1 a2 a3).clr M = a3.clr M := by
  unfold wakeStream
  repeat' first
    | with_reducible rfl | split | with_reducible refine (leaveQueues_clr M hci _ _ _ _ ).trans ?_
    | with_reducible refine (trySend_clr M hrg hnt hci hout _ _ _ _ _ _ _ _ ).trans ?_
    | with_reducible refine (endStream_clr M hci hout _ _ _ _ _ _ ).trans ?_
    | with_reducible refine (popEntry_clr M hci hout _ _ _ _ _ ).trans ?_ | with_reducible refine (foldl_clr M _ _ _ ?_).trans ?_
    | intro _ | dsimp only

theorem settleOnce_clr (M : Mask) (hrg : M.rg = true) (hnt : M.nt = true) (hmp : M.mp = true) (hdr : M.dr = true) (hci : M.ci = true) (hbk : M.bk = true) (hout : M.out = true) (a0 : ℕ) (a1 : ℕ) (a2 : State)  :
    (settleOnce a0 a1 a2).clr M = a2.clr M := by
  unfold settleOnce
  repeat' first
    | with_reducible rfl | split | with_reducible refine (wakeStream_clr M hrg hnt hci hout _ _ _ _ ).trans ?_
    | with_reducible refine (serveQueue_clr M hrg hnt hmp hdr hci hbk hout _ _ _ _ _ ).trans ?_
    | with_reducible refine (serveRing_clr M hnt hci hout _ _ _ _ _ ).trans ?_ | with_reducible refine (forEach_clr M _ _ _ ?_).trans ?_
    | with_reducible refine (foldl_clr M _ _ _ ?_).trans ?_ | intro _ | dsimp only

theorem settleLoop_clr (M : Mask) (hrg : M.rg = true) (hnt : M.nt = true) (hmp : M.mp = true) (hdr : M.dr = true) (hci : M.ci = true) (hbk : M.bk = true) (hout : M.out = true) (a0 : ℕ) (a1 : ℕ) (a2 : ℕ) (a3 : State)  :
    (settleLoop a0 a1 a2 a3).clr M = a3.clr M := by
  induction a2 generalizing a3 with
  | zero => rfl
  | succ _ ih =>
    unfold settleLoop
    repeat' first
      | with_reducible rfl | split | with_reducible refine (ih _).trans ?_
      | with_reducible refine (settleOnce_clr M hrg hnt hmp hdr hci hbk hout _ _ _ ).trans ?_
      | with_reducible refine (foldl_clr M _ _ _ ?_).trans ?_ | intro _ | dsimp only

theorem settleTile_clr (M : Mask) (hrg : M.rg = true) (hnt : M.nt = true) (hmp : M.mp = true) (hdr : M.dr = true) (hci : M.ci = true) (hbk : M.bk = true) (hout : M.out = true) (a0 : ℕ) (a1 : ℕ) (a2 : State)  :
    (settleTile a0 a1 a2).clr M = a2.clr M := by
  unfold settleTile
  repeat' first
    | with_reducible rfl | split | with_reducible refine (settleLoop_clr M hrg hnt hmp hdr hci hbk hout _ _ _ _ ).trans ?_
    | with_reducible refine (foldl_clr M _ _ _ ?_).trans ?_ | intro _ | dsimp only

theorem settleAll_clr (M : Mask) (hrg : M.rg = true) (hnt : M.nt = true) (hmp : M.mp = true) (hdr : M.dr = true) (hci : M.ci = true) (hbk : M.bk = true) (hout : M.out = true) (a0 : State)  :
    (settleAll a0).clr M = a0.clr M := by
  unfold settleAll
  repeat' first
    | with_reducible rfl | split | with_reducible refine (settleTile_clr M hrg hnt hmp hdr hci hbk hout _ _ _ ).trans ?_
    | with_reducible refine (forEach_clr M _ _ _ ?_).trans ?_ | with_reducible refine (foldl_clr M _ _ _ ?_).trans ?_ | intro _
    | dsimp only

theorem stallNoted_clr (M : Mask) (hrg : M.rg = true) (hci : M.ci = true) (hout : M.out = true) (a0 : ℕ) (a1 : ℕ) (a2 : Packet) (a3 : State)  :
    (stallNoted a0 a1 a2 a3).clr M = a3.clr M := by
  unfold stallNoted
  repeat' first
    | with_reducible rfl | split | with_reducible refine (modQueue_clr M hci _ _ _ _ _ ).trans ?_
    | with_reducible refine (stallRecord_clr M hrg hci hout _ _ _ _ _ _ _ ).trans ?_
    | with_reducible refine (foldl_clr M _ _ _ ?_).trans ?_ | intro _ | dsimp only

theorem cmIssue_clr (M : Mask) (hci : M.ci = true) (hout : M.out = true) (a0 : ℕ) (a1 : ℕ) (a2 : State)  :
    (cmIssue a0 a1 a2).clr M = a2.clr M := by
  unfold cmIssue
  repeat' first
    | with_reducible rfl | split | with_reducible refine (modCip_clr M hci _ _ _ _ ).trans ?_
    | with_reducible refine (emit_clr M hout _ _ ).trans ?_ | with_reducible refine (foldl_clr M _ _ _ ?_).trans ?_ | intro _
    | dsimp only

theorem cmRequest_clr (M : Mask) (hnt : M.nt = true) (hci : M.ci = true) (a0 : ℕ) (a1 : ℕ) (a2 : Packet) (a3 : State)  :
    (cmRequest a0 a1 a2 a3).clr M = a3.clr M := by
  unfold cmRequest
  repeat' first
    | with_reducible rfl | split | with_reducible refine (modCip_clr M hci _ _ _ _ ).trans ?_
    | with_reducible refine (replyStatus_clr M hnt _ _ _ _ _ _ ).trans ?_ | with_reducible refine (foldl_clr M _ _ _ ?_).trans ?_
    | intro _ | dsimp only

theorem memberWrote_clr (M : Mask) (hci : M.ci = true) (a0 : ℕ) (a1 : ℕ) (a2 : Packet) (a3 : State)  :
    (memberWrote a0 a1 a2 a3).clr M = a3.clr M := by
  unfold memberWrote
  repeat' first
    | with_reducible rfl | split | with_reducible refine (addAck_clr M hci _ _ _ _ _ _ _ _ ).trans ?_
    | with_reducible refine (foldl_clr M _ _ _ ?_).trans ?_ | intro _ | dsimp only

theorem cmRespond_clr (M : Mask) (hnt : M.nt = true) (hci : M.ci = true) (a0 : ℕ) (a1 : ℕ) (a2 : ℕ) (a3 : List Byte) (a4 : Bool) (a5 : State)  :
    (cmRespond a0 a1 a2 a3 a4 a5).clr M = a5.clr M := by
  unfold cmRespond
  repeat' first
    | with_reducible rfl | split | with_reducible refine (modCip_clr M hci _ _ _ _ ).trans ?_
    | with_reducible refine (replyStatus_clr M hnt _ _ _ _ _ _ ).trans ?_
    | with_reducible refine (memberWrote_clr M hci _ _ _ _ ).trans ?_ | with_reducible refine (sendFrom_clr M hnt _ _ _ _ _ ).trans ?_
    | with_reducible refine (reply_clr M hnt _ _ _ _ _ _ _ _ ).trans ?_ | with_reducible refine (foldl_clr M _ _ _ ?_).trans ?_
    | intro _ | dsimp only

theorem tallyRead_clr (M : Mask) (hnt : M.nt = true) (a0 : ℕ) (a1 : ℕ) (a2 : Packet) (a3 : State)  :
    (tallyRead a0 a1 a2 a3).clr M = a3.clr M := by
  unfold tallyRead
  repeat' first
    | with_reducible rfl | split | with_reducible refine (replyStatus_clr M hnt _ _ _ _ _ _ ).trans ?_
    | with_reducible refine (reply_clr M hnt _ _ _ _ _ _ _ _ ).trans ?_ | with_reducible refine (foldl_clr M _ _ _ ?_).trans ?_
    | intro _ | dsimp only

theorem memArrive_clr (M : Mask) (hnt : M.nt = true) (hmp : M.mp = true) (hci : M.ci = true) (a0 : ℕ) (a1 : ℕ) (a2 : Packet) (a3 : State)  :
    (memArrive a0 a1 a2 a3).clr M = a3.clr M := by
  unfold memArrive
  repeat' first
    | with_reducible rfl | split | with_reducible refine (tallyRead_clr M hnt _ _ _ _ ).trans ?_
    | with_reducible refine (replyStatus_clr M hnt _ _ _ _ _ _ ).trans ?_
    | with_reducible refine (cmRequest_clr M hnt hci _ _ _ _ ).trans ?_
    | with_reducible refine (mpRequest_clr M hnt hmp _ _ _ _ ).trans ?_
    | with_reducible refine (served_clr M hnt _ _ _ _ _ _ ?_).trans ?_ | with_reducible refine (foldl_clr M _ _ _ ?_).trans ?_ | intro _
    | dsimp only

theorem mpAnswer_clr (M : Mask) (hrg : M.rg = true) (hnt : M.nt = true) (hmp : M.mp = true) (hci : M.ci = true) (hty : M.ty = true) (hft : M.ft = true) (hout : M.out = true) (a0 : ℕ) (a1 : ℕ) (a2 : ℕ) (a3 : List Byte) (a4 : Bool) (a5 : State)  :
    (mpAnswer a0 a1 a2 a3 a4 a5).clr M = a5.clr M := by
  unfold mpAnswer
  repeat' first
    | with_reducible rfl | split | with_reducible refine (pieceRead_clr M hrg hnt hmp hci hty hft hout _ _ _ _ _ ).trans ?_
    | with_reducible refine (modMp_clr M hmp _ _ _ _ ).trans ?_
    | with_reducible refine (mpRespond_clr M hrg hnt hmp hft _ _ _ _ _ _ ).trans ?_
    | with_reducible refine (foldl_clr M _ _ _ ?_).trans ?_ | intro _ | dsimp only

theorem cipAnswer_clr (M : Mask) (hrg : M.rg = true) (hnt : M.nt = true) (hmp : M.mp = true) (hdr : M.dr = true) (hci : M.ci = true) (hbk : M.bk = true) (hout : M.out = true) (a0 : ℕ) (a1 : ℕ) (a2 : Packet) (a3 : State → State) (a4 : State) (hf3 : ∀ x0, (a3 x0).clr M = x0.clr M) :
    (cipAnswer a0 a1 a2 a3 a4).clr M = a4.clr M := by
  unfold cipAnswer
  repeat' first
    | with_reducible rfl | split | with_reducible refine (settleTile_clr M hrg hnt hmp hdr hci hbk hout _ _ _ ).trans ?_
    | with_reducible refine (cipCount_clr M hrg _ _ _ _ ).trans ?_ | with_reducible refine (consume_clr M hnt _ _ _ _ ).trans ?_
    | with_reducible refine (foldl_clr M _ _ _ ?_).trans ?_ | with_reducible refine (hf3 _).trans ?_
    | with_reducible refine (hf3 _ _).trans ?_ | with_reducible refine (hf3 _ _ _).trans ?_ | intro _ | dsimp only

theorem cipDo_clr (M : Mask) (hrg : M.rg = true) (hnt : M.nt = true) (hmp : M.mp = true) (hdr : M.dr = true) (hci : M.ci = true) (hbk : M.bk = true) (hout : M.out = true) (a0 : CipHdr) (a1 : Instr) (a2 : State → State) (a3 : State) (hf2 : ∀ x0, (a2 x0).clr M = x0.clr M) :
    (cipDo a0 a1 a2 a3).clr M = a3.clr M := by
  unfold cipDo
  repeat' first
    | with_reducible rfl | split | with_reducible refine (settleTile_clr M hrg hnt hmp hdr hci hbk hout _ _ _ ).trans ?_
    | with_reducible refine (cipCmd_clr M hrg hci hout _ _ _ _ ?_).trans ?_ | with_reducible refine (foldl_clr M _ _ _ ?_).trans ?_
    | with_reducible refine (hf2 _).trans ?_ | with_reducible refine (hf2 _ _).trans ?_ | with_reducible refine (hf2 _ _ _).trans ?_
    | intro _ | dsimp only

theorem cipPacket_clr (M : Mask) (hrg : M.rg = true) (hnt : M.nt = true) (hmp : M.mp = true) (hdr : M.dr = true) (hci : M.ci = true) (hbk : M.bk = true) (hout : M.out = true) (a0 : ℕ) (a1 : ℕ) (a2 : Packet) (a3 : State → State) (a4 : State) (hf3 : ∀ x0, (a3 x0).clr M = x0.clr M) :
    (cipPacket a0 a1 a2 a3 a4).clr M = a4.clr M := by
  unfold cipPacket
  repeat' first
    | with_reducible rfl | split | with_reducible refine (settleTile_clr M hrg hnt hmp hdr hci hbk hout _ _ _ ).trans ?_
    | with_reducible refine (served_clr M hnt _ _ _ _ _ _ ?_).trans ?_ | with_reducible refine (foldl_clr M _ _ _ ?_).trans ?_
    | with_reducible refine (hf3 _).trans ?_ | with_reducible refine (hf3 _ _).trans ?_ | with_reducible refine (hf3 _ _ _).trans ?_
    | intro _ | dsimp only

theorem fetchDone_clr (M : Mask) (hci : M.ci = true) (hout : M.out = true) (a0 : ℕ) (a1 : ℕ) (a2 : ℕ) (a3 : BitVec 16) (a4 : ℕ) (a5 : List Byte) (a6 : State)  :
    (fetchDone a0 a1 a2 a3 a4 a5 a6).clr M = a6.clr M := by
  unfold fetchDone
  repeat' first
    | with_reducible rfl | split | with_reducible refine (modCip_clr M hci _ _ _ _ ).trans ?_
    | with_reducible refine (emit_clr M hout _ _ ).trans ?_ | with_reducible refine (foldl_clr M _ _ _ ?_).trans ?_ | intro _
    | dsimp only

theorem readAnswered_clr (M : Mask) (hrg : M.rg = true) (hnt : M.nt = true) (hmp : M.mp = true) (hdr : M.dr = true) (hse : M.se = true) (hci : M.ci = true) (hty : M.ty = true) (hft : M.ft = true) (hout : M.out = true) (a0 : ℕ) (a1 : ℕ) (a2 : Packet) (a3 : ℕ) (a4 : List Byte) (a5 : State)  :
    (readAnswered a0 a1 a2 a3 a4 a5).clr M = a5.clr M := by
  unfold readAnswered
  repeat' first
    | with_reducible rfl | split | with_reducible refine (rawData_clr M hnt hse _ _ _ _ _ _ ).trans ?_
    | with_reducible refine (fetchDone_clr M hci hout _ _ _ _ _ _ _ ).trans ?_
    | with_reducible refine (pieceRead_clr M hrg hnt hmp hci hty hft hout _ _ _ _ _ ).trans ?_
    | with_reducible refine (psAnswer_clr M hrg hdr _ _ _ _ _ _ ).trans ?_
    | with_reducible refine (descStatus_clr M hrg hnt hmp hci hout _ _ _ _ _ ).trans ?_
    | with_reducible refine (foldl_clr M _ _ _ ?_).trans ?_ | intro _ | dsimp only

theorem openStatus_clr (M : Mask) (hci : M.ci = true) (hout : M.out = true) (a0 : ℕ) (a1 : ℕ) (a2 : Packet) (a3 : ℕ) (a4 : State)  :
    (openStatus a0 a1 a2 a3 a4).clr M = a4.clr M := by
  unfold openStatus
  repeat' first
    | with_reducible rfl | split | with_reducible refine (cipRsp_clr M hout _ _ _ _ _ _ ).trans ?_
    | with_reducible refine (modCip_clr M hci _ _ _ _ ).trans ?_ | with_reducible refine (cqRelease_clr M hci _ _ _ _ _ ).trans ?_
    | with_reducible refine (foldl_clr M _ _ _ ?_).trans ?_ | intro _ | dsimp only

theorem groupOneStatus_clr (M : Mask) (hrg : M.rg = true) (hnt : M.nt = true) (hmp : M.mp = true) (hci : M.ci = true) (hout : M.out = true) (a0 : ℕ) (a1 : ℕ) (a2 : Packet) (a3 : ℕ) (a4 : State)  :
    (groupOneStatus a0 a1 a2 a3 a4).clr M = a4.clr M := by
  unfold groupOneStatus
  repeat' first
    | with_reducible rfl | split | with_reducible refine (freedAnswer_clr M hnt hci _ _ _ _ _ ).trans ?_
    | with_reducible refine (creditStatus_clr M hci hout _ _ _ _ _ ).trans ?_
    | with_reducible refine (addAnswered_clr M hci hout _ _ _ _ _ ).trans ?_
    | with_reducible refine (descStatus_clr M hrg hnt hmp hci hout _ _ _ _ _ ).trans ?_
    | with_reducible refine (foldl_clr M _ _ _ ?_).trans ?_ | intro _ | dsimp only

theorem cipStatus_clr (M : Mask) (hrg : M.rg = true) (hnt : M.nt = true) (hmp : M.mp = true) (hdr : M.dr = true) (hse : M.se = true) (hci : M.ci = true) (hty : M.ty = true) (hft : M.ft = true) (hout : M.out = true) (a0 : ℕ) (a1 : ℕ) (a2 : Packet) (a3 : State)  :
    (cipStatus a0 a1 a2 a3).clr M = a3.clr M := by
  unfold cipStatus
  repeat' first
    | with_reducible rfl | split | with_reducible refine (readAnswered_clr M hrg hnt hmp hdr hse hci hty hft hout _ _ _ _ _ _ ).trans ?_
    | with_reducible refine (pegStatus_clr M hci hout _ _ _ _ _ ).trans ?_
    | with_reducible refine (openStatus_clr M hci hout _ _ _ _ _ ).trans ?_
    | with_reducible refine (groupOneStatus_clr M hrg hnt hmp hci hout _ _ _ _ _ ).trans ?_
    | with_reducible refine (foldl_clr M _ _ _ ?_).trans ?_ | intro _ | dsimp only

theorem doAdd_clr (M : Mask) (hrg : M.rg = true) (hnt : M.nt = true) (hmp : M.mp = true) (hdr : M.dr = true) (hci : M.ci = true) (hbk : M.bk = true) (hout : M.out = true) (a0 : CipHdr) (a1 : DWord) (a2 : ℕ) (a3 : Word) (a4 : State)  :
    (doAdd a0 a1 a2 a3 a4).clr M = a4.clr M := by
  unfold doAdd
  repeat' first
    | with_reducible rfl | split | with_reducible refine (cipDo_clr M hrg hnt hmp hdr hci hbk hout _ _ _ _ ?_).trans ?_
    | with_reducible refine (startAdd_clr M hrg hnt hci hout _ _ _ _ _ ).trans ?_
    | with_reducible refine (foldl_clr M _ _ _ ?_).trans ?_ | intro _ | dsimp only

theorem doBskArm_clr (M : Mask) (hrg : M.rg = true) (hnt : M.nt = true) (hmp : M.mp = true) (hdr : M.dr = true) (hci : M.ci = true) (hbk : M.bk = true) (hout : M.out = true) (a0 : CipHdr) (a1 : ℕ) (a2 : ℕ) (a3 : ℕ) (a4 : ℕ) (a5 : State)  :
    (doBskArm a0 a1 a2 a3 a4 a5).clr M = a5.clr M := by
  unfold doBskArm
  repeat' first
    | with_reducible rfl | split | with_reducible refine (cipDo_clr M hrg hnt hmp hdr hci hbk hout _ _ _ _ ?_).trans ?_
    | with_reducible refine (startArm_clr M hrg hci hbk hout _ _ _ _ _ _ ).trans ?_
    | with_reducible refine (foldl_clr M _ _ _ ?_).trans ?_ | intro _ | dsimp only

theorem doDbWait_clr (M : Mask) (hrg : M.rg = true) (hnt : M.nt = true) (hmp : M.mp = true) (hdr : M.dr = true) (hci : M.ci = true) (hbk : M.bk = true) (hout : M.out = true) (a0 : CipHdr) (a1 : ℕ) (a2 : Word) (a3 : State)  :
    (doDbWait a0 a1 a2 a3).clr M = a3.clr M := by
  unfold doDbWait
  repeat' first
    | with_reducible rfl | split | with_reducible refine (startDbWait_clr M hrg hci hout _ _ _ _ ).trans ?_
    | with_reducible refine (cipDo_clr M hrg hnt hmp hdr hci hbk hout _ _ _ _ ?_).trans ?_
    | with_reducible refine (foldl_clr M _ _ _ ?_).trans ?_ | intro _ | dsimp only

theorem doDeferRead_clr (M : Mask) (hrg : M.rg = true) (hnt : M.nt = true) (hmp : M.mp = true) (hdr : M.dr = true) (hci : M.ci = true) (hbk : M.bk = true) (hout : M.out = true) (a0 : CipHdr) (a1 : State)  :
    (doDeferRead a0 a1).clr M = a1.clr M := by
  unfold doDeferRead
  repeat' first
    | with_reducible rfl | split | with_reducible refine (deferReadCmd_clr M hout _ _ ).trans ?_
    | with_reducible refine (cipDo_clr M hrg hnt hmp hdr hci hbk hout _ _ _ _ ?_).trans ?_
    | with_reducible refine (foldl_clr M _ _ _ ?_).trans ?_ | intro _ | dsimp only

theorem doPegAddCmd_clr (M : Mask) (hrg : M.rg = true) (hnt : M.nt = true) (hmp : M.mp = true) (hdr : M.dr = true) (hci : M.ci = true) (hbk : M.bk = true) (hout : M.out = true) (a0 : CipHdr) (a1 : DWord) (a2 : Word) (a3 : State)  :
    (doPegAddCmd a0 a1 a2 a3).clr M = a3.clr M := by
  unfold doPegAddCmd
  repeat' first
    | with_reducible rfl | split | with_reducible refine (cipDo_clr M hrg hnt hmp hdr hci hbk hout _ _ _ _ ?_).trans ?_
    | with_reducible refine (startPeg_clr M hrg hnt hci hout _ _ _ _ _ ).trans ?_
    | with_reducible refine (foldl_clr M _ _ _ ?_).trans ?_ | intro _ | dsimp only

theorem doPegArmCmd_clr (M : Mask) (hrg : M.rg = true) (hnt : M.nt = true) (hmp : M.mp = true) (hdr : M.dr = true) (hci : M.ci = true) (hbk : M.bk = true) (hout : M.out = true) (a0 : CipHdr) (a1 : DWord) (a2 : Word) (a3 : Bool) (a4 : State)  :
    (doPegArmCmd a0 a1 a2 a3 a4).clr M = a4.clr M := by
  unfold doPegArmCmd
  repeat' first
    | with_reducible rfl | split | with_reducible refine (cipDo_clr M hrg hnt hmp hdr hci hbk hout _ _ _ _ ?_).trans ?_
    | with_reducible refine (startPeg_clr M hrg hnt hci hout _ _ _ _ _ ).trans ?_
    | with_reducible refine (foldl_clr M _ _ _ ?_).trans ?_ | intro _ | dsimp only

theorem doPegReadCmd_clr (M : Mask) (hrg : M.rg = true) (hnt : M.nt = true) (hmp : M.mp = true) (hdr : M.dr = true) (hci : M.ci = true) (hbk : M.bk = true) (hout : M.out = true) (a0 : CipHdr) (a1 : DWord) (a2 : State)  :
    (doPegReadCmd a0 a1 a2).clr M = a2.clr M := by
  unfold doPegReadCmd
  repeat' first
    | with_reducible rfl | split | with_reducible refine (cipDo_clr M hrg hnt hmp hdr hci hbk hout _ _ _ _ ?_).trans ?_
    | with_reducible refine (startPeg_clr M hrg hnt hci hout _ _ _ _ _ ).trans ?_
    | with_reducible refine (foldl_clr M _ _ _ ?_).trans ?_ | intro _ | dsimp only

theorem doPegWaitCmd_clr (M : Mask) (hrg : M.rg = true) (hnt : M.nt = true) (hmp : M.mp = true) (hdr : M.dr = true) (hci : M.ci = true) (hbk : M.bk = true) (hout : M.out = true) (a0 : CipHdr) (a1 : DWord) (a2 : Word) (a3 : State)  :
    (doPegWaitCmd a0 a1 a2 a3).clr M = a3.clr M := by
  unfold doPegWaitCmd
  repeat' first
    | with_reducible rfl | split | with_reducible refine (cipDo_clr M hrg hnt hmp hdr hci hbk hout _ _ _ _ ?_).trans ?_
    | with_reducible refine (startPeg_clr M hrg hnt hci hout _ _ _ _ _ ).trans ?_
    | with_reducible refine (foldl_clr M _ _ _ ?_).trans ?_ | intro _ | dsimp only

theorem doPost_clr (M : Mask) (hrg : M.rg = true) (hnt : M.nt = true) (hmp : M.mp = true) (hdr : M.dr = true) (hci : M.ci = true) (hbk : M.bk = true) (hout : M.out = true) (a0 : CipHdr) (a1 : Instr) (a2 : List Byte) (a3 : State)  :
    (doPost a0 a1 a2 a3).clr M = a3.clr M := by
  unfold doPost
  repeat' first
    | with_reducible rfl | split | with_reducible refine (cipDo_clr M hrg hnt hmp hdr hci hbk hout _ _ _ _ ?_).trans ?_
    | with_reducible refine (startPost_clr M hrg hnt hmp hdr hci hout _ _ _ ).trans ?_
    | with_reducible refine (foldl_clr M _ _ _ ?_).trans ?_ | intro _ | dsimp only

theorem doRecv_clr (M : Mask) (hrg : M.rg = true) (hnt : M.nt = true) (hmp : M.mp = true) (hdr : M.dr = true) (hci : M.ci = true) (hbk : M.bk = true) (hout : M.out = true) (a0 : CipHdr) (a1 : ℕ) (a2 : Bool) (a3 : State)  :
    (doRecv a0 a1 a2 a3).clr M = a3.clr M := by
  unfold doRecv
  repeat' first
    | with_reducible rfl | split | with_reducible refine (startRecv_clr M hrg hci hout _ _ _ _ ).trans ?_
    | with_reducible refine (cipDo_clr M hrg hnt hmp hdr hci hbk hout _ _ _ _ ?_).trans ?_
    | with_reducible refine (foldl_clr M _ _ _ ?_).trans ?_ | intro _ | dsimp only

theorem doRingFree_clr (M : Mask) (hrg : M.rg = true) (hnt : M.nt = true) (hmp : M.mp = true) (hdr : M.dr = true) (hci : M.ci = true) (hbk : M.bk = true) (hout : M.out = true) (a0 : CipHdr) (a1 : ℕ) (a2 : DWord) (a3 : State)  :
    (doRingFree a0 a1 a2 a3).clr M = a3.clr M := by
  unfold doRingFree
  repeat' first
    | with_reducible rfl | split | with_reducible refine (ringFree_clr M hnt hci hout _ _ _ _ ).trans ?_
    | with_reducible refine (cipDo_clr M hrg hnt hmp hdr hci hbk hout _ _ _ _ ?_).trans ?_
    | with_reducible refine (foldl_clr M _ _ _ ?_).trans ?_ | intro _ | dsimp only

theorem doRingWait_clr (M : Mask) (hrg : M.rg = true) (hnt : M.nt = true) (hmp : M.mp = true) (hdr : M.dr = true) (hci : M.ci = true) (hbk : M.bk = true) (hout : M.out = true) (a0 : CipHdr) (a1 : ℕ) (a2 : State)  :
    (doRingWait a0 a1 a2).clr M = a2.clr M := by
  unfold doRingWait
  repeat' first
    | with_reducible rfl | split | with_reducible refine (cipDo_clr M hrg hnt hmp hdr hci hbk hout _ _ _ _ ?_).trans ?_
    | with_reducible refine (startRingWait_clr M hrg hci hout _ _ _ ).trans ?_ | with_reducible refine (foldl_clr M _ _ _ ?_).trans ?_
    | intro _ | dsimp only

theorem doSend_clr (M : Mask) (hrg : M.rg = true) (hnt : M.nt = true) (hmp : M.mp = true) (hdr : M.dr = true) (hci : M.ci = true) (hbk : M.bk = true) (hout : M.out = true) (a0 : CipHdr) (a1 : DWord) (a2 : ℕ) (a3 : List Byte) (a4 : State)  :
    (doSend a0 a1 a2 a3 a4).clr M = a4.clr M := by
  unfold doSend
  repeat' first
    | with_reducible rfl | split | with_reducible refine (startSend_clr M hrg hnt hci hout _ _ _ _ _ ).trans ?_
    | with_reducible refine (cipDo_clr M hrg hnt hmp hdr hci hbk hout _ _ _ _ ?_).trans ?_
    | with_reducible refine (foldl_clr M _ _ _ ?_).trans ?_ | intro _ | dsimp only

theorem failStreams_clr (M : Mask) (hci : M.ci = true) (hout : M.out = true) (a0 : ℕ) (a1 : ℕ) (a2 : ℕ → Bool) (a3 : ℕ) (a4 : State)  :
    (failStreams a0 a1 a2 a3 a4).clr M = a4.clr M := by
  unfold failStreams
  repeat' first
    | with_reducible rfl | split | with_reducible refine (cipRsp_clr M hout _ _ _ _ _ _ ).trans ?_
    | with_reducible refine (leaveQueues_clr M hci _ _ _ _ ).trans ?_ | with_reducible refine (modCip_clr M hci _ _ _ _ ).trans ?_
    | with_reducible refine (endStream_clr M hci hout _ _ _ _ _ _ ).trans ?_ | with_reducible refine (forEach_clr M _ _ _ ?_).trans ?_
    | with_reducible refine (foldl_clr M _ _ _ ?_).trans ?_ | intro _ | dsimp only

theorem failBlocked_clr (M : Mask) (hci : M.ci = true) (hout : M.out = true) (a0 : ℕ) (a1 : ℕ) (a2 : ℕ) (a3 : State)  :
    (failBlocked a0 a1 a2 a3).clr M = a3.clr M := by
  unfold failBlocked
  repeat' first
    | with_reducible rfl | split | with_reducible refine (failStreams_clr M hci hout _ _ _ _ _ ).trans ?_
    | with_reducible refine (foldl_clr M _ _ _ ?_).trans ?_ | intro _ | dsimp only

theorem failRequests_clr (M : Mask) (hrg : M.rg = true) (hnt : M.nt = true) (hdr : M.dr = true) (hse : M.se = true) (hci : M.ci = true) (hout : M.out = true) (a0 : ℕ) (a1 : ℕ) (a2 : ℕ) (a3 : State)  :
    (failRequests a0 a1 a2 a3).clr M = a3.clr M := by
  unfold failRequests
  repeat' first
    | with_reducible rfl | split | with_reducible refine (closeDesc_clr M hrg hci hout _ _ _ _ _ ).trans ?_
    | with_reducible refine (rawData_clr M hnt hse _ _ _ _ _ _ ).trans ?_
    | with_reducible refine (fetchDone_clr M hci hout _ _ _ _ _ _ _ ).trans ?_
    | with_reducible refine (psAnswer_clr M hrg hdr _ _ _ _ _ _ ).trans ?_ | with_reducible refine (forEach_clr M _ _ _ ?_).trans ?_
    | with_reducible refine (foldl_clr M _ _ _ ?_).trans ?_ | intro _ | dsimp only

theorem marked_clr (M : Mask)  (a0 : Packet) (a1 : State → State) (a2 : State → State) (a3 : State) (hf1 : ∀ x0, (a1 x0).clr M = x0.clr M) (hf2 : ∀ x0, (a2 x0).clr M = x0.clr M) :
    (marked a0 a1 a2 a3).clr M = a3.clr M := by
  unfold marked
  repeat' first
    | with_reducible rfl | split | with_reducible refine (foldl_clr M _ _ _ ?_).trans ?_ | with_reducible refine (hf1 _).trans ?_
    | with_reducible refine (hf1 _ _).trans ?_ | with_reducible refine (hf1 _ _ _).trans ?_ | with_reducible refine (hf2 _).trans ?_
    | with_reducible refine (hf2 _ _).trans ?_ | with_reducible refine (hf2 _ _ _).trans ?_ | intro _ | dsimp only

theorem mcAckAt_clr (M : Mask) (hrg : M.rg = true) (hnt : M.nt = true) (hmp : M.mp = true) (hdr : M.dr = true) (hci : M.ci = true) (hbk : M.bk = true) (hlk : M.lk = true) (hout : M.out = true) (a0 : ℕ) (a1 : ℕ) (a2 : Packet) (a3 : State)  :
    (mcAckAt a0 a1 a2 a3).clr M = a3.clr M := by
  unfold mcAckAt
  repeat' first
    | with_reducible rfl | split | with_reducible refine (cipPacket_clr M hrg hnt hmp hdr hci hbk hout _ _ _ _ _ ?_).trans ?_
    | with_reducible refine (mergeAck_clr M hrg hnt hci hlk hout _ _ _ _ ).trans ?_
    | with_reducible refine (ackArrive_clr M hrg hnt hmp hci hout _ _ _ _ ).trans ?_
    | with_reducible refine (foldl_clr M _ _ _ ?_).trans ?_ | intro _ | dsimp only

theorem runCip_clr (M : Mask) (hrg : M.rg = true) (hnt : M.nt = true) (hmp : M.mp = true) (hdr : M.dr = true) (hci : M.ci = true) (hbk : M.bk = true) (hout : M.out = true) (a0 : Instr) (a1 : State)  :
    (runCip a0 a1).clr M = a1.clr M := by
  unfold runCip
  repeat' first
    | with_reducible rfl | split | with_reducible refine (doRingFree_clr M hrg hnt hmp hdr hci hbk hout _ _ _ _ ).trans ?_
    | with_reducible refine (doPegWaitCmd_clr M hrg hnt hmp hdr hci hbk hout _ _ _ _ ).trans ?_
    | with_reducible refine (doSend_clr M hrg hnt hmp hdr hci hbk hout _ _ _ _ _ ).trans ?_
    | with_reducible refine (doBskArm_clr M hrg hnt hmp hdr hci hbk hout _ _ _ _ _ _ ).trans ?_
    | with_reducible refine (doDeferRead_clr M hrg hnt hmp hdr hci hbk hout _ _ ).trans ?_
    | with_reducible refine (doRingWait_clr M hrg hnt hmp hdr hci hbk hout _ _ _ ).trans ?_
    | with_reducible refine (doAdd_clr M hrg hnt hmp hdr hci hbk hout _ _ _ _ _ ).trans ?_
    | with_reducible refine (doPegArmCmd_clr M hrg hnt hmp hdr hci hbk hout _ _ _ _ _ ).trans ?_
    | with_reducible refine (doDbWait_clr M hrg hnt hmp hdr hci hbk hout _ _ _ _ ).trans ?_
    | with_reducible refine (doPost_clr M hrg hnt hmp hdr hci hbk hout _ _ _ _ ).trans ?_
    | with_reducible refine (doPegAddCmd_clr M hrg hnt hmp hdr hci hbk hout _ _ _ _ ).trans ?_
    | with_reducible refine (doPegReadCmd_clr M hrg hnt hmp hdr hci hbk hout _ _ _ ).trans ?_
    | with_reducible refine (doRecv_clr M hrg hnt hmp hdr hci hbk hout _ _ _ _ ).trans ?_
    | with_reducible refine (foldl_clr M _ _ _ ?_).trans ?_ | intro _ | dsimp only

theorem resumePaused_clr (M : Mask) (hrg : M.rg = true) (hnt : M.nt = true) (hmp : M.mp = true) (hdr : M.dr = true) (hci : M.ci = true) (hbk : M.bk = true) (hout : M.out = true) (a0 : ℕ) (a1 : ℕ) (a2 : State)  :
    (resumePaused a0 a1 a2).clr M = a2.clr M := by
  unfold resumePaused
  repeat' first
    | with_reducible rfl | split | with_reducible refine (modCip_clr M hci _ _ _ _ ).trans ?_
    | with_reducible refine (runCip_clr M hrg hnt hmp hdr hci hbk hout _ _ ).trans ?_
    | with_reducible refine (forEach_clr M _ _ _ ?_).trans ?_ | with_reducible refine (foldl_clr M _ _ _ ?_).trans ?_ | intro _
    | dsimp only

theorem startFetch_clr (M : Mask) (hnt : M.nt = true) (hci : M.ci = true) (hout : M.out = true) (a0 : CipHdr) (a1 : DWord) (a2 : State)  :
    (startFetch a0 a1 a2).clr M = a2.clr M := by
  unfold startFetch
  repeat' first
    | with_reducible rfl | split | with_reducible refine (modCip_clr M hci _ _ _ _ ).trans ?_
    | with_reducible refine (emit_clr M hout _ _ ).trans ?_ | with_reducible refine (sendFrom_clr M hnt _ _ _ _ _ ).trans ?_
    | with_reducible refine (takeSeq_clr M hci _ _ _ ).trans ?_ | with_reducible refine (foldl_clr M _ _ _ ?_).trans ?_ | intro _
    | dsimp only

theorem writeAnswered_clr (M : Mask) (hrg : M.rg = true) (hnt : M.nt = true) (hmp : M.mp = true) (hci : M.ci = true) (hout : M.out = true) (a0 : ℕ) (a1 : ℕ) (a2 : Packet) (a3 : State)  :
    (writeAnswered a0 a1 a2 a3).clr M = a3.clr M := by
  unfold writeAnswered
  repeat' first
    | with_reducible rfl | split | with_reducible refine (finishDesc_clr M hrg hnt hmp hci hout _ _ _ _ _ ).trans ?_
    | with_reducible refine (pieceWritten_clr M hrg hnt hmp hci hout _ _ _ _ ).trans ?_
    | with_reducible refine (foldl_clr M _ _ _ ?_).trans ?_ | intro _ | dsimp only

end Sys2Proof.Machine
end

