-- ==== Sys2Proof/Laws/FrameLink.lean ====
section
/-! SUPPORT. What each operation of Links, Optical, Faults leaves unchanged: a state after it agrees with the state before outside
the parts it may change. -/
set_option linter.unusedTactic false
set_option linter.unreachableTactic false
set_option linter.unusedVariables false
set_option linter.unusedSimpArgs false

namespace Sys2Proof.Machine

theorem acked_clr (M : Mask) (hlk : M.lk = true) (a0 : ℕ) (a1 : ℕ) (a2 : ℕ) (a3 : State)  :
    (acked a0 a1 a2 a3).clr M = a3.clr M := by
  unfold acked
  repeat' first
    | with_reducible rfl | split | with_reducible refine (modLink_clr M hlk _ _ _ _ ).trans ?_
    | with_reducible refine (foldl_clr M _ _ _ ?_).trans ?_ | intro _ | dsimp only

theorem linkFault_clr (M : Mask) (hrg : M.rg = true) (hft : M.ft = true) (a0 : ℕ) (a1 : ℕ) (a2 : ℕ) (a3 : State)  :
    (linkFault a0 a1 a2 a3).clr M = a3.clr M := by
  unfold linkFault
  repeat' first
    | with_reducible rfl | split | with_reducible refine (raise_clr M hrg hft _ _ _ _ _ _ ).trans ?_
    | with_reducible refine (foldl_clr M _ _ _ ?_).trans ?_ | intro _ | dsimp only

theorem replaySend_clr (M : Mask) (hout : M.out = true) (a0 : ℕ) (a1 : ℕ) (a2 : List TxFrame) (a3 : State)  :
    (replaySend a0 a1 a2 a3).clr M = a3.clr M := by
  unfold replaySend
  repeat' first
    | with_reducible rfl | split | with_reducible refine (putFrame_clr M hout _ _ _ _ ).trans ?_
    | with_reducible refine (forEach_clr M _ _ _ ?_).trans ?_ | with_reducible refine (foldl_clr M _ _ _ ?_).trans ?_ | intro _
    | dsimp only

theorem retrain_clr (M : Mask) (hrg : M.rg = true) (hlk : M.lk = true) (a0 : ℕ) (a1 : ℕ) (a2 : State)  :
    (retrain a0 a1 a2).clr M = a2.clr M := by
  unfold retrain
  repeat' first
    | with_reducible rfl | split | with_reducible refine (modLink_clr M hlk _ _ _ _ ).trans ?_
    | with_reducible refine (addCount_clr M hrg _ _ _ _ _ ).trans ?_ | with_reducible refine (foldl_clr M _ _ _ ?_).trans ?_ | intro _
    | dsimp only

theorem answerNak_clr (M : Mask) (hrg : M.rg = true) (hlk : M.lk = true) (hft : M.ft = true) (hout : M.out = true) (a0 : ℕ) (a1 : ℕ) (a2 : ℕ) (a3 : Bool) (a4 : State)  :
    (answerNak a0 a1 a2 a3 a4).clr M = a4.clr M := by
  unfold answerNak
  repeat' first
    | with_reducible rfl | split | with_reducible refine (linkFault_clr M hrg hft _ _ _ _ ).trans ?_
    | with_reducible refine (addCount_clr M hrg _ _ _ _ _ ).trans ?_ | with_reducible refine (replaySend_clr M hout _ _ _ _ ).trans ?_
    | with_reducible refine (retrain_clr M hrg hlk _ _ _ ).trans ?_ | with_reducible refine (foldl_clr M _ _ _ ?_).trans ?_ | intro _
    | dsimp only

theorem echoArrive_clr (M : Mask) (hlk : M.lk = true) (hout : M.out = true) (hfresh : M.fresh = true) (a0 : ℕ) (a1 : ℕ) (a2 : Bool) (a3 : Word) (a4 : State)  :
    (echoArrive a0 a1 a2 a3 a4).clr M = a4.clr M := by
  unfold echoArrive
  repeat' first
    | with_reducible rfl | split | with_reducible refine (freshen_clr M hfresh _ ).trans ?_
    | with_reducible refine (modLink_clr M hlk _ _ _ _ ).trans ?_ | with_reducible refine (sendSym_clr M hlk hout _ _ _ _ _ ).trans ?_
    | with_reducible refine (foldl_clr M _ _ _ ?_).trans ?_ | intro _ | dsimp only

theorem echoAsk_clr (M : Mask) (hlk : M.lk = true) (hout : M.out = true) (a0 : ℕ) (a1 : ℕ) (a2 : State)  :
    (echoAsk a0 a1 a2).clr M = a2.clr M := by
  unfold echoAsk
  repeat' first
    | with_reducible rfl | split | with_reducible refine (sendSym_clr M hlk hout _ _ _ _ _ ).trans ?_
    | with_reducible refine (foldl_clr M _ _ _ ?_).trans ?_ | intro _ | dsimp only

theorem setEgress_clr (M : Mask) (hrg : M.rg = true) (a0 : ℕ) (a1 : ℕ) (a2 : Word) (a3 : State)  :
    (setEgress a0 a1 a2 a3).clr M = a3.clr M := by
  unfold setEgress
  repeat' first
    | with_reducible rfl | split | with_reducible refine (setReg_clr M hrg _ _ _ _ _ _ ).trans ?_
    | with_reducible refine (forEach_clr M _ _ _ ?_).trans ?_ | with_reducible refine (foldl_clr M _ _ _ ?_).trans ?_ | intro _
    | dsimp only

theorem egressInvalidate_clr (M : Mask) (hrg : M.rg = true) (a0 : ℕ) (a1 : State)  :
    (egressInvalidate a0 a1).clr M = a1.clr M := by
  unfold egressInvalidate
  repeat' first
    | with_reducible rfl | split | with_reducible refine (setEgress_clr M hrg _ _ _ _ ).trans ?_
    | with_reducible refine (foldl_clr M _ _ _ ?_).trans ?_ | intro _ | dsimp only

theorem fecWindow_clr (M : Mask) (hrg : M.rg = true) (hft : M.ft = true) (a0 : ℕ) (a1 : ℕ) (a2 : State)  :
    (fecWindow a0 a1 a2).clr M = a2.clr M := by
  unfold fecWindow
  repeat' first
    | with_reducible rfl | split | with_reducible refine (linkFault_clr M hrg hft _ _ _ _ ).trans ?_
    | with_reducible refine (addCount_clr M hrg _ _ _ _ _ ).trans ?_ | with_reducible refine (foldl_clr M _ _ _ ?_).trans ?_ | intro _
    | dsimp only

theorem reinitCredits_clr (M : Mask) (hnt : M.nt = true) (a0 : ℕ) (a1 : ℕ) (a2 : State)  :
    (reinitCredits a0 a1 a2).clr M = a2.clr M := by
  unfold reinitCredits
  repeat' first
    | with_reducible rfl | split | with_reducible refine (forEach_clr M _ _ _ ?_).trans ?_ | simp only [upd_nt M hnt]
    | with_reducible refine (foldl_clr M _ _ _ ?_).trans ?_ | intro _ | dsimp only

theorem placeTracks_clr (M : Mask) (hrg : M.rg = true) (hnt : M.nt = true) (hlk : M.lk = true) (hft : M.ft = true) (a0 : ℕ) (a1 : ℕ) (a2 : ℕ) (a3 : State)  :
    (placeTracks a0 a1 a2 a3).clr M = a3.clr M := by
  unfold placeTracks
  repeat' first
    | with_reducible rfl | split | with_reducible refine (reinitCredits_clr M hnt _ _ _ ).trans ?_
    | with_reducible refine (linkFault_clr M hrg hft _ _ _ _ ).trans ?_ | with_reducible refine (modLink_clr M hlk _ _ _ _ ).trans ?_
    | with_reducible refine (forEach_clr M _ _ _ ?_).trans ?_
    | simp only [upd_nt M hnt, upd_ft M hft, upd_rg M hrg, upd_lk M hlk, upd_rg_nt M hrg hnt]
    | with_reducible refine (foldl_clr M _ _ _ ?_).trans ?_ | intro _ | dsimp only

theorem loseLink_clr (M : Mask) (hrg : M.rg = true) (hnt : M.nt = true) (hlk : M.lk = true) (hft : M.ft = true) (a0 : ℕ) (a1 : ℕ) (a2 : State)  :
    (loseLink a0 a1 a2).clr M = a2.clr M := by
  unfold loseLink
  repeat' first
    | with_reducible rfl | split | with_reducible refine (linkFault_clr M hrg hft _ _ _ _ ).trans ?_
    | with_reducible refine (modLink_clr M hlk _ _ _ _ ).trans ?_ | with_reducible refine (addCount_clr M hrg _ _ _ _ _ ).trans ?_
    | with_reducible refine (sendLoss_clr M hnt _ _ _ _ _ _ ).trans ?_ | with_reducible refine (forEach_clr M _ _ _ ?_).trans ?_
    | with_reducible refine (foldl_clr M _ _ _ ?_).trans ?_ | intro _ | dsimp only

theorem foldModule_clr (M : Mask) (hrg : M.rg = true) (hnt : M.nt = true) (hlk : M.lk = true) (hft : M.ft = true) (a0 : ℕ) (a1 : ℕ) (a2 : ℕ) (a3 : State)  :
    (foldModule a0 a1 a2 a3).clr M = a3.clr M := by
  unfold foldModule
  repeat' first
    | with_reducible rfl | split | with_reducible refine (linkFault_clr M hrg hft _ _ _ _ ).trans ?_
    | with_reducible refine (placeTracks_clr M hrg hnt hlk hft _ _ _ _ ).trans ?_
    | with_reducible refine (loseLink_clr M hrg hnt hlk hft _ _ _ ).trans ?_ | with_reducible refine (forEach_clr M _ _ _ ?_).trans ?_
    | simp only [upd_nt M hnt, upd_ft M hft, upd_rg M hrg, upd_lk M hlk, upd_rg_nt M hrg hnt]
    | with_reducible refine (foldl_clr M _ _ _ ?_).trans ?_ | intro _ | dsimp only

theorem foldModules_clr (M : Mask) (hrg : M.rg = true) (hnt : M.nt = true) (hlk : M.lk = true) (hft : M.ft = true) (a0 : State)  :
    (foldModules a0).clr M = a0.clr M := by
  unfold foldModules
  repeat' first
    | with_reducible rfl | split | with_reducible refine (foldModule_clr M hrg hnt hlk hft _ _ _ _ ).trans ?_
    | with_reducible refine (forEach_clr M _ _ _ ?_).trans ?_ | with_reducible refine (foldl_clr M _ _ _ ?_).trans ?_ | intro _
    | dsimp only

theorem holdLink_clr (M : Mask) (hrg : M.rg = true) (hlk : M.lk = true) (hft : M.ft = true) (a0 : ℕ) (a1 : ℕ) (a2 : ℕ) (a3 : ℕ) (a4 : State)  :
    (holdLink a0 a1 a2 a3 a4).clr M = a4.clr M := by
  unfold holdLink
  repeat' first
    | with_reducible rfl | split | with_reducible refine (linkFault_clr M hrg hft _ _ _ _ ).trans ?_
    | with_reducible refine (modLink_clr M hlk _ _ _ _ ).trans ?_ | with_reducible refine (foldl_clr M _ _ _ ?_).trans ?_ | intro _
    | dsimp only

theorem linkUp_clr (M : Mask) (hnt : M.nt = true) (hlk : M.lk = true) (hout : M.out = true) (a0 : ℕ) (a1 : ℕ) (a2 : State)  :
    (linkUp a0 a1 a2).clr M = a2.clr M := by
  unfold linkUp
  repeat' first
    | with_reducible rfl | split | with_reducible refine (reinitCredits_clr M hnt _ _ _ ).trans ?_
    | with_reducible refine (modLink_clr M hlk _ _ _ _ ).trans ?_ | with_reducible refine (replaySend_clr M hout _ _ _ _ ).trans ?_
    | with_reducible refine (foldl_clr M _ _ _ ?_).trans ?_ | intro _ | dsimp only

theorem moduleDecide_clr (M : Mask) (hrg : M.rg = true) (hnt : M.nt = true) (hlk : M.lk = true) (hft : M.ft = true) (hout : M.out = true) (a0 : ℕ) (a1 : ℕ) (a2 : State)  :
    (moduleDecide a0 a1 a2).clr M = a2.clr M := by
  unfold moduleDecide
  repeat' first
    | with_reducible rfl | split | with_reducible refine (holdLink_clr M hrg hlk hft _ _ _ _ _ ).trans ?_
    | with_reducible refine (linkUp_clr M hnt hlk hout _ _ _ ).trans ?_ | with_reducible refine (foldl_clr M _ _ _ ?_).trans ?_
    | intro _ | dsimp only

theorem identArrive_clr (M : Mask) (hrg : M.rg = true) (hnt : M.nt = true) (hlk : M.lk = true) (hft : M.ft = true) (hout : M.out = true) (a0 : ℕ) (a1 : ℕ) (a2 : ℕ) (a3 : List Byte) (a4 : State)  :
    (identArrive a0 a1 a2 a3 a4).clr M = a4.clr M := by
  unfold identArrive
  repeat' first
    | with_reducible rfl | split | with_reducible refine (modLink_clr M hlk _ _ _ _ ).trans ?_
    | with_reducible refine (moduleDecide_clr M hrg hnt hlk hft hout _ _ _ ).trans ?_
    | with_reducible refine (retrain_clr M hrg hlk _ _ _ ).trans ?_ | with_reducible refine (foldl_clr M _ _ _ ?_).trans ?_ | intro _
    | dsimp only

theorem linkCtrl_clr (M : Mask) (hrg : M.rg = true) (hlk : M.lk = true) (a0 : ℕ) (a1 : ℕ) (a2 : Word) (a3 : State)  :
    (linkCtrl a0 a1 a2 a3).clr M = a3.clr M := by
  unfold linkCtrl
  repeat' first
    | with_reducible rfl | split | with_reducible refine (setReg_clr M hrg _ _ _ _ _ _ ).trans ?_
    | with_reducible refine (modLink_clr M hlk _ _ _ _ ).trans ?_ | with_reducible refine (retrain_clr M hrg hlk _ _ _ ).trans ?_
    | with_reducible refine (foldl_clr M _ _ _ ?_).trans ?_ | intro _ | dsimp only

theorem linkLoss_clr (M : Mask) (hrg : M.rg = true) (hnt : M.nt = true) (hlk : M.lk = true) (hft : M.ft = true) (a0 : ℕ) (a1 : ℕ) (a2 : State)  :
    (linkLoss a0 a1 a2).clr M = a2.clr M := by
  unfold linkLoss
  repeat' first
    | with_reducible rfl | split | with_reducible refine (loseLink_clr M hrg hnt hlk hft _ _ _ ).trans ?_
    | with_reducible refine (foldl_clr M _ _ _ ?_).trans ?_ | intro _ | dsimp only

theorem modEngine_clr (M : Mask) (hop : M.op = true) (a0 : ℕ) (a1 : ℕ) (a2 : Engine → Engine) (a3 : State)  :
    (modEngine a0 a1 a2 a3).clr M = a3.clr M := by
  unfold modEngine
  repeat' first
    | with_reducible rfl | split | simp only [upd_op M hop] | with_reducible refine (foldl_clr M _ _ _ ?_).trans ?_ | intro _
    | dsimp only

theorem moduleFails_clr (M : Mask) (hrg : M.rg = true) (hft : M.ft = true) (a0 : ℕ) (a1 : ℕ) (a2 : ℕ) (a3 : State)  :
    (moduleFails a0 a1 a2 a3).clr M = a3.clr M := by
  unfold moduleFails
  repeat' first
    | with_reducible rfl | split | with_reducible refine (linkFault_clr M hrg hft _ _ _ _ ).trans ?_
    | with_reducible refine (foldl_clr M _ _ _ ?_).trans ?_ | intro _ | dsimp only

theorem sendModIdent_clr (M : Mask) (hlk : M.lk = true) (hout : M.out = true) (a0 : ℕ) (a1 : ℕ) (a2 : State)  :
    (sendModIdent a0 a1 a2).clr M = a2.clr M := by
  unfold sendModIdent
  repeat' first
    | with_reducible rfl | split | with_reducible refine (sendSym_clr M hlk hout _ _ _ _ _ ).trans ?_
    | with_reducible refine (foldl_clr M _ _ _ ?_).trans ?_ | intro _ | dsimp only

theorem moduleTrained_clr (M : Mask) (hrg : M.rg = true) (hnt : M.nt = true) (hlk : M.lk = true) (hft : M.ft = true) (hout : M.out = true) (a0 : ℕ) (a1 : ℕ) (a2 : ℕ) (a3 : TrainResult) (a4 : State)  :
    (moduleTrained a0 a1 a2 a3 a4).clr M = a4.clr M := by
  unfold moduleTrained
  repeat' first
    | with_reducible rfl | split | with_reducible refine (linkFault_clr M hrg hft _ _ _ _ ).trans ?_
    | with_reducible refine (modLink_clr M hlk _ _ _ _ ).trans ?_ | with_reducible refine (sendModIdent_clr M hlk hout _ _ _ ).trans ?_
    | with_reducible refine (moduleDecide_clr M hrg hnt hlk hft hout _ _ _ ).trans ?_
    | with_reducible refine (foldl_clr M _ _ _ ?_).trans ?_ | intro _ | dsimp only

theorem naked_clr (M : Mask) (hrg : M.rg = true) (hlk : M.lk = true) (hft : M.ft = true) (hout : M.out = true) (a0 : ℕ) (a1 : ℕ) (a2 : ℕ) (a3 : Bool) (a4 : State)  :
    (naked a0 a1 a2 a3 a4).clr M = a4.clr M := by
  unfold naked
  repeat' first
    | with_reducible rfl | split | with_reducible refine (modLink_clr M hlk _ _ _ _ ).trans ?_
    | with_reducible refine (answerNak_clr M hrg hlk hft hout _ _ _ _ _ ).trans ?_
    | with_reducible refine (foldl_clr M _ _ _ ?_).trans ?_ | intro _ | dsimp only

theorem resumeLink_clr (M : Mask) (hrg : M.rg = true) (hlk : M.lk = true) (hft : M.ft = true) (hout : M.out = true) (a0 : ℕ) (a1 : ℕ) (a2 : State)  :
    (resumeLink a0 a1 a2).clr M = a2.clr M := by
  unfold resumeLink
  repeat' first
    | with_reducible rfl | split | with_reducible refine (modLink_clr M hlk _ _ _ _ ).trans ?_
    | with_reducible refine (answerNak_clr M hrg hlk hft hout _ _ _ _ _ ).trans ?_
    | with_reducible refine (foldl_clr M _ _ _ ?_).trans ?_ | intro _ | dsimp only

theorem returnTo_clr (M : Mask) (hrg : M.rg = true) (hnt : M.nt = true) (hft : M.ft = true) (a0 : ℕ) (a1 : ℕ) (a2 : ℕ) (a3 : ℕ) (a4 : List (ℕ × ℕ)) (a5 : ℕ) (a6 : State)  :
    (returnTo a0 a1 a2 a3 a4 a5 a6).clr M = a6.clr M := by
  induction a4 generalizing a5 a6 with
  | nil => rfl
  | cons _ _ ih =>
    unfold returnTo
    repeat' first
      | with_reducible rfl | split | with_reducible refine (ih _ _).trans ?_
      | with_reducible refine (creditReturn__clr M hrg hnt hft _ _ _ _ _ _ _ _ ).trans ?_
      | with_reducible refine (foldl_clr M _ _ _ ?_).trans ?_ | intro _ | dsimp only

theorem sweepCollectors_clr (M : Mask) (hnt : M.nt = true) (a0 : State)  :
    (sweepCollectors a0).clr M = a0.clr M := by
  unfold sweepCollectors
  repeat' first
    | with_reducible rfl | split | with_reducible refine (sendLoss_clr M hnt _ _ _ _ _ _ ).trans ?_
    | with_reducible refine (forEach_clr M _ _ _ ?_).trans ?_ | simp only [upd_nt M hnt]
    | with_reducible refine (foldl_clr M _ _ _ ?_).trans ?_ | intro _ | dsimp only

theorem sweepLost_clr (M : Mask) (hnt : M.nt = true) (hlk : M.lk = true) (hout : M.out = true) (a0 : State)  :
    (sweepLost a0).clr M = a0.clr M := by
  unfold sweepLost
  repeat' first
    | with_reducible rfl | split | with_reducible refine (freeTransit_clr M hnt _ _ ).trans ?_
    | with_reducible refine (askFronts_clr M hnt _ _ _ _ ).trans ?_ | with_reducible refine (sweepCollectors_clr M hnt _ ).trans ?_
    | with_reducible refine (sendLoss_clr M hnt _ _ _ _ _ _ ).trans ?_
    | with_reducible refine (oweCredits_clr M hnt hlk hout _ _ _ ).trans ?_ | with_reducible refine (forEach_clr M _ _ _ ?_).trans ?_
    | simp only [upd_nt M hnt, upd_out M hout, upd_lk M hlk] | with_reducible refine (foldl_clr M _ _ _ ?_).trans ?_ | intro _
    | dsimp only

theorem routeAround_clr (M : Mask) (hrg : M.rg = true) (hnt : M.nt = true) (hlk : M.lk = true) (hft : M.ft = true) (hout : M.out = true) (a0 : State)  :
    (routeAround a0).clr M = a0.clr M := by
  unfold routeAround
  repeat' first
    | with_reducible rfl | split | with_reducible refine (sweepLost_clr M hnt hlk hout _ ).trans ?_
    | with_reducible refine (foldModules_clr M hrg hnt hlk hft _ ).trans ?_
    | with_reducible refine (egressInvalidate_clr M hrg _ _ ).trans ?_ | with_reducible refine (forEach_clr M _ _ _ ?_).trans ?_
    | with_reducible refine (foldl_clr M _ _ _ ?_).trans ?_ | intro _ | dsimp only

theorem sendIdent_clr (M : Mask) (hlk : M.lk = true) (hout : M.out = true) (a0 : ℕ) (a1 : State)  :
    (sendIdent a0 a1).clr M = a1.clr M := by
  unfold sendIdent
  repeat' first
    | with_reducible rfl | split | with_reducible refine (sendSym_clr M hlk hout _ _ _ _ _ ).trans ?_
    | with_reducible refine (forEach_clr M _ _ _ ?_).trans ?_ | with_reducible refine (foldl_clr M _ _ _ ?_).trans ?_ | intro _
    | dsimp only

theorem sundiCheck_clr (M : Mask) (hrg : M.rg = true) (hnt : M.nt = true) (hlk : M.lk = true) (hft : M.ft = true) (hout : M.out = true) (a0 : ℕ) (a1 : ℕ) (a2 : State)  :
    (sundiCheck a0 a1 a2).clr M = a2.clr M := by
  unfold sundiCheck
  repeat' first
    | with_reducible rfl | split | with_reducible refine (holdLink_clr M hrg hlk hft _ _ _ _ _ ).trans ?_
    | with_reducible refine (modLink_clr M hlk _ _ _ _ ).trans ?_ | with_reducible refine (linkUp_clr M hnt hlk hout _ _ _ ).trans ?_
    | with_reducible refine (foldl_clr M _ _ _ ?_).trans ?_ | intro _ | dsimp only

theorem sundiFails_clr (M : Mask) (hrg : M.rg = true) (hft : M.ft = true) (a0 : ℕ) (a1 : State)  :
    (sundiFails a0 a1).clr M = a1.clr M := by
  unfold sundiFails
  repeat' first
    | with_reducible rfl | split | with_reducible refine (linkFault_clr M hrg hft _ _ _ _ ).trans ?_
    | with_reducible refine (foldl_clr M _ _ _ ?_).trans ?_ | intro _ | dsimp only

theorem sundiStep_clr (M : Mask) (hrg : M.rg = true) (hnt : M.nt = true) (hlk : M.lk = true) (hft : M.ft = true) (hout : M.out = true) (a0 : ℕ) (a1 : TrainResult) (a2 : State)  :
    (sundiStep a0 a1 a2).clr M = a2.clr M := by
  unfold sundiStep
  repeat' first
    | with_reducible rfl | split | with_reducible refine (linkFault_clr M hrg hft _ _ _ _ ).trans ?_
    | with_reducible refine (modLink_clr M hlk _ _ _ _ ).trans ?_
    | with_reducible refine (sundiCheck_clr M hrg hnt hlk hft hout _ _ _ ).trans ?_
    | with_reducible refine (sendIdent_clr M hlk hout _ _ ).trans ?_ | with_reducible refine (echoAsk_clr M hlk hout _ _ _ ).trans ?_
    | with_reducible refine (foldl_clr M _ _ _ ?_).trans ?_ | intro _ | dsimp only

theorem trainAgain_clr (M : Mask) (hlk : M.lk = true) (a0 : ℕ) (a1 : ℕ) (a2 : State)  :
    (trainAgain a0 a1 a2).clr M = a2.clr M := by
  unfold trainAgain
  repeat' first
    | with_reducible rfl | split | with_reducible refine (modLink_clr M hlk _ _ _ _ ).trans ?_
    | with_reducible refine (foldl_clr M _ _ _ ?_).trans ?_ | intro _ | dsimp only

theorem optFault_clr (M : Mask) (hrg : M.rg = true) (hft : M.ft = true) (a0 : ℕ) (a1 : ℕ) (a2 : ℕ) (a3 : State)  :
    (optFault a0 a1 a2 a3).clr M = a3.clr M := by
  unfold optFault
  repeat' first
    | with_reducible rfl | split | with_reducible refine (raise_clr M hrg hft _ _ _ _ _ _ ).trans ?_
    | with_reducible refine (foldl_clr M _ _ _ ?_).trans ?_ | intro _ | dsimp only

theorem checkWear_clr (M : Mask) (hrg : M.rg = true) (hop : M.op = true) (hft : M.ft = true) (a0 : ℕ) (a1 : ℕ) (a2 : State)  :
    (checkWear a0 a1 a2).clr M = a2.clr M := by
  unfold checkWear
  repeat' first
    | with_reducible rfl | split | with_reducible refine (optFault_clr M hrg hft _ _ _ _ ).trans ?_
    | with_reducible refine (modEngine_clr M hop _ _ _ _ ).trans ?_ | with_reducible refine (foldl_clr M _ _ _ ?_).trans ?_ | intro _
    | dsimp only

theorem relight_clr (M : Mask) (hrg : M.rg = true) (hlk : M.lk = true) (a0 : ℕ) (a1 : ℕ) (a2 : State)  :
    (relight a0 a1 a2).clr M = a2.clr M := by
  unfold relight
  repeat' first
    | with_reducible rfl | split | with_reducible refine (modLink_clr M hlk _ _ _ _ ).trans ?_
    | with_reducible refine (retrain_clr M hrg hlk _ _ _ ).trans ?_ | with_reducible refine (foldl_clr M _ _ _ ?_).trans ?_ | intro _
    | dsimp only

theorem setShadowHours_clr (M : Mask) (hkp : M.kp = true) (a0 : ℕ) (a1 : ℕ) (a2 : DWord) (a3 : ℕ) (a4 : State)  :
    (setShadowHours a0 a1 a2 a3 a4).clr M = a4.clr M := by
  unfold setShadowHours
  repeat' first
    | with_reducible rfl | split | simp only [upd_kp M hkp] | with_reducible refine (foldl_clr M _ _ _ ?_).trans ?_ | intro _
    | dsimp only

theorem laserOut_clr (M : Mask) (hout : M.out = true) (a0 : ℕ) (a1 : ℕ) (a2 : Bool) (a3 : State)  :
    (laserOut a0 a1 a2 a3).clr M = a3.clr M := by
  unfold laserOut
  repeat' first
    | with_reducible rfl | split | with_reducible refine (emit_clr M hout _ _ ).trans ?_
    | with_reducible refine (foldl_clr M _ _ _ ?_).trans ?_ | intro _ | dsimp only

theorem detect_clr (M : Mask) (hrg : M.rg = true) (hlk : M.lk = true) (hop : M.op = true) (hft : M.ft = true) (hkp : M.kp = true) (hout : M.out = true) (a0 : ℕ) (a1 : ℕ) (a2 : List Byte) (a3 : State)  :
    (detect a0 a1 a2 a3).clr M = a3.clr M := by
  unfold detect
  repeat' first
    | with_reducible rfl | split | with_reducible refine (relight_clr M hrg hlk _ _ _ ).trans ?_
    | with_reducible refine (modLink_clr M hlk _ _ _ _ ).trans ?_ | with_reducible refine (optFault_clr M hrg hft _ _ _ _ ).trans ?_
    | with_reducible refine (modEngine_clr M hop _ _ _ _ ).trans ?_
    | with_reducible refine (checkWear_clr M hrg hop hft _ _ _ ).trans ?_
    | with_reducible refine (setShadowHours_clr M hkp _ _ _ _ _ ).trans ?_
    | with_reducible refine (laserOut_clr M hout _ _ _ _ ).trans ?_ | with_reducible refine (forEach_clr M _ _ _ ?_).trans ?_
    | with_reducible refine (foldl_clr M _ _ _ ?_).trans ?_ | intro _ | dsimp only

theorem hourTick_clr (M : Mask) (hrg : M.rg = true) (hop : M.op = true) (hft : M.ft = true) (hkp : M.kp = true) (hout : M.out = true) (a0 : ℕ) (a1 : ℕ) (a2 : State)  :
    (hourTick a0 a1 a2).clr M = a2.clr M := by
  unfold hourTick
  repeat' first
    | with_reducible rfl | split | with_reducible refine (emit_clr M hout _ _ ).trans ?_
    | with_reducible refine (modEngine_clr M hop _ _ _ _ ).trans ?_
    | with_reducible refine (checkWear_clr M hrg hop hft _ _ _ ).trans ?_
    | with_reducible refine (setShadowHours_clr M hkp _ _ _ _ _ ).trans ?_ | with_reducible refine (foldl_clr M _ _ _ ?_).trans ?_
    | intro _ | dsimp only

theorem laserOff_clr (M : Mask) (hlk : M.lk = true) (hop : M.op = true) (hout : M.out = true) (a0 : ℕ) (a1 : ℕ) (a2 : ℕ) (a3 : ℕ) (a4 : State)  :
    (laserOff a0 a1 a2 a3 a4).clr M = a4.clr M := by
  unfold laserOff
  repeat' first
    | with_reducible rfl | split | with_reducible refine (modLink_clr M hlk _ _ _ _ ).trans ?_
    | with_reducible refine (modEngine_clr M hop _ _ _ _ ).trans ?_ | with_reducible refine (laserOut_clr M hout _ _ _ _ ).trans ?_
    | with_reducible refine (forEach_clr M _ _ _ ?_).trans ?_ | with_reducible refine (foldl_clr M _ _ _ ?_).trans ?_ | intro _
    | dsimp only

theorem optCtrl_clr (M : Mask) (hrg : M.rg = true) (hlk : M.lk = true) (hop : M.op = true) (hout : M.out = true) (a0 : ℕ) (a1 : ℕ) (a2 : Word) (a3 : State)  :
    (optCtrl a0 a1 a2 a3).clr M = a3.clr M := by
  unfold optCtrl
  repeat' first
    | with_reducible rfl | split | with_reducible refine (setReg_clr M hrg _ _ _ _ _ _ ).trans ?_
    | with_reducible refine (relight_clr M hrg hlk _ _ _ ).trans ?_
    | with_reducible refine (laserOff_clr M hlk hop hout _ _ _ _ _ ).trans ?_
    | with_reducible refine (modEngine_clr M hop _ _ _ _ ).trans ?_ | with_reducible refine (laserOut_clr M hout _ _ _ _ ).trans ?_
    | with_reducible refine (forEach_clr M _ _ _ ?_).trans ?_ | with_reducible refine (foldl_clr M _ _ _ ?_).trans ?_ | intro _
    | dsimp only

theorem powerOf_clr (M : Mask) (hrg : M.rg = true) (hlk : M.lk = true) (hop : M.op = true) (hft : M.ft = true) (a0 : ℕ) (a1 : ℕ) (a2 : ℕ) (a3 : ℕ) (a4 : State)  :
    (powerOf a0 a1 a2 a3 a4).clr M = a4.clr M := by
  unfold powerOf
  repeat' first
    | with_reducible rfl | split | with_reducible refine (relight_clr M hrg hlk _ _ _ ).trans ?_
    | with_reducible refine (modLink_clr M hlk _ _ _ _ ).trans ?_ | with_reducible refine (optFault_clr M hrg hft _ _ _ _ ).trans ?_
    | with_reducible refine (modEngine_clr M hop _ _ _ _ ).trans ?_ | with_reducible refine (foldl_clr M _ _ _ ?_).trans ?_ | intro _
    | dsimp only

theorem powerSample_clr (M : Mask) (hrg : M.rg = true) (hlk : M.lk = true) (hop : M.op = true) (hft : M.ft = true) (hout : M.out = true) (a0 : ℕ) (a1 : ℕ) (a2 : Bool) (a3 : ℕ) (a4 : ℕ) (a5 : State)  :
    (powerSample a0 a1 a2 a3 a4 a5).clr M = a5.clr M := by
  unfold powerSample
  repeat' first
    | with_reducible rfl | split | with_reducible refine (powerOf_clr M hrg hlk hop hft _ _ _ _ _ ).trans ?_
    | with_reducible refine (laserOff_clr M hlk hop hout _ _ _ _ _ ).trans ?_
    | with_reducible refine (optFault_clr M hrg hft _ _ _ _ ).trans ?_ | with_reducible refine (modEngine_clr M hop _ _ _ _ ).trans ?_
    | with_reducible refine (foldl_clr M _ _ _ ?_).trans ?_ | intro _ | dsimp only

theorem rescan_clr (M : Mask) (hrg : M.rg = true) (hlk : M.lk = true) (hop : M.op = true) (hft : M.ft = true) (hkp : M.kp = true) (hout : M.out = true) (a0 : ℕ) (a1 : ℕ) (a2 : State)  :
    (rescan a0 a1 a2).clr M = a2.clr M := by
  unfold rescan
  repeat' first
    | with_reducible rfl | split | with_reducible refine (detect_clr M hrg hlk hop hft hkp hout _ _ _ _ ).trans ?_
    | with_reducible refine (foldl_clr M _ _ _ ?_).trans ?_ | intro _ | dsimp only

theorem collectOne_clr (M : Mask) (hrg : M.rg = true) (hnt : M.nt = true) (hft : M.ft = true) (a0 : ℕ) (a1 : FaultRec) (a2 : State)  :
    (collectOne a0 a1 a2).clr M = a2.clr M := by
  unfold collectOne
  repeat' first
    | with_reducible rfl | split | with_reducible refine (addCount_clr M hrg _ _ _ _ _ ).trans ?_
    | with_reducible refine (sendFrom_clr M hnt _ _ _ _ _ ).trans ?_ | with_reducible refine (doIf_clr M _ _ _ ?_).trans ?_
    | simp only [upd_nt M hnt, upd_ft M hft, upd_rg M hrg, upd_rg_nt M hrg hnt] | with_reducible refine (foldl_clr M _ _ _ ?_).trans ?_
    | intro _ | dsimp only

theorem setErr_clr (M : Mask) (hft : M.ft = true) (hout : M.out = true) (a0 : Bool) (a1 : State)  :
    (setErr a0 a1).clr M = a1.clr M := by
  unfold setErr
  repeat' first
    | with_reducible rfl | split | with_reducible refine (emit_clr M hout _ _ ).trans ?_ | simp only [upd_ft M hft, upd_out M hout]
    | with_reducible refine (foldl_clr M _ _ _ ?_).trans ?_ | intro _ | dsimp only

theorem safeMembers_clr (M : Mask) (hrg : M.rg = true) (hse : M.se = true) (hci : M.ci = true) (hout : M.out = true) (a0 : ℕ) (a1 : ℕ) (a2 : State)  :
    (safeMembers a0 a1 a2).clr M = a2.clr M := by
  unfold safeMembers
  repeat' first
    | with_reducible rfl | split | with_reducible refine (cqRecord_clr M hrg hci hout _ _ _ _ _ ).trans ?_
    | with_reducible refine (modRec_clr M hse _ _ _ ).trans ?_ | with_reducible refine (forEach_clr M _ _ _ ?_).trans ?_
    | with_reducible refine (foldl_clr M _ _ _ ?_).trans ?_ | intro _ | dsimp only

theorem failFetches_clr (M : Mask) (hci : M.ci = true) (hout : M.out = true) (a0 : ℕ) (a1 : ℕ) (a2 : ℕ) (a3 : State)  :
    (failFetches a0 a1 a2 a3).clr M = a3.clr M := by
  unfold failFetches
  repeat' first
    | with_reducible rfl | split | with_reducible refine (fetchDone_clr M hci hout _ _ _ _ _ _ _ ).trans ?_
    | with_reducible refine (forEach_clr M _ _ _ ?_).trans ?_ | with_reducible refine (foldl_clr M _ _ _ ?_).trans ?_ | intro _
    | dsimp only

theorem cutPause_clr (M : Mask) (hrg : M.rg = true) (hhs : M.hs = true) (hfw : M.fw = true) (hsv : M.sv = true) (hout : M.out = true) (a0 : State)  :
    (cutPause a0).clr M = a0.clr M := by
  unfold cutPause
  repeat' first
    | with_reducible rfl | split | with_reducible refine (fwDone_clr M hrg hhs hfw hsv hout _ _ _ ).trans ?_
    | simp only [upd_out M hout, upd_sv M hsv, upd_rg M hrg, upd_fw M hfw, upd_hs M hhs]
    | with_reducible refine (foldl_clr M _ _ _ ?_).trans ?_ | intro _ | dsimp only

theorem enterSafe_clr (M : Mask) (hrg : M.rg = true) (hse : M.se = true) (hci : M.ci = true) (hlk : M.lk = true) (hhs : M.hs = true) (hft : M.ft = true) (hfw : M.fw = true) (hsv : M.sv = true) (hout : M.out = true) (a0 : ℕ) (a1 : State)  :
    (enterSafe a0 a1).clr M = a1.clr M := by
  unfold enterSafe
  repeat' first
    | with_reducible rfl | split | with_reducible refine (setErr_clr M hft hout _ _ ).trans ?_
    | with_reducible refine (safeMembers_clr M hrg hse hci hout _ _ _ ).trans ?_
    | with_reducible refine (failBlocked_clr M hci hout _ _ _ _ ).trans ?_
    | with_reducible refine (sendSym_clr M hlk hout _ _ _ _ _ ).trans ?_
    | with_reducible refine (failFetches_clr M hci hout _ _ _ _ ).trans ?_
    | with_reducible refine (cutPause_clr M hrg hhs hfw hsv hout _ ).trans ?_ | with_reducible refine (forEach_clr M _ _ _ ?_).trans ?_
    | simp only [upd_ci M hci, upd_ft M hft, upd_out M hout, upd_sv M hsv, upd_se M hse, upd_rg M hrg, upd_fw M hfw, upd_lk M hlk, upd_hs M hhs, upd_ft_fw M hft hfw]
    | with_reducible refine (foldl_clr M _ _ _ ?_).trans ?_ | intro _ | dsimp only

theorem failRuns_clr (M : Mask) (hrg : M.rg = true) (hdr : M.dr = true) (hci : M.ci = true) (hout : M.out = true) (a0 : ℕ) (a1 : ℕ) (a2 : ℕ) (a3 : State)  :
    (failRuns a0 a1 a2 a3).clr M = a3.clr M := by
  unfold failRuns
  repeat' first
    | with_reducible rfl | split | with_reducible refine (abortRun_clr M hrg hdr hci hout _ _ _ _ _ ).trans ?_
    | with_reducible refine (forEach_clr M _ _ _ ?_).trans ?_ | with_reducible refine (foldl_clr M _ _ _ ?_).trans ?_ | intro _
    | dsimp only

theorem fenceInject_clr (M : Mask) (hnt : M.nt = true) (a0 : ℕ) (a1 : ℕ) (a2 : State)  :
    (fenceInject a0 a1 a2).clr M = a2.clr M := by
  unfold fenceInject
  repeat' first
    | with_reducible rfl | split | simp only [upd_nt M hnt] | with_reducible refine (foldl_clr M _ _ _ ?_).trans ?_ | intro _
    | dsimp only

theorem fenceTile_clr (M : Mask) (hrg : M.rg = true) (hnt : M.nt = true) (hdr : M.dr = true) (hse : M.se = true) (hci : M.ci = true) (hout : M.out = true) (a0 : ℕ) (a1 : ℕ) (a2 : State)  :
    (fenceTile a0 a1 a2).clr M = a2.clr M := by
  unfold fenceTile
  repeat' first
    | with_reducible rfl | split | with_reducible refine (failBlocked_clr M hci hout _ _ _ _ ).trans ?_
    | with_reducible refine (failRuns_clr M hrg hdr hci hout _ _ _ _ ).trans ?_
    | with_reducible refine (fenceInject_clr M hnt _ _ _ ).trans ?_
    | with_reducible refine (failRequests_clr M hrg hnt hdr hse hci hout _ _ _ _ ).trans ?_
    | with_reducible refine (foldl_clr M _ _ _ ?_).trans ?_ | intro _ | dsimp only

theorem fenceDie_clr (M : Mask) (hrg : M.rg = true) (hnt : M.nt = true) (hdr : M.dr = true) (hse : M.se = true) (hci : M.ci = true) (hout : M.out = true) (a0 : ℕ) (a1 : State)  :
    (fenceDie a0 a1).clr M = a1.clr M := by
  unfold fenceDie
  repeat' first
    | with_reducible rfl | split | with_reducible refine (fenceTile_clr M hrg hnt hdr hse hci hout _ _ _ ).trans ?_
    | with_reducible refine (forEach_clr M _ _ _ ?_).trans ?_ | with_reducible refine (foldl_clr M _ _ _ ?_).trans ?_ | intro _
    | dsimp only

theorem owe_clr (M : Mask) (hnt : M.nt = true) (a0 : ℕ) (a1 : ℕ) (a2 : ℕ) (a3 : Packet) (a4 : State)  :
    (owe a0 a1 a2 a3 a4).clr M = a4.clr M := by
  unfold owe
  repeat' first
    | with_reducible rfl | split | with_reducible refine (sendFrom_clr M hnt _ _ _ _ _ ).trans ?_
    | with_reducible refine (foldl_clr M _ _ _ ?_).trans ?_ | intro _ | dsimp only

theorem flushDie_clr (M : Mask) (hnt : M.nt = true) (hse : M.se = true) (hpg : M.pg = true) (a0 : ℕ) (a1 : State)  :
    (flushDie a0 a1).clr M = a1.clr M := by
  unfold flushDie
  repeat' first
    | with_reducible rfl | split | with_reducible refine (owe_clr M hnt _ _ _ _ _ ).trans ?_
    | with_reducible refine (forEach_clr M _ _ _ ?_).trans ?_
    | simp only [upd_nt M hnt, upd_pg M hpg, upd_se M hse, upd_se_pg M hse hpg] | with_reducible refine (foldl_clr M _ _ _ ?_).trans ?_
    | intro _ | dsimp only

theorem flushTile_clr (M : Mask) (hnt : M.nt = true) (hmp : M.mp = true) (hci : M.ci = true) (a0 : ℕ) (a1 : ℕ) (a2 : State)  :
    (flushTile a0 a1 a2).clr M = a2.clr M := by
  unfold flushTile
  repeat' first
    | with_reducible rfl | split | with_reducible refine (modCip_clr M hci _ _ _ _ ).trans ?_
    | with_reducible refine (modMp_clr M hmp _ _ _ _ ).trans ?_ | with_reducible refine (owe_clr M hnt _ _ _ _ _ ).trans ?_
    | with_reducible refine (forEach_clr M _ _ _ ?_).trans ?_ | with_reducible refine (foldl_clr M _ _ _ ?_).trans ?_ | intro _
    | dsimp only

theorem quiesceUnits_clr (M : Mask) (hrg : M.rg = true) (hnt : M.nt = true) (hmp : M.mp = true) (hdr : M.dr = true) (hse : M.se = true) (hci : M.ci = true) (hpg : M.pg = true) (hlk : M.lk = true) (hout : M.out = true) (a0 : ℕ) (a1 : State)  :
    (quiesceUnits a0 a1).clr M = a1.clr M := by
  unfold quiesceUnits
  repeat' first
    | with_reducible rfl | split | with_reducible refine (fenceDie_clr M hrg hnt hdr hse hci hout _ _ ).trans ?_
    | with_reducible refine (failSeamsAt_clr M hrg hnt hse hlk hout _ _ _ _ ).trans ?_
    | with_reducible refine (flushDie_clr M hnt hse hpg _ _ ).trans ?_
    | with_reducible refine (flushTile_clr M hnt hmp hci _ _ _ ).trans ?_ | with_reducible refine (forEach_clr M _ _ _ ?_).trans ?_
    | with_reducible refine (foldl_clr M _ _ _ ?_).trans ?_ | intro _ | dsimp only

theorem resetKept_clr (M : Mask) (hft : M.ft = true) (a0 : ℕ) (a1 : State)  :
    (resetKept a0 a1).clr M = a1.clr M := by
  unfold resetKept
  repeat' first
    | with_reducible rfl | split | simp only [upd_ft M hft] | with_reducible refine (foldl_clr M _ _ _ ?_).trans ?_ | intro _
    | dsimp only

theorem isolateDie_clr (M : Mask) (hrg : M.rg = true) (hnt : M.nt = true) (hmp : M.mp = true) (hdr : M.dr = true) (hse : M.se = true) (hci : M.ci = true) (hpg : M.pg = true) (hlk : M.lk = true) (hft : M.ft = true) (hout : M.out = true) (a0 : ℕ) (a1 : State)  :
    (isolateDie a0 a1).clr M = a1.clr M := by
  unfold isolateDie
  repeat' first
    | with_reducible rfl | split | with_reducible refine (quiesceUnits_clr M hrg hnt hmp hdr hse hci hpg hlk hout _ _ ).trans ?_
    | with_reducible refine (resetKept_clr M hft _ _ ).trans ?_ | with_reducible refine (loseLink_clr M hrg hnt hlk hft _ _ _ ).trans ?_
    | with_reducible refine (forEach_clr M _ _ _ ?_).trans ?_
    | simp only [upd_nt M hnt, upd_ci M hci, upd_ft M hft, upd_pg M hpg, upd_out M hout, upd_se M hse, upd_rg M hrg, upd_lk M hlk, upd_dr M hdr, upd_mp M hmp, upd_se_pg M hse hpg, upd_rg_nt M hrg hnt, upd_nt_mp M hnt hmp]
    | with_reducible refine (foldl_clr M _ _ _ ?_).trans ?_ | intro _ | dsimp only

theorem collect_clr (M : Mask) (hrg : M.rg = true) (hnt : M.nt = true) (hmp : M.mp = true) (hdr : M.dr = true) (hse : M.se = true) (hci : M.ci = true) (hpg : M.pg = true) (hlk : M.lk = true) (hhs : M.hs = true) (hft : M.ft = true) (hfw : M.fw = true) (hsv : M.sv = true) (hout : M.out = true) (a0 : ℕ) (a1 : Bool) (a2 : State)  :
    (collect a0 a1 a2).clr M = a2.clr M := by
  unfold collect
  repeat' first
    | with_reducible rfl | split | with_reducible refine (collectOne_clr M hrg hnt hft _ _ _ ).trans ?_
    | with_reducible refine (enterSafe_clr M hrg hse hci hlk hhs hft hfw hsv hout _ _ ).trans ?_
    | with_reducible refine (raise0_clr M hrg hft _ _ _ _ ).trans ?_
    | with_reducible refine (isolateDie_clr M hrg hnt hmp hdr hse hci hpg hlk hft hout _ _ ).trans ?_
    | with_reducible refine (forEach_clr M _ _ _ ?_).trans ?_ | with_reducible refine (doIf_clr M _ _ _ ?_).trans ?_
    | simp only [upd_nt M hnt, upd_ci M hci, upd_ft M hft, upd_pg M hpg, upd_out M hout, upd_sv M hsv, upd_se M hse, upd_rg M hrg, upd_fw M hfw, upd_lk M hlk, upd_hs M hhs, upd_dr M hdr, upd_ft_fw M hft hfw, upd_mp M hmp, upd_se_pg M hse hpg, upd_rg_nt M hrg hnt, upd_nt_mp M hnt hmp]
    | with_reducible refine (foldl_clr M _ _ _ ?_).trans ?_ | intro _ | dsimp only

theorem releaseErr_clr (M : Mask) (hft : M.ft = true) (hout : M.out = true) (a0 : State)  :
    (releaseErr a0).clr M = a0.clr M := by
  unfold releaseErr
  repeat' first
    | with_reducible rfl | split | with_reducible refine (setErr_clr M hft hout _ _ ).trans ?_
    | with_reducible refine (foldl_clr M _ _ _ ?_).trans ?_ | intro _ | dsimp only

theorem errCtrl_clr (M : Mask) (hrg : M.rg = true) (hft : M.ft = true) (hout : M.out = true) (a0 : Word) (a1 : State)  :
    (errCtrl a0 a1).clr M = a1.clr M := by
  unfold errCtrl
  repeat' first
    | with_reducible rfl | split | with_reducible refine (badWrite_clr M hrg _ _ _ ).trans ?_
    | with_reducible refine (setReg_clr M hrg _ _ _ _ _ _ ).trans ?_ | with_reducible refine (releaseErr_clr M hft hout _ ).trans ?_
    | with_reducible refine (setErr_clr M hft hout _ _ ).trans ?_ | with_reducible refine (doIf_clr M _ _ _ ?_).trans ?_
    | with_reducible refine (foldl_clr M _ _ _ ?_).trans ?_ | intro _ | dsimp only

theorem faultIdle_clr (M : Mask) (hrg : M.rg = true) (hse : M.se = true) (hci : M.ci = true) (hlk : M.lk = true) (hhs : M.hs = true) (hft : M.ft = true) (hfw : M.fw = true) (hsv : M.sv = true) (hout : M.out = true) (a0 : ℕ) (a1 : ℕ) (a2 : State)  :
    (faultIdle a0 a1 a2).clr M = a2.clr M := by
  unfold faultIdle
  repeat' first
    | with_reducible rfl | split | with_reducible refine (modLink_clr M hlk _ _ _ _ ).trans ?_
    | with_reducible refine (enterSafe_clr M hrg hse hci hlk hhs hft hfw hsv hout _ _ ).trans ?_
    | with_reducible refine (foldl_clr M _ _ _ ?_).trans ?_ | intro _ | dsimp only

theorem keepRecord_clr (M : Mask) (hkp : M.kp = true) (a0 : FaultRec) (a1 : State)  :
    (keepRecord a0 a1).clr M = a1.clr M := by
  unfold keepRecord
  repeat' first
    | with_reducible rfl | split | simp only [upd_kp M hkp] | with_reducible refine (foldl_clr M _ _ _ ?_).trans ?_ | intro _
    | dsimp only

theorem pulseEnd_clr (M : Mask) (hft : M.ft = true) (hout : M.out = true) (a0 : State)  :
    (pulseEnd a0).clr M = a0.clr M := by
  unfold pulseEnd
  repeat' first
    | with_reducible rfl | split | with_reducible refine (releaseErr_clr M hft hout _ ).trans ?_
    | simp only [upd_ft M hft, upd_out M hout] | with_reducible refine (foldl_clr M _ _ _ ?_).trans ?_ | intro _ | dsimp only

theorem pulseErr_clr (M : Mask) (hft : M.ft = true) (hout : M.out = true) (a0 : State)  :
    (pulseErr a0).clr M = a0.clr M := by
  unfold pulseErr
  repeat' first
    | with_reducible rfl | split | with_reducible refine (setErr_clr M hft hout _ _ ).trans ?_
    | simp only [upd_ft M hft, upd_out M hout] | with_reducible refine (foldl_clr M _ _ _ ?_).trans ?_ | intro _ | dsimp only

theorem rootRecord_clr (M : Mask) (hrg : M.rg = true) (hnt : M.nt = true) (hhs : M.hs = true) (hft : M.ft = true) (hkp : M.kp = true) (hsv : M.sv = true) (hout : M.out = true) (a0 : State)  :
    (rootRecord a0).clr M = a0.clr M := by
  unfold rootRecord
  repeat' first
    | with_reducible rfl | split | with_reducible refine (hostCause_clr M hrg hhs hout _ _ ).trans ?_
    | with_reducible refine (notice_clr M hrg hsv hout _ _ _ ).trans ?_ | with_reducible refine (keepRecord_clr M hkp _ _ ).trans ?_
    | with_reducible refine (consume_clr M hnt _ _ _ _ ).trans ?_ | with_reducible refine (pulseErr_clr M hft hout _ ).trans ?_
    | simp only [upd_nt M hnt, upd_ft M hft, upd_out M hout, upd_sv M hsv, upd_rg M hrg, upd_kp M hkp, upd_hs M hhs, upd_rg_nt M hrg hnt, upd_kp_sv M hkp hsv]
    | with_reducible refine (foldl_clr M _ _ _ ?_).trans ?_ | intro _ | dsimp only

theorem routerDead_clr (M : Mask) (hrg : M.rg = true) (hft : M.ft = true) (a0 : ℕ) (a1 : ℕ) (a2 : State)  :
    (routerDead a0 a1 a2).clr M = a2.clr M := by
  unfold routerDead
  repeat' first
    | with_reducible rfl | split | with_reducible refine (raise_clr M hrg hft _ _ _ _ _ _ ).trans ?_
    | with_reducible refine (foldl_clr M _ _ _ ?_).trans ?_ | intro _ | dsimp only

end Sys2Proof.Machine
end

