-- ==== Sys2Proof/Laws/FrameReset.lean ====
section
/-! SUPPORT. What each operation of Contexts, Resets, Power, Storage, Plan, Commits, Press, Frames leaves unchanged: a state after it agrees with the state before outside
the parts it may change. -/
set_option linter.unusedTactic false
set_option linter.unreachableTactic false
set_option linter.unusedVariables false
set_option linter.unusedSimpArgs false

namespace Sys2Proof.Machine

theorem actResult_clr (M : Mask) (hrs : M.rs = true) (a0 : ℕ) (a1 : Adm) (a2 : State)  :
    (actResult a0 a1 a2).clr M = a2.clr M := by
  unfold actResult
  repeat' first
    | with_reducible rfl | split | simp only [upd_rs M hrs] | with_reducible refine (foldl_clr M _ _ _ ?_).trans ?_ | intro _
    | dsimp only

theorem actTokens_clr (M : Mask) (hnt : M.nt = true) (a0 : ℕ) (a1 : ℕ × ℕ) (a2 : State)  :
    (actTokens a0 a1 a2).clr M = a2.clr M := by
  unfold actTokens
  repeat' first
    | with_reducible rfl | split | with_reducible refine (resetTok_clr M hnt _ _ _ ).trans ?_
    | with_reducible refine (foldl_clr M _ _ _ ?_).trans ?_ | intro _ | dsimp only

theorem becomeActive_clr (M : Mask) (hnt : M.nt = true) (hty : M.ty = true) (hrs : M.rs = true) (a0 : ℕ) (a1 : ℕ) (a2 : ℕ) (a3 : State)  :
    (becomeActive a0 a1 a2 a3).clr M = a3.clr M := by
  unfold becomeActive
  repeat' first
    | with_reducible rfl | split | with_reducible refine (startChain_clr M hty _ _ _ _ ).trans ?_
    | with_reducible refine (actTokens_clr M hnt _ _ _ ).trans ?_ | with_reducible refine (forEach_clr M _ _ _ ?_).trans ?_
    | simp only [upd_nt M hnt, upd_rs M hrs, upd_ty M hty] | with_reducible refine (foldl_clr M _ _ _ ?_).trans ?_ | intro _
    | dsimp only

theorem cipCtxReset_clr (M : Mask) (hci : M.ci = true) (hout : M.out = true) (a0 : ℕ) (a1 : ℕ) (a2 : ℕ) (a3 : State)  :
    (cipCtxReset a0 a1 a2 a3).clr M = a3.clr M := by
  unfold cipCtxReset
  repeat' first
    | with_reducible rfl | split | with_reducible refine (modCip_clr M hci _ _ _ _ ).trans ?_
    | with_reducible refine (failStreams_clr M hci hout _ _ _ _ _ ).trans ?_ | with_reducible refine (foldl_clr M _ _ _ ?_).trans ?_
    | intro _ | dsimp only

theorem ctxCmd_clr (M : Mask) (hrg : M.rg = true) (hrs : M.rs = true) (a0 : Instr) (a1 : ℕ) (a2 : ℕ) (a3 : State)  :
    (ctxCmd a0 a1 a2 a3).clr M = a3.clr M := by
  unfold ctxCmd
  repeat' first
    | with_reducible rfl | split | with_reducible refine (badWrite_clr M hrg _ _ _ ).trans ?_ | simp only [upd_rs M hrs, upd_rg M hrg]
    | with_reducible refine (foldl_clr M _ _ _ ?_).trans ?_ | intro _ | dsimp only

theorem unitsCtxReset_clr (M : Mask) (hnt : M.nt = true) (hci : M.ci = true) (hbk : M.bk = true) (hpg : M.pg = true) (a0 : ℕ) (a1 : State)  :
    (unitsCtxReset a0 a1).clr M = a1.clr M := by
  unfold unitsCtxReset
  repeat' first
    | with_reducible rfl | split | simp only [upd_nt M hnt, upd_ci M hci, upd_pg M hpg, upd_bk M hbk, upd_nt_ci_bk_pg M hnt hci hbk hpg]
    | with_reducible refine (foldl_clr M _ _ _ ?_).trans ?_ | intro _ | dsimp only

theorem ctxReset_clr (M : Mask) (hrg : M.rg = true) (hnt : M.nt = true) (hdr : M.dr = true) (hse : M.se = true) (hci : M.ci = true) (hbk : M.bk = true) (hpg : M.pg = true) (hty : M.ty = true) (hpr : M.pr = true) (hlk : M.lk = true) (hft : M.ft = true) (hrs : M.rs = true) (hout : M.out = true) (a0 : ℕ) (a1 : State)  :
    (ctxReset a0 a1).clr M = a1.clr M := by
  unfold ctxReset
  repeat' first
    | with_reducible rfl | split | with_reducible refine (drnCtxReset_clr M hrg hdr _ _ _ _ ).trans ?_
    | with_reducible refine (modTly_clr M hty _ _ _ ).trans ?_ | with_reducible refine (pairEvent_clr M hpr _ _ ).trans ?_
    | with_reducible refine (cipCtxReset_clr M hci hout _ _ _ _ ).trans ?_ | with_reducible refine (dropChain_clr M hty _ _ ).trans ?_
    | with_reducible refine (unitsCtxReset_clr M hnt hci hbk hpg _ _ ).trans ?_
    | with_reducible refine (seamCtxReset_clr M hrg hnt hdr hse hlk hft hout _ _ ).trans ?_
    | with_reducible refine (forEach_clr M _ _ _ ?_).trans ?_
    | simp only [upd_nt M hnt, upd_ci M hci, upd_rs M hrs, upd_ft M hft, upd_pr M hpr, upd_pg M hpg, upd_out M hout, upd_ft_rs M hft hrs, upd_se_ci_bk M hse hci hbk, upd_se M hse, upd_rg M hrg, upd_ty M hty, upd_lk M hlk, upd_ty_pr M hty hpr, upd_dr M hdr, upd_se_pg_ty M hse hpg hty, upd_se_pg M hse hpg, upd_bk M hbk, upd_rg_nt M hrg hnt, upd_nt_ci_bk_pg M hnt hci hbk hpg]
    | with_reducible refine (foldl_clr M _ _ _ ?_).trans ?_ | intro _ | dsimp only

theorem ctxStep3_clr (M : Mask) (hrg : M.rg = true) (hnt : M.nt = true) (hdr : M.dr = true) (hse : M.se = true) (hci : M.ci = true) (hbk : M.bk = true) (hpg : M.pg = true) (hty : M.ty = true) (hpr : M.pr = true) (hlk : M.lk = true) (hft : M.ft = true) (hrs : M.rs = true) (hout : M.out = true) (a0 : State)  :
    (ctxStep3 a0).clr M = a0.clr M := by
  unfold ctxStep3
  repeat' first
    | with_reducible rfl | split
    | with_reducible refine (ctxReset_clr M hrg hnt hdr hse hci hbk hpg hty hpr hlk hft hrs hout _ _ ).trans ?_
    | with_reducible refine (forEach_clr M _ _ _ ?_).trans ?_
    | simp only [upd_nt M hnt, upd_ci M hci, upd_rs M hrs, upd_ft M hft, upd_pr M hpr, upd_pg M hpg, upd_out M hout, upd_ft_rs M hft hrs, upd_se_ci_bk M hse hci hbk, upd_se M hse, upd_rg M hrg, upd_ty M hty, upd_lk M hlk, upd_ty_pr M hty hpr, upd_dr M hdr, upd_se_pg_ty M hse hpg hty, upd_se_pg M hse hpg, upd_bk M hbk, upd_rg_nt M hrg hnt, upd_nt_ci_bk_pg M hnt hci hbk hpg]
    | with_reducible refine (foldl_clr M _ _ _ ?_).trans ?_ | intro _ | dsimp only

theorem evalAct_clr (M : Mask) (hnt : M.nt = true) (hty : M.ty = true) (hpr : M.pr = true) (hrs : M.rs = true) (a0 : ℕ) (a1 : Bool) (a2 : State)  :
    (evalAct a0 a1 a2).clr M = a2.clr M := by
  unfold evalAct
  repeat' first
    | with_reducible rfl | split | with_reducible refine (actResult_clr M hrs _ _ _ ).trans ?_
    | with_reducible refine (becomeActive_clr M hnt hty hrs _ _ _ _ ).trans ?_
    | with_reducible refine (countDefer_clr M hnt _ _ _ _ _ ).trans ?_ | with_reducible refine (pairEvent_clr M hpr _ _ ).trans ?_
    | with_reducible refine (wakeTile_clr M hnt hrs _ _ _ ).trans ?_ | with_reducible refine (forEach_clr M _ _ _ ?_).trans ?_
    | with_reducible refine (doIf_clr M _ _ _ ?_).trans ?_
    | simp only [upd_nt M hnt, upd_rs M hrs, upd_pr M hpr, upd_ty M hty, upd_ty_pr M hty hpr]
    | with_reducible refine (foldl_clr M _ _ _ ?_).trans ?_ | intro _ | dsimp only

theorem ctxStep7_clr (M : Mask) (hnt : M.nt = true) (hty : M.ty = true) (hpr : M.pr = true) (hrs : M.rs = true) (a0 : State)  :
    (ctxStep7 a0).clr M = a0.clr M := by
  unfold ctxStep7
  repeat' first
    | with_reducible rfl | split | with_reducible refine (evalAct_clr M hnt hty hpr hrs _ _ _ ).trans ?_
    | with_reducible refine (forEach_clr M _ _ _ ?_).trans ?_
    | simp only [upd_nt M hnt, upd_rs M hrs, upd_pr M hpr, upd_ty M hty, upd_ty_pr M hty hpr]
    | with_reducible refine (foldl_clr M _ _ _ ?_).trans ?_ | intro _ | dsimp only

theorem trainModules_clr (M : Mask) (hlk : M.lk = true) (a0 : State)  :
    (trainModules a0).clr M = a0.clr M := by
  unfold trainModules
  repeat' first
    | with_reducible rfl | split | simp only [upd_lk M hlk] | with_reducible refine (foldl_clr M _ _ _ ?_).trans ?_ | intro _
    | dsimp only

theorem lasersOff_clr (M : Mask) (hout : M.out = true) (a0 : State)  :
    (lasersOff a0).clr M = a0.clr M := by
  unfold lasersOff
  repeat' first
    | with_reducible rfl | split | with_reducible refine (laserOut_clr M hout _ _ _ _ ).trans ?_
    | with_reducible refine (forEach_clr M _ _ _ ?_).trans ?_ | with_reducible refine (foldl_clr M _ _ _ ?_).trans ?_ | intro _
    | dsimp only

theorem testDie_clr (M : Mask) (hrg : M.rg = true) (hft : M.ft = true) (a0 : List (ℕ × ℕ)) (a1 : ℕ) (a2 : State)  :
    (testDie a0 a1 a2).clr M = a2.clr M := by
  unfold testDie
  repeat' first
    | with_reducible rfl | split | with_reducible refine (raise_clr M hrg hft _ _ _ _ _ _ ).trans ?_
    | simp only [upd_ft M hft, upd_rg M hrg] | with_reducible refine (foldl_clr M _ _ _ ?_).trans ?_ | intro _ | dsimp only

theorem testRouters_clr (M : Mask) (hrg : M.rg = true) (hft : M.ft = true) (a0 : List (ℕ × ℕ)) (a1 : State)  :
    (testRouters a0 a1).clr M = a1.clr M := by
  unfold testRouters
  repeat' first
    | with_reducible rfl | split | with_reducible refine (testDie_clr M hrg hft _ _ _ ).trans ?_
    | with_reducible refine (forEach_clr M _ _ _ ?_).trans ?_ | with_reducible refine (foldl_clr M _ _ _ ?_).trans ?_ | intro _
    | dsimp only

theorem bringUp_clr (M : Mask) (htm : M.tm = true) (hrg : M.rg = true) (hnt : M.nt = true) (hpl : M.pl = true) (hmp : M.mp = true) (hdr : M.dr = true) (hse : M.se = true) (hci : M.ci = true) (hbk : M.bk = true) (hpg : M.pg = true) (hty : M.ty = true) (hpr : M.pr = true) (hlk : M.lk = true) (hhs : M.hs = true) (hop : M.op = true) (hft : M.ft = true) (hrs : M.rs = true) (hfw : M.fw = true) (hsv : M.sv = true) (hout : M.out = true) (a0 : List (ℕ × ℕ)) (a1 : State)  :
    (bringUp a0 a1).clr M = a1.clr M := by
  unfold bringUp
  repeat' first
    | with_reducible rfl | split | with_reducible refine (trainModules_clr M hlk _ ).trans ?_
    | with_reducible refine (lasersOff_clr M hout _ ).trans ?_ | with_reducible refine (testRouters_clr M hrg hft _ _ ).trans ?_
    | with_reducible refine (startCycle_clr M hnt _ ).trans ?_
    | simp only [upd_nt M hnt, upd_ci M hci, upd_rs M hrs, upd_ft M hft, upd_pr M hpr, upd_pg M hpg, upd_out M hout, upd_ft_rs M hft hrs, upd_sv M hsv, upd_se_ci_bk M hse hci hbk, upd_tm_ft_fw M htm hft hfw, upd_se M hse, upd_rg M hrg, upd_ty M hty, upd_fw M hfw, upd_lk M hlk, upd_hs M hhs, upd_pl M hpl, upd_tm M htm, upd_ty_pr M hty hpr, upd_tm_rg_nt_pl_mp_dr_se_ci_bk_pg_ty_pr_lk_hs_op_ft_rs_fw_sv M htm hrg hnt hpl hmp hdr hse hci hbk hpg hty hpr hlk hhs hop hft hrs hfw hsv, upd_dr M hdr, upd_se_pg_ty M hse hpg hty, upd_ft_fw M hft hfw, upd_op M hop, upd_mp M hmp, upd_se_pg M hse hpg, upd_bk M hbk, upd_tm_lk_fw M htm hlk hfw, upd_tm_rs M htm hrs, upd_rg_nt M hrg hnt, upd_nt_ci_bk_pg M hnt hci hbk hpg, upd_nt_mp M hnt hmp]
    | with_reducible refine (foldl_clr M _ _ _ ?_).trans ?_ | intro _ | dsimp only

theorem brownedOut_clr (M : Mask) (hkp : M.kp = true) (a0 : State)  :
    (brownedOut a0).clr M = a0.clr M := by
  unfold brownedOut
  repeat' first
    | with_reducible rfl | split | simp only [upd_kp M hkp] | with_reducible refine (foldl_clr M _ _ _ ?_).trans ?_ | intro _
    | dsimp only

theorem nextEpoch_clr (M : Mask) (hkp : M.kp = true) (a0 : State)  :
    (nextEpoch a0).clr M = a0.clr M := by
  unfold nextEpoch
  repeat' first
    | with_reducible rfl | split | simp only [upd_kp M hkp] | with_reducible refine (foldl_clr M _ _ _ ?_).trans ?_ | intro _
    | dsimp only

theorem checkKeep_clr (M : Mask) (hkp : M.kp = true) (a0 : Bool) (a1 : State)  :
    (checkKeep a0 a1).clr M = a1.clr M := by
  unfold checkKeep
  repeat' first
    | with_reducible rfl | split | with_reducible refine (nextEpoch_clr M hkp _ ).trans ?_ | simp only [upd_kp M hkp]
    | with_reducible refine (foldl_clr M _ _ _ ?_).trans ?_ | intro _ | dsimp only

theorem clWoken_clr (M : Mask) (hnt : M.nt = true) (hrs : M.rs = true) (a0 : ℕ) (a1 : ℕ) (a2 : State)  :
    (clWoken a0 a1 a2).clr M = a2.clr M := by
  unfold clWoken
  repeat' first
    | with_reducible rfl | split | with_reducible refine (wakeTile_clr M hnt hrs _ _ _ ).trans ?_
    | with_reducible refine (foldl_clr M _ _ _ ?_).trans ?_ | intro _ | dsimp only

theorem endLp2_clr (M : Mask) (hrs : M.rs = true) (a0 : State)  :
    (endLp2 a0).clr M = a0.clr M := by
  unfold endLp2
  repeat' first
    | with_reducible rfl | split | simp only [upd_rs M hrs] | with_reducible refine (foldl_clr M _ _ _ ?_).trans ?_ | intro _
    | dsimp only

theorem fabricReset_clr (M : Mask) (htm : M.tm = true) (hrg : M.rg = true) (hnt : M.nt = true) (hpl : M.pl = true) (hmp : M.mp = true) (hdr : M.dr = true) (hse : M.se = true) (hci : M.ci = true) (hbk : M.bk = true) (hpg : M.pg = true) (hty : M.ty = true) (hpr : M.pr = true) (hlk : M.lk = true) (hhs : M.hs = true) (hop : M.op = true) (hft : M.ft = true) (hkp : M.kp = true) (hrs : M.rs = true) (hfw : M.fw = true) (hsv : M.sv = true) (hout : M.out = true) (a0 : Bool) (a1 : State)  :
    (fabricReset a0 a1).clr M = a1.clr M := by
  unfold fabricReset
  repeat' first
    | with_reducible rfl | split
    | with_reducible refine (bringUp_clr M htm hrg hnt hpl hmp hdr hse hci hbk hpg hty hpr hlk hhs hop hft hrs hfw hsv hout _ _ ).trans ?_
    | with_reducible refine (emit_clr M hout _ _ ).trans ?_ | with_reducible refine (nextEpoch_clr M hkp _ ).trans ?_
    | simp only [upd_nt M hnt, upd_ci M hci, upd_rs M hrs, upd_ft M hft, upd_pr M hpr, upd_pg M hpg, upd_out M hout, upd_ft_rs M hft hrs, upd_sv M hsv, upd_se_ci_bk M hse hci hbk, upd_tm_ft_fw M htm hft hfw, upd_se M hse, upd_rg M hrg, upd_kp M hkp, upd_ty M hty, upd_fw M hfw, upd_lk M hlk, upd_hs M hhs, upd_pl M hpl, upd_tm M htm, upd_ty_pr M hty hpr, upd_tm_rg_nt_pl_mp_dr_se_ci_bk_pg_ty_pr_lk_hs_op_ft_rs_fw_sv M htm hrg hnt hpl hmp hdr hse hci hbk hpg hty hpr hlk hhs hop hft hrs hfw hsv, upd_dr M hdr, upd_se_pg_ty M hse hpg hty, upd_ft_fw M hft hfw, upd_op M hop, upd_mp M hmp, upd_se_pg M hse hpg, upd_kp_fw M hkp hfw, upd_bk M hbk, upd_tm_lk_fw M htm hlk hfw, upd_tm_rs M htm hrs, upd_rg_nt M hrg hnt, upd_kp_sv M hkp hsv, upd_nt_ci_bk_pg M hnt hci hbk hpg, upd_nt_mp M hnt hmp]
    | with_reducible refine (foldl_clr M _ _ _ ?_).trans ?_ | intro _ | dsimp only

theorem hostDiscard_clr (M : Mask) (hhs : M.hs = true) (a0 : ℕ) (a1 : State)  :
    (hostDiscard a0 a1).clr M = a1.clr M := by
  unfold hostDiscard
  repeat' first
    | with_reducible rfl | split | with_reducible refine (modHost_clr M hhs _ _ _ ).trans ?_
    | with_reducible refine (foldl_clr M _ _ _ ?_).trans ?_ | intro _ | dsimp only

theorem loseActive_clr (M : Mask) (hrs : M.rs = true) (a0 : ℕ) (a1 : ℕ) (a2 : State)  :
    (loseActive a0 a1 a2).clr M = a2.clr M := by
  unfold loseActive
  repeat' first
    | with_reducible rfl | split | simp only [upd_rs M hrs] | with_reducible refine (foldl_clr M _ _ _ ?_).trans ?_ | intro _
    | dsimp only

theorem loseUnits_clr (M : Mask) (hrg : M.rg = true) (hnt : M.nt = true) (hdr : M.dr = true) (hse : M.se = true) (hpg : M.pg = true) (hty : M.ty = true) (hpr : M.pr = true) (hlk : M.lk = true) (hft : M.ft = true) (hout : M.out = true) (a0 : ℕ) (a1 : State)  :
    (loseUnits a0 a1).clr M = a1.clr M := by
  unfold loseUnits
  repeat' first
    | with_reducible rfl | split | with_reducible refine (completeSeam_clr M hrg hnt hdr hse hty hpr hlk hft hout _ _ _ _ _ ).trans ?_
    | with_reducible refine (forEach_clr M _ _ _ ?_).trans ?_
    | simp only [upd_nt M hnt, upd_ft M hft, upd_pr M hpr, upd_pg M hpg, upd_out M hout, upd_se M hse, upd_rg M hrg, upd_ty M hty, upd_lk M hlk, upd_ty_pr M hty hpr, upd_dr M hdr, upd_se_pg_ty M hse hpg hty, upd_se_pg M hse hpg, upd_rg_nt M hrg hnt]
    | with_reducible refine (foldl_clr M _ _ _ ?_).trans ?_ | intro _ | dsimp only

theorem loseRuntime_clr (M : Mask) (hrg : M.rg = true) (hnt : M.nt = true) (hdr : M.dr = true) (hse : M.se = true) (hpg : M.pg = true) (hty : M.ty = true) (hpr : M.pr = true) (hlk : M.lk = true) (hft : M.ft = true) (hrs : M.rs = true) (hout : M.out = true) (a0 : ℕ → ℕ → State → State) (a1 : ℕ) (a2 : State) (hf0 : ∀ x0 x1 x2, (a0 x0 x1 x2).clr M = x2.clr M) :
    (loseRuntime a0 a1 a2).clr M = a2.clr M := by
  unfold loseRuntime
  repeat' first
    | with_reducible rfl | split | with_reducible refine (resetKept_clr M hft _ _ ).trans ?_
    | with_reducible refine (loseActive_clr M hrs _ _ _ ).trans ?_
    | with_reducible refine (loseUnits_clr M hrg hnt hdr hse hpg hty hpr hlk hft hout _ _ ).trans ?_
    | with_reducible refine (forEach_clr M _ _ _ ?_).trans ?_ | with_reducible refine (foldl_clr M _ _ _ ?_).trans ?_
    | with_reducible refine (hf0 _).trans ?_ | with_reducible refine (hf0 _ _).trans ?_ | with_reducible refine (hf0 _ _ _).trans ?_
    | intro _ | dsimp only

theorem loseTileRuntime_clr (M : Mask) (hrg : M.rg = true) (hdr : M.dr = true) (hse : M.se = true) (hci : M.ci = true) (hbk : M.bk = true) (hout : M.out = true) (a0 : ℕ) (a1 : ℕ) (a2 : State)  :
    (loseTileRuntime a0 a1 a2).clr M = a2.clr M := by
  unfold loseTileRuntime
  repeat' first
    | with_reducible rfl | split | with_reducible refine (drnTileReset_clr M hrg hdr hci hout _ _ _ ).trans ?_
    | simp only [upd_ci M hci, upd_out M hout, upd_se_ci_bk M hse hci hbk, upd_se M hse, upd_rg M hrg, upd_dr M hdr, upd_bk M hbk]
    | with_reducible refine (foldl_clr M _ _ _ ?_).trans ?_ | intro _ | dsimp only

theorem loseTile_clr (M : Mask) (hrg : M.rg = true) (hnt : M.nt = true) (hmp : M.mp = true) (hdr : M.dr = true) (hse : M.se = true) (hci : M.ci = true) (hbk : M.bk = true) (hrs : M.rs = true) (hout : M.out = true) (a0 : ℕ) (a1 : ℕ) (a2 : State)  :
    (loseTile a0 a1 a2).clr M = a2.clr M := by
  unfold loseTile
  repeat' first
    | with_reducible rfl | split | with_reducible refine (modCip_clr M hci _ _ _ _ ).trans ?_
    | with_reducible refine (zeroTileTokens_clr M hnt _ _ _ ).trans ?_
    | with_reducible refine (loseTileRuntime_clr M hrg hdr hse hci hbk hout _ _ _ ).trans ?_
    | with_reducible refine (wakeTile_clr M hnt hrs _ _ _ ).trans ?_
    | simp only [upd_nt M hnt, upd_ci M hci, upd_rs M hrs, upd_out M hout, upd_se_ci_bk M hse hci hbk, upd_se M hse, upd_rg M hrg, upd_dr M hdr, upd_mp M hmp, upd_bk M hbk, upd_rg_nt M hrg hnt, upd_nt_mp M hnt hmp]
    | with_reducible refine (foldl_clr M _ _ _ ?_).trans ?_ | intro _ | dsimp only

theorem por_clr (M : Mask) (htm : M.tm = true) (hrg : M.rg = true) (hnt : M.nt = true) (hpl : M.pl = true) (hmp : M.mp = true) (hdr : M.dr = true) (hse : M.se = true) (hci : M.ci = true) (hbk : M.bk = true) (hpg : M.pg = true) (hty : M.ty = true) (hpr : M.pr = true) (hlk : M.lk = true) (hhs : M.hs = true) (hop : M.op = true) (hft : M.ft = true) (hkp : M.kp = true) (hrs : M.rs = true) (hfw : M.fw = true) (hsv : M.sv = true) (hram : M.ram = true) (hout : M.out = true) (a0 : BitVec 16) (a1 : Bool) (a2 : List (ℕ × ℕ)) (a3 : List ℕ) (a4 : State)  :
    (por a0 a1 a2 a3 a4).clr M = a4.clr M := by
  unfold por
  repeat' first
    | with_reducible rfl | split
    | with_reducible refine (bringUp_clr M htm hrg hnt hpl hmp hdr hse hci hbk hpg hty hpr hlk hhs hop hft hrs hfw hsv hout _ _ ).trans ?_
    | with_reducible refine (checkKeep_clr M hkp _ _ ).trans ?_
    | simp only [upd_nt M hnt, upd_ci M hci, upd_rs M hrs, upd_ft M hft, upd_pr M hpr, upd_pg M hpg, upd_out M hout, upd_ft_rs M hft hrs, upd_sv M hsv, upd_se_ci_bk M hse hci hbk, upd_tm_ft_fw M htm hft hfw, upd_se M hse, upd_rg M hrg, upd_kp M hkp, upd_ty M hty, upd_fw M hfw, upd_lk M hlk, upd_hs M hhs, upd_pl M hpl, upd_tm M htm, upd_ty_pr M hty hpr, upd_tm_rg_nt_pl_mp_dr_se_ci_bk_pg_ty_pr_lk_hs_op_ft_rs_fw_sv M htm hrg hnt hpl hmp hdr hse hci hbk hpg hty hpr hlk hhs hop hft hrs hfw hsv, upd_dr M hdr, upd_se_pg_ty M hse hpg hty, upd_tm_ram M htm hram, upd_ft_fw M hft hfw, upd_op M hop, upd_mp M hmp, upd_se_pg M hse hpg, upd_kp_fw M hkp hfw, upd_bk M hbk, upd_tm_lk_fw M htm hlk hfw, upd_tm_rs M htm hrs, upd_ram M hram, upd_rg_nt M hrg hnt, upd_kp_sv M hkp hsv, upd_nt_ci_bk_pg M hnt hci hbk hpg, upd_nt_mp M hnt hmp]
    | with_reducible refine (foldl_clr M _ _ _ ?_).trans ?_ | intro _ | dsimp only

theorem porLow_clr (M : Mask) (htm : M.tm = true) (hft : M.ft = true) (hfw : M.fw = true) (hout : M.out = true) (a0 : State)  :
    (porLow a0).clr M = a0.clr M := by
  unfold porLow
  repeat' first
    | with_reducible rfl | split | with_reducible refine (emit_clr M hout _ _ ).trans ?_
    | simp only [upd_ft M hft, upd_out M hout, upd_tm_ft_fw M htm hft hfw, upd_fw M hfw, upd_tm M htm, upd_ft_fw M hft hfw]
    | with_reducible refine (foldl_clr M _ _ _ ?_).trans ?_ | intro _ | dsimp only

theorem resetPage_clr (M : Mask) (hrg : M.rg = true) (a0 : ℕ) (a1 : ℕ) (a2 : State)  :
    (resetPage a0 a1 a2).clr M = a2.clr M := by
  unfold resetPage
  repeat' first
    | with_reducible rfl | split | with_reducible refine (modPage_clr M hrg _ _ _ _ ).trans ?_ | simp only [upd_rg M hrg]
    | with_reducible refine (foldl_clr M _ _ _ ?_).trans ?_ | intro _ | dsimp only

theorem resetPort_clr (M : Mask) (hrg : M.rg = true) (hlk : M.lk = true) (hhs : M.hs = true) (a0 : ℕ) (a1 : ℕ) (a2 : State)  :
    (resetPort a0 a1 a2).clr M = a2.clr M := by
  unfold resetPort
  repeat' first
    | with_reducible rfl | split | with_reducible refine (resetPage_clr M hrg _ _ _ ).trans ?_
    | with_reducible refine (modLink_clr M hlk _ _ _ _ ).trans ?_ | with_reducible refine (hostDiscard_clr M hhs _ _ ).trans ?_
    | simp only [upd_rg M hrg, upd_lk M hlk, upd_hs M hhs] | with_reducible refine (foldl_clr M _ _ _ ?_).trans ?_ | intro _
    | dsimp only

theorem zeroReg_clr (M : Mask) (hrg : M.rg = true) (a0 : ℕ) (a1 : ℕ) (a2 : ℕ) (a3 : State)  :
    (zeroReg a0 a1 a2 a3).clr M = a3.clr M := by
  unfold zeroReg
  repeat' first
    | with_reducible rfl | split | with_reducible refine (setReg_clr M hrg _ _ _ _ _ _ ).trans ?_
    | with_reducible refine (foldl_clr M _ _ _ ?_).trans ?_ | intro _ | dsimp only

theorem resetEndpointPages_clr (M : Mask) (hrg : M.rg = true) (a0 : ℕ) (a1 : ℕ) (a2 : State)  :
    (resetEndpointPages a0 a1 a2).clr M = a2.clr M := by
  unfold resetEndpointPages
  repeat' first
    | with_reducible rfl | split | with_reducible refine (resetPage_clr M hrg _ _ _ ).trans ?_
    | with_reducible refine (forEach_clr M _ _ _ ?_).trans ?_ | with_reducible refine (foldl_clr M _ _ _ ?_).trans ?_ | intro _
    | dsimp only

theorem resetTile_clr (M : Mask) (hrg : M.rg = true) (hnt : M.nt = true) (hmp : M.mp = true) (hdr : M.dr = true) (hse : M.se = true) (hci : M.ci = true) (hbk : M.bk = true) (hrs : M.rs = true) (hout : M.out = true) (a0 : ℕ) (a1 : ℕ) (a2 : State)  :
    (resetTile a0 a1 a2).clr M = a2.clr M := by
  unfold resetTile
  repeat' first
    | with_reducible rfl | split | with_reducible refine (resetPage_clr M hrg _ _ _ ).trans ?_
    | with_reducible refine (zeroReg_clr M hrg _ _ _ _ ).trans ?_ | with_reducible refine (loseActive_clr M hrs _ _ _ ).trans ?_
    | with_reducible refine (loseTile_clr M hrg hnt hmp hdr hse hci hbk hrs hout _ _ _ ).trans ?_
    | with_reducible refine (zeroTileTokens_clr M hnt _ _ _ ).trans ?_
    | with_reducible refine (resetEndpointPages_clr M hrg _ _ _ ).trans ?_ | with_reducible refine (forEach_clr M _ _ _ ?_).trans ?_
    | simp only [upd_nt M hnt, upd_ci M hci, upd_rs M hrs, upd_out M hout, upd_se_ci_bk M hse hci hbk, upd_se M hse, upd_rg M hrg, upd_dr M hdr, upd_mp M hmp, upd_bk M hbk, upd_rg_nt M hrg hnt, upd_nt_mp M hnt hmp]
    | with_reducible refine (foldl_clr M _ _ _ ?_).trans ?_ | intro _ | dsimp only

theorem resetDie_clr (M : Mask) (htm : M.tm = true) (hrg : M.rg = true) (hnt : M.nt = true) (hmp : M.mp = true) (hdr : M.dr = true) (hse : M.se = true) (hci : M.ci = true) (hbk : M.bk = true) (hpg : M.pg = true) (hty : M.ty = true) (hpr : M.pr = true) (hlk : M.lk = true) (hhs : M.hs = true) (hft : M.ft = true) (hrs : M.rs = true) (hout : M.out = true) (a0 : ℕ) (a1 : State)  :
    (resetDie a0 a1).clr M = a1.clr M := by
  unfold resetDie
  repeat' first
    | with_reducible rfl | split | with_reducible refine (resetPage_clr M hrg _ _ _ ).trans ?_
    | with_reducible refine (zeroReg_clr M hrg _ _ _ _ ).trans ?_ | with_reducible refine (hostDiscard_clr M hhs _ _ ).trans ?_
    | with_reducible refine (loseTile_clr M hrg hnt hmp hdr hse hci hbk hrs hout _ _ _ ).trans ?_
    | with_reducible refine (zeroTileTokens_clr M hnt _ _ _ ).trans ?_
    | with_reducible refine (resetEndpointPages_clr M hrg _ _ _ ).trans ?_
    | with_reducible refine (loseRuntime_clr M hrg hnt hdr hse hpg hty hpr hlk hft hrs hout _ _ _ ?_).trans ?_
    | with_reducible refine (forEach_clr M _ _ _ ?_).trans ?_
    | simp only [upd_nt M hnt, upd_ci M hci, upd_rs M hrs, upd_ft M hft, upd_pr M hpr, upd_pg M hpg, upd_out M hout, upd_ft_rs M hft hrs, upd_se_ci_bk M hse hci hbk, upd_se M hse, upd_rg M hrg, upd_ty M hty, upd_lk M hlk, upd_hs M hhs, upd_tm M htm, upd_ty_pr M hty hpr, upd_dr M hdr, upd_se_pg_ty M hse hpg hty, upd_mp M hmp, upd_se_pg M hse hpg, upd_bk M hbk, upd_tm_rs M htm hrs, upd_rg_nt M hrg hnt, upd_nt_ci_bk_pg M hnt hci hbk hpg, upd_nt_mp M hnt hmp]
    | with_reducible refine (foldl_clr M _ _ _ ?_).trans ?_ | intro _ | dsimp only

theorem quiesceReset_clr (M : Mask) (htm : M.tm = true) (hrg : M.rg = true) (hnt : M.nt = true) (hmp : M.mp = true) (hdr : M.dr = true) (hse : M.se = true) (hci : M.ci = true) (hbk : M.bk = true) (hpg : M.pg = true) (hty : M.ty = true) (hpr : M.pr = true) (hlk : M.lk = true) (hhs : M.hs = true) (hft : M.ft = true) (hrs : M.rs = true) (hout : M.out = true) (a0 : Quiesce) (a1 : Bool) (a2 : State)  :
    (quiesceReset a0 a1 a2).clr M = a2.clr M := by
  unfold quiesceReset
  repeat' first
    | with_reducible rfl | split | with_reducible refine (resetPort_clr M hrg hlk hhs _ _ _ ).trans ?_
    | with_reducible refine (resetTile_clr M hrg hnt hmp hdr hse hci hbk hrs hout _ _ _ ).trans ?_
    | with_reducible refine (sendLoss_clr M hnt _ _ _ _ _ _ ).trans ?_
    | with_reducible refine (resetDie_clr M htm hrg hnt hmp hdr hse hci hbk hpg hty hpr hlk hhs hft hrs hout _ _ ).trans ?_
    | with_reducible refine (forEach_clr M _ _ _ ?_).trans ?_
    | simp only [upd_nt M hnt, upd_ci M hci, upd_rs M hrs, upd_ft M hft, upd_pr M hpr, upd_pg M hpg, upd_out M hout, upd_ft_rs M hft hrs, upd_se_ci_bk M hse hci hbk, upd_se M hse, upd_rg M hrg, upd_ty M hty, upd_lk M hlk, upd_hs M hhs, upd_tm M htm, upd_ty_pr M hty hpr, upd_dr M hdr, upd_se_pg_ty M hse hpg hty, upd_mp M hmp, upd_se_pg M hse hpg, upd_bk M hbk, upd_tm_rs M htm hrs, upd_rg_nt M hrg hnt, upd_nt_ci_bk_pg M hnt hci hbk hpg, upd_nt_mp M hnt hmp]
    | with_reducible refine (foldl_clr M _ _ _ ?_).trans ?_ | intro _ | dsimp only

theorem quiesceDrained_clr (M : Mask) (htm : M.tm = true) (hrg : M.rg = true) (hnt : M.nt = true) (hmp : M.mp = true) (hdr : M.dr = true) (hse : M.se = true) (hci : M.ci = true) (hbk : M.bk = true) (hpg : M.pg = true) (hty : M.ty = true) (hpr : M.pr = true) (hlk : M.lk = true) (hhs : M.hs = true) (hft : M.ft = true) (hrs : M.rs = true) (hout : M.out = true) (a0 : State)  :
    (quiesceDrained a0).clr M = a0.clr M := by
  unfold quiesceDrained
  repeat' first
    | with_reducible rfl | split
    | with_reducible refine (quiesceReset_clr M htm hrg hnt hmp hdr hse hci hbk hpg hty hpr hlk hhs hft hrs hout _ _ _ ).trans ?_
    | with_reducible refine (foldl_clr M _ _ _ ?_).trans ?_ | intro _ | dsimp only

theorem quiesceLimit_clr (M : Mask) (htm : M.tm = true) (hrg : M.rg = true) (hnt : M.nt = true) (hmp : M.mp = true) (hdr : M.dr = true) (hse : M.se = true) (hci : M.ci = true) (hbk : M.bk = true) (hpg : M.pg = true) (hty : M.ty = true) (hpr : M.pr = true) (hlk : M.lk = true) (hhs : M.hs = true) (hft : M.ft = true) (hrs : M.rs = true) (hout : M.out = true) (a0 : State)  :
    (quiesceLimit a0).clr M = a0.clr M := by
  unfold quiesceLimit
  repeat' first
    | with_reducible rfl | split
    | with_reducible refine (quiesceReset_clr M htm hrg hnt hmp hdr hse hci hbk hpg hty hpr hlk hhs hft hrs hout _ _ _ ).trans ?_
    | with_reducible refine (raise0_clr M hrg hft _ _ _ _ ).trans ?_ | with_reducible refine (foldl_clr M _ _ _ ?_).trans ?_ | intro _
    | dsimp only

theorem returnCredits_clr (M : Mask) (hrg : M.rg = true) (hnt : M.nt = true) (hlk : M.lk = true) (a0 : ℕ) (a1 : ℕ) (a2 : State)  :
    (returnCredits a0 a1 a2).clr M = a2.clr M := by
  unfold returnCredits
  repeat' first
    | with_reducible rfl | split | with_reducible refine (retrain_clr M hrg hlk _ _ _ ).trans ?_
    | with_reducible refine (forEach_clr M _ _ _ ?_).trans ?_
    | simp only [upd_nt M hnt, upd_rg M hrg, upd_lk M hlk, upd_rg_nt M hrg hnt] | with_reducible refine (foldl_clr M _ _ _ ?_).trans ?_
    | intro _ | dsimp only

theorem quiesceReturn_clr (M : Mask) (hrg : M.rg = true) (hnt : M.nt = true) (hlk : M.lk = true) (hrs : M.rs = true) (a0 : State)  :
    (quiesceReturn a0).clr M = a0.clr M := by
  unfold quiesceReturn
  repeat' first
    | with_reducible rfl | split | with_reducible refine (returnCredits_clr M hrg hnt hlk _ _ _ ).trans ?_
    | with_reducible refine (reinitCredits_clr M hnt _ _ _ ).trans ?_ | with_reducible refine (retrain_clr M hrg hlk _ _ _ ).trans ?_
    | simp only [upd_nt M hnt, upd_rs M hrs, upd_rg M hrg, upd_lk M hlk, upd_rg_nt M hrg hnt]
    | with_reducible refine (foldl_clr M _ _ _ ?_).trans ?_ | intro _ | dsimp only

theorem resetResult_clr (M : Mask) (hrs : M.rs = true) (a0 : ℕ) (a1 : State)  :
    (resetResult a0 a1).clr M = a1.clr M := by
  unfold resetResult
  repeat' first
    | with_reducible rfl | split | simp only [upd_rs M hrs] | with_reducible refine (foldl_clr M _ _ _ ?_).trans ?_ | intro _
    | dsimp only

theorem startQuiesce_clr (M : Mask) (hrg : M.rg = true) (hnt : M.nt = true) (hmp : M.mp = true) (hdr : M.dr = true) (hse : M.se = true) (hci : M.ci = true) (hpg : M.pg = true) (hlk : M.lk = true) (hrs : M.rs = true) (hout : M.out = true) (a0 : ℕ) (a1 : ℕ) (a2 : ℕ) (a3 : State)  :
    (startQuiesce a0 a1 a2 a3).clr M = a3.clr M := by
  unfold startQuiesce
  repeat' first
    | with_reducible rfl | split | with_reducible refine (quiesceUnits_clr M hrg hnt hmp hdr hse hci hpg hlk hout _ _ ).trans ?_
    | with_reducible refine (endLp2_clr M hrs _ ).trans ?_
    | with_reducible refine (failSeamsAt_clr M hrg hnt hse hlk hout _ _ _ _ ).trans ?_
    | with_reducible refine (fenceTile_clr M hrg hnt hdr hse hci hout _ _ _ ).trans ?_
    | with_reducible refine (wakeTile_clr M hnt hrs _ _ _ ).trans ?_
    | with_reducible refine (flushTile_clr M hnt hmp hci _ _ _ ).trans ?_
    | simp only [upd_nt M hnt, upd_ci M hci, upd_rs M hrs, upd_pg M hpg, upd_out M hout, upd_se M hse, upd_rg M hrg, upd_lk M hlk, upd_dr M hdr, upd_mp M hmp, upd_se_pg M hse hpg, upd_rg_nt M hrg hnt, upd_nt_mp M hnt hmp]
    | with_reducible refine (foldl_clr M _ _ _ ?_).trans ?_ | intro _ | dsimp only

theorem resetPart_clr (M : Mask) (hrg : M.rg = true) (hnt : M.nt = true) (hmp : M.mp = true) (hdr : M.dr = true) (hse : M.se = true) (hci : M.ci = true) (hpg : M.pg = true) (hlk : M.lk = true) (hrs : M.rs = true) (hout : M.out = true) (a0 : Instr) (a1 : ℕ) (a2 : ℕ) (a3 : ℕ) (a4 : State)  :
    (resetPart a0 a1 a2 a3 a4).clr M = a4.clr M := by
  unfold resetPart
  repeat' first
    | with_reducible rfl | split | with_reducible refine (resetResult_clr M hrs _ _ ).trans ?_
    | with_reducible refine (startQuiesce_clr M hrg hnt hmp hdr hse hci hpg hlk hrs hout _ _ _ _ ).trans ?_
    | simp only [upd_nt M hnt, upd_ci M hci, upd_rs M hrs, upd_pg M hpg, upd_out M hout, upd_se M hse, upd_rg M hrg, upd_lk M hlk, upd_dr M hdr, upd_mp M hmp, upd_se_pg M hse hpg, upd_rg_nt M hrg hnt, upd_nt_mp M hnt hmp]
    | with_reducible refine (foldl_clr M _ _ _ ?_).trans ?_ | intro _ | dsimp only

theorem supplyLost_clr (M : Mask) (htm : M.tm = true) (hft : M.ft = true) (hkp : M.kp = true) (hfw : M.fw = true) (hout : M.out = true) (a0 : State)  :
    (supplyLost a0).clr M = a0.clr M := by
  unfold supplyLost
  repeat' first
    | with_reducible rfl | split | with_reducible refine (porLow_clr M htm hft hfw hout _ ).trans ?_
    | simp only [upd_ft M hft, upd_out M hout, upd_tm_ft_fw M htm hft hfw, upd_kp M hkp, upd_fw M hfw, upd_tm M htm, upd_ft_fw M hft hfw, upd_kp_fw M hkp hfw]
    | with_reducible refine (foldl_clr M _ _ _ ?_).trans ?_ | intro _ | dsimp only

theorem acceptSet_clr (M : Mask) (hkp : M.kp = true) (a0 : ℕ) (a1 : Bool) (a2 : Word) (a3 : State)  :
    (acceptSet a0 a1 a2 a3).clr M = a3.clr M := by
  unfold acceptSet
  repeat' first
    | with_reducible rfl | split | simp only [upd_kp M hkp] | with_reducible refine (foldl_clr M _ _ _ ?_).trans ?_ | intro _
    | dsimp only

theorem areaNext_clr (M : Mask) (hrg : M.rg = true) (a0 : State)  :
    (areaNext a0).clr M = a0.clr M := by
  unfold areaNext
  repeat' first
    | with_reducible rfl | split | with_reducible refine (setReg_clr M hrg _ _ _ _ _ _ ).trans ?_
    | with_reducible refine (foldl_clr M _ _ _ ?_).trans ?_ | intro _ | dsimp only

theorem areaSet_clr (M : Mask) (hrg : M.rg = true) (hkp : M.kp = true) (a0 : Word) (a1 : State)  :
    (areaSet a0 a1).clr M = a1.clr M := by
  unfold areaSet
  repeat' first
    | with_reducible rfl | split | with_reducible refine (badWrite_clr M hrg _ _ _ ).trans ?_
    | with_reducible refine (areaNext_clr M hrg _ ).trans ?_ | simp only [upd_rg M hrg, upd_kp M hkp]
    | with_reducible refine (foldl_clr M _ _ _ ?_).trans ?_ | intro _ | dsimp only

theorem enterLp1_clr (M : Mask) (hrg : M.rg = true) (hnt : M.nt = true) (hci : M.ci = true) (hrs : M.rs = true) (a0 : ℕ) (a1 : ℕ) (a2 : State)  :
    (enterLp1 a0 a1 a2).clr M = a2.clr M := by
  unfold enterLp1
  repeat' first
    | with_reducible rfl | split | with_reducible refine (freeCache_clr M hnt hci _ _ _ _ ).trans ?_
    | with_reducible refine (forEach_clr M _ _ _ ?_).trans ?_
    | simp only [upd_nt M hnt, upd_ci M hci, upd_rs M hrs, upd_rg M hrg, upd_rg_nt M hrg hnt]
    | with_reducible refine (foldl_clr M _ _ _ ?_).trans ?_ | intro _ | dsimp only

theorem loadService_clr (M : Mask) (hsv : M.sv = true) (a0 : State)  :
    (loadService a0).clr M = a0.clr M := by
  unfold loadService
  repeat' first
    | with_reducible rfl | split | simp only [upd_sv M hsv] | with_reducible refine (foldl_clr M _ _ _ ?_).trans ?_ | intro _
    | dsimp only

theorem startFrom_clr (M : Mask) (hft : M.ft = true) (hkp : M.kp = true) (hfw : M.fw = true) (hsv : M.sv = true) (hout : M.out = true) (a0 : ℕ) (a1 : Bool) (a2 : State)  :
    (startFrom a0 a1 a2).clr M = a2.clr M := by
  unfold startFrom
  repeat' first
    | with_reducible rfl | split | with_reducible refine (loadService_clr M hsv _ ).trans ?_
    | with_reducible refine (setErr_clr M hft hout _ _ ).trans ?_
    | simp only [upd_ft M hft, upd_out M hout, upd_sv M hsv, upd_kp M hkp, upd_fw M hfw, upd_ft_fw M hft hfw, upd_kp_fw M hkp hfw, upd_kp_sv M hkp hsv]
    | with_reducible refine (foldl_clr M _ _ _ ?_).trans ?_ | intro _ | dsimp only

theorem fmcStart_clr (M : Mask) (hft : M.ft = true) (hkp : M.kp = true) (hfw : M.fw = true) (hsv : M.sv = true) (hout : M.out = true) (a0 : Bool) (a1 : Bool) (a2 : State)  :
    (fmcStart a0 a1 a2).clr M = a2.clr M := by
  unfold fmcStart
  repeat' first
    | with_reducible rfl | split | with_reducible refine (startFrom_clr M hft hkp hfw hsv hout _ _ _ ).trans ?_
    | with_reducible refine (loadService_clr M hsv _ ).trans ?_
    | simp only [upd_ft M hft, upd_out M hout, upd_sv M hsv, upd_kp M hkp, upd_fw M hfw, upd_ft_fw M hft hfw, upd_kp_fw M hkp hfw, upd_kp_sv M hkp hsv]
    | with_reducible refine (foldl_clr M _ _ _ ?_).trans ?_ | intro _ | dsimp only

theorem lp1Step_clr (M : Mask) (hrg : M.rg = true) (hnt : M.nt = true) (hci : M.ci = true) (hrs : M.rs = true) (a0 : State)  :
    (lp1Step a0).clr M = a0.clr M := by
  unfold lp1Step
  repeat' first
    | with_reducible rfl | split | with_reducible refine (enterLp1_clr M hrg hnt hci hrs _ _ _ ).trans ?_
    | with_reducible refine (forEach_clr M _ _ _ ?_).trans ?_ | with_reducible refine (foldl_clr M _ _ _ ?_).trans ?_ | intro _
    | dsimp only

theorem lp1Write_clr (M : Mask) (hrg : M.rg = true) (hnt : M.nt = true) (hrs : M.rs = true) (a0 : ℕ) (a1 : Word) (a2 : State)  :
    (lp1Write a0 a1 a2).clr M = a2.clr M := by
  unfold lp1Write
  repeat' first
    | with_reducible rfl | split | with_reducible refine (setReg_clr M hrg _ _ _ _ _ _ ).trans ?_
    | with_reducible refine (wakeTile_clr M hnt hrs _ _ _ ).trans ?_ | with_reducible refine (forEach_clr M _ _ _ ?_).trans ?_
    | with_reducible refine (foldl_clr M _ _ _ ?_).trans ?_ | intro _ | dsimp only

theorem lpEnter_clr (M : Mask) (hrs : M.rs = true) (a0 : Bool) (a1 : State)  :
    (lpEnter a0 a1).clr M = a1.clr M := by
  unfold lpEnter
  repeat' first
    | with_reducible rfl | split | simp only [upd_rs M hrs] | with_reducible refine (foldl_clr M _ _ _ ?_).trans ?_ | intro _
    | dsimp only

theorem lpLeave_clr (M : Mask) (htm : M.tm = true) (hrg : M.rg = true) (hnt : M.nt = true) (hpl : M.pl = true) (hmp : M.mp = true) (hdr : M.dr = true) (hse : M.se = true) (hci : M.ci = true) (hbk : M.bk = true) (hpg : M.pg = true) (hty : M.ty = true) (hpr : M.pr = true) (hlk : M.lk = true) (hhs : M.hs = true) (hop : M.op = true) (hft : M.ft = true) (hkp : M.kp = true) (hrs : M.rs = true) (hfw : M.fw = true) (hsv : M.sv = true) (hout : M.out = true) (a0 : State)  :
    (lpLeave a0).clr M = a0.clr M := by
  unfold lpLeave
  repeat' first
    | with_reducible rfl | split | with_reducible refine (endLp2_clr M hrs _ ).trans ?_
    | with_reducible refine (fabricReset_clr M htm hrg hnt hpl hmp hdr hse hci hbk hpg hty hpr hlk hhs hop hft hkp hrs hfw hsv hout _ _ ).trans ?_
    | with_reducible refine (foldl_clr M _ _ _ ?_).trans ?_ | intro _ | dsimp only

theorem wakeLinks_clr (M : Mask) (hlk : M.lk = true) (a0 : State)  :
    (wakeLinks a0).clr M = a0.clr M := by
  unfold wakeLinks
  repeat' first
    | with_reducible rfl | split | simp only [upd_lk M hlk] | with_reducible refine (foldl_clr M _ _ _ ?_).trans ?_ | intro _
    | dsimp only

theorem sleepLasers_clr (M : Mask) (hop : M.op = true) (hout : M.out = true) (a0 : State)  :
    (sleepLasers a0).clr M = a0.clr M := by
  unfold sleepLasers
  repeat' first
    | with_reducible rfl | split | with_reducible refine (lasersOff_clr M hout _ ).trans ?_ | simp only [upd_out M hout, upd_op M hop]
    | with_reducible refine (foldl_clr M _ _ _ ?_).trans ?_ | intro _ | dsimp only

theorem sleepLinks_clr (M : Mask) (hlk : M.lk = true) (a0 : State)  :
    (sleepLinks a0).clr M = a0.clr M := by
  unfold sleepLinks
  repeat' first
    | with_reducible rfl | split | simp only [upd_lk M hlk] | with_reducible refine (foldl_clr M _ _ _ ?_).trans ?_ | intro _
    | dsimp only

theorem zeroTokens_clr (M : Mask) (hnt : M.nt = true) (a0 : State)  :
    (zeroTokens a0).clr M = a0.clr M := by
  unfold zeroTokens
  repeat' first
    | with_reducible rfl | split | simp only [upd_nt M hnt] | with_reducible refine (foldl_clr M _ _ _ ?_).trans ?_ | intro _
    | dsimp only

theorem lpStep_clr (M : Mask) (htm : M.tm = true) (hnt : M.nt = true) (hlk : M.lk = true) (hop : M.op = true) (hrs : M.rs = true) (hout : M.out = true) (a0 : State)  :
    (lpStep a0).clr M = a0.clr M := by
  unfold lpStep
  repeat' first
    | with_reducible rfl | split | with_reducible refine (wakeLinks_clr M hlk _ ).trans ?_
    | with_reducible refine (sleepLasers_clr M hop hout _ ).trans ?_ | with_reducible refine (sleepLinks_clr M hlk _ ).trans ?_
    | with_reducible refine (zeroTokens_clr M hnt _ ).trans ?_
    | simp only [upd_nt M hnt, upd_rs M hrs, upd_out M hout, upd_lk M hlk, upd_tm M htm, upd_op M hop, upd_tm_rs M htm hrs]
    | with_reducible refine (foldl_clr M _ _ _ ?_).trans ?_ | intro _ | dsimp only

theorem rollbackSet_clr (M : Mask) (hrg : M.rg = true) (hkp : M.kp = true) (a0 : Word) (a1 : State)  :
    (rollbackSet a0 a1).clr M = a1.clr M := by
  unfold rollbackSet
  repeat' first
    | with_reducible rfl | split | with_reducible refine (badWrite_clr M hrg _ _ _ ).trans ?_ | simp only [upd_rg M hrg, upd_kp M hkp]
    | with_reducible refine (foldl_clr M _ _ _ ?_).trans ?_ | intro _ | dsimp only

theorem setFwSlot_clr (M : Mask) (hfw : M.fw = true) (a0 : ℕ) (a1 : SetSlot) (a2 : State)  :
    (setFwSlot a0 a1 a2).clr M = a2.clr M := by
  unfold setFwSlot
  repeat' first
    | with_reducible rfl | split | simp only [upd_fw M hfw] | with_reducible refine (foldl_clr M _ _ _ ?_).trans ?_ | intro _
    | dsimp only

theorem spareSet_clr (M : Mask) (hkp : M.kp = true) (a0 : ℕ) (a1 : Word) (a2 : State)  :
    (spareSet a0 a1 a2).clr M = a2.clr M := by
  unfold spareSet
  repeat' first
    | with_reducible rfl | split | simp only [upd_kp M hkp] | with_reducible refine (foldl_clr M _ _ _ ?_).trans ?_ | intro _
    | dsimp only

theorem unitHashSet_clr (M : Mask) (hkp : M.kp = true) (a0 : ℕ) (a1 : Word) (a2 : State)  :
    (unitHashSet a0 a1 a2).clr M = a2.clr M := by
  unfold unitHashSet
  repeat' first
    | with_reducible rfl | split | simp only [upd_kp M hkp] | with_reducible refine (foldl_clr M _ _ _ ?_).trans ?_ | intro _
    | dsimp only

theorem consumeRecord_clr (M : Mask) (hnt : M.nt = true) (a0 : ℕ) (a1 : List Byte) (a2 : State)  :
    (consumeRecord a0 a1 a2).clr M = a2.clr M := by
  unfold consumeRecord
  repeat' first
    | with_reducible rfl | split | with_reducible refine (forEach_clr M _ _ _ ?_).trans ?_ | simp only [upd_nt M hnt]
    | with_reducible refine (foldl_clr M _ _ _ ?_).trans ?_ | intro _ | dsimp only

theorem stoCount_clr (M : Mask) (hrg : M.rg = true) (a0 : ℕ) (a1 : ℕ) (a2 : ℕ) (a3 : State)  :
    (stoCount a0 a1 a2 a3).clr M = a3.clr M := by
  unfold stoCount
  repeat' first
    | with_reducible rfl | split | with_reducible refine (addCount_clr M hrg _ _ _ _ _ ).trans ?_
    | with_reducible refine (foldl_clr M _ _ _ ?_).trans ?_ | intro _ | dsimp only

theorem modSto_clr (M : Mask) (hlk : M.lk = true) (a0 : ℕ) (a1 : StoPort → StoPort) (a2 : State)  :
    (modSto a0 a1 a2).clr M = a2.clr M := by
  unfold modSto
  repeat' first
    | with_reducible rfl | split | simp only [upd_lk M hlk] | with_reducible refine (foldl_clr M _ _ _ ?_).trans ?_ | intro _
    | dsimp only

theorem datagramClose_clr (M : Mask) (hrg : M.rg = true) (hty : M.ty = true) (hlk : M.lk = true) (hout : M.out = true) (a0 : ℕ) (a1 : State)  :
    (datagramClose a0 a1).clr M = a1.clr M := by
  unfold datagramClose
  repeat' first
    | with_reducible rfl | split | with_reducible refine (stoCount_clr M hrg _ _ _ _ ).trans ?_
    | with_reducible refine (modTly_clr M hty _ _ _ ).trans ?_ | with_reducible refine (emit_clr M hout _ _ ).trans ?_
    | with_reducible refine (modSto_clr M hlk _ _ _ ).trans ?_ | with_reducible refine (forEach_clr M _ _ _ ?_).trans ?_
    | with_reducible refine (foldl_clr M _ _ _ ?_).trans ?_ | intro _ | dsimp only

theorem gapSent_clr (M : Mask) (hrg : M.rg = true) (hnt : M.nt = true) (hty : M.ty = true) (a0 : ℕ) (a1 : ℕ) (a2 : State)  :
    (gapSent a0 a1 a2).clr M = a2.clr M := by
  unfold gapSent
  repeat' first
    | with_reducible rfl | split | with_reducible refine (drainLog_clr M hrg hnt hty _ _ _ ).trans ?_
    | with_reducible refine (sendGap_clr M hrg hnt hty _ _ _ ).trans ?_ | with_reducible refine (foldl_clr M _ _ _ ?_).trans ?_
    | intro _ | dsimp only

theorem logRecArrive_clr (M : Mask) (hrg : M.rg = true) (hnt : M.nt = true) (hty : M.ty = true) (hlk : M.lk = true) (hout : M.out = true) (a0 : ℕ) (a1 : List Byte) (a2 : State)  :
    (logRecArrive a0 a1 a2).clr M = a2.clr M := by
  unfold logRecArrive
  repeat' first
    | with_reducible rfl | split | with_reducible refine (datagramClose_clr M hrg hty hlk hout _ _ ).trans ?_
    | with_reducible refine (consumeRecord_clr M hnt _ _ _ ).trans ?_ | with_reducible refine (modSto_clr M hlk _ _ _ ).trans ?_
    | with_reducible refine (foldl_clr M _ _ _ ?_).trans ?_ | intro _ | dsimp only

theorem stoLinked_clr (M : Mask) (hrg : M.rg = true) (hnt : M.nt = true) (hty : M.ty = true) (hlk : M.lk = true) (a0 : ℕ) (a1 : State)  :
    (stoLinked a0 a1).clr M = a1.clr M := by
  unfold stoLinked
  repeat' first
    | with_reducible rfl | split | with_reducible refine (drainLog_clr M hrg hnt hty _ _ _ ).trans ?_
    | with_reducible refine (modSto_clr M hlk _ _ _ ).trans ?_ | with_reducible refine (forEach_clr M _ _ _ ?_).trans ?_
    | with_reducible refine (foldl_clr M _ _ _ ?_).trans ?_ | intro _ | dsimp only

theorem stoLost_clr (M : Mask) (hrg : M.rg = true) (hlk : M.lk = true) (hft : M.ft = true) (a0 : ℕ) (a1 : State)  :
    (stoLost a0 a1).clr M = a1.clr M := by
  unfold stoLost
  repeat' first
    | with_reducible rfl | split | with_reducible refine (stoCount_clr M hrg _ _ _ _ ).trans ?_
    | with_reducible refine (raise0_clr M hrg hft _ _ _ _ ).trans ?_ | with_reducible refine (modSto_clr M hlk _ _ _ ).trans ?_
    | with_reducible refine (foldl_clr M _ _ _ ?_).trans ?_ | intro _ | dsimp only

theorem restoreLinks_clr (M : Mask) (hlk : M.lk = true) (a0 : State)  :
    (restoreLinks a0).clr M = a0.clr M := by
  unfold restoreLinks
  repeat' first
    | with_reducible rfl | split | simp only [upd_lk M hlk] | with_reducible refine (foldl_clr M _ _ _ ?_).trans ?_ | intro _
    | dsimp only

theorem portChange_clr (M : Mask) (hrg : M.rg = true) (hlk : M.lk = true) (hft : M.ft = true) (hout : M.out = true) (a0 : Option (ℕ × ℕ × ℕ)) (a1 : ℕ) (a2 : State)  :
    (portChange a0 a1 a2).clr M = a2.clr M := by
  unfold portChange
  repeat' first
    | with_reducible rfl | split | with_reducible refine (holdLink_clr M hrg hlk hft _ _ _ _ _ ).trans ?_
    | with_reducible refine (modLnk_clr M hlk _ _ _ ).trans ?_ | with_reducible refine (sendIdent_clr M hlk hout _ _ ).trans ?_
    | with_reducible refine (retrain_clr M hrg hlk _ _ _ ).trans ?_ | with_reducible refine (foldl_clr M _ _ _ ?_).trans ?_ | intro _
    | dsimp only

theorem setBoth_clr (M : Mask) (hrg : M.rg = true) (a0 : ℕ) (a1 : ℕ) (a2 : ℕ) (a3 : ℕ) (a4 : Word) (a5 : State)  :
    (setBoth a0 a1 a2 a3 a4 a5).clr M = a5.clr M := by
  unfold setBoth
  repeat' first
    | with_reducible rfl | split | with_reducible refine (setReg_clr M hrg _ _ _ _ _ _ ).trans ?_ | simp only [upd_rg M hrg]
    | with_reducible refine (foldl_clr M _ _ _ ?_).trans ?_ | intro _ | dsimp only

theorem commitRoutes_clr (M : Mask) (hrg : M.rg = true) (a0 : State)  :
    (commitRoutes a0).clr M = a0.clr M := by
  unfold commitRoutes
  repeat' first
    | with_reducible rfl | split | with_reducible refine (setBoth_clr M hrg _ _ _ _ _ _ ).trans ?_
    | with_reducible refine (forEach_clr M _ _ _ ?_).trans ?_ | simp only [upd_rg M hrg]
    | with_reducible refine (foldl_clr M _ _ _ ?_).trans ?_ | intro _ | dsimp only

theorem planCode_clr (M : Mask) (hrg : M.rg = true) (hpl : M.pl = true) (hhs : M.hs = true) (hsv : M.sv = true) (hout : M.out = true) (a0 : ℕ) (a1 : State)  :
    (planCode a0 a1).clr M = a1.clr M := by
  unfold planCode
  repeat' first
    | with_reducible rfl | split | with_reducible refine (hostCause_clr M hrg hhs hout _ _ ).trans ?_
    | with_reducible refine (notice_clr M hrg hsv hout _ _ _ ).trans ?_
    | simp only [upd_out M hout, upd_sv M hsv, upd_rg M hrg, upd_hs M hhs, upd_pl M hpl]
    | with_reducible refine (foldl_clr M _ _ _ ?_).trans ?_ | intro _ | dsimp only

theorem pairAgain_clr (M : Mask) (hpr : M.pr = true) (a0 : List ℕ) (a1 : State)  :
    (pairAgain a0 a1).clr M = a1.clr M := by
  unfold pairAgain
  repeat' first
    | with_reducible rfl | split | simp only [upd_pr M hpr] | with_reducible refine (foldl_clr M _ _ _ ?_).trans ?_ | intro _
    | dsimp only

theorem adoptNow_clr (M : Mask) (hrg : M.rg = true) (hpl : M.pl = true) (hty : M.ty = true) (hpr : M.pr = true) (hlk : M.lk = true) (hhs : M.hs = true) (hft : M.ft = true) (hrs : M.rs = true) (hsv : M.sv = true) (hout : M.out = true) (a0 : PlanImage) (a1 : State)  :
    (adoptNow a0 a1).clr M = a1.clr M := by
  unfold adoptNow
  repeat' first
    | with_reducible rfl | split | with_reducible refine (enterEpoch_clr M hty _ _ _ _ ).trans ?_
    | with_reducible refine (restoreLinks_clr M hlk _ ).trans ?_
    | with_reducible refine (portChange_clr M hrg hlk hft hout _ _ _ ).trans ?_
    | with_reducible refine (commitRoutes_clr M hrg _ ).trans ?_
    | with_reducible refine (planCode_clr M hrg hpl hhs hsv hout _ _ ).trans ?_
    | with_reducible refine (pairAgain_clr M hpr _ _ ).trans ?_ | with_reducible refine (forEach_clr M _ _ _ ?_).trans ?_
    | simp only [upd_rs M hrs, upd_ft M hft, upd_pr M hpr, upd_out M hout, upd_ft_rs M hft hrs, upd_sv M hsv, upd_rg M hrg, upd_ty M hty, upd_lk M hlk, upd_hs M hhs, upd_pl M hpl, upd_ty_pr M hty hpr]
    | with_reducible refine (foldl_clr M _ _ _ ?_).trans ?_ | intro _ | dsimp only

theorem oldDrained_clr (M : Mask) (hnt : M.nt = true) (hpl : M.pl = true) (a0 : ℕ) (a1 : State)  :
    (oldDrained a0 a1).clr M = a1.clr M := by
  unfold oldDrained
  repeat' first
    | with_reducible rfl | split | with_reducible refine (grantNext_clr M hnt _ _ ).trans ?_ | simp only [upd_nt M hnt, upd_pl M hpl]
    | with_reducible refine (foldl_clr M _ _ _ ?_).trans ?_ | intro _ | dsimp only

theorem planAdopt_clr (M : Mask) (hrg : M.rg = true) (hpl : M.pl = true) (hhs : M.hs = true) (hsv : M.sv = true) (hout : M.out = true) (a0 : State)  :
    (planAdopt a0).clr M = a0.clr M := by
  unfold planAdopt
  repeat' first
    | with_reducible rfl | split | with_reducible refine (planCode_clr M hrg hpl hhs hsv hout _ _ ).trans ?_
    | simp only [upd_out M hout, upd_sv M hsv, upd_rg M hrg, upd_hs M hhs, upd_pl M hpl]
    | with_reducible refine (foldl_clr M _ _ _ ?_).trans ?_ | intro _ | dsimp only

theorem planCancel_clr (M : Mask) (hrg : M.rg = true) (hpl : M.pl = true) (hhs : M.hs = true) (hsv : M.sv = true) (hout : M.out = true) (a0 : State)  :
    (planCancel a0).clr M = a0.clr M := by
  unfold planCancel
  repeat' first
    | with_reducible rfl | split | with_reducible refine (planCode_clr M hrg hpl hhs hsv hout _ _ ).trans ?_
    | simp only [upd_out M hout, upd_sv M hsv, upd_rg M hrg, upd_hs M hhs, upd_pl M hpl]
    | with_reducible refine (foldl_clr M _ _ _ ?_).trans ?_ | intro _ | dsimp only

theorem planCheck_clr (M : Mask) (hrg : M.rg = true) (hpl : M.pl = true) (hhs : M.hs = true) (hsv : M.sv = true) (hout : M.out = true) (a0 : State)  :
    (planCheck a0).clr M = a0.clr M := by
  unfold planCheck
  repeat' first
    | with_reducible rfl | split | with_reducible refine (planCode_clr M hrg hpl hhs hsv hout _ _ ).trans ?_
    | with_reducible refine (foldl_clr M _ _ _ ?_).trans ?_ | intro _ | dsimp only

theorem planCmd_clr (M : Mask) (hrg : M.rg = true) (hpl : M.pl = true) (hhs : M.hs = true) (hsv : M.sv = true) (hout : M.out = true) (a0 : Word) (a1 : State)  :
    (planCmd a0 a1).clr M = a1.clr M := by
  unfold planCmd
  repeat' first
    | with_reducible rfl | split | with_reducible refine (planCancel_clr M hrg hpl hhs hsv hout _ ).trans ?_
    | with_reducible refine (planAdopt_clr M hrg hpl hhs hsv hout _ ).trans ?_
    | with_reducible refine (planCheck_clr M hrg hpl hhs hsv hout _ ).trans ?_ | with_reducible refine (foldl_clr M _ _ _ ?_).trans ?_
    | intro _ | dsimp only

theorem planLate_clr (M : Mask) (hrg : M.rg = true) (hlk : M.lk = true) (hft : M.ft = true) (a0 : State)  :
    (planLate a0).clr M = a0.clr M := by
  unfold planLate
  repeat' first
    | with_reducible rfl | split | with_reducible refine (holdLink_clr M hrg hlk hft _ _ _ _ _ ).trans ?_
    | with_reducible refine (forEach_clr M _ _ _ ?_).trans ?_ | with_reducible refine (foldl_clr M _ _ _ ?_).trans ?_ | intro _
    | dsimp only

theorem planStep_clr (M : Mask) (hrg : M.rg = true) (hpl : M.pl = true) (hty : M.ty = true) (hpr : M.pr = true) (hlk : M.lk = true) (hhs : M.hs = true) (hft : M.ft = true) (hrs : M.rs = true) (hsv : M.sv = true) (hout : M.out = true) (a0 : ℕ) (a1 : State)  :
    (planStep a0 a1).clr M = a1.clr M := by
  unfold planStep
  repeat' first
    | with_reducible rfl | split | with_reducible refine (adoptNow_clr M hrg hpl hty hpr hlk hhs hft hrs hsv hout _ _ ).trans ?_
    | simp only [upd_rs M hrs, upd_ft M hft, upd_pr M hpr, upd_out M hout, upd_ft_rs M hft hrs, upd_sv M hsv, upd_rg M hrg, upd_ty M hty, upd_lk M hlk, upd_hs M hhs, upd_pl M hpl, upd_ty_pr M hty hpr]
    | with_reducible refine (foldl_clr M _ _ _ ?_).trans ?_ | intro _ | dsimp only

theorem applyShadow_clr (M : Mask) (hrg : M.rg = true) (a0 : ℕ) (a1 : ℕ) (a2 : State)  :
    (applyShadow a0 a1 a2).clr M = a2.clr M := by
  unfold applyShadow
  repeat' first
    | with_reducible rfl | split | with_reducible refine (setReg_clr M hrg _ _ _ _ _ _ ).trans ?_
    | with_reducible refine (forEach_clr M _ _ _ ?_).trans ?_ | simp only [upd_rg M hrg]
    | with_reducible refine (foldl_clr M _ _ _ ?_).trans ?_ | intro _ | dsimp only

theorem restartArbs_clr (M : Mask) (hnt : M.nt = true) (a0 : ℕ) (a1 : ℕ) (a2 : PageKind) (a3 : Bool) (a4 : State)  :
    (restartArbs a0 a1 a2 a3 a4).clr M = a4.clr M := by
  unfold restartArbs
  repeat' first
    | with_reducible rfl | split | simp only [upd_nt M hnt] | with_reducible refine (foldl_clr M _ _ _ ?_).trans ?_ | intro _
    | dsimp only

theorem commitArbs_clr (M : Mask) (hnt : M.nt = true) (a0 : Word) (a1 : Word) (a2 : ℕ) (a3 : ℕ) (a4 : PageKind) (a5 : State)  :
    (commitArbs a0 a1 a2 a3 a4 a5).clr M = a5.clr M := by
  unfold commitArbs
  repeat' first
    | with_reducible rfl | split | with_reducible refine (restartArbs_clr M hnt _ _ _ _ _ ).trans ?_
    | with_reducible refine (foldl_clr M _ _ _ ?_).trans ?_ | intro _ | dsimp only

theorem commitBasket_clr (M : Mask) (hrg : M.rg = true) (hci : M.ci = true) (hbk : M.bk = true) (a0 : State) (a1 : ℕ) (a2 : ℕ) (a3 : ℕ) (a4 : ℕ) (a5 : State)  :
    (commitBasket a0 a1 a2 a3 a4 a5).clr M = a5.clr M := by
  unfold commitBasket
  repeat' first
    | with_reducible rfl | split | with_reducible refine (badWrite_clr M hrg _ _ _ ).trans ?_
    | with_reducible refine (unbindBasket_clr M hci hbk _ _ _ _ _ ).trans ?_ | with_reducible refine (doIf_clr M _ _ _ ?_).trans ?_
    | with_reducible refine (foldl_clr M _ _ _ ?_).trans ?_ | intro _ | dsimp only

theorem commitBaskets_clr (M : Mask) (hrg : M.rg = true) (hnt : M.nt = true) (hmp : M.mp = true) (hdr : M.dr = true) (hci : M.ci = true) (hbk : M.bk = true) (hout : M.out = true) (a0 : State) (a1 : ℕ) (a2 : ℕ) (a3 : ℕ) (a4 : State)  :
    (commitBaskets a0 a1 a2 a3 a4).clr M = a4.clr M := by
  unfold commitBaskets
  repeat' first
    | with_reducible rfl | split | with_reducible refine (settleTile_clr M hrg hnt hmp hdr hci hbk hout _ _ _ ).trans ?_
    | with_reducible refine (commitBasket_clr M hrg hci hbk _ _ _ _ _ _ ).trans ?_
    | with_reducible refine (forEach_clr M _ _ _ ?_).trans ?_ | with_reducible refine (foldl_clr M _ _ _ ?_).trans ?_ | intro _
    | dsimp only

theorem restartRing_clr (M : Mask) (hnt : M.nt = true) (hci : M.ci = true) (a0 : ℕ) (a1 : ℕ) (a2 : ℕ) (a3 : State)  :
    (restartRing a0 a1 a2 a3).clr M = a3.clr M := by
  unfold restartRing
  repeat' first
    | with_reducible rfl | split | with_reducible refine (replyStatus_clr M hnt _ _ _ _ _ _ ).trans ?_
    | with_reducible refine (modRing_clr M hci _ _ _ _ _ ).trans ?_ | with_reducible refine (forEach_clr M _ _ _ ?_).trans ?_
    | with_reducible refine (foldl_clr M _ _ _ ?_).trans ?_ | intro _ | dsimp only

theorem denyWaiter_clr (M : Mask) (hnt : M.nt = true) (hci : M.ci = true) (hout : M.out = true) (a0 : ℕ) (a1 : ℕ) (a2 : Waiter) (a3 : State)  :
    (denyWaiter a0 a1 a2 a3).clr M = a3.clr M := by
  unfold denyWaiter
  repeat' first
    | with_reducible rfl | split | with_reducible refine (replyStatus_clr M hnt _ _ _ _ _ _ ).trans ?_
    | with_reducible refine (endStream_clr M hci hout _ _ _ _ _ _ ).trans ?_ | with_reducible refine (foldl_clr M _ _ _ ?_).trans ?_
    | intro _ | dsimp only

theorem restartQueue_clr (M : Mask) (hrg : M.rg = true) (hnt : M.nt = true) (hci : M.ci = true) (hout : M.out = true) (a0 : ℕ) (a1 : ℕ) (a2 : ℕ) (a3 : List QEntry) (a4 : State)  :
    (restartQueue a0 a1 a2 a3 a4).clr M = a4.clr M := by
  unfold restartQueue
  repeat' first
    | with_reducible rfl | split | with_reducible refine (cipCountN_clr M hrg _ _ _ _ _ ).trans ?_
    | with_reducible refine (denyWaiter_clr M hnt hci hout _ _ _ _ ).trans ?_
    | with_reducible refine (modQueue_clr M hci _ _ _ _ _ ).trans ?_ | with_reducible refine (forEach_clr M _ _ _ ?_).trans ?_
    | with_reducible refine (foldl_clr M _ _ _ ?_).trans ?_ | intro _ | dsimp only

theorem commitCip_clr (M : Mask) (hrg : M.rg = true) (hnt : M.nt = true) (hmp : M.mp = true) (hdr : M.dr = true) (hci : M.ci = true) (hbk : M.bk = true) (hout : M.out = true) (a0 : State) (a1 : ℕ) (a2 : ℕ) (a3 : ℕ) (a4 : Bool) (a5 : List (ℕ × ℕ)) (a6 : State)  :
    (commitCip a0 a1 a2 a3 a4 a5 a6).clr M = a6.clr M := by
  unfold commitCip
  repeat' first
    | with_reducible rfl | split | with_reducible refine (restartRing_clr M hnt hci _ _ _ _ ).trans ?_
    | with_reducible refine (badWrite_clr M hrg _ _ _ ).trans ?_
    | with_reducible refine (settleTile_clr M hrg hnt hmp hdr hci hbk hout _ _ _ ).trans ?_
    | with_reducible refine (restartQueue_clr M hrg hnt hci hout _ _ _ _ _ ).trans ?_
    | with_reducible refine (forEach_clr M _ _ _ ?_).trans ?_ | with_reducible refine (doIf_clr M _ _ _ ?_).trans ?_
    | with_reducible refine (foldl_clr M _ _ _ ?_).trans ?_ | intro _ | dsimp only

theorem commitGroup_clr (M : Mask) (hrg : M.rg = true) (hse : M.se = true) (a0 : ℕ) (a1 : State)  :
    (commitGroup a0 a1).clr M = a1.clr M := by
  unfold commitGroup
  repeat' first
    | with_reducible rfl | split | with_reducible refine (groupChanged_clr M hse _ _ ).trans ?_
    | with_reducible refine (setReg_clr M hrg _ _ _ _ _ _ ).trans ?_ | simp only [upd_se M hse, upd_rg M hrg]
    | with_reducible refine (foldl_clr M _ _ _ ?_).trans ?_ | intro _ | dsimp only

theorem commitRequest_clr (M : Mask) (hrg : M.rg = true) (a0 : ℕ) (a1 : ℕ) (a2 : ℕ) (a3 : State)  :
    (commitRequest a0 a1 a2 a3).clr M = a3.clr M := by
  unfold commitRequest
  repeat' first
    | with_reducible rfl | split | with_reducible refine (modPage_clr M hrg _ _ _ _ ).trans ?_
    | with_reducible refine (foldl_clr M _ _ _ ?_).trans ?_ | intro _ | dsimp only

theorem commitShapers_clr (M : Mask) (hrg : M.rg = true) (hnt : M.nt = true) (hft : M.ft = true) (a0 : ℕ) (a1 : ℕ) (a2 : List (ℕ × ℕ)) (a3 : State)  :
    (commitShapers a0 a1 a2 a3).clr M = a3.clr M := by
  unfold commitShapers
  repeat' first
    | with_reducible rfl | split | with_reducible refine (resetTok_clr M hnt _ _ _ ).trans ?_
    | with_reducible refine (checkGateList_clr M hrg hft _ _ _ _ _ ).trans ?_ | with_reducible refine (forEach_clr M _ _ _ ?_).trans ?_
    | with_reducible refine (foldl_clr M _ _ _ ?_).trans ?_ | intro _ | dsimp only

theorem commitSlots_clr (M : Mask) (hse : M.se = true) (a0 : ℕ) (a1 : List (ℕ × ℕ)) (a2 : State)  :
    (commitSlots a0 a1 a2).clr M = a2.clr M := by
  unfold commitSlots
  repeat' first
    | with_reducible rfl | split | with_reducible refine (groupChanged_clr M hse _ _ ).trans ?_
    | with_reducible refine (forEach_clr M _ _ _ ?_).trans ?_ | with_reducible refine (foldl_clr M _ _ _ ?_).trans ?_ | intro _
    | dsimp only

theorem commitUnit_clr (M : Mask) (hrg : M.rg = true) (hnt : M.nt = true) (hmp : M.mp = true) (hdr : M.dr = true) (hse : M.se = true) (hci : M.ci = true) (hbk : M.bk = true) (hft : M.ft = true) (hout : M.out = true) (a0 : State) (a1 : ℕ) (a2 : ℕ) (a3 : List (ℕ × ℕ)) (a4 : State)  :
    (commitUnit a0 a1 a2 a3 a4).clr M = a4.clr M := by
  unfold commitUnit
  repeat' first
    | with_reducible rfl | split | with_reducible refine (commitShapers_clr M hrg hnt hft _ _ _ _ ).trans ?_
    | with_reducible refine (commitCip_clr M hrg hnt hmp hdr hci hbk hout _ _ _ _ _ _ _ ).trans ?_
    | with_reducible refine (mpRefuse_clr M hnt hmp _ _ _ ).trans ?_ | with_reducible refine (commitGroup_clr M hrg hse _ _ ).trans ?_
    | with_reducible refine (commitArbs_clr M hnt _ _ _ _ _ _ ).trans ?_
    | with_reducible refine (commitBaskets_clr M hrg hnt hmp hdr hci hbk hout _ _ _ _ _ ).trans ?_
    | with_reducible refine (unstealLate_clr M hdr _ _ _ ).trans ?_ | with_reducible refine (commitSlots_clr M hse _ _ _ ).trans ?_
    | with_reducible refine (forEach_clr M _ _ _ ?_).trans ?_
    | simp only [upd_nt M hnt, upd_ci M hci, upd_ft M hft, upd_out M hout, upd_se_ci_bk M hse hci hbk, upd_se M hse, upd_rg M hrg, upd_dr M hdr, upd_mp M hmp, upd_bk M hbk, upd_rg_nt M hrg hnt, upd_nt_mp M hnt hmp]
    | with_reducible refine (foldl_clr M _ _ _ ?_).trans ?_ | intro _ | dsimp only

theorem takeCommit_clr (M : Mask) (hrg : M.rg = true) (hnt : M.nt = true) (hmp : M.mp = true) (hdr : M.dr = true) (hse : M.se = true) (hci : M.ci = true) (hbk : M.bk = true) (hft : M.ft = true) (hout : M.out = true) (a0 : ℕ) (a1 : ℕ) (a2 : State)  :
    (takeCommit a0 a1 a2).clr M = a2.clr M := by
  unfold takeCommit
  repeat' first
    | with_reducible rfl | split | with_reducible refine (modPage_clr M hrg _ _ _ _ ).trans ?_
    | with_reducible refine (setReg_clr M hrg _ _ _ _ _ _ ).trans ?_ | with_reducible refine (applyShadow_clr M hrg _ _ _ ).trans ?_
    | with_reducible refine (commitUnit_clr M hrg hnt hmp hdr hse hci hbk hft hout _ _ _ _ _ ).trans ?_
    | with_reducible refine (foldl_clr M _ _ _ ?_).trans ?_ | intro _ | dsimp only

theorem commitsStep2_clr (M : Mask) (hrg : M.rg = true) (hnt : M.nt = true) (hmp : M.mp = true) (hdr : M.dr = true) (hse : M.se = true) (hci : M.ci = true) (hbk : M.bk = true) (hft : M.ft = true) (hout : M.out = true) (a0 : ℕ → Bool) (a1 : ℕ) (a2 : State)  :
    (commitsStep2 a0 a1 a2).clr M = a2.clr M := by
  unfold commitsStep2
  repeat' first
    | with_reducible rfl | split | with_reducible refine (takeCommit_clr M hrg hnt hmp hdr hse hci hbk hft hout _ _ _ ).trans ?_
    | with_reducible refine (forEach_clr M _ _ _ ?_).trans ?_ | with_reducible refine (foldl_clr M _ _ _ ?_).trans ?_ | intro _
    | dsimp only

theorem immediateCommit_clr (M : Mask) (hrg : M.rg = true) (hnt : M.nt = true) (hmp : M.mp = true) (hdr : M.dr = true) (hse : M.se = true) (hci : M.ci = true) (hbk : M.bk = true) (hft : M.ft = true) (hout : M.out = true) (a0 : ℕ) (a1 : ℕ) (a2 : State)  :
    (immediateCommit a0 a1 a2).clr M = a2.clr M := by
  unfold immediateCommit
  repeat' first
    | with_reducible rfl | split | with_reducible refine (takeCommit_clr M hrg hnt hmp hdr hse hci hbk hft hout _ _ _ ).trans ?_
    | with_reducible refine (foldl_clr M _ _ _ ?_).trans ?_ | intro _ | dsimp only

theorem judge_clr (M : Mask) (hrg : M.rg = true) (a0 : ℕ) (a1 : State)  :
    (judge a0 a1).clr M = a1.clr M := by
  unfold judge
  repeat' first
    | with_reducible rfl | split | with_reducible refine (modPage_clr M hrg _ _ _ _ ).trans ?_
    | with_reducible refine (forEach_clr M _ _ _ ?_).trans ?_ | with_reducible refine (foldl_clr M _ _ _ ?_).trans ?_ | intro _
    | dsimp only

theorem shadowCommit_clr (M : Mask) (hrg : M.rg = true) (a0 : ℕ) (a1 : ℕ) (a2 : Word) (a3 : State)  :
    (shadowCommit a0 a1 a2 a3).clr M = a3.clr M := by
  unfold shadowCommit
  repeat' first
    | with_reducible rfl | split | with_reducible refine (modPage_clr M hrg _ _ _ _ ).trans ?_
    | with_reducible refine (badWrite_clr M hrg _ _ _ ).trans ?_ | with_reducible refine (commitRequest_clr M hrg _ _ _ _ ).trans ?_
    | with_reducible refine (foldl_clr M _ _ _ ?_).trans ?_ | intro _ | dsimp only

theorem enterRun_clr (M : Mask) (htm : M.tm = true) (hrg : M.rg = true) (a0 : ℕ) (a1 : ℕ) (a2 : ℕ) (a3 : ℕ) (a4 : Bool) (a5 : State)  :
    (enterRun a0 a1 a2 a3 a4 a5).clr M = a5.clr M := by
  unfold enterRun
  repeat' first
    | with_reducible rfl | split | with_reducible refine (judge_clr M hrg _ _ ).trans ?_
    | with_reducible refine (modUnit_clr M htm _ _ _ ).trans ?_ | with_reducible refine (foldl_clr M _ _ _ ?_).trans ?_ | intro _
    | dsimp only

theorem epochActs_clr (M : Mask) (htm : M.tm = true) (hrg : M.rg = true) (hft : M.ft = true) (a0 : ℕ) (a1 : EpochFrame) (a2 : State)  :
    (epochActs a0 a1 a2).clr M = a2.clr M := by
  unfold epochActs
  repeat' first
    | with_reducible rfl | split | with_reducible refine (modUnit_clr M htm _ _ _ ).trans ?_
    | with_reducible refine (raisePrs_clr M hrg hft _ _ _ _ _ ).trans ?_ | with_reducible refine (foldl_clr M _ _ _ ?_).trans ?_
    | intro _ | dsimp only

theorem epochCommand_clr (M : Mask) (htm : M.tm = true) (hrg : M.rg = true) (hft : M.ft = true) (a0 : ℕ) (a1 : List Byte) (a2 : Bool) (a3 : Bool) (a4 : State)  :
    (epochCommand a0 a1 a2 a3 a4).clr M = a4.clr M := by
  unfold epochCommand
  repeat' first
    | with_reducible rfl | split | with_reducible refine (epochActs_clr M htm hrg hft _ _ _ ).trans ?_
    | with_reducible refine (raisePrs_clr M hrg hft _ _ _ _ _ ).trans ?_ | with_reducible refine (foldl_clr M _ _ _ ?_).trans ?_
    | intro _ | dsimp only

theorem epochTarget_clr (M : Mask) (htm : M.tm = true) (hrg : M.rg = true) (hnt : M.nt = true) (hlk : M.lk = true) (hout : M.out = true) (a0 : ℕ) (a1 : State)  :
    (epochTarget a0 a1).clr M = a1.clr M := by
  unfold epochTarget
  repeat' first
    | with_reducible rfl | split | with_reducible refine (enterRun_clr M htm hrg _ _ _ _ _ _ ).trans ?_
    | with_reducible refine (advanceTo_clr M htm hrg hnt hlk hout _ _ ).trans ?_
    | with_reducible refine (modUnit_clr M htm _ _ _ ).trans ?_ | with_reducible refine (foldl_clr M _ _ _ ?_).trans ?_ | intro _
    | dsimp only

theorem gateEdge_clr (M : Mask) (htm : M.tm = true) (hrg : M.rg = true) (hnt : M.nt = true) (hlk : M.lk = true) (hout : M.out = true) (a0 : ℕ) (a1 : ℕ) (a2 : ℕ) (a3 : ℕ) (a4 : ℕ) (a5 : State)  :
    (gateEdge a0 a1 a2 a3 a4 a5).clr M = a5.clr M := by
  unfold gateEdge
  repeat' first
    | with_reducible rfl | split | with_reducible refine (advanceTo_clr M htm hrg hnt hlk hout _ _ ).trans ?_
    | with_reducible refine (foldl_clr M _ _ _ ?_).trans ?_ | intro _ | dsimp only

theorem lossEffects_clr (M : Mask) (hrg : M.rg = true) (hnt : M.nt = true) (hdr : M.dr = true) (hse : M.se = true) (hci : M.ci = true) (hbk : M.bk = true) (hpg : M.pg = true) (hty : M.ty = true) (hpr : M.pr = true) (hlk : M.lk = true) (hft : M.ft = true) (hrs : M.rs = true) (hout : M.out = true) (a0 : ℕ) (a1 : State)  :
    (lossEffects a0 a1).clr M = a1.clr M := by
  unfold lossEffects
  repeat' first
    | with_reducible rfl | split | with_reducible refine (failStreams_clr M hci hout _ _ _ _ _ ).trans ?_
    | with_reducible refine (failSeamsAt_clr M hrg hnt hse hlk hout _ _ _ _ ).trans ?_
    | with_reducible refine (loseTileRuntime_clr M hrg hdr hse hci hbk hout _ _ _ ).trans ?_
    | with_reducible refine (loseRuntime_clr M hrg hnt hdr hse hpg hty hpr hlk hft hrs hout _ _ _ ?_).trans ?_
    | with_reducible refine (forEach_clr M _ _ _ ?_).trans ?_ | with_reducible refine (foldl_clr M _ _ _ ?_).trans ?_ | intro _
    | dsimp only

theorem takeRun_clr (M : Mask) (htm : M.tm = true) (hrg : M.rg = true) (a0 : ℕ) (a1 : ℕ) (a2 : Bool) (a3 : ℕ) (a4 : ℕ) (a5 : ℕ) (a6 : State)  :
    (takeRun a0 a1 a2 a3 a4 a5 a6).clr M = a6.clr M := by
  unfold takeRun
  repeat' first
    | with_reducible rfl | split | with_reducible refine (enterRun_clr M htm hrg _ _ _ _ _ _ ).trans ?_
    | with_reducible refine (modUnit_clr M htm _ _ _ ).trans ?_ | with_reducible refine (foldl_clr M _ _ _ ?_).trans ?_ | intro _
    | dsimp only

theorem setPhase_clr (M : Mask) (htm : M.tm = true) (hrg : M.rg = true) (hlk : M.lk = true) (hft : M.ft = true) (a0 : ℕ) (a1 : ℕ) (a2 : ℤ) (a3 : State)  :
    (setPhase a0 a1 a2 a3).clr M = a3.clr M := by
  unfold setPhase
  repeat' first
    | with_reducible rfl | split | with_reducible refine (modLink_clr M hlk _ _ _ _ ).trans ?_
    | with_reducible refine (modUnit_clr M htm _ _ _ ).trans ?_ | with_reducible refine (raisePrs_clr M hrg hft _ _ _ _ _ ).trans ?_
    | with_reducible refine (foldl_clr M _ _ _ ?_).trans ?_ | intro _ | dsimp only

theorem takePhase_clr (M : Mask) (htm : M.tm = true) (hrg : M.rg = true) (hlk : M.lk = true) (hft : M.ft = true) (a0 : ℕ) (a1 : ℕ) (a2 : ℕ) (a3 : ℕ) (a4 : ℤ) (a5 : State)  :
    (takePhase a0 a1 a2 a3 a4 a5).clr M = a5.clr M := by
  unfold takePhase
  repeat' first
    | with_reducible rfl | split | with_reducible refine (takeRun_clr M htm hrg _ _ _ _ _ _ _ ).trans ?_
    | with_reducible refine (setPhase_clr M htm hrg hlk hft _ _ _ _ ).trans ?_ | with_reducible refine (foldl_clr M _ _ _ ?_).trans ?_
    | intro _ | dsimp only

theorem markerMismatch_clr (M : Mask) (hrg : M.rg = true) (hlk : M.lk = true) (hft : M.ft = true) (a0 : ℕ) (a1 : ℕ) (a2 : State)  :
    (markerMismatch a0 a1 a2).clr M = a2.clr M := by
  unfold markerMismatch
  repeat' first
    | with_reducible rfl | split | with_reducible refine (modLink_clr M hlk _ _ _ _ ).trans ?_
    | with_reducible refine (raisePrs_clr M hrg hft _ _ _ _ _ ).trans ?_ | with_reducible refine (foldl_clr M _ _ _ ?_).trans ?_
    | intro _ | dsimp only

theorem markerRuns_clr (M : Mask) (htm : M.tm = true) (hrg : M.rg = true) (hlk : M.lk = true) (hft : M.ft = true) (a0 : ℕ) (a1 : ℕ) (a2 : ℕ) (a3 : ℕ) (a4 : ℕ) (a5 : State)  :
    (markerRuns a0 a1 a2 a3 a4 a5).clr M = a5.clr M := by
  unfold markerRuns
  repeat' first
    | with_reducible rfl | split | with_reducible refine (takePhase_clr M htm hrg hlk hft _ _ _ _ _ _ ).trans ?_
    | with_reducible refine (takeRun_clr M htm hrg _ _ _ _ _ _ _ ).trans ?_
    | with_reducible refine (setPhase_clr M htm hrg hlk hft _ _ _ _ ).trans ?_
    | with_reducible refine (markerMismatch_clr M hrg hlk hft _ _ _ ).trans ?_ | with_reducible refine (foldl_clr M _ _ _ ?_).trans ?_
    | intro _ | dsimp only

theorem markerArrive_clr (M : Mask) (htm : M.tm = true) (hrg : M.rg = true) (hlk : M.lk = true) (hft : M.ft = true) (a0 : ℕ) (a1 : ℕ) (a2 : PressState) (a3 : ℕ) (a4 : ℕ) (a5 : ℕ) (a6 : State)  :
    (markerArrive a0 a1 a2 a3 a4 a5 a6).clr M = a6.clr M := by
  unfold markerArrive
  repeat' first
    | with_reducible rfl | split | with_reducible refine (markerRuns_clr M htm hrg hlk hft _ _ _ _ _ _ ).trans ?_
    | with_reducible refine (foldl_clr M _ _ _ ?_).trans ?_ | intro _ | dsimp only

theorem portLockChange_clr (M : Mask) (hnt : M.nt = true) (a0 : ℕ) (a1 : ℕ) (a2 : ℕ) (a3 : State)  :
    (portLockChange a0 a1 a2 a3).clr M = a3.clr M := by
  unfold portLockChange
  repeat' first
    | with_reducible rfl | split | simp only [upd_nt M hnt] | with_reducible refine (foldl_clr M _ _ _ ?_).trans ?_ | intro _
    | dsimp only

theorem pressLost_clr (M : Mask) (htm : M.tm = true) (hrg : M.rg = true) (hnt : M.nt = true) (hdr : M.dr = true) (hse : M.se = true) (hci : M.ci = true) (hbk : M.bk = true) (hpg : M.pg = true) (hty : M.ty = true) (hpr : M.pr = true) (hlk : M.lk = true) (hft : M.ft = true) (hrs : M.rs = true) (hout : M.out = true) (a0 : ℕ) (a1 : State)  :
    (pressLost a0 a1).clr M = a1.clr M := by
  unfold pressLost
  repeat' first
    | with_reducible rfl | split
    | with_reducible refine (lossEffects_clr M hrg hnt hdr hse hci hbk hpg hty hpr hlk hft hrs hout _ _ ).trans ?_
    | with_reducible refine (modUnit_clr M htm _ _ _ ).trans ?_ | with_reducible refine (raisePrs_clr M hrg hft _ _ _ _ _ ).trans ?_
    | with_reducible refine (foldl_clr M _ _ _ ?_).trans ?_ | intro _ | dsimp only

theorem applySym_clr (M : Mask) (htm : M.tm = true) (hrg : M.rg = true) (hnt : M.nt = true) (hse : M.se = true) (hci : M.ci = true) (hlk : M.lk = true) (hhs : M.hs = true) (hft : M.ft = true) (hfw : M.fw = true) (hsv : M.sv = true) (hout : M.out = true) (hfresh : M.fresh = true) (a0 : ℕ) (a1 : ℕ) (a2 : ℕ) (a3 : State)  :
    (applySym a0 a1 a2 a3).clr M = a3.clr M := by
  unfold applySym
  repeat' first
    | with_reducible rfl | split | with_reducible refine (faultIdle_clr M hrg hse hci hlk hhs hft hfw hsv hout _ _ _ ).trans ?_
    | with_reducible refine (identArrive_clr M hrg hnt hlk hft hout _ _ _ _ _ ).trans ?_
    | with_reducible refine (markerArrive_clr M htm hrg hlk hft _ _ _ _ _ _ _ ).trans ?_
    | with_reducible refine (echoArrive_clr M hlk hout hfresh _ _ _ _ _ ).trans ?_
    | with_reducible refine (addCount_clr M hrg _ _ _ _ _ ).trans ?_
    | with_reducible refine (naked_clr M hrg hlk hft hout _ _ _ _ _ ).trans ?_
    | with_reducible refine (returnTo_clr M hrg hnt hft _ _ _ _ _ _ _ ).trans ?_
    | with_reducible refine (acked_clr M hlk _ _ _ _ ).trans ?_ | with_reducible refine (forEach_clr M _ _ _ ?_).trans ?_
    | with_reducible refine (foldl_clr M _ _ _ ?_).trans ?_ | intro _ | dsimp only

theorem damaged_clr (M : Mask) (hrg : M.rg = true) (hlk : M.lk = true) (hout : M.out = true) (a0 : ℕ) (a1 : ℕ) (a2 : ℕ) (a3 : State)  :
    (damaged a0 a1 a2 a3).clr M = a3.clr M := by
  unfold damaged
  repeat' first
    | with_reducible rfl | split | with_reducible refine (modLink_clr M hlk _ _ _ _ ).trans ?_
    | with_reducible refine (addCount_clr M hrg _ _ _ _ _ ).trans ?_
    | with_reducible refine (sendSym_clr M hlk hout _ _ _ _ _ ).trans ?_ | with_reducible refine (foldl_clr M _ _ _ ?_).trans ?_
    | intro _ | dsimp only

theorem intoPair_clr (M : Mask) (hnt : M.nt = true) (a0 : ℕ) (a1 : ℕ) (a2 : Packet) (a3 : State)  :
    (intoPair a0 a1 a2 a3).clr M = a3.clr M := by
  unfold intoPair
  repeat' first
    | with_reducible rfl | split | simp only [upd_nt M hnt] | with_reducible refine (foldl_clr M _ _ _ ?_).trans ?_ | intro _
    | dsimp only

theorem intoDie_clr (M : Mask) (hrg : M.rg = true) (hnt : M.nt = true) (hlk : M.lk = true) (hout : M.out = true) (a0 : ℕ) (a1 : ℕ) (a2 : Packet) (a3 : State)  :
    (intoDie a0 a1 a2 a3).clr M = a3.clr M := by
  unfold intoDie
  repeat' first
    | with_reducible rfl | split | with_reducible refine (intoPair_clr M hnt _ _ _ _ ).trans ?_
    | with_reducible refine (addCount_clr M hrg _ _ _ _ _ ).trans ?_
    | with_reducible refine (creditSym_clr M hlk hout _ _ _ _ _ _ _ ).trans ?_
    | simp only [upd_nt M hnt, upd_out M hout, upd_rg M hrg, upd_lk M hlk, upd_rg_nt M hrg hnt]
    | with_reducible refine (foldl_clr M _ _ _ ?_).trans ?_ | intro _ | dsimp only

theorem takeUnits_clr (M : Mask) (hrg : M.rg = true) (hnt : M.nt = true) (hlk : M.lk = true) (hout : M.out = true) (a0 : ℕ) (a1 : ℕ) (a2 : List Packet × List (List Byte)) (a3 : State)  :
    (takeUnits a0 a1 a2 a3).clr M = a3.clr M := by
  unfold takeUnits
  repeat' first
    | with_reducible rfl | split | with_reducible refine (modLink_clr M hlk _ _ _ _ ).trans ?_
    | with_reducible refine (intoDie_clr M hrg hnt hlk hout _ _ _ _ ).trans ?_ | with_reducible refine (forEach_clr M _ _ _ ?_).trans ?_
    | with_reducible refine (foldl_clr M _ _ _ ?_).trans ?_ | intro _ | dsimp only

theorem takeAhead_clr (M : Mask) (hrg : M.rg = true) (hnt : M.nt = true) (hlk : M.lk = true) (hout : M.out = true) (a0 : ℕ) (a1 : ℕ) (a2 : ℕ) (a3 : State)  :
    (takeAhead a0 a1 a2 a3).clr M = a3.clr M := by
  induction a2 generalizing a3 with
  | zero => rfl
  | succ _ ih =>
    unfold takeAhead
    repeat' first
      | with_reducible rfl | split | with_reducible refine (ih _).trans ?_
      | with_reducible refine (damaged_clr M hrg hlk hout _ _ _ _ ).trans ?_
      | with_reducible refine (modLink_clr M hlk _ _ _ _ ).trans ?_
      | with_reducible refine (takeUnits_clr M hrg hnt hlk hout _ _ _ _ ).trans ?_
      | with_reducible refine (foldl_clr M _ _ _ ?_).trans ?_ | intro _ | dsimp only

theorem inOrder_clr (M : Mask) (htm : M.tm = true) (hrg : M.rg = true) (hnt : M.nt = true) (hse : M.se = true) (hci : M.ci = true) (hlk : M.lk = true) (hhs : M.hs = true) (hft : M.ft = true) (hfw : M.fw = true) (hsv : M.sv = true) (hout : M.out = true) (hfresh : M.fresh = true) (a0 : ℕ) (a1 : ℕ) (a2 : TxFrame) (a3 : State → State) (a4 : State) (hf3 : ∀ x0, (a3 x0).clr M = x0.clr M) :
    (inOrder a0 a1 a2 a3 a4).clr M = a4.clr M := by
  unfold inOrder
  repeat' first
    | with_reducible rfl | split
    | with_reducible refine (applySym_clr M htm hrg hnt hse hci hlk hhs hft hfw hsv hout hfresh _ _ _ _ ).trans ?_
    | with_reducible refine (modLink_clr M hlk _ _ _ _ ).trans ?_ | with_reducible refine (sendSym_clr M hlk hout _ _ _ _ _ ).trans ?_
    | with_reducible refine (takeAhead_clr M hrg hnt hlk hout _ _ _ _ ).trans ?_ | with_reducible refine (foldl_clr M _ _ _ ?_).trans ?_
    | with_reducible refine (hf3 _).trans ?_ | with_reducible refine (hf3 _ _).trans ?_ | with_reducible refine (hf3 _ _ _).trans ?_
    | intro _ | dsimp only

theorem takeSlots_clr (M : Mask) (hrg : M.rg = true) (hnt : M.nt = true) (hlk : M.lk = true) (hout : M.out = true) (a0 : ℕ) (a1 : ℕ) (a2 : List FlitSlot) (a3 : State)  :
    (takeSlots a0 a1 a2 a3).clr M = a3.clr M := by
  unfold takeSlots
  repeat' first
    | with_reducible rfl | split | with_reducible refine (modLink_clr M hlk _ _ _ _ ).trans ?_
    | with_reducible refine (intoDie_clr M hrg hnt hlk hout _ _ _ _ ).trans ?_ | with_reducible refine (forEach_clr M _ _ _ ?_).trans ?_
    | with_reducible refine (foldl_clr M _ _ _ ?_).trans ?_ | intro _ | dsimp only

theorem receive_clr (M : Mask) (htm : M.tm = true) (hrg : M.rg = true) (hnt : M.nt = true) (hse : M.se = true) (hci : M.ci = true) (hlk : M.lk = true) (hhs : M.hs = true) (hft : M.ft = true) (hfw : M.fw = true) (hsv : M.sv = true) (hout : M.out = true) (hfresh : M.fresh = true) (a0 : ℕ) (a1 : ℕ) (a2 : TxFrame) (a3 : Bool) (a4 : State)  :
    (receive a0 a1 a2 a3 a4).clr M = a4.clr M := by
  unfold receive
  repeat' first
    | with_reducible rfl | split
    | with_reducible refine (applySym_clr M htm hrg hnt hse hci hlk hhs hft hfw hsv hout hfresh _ _ _ _ ).trans ?_
    | with_reducible refine (damaged_clr M hrg hlk hout _ _ _ _ ).trans ?_
    | with_reducible refine (inOrder_clr M htm hrg hnt hse hci hlk hhs hft hfw hsv hout hfresh _ _ _ _ _ ?_).trans ?_
    | with_reducible refine (modLink_clr M hlk _ _ _ _ ).trans ?_ | with_reducible refine (sendSym_clr M hlk hout _ _ _ _ _ ).trans ?_
    | with_reducible refine (takeSlots_clr M hrg hnt hlk hout _ _ _ _ ).trans ?_
    | with_reducible refine (takeUnits_clr M hrg hnt hlk hout _ _ _ _ ).trans ?_ | with_reducible refine (foldl_clr M _ _ _ ?_).trans ?_
    | intro _ | dsimp only

theorem courseIn_clr (M : Mask) (htm : M.tm = true) (hrg : M.rg = true) (hnt : M.nt = true) (hse : M.se = true) (hci : M.ci = true) (hlk : M.lk = true) (hhs : M.hs = true) (hft : M.ft = true) (hfw : M.fw = true) (hsv : M.sv = true) (hout : M.out = true) (hfresh : M.fresh = true) (a0 : ℕ) (a1 : ℕ) (a2 : Bool) (a3 : List (List Byte)) (a4 : ℕ) (a5 : State)  :
    (courseIn a0 a1 a2 a3 a4 a5).clr M = a5.clr M := by
  unfold courseIn
  repeat' first
    | with_reducible rfl | split
    | with_reducible refine (receive_clr M htm hrg hnt hse hci hlk hhs hft hfw hsv hout hfresh _ _ _ _ _ ).trans ?_
    | with_reducible refine (foldl_clr M _ _ _ ?_).trans ?_ | intro _ | dsimp only

theorem groupIn_clr (M : Mask) (htm : M.tm = true) (hrg : M.rg = true) (hnt : M.nt = true) (hse : M.se = true) (hci : M.ci = true) (hlk : M.lk = true) (hhs : M.hs = true) (hft : M.ft = true) (hfw : M.fw = true) (hsv : M.sv = true) (hout : M.out = true) (hfresh : M.fresh = true) (a0 : ℕ) (a1 : ℕ) (a2 : List BridgeCycle) (a3 : State)  :
    (groupIn a0 a1 a2 a3).clr M = a3.clr M := by
  unfold groupIn
  repeat' first
    | with_reducible rfl | split
    | with_reducible refine (receive_clr M htm hrg hnt hse hci hlk hhs hft hfw hsv hout hfresh _ _ _ _ _ ).trans ?_
    | with_reducible refine (foldl_clr M _ _ _ ?_).trans ?_ | intro _ | dsimp only

end Sys2Proof.Machine
end

