-- ==== Sys2Proof/Laws/FrameHost.lean ====
section
/-! SUPPORT. What each operation of Firmware, Pair, RegisterPages, HostAdapter, Service leaves unchanged: a state after it agrees with the state before outside
the parts it may change. -/
set_option linter.unusedTactic false
set_option linter.unreachableTactic false
set_option linter.unusedVariables false
set_option linter.unusedSimpArgs false

namespace Sys2Proof.Machine

theorem fwIdle_clr (M : Mask) (hrg : M.rg = true) (hhs : M.hs = true) (hfw : M.fw = true) (hsv : M.sv = true) (hout : M.out = true) (a0 : ℕ) (a1 : State)  :
    (fwIdle a0 a1).clr M = a1.clr M := by
  unfold fwIdle
  repeat' first
    | with_reducible rfl | split | with_reducible refine (fwDone_clr M hrg hhs hfw hsv hout _ _ _ ).trans ?_
    | simp only [upd_out M hout, upd_sv M hsv, upd_rg M hrg, upd_fw M hfw, upd_hs M hhs]
    | with_reducible refine (foldl_clr M _ _ _ ?_).trans ?_ | intro _ | dsimp only

theorem actFailed_clr (M : Mask) (hrg : M.rg = true) (hhs : M.hs = true) (hfw : M.fw = true) (hsv : M.sv = true) (hout : M.out = true) (a0 : State)  :
    (actFailed a0).clr M = a0.clr M := by
  unfold actFailed
  repeat' first
    | with_reducible rfl | split | with_reducible refine (fwIdle_clr M hrg hhs hfw hsv hout _ _ ).trans ?_
    | with_reducible refine (foldl_clr M _ _ _ ?_).trans ?_ | intro _ | dsimp only

theorem takeSlot__clr (M : Mask) (hfw : M.fw = true) (a0 : State)  :
    (takeSlot_ a0).clr M = a0.clr M := by
  unfold takeSlot_
  repeat' first
    | with_reducible rfl | split | with_reducible refine (setFwSlot_clr M hfw _ _ _ ).trans ?_
    | with_reducible refine (foldl_clr M _ _ _ ?_).trans ?_ | intro _ | dsimp only

theorem actLoaded_clr (M : Mask) (hkp : M.kp = true) (hfw : M.fw = true) (a0 : State)  :
    (actLoaded a0).clr M = a0.clr M := by
  unfold actLoaded
  repeat' first
    | with_reducible rfl | split | with_reducible refine (takeSlot__clr M hfw _ ).trans ?_
    | simp only [upd_kp M hkp, upd_fw M hfw, upd_kp_fw M hkp hfw] | with_reducible refine (foldl_clr M _ _ _ ?_).trans ?_ | intro _
    | dsimp only

theorem fwWrong_clr (M : Mask) (hrg : M.rg = true) (hhs : M.hs = true) (hfw : M.fw = true) (hsv : M.sv = true) (hout : M.out = true) (a0 : State)  :
    (fwWrong a0).clr M = a0.clr M := by
  unfold fwWrong
  repeat' first
    | with_reducible rfl | split | with_reducible refine (fwDone_clr M hrg hhs hfw hsv hout _ _ _ ).trans ?_
    | with_reducible refine (foldl_clr M _ _ _ ?_).trans ?_ | intro _ | dsimp only

theorem fwActivate_clr (M : Mask) (hrg : M.rg = true) (hhs : M.hs = true) (hft : M.ft = true) (hkp : M.kp = true) (hfw : M.fw = true) (hsv : M.sv = true) (hout : M.out = true) (a0 : State)  :
    (fwActivate a0).clr M = a0.clr M := by
  unfold fwActivate
  repeat' first
    | with_reducible rfl | split | with_reducible refine (fwDone_clr M hrg hhs hfw hsv hout _ _ _ ).trans ?_
    | with_reducible refine (fwIdle_clr M hrg hhs hfw hsv hout _ _ ).trans ?_
    | with_reducible refine (startFrom_clr M hft hkp hfw hsv hout _ _ _ ).trans ?_
    | with_reducible refine (fwState_clr M hrg hfw hsv hout _ _ ).trans ?_ | with_reducible refine (takeSlot__clr M hfw _ ).trans ?_
    | with_reducible refine (fwWrong_clr M hrg hhs hfw hsv hout _ ).trans ?_
    | simp only [upd_ft M hft, upd_out M hout, upd_sv M hsv, upd_rg M hrg, upd_kp M hkp, upd_fw M hfw, upd_hs M hhs, upd_ft_fw M hft hfw, upd_kp_fw M hkp hfw, upd_kp_sv M hkp hsv]
    | with_reducible refine (foldl_clr M _ _ _ ?_).trans ?_ | intro _ | dsimp only

theorem fwBind_clr (M : Mask) (hrg : M.rg = true) (hhs : M.hs = true) (hkp : M.kp = true) (hfw : M.fw = true) (hsv : M.sv = true) (hout : M.out = true) (a0 : State)  :
    (fwBind a0).clr M = a0.clr M := by
  unfold fwBind
  repeat' first
    | with_reducible rfl | split | with_reducible refine (fwDone_clr M hrg hhs hfw hsv hout _ _ _ ).trans ?_
    | with_reducible refine (fwWrong_clr M hrg hhs hfw hsv hout _ ).trans ?_
    | simp only [upd_out M hout, upd_sv M hsv, upd_rg M hrg, upd_kp M hkp, upd_fw M hfw, upd_hs M hhs, upd_kp_fw M hkp hfw, upd_kp_sv M hkp hsv]
    | with_reducible refine (foldl_clr M _ _ _ ?_).trans ?_ | intro _ | dsimp only

theorem fwCancel_clr (M : Mask) (hrg : M.rg = true) (hhs : M.hs = true) (hfw : M.fw = true) (hsv : M.sv = true) (hout : M.out = true) (a0 : State)  :
    (fwCancel a0).clr M = a0.clr M := by
  unfold fwCancel
  repeat' first
    | with_reducible rfl | split | with_reducible refine (fwIdle_clr M hrg hhs hfw hsv hout _ _ ).trans ?_
    | with_reducible refine (fwWrong_clr M hrg hhs hfw hsv hout _ ).trans ?_ | with_reducible refine (foldl_clr M _ _ _ ?_).trans ?_
    | intro _ | dsimp only

theorem fwCheck_clr (M : Mask) (hrg : M.rg = true) (hhs : M.hs = true) (hfw : M.fw = true) (hsv : M.sv = true) (hout : M.out = true) (a0 : State)  :
    (fwCheck a0).clr M = a0.clr M := by
  unfold fwCheck
  repeat' first
    | with_reducible rfl | split | with_reducible refine (fwState_clr M hrg hfw hsv hout _ _ ).trans ?_
    | with_reducible refine (fwWrong_clr M hrg hhs hfw hsv hout _ ).trans ?_
    | simp only [upd_out M hout, upd_sv M hsv, upd_rg M hrg, upd_fw M hfw, upd_hs M hhs]
    | with_reducible refine (foldl_clr M _ _ _ ?_).trans ?_ | intro _ | dsimp only

theorem fwChecked_clr (M : Mask) (hrg : M.rg = true) (hhs : M.hs = true) (hfw : M.fw = true) (hsv : M.sv = true) (hout : M.out = true) (a0 : State)  :
    (fwChecked a0).clr M = a0.clr M := by
  unfold fwChecked
  repeat' first
    | with_reducible rfl | split | with_reducible refine (fwDone_clr M hrg hhs hfw hsv hout _ _ _ ).trans ?_
    | with_reducible refine (fwIdle_clr M hrg hhs hfw hsv hout _ _ ).trans ?_
    | simp only [upd_out M hout, upd_sv M hsv, upd_rg M hrg, upd_fw M hfw, upd_hs M hhs]
    | with_reducible refine (foldl_clr M _ _ _ ?_).trans ?_ | intro _ | dsimp only

theorem fwProgram_clr (M : Mask) (hrg : M.rg = true) (hhs : M.hs = true) (hfw : M.fw = true) (hsv : M.sv = true) (hout : M.out = true) (a0 : State)  :
    (fwProgram a0).clr M = a0.clr M := by
  unfold fwProgram
  repeat' first
    | with_reducible rfl | split | with_reducible refine (setFwSlot_clr M hfw _ _ _ ).trans ?_
    | with_reducible refine (fwState_clr M hrg hfw hsv hout _ _ ).trans ?_
    | with_reducible refine (fwWrong_clr M hrg hhs hfw hsv hout _ ).trans ?_
    | simp only [upd_out M hout, upd_sv M hsv, upd_rg M hrg, upd_fw M hfw, upd_hs M hhs]
    | with_reducible refine (foldl_clr M _ _ _ ?_).trans ?_ | intro _ | dsimp only

theorem fwCmd_clr (M : Mask) (hrg : M.rg = true) (hhs : M.hs = true) (hft : M.ft = true) (hkp : M.kp = true) (hfw : M.fw = true) (hsv : M.sv = true) (hout : M.out = true) (a0 : Word) (a1 : State)  :
    (fwCmd a0 a1).clr M = a1.clr M := by
  unfold fwCmd
  repeat' first
    | with_reducible rfl | split | with_reducible refine (badWrite_clr M hrg _ _ _ ).trans ?_
    | with_reducible refine (fwActivate_clr M hrg hhs hft hkp hfw hsv hout _ ).trans ?_
    | with_reducible refine (fwCancel_clr M hrg hhs hfw hsv hout _ ).trans ?_
    | with_reducible refine (fwBind_clr M hrg hhs hkp hfw hsv hout _ ).trans ?_
    | with_reducible refine (fwCheck_clr M hrg hhs hfw hsv hout _ ).trans ?_
    | with_reducible refine (fwProgram_clr M hrg hhs hfw hsv hout _ ).trans ?_ | with_reducible refine (foldl_clr M _ _ _ ?_).trans ?_
    | intro _ | dsimp only

theorem fwProgrammed_clr (M : Mask) (hrg : M.rg = true) (hhs : M.hs = true) (hfw : M.fw = true) (hsv : M.sv = true) (hout : M.out = true) (a0 : Bool) (a1 : State)  :
    (fwProgrammed a0 a1).clr M = a1.clr M := by
  unfold fwProgrammed
  repeat' first
    | with_reducible rfl | split | with_reducible refine (fwDone_clr M hrg hhs hfw hsv hout _ _ _ ).trans ?_
    | with_reducible refine (setFwSlot_clr M hfw _ _ _ ).trans ?_
    | with_reducible refine (fwIdle_clr M hrg hhs hfw hsv hout _ _ ).trans ?_ | with_reducible refine (foldl_clr M _ _ _ ?_).trans ?_
    | intro _ | dsimp only

theorem pairCount_clr (M : Mask) (hrg : M.rg = true) (a0 : ℕ) (a1 : State)  :
    (pairCount a0 a1).clr M = a1.clr M := by
  unfold pairCount
  repeat' first
    | with_reducible rfl | split | with_reducible refine (addCount_clr M hrg _ _ _ _ _ ).trans ?_
    | with_reducible refine (foldl_clr M _ _ _ ?_).trans ?_ | intro _ | dsimp only

theorem pairTaken_clr (M : Mask) (hnt : M.nt = true) (a0 : Packet) (a1 : State)  :
    (pairTaken a0 a1).clr M = a1.clr M := by
  unfold pairTaken
  repeat' first
    | with_reducible rfl | split | with_reducible refine (consume_clr M hnt _ _ _ _ ).trans ?_
    | with_reducible refine (foldl_clr M _ _ _ ?_).trans ?_ | intro _ | dsimp only

theorem ackArrived_clr (M : Mask) (hrg : M.rg = true) (hnt : M.nt = true) (hpr : M.pr = true) (a0 : ℕ) (a1 : Packet) (a2 : State)  :
    (ackArrived a0 a1 a2).clr M = a2.clr M := by
  unfold ackArrived
  repeat' first
    | with_reducible rfl | split | with_reducible refine (pairCount_clr M hrg _ _ ).trans ?_
    | with_reducible refine (consume_clr M hnt _ _ _ _ ).trans ?_
    | simp only [upd_nt M hnt, upd_pr M hpr, upd_rg M hrg, upd_rg_nt M hrg hnt] | with_reducible refine (foldl_clr M _ _ _ ?_).trans ?_
    | intro _ | dsimp only

theorem advanceDue_clr (M : Mask) (hty : M.ty = true) (a0 : ℕ) (a1 : List TEntry) (a2 : State)  :
    (advanceDue a0 a1 a2).clr M = a2.clr M := by
  unfold advanceDue
  repeat' first
    | with_reducible rfl | split | with_reducible refine (modChain_clr M hty _ _ _ ).trans ?_
    | with_reducible refine (foldl_clr M _ _ _ ?_).trans ?_ | intro _ | dsimp only

theorem applyActEv_clr (M : Mask) (hnt : M.nt = true) (hty : M.ty = true) (hrs : M.rs = true) (a0 : ℕ) (a1 : List Byte) (a2 : State)  :
    (applyActEv a0 a1 a2).clr M = a2.clr M := by
  unfold applyActEv
  repeat' first
    | with_reducible rfl | split | with_reducible refine (advanceDue_clr M hty _ _ _ ).trans ?_
    | with_reducible refine (actResult_clr M hrs _ _ _ ).trans ?_
    | with_reducible refine (becomeActive_clr M hnt hty hrs _ _ _ _ ).trans ?_ | simp only [upd_nt M hnt, upd_rs M hrs, upd_ty M hty]
    | with_reducible refine (foldl_clr M _ _ _ ?_).trans ?_ | intro _ | dsimp only

theorem applyDoneEv_clr (M : Mask) (hrg : M.rg = true) (hnt : M.nt = true) (hdr : M.dr = true) (hse : M.se = true) (hty : M.ty = true) (hpr : M.pr = true) (hlk : M.lk = true) (hft : M.ft = true) (hout : M.out = true) (a0 : ℕ) (a1 : List Byte) (a2 : State)  :
    (applyDoneEv a0 a1 a2).clr M = a2.clr M := by
  unfold applyDoneEv
  repeat' first
    | with_reducible rfl | split | with_reducible refine (advanceDue_clr M hty _ _ _ ).trans ?_
    | with_reducible refine (modRec_clr M hse _ _ _ ).trans ?_
    | with_reducible refine (completeSeam_clr M hrg hnt hdr hse hty hpr hlk hft hout _ _ _ _ _ ).trans ?_
    | with_reducible refine (foldl_clr M _ _ _ ?_).trans ?_ | intro _ | dsimp only

theorem diverge_clr (M : Mask) (hrg : M.rg = true) (hpr : M.pr = true) (hft : M.ft = true) (a0 : ℕ) (a1 : ℕ) (a2 : ℕ) (a3 : State)  :
    (diverge a0 a1 a2 a3).clr M = a3.clr M := by
  unfold diverge
  repeat' first
    | with_reducible rfl | split | with_reducible refine (pairCount_clr M hrg _ _ ).trans ?_
    | with_reducible refine (raise_clr M hrg hft _ _ _ _ _ _ ).trans ?_ | simp only [upd_ft M hft, upd_pr M hpr, upd_rg M hrg]
    | with_reducible refine (foldl_clr M _ _ _ ?_).trans ?_ | intro _ | dsimp only

theorem applyPegEv_clr (M : Mask) (hrg : M.rg = true) (hnt : M.nt = true) (hpg : M.pg = true) (hpr : M.pr = true) (hft : M.ft = true) (a0 : ℕ) (a1 : List Byte) (a2 : State)  :
    (applyPegEv a0 a1 a2).clr M = a2.clr M := by
  unfold applyPegEv
  repeat' first
    | with_reducible rfl | split | with_reducible refine (diverge_clr M hrg hpr hft _ _ _ _ ).trans ?_
    | with_reducible refine (pegRelease_clr M hrg hnt hpg hpr _ _ _ ).trans ?_ | with_reducible refine (foldl_clr M _ _ _ ?_).trans ?_
    | intro _ | dsimp only

theorem applyOpenEv_clr (M : Mask) (hrg : M.rg = true) (hnt : M.nt = true) (hse : M.se = true) (hpr : M.pr = true) (hlk : M.lk = true) (hft : M.ft = true) (hout : M.out = true) (a0 : ℕ) (a1 : List Byte) (a2 : State)  :
    (applyOpenEv a0 a1 a2).clr M = a2.clr M := by
  unfold applyOpenEv
  repeat' first
    | with_reducible rfl | split | with_reducible refine (applyOpen_clr M hrg hnt hse hpr hlk hout _ _ _ _ _ _ ).trans ?_
    | with_reducible refine (diverge_clr M hrg hpr hft _ _ _ _ ).trans ?_
    | simp only [upd_nt M hnt, upd_ft M hft, upd_pr M hpr, upd_out M hout, upd_se M hse, upd_rg M hrg, upd_lk M hlk, upd_rg_nt M hrg hnt]
    | with_reducible refine (foldl_clr M _ _ _ ?_).trans ?_ | intro _ | dsimp only

theorem applyEvent_clr (M : Mask) (hrg : M.rg = true) (hnt : M.nt = true) (hdr : M.dr = true) (hse : M.se = true) (hpg : M.pg = true) (hty : M.ty = true) (hpr : M.pr = true) (hlk : M.lk = true) (hft : M.ft = true) (hrs : M.rs = true) (hout : M.out = true) (a0 : DeltaEvent) (a1 : State)  :
    (applyEvent a0 a1).clr M = a1.clr M := by
  unfold applyEvent
  repeat' first
    | with_reducible rfl | split | with_reducible refine (applyActEv_clr M hnt hty hrs _ _ _ ).trans ?_
    | with_reducible refine (applyPegEv_clr M hrg hnt hpg hpr hft _ _ _ ).trans ?_
    | with_reducible refine (applyDoneEv_clr M hrg hnt hdr hse hty hpr hlk hft hout _ _ _ ).trans ?_
    | with_reducible refine (applyOpenEv_clr M hrg hnt hse hpr hlk hft hout _ _ _ ).trans ?_
    | with_reducible refine (foldl_clr M _ _ _ ?_).trans ?_ | intro _ | dsimp only

theorem applyHeld_clr (M : Mask) (hrg : M.rg = true) (hnt : M.nt = true) (hdr : M.dr = true) (hse : M.se = true) (hpg : M.pg = true) (hty : M.ty = true) (hpr : M.pr = true) (hlk : M.lk = true) (hft : M.ft = true) (hrs : M.rs = true) (hout : M.out = true) (a0 : List Byte → Bool) (a1 : State)  :
    (applyHeld a0 a1).clr M = a1.clr M := by
  unfold applyHeld
  repeat' first
    | with_reducible rfl | split | with_reducible refine (applyEvent_clr M hrg hnt hdr hse hpg hty hpr hlk hft hrs hout _ _ ).trans ?_
    | simp only [upd_nt M hnt, upd_rs M hrs, upd_ft M hft, upd_pr M hpr, upd_pg M hpg, upd_out M hout, upd_ft_rs M hft hrs, upd_se M hse, upd_rg M hrg, upd_ty M hty, upd_lk M hlk, upd_ty_pr M hty hpr, upd_dr M hdr, upd_se_pg_ty M hse hpg hty, upd_se_pg M hse hpg, upd_rg_nt M hrg hnt]
    | with_reducible refine (foldl_clr M _ _ _ ?_).trans ?_ | intro _ | dsimp only

theorem closeDelta_clr (M : Mask) (hpr : M.pr = true) (a0 : ℕ) (a1 : List (ℕ × ℕ)) (a2 : State)  :
    (closeDelta a0 a1 a2).clr M = a2.clr M := by
  unfold closeDelta
  repeat' first
    | with_reducible rfl | split | simp only [upd_pr M hpr] | with_reducible refine (foldl_clr M _ _ _ ?_).trans ?_ | intro _
    | dsimp only

theorem compareTally_clr (M : Mask) (hrg : M.rg = true) (hpr : M.pr = true) (hft : M.ft = true) (a0 : DeltaEvent) (a1 : State)  :
    (compareTally a0 a1).clr M = a1.clr M := by
  unfold compareTally
  repeat' first
    | with_reducible rfl | split | with_reducible refine (diverge_clr M hrg hpr hft _ _ _ _ ).trans ?_
    | with_reducible refine (foldl_clr M _ _ _ ?_).trans ?_ | intro _ | dsimp only

theorem compareHeld_clr (M : Mask) (hrg : M.rg = true) (hpr : M.pr = true) (hft : M.ft = true) (a0 : State)  :
    (compareHeld a0).clr M = a0.clr M := by
  unfold compareHeld
  repeat' first
    | with_reducible rfl | split | with_reducible refine (compareTally_clr M hrg hpr hft _ _ ).trans ?_
    | simp only [upd_ft M hft, upd_pr M hpr, upd_rg M hrg] | with_reducible refine (foldl_clr M _ _ _ ?_).trans ?_ | intro _
    | dsimp only

theorem countAcks_clr (M : Mask) (hpr : M.pr = true) (a0 : ℕ) (a1 : State)  :
    (countAcks a0 a1).clr M = a1.clr M := by
  unfold countAcks
  repeat' first
    | with_reducible rfl | split | simp only [upd_pr M hpr] | with_reducible refine (foldl_clr M _ _ _ ?_).trans ?_ | intro _
    | dsimp only

theorem deltaArrive_clr (M : Mask) (hnt : M.nt = true) (hpr : M.pr = true) (a0 : Packet) (a1 : State)  :
    (deltaArrive a0 a1).clr M = a1.clr M := by
  unfold deltaArrive
  repeat' first
    | with_reducible rfl | split | with_reducible refine (pairTaken_clr M hnt _ _ ).trans ?_ | simp only [upd_nt M hnt, upd_pr M hpr]
    | with_reducible refine (foldl_clr M _ _ _ ?_).trans ?_ | intro _ | dsimp only

theorem dropFrags_clr (M : Mask) (hpr : M.pr = true) (a0 : ℕ) (a1 : Option (ℕ × ℕ)) (a2 : State)  :
    (dropFrags a0 a1 a2).clr M = a2.clr M := by
  unfold dropFrags
  repeat' first
    | with_reducible rfl | split | simp only [upd_pr M hpr] | with_reducible refine (foldl_clr M _ _ _ ?_).trans ?_ | intro _
    | dsimp only

theorem epochAll_clr (M : Mask) (hty : M.ty = true) (a0 : ℕ) (a1 : ℕ) (a2 : State)  :
    (epochAll a0 a1 a2).clr M = a2.clr M := by
  unfold epochAll
  repeat' first
    | with_reducible rfl | split | with_reducible refine (enterEpoch_clr M hty _ _ _ _ ).trans ?_
    | with_reducible refine (forEach_clr M _ _ _ ?_).trans ?_ | with_reducible refine (foldl_clr M _ _ _ ?_).trans ?_ | intro _
    | dsimp only

theorem heldApply_clr (M : Mask) (hrg : M.rg = true) (hnt : M.nt = true) (hdr : M.dr = true) (hse : M.se = true) (hpg : M.pg = true) (hty : M.ty = true) (hpr : M.pr = true) (hlk : M.lk = true) (hft : M.ft = true) (hrs : M.rs = true) (hout : M.out = true) (a0 : ℕ) (a1 : State)  :
    (heldApply a0 a1).clr M = a1.clr M := by
  unfold heldApply
  repeat' first
    | with_reducible rfl | split | with_reducible refine (applyEvent_clr M hrg hnt hdr hse hpg hty hpr hlk hft hrs hout _ _ ).trans ?_
    | simp only [upd_nt M hnt, upd_rs M hrs, upd_ft M hft, upd_pr M hpr, upd_pg M hpg, upd_out M hout, upd_ft_rs M hft hrs, upd_se M hse, upd_rg M hrg, upd_ty M hty, upd_lk M hlk, upd_ty_pr M hty hpr, upd_dr M hdr, upd_se_pg_ty M hse hpg hty, upd_se_pg M hse hpg, upd_rg_nt M hrg hnt]
    | with_reducible refine (foldl_clr M _ _ _ ?_).trans ?_ | intro _ | dsimp only

theorem lagExpired_clr (M : Mask) (hrg : M.rg = true) (hpr : M.pr = true) (hft : M.ft = true) (a0 : ℕ) (a1 : State)  :
    (lagExpired a0 a1).clr M = a1.clr M := by
  unfold lagExpired
  repeat' first
    | with_reducible rfl | split | with_reducible refine (diverge_clr M hrg hpr hft _ _ _ _ ).trans ?_
    | simp only [upd_ft M hft, upd_pr M hpr, upd_rg M hrg] | with_reducible refine (foldl_clr M _ _ _ ?_).trans ?_ | intro _
    | dsimp only

theorem mirrorSend_clr (M : Mask) (hrg : M.rg = true) (hlk : M.lk = true) (hout : M.out = true) (a0 : ℕ) (a1 : List Packet) (a2 : State)  :
    (mirrorSend a0 a1 a2).clr M = a2.clr M := by
  unfold mirrorSend
  repeat' first
    | with_reducible rfl | split | with_reducible refine (sendPacket_clr M hlk hout _ _ _ _ ).trans ?_
    | with_reducible refine (addCount_clr M hrg _ _ _ _ _ ).trans ?_ | with_reducible refine (forEach_clr M _ _ _ ?_).trans ?_
    | with_reducible refine (foldl_clr M _ _ _ ?_).trans ?_ | intro _ | dsimp only

theorem mirrorSends_clr (M : Mask) (hrg : M.rg = true) (hlk : M.lk = true) (hout : M.out = true) (a0 : ℕ → List Packet) (a1 : State)  :
    (mirrorSends a0 a1).clr M = a1.clr M := by
  unfold mirrorSends
  repeat' first
    | with_reducible rfl | split | with_reducible refine (mirrorSend_clr M hrg hlk hout _ _ _ ).trans ?_
    | with_reducible refine (forEach_clr M _ _ _ ?_).trans ?_ | with_reducible refine (foldl_clr M _ _ _ ?_).trans ?_ | intro _
    | dsimp only

theorem mirrorAck_clr (M : Mask) (hrg : M.rg = true) (hpr : M.pr = true) (hlk : M.lk = true) (hft : M.ft = true) (hout : M.out = true) (a0 : List ℕ) (a1 : State)  :
    (mirrorAck a0 a1).clr M = a1.clr M := by
  unfold mirrorAck
  repeat' first
    | with_reducible rfl | split | with_reducible refine (pairCount_clr M hrg _ _ ).trans ?_
    | with_reducible refine (mirrorSends_clr M hrg hlk hout _ _ ).trans ?_
    | with_reducible refine (compareHeld_clr M hrg hpr hft _ ).trans ?_ | with_reducible refine (forEach_clr M _ _ _ ?_).trans ?_
    | with_reducible refine (foldl_clr M _ _ _ ?_).trans ?_ | intro _ | dsimp only

theorem mirrorBase_clr (M : Mask) (hpr : M.pr = true) (a0 : ℕ) (a1 : State)  :
    (mirrorBase a0 a1).clr M = a1.clr M := by
  unfold mirrorBase
  repeat' first
    | with_reducible rfl | split | simp only [upd_pr M hpr] | with_reducible refine (foldl_clr M _ _ _ ?_).trans ?_ | intro _
    | dsimp only

theorem mirrorLost_clr (M : Mask) (hrg : M.rg = true) (hpr : M.pr = true) (hft : M.ft = true) (a0 : State)  :
    (mirrorLost a0).clr M = a0.clr M := by
  unfold mirrorLost
  repeat' first
    | with_reducible rfl | split | with_reducible refine (raise0_clr M hrg hft _ _ _ _ ).trans ?_
    | simp only [upd_ft M hft, upd_pr M hpr, upd_rg M hrg] | with_reducible refine (foldl_clr M _ _ _ ?_).trans ?_ | intro _
    | dsimp only

theorem mirrorStep3_clr (M : Mask) (hrg : M.rg = true) (hnt : M.nt = true) (hdr : M.dr = true) (hse : M.se = true) (hpg : M.pg = true) (hty : M.ty = true) (hpr : M.pr = true) (hlk : M.lk = true) (hft : M.ft = true) (hrs : M.rs = true) (hout : M.out = true) (a0 : State)  :
    (mirrorStep3 a0).clr M = a0.clr M := by
  unfold mirrorStep3
  repeat' first
    | with_reducible rfl | split | with_reducible refine (applyHeld_clr M hrg hnt hdr hse hpg hty hpr hlk hft hrs hout _ _ ).trans ?_
    | with_reducible refine (foldl_clr M _ _ _ ?_).trans ?_ | intro _ | dsimp only

theorem mirrorStep5_clr (M : Mask) (hrg : M.rg = true) (hnt : M.nt = true) (hdr : M.dr = true) (hse : M.se = true) (hpg : M.pg = true) (hty : M.ty = true) (hpr : M.pr = true) (hlk : M.lk = true) (hft : M.ft = true) (hrs : M.rs = true) (hout : M.out = true) (a0 : State)  :
    (mirrorStep5 a0).clr M = a0.clr M := by
  unfold mirrorStep5
  repeat' first
    | with_reducible rfl | split | with_reducible refine (applyHeld_clr M hrg hnt hdr hse hpg hty hpr hlk hft hrs hout _ _ ).trans ?_
    | simp only [upd_nt M hnt, upd_rs M hrs, upd_ft M hft, upd_pr M hpr, upd_pg M hpg, upd_out M hout, upd_ft_rs M hft hrs, upd_se M hse, upd_rg M hrg, upd_ty M hty, upd_lk M hlk, upd_ty_pr M hty hpr, upd_dr M hdr, upd_se_pg_ty M hse hpg hty, upd_se_pg M hse hpg, upd_rg_nt M hrg hnt]
    | with_reducible refine (foldl_clr M _ _ _ ?_).trans ?_ | intro _ | dsimp only

theorem mirrorStep7_clr (M : Mask) (hrg : M.rg = true) (hnt : M.nt = true) (hdr : M.dr = true) (hse : M.se = true) (hpg : M.pg = true) (hty : M.ty = true) (hpr : M.pr = true) (hlk : M.lk = true) (hft : M.ft = true) (hrs : M.rs = true) (hout : M.out = true) (a0 : State)  :
    (mirrorStep7 a0).clr M = a0.clr M := by
  unfold mirrorStep7
  repeat' first
    | with_reducible rfl | split | with_reducible refine (applyHeld_clr M hrg hnt hdr hse hpg hty hpr hlk hft hrs hout _ _ ).trans ?_
    | with_reducible refine (foldl_clr M _ _ _ ?_).trans ?_ | intro _ | dsimp only

theorem missOne_clr (M : Mask) (hrg : M.rg = true) (hpr : M.pr = true) (a0 : State)  :
    (missOne a0).clr M = a0.clr M := by
  unfold missOne
  repeat' first
    | with_reducible rfl | split | with_reducible refine (pairCount_clr M hrg _ _ ).trans ?_ | simp only [upd_pr M hpr, upd_rg M hrg]
    | with_reducible refine (foldl_clr M _ _ _ ?_).trans ?_ | intro _ | dsimp only

theorem takeLogMark_clr (M : Mask) (hty : M.ty = true) (a0 : ℕ) (a1 : State)  :
    (takeLogMark a0 a1).clr M = a1.clr M := by
  unfold takeLogMark
  repeat' first
    | with_reducible rfl | split | with_reducible refine (modTly_clr M hty _ _ _ ).trans ?_
    | with_reducible refine (forEach_clr M _ _ _ ?_).trans ?_ | with_reducible refine (foldl_clr M _ _ _ ?_).trans ?_ | intro _
    | dsimp only

theorem takeDelta_clr (M : Mask) (hrg : M.rg = true) (hty : M.ty = true) (hpr : M.pr = true) (hft : M.ft = true) (a0 : ℕ) (a1 : List Byte) (a2 : State)  :
    (takeDelta a0 a1 a2).clr M = a2.clr M := by
  unfold takeDelta
  repeat' first
    | with_reducible rfl | split | with_reducible refine (pairCount_clr M hrg _ _ ).trans ?_
    | with_reducible refine (takeLogMark_clr M hty _ _ ).trans ?_ | with_reducible refine (diverge_clr M hrg hpr hft _ _ _ _ ).trans ?_
    | with_reducible refine (forEach_clr M _ _ _ ?_).trans ?_
    | simp only [upd_ft M hft, upd_pr M hpr, upd_rg M hrg, upd_ty M hty, upd_ty_pr M hty hpr]
    | with_reducible refine (foldl_clr M _ _ _ ?_).trans ?_ | intro _ | dsimp only

theorem takeOne_clr (M : Mask) (hrg : M.rg = true) (hty : M.ty = true) (hpr : M.pr = true) (hft : M.ft = true) (a0 : ℕ) (a1 : State)  :
    (takeOne a0 a1).clr M = a1.clr M := by
  unfold takeOne
  repeat' first
    | with_reducible rfl | split | with_reducible refine (takeDelta_clr M hrg hty hpr hft _ _ _ ).trans ?_
    | with_reducible refine (foldl_clr M _ _ _ ?_).trans ?_ | intro _ | dsimp only

theorem mirrorTake_clr (M : Mask) (hrg : M.rg = true) (hty : M.ty = true) (hpr : M.pr = true) (hft : M.ft = true) (a0 : ℕ) (a1 : State)  :
    (mirrorTake a0 a1).clr M = a1.clr M := by
  unfold mirrorTake
  repeat' first
    | with_reducible rfl | split | with_reducible refine (dropFrags_clr M hpr _ _ _ ).trans ?_
    | with_reducible refine (missOne_clr M hrg hpr _ ).trans ?_ | with_reducible refine (takeOne_clr M hrg hty hpr hft _ _ ).trans ?_
    | with_reducible refine (forEach_clr M _ _ _ ?_).trans ?_ | with_reducible refine (foldl_clr M _ _ _ ?_).trans ?_ | intro _
    | dsimp only

theorem primaryLost_clr (M : Mask) (hrg : M.rg = true) (hpr : M.pr = true) (hft : M.ft = true) (a0 : State)  :
    (primaryLost a0).clr M = a0.clr M := by
  unfold primaryLost
  repeat' first
    | with_reducible rfl | split | with_reducible refine (raise0_clr M hrg hft _ _ _ _ ).trans ?_
    | simp only [upd_ft M hft, upd_pr M hpr, upd_rg M hrg] | with_reducible refine (foldl_clr M _ _ _ ?_).trans ?_ | intro _
    | dsimp only

theorem resendHeld_clr (M : Mask) (hrg : M.rg = true) (hnt : M.nt = true) (hty : M.ty = true) (a0 : ℕ) (a1 : State)  :
    (resendHeld a0 a1).clr M = a1.clr M := by
  unfold resendHeld
  repeat' first
    | with_reducible rfl | split | with_reducible refine (modTly_clr M hty _ _ _ ).trans ?_
    | with_reducible refine (drainLog_clr M hrg hnt hty _ _ _ ).trans ?_
    | with_reducible refine (sendGap_clr M hrg hnt hty _ _ _ ).trans ?_ | with_reducible refine (forEach_clr M _ _ _ ?_).trans ?_
    | with_reducible refine (foldl_clr M _ _ _ ?_).trans ?_ | intro _ | dsimp only

theorem promote_clr (M : Mask) (hrg : M.rg = true) (hnt : M.nt = true) (hty : M.ty = true) (hpr : M.pr = true) (a0 : State)  :
    (promote a0).clr M = a0.clr M := by
  unfold promote
  repeat' first
    | with_reducible rfl | split | with_reducible refine (resendHeld_clr M hrg hnt hty _ _ ).trans ?_
    | with_reducible refine (forEach_clr M _ _ _ ?_).trans ?_
    | simp only [upd_nt M hnt, upd_pr M hpr, upd_rg M hrg, upd_ty M hty, upd_ty_pr M hty hpr, upd_rg_nt M hrg hnt]
    | with_reducible refine (foldl_clr M _ _ _ ?_).trans ?_ | intro _ | dsimp only

theorem promoteOpens_clr (M : Mask) (hrg : M.rg = true) (hnt : M.nt = true) (hse : M.se = true) (hpr : M.pr = true) (hlk : M.lk = true) (hout : M.out = true) (a0 : State)  :
    (promoteOpens a0).clr M = a0.clr M := by
  unfold promoteOpens
  repeat' first
    | with_reducible rfl | split | with_reducible refine (evalOpen_clr M hrg hnt hse hpr hlk hout _ _ _ _ _ _ ).trans ?_
    | with_reducible refine (forEach_clr M _ _ _ ?_).trans ?_
    | simp only [upd_nt M hnt, upd_pr M hpr, upd_out M hout, upd_se M hse, upd_rg M hrg, upd_lk M hlk, upd_rg_nt M hrg hnt]
    | with_reducible refine (foldl_clr M _ _ _ ?_).trans ?_ | intro _ | dsimp only

theorem promotePegs_clr (M : Mask) (hrg : M.rg = true) (hnt : M.nt = true) (hpg : M.pg = true) (hpr : M.pr = true) (a0 : State)  :
    (promotePegs a0).clr M = a0.clr M := by
  unfold promotePegs
  repeat' first
    | with_reducible rfl | split | with_reducible refine (pegRelease_clr M hrg hnt hpg hpr _ _ _ ).trans ?_
    | with_reducible refine (forEach_clr M _ _ _ ?_).trans ?_ | with_reducible refine (foldl_clr M _ _ _ ?_).trans ?_ | intro _
    | dsimp only

theorem sendDeltas_clr (M : Mask) (hrg : M.rg = true) (hpr : M.pr = true) (hlk : M.lk = true) (hout : M.out = true) (a0 : ℕ) (a1 : State)  :
    (sendDeltas a0 a1).clr M = a1.clr M := by
  unfold sendDeltas
  repeat' first
    | with_reducible rfl | split | with_reducible refine (pairCount_clr M hrg _ _ ).trans ?_
    | with_reducible refine (mirrorSends_clr M hrg hlk hout _ _ ).trans ?_ | with_reducible refine (forEach_clr M _ _ _ ?_).trans ?_
    | simp only [upd_pr M hpr, upd_out M hout, upd_rg M hrg, upd_lk M hlk] | with_reducible refine (foldl_clr M _ _ _ ?_).trans ?_
    | intro _ | dsimp only

theorem noteBad_clr (M : Mask) (hrg : M.rg = true) (a0 : ℕ) (a1 : ℕ) (a2 : PageInfo) (a3 : RegRow) (a4 : Master) (a5 : Word) (a6 : State)  :
    (noteBad a0 a1 a2 a3 a4 a5 a6).clr M = a6.clr M := by
  unfold noteBad
  repeat' first
    | with_reducible rfl | split | with_reducible refine (badWrite_clr M hrg _ _ _ ).trans ?_
    | with_reducible refine (foldl_clr M _ _ _ ?_).trans ?_ | intro _ | dsimp only

theorem writeRws_clr (M : Mask) (hrg : M.rg = true) (a0 : ℕ) (a1 : ℕ) (a2 : PageInfo) (a3 : RegRow) (a4 : Master) (a5 : Word) (a6 : State)  :
    (writeRws a0 a1 a2 a3 a4 a5 a6).clr M = a6.clr M := by
  unfold writeRws
  repeat' first
    | with_reducible rfl | split | with_reducible refine (badWrite_clr M hrg _ _ _ ).trans ?_
    | with_reducible refine (noteBad_clr M hrg _ _ _ _ _ _ _ ).trans ?_
    | with_reducible refine (setBoth_clr M hrg _ _ _ _ _ _ ).trans ?_
    | with_reducible refine (setShadow_clr M hrg _ _ _ _ _ _ ).trans ?_ | with_reducible refine (foldl_clr M _ _ _ ?_).trans ?_
    | intro _ | dsimp only

theorem writeRw_clr (M : Mask) (hrg : M.rg = true) (a0 : ℕ) (a1 : ℕ) (a2 : PageInfo) (a3 : RegRow) (a4 : Master) (a5 : Word) (a6 : State)  :
    (writeRw a0 a1 a2 a3 a4 a5 a6).clr M = a6.clr M := by
  unfold writeRw
  repeat' first
    | with_reducible rfl | split | with_reducible refine (setReg_clr M hrg _ _ _ _ _ _ ).trans ?_
    | with_reducible refine (noteBad_clr M hrg _ _ _ _ _ _ _ ).trans ?_ | with_reducible refine (foldl_clr M _ _ _ ?_).trans ?_
    | intro _ | dsimp only

theorem plainWrite_clr (M : Mask) (hrg : M.rg = true) (a0 : ℕ) (a1 : ℕ) (a2 : PageInfo) (a3 : RegRow) (a4 : Master) (a5 : Word) (a6 : State)  :
    (plainWrite a0 a1 a2 a3 a4 a5 a6).clr M = a6.clr M := by
  unfold plainWrite
  repeat' first
    | with_reducible rfl | split | with_reducible refine (writeRws_clr M hrg _ _ _ _ _ _ _ ).trans ?_
    | with_reducible refine (setReg_clr M hrg _ _ _ _ _ _ ).trans ?_ | with_reducible refine (writeRw_clr M hrg _ _ _ _ _ _ _ ).trans ?_
    | with_reducible refine (foldl_clr M _ _ _ ?_).trans ?_ | intro _ | dsimp only

theorem ceilingWrite_clr (M : Mask) (hrg : M.rg = true) (hnt : M.nt = true) (a0 : PageInfo) (a1 : RegRow) (a2 : Master) (a3 : Word) (a4 : State)  :
    (ceilingWrite a0 a1 a2 a3 a4).clr M = a4.clr M := by
  unfold ceilingWrite
  repeat' first
    | with_reducible rfl | split | with_reducible refine (addCount_clr M hrg _ _ _ _ _ ).trans ?_
    | with_reducible refine (plainWrite_clr M hrg _ _ _ _ _ _ _ ).trans ?_ | simp only [upd_nt M hnt, upd_rg M hrg, upd_rg_nt M hrg hnt]
    | with_reducible refine (foldl_clr M _ _ _ ?_).trans ?_ | intro _ | dsimp only

theorem checkpoint_clr (M : Mask) (hty : M.ty = true) (a0 : ℕ) (a1 : Word) (a2 : State)  :
    (checkpoint a0 a1 a2).clr M = a2.clr M := by
  unfold checkpoint
  repeat' first
    | with_reducible rfl | split | with_reducible refine (enterTally_clr M hty _ _ _ ).trans ?_
    | with_reducible refine (foldl_clr M _ _ _ ?_).trans ?_ | intro _ | dsimp only

theorem clearWrite_clr (M : Mask) (hrg : M.rg = true) (a0 : ℕ) (a1 : ℕ) (a2 : ℕ) (a3 : Word) (a4 : State)  :
    (clearWrite a0 a1 a2 a3 a4).clr M = a4.clr M := by
  unfold clearWrite
  repeat' first
    | with_reducible rfl | split | with_reducible refine (setReg_clr M hrg _ _ _ _ _ _ ).trans ?_
    | with_reducible refine (foldl_clr M _ _ _ ?_).trans ?_ | intro _ | dsimp only

theorem ctxCmdWrite_clr (M : Mask) (hrg : M.rg = true) (hrs : M.rs = true) (a0 : Master) (a1 : Word) (a2 : State)  :
    (ctxCmdWrite a0 a1 a2).clr M = a2.clr M := by
  unfold ctxCmdWrite
  repeat' first
    | with_reducible rfl | split | with_reducible refine (ctxCmd_clr M hrg hrs _ _ _ _ ).trans ?_
    | with_reducible refine (foldl_clr M _ _ _ ?_).trans ?_ | intro _ | dsimp only

theorem setLatch_clr (M : Mask) (hrg : M.rg = true) (a0 : ℕ) (a1 : Word) (a2 : State)  :
    (setLatch a0 a1 a2).clr M = a2.clr M := by
  unfold setLatch
  repeat' first
    | with_reducible rfl | split | simp only [upd_rg M hrg] | with_reducible refine (foldl_clr M _ _ _ ?_).trans ?_ | intro _
    | dsimp only

theorem latchRest_clr (M : Mask) (hrg : M.rg = true) (a0 : Master) (a1 : ℕ) (a2 : ℕ) (a3 : PageInfo) (a4 : RegRow) (a5 : State)  :
    (latchRest a0 a1 a2 a3 a4 a5).clr M = a5.clr M := by
  unfold latchRest
  repeat' first
    | with_reducible rfl | split | with_reducible refine (setLatch_clr M hrg _ _ _ ).trans ?_
    | with_reducible refine (forEach_clr M _ _ _ ?_).trans ?_ | with_reducible refine (foldl_clr M _ _ _ ?_).trans ?_ | intro _
    | dsimp only

theorem regRead_clr (M : Mask) (hrg : M.rg = true) (hfresh : M.fresh = true) (a0 : RegAcc) (a1 : State)  :
    (regRead a0 a1).2.2.clr M = a1.clr M := by
  unfold regRead
  repeat' first
    | with_reducible rfl | split | with_reducible refine (freshen_clr M hfresh _ ).trans ?_
    | with_reducible refine (areaNext_clr M hrg _ ).trans ?_ | with_reducible refine (latchRest_clr M hrg _ _ _ _ _ _ ).trans ?_
    | simp only [upd_rg M hrg, upd_fresh M hfresh] | with_reducible refine (foldl_clr M _ _ _ ?_).trans ?_ | intro _ | dsimp only

theorem doRead_clr (M : Mask) (hrg : M.rg = true) (hout : M.out = true) (hfresh : M.fresh = true) (a0 : RegAcc) (a1 : State)  :
    (doRead a0 a1).clr M = a1.clr M := by
  unfold doRead
  repeat' first
    | with_reducible rfl | split | with_reducible refine (emit_clr M hout _ _ ).trans ?_
    | with_reducible refine (regRead_clr M hrg hfresh _ _ ).trans ?_ | with_reducible refine (foldl_clr M _ _ _ ?_).trans ?_ | intro _
    | dsimp only

theorem spareWrite_clr (M : Mask) (hrg : M.rg = true) (hkp : M.kp = true) (a0 : ℕ) (a1 : Word) (a2 : State)  :
    (spareWrite a0 a1 a2).clr M = a2.clr M := by
  unfold spareWrite
  repeat' first
    | with_reducible rfl | split | with_reducible refine (badWrite_clr M hrg _ _ _ ).trans ?_
    | with_reducible refine (spareSet_clr M hkp _ _ _ ).trans ?_ | with_reducible refine (foldl_clr M _ _ _ ?_).trans ?_ | intro _
    | dsimp only

theorem headerWrite_clr (M : Mask) (hrg : M.rg = true) (a0 : ℕ) (a1 : ℕ) (a2 : PageInfo) (a3 : RegRow) (a4 : Master) (a5 : Word) (a6 : State)  :
    (headerWrite a0 a1 a2 a3 a4 a5 a6).clr M = a6.clr M := by
  unfold headerWrite
  repeat' first
    | with_reducible rfl | split | with_reducible refine (modPage_clr M hrg _ _ _ _ ).trans ?_
    | with_reducible refine (clearFaults_clr M hrg _ _ _ _ ).trans ?_ | with_reducible refine (shadowCommit_clr M hrg _ _ _ _ ).trans ?_
    | with_reducible refine (plainWrite_clr M hrg _ _ _ _ _ _ _ ).trans ?_ | with_reducible refine (foldl_clr M _ _ _ ?_).trans ?_
    | intro _ | dsimp only

theorem keepWrite_clr (M : Mask) (hrg : M.rg = true) (hkp : M.kp = true) (a0 : ℕ) (a1 : PageInfo) (a2 : RegRow) (a3 : Master) (a4 : Word) (a5 : State)  :
    (keepWrite a0 a1 a2 a3 a4 a5).clr M = a5.clr M := by
  unfold keepWrite
  repeat' first
    | with_reducible rfl | split | with_reducible refine (areaSet_clr M hrg hkp _ _ ).trans ?_
    | with_reducible refine (rollbackSet_clr M hrg hkp _ _ ).trans ?_ | with_reducible refine (unitHashSet_clr M hkp _ _ _ ).trans ?_
    | with_reducible refine (acceptSet_clr M hkp _ _ _ _ ).trans ?_
    | with_reducible refine (plainWrite_clr M hrg _ _ _ _ _ _ _ ).trans ?_ | simp only [upd_rg M hrg, upd_kp M hkp]
    | with_reducible refine (foldl_clr M _ _ _ ?_).trans ?_ | intro _ | dsimp only

theorem groupWrite_clr (M : Mask) (hrg : M.rg = true) (a0 : ℕ) (a1 : ℕ) (a2 : PageInfo) (a3 : RegRow) (a4 : Master) (a5 : Word) (a6 : State)  :
    (groupWrite a0 a1 a2 a3 a4 a5 a6).clr M = a6.clr M := by
  unfold groupWrite
  repeat' first
    | with_reducible rfl | split | with_reducible refine (badWrite_clr M hrg _ _ _ ).trans ?_
    | with_reducible refine (plainWrite_clr M hrg _ _ _ _ _ _ _ ).trans ?_ | with_reducible refine (foldl_clr M _ _ _ ?_).trans ?_
    | intro _ | dsimp only

theorem ioWrite_clr (M : Mask) (hrg : M.rg = true) (hlk : M.lk = true) (hhs : M.hs = true) (hop : M.op = true) (hft : M.ft = true) (hkp : M.kp = true) (hout : M.out = true) (a0 : ℕ) (a1 : ℕ) (a2 : PageInfo) (a3 : RegRow) (a4 : Master) (a5 : Word) (a6 : State)  :
    (ioWrite a0 a1 a2 a3 a4 a5 a6).clr M = a6.clr M := by
  unfold ioWrite
  repeat' first
    | with_reducible rfl | split | with_reducible refine (modHost_clr M hhs _ _ _ ).trans ?_
    | with_reducible refine (linkCtrl_clr M hrg hlk _ _ _ _ ).trans ?_
    | with_reducible refine (optCtrl_clr M hrg hlk hop hout _ _ _ _ ).trans ?_
    | with_reducible refine (plainWrite_clr M hrg _ _ _ _ _ _ _ ).trans ?_
    | with_reducible refine (rescan_clr M hrg hlk hop hft hkp hout _ _ _ ).trans ?_
    | with_reducible refine (doIf_clr M _ _ _ ?_).trans ?_ | with_reducible refine (foldl_clr M _ _ _ ?_).trans ?_ | intro _
    | dsimp only

theorem pairWrite_clr (M : Mask) (hrg : M.rg = true) (hkp : M.kp = true) (a0 : PageInfo) (a1 : RegRow) (a2 : Master) (a3 : Word) (a4 : State)  :
    (pairWrite a0 a1 a2 a3 a4).clr M = a4.clr M := by
  unfold pairWrite
  repeat' first
    | with_reducible rfl | split | with_reducible refine (noteBad_clr M hrg _ _ _ _ _ _ _ ).trans ?_
    | simp only [upd_rg M hrg, upd_kp M hkp] | with_reducible refine (foldl_clr M _ _ _ ?_).trans ?_ | intro _ | dsimp only

theorem resetCmd_clr (M : Mask) (htm : M.tm = true) (hrg : M.rg = true) (hnt : M.nt = true) (hpl : M.pl = true) (hmp : M.mp = true) (hdr : M.dr = true) (hse : M.se = true) (hci : M.ci = true) (hbk : M.bk = true) (hpg : M.pg = true) (hty : M.ty = true) (hpr : M.pr = true) (hlk : M.lk = true) (hhs : M.hs = true) (hop : M.op = true) (hft : M.ft = true) (hkp : M.kp = true) (hrs : M.rs = true) (hfw : M.fw = true) (hsv : M.sv = true) (hout : M.out = true) (a0 : Master) (a1 : Word) (a2 : State)  :
    (resetCmd a0 a1 a2).clr M = a2.clr M := by
  unfold resetCmd
  repeat' first
    | with_reducible rfl | split | with_reducible refine (resetResult_clr M hrs _ _ ).trans ?_
    | with_reducible refine (fabricReset_clr M htm hrg hnt hpl hmp hdr hse hci hbk hpg hty hpr hlk hhs hop hft hkp hrs hfw hsv hout _ _ ).trans ?_
    | with_reducible refine (resetPart_clr M hrg hnt hmp hdr hse hci hpg hlk hrs hout _ _ _ _ _ ).trans ?_
    | with_reducible refine (foldl_clr M _ _ _ ?_).trans ?_ | intro _ | dsimp only

theorem lpCmd_clr (M : Mask) (htm : M.tm = true) (hrg : M.rg = true) (hnt : M.nt = true) (hpl : M.pl = true) (hmp : M.mp = true) (hdr : M.dr = true) (hse : M.se = true) (hci : M.ci = true) (hbk : M.bk = true) (hpg : M.pg = true) (hty : M.ty = true) (hpr : M.pr = true) (hlk : M.lk = true) (hhs : M.hs = true) (hop : M.op = true) (hft : M.ft = true) (hkp : M.kp = true) (hrs : M.rs = true) (hfw : M.fw = true) (hsv : M.sv = true) (hout : M.out = true) (a0 : Word) (a1 : State)  :
    (lpCmd a0 a1).clr M = a1.clr M := by
  unfold lpCmd
  repeat' first
    | with_reducible rfl | split | with_reducible refine (lpEnter_clr M hrs _ _ ).trans ?_
    | with_reducible refine (lpLeave_clr M htm hrg hnt hpl hmp hdr hse hci hbk hpg hty hpr hlk hhs hop hft hkp hrs hfw hsv hout _ ).trans ?_
    | with_reducible refine (foldl_clr M _ _ _ ?_).trans ?_ | intro _ | dsimp only

theorem fmcWrite_clr (M : Mask) (htm : M.tm = true) (hrg : M.rg = true) (hnt : M.nt = true) (hpl : M.pl = true) (hmp : M.mp = true) (hdr : M.dr = true) (hse : M.se = true) (hci : M.ci = true) (hbk : M.bk = true) (hpg : M.pg = true) (hty : M.ty = true) (hpr : M.pr = true) (hlk : M.lk = true) (hhs : M.hs = true) (hop : M.op = true) (hft : M.ft = true) (hkp : M.kp = true) (hrs : M.rs = true) (hfw : M.fw = true) (hsv : M.sv = true) (hout : M.out = true) (a0 : ℕ) (a1 : PageInfo) (a2 : RegRow) (a3 : Master) (a4 : Word) (a5 : State)  :
    (fmcWrite a0 a1 a2 a3 a4 a5).clr M = a5.clr M := by
  unfold fmcWrite
  repeat' first
    | with_reducible rfl | split | with_reducible refine (fwCmd_clr M hrg hhs hft hkp hfw hsv hout _ _ ).trans ?_
    | with_reducible refine (pairWrite_clr M hrg hkp _ _ _ _ _ ).trans ?_
    | with_reducible refine (resetCmd_clr M htm hrg hnt hpl hmp hdr hse hci hbk hpg hty hpr hlk hhs hop hft hkp hrs hfw hsv hout _ _ _ ).trans ?_
    | with_reducible refine (ceilingWrite_clr M hrg hnt _ _ _ _ _ ).trans ?_
    | with_reducible refine (clearWrite_clr M hrg _ _ _ _ _ ).trans ?_
    | with_reducible refine (ctxCmdWrite_clr M hrg hrs _ _ _ ).trans ?_
    | with_reducible refine (planCmd_clr M hrg hpl hhs hsv hout _ _ ).trans ?_
    | with_reducible refine (lp1Write_clr M hrg hnt hrs _ _ _ ).trans ?_
    | with_reducible refine (plainWrite_clr M hrg _ _ _ _ _ _ _ ).trans ?_
    | with_reducible refine (lpCmd_clr M htm hrg hnt hpl hmp hdr hse hci hbk hpg hty hpr hlk hhs hop hft hkp hrs hfw hsv hout _ _ ).trans ?_
    | simp only [upd_nt M hnt, upd_ci M hci, upd_rs M hrs, upd_ft M hft, upd_pr M hpr, upd_pg M hpg, upd_out M hout, upd_ft_rs M hft hrs, upd_sv M hsv, upd_se_ci_bk M hse hci hbk, upd_tm_ft_fw M htm hft hfw, upd_se M hse, upd_rg M hrg, upd_kp M hkp, upd_ty M hty, upd_fw M hfw, upd_lk M hlk, upd_hs M hhs, upd_pl M hpl, upd_tm M htm, upd_ty_pr M hty hpr, upd_tm_rg_nt_pl_mp_dr_se_ci_bk_pg_ty_pr_lk_hs_op_ft_rs_fw_sv M htm hrg hnt hpl hmp hdr hse hci hbk hpg hty hpr hlk hhs hop hft hrs hfw hsv, upd_dr M hdr, upd_se_pg_ty M hse hpg hty, upd_ft_fw M hft hfw, upd_op M hop, upd_mp M hmp, upd_se_pg M hse hpg, upd_kp_fw M hkp hfw, upd_bk M hbk, upd_tm_lk_fw M htm hlk hfw, upd_tm_rs M htm hrs, upd_rg_nt M hrg hnt, upd_kp_sv M hkp hsv, upd_nt_ci_bk_pg M hnt hci hbk hpg, upd_nt_mp M hnt hmp]
    | with_reducible refine (foldl_clr M _ _ _ ?_).trans ?_ | intro _ | dsimp only

theorem writeEffect_clr (M : Mask) (htm : M.tm = true) (hrg : M.rg = true) (hnt : M.nt = true) (hpl : M.pl = true) (hmp : M.mp = true) (hdr : M.dr = true) (hse : M.se = true) (hci : M.ci = true) (hbk : M.bk = true) (hpg : M.pg = true) (hty : M.ty = true) (hpr : M.pr = true) (hlk : M.lk = true) (hhs : M.hs = true) (hop : M.op = true) (hft : M.ft = true) (hkp : M.kp = true) (hrs : M.rs = true) (hfw : M.fw = true) (hsv : M.sv = true) (hout : M.out = true) (a0 : ℕ) (a1 : ℕ) (a2 : PageInfo) (a3 : RegRow) (a4 : Master) (a5 : Word) (a6 : State)  :
    (writeEffect a0 a1 a2 a3 a4 a5 a6).clr M = a6.clr M := by
  unfold writeEffect
  repeat' first
    | with_reducible rfl | split | with_reducible refine (spareWrite_clr M hrg hkp _ _ _ ).trans ?_
    | with_reducible refine (checkpoint_clr M hty _ _ _ ).trans ?_ | with_reducible refine (abortCmdEffect_clr M hse _ _ _ _ ).trans ?_
    | with_reducible refine (psLoadStart_clr M hrg hnt hdr _ _ _ _ ).trans ?_
    | with_reducible refine (psStore_clr M hrg hdr _ _ _ _ ).trans ?_
    | with_reducible refine (headerWrite_clr M hrg _ _ _ _ _ _ _ ).trans ?_
    | with_reducible refine (clearWrite_clr M hrg _ _ _ _ _ ).trans ?_
    | with_reducible refine (keepWrite_clr M hrg hkp _ _ _ _ _ _ ).trans ?_
    | with_reducible refine (errCtrl_clr M hrg hft hout _ _ ).trans ?_
    | with_reducible refine (groupWrite_clr M hrg _ _ _ _ _ _ _ ).trans ?_
    | with_reducible refine (plainWrite_clr M hrg _ _ _ _ _ _ _ ).trans ?_
    | with_reducible refine (ioWrite_clr M hrg hlk hhs hop hft hkp hout _ _ _ _ _ _ _ ).trans ?_
    | with_reducible refine (fmcWrite_clr M htm hrg hnt hpl hmp hdr hse hci hbk hpg hty hpr hlk hhs hop hft hkp hrs hfw hsv hout _ _ _ _ _ _ ).trans ?_
    | with_reducible refine (foldl_clr M _ _ _ ?_).trans ?_ | intro _ | dsimp only

theorem writePair_clr (M : Mask) (htm : M.tm = true) (hrg : M.rg = true) (hnt : M.nt = true) (hpl : M.pl = true) (hmp : M.mp = true) (hdr : M.dr = true) (hse : M.se = true) (hci : M.ci = true) (hbk : M.bk = true) (hpg : M.pg = true) (hty : M.ty = true) (hpr : M.pr = true) (hlk : M.lk = true) (hhs : M.hs = true) (hop : M.op = true) (hft : M.ft = true) (hkp : M.kp = true) (hrs : M.rs = true) (hfw : M.fw = true) (hsv : M.sv = true) (hout : M.out = true) (a0 : ℕ) (a1 : ℕ) (a2 : PageInfo) (a3 : RegRow) (a4 : Master) (a5 : Word) (a6 : Word) (a7 : State)  :
    (writePair a0 a1 a2 a3 a4 a5 a6 a7).clr M = a7.clr M := by
  unfold writePair
  repeat' first
    | with_reducible rfl | split | with_reducible refine (badWrite_clr M hrg _ _ _ ).trans ?_
    | with_reducible refine (writeEffect_clr M htm hrg hnt hpl hmp hdr hse hci hbk hpg hty hpr hlk hhs hop hft hkp hrs hfw hsv hout _ _ _ _ _ _ _ ).trans ?_
    | with_reducible refine (foldl_clr M _ _ _ ?_).trans ?_ | intro _ | dsimp only

theorem writeRow_clr (M : Mask) (htm : M.tm = true) (hrg : M.rg = true) (hnt : M.nt = true) (hpl : M.pl = true) (hmp : M.mp = true) (hdr : M.dr = true) (hse : M.se = true) (hci : M.ci = true) (hbk : M.bk = true) (hpg : M.pg = true) (hty : M.ty = true) (hpr : M.pr = true) (hlk : M.lk = true) (hhs : M.hs = true) (hop : M.op = true) (hft : M.ft = true) (hkp : M.kp = true) (hrs : M.rs = true) (hfw : M.fw = true) (hsv : M.sv = true) (hout : M.out = true) (a0 : ℕ) (a1 : ℕ) (a2 : PageInfo) (a3 : RegRow) (a4 : Master) (a5 : Word) (a6 : State)  :
    (writeRow a0 a1 a2 a3 a4 a5 a6).clr M = a6.clr M := by
  unfold writeRow
  repeat' first
    | with_reducible rfl | split
    | with_reducible refine (writePair_clr M htm hrg hnt hpl hmp hdr hse hci hbk hpg hty hpr hlk hhs hop hft hkp hrs hfw hsv hout _ _ _ _ _ _ _ _ ).trans ?_
    | with_reducible refine (writeEffect_clr M htm hrg hnt hpl hmp hdr hse hci hbk hpg hty hpr hlk hhs hop hft hkp hrs hfw hsv hout _ _ _ _ _ _ _ ).trans ?_
    | simp only [upd_nt M hnt, upd_ci M hci, upd_rs M hrs, upd_ft M hft, upd_pr M hpr, upd_pg M hpg, upd_out M hout, upd_ft_rs M hft hrs, upd_sv M hsv, upd_se_ci_bk M hse hci hbk, upd_tm_ft_fw M htm hft hfw, upd_se M hse, upd_rg M hrg, upd_kp M hkp, upd_ty M hty, upd_fw M hfw, upd_lk M hlk, upd_hs M hhs, upd_pl M hpl, upd_tm M htm, upd_ty_pr M hty hpr, upd_tm_rg_nt_pl_mp_dr_se_ci_bk_pg_ty_pr_lk_hs_op_ft_rs_fw_sv M htm hrg hnt hpl hmp hdr hse hci hbk hpg hty hpr hlk hhs hop hft hrs hfw hsv, upd_dr M hdr, upd_se_pg_ty M hse hpg hty, upd_ft_fw M hft hfw, upd_op M hop, upd_mp M hmp, upd_se_pg M hse hpg, upd_kp_fw M hkp hfw, upd_bk M hbk, upd_tm_lk_fw M htm hlk hfw, upd_tm_rs M htm hrs, upd_rg_nt M hrg hnt, upd_kp_sv M hkp hsv, upd_nt_ci_bk_pg M hnt hci hbk hpg, upd_nt_mp M hnt hmp]
    | with_reducible refine (foldl_clr M _ _ _ ?_).trans ?_ | intro _ | dsimp only

theorem regWrite_clr (M : Mask) (htm : M.tm = true) (hrg : M.rg = true) (hnt : M.nt = true) (hpl : M.pl = true) (hmp : M.mp = true) (hdr : M.dr = true) (hse : M.se = true) (hci : M.ci = true) (hbk : M.bk = true) (hpg : M.pg = true) (hty : M.ty = true) (hpr : M.pr = true) (hlk : M.lk = true) (hhs : M.hs = true) (hop : M.op = true) (hft : M.ft = true) (hkp : M.kp = true) (hrs : M.rs = true) (hfw : M.fw = true) (hsv : M.sv = true) (hout : M.out = true) (a0 : RegAcc) (a1 : State)  :
    (regWrite a0 a1).2.clr M = a1.clr M := by
  unfold regWrite
  repeat' first
    | with_reducible rfl | split
    | with_reducible refine (writeRow_clr M htm hrg hnt hpl hmp hdr hse hci hbk hpg hty hpr hlk hhs hop hft hkp hrs hfw hsv hout _ _ _ _ _ _ _ ).trans ?_
    | with_reducible refine (foldl_clr M _ _ _ ?_).trans ?_ | intro _ | dsimp only

theorem doWrite_clr (M : Mask) (htm : M.tm = true) (hrg : M.rg = true) (hnt : M.nt = true) (hpl : M.pl = true) (hmp : M.mp = true) (hdr : M.dr = true) (hse : M.se = true) (hci : M.ci = true) (hbk : M.bk = true) (hpg : M.pg = true) (hty : M.ty = true) (hpr : M.pr = true) (hlk : M.lk = true) (hhs : M.hs = true) (hop : M.op = true) (hft : M.ft = true) (hkp : M.kp = true) (hrs : M.rs = true) (hfw : M.fw = true) (hsv : M.sv = true) (hout : M.out = true) (a0 : RegAcc) (a1 : State)  :
    (doWrite a0 a1).clr M = a1.clr M := by
  unfold doWrite
  repeat' first
    | with_reducible rfl | split
    | with_reducible refine (regWrite_clr M htm hrg hnt hpl hmp hdr hse hci hbk hpg hty hpr hlk hhs hop hft hkp hrs hfw hsv hout _ _ ).trans ?_
    | with_reducible refine (emit_clr M hout _ _ ).trans ?_ | with_reducible refine (foldl_clr M _ _ _ ?_).trans ?_ | intro _
    | dsimp only

theorem heldRun_clr (M : Mask) (hrg : M.rg = true) (hnt : M.nt = true) (hmp : M.mp = true) (hdr : M.dr = true) (hse : M.se = true) (hci : M.ci = true) (hpg : M.pg = true) (hlk : M.lk = true) (hrs : M.rs = true) (hout : M.out = true) (a0 : Instr) (a1 : State)  :
    (heldRun a0 a1).clr M = a1.clr M := by
  unfold heldRun
  repeat' first
    | with_reducible rfl | split | with_reducible refine (ctxCmd_clr M hrg hrs _ _ _ _ ).trans ?_
    | with_reducible refine (resetPart_clr M hrg hnt hmp hdr hse hci hpg hlk hrs hout _ _ _ _ _ ).trans ?_
    | with_reducible refine (foldl_clr M _ _ _ ?_).trans ?_ | intro _ | dsimp only

theorem writeOf_clr (M : Mask) (htm : M.tm = true) (hrg : M.rg = true) (hnt : M.nt = true) (hpl : M.pl = true) (hmp : M.mp = true) (hdr : M.dr = true) (hse : M.se = true) (hci : M.ci = true) (hbk : M.bk = true) (hpg : M.pg = true) (hty : M.ty = true) (hpr : M.pr = true) (hlk : M.lk = true) (hhs : M.hs = true) (hop : M.op = true) (hft : M.ft = true) (hkp : M.kp = true) (hrs : M.rs = true) (hfw : M.fw = true) (hsv : M.sv = true) (hout : M.out = true) (a0 : Master) (a1 : ℕ) (a2 : ℕ) (a3 : ℕ) (a4 : Word) (a5 : State)  :
    (writeOf a0 a1 a2 a3 a4 a5).clr M = a5.clr M := by
  unfold writeOf
  repeat' first
    | with_reducible rfl | split
    | with_reducible refine (doWrite_clr M htm hrg hnt hpl hmp hdr hse hci hbk hpg hty hpr hlk hhs hop hft hkp hrs hfw hsv hout _ _ ).trans ?_
    | with_reducible refine (foldl_clr M _ _ _ ?_).trans ?_ | intro _ | dsimp only

theorem cplError_clr (M : Mask) (hrg : M.rg = true) (hout : M.out = true) (a0 : ℕ) (a1 : ℕ) (a2 : ℕ) (a3 : State)  :
    (cplError a0 a1 a2 a3).clr M = a3.clr M := by
  unfold cplError
  repeat' first
    | with_reducible rfl | split | with_reducible refine (hostCount_clr M hrg _ _ _ ).trans ?_
    | with_reducible refine (emit_clr M hout _ _ ).trans ?_ | with_reducible refine (foldl_clr M _ _ _ ?_).trans ?_ | intro _
    | dsimp only

theorem badTlp_clr (M : Mask) (hrg : M.rg = true) (hout : M.out = true) (a0 : ℕ) (a1 : ℕ) (a2 : Bool) (a3 : State)  :
    (badTlp a0 a1 a2 a3).clr M = a3.clr M := by
  unfold badTlp
  repeat' first
    | with_reducible rfl | split | with_reducible refine (hostCount_clr M hrg _ _ _ ).trans ?_
    | with_reducible refine (cplError_clr M hrg hout _ _ _ _ ).trans ?_ | with_reducible refine (foldl_clr M _ _ _ ?_).trans ?_
    | intro _ | dsimp only

theorem engineStatus_clr (M : Mask) (hnt : M.nt = true) (hse : M.se = true) (a0 : ℕ) (a1 : Packet) (a2 : State)  :
    (engineStatus a0 a1 a2).clr M = a2.clr M := by
  unfold engineStatus
  repeat' first
    | with_reducible rfl | split | with_reducible refine (poisonFail_clr M hse _ _ _ ).trans ?_
    | with_reducible refine (consume_clr M hnt _ _ _ _ ).trans ?_ | with_reducible refine (seamFail_clr M hse _ _ _ _ ).trans ?_
    | with_reducible refine (foldl_clr M _ _ _ ?_).trans ?_ | intro _ | dsimp only

theorem postedError_clr (M : Mask) (hrg : M.rg = true) (hhs : M.hs = true) (a0 : ℕ) (a1 : ℕ) (a2 : ℕ) (a3 : ℕ) (a4 : State)  :
    (postedError a0 a1 a2 a3 a4).clr M = a4.clr M := by
  unfold postedError
  repeat' first
    | with_reducible rfl | split | with_reducible refine (modHost_clr M hhs _ _ _ ).trans ?_
    | with_reducible refine (hostCount_clr M hrg _ _ _ ).trans ?_ | with_reducible refine (foldl_clr M _ _ _ ?_).trans ?_ | intro _
    | dsimp only

theorem hostReg_clr (M : Mask) (htm : M.tm = true) (hrg : M.rg = true) (hnt : M.nt = true) (hpl : M.pl = true) (hmp : M.mp = true) (hdr : M.dr = true) (hse : M.se = true) (hci : M.ci = true) (hbk : M.bk = true) (hpg : M.pg = true) (hty : M.ty = true) (hpr : M.pr = true) (hlk : M.lk = true) (hhs : M.hs = true) (hop : M.op = true) (hft : M.ft = true) (hkp : M.kp = true) (hrs : M.rs = true) (hfw : M.fw = true) (hsv : M.sv = true) (hout : M.out = true) (hfresh : M.fresh = true) (a0 : ℕ) (a1 : Bool) (a2 : Tlp) (a3 : State)  :
    (hostReg a0 a1 a2 a3).clr M = a3.clr M := by
  unfold hostReg
  repeat' first
    | with_reducible rfl | split
    | with_reducible refine (regWrite_clr M htm hrg hnt hpl hmp hdr hse hci hbk hpg hty hpr hlk hhs hop hft hkp hrs hfw hsv hout _ _ ).trans ?_
    | with_reducible refine (emit_clr M hout _ _ ).trans ?_ | with_reducible refine (regRead_clr M hrg hfresh _ _ ).trans ?_
    | with_reducible refine (cplError_clr M hrg hout _ _ _ _ ).trans ?_
    | with_reducible refine (postedError_clr M hrg hhs _ _ _ _ _ ).trans ?_ | with_reducible refine (foldl_clr M _ _ _ ?_).trans ?_
    | intro _ | dsimp only

theorem hostIssue_clr (M : Mask) (hrg : M.rg = true) (hnt : M.nt = true) (hhs : M.hs = true) (hout : M.out = true) (a0 : ℕ) (a1 : Bool) (a2 : ℕ) (a3 : ℕ) (a4 : ℕ) (a5 : List Byte) (a6 : State)  :
    (hostIssue a0 a1 a2 a3 a4 a5 a6).clr M = a6.clr M := by
  unfold hostIssue
  repeat' first
    | with_reducible rfl | split | with_reducible refine (modHost_clr M hhs _ _ _ ).trans ?_
    | with_reducible refine (cplError_clr M hrg hout _ _ _ _ ).trans ?_ | with_reducible refine (sendFrom_clr M hnt _ _ _ _ _ ).trans ?_
    | with_reducible refine (postedError_clr M hrg hhs _ _ _ _ _ ).trans ?_ | with_reducible refine (foldl_clr M _ _ _ ?_).trans ?_
    | intro _ | dsimp only

theorem hostBulk_clr (M : Mask) (hrg : M.rg = true) (hnt : M.nt = true) (hhs : M.hs = true) (hout : M.out = true) (a0 : ℕ) (a1 : Bool) (a2 : Tlp) (a3 : State)  :
    (hostBulk a0 a1 a2 a3).clr M = a3.clr M := by
  unfold hostBulk
  repeat' first
    | with_reducible rfl | split | with_reducible refine (emit_clr M hout _ _ ).trans ?_
    | with_reducible refine (hostIssue_clr M hrg hnt hhs hout _ _ _ _ _ _ _ ).trans ?_
    | with_reducible refine (forEach_clr M _ _ _ ?_).trans ?_ | with_reducible refine (foldl_clr M _ _ _ ?_).trans ?_ | intro _
    | dsimp only

theorem msixWrite_clr (M : Mask) (hrg : M.rg = true) (hhs : M.hs = true) (hout : M.out = true) (a0 : ℕ) (a1 : ℕ) (a2 : Word) (a3 : State)  :
    (msixWrite a0 a1 a2 a3).clr M = a3.clr M := by
  unfold msixWrite
  repeat' first
    | with_reducible rfl | split | with_reducible refine (modHost_clr M hhs _ _ _ ).trans ?_
    | with_reducible refine (msixUnmask_clr M hrg hhs hout _ _ _ ).trans ?_ | with_reducible refine (foldl_clr M _ _ _ ?_).trans ?_
    | intro _ | dsimp only

theorem hostMsix_clr (M : Mask) (hrg : M.rg = true) (hhs : M.hs = true) (hout : M.out = true) (a0 : ℕ) (a1 : Bool) (a2 : Tlp) (a3 : State)  :
    (hostMsix a0 a1 a2 a3).clr M = a3.clr M := by
  unfold hostMsix
  repeat' first
    | with_reducible rfl | split | with_reducible refine (msixWrite_clr M hrg hhs hout _ _ _ _ ).trans ?_
    | with_reducible refine (emit_clr M hout _ _ ).trans ?_ | with_reducible refine (forEach_clr M _ _ _ ?_).trans ?_
    | with_reducible refine (foldl_clr M _ _ _ ?_).trans ?_ | intro _ | dsimp only

theorem hostServe_clr (M : Mask) (htm : M.tm = true) (hrg : M.rg = true) (hnt : M.nt = true) (hpl : M.pl = true) (hmp : M.mp = true) (hdr : M.dr = true) (hse : M.se = true) (hci : M.ci = true) (hbk : M.bk = true) (hpg : M.pg = true) (hty : M.ty = true) (hpr : M.pr = true) (hlk : M.lk = true) (hhs : M.hs = true) (hop : M.op = true) (hft : M.ft = true) (hkp : M.kp = true) (hrs : M.rs = true) (hfw : M.fw = true) (hsv : M.sv = true) (hout : M.out = true) (hfresh : M.fresh = true) (a0 : ℕ) (a1 : Bool) (a2 : Tlp) (a3 : State)  :
    (hostServe a0 a1 a2 a3).clr M = a3.clr M := by
  unfold hostServe
  repeat' first
    | with_reducible rfl | split
    | with_reducible refine (hostReg_clr M htm hrg hnt hpl hmp hdr hse hci hbk hpg hty hpr hlk hhs hop hft hkp hrs hfw hsv hout hfresh _ _ _ _ ).trans ?_
    | with_reducible refine (hostBulk_clr M hrg hnt hhs hout _ _ _ _ ).trans ?_
    | with_reducible refine (hostMsix_clr M hrg hhs hout _ _ _ _ ).trans ?_ | with_reducible refine (foldl_clr M _ _ _ ?_).trans ?_
    | intro _ | dsimp only

theorem hostDrain_clr (M : Mask) (htm : M.tm = true) (hrg : M.rg = true) (hnt : M.nt = true) (hpl : M.pl = true) (hmp : M.mp = true) (hdr : M.dr = true) (hse : M.se = true) (hci : M.ci = true) (hbk : M.bk = true) (hpg : M.pg = true) (hty : M.ty = true) (hpr : M.pr = true) (hlk : M.lk = true) (hhs : M.hs = true) (hop : M.op = true) (hft : M.ft = true) (hkp : M.kp = true) (hrs : M.rs = true) (hfw : M.fw = true) (hsv : M.sv = true) (hout : M.out = true) (hfresh : M.fresh = true) (a0 : ℕ) (a1 : ℕ) (a2 : State)  :
    (hostDrain a0 a1 a2).clr M = a2.clr M := by
  induction a1 generalizing a2 with
  | zero => rfl
  | succ _ ih =>
    unfold hostDrain
    repeat' first
      | with_reducible rfl | split | with_reducible refine (ih _).trans ?_
      | with_reducible refine (hostServe_clr M htm hrg hnt hpl hmp hdr hse hci hbk hpg hty hpr hlk hhs hop hft hkp hrs hfw hsv hout hfresh _ _ _ _ ).trans ?_
      | with_reducible refine (modHost_clr M hhs _ _ _ ).trans ?_ | with_reducible refine (foldl_clr M _ _ _ ?_).trans ?_ | intro _
      | dsimp only

theorem hostRun_clr (M : Mask) (htm : M.tm = true) (hrg : M.rg = true) (hnt : M.nt = true) (hpl : M.pl = true) (hmp : M.mp = true) (hdr : M.dr = true) (hse : M.se = true) (hci : M.ci = true) (hbk : M.bk = true) (hpg : M.pg = true) (hty : M.ty = true) (hpr : M.pr = true) (hlk : M.lk = true) (hhs : M.hs = true) (hop : M.op = true) (hft : M.ft = true) (hkp : M.kp = true) (hrs : M.rs = true) (hfw : M.fw = true) (hsv : M.sv = true) (hout : M.out = true) (hfresh : M.fresh = true) (a0 : ℕ) (a1 : State)  :
    (hostRun a0 a1).clr M = a1.clr M := by
  unfold hostRun
  repeat' first
    | with_reducible rfl | split
    | with_reducible refine (hostDrain_clr M htm hrg hnt hpl hmp hdr hse hci hbk hpg hty hpr hlk hhs hop hft hkp hrs hfw hsv hout hfresh _ _ _ ).trans ?_
    | with_reducible refine (foldl_clr M _ _ _ ?_).trans ?_ | intro _ | dsimp only

theorem hostAnswer_clr (M : Mask) (htm : M.tm = true) (hrg : M.rg = true) (hnt : M.nt = true) (hpl : M.pl = true) (hmp : M.mp = true) (hdr : M.dr = true) (hse : M.se = true) (hci : M.ci = true) (hbk : M.bk = true) (hpg : M.pg = true) (hty : M.ty = true) (hpr : M.pr = true) (hlk : M.lk = true) (hhs : M.hs = true) (hop : M.op = true) (hft : M.ft = true) (hkp : M.kp = true) (hrs : M.rs = true) (hfw : M.fw = true) (hsv : M.sv = true) (hout : M.out = true) (hfresh : M.fresh = true) (a0 : ℕ) (a1 : Packet) (a2 : ℕ) (a3 : List Byte) (a4 : State)  :
    (hostAnswer a0 a1 a2 a3 a4).clr M = a4.clr M := by
  unfold hostAnswer
  repeat' first
    | with_reducible rfl | split | with_reducible refine (modHost_clr M hhs _ _ _ ).trans ?_
    | with_reducible refine (hostCount_clr M hrg _ _ _ ).trans ?_ | with_reducible refine (emit_clr M hout _ _ ).trans ?_
    | with_reducible refine (cplError_clr M hrg hout _ _ _ _ ).trans ?_
    | with_reducible refine (postedError_clr M hrg hhs _ _ _ _ _ ).trans ?_
    | with_reducible refine (hostRun_clr M htm hrg hnt hpl hmp hdr hse hci hbk hpg hty hpr hlk hhs hop hft hkp hrs hfw hsv hout hfresh _ _ ).trans ?_
    | with_reducible refine (hostIssue_clr M hrg hnt hhs hout _ _ _ _ _ _ _ ).trans ?_
    | with_reducible refine (foldl_clr M _ _ _ ?_).trans ?_ | intro _ | dsimp only

theorem hostReset_clr (M : Mask) (hhs : M.hs = true) (a0 : ℕ) (a1 : State)  :
    (hostReset a0 a1).clr M = a1.clr M := by
  unfold hostReset
  repeat' first
    | with_reducible rfl | split | with_reducible refine (modHost_clr M hhs _ _ _ ).trans ?_
    | with_reducible refine (hostDiscard_clr M hhs _ _ ).trans ?_ | with_reducible refine (foldl_clr M _ _ _ ?_).trans ?_ | intro _
    | dsimp only

theorem hostResponse_clr (M : Mask) (htm : M.tm = true) (hrg : M.rg = true) (hnt : M.nt = true) (hpl : M.pl = true) (hmp : M.mp = true) (hdr : M.dr = true) (hse : M.se = true) (hci : M.ci = true) (hbk : M.bk = true) (hpg : M.pg = true) (hty : M.ty = true) (hpr : M.pr = true) (hlk : M.lk = true) (hhs : M.hs = true) (hop : M.op = true) (hft : M.ft = true) (hkp : M.kp = true) (hrs : M.rs = true) (hfw : M.fw = true) (hsv : M.sv = true) (hout : M.out = true) (hfresh : M.fresh = true) (a0 : ℕ) (a1 : ℕ) (a2 : Packet) (a3 : ℕ) (a4 : State)  :
    (hostResponse a0 a1 a2 a3 a4).clr M = a4.clr M := by
  unfold hostResponse
  repeat' first
    | with_reducible rfl | split | with_reducible refine (consume_clr M hnt _ _ _ _ ).trans ?_
    | with_reducible refine (hostAnswer_clr M htm hrg hnt hpl hmp hdr hse hci hbk hpg hty hpr hlk hhs hop hft hkp hrs hfw hsv hout hfresh _ _ _ _ _ ).trans ?_
    | with_reducible refine (foldl_clr M _ _ _ ?_).trans ?_ | intro _ | dsimp only

theorem inbound_clr (M : Mask) (htm : M.tm = true) (hrg : M.rg = true) (hnt : M.nt = true) (hpl : M.pl = true) (hmp : M.mp = true) (hdr : M.dr = true) (hse : M.se = true) (hci : M.ci = true) (hbk : M.bk = true) (hpg : M.pg = true) (hty : M.ty = true) (hpr : M.pr = true) (hlk : M.lk = true) (hhs : M.hs = true) (hop : M.op = true) (hft : M.ft = true) (hkp : M.kp = true) (hrs : M.rs = true) (hfw : M.fw = true) (hsv : M.sv = true) (hout : M.out = true) (hfresh : M.fresh = true) (a0 : ℕ) (a1 : Bool) (a2 : Tlp) (a3 : State)  :
    (inbound a0 a1 a2 a3).clr M = a3.clr M := by
  unfold inbound
  repeat' first
    | with_reducible rfl | split | with_reducible refine (modHost_clr M hhs _ _ _ ).trans ?_
    | with_reducible refine (hostCount_clr M hrg _ _ _ ).trans ?_ | with_reducible refine (badTlp_clr M hrg hout _ _ _ _ ).trans ?_
    | with_reducible refine (hostRun_clr M htm hrg hnt hpl hmp hdr hse hci hbk hpg hty hpr hlk hhs hop hft hkp hrs hfw hsv hout hfresh _ _ ).trans ?_
    | with_reducible refine (foldl_clr M _ _ _ ?_).trans ?_ | intro _ | dsimp only

theorem otherTlp_clr (M : Mask) (hrg : M.rg = true) (hout : M.out = true) (a0 : ℕ) (a1 : ℕ) (a2 : Bool) (a3 : State)  :
    (otherTlp a0 a1 a2 a3).clr M = a3.clr M := by
  unfold otherTlp
  repeat' first
    | with_reducible rfl | split | with_reducible refine (hostCount_clr M hrg _ _ _ ).trans ?_
    | with_reducible refine (badTlp_clr M hrg hout _ _ _ _ ).trans ?_ | with_reducible refine (foldl_clr M _ _ _ ?_).trans ?_ | intro _
    | dsimp only

theorem readDataAt_clr (M : Mask) (htm : M.tm = true) (hrg : M.rg = true) (hnt : M.nt = true) (hpl : M.pl = true) (hmp : M.mp = true) (hdr : M.dr = true) (hse : M.se = true) (hci : M.ci = true) (hbk : M.bk = true) (hpg : M.pg = true) (hty : M.ty = true) (hpr : M.pr = true) (hlk : M.lk = true) (hhs : M.hs = true) (hop : M.op = true) (hft : M.ft = true) (hkp : M.kp = true) (hrs : M.rs = true) (hfw : M.fw = true) (hsv : M.sv = true) (hout : M.out = true) (hfresh : M.fresh = true) (a0 : ℕ) (a1 : ℕ) (a2 : Packet) (a3 : State)  :
    (readDataAt a0 a1 a2 a3).clr M = a3.clr M := by
  unfold readDataAt
  repeat' first
    | with_reducible rfl | split | with_reducible refine (marked_clr M _ _ _ _ ?_ ?_).trans ?_
    | with_reducible refine (cipStatus_clr M hrg hnt hmp hdr hse hci hty hft hout _ _ _ _ ).trans ?_
    | with_reducible refine (readAnswered_clr M hrg hnt hmp hdr hse hci hty hft hout _ _ _ _ _ _ ).trans ?_
    | with_reducible refine (cipAnswer_clr M hrg hnt hmp hdr hci hbk hout _ _ _ _ _ ?_).trans ?_
    | with_reducible refine (hostResponse_clr M htm hrg hnt hpl hmp hdr hse hci hbk hpg hty hpr hlk hhs hop hft hkp hrs hfw hsv hout hfresh _ _ _ _ _ ).trans ?_
    | with_reducible refine (foldl_clr M _ _ _ ?_).trans ?_ | intro _ | dsimp only

theorem tileStatus_clr (M : Mask) (hnt : M.nt = true) (a0 : ℕ) (a1 : ℕ) (a2 : Packet) (a3 : State)  :
    (tileStatus a0 a1 a2 a3).clr M = a3.clr M := by
  unfold tileStatus
  repeat' first
    | with_reducible rfl | split | with_reducible refine (tileAbort_clr M hnt _ _ _ _ _ ).trans ?_
    | with_reducible refine (consume_clr M hnt _ _ _ _ ).trans ?_ | with_reducible refine (foldl_clr M _ _ _ ?_).trans ?_ | intro _
    | dsimp only

theorem statusAt_clr (M : Mask) (htm : M.tm = true) (hrg : M.rg = true) (hnt : M.nt = true) (hpl : M.pl = true) (hmp : M.mp = true) (hdr : M.dr = true) (hse : M.se = true) (hci : M.ci = true) (hbk : M.bk = true) (hpg : M.pg = true) (hty : M.ty = true) (hpr : M.pr = true) (hlk : M.lk = true) (hhs : M.hs = true) (hop : M.op = true) (hft : M.ft = true) (hkp : M.kp = true) (hrs : M.rs = true) (hfw : M.fw = true) (hsv : M.sv = true) (hout : M.out = true) (hfresh : M.fresh = true) (a0 : ℕ) (a1 : ℕ) (a2 : Packet) (a3 : State)  :
    (statusAt a0 a1 a2 a3).clr M = a3.clr M := by
  unfold statusAt
  repeat' first
    | with_reducible rfl | split | with_reducible refine (cipStatus_clr M hrg hnt hmp hdr hse hci hty hft hout _ _ _ _ ).trans ?_
    | with_reducible refine (cipAnswer_clr M hrg hnt hmp hdr hci hbk hout _ _ _ _ _ ?_).trans ?_
    | with_reducible refine (engineStatus_clr M hnt hse _ _ _ ).trans ?_
    | with_reducible refine (tileStatus_clr M hnt _ _ _ _ ).trans ?_
    | with_reducible refine (hostResponse_clr M htm hrg hnt hpl hmp hdr hse hci hbk hpg hty hpr hlk hhs hop hft hkp hrs hfw hsv hout hfresh _ _ _ _ _ ).trans ?_
    | with_reducible refine (foldl_clr M _ _ _ ?_).trans ?_ | intro _ | dsimp only

theorem writeAckAt_clr (M : Mask) (htm : M.tm = true) (hrg : M.rg = true) (hnt : M.nt = true) (hpl : M.pl = true) (hmp : M.mp = true) (hdr : M.dr = true) (hse : M.se = true) (hci : M.ci = true) (hbk : M.bk = true) (hpg : M.pg = true) (hty : M.ty = true) (hpr : M.pr = true) (hlk : M.lk = true) (hhs : M.hs = true) (hop : M.op = true) (hft : M.ft = true) (hkp : M.kp = true) (hrs : M.rs = true) (hfw : M.fw = true) (hsv : M.sv = true) (hout : M.out = true) (hfresh : M.fresh = true) (a0 : ℕ) (a1 : ℕ) (a2 : Packet) (a3 : State)  :
    (writeAckAt a0 a1 a2 a3).clr M = a3.clr M := by
  unfold writeAckAt
  repeat' first
    | with_reducible rfl | split | with_reducible refine (writeAnswered_clr M hrg hnt hmp hci hout _ _ _ _ ).trans ?_
    | with_reducible refine (cipAnswer_clr M hrg hnt hmp hdr hci hbk hout _ _ _ _ _ ?_).trans ?_
    | with_reducible refine (hostResponse_clr M htm hrg hnt hpl hmp hdr hse hci hbk hpg hty hpr hlk hhs hop hft hkp hrs hfw hsv hout hfresh _ _ _ _ _ ).trans ?_
    | with_reducible refine (foldl_clr M _ _ _ ?_).trans ?_ | intro _ | dsimp only

theorem badMsg_clr (M : Mask)  (a0 : State)  :
    (badMsg a0).2.2.clr M = a0.clr M := by
  unfold badMsg
  repeat' first
    | with_reducible rfl | split | with_reducible refine (foldl_clr M _ _ _ ?_).trans ?_ | intro _ | dsimp only

theorem bypassShift_clr (M : Mask) (hjt : M.jt = true) (hout : M.out = true) (a0 : ℕ) (a1 : Bool) (a2 : State)  :
    (bypassShift a0 a1 a2).clr M = a2.clr M := by
  unfold bypassShift
  repeat' first
    | with_reducible rfl | split | with_reducible refine (emit_clr M hout _ _ ).trans ?_ | simp only [upd_out M hout, upd_jt M hjt]
    | with_reducible refine (foldl_clr M _ _ _ ?_).trans ?_ | intro _ | dsimp only

theorem pingBack_clr (M : Mask)  (a0 : List Byte) (a1 : State)  :
    (pingBack a0 a1).2.2.clr M = a1.clr M := by
  unfold pingBack
  repeat' first
    | with_reducible rfl | split | with_reducible refine (badMsg_clr M _ ).trans ?_
    | with_reducible refine (foldl_clr M _ _ _ ?_).trans ?_ | intro _ | dsimp only

theorem svcCount_clr (M : Mask) (hrg : M.rg = true) (a0 : ℕ) (a1 : State)  :
    (svcCount a0 a1).clr M = a1.clr M := by
  unfold svcCount
  repeat' first
    | with_reducible rfl | split | with_reducible refine (addCount_clr M hrg _ _ _ _ _ ).trans ?_
    | with_reducible refine (foldl_clr M _ _ _ ?_).trans ?_ | intro _ | dsimp only

theorem svcAnswer_clr (M : Mask) (hrg : M.rg = true) (hsv : M.sv = true) (hout : M.out = true) (a0 : SvcSrc) (a1 : ℕ) (a2 : ℕ) (a3 : List Byte) (a4 : State)  :
    (svcAnswer a0 a1 a2 a3 a4).clr M = a4.clr M := by
  unfold svcAnswer
  repeat' first
    | with_reducible rfl | split | with_reducible refine (svcCount_clr M hrg _ _ ).trans ?_
    | with_reducible refine (emit_clr M hout _ _ ).trans ?_ | with_reducible refine (doIf_clr M _ _ _ ?_).trans ?_
    | simp only [upd_out M hout, upd_sv M hsv, upd_rg M hrg] | with_reducible refine (foldl_clr M _ _ _ ?_).trans ?_ | intro _
    | dsimp only

theorem request__clr (M : Mask) (hrg : M.rg = true) (hsv : M.sv = true) (hout : M.out = true) (a0 : SvcSrc) (a1 : ℕ) (a2 : State → ℕ × List Byte × State) (a3 : State) (hf2 : ∀ x0, (a2 x0).2.2.clr M = x0.clr M) :
    (request_ a0 a1 a2 a3).clr M = a3.clr M := by
  unfold request_
  repeat' first
    | with_reducible rfl | split | with_reducible refine (svcCount_clr M hrg _ _ ).trans ?_
    | with_reducible refine (svcAnswer_clr M hrg hsv hout _ _ _ _ _ ).trans ?_ | with_reducible refine (emit_clr M hout _ _ ).trans ?_
    | with_reducible refine (foldl_clr M _ _ _ ?_).trans ?_ | with_reducible refine (hf2 _).trans ?_
    | with_reducible refine (hf2 _ _).trans ?_ | with_reducible refine (hf2 _ _ _).trans ?_ | intro _ | dsimp only

theorem rejected_clr (M : Mask) (hrg : M.rg = true) (hsv : M.sv = true) (hout : M.out = true) (a0 : SvcSrc) (a1 : List Byte) (a2 : State)  :
    (rejected a0 a1 a2).clr M = a2.clr M := by
  unfold rejected
  repeat' first
    | with_reducible rfl | split | with_reducible refine (request__clr M hrg hsv hout _ _ _ _ ?_).trans ?_
    | with_reducible refine (badMsg_clr M _ ).trans ?_ | with_reducible refine (foldl_clr M _ _ _ ?_).trans ?_ | intro _ | dsimp only

theorem sampleOut_clr (M : Mask) (hout : M.out = true) (hfresh : M.fresh = true) (a0 : ℕ) (a1 : State)  :
    (sampleOut a0 a1).clr M = a1.clr M := by
  unfold sampleOut
  repeat' first
    | with_reducible rfl | split | with_reducible refine (freshen_clr M hfresh _ ).trans ?_
    | with_reducible refine (emit_clr M hout _ _ ).trans ?_ | with_reducible refine (foldl_clr M _ _ _ ?_).trans ?_ | intro _
    | dsimp only

theorem svcCommit_clr (M : Mask) (hkp : M.kp = true) (hsv : M.sv = true) (a0 : State)  :
    (svcCommit a0).clr M = a0.clr M := by
  unfold svcCommit
  repeat' first
    | with_reducible rfl | split | simp only [upd_sv M hsv, upd_kp M hkp, upd_kp_sv M hkp hsv]
    | with_reducible refine (foldl_clr M _ _ _ ?_).trans ?_ | intro _ | dsimp only

theorem sidebandByte_clr (M : Mask) (hkp : M.kp = true) (hsv : M.sv = true) (a0 : ℕ) (a1 : Byte) (a2 : State)  :
    (sidebandByte a0 a1 a2).clr M = a2.clr M := by
  unfold sidebandByte
  repeat' first
    | with_reducible rfl | split | with_reducible refine (svcCommit_clr M hkp hsv _ ).trans ?_
    | simp only [upd_sv M hsv, upd_kp M hkp, upd_kp_sv M hkp hsv] | with_reducible refine (foldl_clr M _ _ _ ?_).trans ?_ | intro _
    | dsimp only

theorem sideband_clr (M : Mask) (hkp : M.kp = true) (hsv : M.sv = true) (a0 : ℕ) (a1 : List Byte) (a2 : State)  :
    (sideband a0 a1 a2).clr M = a2.clr M := by
  unfold sideband
  repeat' first
    | with_reducible rfl | split | with_reducible refine (sidebandByte_clr M hkp hsv _ _ _ ).trans ?_
    | with_reducible refine (forEach_clr M _ _ _ ?_).trans ?_ | simp only [upd_sv M hsv, upd_kp M hkp, upd_kp_sv M hkp hsv]
    | with_reducible refine (foldl_clr M _ _ _ ?_).trans ?_ | intro _ | dsimp only

theorem stageRead_clr (M : Mask)  (a0 : ℕ) (a1 : ℕ) (a2 : State)  :
    (stageRead a0 a1 a2).2.2.clr M = a2.clr M := by
  unfold stageRead
  repeat' first
    | with_reducible rfl | split | with_reducible refine (badMsg_clr M _ ).trans ?_
    | with_reducible refine (foldl_clr M _ _ _ ?_).trans ?_ | intro _ | dsimp only

theorem stageWrite_clr (M : Mask) (hram : M.ram = true) (a0 : ℕ) (a1 : List Byte) (a2 : State)  :
    (stageWrite a0 a1 a2).2.2.clr M = a2.clr M := by
  unfold stageWrite
  repeat' first
    | with_reducible rfl | split | with_reducible refine (badMsg_clr M _ ).trans ?_ | simp only [upd_ram M hram]
    | with_reducible refine (foldl_clr M _ _ _ ?_).trans ?_ | intro _ | dsimp only

theorem svcRead_clr (M : Mask) (hrg : M.rg = true) (hfresh : M.fresh = true) (a0 : DWord) (a1 : State)  :
    (svcRead a0 a1).2.2.clr M = a1.clr M := by
  unfold svcRead
  repeat' first
    | with_reducible rfl | split | with_reducible refine (regRead_clr M hrg hfresh _ _ ).trans ?_
    | with_reducible refine (foldl_clr M _ _ _ ?_).trans ?_ | intro _ | dsimp only

theorem svcWrite_clr (M : Mask) (htm : M.tm = true) (hrg : M.rg = true) (hnt : M.nt = true) (hpl : M.pl = true) (hmp : M.mp = true) (hdr : M.dr = true) (hse : M.se = true) (hci : M.ci = true) (hbk : M.bk = true) (hpg : M.pg = true) (hty : M.ty = true) (hpr : M.pr = true) (hlk : M.lk = true) (hhs : M.hs = true) (hop : M.op = true) (hft : M.ft = true) (hkp : M.kp = true) (hrs : M.rs = true) (hfw : M.fw = true) (hsv : M.sv = true) (hout : M.out = true) (a0 : DWord) (a1 : Word) (a2 : State)  :
    (svcWrite a0 a1 a2).2.2.clr M = a2.clr M := by
  unfold svcWrite
  repeat' first
    | with_reducible rfl | split
    | with_reducible refine (regWrite_clr M htm hrg hnt hpl hmp hdr hse hci hbk hpg hty hpr hlk hhs hop hft hkp hrs hfw hsv hout _ _ ).trans ?_
    | with_reducible refine (foldl_clr M _ _ _ ?_).trans ?_ | intro _ | dsimp only

end Sys2Proof.Machine
end

