-- ==== Sys2Proof/Laws/FrameBoundary.lean ====
section
/-! SUPPORT. What each operation of Boundary leaves unchanged: a state after it agrees with the state before outside
the parts it may change. -/
set_option linter.unusedTactic false
set_option linter.unreachableTactic false
set_option linter.unusedVariables false
set_option linter.unusedSimpArgs false

namespace Sys2Proof.Machine

theorem step7_clr (M : Mask) (hrg : M.rg = true) (hnt : M.nt = true) (hmp : M.mp = true) (hdr : M.dr = true) (hse : M.se = true) (hci : M.ci = true) (hbk : M.bk = true) (hpg : M.pg = true) (hty : M.ty = true) (hpr : M.pr = true) (hlk : M.lk = true) (hft : M.ft = true) (hrs : M.rs = true) (hout : M.out = true) (a0 : ℕ → Bool) (a1 : ℕ) (a2 : State)  :
    (step7 a0 a1 a2).clr M = a2.clr M := by
  unfold step7
  repeat' first
    | with_reducible rfl | split | with_reducible refine (cipStep7_clr M hrg hnt hmp hci hout _ _ _ ).trans ?_
    | with_reducible refine (ctxStep7_clr M hnt hty hpr hrs _ ).trans ?_
    | with_reducible refine (mirrorStep7_clr M hrg hnt hdr hse hpg hty hpr hlk hft hrs hout _ ).trans ?_
    | with_reducible refine (settleAll_clr M hrg hnt hmp hdr hci hbk hout _ ).trans ?_
    | with_reducible refine (seamsStep7_clr M hrg hnt hdr hse hpr hlk hft hout _ _ ).trans ?_
    | with_reducible refine (darnersStep7_clr M hrg hnt hdr hci hout _ _ _ ).trans ?_
    | with_reducible refine (promoteOpens_clr M hrg hnt hse hpr hlk hout _ ).trans ?_
    | with_reducible refine (resumePaused_clr M hrg hnt hmp hdr hci hbk hout _ _ _ ).trans ?_
    | with_reducible refine (forEach_clr M _ _ _ ?_).trans ?_ | with_reducible refine (foldl_clr M _ _ _ ?_).trans ?_ | intro _
    | dsimp only

theorem keepAlives_clr (M : Mask) (hlk : M.lk = true) (hout : M.out = true) (a0 : State)  :
    (keepAlives a0).clr M = a0.clr M := by
  unfold keepAlives
  repeat' first
    | with_reducible rfl | split | with_reducible refine (sendSym_clr M hlk hout _ _ _ _ _ ).trans ?_
    | with_reducible refine (forEach_clr M _ _ _ ?_).trans ?_ | with_reducible refine (foldl_clr M _ _ _ ?_).trans ?_ | intro _
    | dsimp only

theorem pauseBegins_clr (M : Mask) (hrg : M.rg = true) (hlk : M.lk = true) (hfw : M.fw = true) (hsv : M.sv = true) (hout : M.out = true) (a0 : State)  :
    (pauseBegins a0).clr M = a0.clr M := by
  unfold pauseBegins
  repeat' first
    | with_reducible rfl | split | with_reducible refine (keepAlives_clr M hlk hout _ ).trans ?_
    | with_reducible refine (fwState_clr M hrg hfw hsv hout _ _ ).trans ?_
    | simp only [upd_out M hout, upd_sv M hsv, upd_rg M hrg, upd_fw M hfw, upd_lk M hlk]
    | with_reducible refine (foldl_clr M _ _ _ ?_).trans ?_ | intro _ | dsimp only

theorem carriedDone_clr (M : Mask) (hfw : M.fw = true) (a0 : State)  :
    (carriedDone a0).clr M = a0.clr M := by
  unfold carriedDone
  repeat' first
    | with_reducible rfl | split | simp only [upd_fw M hfw] | with_reducible refine (foldl_clr M _ _ _ ?_).trans ?_ | intro _
    | dsimp only

theorem afterSteps_clr (M : Mask) (hrg : M.rg = true) (hnt : M.nt = true) (hmp : M.mp = true) (hdr : M.dr = true) (hse : M.se = true) (hci : M.ci = true) (hbk : M.bk = true) (hpg : M.pg = true) (hty : M.ty = true) (hpr : M.pr = true) (hlk : M.lk = true) (hft : M.ft = true) (hrs : M.rs = true) (hfw : M.fw = true) (hsv : M.sv = true) (hout : M.out = true) (a0 : Bool) (a1 : ℕ → Bool) (a2 : ℕ) (a3 : State)  :
    (afterSteps a0 a1 a2 a3).clr M = a3.clr M := by
  unfold afterSteps
  repeat' first
    | with_reducible rfl | split
    | with_reducible refine (step7_clr M hrg hnt hmp hdr hse hci hbk hpg hty hpr hlk hft hrs hout _ _ _ ).trans ?_
    | with_reducible refine (lp1Step_clr M hrg hnt hci hrs _ ).trans ?_
    | with_reducible refine (pauseBegins_clr M hrg hlk hfw hsv hout _ ).trans ?_
    | with_reducible refine (carriedDone_clr M hfw _ ).trans ?_ | with_reducible refine (foldl_clr M _ _ _ ?_).trans ?_ | intro _
    | dsimp only

theorem reach_clr (M : Mask) (htm : M.tm = true) (hrg : M.rg = true) (hnt : M.nt = true) (hlk : M.lk = true) (hout : M.out = true) (a0 : ℕ) (a1 : State)  :
    (reach a0 a1).clr M = a1.clr M := by
  unfold reach
  repeat' first
    | with_reducible rfl | split | with_reducible refine (advanceTo_clr M htm hrg hnt hlk hout _ _ ).trans ?_
    | with_reducible refine (setClock_clr M htm hnt _ _ ).trans ?_ | with_reducible refine (foldl_clr M _ _ _ ?_).trans ?_ | intro _
    | dsimp only

theorem markers_clr (M : Mask) (hlk : M.lk = true) (hout : M.out = true) (a0 : State)  :
    (markers a0).clr M = a0.clr M := by
  unfold markers
  repeat' first
    | with_reducible rfl | split | with_reducible refine (sendSym_clr M hlk hout _ _ _ _ _ ).trans ?_
    | with_reducible refine (forEach_clr M _ _ _ ?_).trans ?_ | with_reducible refine (foldl_clr M _ _ _ ?_).trans ?_ | intro _
    | dsimp only

theorem putOffLoads_clr (M : Mask) (hse : M.se = true) (a0 : State)  :
    (putOffLoads a0).clr M = a0.clr M := by
  unfold putOffLoads
  repeat' first
    | with_reducible rfl | split | with_reducible refine (pauseLoads_clr M hse _ _ ).trans ?_
    | with_reducible refine (foldl_clr M _ _ _ ?_).trans ?_ | intro _ | dsimp only

theorem shiftLock_clr (M : Mask) (htm : M.tm = true) (a0 : State)  :
    (shiftLock a0).clr M = a0.clr M := by
  unfold shiftLock
  repeat' first
    | with_reducible rfl | split | simp only [upd_tm M htm] | with_reducible refine (foldl_clr M _ _ _ ?_).trans ?_ | intro _
    | dsimp only

theorem govern_clr (M : Mask) (hrg : M.rg = true) (hnt : M.nt = true) (hfresh : M.fresh = true) (a0 : State)  :
    (govern a0).clr M = a0.clr M := by
  unfold govern
  repeat' first
    | with_reducible rfl | split | with_reducible refine (freshen_clr M hfresh _ ).trans ?_
    | with_reducible refine (setReg_clr M hrg _ _ _ _ _ _ ).trans ?_ | with_reducible refine (addCount_clr M hrg _ _ _ _ _ ).trans ?_
    | with_reducible refine (doIf_clr M _ _ _ ?_).trans ?_
    | simp only [upd_nt M hnt, upd_rg M hrg, upd_fresh M hfresh, upd_rg_nt M hrg hnt]
    | with_reducible refine (foldl_clr M _ _ _ ?_).trans ?_ | intro _ | dsimp only

theorem step6_clr (M : Mask) (htm : M.tm = true) (hrg : M.rg = true) (hnt : M.nt = true) (hfresh : M.fresh = true) (a0 : State)  :
    (step6 a0).clr M = a0.clr M := by
  unfold step6
  repeat' first
    | with_reducible rfl | split | with_reducible refine (takeGates_clr M hnt _ ).trans ?_
    | with_reducible refine (shiftLock_clr M htm _ ).trans ?_ | with_reducible refine (govern_clr M hrg hnt hfresh _ ).trans ?_
    | with_reducible refine (foldl_clr M _ _ _ ?_).trans ?_ | intro _ | dsimp only

theorem step1_clr (M : Mask) (htm : M.tm = true) (hlk : M.lk = true) (hfw : M.fw = true) (a0 : State)  :
    (step1 a0).clr M = a0.clr M := by
  unfold step1
  repeat' first
    | with_reducible rfl | split | simp only [upd_fw M hfw, upd_lk M hlk, upd_tm M htm, upd_tm_lk_fw M htm hlk hfw]
    | with_reducible refine (foldl_clr M _ _ _ ?_).trans ?_ | intro _ | dsimp only

theorem checkStraps_clr (M : Mask) (hrg : M.rg = true) (hpl : M.pl = true) (hft : M.ft = true) (a0 : State)  :
    (checkStraps a0).clr M = a0.clr M := by
  unfold checkStraps
  repeat' first
    | with_reducible rfl | split | with_reducible refine (raise0_clr M hrg hft _ _ _ _ ).trans ?_
    | simp only [upd_ft M hft, upd_rg M hrg, upd_pl M hpl] | with_reducible refine (foldl_clr M _ _ _ ?_).trans ?_ | intro _
    | dsimp only

theorem pausedBoundary_clr (M : Mask) (htm : M.tm = true) (hrg : M.rg = true) (hnt : M.nt = true) (hpl : M.pl = true) (hse : M.se = true) (hpr : M.pr = true) (hlk : M.lk = true) (hft : M.ft = true) (hfw : M.fw = true) (hfresh : M.fresh = true) (a0 : State)  :
    (pausedBoundary a0).clr M = a0.clr M := by
  unfold pausedBoundary
  repeat' first
    | with_reducible rfl | split | with_reducible refine (putOffLoads_clr M hse _ ).trans ?_
    | with_reducible refine (closeDelta_clr M hpr _ _ _ ).trans ?_ | with_reducible refine (step6_clr M htm hrg hnt hfresh _ ).trans ?_
    | with_reducible refine (step1_clr M htm hlk hfw _ ).trans ?_ | with_reducible refine (checkStraps_clr M hrg hpl hft _ ).trans ?_
    | with_reducible refine (foldl_clr M _ _ _ ?_).trans ?_ | intro _ | dsimp only

theorem markAllLate_clr (M : Mask) (hrg : M.rg = true) (hdr : M.dr = true) (hft : M.ft = true) (a0 : State)  :
    (markAllLate a0).clr M = a0.clr M := by
  unfold markAllLate
  repeat' first
    | with_reducible rfl | split | with_reducible refine (markLate_clr M hrg hdr hft _ _ _ ).trans ?_
    | with_reducible refine (forEach_clr M _ _ _ ?_).trans ?_ | with_reducible refine (foldl_clr M _ _ _ ?_).trans ?_ | intro _
    | dsimp only

theorem releaseQueue_clr (M : Mask) (hrg : M.rg = true) (hci : M.ci = true) (hty : M.ty = true) (hout : M.out = true) (a0 : ℕ) (a1 : ℕ) (a2 : ℕ) (a3 : ℕ) (a4 : State)  :
    (releaseQueue a0 a1 a2 a3 a4).clr M = a4.clr M := by
  unfold releaseQueue
  repeat' first
    | with_reducible rfl | split | with_reducible refine (makeVisible_clr M hrg hci hout _ _ _ _ _ ).trans ?_
    | with_reducible refine (modQueue_clr M hci _ _ _ _ _ ).trans ?_ | with_reducible refine (enterTally_clr M hty _ _ _ ).trans ?_
    | with_reducible refine (forEach_clr M _ _ _ ?_).trans ?_ | with_reducible refine (doIf_clr M _ _ _ ?_).trans ?_
    | with_reducible refine (foldl_clr M _ _ _ ?_).trans ?_ | intro _ | dsimp only

theorem releaseAll_clr (M : Mask) (hrg : M.rg = true) (hci : M.ci = true) (hty : M.ty = true) (hout : M.out = true) (a0 : ℕ → Bool) (a1 : ℕ) (a2 : State)  :
    (releaseAll a0 a1 a2).clr M = a2.clr M := by
  unfold releaseAll
  repeat' first
    | with_reducible rfl | split | with_reducible refine (releaseQueue_clr M hrg hci hty hout _ _ _ _ _ ).trans ?_
    | with_reducible refine (forEach_clr M _ _ _ ?_).trans ?_ | with_reducible refine (foldl_clr M _ _ _ ?_).trans ?_ | intro _
    | dsimp only

theorem steps2to6_clr (M : Mask) (htm : M.tm = true) (hrg : M.rg = true) (hnt : M.nt = true) (hpl : M.pl = true) (hmp : M.mp = true) (hdr : M.dr = true) (hse : M.se = true) (hci : M.ci = true) (hbk : M.bk = true) (hpg : M.pg = true) (hty : M.ty = true) (hpr : M.pr = true) (hlk : M.lk = true) (hhs : M.hs = true) (hft : M.ft = true) (hrs : M.rs = true) (hsv : M.sv = true) (hout : M.out = true) (hfresh : M.fresh = true) (a0 : ℕ) (a1 : Bool) (a2 : State)  :
    (steps2to6 a0 a1 a2).clr M = a2.clr M := by
  unfold steps2to6
  repeat' first
    | with_reducible rfl | split
    | with_reducible refine (ctxStep3_clr M hrg hnt hdr hse hci hbk hpg hty hpr hlk hft hrs hout _ ).trans ?_
    | with_reducible refine (commitsStep2_clr M hrg hnt hmp hdr hse hci hbk hft hout _ _ _ ).trans ?_
    | with_reducible refine (mirrorStep3_clr M hrg hnt hdr hse hpg hty hpr hlk hft hrs hout _ ).trans ?_
    | with_reducible refine (tallyStep_clr M hrg hnt hty hhs hft hout _ ).trans ?_
    | with_reducible refine (releaseAll_clr M hrg hci hty hout _ _ _ ).trans ?_
    | with_reducible refine (seamsBoundary_clr M hrg hnt hdr hse hty hpr hlk hft hout _ _ ).trans ?_
    | with_reducible refine (mirrorStep5_clr M hrg hnt hdr hse hpg hty hpr hlk hft hrs hout _ ).trans ?_
    | with_reducible refine (step6_clr M htm hrg hnt hfresh _ ).trans ?_
    | with_reducible refine (planStep_clr M hrg hpl hty hpr hlk hhs hft hrs hsv hout _ _ ).trans ?_
    | with_reducible refine (epochAll_clr M hty _ _ _ ).trans ?_ | with_reducible refine (promotePegs_clr M hrg hnt hpg hpr _ ).trans ?_
    | with_reducible refine (doIf_clr M _ _ _ ?_).trans ?_ | with_reducible refine (foldl_clr M _ _ _ ?_).trans ?_ | intro _
    | dsimp only

theorem runHeld_clr (M : Mask) (hrg : M.rg = true) (hnt : M.nt = true) (hmp : M.mp = true) (hdr : M.dr = true) (hse : M.se = true) (hci : M.ci = true) (hpg : M.pg = true) (hlk : M.lk = true) (hrs : M.rs = true) (hout : M.out = true) (a0 : State)  :
    (runHeld a0).clr M = a0.clr M := by
  unfold runHeld
  repeat' first
    | with_reducible rfl | split | with_reducible refine (heldRun_clr M hrg hnt hmp hdr hse hci hpg hlk hrs hout _ _ ).trans ?_
    | with_reducible refine (forEach_clr M _ _ _ ?_).trans ?_
    | simp only [upd_nt M hnt, upd_ci M hci, upd_rs M hrs, upd_pg M hpg, upd_out M hout, upd_se M hse, upd_rg M hrg, upd_lk M hlk, upd_dr M hdr, upd_mp M hmp, upd_se_pg M hse hpg, upd_rg_nt M hrg hnt, upd_nt_mp M hnt hmp]
    | with_reducible refine (foldl_clr M _ _ _ ?_).trans ?_ | intro _ | dsimp only

theorem fullBoundary_clr (M : Mask) (htm : M.tm = true) (hrg : M.rg = true) (hnt : M.nt = true) (hpl : M.pl = true) (hmp : M.mp = true) (hdr : M.dr = true) (hse : M.se = true) (hci : M.ci = true) (hbk : M.bk = true) (hpg : M.pg = true) (hty : M.ty = true) (hpr : M.pr = true) (hlk : M.lk = true) (hhs : M.hs = true) (hft : M.ft = true) (hrs : M.rs = true) (hfw : M.fw = true) (hsv : M.sv = true) (hout : M.out = true) (hfresh : M.fresh = true) (a0 : State)  :
    (fullBoundary a0).clr M = a0.clr M := by
  unfold fullBoundary
  repeat' first
    | with_reducible rfl | split | with_reducible refine (mirrorTake_clr M hrg hty hpr hft _ _ ).trans ?_
    | with_reducible refine (mirrorBase_clr M hpr _ _ ).trans ?_ | with_reducible refine (planLate_clr M hrg hlk hft _ ).trans ?_
    | with_reducible refine (putOffLoads_clr M hse _ ).trans ?_ | with_reducible refine (promote_clr M hrg hnt hty hpr _ ).trans ?_
    | with_reducible refine (afterSteps_clr M hrg hnt hmp hdr hse hci hbk hpg hty hpr hlk hft hrs hfw hsv hout _ _ _ _ ).trans ?_
    | with_reducible refine (closeDelta_clr M hpr _ _ _ ).trans ?_ | with_reducible refine (markAllLate_clr M hrg hdr hft _ ).trans ?_
    | with_reducible refine (steps2to6_clr M htm hrg hnt hpl hmp hdr hse hci hbk hpg hty hpr hlk hhs hft hrs hsv hout hfresh _ _ _ ).trans ?_
    | with_reducible refine (mirrorAck_clr M hrg hpr hlk hft hout _ _ ).trans ?_
    | with_reducible refine (routeAround_clr M hrg hnt hlk hft hout _ ).trans ?_
    | with_reducible refine (countAcks_clr M hpr _ _ ).trans ?_
    | with_reducible refine (runHeld_clr M hrg hnt hmp hdr hse hci hpg hlk hrs hout _ ).trans ?_
    | with_reducible refine (step1_clr M htm hlk hfw _ ).trans ?_ | with_reducible refine (checkStraps_clr M hrg hpl hft _ ).trans ?_
    | with_reducible refine (doIf_clr M _ _ _ ?_).trans ?_ | with_reducible refine (foldl_clr M _ _ _ ?_).trans ?_ | intro _
    | dsimp only

theorem resumeLinks_clr (M : Mask) (hrg : M.rg = true) (hlk : M.lk = true) (hft : M.ft = true) (hout : M.out = true) (a0 : State)  :
    (resumeLinks a0).clr M = a0.clr M := by
  unfold resumeLinks
  repeat' first
    | with_reducible rfl | split | with_reducible refine (resumeLink_clr M hrg hlk hft hout _ _ _ ).trans ?_
    | with_reducible refine (forEach_clr M _ _ _ ?_).trans ?_ | with_reducible refine (foldl_clr M _ _ _ ?_).trans ?_ | intro _
    | dsimp only

theorem pauseStops_clr (M : Mask) (hrg : M.rg = true) (hlk : M.lk = true) (hhs : M.hs = true) (hft : M.ft = true) (hfw : M.fw = true) (hsv : M.sv = true) (hout : M.out = true) (a0 : State)  :
    (pauseStops a0).clr M = a0.clr M := by
  unfold pauseStops
  repeat' first
    | with_reducible rfl | split | with_reducible refine (fwIdle_clr M hrg hhs hfw hsv hout _ _ ).trans ?_
    | with_reducible refine (resumeLinks_clr M hrg hlk hft hout _ ).trans ?_
    | with_reducible refine (sendIdent_clr M hlk hout _ _ ).trans ?_ | with_reducible refine (forEach_clr M _ _ _ ?_).trans ?_
    | simp only [upd_ft M hft, upd_out M hout, upd_sv M hsv, upd_rg M hrg, upd_fw M hfw, upd_lk M hlk, upd_hs M hhs, upd_ft_fw M hft hfw]
    | with_reducible refine (foldl_clr M _ _ _ ?_).trans ?_ | intro _ | dsimp only

theorem foldStart_clr (M : Mask) (htm : M.tm = true) (hrg : M.rg = true) (hnt : M.nt = true) (hty : M.ty = true) (hpr : M.pr = true) (hlk : M.lk = true) (hout : M.out = true) (a0 : State)  :
    (foldStart a0).clr M = a0.clr M := by
  unfold foldStart
  repeat' first
    | with_reducible rfl | split | with_reducible refine (sendDeltas_clr M hrg hpr hlk hout _ _ ).trans ?_
    | with_reducible refine (showTallies_clr M hty _ ).trans ?_
    | with_reducible refine (advanceTo_clr M htm hrg hnt hlk hout _ _ ).trans ?_
    | simp only [upd_nt M hnt, upd_pr M hpr, upd_out M hout, upd_rg M hrg, upd_ty M hty, upd_lk M hlk, upd_tm M htm, upd_ty_pr M hty hpr, upd_rg_nt M hrg hnt]
    | with_reducible refine (foldl_clr M _ _ _ ?_).trans ?_ | intro _ | dsimp only

theorem runBoundary_clr (M : Mask) (htm : M.tm = true) (hrg : M.rg = true) (hnt : M.nt = true) (hpl : M.pl = true) (hmp : M.mp = true) (hdr : M.dr = true) (hse : M.se = true) (hci : M.ci = true) (hbk : M.bk = true) (hpg : M.pg = true) (hty : M.ty = true) (hpr : M.pr = true) (hlk : M.lk = true) (hhs : M.hs = true) (hop : M.op = true) (hft : M.ft = true) (hrs : M.rs = true) (hfw : M.fw = true) (hsv : M.sv = true) (hout : M.out = true) (hfresh : M.fresh = true) (a0 : State)  :
    (runBoundary a0).clr M = a0.clr M := by
  unfold runBoundary
  repeat' first
    | with_reducible rfl | split | with_reducible refine (lpStep_clr M htm hnt hlk hop hrs hout _ ).trans ?_
    | with_reducible refine (reach_clr M htm hrg hnt hlk hout _ _ ).trans ?_
    | with_reducible refine (markers_clr M hlk hout _ ).trans ?_
    | with_reducible refine (pausedBoundary_clr M htm hrg hnt hpl hse hpr hlk hft hfw hfresh _ ).trans ?_
    | with_reducible refine (advanceTo_clr M htm hrg hnt hlk hout _ _ ).trans ?_
    | with_reducible refine (fullBoundary_clr M htm hrg hnt hpl hmp hdr hse hci hbk hpg hty hpr hlk hhs hft hrs hfw hsv hout hfresh _ ).trans ?_
    | with_reducible refine (pauseStops_clr M hrg hlk hhs hft hfw hsv hout _ ).trans ?_
    | with_reducible refine (foldStart_clr M htm hrg hnt hty hpr hlk hout _ ).trans ?_
    | with_reducible refine (foldl_clr M _ _ _ ?_).trans ?_ | intro _ | dsimp only

theorem takePins_clr (M : Mask) (htm : M.tm = true) (hrg : M.rg = true) (hhs : M.hs = true) (hout : M.out = true) (a0 : Pins) (a1 : State)  :
    (takePins a0 a1).clr M = a1.clr M := by
  unfold takePins
  repeat' first
    | with_reducible rfl | split | with_reducible refine (hostPins_clr M hrg hhs hout _ _ _ ).trans ?_
    | with_reducible refine (forEach_clr M _ _ _ ?_).trans ?_ | simp only [upd_out M hout, upd_rg M hrg, upd_hs M hhs, upd_tm M htm]
    | with_reducible refine (foldl_clr M _ _ _ ?_).trans ?_ | intro _ | dsimp only

theorem boundary_clr (M : Mask) (htm : M.tm = true) (hrg : M.rg = true) (hnt : M.nt = true) (hpl : M.pl = true) (hmp : M.mp = true) (hdr : M.dr = true) (hse : M.se = true) (hci : M.ci = true) (hbk : M.bk = true) (hpg : M.pg = true) (hty : M.ty = true) (hpr : M.pr = true) (hlk : M.lk = true) (hhs : M.hs = true) (hop : M.op = true) (hft : M.ft = true) (hrs : M.rs = true) (hfw : M.fw = true) (hsv : M.sv = true) (hout : M.out = true) (hfresh : M.fresh = true) (a0 : Pins) (a1 : State)  :
    (boundary a0 a1).clr M = a1.clr M := by
  unfold boundary
  repeat' first
    | with_reducible rfl | split | with_reducible refine (reach_clr M htm hrg hnt hlk hout _ _ ).trans ?_
    | with_reducible refine (markers_clr M hlk hout _ ).trans ?_
    | with_reducible refine (runBoundary_clr M htm hrg hnt hpl hmp hdr hse hci hbk hpg hty hpr hlk hhs hop hft hrs hfw hsv hout hfresh _ ).trans ?_
    | with_reducible refine (step1_clr M htm hlk hfw _ ).trans ?_
    | with_reducible refine (takePins_clr M htm hrg hhs hout _ _ ).trans ?_ | with_reducible refine (foldl_clr M _ _ _ ?_).trans ?_
    | intro _ | dsimp only

theorem pauseEnd_clr (M : Mask) (htm : M.tm = true) (hrg : M.rg = true) (hnt : M.nt = true) (hpl : M.pl = true) (hmp : M.mp = true) (hdr : M.dr = true) (hse : M.se = true) (hci : M.ci = true) (hbk : M.bk = true) (hpg : M.pg = true) (hty : M.ty = true) (hpr : M.pr = true) (hlk : M.lk = true) (hhs : M.hs = true) (hop : M.op = true) (hft : M.ft = true) (hrs : M.rs = true) (hfw : M.fw = true) (hsv : M.sv = true) (hout : M.out = true) (hfresh : M.fresh = true) (a0 : State)  :
    (pauseEnd a0).clr M = a0.clr M := by
  unfold pauseEnd
  repeat' first
    | with_reducible rfl | split | with_reducible refine (advanceTo_clr M htm hrg hnt hlk hout _ _ ).trans ?_
    | with_reducible refine (boundary_clr M htm hrg hnt hpl hmp hdr hse hci hbk hpg hty hpr hlk hhs hop hft hrs hfw hsv hout hfresh _ _ ).trans ?_
    | with_reducible refine (pauseStops_clr M hrg hlk hhs hft hfw hsv hout _ ).trans ?_
    | with_reducible refine (foldl_clr M _ _ _ ?_).trans ?_ | intro _ | dsimp only

end Sys2Proof.Machine
end

