-- ==== Sys2Proof/Laws/Store.lean ====
section
/-! SUPPORT. Keyed stores: a read after a write, other keys, and the canonical form, which every operation keeps. -/
namespace Sys2Proof.Machine

variable {V : Type}

/-! ### A read after a change -/

@[simp] theorem look_nil (d : V) (k : Nat) : look d [] k = d := rfl

theorem look_drop (d : V) (m : SMap V) (k k2 : Nat) : look d (drop m k) k2 = if k2 = k then d else look d m k2 := by
  induction m with
  | nil => simp [drop, look]
  | cons e m ih =>
    obtain ⟨a, v⟩ := e
    by_cases h : a = k
    · simp only [drop, h, if_true, ih, look]
      by_cases h2 : k2 = k
      · simp [h2]
      · simp [h2, Ne.symm h2]
    · simp only [drop, h, if_false, look, ih]
      by_cases h2 : a = k2
      · have : k2 ≠ k := fun h3 => h (h2.trans h3)
        simp [h2, this]
      · simp [h2]

theorem look_ins (d : V) (m : SMap V) (k k2 : Nat) (v : V) :
    look d (ins m k v) k2 = if k2 = k then v else look d m k2 := by
  induction m with
  | nil => by_cases h : k2 = k <;> simp [ins, look, h, eq_comm (a := k)]
  | cons e m ih =>
    obtain ⟨a, w⟩ := e
    by_cases h1 : k < a
    · by_cases h : k2 = k
      · simp [ins, h1, look, h]
      · simp [ins, h1, look, h, Ne.symm h]
    · by_cases h2 : k = a
      · subst h2
        by_cases h : k2 = k
        · simp [ins, look, h]
        · simp [ins, look, h, Ne.symm h]
      · simp only [ins, h1, h2, if_false, look, ih]
        by_cases h3 : a = k2
        · have : k2 ≠ k := fun h => h2 (h3.trans h).symm
          simp [h3, this]
        · simp [h3]

/-- A read after a write gives the value written; every other key reads as before. -/
@[simp] theorem look_put [DecidableEq V] (d : V) (m : SMap V) (k k2 : Nat) (v : V) :
    look d (put d m k v) k2 = if k2 = k then v else look d m k2 := by
  unfold put
  split
  · next h => simp [look_drop, h]
  · exact look_ins d m k k2 v

@[simp] theorem look_upd [DecidableEq V] (d : V) (m : SMap V) (k k2 : Nat) (f : V → V) :
    look d (upd d m k f) k2 = if k2 = k then f (look d m k) else look d m k2 := look_put d m k k2 _

theorem lookQ_ins (m : SMap V) (k k2 : Nat) (v : V) :
    look? (ins m k v) k2 = if k2 = k then some v else look? m k2 := by
  induction m with
  | nil => by_cases h : k2 = k <;> simp [ins, look?, h, eq_comm (a := k)]
  | cons e m ih =>
    obtain ⟨a, w⟩ := e
    by_cases h1 : k < a
    · by_cases h : k2 = k
      · simp [ins, h1, look?, h]
      · simp [ins, h1, look?, h, Ne.symm h]
    · by_cases h2 : k = a
      · subst h2
        by_cases h : k2 = k
        · simp [ins, look?, h]
        · simp [ins, look?, h, Ne.symm h]
      · simp only [ins, h1, h2, if_false, look?, ih]
        by_cases h3 : a = k2
        · have : k2 ≠ k := fun h => h2 (h3.trans h).symm
          simp [h3, this]
        · simp [h3]

theorem lookQ_drop (m : SMap V) (k k2 : Nat) : look? (drop m k) k2 = if k2 = k then none else look? m k2 := by
  induction m with
  | nil => simp [drop, look?]
  | cons e m ih =>
    obtain ⟨a, v⟩ := e
    by_cases h : a = k
    · simp only [drop, h, if_true, ih, look?]
      by_cases h2 : k2 = k
      · simp [h2]
      · simp [h2, Ne.symm h2]
    · simp only [drop, h, if_false, look?, ih]
      by_cases h2 : a = k2
      · have : k2 ≠ k := fun h3 => h (h2.trans h3)
        simp [h2, this]
      · simp [h2]

/-! ### The canonical form -/

theorem sorted_weaken [DecidableEq V] (d : V) (m : SMap V) (a b : Nat) (hab : a ≤ b) (h : sorted d b m = true) :
    sorted d a m = true := by
  cases m with
  | nil => rfl
  | cons e m =>
    obtain ⟨k, v⟩ := e
    simp only [sorted, Bool.and_eq_true, decide_eq_true_eq] at h ⊢
    exact ⟨⟨Nat.le_trans hab h.1.1, h.1.2⟩, h.2⟩

theorem sorted_drop [DecidableEq V] (d : V) (m : SMap V) (b k : Nat) (h : sorted d b m = true) :
    sorted d b (drop m k) = true := by
  induction m generalizing b with
  | nil => rfl
  | cons e m ih =>
    obtain ⟨a, v⟩ := e
    simp only [sorted, Bool.and_eq_true, decide_eq_true_eq] at h
    unfold drop
    split
    · exact ih b (sorted_weaken d m b (a + 1) (by omega) h.2)
    · simp only [sorted, Bool.and_eq_true, decide_eq_true_eq]
      exact ⟨h.1, ih _ h.2⟩

theorem sorted_ins [DecidableEq V] (d : V) (m : SMap V) (b k : Nat) (v : V) (hb : b ≤ k) (hv : v ≠ d)
    (h : sorted d b m = true) : sorted d b (ins m k v) = true := by
  induction m generalizing b with
  | nil => simp [ins, sorted, hb, hv]
  | cons e m ih =>
    obtain ⟨a, w⟩ := e
    have h' := h
    simp only [sorted, Bool.and_eq_true, decide_eq_true_eq] at h
    unfold ins
    split
    · next hk =>
      simp only [sorted, Bool.and_eq_true, decide_eq_true_eq]
      exact ⟨⟨hb, hv⟩, ⟨by omega, h.1.2⟩, h.2⟩
    · split
      · next hk =>
        subst hk
        simp only [sorted, Bool.and_eq_true, decide_eq_true_eq]
        exact ⟨⟨hb, hv⟩, h.2⟩
      · next h1 h2 =>
        simp only [sorted, Bool.and_eq_true, decide_eq_true_eq]
        exact ⟨h.1, ih (a + 1) (by omega) h.2⟩

theorem canon_drop [DecidableEq V] (d : V) (m : SMap V) (k : Nat) (h : canon d m = true) : canon d (drop m k) = true :=
  sorted_drop d m 0 k h

/-- Every write keeps the canonical form. -/
theorem canon_put [DecidableEq V] (d : V) (m : SMap V) (k : Nat) (v : V) (h : canon d m = true) :
    canon d (put d m k v) = true := by
  unfold put
  split
  · exact sorted_drop d m 0 k h
  · next hv => exact sorted_ins d m 0 k v (Nat.zero_le k) hv h

theorem canon_upd [DecidableEq V] (d : V) (m : SMap V) (k : Nat) (f : V → V) (h : canon d m = true) :
    canon d (upd d m k f) = true := canon_put d m k _ h

theorem sorted_keep [DecidableEq V] (d : V) (p : Nat → Bool) (m : SMap V) (b : Nat) (h : sorted d b m = true) :
    sorted d b (keep p m) = true := by
  induction m generalizing b with
  | nil => rfl
  | cons e m ih =>
    obtain ⟨a, v⟩ := e
    simp only [sorted, Bool.and_eq_true, decide_eq_true_eq] at h
    have hm := ih (a + 1) h.2
    unfold keep at hm ⊢
    rw [List.filter_cons]
    split
    · simp only [sorted, Bool.and_eq_true, decide_eq_true_eq]
      exact ⟨h.1, hm⟩
    · exact sorted_weaken d _ b (a + 1) (by omega) hm

theorem canon_keep [DecidableEq V] (d : V) (p : Nat → Bool) (m : SMap V) (h : canon d m = true) : canon d (keep p m) = true :=
  sorted_keep d p m 0 h

/-! ### Loops and conditions -/

/-- What every round of a loop keeps, the loop keeps. -/
theorem forEach_keeps {α : Type} (P : State → Prop) (xs : List α) (f : α → State → State) (s : State)
    (hf : ∀ x s, P s → P (f x s)) (h : P s) : P (forEach xs f s) := by
  unfold forEach
  induction xs generalizing s with
  | nil => exact h
  | cons x xs ih => exact ih _ (hf x s h)

theorem doIf_keeps (P : State → Prop) (c : Bool) (f : State → State) (s : State) (hf : P s → P (f s)) (h : P s) :
    P (doIf c f s) := by
  unfold doIf
  split
  · exact hf h
  · exact h

end Sys2Proof.Machine
end

