-- ==== Sys2Proof/Laws/Memory.lean ====
section
/-! SUPPORT. Staging SRAM, the one memory the block holds: every operation keeps its canonical form (R528); reads after writes. -/
namespace Sys2Proof.Machine

theorem reset_ram_wf : Memory.wf State.reset.ram = true := rfl

/-- A write of bytes keeps the canonical form. -/
theorem ramWrite_wf (bs : List Byte) (o : Nat) (m : List Host.Cell) (h : Memory.wf m = true) : Memory.wf (ramWrite o bs m) = true := by
  induction bs generalizing o m with
  | nil => exact h
  | cons b bs ih => exact ih (o + 1) _ (canon_put (0 : Byte) m o b h)

/-- A byte outside what is written reads as before. -/
theorem ramWrite_other (bs : List Byte) (o : Nat) (m : List Host.Cell) (k : Nat) (h : k < o ∨ o + bs.length ≤ k) :
    look (0 : Byte) (ramWrite o bs m) k = look 0 m k := by
  induction bs generalizing o m with
  | nil => rfl
  | cons b bs ih =>
    simp only [List.length_cons] at h
    rw [ramWrite, ih (o + 1) _ (by omega), look_put]
    split
    · omega
    · rfl

/-- A byte written reads as written. -/
theorem ramWrite_same (bs : List Byte) (o : Nat) (m : List Host.Cell) (i : Nat) (h : i < bs.length) :
    look (0 : Byte) (ramWrite o bs m) (o + i) = bs[i] := by
  induction bs generalizing o m i with
  | nil => simp at h
  | cons b bs ih =>
    cases i with
    | zero =>
      rw [ramWrite, ramWrite_other _ _ _ _ (by omega), look_put]
      simp
    | succ i =>
      simp only [List.length_cons] at h
      have hi := ih (o + 1) (put 0 m o b) i (by omega)
      rw [ramWrite, show o + (i + 1) = o + 1 + i by omega, hi]
      rfl

/-- Bytes written together are read together. -/
theorem ramBytes_ramWrite (s : State) (bs : List Byte) (m : List Host.Cell) (o a n : Nat) (hs : s.ram = ramWrite o bs m)
    (h : a + n ≤ bs.length) : ramBytes s (o + a) n = (bs.drop a).take n := by
  apply List.ext_getElem
  · simp [ramBytes]; omega
  · intro i h1 h2
    have hi : i < n := by simpa [ramBytes] using h1
    have e : look (0 : Byte) s.ram (o + (a + i)) = bs[a + i] := by rw [hs]; exact ramWrite_same bs o m (a + i) (by omega)
    simp [ramBytes, ← e, Nat.add_assoc]

/-- STAGE_WRITE keeps the canonical form, whatever it answers. -/
theorem stageWrite_wf (o : Nat) (data : List Byte) (s : State) (h : Memory.wf s.ram = true) :
    Memory.wf (stageWrite o data s).2.2.ram = true := by
  unfold stageWrite badMsg
  split
  · exact h
  · split
    · exact h
    · split
      · exact h
      · exact ramWrite_wf data o s.ram h

end Sys2Proof.Machine
end

