-- ==== Sys2Proof/Laws/Parts.lean ====
section
/-! SUPPORT. From a cleared mask to the parts of State that may change. -/
namespace Sys2Proof.Machine

/-- The mask that clears the listed parts. -/
def Mask.of (ps : List Part) : Mask where
  tm := decide (Part.tm ∈ ps)
  rg := decide (Part.rg ∈ ps)
  nt := decide (Part.nt ∈ ps)
  pl := decide (Part.pl ∈ ps)
  mp := decide (Part.mp ∈ ps)
  dr := decide (Part.dr ∈ ps)
  se := decide (Part.se ∈ ps)
  ci := decide (Part.ci ∈ ps)
  bk := decide (Part.bk ∈ ps)
  pg := decide (Part.pg ∈ ps)
  ty := decide (Part.ty ∈ ps)
  pr := decide (Part.pr ∈ ps)
  lk := decide (Part.lk ∈ ps)
  hs := decide (Part.hs ∈ ps)
  op := decide (Part.op ∈ ps)
  ft := decide (Part.ft ∈ ps)
  kp := decide (Part.kp ∈ ps)
  rs := decide (Part.rs ∈ ps)
  fw := decide (Part.fw ∈ ps)
  sv := decide (Part.sv ∈ ps)
  ram := decide (Part.ram ∈ ps)
  jt := decide (Part.jt ∈ ps)
  out := decide (Part.out ∈ ps)
  fresh := decide (Part.fresh ∈ ps)
  pending := decide (Part.pending ∈ ps)

/-- Two states equal with the listed parts cleared differ in those parts only. -/
theorem changesOnly_of_clr (ps : List Part) (s t : State) (h : t.clr (Mask.of ps) = s.clr (Mask.of ps)) : ChangesOnly ps s t := by
  intro p hp
  cases p
  case tm => exact State.clr_tm _ (by simp [Mask.of, hp]) _ _ h
  case rg => exact State.clr_rg _ (by simp [Mask.of, hp]) _ _ h
  case nt => exact State.clr_nt _ (by simp [Mask.of, hp]) _ _ h
  case pl => exact State.clr_pl _ (by simp [Mask.of, hp]) _ _ h
  case mp => exact State.clr_mp _ (by simp [Mask.of, hp]) _ _ h
  case dr => exact State.clr_dr _ (by simp [Mask.of, hp]) _ _ h
  case se => exact State.clr_se _ (by simp [Mask.of, hp]) _ _ h
  case ci => exact State.clr_ci _ (by simp [Mask.of, hp]) _ _ h
  case bk => exact State.clr_bk _ (by simp [Mask.of, hp]) _ _ h
  case pg => exact State.clr_pg _ (by simp [Mask.of, hp]) _ _ h
  case ty => exact State.clr_ty _ (by simp [Mask.of, hp]) _ _ h
  case pr => exact State.clr_pr _ (by simp [Mask.of, hp]) _ _ h
  case lk => exact State.clr_lk _ (by simp [Mask.of, hp]) _ _ h
  case hs => exact State.clr_hs _ (by simp [Mask.of, hp]) _ _ h
  case op => exact State.clr_op _ (by simp [Mask.of, hp]) _ _ h
  case ft => exact State.clr_ft _ (by simp [Mask.of, hp]) _ _ h
  case kp => exact State.clr_kp _ (by simp [Mask.of, hp]) _ _ h
  case rs => exact State.clr_rs _ (by simp [Mask.of, hp]) _ _ h
  case fw => exact State.clr_fw _ (by simp [Mask.of, hp]) _ _ h
  case sv => exact State.clr_sv _ (by simp [Mask.of, hp]) _ _ h
  case ram => exact State.clr_ram _ (by simp [Mask.of, hp]) _ _ h
  case jt => exact State.clr_jt _ (by simp [Mask.of, hp]) _ _ h
  case out => exact State.clr_out _ (by simp [Mask.of, hp]) _ _ h
  case fresh => exact State.clr_fresh _ (by simp [Mask.of, hp]) _ _ h
  case pending => exact State.clr_pending _ (by simp [Mask.of, hp]) _ _ h

/-- What changes only in few parts changes only in more. -/
theorem ChangesOnly.mono {ps qs : List Part} {s t : State} (h : ChangesOnly ps s t) (hq : ∀ p ∈ ps, p ∈ qs) : ChangesOnly qs s t :=
  fun p hp => h p fun hm => hp (hq p hm)

end Sys2Proof.Machine
end

