-- ==== Sys2Proof/WellFormed.lean ====
section
/-! DEFINITION. Well-formed commands: every operand is in the range its field or its part of the package has (R15, R16,
R38, R115, R116, R120). A command with an operand outside its range names nothing the fabric has. -/
namespace Sys2Proof

def dieOk (d : Nat) : Bool := d < 64
def tileOk (t : Nat) : Bool := t < 144
def tileAt (d t : Nat) : Bool := dieOk d && tileOk t
def pageAt (d p : Nat) : Bool := dieOk d && decide (p < 4096)
def ctxOk (c : Nat) : Bool := c < 2048
def modAt (d b m : Nat) : Bool := dieOk d && decide (b < 4) && decide (m < 4)
def portOk (p : Nat) : Bool := p < 48
def engAt (d e r : Nat) : Bool := dieOk d && decide (e < 4) && decide (r < 256)

def Master.wf : Master → Bool
  | .host h => h < 4
  | _ => true

def RegAcc.wf (a : RegAcc) : Bool :=
  a.master.wf && decide (a.pkg < 4096) && pageAt a.die a.page && decide (a.off < 4096) && decide (a.size ≤ 8)

/-- The flit size of a packet's plane (R19, R113). -/
def Packet.flit (p : Packet) : Nat := if p.cls = .ctrl ∨ p.cls = .mgmt then 16 else 64

/-- The payload fills LEN flits, at most 8 (R114); the bytes it does not list after its end are 0. EXT is on wide planes
only (R116). -/
def Packet.sized (p : Packet) : Bool :=
  decide (p.len ≤ 8) && decide (p.payload.length ≤ p.len * p.flit) && decide (p.len * p.flit < p.payload.length + p.flit) &&
    decide (p.ext.length ≤ p.flit - 16)

/-- The fields of the route word and the common header (R115 to R117): MGMT and LOG carry CTX 0, a multicast the tree form
of DEST, a response travels on VC2 or VC3; payload flits have a reason each. -/
def Packet.wf (p : Packet) : Bool :=
  decide (p.vc < 4) && p.sized && ctxOk p.ctx && decide (p.track < 8) && decide (p.srcPkg < 4096) &&
    dieOk p.srcDie && decide (p.srcTile < 256) && decide (p.srcPort < 16) && decide (p.why.length = p.len) && decide (p.nbytes ≤ 56) &&
    (!(p.cls = .mgmt || p.cls = .log) || decide (p.ctx = 0)) &&
    (!p.mc || decide (p.dest.toNat / 4096 % 2 ^ 40 = 0)) && decide (p.vc / 2 = p.opcode.toNat / 128)

/-- The fields of a flit slot (R431). -/
def FlitSlot.wf (x : FlitSlot) : Bool := decide (x.plane < 4) && decide (x.side < 2 ^ 96) && decide (x.data.length ≤ 64)

/-- A cycle of a bridge module: two slots, 32 control bits, a CRC-24. -/
def BridgeCycle.wf (x : BridgeCycle) : Bool :=
  x.slot0.wf && x.slot1.wf && decide (x.control < 2 ^ 32) && decide (x.crc < 2 ^ 24)

def BufKey.wf (b : BufKey) : Bool :=
  tileAt b.die b.tile && decide (b.port < 12) && decide (b.plane < 4) && decide (b.vc < 4) && decide (b.cls < 4)

def ArbRes.wf : ArbRes → Bool
  | .inject d t p pl => tileAt d t && decide (p < 12) && decide (pl < 4)
  | .output d t p pl vc c => tileAt d t && decide (p < 12) && decide (pl < 4) && decide (vc < 4) && decide (c < 4)

def DrnRef.wf (u : DrnRef) : Bool := tileAt u.die u.tile && decide (u.darner < 8)

/-- The widths of an instruction's fields (R279). -/
def PFields.wf (f : PFields) : Bool :=
  decide (f.pg < 8) && decide (f.d < 64) && decide (f.a < 64) && decide (f.b < 64) && decide (f.m < 16)

def CipHdr.wf (h : CipHdr) : Bool := tileAt h.die h.tile && decide (h.stream < 128) && ctxOk h.ctx

def SeamRef.wf (r : SeamRef) : Bool :=
  decide (r.pkg < 4096) && engAt r.die r.eng r.slot && decide (r.group < 4096) && ctxOk r.ctx

def Tlp.wf (t : Tlp) : Bool := t.bar < 6 && decide (t.tag < 1024)

/-- A command is well formed. -/
def Instr.wf : Instr → Bool
  | .pressBoundary p => p.hosts.all fun e => decide (e.1 < 4)
  | .foldStart => true
  | .portLockModeChange d t p => tileAt d t && decide (p < 12)
  | .gateWindowEdge d t p c _ => tileAt d t && decide (p < 12) && decide (c < 8)
  | .epochCommand d _ _ _ | .epochTargetBoundary d | .pressLost d => dieOk d
  | .marker d l _ _ q _ => dieOk d && decide (l < 22) && decide (q < 2 ^ 18)
  | .registerWrite a | .lowHalfRead a | .priorityRegisterWrite a | .tally0Read a => a.wf
  | .shadowCommitImmediate m d p | .shadowCommitNextBoundary m d p | .shadowCommitScheduled m d p
  | .shadowCommitCancel m d p => m.wf && pageAt d p
  | .immediateCommitTakesEffect d p => pageAt d p
  | .arbFreezeWrite m d p _ | .psDataLoWrite m d p _ | .psLoadCmd m d p _ | .seamAbortCmd m d p _
  | .checkpointCmd m d p _ | .dbrRetrain m d p _ | .lnkRetrain m d p _ | .optRescan m d p _ => m.wf && pageAt d p
  | .govCeilingWrite m _ | .planCheck m | .planAdopt m | .planCancel m | .errCtrlWrite m _ | .fabricReset m
  | .lp2Enter m | .lp3Enter m | .lpExit m | .rollbackWrite m _ | .areaDataRead m | .areaDataWrite m _ | .fwCheck m
  | .fwProgram m | .fwActivate m | .fwCancel m | .fwBind m => m.wf
  | .portOldPlanDrained p | .sundiTrainingStepDone p _ | .lnkTrainFail p | .fecWindowEnd p _ => portOk p
  | .stoLinkDown p | .storageFrameReceived p | .stoPcsLinkUp p | .logRec p _ | .datagramClose p => p < 4
  | .course p n _ us x => portOk p && decide (n < 65536) && decide (x < 2 ^ 112) && decide (us.length = 127) &&
    us.all fun u => decide (u.length = 16)
  | .packetArrival d t p q _ => tileAt d t && decide (p < 12) && q.wf
  | .arbitrationDecision r => r.wf
  | .credit d t p pl vc c _ => (ArbRes.output d t p pl vc c).wf
  | .adaptEscWaitExpiry b | .escapeStall b => b.wf
  | .transitEscapeWaitExpiry p q => portOk p && q.wf
  | .transitReq d t p | .transitGrant d t p | .read d t p | .write d t p | .readData d t p | .writeAck d t p
  | .status d t p | .seamAdmit d t p | .seamDone d t p | .msg d t p | .creditReq d t p | .creditGrant d t p
  | .creditReturn d t p | .ringReserve d t p | .ringGrant d t p | .ringCommit d t p | .bskAdd d t p | .bskDone d t p
  | .mcAck d t p | .dbInc d t p | .stallNote d t p | .pegDone d t p => tileAt d t && p.wf
  | .mpRequestIssue d t | .psLoadComplete d t | .routerPoll d t | .clWake d t | .cmRequestIssue d t => tileAt d t
  | .mpResponse d t g _ _ | .mpStall d t g | .cmResponse d t g _ _ => tileAt d t && decide (g < 4096)
  | .taskDispatch d t n _ _ | .taskComplete d t n _ _ | .stealGrant d t n _ _ => (tileAt d t && decide (n < 8))
  | .stealRequest d t n dir => (tileAt d t && decide (n < 8)) && decide (dir < 4)
  | .reorderRelease d t st => tileAt d t && decide (st < 16)
  | .patchRunComplete d t _ => tileAt d t
  | .nop u f | .next u f | .drop u f | .halt u f | .loop u f | .mov u f | .abs u f | .neg u f | .lane u f | .setl u f
  | .salu u f | .cmp u f | .cls u f | .pset u f | .pone u f | .plog u f | .pcnt u f | .acc u f | .cnt u f | .sel u f
  | .azero u f | .emit u f | .kemit u f => u.wf && f.wf
  | .seamOpen d e p => engAt d e 0 && p.wf
  | .seamSummary d e r p | .seamAbort d e r p => engAt d e r && p.wf
  | .seamReserve d t r | .seamYield d t r _ | .seamSet d t r _ | .seamRelease d t r => tileAt d t && r.wf
  | .seamPart d t r ft p => tileAt d t && r.wf && tileOk ft && p.wf
  | .seamData d t r fd ft p => tileAt d t && r.wf && tileAt fd ft && p.wf
  | .seamGrant d e r fd ft _ | .seamYieldAsk d e r fd ft | .seamResStall d e r fd ft => engAt d e r && tileAt fd ft
  | .seamTimeout d e r | .seamLinkLost d e r => engAt d e r
  | .send h _ n _ => h.wf && decide (n < 64)
  | .add h _ en _ => h.wf && decide (en < 64)
  | .recv h q _ => h.wf && decide (q < 1024)
  | .ringWait h r | .ringFree h r _ => h.wf && decide (r < 256)
  | .bskArm h b en t ex => h.wf && decide (b < 64) && decide (en < 64) && decide (t < 256) && decide (ex < 2 ^ 20)
  | .pegArmCmd h _ _ _ | .pegAddCmd h _ _ | .pegWaitCmd h _ _ | .pegReadCmd h _ | .deferRead h | .fetchRequest h _ =>
    h.wf
  | .dbWait h d _ => h.wf && decide (d < 256)
  | .copy h x | .multicast h x | .ringSend h x | .logPut h x | .patchRunPost h x | .seamOpenPost h x =>
    h.wf && (x.length = 32 || x.length = 64)
  | .pegArm d p | .pegAdd d p | .pegWait d p | .pegRead d p => dieOk d && p.wf
  | .creditIdleReturn d t e => tileAt d t && decide (e < 256)
  | .creditStall d t st => tileAt d t && decide (st < 128)
  | .mcAckHoldExpiry d t tr | .mcAckWaitExpiry d t tr => tileAt d t && decide (tr < 4096)
  | .gapRecord d c => dieOk d && ctxOk c
  | .pairDelta p => p.wf
  | .pairAck q p => portOk q && p.wf
  | .heldEventApply _ | .pairLagLimit _ | .pairPrimaryLost | .pairMirrorLost => true
  | .bridgeGroup d b m x y z w => modAt d b m && x.wf && y.wf && z.wf && w.wf
  | .ack d l _ | .nak d l _ _ | .faultIdle d l | .ident d l _ _ | .echo d l _ _ | .trainingRetry d l
  | .linkLoss d l => dieOk d && decide (l < 32)
  | .moduleTrainingDone d b m _ | .dbrTrainFail d b m => modAt d b m
  | .mrd h t | .mwr h t => decide (h < 4) && t.wf
  | .hstLinkDown h | .hstFlr h | .hstHotReset h => h < 4
  | .unsupportedTlp h tag _ => h < 4 && decide (tag < 1024)
  | .optModuleDetect d g _ | .laserHourTick d g | .powerSample d g _ _ _ => dieOk d && decide (g < 8)
  | .faultRecordDie d _ | .referenceEdgesResumed d | .bypass d _ | .idcode d | .samplePreload d | .extest d => dieOk d
  | .dieReset m d => m.wf && dieOk d
  | .tileReset m d t => m.wf && tileAt d t
  | .portReset m d p => m.wf && dieOk d && decide (p < 64)
  | .contextActivate m c | .contextDeactivate m c | .contextResetRequest m c => m.wf && ctxOk c
  | .lp1ReqWrite m i _ => m.wf && decide (i < 8)
  | .por _ _ fs ms => (fs.all fun e => tileAt e.1 e.2) && ms.all dieOk
  | .sidebandWrite i _ => i < 256
  | .faultRecordRoot | .errNPulseEnd | .quiesceResetPhase | .quiesceLimit | .quiesceReturn | .porNLow | .fmcStart _ _
  | .regRead _ _ | .regWrite _ _ _ | .stageWrite _ _ _ | .stageRead _ _ _ | .ping _ _ | .svcCommit | .fwCheckDone
  | .fwProgramDone _ | .activationLoadDone | .activationLoadTimeout | .pauseEnd | .brownOut | .fabricSupplyLoss
  | .serviceDatagramRejected _ _ => true

end Sys2Proof
end

