-- ==== Sys2Proof/Laws/PerInstr.lean ====
section
/-! SUPPORT. The operands of commands, one lemma a command: every die a well-formed command names exists (R15). -/
namespace Sys2Proof.Laws

set_option Elab.async false

/-- The die of an arbiter's resource. -/
def arbDie : ArbRes → Nat
  | .inject d _ _ _ => d
  | .output d _ _ _ _ _ => d

/-- The dies a command names. -/
def Operands.dies : Instr → List Nat
  | .pressBoundary _ => []
  | .foldStart => []
  | .portLockModeChange x0 _ _ => [x0]
  | .gateWindowEdge x0 _ _ _ _ => [x0]
  | .epochCommand x0 _ _ _ => [x0]
  | .epochTargetBoundary x0 => [x0]
  | .pressLost x0 => [x0]
  | .marker x0 _ _ _ _ _ => [x0]
  | .registerWrite x0 => [x0.die]
  | .lowHalfRead x0 => [x0.die]
  | .shadowCommitImmediate _ x1 _ => [x1]
  | .shadowCommitNextBoundary _ x1 _ => [x1]
  | .shadowCommitScheduled _ x1 _ => [x1]
  | .shadowCommitCancel _ x1 _ => [x1]
  | .immediateCommitTakesEffect x0 _ => [x0]
  | .arbFreezeWrite _ x1 _ _ => [x1]
  | .priorityRegisterWrite x0 => [x0.die]
  | .govCeilingWrite _ _ => []
  | .planCheck _ => []
  | .planAdopt _ => []
  | .planCancel _ => []
  | .portOldPlanDrained _ => []
  | .packetArrival x0 _ _ _ _ => [x0]
  | .arbitrationDecision x0 => [arbDie x0]
  | .credit x0 _ _ _ _ _ _ => [x0]
  | .adaptEscWaitExpiry x0 => [x0.die]
  | .escapeStall x0 => [x0.die]
  | .transitReq x0 _ _ => [x0]
  | .transitGrant x0 _ _ => [x0]
  | .transitEscapeWaitExpiry _ _ => []
  | .read x0 _ _ => [x0]
  | .write x0 _ _ => [x0]
  | .readData x0 _ _ => [x0]
  | .writeAck x0 _ _ => [x0]
  | .status x0 _ _ => [x0]
  | .mpRequestIssue x0 _ => [x0]
  | .mpResponse x0 _ _ _ _ => [x0]
  | .mpStall x0 _ _ => [x0]
  | .cmResponse x0 _ _ _ _ => [x0]
  | .taskDispatch x0 _ _ _ _ => [x0]
  | .taskComplete x0 _ _ _ _ => [x0]
  | .reorderRelease x0 _ _ => [x0]
  | .stealRequest x0 _ _ _ => [x0]
  | .stealGrant x0 _ _ _ _ => [x0]
  | .patchRunComplete x0 _ _ => [x0]
  | .nop x0 _ => [x0.die]
  | .next x0 _ => [x0.die]
  | .drop x0 _ => [x0.die]
  | .halt x0 _ => [x0.die]
  | .loop x0 _ => [x0.die]
  | .mov x0 _ => [x0.die]
  | .abs x0 _ => [x0.die]
  | .neg x0 _ => [x0.die]
  | .lane x0 _ => [x0.die]
  | .setl x0 _ => [x0.die]
  | .salu x0 _ => [x0.die]
  | .cmp x0 _ => [x0.die]
  | .cls x0 _ => [x0.die]
  | .pset x0 _ => [x0.die]
  | .pone x0 _ => [x0.die]
  | .plog x0 _ => [x0.die]
  | .pcnt x0 _ => [x0.die]
  | .acc x0 _ => [x0.die]
  | .cnt x0 _ => [x0.die]
  | .sel x0 _ => [x0.die]
  | .azero x0 _ => [x0.die]
  | .emit x0 _ => [x0.die]
  | .kemit x0 _ => [x0.die]
  | .psDataLoWrite _ x1 _ _ => [x1]
  | .psLoadCmd _ x1 _ _ => [x1]
  | .psLoadComplete x0 _ => [x0]
  | .seamOpen x0 _ _ => [x0]
  | .seamAdmit x0 _ _ => [x0]
  | .seamSummary x0 _ _ _ => [x0]
  | .seamReserve x0 _ x2 => [x0, x2.die]
  | .seamGrant x0 _ _ x3 _ _ => [x0, x3]
  | .seamYieldAsk x0 _ _ x3 _ => [x0, x3]
  | .seamYield x0 _ x2 _ => [x0, x2.die]
  | .seamSet x0 _ x2 _ => [x0, x2.die]
  | .seamPart x0 _ x2 _ _ => [x0, x2.die]
  | .seamData x0 _ x2 x3 _ _ => [x0, x2.die, x3]
  | .seamDone x0 _ _ => [x0]
  | .seamAbort x0 _ _ _ => [x0]
  | .seamRelease x0 _ x2 => [x0, x2.die]
  | .seamTimeout x0 _ _ => [x0]
  | .seamResStall x0 _ _ x3 _ => [x0, x3]
  | .seamLinkLost x0 _ _ => [x0]
  | .seamAbortCmd _ x1 _ _ => [x1]
  | .send x0 _ _ _ => [x0.die]
  | .add x0 _ _ _ => [x0.die]
  | .recv x0 _ _ => [x0.die]
  | .ringWait x0 _ => [x0.die]
  | .ringFree x0 _ _ => [x0.die]
  | .bskArm x0 _ _ _ _ => [x0.die]
  | .pegArmCmd x0 _ _ _ => [x0.die]
  | .pegAddCmd x0 _ _ => [x0.die]
  | .pegWaitCmd x0 _ _ => [x0.die]
  | .pegReadCmd x0 _ => [x0.die]
  | .dbWait x0 _ _ => [x0.die]
  | .deferRead x0 => [x0.die]
  | .fetchRequest x0 _ => [x0.die]
  | .copy x0 _ => [x0.die]
  | .multicast x0 _ => [x0.die]
  | .ringSend x0 _ => [x0.die]
  | .logPut x0 _ => [x0.die]
  | .patchRunPost x0 _ => [x0.die]
  | .seamOpenPost x0 _ => [x0.die]
  | .msg x0 _ _ => [x0]
  | .creditReq x0 _ _ => [x0]
  | .creditGrant x0 _ _ => [x0]
  | .creditReturn x0 _ _ => [x0]
  | .ringReserve x0 _ _ => [x0]
  | .ringGrant x0 _ _ => [x0]
  | .ringCommit x0 _ _ => [x0]
  | .bskAdd x0 _ _ => [x0]
  | .bskDone x0 _ _ => [x0]
  | .mcAck x0 _ _ => [x0]
  | .dbInc x0 _ _ => [x0]
  | .stallNote x0 _ _ => [x0]
  | .pegArm x0 _ => [x0]
  | .pegAdd x0 _ => [x0]
  | .pegWait x0 _ => [x0]
  | .pegRead x0 _ => [x0]
  | .pegDone x0 _ _ => [x0]
  | .creditIdleReturn x0 _ _ => [x0]
  | .creditStall x0 _ _ => [x0]
  | .mcAckHoldExpiry x0 _ _ => [x0]
  | .mcAckWaitExpiry x0 _ _ => [x0]
  | .checkpointCmd _ x1 _ _ => [x1]
  | .tally0Read x0 => [x0.die]
  | .logRec _ _ => []
  | .datagramClose _ => []
  | .gapRecord x0 _ => [x0]
  | .pairDelta _ => []
  | .pairAck _ _ => []
  | .heldEventApply _ => []
  | .pairLagLimit _ => []
  | .pairPrimaryLost => []
  | .pairMirrorLost => []
  | .bridgeGroup x0 _ _ _ _ _ _ => [x0]
  | .course _ _ _ _ _ => []
  | .ack x0 _ _ => [x0]
  | .nak x0 _ _ _ => [x0]
  | .faultIdle x0 _ => [x0]
  | .ident x0 _ _ _ => [x0]
  | .echo x0 _ _ _ => [x0]
  | .moduleTrainingDone x0 _ _ _ => [x0]
  | .dbrTrainFail x0 _ _ => [x0]
  | .trainingRetry x0 _ => [x0]
  | .sundiTrainingStepDone _ _ => []
  | .lnkTrainFail _ => []
  | .linkLoss x0 _ => [x0]
  | .fecWindowEnd _ _ => []
  | .dbrRetrain _ x1 _ _ => [x1]
  | .lnkRetrain _ x1 _ _ => [x1]
  | .stoLinkDown _ => []
  | .storageFrameReceived _ => []
  | .mrd _ _ => []
  | .mwr _ _ => []
  | .hstLinkDown _ => []
  | .hstFlr _ => []
  | .hstHotReset _ => []
  | .optModuleDetect x0 _ _ => [x0]
  | .optRescan _ x1 _ _ => [x1]
  | .laserHourTick x0 _ => [x0]
  | .powerSample x0 _ _ _ _ => [x0]
  | .faultRecordDie x0 _ => [x0]
  | .faultRecordRoot => []
  | .errNPulseEnd => []
  | .errCtrlWrite _ _ => []
  | .routerPoll x0 _ => [x0]
  | .quiesceResetPhase => []
  | .quiesceLimit => []
  | .quiesceReturn => []
  | .fabricReset _ => []
  | .dieReset _ x1 => [x1]
  | .tileReset _ x1 _ => [x1]
  | .portReset _ x1 _ => [x1]
  | .contextActivate _ _ => []
  | .contextDeactivate _ _ => []
  | .contextResetRequest _ _ => []
  | .lp2Enter _ => []
  | .lp3Enter _ => []
  | .lpExit _ => []
  | .lp1ReqWrite _ _ _ => []
  | .clWake x0 _ => [x0]
  | .por _ _ _ _ => []
  | .porNLow => []
  | .fmcStart _ _ => []
  | .rollbackWrite _ _ => []
  | .areaDataRead _ => []
  | .areaDataWrite _ _ => []
  | .regRead _ _ => []
  | .regWrite _ _ _ => []
  | .stageWrite _ _ _ => []
  | .stageRead _ _ _ => []
  | .ping _ _ => []
  | .sidebandWrite _ _ => []
  | .svcCommit => []
  | .fwCheck _ => []
  | .fwCheckDone => []
  | .fwProgram _ => []
  | .fwProgramDone _ => []
  | .fwActivate _ => []
  | .fwCancel _ => []
  | .fwBind _ => []
  | .activationLoadDone => []
  | .activationLoadTimeout => []
  | .pauseEnd => []
  | .bypass x0 _ => [x0]
  | .idcode x0 => [x0]
  | .samplePreload x0 => [x0]
  | .extest x0 => [x0]
  | .referenceEdgesResumed x0 => [x0]
  | .brownOut => []
  | .fabricSupplyLoss => []
  | .stoPcsLinkUp _ => []
  | .unsupportedTlp _ _ _ => []
  | .serviceDatagramRejected _ _ => []
  | .cmRequestIssue x0 _ => [x0]

/-- Every die a well-formed command names exists. -/
def Operands.Statement (i : Instr) : Prop := i.wf = true → ∀ d ∈ Operands.dies i, d < 64

theorem Operands.pressBoundary (a0 : Pins) : Operands.Statement (.pressBoundary a0) := fun _ _ h => nomatch h
theorem Operands.foldStart : Operands.Statement (.foldStart) := fun _ _ h => nomatch h
theorem Operands.portLockModeChange (a0 : Nat) (a1 : Nat) (a2 : Nat) : Operands.Statement (.portLockModeChange a0 a1 a2) := by
  simp +contextual [Operands.Statement, Operands.dies, Instr.wf, RegAcc.wf, BufKey.wf, DrnRef.wf, CipHdr.wf, SeamRef.wf, ArbRes.wf, engAt, modAt, pageAt, tileAt, dieOk]
theorem Operands.gateWindowEdge (a0 : Nat) (a1 : Nat) (a2 : Nat) (a3 : Nat) (a4 : Nat) : Operands.Statement (.gateWindowEdge a0 a1 a2 a3 a4) := by
  simp +contextual [Operands.Statement, Operands.dies, Instr.wf, RegAcc.wf, BufKey.wf, DrnRef.wf, CipHdr.wf, SeamRef.wf, ArbRes.wf, engAt, modAt, pageAt, tileAt, dieOk]
theorem Operands.epochCommand (a0 : Nat) (a1 : List Byte) (a2 : Bool) (a3 : Bool) : Operands.Statement (.epochCommand a0 a1 a2 a3) := by
  simp +contextual [Operands.Statement, Operands.dies, Instr.wf, RegAcc.wf, BufKey.wf, DrnRef.wf, CipHdr.wf, SeamRef.wf, ArbRes.wf, engAt, modAt, pageAt, tileAt, dieOk]
theorem Operands.epochTargetBoundary (a0 : Nat) : Operands.Statement (.epochTargetBoundary a0) := by
  simp +contextual [Operands.Statement, Operands.dies, Instr.wf, RegAcc.wf, BufKey.wf, DrnRef.wf, CipHdr.wf, SeamRef.wf, ArbRes.wf, engAt, modAt, pageAt, tileAt, dieOk]
theorem Operands.pressLost (a0 : Nat) : Operands.Statement (.pressLost a0) := by
  simp +contextual [Operands.Statement, Operands.dies, Instr.wf, RegAcc.wf, BufKey.wf, DrnRef.wf, CipHdr.wf, SeamRef.wf, ArbRes.wf, engAt, modAt, pageAt, tileAt, dieOk]
theorem Operands.marker (a0 : Nat) (a1 : Nat) (a2 : PressState) (a3 : DWord) (a4 : Nat) (a5 : Nat) : Operands.Statement (.marker a0 a1 a2 a3 a4 a5) := by
  simp +contextual [Operands.Statement, Operands.dies, Instr.wf, RegAcc.wf, BufKey.wf, DrnRef.wf, CipHdr.wf, SeamRef.wf, ArbRes.wf, engAt, modAt, pageAt, tileAt, dieOk]
theorem Operands.registerWrite (a0 : RegAcc) : Operands.Statement (.registerWrite a0) := by
  simp +contextual [Operands.Statement, Operands.dies, Instr.wf, RegAcc.wf, BufKey.wf, DrnRef.wf, CipHdr.wf, SeamRef.wf, ArbRes.wf, engAt, modAt, pageAt, tileAt, dieOk]
theorem Operands.lowHalfRead (a0 : RegAcc) : Operands.Statement (.lowHalfRead a0) := by
  simp +contextual [Operands.Statement, Operands.dies, Instr.wf, RegAcc.wf, BufKey.wf, DrnRef.wf, CipHdr.wf, SeamRef.wf, ArbRes.wf, engAt, modAt, pageAt, tileAt, dieOk]
theorem Operands.shadowCommitImmediate (a0 : Master) (a1 : Nat) (a2 : Nat) : Operands.Statement (.shadowCommitImmediate a0 a1 a2) := by
  simp +contextual [Operands.Statement, Operands.dies, Instr.wf, RegAcc.wf, BufKey.wf, DrnRef.wf, CipHdr.wf, SeamRef.wf, ArbRes.wf, engAt, modAt, pageAt, tileAt, dieOk]
theorem Operands.shadowCommitNextBoundary (a0 : Master) (a1 : Nat) (a2 : Nat) : Operands.Statement (.shadowCommitNextBoundary a0 a1 a2) := by
  simp +contextual [Operands.Statement, Operands.dies, Instr.wf, RegAcc.wf, BufKey.wf, DrnRef.wf, CipHdr.wf, SeamRef.wf, ArbRes.wf, engAt, modAt, pageAt, tileAt, dieOk]
theorem Operands.shadowCommitScheduled (a0 : Master) (a1 : Nat) (a2 : Nat) : Operands.Statement (.shadowCommitScheduled a0 a1 a2) := by
  simp +contextual [Operands.Statement, Operands.dies, Instr.wf, RegAcc.wf, BufKey.wf, DrnRef.wf, CipHdr.wf, SeamRef.wf, ArbRes.wf, engAt, modAt, pageAt, tileAt, dieOk]
theorem Operands.shadowCommitCancel (a0 : Master) (a1 : Nat) (a2 : Nat) : Operands.Statement (.shadowCommitCancel a0 a1 a2) := by
  simp +contextual [Operands.Statement, Operands.dies, Instr.wf, RegAcc.wf, BufKey.wf, DrnRef.wf, CipHdr.wf, SeamRef.wf, ArbRes.wf, engAt, modAt, pageAt, tileAt, dieOk]
theorem Operands.immediateCommitTakesEffect (a0 : Nat) (a1 : Nat) : Operands.Statement (.immediateCommitTakesEffect a0 a1) := by
  simp +contextual [Operands.Statement, Operands.dies, Instr.wf, RegAcc.wf, BufKey.wf, DrnRef.wf, CipHdr.wf, SeamRef.wf, ArbRes.wf, engAt, modAt, pageAt, tileAt, dieOk]
theorem Operands.arbFreezeWrite (a0 : Master) (a1 : Nat) (a2 : Nat) (a3 : Word) : Operands.Statement (.arbFreezeWrite a0 a1 a2 a3) := by
  simp +contextual [Operands.Statement, Operands.dies, Instr.wf, RegAcc.wf, BufKey.wf, DrnRef.wf, CipHdr.wf, SeamRef.wf, ArbRes.wf, engAt, modAt, pageAt, tileAt, dieOk]
theorem Operands.priorityRegisterWrite (a0 : RegAcc) : Operands.Statement (.priorityRegisterWrite a0) := by
  simp +contextual [Operands.Statement, Operands.dies, Instr.wf, RegAcc.wf, BufKey.wf, DrnRef.wf, CipHdr.wf, SeamRef.wf, ArbRes.wf, engAt, modAt, pageAt, tileAt, dieOk]
theorem Operands.govCeilingWrite (a0 : Master) (a1 : Word) : Operands.Statement (.govCeilingWrite a0 a1) := fun _ _ h => nomatch h
theorem Operands.planCheck (a0 : Master) : Operands.Statement (.planCheck a0) := fun _ _ h => nomatch h
theorem Operands.planAdopt (a0 : Master) : Operands.Statement (.planAdopt a0) := fun _ _ h => nomatch h
theorem Operands.planCancel (a0 : Master) : Operands.Statement (.planCancel a0) := fun _ _ h => nomatch h
theorem Operands.portOldPlanDrained (a0 : Nat) : Operands.Statement (.portOldPlanDrained a0) := fun _ _ h => nomatch h
theorem Operands.packetArrival (a0 : Nat) (a1 : Nat) (a2 : Nat) (a3 : Packet) (a4 : ArrivalEvent) : Operands.Statement (.packetArrival a0 a1 a2 a3 a4) := by
  simp +contextual [Operands.Statement, Operands.dies, Instr.wf, RegAcc.wf, BufKey.wf, DrnRef.wf, CipHdr.wf, SeamRef.wf, ArbRes.wf, engAt, modAt, pageAt, tileAt, dieOk]
theorem Operands.arbitrationDecision (a0 : ArbRes) : Operands.Statement (.arbitrationDecision a0) := by
  cases a0 <;> simp_all [Operands.Statement, Operands.dies, arbDie, Instr.wf, ArbRes.wf, tileAt, dieOk]
theorem Operands.credit (a0 : Nat) (a1 : Nat) (a2 : Nat) (a3 : Nat) (a4 : Nat) (a5 : Nat) (a6 : Nat) : Operands.Statement (.credit a0 a1 a2 a3 a4 a5 a6) := by
  simp +contextual [Operands.Statement, Operands.dies, Instr.wf, RegAcc.wf, BufKey.wf, DrnRef.wf, CipHdr.wf, SeamRef.wf, ArbRes.wf, engAt, modAt, pageAt, tileAt, dieOk]
theorem Operands.adaptEscWaitExpiry (a0 : BufKey) : Operands.Statement (.adaptEscWaitExpiry a0) := by
  simp +contextual [Operands.Statement, Operands.dies, Instr.wf, RegAcc.wf, BufKey.wf, DrnRef.wf, CipHdr.wf, SeamRef.wf, ArbRes.wf, engAt, modAt, pageAt, tileAt, dieOk]
theorem Operands.escapeStall (a0 : BufKey) : Operands.Statement (.escapeStall a0) := by
  simp +contextual [Operands.Statement, Operands.dies, Instr.wf, RegAcc.wf, BufKey.wf, DrnRef.wf, CipHdr.wf, SeamRef.wf, ArbRes.wf, engAt, modAt, pageAt, tileAt, dieOk]
theorem Operands.transitReq (a0 : Nat) (a1 : Nat) (a2 : Packet) : Operands.Statement (.transitReq a0 a1 a2) := by
  simp +contextual [Operands.Statement, Operands.dies, Instr.wf, RegAcc.wf, BufKey.wf, DrnRef.wf, CipHdr.wf, SeamRef.wf, ArbRes.wf, engAt, modAt, pageAt, tileAt, dieOk]
theorem Operands.transitGrant (a0 : Nat) (a1 : Nat) (a2 : Packet) : Operands.Statement (.transitGrant a0 a1 a2) := by
  simp +contextual [Operands.Statement, Operands.dies, Instr.wf, RegAcc.wf, BufKey.wf, DrnRef.wf, CipHdr.wf, SeamRef.wf, ArbRes.wf, engAt, modAt, pageAt, tileAt, dieOk]
theorem Operands.transitEscapeWaitExpiry (a0 : Nat) (a1 : Packet) : Operands.Statement (.transitEscapeWaitExpiry a0 a1) := fun _ _ h => nomatch h
theorem Operands.read (a0 : Nat) (a1 : Nat) (a2 : Packet) : Operands.Statement (.read a0 a1 a2) := by
  simp +contextual [Operands.Statement, Operands.dies, Instr.wf, RegAcc.wf, BufKey.wf, DrnRef.wf, CipHdr.wf, SeamRef.wf, ArbRes.wf, engAt, modAt, pageAt, tileAt, dieOk]
theorem Operands.write (a0 : Nat) (a1 : Nat) (a2 : Packet) : Operands.Statement (.write a0 a1 a2) := by
  simp +contextual [Operands.Statement, Operands.dies, Instr.wf, RegAcc.wf, BufKey.wf, DrnRef.wf, CipHdr.wf, SeamRef.wf, ArbRes.wf, engAt, modAt, pageAt, tileAt, dieOk]
theorem Operands.readData (a0 : Nat) (a1 : Nat) (a2 : Packet) : Operands.Statement (.readData a0 a1 a2) := by
  simp +contextual [Operands.Statement, Operands.dies, Instr.wf, RegAcc.wf, BufKey.wf, DrnRef.wf, CipHdr.wf, SeamRef.wf, ArbRes.wf, engAt, modAt, pageAt, tileAt, dieOk]
theorem Operands.writeAck (a0 : Nat) (a1 : Nat) (a2 : Packet) : Operands.Statement (.writeAck a0 a1 a2) := by
  simp +contextual [Operands.Statement, Operands.dies, Instr.wf, RegAcc.wf, BufKey.wf, DrnRef.wf, CipHdr.wf, SeamRef.wf, ArbRes.wf, engAt, modAt, pageAt, tileAt, dieOk]
theorem Operands.status (a0 : Nat) (a1 : Nat) (a2 : Packet) : Operands.Statement (.status a0 a1 a2) := by
  simp +contextual [Operands.Statement, Operands.dies, Instr.wf, RegAcc.wf, BufKey.wf, DrnRef.wf, CipHdr.wf, SeamRef.wf, ArbRes.wf, engAt, modAt, pageAt, tileAt, dieOk]
theorem Operands.mpRequestIssue (a0 : Nat) (a1 : Nat) : Operands.Statement (.mpRequestIssue a0 a1) := by
  simp +contextual [Operands.Statement, Operands.dies, Instr.wf, RegAcc.wf, BufKey.wf, DrnRef.wf, CipHdr.wf, SeamRef.wf, ArbRes.wf, engAt, modAt, pageAt, tileAt, dieOk]
theorem Operands.mpResponse (a0 : Nat) (a1 : Nat) (a2 : Nat) (a3 : List Byte) (a4 : Bool) : Operands.Statement (.mpResponse a0 a1 a2 a3 a4) := by
  simp +contextual [Operands.Statement, Operands.dies, Instr.wf, RegAcc.wf, BufKey.wf, DrnRef.wf, CipHdr.wf, SeamRef.wf, ArbRes.wf, engAt, modAt, pageAt, tileAt, dieOk]
theorem Operands.mpStall (a0 : Nat) (a1 : Nat) (a2 : Nat) : Operands.Statement (.mpStall a0 a1 a2) := by
  simp +contextual [Operands.Statement, Operands.dies, Instr.wf, RegAcc.wf, BufKey.wf, DrnRef.wf, CipHdr.wf, SeamRef.wf, ArbRes.wf, engAt, modAt, pageAt, tileAt, dieOk]
theorem Operands.cmResponse (a0 : Nat) (a1 : Nat) (a2 : Nat) (a3 : List Byte) (a4 : Bool) : Operands.Statement (.cmResponse a0 a1 a2 a3 a4) := by
  simp +contextual [Operands.Statement, Operands.dies, Instr.wf, RegAcc.wf, BufKey.wf, DrnRef.wf, CipHdr.wf, SeamRef.wf, ArbRes.wf, engAt, modAt, pageAt, tileAt, dieOk]
theorem Operands.taskDispatch (a0 : Nat) (a1 : Nat) (a2 : Nat) (a3 : List Byte) (a4 : TaskErr) : Operands.Statement (.taskDispatch a0 a1 a2 a3 a4) := by
  simp +contextual [Operands.Statement, Operands.dies, Instr.wf, RegAcc.wf, BufKey.wf, DrnRef.wf, CipHdr.wf, SeamRef.wf, ArbRes.wf, engAt, modAt, pageAt, tileAt, dieOk]
theorem Operands.taskComplete (a0 : Nat) (a1 : Nat) (a2 : Nat) (a3 : List Byte) (a4 : SlotEcc) : Operands.Statement (.taskComplete a0 a1 a2 a3 a4) := by
  simp +contextual [Operands.Statement, Operands.dies, Instr.wf, RegAcc.wf, BufKey.wf, DrnRef.wf, CipHdr.wf, SeamRef.wf, ArbRes.wf, engAt, modAt, pageAt, tileAt, dieOk]
theorem Operands.reorderRelease (a0 : Nat) (a1 : Nat) (a2 : Nat) : Operands.Statement (.reorderRelease a0 a1 a2) := by
  simp +contextual [Operands.Statement, Operands.dies, Instr.wf, RegAcc.wf, BufKey.wf, DrnRef.wf, CipHdr.wf, SeamRef.wf, ArbRes.wf, engAt, modAt, pageAt, tileAt, dieOk]
theorem Operands.stealRequest (a0 : Nat) (a1 : Nat) (a2 : Nat) (a3 : Nat) : Operands.Statement (.stealRequest a0 a1 a2 a3) := by
  simp +contextual [Operands.Statement, Operands.dies, Instr.wf, RegAcc.wf, BufKey.wf, DrnRef.wf, CipHdr.wf, SeamRef.wf, ArbRes.wf, engAt, modAt, pageAt, tileAt, dieOk]
theorem Operands.stealGrant (a0 : Nat) (a1 : Nat) (a2 : Nat) (a3 : List Byte) (a4 : Bool) : Operands.Statement (.stealGrant a0 a1 a2 a3 a4) := by
  simp +contextual [Operands.Statement, Operands.dies, Instr.wf, RegAcc.wf, BufKey.wf, DrnRef.wf, CipHdr.wf, SeamRef.wf, ArbRes.wf, engAt, modAt, pageAt, tileAt, dieOk]
theorem Operands.patchRunComplete (a0 : Nat) (a1 : Nat) (a2 : Nat) : Operands.Statement (.patchRunComplete a0 a1 a2) := by
  simp +contextual [Operands.Statement, Operands.dies, Instr.wf, RegAcc.wf, BufKey.wf, DrnRef.wf, CipHdr.wf, SeamRef.wf, ArbRes.wf, engAt, modAt, pageAt, tileAt, dieOk]
theorem Operands.nop (a0 : DrnRef) (a1 : PFields) : Operands.Statement (.nop a0 a1) := by
  simp +contextual [Operands.Statement, Operands.dies, Instr.wf, RegAcc.wf, BufKey.wf, DrnRef.wf, CipHdr.wf, SeamRef.wf, ArbRes.wf, engAt, modAt, pageAt, tileAt, dieOk]
theorem Operands.next (a0 : DrnRef) (a1 : PFields) : Operands.Statement (.next a0 a1) := by
  simp +contextual [Operands.Statement, Operands.dies, Instr.wf, RegAcc.wf, BufKey.wf, DrnRef.wf, CipHdr.wf, SeamRef.wf, ArbRes.wf, engAt, modAt, pageAt, tileAt, dieOk]
theorem Operands.drop (a0 : DrnRef) (a1 : PFields) : Operands.Statement (.drop a0 a1) := by
  simp +contextual [Operands.Statement, Operands.dies, Instr.wf, RegAcc.wf, BufKey.wf, DrnRef.wf, CipHdr.wf, SeamRef.wf, ArbRes.wf, engAt, modAt, pageAt, tileAt, dieOk]
theorem Operands.halt (a0 : DrnRef) (a1 : PFields) : Operands.Statement (.halt a0 a1) := by
  simp +contextual [Operands.Statement, Operands.dies, Instr.wf, RegAcc.wf, BufKey.wf, DrnRef.wf, CipHdr.wf, SeamRef.wf, ArbRes.wf, engAt, modAt, pageAt, tileAt, dieOk]
theorem Operands.loop (a0 : DrnRef) (a1 : PFields) : Operands.Statement (.loop a0 a1) := by
  simp +contextual [Operands.Statement, Operands.dies, Instr.wf, RegAcc.wf, BufKey.wf, DrnRef.wf, CipHdr.wf, SeamRef.wf, ArbRes.wf, engAt, modAt, pageAt, tileAt, dieOk]
theorem Operands.mov (a0 : DrnRef) (a1 : PFields) : Operands.Statement (.mov a0 a1) := by
  simp +contextual [Operands.Statement, Operands.dies, Instr.wf, RegAcc.wf, BufKey.wf, DrnRef.wf, CipHdr.wf, SeamRef.wf, ArbRes.wf, engAt, modAt, pageAt, tileAt, dieOk]
theorem Operands.abs (a0 : DrnRef) (a1 : PFields) : Operands.Statement (.abs a0 a1) := by
  simp +contextual [Operands.Statement, Operands.dies, Instr.wf, RegAcc.wf, BufKey.wf, DrnRef.wf, CipHdr.wf, SeamRef.wf, ArbRes.wf, engAt, modAt, pageAt, tileAt, dieOk]
theorem Operands.neg (a0 : DrnRef) (a1 : PFields) : Operands.Statement (.neg a0 a1) := by
  simp +contextual [Operands.Statement, Operands.dies, Instr.wf, RegAcc.wf, BufKey.wf, DrnRef.wf, CipHdr.wf, SeamRef.wf, ArbRes.wf, engAt, modAt, pageAt, tileAt, dieOk]
theorem Operands.lane (a0 : DrnRef) (a1 : PFields) : Operands.Statement (.lane a0 a1) := by
  simp +contextual [Operands.Statement, Operands.dies, Instr.wf, RegAcc.wf, BufKey.wf, DrnRef.wf, CipHdr.wf, SeamRef.wf, ArbRes.wf, engAt, modAt, pageAt, tileAt, dieOk]
theorem Operands.setl (a0 : DrnRef) (a1 : PFields) : Operands.Statement (.setl a0 a1) := by
  simp +contextual [Operands.Statement, Operands.dies, Instr.wf, RegAcc.wf, BufKey.wf, DrnRef.wf, CipHdr.wf, SeamRef.wf, ArbRes.wf, engAt, modAt, pageAt, tileAt, dieOk]
theorem Operands.salu (a0 : DrnRef) (a1 : PFields) : Operands.Statement (.salu a0 a1) := by
  simp +contextual [Operands.Statement, Operands.dies, Instr.wf, RegAcc.wf, BufKey.wf, DrnRef.wf, CipHdr.wf, SeamRef.wf, ArbRes.wf, engAt, modAt, pageAt, tileAt, dieOk]
theorem Operands.cmp (a0 : DrnRef) (a1 : PFields) : Operands.Statement (.cmp a0 a1) := by
  simp +contextual [Operands.Statement, Operands.dies, Instr.wf, RegAcc.wf, BufKey.wf, DrnRef.wf, CipHdr.wf, SeamRef.wf, ArbRes.wf, engAt, modAt, pageAt, tileAt, dieOk]
theorem Operands.cls (a0 : DrnRef) (a1 : PFields) : Operands.Statement (.cls a0 a1) := by
  simp +contextual [Operands.Statement, Operands.dies, Instr.wf, RegAcc.wf, BufKey.wf, DrnRef.wf, CipHdr.wf, SeamRef.wf, ArbRes.wf, engAt, modAt, pageAt, tileAt, dieOk]
theorem Operands.pset (a0 : DrnRef) (a1 : PFields) : Operands.Statement (.pset a0 a1) := by
  simp +contextual [Operands.Statement, Operands.dies, Instr.wf, RegAcc.wf, BufKey.wf, DrnRef.wf, CipHdr.wf, SeamRef.wf, ArbRes.wf, engAt, modAt, pageAt, tileAt, dieOk]
theorem Operands.pone (a0 : DrnRef) (a1 : PFields) : Operands.Statement (.pone a0 a1) := by
  simp +contextual [Operands.Statement, Operands.dies, Instr.wf, RegAcc.wf, BufKey.wf, DrnRef.wf, CipHdr.wf, SeamRef.wf, ArbRes.wf, engAt, modAt, pageAt, tileAt, dieOk]
theorem Operands.plog (a0 : DrnRef) (a1 : PFields) : Operands.Statement (.plog a0 a1) := by
  simp +contextual [Operands.Statement, Operands.dies, Instr.wf, RegAcc.wf, BufKey.wf, DrnRef.wf, CipHdr.wf, SeamRef.wf, ArbRes.wf, engAt, modAt, pageAt, tileAt, dieOk]
theorem Operands.pcnt (a0 : DrnRef) (a1 : PFields) : Operands.Statement (.pcnt a0 a1) := by
  simp +contextual [Operands.Statement, Operands.dies, Instr.wf, RegAcc.wf, BufKey.wf, DrnRef.wf, CipHdr.wf, SeamRef.wf, ArbRes.wf, engAt, modAt, pageAt, tileAt, dieOk]
theorem Operands.acc (a0 : DrnRef) (a1 : PFields) : Operands.Statement (.acc a0 a1) := by
  simp +contextual [Operands.Statement, Operands.dies, Instr.wf, RegAcc.wf, BufKey.wf, DrnRef.wf, CipHdr.wf, SeamRef.wf, ArbRes.wf, engAt, modAt, pageAt, tileAt, dieOk]
theorem Operands.cnt (a0 : DrnRef) (a1 : PFields) : Operands.Statement (.cnt a0 a1) := by
  simp +contextual [Operands.Statement, Operands.dies, Instr.wf, RegAcc.wf, BufKey.wf, DrnRef.wf, CipHdr.wf, SeamRef.wf, ArbRes.wf, engAt, modAt, pageAt, tileAt, dieOk]
theorem Operands.sel (a0 : DrnRef) (a1 : PFields) : Operands.Statement (.sel a0 a1) := by
  simp +contextual [Operands.Statement, Operands.dies, Instr.wf, RegAcc.wf, BufKey.wf, DrnRef.wf, CipHdr.wf, SeamRef.wf, ArbRes.wf, engAt, modAt, pageAt, tileAt, dieOk]
theorem Operands.azero (a0 : DrnRef) (a1 : PFields) : Operands.Statement (.azero a0 a1) := by
  simp +contextual [Operands.Statement, Operands.dies, Instr.wf, RegAcc.wf, BufKey.wf, DrnRef.wf, CipHdr.wf, SeamRef.wf, ArbRes.wf, engAt, modAt, pageAt, tileAt, dieOk]
theorem Operands.emit (a0 : DrnRef) (a1 : PFields) : Operands.Statement (.emit a0 a1) := by
  simp +contextual [Operands.Statement, Operands.dies, Instr.wf, RegAcc.wf, BufKey.wf, DrnRef.wf, CipHdr.wf, SeamRef.wf, ArbRes.wf, engAt, modAt, pageAt, tileAt, dieOk]
theorem Operands.kemit (a0 : DrnRef) (a1 : PFields) : Operands.Statement (.kemit a0 a1) := by
  simp +contextual [Operands.Statement, Operands.dies, Instr.wf, RegAcc.wf, BufKey.wf, DrnRef.wf, CipHdr.wf, SeamRef.wf, ArbRes.wf, engAt, modAt, pageAt, tileAt, dieOk]
theorem Operands.psDataLoWrite (a0 : Master) (a1 : Nat) (a2 : Nat) (a3 : Word) : Operands.Statement (.psDataLoWrite a0 a1 a2 a3) := by
  simp +contextual [Operands.Statement, Operands.dies, Instr.wf, RegAcc.wf, BufKey.wf, DrnRef.wf, CipHdr.wf, SeamRef.wf, ArbRes.wf, engAt, modAt, pageAt, tileAt, dieOk]
theorem Operands.psLoadCmd (a0 : Master) (a1 : Nat) (a2 : Nat) (a3 : Word) : Operands.Statement (.psLoadCmd a0 a1 a2 a3) := by
  simp +contextual [Operands.Statement, Operands.dies, Instr.wf, RegAcc.wf, BufKey.wf, DrnRef.wf, CipHdr.wf, SeamRef.wf, ArbRes.wf, engAt, modAt, pageAt, tileAt, dieOk]
theorem Operands.psLoadComplete (a0 : Nat) (a1 : Nat) : Operands.Statement (.psLoadComplete a0 a1) := by
  simp +contextual [Operands.Statement, Operands.dies, Instr.wf, RegAcc.wf, BufKey.wf, DrnRef.wf, CipHdr.wf, SeamRef.wf, ArbRes.wf, engAt, modAt, pageAt, tileAt, dieOk]
theorem Operands.seamOpen (a0 : Nat) (a1 : Nat) (a2 : Packet) : Operands.Statement (.seamOpen a0 a1 a2) := by
  simp +contextual [Operands.Statement, Operands.dies, Instr.wf, RegAcc.wf, BufKey.wf, DrnRef.wf, CipHdr.wf, SeamRef.wf, ArbRes.wf, engAt, modAt, pageAt, tileAt, dieOk]
theorem Operands.seamAdmit (a0 : Nat) (a1 : Nat) (a2 : Packet) : Operands.Statement (.seamAdmit a0 a1 a2) := by
  simp +contextual [Operands.Statement, Operands.dies, Instr.wf, RegAcc.wf, BufKey.wf, DrnRef.wf, CipHdr.wf, SeamRef.wf, ArbRes.wf, engAt, modAt, pageAt, tileAt, dieOk]
theorem Operands.seamSummary (a0 : Nat) (a1 : Nat) (a2 : Nat) (a3 : Packet) : Operands.Statement (.seamSummary a0 a1 a2 a3) := by
  simp +contextual [Operands.Statement, Operands.dies, Instr.wf, RegAcc.wf, BufKey.wf, DrnRef.wf, CipHdr.wf, SeamRef.wf, ArbRes.wf, engAt, modAt, pageAt, tileAt, dieOk]
theorem Operands.seamReserve (a0 : Nat) (a1 : Nat) (a2 : SeamRef) : Operands.Statement (.seamReserve a0 a1 a2) := by
  simp +contextual [Operands.Statement, Operands.dies, Instr.wf, RegAcc.wf, BufKey.wf, DrnRef.wf, CipHdr.wf, SeamRef.wf, ArbRes.wf, engAt, modAt, pageAt, tileAt, dieOk]
theorem Operands.seamGrant (a0 : Nat) (a1 : Nat) (a2 : Nat) (a3 : Nat) (a4 : Nat) (a5 : BitVec 16) : Operands.Statement (.seamGrant a0 a1 a2 a3 a4 a5) := by
  simp +contextual [Operands.Statement, Operands.dies, Instr.wf, RegAcc.wf, BufKey.wf, DrnRef.wf, CipHdr.wf, SeamRef.wf, ArbRes.wf, engAt, modAt, pageAt, tileAt, dieOk]
theorem Operands.seamYieldAsk (a0 : Nat) (a1 : Nat) (a2 : Nat) (a3 : Nat) (a4 : Nat) : Operands.Statement (.seamYieldAsk a0 a1 a2 a3 a4) := by
  simp +contextual [Operands.Statement, Operands.dies, Instr.wf, RegAcc.wf, BufKey.wf, DrnRef.wf, CipHdr.wf, SeamRef.wf, ArbRes.wf, engAt, modAt, pageAt, tileAt, dieOk]
theorem Operands.seamYield (a0 : Nat) (a1 : Nat) (a2 : SeamRef) (a3 : Bool) : Operands.Statement (.seamYield a0 a1 a2 a3) := by
  simp +contextual [Operands.Statement, Operands.dies, Instr.wf, RegAcc.wf, BufKey.wf, DrnRef.wf, CipHdr.wf, SeamRef.wf, ArbRes.wf, engAt, modAt, pageAt, tileAt, dieOk]
theorem Operands.seamSet (a0 : Nat) (a1 : Nat) (a2 : SeamRef) (a3 : Nat) : Operands.Statement (.seamSet a0 a1 a2 a3) := by
  simp +contextual [Operands.Statement, Operands.dies, Instr.wf, RegAcc.wf, BufKey.wf, DrnRef.wf, CipHdr.wf, SeamRef.wf, ArbRes.wf, engAt, modAt, pageAt, tileAt, dieOk]
theorem Operands.seamPart (a0 : Nat) (a1 : Nat) (a2 : SeamRef) (a3 : Nat) (a4 : Packet) : Operands.Statement (.seamPart a0 a1 a2 a3 a4) := by
  simp +contextual [Operands.Statement, Operands.dies, Instr.wf, RegAcc.wf, BufKey.wf, DrnRef.wf, CipHdr.wf, SeamRef.wf, ArbRes.wf, engAt, modAt, pageAt, tileAt, dieOk]
theorem Operands.seamData (a0 : Nat) (a1 : Nat) (a2 : SeamRef) (a3 : Nat) (a4 : Nat) (a5 : Packet) : Operands.Statement (.seamData a0 a1 a2 a3 a4 a5) := by
  simp +contextual [Operands.Statement, Operands.dies, Instr.wf, RegAcc.wf, BufKey.wf, DrnRef.wf, CipHdr.wf, SeamRef.wf, ArbRes.wf, engAt, modAt, pageAt, tileAt, dieOk]
theorem Operands.seamDone (a0 : Nat) (a1 : Nat) (a2 : Packet) : Operands.Statement (.seamDone a0 a1 a2) := by
  simp +contextual [Operands.Statement, Operands.dies, Instr.wf, RegAcc.wf, BufKey.wf, DrnRef.wf, CipHdr.wf, SeamRef.wf, ArbRes.wf, engAt, modAt, pageAt, tileAt, dieOk]
theorem Operands.seamAbort (a0 : Nat) (a1 : Nat) (a2 : Nat) (a3 : Packet) : Operands.Statement (.seamAbort a0 a1 a2 a3) := by
  simp +contextual [Operands.Statement, Operands.dies, Instr.wf, RegAcc.wf, BufKey.wf, DrnRef.wf, CipHdr.wf, SeamRef.wf, ArbRes.wf, engAt, modAt, pageAt, tileAt, dieOk]
theorem Operands.seamRelease (a0 : Nat) (a1 : Nat) (a2 : SeamRef) : Operands.Statement (.seamRelease a0 a1 a2) := by
  simp +contextual [Operands.Statement, Operands.dies, Instr.wf, RegAcc.wf, BufKey.wf, DrnRef.wf, CipHdr.wf, SeamRef.wf, ArbRes.wf, engAt, modAt, pageAt, tileAt, dieOk]
theorem Operands.seamTimeout (a0 : Nat) (a1 : Nat) (a2 : Nat) : Operands.Statement (.seamTimeout a0 a1 a2) := by
  simp +contextual [Operands.Statement, Operands.dies, Instr.wf, RegAcc.wf, BufKey.wf, DrnRef.wf, CipHdr.wf, SeamRef.wf, ArbRes.wf, engAt, modAt, pageAt, tileAt, dieOk]
theorem Operands.seamResStall (a0 : Nat) (a1 : Nat) (a2 : Nat) (a3 : Nat) (a4 : Nat) : Operands.Statement (.seamResStall a0 a1 a2 a3 a4) := by
  simp +contextual [Operands.Statement, Operands.dies, Instr.wf, RegAcc.wf, BufKey.wf, DrnRef.wf, CipHdr.wf, SeamRef.wf, ArbRes.wf, engAt, modAt, pageAt, tileAt, dieOk]
theorem Operands.seamLinkLost (a0 : Nat) (a1 : Nat) (a2 : Nat) : Operands.Statement (.seamLinkLost a0 a1 a2) := by
  simp +contextual [Operands.Statement, Operands.dies, Instr.wf, RegAcc.wf, BufKey.wf, DrnRef.wf, CipHdr.wf, SeamRef.wf, ArbRes.wf, engAt, modAt, pageAt, tileAt, dieOk]
theorem Operands.seamAbortCmd (a0 : Master) (a1 : Nat) (a2 : Nat) (a3 : Word) : Operands.Statement (.seamAbortCmd a0 a1 a2 a3) := by
  simp +contextual [Operands.Statement, Operands.dies, Instr.wf, RegAcc.wf, BufKey.wf, DrnRef.wf, CipHdr.wf, SeamRef.wf, ArbRes.wf, engAt, modAt, pageAt, tileAt, dieOk]
theorem Operands.send (a0 : CipHdr) (a1 : DWord) (a2 : Nat) (a3 : List Byte) : Operands.Statement (.send a0 a1 a2 a3) := by
  simp +contextual [Operands.Statement, Operands.dies, Instr.wf, RegAcc.wf, BufKey.wf, DrnRef.wf, CipHdr.wf, SeamRef.wf, ArbRes.wf, engAt, modAt, pageAt, tileAt, dieOk]
theorem Operands.add (a0 : CipHdr) (a1 : DWord) (a2 : Nat) (a3 : Word) : Operands.Statement (.add a0 a1 a2 a3) := by
  simp +contextual [Operands.Statement, Operands.dies, Instr.wf, RegAcc.wf, BufKey.wf, DrnRef.wf, CipHdr.wf, SeamRef.wf, ArbRes.wf, engAt, modAt, pageAt, tileAt, dieOk]
theorem Operands.recv (a0 : CipHdr) (a1 : Nat) (a2 : Bool) : Operands.Statement (.recv a0 a1 a2) := by
  simp +contextual [Operands.Statement, Operands.dies, Instr.wf, RegAcc.wf, BufKey.wf, DrnRef.wf, CipHdr.wf, SeamRef.wf, ArbRes.wf, engAt, modAt, pageAt, tileAt, dieOk]
theorem Operands.ringWait (a0 : CipHdr) (a1 : Nat) : Operands.Statement (.ringWait a0 a1) := by
  simp +contextual [Operands.Statement, Operands.dies, Instr.wf, RegAcc.wf, BufKey.wf, DrnRef.wf, CipHdr.wf, SeamRef.wf, ArbRes.wf, engAt, modAt, pageAt, tileAt, dieOk]
theorem Operands.ringFree (a0 : CipHdr) (a1 : Nat) (a2 : DWord) : Operands.Statement (.ringFree a0 a1 a2) := by
  simp +contextual [Operands.Statement, Operands.dies, Instr.wf, RegAcc.wf, BufKey.wf, DrnRef.wf, CipHdr.wf, SeamRef.wf, ArbRes.wf, engAt, modAt, pageAt, tileAt, dieOk]
theorem Operands.bskArm (a0 : CipHdr) (a1 : Nat) (a2 : Nat) (a3 : Nat) (a4 : Nat) : Operands.Statement (.bskArm a0 a1 a2 a3 a4) := by
  simp +contextual [Operands.Statement, Operands.dies, Instr.wf, RegAcc.wf, BufKey.wf, DrnRef.wf, CipHdr.wf, SeamRef.wf, ArbRes.wf, engAt, modAt, pageAt, tileAt, dieOk]
theorem Operands.pegArmCmd (a0 : CipHdr) (a1 : DWord) (a2 : Word) (a3 : Bool) : Operands.Statement (.pegArmCmd a0 a1 a2 a3) := by
  simp +contextual [Operands.Statement, Operands.dies, Instr.wf, RegAcc.wf, BufKey.wf, DrnRef.wf, CipHdr.wf, SeamRef.wf, ArbRes.wf, engAt, modAt, pageAt, tileAt, dieOk]
theorem Operands.pegAddCmd (a0 : CipHdr) (a1 : DWord) (a2 : Word) : Operands.Statement (.pegAddCmd a0 a1 a2) := by
  simp +contextual [Operands.Statement, Operands.dies, Instr.wf, RegAcc.wf, BufKey.wf, DrnRef.wf, CipHdr.wf, SeamRef.wf, ArbRes.wf, engAt, modAt, pageAt, tileAt, dieOk]
theorem Operands.pegWaitCmd (a0 : CipHdr) (a1 : DWord) (a2 : Word) : Operands.Statement (.pegWaitCmd a0 a1 a2) := by
  simp +contextual [Operands.Statement, Operands.dies, Instr.wf, RegAcc.wf, BufKey.wf, DrnRef.wf, CipHdr.wf, SeamRef.wf, ArbRes.wf, engAt, modAt, pageAt, tileAt, dieOk]
theorem Operands.pegReadCmd (a0 : CipHdr) (a1 : DWord) : Operands.Statement (.pegReadCmd a0 a1) := by
  simp +contextual [Operands.Statement, Operands.dies, Instr.wf, RegAcc.wf, BufKey.wf, DrnRef.wf, CipHdr.wf, SeamRef.wf, ArbRes.wf, engAt, modAt, pageAt, tileAt, dieOk]
theorem Operands.dbWait (a0 : CipHdr) (a1 : Nat) (a2 : Word) : Operands.Statement (.dbWait a0 a1 a2) := by
  simp +contextual [Operands.Statement, Operands.dies, Instr.wf, RegAcc.wf, BufKey.wf, DrnRef.wf, CipHdr.wf, SeamRef.wf, ArbRes.wf, engAt, modAt, pageAt, tileAt, dieOk]
theorem Operands.deferRead (a0 : CipHdr) : Operands.Statement (.deferRead a0) := by
  simp +contextual [Operands.Statement, Operands.dies, Instr.wf, RegAcc.wf, BufKey.wf, DrnRef.wf, CipHdr.wf, SeamRef.wf, ArbRes.wf, engAt, modAt, pageAt, tileAt, dieOk]
theorem Operands.fetchRequest (a0 : CipHdr) (a1 : DWord) : Operands.Statement (.fetchRequest a0 a1) := by
  simp +contextual [Operands.Statement, Operands.dies, Instr.wf, RegAcc.wf, BufKey.wf, DrnRef.wf, CipHdr.wf, SeamRef.wf, ArbRes.wf, engAt, modAt, pageAt, tileAt, dieOk]
theorem Operands.copy (a0 : CipHdr) (a1 : List Byte) : Operands.Statement (.copy a0 a1) := by
  simp +contextual [Operands.Statement, Operands.dies, Instr.wf, RegAcc.wf, BufKey.wf, DrnRef.wf, CipHdr.wf, SeamRef.wf, ArbRes.wf, engAt, modAt, pageAt, tileAt, dieOk]
theorem Operands.multicast (a0 : CipHdr) (a1 : List Byte) : Operands.Statement (.multicast a0 a1) := by
  simp +contextual [Operands.Statement, Operands.dies, Instr.wf, RegAcc.wf, BufKey.wf, DrnRef.wf, CipHdr.wf, SeamRef.wf, ArbRes.wf, engAt, modAt, pageAt, tileAt, dieOk]
theorem Operands.ringSend (a0 : CipHdr) (a1 : List Byte) : Operands.Statement (.ringSend a0 a1) := by
  simp +contextual [Operands.Statement, Operands.dies, Instr.wf, RegAcc.wf, BufKey.wf, DrnRef.wf, CipHdr.wf, SeamRef.wf, ArbRes.wf, engAt, modAt, pageAt, tileAt, dieOk]
theorem Operands.logPut (a0 : CipHdr) (a1 : List Byte) : Operands.Statement (.logPut a0 a1) := by
  simp +contextual [Operands.Statement, Operands.dies, Instr.wf, RegAcc.wf, BufKey.wf, DrnRef.wf, CipHdr.wf, SeamRef.wf, ArbRes.wf, engAt, modAt, pageAt, tileAt, dieOk]
theorem Operands.patchRunPost (a0 : CipHdr) (a1 : List Byte) : Operands.Statement (.patchRunPost a0 a1) := by
  simp +contextual [Operands.Statement, Operands.dies, Instr.wf, RegAcc.wf, BufKey.wf, DrnRef.wf, CipHdr.wf, SeamRef.wf, ArbRes.wf, engAt, modAt, pageAt, tileAt, dieOk]
theorem Operands.seamOpenPost (a0 : CipHdr) (a1 : List Byte) : Operands.Statement (.seamOpenPost a0 a1) := by
  simp +contextual [Operands.Statement, Operands.dies, Instr.wf, RegAcc.wf, BufKey.wf, DrnRef.wf, CipHdr.wf, SeamRef.wf, ArbRes.wf, engAt, modAt, pageAt, tileAt, dieOk]
theorem Operands.msg (a0 : Nat) (a1 : Nat) (a2 : Packet) : Operands.Statement (.msg a0 a1 a2) := by
  simp +contextual [Operands.Statement, Operands.dies, Instr.wf, RegAcc.wf, BufKey.wf, DrnRef.wf, CipHdr.wf, SeamRef.wf, ArbRes.wf, engAt, modAt, pageAt, tileAt, dieOk]
theorem Operands.creditReq (a0 : Nat) (a1 : Nat) (a2 : Packet) : Operands.Statement (.creditReq a0 a1 a2) := by
  simp +contextual [Operands.Statement, Operands.dies, Instr.wf, RegAcc.wf, BufKey.wf, DrnRef.wf, CipHdr.wf, SeamRef.wf, ArbRes.wf, engAt, modAt, pageAt, tileAt, dieOk]
theorem Operands.creditGrant (a0 : Nat) (a1 : Nat) (a2 : Packet) : Operands.Statement (.creditGrant a0 a1 a2) := by
  simp +contextual [Operands.Statement, Operands.dies, Instr.wf, RegAcc.wf, BufKey.wf, DrnRef.wf, CipHdr.wf, SeamRef.wf, ArbRes.wf, engAt, modAt, pageAt, tileAt, dieOk]
theorem Operands.creditReturn (a0 : Nat) (a1 : Nat) (a2 : Packet) : Operands.Statement (.creditReturn a0 a1 a2) := by
  simp +contextual [Operands.Statement, Operands.dies, Instr.wf, RegAcc.wf, BufKey.wf, DrnRef.wf, CipHdr.wf, SeamRef.wf, ArbRes.wf, engAt, modAt, pageAt, tileAt, dieOk]
theorem Operands.ringReserve (a0 : Nat) (a1 : Nat) (a2 : Packet) : Operands.Statement (.ringReserve a0 a1 a2) := by
  simp +contextual [Operands.Statement, Operands.dies, Instr.wf, RegAcc.wf, BufKey.wf, DrnRef.wf, CipHdr.wf, SeamRef.wf, ArbRes.wf, engAt, modAt, pageAt, tileAt, dieOk]
theorem Operands.ringGrant (a0 : Nat) (a1 : Nat) (a2 : Packet) : Operands.Statement (.ringGrant a0 a1 a2) := by
  simp +contextual [Operands.Statement, Operands.dies, Instr.wf, RegAcc.wf, BufKey.wf, DrnRef.wf, CipHdr.wf, SeamRef.wf, ArbRes.wf, engAt, modAt, pageAt, tileAt, dieOk]
theorem Operands.ringCommit (a0 : Nat) (a1 : Nat) (a2 : Packet) : Operands.Statement (.ringCommit a0 a1 a2) := by
  simp +contextual [Operands.Statement, Operands.dies, Instr.wf, RegAcc.wf, BufKey.wf, DrnRef.wf, CipHdr.wf, SeamRef.wf, ArbRes.wf, engAt, modAt, pageAt, tileAt, dieOk]
theorem Operands.bskAdd (a0 : Nat) (a1 : Nat) (a2 : Packet) : Operands.Statement (.bskAdd a0 a1 a2) := by
  simp +contextual [Operands.Statement, Operands.dies, Instr.wf, RegAcc.wf, BufKey.wf, DrnRef.wf, CipHdr.wf, SeamRef.wf, ArbRes.wf, engAt, modAt, pageAt, tileAt, dieOk]
theorem Operands.bskDone (a0 : Nat) (a1 : Nat) (a2 : Packet) : Operands.Statement (.bskDone a0 a1 a2) := by
  simp +contextual [Operands.Statement, Operands.dies, Instr.wf, RegAcc.wf, BufKey.wf, DrnRef.wf, CipHdr.wf, SeamRef.wf, ArbRes.wf, engAt, modAt, pageAt, tileAt, dieOk]
theorem Operands.mcAck (a0 : Nat) (a1 : Nat) (a2 : Packet) : Operands.Statement (.mcAck a0 a1 a2) := by
  simp +contextual [Operands.Statement, Operands.dies, Instr.wf, RegAcc.wf, BufKey.wf, DrnRef.wf, CipHdr.wf, SeamRef.wf, ArbRes.wf, engAt, modAt, pageAt, tileAt, dieOk]
theorem Operands.dbInc (a0 : Nat) (a1 : Nat) (a2 : Packet) : Operands.Statement (.dbInc a0 a1 a2) := by
  simp +contextual [Operands.Statement, Operands.dies, Instr.wf, RegAcc.wf, BufKey.wf, DrnRef.wf, CipHdr.wf, SeamRef.wf, ArbRes.wf, engAt, modAt, pageAt, tileAt, dieOk]
theorem Operands.stallNote (a0 : Nat) (a1 : Nat) (a2 : Packet) : Operands.Statement (.stallNote a0 a1 a2) := by
  simp +contextual [Operands.Statement, Operands.dies, Instr.wf, RegAcc.wf, BufKey.wf, DrnRef.wf, CipHdr.wf, SeamRef.wf, ArbRes.wf, engAt, modAt, pageAt, tileAt, dieOk]
theorem Operands.pegArm (a0 : Nat) (a1 : Packet) : Operands.Statement (.pegArm a0 a1) := by
  simp +contextual [Operands.Statement, Operands.dies, Instr.wf, RegAcc.wf, BufKey.wf, DrnRef.wf, CipHdr.wf, SeamRef.wf, ArbRes.wf, engAt, modAt, pageAt, tileAt, dieOk]
theorem Operands.pegAdd (a0 : Nat) (a1 : Packet) : Operands.Statement (.pegAdd a0 a1) := by
  simp +contextual [Operands.Statement, Operands.dies, Instr.wf, RegAcc.wf, BufKey.wf, DrnRef.wf, CipHdr.wf, SeamRef.wf, ArbRes.wf, engAt, modAt, pageAt, tileAt, dieOk]
theorem Operands.pegWait (a0 : Nat) (a1 : Packet) : Operands.Statement (.pegWait a0 a1) := by
  simp +contextual [Operands.Statement, Operands.dies, Instr.wf, RegAcc.wf, BufKey.wf, DrnRef.wf, CipHdr.wf, SeamRef.wf, ArbRes.wf, engAt, modAt, pageAt, tileAt, dieOk]
theorem Operands.pegRead (a0 : Nat) (a1 : Packet) : Operands.Statement (.pegRead a0 a1) := by
  simp +contextual [Operands.Statement, Operands.dies, Instr.wf, RegAcc.wf, BufKey.wf, DrnRef.wf, CipHdr.wf, SeamRef.wf, ArbRes.wf, engAt, modAt, pageAt, tileAt, dieOk]
theorem Operands.pegDone (a0 : Nat) (a1 : Nat) (a2 : Packet) : Operands.Statement (.pegDone a0 a1 a2) := by
  simp +contextual [Operands.Statement, Operands.dies, Instr.wf, RegAcc.wf, BufKey.wf, DrnRef.wf, CipHdr.wf, SeamRef.wf, ArbRes.wf, engAt, modAt, pageAt, tileAt, dieOk]
theorem Operands.creditIdleReturn (a0 : Nat) (a1 : Nat) (a2 : Nat) : Operands.Statement (.creditIdleReturn a0 a1 a2) := by
  simp +contextual [Operands.Statement, Operands.dies, Instr.wf, RegAcc.wf, BufKey.wf, DrnRef.wf, CipHdr.wf, SeamRef.wf, ArbRes.wf, engAt, modAt, pageAt, tileAt, dieOk]
theorem Operands.creditStall (a0 : Nat) (a1 : Nat) (a2 : Nat) : Operands.Statement (.creditStall a0 a1 a2) := by
  simp +contextual [Operands.Statement, Operands.dies, Instr.wf, RegAcc.wf, BufKey.wf, DrnRef.wf, CipHdr.wf, SeamRef.wf, ArbRes.wf, engAt, modAt, pageAt, tileAt, dieOk]
theorem Operands.mcAckHoldExpiry (a0 : Nat) (a1 : Nat) (a2 : Nat) : Operands.Statement (.mcAckHoldExpiry a0 a1 a2) := by
  simp +contextual [Operands.Statement, Operands.dies, Instr.wf, RegAcc.wf, BufKey.wf, DrnRef.wf, CipHdr.wf, SeamRef.wf, ArbRes.wf, engAt, modAt, pageAt, tileAt, dieOk]
theorem Operands.mcAckWaitExpiry (a0 : Nat) (a1 : Nat) (a2 : Nat) : Operands.Statement (.mcAckWaitExpiry a0 a1 a2) := by
  simp +contextual [Operands.Statement, Operands.dies, Instr.wf, RegAcc.wf, BufKey.wf, DrnRef.wf, CipHdr.wf, SeamRef.wf, ArbRes.wf, engAt, modAt, pageAt, tileAt, dieOk]
theorem Operands.checkpointCmd (a0 : Master) (a1 : Nat) (a2 : Nat) (a3 : Word) : Operands.Statement (.checkpointCmd a0 a1 a2 a3) := by
  simp +contextual [Operands.Statement, Operands.dies, Instr.wf, RegAcc.wf, BufKey.wf, DrnRef.wf, CipHdr.wf, SeamRef.wf, ArbRes.wf, engAt, modAt, pageAt, tileAt, dieOk]
theorem Operands.tally0Read (a0 : RegAcc) : Operands.Statement (.tally0Read a0) := by
  simp +contextual [Operands.Statement, Operands.dies, Instr.wf, RegAcc.wf, BufKey.wf, DrnRef.wf, CipHdr.wf, SeamRef.wf, ArbRes.wf, engAt, modAt, pageAt, tileAt, dieOk]
theorem Operands.logRec (a0 : Nat) (a1 : List Byte) : Operands.Statement (.logRec a0 a1) := fun _ _ h => nomatch h
theorem Operands.datagramClose (a0 : Nat) : Operands.Statement (.datagramClose a0) := fun _ _ h => nomatch h
theorem Operands.gapRecord (a0 : Nat) (a1 : Nat) : Operands.Statement (.gapRecord a0 a1) := by
  simp +contextual [Operands.Statement, Operands.dies, Instr.wf, RegAcc.wf, BufKey.wf, DrnRef.wf, CipHdr.wf, SeamRef.wf, ArbRes.wf, engAt, modAt, pageAt, tileAt, dieOk]
theorem Operands.pairDelta (a0 : Packet) : Operands.Statement (.pairDelta a0) := fun _ _ h => nomatch h
theorem Operands.pairAck (a0 : Nat) (a1 : Packet) : Operands.Statement (.pairAck a0 a1) := fun _ _ h => nomatch h
theorem Operands.heldEventApply (a0 : Nat) : Operands.Statement (.heldEventApply a0) := fun _ _ h => nomatch h
theorem Operands.pairLagLimit (a0 : Nat) : Operands.Statement (.pairLagLimit a0) := fun _ _ h => nomatch h
theorem Operands.pairPrimaryLost : Operands.Statement (.pairPrimaryLost) := fun _ _ h => nomatch h
theorem Operands.pairMirrorLost : Operands.Statement (.pairMirrorLost) := fun _ _ h => nomatch h
theorem Operands.bridgeGroup (a0 : Nat) (a1 : Nat) (a2 : Nat) (a3 a4 a5 a6 : BridgeCycle) :
    Operands.Statement (.bridgeGroup a0 a1 a2 a3 a4 a5 a6) := by
  simp +contextual [Operands.Statement, Operands.dies, Instr.wf, RegAcc.wf, BufKey.wf, DrnRef.wf, CipHdr.wf, SeamRef.wf, ArbRes.wf, engAt, modAt, pageAt, tileAt, dieOk]
theorem Operands.course (a0 a1 : Nat) (a2 : Bool) (a3 : List (List Byte)) (a4 : Nat) : Operands.Statement (.course a0 a1 a2 a3 a4) := fun _ _ h => nomatch h
theorem Operands.ack (a0 : Nat) (a1 : Nat) (a2 : Nat) : Operands.Statement (.ack a0 a1 a2) := by
  simp +contextual [Operands.Statement, Operands.dies, Instr.wf, RegAcc.wf, BufKey.wf, DrnRef.wf, CipHdr.wf, SeamRef.wf, ArbRes.wf, engAt, modAt, pageAt, tileAt, dieOk]
theorem Operands.nak (a0 : Nat) (a1 : Nat) (a2 : Nat) (a3 : Bool) : Operands.Statement (.nak a0 a1 a2 a3) := by
  simp +contextual [Operands.Statement, Operands.dies, Instr.wf, RegAcc.wf, BufKey.wf, DrnRef.wf, CipHdr.wf, SeamRef.wf, ArbRes.wf, engAt, modAt, pageAt, tileAt, dieOk]
theorem Operands.faultIdle (a0 : Nat) (a1 : Nat) : Operands.Statement (.faultIdle a0 a1) := by
  simp +contextual [Operands.Statement, Operands.dies, Instr.wf, RegAcc.wf, BufKey.wf, DrnRef.wf, CipHdr.wf, SeamRef.wf, ArbRes.wf, engAt, modAt, pageAt, tileAt, dieOk]
theorem Operands.ident (a0 : Nat) (a1 : Nat) (a2 : Nat) (a3 : List Byte) : Operands.Statement (.ident a0 a1 a2 a3) := by
  simp +contextual [Operands.Statement, Operands.dies, Instr.wf, RegAcc.wf, BufKey.wf, DrnRef.wf, CipHdr.wf, SeamRef.wf, ArbRes.wf, engAt, modAt, pageAt, tileAt, dieOk]
theorem Operands.echo (a0 : Nat) (a1 : Nat) (a2 : Bool) (a3 : Word) : Operands.Statement (.echo a0 a1 a2 a3) := by
  simp +contextual [Operands.Statement, Operands.dies, Instr.wf, RegAcc.wf, BufKey.wf, DrnRef.wf, CipHdr.wf, SeamRef.wf, ArbRes.wf, engAt, modAt, pageAt, tileAt, dieOk]
theorem Operands.moduleTrainingDone (a0 : Nat) (a1 : Nat) (a2 : Nat) (a3 : TrainResult) : Operands.Statement (.moduleTrainingDone a0 a1 a2 a3) := by
  simp +contextual [Operands.Statement, Operands.dies, Instr.wf, RegAcc.wf, BufKey.wf, DrnRef.wf, CipHdr.wf, SeamRef.wf, ArbRes.wf, engAt, modAt, pageAt, tileAt, dieOk]
theorem Operands.dbrTrainFail (a0 : Nat) (a1 : Nat) (a2 : Nat) : Operands.Statement (.dbrTrainFail a0 a1 a2) := by
  simp +contextual [Operands.Statement, Operands.dies, Instr.wf, RegAcc.wf, BufKey.wf, DrnRef.wf, CipHdr.wf, SeamRef.wf, ArbRes.wf, engAt, modAt, pageAt, tileAt, dieOk]
theorem Operands.trainingRetry (a0 : Nat) (a1 : Nat) : Operands.Statement (.trainingRetry a0 a1) := by
  simp +contextual [Operands.Statement, Operands.dies, Instr.wf, RegAcc.wf, BufKey.wf, DrnRef.wf, CipHdr.wf, SeamRef.wf, ArbRes.wf, engAt, modAt, pageAt, tileAt, dieOk]
theorem Operands.sundiTrainingStepDone (a0 : Nat) (a1 : TrainResult) : Operands.Statement (.sundiTrainingStepDone a0 a1) := fun _ _ h => nomatch h
theorem Operands.lnkTrainFail (a0 : Nat) : Operands.Statement (.lnkTrainFail a0) := fun _ _ h => nomatch h
theorem Operands.linkLoss (a0 : Nat) (a1 : Nat) : Operands.Statement (.linkLoss a0 a1) := by
  simp +contextual [Operands.Statement, Operands.dies, Instr.wf, RegAcc.wf, BufKey.wf, DrnRef.wf, CipHdr.wf, SeamRef.wf, ArbRes.wf, engAt, modAt, pageAt, tileAt, dieOk]
theorem Operands.fecWindowEnd (a0 : Nat) (a1 : Nat) : Operands.Statement (.fecWindowEnd a0 a1) := fun _ _ h => nomatch h
theorem Operands.dbrRetrain (a0 : Master) (a1 : Nat) (a2 : Nat) (a3 : Word) : Operands.Statement (.dbrRetrain a0 a1 a2 a3) := by
  simp +contextual [Operands.Statement, Operands.dies, Instr.wf, RegAcc.wf, BufKey.wf, DrnRef.wf, CipHdr.wf, SeamRef.wf, ArbRes.wf, engAt, modAt, pageAt, tileAt, dieOk]
theorem Operands.lnkRetrain (a0 : Master) (a1 : Nat) (a2 : Nat) (a3 : Word) : Operands.Statement (.lnkRetrain a0 a1 a2 a3) := by
  simp +contextual [Operands.Statement, Operands.dies, Instr.wf, RegAcc.wf, BufKey.wf, DrnRef.wf, CipHdr.wf, SeamRef.wf, ArbRes.wf, engAt, modAt, pageAt, tileAt, dieOk]
theorem Operands.stoLinkDown (a0 : Nat) : Operands.Statement (.stoLinkDown a0) := fun _ _ h => nomatch h
theorem Operands.storageFrameReceived (a0 : Nat) : Operands.Statement (.storageFrameReceived a0) := fun _ _ h => nomatch h
theorem Operands.mrd (a0 : Nat) (a1 : Tlp) : Operands.Statement (.mrd a0 a1) := fun _ _ h => nomatch h
theorem Operands.mwr (a0 : Nat) (a1 : Tlp) : Operands.Statement (.mwr a0 a1) := fun _ _ h => nomatch h
theorem Operands.hstLinkDown (a0 : Nat) : Operands.Statement (.hstLinkDown a0) := fun _ _ h => nomatch h
theorem Operands.hstFlr (a0 : Nat) : Operands.Statement (.hstFlr a0) := fun _ _ h => nomatch h
theorem Operands.hstHotReset (a0 : Nat) : Operands.Statement (.hstHotReset a0) := fun _ _ h => nomatch h
theorem Operands.optModuleDetect (a0 : Nat) (a1 : Nat) (a2 : List Byte) : Operands.Statement (.optModuleDetect a0 a1 a2) := by
  simp +contextual [Operands.Statement, Operands.dies, Instr.wf, RegAcc.wf, BufKey.wf, DrnRef.wf, CipHdr.wf, SeamRef.wf, ArbRes.wf, engAt, modAt, pageAt, tileAt, dieOk]
theorem Operands.optRescan (a0 : Master) (a1 : Nat) (a2 : Nat) (a3 : Word) : Operands.Statement (.optRescan a0 a1 a2 a3) := by
  simp +contextual [Operands.Statement, Operands.dies, Instr.wf, RegAcc.wf, BufKey.wf, DrnRef.wf, CipHdr.wf, SeamRef.wf, ArbRes.wf, engAt, modAt, pageAt, tileAt, dieOk]
theorem Operands.laserHourTick (a0 : Nat) (a1 : Nat) : Operands.Statement (.laserHourTick a0 a1) := by
  simp +contextual [Operands.Statement, Operands.dies, Instr.wf, RegAcc.wf, BufKey.wf, DrnRef.wf, CipHdr.wf, SeamRef.wf, ArbRes.wf, engAt, modAt, pageAt, tileAt, dieOk]
theorem Operands.powerSample (a0 : Nat) (a1 : Nat) (a2 : Bool) (a3 : Nat) (a4 : Nat) : Operands.Statement (.powerSample a0 a1 a2 a3 a4) := by
  simp +contextual [Operands.Statement, Operands.dies, Instr.wf, RegAcc.wf, BufKey.wf, DrnRef.wf, CipHdr.wf, SeamRef.wf, ArbRes.wf, engAt, modAt, pageAt, tileAt, dieOk]
theorem Operands.faultRecordDie (a0 : Nat) (a1 : Bool) : Operands.Statement (.faultRecordDie a0 a1) := by
  simp +contextual [Operands.Statement, Operands.dies, Instr.wf, RegAcc.wf, BufKey.wf, DrnRef.wf, CipHdr.wf, SeamRef.wf, ArbRes.wf, engAt, modAt, pageAt, tileAt, dieOk]
theorem Operands.faultRecordRoot : Operands.Statement (.faultRecordRoot) := fun _ _ h => nomatch h
theorem Operands.errNPulseEnd : Operands.Statement (.errNPulseEnd) := fun _ _ h => nomatch h
theorem Operands.errCtrlWrite (a0 : Master) (a1 : Word) : Operands.Statement (.errCtrlWrite a0 a1) := fun _ _ h => nomatch h
theorem Operands.routerPoll (a0 : Nat) (a1 : Nat) : Operands.Statement (.routerPoll a0 a1) := by
  simp +contextual [Operands.Statement, Operands.dies, Instr.wf, RegAcc.wf, BufKey.wf, DrnRef.wf, CipHdr.wf, SeamRef.wf, ArbRes.wf, engAt, modAt, pageAt, tileAt, dieOk]
theorem Operands.quiesceResetPhase : Operands.Statement (.quiesceResetPhase) := fun _ _ h => nomatch h
theorem Operands.quiesceLimit : Operands.Statement (.quiesceLimit) := fun _ _ h => nomatch h
theorem Operands.quiesceReturn : Operands.Statement (.quiesceReturn) := fun _ _ h => nomatch h
theorem Operands.fabricReset (a0 : Master) : Operands.Statement (.fabricReset a0) := fun _ _ h => nomatch h
theorem Operands.dieReset (a0 : Master) (a1 : Nat) : Operands.Statement (.dieReset a0 a1) := by
  simp +contextual [Operands.Statement, Operands.dies, Instr.wf, RegAcc.wf, BufKey.wf, DrnRef.wf, CipHdr.wf, SeamRef.wf, ArbRes.wf, engAt, modAt, pageAt, tileAt, dieOk]
theorem Operands.tileReset (a0 : Master) (a1 : Nat) (a2 : Nat) : Operands.Statement (.tileReset a0 a1 a2) := by
  simp +contextual [Operands.Statement, Operands.dies, Instr.wf, RegAcc.wf, BufKey.wf, DrnRef.wf, CipHdr.wf, SeamRef.wf, ArbRes.wf, engAt, modAt, pageAt, tileAt, dieOk]
theorem Operands.portReset (a0 : Master) (a1 : Nat) (a2 : Nat) : Operands.Statement (.portReset a0 a1 a2) := by
  simp +contextual [Operands.Statement, Operands.dies, Instr.wf, RegAcc.wf, BufKey.wf, DrnRef.wf, CipHdr.wf, SeamRef.wf, ArbRes.wf, engAt, modAt, pageAt, tileAt, dieOk]
theorem Operands.contextActivate (a0 : Master) (a1 : Nat) : Operands.Statement (.contextActivate a0 a1) := fun _ _ h => nomatch h
theorem Operands.contextDeactivate (a0 : Master) (a1 : Nat) : Operands.Statement (.contextDeactivate a0 a1) := fun _ _ h => nomatch h
theorem Operands.contextResetRequest (a0 : Master) (a1 : Nat) : Operands.Statement (.contextResetRequest a0 a1) := fun _ _ h => nomatch h
theorem Operands.lp2Enter (a0 : Master) : Operands.Statement (.lp2Enter a0) := fun _ _ h => nomatch h
theorem Operands.lp3Enter (a0 : Master) : Operands.Statement (.lp3Enter a0) := fun _ _ h => nomatch h
theorem Operands.lpExit (a0 : Master) : Operands.Statement (.lpExit a0) := fun _ _ h => nomatch h
theorem Operands.lp1ReqWrite (a0 : Master) (a1 : Nat) (a2 : Word) : Operands.Statement (.lp1ReqWrite a0 a1 a2) := fun _ _ h => nomatch h
theorem Operands.clWake (a0 : Nat) (a1 : Nat) : Operands.Statement (.clWake a0 a1) := by
  simp +contextual [Operands.Statement, Operands.dies, Instr.wf, RegAcc.wf, BufKey.wf, DrnRef.wf, CipHdr.wf, SeamRef.wf, ArbRes.wf, engAt, modAt, pageAt, tileAt, dieOk]
theorem Operands.por (a0 : BitVec 16) (a1 : Bool) (a2 : List (Nat × Nat)) (a3 : List Nat) : Operands.Statement (.por a0 a1 a2 a3) := fun _ _ h => nomatch h
theorem Operands.porNLow : Operands.Statement (.porNLow) := fun _ _ h => nomatch h
theorem Operands.fmcStart (a0 : Bool) (a1 : Bool) : Operands.Statement (.fmcStart a0 a1) := fun _ _ h => nomatch h
theorem Operands.rollbackWrite (a0 : Master) (a1 : Word) : Operands.Statement (.rollbackWrite a0 a1) := fun _ _ h => nomatch h
theorem Operands.areaDataRead (a0 : Master) : Operands.Statement (.areaDataRead a0) := fun _ _ h => nomatch h
theorem Operands.areaDataWrite (a0 : Master) (a1 : Word) : Operands.Statement (.areaDataWrite a0 a1) := fun _ _ h => nomatch h
theorem Operands.regRead (a0 : SvcSrc) (a1 : DWord) : Operands.Statement (.regRead a0 a1) := fun _ _ h => nomatch h
theorem Operands.regWrite (a0 : SvcSrc) (a1 : DWord) (a2 : Word) : Operands.Statement (.regWrite a0 a1 a2) := fun _ _ h => nomatch h
theorem Operands.stageWrite (a0 : SvcSrc) (a1 : Nat) (a2 : List Byte) : Operands.Statement (.stageWrite a0 a1 a2) := fun _ _ h => nomatch h
theorem Operands.stageRead (a0 : SvcSrc) (a1 : Nat) (a2 : Nat) : Operands.Statement (.stageRead a0 a1 a2) := fun _ _ h => nomatch h
theorem Operands.ping (a0 : SvcSrc) (a1 : List Byte) : Operands.Statement (.ping a0 a1) := fun _ _ h => nomatch h
theorem Operands.sidebandWrite (a0 : Nat) (a1 : List Byte) : Operands.Statement (.sidebandWrite a0 a1) := fun _ _ h => nomatch h
theorem Operands.svcCommit : Operands.Statement (.svcCommit) := fun _ _ h => nomatch h
theorem Operands.fwCheck (a0 : Master) : Operands.Statement (.fwCheck a0) := fun _ _ h => nomatch h
theorem Operands.fwCheckDone : Operands.Statement (.fwCheckDone) := fun _ _ h => nomatch h
theorem Operands.fwProgram (a0 : Master) : Operands.Statement (.fwProgram a0) := fun _ _ h => nomatch h
theorem Operands.fwProgramDone (a0 : Bool) : Operands.Statement (.fwProgramDone a0) := fun _ _ h => nomatch h
theorem Operands.fwActivate (a0 : Master) : Operands.Statement (.fwActivate a0) := fun _ _ h => nomatch h
theorem Operands.fwCancel (a0 : Master) : Operands.Statement (.fwCancel a0) := fun _ _ h => nomatch h
theorem Operands.fwBind (a0 : Master) : Operands.Statement (.fwBind a0) := fun _ _ h => nomatch h
theorem Operands.activationLoadDone : Operands.Statement (.activationLoadDone) := fun _ _ h => nomatch h
theorem Operands.activationLoadTimeout : Operands.Statement (.activationLoadTimeout) := fun _ _ h => nomatch h
theorem Operands.pauseEnd : Operands.Statement (.pauseEnd) := fun _ _ h => nomatch h
theorem Operands.bypass (a0 : Nat) (a1 : Bool) : Operands.Statement (.bypass a0 a1) := by
  simp +contextual [Operands.Statement, Operands.dies, Instr.wf, RegAcc.wf, BufKey.wf, DrnRef.wf, CipHdr.wf, SeamRef.wf, ArbRes.wf, engAt, modAt, pageAt, tileAt, dieOk]
theorem Operands.idcode (a0 : Nat) : Operands.Statement (.idcode a0) := by
  simp +contextual [Operands.Statement, Operands.dies, Instr.wf, RegAcc.wf, BufKey.wf, DrnRef.wf, CipHdr.wf, SeamRef.wf, ArbRes.wf, engAt, modAt, pageAt, tileAt, dieOk]
theorem Operands.samplePreload (a0 : Nat) : Operands.Statement (.samplePreload a0) := by
  simp +contextual [Operands.Statement, Operands.dies, Instr.wf, RegAcc.wf, BufKey.wf, DrnRef.wf, CipHdr.wf, SeamRef.wf, ArbRes.wf, engAt, modAt, pageAt, tileAt, dieOk]
theorem Operands.extest (a0 : Nat) : Operands.Statement (.extest a0) := by
  simp +contextual [Operands.Statement, Operands.dies, Instr.wf, RegAcc.wf, BufKey.wf, DrnRef.wf, CipHdr.wf, SeamRef.wf, ArbRes.wf, engAt, modAt, pageAt, tileAt, dieOk]
theorem Operands.referenceEdgesResumed (a0 : Nat) : Operands.Statement (.referenceEdgesResumed a0) := by
  simp +contextual [Operands.Statement, Operands.dies, Instr.wf, RegAcc.wf, BufKey.wf, DrnRef.wf, CipHdr.wf, SeamRef.wf, ArbRes.wf, engAt, modAt, pageAt, tileAt, dieOk]
theorem Operands.brownOut : Operands.Statement (.brownOut) := fun _ _ h => nomatch h
theorem Operands.fabricSupplyLoss : Operands.Statement (.fabricSupplyLoss) := fun _ _ h => nomatch h
theorem Operands.stoPcsLinkUp (a0 : Nat) : Operands.Statement (.stoPcsLinkUp a0) := fun _ _ h => nomatch h
theorem Operands.unsupportedTlp (a0 : Nat) (a1 : Nat) (a2 : Bool) : Operands.Statement (.unsupportedTlp a0 a1 a2) := fun _ _ h => nomatch h
theorem Operands.serviceDatagramRejected (a0 : SvcSrc) (a1 : List Byte) : Operands.Statement (.serviceDatagramRejected a0 a1) := fun _ _ h => nomatch h
theorem Operands.cmRequestIssue (a0 : Nat) (a1 : Nat) : Operands.Statement (.cmRequestIssue a0 a1) := by
  simp +contextual [Operands.Statement, Operands.dies, Instr.wf, RegAcc.wf, BufKey.wf, DrnRef.wf, CipHdr.wf, SeamRef.wf, ArbRes.wf, engAt, modAt, pageAt, tileAt, dieOk]

end Sys2Proof.Laws
end

