-- ==== Sys2Proof/Laws/State.lean ====
section
/-! SUPPORT. The fields of State after each primitive change: one lemma a field, true by rfl; then what the accessors read after a
change. -/
namespace Sys2Proof.Machine

/-! ### emit -/

@[simp] theorem emit_tm (o : Output) (s : State) : (emit o s).tm = s.tm := rfl
@[simp] theorem emit_rg (o : Output) (s : State) : (emit o s).rg = s.rg := rfl
@[simp] theorem emit_nt (o : Output) (s : State) : (emit o s).nt = s.nt := rfl
@[simp] theorem emit_pl (o : Output) (s : State) : (emit o s).pl = s.pl := rfl
@[simp] theorem emit_mp (o : Output) (s : State) : (emit o s).mp = s.mp := rfl
@[simp] theorem emit_dr (o : Output) (s : State) : (emit o s).dr = s.dr := rfl
@[simp] theorem emit_se (o : Output) (s : State) : (emit o s).se = s.se := rfl
@[simp] theorem emit_ci (o : Output) (s : State) : (emit o s).ci = s.ci := rfl
@[simp] theorem emit_bk (o : Output) (s : State) : (emit o s).bk = s.bk := rfl
@[simp] theorem emit_pg (o : Output) (s : State) : (emit o s).pg = s.pg := rfl
@[simp] theorem emit_ty (o : Output) (s : State) : (emit o s).ty = s.ty := rfl
@[simp] theorem emit_pr (o : Output) (s : State) : (emit o s).pr = s.pr := rfl
@[simp] theorem emit_lk (o : Output) (s : State) : (emit o s).lk = s.lk := rfl
@[simp] theorem emit_hs (o : Output) (s : State) : (emit o s).hs = s.hs := rfl
@[simp] theorem emit_op (o : Output) (s : State) : (emit o s).op = s.op := rfl
@[simp] theorem emit_ft (o : Output) (s : State) : (emit o s).ft = s.ft := rfl
@[simp] theorem emit_kp (o : Output) (s : State) : (emit o s).kp = s.kp := rfl
@[simp] theorem emit_rs (o : Output) (s : State) : (emit o s).rs = s.rs := rfl
@[simp] theorem emit_fw (o : Output) (s : State) : (emit o s).fw = s.fw := rfl
@[simp] theorem emit_sv (o : Output) (s : State) : (emit o s).sv = s.sv := rfl
@[simp] theorem emit_ram (o : Output) (s : State) : (emit o s).ram = s.ram := rfl
@[simp] theorem emit_jt (o : Output) (s : State) : (emit o s).jt = s.jt := rfl
@[simp] theorem emit_fresh (o : Output) (s : State) : (emit o s).fresh = s.fresh := rfl
@[simp] theorem emit_pending (o : Output) (s : State) : (emit o s).pending = s.pending := rfl

/-! ### freshen -/

@[simp] theorem freshen_tm (s : State) : (freshen s).tm = s.tm := rfl
@[simp] theorem freshen_rg (s : State) : (freshen s).rg = s.rg := rfl
@[simp] theorem freshen_nt (s : State) : (freshen s).nt = s.nt := rfl
@[simp] theorem freshen_pl (s : State) : (freshen s).pl = s.pl := rfl
@[simp] theorem freshen_mp (s : State) : (freshen s).mp = s.mp := rfl
@[simp] theorem freshen_dr (s : State) : (freshen s).dr = s.dr := rfl
@[simp] theorem freshen_se (s : State) : (freshen s).se = s.se := rfl
@[simp] theorem freshen_ci (s : State) : (freshen s).ci = s.ci := rfl
@[simp] theorem freshen_bk (s : State) : (freshen s).bk = s.bk := rfl
@[simp] theorem freshen_pg (s : State) : (freshen s).pg = s.pg := rfl
@[simp] theorem freshen_ty (s : State) : (freshen s).ty = s.ty := rfl
@[simp] theorem freshen_pr (s : State) : (freshen s).pr = s.pr := rfl
@[simp] theorem freshen_lk (s : State) : (freshen s).lk = s.lk := rfl
@[simp] theorem freshen_hs (s : State) : (freshen s).hs = s.hs := rfl
@[simp] theorem freshen_op (s : State) : (freshen s).op = s.op := rfl
@[simp] theorem freshen_ft (s : State) : (freshen s).ft = s.ft := rfl
@[simp] theorem freshen_kp (s : State) : (freshen s).kp = s.kp := rfl
@[simp] theorem freshen_rs (s : State) : (freshen s).rs = s.rs := rfl
@[simp] theorem freshen_fw (s : State) : (freshen s).fw = s.fw := rfl
@[simp] theorem freshen_sv (s : State) : (freshen s).sv = s.sv := rfl
@[simp] theorem freshen_ram (s : State) : (freshen s).ram = s.ram := rfl
@[simp] theorem freshen_jt (s : State) : (freshen s).jt = s.jt := rfl
@[simp] theorem freshen_out (s : State) : (freshen s).out = s.out := rfl
@[simp] theorem freshen_pending (s : State) : (freshen s).pending = s.pending := rfl

/-! ### setReg -/

@[simp] theorem setReg_tm (die page off sel : Nat) (v : Word) (s : State) : (setReg die page off sel v s).tm = s.tm := rfl
@[simp] theorem setReg_nt (die page off sel : Nat) (v : Word) (s : State) : (setReg die page off sel v s).nt = s.nt := rfl
@[simp] theorem setReg_pl (die page off sel : Nat) (v : Word) (s : State) : (setReg die page off sel v s).pl = s.pl := rfl
@[simp] theorem setReg_mp (die page off sel : Nat) (v : Word) (s : State) : (setReg die page off sel v s).mp = s.mp := rfl
@[simp] theorem setReg_dr (die page off sel : Nat) (v : Word) (s : State) : (setReg die page off sel v s).dr = s.dr := rfl
@[simp] theorem setReg_se (die page off sel : Nat) (v : Word) (s : State) : (setReg die page off sel v s).se = s.se := rfl
@[simp] theorem setReg_ci (die page off sel : Nat) (v : Word) (s : State) : (setReg die page off sel v s).ci = s.ci := rfl
@[simp] theorem setReg_bk (die page off sel : Nat) (v : Word) (s : State) : (setReg die page off sel v s).bk = s.bk := rfl
@[simp] theorem setReg_pg (die page off sel : Nat) (v : Word) (s : State) : (setReg die page off sel v s).pg = s.pg := rfl
@[simp] theorem setReg_ty (die page off sel : Nat) (v : Word) (s : State) : (setReg die page off sel v s).ty = s.ty := rfl
@[simp] theorem setReg_pr (die page off sel : Nat) (v : Word) (s : State) : (setReg die page off sel v s).pr = s.pr := rfl
@[simp] theorem setReg_lk (die page off sel : Nat) (v : Word) (s : State) : (setReg die page off sel v s).lk = s.lk := rfl
@[simp] theorem setReg_hs (die page off sel : Nat) (v : Word) (s : State) : (setReg die page off sel v s).hs = s.hs := rfl
@[simp] theorem setReg_op (die page off sel : Nat) (v : Word) (s : State) : (setReg die page off sel v s).op = s.op := rfl
@[simp] theorem setReg_ft (die page off sel : Nat) (v : Word) (s : State) : (setReg die page off sel v s).ft = s.ft := rfl
@[simp] theorem setReg_kp (die page off sel : Nat) (v : Word) (s : State) : (setReg die page off sel v s).kp = s.kp := rfl
@[simp] theorem setReg_rs (die page off sel : Nat) (v : Word) (s : State) : (setReg die page off sel v s).rs = s.rs := rfl
@[simp] theorem setReg_fw (die page off sel : Nat) (v : Word) (s : State) : (setReg die page off sel v s).fw = s.fw := rfl
@[simp] theorem setReg_sv (die page off sel : Nat) (v : Word) (s : State) : (setReg die page off sel v s).sv = s.sv := rfl
@[simp] theorem setReg_ram (die page off sel : Nat) (v : Word) (s : State) : (setReg die page off sel v s).ram = s.ram := rfl
@[simp] theorem setReg_jt (die page off sel : Nat) (v : Word) (s : State) : (setReg die page off sel v s).jt = s.jt := rfl
@[simp] theorem setReg_out (die page off sel : Nat) (v : Word) (s : State) : (setReg die page off sel v s).out = s.out := rfl
@[simp] theorem setReg_fresh (die page off sel : Nat) (v : Word) (s : State) : (setReg die page off sel v s).fresh = s.fresh := rfl
@[simp] theorem setReg_pending (die page off sel : Nat) (v : Word) (s : State) : (setReg die page off sel v s).pending = s.pending := rfl

/-! ### setShadow -/

@[simp] theorem setShadow_tm (die page off sel : Nat) (v : Word) (s : State) : (setShadow die page off sel v s).tm = s.tm := rfl
@[simp] theorem setShadow_nt (die page off sel : Nat) (v : Word) (s : State) : (setShadow die page off sel v s).nt = s.nt := rfl
@[simp] theorem setShadow_pl (die page off sel : Nat) (v : Word) (s : State) : (setShadow die page off sel v s).pl = s.pl := rfl
@[simp] theorem setShadow_mp (die page off sel : Nat) (v : Word) (s : State) : (setShadow die page off sel v s).mp = s.mp := rfl
@[simp] theorem setShadow_dr (die page off sel : Nat) (v : Word) (s : State) : (setShadow die page off sel v s).dr = s.dr := rfl
@[simp] theorem setShadow_se (die page off sel : Nat) (v : Word) (s : State) : (setShadow die page off sel v s).se = s.se := rfl
@[simp] theorem setShadow_ci (die page off sel : Nat) (v : Word) (s : State) : (setShadow die page off sel v s).ci = s.ci := rfl
@[simp] theorem setShadow_bk (die page off sel : Nat) (v : Word) (s : State) : (setShadow die page off sel v s).bk = s.bk := rfl
@[simp] theorem setShadow_pg (die page off sel : Nat) (v : Word) (s : State) : (setShadow die page off sel v s).pg = s.pg := rfl
@[simp] theorem setShadow_ty (die page off sel : Nat) (v : Word) (s : State) : (setShadow die page off sel v s).ty = s.ty := rfl
@[simp] theorem setShadow_pr (die page off sel : Nat) (v : Word) (s : State) : (setShadow die page off sel v s).pr = s.pr := rfl
@[simp] theorem setShadow_lk (die page off sel : Nat) (v : Word) (s : State) : (setShadow die page off sel v s).lk = s.lk := rfl
@[simp] theorem setShadow_hs (die page off sel : Nat) (v : Word) (s : State) : (setShadow die page off sel v s).hs = s.hs := rfl
@[simp] theorem setShadow_op (die page off sel : Nat) (v : Word) (s : State) : (setShadow die page off sel v s).op = s.op := rfl
@[simp] theorem setShadow_ft (die page off sel : Nat) (v : Word) (s : State) : (setShadow die page off sel v s).ft = s.ft := rfl
@[simp] theorem setShadow_kp (die page off sel : Nat) (v : Word) (s : State) : (setShadow die page off sel v s).kp = s.kp := rfl
@[simp] theorem setShadow_rs (die page off sel : Nat) (v : Word) (s : State) : (setShadow die page off sel v s).rs = s.rs := rfl
@[simp] theorem setShadow_fw (die page off sel : Nat) (v : Word) (s : State) : (setShadow die page off sel v s).fw = s.fw := rfl
@[simp] theorem setShadow_sv (die page off sel : Nat) (v : Word) (s : State) : (setShadow die page off sel v s).sv = s.sv := rfl
@[simp] theorem setShadow_ram (die page off sel : Nat) (v : Word) (s : State) : (setShadow die page off sel v s).ram = s.ram := rfl
@[simp] theorem setShadow_jt (die page off sel : Nat) (v : Word) (s : State) : (setShadow die page off sel v s).jt = s.jt := rfl
@[simp] theorem setShadow_out (die page off sel : Nat) (v : Word) (s : State) : (setShadow die page off sel v s).out = s.out := rfl
@[simp] theorem setShadow_fresh (die page off sel : Nat) (v : Word) (s : State) : (setShadow die page off sel v s).fresh = s.fresh := rfl
@[simp] theorem setShadow_pending (die page off sel : Nat) (v : Word) (s : State) : (setShadow die page off sel v s).pending = s.pending := rfl

/-! ### modPage -/

@[simp] theorem modPage_tm (die page : Nat) (f : Page → Page) (s : State) : (modPage die page f s).tm = s.tm := rfl
@[simp] theorem modPage_nt (die page : Nat) (f : Page → Page) (s : State) : (modPage die page f s).nt = s.nt := rfl
@[simp] theorem modPage_pl (die page : Nat) (f : Page → Page) (s : State) : (modPage die page f s).pl = s.pl := rfl
@[simp] theorem modPage_mp (die page : Nat) (f : Page → Page) (s : State) : (modPage die page f s).mp = s.mp := rfl
@[simp] theorem modPage_dr (die page : Nat) (f : Page → Page) (s : State) : (modPage die page f s).dr = s.dr := rfl
@[simp] theorem modPage_se (die page : Nat) (f : Page → Page) (s : State) : (modPage die page f s).se = s.se := rfl
@[simp] theorem modPage_ci (die page : Nat) (f : Page → Page) (s : State) : (modPage die page f s).ci = s.ci := rfl
@[simp] theorem modPage_bk (die page : Nat) (f : Page → Page) (s : State) : (modPage die page f s).bk = s.bk := rfl
@[simp] theorem modPage_pg (die page : Nat) (f : Page → Page) (s : State) : (modPage die page f s).pg = s.pg := rfl
@[simp] theorem modPage_ty (die page : Nat) (f : Page → Page) (s : State) : (modPage die page f s).ty = s.ty := rfl
@[simp] theorem modPage_pr (die page : Nat) (f : Page → Page) (s : State) : (modPage die page f s).pr = s.pr := rfl
@[simp] theorem modPage_lk (die page : Nat) (f : Page → Page) (s : State) : (modPage die page f s).lk = s.lk := rfl
@[simp] theorem modPage_hs (die page : Nat) (f : Page → Page) (s : State) : (modPage die page f s).hs = s.hs := rfl
@[simp] theorem modPage_op (die page : Nat) (f : Page → Page) (s : State) : (modPage die page f s).op = s.op := rfl
@[simp] theorem modPage_ft (die page : Nat) (f : Page → Page) (s : State) : (modPage die page f s).ft = s.ft := rfl
@[simp] theorem modPage_kp (die page : Nat) (f : Page → Page) (s : State) : (modPage die page f s).kp = s.kp := rfl
@[simp] theorem modPage_rs (die page : Nat) (f : Page → Page) (s : State) : (modPage die page f s).rs = s.rs := rfl
@[simp] theorem modPage_fw (die page : Nat) (f : Page → Page) (s : State) : (modPage die page f s).fw = s.fw := rfl
@[simp] theorem modPage_sv (die page : Nat) (f : Page → Page) (s : State) : (modPage die page f s).sv = s.sv := rfl
@[simp] theorem modPage_ram (die page : Nat) (f : Page → Page) (s : State) : (modPage die page f s).ram = s.ram := rfl
@[simp] theorem modPage_jt (die page : Nat) (f : Page → Page) (s : State) : (modPage die page f s).jt = s.jt := rfl
@[simp] theorem modPage_out (die page : Nat) (f : Page → Page) (s : State) : (modPage die page f s).out = s.out := rfl
@[simp] theorem modPage_fresh (die page : Nat) (f : Page → Page) (s : State) : (modPage die page f s).fresh = s.fresh := rfl
@[simp] theorem modPage_pending (die page : Nat) (f : Page → Page) (s : State) : (modPage die page f s).pending = s.pending := rfl

/-! ### badWrite -/

@[simp] theorem badWrite_tm (die page : Nat) (s : State) : (badWrite die page s).tm = s.tm := rfl
@[simp] theorem badWrite_nt (die page : Nat) (s : State) : (badWrite die page s).nt = s.nt := rfl
@[simp] theorem badWrite_pl (die page : Nat) (s : State) : (badWrite die page s).pl = s.pl := rfl
@[simp] theorem badWrite_mp (die page : Nat) (s : State) : (badWrite die page s).mp = s.mp := rfl
@[simp] theorem badWrite_dr (die page : Nat) (s : State) : (badWrite die page s).dr = s.dr := rfl
@[simp] theorem badWrite_se (die page : Nat) (s : State) : (badWrite die page s).se = s.se := rfl
@[simp] theorem badWrite_ci (die page : Nat) (s : State) : (badWrite die page s).ci = s.ci := rfl
@[simp] theorem badWrite_bk (die page : Nat) (s : State) : (badWrite die page s).bk = s.bk := rfl
@[simp] theorem badWrite_pg (die page : Nat) (s : State) : (badWrite die page s).pg = s.pg := rfl
@[simp] theorem badWrite_ty (die page : Nat) (s : State) : (badWrite die page s).ty = s.ty := rfl
@[simp] theorem badWrite_pr (die page : Nat) (s : State) : (badWrite die page s).pr = s.pr := rfl
@[simp] theorem badWrite_lk (die page : Nat) (s : State) : (badWrite die page s).lk = s.lk := rfl
@[simp] theorem badWrite_hs (die page : Nat) (s : State) : (badWrite die page s).hs = s.hs := rfl
@[simp] theorem badWrite_op (die page : Nat) (s : State) : (badWrite die page s).op = s.op := rfl
@[simp] theorem badWrite_ft (die page : Nat) (s : State) : (badWrite die page s).ft = s.ft := rfl
@[simp] theorem badWrite_kp (die page : Nat) (s : State) : (badWrite die page s).kp = s.kp := rfl
@[simp] theorem badWrite_rs (die page : Nat) (s : State) : (badWrite die page s).rs = s.rs := rfl
@[simp] theorem badWrite_fw (die page : Nat) (s : State) : (badWrite die page s).fw = s.fw := rfl
@[simp] theorem badWrite_sv (die page : Nat) (s : State) : (badWrite die page s).sv = s.sv := rfl
@[simp] theorem badWrite_ram (die page : Nat) (s : State) : (badWrite die page s).ram = s.ram := rfl
@[simp] theorem badWrite_jt (die page : Nat) (s : State) : (badWrite die page s).jt = s.jt := rfl
@[simp] theorem badWrite_out (die page : Nat) (s : State) : (badWrite die page s).out = s.out := rfl
@[simp] theorem badWrite_fresh (die page : Nat) (s : State) : (badWrite die page s).fresh = s.fresh := rfl
@[simp] theorem badWrite_pending (die page : Nat) (s : State) : (badWrite die page s).pending = s.pending := rfl

/-! ### addCount -/

@[simp] theorem addCount_tm (die page sel n : Nat) (s : State) : (addCount die page sel n s).tm = s.tm := rfl
@[simp] theorem addCount_nt (die page sel n : Nat) (s : State) : (addCount die page sel n s).nt = s.nt := rfl
@[simp] theorem addCount_pl (die page sel n : Nat) (s : State) : (addCount die page sel n s).pl = s.pl := rfl
@[simp] theorem addCount_mp (die page sel n : Nat) (s : State) : (addCount die page sel n s).mp = s.mp := rfl
@[simp] theorem addCount_dr (die page sel n : Nat) (s : State) : (addCount die page sel n s).dr = s.dr := rfl
@[simp] theorem addCount_se (die page sel n : Nat) (s : State) : (addCount die page sel n s).se = s.se := rfl
@[simp] theorem addCount_ci (die page sel n : Nat) (s : State) : (addCount die page sel n s).ci = s.ci := rfl
@[simp] theorem addCount_bk (die page sel n : Nat) (s : State) : (addCount die page sel n s).bk = s.bk := rfl
@[simp] theorem addCount_pg (die page sel n : Nat) (s : State) : (addCount die page sel n s).pg = s.pg := rfl
@[simp] theorem addCount_ty (die page sel n : Nat) (s : State) : (addCount die page sel n s).ty = s.ty := rfl
@[simp] theorem addCount_pr (die page sel n : Nat) (s : State) : (addCount die page sel n s).pr = s.pr := rfl
@[simp] theorem addCount_lk (die page sel n : Nat) (s : State) : (addCount die page sel n s).lk = s.lk := rfl
@[simp] theorem addCount_hs (die page sel n : Nat) (s : State) : (addCount die page sel n s).hs = s.hs := rfl
@[simp] theorem addCount_op (die page sel n : Nat) (s : State) : (addCount die page sel n s).op = s.op := rfl
@[simp] theorem addCount_ft (die page sel n : Nat) (s : State) : (addCount die page sel n s).ft = s.ft := rfl
@[simp] theorem addCount_kp (die page sel n : Nat) (s : State) : (addCount die page sel n s).kp = s.kp := rfl
@[simp] theorem addCount_rs (die page sel n : Nat) (s : State) : (addCount die page sel n s).rs = s.rs := rfl
@[simp] theorem addCount_fw (die page sel n : Nat) (s : State) : (addCount die page sel n s).fw = s.fw := rfl
@[simp] theorem addCount_sv (die page sel n : Nat) (s : State) : (addCount die page sel n s).sv = s.sv := rfl
@[simp] theorem addCount_ram (die page sel n : Nat) (s : State) : (addCount die page sel n s).ram = s.ram := rfl
@[simp] theorem addCount_jt (die page sel n : Nat) (s : State) : (addCount die page sel n s).jt = s.jt := rfl
@[simp] theorem addCount_out (die page sel n : Nat) (s : State) : (addCount die page sel n s).out = s.out := rfl
@[simp] theorem addCount_fresh (die page sel n : Nat) (s : State) : (addCount die page sel n s).fresh = s.fresh := rfl
@[simp] theorem addCount_pending (die page sel n : Nat) (s : State) : (addCount die page sel n s).pending = s.pending := rfl

/-! ### setLatch -/

@[simp] theorem setLatch_tm (k : Nat) (v : Word) (s : State) : (setLatch k v s).tm = s.tm := rfl
@[simp] theorem setLatch_nt (k : Nat) (v : Word) (s : State) : (setLatch k v s).nt = s.nt := rfl
@[simp] theorem setLatch_pl (k : Nat) (v : Word) (s : State) : (setLatch k v s).pl = s.pl := rfl
@[simp] theorem setLatch_mp (k : Nat) (v : Word) (s : State) : (setLatch k v s).mp = s.mp := rfl
@[simp] theorem setLatch_dr (k : Nat) (v : Word) (s : State) : (setLatch k v s).dr = s.dr := rfl
@[simp] theorem setLatch_se (k : Nat) (v : Word) (s : State) : (setLatch k v s).se = s.se := rfl
@[simp] theorem setLatch_ci (k : Nat) (v : Word) (s : State) : (setLatch k v s).ci = s.ci := rfl
@[simp] theorem setLatch_bk (k : Nat) (v : Word) (s : State) : (setLatch k v s).bk = s.bk := rfl
@[simp] theorem setLatch_pg (k : Nat) (v : Word) (s : State) : (setLatch k v s).pg = s.pg := rfl
@[simp] theorem setLatch_ty (k : Nat) (v : Word) (s : State) : (setLatch k v s).ty = s.ty := rfl
@[simp] theorem setLatch_pr (k : Nat) (v : Word) (s : State) : (setLatch k v s).pr = s.pr := rfl
@[simp] theorem setLatch_lk (k : Nat) (v : Word) (s : State) : (setLatch k v s).lk = s.lk := rfl
@[simp] theorem setLatch_hs (k : Nat) (v : Word) (s : State) : (setLatch k v s).hs = s.hs := rfl
@[simp] theorem setLatch_op (k : Nat) (v : Word) (s : State) : (setLatch k v s).op = s.op := rfl
@[simp] theorem setLatch_ft (k : Nat) (v : Word) (s : State) : (setLatch k v s).ft = s.ft := rfl
@[simp] theorem setLatch_kp (k : Nat) (v : Word) (s : State) : (setLatch k v s).kp = s.kp := rfl
@[simp] theorem setLatch_rs (k : Nat) (v : Word) (s : State) : (setLatch k v s).rs = s.rs := rfl
@[simp] theorem setLatch_fw (k : Nat) (v : Word) (s : State) : (setLatch k v s).fw = s.fw := rfl
@[simp] theorem setLatch_sv (k : Nat) (v : Word) (s : State) : (setLatch k v s).sv = s.sv := rfl
@[simp] theorem setLatch_ram (k : Nat) (v : Word) (s : State) : (setLatch k v s).ram = s.ram := rfl
@[simp] theorem setLatch_jt (k : Nat) (v : Word) (s : State) : (setLatch k v s).jt = s.jt := rfl
@[simp] theorem setLatch_out (k : Nat) (v : Word) (s : State) : (setLatch k v s).out = s.out := rfl
@[simp] theorem setLatch_fresh (k : Nat) (v : Word) (s : State) : (setLatch k v s).fresh = s.fresh := rfl
@[simp] theorem setLatch_pending (k : Nat) (v : Word) (s : State) : (setLatch k v s).pending = s.pending := rfl

/-! ### modUnit -/

@[simp] theorem modUnit_rg (die : Nat) (f : PressUnit → PressUnit) (s : State) : (modUnit die f s).rg = s.rg := rfl
@[simp] theorem modUnit_nt (die : Nat) (f : PressUnit → PressUnit) (s : State) : (modUnit die f s).nt = s.nt := rfl
@[simp] theorem modUnit_pl (die : Nat) (f : PressUnit → PressUnit) (s : State) : (modUnit die f s).pl = s.pl := rfl
@[simp] theorem modUnit_mp (die : Nat) (f : PressUnit → PressUnit) (s : State) : (modUnit die f s).mp = s.mp := rfl
@[simp] theorem modUnit_dr (die : Nat) (f : PressUnit → PressUnit) (s : State) : (modUnit die f s).dr = s.dr := rfl
@[simp] theorem modUnit_se (die : Nat) (f : PressUnit → PressUnit) (s : State) : (modUnit die f s).se = s.se := rfl
@[simp] theorem modUnit_ci (die : Nat) (f : PressUnit → PressUnit) (s : State) : (modUnit die f s).ci = s.ci := rfl
@[simp] theorem modUnit_bk (die : Nat) (f : PressUnit → PressUnit) (s : State) : (modUnit die f s).bk = s.bk := rfl
@[simp] theorem modUnit_pg (die : Nat) (f : PressUnit → PressUnit) (s : State) : (modUnit die f s).pg = s.pg := rfl
@[simp] theorem modUnit_ty (die : Nat) (f : PressUnit → PressUnit) (s : State) : (modUnit die f s).ty = s.ty := rfl
@[simp] theorem modUnit_pr (die : Nat) (f : PressUnit → PressUnit) (s : State) : (modUnit die f s).pr = s.pr := rfl
@[simp] theorem modUnit_lk (die : Nat) (f : PressUnit → PressUnit) (s : State) : (modUnit die f s).lk = s.lk := rfl
@[simp] theorem modUnit_hs (die : Nat) (f : PressUnit → PressUnit) (s : State) : (modUnit die f s).hs = s.hs := rfl
@[simp] theorem modUnit_op (die : Nat) (f : PressUnit → PressUnit) (s : State) : (modUnit die f s).op = s.op := rfl
@[simp] theorem modUnit_ft (die : Nat) (f : PressUnit → PressUnit) (s : State) : (modUnit die f s).ft = s.ft := rfl
@[simp] theorem modUnit_kp (die : Nat) (f : PressUnit → PressUnit) (s : State) : (modUnit die f s).kp = s.kp := rfl
@[simp] theorem modUnit_rs (die : Nat) (f : PressUnit → PressUnit) (s : State) : (modUnit die f s).rs = s.rs := rfl
@[simp] theorem modUnit_fw (die : Nat) (f : PressUnit → PressUnit) (s : State) : (modUnit die f s).fw = s.fw := rfl
@[simp] theorem modUnit_sv (die : Nat) (f : PressUnit → PressUnit) (s : State) : (modUnit die f s).sv = s.sv := rfl
@[simp] theorem modUnit_ram (die : Nat) (f : PressUnit → PressUnit) (s : State) : (modUnit die f s).ram = s.ram := rfl
@[simp] theorem modUnit_jt (die : Nat) (f : PressUnit → PressUnit) (s : State) : (modUnit die f s).jt = s.jt := rfl
@[simp] theorem modUnit_out (die : Nat) (f : PressUnit → PressUnit) (s : State) : (modUnit die f s).out = s.out := rfl
@[simp] theorem modUnit_fresh (die : Nat) (f : PressUnit → PressUnit) (s : State) : (modUnit die f s).fresh = s.fresh := rfl
@[simp] theorem modUnit_pending (die : Nat) (f : PressUnit → PressUnit) (s : State) : (modUnit die f s).pending = s.pending := rfl

/-! ### modMp -/

@[simp] theorem modMp_tm (die n : Nat) (f : MemPort → MemPort) (s : State) : (modMp die n f s).tm = s.tm := rfl
@[simp] theorem modMp_rg (die n : Nat) (f : MemPort → MemPort) (s : State) : (modMp die n f s).rg = s.rg := rfl
@[simp] theorem modMp_nt (die n : Nat) (f : MemPort → MemPort) (s : State) : (modMp die n f s).nt = s.nt := rfl
@[simp] theorem modMp_pl (die n : Nat) (f : MemPort → MemPort) (s : State) : (modMp die n f s).pl = s.pl := rfl
@[simp] theorem modMp_dr (die n : Nat) (f : MemPort → MemPort) (s : State) : (modMp die n f s).dr = s.dr := rfl
@[simp] theorem modMp_se (die n : Nat) (f : MemPort → MemPort) (s : State) : (modMp die n f s).se = s.se := rfl
@[simp] theorem modMp_ci (die n : Nat) (f : MemPort → MemPort) (s : State) : (modMp die n f s).ci = s.ci := rfl
@[simp] theorem modMp_bk (die n : Nat) (f : MemPort → MemPort) (s : State) : (modMp die n f s).bk = s.bk := rfl
@[simp] theorem modMp_pg (die n : Nat) (f : MemPort → MemPort) (s : State) : (modMp die n f s).pg = s.pg := rfl
@[simp] theorem modMp_ty (die n : Nat) (f : MemPort → MemPort) (s : State) : (modMp die n f s).ty = s.ty := rfl
@[simp] theorem modMp_pr (die n : Nat) (f : MemPort → MemPort) (s : State) : (modMp die n f s).pr = s.pr := rfl
@[simp] theorem modMp_lk (die n : Nat) (f : MemPort → MemPort) (s : State) : (modMp die n f s).lk = s.lk := rfl
@[simp] theorem modMp_hs (die n : Nat) (f : MemPort → MemPort) (s : State) : (modMp die n f s).hs = s.hs := rfl
@[simp] theorem modMp_op (die n : Nat) (f : MemPort → MemPort) (s : State) : (modMp die n f s).op = s.op := rfl
@[simp] theorem modMp_ft (die n : Nat) (f : MemPort → MemPort) (s : State) : (modMp die n f s).ft = s.ft := rfl
@[simp] theorem modMp_kp (die n : Nat) (f : MemPort → MemPort) (s : State) : (modMp die n f s).kp = s.kp := rfl
@[simp] theorem modMp_rs (die n : Nat) (f : MemPort → MemPort) (s : State) : (modMp die n f s).rs = s.rs := rfl
@[simp] theorem modMp_fw (die n : Nat) (f : MemPort → MemPort) (s : State) : (modMp die n f s).fw = s.fw := rfl
@[simp] theorem modMp_sv (die n : Nat) (f : MemPort → MemPort) (s : State) : (modMp die n f s).sv = s.sv := rfl
@[simp] theorem modMp_ram (die n : Nat) (f : MemPort → MemPort) (s : State) : (modMp die n f s).ram = s.ram := rfl
@[simp] theorem modMp_jt (die n : Nat) (f : MemPort → MemPort) (s : State) : (modMp die n f s).jt = s.jt := rfl
@[simp] theorem modMp_out (die n : Nat) (f : MemPort → MemPort) (s : State) : (modMp die n f s).out = s.out := rfl
@[simp] theorem modMp_fresh (die n : Nat) (f : MemPort → MemPort) (s : State) : (modMp die n f s).fresh = s.fresh := rfl
@[simp] theorem modMp_pending (die n : Nat) (f : MemPort → MemPort) (s : State) : (modMp die n f s).pending = s.pending := rfl

/-! ### modDrn -/

@[simp] theorem modDrn_tm (die n : Nat) (f : DrnTile → DrnTile) (s : State) : (modDrn die n f s).tm = s.tm := rfl
@[simp] theorem modDrn_rg (die n : Nat) (f : DrnTile → DrnTile) (s : State) : (modDrn die n f s).rg = s.rg := rfl
@[simp] theorem modDrn_nt (die n : Nat) (f : DrnTile → DrnTile) (s : State) : (modDrn die n f s).nt = s.nt := rfl
@[simp] theorem modDrn_pl (die n : Nat) (f : DrnTile → DrnTile) (s : State) : (modDrn die n f s).pl = s.pl := rfl
@[simp] theorem modDrn_mp (die n : Nat) (f : DrnTile → DrnTile) (s : State) : (modDrn die n f s).mp = s.mp := rfl
@[simp] theorem modDrn_se (die n : Nat) (f : DrnTile → DrnTile) (s : State) : (modDrn die n f s).se = s.se := rfl
@[simp] theorem modDrn_ci (die n : Nat) (f : DrnTile → DrnTile) (s : State) : (modDrn die n f s).ci = s.ci := rfl
@[simp] theorem modDrn_bk (die n : Nat) (f : DrnTile → DrnTile) (s : State) : (modDrn die n f s).bk = s.bk := rfl
@[simp] theorem modDrn_pg (die n : Nat) (f : DrnTile → DrnTile) (s : State) : (modDrn die n f s).pg = s.pg := rfl
@[simp] theorem modDrn_ty (die n : Nat) (f : DrnTile → DrnTile) (s : State) : (modDrn die n f s).ty = s.ty := rfl
@[simp] theorem modDrn_pr (die n : Nat) (f : DrnTile → DrnTile) (s : State) : (modDrn die n f s).pr = s.pr := rfl
@[simp] theorem modDrn_lk (die n : Nat) (f : DrnTile → DrnTile) (s : State) : (modDrn die n f s).lk = s.lk := rfl
@[simp] theorem modDrn_hs (die n : Nat) (f : DrnTile → DrnTile) (s : State) : (modDrn die n f s).hs = s.hs := rfl
@[simp] theorem modDrn_op (die n : Nat) (f : DrnTile → DrnTile) (s : State) : (modDrn die n f s).op = s.op := rfl
@[simp] theorem modDrn_ft (die n : Nat) (f : DrnTile → DrnTile) (s : State) : (modDrn die n f s).ft = s.ft := rfl
@[simp] theorem modDrn_kp (die n : Nat) (f : DrnTile → DrnTile) (s : State) : (modDrn die n f s).kp = s.kp := rfl
@[simp] theorem modDrn_rs (die n : Nat) (f : DrnTile → DrnTile) (s : State) : (modDrn die n f s).rs = s.rs := rfl
@[simp] theorem modDrn_fw (die n : Nat) (f : DrnTile → DrnTile) (s : State) : (modDrn die n f s).fw = s.fw := rfl
@[simp] theorem modDrn_sv (die n : Nat) (f : DrnTile → DrnTile) (s : State) : (modDrn die n f s).sv = s.sv := rfl
@[simp] theorem modDrn_ram (die n : Nat) (f : DrnTile → DrnTile) (s : State) : (modDrn die n f s).ram = s.ram := rfl
@[simp] theorem modDrn_jt (die n : Nat) (f : DrnTile → DrnTile) (s : State) : (modDrn die n f s).jt = s.jt := rfl
@[simp] theorem modDrn_out (die n : Nat) (f : DrnTile → DrnTile) (s : State) : (modDrn die n f s).out = s.out := rfl
@[simp] theorem modDrn_fresh (die n : Nat) (f : DrnTile → DrnTile) (s : State) : (modDrn die n f s).fresh = s.fresh := rfl
@[simp] theorem modDrn_pending (die n : Nat) (f : DrnTile → DrnTile) (s : State) : (modDrn die n f s).pending = s.pending := rfl

/-! ### modDarner -/

@[simp] theorem modDarner_tm (die n d : Nat) (f : Darner → Darner) (s : State) : (modDarner die n d f s).tm = s.tm := rfl
@[simp] theorem modDarner_rg (die n d : Nat) (f : Darner → Darner) (s : State) : (modDarner die n d f s).rg = s.rg := rfl
@[simp] theorem modDarner_nt (die n d : Nat) (f : Darner → Darner) (s : State) : (modDarner die n d f s).nt = s.nt := rfl
@[simp] theorem modDarner_pl (die n d : Nat) (f : Darner → Darner) (s : State) : (modDarner die n d f s).pl = s.pl := rfl
@[simp] theorem modDarner_mp (die n d : Nat) (f : Darner → Darner) (s : State) : (modDarner die n d f s).mp = s.mp := rfl
@[simp] theorem modDarner_se (die n d : Nat) (f : Darner → Darner) (s : State) : (modDarner die n d f s).se = s.se := rfl
@[simp] theorem modDarner_ci (die n d : Nat) (f : Darner → Darner) (s : State) : (modDarner die n d f s).ci = s.ci := rfl
@[simp] theorem modDarner_bk (die n d : Nat) (f : Darner → Darner) (s : State) : (modDarner die n d f s).bk = s.bk := rfl
@[simp] theorem modDarner_pg (die n d : Nat) (f : Darner → Darner) (s : State) : (modDarner die n d f s).pg = s.pg := rfl
@[simp] theorem modDarner_ty (die n d : Nat) (f : Darner → Darner) (s : State) : (modDarner die n d f s).ty = s.ty := rfl
@[simp] theorem modDarner_pr (die n d : Nat) (f : Darner → Darner) (s : State) : (modDarner die n d f s).pr = s.pr := rfl
@[simp] theorem modDarner_lk (die n d : Nat) (f : Darner → Darner) (s : State) : (modDarner die n d f s).lk = s.lk := rfl
@[simp] theorem modDarner_hs (die n d : Nat) (f : Darner → Darner) (s : State) : (modDarner die n d f s).hs = s.hs := rfl
@[simp] theorem modDarner_op (die n d : Nat) (f : Darner → Darner) (s : State) : (modDarner die n d f s).op = s.op := rfl
@[simp] theorem modDarner_ft (die n d : Nat) (f : Darner → Darner) (s : State) : (modDarner die n d f s).ft = s.ft := rfl
@[simp] theorem modDarner_kp (die n d : Nat) (f : Darner → Darner) (s : State) : (modDarner die n d f s).kp = s.kp := rfl
@[simp] theorem modDarner_rs (die n d : Nat) (f : Darner → Darner) (s : State) : (modDarner die n d f s).rs = s.rs := rfl
@[simp] theorem modDarner_fw (die n d : Nat) (f : Darner → Darner) (s : State) : (modDarner die n d f s).fw = s.fw := rfl
@[simp] theorem modDarner_sv (die n d : Nat) (f : Darner → Darner) (s : State) : (modDarner die n d f s).sv = s.sv := rfl
@[simp] theorem modDarner_ram (die n d : Nat) (f : Darner → Darner) (s : State) : (modDarner die n d f s).ram = s.ram := rfl
@[simp] theorem modDarner_jt (die n d : Nat) (f : Darner → Darner) (s : State) : (modDarner die n d f s).jt = s.jt := rfl
@[simp] theorem modDarner_out (die n d : Nat) (f : Darner → Darner) (s : State) : (modDarner die n d f s).out = s.out := rfl
@[simp] theorem modDarner_fresh (die n d : Nat) (f : Darner → Darner) (s : State) : (modDarner die n d f s).fresh = s.fresh := rfl
@[simp] theorem modDarner_pending (die n d : Nat) (f : Darner → Darner) (s : State) : (modDarner die n d f s).pending = s.pending := rfl

/-! ### modRec -/

@[simp] theorem modRec_tm (k : Nat) (f : SeamRec → SeamRec) (s : State) : (modRec k f s).tm = s.tm := by unfold modRec; split <;> rfl
@[simp] theorem modRec_rg (k : Nat) (f : SeamRec → SeamRec) (s : State) : (modRec k f s).rg = s.rg := by unfold modRec; split <;> rfl
@[simp] theorem modRec_nt (k : Nat) (f : SeamRec → SeamRec) (s : State) : (modRec k f s).nt = s.nt := by unfold modRec; split <;> rfl
@[simp] theorem modRec_pl (k : Nat) (f : SeamRec → SeamRec) (s : State) : (modRec k f s).pl = s.pl := by unfold modRec; split <;> rfl
@[simp] theorem modRec_mp (k : Nat) (f : SeamRec → SeamRec) (s : State) : (modRec k f s).mp = s.mp := by unfold modRec; split <;> rfl
@[simp] theorem modRec_dr (k : Nat) (f : SeamRec → SeamRec) (s : State) : (modRec k f s).dr = s.dr := by unfold modRec; split <;> rfl
@[simp] theorem modRec_ci (k : Nat) (f : SeamRec → SeamRec) (s : State) : (modRec k f s).ci = s.ci := by unfold modRec; split <;> rfl
@[simp] theorem modRec_bk (k : Nat) (f : SeamRec → SeamRec) (s : State) : (modRec k f s).bk = s.bk := by unfold modRec; split <;> rfl
@[simp] theorem modRec_pg (k : Nat) (f : SeamRec → SeamRec) (s : State) : (modRec k f s).pg = s.pg := by unfold modRec; split <;> rfl
@[simp] theorem modRec_ty (k : Nat) (f : SeamRec → SeamRec) (s : State) : (modRec k f s).ty = s.ty := by unfold modRec; split <;> rfl
@[simp] theorem modRec_pr (k : Nat) (f : SeamRec → SeamRec) (s : State) : (modRec k f s).pr = s.pr := by unfold modRec; split <;> rfl
@[simp] theorem modRec_lk (k : Nat) (f : SeamRec → SeamRec) (s : State) : (modRec k f s).lk = s.lk := by unfold modRec; split <;> rfl
@[simp] theorem modRec_hs (k : Nat) (f : SeamRec → SeamRec) (s : State) : (modRec k f s).hs = s.hs := by unfold modRec; split <;> rfl
@[simp] theorem modRec_op (k : Nat) (f : SeamRec → SeamRec) (s : State) : (modRec k f s).op = s.op := by unfold modRec; split <;> rfl
@[simp] theorem modRec_ft (k : Nat) (f : SeamRec → SeamRec) (s : State) : (modRec k f s).ft = s.ft := by unfold modRec; split <;> rfl
@[simp] theorem modRec_kp (k : Nat) (f : SeamRec → SeamRec) (s : State) : (modRec k f s).kp = s.kp := by unfold modRec; split <;> rfl
@[simp] theorem modRec_rs (k : Nat) (f : SeamRec → SeamRec) (s : State) : (modRec k f s).rs = s.rs := by unfold modRec; split <;> rfl
@[simp] theorem modRec_fw (k : Nat) (f : SeamRec → SeamRec) (s : State) : (modRec k f s).fw = s.fw := by unfold modRec; split <;> rfl
@[simp] theorem modRec_sv (k : Nat) (f : SeamRec → SeamRec) (s : State) : (modRec k f s).sv = s.sv := by unfold modRec; split <;> rfl
@[simp] theorem modRec_ram (k : Nat) (f : SeamRec → SeamRec) (s : State) : (modRec k f s).ram = s.ram := by unfold modRec; split <;> rfl
@[simp] theorem modRec_jt (k : Nat) (f : SeamRec → SeamRec) (s : State) : (modRec k f s).jt = s.jt := by unfold modRec; split <;> rfl
@[simp] theorem modRec_out (k : Nat) (f : SeamRec → SeamRec) (s : State) : (modRec k f s).out = s.out := by unfold modRec; split <;> rfl
@[simp] theorem modRec_fresh (k : Nat) (f : SeamRec → SeamRec) (s : State) : (modRec k f s).fresh = s.fresh := by unfold modRec; split <;> rfl
@[simp] theorem modRec_pending (k : Nat) (f : SeamRec → SeamRec) (s : State) : (modRec k f s).pending = s.pending := by unfold modRec; split <;> rfl

/-! ### modCip -/

@[simp] theorem modCip_tm (die n : Nat) (f : Cip → Cip) (s : State) : (modCip die n f s).tm = s.tm := rfl
@[simp] theorem modCip_rg (die n : Nat) (f : Cip → Cip) (s : State) : (modCip die n f s).rg = s.rg := rfl
@[simp] theorem modCip_nt (die n : Nat) (f : Cip → Cip) (s : State) : (modCip die n f s).nt = s.nt := rfl
@[simp] theorem modCip_pl (die n : Nat) (f : Cip → Cip) (s : State) : (modCip die n f s).pl = s.pl := rfl
@[simp] theorem modCip_mp (die n : Nat) (f : Cip → Cip) (s : State) : (modCip die n f s).mp = s.mp := rfl
@[simp] theorem modCip_dr (die n : Nat) (f : Cip → Cip) (s : State) : (modCip die n f s).dr = s.dr := rfl
@[simp] theorem modCip_se (die n : Nat) (f : Cip → Cip) (s : State) : (modCip die n f s).se = s.se := rfl
@[simp] theorem modCip_bk (die n : Nat) (f : Cip → Cip) (s : State) : (modCip die n f s).bk = s.bk := rfl
@[simp] theorem modCip_pg (die n : Nat) (f : Cip → Cip) (s : State) : (modCip die n f s).pg = s.pg := rfl
@[simp] theorem modCip_ty (die n : Nat) (f : Cip → Cip) (s : State) : (modCip die n f s).ty = s.ty := rfl
@[simp] theorem modCip_pr (die n : Nat) (f : Cip → Cip) (s : State) : (modCip die n f s).pr = s.pr := rfl
@[simp] theorem modCip_lk (die n : Nat) (f : Cip → Cip) (s : State) : (modCip die n f s).lk = s.lk := rfl
@[simp] theorem modCip_hs (die n : Nat) (f : Cip → Cip) (s : State) : (modCip die n f s).hs = s.hs := rfl
@[simp] theorem modCip_op (die n : Nat) (f : Cip → Cip) (s : State) : (modCip die n f s).op = s.op := rfl
@[simp] theorem modCip_ft (die n : Nat) (f : Cip → Cip) (s : State) : (modCip die n f s).ft = s.ft := rfl
@[simp] theorem modCip_kp (die n : Nat) (f : Cip → Cip) (s : State) : (modCip die n f s).kp = s.kp := rfl
@[simp] theorem modCip_rs (die n : Nat) (f : Cip → Cip) (s : State) : (modCip die n f s).rs = s.rs := rfl
@[simp] theorem modCip_fw (die n : Nat) (f : Cip → Cip) (s : State) : (modCip die n f s).fw = s.fw := rfl
@[simp] theorem modCip_sv (die n : Nat) (f : Cip → Cip) (s : State) : (modCip die n f s).sv = s.sv := rfl
@[simp] theorem modCip_ram (die n : Nat) (f : Cip → Cip) (s : State) : (modCip die n f s).ram = s.ram := rfl
@[simp] theorem modCip_jt (die n : Nat) (f : Cip → Cip) (s : State) : (modCip die n f s).jt = s.jt := rfl
@[simp] theorem modCip_out (die n : Nat) (f : Cip → Cip) (s : State) : (modCip die n f s).out = s.out := rfl
@[simp] theorem modCip_fresh (die n : Nat) (f : Cip → Cip) (s : State) : (modCip die n f s).fresh = s.fresh := rfl
@[simp] theorem modCip_pending (die n : Nat) (f : Cip → Cip) (s : State) : (modCip die n f s).pending = s.pending := rfl

/-! ### modQueue -/

@[simp] theorem modQueue_tm (die n q : Nat) (f : Queue → Queue) (s : State) : (modQueue die n q f s).tm = s.tm := rfl
@[simp] theorem modQueue_rg (die n q : Nat) (f : Queue → Queue) (s : State) : (modQueue die n q f s).rg = s.rg := rfl
@[simp] theorem modQueue_nt (die n q : Nat) (f : Queue → Queue) (s : State) : (modQueue die n q f s).nt = s.nt := rfl
@[simp] theorem modQueue_pl (die n q : Nat) (f : Queue → Queue) (s : State) : (modQueue die n q f s).pl = s.pl := rfl
@[simp] theorem modQueue_mp (die n q : Nat) (f : Queue → Queue) (s : State) : (modQueue die n q f s).mp = s.mp := rfl
@[simp] theorem modQueue_dr (die n q : Nat) (f : Queue → Queue) (s : State) : (modQueue die n q f s).dr = s.dr := rfl
@[simp] theorem modQueue_se (die n q : Nat) (f : Queue → Queue) (s : State) : (modQueue die n q f s).se = s.se := rfl
@[simp] theorem modQueue_bk (die n q : Nat) (f : Queue → Queue) (s : State) : (modQueue die n q f s).bk = s.bk := rfl
@[simp] theorem modQueue_pg (die n q : Nat) (f : Queue → Queue) (s : State) : (modQueue die n q f s).pg = s.pg := rfl
@[simp] theorem modQueue_ty (die n q : Nat) (f : Queue → Queue) (s : State) : (modQueue die n q f s).ty = s.ty := rfl
@[simp] theorem modQueue_pr (die n q : Nat) (f : Queue → Queue) (s : State) : (modQueue die n q f s).pr = s.pr := rfl
@[simp] theorem modQueue_lk (die n q : Nat) (f : Queue → Queue) (s : State) : (modQueue die n q f s).lk = s.lk := rfl
@[simp] theorem modQueue_hs (die n q : Nat) (f : Queue → Queue) (s : State) : (modQueue die n q f s).hs = s.hs := rfl
@[simp] theorem modQueue_op (die n q : Nat) (f : Queue → Queue) (s : State) : (modQueue die n q f s).op = s.op := rfl
@[simp] theorem modQueue_ft (die n q : Nat) (f : Queue → Queue) (s : State) : (modQueue die n q f s).ft = s.ft := rfl
@[simp] theorem modQueue_kp (die n q : Nat) (f : Queue → Queue) (s : State) : (modQueue die n q f s).kp = s.kp := rfl
@[simp] theorem modQueue_rs (die n q : Nat) (f : Queue → Queue) (s : State) : (modQueue die n q f s).rs = s.rs := rfl
@[simp] theorem modQueue_fw (die n q : Nat) (f : Queue → Queue) (s : State) : (modQueue die n q f s).fw = s.fw := rfl
@[simp] theorem modQueue_sv (die n q : Nat) (f : Queue → Queue) (s : State) : (modQueue die n q f s).sv = s.sv := rfl
@[simp] theorem modQueue_ram (die n q : Nat) (f : Queue → Queue) (s : State) : (modQueue die n q f s).ram = s.ram := rfl
@[simp] theorem modQueue_jt (die n q : Nat) (f : Queue → Queue) (s : State) : (modQueue die n q f s).jt = s.jt := rfl
@[simp] theorem modQueue_out (die n q : Nat) (f : Queue → Queue) (s : State) : (modQueue die n q f s).out = s.out := rfl
@[simp] theorem modQueue_fresh (die n q : Nat) (f : Queue → Queue) (s : State) : (modQueue die n q f s).fresh = s.fresh := rfl
@[simp] theorem modQueue_pending (die n q : Nat) (f : Queue → Queue) (s : State) : (modQueue die n q f s).pending = s.pending := rfl

/-! ### modRing -/

@[simp] theorem modRing_tm (die n r : Nat) (f : Ring → Ring) (s : State) : (modRing die n r f s).tm = s.tm := rfl
@[simp] theorem modRing_rg (die n r : Nat) (f : Ring → Ring) (s : State) : (modRing die n r f s).rg = s.rg := rfl
@[simp] theorem modRing_nt (die n r : Nat) (f : Ring → Ring) (s : State) : (modRing die n r f s).nt = s.nt := rfl
@[simp] theorem modRing_pl (die n r : Nat) (f : Ring → Ring) (s : State) : (modRing die n r f s).pl = s.pl := rfl
@[simp] theorem modRing_mp (die n r : Nat) (f : Ring → Ring) (s : State) : (modRing die n r f s).mp = s.mp := rfl
@[simp] theorem modRing_dr (die n r : Nat) (f : Ring → Ring) (s : State) : (modRing die n r f s).dr = s.dr := rfl
@[simp] theorem modRing_se (die n r : Nat) (f : Ring → Ring) (s : State) : (modRing die n r f s).se = s.se := rfl
@[simp] theorem modRing_bk (die n r : Nat) (f : Ring → Ring) (s : State) : (modRing die n r f s).bk = s.bk := rfl
@[simp] theorem modRing_pg (die n r : Nat) (f : Ring → Ring) (s : State) : (modRing die n r f s).pg = s.pg := rfl
@[simp] theorem modRing_ty (die n r : Nat) (f : Ring → Ring) (s : State) : (modRing die n r f s).ty = s.ty := rfl
@[simp] theorem modRing_pr (die n r : Nat) (f : Ring → Ring) (s : State) : (modRing die n r f s).pr = s.pr := rfl
@[simp] theorem modRing_lk (die n r : Nat) (f : Ring → Ring) (s : State) : (modRing die n r f s).lk = s.lk := rfl
@[simp] theorem modRing_hs (die n r : Nat) (f : Ring → Ring) (s : State) : (modRing die n r f s).hs = s.hs := rfl
@[simp] theorem modRing_op (die n r : Nat) (f : Ring → Ring) (s : State) : (modRing die n r f s).op = s.op := rfl
@[simp] theorem modRing_ft (die n r : Nat) (f : Ring → Ring) (s : State) : (modRing die n r f s).ft = s.ft := rfl
@[simp] theorem modRing_kp (die n r : Nat) (f : Ring → Ring) (s : State) : (modRing die n r f s).kp = s.kp := rfl
@[simp] theorem modRing_rs (die n r : Nat) (f : Ring → Ring) (s : State) : (modRing die n r f s).rs = s.rs := rfl
@[simp] theorem modRing_fw (die n r : Nat) (f : Ring → Ring) (s : State) : (modRing die n r f s).fw = s.fw := rfl
@[simp] theorem modRing_sv (die n r : Nat) (f : Ring → Ring) (s : State) : (modRing die n r f s).sv = s.sv := rfl
@[simp] theorem modRing_ram (die n r : Nat) (f : Ring → Ring) (s : State) : (modRing die n r f s).ram = s.ram := rfl
@[simp] theorem modRing_jt (die n r : Nat) (f : Ring → Ring) (s : State) : (modRing die n r f s).jt = s.jt := rfl
@[simp] theorem modRing_out (die n r : Nat) (f : Ring → Ring) (s : State) : (modRing die n r f s).out = s.out := rfl
@[simp] theorem modRing_fresh (die n r : Nat) (f : Ring → Ring) (s : State) : (modRing die n r f s).fresh = s.fresh := rfl
@[simp] theorem modRing_pending (die n r : Nat) (f : Ring → Ring) (s : State) : (modRing die n r f s).pending = s.pending := rfl

/-! ### modPeg -/

@[simp] theorem modPeg_tm (die i : Nat) (f : Peg → Peg) (s : State) : (modPeg die i f s).tm = s.tm := rfl
@[simp] theorem modPeg_rg (die i : Nat) (f : Peg → Peg) (s : State) : (modPeg die i f s).rg = s.rg := rfl
@[simp] theorem modPeg_nt (die i : Nat) (f : Peg → Peg) (s : State) : (modPeg die i f s).nt = s.nt := rfl
@[simp] theorem modPeg_pl (die i : Nat) (f : Peg → Peg) (s : State) : (modPeg die i f s).pl = s.pl := rfl
@[simp] theorem modPeg_mp (die i : Nat) (f : Peg → Peg) (s : State) : (modPeg die i f s).mp = s.mp := rfl
@[simp] theorem modPeg_dr (die i : Nat) (f : Peg → Peg) (s : State) : (modPeg die i f s).dr = s.dr := rfl
@[simp] theorem modPeg_se (die i : Nat) (f : Peg → Peg) (s : State) : (modPeg die i f s).se = s.se := rfl
@[simp] theorem modPeg_ci (die i : Nat) (f : Peg → Peg) (s : State) : (modPeg die i f s).ci = s.ci := rfl
@[simp] theorem modPeg_bk (die i : Nat) (f : Peg → Peg) (s : State) : (modPeg die i f s).bk = s.bk := rfl
@[simp] theorem modPeg_ty (die i : Nat) (f : Peg → Peg) (s : State) : (modPeg die i f s).ty = s.ty := rfl
@[simp] theorem modPeg_pr (die i : Nat) (f : Peg → Peg) (s : State) : (modPeg die i f s).pr = s.pr := rfl
@[simp] theorem modPeg_lk (die i : Nat) (f : Peg → Peg) (s : State) : (modPeg die i f s).lk = s.lk := rfl
@[simp] theorem modPeg_hs (die i : Nat) (f : Peg → Peg) (s : State) : (modPeg die i f s).hs = s.hs := rfl
@[simp] theorem modPeg_op (die i : Nat) (f : Peg → Peg) (s : State) : (modPeg die i f s).op = s.op := rfl
@[simp] theorem modPeg_ft (die i : Nat) (f : Peg → Peg) (s : State) : (modPeg die i f s).ft = s.ft := rfl
@[simp] theorem modPeg_kp (die i : Nat) (f : Peg → Peg) (s : State) : (modPeg die i f s).kp = s.kp := rfl
@[simp] theorem modPeg_rs (die i : Nat) (f : Peg → Peg) (s : State) : (modPeg die i f s).rs = s.rs := rfl
@[simp] theorem modPeg_fw (die i : Nat) (f : Peg → Peg) (s : State) : (modPeg die i f s).fw = s.fw := rfl
@[simp] theorem modPeg_sv (die i : Nat) (f : Peg → Peg) (s : State) : (modPeg die i f s).sv = s.sv := rfl
@[simp] theorem modPeg_ram (die i : Nat) (f : Peg → Peg) (s : State) : (modPeg die i f s).ram = s.ram := rfl
@[simp] theorem modPeg_jt (die i : Nat) (f : Peg → Peg) (s : State) : (modPeg die i f s).jt = s.jt := rfl
@[simp] theorem modPeg_out (die i : Nat) (f : Peg → Peg) (s : State) : (modPeg die i f s).out = s.out := rfl
@[simp] theorem modPeg_fresh (die i : Nat) (f : Peg → Peg) (s : State) : (modPeg die i f s).fresh = s.fresh := rfl
@[simp] theorem modPeg_pending (die i : Nat) (f : Peg → Peg) (s : State) : (modPeg die i f s).pending = s.pending := rfl

/-! ### modChain -/

@[simp] theorem modChain_tm (c : Nat) (f : Chain → Chain) (s : State) : (modChain c f s).tm = s.tm := by unfold modChain; split <;> rfl
@[simp] theorem modChain_rg (c : Nat) (f : Chain → Chain) (s : State) : (modChain c f s).rg = s.rg := by unfold modChain; split <;> rfl
@[simp] theorem modChain_nt (c : Nat) (f : Chain → Chain) (s : State) : (modChain c f s).nt = s.nt := by unfold modChain; split <;> rfl
@[simp] theorem modChain_pl (c : Nat) (f : Chain → Chain) (s : State) : (modChain c f s).pl = s.pl := by unfold modChain; split <;> rfl
@[simp] theorem modChain_mp (c : Nat) (f : Chain → Chain) (s : State) : (modChain c f s).mp = s.mp := by unfold modChain; split <;> rfl
@[simp] theorem modChain_dr (c : Nat) (f : Chain → Chain) (s : State) : (modChain c f s).dr = s.dr := by unfold modChain; split <;> rfl
@[simp] theorem modChain_se (c : Nat) (f : Chain → Chain) (s : State) : (modChain c f s).se = s.se := by unfold modChain; split <;> rfl
@[simp] theorem modChain_ci (c : Nat) (f : Chain → Chain) (s : State) : (modChain c f s).ci = s.ci := by unfold modChain; split <;> rfl
@[simp] theorem modChain_bk (c : Nat) (f : Chain → Chain) (s : State) : (modChain c f s).bk = s.bk := by unfold modChain; split <;> rfl
@[simp] theorem modChain_pg (c : Nat) (f : Chain → Chain) (s : State) : (modChain c f s).pg = s.pg := by unfold modChain; split <;> rfl
@[simp] theorem modChain_pr (c : Nat) (f : Chain → Chain) (s : State) : (modChain c f s).pr = s.pr := by unfold modChain; split <;> rfl
@[simp] theorem modChain_lk (c : Nat) (f : Chain → Chain) (s : State) : (modChain c f s).lk = s.lk := by unfold modChain; split <;> rfl
@[simp] theorem modChain_hs (c : Nat) (f : Chain → Chain) (s : State) : (modChain c f s).hs = s.hs := by unfold modChain; split <;> rfl
@[simp] theorem modChain_op (c : Nat) (f : Chain → Chain) (s : State) : (modChain c f s).op = s.op := by unfold modChain; split <;> rfl
@[simp] theorem modChain_ft (c : Nat) (f : Chain → Chain) (s : State) : (modChain c f s).ft = s.ft := by unfold modChain; split <;> rfl
@[simp] theorem modChain_kp (c : Nat) (f : Chain → Chain) (s : State) : (modChain c f s).kp = s.kp := by unfold modChain; split <;> rfl
@[simp] theorem modChain_rs (c : Nat) (f : Chain → Chain) (s : State) : (modChain c f s).rs = s.rs := by unfold modChain; split <;> rfl
@[simp] theorem modChain_fw (c : Nat) (f : Chain → Chain) (s : State) : (modChain c f s).fw = s.fw := by unfold modChain; split <;> rfl
@[simp] theorem modChain_sv (c : Nat) (f : Chain → Chain) (s : State) : (modChain c f s).sv = s.sv := by unfold modChain; split <;> rfl
@[simp] theorem modChain_ram (c : Nat) (f : Chain → Chain) (s : State) : (modChain c f s).ram = s.ram := by unfold modChain; split <;> rfl
@[simp] theorem modChain_jt (c : Nat) (f : Chain → Chain) (s : State) : (modChain c f s).jt = s.jt := by unfold modChain; split <;> rfl
@[simp] theorem modChain_out (c : Nat) (f : Chain → Chain) (s : State) : (modChain c f s).out = s.out := by unfold modChain; split <;> rfl
@[simp] theorem modChain_fresh (c : Nat) (f : Chain → Chain) (s : State) : (modChain c f s).fresh = s.fresh := by unfold modChain; split <;> rfl
@[simp] theorem modChain_pending (c : Nat) (f : Chain → Chain) (s : State) : (modChain c f s).pending = s.pending := by unfold modChain; split <;> rfl

/-! ### modTly -/

@[simp] theorem modTly_tm (die : Nat) (f : TlyUnit → TlyUnit) (s : State) : (modTly die f s).tm = s.tm := rfl
@[simp] theorem modTly_rg (die : Nat) (f : TlyUnit → TlyUnit) (s : State) : (modTly die f s).rg = s.rg := rfl
@[simp] theorem modTly_nt (die : Nat) (f : TlyUnit → TlyUnit) (s : State) : (modTly die f s).nt = s.nt := rfl
@[simp] theorem modTly_pl (die : Nat) (f : TlyUnit → TlyUnit) (s : State) : (modTly die f s).pl = s.pl := rfl
@[simp] theorem modTly_mp (die : Nat) (f : TlyUnit → TlyUnit) (s : State) : (modTly die f s).mp = s.mp := rfl
@[simp] theorem modTly_dr (die : Nat) (f : TlyUnit → TlyUnit) (s : State) : (modTly die f s).dr = s.dr := rfl
@[simp] theorem modTly_se (die : Nat) (f : TlyUnit → TlyUnit) (s : State) : (modTly die f s).se = s.se := rfl
@[simp] theorem modTly_ci (die : Nat) (f : TlyUnit → TlyUnit) (s : State) : (modTly die f s).ci = s.ci := rfl
@[simp] theorem modTly_bk (die : Nat) (f : TlyUnit → TlyUnit) (s : State) : (modTly die f s).bk = s.bk := rfl
@[simp] theorem modTly_pg (die : Nat) (f : TlyUnit → TlyUnit) (s : State) : (modTly die f s).pg = s.pg := rfl
@[simp] theorem modTly_pr (die : Nat) (f : TlyUnit → TlyUnit) (s : State) : (modTly die f s).pr = s.pr := rfl
@[simp] theorem modTly_lk (die : Nat) (f : TlyUnit → TlyUnit) (s : State) : (modTly die f s).lk = s.lk := rfl
@[simp] theorem modTly_hs (die : Nat) (f : TlyUnit → TlyUnit) (s : State) : (modTly die f s).hs = s.hs := rfl
@[simp] theorem modTly_op (die : Nat) (f : TlyUnit → TlyUnit) (s : State) : (modTly die f s).op = s.op := rfl
@[simp] theorem modTly_ft (die : Nat) (f : TlyUnit → TlyUnit) (s : State) : (modTly die f s).ft = s.ft := rfl
@[simp] theorem modTly_kp (die : Nat) (f : TlyUnit → TlyUnit) (s : State) : (modTly die f s).kp = s.kp := rfl
@[simp] theorem modTly_rs (die : Nat) (f : TlyUnit → TlyUnit) (s : State) : (modTly die f s).rs = s.rs := rfl
@[simp] theorem modTly_fw (die : Nat) (f : TlyUnit → TlyUnit) (s : State) : (modTly die f s).fw = s.fw := rfl
@[simp] theorem modTly_sv (die : Nat) (f : TlyUnit → TlyUnit) (s : State) : (modTly die f s).sv = s.sv := rfl
@[simp] theorem modTly_ram (die : Nat) (f : TlyUnit → TlyUnit) (s : State) : (modTly die f s).ram = s.ram := rfl
@[simp] theorem modTly_jt (die : Nat) (f : TlyUnit → TlyUnit) (s : State) : (modTly die f s).jt = s.jt := rfl
@[simp] theorem modTly_out (die : Nat) (f : TlyUnit → TlyUnit) (s : State) : (modTly die f s).out = s.out := rfl
@[simp] theorem modTly_fresh (die : Nat) (f : TlyUnit → TlyUnit) (s : State) : (modTly die f s).fresh = s.fresh := rfl
@[simp] theorem modTly_pending (die : Nat) (f : TlyUnit → TlyUnit) (s : State) : (modTly die f s).pending = s.pending := rfl

/-! ### modMod -/

@[simp] theorem modMod_tm (die b m : Nat) (f : Link → Link) (s : State) : (modMod die b m f s).tm = s.tm := rfl
@[simp] theorem modMod_rg (die b m : Nat) (f : Link → Link) (s : State) : (modMod die b m f s).rg = s.rg := rfl
@[simp] theorem modMod_nt (die b m : Nat) (f : Link → Link) (s : State) : (modMod die b m f s).nt = s.nt := rfl
@[simp] theorem modMod_pl (die b m : Nat) (f : Link → Link) (s : State) : (modMod die b m f s).pl = s.pl := rfl
@[simp] theorem modMod_mp (die b m : Nat) (f : Link → Link) (s : State) : (modMod die b m f s).mp = s.mp := rfl
@[simp] theorem modMod_dr (die b m : Nat) (f : Link → Link) (s : State) : (modMod die b m f s).dr = s.dr := rfl
@[simp] theorem modMod_se (die b m : Nat) (f : Link → Link) (s : State) : (modMod die b m f s).se = s.se := rfl
@[simp] theorem modMod_ci (die b m : Nat) (f : Link → Link) (s : State) : (modMod die b m f s).ci = s.ci := rfl
@[simp] theorem modMod_bk (die b m : Nat) (f : Link → Link) (s : State) : (modMod die b m f s).bk = s.bk := rfl
@[simp] theorem modMod_pg (die b m : Nat) (f : Link → Link) (s : State) : (modMod die b m f s).pg = s.pg := rfl
@[simp] theorem modMod_ty (die b m : Nat) (f : Link → Link) (s : State) : (modMod die b m f s).ty = s.ty := rfl
@[simp] theorem modMod_pr (die b m : Nat) (f : Link → Link) (s : State) : (modMod die b m f s).pr = s.pr := rfl
@[simp] theorem modMod_hs (die b m : Nat) (f : Link → Link) (s : State) : (modMod die b m f s).hs = s.hs := rfl
@[simp] theorem modMod_op (die b m : Nat) (f : Link → Link) (s : State) : (modMod die b m f s).op = s.op := rfl
@[simp] theorem modMod_ft (die b m : Nat) (f : Link → Link) (s : State) : (modMod die b m f s).ft = s.ft := rfl
@[simp] theorem modMod_kp (die b m : Nat) (f : Link → Link) (s : State) : (modMod die b m f s).kp = s.kp := rfl
@[simp] theorem modMod_rs (die b m : Nat) (f : Link → Link) (s : State) : (modMod die b m f s).rs = s.rs := rfl
@[simp] theorem modMod_fw (die b m : Nat) (f : Link → Link) (s : State) : (modMod die b m f s).fw = s.fw := rfl
@[simp] theorem modMod_sv (die b m : Nat) (f : Link → Link) (s : State) : (modMod die b m f s).sv = s.sv := rfl
@[simp] theorem modMod_ram (die b m : Nat) (f : Link → Link) (s : State) : (modMod die b m f s).ram = s.ram := rfl
@[simp] theorem modMod_jt (die b m : Nat) (f : Link → Link) (s : State) : (modMod die b m f s).jt = s.jt := rfl
@[simp] theorem modMod_out (die b m : Nat) (f : Link → Link) (s : State) : (modMod die b m f s).out = s.out := rfl
@[simp] theorem modMod_fresh (die b m : Nat) (f : Link → Link) (s : State) : (modMod die b m f s).fresh = s.fresh := rfl
@[simp] theorem modMod_pending (die b m : Nat) (f : Link → Link) (s : State) : (modMod die b m f s).pending = s.pending := rfl

/-! ### modLnk -/

@[simp] theorem modLnk_tm (port : Nat) (f : Link → Link) (s : State) : (modLnk port f s).tm = s.tm := rfl
@[simp] theorem modLnk_rg (port : Nat) (f : Link → Link) (s : State) : (modLnk port f s).rg = s.rg := rfl
@[simp] theorem modLnk_nt (port : Nat) (f : Link → Link) (s : State) : (modLnk port f s).nt = s.nt := rfl
@[simp] theorem modLnk_pl (port : Nat) (f : Link → Link) (s : State) : (modLnk port f s).pl = s.pl := rfl
@[simp] theorem modLnk_mp (port : Nat) (f : Link → Link) (s : State) : (modLnk port f s).mp = s.mp := rfl
@[simp] theorem modLnk_dr (port : Nat) (f : Link → Link) (s : State) : (modLnk port f s).dr = s.dr := rfl
@[simp] theorem modLnk_se (port : Nat) (f : Link → Link) (s : State) : (modLnk port f s).se = s.se := rfl
@[simp] theorem modLnk_ci (port : Nat) (f : Link → Link) (s : State) : (modLnk port f s).ci = s.ci := rfl
@[simp] theorem modLnk_bk (port : Nat) (f : Link → Link) (s : State) : (modLnk port f s).bk = s.bk := rfl
@[simp] theorem modLnk_pg (port : Nat) (f : Link → Link) (s : State) : (modLnk port f s).pg = s.pg := rfl
@[simp] theorem modLnk_ty (port : Nat) (f : Link → Link) (s : State) : (modLnk port f s).ty = s.ty := rfl
@[simp] theorem modLnk_pr (port : Nat) (f : Link → Link) (s : State) : (modLnk port f s).pr = s.pr := rfl
@[simp] theorem modLnk_hs (port : Nat) (f : Link → Link) (s : State) : (modLnk port f s).hs = s.hs := rfl
@[simp] theorem modLnk_op (port : Nat) (f : Link → Link) (s : State) : (modLnk port f s).op = s.op := rfl
@[simp] theorem modLnk_ft (port : Nat) (f : Link → Link) (s : State) : (modLnk port f s).ft = s.ft := rfl
@[simp] theorem modLnk_kp (port : Nat) (f : Link → Link) (s : State) : (modLnk port f s).kp = s.kp := rfl
@[simp] theorem modLnk_rs (port : Nat) (f : Link → Link) (s : State) : (modLnk port f s).rs = s.rs := rfl
@[simp] theorem modLnk_fw (port : Nat) (f : Link → Link) (s : State) : (modLnk port f s).fw = s.fw := rfl
@[simp] theorem modLnk_sv (port : Nat) (f : Link → Link) (s : State) : (modLnk port f s).sv = s.sv := rfl
@[simp] theorem modLnk_ram (port : Nat) (f : Link → Link) (s : State) : (modLnk port f s).ram = s.ram := rfl
@[simp] theorem modLnk_jt (port : Nat) (f : Link → Link) (s : State) : (modLnk port f s).jt = s.jt := rfl
@[simp] theorem modLnk_out (port : Nat) (f : Link → Link) (s : State) : (modLnk port f s).out = s.out := rfl
@[simp] theorem modLnk_fresh (port : Nat) (f : Link → Link) (s : State) : (modLnk port f s).fresh = s.fresh := rfl
@[simp] theorem modLnk_pending (port : Nat) (f : Link → Link) (s : State) : (modLnk port f s).pending = s.pending := rfl

/-! ### modSto -/

@[simp] theorem modSto_tm (n : Nat) (f : StoPort → StoPort) (s : State) : (modSto n f s).tm = s.tm := rfl
@[simp] theorem modSto_rg (n : Nat) (f : StoPort → StoPort) (s : State) : (modSto n f s).rg = s.rg := rfl
@[simp] theorem modSto_nt (n : Nat) (f : StoPort → StoPort) (s : State) : (modSto n f s).nt = s.nt := rfl
@[simp] theorem modSto_pl (n : Nat) (f : StoPort → StoPort) (s : State) : (modSto n f s).pl = s.pl := rfl
@[simp] theorem modSto_mp (n : Nat) (f : StoPort → StoPort) (s : State) : (modSto n f s).mp = s.mp := rfl
@[simp] theorem modSto_dr (n : Nat) (f : StoPort → StoPort) (s : State) : (modSto n f s).dr = s.dr := rfl
@[simp] theorem modSto_se (n : Nat) (f : StoPort → StoPort) (s : State) : (modSto n f s).se = s.se := rfl
@[simp] theorem modSto_ci (n : Nat) (f : StoPort → StoPort) (s : State) : (modSto n f s).ci = s.ci := rfl
@[simp] theorem modSto_bk (n : Nat) (f : StoPort → StoPort) (s : State) : (modSto n f s).bk = s.bk := rfl
@[simp] theorem modSto_pg (n : Nat) (f : StoPort → StoPort) (s : State) : (modSto n f s).pg = s.pg := rfl
@[simp] theorem modSto_ty (n : Nat) (f : StoPort → StoPort) (s : State) : (modSto n f s).ty = s.ty := rfl
@[simp] theorem modSto_pr (n : Nat) (f : StoPort → StoPort) (s : State) : (modSto n f s).pr = s.pr := rfl
@[simp] theorem modSto_hs (n : Nat) (f : StoPort → StoPort) (s : State) : (modSto n f s).hs = s.hs := rfl
@[simp] theorem modSto_op (n : Nat) (f : StoPort → StoPort) (s : State) : (modSto n f s).op = s.op := rfl
@[simp] theorem modSto_ft (n : Nat) (f : StoPort → StoPort) (s : State) : (modSto n f s).ft = s.ft := rfl
@[simp] theorem modSto_kp (n : Nat) (f : StoPort → StoPort) (s : State) : (modSto n f s).kp = s.kp := rfl
@[simp] theorem modSto_rs (n : Nat) (f : StoPort → StoPort) (s : State) : (modSto n f s).rs = s.rs := rfl
@[simp] theorem modSto_fw (n : Nat) (f : StoPort → StoPort) (s : State) : (modSto n f s).fw = s.fw := rfl
@[simp] theorem modSto_sv (n : Nat) (f : StoPort → StoPort) (s : State) : (modSto n f s).sv = s.sv := rfl
@[simp] theorem modSto_ram (n : Nat) (f : StoPort → StoPort) (s : State) : (modSto n f s).ram = s.ram := rfl
@[simp] theorem modSto_jt (n : Nat) (f : StoPort → StoPort) (s : State) : (modSto n f s).jt = s.jt := rfl
@[simp] theorem modSto_out (n : Nat) (f : StoPort → StoPort) (s : State) : (modSto n f s).out = s.out := rfl
@[simp] theorem modSto_fresh (n : Nat) (f : StoPort → StoPort) (s : State) : (modSto n f s).fresh = s.fresh := rfl
@[simp] theorem modSto_pending (n : Nat) (f : StoPort → StoPort) (s : State) : (modSto n f s).pending = s.pending := rfl

/-! ### modHost -/

@[simp] theorem modHost_tm (h : Nat) (f : HostPort → HostPort) (s : State) : (modHost h f s).tm = s.tm := rfl
@[simp] theorem modHost_rg (h : Nat) (f : HostPort → HostPort) (s : State) : (modHost h f s).rg = s.rg := rfl
@[simp] theorem modHost_nt (h : Nat) (f : HostPort → HostPort) (s : State) : (modHost h f s).nt = s.nt := rfl
@[simp] theorem modHost_pl (h : Nat) (f : HostPort → HostPort) (s : State) : (modHost h f s).pl = s.pl := rfl
@[simp] theorem modHost_mp (h : Nat) (f : HostPort → HostPort) (s : State) : (modHost h f s).mp = s.mp := rfl
@[simp] theorem modHost_dr (h : Nat) (f : HostPort → HostPort) (s : State) : (modHost h f s).dr = s.dr := rfl
@[simp] theorem modHost_se (h : Nat) (f : HostPort → HostPort) (s : State) : (modHost h f s).se = s.se := rfl
@[simp] theorem modHost_ci (h : Nat) (f : HostPort → HostPort) (s : State) : (modHost h f s).ci = s.ci := rfl
@[simp] theorem modHost_bk (h : Nat) (f : HostPort → HostPort) (s : State) : (modHost h f s).bk = s.bk := rfl
@[simp] theorem modHost_pg (h : Nat) (f : HostPort → HostPort) (s : State) : (modHost h f s).pg = s.pg := rfl
@[simp] theorem modHost_ty (h : Nat) (f : HostPort → HostPort) (s : State) : (modHost h f s).ty = s.ty := rfl
@[simp] theorem modHost_pr (h : Nat) (f : HostPort → HostPort) (s : State) : (modHost h f s).pr = s.pr := rfl
@[simp] theorem modHost_lk (h : Nat) (f : HostPort → HostPort) (s : State) : (modHost h f s).lk = s.lk := rfl
@[simp] theorem modHost_op (h : Nat) (f : HostPort → HostPort) (s : State) : (modHost h f s).op = s.op := rfl
@[simp] theorem modHost_ft (h : Nat) (f : HostPort → HostPort) (s : State) : (modHost h f s).ft = s.ft := rfl
@[simp] theorem modHost_kp (h : Nat) (f : HostPort → HostPort) (s : State) : (modHost h f s).kp = s.kp := rfl
@[simp] theorem modHost_rs (h : Nat) (f : HostPort → HostPort) (s : State) : (modHost h f s).rs = s.rs := rfl
@[simp] theorem modHost_fw (h : Nat) (f : HostPort → HostPort) (s : State) : (modHost h f s).fw = s.fw := rfl
@[simp] theorem modHost_sv (h : Nat) (f : HostPort → HostPort) (s : State) : (modHost h f s).sv = s.sv := rfl
@[simp] theorem modHost_ram (h : Nat) (f : HostPort → HostPort) (s : State) : (modHost h f s).ram = s.ram := rfl
@[simp] theorem modHost_jt (h : Nat) (f : HostPort → HostPort) (s : State) : (modHost h f s).jt = s.jt := rfl
@[simp] theorem modHost_out (h : Nat) (f : HostPort → HostPort) (s : State) : (modHost h f s).out = s.out := rfl
@[simp] theorem modHost_fresh (h : Nat) (f : HostPort → HostPort) (s : State) : (modHost h f s).fresh = s.fresh := rfl
@[simp] theorem modHost_pending (h : Nat) (f : HostPort → HostPort) (s : State) : (modHost h f s).pending = s.pending := rfl

/-! ### modEngine -/

@[simp] theorem modEngine_tm (die g : Nat) (f : Engine → Engine) (s : State) : (modEngine die g f s).tm = s.tm := rfl
@[simp] theorem modEngine_rg (die g : Nat) (f : Engine → Engine) (s : State) : (modEngine die g f s).rg = s.rg := rfl
@[simp] theorem modEngine_nt (die g : Nat) (f : Engine → Engine) (s : State) : (modEngine die g f s).nt = s.nt := rfl
@[simp] theorem modEngine_pl (die g : Nat) (f : Engine → Engine) (s : State) : (modEngine die g f s).pl = s.pl := rfl
@[simp] theorem modEngine_mp (die g : Nat) (f : Engine → Engine) (s : State) : (modEngine die g f s).mp = s.mp := rfl
@[simp] theorem modEngine_dr (die g : Nat) (f : Engine → Engine) (s : State) : (modEngine die g f s).dr = s.dr := rfl
@[simp] theorem modEngine_se (die g : Nat) (f : Engine → Engine) (s : State) : (modEngine die g f s).se = s.se := rfl
@[simp] theorem modEngine_ci (die g : Nat) (f : Engine → Engine) (s : State) : (modEngine die g f s).ci = s.ci := rfl
@[simp] theorem modEngine_bk (die g : Nat) (f : Engine → Engine) (s : State) : (modEngine die g f s).bk = s.bk := rfl
@[simp] theorem modEngine_pg (die g : Nat) (f : Engine → Engine) (s : State) : (modEngine die g f s).pg = s.pg := rfl
@[simp] theorem modEngine_ty (die g : Nat) (f : Engine → Engine) (s : State) : (modEngine die g f s).ty = s.ty := rfl
@[simp] theorem modEngine_pr (die g : Nat) (f : Engine → Engine) (s : State) : (modEngine die g f s).pr = s.pr := rfl
@[simp] theorem modEngine_lk (die g : Nat) (f : Engine → Engine) (s : State) : (modEngine die g f s).lk = s.lk := rfl
@[simp] theorem modEngine_hs (die g : Nat) (f : Engine → Engine) (s : State) : (modEngine die g f s).hs = s.hs := rfl
@[simp] theorem modEngine_ft (die g : Nat) (f : Engine → Engine) (s : State) : (modEngine die g f s).ft = s.ft := rfl
@[simp] theorem modEngine_kp (die g : Nat) (f : Engine → Engine) (s : State) : (modEngine die g f s).kp = s.kp := rfl
@[simp] theorem modEngine_rs (die g : Nat) (f : Engine → Engine) (s : State) : (modEngine die g f s).rs = s.rs := rfl
@[simp] theorem modEngine_fw (die g : Nat) (f : Engine → Engine) (s : State) : (modEngine die g f s).fw = s.fw := rfl
@[simp] theorem modEngine_sv (die g : Nat) (f : Engine → Engine) (s : State) : (modEngine die g f s).sv = s.sv := rfl
@[simp] theorem modEngine_ram (die g : Nat) (f : Engine → Engine) (s : State) : (modEngine die g f s).ram = s.ram := rfl
@[simp] theorem modEngine_jt (die g : Nat) (f : Engine → Engine) (s : State) : (modEngine die g f s).jt = s.jt := rfl
@[simp] theorem modEngine_out (die g : Nat) (f : Engine → Engine) (s : State) : (modEngine die g f s).out = s.out := rfl
@[simp] theorem modEngine_fresh (die g : Nat) (f : Engine → Engine) (s : State) : (modEngine die g f s).fresh = s.fresh := rfl
@[simp] theorem modEngine_pending (die g : Nat) (f : Engine → Engine) (s : State) : (modEngine die g f s).pending = s.pending := rfl

/-! ### What the accessors read after a change -/

@[simp] theorem emit_out (o : Output) (s : State) : (emit o s).out = s.out ++ [o] := rfl
@[simp] theorem freshen_fresh (s : State) : (freshen s).fresh = s.fresh + 1 := rfl
@[simp] theorem doIf_true (f : State → State) (s : State) : doIf true f s = f s := rfl
@[simp] theorem doIf_false (f : State → State) (s : State) : doIf false f s = s := rfl

@[simp] theorem unitOf_modUnit (die d : Nat) (f : PressUnit → PressUnit) (s : State) :
    unitOf (modUnit die f s) d = if d = die then f (unitOf s die) else unitOf s d := by simp [unitOf, modUnit]

@[simp] theorem pageOf_modPage (die page d p : Nat) (f : Page → Page) (s : State) :
    pageOf (modPage die page f s) d p = if pk d p = pk die page then f (pageOf s die page) else pageOf s d p := by
  simp [pageOf, modPage]

@[simp] theorem mpOf_modMp (die n d m : Nat) (f : MemPort → MemPort) (s : State) :
    mpOf (modMp die n f s) d m = if tk d m = tk die n then f (mpOf s die n) else mpOf s d m := by simp [mpOf, modMp]

@[simp] theorem drnTile_modDrn (die n d m : Nat) (f : DrnTile → DrnTile) (s : State) :
    drnTile (modDrn die n f s) d m = if tk d m = tk die n then f (drnTile s die n) else drnTile s d m := by
  simp [drnTile, modDrn]

@[simp] theorem darnerOf_modDarner (die n d : Nat) (f : Darner → Darner) (s : State) :
    darnerOf (modDarner die n d f s) die n d = f (darnerOf s die n d) := by simp [darnerOf, modDarner]

/-- Another darner of the tile. -/
theorem darnerOf_modDarner_ne (die n d e : Nat) (f : Darner → Darner) (s : State) (h : e ≠ d) :
    darnerOf (modDarner die n d f s) die n e = darnerOf s die n e := by simp [darnerOf, modDarner, h]

@[simp] theorem cipOf_modCip (die n d m : Nat) (f : Cip → Cip) (s : State) :
    cipOf (modCip die n f s) d m = if tk d m = tk die n then f (cipOf s die n) else cipOf s d m := by simp [cipOf, modCip]

@[simp] theorem queueOf_modQueue (die n q : Nat) (f : Queue → Queue) (s : State) :
    queueOf (modQueue die n q f s) die n q = f (queueOf s die n q) := by simp [queueOf, modQueue]

@[simp] theorem ringOf_modRing (die n r : Nat) (f : Ring → Ring) (s : State) :
    ringOf (modRing die n r f s) die n r = f (ringOf s die n r) := by simp [ringOf, modRing]

@[simp] theorem pegOf_modPeg (die i d j : Nat) (f : Peg → Peg) (s : State) :
    pegOf (modPeg die i f s) d j = if pegKey d j = pegKey die i then f (pegOf s die i) else pegOf s d j := by
  simp [pegOf, modPeg]

@[simp] theorem modOf_modMod (die b m d b2 m2 : Nat) (f : Link → Link) (s : State) :
    modOf (modMod die b m f s) d b2 m2 = if mkey d b2 m2 = mkey die b m then f (modOf s die b m) else modOf s d b2 m2 := by
  simp [modOf, modMod]

@[simp] theorem lnkOf_modLnk (p q : Nat) (f : Link → Link) (s : State) :
    lnkOf (modLnk p f s) q = if q = p then f (lnkOf s p) else lnkOf s q := by simp [lnkOf, modLnk]

@[simp] theorem stoOf_modSto (n m : Nat) (f : StoPort → StoPort) (s : State) :
    stoOf (modSto n f s) m = if m = n then f (stoOf s n) else stoOf s m := by simp [stoOf, modSto]

@[simp] theorem hostOf_modHost (h k : Nat) (f : HostPort → HostPort) (s : State) :
    hostOf (modHost h f s) k = if k = h then f (hostOf s h) else hostOf s k := by simp [hostOf, modHost]

@[simp] theorem engineOf_modEngine (die g d j : Nat) (f : Engine → Engine) (s : State) :
    engineOf (modEngine die g f s) d j = if ekey d j = ekey die g then f (engineOf s die g) else engineOf s d j := by
  simp [engineOf, modEngine]

/-- A register in effect after a write of it, and every other register. -/
theorem reg_setReg (die page off sel d p o x : Nat) (v : Word) (s : State) (h : rk d p o x = rk die page off sel)
    (hr : resetOf d p o = resetOf die page off) : reg (setReg die page off sel v s) d p o x = v := by
  simp [reg, setReg, hr, h]

@[simp] theorem reg_setReg_same (die page off sel : Nat) (v : Word) (s : State) :
    reg (setReg die page off sel v s) die page off sel = v := reg_setReg die page off sel die page off sel v s rfl rfl

/-- The store lists by key alone, so that a register of another key reads as before whatever the values unlisted keys read as. -/
theorem reg_setReg_ne (die page off sel d p o x : Nat) (v : Word) (s : State) (h : rk d p o x ≠ rk die page off sel) :
    reg (setReg die page off sel v s) d p o x = reg s d p o x := by
  unfold reg setReg put
  split
  · simp [look_drop, h]
  · simp [look_ins, h]

end Sys2Proof.Machine
end

