-- ==== Sys2Proof/Laws/Shared.lean ====
section
/-! SUPPORT. What the shared operations do: the clock, the raising of a fault, the write and the read of a register. -/
namespace Sys2Proof.Machine

/-- A part outside the mask of a frame is the same. -/
theorem same_of_clr (ps : List Part) (s t : State) (h : t.clr (Mask.of ps) = s.clr (Mask.of ps)) (p : Part) (hp : p ∉ ps) :
    p.same s t := changesOnly_of_clr ps s t h p hp

/-- A loop whose rounds keep a value keeps it. -/
theorem forEach_same {α β : Type} (g : State → β) (xs : List α) (f : α → State → State) (s : State)
    (hf : ∀ x s, g (f x s) = g s) : g (forEach xs f s) = g s :=
  forEach_keeps (fun t => g t = g s) xs f s (fun x _ h => (hf x _).trans h) rfl

theorem doIf_same {β : Type} (g : State → β) (c : Bool) (f : State → State) (s : State) (hf : ∀ s, g (f s) = g s) :
    g (doIf c f s) = g s := by
  unfold doIf
  split
  · exact hf s
  · rfl

/-! ### The clock (R18, R88) -/

theorem addCount_eff (die page sel n : Nat) (s : State) : (addCount die page sel n s).rg.eff = s.rg.eff := rfl

/-- The clock alone moves, and the packets of the cycle before are no longer of this one. -/
theorem setClock_tm (c : Nat) (s : State) : (setClock c s).tm = { s.tm with fclk := c } :=
  same_of_clr [.nt] _ _ (startCycle_clr _ rfl _) .tm (by decide)

theorem setClock_eff (c : Nat) (s : State) : (setClock c s).rg.eff = s.rg.eff :=
  congrArg Regs.eff (same_of_clr [.tm, .nt] _ _ (setClock_clr _ rfl rfl _ _) .rg (by decide))

theorem collectorDrain_tm (die : Nat) (s : State) : (collectorDrain die s).tm = s.tm :=
  same_of_clr [.rg, .nt, .lk, .out] _ _ (collectorDrain_clr _ rfl rfl rfl rfl _ _) .tm (by decide)

theorem collects_tm (xs : SMap (List Packet)) (s : State) : (forEach xs (fun e s => collectorDrain e.1 s) s).tm = s.tm :=
  forEach_same (fun t => t.tm) _ _ _ fun e s => collectorDrain_tm e.1 s

theorem sendLoss_eff (die n port code : Nat) (p : Packet) (s : State) : (sendLoss die n port code p s).rg.eff = s.rg.eff := by
  unfold sendLoss; split <;> rfl

theorem sendPacket_eff (die link : Nat) (p : Packet) (s : State) : (sendPacket die link p s).rg.eff = s.rg.eff :=
  congrArg Regs.eff (same_of_clr [.lk, .out] _ _ (sendPacket_clr _ rfl rfl _ _ _ _) .rg (by decide))

/-- A packet that leaves changes no register in effect. -/
theorem leaveBy_eff (die n out : Nat) (p : Packet) (s : State) : (leaveBy die n out p s).rg.eff = s.rg.eff := by
  unfold leaveBy
  repeat' first
    | rfl | split | rw [addCount_eff] | exact sendLoss_eff _ _ _ _ _ _ | exact sendPacket_eff _ _ _ _ | dsimp only

theorem collectorDrain_eff (die : Nat) (s : State) : (collectorDrain die s).rg.eff = s.rg.eff := by
  refine forEach_same (fun t => t.rg.eff) _ _ _ fun p s => ?_
  unfold collectorGo
  dsimp only
  split
  · split
    · rfl
    · exact leaveBy_eff _ _ _ _ _
  · rfl

theorem collects_eff (xs : SMap (List Packet)) (s : State) : (forEach xs (fun e s => collectorDrain e.1 s) s).rg.eff = s.rg.eff :=
  forEach_same (fun t => t.rg.eff) _ _ _ fun e s => collectorDrain_eff e.1 s

theorem tick_fclk (s : State) : (tick s).tm = { s.tm with fclk := s.tm.fclk + 1 } := by
  have h1 : ∀ (e : Nat × Nat × Nat) (s : State), (markHems e.1 e.2.1 e.2.2 (countHeld e.1 e.2.1 e.2.2 s)).tm = s.tm := fun e s =>
    (same_of_clr [.rg, .nt] _ _ (markHems_clr _ rfl rfl _ _ _ _) .tm (by decide)).trans
      (same_of_clr [.rg, .nt] _ _ (countHeld_clr _ rfl _ _ _ _) .tm (by decide))
  unfold tick
  simp only [setClock_tm, collects_tm]
  rw [forEach_same (fun t => t.tm), forEach_same (fun t => t.tm)]
  · exact fun e s => h1 e s
  · intro e s; split <;> rfl

theorem ticks_tm (n : Nat) (s : State) : (ticks n s).tm = { s.tm with fclk := s.tm.fclk + n } := by
  induction n generalizing s with
  | zero => rfl
  | succ n ih => simp only [ticks, ih, tick_fclk]; congr 1; omega

/-- The clock reaches a cycle; of the time base nothing else changes. -/
theorem advanceTo_tm (c : Nat) (s : State) : (advanceTo c s).tm = { s.tm with fclk := max s.tm.fclk c } := by
  unfold advanceTo
  split
  · next h => simp [Nat.max_eq_left h]
  · next h =>
    split
    · rw [setClock_tm, collects_tm, Nat.max_eq_right (Nat.le_of_lt (Nat.lt_of_not_le h))]
    · rw [ticks_tm]
      have hc : s.tm.fclk + (c - s.tm.fclk) = max s.tm.fclk c := by
        rw [Nat.max_eq_right (Nat.le_of_lt (Nat.lt_of_not_le h))]; omega
      rw [hc]

theorem setFront_rg (k : Nat) (q : QPkt) (s : State) : (setFront k q s).rg = s.rg := by
  unfold setFront
  split <;> rfl

theorem markEgress_eff (die t n port : Nat) (s : State) : (markEgress die t n port s).rg.eff = s.rg.eff := by
  refine forEach_same (fun t => t.rg.eff) _ _ _ fun e s => ?_
  dsimp only
  split
  · rw [addCount_eff, setFront_rg]
  · rfl

theorem markHems_eff (die t port : Nat) (s : State) : (markHems die t port s).rg.eff = s.rg.eff := by
  unfold markHems
  split
  · rfl
  · split
    · exact markEgress_eff _ _ _ _ _
    · refine forEach_same (fun t => t.rg.eff) _ _ _ fun pl s => ?_
      dsimp only
      split <;> rfl

theorem doIf_addCount_eff (c : Bool) (die page sel n : Nat) (s : State) :
    (doIf c (addCount die page sel n) s).rg.eff = s.rg.eff :=
  doIf_same (fun t => t.rg.eff) c (addCount die page sel n) s fun _ => rfl

theorem countHeld_eff (die t port : Nat) (s : State) : (countHeld die t port s).rg.eff = s.rg.eff := by
  unfold countHeld
  split
  · rfl
  · simp only [doIf_addCount_eff]

theorem tick_eff (s : State) : (tick s).rg.eff = s.rg.eff := by
  unfold tick
  simp only [setClock_eff, collects_eff]
  rw [forEach_same (fun t => t.rg.eff), forEach_same (fun t => t.rg.eff)]
  · exact fun e s => (markHems_eff _ _ _ _).trans (countHeld_eff _ _ _ _)
  · intro e s; split <;> rfl

theorem ticks_eff (n : Nat) (s : State) : (ticks n s).rg.eff = s.rg.eff := by
  induction n generalizing s with
  | zero => rfl
  | succ n ih => exact (ih _).trans (tick_eff s)

/-- While the clock moves, no register in effect changes. -/
theorem advanceTo_eff (c : Nat) (s : State) : (advanceTo c s).rg.eff = s.rg.eff := by
  unfold advanceTo
  split
  · rfl
  · split
    · rw [setClock_eff, collects_eff]
    · exact ticks_eff _ s

theorem reg_of_eff {s t : State} (h : t.rg.eff = s.rg.eff) (die page off sel : Nat) : reg t die page off sel = reg s die page off sel := by
  unfold reg; rw [h]

theorem rfld_of_eff {s t : State} (h : t.rg.eff = s.rg.eff) (die page off hi lo sel : Nat) :
    rfld t die page off hi lo sel = rfld s die page off hi lo sel := by unfold rfld; rw [reg_of_eff h]

/-- While the clock moves, only the clock, the counters, the marks of held packets and what the collectors send change. -/
theorem advanceTo_frame (c : Nat) (s : State) : ChangesOnly [.tm, .rg, .nt, .lk, .out] s (advanceTo c s) :=
  changesOnly_of_clr _ _ _ (advanceTo_clr _ rfl rfl rfl rfl rfl _ _)

/-! ### Raising a fault (R466, R467) -/

theorem raise_same (die page b : Nat) (ctx : Option Nat) (detail : Word) (s : State) :
    ChangesOnly [.rg, .ft] s (raise die page b ctx detail s) := changesOnly_of_clr _ _ _ (raise_clr _ rfl rfl _ _ _ _ _ _)

/-- Raising sets the source's FAULT_STATUS bit. -/
theorem raise_bit (die page b : Nat) (ctx : Option Nat) (detail : Word) (s : State) (hb : b < 32) :
    (pageOf (raise die page b ctx detail s) die page).fault.toNat.testBit b = true := by
  have hw : ∀ x : Word, (x ||| w32 (2 ^ b)).toNat.testBit b = true := by
    intro x
    simp only [w32, BitVec.toNat_or, BitVec.toNat_ofNat, Nat.testBit_or]
    rw [Nat.mod_eq_of_lt (Nat.pow_lt_pow_right (by decide) hb)]
    simp
  have hp : (raise die page b ctx detail s).rg.pages = (modPage die page (fun p => { p with
      fault := p.fault ||| w32 (2 ^ b)
      ctxSeen := p.ctxSeen ++ (if raiseRecords s die page b ctx then (match ctx with
        | some c => if (raiseRec s die page b ctx detail).sev = 2 then [(b, c)] else [] | none => []) else []) }) s).rg.pages := by
    unfold raise
    dsimp only
    split <;> exact doIf_same (fun t => t.rg.pages) _ _ _ fun _ => rfl
  unfold pageOf
  rw [hp]
  unfold modPage
  rw [look_upd, if_pos rfl]
  exact hw _

theorem raise_eff (die page b : Nat) (ctx : Option Nat) (detail : Word) (s : State) :
    (raise die page b ctx detail s).rg.eff = s.rg.eff := by
  unfold raise
  dsimp only
  split <;> exact doIf_same (fun t => t.rg.eff) _ _ _ fun _ => rfl

theorem raisePrs_same (die b : Nat) (ctx : Option Nat) (detail : Word) (s : State) :
    ChangesOnly [.rg, .ft] s (raisePrs die b ctx detail s) := changesOnly_of_clr _ _ _ (raisePrs_clr _ rfl rfl _ _ _ _ _)

/-- A Press fault sets its bit of FAULT_STATUS and of PRS_STATUS. -/
theorem raisePrs_fault (die b : Nat) (ctx : Option Nat) (detail : Word) (s : State) (hb : b < 32) :
    (pageOf (raisePrs die b ctx detail s) die 0).fault.toNat.testBit b = true := by
  unfold raisePrs
  exact raise_bit die 0 b ctx detail s hb

theorem raisePrs_status (die b : Nat) (ctx : Option Nat) (detail : Word) (s : State) (hb : b < 5) :
    (reg (raisePrs die b ctx detail s) die 0 0x104).toNat.testBit ([5, 6, 4, 3, 7].getD b 7) = true := by
  have h : [5, 6, 4, 3, 7].getD b 7 < 32 := by
    match b, hb with
    | 0, _ | 1, _ | 2, _ | 3, _ | 4, _ => decide
  unfold raisePrs
  rw [reg_setReg_same]
  generalize [5, 6, 4, 3, 7].getD b 7 = i at h
  simp only [w32, BitVec.toNat_or, BitVec.toNat_ofNat, Nat.testBit_or]
  rw [Nat.mod_eq_of_lt (Nat.pow_lt_pow_right (by decide) h)]
  simp

/-! ### Writing a register (R36 to R48) -/

/-- A write that is taken: its status is REG_OK and the register's own effect happens. -/
theorem writeOf_taken (s : State) (m : Master) (die page off : Nat) (v : Word) (i : PageInfo) (row : RegRow)
    (h : Writes s m die page off v i row) :
    writeOf m die page off v s = emit (.regDone m 0 0) (writeRow die page i row m v s) := by
  obtain ⟨h1, h2, h3, h4, _⟩ := h
  unfold writeOf doWrite regWrite
  simp [h1, h2, h3, h4]

/-- A write that is not taken changes nothing; its status is the access status. -/
theorem doWrite_refused (a : RegAcc) (s : State) (h : masterOn s a.master = true) (hs : accessStatus s a true ≠ 0) :
    doWrite a s = emit (.regDone a.master (accessStatus s a true) 0) s := by
  unfold doWrite regWrite
  simp [h, hs]

theorem doRead_refused (a : RegAcc) (s : State) (h : masterOn s a.master = true) (hs : accessStatus s a false ≠ 0) :
    doRead a s = emit (.regDone a.master (accessStatus s a false) 0) s := by
  unfold doRead regRead
  simp [h, hs]

/-- A register that is neither half of a pair takes its effect at once. -/
theorem writeRow_single (die page : Nat) (i : PageInfo) (row : RegRow) (m : Master) (v : Word) (s : State)
    (hh : isHigh i row.off = false) (hl : row.lo = false) :
    writeRow die page i row m v s = writeEffect die page i row m v s := by
  unfold writeRow
  simp [hh, hl]

end Sys2Proof.Machine
end

