-- ==== Sys2Proof/Tests/Slice0.lean ====
section
/-! SUPPORT. Tests: the WellFormed smoke; for every statement states and operands that meet its hypotheses, clause by clause, and what the
spec says happens there. Expected values are worked out by hand from the rules named. -/
namespace Sys2Proof.Tests
open Sys2Proof Sys2Proof.Machine

set_option Elab.async false

/-! ### Small states -/

/-- The command gives a next state, and a check of it passes. -/
def gives (c : Instr) (s : State) (p : State → Bool) : Bool := match exec c s with | .next t => p t | _ => false

/-- The command gives the state itself. -/
def keeps (c : Instr) (s : State) : Bool := gives c s fun t => decide (t = s)

/-- A write of a register that is taken, of a page and a row that pass a check. -/
def takenWith (P : PageInfo → RegRow → Bool) (s : State) (m : Master) (die page off : Nat) (v : Word) : Bool :=
  masterOn s m &&
    decide (accessStatus s { master := m, pkg := pkgNo s, die := die, page := page, off := off, value := v } true = 0) &&
    match pageInfo die page with
    | some i => match rowAt die i off with
      | some row => decide (row.off = off) && P i row
      | none => false
    | none => false

theorem writes_of {P : PageInfo → RegRow → Bool} {s : State} {m : Master} {die page off : Nat} {v : Word}
    (h : takenWith P s m die page off v = true) : ∃ i row, Writes s m die page off v i row ∧ P i row = true := by
  unfold takenWith at h
  cases hi : pageInfo die page with
  | none => simp [hi] at h
  | some i =>
    cases hr : rowAt die i off with
    | none => simp [hi, hr] at h
    | some row =>
      simp only [hi, hr, Bool.and_eq_true, decide_eq_true_eq] at h
      exact ⟨i, row, ⟨h.1.1, h.1.2, hi, hr, h.2.1⟩, h.2.2⟩

/-- The FMC runs. -/
def fmcS : State := { State.reset with fw := { running := true } }

def unit (press period start : Nat) : PressUnit := { st := .run, press := press, period := period, start := start }
def withUnits (us : SMap PressUnit) (s : State) : State := { s with tm := { s.tm with units := us } }

/-- Die (0,0) in RUN at cycle 0 of Press 5, of 12,500 reference cycles: 160,000 cycles of FCLK. -/
def runS : State := withUnits [(0, unit 5 12500 0)] State.reset
def at_ (c : Nat) (s : State) : State := { s with tm := { s.tm with fclk := c } }

/-! ### WellFormed: every operand range refuses -/

theorem test_wf_ok : (Instr.portLockModeChange 63 143 11).wf = true ∧ (Instr.marker 63 21 .run 0 (2 ^ 18 - 1) 0).wf = true ∧
    (Instr.contextActivate .fmc 2047).wf = true ∧ (Instr.fwCheck (.host 3)).wf = true ∧ (Instr.mrd 3 { bar := 4, offset := 0, length := 4 }).wf = true := by
  decide

theorem test_wf_die : (Instr.pressLost 64).wf = false ∧ (Instr.epochTargetBoundary 64).wf = false := by decide
theorem test_wf_tile : (Instr.clWake 0 144).wf = false := by decide
theorem test_wf_port : (Instr.portLockModeChange 0 0 12).wf = false ∧ (Instr.lnkTrainFail 48).wf = false ∧ (Instr.datagramClose 4).wf = false := by decide
theorem test_wf_page : (Instr.dbrRetrain .fmc 0 4096 0).wf = false := by decide
theorem test_wf_ctx : (Instr.contextActivate .fmc 2048).wf = false ∧ (Instr.gapRecord 0 2048).wf = false := by decide
theorem test_wf_master : (Instr.fwCheck (.host 4)).wf = false ∧ (Instr.planCheck (.host 4)).wf = false := by decide
theorem test_wf_acc : (Instr.registerWrite { master := .fmc, pkg := 4096, die := 0, page := 0, off := 0 }).wf = false ∧
    (Instr.lowHalfRead { master := .fmc, pkg := 0, die := 0, page := 0, off := 4096 }).wf = false ∧
    (Instr.lowHalfRead { master := .fmc, pkg := 0, die := 0, page := 0, off := 0, size := 9 }).wf = false := by decide
theorem test_wf_packet : (Instr.read 0 0 { vc := 4 }).wf = false ∧ (Instr.read 0 0 { len := 16 }).wf = false ∧
    (Instr.read 0 0 { len := 1 }).wf = false ∧ (Instr.read 0 0 { srcPkg := 4096 }).wf = false := by decide
theorem test_wf_module : (Instr.dbrTrainFail 0 4 0).wf = false ∧ (Instr.dbrTrainFail 0 0 4).wf = false := by decide
theorem test_wf_engine : (Instr.seamTimeout 0 4 0).wf = false ∧ (Instr.seamTimeout 0 0 256).wf = false := by decide
theorem test_wf_buffer : (Instr.escapeStall ⟨0, 0, 12, 0, 0, 0⟩).wf = false ∧ (Instr.escapeStall ⟨0, 0, 0, 4, 0, 0⟩).wf = false ∧
    (Instr.arbitrationDecision (.inject 0 0 12 0)).wf = false := by decide
theorem test_wf_darner : (Instr.nop ⟨0, 0, 8, false⟩ {}).wf = false ∧ (Instr.nop ⟨0, 0, 0, false⟩ { d := 64 }).wf = false := by decide
theorem test_wf_stream : (Instr.deferRead ⟨0, 0, 128, 0⟩).wf = false ∧ (Instr.copy ⟨0, 0, 0, 0⟩ []).wf = false := by decide
theorem test_wf_tlp : (Instr.mrd 0 { bar := 6, offset := 0, length := 4 }).wf = false ∧
    (Instr.mrd 0 { bar := 0, offset := 0, length := 4, tag := 1024 }).wf = false ∧ (Instr.hstFlr 4).wf = false := by decide

/-- No word spells a command, so a step from reset with a word in front leaves the queue empty. -/
theorem test_no_words : decodeTableWord 32 0 = none ∧ (State.reset.withFetchWord 32 5).pending = [] := by decide

/-! ### Steps, Presses, epoch commands and markers (04) -/

/-- A frame of FOLLOW 0, START_PRESS 6, PERIOD_REF 12,500, DELAY 12,500; its CRC worked out outside the model by R91. -/
def frame6 : List Byte := [0xD5, 0x10, 6, 0, 0, 0, 0, 0, 0, 0, 0xD4, 0x30, 0, 0xD4, 0x30, 0, 0x14, 0x19]
/-- The same with START_PRESS 7, and one with FOLLOW 1, START_PRESS 0, DELAY 320. -/
def frame7 : List Byte := [0xD5, 0x10, 7, 0, 0, 0, 0, 0, 0, 0, 0xD4, 0x30, 0, 0xD4, 0x30, 0, 0x75, 0x62]
def frameF : List Byte := [0xD5, 0x11, 0, 0, 0, 0, 0, 0, 0, 0, 0xD4, 0x30, 0, 0x40, 1, 0, 0xD2, 0x2E]

theorem test_StepRunsTheFrontCommand : ({ State.reset with pending := [.bypass 0 true] } : State).pending = .bypass 0 true :: [] := rfl
theorem test_EmptyQueueIsOneCycle : State.reset.pending = [] ∧ fclkRuns State.reset = true ∧
    fclkRuns { State.reset with tm := { porLow := true } } = false := by decide +kernel
theorem test_StepKeepsInvariant : Machine.Inv { State.reset with pending := [.bypass 0 true] } ∧
    Steps { State.reset with pending := [.bypass 0 true] } (bypassShift 0 true State.reset) := ⟨by unfold Machine.Inv; decide +kernel, rfl⟩

/-- R90, R105: a boundary after 160,000 cycles, the number up by one. -/
theorem test_PressNumberAdvances : runS.tm.porLow = false ∧ running runS (refDie runS) = true ∧
    gives (.pressBoundary {}) runS (fun t => decide ((unitOf t 0).press = 6 ∧ (unitOf t 0).start = 160000 ∧ t.tm.fclk = 160000)) = true := by
  decide +kernel

/-- R89: F is the lower of FOLD_CYCLES, 8,192 at most, and a multiple of 256 not above a quarter of the Press. -/
theorem test_FoldDecidesTheLock : runS.tm.inFold = false ∧ running runS (refDie runS) = true ∧ lpSleeps runS = false ∧
    rfld runS 0 0 0x120 1 0 = 0 ∧ rfld (setReg 0 0 0x120 0 1 runS) 0 0 0x120 1 0 = 1 ∧ rfld (setReg 0 0 0x120 0 2 runS) 0 0 0x120 1 0 = 2 ∧
    gives .foldStart (setReg 0 0 0x124 0 0x80 (setReg 0 0 0x120 0 2 runS)) (fun t => t.tm.lockAfter) = true ∧
    gives .foldStart (setReg 0 0 0x120 0 1 runS) (fun t => t.tm.lockAfter) = true := by
  decide +kernel

/-- R94: agreement is counted, START_PRESS 7 is a mismatch. -/
theorem test_EpochCommandInRun : (∃ f, parseEpoch frame6 = some f) ∧ (∃ f, parseEpoch frame7 = some f) ∧ running runS 0 = true ∧
    gives (.epochCommand 0 frame6 true true) runS (fun t => decide ((unitOf t 0).epochCount = 1 ∧ (pageOf t 0 0).fault = 0)) = true ∧
    gives (.epochCommand 0 frame7 true true) runS (fun t => decide ((unitOf t 0).epochCount = 0 ∧ (reg t 0 0 0x104).toNat.testBit 5 = true)) = true := by
  refine ⟨⟨{ follow := false, start := 6, period := 12500, delay := 12500 }, ?_⟩, ⟨{ follow := false, start := 7, period := 12500, delay := 12500 }, ?_⟩, ?_⟩ <;>
    decide +kernel

/-- R93: in UNSET the target boundary is fixed, 320 reference cycles are 4,096 cycles of FCLK; a bit off makes the frame invalid. A die
with a module up toward a die in RUN ignores it (R578). -/
theorem test_EpochCommandOutsideRun : (unitOf State.reset 5).st = .unset ∧ runningNeighbour State.reset 5 = false ∧
    gives (.epochCommand 5 frameF true true) State.reset (fun t => (unitOf t 5).cmd == some { target := 4096, start := 0, period := 12500, follow := true }) = true ∧
    parseEpoch (frameF.set 2 1) = none ∧
    (let s : State := { withUnits [(bridgePeer 0 0, unit 5 12500 0)] State.reset with lk := { mods := [(0, { st := .up })] } }
     runningNeighbour s 0 = true ∧ (unitOf s 0).st = .unset) := by
  decide +kernel

theorem test_TargetBoundary : (unitOf (withUnits [(0, { cmd := some ⟨4096, 9, 12500, false⟩ })] State.reset) 0).cmd = some ⟨4096, 9, 12500, false⟩ ∧
    gives (.epochTargetBoundary 0) (withUnits [(0, { cmd := some ⟨4096, 9, 12500, false⟩ })] State.reset) (fun t =>
      decide (unitOf t 0 = { unit 9 12500 4096 with epochCount := (unitOf t 0).epochCount } ∧ t.tm.fclk = 4096)) = true ∧
    gives (.epochTargetBoundary 0) (withUnits [(0, { cmd := some ⟨4096, 9, 12500, true⟩ })] State.reset) (fun t =>
      decide ((unitOf t 0).st = .armed)) = true := by
  decide +kernel

theorem test_LossOfReference : (unitOf runS 7).lost = false ∧ (unitOf (withUnits [(7, { lost := true })] State.reset) 7).lost = true ∧
    runS.tm.porLow = false ∧ gives (.pressLost 7) (withUnits [(7, unit 5 12500 0)] State.reset) (fun t =>
      decide ((unitOf t 7).st = .unset ∧ (unitOf t 7).lost = true ∧ (reg t 7 0 0x104).toNat.testBit 4 = true)) = true := by
  decide +kernel

/-- A die of latency 0 with module 0 of bridge 0 up. -/
def markS (u : PressUnit) : State := { withUnits [(0, u)] State.reset with lk := { mods := [(0, { st := .up })] } }

/-- R96: a marker at cycle 0 for Press 5 agrees; one for Press 7 holds the port with cause 0x18. R97: UNSET takes the number. -/
theorem test_Markers : isLink 0 0 = true ∧ (linkOf (markS (unit 5 12500 0)) 0 0).st = .up ∧ running (markS (unit 5 12500 0)) 0 = true ∧
    gives (.marker 0 0 .run 5 12500 0) (markS (unit 5 12500 0)) (fun t => (linkOf t 0 0).markerOk) = true ∧
    gives (.marker 0 0 .run 7 12500 0) (markS (unit 5 12500 0)) (fun t => decide ((linkOf t 0 0).st = .hold ∧ (linkOf t 0 0).cause = 0x18)) = true ∧
    isMod 0 = true ∧ periodOk 12500 = true ∧ periodOk 315 = true ∧ periodOk 310 = false ∧ periodOk 156250 = true ∧
    (unitOf (markS {}) 0).st = .unset ∧ gives (.marker 0 0 .run 7 12500 0) (markS {}) (fun t => decide (unitOf t 0 = { unit 7 12500 0 with
      followed := true, phases := (unitOf t 0).phases, took := (unitOf t 0).took })) = true ∧
    (let a : PressUnit := { st := .armed, period := 12500 }
     (unitOf (markS a) 0).st = .armed ∧ gives (.marker 0 0 .run 7 12500 0) (markS a) (fun t => decide (running t 0 = true ∧ (unitOf t 0).press = 7)) = true) := by
  decide +kernel

/-- R111, R182. -/
theorem test_LockModesAndGateEdges : holdsLocked State.reset 0 0 0 = false ∧
    holdsLocked { State.reset with nt := { bufs := [(bkey 0 0 0 1 0 0, [{ pkt := {} }])] } } 0 0 0 = true ∧
    logTile runS 0 0 = some 0 ∧ running runS 0 = true ∧ 5 ∉ gateEdges runS 0 0 0 10 0 ∧
    (let np := nodePort 10
     let s := { runS with nt := { gates := [(rk 0 (tpage 0 2) 0x124 (nodeSel np 0), w32 (2 ^ 29)), (rk 0 (tpage 0 2) 0x134 (gateSel np 0 0), w32 (10 * 2 ^ 16 + 2))] } }
     64 ∈ gateEdges s 0 0 0 10 0 ∧ 320 ∈ gateEdges s 0 0 0 10 0 ∧ gives (.gateWindowEdge 0 0 10 0 64) s (fun t => decide (t.tm.fclk = 64)) = true) := by
  decide +kernel

/-! ### Register accesses (02) -/

def acc (m : Master) (pkg die page off size : Nat) : RegAcc := { master := m, pkg := pkg, die := die, page := page, off := off, size := size }

/-- R43: another package 4, a bad size or offset 2, no page 1, a host's write of an FMC page 3. -/
theorem test_RefusedAccess : masterOn fmcS .fmc = true ∧ accessStatus fmcS (acc .fmc 1 0 0 0x100 4) true = 4 ∧
    accessStatus fmcS (acc .fmc 0 0 0 0x100 8) true = 2 ∧ accessStatus fmcS (acc .fmc 0 0 0 0x102 4) true = 2 ∧
    accessStatus fmcS (acc .fmc 0 0 0xFFF 0x100 4) true = 1 ∧ pageInfo 0 0xFFF = none ∧ accessStatus fmcS (acc .fmc 0 0 0xFFF 0x100 4) false = 1 ∧
    accessStatus fmcS (acc (.host 0) 0 0 0x720 0x104 4) true = 3 := by
  decide +kernel

/-- R48: a write of a shadowed register of a TILE page leaves the value in effect. -/
theorem test_ShadowedWrite : takenWith (fun i row => decide (row.acc = .rws ∧ row.lo = false ∧ isHigh i row.off = false ∧
      notHere fmcS 0 i row.off = false ∧ ¬ (i.kind = .prs) ∧ (row.prio && freezeCtl fmcS 0 (tpage 0 2)) = false)) fmcS .fmc 0 (tpage 0 2) 0x124 1 = true ∧
    gives (.registerWrite { acc .fmc 0 0 (tpage 0 2) 0x124 4 with value := 1 }) fmcS (fun t =>
      decide (shadowReg t 0 (tpage 0 2) 0x124 = 1 ∧ reg t 0 (tpage 0 2) 0x124 = 0)) = true := by
  decide +kernel

theorem test_ShadowedWrite_hyps : ∃ i row, Writes fmcS .fmc 0 (tpage 0 2) 0x124 1 i row ∧ row.acc = .rws ∧ row.lo = false := by
  obtain ⟨i, row, h, hp⟩ := writes_of (P := fun _ row => decide (row.acc = .rws ∧ row.lo = false)) (s := fmcS) (m := .fmc) (die := 0)
    (page := tpage 0 2) (off := 0x124) (v := 1) (by decide +kernel)
  exact ⟨i, row, h, by simpa using hp⟩

/-- FREEZE_CTL 1 on TILE subpage 0, and arbiter 0 frozen or not. -/
def frzS (f : Word) : State := setReg 0 (tpage 0 0) 0x44 0 f (setReg 0 (tpage 0 0) 0x48 0 2 fmcS)

theorem test_PriorityWrite : ([(0 : Word), 1].all fun f => takenWith (fun i row => decide (row.acc = .rws ∧ row.lo = false ∧ isHigh i row.off = false ∧
      i.kind = .tile0 ∧ (row.prio && freezeCtl (frzS f) 0 (tpage 0 0)) = true)) (frzS f) .fmc 0 (tpage 0 0) 0x140 1) = true ∧
    (∀ x ∈ prioArbs .tile0 0x140, frozen (frzS 1) 0 (tpage 0 0) x = true) ∧ ¬ (∀ x ∈ prioArbs .tile0 0x140, frozen (frzS 0) 0 (tpage 0 0) x = true) := by
  decide +kernel

def commitS (c : CommitReq) : State := modPage 0 0x720 (fun p => { p with commit := c }) fmcS

/-- R49, R51, R53: requests pending, overrun, cancelled; in UNSET a scheduled one is held. -/
theorem test_Commits : takenWith (fun _ _ => true) (commitS .none) .fmc 0 (tpage 0 2) 0x40 1 = true ∧ (pageOf (commitS .none) 0 (tpage 0 2)).commit = .none ∧
    gives (.shadowCommitScheduled .fmc 0 (tpage 0 2)) fmcS (fun t => decide ((pageOf t 0 (tpage 0 2)).commit = .heldScheduled 0)) = true ∧
    gives (.shadowCommitScheduled .fmc 0 (tpage 0 2)) (withUnits [(0, unit 5 12500 0)] fmcS) (fun t => (pageOf t 0 (tpage 0 2)).late) = true ∧
    takenWith (fun _ _ => true) (commitS .nextBoundary) .fmc 0 0x720 0x40 1 = true ∧ (pageOf (commitS .nextBoundary) 0 0x720).commit ≠ .none ∧
    (1 : Word).toNat.testBit 0 = true ∧ (1 : Word).toNat.testBit 3 = false ∧ wbits (1 : Word) 2 1 ≠ 3 ∧ (8 : Word).toNat.testBit 3 = true ∧
    gives (.shadowCommitImmediate .fmc 0 0x720) (commitS .nextBoundary) (fun t => (pageOf t 0 0x720).overrun) = true ∧
    gives (.shadowCommitCancel .fmc 0 0x720) (commitS .nextBoundary) (fun t => decide ((pageOf t 0 0x720).commit = .none)) = true := by
  decide +kernel

/-- R52: the shadow takes effect and the count rises. -/
theorem test_ImmediateCommit : (let s := setShadow 0 0x720 0x104 0 400 (commitS .immediate)
    (pageOf s 0 0x720).commit = .immediate ∧ psLoading s 0 0x720 = false ∧ look? s.rg.shadow (rk 0 0x720 0x104 0) = some 400 ∧
    gives (.immediateCommitTakesEffect 0 0x720) s (fun t => decide (reg t 0 0x720 0x104 = 400 ∧ (pageOf t 0 0x720).count = 1 ∧ t.rg.shadow = [])) = true) ∧
    (pageOf fmcS 0 0x720).commit ≠ .immediate ∧ kindOf 0 0x720 ∉ [PageKind.tile2, .cip, .bsk, .seam1, .seam2, .drn] := by
  decide +kernel

/-- R37: PRESS_LO answers and latches PRESS_HI, which the next read of it answers once. -/
theorem test_Reads : (let a := acc .fmc 0 0 0 0x108 4
    masterOn fmcS .fmc = true ∧ accessStatus fmcS a false = 0 ∧
    (match pageInfo 0 0 with | some i => (match rowAt 0 i 0x108 with | some row => row.lo && decide (row.off = 0x108 ∧ i.kind ≠ .tly0) | none => false) | none => false) = true ∧
    look? fmcS.rg.latch (latchKey .fmc 0 0 0x108) = none ∧
    gives (.lowHalfRead a) (withUnits [(0, unit (2 ^ 32 + 7) 12500 0)] fmcS) (fun t => decide (t.out = [.regDone .fmc 0 7] ∧
      look? t.rg.latch (latchKey .fmc 0 0 0x10C) = some 1)) = true) := by
  decide +kernel

def memDie : Nat := (allDies.find? fun d => dieType d = .memside).getD 0

theorem test_TallyAndArea : (let a := acc .fmc 0 memDie 0x690 0x110 4
    accessStatus fmcS a false = 0 ∧ (match pageInfo memDie 0x690 with | some i => decide (i.kind = .tly0) && (rowAt memDie i 0x110).isSome | none => false) = true ∧
    look? fmcS.rg.latch (latchKey .fmc memDie 0x690 0x110) = none) ∧
    accessStatus fmcS (acc .fmc 0 0 0x733 0x104 4) false = 0 ∧ look? fmcS.rg.latch (latchKey .fmc 0 0x733 0x104) = none ∧
    gives (.areaDataRead .fmc) { setReg 0 0x733 0x100 0 (4 * 2047) fmcS with kp := { area := [(0, 9)] } } (fun t => decide (t.out = [.regDone .fmc 0 0] ∧ areaAddr t = 0)) = true := by
  decide +kernel

/-- R29: 400 and 1,900 are legal, 390 and 1,905 are not. -/
theorem test_FreezeAndCeiling : takenWith (fun i _ => decide (0 < arbCount i.kind)) fmcS .fmc 0 (tpage 0 0) 0x44 1 = true ∧
    gives (.arbFreezeWrite .fmc 0 (tpage 0 0) 1) fmcS (fun t => frozen t 0 (tpage 0 0) 0 && !frozen t 0 (tpage 0 0) 1) = true ∧
    masterOn fmcS .fmc = true ∧ accessStatus fmcS { acc .fmc 0 0 0x720 0x104 4 with value := 400 } true = 0 ∧
    gives (.govCeilingWrite .fmc 400) fmcS (fun t => decide (rfld t 0 0x720 0x104 11 0 = 400 ∧ countOf t 0 0x720 2 = 1)) = true ∧
    gives (.govCeilingWrite .fmc 1900) fmcS (fun t => decide (rfld t 0 0x720 0x104 11 0 = 1900)) = true ∧
    gives (.govCeilingWrite .fmc 390) fmcS (fun t => (pageOf t 0 0x720).bad) = true ∧
    gives (.govCeilingWrite .fmc 1905) fmcS (fun t => (pageOf t 0 0x720).bad) = true := by
  decide +kernel

/-! ### Plan, routing, memory (03, 05): die 0 is an I/O die, die 1 memory-side, die 2 compute (R15) -/

theorem test_dies : dieType 0 = .io ∧ dieType 1 = .memside ∧ dieType 2 = .compute := by decide

/-- A BULK READ of 64 bytes, from tile 0 of die (2,0) to its tile 1; a packet for package 5. -/
def readP : Packet := { cls := .bulk, dest := w64 (2 * 2 ^ 46 + 2 ^ 36), srcDie := 2, operand := 64 }
def farP : Packet := { readP with dest := w64 (5 * 2 ^ 52) }
def arrives (t : Instr) (s : State) : State := match exec t s with | .next t => t | _ => s

theorem test_PlanCommands : masterOn fmcS .fmc = true ∧ accessStatus fmcS (acc .fmc 0 0 0x721 0x150 4) true = 0 ∧ fmcS.pl.next = none ∧
    fmcS.fw.st = .idle ∧ (lnkOf fmcS 3).replay = [] ∧ (lnkOf { fmcS with lk := { ports := [(3, { replay := [{ seq := 1, pkts := [readP] }] })] } } 3).replay ≠ [] ∧
    (let s := { fmcS with fw := { fmcS.fw with st := .armed } }
     masterOn s .fmc = true ∧ accessStatus s (acc .fmc 0 0 0x721 0x150 4) true = 0 ∧ s.fw.st = .armed ∧ keeps (.portOldPlanDrained 3) s = true) := by
  decide +kernel

theorem test_PlanCommands_check : (checkImage fmcS 0 0).2 = none := by decide +kernel

theorem test_PacketsArrive : logTile State.reset 2 0 = some 0 ∧ (∀ b m, (modOf State.reset 2 b m).unplaced = false) := ⟨by decide +kernel, fun _ _ => rfl⟩

theorem test_PacketsArrive_forms : readP.mc = false ∧ aPkg readP.dest = pkgNo State.reset ∧ entryKey State.reset 2 0 readP ∉ State.reset.nt.reloaded ∧
    aPkg farP.dest ≠ pkgNo State.reset ∧ legOf State.reset 2 0 farP = none ∧ farP.cls ≠ .log ∧ farP.cls ≠ .mgmt ∧
    outAttach 2 0 0 = .none ∧
    (let s := { State.reset with nt := { reloaded := [entryKey State.reset 2 0 readP] } }
     entryKey s 2 0 readP ∈ s.nt.reloaded ∧ gives (.packetArrival 2 0 0 readP .routeParity) s (fun t => (pageOf t 2 1).fault.toNat.testBit 1) = true) ∧
    gives (.packetArrival 2 0 0 readP .ok) State.reset (fun t => decide ((bufQ t (bkey 2 0 0 0 0 0)).map (·.pkt) = [readP])) = true ∧
    gives (.packetArrival 2 0 0 readP .headEcc) State.reset (fun t => decide (reg t 2 0x100 0x12C = w32 (2 * 2 ^ 14 + 2 ^ 4) ∧ t.nt.bufs = [])) = true ∧
    (let m : Packet := { cls := .weight, mc := true, dest := 3 }
     rfld State.reset 2 (tpage 0 1) 0x12C 11 0 3 = 0 ∧ rfld (setReg 2 (tpage 0 1) 0x12C 3 5 State.reset) 2 (tpage 0 1) 0x12C 11 0 3 = 5 ∧
     gives (.packetArrival 2 0 0 m .ok) (setReg 2 (tpage 0 1) 0x12C 3 5 State.reset) (fun t => decide ((bufQ t (bkey 2 0 0 1 0 0)).map (·.outs) = [[0, 2]])) = true) := by
  decide +kernel

theorem test_PacketsArrive_sundi : logTile State.reset 0 1 = some 1 ∧ outAttach 0 1 9 = .lnk 0 ∧
    (∃ d l, portRole (shapeOf State.reset) (portOf 0 0) = .dir d l) ∧ aPkg readP.dest = pkgNo State.reset ∧
    gives (.packetArrival 0 1 9 { readP with pdl := true } .ok) State.reset (fun t => decide ((bufQ t (bkey 0 1 9 0 0 1)).map (·.pkt.pdl) = [false])) = true := by
  refine ⟨by decide +kernel, by decide +kernel, ?_, by decide +kernel, by decide +kernel⟩
  exact ⟨6, 0, by decide +kernel⟩

/-- A READ waits in the injection queue of port 10, then in the router's buffer. -/
def injS : State := at_ 1 (sendFrom 2 0 10 readP State.reset)
def bufS : State := at_ 4 (arrives (.arbitrationDecision (.inject 2 0 10 0)) injS)

theorem test_Arbiters_inject : logTile injS 2 0 = some 0 ∧ (fronts (injQ injS (ikey 2 0 10 0)) []).any (fun q => injEligible injS 2 0 0 10 q.pkt) = true ∧
    frozen injS 2 (tpage 0 2) (2 * nodePort 10) = false ∧ frozen injS 2 (tpage 0 2) (2 * nodePort 10 + 1) = false ∧
    (injQ injS (ikey 2 0 10 0)).all (fun q => !q.pkt.mc && decide (aPkg q.pkt.dest = pkgNo injS)) = true ∧
    frozen (setReg 2 (tpage 0 2) 0x44 0 (w32 (2 ^ (2 * nodePort 10))) injS) 2 (tpage 0 2) (2 * nodePort 10) = true ∧
    injQ bufS (ikey 2 0 10 0) = [] ∧ (bufS.nt.bufs.map fun e => e.2.map (·.pkt.dest)) = [[readP.dest]] := by
  decide +kernel

def outReqs (s : State) (out plane vc cls : Nat) : Bool :=
  (List.range 12).any fun i => (portReqs s 2 0 0 out plane vc cls i).any fun r => outEligible s 2 0 0 out plane vc cls r

theorem test_Arbiters_output : logTile bufS 2 0 = some 0 ∧ (∃ c, outReqs bufS 0 0 1 c = true ∧ frozen bufS 2 (tpage 0 0) 0 = false ∧
    (look {} bufS.nt.arbs (outArb 2 0 0 0 1 c)).endAt ≤ bufS.tm.fclk ∧
    gives (.arbitrationDecision (.output 2 0 0 0 1 c)) bufS (fun t => decide (t.nt.wires.map (fun w => (w.die, w.tile, w.port)) = [(2, 1, 1)] ∧ t.nt.bufs = [])) = true) ∧
    frozen (setReg 2 (tpage 0 0) 0x44 0 1 bufS) 2 (tpage 0 0) 0 = true ∧ noCount 2 0 0 = false ∧ readP.via = 0 := by
  refine ⟨by decide +kernel, ⟨0, ?_⟩, ?_⟩ <;> decide +kernel

theorem test_Credits : look 0 ({ State.reset with nt := { used := [(bkey 2 0 0 0 0 0, 3)] } } : State).nt.used (bkey 2 0 0 0 0 0) = 3 ∧
    gives (.credit 2 0 0 0 0 0 3) { State.reset with nt := { used := [(bkey 2 0 0 0 0 0, 3)] } } (fun t => decide (t.nt.used = [])) = true ∧
    gives (.credit 2 0 0 0 0 0 1) State.reset (fun t => (pageOf t 2 0x100).fault.toNat.testBit 1) = true := by
  decide +kernel

/-- A packet waits alone in a buffer since cycle 0. -/
def waitS (p : Packet) : State := { State.reset with nt := { bufs := [(bkey 2 0 10 0 p.vc 0, [{ pkt := p }])] } }

theorem test_Waits : bufQ (waitS { readP with vc := 1 }) (bufKey ⟨2, 0, 10, 0, 1, 0⟩) = { pkt := { readP with vc := 1 } } :: [] ∧ isAdaptive 1 = true ∧
    0 + rfld (waitS readP) 2 (tpage 0 0) 0x108 7 0 ≤ (at_ 255 (waitS readP)).tm.fclk ∧ (waitS readP).tm.fclk < 0 + rfld (waitS readP) 2 (tpage 0 0) 0x108 7 0 ∧
    isAdaptive 0 = false ∧ (let s := setReg 2 (tpage 0 0) 0x100 0 4 (waitS readP)
      rfld s 2 (tpage 0 0) 0x100 2 2 = 1 ∧ 0 + rfld s 2 (tpage 0 0) 0x104 23 0 < (at_ (2 ^ 24) s).tm.fclk ∧
      gives (.escapeStall ⟨2, 0, 10, 0, 0, 0⟩) (at_ (2 ^ 24) s) (fun t => (pageOf t 2 0x100).fault.toNat.testBit 0) = true) := by
  decide +kernel

/-- A TRANSIT_REQ for off-package port 0, class 0, from another die; one waiting; a grant. -/
def askP : Packet := { opcode := 0x60, srcDie := 2, operand := 0 }

theorem test_Transit : portDie (bits askP.operand.toNat 7 0) = 0 ∧ askP.srcDie ≠ 0 ∧ poolUsed State.reset 0 0 < poolSize 0 ∧
    gives (.transitReq 0 1 askP) State.reset (fun t => decide (poolUsed t 0 0 = 1 ∧ t.nt.inject.length = 1)) = true ∧
    (let s := { State.reset with nt := { poolUsed := [(poolKey 0 0, 4)] } }
     poolSize 0 ≤ poolUsed s 0 0 ∧ gives (.transitReq 0 1 askP) s (fun t => decide (t.nt.transitWait.length = 1)) = true) ∧
    (let s := { State.reset with nt := { transitAsked := [⟨2, 0, 0, 0, 7⟩], poolUsed := [(poolKey 0 0, 1)] } }
     gives (.transitGrant 2 0 askP) s (fun t => decide (t.nt.transitAsked = [] ∧ poolUsed t 0 0 = 0)) = true) := by
  decide +kernel

theorem test_Transit_wait : (let p : Packet := { farP with vc := 1, leg := true }
    let s := at_ 4096 { State.reset with nt := { bufs := [(bkey 0 1 9 0 1 0, [{ pkt := p }])] } }
    portDie 0 = 0 ∧ lnkTile 0 = (1, 1) ∧ physTile s 0 1 = 1 ∧ bufQ s (bkey 0 1 9 0 1 0) = { pkt := p } :: [] ∧ isAdaptive p.vc = true ∧ p.vc < 4 ∧
    inTransit s p = true ∧ p.via = 0 ∧ 0 + 16 * rfld s 0 (tpage 1 0) 0x108 7 0 ≤ s.tm.fclk) := by
  decide +kernel

/-- R119, R159: a READ of 64 bytes at memory port 0 of die (1,0) waits; a length of 0 is refused with 0x10; a fenced tile refuses with 0x20. -/
def mpP : Packet := { cls := .bulk, dest := w64 (2 ^ 46), operand := 64, srcDie := 2 }

theorem test_MemoryRequests : mpP.mc = false ∧ aRegion mpP.dest = 0 ∧ fenced State.reset 1 0 = false ∧
    fenced { State.reset with ft := { isolated := [1] } } 1 0 = true ∧ countBytes mpP = 64 ∧
    (let s := setReg 1 (tpage (physTile State.reset 1 0) 3) 0x100 0 1 State.reset
     rfld s 1 (tpage (physTile s 1 0) 3) 0x100 0 0 = 1 ∧ gives (.read 1 0 mpP) s (fun t => decide ((mpOf t 1 0).waiting = [mpP])) = true ∧
     gives (.read 1 0 { mpP with operand := 0 }) s (fun t => decide ((mpOf t 1 0).waiting = [] ∧ (t.nt.inject.map fun e => e.2.map (·.pkt.operand)) = [[0x10]])) = true ∧
     gives (.read 1 0 { mpP with operand := 513 }) s (fun t => decide ((mpOf t 1 0).waiting = [])) = true) ∧
    (let q : Packet := { cls := .bulk, dest := w64 (2 ^ 46 + 2 ^ 44 + 10 * 2 ^ 32 + 5), ctx := 5, operand := 48 }
     aRegion q.dest = 1 ∧ aPort q.dest = 10 ∧ countBytes q = 48 ∧ q.ctx = aIdx q.dest ∧
     gives (.read 1 0 q) State.reset (fun t => decide ((t.nt.inject.map fun e => e.2.map (·.pkt.operand)) = [[48]])) = true ∧
     gives (.read 1 0 { q with ctx := 4 }) State.reset (fun t => decide ((t.nt.inject.map fun e => e.2.map (·.pkt.operand)) = [[0x6E]])) = true) := by
  decide +kernel

/-- A request waits at a memory port; one is out under tag 7. -/
def waitMp : State := { State.reset with mp := [(tk 1 0, { waiting := [mpP] })] }
def outMp (since : Nat) : State := { State.reset with mp := [(tk 1 0, { out := [⟨7, mpP, 0, since, false⟩] })] }

theorem test_MemoryGoesOut : (mpOf waitMp 1 0).waiting = mpP :: [] ∧
    ¬ (min 512 (rfld waitMp 1 (tpage (physTile waitMp 1 0) 3) 0x108 9 0) ≤ (mpOf waitMp 1 0).out.length) ∧
    gives (.mpRequestIssue 1 0) waitMp (fun t => decide ((mpOf t 1 0).waiting = [] ∧ (mpOf t 1 0).out.length = 1 ∧ t.out.length = 1)) = true ∧
    (let s := { State.reset with ci := { tiles := [(tk 2 0, { cmWaiting := [⟨0, 64, false, [], none⟩] })] } }
     (cipOf s 2 0).cmWaiting = ⟨0, 64, false, [], none⟩ :: [] ∧ (cipOf s 2 0).cmOut.length < 1024 ∧
     gives (.cmRequestIssue 2 0) s (fun t => decide (t.out = [.cmReq 2 0 0 64 false []])) = true) := by
  decide +kernel

theorem test_MemoryResponses : (mpOf (outMp 0) 1 0).out.find? (fun r => decide (r.tag = 7)) = some ⟨7, mpP, 0, 0, false⟩ ∧
    gives (.mpResponse 1 0 7 [1, 2] false) (outMp 0) (fun t => decide ((mpOf t 1 0).out = [] ∧
      (t.nt.inject.map fun e => e.2.map (·.pkt.payload)) = [[padTo 64 [1, 2]]])) = true ∧
    gives (.mpResponse 1 0 7 [] true) (outMp 0) (fun t => (pageOf t 1 (tpage (physTile t 1 0) 3)).fault.toNat.testBit 0) = true ∧
    keeps (.mpResponse 1 0 8 [] false) (outMp 0) = true ∧ keeps (.mpStall 1 0 7) (outMp 0) = true ∧
    gives (.mpStall 1 0 7) (at_ (2 ^ 24) (outMp 0)) (fun t => (pageOf t 1 (tpage (physTile t 1 0) 3)).fault.toNat.testBit 1) = true := by
  decide +kernel

theorem test_MemoryResponses_cm : (let w : Packet := { mpP with opcode := 1, operand := 64 + 1024 }
    let s := { State.reset with ci := { tiles := [(tk 2 0, { cmOut := [⟨3, 0, true, [], some w⟩] })] } }
    (cipOf s 2 0).cmOut.find? (fun r => decide (r.tag = 3)) = some ⟨3, 0, true, [], some w⟩ ∧ w.mc = false ∧ w.operand.toNat.testBit 10 = true ∧
    gives (.cmResponse 2 0 3 [] false) s (fun t => decide ((cipOf t 2 0).cmOut = [] ∧ (t.nt.inject.map fun e => e.2.map (·.pkt.opcode)) = [[0x81]])) = true ∧
    gives (.cmResponse 2 0 3 [] true) s (fun t => decide ((t.nt.inject.map fun e => e.2.map (·.pkt.operand)) = [[0x26]])) = true) := by
  decide +kernel

/-- A transit slot is held at port 3: the port has not drained. -/
theorem test_PlanCommands_slots : (∃ e ∈ [(poolKey 3 0, 1)], e.1 / 64 = 3 ∧ 0 < e.2) ∧
    keeps (.portOldPlanDrained 3) { State.reset with nt := { poolUsed := [(poolKey 3 0, 1)] } } = true ∧
    gives (.portOldPlanDrained 3) { State.reset with nt := { poolUsed := [(poolKey 4 0, 1)] }, pl := { oldPorts := [3, 4] } }
      (fun t => decide (t.pl.oldPorts = [4])) = true := by
  refine ⟨⟨_, List.mem_cons_self .., ?_⟩, ?_⟩ <;> decide +kernel

/-- Port 17 is a mirror port (R61): the router takes nothing of it. -/
theorem test_PacketsArrive_mirror : outAttach (portDie 17) (lnkTile 5).1 (8 + (lnkTile 5).2) = .lnk 5 ∧
    logTile State.reset (portDie 17) (lnkTile 5).1 = some (lnkTile 5).1 ∧ portRole (shapeOf State.reset) (portOf (portDie 17) 5) = .mirror 0 ∧
    keeps (.packetArrival (portDie 17) (lnkTile 5).1 (8 + (lnkTile 5).2) readP .ok) State.reset = true := by
  decide +kernel

/-- Two requests wait for one egress, whose slots are in use: a further one waits behind them. -/
theorem test_Transit_more :
    (let s := { State.reset with nt := { poolUsed := [(poolKey 0 0, 4)], transitWait := [{ srcDie := 3, srcTile := 0, egress := 0, cls := 0, sseq := 0 }] } }
     slotFree s 0 0 = false ∧ (∀ r ∈ s.nt.transitWait, r.egress = 0 → slotFree s 0 r.cls = false) ∧
     gives (.transitReq 0 1 askP) s (fun t => decide (t.nt.transitWait.length = 2 ∧ t.nt.poolUsed = s.nt.poolUsed)) = true) ∧
    slotFree State.reset 0 0 = true ∧ State.reset.nt.transitWait.all (fun r => decide (r.egress ≠ 0)) = true := by
  decide +kernel

theorem test_Transit_grant : ∀ k, ∀ q ∈ (bufQ ({ State.reset with nt := { transitAsked := [⟨2, 0, 0, 0, 7⟩], poolUsed := [(poolKey 0 0, 1)] } } : State) k).head?,
    inTransit State.reset q.pkt = false ∨ q.pkt.via ≠ 0 := by
  intro k q h
  simp [bufQ, look] at h

theorem test_MemoryGoesOut_off : (let s := setReg 1 (tpage (physTile waitMp 1 0) 3) 0x100 0 0 waitMp
     rfld s 1 (tpage (physTile s 1 0) 3) 0x100 0 0 = 0 ∧ (mpOf s 1 0).waiting = [mpP] ∧
     gives (.mpRequestIssue 1 0) s (fun t => decide ((mpOf t 1 0).waiting = [] ∧ (t.nt.inject.map fun e => e.2.map (·.pkt.operand)) = [[0x10]])) = true) ∧
    rfld waitMp 1 (tpage (physTile waitMp 1 0) 3) 0x100 0 0 = 1 ∧ isSafe waitMp 1 = false ∧
    (let s : State := { setReg 1 (tpage (physTile State.reset 1 0) 3) 0x108 0 1 State.reset with mp := [(tk 1 0, { waiting := [mpP], out := [⟨7, mpP, 0, 0, false⟩] })] }
     min 512 (rfld s 1 (tpage (physTile s 1 0) 3) 0x108 9 0) ≤ (mpOf s 1 0).out.length ∧ keeps (.mpRequestIssue 1 0) s = true) ∧
    (let s : State := { waitMp with mp := [(tk 1 0, { waiting := [{ mpP with opcode := 1 }] })], ft := { safeDies := [1] } }
     isSafe s 1 = true ∧ keeps (.mpRequestIssue 1 0) s = true) := by
  decide +kernel

/-- A MULTICAST of the CIP at die 2, tile 0 has its first granule read at die 1: the port keeps no answer. -/
theorem test_MemoryResponses_mc : (let d : Desc := { id := 0, bytes := padTo 64 [0x02], kind := 2, stream := 0, ctx := 0, phase := .reading, len := 64, sseq := 0 }
    let s := { outMp 0 with ci := { tiles := [(tk 2 0, { descs := [d] })] } }
    mcPiece (outMp 0) mpP = none ∧ mcPiece s mpP = some d ∧ flushing s 1 0 = false ∧
      gives (.mpResponse 1 0 7 [1] false) s (fun t => decide ((mpOf t 1 0).out = [])) = true) := by
  decide +kernel

/-! ### Patches (09): darner 0 of tile 0 of die 2, INT32 elements, body at 0x10, budget 16 -/

def patchTask : Task := { entry := 0, kind := .patch, stealable := true, ordered := false, ctx := 0, born := 0, count := 8, run := 1 }
/-- Binding words: BUDGET 16; BODY 0x10 and no other entry; XCTL; RESMASK; SELMASK with slot 1; MINMASK. -/
def bindW (whole : Bool) : List Word := [w32 (16 + (if whole then 2048 else 0)), w32 (0x3FF * 2 ^ 22 + 0x10 * 2 ^ 12 + 0x3FF * 4), w32 0x12, 1, 2, 0]
def patchM (whole : Bool) : Mach :=
  { sect := .body, pc := 0x10, p0 := 15, count := 8, bind := bindW whole
    v := [(0, { bits := 5 }), (1, { bits := BitVec.ofNat 128 (7 + 2 ^ 32 * 0xFFFFFFFF) })]
    s := [(0, 3), (1, 0xFFFFFFFF)] }
def patchS (op : Nat) (f : PFields) (m : Mach) : State := { State.reset with
  dr := { tiles := [(tk 2 0, { darners := [(0, { task := some patchTask, mach := m })] })], banks := [(bankKey 2 0 0 m.pc, pword op f)] } }
def u0 : DrnRef := ⟨2, 0, 0, false⟩
def ready (op : Nat) (f : PFields) (m : Mach) : Bool :=
  canPatch (patchS op f m) u0 op f && !overBudget m && decide (m.fault = 0) && decide ((darnerOf (patchS op f m) 2 0 0).mach = m)
def machOf (c : Instr) (s : State) : Mach := (darnerOf (arrives c s) 2 0 0).mach

theorem test_bind : xInFmt (bw (bindW false) 2) = 0x12 ∧ bBody (bindW false) = 0x10 ∧ bBudget (bindW false) = 16 ∧ bWhole (bindW true) = true ∧
    bWhole (bindW false) = false ∧ bEpi (bindW true) = 0x3FF ∧ groupSize (bindW false) = 4 ∧ bSel (bindW false) 1 = true ∧ bSel (bindW false) 0 = false ∧
    isMX (bFmt (bindW false)) = false ∧ groupSize (bindW false) * fmtBits (bFmt (bindW false)) ≤ 128 := by
  decide +kernel

/-- Every opcode can be ready; the 17th instruction of a body is over a budget of 16; another instruction at the PC is not this one. -/
theorem test_PatchReady : ([0, 1, 2, 3, 4, 8, 9, 10, 11, 12, 13, 16, 17, 18, 19, 20, 21, 24, 25, 26, 27, 32, 33].all fun op =>
      ready op {} (patchM true) && ready op { m := 1 } (patchM true) && canPatch (patchS op {} { patchM true with bodyCount := 16 }) u0 op {} &&
      overBudget { patchM true with bodyCount := 16 } && !overBudget { patchM true with bodyCount := 15 } &&
      !canPatch (patchS op { d := 1 } (patchM true)) u0 op {}) = true := by
  decide +kernel

theorem test_PatchFaults : (machOf (.nop u0 {}) (patchS 0 {} { patchM true with bodyCount := 16 })).fault = 0x40 ∧
    (machOf (.nop u0 { m := 1 }) (patchS 0 { m := 1 } (patchM true))).fault = 0x41 ∧
    (machOf (.cmp u0 { d := 8 }) (patchS 0x10 { d := 8 } (patchM true))).fault = 0x41 ∧ bWhole (patchM false).bind = false ∧
    (machOf (.halt u0 {}) (patchS 3 {} (patchM false))).fault = 0x41 ∧
    (machOf (.nop { u0 with parity := true } {}) (patchS 0 {} (patchM true))).fault = 0x45 ∧ keeps (.nop u0 {}) State.reset = true := by
  decide +kernel

/-- R274, R277: NOP moves on; NEXT of the first of two groups starts the second; NEXT of the last one, and HALT, end the task. -/
theorem test_PatchSections : guardMask (patchM true) {} = 15 ∧ guardMask (patchM true) { pn := true } = 0 ∧ (patchM true).sect = .body ∧
    0 + groupSize (patchM true).bind < (patchM true).count ∧ ¬ (4 + groupSize (patchM true).bind < (patchM true).count) ∧
    (machOf (.nop u0 {}) (patchS 0 {} (patchM true))).pc = 0x11 ∧
    (machOf (.next u0 {}) (patchS 1 {} (patchM true))).gidx = 4 ∧ (machOf (.next u0 {}) (patchS 1 {} (patchM true))).pc = 0x10 ∧
    (machOf (.next u0 {}) (patchS 1 {} { patchM true with gidx := 4 })).sect = .done ∧ (machOf (.halt u0 {}) (patchS 3 {} (patchM true))).sect = .done ∧
    (machOf (.next u0 { pn := true }) (patchS 1 { pn := true } (patchM true))).pc = 0x11 ∧
    (machOf (.drop u0 {}) (patchS 2 {} { patchM true with buffered := [1] })).records = [] ∧
    (machOf (.next u0 {}) (patchS 1 {} { patchM true with buffered := [1] })).records = [1] := by
  decide +kernel

theorem test_PatchSections_epi : (let b := [w32 (16 + 2048), w32 (0x3FF * 2 ^ 22 + 0x10 * 2 ^ 12 + 0x80 * 4), bw (bindW true) 2, 1, 2, 0]
    bEpi b = 0x80 ∧ bEpi b ≠ 0x3FF ∧ (machOf (.next u0 {}) (patchS 1 {} { patchM true with gidx := 4, bind := b })).pc = 0x80 ∧
    (machOf (.next u0 {}) (patchS 1 {} { patchM true with gidx := 4, bind := b })).sect = .epilogue) := by
  decide +kernel

theorem test_PatchLoop : (let f : PFields := { a := 0x10, b := 2 }
    ready 4 f (patchM true) = true ∧ f.m < 2 ∧ clsS f.a = true ∧ f.b ≠ 0 ∧ loopOk (patchS 4 f (patchM true)) u0 (darnerOf (patchS 4 f (patchM true)) 2 0 0) f = true ∧
    (sRead (patchM true) 0x10 0).toNat % 65536 = 3 ∧ (machOf (.loop u0 f) (patchS 4 f (patchM true))).loops = [⟨0, 0x11, 0x12, 3, 0⟩]) ∧
    (let l : LoopSt := ⟨0, 0x10, 0x10, 3, 0⟩
     let m := { patchM true with loops := [l] }
     m.loops = l :: [] ∧ m.pc = l.last ∧ 1 < l.left ∧ (advance 0 m).pc = 0x10 ∧ (advance 0 m).loops = [⟨0, 0x10, 0x10, 2, 1⟩] ∧
     (advance 0 { m with loops := [⟨0, 0x10, 0x10, 1, 2⟩] }).pc = 0x11 ∧ (advance 0 { m with loops := [⟨0, 0xF, 0x11, 1, 2⟩] }).loops.length = 1) := by
  decide +kernel

/-- R280: ABS and NEG of −1 in lane 1 are 1; MOV copies; SETL writes lane 3 mod 4; LANE reads. -/
theorem test_PatchVectors : (let el (m : Mach) (r i : Nat) := vElem 32 (look {} m.v r) i
    el (machOf (.mov u0 { d := 2, a := 1 }) (patchS 8 { d := 2, a := 1 } (patchM true))) 2 1 = 0xFFFFFFFF ∧
    el (machOf (.abs u0 { d := 2, a := 1 }) (patchS 9 { d := 2, a := 1 } (patchM true))) 2 1 = 1 ∧
    el (machOf (.neg u0 { d := 2, a := 1 }) (patchS 10 { d := 2, a := 1 } (patchM true))) 2 0 = 2 ^ 32 - 7 ∧
    el (machOf (.setl u0 { d := 0, a := 0x11, b := 0x10 }) (patchS 12 { d := 0, a := 0x11, b := 0x10 } (patchM true))) 0 3 = 0xFFFFFFFF ∧
    sRead (machOf (.lane u0 { d := 0x12, a := 1, b := 0x1F, imm := 5 }) (patchS 11 { d := 0x12, a := 1, b := 0x1F, imm := 5 } (patchM true))) 0x12 0 = 0xFFFFFFFF ∧
    clsV 1 = true ∧ clsV 9 = true ∧ clsV 10 = false ∧ clsS 0x10 = true ∧ clsS 0x1C = true ∧ clsS 0x1F = true ∧ clsS 0x1D = false ∧ clsSD 0x19 = true ∧
    clsSD 0x1A = false ∧ ready 12 { d := 0, a := 0x11, b := 0x10 } (patchM true) = true) := by
  decide +kernel

/-- R280: S0 is 3, S1 is −1: sums wrap, shifts take five bits. -/
theorem test_PatchScalars : (let f (m : Nat) : PFields := { d := 0x12, a := 0x11, b := 0x10, m := m }
    let r (m : Nat) := sRead (machOf (.salu u0 (f m)) (patchS 13 (f m) (patchM true))) 0x12 0
    r 0 = 2 ∧ r 1 = 0xFFFFFFFC ∧ r 2 = 3 ∧ r 3 = 0xFFFFFFFF ∧ r 4 = 0xFFFFFFFC ∧ r 5 = 0xFFFFFFF8 ∧ r 6 = 0x1FFFFFFF ∧ r 7 = 0xFFFFFFFF ∧
    (machOf (.salu u0 (f 8)) (patchS 13 (f 8) (patchM true))).fault = 0x41 ∧
    sRead (machOf (.mov u0 { d := 0x12, a := 0x10 }) (patchS 8 { d := 0x12, a := 0x10 } (patchM true))) 0x12 0 = 3 ∧
    sRead (machOf (.pcnt u0 { d := 0x12, a := 0 }) (patchS 21 { d := 0x12, a := 0 } (patchM true))) 0x12 0 = 4 ∧ clsSD 0x12 = true) := by
  decide +kernel

theorem test_PatchPredicates : (let p (c : Instr) (op : Nat) (f : PFields) := pRead (machOf c (patchS op f (patchM true))) f.d
    p (.cmp u0 { d := 1, a := 0x11, b := 0x10, m := 2 }) 16 { d := 1, a := 0x11, b := 0x10, m := 2 } =
      (if condHolds 2 (some (compare (-1 : Int) 3)) then 15 else 0) ∧
    p (.cmp u0 { d := 1, a := 1, b := 0, m := 0 }) 16 { d := 1, a := 1, b := 0, m := 0 } = (if condHolds 0 (some .eq) then 12 else 0) + (if condHolds 0 (some .gt) then 1 else 0) + (if condHolds 0 (some .lt) then 2 else 0) ∧
    p (.pset u0 { d := 1, imm := 0xA5 }) 18 { d := 1, imm := 0xA5 } = 5 ∧ p (.pone u0 { d := 1, a := 0x10 }) 19 { d := 1, a := 0x10 } = 8 ∧
    p (.plog u0 { d := 1, a := 0, b := 2, m := 3 }) 20 { d := 1, a := 0, b := 2, m := 3 } = 15 ∧
    p (.plog u0 { d := 7, a := 0, b := 0, m := 2 }) 20 { d := 7, a := 0, b := 0, m := 2 } = 0 ∧
    ready 17 { d := 1, a := 1, m := 15 } (patchM true) = true ∧ (7 : Nat) % 8 ≠ 0 ∧ (clsS 1 && clsS 0) = false) := by
  decide +kernel

/-- R199: ACC adds 5 and three zeros to slot 0, CNT 4; AZERO empties; EMIT buffers 16 bytes, and 512 at most. -/
theorem test_PatchSlots : (let m := patchM true
    ((slotOf (machOf (.acc u0 { d := 0x20, a := 0 }) (patchS 24 { d := 0x20, a := 0 } m)) 0).a = BitVec.ofNat 384 (5 * 2 ^ 192)) ∧
    ((slotOf (machOf (.cnt u0 { d := 0x20 }) (patchS 25 { d := 0x20 } m)) 0).a = BitVec.ofNat 384 (4 * 2 ^ 192)) ∧
    ready 26 { d := 0x21, a := 0 } m = true ∧ (slotOf (machOf (.azero u0 { d := 0x20 }) (patchS 27 { d := 0x20 } { m with slots := [(0, { a := 1, zk := 0 })] })) 0) = {} ∧
    (machOf (.emit u0 { a := 0 }) (patchS 32 { a := 0 } m)).buffered = [5, 0, 0, 0, 0, 0, 0, 0, 0, 0, 0, 0, 0, 0, 0, 0] ∧
    (machOf (.emit u0 { a := 0 }) (patchS 32 { a := 0 } { m with buffered := List.replicate 496 0 })).buffered.length = 512 ∧
    (machOf (.emit u0 { a := 0 }) (patchS 32 { a := 0 } { m with buffered := List.replicate 497 0 })).fault = 0x44 ∧
    ready 33 { a := 0x10, b := 0x20 } m = true ∧ clsA 0x20 = true ∧ clsA 0x3F = true ∧ clsA 0x40 = false) := by
  decide +kernel

theorem test_Sums : ({} : Acc).zk ≤ 2 ∧ ({} : Acc).bad = false ∧ isSpecial ({} : Acc) = true ∧ ({} : Acc).a = 0 ∧ isSpecial ({ a := 5, zk := 0 } : Acc) = false ∧
    ([({} : Acc), { a := 1, zk := 0 }, { zk := 1 }].all fun a => decide (a.zk ≤ 2) && !a.bad && !a.nan && !(a.pinf || a.ninf) && decide (a.zk ≠ 0 → a = { zk := a.zk })) = true ∧
    decodeW (encodeW ({ a := 5, zk := 0 } : Acc)).1 (encodeW { a := 5, zk := 0 }).2 = { a := 5, zk := 0 } := by
  decide +kernel

/-! ### Tasks, steals and the patch store (09): tile 0 of die 2, run 1, its tile's neighbour to the east is tile 1 -/

def tkT (e : Nat) : Task := { patchTask with entry := e, count := 4 }
def run1 : Run := { bind := bindW true, entered := 1, limit := 1024, dst := 0x100, press := 5, tag := 9 }
def drnS (ts : SMap DrnTile) (s : State) : State := { s with dr := { s.dr with tiles := ts } }
def dispS : State := drnS [(tk 2 0, { queue := [{ tkT 1 with born := 3 }, { tkT 0 with born := 3 }], runs := [(1, run1)] })] State.reset

theorem test_TasksRun_dispatch : drnIdle dispS 2 0 0 = true ∧ pickTask dispS 2 0 0 = some { tkT 0 with born := 3 } ∧ drnIdle dispS 2 0 8 = false ∧
    pickTask State.reset 2 0 0 = none ∧ (tkT 0).kind = .patch ∧
    gives (.taskDispatch 2 0 0 [] .ok) dispS (fun t => decide ((darnerOf t 2 0 0).task = some { tkT 0 with born := 3 } ∧
      (drnTile t 2 0).queue = [{ tkT 1 with born := 3 }])) = true ∧
    gives (.taskDispatch 2 0 0 [] .storeParity) dispS (fun t => decide ((darnerOf t 2 0 0).mach.fault = 0x45)) = true ∧
    gives (.taskDispatch 2 0 0 [] .entryParity) dispS (fun t => decide ((darnerOf t 2 0 0).task = none ∧ (drnTile t 2 0).queue.length = 1)) = true := by
  decide +kernel

/-- The task on darner 0 is over with four bytes of records, or a fault. -/
def overD (ordered : Bool) (fault : Nat) : Darner :=
  { task := some { tkT 0 with ordered := ordered, stream := 12, oseq := 4 }, mach := { sect := .done, fault := fault, records := [1, 2, 3, 4] } }
def overS (ordered : Bool) (fault : Nat) (limit : Nat) : State :=
  drnS [(tk 2 0, { darners := [(0, overD ordered fault)], runs := [(1, { run1 with limit := limit, outBytes := 8 })] })] State.reset

theorem test_TasksRun_complete : (darnerOf (overS false 0 12) 2 0 0).task = some { tkT 0 with ordered := false, stream := 12, oseq := 4 } ∧
    (darnerOf (overS false 0 12) 2 0 0).mach.sect = .done ∧ (darnerOf (overS false 0 12) 2 0 0).holding = false ∧
    isSafe (overS false 0 12) 2 = false ∧ runOf (overS false 0 12) 2 0 1 = some { run1 with limit := 12, outBytes := 8 } ∧
    12 - resBytes run1.bind < 8 + 4 ∧ ¬ (16 - resBytes run1.bind < 8 + 4) ∧
    gives (.taskComplete 2 0 0 [] .ok) (overS false 0 16) (fun t => decide (t.out = [.userWrite 0x108 [1, 2, 3, 4]] ∧ (darnerOf t 2 0 0).task = none)) = true ∧
    gives (.taskComplete 2 0 0 [] .ok) (overS false 0 12) (fun t => decide (t.out = [] ∧ (runOf t 2 0 1).any (·.outFull))) = true ∧
    gives (.taskComplete 2 0 0 [] .ok) (overS false 0x41 16) (fun t => decide (t.out = [] ∧ (runOf t 2 0 1).map (·.status) = some 0x41)) = true := by
  decide +kernel

theorem test_TasksRun_reorder : (let s := overS true 0 16
    let t := arrives (.taskComplete 2 0 0 [] .ok) s
    (look ({} : Stream16) (drnTile t 2 0).streams 12).held = [⟨4, 0, 0, [1, 2, 3, 4], 0, 0⟩] ∧ (darnerOf t 2 0 0).holding = true ∧
    keeps (.taskComplete 2 0 0 [] .ok) t = true ∧ keeps (.reorderRelease 2 0 12) t = true ∧ (12 : Nat) ≤ 12 ∧
    (let h : HeldOut := ⟨4, 0, 0, [1, 2, 3, 4], 0, 0⟩
     let u := modDrn 2 0 (fun x => { x with streams := [(12, { next := 4, offset := 100, held := [h] })] }) t
     let k := look ({} : Stream16) (drnTile u 2 0).streams 12
     k.held.find? (fun h => decide (h.oseq = k.next)) = some h ∧ h.darner < 8 ∧
     gives (.reorderRelease 2 0 12) u (fun v => let k' := look ({} : Stream16) (drnTile v 2 0).streams 12
       decide ((darnerOf v 2 0 0).task = none ∧ k'.next = 5 ∧ k'.offset = 104 ∧ k'.held = [])) = true)) := by
  decide +kernel

/-- Tile 1 has an old stealable task; both tiles hold an image of tag 7. -/
def stealS (c : Nat) : State := at_ c <| setReg 2 (drnPage State.reset 2 0) 0x188 0 7 <| setReg 2 (drnPage State.reset 2 1) 0x188 0 7 <|
  drnS [(tk 2 1, { queue := [{ tkT 0 with cost := 3 }], runs := [(1, run1)] })] State.reset
def askS (c : Nat) : State := at_ c (arrives (.stealRequest 2 0 0 0) (stealS 32))

theorem test_Steals_ask : drnIdle (stealS 32) 2 0 0 = true ∧ (reg (stealS 32) 2 (drnPage (stealS 32) 2 0) 0x100).toNat.testBit 0 = true ∧
    (darnerOf (stealS 32) 2 0 0).asks = none ∧ pickTask (stealS 32) 2 0 0 = none ∧ stealFirst (stealS 32) 2 0 0 = some 0 ∧
    stealFirst (stealS 31) 2 0 0 = none ∧ keeps (.stealRequest 2 0 0 0) (stealS 31) = true ∧ keeps (.stealRequest 2 0 0 2) (stealS 32) = true ∧
    (darnerOf (askS 32) 2 0 0).asks = some (0, { tkT 0 with cost := 3 }, 32) := by
  decide +kernel

theorem test_Steals_grant : (darnerOf State.reset 2 0 0).asks = none ∧ keeps (.stealGrant 2 0 0 [] false) (askS 39) = true ∧ 32 + 8 ≤ (askS 40).tm.fclk ∧
    meshNeighbour 2 0 0 = some 1 ∧ { tkT 0 with cost := 3 } ∈ (drnTile (askS 40) 2 1).queue ∧ drnIdle (askS 40) 2 0 0 = true ∧
    stealBeaten (askS 40) 2 1 0 { tkT 0 with cost := 3 } 32 = false ∧ tileQuiesced (askS 40) 2 1 = false := by
  decide +kernel

/-- Tile 1's darners are busy, so that the thief gets the task; idle, they take it themselves (R243). -/
def busyS : State := modDrn 2 1 (fun x => { x with darners := (List.range 8).map fun d => (d, { holding := true }) }) (askS 40)

theorem test_Steals_granted : ownTakes (askS 40) 2 1 { tkT 0 with cost := 3 } = true ∧ ownTakes busyS 2 1 { tkT 0 with cost := 3 } = false ∧
    { tkT 0 with cost := 3 } ∈ (drnTile busyS 2 1).queue ∧ maySteal busyS 2 0 0 1 0 { tkT 0 with cost := 3 } = true ∧
    pickTask busyS 2 0 0 = none ∧ drnIdle busyS 2 0 0 = true ∧ (reg busyS 2 (drnPage busyS 2 0) 0x100).toNat.testBit 0 = true ∧ (darnerOf busyS 2 0 0).asks = some (0, { tkT 0 with cost := 3 }, 32) ∧
    gives (.stealGrant 2 0 0 [] false) (askS 40) (fun t => decide ((darnerOf t 2 0 0).asks = none ∧ (darnerOf t 2 0 0).task = none)) = true ∧
    gives (.stealGrant 2 0 0 [] true) busyS (fun t => decide ((darnerOf t 2 0 0).from_ = 1 ∧ (darnerOf t 2 0 0).endAt = 3 ∧
      countOf t 2 (drnPage t 2 0) 2 = 1 ∧ countOf t 2 (drnPage t 2 1) 3 = 1) && (darnerOf t 2 0 0).poisoned && !stealDir t 2 0 0 && !stealDir t 2 1 1) = true := by
  decide +kernel

/-- Completion queue 3 of context 5, with one place reserved. -/
def cqS (s : State) : State := modQueue 2 0 3 (fun q => { q with resv := 1 }) (setReg 2 (cipPage s 2 0) 0x114 3 (w32 (2 ^ 31 + 2 ^ 29 + 4 * 2 ^ 24 + 5)) s)
def endS (stopped : Bool) : State := cqS (drnS [(tk 2 0, { runs := [(1, { run1 with ctx := 5, finished := 1, outBytes := 40, stopped := stopped, status := 0x41 })] })] State.reset)

theorem test_RunEnds : runOf State.reset 2 0 1 = none ∧ runOf (endS false) 2 0 1 = some { run1 with ctx := 5, finished := 1, outBytes := 40, status := 0x41 } ∧
    run1.bind ≠ [] ∧ run1.nChunks ≤ 1 ∧ keeps (.patchRunComplete 2 0 1) dispS = true ∧ cqOf (endS false) 2 0 5 = some 3 ∧ (queueOf (endS false) 2 0 3).resv ≠ 0 ∧
    gives (.patchRunComplete 2 0 1) (endS false) (fun t => decide (runOf t 2 0 1 = none ∧ (queueOf t 2 0 3).resv = 0 ∧
      (queueOf t 2 0 3).visible.map (·.data) = [[9, 0, 2, 0, 0, 0, 0, 0, 40, 0, 0, 0, 5, 0, 0, 0]])) = true ∧
    gives (.patchRunComplete 2 0 1) (endS true) (fun t => decide ((queueOf t 2 0 3).visible.map (fun e => e.data.getD 4 0) = [0x41])) = true := by
  decide +kernel

/-- The patch store page of tile 0 of die 2 is 0x104. -/
def runningF : State := { State.reset with fw := { running := true } }
def psS (a : Nat) : State := setReg 2 0x104 0x190 0 (w32 a) (setReg 2 0x104 0x198 0 0x00080000 runningF)
/-- A chunk of a run of the other bank waits: the shadow bank is in use (R291). -/
def psBusy : State := drnS [(tk 2 0, { queue := [tkT 0], runs := [(1, { run1 with bank := 1 })] })] (psS 0)
/-- The image stands on die 1, a memory-side die. -/
def psMem : State := setReg 2 0x104 0x1A4 0 (w32 (2 ^ 14)) (psS 0)

theorem test_PatchStore_data : ([psS 0, psS 0x1FF, psS 0x200, psBusy].all fun s =>
      takenWith (fun i row => decide (i.kind = .drn ∧ row.off = 0x194)) s .fmc 2 0x104 0x194 7) = true ∧
    pageTile (psS 0) 2 0x104 = some 0 ∧ shadowBusy (psS 0) 2 0 = false ∧ shadowBusy psBusy 2 0 = true ∧
    rfld (psS 0x200) 2 0x104 0x190 9 0 = 0x200 ∧
    gives (.psDataLoWrite .fmc 2 0x104 7) (psS 0x1FF) (fun t => decide (bankWord t 2 0 1 0x1FF = 0x0008000000000007 ∧ rfld t 2 0x104 0x190 9 0 = 0x200)) = true ∧
    gives (.psDataLoWrite .fmc 2 0x104 7) (psS 0x200) (fun t => decide (t.dr.banks = [] ∧ rfld t 2 0x104 0x190 9 0 = 0x201)) = true ∧
    gives (.psDataLoWrite .fmc 2 0x104 7) (psS 0x3FF) (fun t => decide (t.dr.banks = [] ∧ rfld t 2 0x104 0x190 9 0 = 0)) = true ∧
    gives (.psDataLoWrite .fmc 2 0x104 7) psBusy (fun t => decide (t.dr.banks = []) && (pageOf t 2 0x104).bad) = true := by
  decide +kernel

theorem test_PatchStore_hyps : ∃ i row, Writes (psS 0) .fmc 2 0x104 0x194 7 i row ∧ i.kind = .drn := by
  obtain ⟨i, row, h, hp⟩ := writes_of (P := fun i _ => decide (i.kind = .drn)) (s := psS 0) (m := .fmc) (die := 2) (page := 0x104) (off := 0x194) (v := 7)
    (by decide +kernel)
  exact ⟨i, row, h, by simpa using hp⟩

/-- 9 instructions of context 5 at 503: one READ of 72 bytes; a count of 0, or past 512, is BAD_WRITE. -/
def ldV (first count : Nat) : Word := w32 (2 ^ 31 + 5 * 2 ^ 20 + count * 2 ^ 10 + first)

theorem test_PatchStore_load : takenWith (fun i _ => decide (i.kind = .drn)) psMem .fmc 2 0x104 0x1A8 (ldV 503 9) = true ∧
    takenWith (fun i _ => decide (i.kind = .drn)) (psS 0) .fmc 2 0x104 0x1A8 (ldV 503 9) = true ∧
    psPieces 10 ((reg64 psMem 2 0x104 0x1A0).toNat / 8 * 8) 503 9 = [(2 ^ 46, 503, 9)] ∧ shadowBusy psMem 2 0 = false ∧
    spanStatus psMem 2 0 5 (w64 (2 ^ 46)) 72 = 0 ∧ spanStatus (psS 0) 2 0 5 0 72 ≠ 0 ∧
    gives (.psLoadCmd .fmc 2 0x104 (ldV 503 9)) (psS 0) (fun t => (reg t 2 0x104 0x180).toNat.testBit 6 && decide (t.nt.inject = [])) = true ∧
    503 + 9 ≤ 512 ∧ ¬ (504 + 9 ≤ 512) ∧ (drnTile psMem 2 0).load = none ∧ wbits (ldV 503 9) 19 10 = 9 ∧ wbits (ldV 503 9) 9 0 = 503 ∧ wbits (ldV 503 9) 30 20 = 5 ∧
    gives (.psLoadCmd .fmc 2 0x104 (ldV 503 9)) psMem (fun t => decide ((drnTile t 2 0).load.map (fun l => (l.ctx, l.first, l.count, l.reads.map (·.2.2))) =
      some (5, 503, 9, [9]) ∧ (t.nt.inject.map fun e => e.2.length) = [1])) = true ∧
    gives (.psLoadCmd .fmc 2 0x104 (ldV 504 9)) (psS 0) (fun t => decide ((drnTile t 2 0).load = none) && (pageOf t 2 0x104).bad) = true ∧
    gives (.psLoadCmd .fmc 2 0x104 (ldV 0 0)) (psS 0) (fun t => (pageOf t 2 0x104).bad) = true ∧
    gives (.psLoadCmd .fmc 2 0x104 0) (psS 0) (fun t => decide (t.out = [.regDone .fmc 0 0])) = true := by
  decide +kernel

theorem test_PatchStore_loaded : (let s (r : List (BitVec 16 × Nat × Nat)) := drnS [(tk 2 0, { load := some ⟨5, 0, 8, r⟩ })] State.reset
    (drnTile (s []) 2 0).load = some ⟨5, 0, 8, []⟩ ∧ keeps (.psLoadComplete 2 0) (s [(1, 0, 8)]) = true ∧
    gives (.psLoadComplete 2 0) (s []) (fun t => decide ((drnTile t 2 0).load = none)) = true) := by
  decide +kernel

/-! ### The CIP (11): stream 5, context 7 (active) of tile 0 of die 2, its receive queue 3 of 16 entries -/

def hd : CipHdr := ⟨2, 0, 5, 7⟩
def qw (ordered : Bool) (size max ctx : Nat) : Word := w32 (2 ^ 31 + (if ordered then 2 ^ 30 else 0) + size * 2 ^ 24 + max * 2 ^ 16 + ctx)
def cqw (ctx : Nat) : Word := w32 (2 ^ 31 + 2 ^ 29 + 4 * 2 ^ 24 + ctx)
def act7 (s : State) : State := { s with rs := { s.rs with active := [7] } }
def cipS : State := setReg 2 0x103 0x114 3 (qw false 4 8 7) (act7 (withUnits [(2, unit 5 12500 0)] State.reset))
/-- The message address of queue 3 with tag 1, of this tile. -/
def toQ3 : DWord := epAddr 0 2 0 0 (3 * 256 + 1)
def respOf (c : Instr) (s : State) : List Output := (arrives c s).out
def told (c : Instr) (s : State) (code : Nat) : Bool := decide (respOf c s = [.cipRsp 2 0 5 code []])

theorem test_Fenced_commands : hasCip 2 0 = true ∧ isAsleep cipS 2 0 = false ∧ streamBusy cipS 2 0 5 = false ∧ hasCip 0 0 = false ∧
    (let sf := { cipS with ft := { safeDies := [2] } }
     let q := { cipS with rs := { cipS.rs with busy := some { kind := 2, die := 2, phase := 1, part := 0, since := 0 } } }
     let i := { cipS with ft := { isolated := [2] } }
     let w := { cipS with fw := { carried := true } }
     isSafe sf 2 = true ∧ tileQuiesced q 2 0 = true ∧ isSafe q 2 = false ∧ isIsolated i 2 = true ∧ tileQuiesced i 2 0 = false ∧
     isIsolated w 2 = false ∧ w.fw.carried = true ∧ activeOn State.reset 2 0 7 = false ∧ activeOn cipS 2 0 7 = true ∧
     told (.dbWait hd 3 1) sf 0x89 = true ∧ told (.dbWait hd 3 1) q 0x20 = true ∧ told (.dbWait hd 3 1) i 0x88 = true ∧
     told (.dbWait hd 3 1) State.reset 0x5B = true ∧ keeps (.dbWait ⟨2, 0, 128, 7⟩ 3 1) cipS = true ∧
     gives (.dbWait hd 3 1) w (fun t => decide ((look? (cipOf t 2 0).streams 5).map (·.wait) = some (.pause (.dbWait hd 3 1)) ∧ t.out = [])) = true) := by
  decide +kernel

theorem test_Fenced_packets : (let i := { cipS with ft := { isolated := [2] } }
    let q := { cipS with rs := { cipS.rs with busy := some { kind := 3, die := 2, phase := 1, part := 0, since := 0 } } }
    fenced i 2 0 = true ∧ tileQuiesced q 2 0 = true ∧ (cipOf cipS 2 0).streams = [] ∧ (cipOf cipS 2 0).queues = [] ∧ (cipOf cipS 2 0).rings = [] ∧
    gives (.dbInc 2 0 { cls := .ctrl, opcode := 0x16, ctx := 7 }) i (fun t => decide ((t.nt.inject.map fun e => e.2.map (·.pkt.operand)) = [[0x20]])) = true ∧
    gives (.bskDone 2 0 { opcode := 0x95 }) q (fun t => decide (countOf t 2 0x103 6 = 1)) = true) := by
  decide +kernel

/-- Entry 0 of the credit cache holds n credits for queue 3. -/
def credS (n : Nat) (req : Option (BitVec 16)) : State :=
  modCip 2 0 (fun c => { c with cache := [(0, { dest := queueAddr toQ3, ctx := 7, credits := n, lastGrant := 8, req := req })], reqSeq := 9 }) cipS
/-- The cache is full of entries that hold no credits. -/
def fullS (req : Option (BitVec 16)) : State :=
  modCip 2 0 (fun c => { c with cache := (List.range 256).map fun i => (i, { dest := epAddr 0 2 1 0 (256 * i), ctx := 7, req := req }) }) cipS

theorem test_Send_hyps : cipGate cipS hd = .go ∧ addrStatus cipS 2 0 7 toQ3 = 0 ∧ isMsgIdx toQ3 = true ∧ isMsgIdx (epAddr 0 2 0 0 0x100000) = false ∧
    addrStatus cipS 2 0 7 (epAddr 0 2 0 0 0x100000) = 0 ∧ addrStatus cipS 2 0 7 (epAddr 9 2 0 0 0) ≠ 0 ∧
    cipGate (credS 3 none) hd = .go ∧ cipGate (fullS none) hd = .go ∧ ((findCache (credS 3 none) 2 0 7 toQ3).map (·.1)) = some 0 ∧
    findCache cipS 2 0 7 toQ3 = none ∧ freeSlotOf (cipOf cipS 2 0) = some 0 ∧ freeSlotOf (cipOf (fullS none) 2 0) = none ∧
    findCache (fullS none) 2 0 7 toQ3 = none ∧ lruEntry (cipOf (fullS none) 2 0) = some 0 ∧ lruEntry (cipOf (fullS (some 1)) 2 0) = none := by
  decide +kernel

def ops (s : State) : List (Byte × DWord) := s.nt.inject.flatMap fun e => e.2.map fun q => (q.pkt.opcode, q.pkt.operand)

/-- R363: a credit is spent; the fourth of eight asks again; none left asks and waits. -/
theorem test_Send : told (.send hd toQ3 0 []) cipS 0x5C = true ∧ told (.send hd toQ3 57 []) cipS 0x5C = true ∧
    told (.send hd (epAddr 0 2 0 0 0x100000) 8 []) cipS 0x10 = true ∧ told (.send hd (epAddr 9 2 0 0 0) 8 []) cipS 0x11 = true ∧
    told (.send hd toQ3 56 []) (credS 6 none) 0 = true ∧ (ops (arrives (.send hd toQ3 9 []) (credS 6 none))).map (·.1) = [0x10] ∧
    (ops (arrives (.send hd toQ3 9 []) (credS 5 none))).map (·.1) = [0x10] ∧
    (ops (arrives (.send hd toQ3 9 []) (credS 4 none))).map (·.1) = [0x10, 0x11] ∧
    (ops (arrives (.send hd toQ3 9 []) (credS 4 (some 1)))).map (·.1) = [0x10] ∧
    (ops (arrives (.send hd toQ3 9 []) (credS 0 none))).map (·.1) = [0x11] ∧ respOf (.send hd toQ3 9 []) (credS 0 none) = [] ∧
    (ops (arrives (.send hd toQ3 9 []) cipS)).map (·.1) = [0x11] ∧
    ((look? (cipOf (arrives (.send hd toQ3 9 []) (fullS (some 1))) 2 0).streams 5).map (·.wait)) = some (.cacheEntry toQ3 9 []) := by
  decide +kernel

/-- A message of 12 bytes, and a request for 16 credits, from tile 1 of die 2. -/
def msgP : Packet := { cls := .ctrl, opcode := 0x10, ctx := 7, dest := toQ3, operand := 0x0807060504030201, payload := [9, 10, 11, 12], nbytes := 12, srcDie := 2, srcTile := 1 }
def reqP : Packet := { cls := .ctrl, opcode := 0x11, ctx := 7, dest := toQ3, operand := 16, srcDie := 2, srcTile := 1 }
def q3S (q : Queue) : State := modQueue 2 0 3 (fun _ => q) cipS

theorem test_Messages : fenced cipS 2 0 = false ∧ running cipS 2 = true ∧ running State.reset 2 = false ∧ qServes cipS 2 0 3 7 = true ∧ msgQueue toQ3 = 3 ∧
    plainVisible (queueOf cipS 2 0 3) + 0 < (qcfg cipS 2 0 3).size ∧
    gives (.msg 2 0 msgP) State.reset (fun t => decide (countOf t 2 0x103 6 = 1)) = true ∧
    gives (.msg 2 0 msgP) (q3S { outst := 2 }) (fun t => decide ((queueOf t 2 0 3).outst = 1 ∧
      (queueOf t 2 0 3).visible.map (·.data) = [[1, 2, 3, 4, 5, 6, 7, 8, 9, 10, 11, 12]] ∧ t.out.length = 1)) = true ∧
    gives (.msg 2 0 { msgP with ctx := 8 }) (q3S { outst := 2 }) (fun t => decide ((queueOf t 2 0 3).outst = 2 ∧ (queueOf t 2 0 3).visible = [])) = true := by
  decide +kernel

theorem test_CreditRequests : isMsgIdx reqP.dest = true ∧ qServes cipS 2 0 3 8 = false ∧ 0 < freePool cipS 2 0 3 ∧
    freePool (q3S { outst := 16 }) 2 0 3 = 0 ∧ waitersHeld (q3S { outst := 16 }) 2 0 < 1024 ∧
    ops (arrives (.creditReq 2 0 reqP) State.reset) = [(0x9F, 0x1F)] ∧ ops (arrives (.creditReq 2 0 { reqP with dest := epAddr 0 2 0 0 0x100000 }) cipS) = [(0x9F, 0x10)] ∧
    ops (arrives (.creditReq 2 0 { reqP with ctx := 8 }) cipS) = [(0x9F, 0x5D)] ∧
    ops (arrives (.creditReq 2 0 reqP) cipS) = [(0x91, 8)] ∧ ops (arrives (.creditReq 2 0 reqP) (q3S { outst := 13 })) = [(0x91, 3)] ∧
    ops (arrives (.creditReq 2 0 reqP) (q3S { outst := 16 })) = [] ∧
    (queueOf (arrives (.creditReq 2 0 reqP) (q3S { outst := 16 })) 2 0 3).waiters = [.credit reqP] ∧
    (queueOf (arrives (.creditReturn 2 0 reqP) (q3S { outst := 16 })) 2 0 3).outst = 0 ∧ (queueOf (arrives (.creditReturn 2 0 { reqP with ctx := 8 }) (q3S { outst := 16 })) 2 0 3).outst = 16 := by
  decide +kernel

/-- 1,024 requests wait already. -/
def crowdS : State := q3S { outst := 16, waiters := List.replicate 1024 (.credit reqP) }
theorem test_CreditLater : 1024 ≤ waitersHeld crowdS 2 0 ∧ ¬ ((queueOf crowdS 2 0 3).waiters = [] ∧ 0 < freePool crowdS 2 0 3) ∧ fenced crowdS 2 0 = false ∧
    running crowdS 2 = true ∧ qServes crowdS 2 0 3 7 = true := by
  decide +kernel

theorem test_StallNote : (let s := setReg 2 0x103 0x114 4 (cqw 7) cipS
    cqOf s 2 0 7 = some 4 ∧ (queueOf s 2 0 4).visible = [] ∧
    gives (.stallNote 2 0 { reqP with opcode := 0x18, operand := 0x1234567800000000 }) s (fun t => decide ((queueOf t 2 0 3).stallFrom = 0x12345678 ∧
      (queueOf t 2 0 4).visible.map (·.stall) = [true])) = true) := by
  decide +kernel

theorem test_Grants : look? (cipOf (credS 0 (some 9)) 2 0).cache 0 = some { dest := queueAddr toQ3, ctx := 7, credits := 0, lastGrant := 8, req := some 9 } ∧
    (let p : Packet := { opcode := 0x91, sseq := 9, operand := 5, ctx := 7 }
     fenced (credS 0 (some 9)) 2 0 = false ∧ poisonStatus p = 0 ∧ entryOfReq (credS 0 (some 9)) 2 0 9 = some 0 ∧
     ((look? (cipOf (arrives (.creditGrant 2 0 p) (credS 0 (some 9))) 2 0).cache 0).map fun e => (e.credits, e.lastGrant, e.req)) = some (5, 5, none)) ∧
    0 + 5 ≤ waitPress (credS 2 none) 2 ∧ hasSender (cipOf (credS 2 none) 2 0) { dest := queueAddr toQ3, ctx := 7 } = false ∧
    ops (arrives (.creditIdleReturn 2 0 0) (credS 2 none)) = [(0x12, 2)] ∧ (cipOf (arrives (.creditIdleReturn 2 0 0) (credS 2 none)) 2 0).cache = [] ∧
    keeps (.creditIdleReturn 2 0 0) (withUnits [(2, unit 4 12500 0)] (credS 2 none)) = true ∧
    (cipOf (arrives (.creditIdleReturn 2 0 0) (credS 2 (some 1))) 2 0).cache = [] := by
  decide +kernel

/-- Stream 5 has waited for credits since Press 0. -/
def stuckS (press : Nat) (abort : Bool) : State := setReg 2 0x103 0x100 0 (w32 (2 * 16 + (if abort then 1 else 0)))
  (modCip 2 0 (fun c => { c with
    cache := [(0, { dest := queueAddr toQ3, ctx := 7, req := some 1 })]
    streams := [(5, { ctx := 7, wait := .credit toQ3 8 [], since := 0, order := 0 })] }) (withUnits [(2, unit press 12500 0)] cipS))

theorem test_CreditStall : ((look? (cipOf (stuckS 3 true) 2 0).streams 5).map (·.since)) = some 0 ∧ 0 + stallLimit (stuckS 3 true) 2 0 + 1 ≤ waitPress (stuckS 3 true) 2 ∧
    abortOnStall (stuckS 3 true) 2 0 = true ∧ abortOnStall (stuckS 3 false) 2 0 = false ∧ keeps (.creditStall 2 0 5) (stuckS 2 true) = true ∧
    gives (.creditStall 2 0 5) (stuckS 3 true) (fun t => decide ((cipOf t 2 0).streams = [] ∧ t.out = [.cipRsp 2 0 5 0x59 []] ∧ countOf t 2 0x103 4 = 1) &&
      decide ((ops t).map (·.1) = [0x18])) = true ∧
    gives (.creditStall 2 0 5) (stuckS 3 false) (fun t => decide (((look? (cipOf t 2 0).streams 5).map (·.stalled)) = some true ∧ t.out = [])) = true := by
  decide +kernel

theorem test_CreditStall_post : (let d : Desc := { id := 1, bytes := [], kind := 0, stream := 6, ctx := 7, phase := .reserving, since := 0 }
    let s := modCip 2 0 (fun c => { c with streams := [], descs := [d] }) (stuckS 3 false)
    look? (cipOf s 2 0).streams 6 = none ∧ look? (cipOf cipS 2 0).streams 6 = none ∧ d ∈ (cipOf s 2 0).descs ∧ keeps (.creditStall 2 0 6) cipS = true ∧
    gives (.creditStall 2 0 6) s (fun t => (pageOf t 2 0x103).fault.toNat.testBit 0) = true) := by
  decide +kernel

def ent : QEntry := { word := 1, data := [7], stamp := 5 }
theorem test_Receive : qServes (q3S { visible := [ent] }) 2 0 3 7 = true ∧ (queueOf (q3S { visible := [ent] }) 2 0 3).visible = ent :: [] ∧
    (queueOf cipS 2 0 3).visible = [] ∧ cipGate (q3S { visible := [ent] }) hd = .go ∧ told (.recv hd 4 false) cipS 0x5D = true ∧ told (.recv hd 3 true) cipS 0x64 = true ∧
    respOf (.recv hd 3 false) (q3S { visible := [ent] }) = [.cipRsp 2 0 5 0 (entryBytes ent)] ∧ (entryBytes ent).length = 64 ∧
    gives (.recv hd 3 false) cipS (fun t => decide ((look? (cipOf t 2 0).streams 5).map (·.wait) = some (.recv 3))) = true := by
  decide +kernel

/-- Basket 63 of tile 0 sums INT32 for context 7 into queue 3. -/
def bskS (k : BasketEntry) : State := { setReg 2 0x105 0x10C 63 (w32 (2 ^ 31 + 3 * 2 ^ 11 + 7)) (setReg 2 0x105 0x110 63 0x1212 cipS) with
  bk := if k = {} then [] else [(bkKey 2 0 63 31, k)] }
def armedB (count expect : Nat) : BasketEntry := { armed := true, tag := 0xAB, expect := expect, count := count, armSeq := 4 }

theorem test_Baskets_arm : bskBound (bskS {}) 2 0 63 = true ∧ bskCtx (bskCfg (bskS {}) 2 0 63) = 7 ∧ bskQueue (bskCfg (bskS {}) 2 0 63) = 3 ∧ bskBound cipS 2 0 63 = false ∧
    cipGate (bskS {}) hd = .go ∧ 1 ≤ freePool (bskS {}) 2 0 3 ∧ freePool (modQueue 2 0 3 (fun q => { q with outst := 16 }) (bskS {})) 2 0 3 = 0 ∧
    told (.bskArm hd 63 31 0xAB 0) (bskS {}) 0x5C = true ∧ told (.bskArm hd 63 31 0xAB 1) cipS 0x5F = true ∧
    told (.bskArm hd 63 31 0xAB 1) (setReg 2 0x103 0x114 3 0 (bskS {})) 0x5D = true ∧ told (.bskArm hd 63 31 0xAB 1) (bskS (armedB 0 1)) 0x60 = true ∧
    gives (.bskArm hd 63 31 0xAB 9) (bskS { armSeq := 4 }) (fun t => decide (bkOf t 2 0 63 31 = { armedB 0 9 with armSeq := 5 } ∧ (queueOf t 2 0 3).resv = 1)) = true ∧
    gives (.bskArm hd 63 31 0xAB 9) (modQueue 2 0 3 (fun q => { q with outst := 16 }) (bskS {})) (fun t => decide ((queueOf t 2 0 3).waiters = [.localResv 5 1] ∧ t.out = [])) = true := by
  decide +kernel

def toB63 : DWord := epAddr 0 2 0 1 63
theorem test_Baskets_add : addrStatus cipS 2 0 7 toB63 = 0 ∧ aRegion toB63 = 1 ∧ aPort toB63 = 1 ∧ aIdx toB63 = 63 ∧ aPort toQ3 ≠ 1 ∧ told (.add hd toQ3 0 1) cipS 0x10 = true ∧
    told (.add hd (epAddr 9 2 0 1 0) 0 1) cipS 0x11 = true ∧ ops (arrives (.add hd toB63 31 5) cipS) = [(0x15, w64 (31 * 2 ^ 32 + 5))] := by
  decide +kernel

def addP : Packet := { cls := .ctrl, opcode := 0x15, ctx := 7, dest := toB63, operand := w64 (31 * 2 ^ 32 + 5), srcDie := 2, srcTile := 1 }
/-- R387: the last contribution delivers the sum 5; the one before only counts. -/
theorem test_Baskets_arrive : activeOn (bskS (armedB 0 2)) 2 0 7 = true ∧ activeOn (bskS {}) 2 0 8 = false ∧ (bkOf (bskS (armedB 0 2)) 2 0 63 31).armed = true ∧
    bskBound (bskS (armedB 0 2)) 2 0 63 = true ∧ chainBsk (bskS (armedB 1 2)) 7 = false ∧ (qcfg (bskS (armedB 1 2)) 2 0 3).ordered = false ∧
    fenced (bskS (armedB 0 2)) 2 0 = false ∧ 0 + 1 < 2 ∧ ¬ (1 + 1 < 2) ∧
    gives (.bskAdd 2 0 { addP with ctx := 8 }) (bskS {}) (fun t => decide (countOf t 2 0x103 6 = 1 ∧ t.nt.inject = [])) = true ∧
    gives (.bskAdd 2 0 addP) (bskS {}) (fun t => decide (ops t = [(0x9F, 0x5F)] ∧ countOf t 2 0x105 2 = 1)) = true ∧
    gives (.bskAdd 2 0 addP) (bskS (armedB 0 2)) (fun t => decide ((ops t).map (·.1) = [0x95] ∧ (bkOf t 2 0 63 31).count = 1 ∧ t.out = [])) = true ∧
    gives (.bskAdd 2 0 addP) (modQueue 2 0 3 (fun q => { q with resv := 1 }) (bskS (armedB 0 1))) (fun t => decide ((bkOf t 2 0 63 31).armed = false ∧ (queueOf t 2 0 3).resv = 0 ∧
      (queueOf t 2 0 3).visible.map (·.data) = [[5, 0, 0, 0, 0, 0, 0, 0]])) = true := by
  decide +kernel

theorem test_Baskets_done : (let s := modCip 2 0 (fun c => { c with streams := [(5, { ctx := 7, wait := .add 9, since := 5, order := 0 })] }) cipS
    (cipOf s 2 0).streams.find? (fun y => decide (y.2.wait = .add 9)) = some (5, { ctx := 7, wait := .add 9, since := 5, order := 0 }) ∧
    fenced s 2 0 = false ∧ told (.bskDone 2 0 { opcode := 0x95, sseq := 9 }) s 0 = true ∧ (cipOf (arrives (.bskDone 2 0 { opcode := 0x95, sseq := 9 }) s) 2 0).streams = []) := by
  decide +kernel

/-! ### Rings, doorbells, pegs, descriptors, multicasts and their answers (11) -/

/-- Ring 9 of tile 0: 64 KiB at 1 MiB, context 7; unsplit unless said. -/
def ringC (split : Bool) (s : State) : State :=
  setReg 2 0x103 0x144 9 (w32 (2 ^ 31 + (if split then 2 ^ 30 else 0) + 16 * 2 ^ 25 + 7)) (setReg 2 0x103 0x148 9 0x100000 s)
def ringS (r : Ring) : State := modCip 2 0 (fun c => { c with rings := [(9, r)] }) (ringC false cipS)

theorem test_Rings_stream : cipGate (ringS { visible := 64 }) hd = .go ∧ ringServes (ringS {}) 2 0 9 7 = true ∧ ringServes cipS 2 0 9 7 = false ∧
    told (.ringWait hd 9) cipS 0x5D = true ∧ told (.ringFree hd 9 0) cipS 0x5D = true ∧
    respOf (.ringWait hd 9) (ringS { visible := 64 }) = [.cipRsp 2 0 5 0 [64, 0, 0, 0, 0, 0, 0, 0]] ∧
    gives (.ringWait hd 9) (ringS { head := 64, visible := 64, tail := 64 }) (fun t => decide ((look? (cipOf t 2 0).streams 5).map (·.wait) = some (.ring 9))) = true ∧
    told (.ringFree hd 9 65) (ringS { visible := 128, marks := [64, 128] }) 0x65 = true ∧
    gives (.ringFree hd 9 64) (ringS { visible := 128, tail := 128, marks := [64, 128] }) (fun t => decide ((ringOf t 2 0 9).head = 64 ∧ (ringOf t 2 0 9).marks = [128])) = true ∧
    gives (.ringFree hd 9 0) (ringS { visible := 128, marks := [128] }) (fun t => decide ((ringOf t 2 0 9).head = 0 ∧ t.out = [.cipRsp 2 0 5 0 []])) = true := by
  decide +kernel

def rsvP (need : Nat) : Packet := { cls := .ctrl, opcode := 0x13, ctx := 7, dest := epAddr 0 2 0 0 (0x100000 + 9), operand := w64 need, srcDie := 2, srcTile := 1 }

/-- R375: the size exactly fits; one more does not; a record past the end leaves a PAD, or waits for its space. -/
theorem test_Rings_reserve : isRingIdx (rsvP 64).dest = true ∧ fenced (ringS {}) 2 0 = false ∧ (rcfg (ringS {}) 2 0 9).size = 65536 ∧ (rcfg (ringS {}) 2 0 9).split = false ∧
    ops (arrives (.ringReserve 2 0 { rsvP 64 with dest := toQ3 }) (ringS {})) = [(0x9F, 0x10)] ∧ ops (arrives (.ringReserve 2 0 (rsvP 64)) cipS) = [(0x9F, 0x5D)] ∧
    ops (arrives (.ringReserve 2 0 (rsvP 65600)) (ringS {})) = [(0x9F, 0x5A)] ∧
    ops (arrives (.ringReserve 2 0 (rsvP 65536)) (ringS {})) = [(0x93, w64 (0x100 * 2 ^ 32 + 16 * 2 ^ 56))] ∧
    (ringOf (arrives (.ringReserve 2 0 (rsvP 64)) (ringS { head := 64, tail := 65600 })) 2 0 9).waiting = [rsvP 64] ∧
    (ringOf (arrives (.ringReserve 2 0 (rsvP 128)) (ringS { head := 64, tail := 65472 })) 2 0 9).waiting = [rsvP 128] ∧
    (ringOf (arrives (.ringReserve 2 0 (rsvP 128)) (ringS { head := 64, tail := 65472 })) 2 0 9).tail = 65536 ∧
    (ringOf (arrives (.ringReserve 2 0 (rsvP 64)) (ringS { head := 64, tail := 65472 })) 2 0 9).tail = 65536 ∧
    (ringOf (arrives (.ringReserve 2 0 (rsvP 128)) (ringS { head := 128, tail := 65472 })) 2 0 9).tail = 65664 ∧
    (ringOf (arrives (.ringReserve 2 0 (rsvP 192)) (ringS { head := 65408 - 65536 + 128, tail := 65408 })) 2 0 9).waiting = [rsvP 192] := by
  decide +kernel

/-- The space up to the end is itself not free: the reservation waits without a PAD. -/
theorem test_Rings_padWaits : (let x : Ring := { head := 65536 + 65408 - 65472, tail := 65536 + 65408 }
    (ringOf (ringS x) 2 0 9) = x ∧ 65536 - (65536 + 65408) % 65536 = 128 ∧ 128 < 192 ∧ 65536 - (x.tail - x.head) = 64 ∧
    gives (.ringReserve 2 0 (rsvP 192)) (ringS x) (fun t => decide ((ringOf t 2 0 9).waiting = [rsvP 192] ∧ (ringOf t 2 0 9).tail = x.tail ∧ t.out = [])) = true) := by
  decide +kernel

theorem test_Rings_commit : (let a : RingRec := ⟨64, 64, false⟩
    let b : RingRec := ⟨128, 64, false⟩
    let s := ringS { tail := 192, recs := [a, b] }
    let c : Packet := { rsvP 64 with opcode := 0x14 }
    activeOn s 2 0 7 = true ∧ ringServes s 2 0 9 7 = true ∧ (ringOf s 2 0 9).recs = a :: [b] ∧ a ∉ [b] ∧ activeOn s 2 0 8 = false ∧
    gives (.ringCommit 2 0 c) s (fun t => decide ((ringOf t 2 0 9).visible = 128 ∧ (ringOf t 2 0 9).marks = [128] ∧ (ringOf t 2 0 9).recs = [b])) = true ∧
    gives (.ringCommit 2 0 { c with operand := 128 }) s (fun t => decide ((ringOf t 2 0 9).visible = 0)) = true ∧
    gives (.ringCommit 2 0 { c with ctx := 8 }) s (fun t => decide (countOf t 2 0x103 6 = 1)) = true) := by
  decide +kernel

/-- A descriptor's 32 bytes. -/
def descB (kind flags tag len : Nat) (src dst : DWord) (aux aux2 : Nat) : List Byte :=
  leBytes 1 kind ++ leBytes 1 flags ++ leBytes 2 tag ++ leBytes 4 len ++ leBytes 8 src.toNat ++ leBytes 8 dst.toNat ++ leBytes 4 aux ++ leBytes 4 aux2
def cmA (o : Nat) : DWord := memAddr 0 1 o
def rsD : Desc := { id := 1, bytes := descB 3 0 9 100 (cmA 0) (epAddr 0 2 0 0 (0x100000 + 9)) 0 0, kind := 3, stream := 5, ctx := 7, phase := .reserving, sseq := 4 }

theorem test_Rings_grant : (let s := modCip 2 0 (fun c => { c with descs := [rsD], reqSeq := 9 }) cipS
    let p : Packet := { opcode := 0x93, sseq := 4, operand := w64 (64 + 0x100 * 2 ^ 32 + 16 * 2 ^ 56) }
    (cipOf s 2 0).descs.find? (fun y => decide (y.phase = .reserving) && decide (y.sseq = p.sseq)) = some rsD ∧ descAt s 2 0 rsD.id = some rsD ∧
    gives (.ringGrant 2 0 p) s (fun t => decide ((descAt t 2 0 1).map (fun d => (d.phase, d.header, d.ringOff, d.ringBase, d.ringSize, d.sseq)) = some (.writing, true, 64, 0x100000, 65536, 9)) &&
      decide ((t.nt.inject.flatMap fun e => e.2.map fun q => (q.pkt.dest, q.pkt.operand)) = [(memAddr 0 2 (0x100000 + 64), 1040)])) = true) := by
  decide +kernel

/-- Doorbell 255 serves context 7. -/
def dbS (v : Word) : State := modCip 2 0 (fun c => { c with doorbells := [(255, v)] }) (setReg 2 0x103 0x18C 255 (w32 (2 ^ 31 + 7)) cipS)
theorem test_Doorbells : dbServes (dbS 1) 2 0 255 7 = true ∧ dbServes cipS 2 0 255 7 = false ∧ cipGate (dbS 1) hd = .go ∧ fenced (dbS 1) 2 0 = false ∧
    told (.dbWait hd 255 1) cipS 0x5D = true ∧ respOf (.dbWait hd 255 0xFFFFFFFF) (dbS 0x7FFFFFFE) = [.cipRsp 2 0 5 0 [0xFE, 0xFF, 0xFF, 0x7F]] ∧
    respOf (.dbWait hd 255 0xFFFFFFFF) (dbS 0x7FFFFFFF) = [] ∧ respOf (.dbWait hd 255 1) (dbS 1) = [.cipRsp 2 0 5 0 [1, 0, 0, 0]] ∧
    dbValue (arrives (.dbInc 2 0 { opcode := 0x16, ctx := 7, operand := 255 }) (dbS 0xFFFFFFFF)) 2 0 255 = 0 ∧
    gives (.dbInc 2 0 { opcode := 0x16, ctx := 8, operand := 255 }) (dbS 1) (fun t => decide (dbValue t 2 0 255 = 1 ∧ countOf t 2 0x103 6 = 1)) = true ∧
    respOf (.deferRead hd) cipS = [.cipRsp 2 0 5 0 [0, 0, 0, 0, 0, 0, 0, 0, 0, 0, 0, 0, 0, 0, 0, 0]] := by
  decide +kernel

/-- Peg 1023 of die 1 serves context 7. -/
def pegS (x : Peg) : State := { setReg 1 0x680 0x104 1023 (w32 (2 ^ 31 + 7)) cipS with pg := if x = {} then [] else [(pegKey 1 1023, x)] }
def pegA : DWord := epAddr 0 1 0 8 1023
def pegP (op : Byte) (v : DWord) : Packet := { cls := .ctrl, opcode := op, ctx := 7, dest := pegA, operand := v, srcDie := 2, srcTile := 0, sseq := 3 }

theorem test_Pegs_stream : addrStatus cipS 2 0 7 pegA = 0 ∧ aRegion pegA = 1 ∧ aPort pegA = 8 ∧ addrStatus cipS 2 0 7 (epAddr 9 1 0 8 0) ≠ 0 ∧ aPort toQ3 ≠ 8 ∧
    ops (arrives (.pegArmCmd hd pegA 9 true) cipS) = [(0x30, w64 (2 ^ 32 + 9))] ∧ ops (arrives (.pegReadCmd hd pegA) cipS) = [(0x33, 0)] ∧
    told (.pegAddCmd hd toQ3 1) cipS 0x10 = true ∧ told (.pegWaitCmd hd (epAddr 9 1 0 8 0) 1) cipS 0x11 = true ∧
    (let w : Stream := { ctx := 7, wait := .peg (pegP 0x31 1), since := 5, order := 0 }
     let s := modCip 2 0 (fun c => { c with streams := [(5, w)] }) cipS
     pegStream s 2 0 3 = some (5, w) ∧ tileQuiesced s 2 0 = false ∧
     respOf (.pegDone 2 0 { opcode := 0xB0, sseq := 3, operand := 0x0200000001 }) s = [.cipRsp 2 0 5 0 [1, 0, 0, 0, 2, 0, 0, 0]]) := by
  decide +kernel

def armedP (v t : Word) (auto : Bool) (ws : List PegWaiter) : Peg := { value := v, target := t, gen := 0xFFFFFFFF, auto := auto, armed := true, waiters := ws }

/-- R389: VALUE reaches TARGET (signed): GEN wraps to 0; the waiter for −1 is answered, the one for 0 stays; AUTO takes TARGET off. -/
theorem test_Pegs : pegServes (pegS {}) 1 1023 7 = true ∧ fenced (pegS {}) 1 5 = false ∧ pegServes cipS 1 1023 7 = false ∧ genPast 0 0xFFFFFFFF = true ∧ genPast 0 0 = false ∧
    genPast 0x80000000 0 = false ∧ BitVec.sle (5 : Word) 5 = true ∧ BitVec.sle (5 : Word) 0xFFFFFFFF = false ∧ pegPool (pegS {}) 1 < 4096 ∧
    (let f := { pegS {} with ft := { isolated := [1] } }
     fenced f 1 5 = true ∧ ops (arrives (.pegRead 1 (pegP 0x33 0)) f) = [(0xBF, 0x20)]) ∧
    ops (arrives (.pegRead 1 (pegP 0x33 0)) cipS) = [(0xBF, 0x62)] ∧ countOf (arrives (.pegAdd 1 (pegP 0x31 0)) cipS) 1 0x680 3 = 1 ∧
    pegOf (arrives (.pegArm 1 (pegP 0x30 0x100000009)) (pegS (armedP 4 5 false []))) 1 1023 = { armedP 0 9 true [] with reached := false } ∧
    ops (arrives (.pegAdd 1 (pegP 0x31 1)) (pegS (armedP 3 5 false []))) = [(0xB0, 0xFFFFFFFF00000004)] ∧
    (let go := (⟨0xFFFFFFFF, pegP 0x32 0xFFFFFFFF⟩ : PegWaiter)
     let stay := (⟨0, pegP 0x32 0⟩ : PegWaiter)
     let t := arrives (.pegAdd 1 (pegP 0x31 1)) (pegS (armedP 4 5 true [go, stay]))
     pegOf t 1 1023 = { armedP 0 5 true [stay] with gen := 0 } ∧ ops t = [(0xB0, 5), (0xB0, 0xFFFFFFFF00000000)]) ∧
    (pegOf (arrives (.pegAdd 1 (pegP 0x31 1)) (pegS (armedP 4 5 false []))) 1 1023).reached = true ∧
    ops (arrives (.pegWait 1 (pegP 0x32 0xFFFFFFFE)) (pegS (armedP 4 5 false []))) = [(0xB0, 0xFFFFFFFF00000004)] ∧
    (pegOf (arrives (.pegWait 1 (pegP 0x32 0xFFFFFFFF)) (pegS (armedP 4 5 false []))) 1 1023).waiters.length = 1 := by
  decide +kernel

theorem test_Pegs_full : (let s := pegS (armedP 4 5 false (List.replicate 4096 ⟨0, pegP 0x32 0⟩))
    4096 ≤ pegPool s 1 ∧ genPast 0xFFFFFFFF 0xFFFFFFFF = false ∧ (pegOf s 1 1023).gen = 0xFFFFFFFF ∧ ops (arrives (.pegWait 1 (pegP 0x32 0xFFFFFFFF)) s) = [(0xBF, 0x63)]) := by
  decide +kernel

/-- A COPY of 600 bytes of die 1, from 0x1F0 to 0x1000; context 7 has completion queue 4. -/
def copyD : List Byte := descB 1 0 9 600 (cmA 0x1F0) (cmA 0x1000) 0 0
def cqS4 : State := setReg 2 0x103 0x114 4 (cqw 7) cipS

theorem test_Posts_refused : cipGate cqS4 hd = .go ∧ descBad cqS4 2 0 7 copyD = false ∧ descBad cqS4 2 0 7 (copyD ++ [0]) = true ∧ cqOf cqS4 2 0 7 = some 4 ∧
    cqOf cipS 2 0 7 = none ∧ (queueOf cqS4 2 0 4).waiters = [] ∧ 2 ≤ freePool cqS4 2 0 4 ∧
    told (.copy hd (copyD ++ [0])) cqS4 0x5C = true ∧ told (.copy hd copyD) cipS 0x5D = true ∧
    (let s := modQueue 2 0 4 (fun q => { q with resv := 14 }) cqS4
     freePool s 2 0 4 = 1 ∧ gives (.copy hd copyD) s (fun t => decide ((queueOf t 2 0 4).waiters = [.localResv 5 2] ∧ t.out = [])) = true ∧
     freePool (modQueue 2 0 4 (fun q => { q with resv := 13 }) cqS4) 2 0 4 = 2) := by
  decide +kernel

/-- R379, R380: the piece ends at the granule of the source: 16 bytes; the outcome is accepted. -/
theorem test_Posts_copy : descAdm cqS4 2 0 7 copyD = .accept ∧ dKind copyD = 1 ∧
    gives (.copy hd copyD) cqS4 (fun t => decide ((cipOf t 2 0).descs.map (fun d => (d.phase, d.len, d.id)) = [(.reading, 16, 1)] ∧
      (t.nt.inject.flatMap fun e => e.2.map fun q => (q.pkt.dest, q.pkt.operand)) = [(cmA 0x1F0, 16)] ∧ (queueOf t 2 0 4).resv = 1) &&
      decide ((queueOf t 2 0 4).visible.map (·.data) = [record16 9 5 0 0 0 5])) = true := by
  decide +kernel

def treeS (owner : Nat) : State := setReg 2 0x103 0x184 4095 (w32 (2 ^ 31 + 7 * 2 ^ 20 + 2 * 2 ^ 14 + owner * 2 ^ 7)) cqS4
def mcD : List Byte := descB 2 0 9 600 (cmA 0) 0x1000 4095 1
def mcDesc (ph : DPhase) : Desc := { id := 1, bytes := mcD, kind := 2, stream := 5, ctx := 7, phase := ph, acked := 100, injected := 1 }

theorem test_Posts_others : (let s := treeS 0
    let b := modCip 2 0 (fun c => { c with descs := [mcDesc .acking], nextDesc := 2 }) s
    let l := { s with tm := { s.tm with lockNow := true } }
    descBad s 2 0 7 mcD = false ∧ descBad (treeS 1) 2 0 7 mcD = true ∧ descAdm s 2 0 7 mcD = .accept ∧ treeBusy (cipOf s 2 0) 4095 = false ∧ treeBusy (cipOf b 2 0) 4095 = true ∧
    descAdm l 2 0 7 mcD = .defer 0x1E ∧ (cipOf b 2 0).descs.all (fun d => decide (d.id < (cipOf b 2 0).nextDesc)) = true ∧
    gives (.multicast hd mcD) s (fun t => decide ((cipOf t 2 0).descs.map (·.phase) = [.reading])) = true ∧
    gives (.multicast hd mcD) b (fun t => decide ((cipOf t 2 0).descs.map (·.phase) = [.acking, .queued])) = true ∧
    gives (.multicast hd mcD) l (fun t => decide ((cipOf t 2 0).descs.map (·.held) = [true] ∧ deferOf t 2 0 7 0 = 1)) = true) ∧
    (let x := descB 4 0 9 8192 (cmA 0) 0 0 0
     descBad cqS4 2 0 7 x = false ∧ descAdm cqS4 2 0 7 x = .accept ∧ logEn cqS4 7 = false ∧ gives (.logPut hd x) cqS4 (fun t => decide ((cipOf t 2 0).descs = [])) = true ∧
     logEn (setReg (tallyDie 7) 0x690 0x104 (tlyEntry 7) (w32 (2 ^ 31)) cqS4) 7 = true) ∧
    (descBad cqS4 2 0 7 rsD.bytes = false ∧ descAdm cqS4 2 0 7 rsD.bytes = .accept ∧ recBytes rsD.bytes = 128 ∧
     ops (arrives (.ringSend hd rsD.bytes) cqS4) = [(0x13, 128)]) ∧
    (let x := descB 1 0 9 600 (epAddr 0 2 0 0 0) (cmA 0) 0 0
     descAdm cqS4 2 0 7 x = .refuse 0x10 ∧ gives (.copy hd x) cqS4 (fun t => decide ((cipOf t 2 0).descs = [] ∧ (queueOf t 2 0 4).resv = 0)) = true) := by
  decide +kernel

/-- Binding 0 of context 7 at tile 0 of die 2; a run of 8 elements, and one with no binding. -/
def patchB : State := setReg 2 0x104 0x1B4 2 (w32 (2 ^ 31 + 7 * 2 ^ 20 + 16)) <| setReg 2 0x104 0x1B8 2 (w32 (0x3FF * 2 ^ 22 + 0x10 * 2 ^ 12 + 0x3FF * 4)) <|
  setReg 2 0x104 0x1BC 2 0x1212 cqS4
def runD (count bindNo : Nat) : List Byte := [0x20] ++ leBytes 1 bindNo ++ [0, 0] ++ leBytes 4 count ++ leBytes 8 (cmA 0).toNat ++ leBytes 8 (cmA 0x1000).toNat ++ leBytes 4 64 ++ leBytes 2 9 ++ [0, 0]

theorem test_Posts_run : dKind (runD 8 0) = 0x20 ∧ descBad patchB 2 0 7 (runD 8 0) = false ∧ (runAdm patchB 2 0 (runOfDesc 5 7 (runD 8 0))).1 = .accept ∧
    (runAdm patchB 2 0 (runOfDesc 5 7 (runD 8 1))).1 = .refuse 0x42 ∧
    (runAdm (modDrn 2 0 (fun x => { x with darners := (List.range 8).map fun d => (d, { endAt := 200000 }) }) patchB) 2 0 (runOfDesc 5 7 (runD 8 0))).1 = .defer 0x29 ∧
    gives (.patchRunPost hd (runD 8 0)) patchB (fun t => decide ((runOf t 2 0 1).map (fun r => (r.cost, r.press)) = some (16 + 2 * 16, 5))) = true ∧
    gives (.patchRunPost hd (runD 8 1)) patchB (fun t => decide ((drnTile t 2 0).runs = [] ∧ (queueOf t 2 0 4).resv = 0)) = true := by
  decide +kernel

def openD (grp : Nat) : List Byte := [0x10, 0, 0, 0] ++ leBytes 2 grp ++ List.replicate 58 0
theorem test_Posts_open : dKind (openD 0) = 0x10 ∧ descBad cqS4 2 0 7 (openD 0xFFF) = false ∧
    gives (.seamOpenPost hd (openD 0)) cqS4 (fun t => decide ((cipOf t 2 0).opens.map (·.stream) = [5] ∧ (queueOf t 2 0 4).resv = 2 ∧ (ops t).map (·.1) = [0x20] ∧ t.out = [])) = true := by
  decide +kernel

/-- MC_ACK of 500 bytes of tree 4095 for tile 0 of die 2. -/
def ackP (n : Nat) : Packet := { cls := .ctrl, opcode := 0x16, ctx := 7, dest := epAddr 0 2 0 0 0, operand := w64 (4095 * 2 ^ 48 + n) }
def mcS (ph : DPhase) (press : Nat) : State := modQueue 2 0 4 (fun q => { q with resv := 1 }) (modCip 2 0 (fun c => { c with descs := [mcDesc ph] }) (withUnits [(2, unit press 12500 0)] (treeS 0)))

theorem test_Acks : aPkg (ackP 1).dest = pkgNo cipS ∧ aDie (ackP 1).dest = 2 ∧ aTile (ackP 1).dest = 0 ∧ fenced cipS 2 0 = false ∧ descAt (mcS .acking 5) 2 0 1 = some (mcDesc .acking) ∧
    dAux2 mcD * dLen mcD ≤ 100 + 500 ∧ ¬ (dAux2 mcD * dLen mcD ≤ 100 + 499) ∧
    (cipOf (mcS .acking 5) 2 0).descs.find? (fun d => decide (d.kind = 2) && decide (dAux d.bytes = 4095) && decide (d.phase ≠ .queued) && decide (d.ctx = 7)) = some (mcDesc .acking) ∧
    gives (.mcAck 2 0 (ackP 499)) (mcS .acking 5) (fun t => decide ((descAt t 2 0 1).map (·.acked) = some 599)) = true ∧
    gives (.mcAck 2 0 (ackP 500)) (mcS .acking 5) (fun t => decide ((cipOf t 2 0).descs = [])) = true ∧
    gives (.mcAck 2 0 (ackP 500)) cipS (fun t => decide (countOf t 2 0x103 6 = 1)) = true ∧
    ops (arrives (.mcAck 2 0 (ackP 500)) { cipS with ft := { isolated := [2] } }) = [(0x9F, 0x20)] := by
  decide +kernel

/-- The acknowledgement waits in a buffer of tile 1, which it passes. -/
def passS : State := { cipS with nt := { bufs := [(bkey 2 1 2 0 0 0, [{ pkt := ackP 500 }])] } }
theorem test_Acks_merge : ¬ (aTile (ackP 500).dest = 1) ∧ (passS.nt.bufs.find? (fun e => decide (e.1 / 1024 = tk 2 (physTile passS 2 1)))).isSome = true ∧
    (mergesOf passS 2 1).length < ackRoom passS 2 1 ∧ ackRoom passS 2 1 = 2048 ∧ keeps (.mcAck 2 1 (ackP 500)) cipS = true ∧
    gives (.mcAck 2 1 (ackP 500)) passS (fun t => decide ((mergesOf t 2 1).map (·.bytes) = [500] ∧ countOf t 2 (bskPage t 2 1) 3 = 1)) = true ∧
    (let m : AckMerge := { tree := 4095, dest := epAddr 0 2 0 0 0, ctx := 7, bytes := 500, at_ := 0 }
     let s (c : Nat) := at_ c { cipS with ci := { cipS.ci with merges := [(tk 2 1, [m])] } }
     0 + ackHold (s 256) 2 1 ≤ (s 256).tm.fclk ∧ (s 255).tm.fclk < 0 + ackHold (s 255) 2 1 ∧ keeps (.mcAckHoldExpiry 2 1 4095) (s 255) = true ∧
     gives (.mcAckHoldExpiry 2 1 4095) (s 256) (fun t => decide (mergesOf t 2 1 = [] ∧ (ops t) = [(0x16, w64 (4095 * 2 ^ 48 + 500))])) = true) := by
  decide +kernel

theorem test_Acks_wait : (cipOf cipS 2 0).descs = [] ∧ 1 + rfld (mcS .acking 17) 2 (cipPage (mcS .acking 17) 2 0) 0x10C 7 0 = 17 ∧ waitPress (mcS .acking 17) 2 = 17 ∧
    descAt (mcS .acking 17) 2 0 1 = some (mcDesc .acking) ∧ cqOf (mcS .acking 17) 2 0 7 = some 4 ∧ keeps (.mcAckWaitExpiry 2 0 4095) (mcS .acking 16) = true ∧
    keeps (.mcAckWaitExpiry 2 0 4095) cipS = true ∧
    gives (.mcAckWaitExpiry 2 0 4095) (mcS .acking 17) (fun t => decide ((cipOf t 2 0).descs = [] ∧ (queueOf t 2 0 4).visible.map (·.data) = [record16 9 6 0 0x61 0 17])) = true := by
  decide +kernel

def fetS (n : Nat) : State := modCip 2 0 (fun c => { c with fetches := List.replicate n ⟨5, 4⟩ }) cipS
theorem test_Fetches : fetchStatus cipS hd (cmA 0) = 0 ∧ fetchStatus cipS hd toQ3 = 0x10 ∧ hasCip 2 0 = true ∧ (hd.stream < 128) ∧
    keeps (.fetchRequest hd (cmA 0)) (fetS 4) = true ∧ respOf (.fetchRequest hd toQ3) (fetS 3) = [.fetchRsp 2 0 5 0x10 []] ∧
    gives (.fetchRequest hd (cmA 0x7F)) (fetS 3) (fun t => decide ((cipOf t 2 0).fetches.length = 4 ∧ (t.nt.inject.flatMap fun e => e.2.map fun q => (q.pkt.cls, q.pkt.dest)) = [(.fetch, cmA 0x40)])) = true := by
  decide +kernel

/-- A COPY descriptor's READ, SSEQ 4, or its WRITE; the answers come to tile 0 of die 2. -/
def cpD (ph : DPhase) (pos len nacks : Nat) : Desc := { id := 1, bytes := copyD, kind := 1, stream := 5, ctx := 7, phase := ph, pos := pos, len := len, sseq := 4, nacks := nacks }
def cpS (d : Desc) : State := modQueue 2 0 4 (fun q => { q with resv := 1 }) (modCip 2 0 (fun c => { c with descs := [d], reqSeq := 9 }) cqS4)
def rspP (op : Byte) (code : DWord) : Packet := { cls := .bulk, opcode := op, sseq := 4, ctx := 7, dest := epAddr 0 2 0 0 0, operand := code, payload := [1, 2] }

theorem test_Responses_copy : toHost 2 0 (rspP 0x80 0) = none ∧ poisonStatus (rspP 0x80 0) = 0 ∧ aPort (rspP 0x80 0).dest = 0 ∧ tileQuiesced cipS 2 0 = false ∧
    descOfReq (cpS (cpD .reading 0 16 0)) 2 0 4 = some (cpD .reading 0 16 0) ∧ descAt (cpS (cpD .writing 0 16 0)) 2 0 1 = some (cpD .writing 0 16 0) ∧
    dLen copyD ≤ 528 + 72 ∧ dFlags copyD = 0 ∧
    gives (.readData 2 0 (rspP 0x80 0)) (cpS (cpD .reading 0 16 0)) (fun t => decide ((descAt t 2 0 1).map (·.phase) = some .writing ∧
      (t.nt.inject.flatMap fun e => e.2.map fun q => (q.pkt.dest, q.pkt.operand)) = [(cmA 0x1000, 1040)])) = true ∧
    gives (.writeAck 2 0 (rspP 0x81 0)) (cpS (cpD .writing 0 16 0)) (fun t => decide ((descAt t 2 0 1).map (fun d => (d.phase, d.pos, d.len)) = some (.reading, 16, 496))) = true ∧
    gives (.writeAck 2 0 (rspP 0x81 0)) (cpS (cpD .writing 528 72 0)) (fun t => decide ((cipOf t 2 0).descs = [] ∧ (queueOf t 2 0 4).visible.map (·.data) = [record16 9 6 0 0 0 5])) = true ∧
    gives (.status 2 0 (rspP 0x8F 0x20)) (cpS (cpD .writing 0 16 14)) (fun t => decide ((descAt t 2 0 1).map (fun d => (d.nacks, d.again)) = some (15, true))) = true ∧
    gives (.status 2 0 (rspP 0x8F 0x20)) (cpS (cpD .writing 0 16 15)) (fun t => decide ((queueOf t 2 0 4).visible.map (·.data) = [record16 9 6 0 0x20 0 5])) = true := by
  decide +kernel

theorem test_Responses_fetch : (let f (op : Byte) (c : DWord) : Packet := { rspP op c with cls := .fetch, flags := 5 }
    ⟨5, 4⟩ ∈ (cipOf (fetS 1) 2 0).fetches ∧ respOf (.readData 2 0 (f 0x80 0)) (fetS 1) = [.fetchRsp 2 0 5 0 (padTo 64 [1, 2])] ∧
    respOf (.status 2 0 (f 0x8F 0x26)) (fetS 1) = [.fetchRsp 2 0 5 0x26 []] ∧ (cipOf (arrives (.status 2 0 (f 0x8F 0x26)) (fetS 1)) 2 0).fetches = []) ∧
    (let q := { cqS4 with rs := { cqS4.rs with busy := some { kind := 2, die := 2, phase := 1, part := 0, since := 0 } } }
     tileQuiesced q 2 0 = true ∧ gives (.readData 2 0 (rspP 0x80 0)) q (fun t => decide (countOf t 2 0x103 6 = 1)) = true) := by
  decide +kernel

/-- Host port 0 (die (0,0)) waits for the answer to SSEQ 4. -/
def hstS (r : HostReq) : State := { cipS with hs := [(0, { sent := [r] })] }
def hrP (op : Byte) (code : DWord) : Packet := { rspP op code with dest := epAddr 0 0 0 11 0 }
theorem test_Responses_host : toHost 0 5 (hrP 0x80 0) = some 0 ∧ hostDie 0 = 0 ∧ (hostOf (hstS ⟨4, 7, false, 0, 64⟩) 0).waiting = [] ∧ (hostOf cipS 0).sent = [] ∧
    takeFirst (fun x : HostReq => decide (x.sseq = 4)) (hostOf (hstS ⟨4, 7, false, 0, 64⟩) 0).sent = (some ⟨4, 7, false, 0, 64⟩, []) ∧
    64 ≤ inThisGranule (apertureAddr (hstS ⟨4, 7, false, 0, 64⟩) 0 0) 64 ∧ tileQuiesced cipS 0 5 = false ∧
    gives (.readData 0 5 (hrP 0x80 0)) cipS (fun t => decide (countOf t 0 0x718 5 = 1 ∧ t.out = [])) = true ∧
    respOf (.readData 0 5 (hrP 0x80 0)) (hstS ⟨4, 7, false, 0, 64⟩) = [.tlp 0 7 0 (padTo 64 [1, 2])] ∧
    gives (.writeAck 0 5 (hrP 0x81 0)) (hstS ⟨4, 7, true, 0, 64⟩) (fun t => decide ((hostOf t 0).sent = [] ∧ t.out = [])) = true ∧
    respOf (.status 0 5 (hrP 0x8F 0x10)) (hstS ⟨4, 7, false, 0, 64⟩) = [.tlp 0 7 1 []] ∧ respOf (.status 0 5 (hrP 0x8F 0x26)) (hstS ⟨4, 7, false, 0, 64⟩) = [.tlp 0 7 2 []] ∧
    gives (.status 0 5 (hrP 0x8F 0x26)) (hstS ⟨4, 7, true, 0, 64⟩) (fun t => decide ((hostOf t 0).errCode = 0x26)) = true := by
  decide +kernel

/-- R102: what is posted in the fold is admitted at once and begins with the next Press; the piece of a MULTICAST is read at its port. -/
theorem test_Posts_fold : (let f (s : State) : State := { s with tm := { s.tm with inFold := true } }
    descAdm (f cqS4) 2 0 7 copyD = .accept ∧ cipGate (f cqS4) hd = .go ∧ cqS4.tm.inFold = false ∧
    gives (.copy hd copyD) (f cqS4) (fun t => decide ((cipOf t 2 0).descs.map (·.phase) = [.queued] ∧ t.nt.inject = [])) = true ∧
    (let src := dSrc mcD
     let md := aDie src
     let mt := memTile src
     md = 1 ∧ fenced (treeS 0) md mt = false ∧ rfld (treeS 0) md (mpPage (treeS 0) md mt) 0x100 0 0 = 1 ∧ bits src.toNat 43 0 + 512 ≤ stackBytes ∧
     gives (.multicast hd mcD) (treeS 0) (fun t => decide ((mpOf t md mt).waiting.length = 1 ∧ t.nt.inject = [])) = true)) := by
  decide +kernel

/-! ### Seams (10): group 0 (home die 1, engine 0) has members tile 0 and tile 1 of die 2; a sum of 8 INT32 elements, all to all -/

def seamB (tag : Nat) (count : Nat) : List Byte := [0x10, 1, 0, 0, 0, 0] ++ leBytes 2 tag ++ leBytes 4 0x1212 ++ leBytes 4 0 ++ leBytes 8 count ++ leBytes 8 (cmA 0).toNat ++
  leBytes 8 (cmA 0x1000).toNat ++ leBytes 8 128 ++ List.replicate 16 0
def grpS (members : Nat) : State :=
  setReg 1 0x601 0x110 0 (w32 (2 ^ 31 + 2 ^ 11 + 7)) <| setReg 1 0x601 0x114 0 (w32 (2 * 2 ^ 16)) <| setReg 1 0x601 0x118 0 (w32 members) <|
  setReg 1 0x602 0x104 0 (w32 (2 ^ 31 + 2 * 2 ^ 7)) <| setReg 1 0x602 0x104 1 (w32 (2 ^ 31 + 2 * 2 ^ 7 + 1)) <| setReg 1 0x600 0x100 0 1 <|
  act7 (withUnits [(1, unit 5 12500 0), (2, unit 5 12500 0)] State.reset)
def openP (tile count : Nat) : Packet := { cls := .ctrl, opcode := 0x20, ctx := 7, dest := engAddr 0 1 0 0, srcDie := 2, srcTile := tile, sseq := 3, payload := seamB 9 count }
def member (rank : Nat) : MemberOpen := { rank := rank, die := 2, tile := rank, stream := 5, desc := descOf (seamB 9 8), epoch := 0 }
def rec0 (phase : Nat) (opens : List MemberOpen) : SeamRec :=
  { group := 0, gseq := 0, ctx := 7, phase := phase, first := 5, opens := opens, load := if phase < 2 then 0 else 32, total := if phase < 2 then 0 else 8 }
def recS (r : SeamRec) (s : State) : State := { s with se := { s.se with recs := [(seamKey 1 0 0, r)] } }

theorem test_Seams_open : fenced (grpS 2) 1 (engTile 1 0) = false ∧ (grpS 2).pr.following = false ∧ isLateShadow (grpS 2) (openP 0 8) = false ∧ (grpS 2).fw.carried = false ∧
    openAdm (grpS 2) 1 0 (openP 0 8) = .accept ∧ findRec (grpS 2) 0 0 = none ∧ findSlot (grpS 2) 0 2 1 = some (1, w32 (2 ^ 31 + 2 * 2 ^ 7 + 1)) ∧
    openAdm (grpS 2) 1 0 (openP 2 8) = .refuse 0x4B ∧ openAdm (grpS 2) 1 0 (openP 0 0) = .refuse 0x4A ∧ openAdm State.reset 1 0 (openP 0 8) = .refuse 0x1F ∧
    gives (.seamOpen 1 0 (openP 0 8)) (grpS 2) (fun t => decide ((recOf t (seamKey 1 0 0)).map (fun r => r.opens.map (fun o => (o.rank, o.tile))) = some [(0, 0)] ∧
      (ops t) = [(0xA0, w64 (5 * 2 ^ 32))] ∧ nextSeq t 0 2 0 = 1)) = true ∧
    gives (.seamOpen 1 0 (openP 2 8)) (grpS 2) (fun t => decide (t.se.recs = [] ∧ ops t = [(0xA0, w64 (5 * 2 ^ 32 + 2 * 2 ^ 14 + 0x4B))])) = true := by
  decide +kernel

theorem test_Seams_open2 : (let s := recS (rec0 0 [member 0]) (grpS 2)
    findRec s 0 0 = some (seamKey 1 0 0) ∧ recOf s (seamKey 1 0 0) = some (rec0 0 [member 0]) ∧ openAdm s 1 0 (openP 1 8) = .accept ∧
    gives (.seamOpen 1 0 (openP 1 8)) s (fun t => decide ((recOf t (seamKey 1 0 0)).map (fun r => (r.opens.map (·.rank), r.phase, r.allIn)) = some ([0, 1], 0, some 5) ∧ ops t = [(0xA0, w64 (5 * 2 ^ 32))])) = true) ∧
    (let f := { grpS 2 with ft := { isolated := [1] } }
     fenced f 1 (engTile 1 0) = true ∧ ops (arrives (.seamOpen 1 0 (openP 0 8)) f) = [(0xAF, 0x20)]) ∧
    (let c := { grpS 2 with fw := { carried := true } }
     c.fw.carried = true ∧ isLateShadow c (openP 0 8) = false ∧ gives (.seamOpen 1 0 (openP 0 8)) c (fun t => decide ((look [] t.se.mirror (ek 1 0)).length = 1 ∧ t.nt.inject = [])) = true) ∧
    (let l := { recS (rec0 2 [member 0]) (grpS 2) with se := { recs := [(seamKey 1 0 0, rec0 2 [member 0])] } }
     isLateShadow l (openP 0 8) = true ∧ findRec l 0 0 = some (seamKey 1 0 0) ∧
     gives (.seamOpen 1 0 (openP 0 8)) l (fun t => decide ((recOf t (seamKey 1 0 0)).map (·.lateOpens.length) = some 1)) = true) := by
  decide +kernel

/-- The governor asks for level 12: opens are deferred, 64 of them at most. -/
def govS (n : Nat) : State := { grpS 2 with se := { deferred := if n = 0 then [] else [(ek 1 0, List.replicate n (openP 0 8))] } }
theorem test_Seams_deferred : (64 ≤ (look [] (govS 64).se.deferred (ek 1 0)).length) ∧ ¬ (64 ≤ (look [] (govS 63).se.deferred (ek 1 0)).length) := by
  decide +kernel

theorem test_Seams_answers : (let o : OpenPost := ⟨3, 5, 7, seamB 9 8⟩
    let s := modQueue 2 0 4 (fun q => { q with resv := 2 }) (modCip 2 0 (fun c => { c with opens := [o] }) cqS4)
    let a : Packet := { opcode := 0xA0, sseq := 3, ctx := 7, operand := w64 (2 * 2 ^ 14 + 0x4B) }
    tileQuiesced s 2 0 = false ∧ poisonStatus a = 0 ∧ (cipOf s 2 0).opens.find? (fun x => decide (x.sseq = a.sseq)) = some o ∧ cqOf s 2 0 7 = some 4 ∧ (queueOf s 2 0 4).resv ≠ 0 ∧
    cqOf cipS 2 0 7 = none ∧
    gives (.seamAdmit 2 0 a) s (fun t => decide ((queueOf t 2 0 4).resv = 0 ∧ (cipOf t 2 0).opens = [] ∧ (t.out.getLast?) = some (.cipRsp 2 0 5 0 [0x4B, 0x80]))) = true ∧
    gives (.seamAdmit 2 0 { a with operand := 0 }) s (fun t => decide ((queueOf t 2 0 4).resv = 1)) = true ∧
    gives (.seamDone 2 0 { a with opcode := 0x27, payload := [1, 2] }) s (fun t => decide ((queueOf t 2 0 4).visible.map (·.data) = [padTo 16 [1, 2]])) = true ∧
    gives (.seamDone 2 0 { a with opcode := 0x27 }) cipS (fun t => decide (countOf t 2 0x103 6 = 1)) = true) := by
  decide +kernel

def sumP (src : Nat) (pkgs : List Nat) : Packet := { opcode := 0x21, srcPkg := src, operand := 0, payload := pkgs.flatMap fun k => leBytes 2 k ++ List.replicate 62 0 }
/-- A summary for no record is kept; for record 0, a second one of package 5 is not taken again; one from the same rank of packages goes on. -/
theorem test_Seams_summary : (let s := recS { rec0 0 [member 0] with summaries := [leBytes 2 5 ++ List.replicate 62 0] } (grpS 2)
    namedRec (grpS 2) 1 0 0 (sumP 5 [5]) = none ∧ namedRec s 1 0 0 (sumP 5 [5, 6]) = some (seamKey 1 0 0) ∧ (sumP 5 []).srcPkg / 64 = pkgNo s / 64 ∧ (sumP 64 []).srcPkg / 64 ≠ pkgNo s / 64 ∧
    gives (.seamSummary 1 0 0 (sumP 5 [5])) (grpS 2) (fun t => decide ((look [] t.se.early (ek 1 0)).length = 1)) = true ∧
    gives (.seamSummary 1 0 0 (sumP 5 [5, 6])) s (fun t => decide ((recOf t (seamKey 1 0 0)).map (·.summaries.length) = some 2) &&
      decide ((t.nt.inject.flatMap fun e => e.2.map fun q => (q.pkt.opcode, q.pkt.payload.length)) = [(0x21, 64)])) = true ∧
    gives (.seamSummary 1 0 0 (sumP 64 [5, 6])) s (fun t => decide (t.nt.inject = [])) = true ∧ gives (.seamSummary 1 0 0 (sumP 5 [5])) s (fun t => decide (t.nt.inject = [])) = true) := by
  decide +kernel

/-- Seam 0 asks tile 0 of die 2 for one darner. -/
def ref0 : SeamRef := ⟨0, 1, 0, 0, 0, 0, 7, 1, false⟩
def resS (share limit : Nat) (rs : List TileResv) : State :=
  { setReg 2 0x105 0x100 0 (w32 share) (setReg 2 0x104 0x108 0 (w32 limit) (recS (rec0 1 [member 0]) (grpS 2))) with
    se := { recs := [(seamKey 1 0 0, rec0 1 [member 0])], resv := if rs = [] then [] else [(tk 2 0, rs)] } }
def res1 : TileResv := { ref := { ref0 with gseq := 1, slot := 1 }, granted := true, darners := [0], basket := 0 }

theorem test_Reserve : recAt (resS 1 1 []) ref0 = some (rec0 1 [member 0]) ∧ recAt State.reset ref0 = none ∧ resvOf (resS 1 1 []) 2 0 = [] ∧ dieType 2 ≠ .io ∧
    rfld (resS 1 1 []) 2 (drnPage (resS 1 1 []) 2 0) 0x108 3 0 = 1 ∧ seamShare (resS 1 1 []) 2 0 = 1 ∧ seamShare (resS 0 1 []) 2 0 = 0 ∧ resvFits (resS 1 1 []) 2 0 ref0 [] = true ∧
    resvFits (resS 1 1 [{ res1 with set := true }]) 2 0 ref0 [] = false ∧ res1.granted = true ∧ ticketLt ref0 res1.ref = true ∧
    (resvOf (resS 1 1 [{ res1 with ref := ref0 }]) 2 0).any (fun r => sameSeam r.ref ref0) = true ∧
    ops (arrives (.seamReserve 2 0 ref0) (resS 1 1 [{ res1 with ref := ref0 }])) = [] ∧
    ops (arrives (.seamReserve 2 0 { ref0 with darners := 2 }) (resS 1 1 [])) = [(0xA2, w64 (2 * 2 ^ 14 + 0x3C))] ∧
    ops (arrives (.seamReserve 2 0 ref0) (resS 0 1 [])) = [(0xA2, w64 (2 * 2 ^ 14 + 0x53))] ∧
    gives (.seamReserve 2 0 ref0) (resS 1 1 []) (fun t => decide (ops t = [(0xA2, 0)] ∧ (darnerOf t 2 0 0).resv = some ref0 ∧ (darnerOf t 2 0 0).resvFrom = 0 ∧ (resvOf t 2 0).map (·.basket) = [0])) = true ∧
    ops (arrives (.seamReserve 2 0 ref0) (resS 1 1 [{ res1 with set := true }])) = [(0xA2, w64 (2 ^ 14 + 0x52))] ∧
    (ops (arrives (.seamReserve 2 0 ref0) (resS 1 1 [res1]))).map (·.1) = [0x23, 0xA2] ∧
    (dieType 0 = .io ∧ freeRec (resS 1 1 []) 0 (stageEng 4) = some 0 ∧
     gives (.seamReserve 0 4 ref0) (resS 1 1 []) (fun t => decide ((recOf t (seamKey 0 0 0)).map (·.home) = some (some ref0))) = true) := by
  decide +kernel

theorem test_Grant : (let r : SeamRec := { rec0 1 [member 0, member 1] with asked := true, total := 8, grants := [(2, 0)] }
    let s := recS r (grpS 2)
    recOf s (seamKey 1 0 0) = some r ∧ r.phase = 1 ∧ resvPlaces s r = [(2, 0), (2, 1)] ∧ loadSize s 1 r = some 16384 ∧ loadSize (withUnits [(1, unit 5 100 0)] s) 1 r = none ∧
    gives (.seamGrant 1 0 0 2 1 (BitVec.ofNat 16 (2 ^ 14 + 0x52))) s (fun t => decide ((recOf t (seamKey 1 0 0)).map (·.wait) = some (some (2, 1)))) = true ∧
    gives (.seamGrant 1 0 0 2 1 0x803C) s (fun t => decide ((recOf t (seamKey 1 0 0)).map (·.fails) = some [(0x3C, 0)])) = true ∧
    gives (.seamGrant 1 0 0 2 0 0) s (fun t => decide ((recOf t (seamKey 1 0 0)).map (·.phase) = some 1)) = true ∧
    gives (.seamGrant 1 0 0 2 1 0) s (fun t => decide ((recOf t (seamKey 1 0 0)).map (fun r => (r.phase, r.setPress)) = some (2, 5) ∧ (ops t).map (·.1) = [0x24, 0x24])) = true ∧
    gives (.seamGrant 1 0 0 2 1 0) (withUnits [(1, unit 5 100 0)] s) (fun t => decide ((recOf t (seamKey 1 0 0)).map (·.fails) = some [(0x1D, 0)])) = true ∧
    gives (.seamYieldAsk 1 0 0 2 0) s (fun t => decide ((recOf t (seamKey 1 0 0)).map (·.grants) = some [] ∧ (ops t).length = 2 ∧ countOf t 1 0x600 3 = 1)) = true) ∧
    (let s := recS (rec0 2 [member 0]) (grpS 2)
     (rec0 2 [member 0]).phase ≠ 1 ∧ ops (arrives (.seamYieldAsk 1 0 0 2 0) s) = [(0xA3, 0)] ∧ keeps (.seamGrant 1 0 0 2 0 0) s = true) := by
  decide +kernel

theorem test_SetAndRelease : (let s := resS 1 1 [{ res1 with ref := ref0 }]
    (resvOf s 2 0).all (·.granted) = true ∧ (resvOf s 2 0).any (fun r => sameSeam r.ref ref0) = true ∧
    gives (.seamSet 2 0 ref0 32) s (fun t => decide ((resvOf t 2 0).map (fun r => (r.set, r.load)) = [(true, 32)])) = true ∧
    gives (.seamRelease 2 0 ref0) s (fun t => decide (resvOf t 2 0 = [])) = true ∧ gives (.seamYield 2 0 ref0 true) s (fun t => decide (resvOf t 2 0 = [])) = true ∧
    keeps (.seamYield 2 0 ref0 false) s = true) := by
  decide +kernel

/-- Partials of values 5 and 6 for positions 3 and 4 of load 0. -/
def partP (op : Byte) (dst : DWord) : Packet :=
  { cls := .reduce, ctx := 7, dest := dst, opcode := op, srcDie := 2, srcTile := 1, ext := seamExt 0 0 0 3 0 2
    payload := if op = 0x25 then (encodeW { a := BitVec.ofNat 384 (5 * 2 ^ 192), zk := 0 }).2 ++ (encodeW { a := BitVec.ofNat 384 (6 * 2 ^ 192), zk := 0 }).2 else [5, 0, 0, 0, 6, 0, 0, 0] }
def loadS (r : SeamRec) : State := { recS r (grpS 2) with se := { recs := [(seamKey 1 0 0, r)], loads := [(tk 2 0, [{ ref := ref0, load := 0 }])] } }
def rec3 : SeamRec := { rec0 3 [member 0, member 1] with loads := [(0, { due := 5 })] }
def tA : DWord := epAddr 0 2 0 1 0
def eA : DWord := engAddr 0 1 0 0

theorem test_Values_tile : aPort tA ≠ 9 ∧ aPort eA = 9 ∧ recAt (loadS rec3) ref0 = some rec3 ∧ (tloadOf (loadS rec3) 2 0 ref0 0).map (·.load) = some 0 ∧ extCount (partP 0x25 tA) = 2 ∧
    (partP 0x25 tA).payload.length = 40 ∧ treeChildren rec3 2 0 = [1] ∧ ¬ ((2 : Nat) = 2 ∧ (0 : Nat) ∈ treeChildren rec3 2 1) ∧ outInLoad (loadS rec3) rec3 0 0 = (0, 8) ∧
    gives (.seamPart 2 0 ref0 1 (partP 0x25 tA)) (loadS rec3) (fun t => decide ((tloadOf t 2 0 ref0 0).map (fun l => l.vals.map (fun v => (v.1, v.2.acc.a, v.2.n))) =
      some [(3, BitVec.ofNat 384 (5 * 2 ^ 192), 1), (4, BitVec.ofNat 384 (6 * 2 ^ 192), 1)])) = true ∧
    gives (.seamData 2 1 ref0 2 0 (partP 0x26 tA)) (loadS rec3) (fun t => decide (t.out = [.userWrite (cmA 0x100C) [5, 0, 0, 0, 6, 0, 0, 0]])) = true ∧
    keeps (.seamPart 2 0 ref0 1 (partP 0x25 tA)) State.reset = true := by
  decide +kernel

/-- Die 1's engine is only used by members of two dies: one more member on die 5. -/
def rec2d : SeamRec := { rec0 3 [member 0, { member 1 with die := 5 }] with total := 2, loads := [(0, { due := 5 })] }
def half : SeamRec := { rec2d with loads := [(0, { due := 5, vals := [(0, { acc := { a := BitVec.ofNat 384 (2 ^ 192), zk := 0 }, n := 1 }), (1, { acc := { a := BitVec.ofNat 384 (2 ^ 192), zk := 0 }, n := 1 })] })] }
def partE : Packet := { partP 0x25 eA with ext := seamExt 0 0 0 0 0 2 }

theorem test_Values_home : dieType 1 ≠ .io ∧ keyOf ref0 = seamKey 1 0 0 ∧ recOf (loadS rec2d) (keyOf ref0) = some rec2d ∧ look? rec2d.loads 0 = some { due := 5 } ∧ poisonStatus partE = 0 ∧
    gXpkg (loadS rec2d) 0 = false ∧ rootDelivers (loadS rec2d) rec2d = false ∧ loadCount rec2d 0 = 2 ∧ expectAt (loadS rec2d) rec2d 0 0 = 2 ∧ isComb (descOfRec rec2d).op = true ∧
    keeps (.seamPart 1 5 ref0 1 partE) State.reset = true ∧
    gives (.seamPart 1 5 ref0 1 partE) (loadS rec2d) (fun t => decide ((recOf t (seamKey 1 0 0)).map (fun r => r.loads.map (fun l => l.2.vals.length)) = some [2] ∧ t.nt.inject = [])) = true ∧
    gives (.seamPart 1 5 ref0 1 partE) (loadS half) (fun t => decide ((recOf t (seamKey 1 0 0)).map (fun r => r.loads.map (fun l => (l.2.final, l.2.out.map (·.2)))) =
      some [(true, [[6, 0, 0, 0], [7, 0, 0, 0]])])) = true := by
  decide +kernel

theorem test_Values_stage : dieType 0 = .io ∧ findStage State.reset 0 (stageEng 4) 0 0 = none ∧ aPort (engAddr 0 0 0 0) = 9 ∧
    gives (.seamPart 0 4 ref0 1 { partE with dest := engAddr 0 0 0 0 }) State.reset (fun t => decide ((look [] t.se.early (ek 0 0)).length = 1)) = true := by
  decide +kernel

def abortP (op : Nat) : Packet := { opcode := BitVec.ofNat 8 op, operand := 0x51 }
/-- FLT 0x108 (WAIT) 2 from Press 5: at Press 7 not yet, at Press 8 it is over. -/
def toS (press wait : Nat) (r : SeamRec) : State := setReg 1 0x600 0x108 0 (w32 wait) (withUnits [(1, unit press 12500 0)] (recS r (grpS 2)))
def xgS (press : Nat) (r : SeamRec) : State := setReg 1 0x601 0x110 0 (w32 (2 ^ 31 + 2 ^ 30 + 2 ^ 11 + 7)) (toS press 2 r)

theorem test_SeamsFail : (let r := rec0 0 [member 0]
    namedRec (grpS 2) 1 0 255 (abortP 0x28) = some (seamKey 1 0 255) ∧ recOf (toS 8 2 r) (seamKey 1 0 0) = some r ∧ namedRec (grpS 2) 1 0 0 { abortP 0x28 with srcPkg := 5 } = none ∧
    gives (.seamAbort 1 0 0 (abortP 0x28)) (toS 8 2 r) (fun t => decide ((recOf t (seamKey 1 0 0)).map (·.fails) = some [(0x51, 0)])) = true ∧
    r.home = none ∧ r.allIn = none ∧ 5 + 2 < waitPress (toS 8 2 r) 1 ∧ ¬ (5 + 2 < waitPress (toS 7 2 r) 1) ∧ missingRank (toS 8 2 r) r = 1 ∧
    gives (.seamTimeout 1 0 0) (toS 8 2 r) (fun t => decide ((recOf t (seamKey 1 0 0)).map (fun r => (r.missing, r.fails)) = some (some 1, [(0x4C, 1)]))) = true ∧
    keeps (.seamTimeout 1 0 0) (toS 7 2 r) = true ∧ keeps (.seamTimeout 1 0 0) (toS 8 0 r) = true ∧ gXpkg (xgS 8 r) 0 = true ∧
    gives (.seamTimeout 1 0 0) (xgS 8 r) (fun t => decide ((recOf t (seamKey 1 0 0)).map (·.fails) = some [])) = true) := by
  decide +kernel

theorem test_SeamsFail_stall : (let r : SeamRec := { rec0 1 [member 0] with asked := true, reqs := [{ die := 2, tile := 0, since := 5 }] }
    let s (p : Nat) := setReg 1 0x600 0x110 0 2 (toS p 0 r)
    recOf (s 8) (seamKey 1 0 0) = some r ∧ 5 + 2 < waitPress (s 8) 1 ∧ keeps (.seamResStall 1 0 0 2 0) (s 7) = true ∧
    keeps (.seamResStall 1 0 0 2 9) (s 8) = true ∧
    gives (.seamResStall 1 0 0 2 0) (s 8) (fun t => decide ((recOf t (seamKey 1 0 0)).map (fun r => (r.reqs.map (·.stalled), r.wait)) = some ([true], some (2, 0))) && (pageOf t 1 0x600).fault.toNat.testBit 1) = true) ∧
    (let r : SeamRec := { rec0 0 [member 0] with exchange := some (0, 5) }
     let s (p : Nat) := setReg 1 0x601 0x120 0 0x20000 (setReg 1 0x601 0x128 0 (w32 (9 * 2 ^ 20)) (xgS p r))
     recOf (s 10) (seamKey 1 0 0) = some r ∧ r.fails = [] ∧ gXpkg (s 10) 0 = true ∧ gNext (s 10) 0 ≠ pkgNo (s 10) ∧ stepOverdue (s 10) (seamKey 1 0 0) r = true ∧
     keeps (.seamLinkLost 1 0 0) (s 9) = true ∧ gives (.seamLinkLost 1 0 0) (s 10) (fun t => decide ((recOf t (seamKey 1 0 0)).map (·.fails) = some [(0x51, 0)] ∧ (ops t).map (·.1) = [0x28])) = true) := by
  decide +kernel

theorem test_SeamsFail_command : (let s := { toS 5 0 (rec0 0 [member 0]) with fw := { running := true } }
    takenWith (fun i _ => decide (i.kind = .seam0)) s .fmc 1 0x600 0x114 (w32 (2 ^ 31)) = true ∧ (seamKey 1 ((0x600 - 0x600) / 16) 0 = seamKey 1 0 0) ∧
    recOf s (seamKey 1 0 0) = some (rec0 0 [member 0]) ∧
    gives (.seamAbortCmd .fmc 1 0x600 (w32 (2 ^ 31))) s (fun t => decide ((recOf t (seamKey 1 0 0)).map (·.fails) = some [(0x4D, 0)])) = true ∧
    gives (.seamAbortCmd .fmc 1 0x600 0) s (fun t => decide (t.out = [.regDone .fmc 0 0])) = true) := by
  decide +kernel

/-- GOV_LEVEL 12 defers an open, and with 64 kept refuses it; a bad partial is marked. -/
theorem test_Seams_gov : (let g (n : Nat) := setReg 0 0x720 0x108 0 12 (govS n)
    govLevel (g 0) = 12 ∧ openAdm (g 0) 1 0 (openP 0 8) = .defer 0x28 ∧ isLateShadow (g 0) (openP 0 8) = false ∧
    gives (.seamOpen 1 0 (openP 0 8)) (g 63) (fun t => decide ((look [] t.se.deferred (ek 1 0)).length = 64 ∧ ops t = [(0xA0, w64 (5 * 2 ^ 32 + 2 ^ 14 + 0x28))])) = true ∧
    gives (.seamOpen 1 0 (openP 0 8)) (g 64) (fun t => decide (ops t = [(0xA0, w64 (5 * 2 ^ 32 + 2 * 2 ^ 14 + 0x2A))])) = true) ∧
    (let p : Packet := { partP 0x25 tA with payload := List.replicate 40 255 }
     anyBad (unpackVals (descOfRec rec3) true false (extCount p) (extForms p) p.payload) = true ∧
     gives (.seamPart 2 0 ref0 1 p) (loadS rec3) (fun t => (pageOf t 2 (drnPage t 2 0)).fault.toNat.testBit 7) = true) ∧
    (let p : Packet := { partE with payload := List.replicate 40 255 }
     gives (.seamPart 1 5 ref0 1 p) (loadS rec2d) (fun t => (pageOf t 1 0x600).fault.toNat.testBit 0) = true) ∧
    gives (.seamAbort 1 0 0 (abortP 0x28)) (toS 8 2 { rec0 0 [member 0] with fails := [(0x4C, 1)] }) (fun t =>
      decide ((recOf t (seamKey 1 0 0)).map (·.fails) = some [(0x4C, 1), (0x51, 0)] ∧ t.nt.inject = [])) = true := by
  decide +kernel

/-! ### Logs and storage (12, 13), pairs (12), links (13): die 1 is the tally die of context 0; storage port 0 -/

def chS (x : Chain) (u : TlyUnit) : State := { runningF with ty := { chains := [(0, x)], units := [(1, u)] } }
def stoS (p : StoPort) (on_ : Nat) : State := { setReg (stoDie 0) 0x719 0x100 0 (w32 on_) runningF with lk := { stos := [(0, p)] } }

theorem test_Logs_checkpoint : takenWith (fun i _ => decide (i.kind = .tly0)) (chS {} {}) .fmc 1 0x690 0x158 (w32 (2 ^ 31)) = true ∧ 16 * 0 + memNo 1 = 0 ∧
    chainOf? (chS {} {}) 0 = some {} ∧ chainOf? runningF 0 = none ∧
    gives (.checkpointCmd .fmc 1 0x690 (w32 (2 ^ 31))) (setReg 1 0x690 0x150 0 7 (chS {} {})) (fun t => decide ((chainOf? t 0).map (fun x => x.due.map (fun e => (e.kind, e.ident))) =
      some [(4, [0, 0, 0, 0, 4, 0, 0, 0, 7, 0, 0, 0, 0, 0, 0, 0])])) = true ∧
    gives (.checkpointCmd .fmc 1 0x690 0) (chS {} {}) (fun t => decide (t.out = [.regDone .fmc 0 0])) = true := by
  decide +kernel

def big (n : Nat) : Bool × List Byte := (false, List.replicate n 0)
/-- R410: 24 + 8,896 + 32 bytes fill a datagram of 8,952; one byte more closes it first. A record of 8,928 bytes alone still fits. -/
theorem test_Logs_record : wbits (stoReg (stoS {} 1) 0 0x100) 0 0 = 1 ∧ wbits (stoReg (stoS {} 0) 0 0x100) 0 0 = 0 ∧ fillBytes [big 8896] + 32 = 8952 ∧
    stoSends (stoS { link := true, filling := [big 8896] } 1) 0 = true ∧ stoSends (stoS { link := false } 1) 0 = false ∧ isResent (stoS {} 1) [1] = false ∧
    gives (.logRec 0 (big 32).2) (stoS { link := true, filling := [big 8896] } 1) (fun t => decide (t.out = [] ∧ (stoOf t 0).filling.length = 2)) = true ∧
    gives (.logRec 0 (big 33).2) (stoS { link := true, filling := [big 8896] } 1) (fun t => decide (t.out.length = 1 ∧ (stoOf t 0).filling.length = 1 ∧ (stoOf t 0).dseq = 1)) = true ∧
    gives (.logRec 0 [1]) (stoS {} 0) (fun t => decide ((stoOf t 0).filling = [])) = true := by
  decide +kernel

theorem test_Logs_close : keeps (.datagramClose 0) (stoS { link := true } 1) = true ∧ keeps (.datagramClose 0) (stoS { filling := [big 1] } 1) = true ∧
    gives (.datagramClose 0) (stoS { link := true, filling := [big 1, (true, [2])], dseq := 9 } 1) (fun t => decide ((stoOf t 0).filling = [(true, [2])] ∧ (stoOf t 0).dseq = 10 ∧
      t.out.length = 1 ∧ countOf t (stoDie 0) 0x719 0 = 1)) = true := by
  decide +kernel

theorem test_Logs_gap : (let s := chS { lseq := 4 } { lost := [(0, (3, 2))] }
    tallyDie 0 = 1 ∧ look? (unitTly s 1).lost 0 = some (3, 2) ∧ chainOf? s 0 = some { lseq := 4 } ∧ s.pr.following = false ∧ logFits s 1 48 = true ∧
    gives (.gapRecord 1 0) s (fun t => decide ((unitTly t 1).lost = [] ∧ (chainOf? t 0).map (·.lseq) = some 5)) = true) := by
  decide +kernel

/-- The log buffer of die 1, with one record of its 2 MiB. -/
def fullLog (b : List Byte) : State := chS { lseq := 4 } { lost := [(0, (3, 2))], buf := [{ ctx := 0, press := 0, ports := [0], bytes := b }] }
theorem fullLog_fits (b : List Byte) : logFits (fullLog b) 1 48 = decide (b.length + 48 ≤ 2097152) := by
  simp [fullLog, chS, logFits, unitTly, look, logUsed, bytesOf, logRoom]
theorem test_Logs_full : ∃ b, logFits (fullLog b) 1 48 = false ∧ chainOf? (fullLog b) 0 = some { lseq := 4 } ∧ look? (unitTly (fullLog b) 1).lost 0 = some (3, 2) :=
  ⟨List.replicate 2097105 0, by rw [fullLog_fits, List.length_replicate]; decide, rfl, rfl⟩

theorem test_Logs_links : gives (.storageFrameReceived 3) State.reset (fun t => decide (countOf t (stoDie 3) 0x719 2 = 1)) = true ∧
    gives (.stoLinkDown 0) (stoS { link := true, dseq := 9 } 1) (fun t => decide (stoOf t 0 = { dseq := 9 }) && (pageOf t (stoDie 0) 0x719).fault.toNat.testBit 0) = true ∧
    gives (.stoPcsLinkUp 0) (stoS {} 1) (fun t => (stoOf t 0).link) = true ∧ memDies.all (fun d => decide ((unitTly (stoS {} 1) d).buf = [])) = true := by
  decide +kernel

/-- A mirror that follows, with one event held; PAIR_LAG_MAX 3. -/
def mirS (x : Pair) : State := { withUnits [(0, unit 10 12500 0)] State.reset with pr := { x with following := true }, kp := { State.reset.kp with pairCfg := w32 (3 * 256) } }
def pairAckP : Packet := { cls := .mgmt, opcode := 0x62, payload := leBytes 8 4 }
def fragP : Packet := { operand := 4, sseq := 1, srcDie := 0, flags := 1, payload := [9] }
def ev (due : Nat) (b : List Byte) : DeltaEvent := { n := 8, due := due, bytes := padTo 48 b }

theorem test_Pairs_deltas : keeps (.pairDelta fragP) State.reset = true ∧ (mirS {}).pr.following = true ∧
    gives (.pairDelta fragP) (mirS {}) (fun t => decide (t.pr.frags = [⟨4, 1, 0, true, [9]⟩])) = true ∧ keeps (.pairDelta fragP) (mirS { frags := [⟨4, 1, 0, true, [9]⟩] }) = true ∧
    isPrimary State.reset = false ∧ keeps (.pairAck 0 pairAckP) State.reset = true ∧ isPrimary { State.reset with pr := { role := 1 } } = true ∧
    gives (.pairAck 0 pairAckP) { State.reset with pr := { role := 1, ackMisses := 2 } } (fun t => decide (t.pr.acked = true ∧ t.pr.ackMisses = 0 ∧ t.pr.last = 4 ∧ countOf t 0 0x722 1 = 1)) = true := by
  decide +kernel

def actEv : DeltaEvent := ev 7 [1, 0, 9, 0, 0]
def pegEv (g : Nat) : DeltaEvent := ev 7 ([4, 0, 0, 0, 0, 0, 0, 0] ++ leBytes 4 g)
def doneEv : DeltaEvent := ev 7 ([3, 0, 0, 0, 1] ++ List.replicate 11 0)
def mirPeg : State := { mirS { held := [pegEv 6] } with pg := [(pegKey 1 0, { gen := 5, value := 3, target := 3, armed := true })] }

theorem test_Pairs_events : (mirS { held := [actEv] }).pr.held[0]? = some actEv ∧ (mirS {}).pr.held[0]? = none ∧ keeps (.heldEventApply 0) (mirS {}) = true ∧
    evReady (mirS {}) actEv.bytes = true ∧ evType actEv.bytes = 1 ∧ field actEv.bytes 4 1 = 0 ∧
    gives (.heldEventApply 0) (mirS { held := [actEv] }) (fun t => decide (t.pr.held = [] ∧ t.rs.dueResets = [9])) = true ∧
    keeps (.heldEventApply 0) (mirS { held := [ev 7 [5]] }) = true ∧ evType (ev 7 [5]).bytes = 5 ∧
    evReady mirPeg (pegEv 6).bytes = true ∧ evReady (mirS {}) (pegEv 6).bytes = false ∧
    gives (.heldEventApply 0) mirPeg (fun t => decide ((pegOf t 1 0).gen = 6 ∧ t.pr.divCount = 0)) = true ∧
    gives (.heldEventApply 0) { mirPeg with pr := { mirPeg.pr with held := [pegEv 7] } } (fun t => decide ((pegOf t 1 0).gen = 5 ∧ t.pr.divCount = 1)) = true ∧
    (let s := recS { rec0 2 [] with held := true } { grpS 2 with pr := { following := true, held := [doneEv] } }
     evReady s doneEv.bytes = true ∧ evType doneEv.bytes = 3 ∧ findRec s 0 0 = some (seamKey 1 0 0) ∧
     gives (.heldEventApply 0) s (fun t => decide (t.se.recs = [])) = true) := by
  decide +kernel

theorem test_Pairs_lag : 7 + lagLimit (mirS {}) ≤ waitPress (mirS {}) (refDie (mirS {})) ∧ ¬ (8 + lagLimit (mirS {}) ≤ waitPress (mirS {}) (refDie (mirS {}))) ∧
    keeps (.pairLagLimit 0) (mirS { held := [{ actEv with due := 8 }] }) = true ∧
    gives (.pairLagLimit 0) (mirS { held := [actEv] }) (fun t => decide (t.pr.held = [{ actEv with lagged := true }] ∧ t.pr.divCause = 3 ∧ t.pr.divPress = 8 ∧ t.pr.divValid = true)) = true ∧
    gives (.pairLagLimit 0) (mirS { held := [actEv], divValid := true, divCause := 1 }) (fun t => decide (t.pr.divCause = 1 ∧ t.pr.divCount = 1)) = true ∧
    keeps .pairPrimaryLost (mirS { misses := 2 }) = true ∧ gives .pairPrimaryLost (mirS { misses := 3 }) (fun t => t.pr.primaryLost && (pageOf t 0 0x722).fault.toNat.testBit 1) = true ∧
    keeps .pairMirrorLost { State.reset with pr := { role := 1, ackMisses := 2 } } = true ∧
    gives .pairMirrorLost { State.reset with pr := { role := 1, ackMisses := 3 } } (fun t => decide (isPrimary t = false) && (pageOf t 0 0x722).fault.toNat.testBit 2) = true := by
  decide +kernel

/-- Module 3 of bridge 1 of die 2 (link 7), and port 0 of die 0 (link 16). -/
def modS (l : Link) : State := { State.reset with lk := { mods := [(2 * 16 + 7, l)] } }
def sunS (l : Link) : State := { State.reset with lk := { ports := [(0, l)] } }
def upL (rx : Nat) : Link := { st := .up, rxSeq := rx }
def mgP : Packet := { cls := .mgmt }

theorem test_Groups_which : (7 : Nat) = 4 * 1 + 3 ∧ portDie 0 = 0 ∧ isLink 2 7 = true ∧ isLink 0 16 = true ∧ linkOf (modS (upL 4)) 2 7 = upL 4 ∧ linkOf (sunS (upL 4)) 0 16 = upL 4 ∧
    (0xFFFF + 1) % 65536 = 0 ∧ 32768 ≤ (5 + 65536 - 6) % 65536 ∧ (5 + 65536 - 4) % 65536 < 32768 := by
  decide +kernel

/-- Groups of module 3 of bridge 1 of die 2 and courses of port 0, of whole packets, as R431 and R438 lay them out. -/
def grp (seq : Nat) (ps : List Packet) : List BridgeCycle := groupOf (ps.flatMap packetSlots) (controlBits seq 0)
def bgOf (die b m : Nat) (xs : List BridgeCycle) : Instr :=
  let c (i : Nat) := xs.getD i (cycleOf2 {} {} 0)
  .bridgeGroup die b m (c 0) (c 1) (c 2) (c 3)
def bg (seq : Nat) (ps : List Packet) : Instr := bgOf 2 1 3 (grp seq ps)
def crsOf (port seq : Nat) (ok : Bool) (us : List (List Byte)) : Instr := .course port seq ok (courseOf us 0).tail 0
def crs (seq : Nat) (ok : Bool) (ps : List Packet) : Instr := crsOf 0 seq ok (ps.flatMap packetUnits)

/-- R428: in order 0xFFFF is followed by 0; an old one is acknowledged again; one too far asks for a replay once. -/
theorem test_Groups : keeps (bg 0 []) State.reset = true ∧
    gives (bg 0 [readP]) (modS (upL 0xFFFF)) (fun t => decide ((linkOf t 2 7).rxSeq = 0 ∧ t.out = [.linkSym 2 7 1 3 0] ∧ t.nt.wires.map (·.pkt) = [readP])) = true ∧
    gives (bg 0 [readP, mgP]) (modS { upL 0xFFFF with peerSafe := true }) (fun t => decide (t.nt.wires.map (·.pkt) = [mgP])) = true ∧
    gives (bg 0 []) (modS (upL 0xFFFF)) (fun t => decide ((linkOf t 2 7).rxSeq = 0 ∧ t.out = [])) = true ∧
    (arrives (bg 4 [readP]) (modS (upL 4))).out = [.linkSym 2 7 1 3 4] := by
  decide +kernel

theorem test_Groups_bad : gives (bg 6 [readP]) (modS (upL 4)) (fun t => decide (t.out = [.linkSym 2 7 1 4 5]) && (linkOf t 2 7).waitingReplay) = true ∧
    keeps (bg 6 [readP]) (modS { upL 4 with waitingReplay := true }) = true ∧
    (let bad := (grp 5 [readP]).map fun x => { x with crc := x.crc ^^^ 1 }
     groupOk bad = false ∧ groupOk (grp 5 [readP]) = true ∧
     gives (bgOf 2 1 3 bad) (modS (upL 4)) (fun t => decide (t.out = [.linkSym 2 7 1 4 5])) = true) := by
  decide +kernel

/-- R441, R443: a course in order; at level 2 a damaged one is asked for alone and one ahead kept; below, from the first missing. -/
theorem test_Courses : gives (crs 5 true [readP]) (sunS (upL 4)) (fun t => decide ((linkOf t 0 16).rxSeq = 5 ∧ t.out = [.linkSym 0 16 1 3 5] ∧ t.nt.wires.map (·.pkt) = [readP])) = true ∧
    gives (crs 5 false [readP]) (sunS { upL 4 with level := 2 }) (fun t => decide (t.out = [.linkSym 0 16 1 4 (2 ^ 16 + 5)])) = true ∧
    gives (crsOf 0 5 true [List.replicate 16 0xFF]) (sunS (upL 4)) (fun t => decide (t.out = [.linkSym 0 16 1 4 5])) = true ∧
    gives (crs 6 true [readP]) (sunS { upL 4 with level := 2 }) (fun t => decide ((linkOf t 0 16).ahead.map (·.1) = [6] ∧ t.out = [])) = true ∧
    gives (crs 6 true [readP]) (sunS { upL 4 with level := 1 }) (fun t => decide (t.out = [.linkSym 0 16 1 4 5])) = true ∧
    (let s := { sunS (upL 4) with ft := { safeDies := [0] } }
     isSafe s 0 = true ∧ keeps (crs 5 true [readP]) s = true) := by
  decide +kernel

/-- R302: a REDUCE packet for an engine of die 1 goes from the module straight to it; R450: a mirror port feeds the pair unit. -/
theorem test_Groups_ways : (let q : Packet := { cls := .reduce, dest := engAddr 0 1 0 0 }
    isLink 1 0 = true ∧ dieType 1 = .memside ∧ aPkg q.dest = 0 ∧ aDie q.dest = 1 ∧ aRegion q.dest = 1 ∧ aPort q.dest = 9 ∧
    gives (bgOf 1 0 0 (grp 5 [q])) { State.reset with lk := { mods := [(16, upL 4)] } } (fun t =>
      decide (t.nt.delivered.map (·.pkt) = [q] ∧ t.nt.wires = [])) = true) ∧
    (let q : Packet := { cls := .mgmt, opcode := 0x61 }
     let s : State := { State.reset with lk := { ports := [(17, upL 4)] } }
     isMirrorLink s (portDie 17) 21 = true ∧ isMirrorLink s 0 16 = false ∧
     gives (crsOf 17 5 true (packetUnits q)) s (fun t => decide (t.nt.delivered.map (·.pkt) = [q] ∧ t.nt.wires = [])) = true) := by
  decide +kernel

/-- A symbol takes the next number while the link is UP, and 0 otherwise. -/
theorem test_Frames_sent : (packetSlots readP).length ≤ 8 ∧ (packetSlots readP).all (·.valid) = true ∧ maySend (modS (upL 4)) 2 7 3 = true ∧
    (sendSym 2 7 3 9 (modS { upL 4 with txSeq := 0xFFFF })).out = [.linkSym 2 7 0 3 9] ∧ (sendSym 2 7 3 9 (modS {})).out = [.linkSym 2 7 0 3 9] ∧
    ((linkOf (sendSym 2 7 3 9 (modS { upL 4 with txSeq := 0xFFFF })) 2 7).replay.map (·.seq)) = [0] ∧
    (let s := { sunS (upL 4) with ft := { safeDies := [0] } }
     maySend s 0 16 3 = false ∧ maySend s 0 16 6 = true ∧ (sendSym 0 16 3 9 s).out = []) := by
  decide +kernel

def kept (n : Nat) : TxFrame := { seq := n, sym := 3 * 2 ^ 108 }
theorem test_Acks_link : (let l := { upL 0 with nakSeq := 9, nakCount := 3, replay := [kept 8, kept 9, kept 10] }
    retryLimit (modS l) 2 7 = 8 ∧ retryLimit (sunS l) 0 16 = 16 ∧ (if l.nakSeq = 9 ∧ 0 < l.nakCount then l.nakCount + 1 else 1) = 4 ∧
    gives (.ack 2 7 9) (modS l) (fun t => decide ((linkOf t 2 7).replay = [kept 10] ∧ (linkOf t 2 7).nakCount = 0)) = true ∧
    keeps (.nak 2 7 9 false) State.reset = true ∧
    gives (.nak 2 7 9 false) (modS l) (fun t => decide ((linkOf t 2 7).nakCount = 4 ∧ t.out = [.linkSym 2 7 9 3 0, .linkSym 2 7 10 3 0])) = true ∧
    gives (.nak 0 16 9 true) (sunS { l with level := 2 }) (fun t => decide (t.out = [.linkSym 0 16 9 3 0])) = true ∧
    (let s := { modS l with fw := { inPause := true } }
     s.fw.inPause = true ∧ gives (.nak 2 7 9 false) s (fun t => decide ((linkOf t 2 7).replayDue = some (9, false) ∧ t.out = [])) = true) ∧
    (let s := setReg 2 (linkPage 7) 0x100 0 (w32 (16 * 256 + 1)) (modS { l with nakCount := 16 })
     linkEnabled s 2 7 = true ∧ notInService s 2 = false ∧ retryLimit s 2 7 < 17 ∧
     gives (.nak 2 7 9 false) s (fun t => decide ((linkOf t 2 7).st = .training) && (pageOf t 2 (linkPage 7)).fault.toNat.testBit 2) = true)) := by
  decide +kernel

/-- RETRAIN_WAIT 4: a link that trains since Press 5 is lost after Press 9. -/
theorem test_LinkLoss : (let l : Link := { st := .training, since := 5, replay := [kept 1] }
    let s (p : Nat) := setReg 0 (linkPage 16) 0x100 0 (w32 (4 * 2 ^ 16 + 1)) (withUnits [(0, unit p 12500 0)] (sunS l))
    retrainWait (s 10) 0 16 = 4 ∧ 5 + 4 + 1 ≤ waitPress (s 10) 0 ∧ keeps (.linkLoss 0 16) (s 9) = true ∧
    gives (.linkLoss 0 16) (s 10) (fun t => decide (linkOf t 0 16 = { l with lost := true, replay := [] }) && (pageOf t 0 (linkPage 16)).fault.toNat.testBit 7) = true) := by
  decide +kernel

def trS (l : Link) : State := modS { l with st := .training }
def okR : TrainResult := { ok := true, spares := 4 }
/-- The module's lanes are trained, and its peer named itself. -/
def seenL (d b : Nat) : Link := { peerDie := d, peerDir := b, identSeen := true }
theorem test_Train_module : bridgePeer 2 1 = 1 ∧ bridgeBack 1 = 0 ∧ (linkOf (trS {}) 2 7).st = .training ∧ isSafe (trS {}) 2 = false ∧
    keeps (.moduleTrainingDone 2 1 3 okR) State.reset = true ∧ keeps (.dbrTrainFail 2 1 3) State.reset = true ∧
    gives (.moduleTrainingDone 2 1 3 okR) (trS {}) (fun t => decide ((linkOf t 2 7).st = .training ∧ (linkOf t 2 7).step = 3)) = true ∧
    gives (.moduleTrainingDone 2 1 3 okR) (trS (seenL 1 0)) (fun t => decide ((linkOf t 2 7).st = .up ∧ (linkOf t 2 7).spares = 4)) = true ∧
    gives (.moduleTrainingDone 2 1 3 okR) (trS (seenL 3 0)) (fun t => decide ((linkOf t 2 7).st = .hold ∧ (linkOf t 2 7).cause = 0x78) && (pageOf t 2 0x17).fault.toNat.testBit 0) = true ∧
    gives (.moduleTrainingDone 2 1 3 { okR with spares := 5 }) (trS {}) (fun t => decide ((linkOf t 2 7).st = .training) && (pageOf t 2 0x17).fault.toNat.testBit 1) = true ∧
    gives (.dbrTrainFail 2 1 3) (trS {}) (fun t => (pageOf t 2 0x17).fault.toNat.testBit 1) = true := by
  decide +kernel

/-- Training step k of port 0, with the peer's identity frame x. -/
def stepS (k : Nat) (x : List Byte) : State := { sunS { st := .training, step := k, seen := x } with op := [(ekey 0 0, { st := 2 })] }
def frameX (level minL pkg dir lane : Nat) (hash : Byte) : List Byte := [0, 0, 0, 0] ++ leBytes 1 level ++ leBytes 1 minL ++ leBytes 2 pkg ++ [0] ++ leBytes 1 dir ++ leBytes 1 lane ++ List.replicate 21 0 ++ List.replicate 32 hash
def planP : PlanImage := { epoch := 3, shape := 0, pairMode := false, minSundi := 0, racks := 1, twist := [], masks := [(0, 0xFFFFFFFFFFFFFFFF)], slices := [], hash := List.replicate 32 7 }
def inPlan (m : DWord) (s : State) : State := { s with pl := { cur := some { planP with masks := [(0, m)] } } }
def sundi (lat : Nat) (s : State) : State := arrives (.sundiTrainingStepDone 0 { ok := true, latency := lat, spares := 2 }) s

theorem test_Train_sundi : isSundi 0 16 = true ∧ (engineOf (stepS 1 []) 0 0).st = 2 ∧ isSafe (stepS 1 []) 0 = false ∧ (linkOf (stepS 1 []) 0 16).st = .training ∧
    keeps (.lnkTrainFail 0) State.reset = true ∧ gives (.lnkTrainFail 0) (stepS 1 []) (fun t => (pageOf t 0 (linkPage 16)).fault.toNat.testBit 4) = true ∧
    keeps (.sundiTrainingStepDone 0 { ok := true }) (sunS { st := .training, step := 1 }) = true ∧ keeps (.sundiTrainingStepDone 0 { ok := true }) (stepS 6 []) = true ∧
    gives (.sundiTrainingStepDone 0 { ok := true, spares := 3 }) (stepS 3 []) (fun t => decide ((linkOf t 0 16).step = 3) && (pageOf t 0 (linkPage 16)).fault.toNat.testBit 4) = true ∧
    ([1, 2, 3].all fun k => decide ((linkOf (sundi 0 (stepS k [])) 0 16).step = k + 1)) = true ∧ (sundi 0 (stepS 4 [])).out.length = 9 ∧
    gives (.sundiTrainingStepDone 0 { ok := true, latency := 157 }) (stepS 5 []) (fun t => (pageOf t 0 (linkPage 16)).fault.toNat.testBit 4) = true := by
  decide +kernel

theorem test_Train_check : levelOf (stepS 5 []) (frameX 0 0 0 0 0 0) = none ∧ levelOf (stepS 5 []) (frameX 2 3 0 0 0 0) = none ∧ levelOf (stepS 5 []) (frameX 2 2 0 0 0 0) = some 2 ∧
    planEpoch (stepS 5 []) = 0 ∧ planEpoch (inPlan 3 (stepS 5 [])) = 3 ∧ linkPort 0 16 = 0 ∧
    (linkOf (sundi 156 (stepS 5 (frameX 2 3 0 0 0 0))) 0 16).cause = 0x72 ∧ (linkOf (sundi 156 (stepS 5 (frameX 2 2 0 0 0 0))) 0 16).st = .ready ∧
    expectOf (inPlan 1 (stepS 5 [])) 0 = none ∧ (linkOf (sundi 156 (inPlan 1 (stepS 5 (frameX 2 2 0 0 0 0)))) 0 16).cause = 0x73 ∧
    expectOf (inPlan (BitVec.allOnes 64) (stepS 5 [])) 0 = some (1, 7, 0) ∧
    (linkOf (sundi 156 (inPlan (BitVec.allOnes 64) (stepS 5 (frameX 2 2 2 7 0 7)))) 0 16).cause = 0x70 ∧
    (linkOf (sundi 156 (inPlan (BitVec.allOnes 64) (stepS 5 (frameX 2 2 1 7 0 6)))) 0 16).cause = 0x71 ∧
    (linkOf (sundi 156 (inPlan (BitVec.allOnes 64) (stepS 5 (frameX 2 2 1 7 0 7)))) 0 16).st = .up := by
  decide +kernel

theorem test_Peers : (linkOf (arrives (.trainingRetry 0 16) (setReg 0 (linkPage 16) 0x100 0 1 (stepS 4 []))) 0 16).step = 1 ∧
    (let s := { sunS {} with ft := { safeDies := [0] } }
     isSafe s 0 = true ∧ keeps (.ident 0 16 0 [1]) s = true ∧ keeps (.echo 0 16 true 9) s = true) ∧ isSafe (sunS {}) 0 = false ∧
    (arrives (.echo 0 16 false 9) (sunS {})).out = [.linkSym 0 16 0 8 (9 * 2 ^ 16 + 1)] ∧
    (linkOf (arrives (.ident 2 7 0 [65, 6]) (modS {})) 2 7).peerDie = 1 ∧ (linkOf (arrives (.ident 2 7 0 [65, 6]) (modS {})) 2 7).peerDir = 2 ∧
    (linkOf (arrives (.ident 0 16 0 [65]) (sunS {})) 0 16).frame = [(0, [65, 0, 0, 0, 0, 0, 0, 0])] ∧
    (let f : SMap (List Byte) := (List.range 7).map fun i => (i, List.replicate 8 1)
     let t := arrives (.ident 0 16 7 []) (sunS { st := .hold, peerSafe := true, frame := f })
     (ins f (7 % 8) (padTo 8 [])).length = 8 ∧ (linkOf t 0 16).seen.length = 64 ∧ (linkOf t 0 16).frame = [] ∧ (linkOf t 0 16).peerSafe = false) := by
  decide +kernel

theorem test_Fec : isSundi (portDie 0) (16 + 0 % 6) = true ∧ gives (.fecWindowEnd 0 5) (setReg 0 (cntPage 16) 0x104 0 4 State.reset) (fun t =>
      decide (countOf t 0 (cntPage 16) 2 = 5) && (pageOf t 0 (linkPage 16)).fault.toNat.testBit 5) = true ∧
    gives (.fecWindowEnd 0 4) (setReg 0 (cntPage 16) 0x104 0 4 State.reset) (fun t => (pageOf t 0 (linkPage 16)).fault == 0) = true := by
  decide +kernel

theorem test_Retrain : (let s (l : Link) := { modS l with fw := { running := true } }
    let u (l : Link) := { sunS l with fw := { running := true } }
    ([0, 1, 3].all fun v => takenWith (fun i _ => decide (i.kind = .dbr)) (s {}) .fmc 2 0x17 0x100 (w32 v) &&
      takenWith (fun i _ => decide (i.kind = .lnk0)) (u {}) .fmc 0 0x700 0x100 (w32 v)) = true ∧ 0x17 - 0x10 = 7 ∧ 16 + (0x700 - 0x700) / 2 = 16 ∧ isLink 2 7 = true ∧
    (linkOf (arrives (.dbrRetrain .fmc 2 0x17 0) (s (upL 4))) 2 7).st = .off ∧ (linkOf (arrives (.dbrRetrain .fmc 2 0x17 3) (s (upL 4))) 2 7).st = .training ∧
    (linkOf (arrives (.lnkRetrain .fmc 0 0x700 3) (u (upL 4))) 0 16).st = .training ∧
    (let x := { s (upL 4) with ft := { safeDies := [2] } }
     isSafe x 2 = true ∧ linkOf (arrives (.dbrRetrain .fmc 2 0x17 3) x) 2 7 = upL 4) ∧
    reg (arrives (.dbrRetrain .fmc 2 0x17 (BitVec.allOnes 32)) (s {})) 2 0x17 0x100 = 0xFFFF01) := by
  decide +kernel

/-- R433: a module whose lanes are trained comes up, or holds, when its peer names itself. -/
theorem test_Peers_module : (let s := trS { step := 3 }
    (linkOf s 2 7).step = 3 ∧ (linkOf s 2 7).st = .training ∧ s.fw.inPause = false ∧
    (linkOf (arrives (.ident 2 7 0 [1, 0]) s) 2 7).st = .up ∧ (linkOf (arrives (.ident 2 7 0 [3, 0]) s) 2 7).cause = 0x78 ∧ keeps (.ident 2 7 1 [1, 0]) s = true) ∧
    (let h : Link := { st := .hold, replay := [kept 1] }
     (linkOf (arrives (.trainingRetry 2 7) (setReg 2 (linkPage 7) 0x100 0 1 (modS h))) 2 7).st = .training) := by
  decide +kernel

/-! ### Hosts, lasers, faults, resets, power, the service port, firmware (13 to 16) -/

/-- Host 0 (die (0,0)) is on; its aperture names die 1. -/
def hstOn (x : HostPort) : State := { setReg 0 0x718 0x100 0 (w32 (7 * 2 ^ 16 + 1)) (setReg 0 0x718 0x108 0 0 (setReg 0 0x718 0x10C 0 0x4000 runningF)) with hs := if x = {} then [] else [(0, x)] }
def hstOff : State := setReg 0 0x718 0x100 0 0 runningF
def tlpP (bar off n : Nat) : Tlp := { bar := bar, offset := off, length := n, tag := 7, data := [1, 2, 3, 4] }

theorem test_Host_refused : masterOn hstOff (.host 0) = false ∧ masterOn (hstOn {}) (.host 0) = true ∧ masterOn (hstOn {}) (.host 4) = false ∧
    keeps (.mrd 0 (tlpP 0 0 4)) hstOff = true ∧ (hostOf (hstOn {}) 0).waiting = [] ∧ writesOut (hostOf (hstOn {}) 0) = false ∧
    writesOut (hostOf (hstOn { sent := [⟨0, 7, true, 0, 4⟩] }) 0) = true ∧
    respOf (.mrd 0 (tlpP 1 0 4)) (hstOn {}) = [.tlp 0 7 1 []] ∧ respOf (.mwr 0 (tlpP 5 0 4)) (hstOn {}) = [] ∧ respOf (.unsupportedTlp 0 9 true) (hstOn {}) = [.tlp 0 9 1 []] ∧
    countOf (arrives (.unsupportedTlp 0 9 false) (hstOn {})) 0 0x718 5 = 1 ∧
    gives (.mrd 0 (tlpP 0 0 4)) (hstOn { sent := [⟨0, 7, true, 0, 4⟩] }) (fun t => decide ((hostOf t 0).waiting = [(false, tlpP 0 0 4)])) = true := by
  decide +kernel

/-- BAR0 offset of PRESS_CTRL's page 0x720 register 0x104; a page that is not there. -/
theorem test_Host_registers : (regRead (hostAcc (hstOn {}) 0 (tlpP 0 0x720104 4)) (hstOn {})).1 = 0 ∧ (regRead (hostAcc (hstOn {}) 0 (tlpP 0 0xFFF104 4)) (hstOn {})).1 = 1 ∧
    (regWrite (hostAcc (hstOn {}) 0 (tlpP 0 0xFFF104 4)) (hstOn {})).1 = 1 ∧
    respOf (.mrd 0 (tlpP 0 0xFFF104 4)) (hstOn {}) = [.tlp 0 7 1 []] ∧
    gives (.mwr 0 (tlpP 0 0xFFF104 4)) (hstOn {}) (fun t => decide ((hostOf t 0).errValid = true ∧ (hostOf t 0).errCode = 1 ∧ (hostOf t 0).errAddr = 0xFFF104)) = true := by
  decide +kernel

/-- The write of a PRS page's shadowed register by the FMC passes at BAR0 too. -/
theorem test_Host_write : (let a := hostAcc (hstOn {}) 0 (tlpP 0 (0x102 * 4096 + 0x124) 4)
    (regWrite a (hstOn {})).1 = 0 ∧ (hostOf (regWrite a (hstOn {})).2 0).waiting = []) := by
  decide +kernel

theorem test_Host_msix : respOf (.mrd 0 (tlpP 2 12 4)) (hstOn {}) = [.tlp 0 7 0 [1, 0, 0, 0]] ∧ respOf (.mwr 0 (tlpP 2 512 4)) (hstOn {}) = [] ∧
    msixWord (arrives (.mwr 0 (tlpP 2 508 4)) (hstOn {})) 0 127 = 0x04030201 ∧ msixWord (arrives (.mwr 0 (tlpP 2 512 4)) (hstOn {})) 0 127 = 1 ∧
    respOf (.mwr 0 { tlpP 2 12 4 with data := [0, 0, 0, 0] }) (hstOn { pendingBits := 1, pins := { msixEn := true } }) = [.msix 0 0 0 0] ∧ (w32 1).toNat.testBit (3 / 4) = true := by
  decide +kernel

theorem test_Host_bulk : (let s := act7 (hstOn {})
    apertureAddr s 0 0x1F0 = cmA 0x1F0 ∧ inThisGranule (apertureAddr s 0 0x1F0) 64 = 16 ∧ addrStatus s 0 5 (hostCtx s 0) (apertureAddr s 0 0x1F0) = 0 ∧ hostCtx s 0 = 7 ∧
    inThisGranule (apertureAddr s 0 0x1F0) 16 = 16 ∧ addrStatus s 0 5 7 (apertureAddr (setReg 0 0x718 0x10C 0 0 s) 0 0) = 0x10 ∧
    gives (.mrd 0 (tlpP 4 0x1F0 64)) s (fun t => decide ((hostOf t 0).sent = [⟨0, 7, false, 0x1F0, 64⟩] ∧ (ops t) = [(0, 16)])) = true ∧
    gives (.mwr 0 (tlpP 4 0x1F0 16)) s (fun t => decide ((hostOf t 0).sent.map (·.we) = [true] ∧ (ops t) = [(1, 1040)])) = true ∧
    respOf (.mrd 0 (tlpP 4 0 64)) (setReg 0 0x718 0x10C 0 0 s) = [.tlp 0 7 1 []] ∧
    (hostOf (arrives (.mwr 0 (tlpP 4 0 16)) (setReg 0 0x718 0x10C 0 0 s)) 0).errCode = 0x10) := by
  decide +kernel

theorem test_Host_down : keeps (.hstFlr 4) State.reset = true ∧ (3 : Nat) < 4 ∧
    gives (.hstHotReset 0) (hstOn { waiting := [(true, tlpP 0 0 4)], errValid := true }) (fun t => decide (hostOf t 0 = { errValid := true, pins := { inReset := true } })) = true ∧
    gives (.hstLinkDown 0) (hstOn {}) (fun t => (pageOf t 0 0x718).fault.toNat.testBit 0) = true := by
  decide +kernel

/-- Laser module 0 of die 0. -/
def engS (e : Engine) : State := { runningF with op := [(ekey 0 0, e)] }
theorem test_Lasers : isEngine 0 0 = true ∧ isEngine 2 0 = false ∧ isEngine 0 3 = false ∧ accepted runningF 5 = false ∧ accepted { runningF with kp := { accept := [(0, 5)] } } 5 = true ∧
    keeps (.optModuleDetect 2 0 []) runningF = true ∧ keeps (.laserHourTick 0 0) (engS { st := 3 }) = true ∧ (engineOf (engS { st := 2, hours := 575999 }) 0 0).wear = false ∧
    enginePorts 0 = [16, 17] ∧ keeps (.powerSample 0 0 true 0 0) (engS {}) = true ∧
    gives (.powerSample 0 0 false 0 0) (engS { st := 2, fails := 1 }) (fun t => decide ((engineOf t 0 0).fails = 2 ∧ (engineOf t 0 0).st = 2)) = true ∧
    gives (.powerSample 0 0 false 0 0) { engS { st := 2, fails := 2 } with lk := { ports := [(0, { st := .up })] } } (fun t => decide ((engineOf t 0 0).st = 4 ∧ t.out = [.laser 0 0 false] ∧
      (linkOf t 0 16).st = .hold ∧ (linkOf t 0 16).cause = 0x7F)) = true := by
  decide +kernel

/-- POWER_MIN 100: the third low sample holds the port; the third good one trains it again. -/
theorem test_Lasers_power : (let s (e : Engine) (l : Link) := { setReg 0 (optPage 0) 0x128 0 100 (setReg 0 (linkPage 16) 0x100 0 1 (engS e)) with lk := { ports := [(0, l)] } }
    rfld (s {} {}) 0 (optPage 0) 0x128 15 0 = 100 ∧ isSundi 0 16 = true ∧ isSundi 0 17 = true ∧ linkEnabled (s {} {}) 0 16 = true ∧ isSafe (s {} {}) 0 = false ∧
    gives (.powerSample 0 0 true 99 100) (s { st := 2, low0 := 1 } { st := .up }) (fun t => decide ((linkOf t 0 16).st = .up ∧ (engineOf t 0 0).low0 = 2 ∧ (engineOf t 0 0).low1 = 0)) = true ∧
    gives (.powerSample 0 0 true 99 100) (s { st := 2, low0 := 2 } { st := .up }) (fun t => decide ((linkOf t 0 16).cause = 0x7D) && (pageOf t 0 (optPage 0)).fault.toNat.testBit 2) = true ∧
    gives (.powerSample 0 0 true 100 99) (s { st := 2, low1 := 2 } {}) (fun t => decide ((linkOf t 0 17).cause = 0x7D)) = true ∧
    gives (.powerSample 0 0 true 100 100) (s { st := 2, good0 := 2 } { st := .hold, cause := 0x7D }) (fun t => decide ((linkOf t 0 16).st = .training)) = true) := by
  decide +kernel

theorem test_Lasers_switch : (takenWith (fun i _ => decide (i.kind = .opt)) (engS { st := 2 }) .fmc 0 0x710 0x100 0 &&
      takenWith (fun i _ => decide (i.kind = .opt)) (engS { st := 3 }) .fmc 0 0x710 0x100 1 && takenWith (fun i _ => decide (i.kind = .opt)) (engS { st := 1 }) .fmc 0 0x710 0x100 3) = true ∧
    (engineOf (arrives (.optRescan .fmc 0 0x710 0) (engS { st := 2 })) 0 0).st = 3 ∧ (engineOf (arrives (.optRescan .fmc 0 0x710 1) (engS { st := 3 })) 0 0).st = 2 ∧
    (engineOf (arrives (.optRescan .fmc 0 0x710 1) (engS { st := 4 })) 0 0).st = 4 := by
  decide +kernel

/-- Records of die 0 that wait: severities 1 and 4. -/
def rcd (sev page : Nat) : FaultRec := { code := 0x60, sev := sev, page := page, die := 0, bit := 0, ctx := some 7 }
def fltS (rs : List FaultRec) : State := { fmcS with ft := { raised := rs } }
theorem test_Faults_die : recordOrder ((fltS [rcd 1 9, rcd 2 8]).ft.raised.filter fun r => decide (r.die = 0)) = [rcd 2 8, rcd 1 9] ∧ keeps (.faultRecordDie 0 false) fmcS = true ∧
    isSafe (fltS []) 0 = false ∧ isIsolated (fltS []) 0 = false ∧
    gives (.faultRecordDie 0 false) (fltS [rcd 1 9, rcd 2 8]) (fun t => decide (t.ft.toRoot = [rcd 2 8, rcd 1 9] ∧ countOf t 0 1 0 = 2 ∧ isSafe t 0 = false ∧ isIsolated t 0 = false)) = true ∧
    gives (.faultRecordDie 0 false) (fltS [rcd 3 9]) (fun t => isIsolated t 0) = true ∧ gives (.faultRecordDie 0 false) (fltS [rcd 4 9]) (fun t => isSafe t 0) = true ∧
    gives (.faultRecordDie 0 true) fmcS (fun t => (pageOf t 0 1).fault.toNat.testBit 0 && isSafe t 0) = true := by
  decide +kernel

/-- The record r has come to tile 6 of die (0,0) in its MGMT packet (R25). -/
def arrivedS (r : FaultRec) : State := { fmcS with
  ft := { toRoot := [r] }, nt := { delivered := [{ die := 0, tile := 6, port := 10, pkt := recordPacket fmcS 0 r }] }, kp := { faultNext := 63 } }
theorem test_Faults_root : keeps .faultRecordRoot fmcS = true ∧ errThresh fmcS = 2 ∧ errHold fmcS = false ∧ arrivedRecord fmcS = none ∧
    arrivedRecord (arrivedS (rcd 2 9)) = some (recordPacket fmcS 0 (rcd 2 9), rcd 2 9) ∧ fmcS.kp.onVbat = false ∧
    gives .faultRecordRoot (arrivedS (rcd 2 9)) (fun t => decide (t.ft.toRoot = [] ∧ t.ft.root = [rcd 2 9] ∧ t.kp.faultNext = 0 ∧ t.ft.ctxResets = [7] ∧
      t.ft.errLow = true ∧ t.nt.delivered = [])) = true ∧
    gives .faultRecordRoot (arrivedS (rcd 1 9)) (fun t => decide (t.ft.errLow = false ∧ t.ft.ctxResets = [])) = true := by
  decide +kernel

theorem test_Faults_pulse : gives .faultRecordRoot { arrivedS (rcd 2 9) with kp := { onVbat := true } } (fun t => decide (t.kp = { onVbat := true })) = true ∧
    keeps .faultRecordRoot { arrivedS (rcd 2 9) with fw := {} } = true ∧
    gives .errNPulseEnd { fmcS with ft := { errLow := true, pulse := true } } (fun t => decide (t.ft.errLow = false ∧ t.out = [.errN false])) = true ∧
    gives .errNPulseEnd { fmcS with ft := { errLow := true, pulse := true, safeDies := [0] } } (fun t => decide (t.ft.errLow = true ∧ t.out = [])) = true := by
  decide +kernel

theorem test_Faults_others : (let c (v : Word) := masterOn fmcS .fmc && decide (accessStatus fmcS { acc .fmc 0 0 1 0x180 4 with value := v } true = 0)
    c 0x80000410 = true ∧ c 3 = true ∧
    gives (.errCtrlWrite .fmc 0x80000410) fmcS (fun t => decide (reg t 0 1 0x180 = 0x80000410 ∧ t.ft.errLow = true ∧ (pageOf t 0 1).bad = false)) = true ∧
    gives (.errCtrlWrite .fmc 3) fmcS (fun t => (pageOf t 0 1).bad) = true ∧ gives (.errCtrlWrite .fmc 0x310) { fmcS with ft := { errLow := true } } (fun t => decide (t.ft.errLow = false)) = true) ∧
    (2 : Nat) < 64 ∧ 143 < nPhys 2 ∧ keeps (.routerPoll 2 144) fmcS = true ∧ gives (.routerPoll 2 143) fmcS (fun t => decide (t.ft.raised.map (·.detail) = [143])) = true ∧
    isLink 2 16 = false ∧ keeps (.faultIdle 2 16) fmcS = true ∧ isSundi 0 16 = true ∧ gives (.faultIdle 2 7) fmcS (fun t => isSafe t 2 && (linkOf t 2 7).peerSafe) = true ∧
    gives (.faultIdle 0 16) fmcS (fun t => decide ((linkOf t 0 16).st = .hold ∧ isSafe t 0 = false)) = true := by
  decide +kernel

def cmd (s : State) (page off : Nat) (v : Nat) : Bool := masterOn s .fmc && decide (accessStatus s { acc .fmc 0 0 page off 4 with value := w32 v } true = 0)
def rstW (kind die part : Nat) : Nat := 2 ^ 31 + (kind * 2 ^ 28 + die * 2 ^ 16 + part * 2 ^ 8)
def busyQ (kind die part phase since : Nat) : Quiesce := ⟨kind, die, part, phase, since⟩
def busyR (q : Quiesce) : State := { fmcS with rs := { busy := some q } }

theorem test_Resets : (cmd fmcS 0x723 0x100 (rstW 2 63 0) && cmd fmcS 0x723 0x100 (rstW 3 2 143) && cmd fmcS 0x723 0x100 (rstW 4 0 21)) = true ∧
    resetTarget 3 2 143 = true ∧ resetTarget 3 2 144 = false ∧ resetTarget 4 0 21 = true ∧ resetTarget 4 2 16 = false ∧ fmcS.fw.inPause = false ∧ fmcS.ft.safeDies = [] ∧
    gives (.tileReset .fmc 2 144) fmcS (fun t => decide (t.rs.result = 2 ∧ t.rs.busy = none)) = true ∧
    gives (.tileReset .fmc 2 143) { fmcS with ft := { safeDies := [1] } } (fun t => decide (t.rs.result = 3)) = true ∧
    gives (.tileReset .fmc 2 143) { fmcS with fw := { fmcS.fw with inPause := true } } (fun t => decide (t.rs.heldCmds = [.tileReset .fmc 2 143])) = true ∧
    gives (.tileReset .fmc 2 143) (busyR (busyQ 3 2 0 2 0)) (fun t => decide (t.rs.result = 1 ∧ t.rs.busy = some (busyQ 3 2 0 2 0))) = true ∧
    gives (.dieReset .fmc 0) (busyR (busyQ 3 0 0 2 0)) (fun t => decide (t.rs.busy = some (busyQ 2 0 0 2 0))) = true ∧
    gives (.portReset .fmc 0 21) { fmcS with rs := { lp := .lp2 } } (fun t => decide (t.rs.busy = some (busyQ 4 0 21 2 0) ∧ t.rs.lp = .leaving)) = true := by
  decide +kernel

theorem test_Resets_phases : (let l := { busyR (busyQ 4 0 16 2 5) with lk := { ports := [(0, { st := .up, replay := [{ seq := 1, pkts := [mgP] }] })] } }
    heldByPart (busyR (busyQ 4 0 16 2 5)) (busyQ 4 0 16 2 5) = [] ∧ heldByPart l (busyQ 4 0 16 2 5) = [mgP] ∧ 5 + rfld l 0 1 0x104 23 0 ≤ (at_ (2 ^ 24 + 5) l).tm.fclk ∧
    (at_ 5 l).tm.fclk < 5 + rfld l 0 1 0x104 23 0 ∧ keeps .quiesceResetPhase l = true ∧ keeps .quiesceLimit (at_ 5 l) = true ∧ keeps .quiesceReturn l = true ∧
    gives .quiesceResetPhase (busyR (busyQ 4 0 16 2 5)) (fun t => decide (t.rs.busy = some (busyQ 4 0 16 3 5))) = true ∧
    gives .quiesceLimit (at_ (2 ^ 24 + 5) l) (fun t => decide ((linkOf t 0 16).replay = []) && (pageOf t 0 1).fault.toNat.testBit 2) = true ∧
    gives .quiesceReturn (setReg 0 (linkPage 16) 0x100 0 1 (busyR (busyQ 4 0 16 3 5))) (fun t => decide (t.rs.busy = none ∧ (linkOf t 0 16).st = .training)) = true) := by
  decide +kernel

theorem test_Contexts : (cmd fmcS 0x723 0x110 (2 ^ 31 + (2 ^ 28 + 2047)) && cmd fmcS 0x723 0x110 (2 ^ 31 + (3 * 2 ^ 28)) && cmd fmcS 0x723 0x100 (2 ^ 31 + 2 ^ 28)) = true ∧
    gives (.contextActivate .fmc 2047) fmcS (fun t => decide (t.rs.ctxCmds = [⟨1, 2047⟩])) = true ∧
    (let f := { fmcS with rs := { ctxCmds := List.replicate 64 ⟨1, 5⟩ } }
     64 ≤ f.rs.ctxCmds.length ∧ gives (.contextResetRequest .fmc 7) f (fun t => decide (t.rs.ctxCmds.length = 64) && (pageOf t 0 0x723).bad) = true) := by
  decide +kernel

theorem test_LowPower : (cmd fmcS 0x723 0x150 (2 ^ 31 + 1) && cmd fmcS 0x723 0x150 (2 ^ 31 + 2) && cmd fmcS 0x723 0x150 (2 ^ 31 + 3) && cmd fmcS 0x723 (0x124 + 4 * 3) 5) = true ∧
    fmcS.rs.lp = .running ∧ fmcS.rs.busy = none ∧ fmcS.rs.active = [] ∧ fmcS.lk.ports = [] ∧
    gives (.lp2Enter .fmc) fmcS (fun t => decide (t.rs.lp = .entering false)) = true ∧ gives (.lp3Enter .fmc) (act7 fmcS) (fun t => decide (t.rs.lp = .running ∧ t.rs.lpCause = 1)) = true ∧
    gives (.lp3Enter .fmc) { fmcS with lk := { ports := [(0, { st := .up })] } } (fun t => decide (t.rs.lpCause = 2)) = true ∧
    gives (.lp2Enter .fmc) (busyR (busyQ 2 2 0 2 0)) (fun t => decide (t.rs.lp = .running)) = true ∧
    gives (.lpExit .fmc) { fmcS with rs := { lp := .entering true } } (fun t => decide (t.rs.lp = .running)) = true ∧
    (cmd { fmcS with rs := { lp := .lp3 } } 0x723 0x150 (2 ^ 31 + 3)) = true ∧
    gives (.lp1ReqWrite .fmc 3 5) { setReg 0 0x723 0x120 0 2 fmcS with rs := { asleep := [(2, 97), (2, 98)] } } (fun t => decide (isAsleep t 2 97 = false ∧ isAsleep t 2 98 = true) && lp1Req t 2 96 && !lp1Req t 2 97) = true ∧
    gives (.clWake 2 97) { fmcS with rs := { asleep := [(2, 97), (2, 98)] } } (fun t => decide (t.rs.asleep = [(2, 98)])) = true := by
  decide +kernel

theorem test_PowerOn : (let s := { fmcS with kp := { rollback := 3, replayEpoch := 0xFFFFFFFF, vbatLow := true }, ram := [(0, 1)] }
    s.kp.brownOut = false ∧ (let t := arrives (.por 0x3000 false [] []) s;
      t.ram = [] ∧ t.kp.rollback = 3 ∧ t.kp.replayEpoch = 0 ∧ t.pr.role = 2 ∧ t.pr.following = true) ∧
    (let t := arrives (.por 0x1000 true [] []) s;
      t.kp = { lost := true, vbatLow := true } ∧ t.pr.role = 1) ∧
    testPos 2 0 ≠ testPos 2 16 ∧ dieType 2 ≠ .io ∧ (arrives (.fabricSupplyLoss) s).kp.onVbat = true ∧ (arrives .porNLow s).tm.porLow = true ∧
    (arrives .brownOut (arrives .fabricSupplyLoss s)).kp.brownOut = true ∧ (arrives .brownOut s).kp.brownOut = false) := by
  decide +kernel

theorem test_PowerOn_dead : (pageOf (arrives (.por 0 false [(2, 0), (2, 16)] []) fmcS) 2 1).fault.toNat.testBit 1 = true := by decide +kernel

def slots (a b : SetSlot) (rb : Nat) : State := { State.reset with fw := { slot0 := a, slot1 := b }, kp := { rollback := rb } }
def slot (rb seq : Nat) : SetSlot := ⟨true, rb, 40 + rb, seq⟩
theorem test_FmcStart : activeSlot (slots (slot 3 1) (slot 4 2) 4) = some 1 ∧ activeSlot State.reset = none ∧ (fwSlot (slots (slot 3 1) (slot 4 2) 4) 1).valid = true ∧
    keeps (.fmcStart true true) fmcS = true ∧
    gives (.fmcStart true true) (slots (slot 3 1) (slot 4 2) 4) (fun t => decide (t.fw.running = true ∧ t.fw.libEpoch = 44 ∧ t.fw.fallback = false)) = true ∧
    gives (.fmcStart true false) (slots (slot 3 1) (slot 4 2) 3) (fun t => decide (t.fw.libEpoch = 43 ∧ t.fw.fallback = true)) = true ∧
    gives (.fmcStart true false) (slots (slot 3 1) (slot 4 2) 4) (fun t => decide (t.fw.running = false ∧ t.fw.recovery = true)) = true ∧
    gives (.fmcStart true true) State.reset (fun t => t.fw.recovery) = true := by
  decide +kernel

theorem test_Keep : (cmd fmcS 0x730 0x108 255 && cmd fmcS 0x730 0x108 2 && cmd fmcS 0x733 0x104 9) = true ∧
    (let s := { fmcS with kp := { rollback := 3 } }
     (arrives (.rollbackWrite .fmc 255) s).kp.rollback = 255 ∧ (arrives (.rollbackWrite .fmc 3) s).kp.rollback = 3 ∧ (pageOf (arrives (.rollbackWrite .fmc 2) s) 0 0x730).bad = true ∧
     (pageOf (arrives (.rollbackWrite .fmc 256) s) 0 0x730).bad = true ∧
     areaAddr (setReg 0 0x733 0x100 0 (w32 (1279 * 4)) s) = 1279 ∧ look 0 (arrives (.areaDataWrite .fmc 9) (setReg 0 0x733 0x100 0 (w32 (1279 * 4)) s)).kp.area 1279 = 9 ∧
     (pageOf (arrives (.areaDataWrite .fmc 9) (setReg 0 0x733 0x100 0 (w32 (1280 * 4)) s)) 0 0x733).bad = true) := by
  decide +kernel

/-- The service port: allow entry 0 is ::9. -/
def src9 : SvcSrc := ⟨List.replicate 15 0 ++ [9], 600, 4⟩
def svcS (cache : List SvcReply) : State := { fmcS with sv := { valid := true, cache := cache, config := svcCfg } }
  where svcCfg : List Byte := List.replicate 0x18 0 ++ (List.replicate 15 0 ++ [9]) ++ List.replicate 80 1
def cachedR : SvcReply := ⟨src9, 5, 0, [1]⟩
def winA : DWord := w64 (3 * 2 ^ 44 + 0xFFFFF000000 + 0x720104)
/-- A reply to src9, as R527 lays it out: magic, VERSION, TYPE, FLAGS, STATUS, SEQ, LENGTH, PACKAGE, body. -/
def reply9 (typ flags status : Byte) (body : List Byte) : Output :=
  .svcReply src9 ([0x54, 0x5A, 0x56, 0x53, 1, typ, flags, status, 4, 0, 0, 0] ++ leBytes 2 body.length ++ [0, 0] ++ body)
/-- A datagram whose magic is wrong, of TYPE 5 and SEQ 4; a good PING. -/
def badDg : List Byte := [1, 0, 0, 0, 1, 5, 0, 0, 4, 0, 0, 0, 0, 0, 0, 0]
def goodDg : List Byte := [0x54, 0x5A, 0x56, 0x53, 1, 5, 0, 0, 4, 0, 0, 0, 1, 0, 0, 0, 9]

theorem test_Service : fmcOn (svcS []) = true ∧ listed (svcS []) src9 = true ∧ listed (svcS []) { src9 with addr := [1] } = false ∧ fmcS.sv.valid = false ∧
    keeps (.ping src9 [1]) fmcS = true ∧ countOf (arrives (.ping { src9 with addr := [1] } [1]) (svcS [])) 0 0x724 2 = 1 ∧
    (svcS [cachedR]).sv.cache.find? (fun r => decide (r.src = src9)) = some cachedR ∧ respOf (.ping src9 [2]) (svcS [cachedR]) = [reply9 5 3 0 [1]] ∧
    respOf (.ping src9 (List.replicate 64 2)) (svcS []) = [reply9 5 1 0 (List.replicate 64 2)] ∧ respOf (.ping src9 (List.replicate 65 2)) (svcS []) = [reply9 5 1 0xA4 []] ∧
    inWindow winA = true ∧ aPkg winA = pkgNo fmcS ∧ inWindow (cmA 0) = false ∧ (respOf (.regRead src9 winA) (svcS [])).length = 1 ∧
    respOf (.regRead src9 (cmA 0)) (svcS []) = [reply9 1 1 1 [0, 0, 0, 0]] ∧ respOf (.regWrite src9 (cmA 0) 5) (svcS []) = [reply9 2 1 1 []] ∧
    requestOk badDg = false ∧ requestOk goodDg = true ∧ field badDg 5 1 = 5 ∧ src9.seq = w32 (field badDg 8 4) ∧
    respOf (.serviceDatagramRejected src9 badDg) (svcS []) = [reply9 5 1 0xA4 []] ∧ keeps (.serviceDatagramRejected src9 goodDg) (svcS []) = true ∧
    countOf (arrives (.serviceDatagramRejected { src9 with addr := [1] } goodDg) (svcS [])) 0 0x724 2 = 1 := by
  decide +kernel

theorem test_Service_stage : (let w (o n : Nat) := respOf (.stageWrite src9 o (List.replicate n 7)) (svcS [])
    w 0 0 = [reply9 3 1 0xA4 []] ∧ w 0 1025 = [reply9 3 1 0xA4 []] ∧ w 67107840 1025 = [reply9 3 1 0xA4 []] ∧
    w 67108863 2 = [reply9 3 1 0xA5 []] ∧ w 67108863 1 = [reply9 3 1 0 []] ∧
    (let l := { svcS [] with fw := { fmcS.fw with lockAt := 100, lockLen := 10 } }
     stageLocked l 99 1 = false ∧ stageLocked l 99 2 = true ∧ respOf (.stageWrite src9 109 [1]) l = [reply9 3 1 0xA6 []] ∧
     ramBytes (arrives (.stageWrite src9 98 [1, 2]) l) 98 3 = [1, 2, 0]) ∧
    respOf (.stageRead src9 0 2) { svcS [] with ram := [(1, 5)] } = [reply9 4 1 0 [0, 5]] ∧ respOf (.stageRead src9 67108863 2) (svcS []) = [reply9 4 1 0xA5 []] ∧
    respOf (.stageRead src9 0 0) (svcS []) = [reply9 4 1 0xA4 []]) := by
  decide +kernel

theorem test_Sideband : fmcS.tm.porLow = false ∧ (0x10 : Nat) + 0x78 ≤ 0x88 ∧ keeps (.sidebandWrite 0x10 [1]) { fmcS with tm := { porLow := true } } = true ∧
    (let t := arrives (.sidebandWrite 0x26 [0xD0, 7]) fmcS;
     look 0 t.sv.map 0x26 = 0xD0 ∧ t.sv.index = 0x26 ∧ t.kp = fmcS.kp ∧ (arrives .svcCommit t).sv.valid = true ∧ look 0 (arrives .svcCommit t).kp.area 5 = 0x7D00000) := by
  decide +kernel

theorem test_Jtag : respOf (.bypass 2 true) { fmcS with jt := [(2, 1)] } = [.tdo 2 1] ∧ look 0 (arrives (.bypass 2 true) fmcS).jt 2 = 1 ∧ dieType 2 = .compute ∧ fmcS.tm.porLow = false ∧
    respOf (.extest 2) fmcS = [.tdo 2 0] := by
  decide +kernel

/-- A bundle of six empty parts at offset 0: its header and manifest, as R537 and R538 lay them out. -/
def emptySha : List Byte := [0x38, 0xb0, 0x60, 0xa7, 0x51, 0xac, 0x96, 0x38, 0x4c, 0xd9, 0x32, 0x7e, 0xb1, 0xb1, 0xe3, 0x6a, 0x21, 0xfd, 0xb7, 0x11, 0x14, 0xbe, 0x7, 0x43, 0x4c, 0xc, 0xc7, 0xbf, 0x63, 0xf6, 0xe1, 0xda, 0x27, 0x4e, 0xde, 0xbf, 0xe7, 0x6f, 0x65, 0xfb, 0xd5, 0x1a, 0xd2, 0xf1, 0x48, 0x98, 0xb9, 0x5b]
def partB (typ level : Nat) : List Byte := [BitVec.ofNat 8 typ, BitVec.ofNat 8 level, 0, 0] ++ leBytes 4 768 ++ List.replicate 8 0 ++ emptySha
def bundleB : List Byte := leBytes 4 0x4C444E42 ++ [1, 0, 0, 0] ++ leBytes 4 0x6480 ++ leBytes 4 0xFFFFFFFF ++ leBytes 4 7 ++ [3, 0, 0, 0] ++ leBytes 4 768 ++ [6, 0, 0, 0] ++
  List.replicate 224 0 ++ partB 1 0 ++ partB 2 0 ++ partB 3 0 ++ partB 4 0 ++ partB 0x10 0 ++ partB 0x11 1
def fwS (f : Firmware) : State := { fmcS with fw := { f with running := true } }
def bunS (rollback : Nat) : State := { fwS { st := .checking, lockLen := 768 } with ram := ramWrite 0 bundleB [], kp := { rollback := rollback } }

def headB : List Byte := bundleB.take 256
def partsB : List PartEntry := [1, 2, 3, 4, 0x10, 0x11].map fun t => ⟨t, if t = 0x11 then 1 else 0, 0, 768, 0, emptySha⟩
theorem bundle_bytes (a n : Nat) (h : a + n ≤ 640) : ramBytes (bunS 3) a n = (bundleB.drop a).take n := by
  have := Machine.ramBytes_ramWrite (bunS 3) bundleB [] 0 a n (by simp only [bunS]) (by rw [show bundleB.length = 640 from by decide +kernel]; exact h)
  simpa using this
theorem bundle_head : bundleHeader (bunS 3) 0 = headB := by
  unfold bundleHeader
  rw [bundle_bytes 0 256 (by decide), List.drop_zero, headB]
theorem bundle_manifest : manifest (bunS 3) 0 = partsB := by
  simp only [manifest, bundle_head, show bundleParts headB = 6 from by decide +kernel, bundle_bytes (0 + 256) (64 * 6) (by decide)]
  decide +kernel
theorem bundle_form : formatOk (bunS 3) 0 = true := by
  unfold formatOk
  rw [bundle_head, bundle_manifest]
  decide +kernel
theorem bundle_fields : field headB 8 4 = 0x6480 ∧ field headB 0x0C 4 = 0xFFFFFFFF ∧ field headB 6 1 = 0 ∧ field headB 7 1 = 0 ∧ field headB 0x14 1 = 3 := by
  decide +kernel
theorem bundle_levels : levelsOk (bunS 3) 0 = true := by
  unfold levelsOk
  rw [bundle_manifest]
  decide +kernel
theorem bundle_digests : digestsOk (bunS 3) 0 = true := by
  unfold digestsOk
  rw [bundle_manifest]
  decide +kernel

/-- It passes, given a part of a stepping below 32 and a signature that verifies: both are the surroundings'. -/
theorem test_Firmware_passes (h1 : Nat.testBit 0xFFFFFFFF (Config.stepping 0).toNat = true) (h2 : ∀ k d g, Config.verify k d g = true) :
    (bunS 3).fw.st = .checking ∧ (bunS 3).fw.lockAt = 0 ∧ checkBundle (bunS 3) 0 = 0 := by
  obtain ⟨a, b, c, d, e⟩ := bundle_fields
  refine ⟨rfl, rfl, ?_⟩
  simp [checkBundle, signatureOk, bundle_head, bundle_form, bundle_levels, bundle_digests, a, b, c, d, e, h1, h2, show (bunS 3).kp.rollback = 3 from rfl]

theorem test_Firmware_fails : (fwS {}).fw.st ≠ .checking ∧ keeps .fwCheckDone (fwS {}) = true ∧ checkBundle (fwS { st := .checking }) 0 = 0x98 ∧
    gives .fwCheckDone (fwS { st := .checking, lockLen := 9 }) (fun t => decide (t.fw.st = .idle ∧ t.fw.code = 0x98 ∧ t.fw.lockLen = 0)) = true := by
  decide +kernel

def fwW (op : Nat) : Nat := 2 ^ 31 + op * 2 ^ 28
theorem test_Firmware_commands : ([1, 2, 3, 4, 5].all fun op => cmd (fwS {}) 0x724 0x100 (fwW op)) = true ∧ (fwS {}).fw.recovery = false ∧
    (fwS { st := .ready }).pl.next = none ∧ (let s := { fwS {} with ram := [(24, 0), (25, 2)] }
     (arrives (.fwCheck .fmc) s).fw.st = .checking ∧ (arrives (.fwCheck .fmc) s).fw.lockLen = 512) ∧
    (arrives (.fwCheck .fmc) (fwS { st := .ready })).fw.code = 0x9F ∧ (arrives (.fwProgram .fmc) (fwS { st := .checked })).fw.st = .programming ∧
    (let s := withUnits [(0, unit 5 12500 0)] (fwS { st := .ready })
     pkgPress s = 5 ∧ (arrives (.fwActivate .fmc) (setReg 0 0x724 0x110 0 6 s)).fw.code = 0xA0 ∧ (arrives (.fwActivate .fmc) (setReg 0 0x724 0x110 0 7 s)).fw.st = .armed) ∧
    (arrives (.fwCancel .fmc) (fwS { st := .armed })).fw.st = .idle ∧ (arrives (.fwCancel .fmc) (fwS { st := .pause })).fw.st = .pause ∧
    (arrives (.fwBind .fmc) { fwS {} with ram := [(0, 9)] }).kp.unitHash.head? = some 9 ∧
    (arrives (.fwBind .fmc) { fwS {} with kp := { unitHash := [9] } }).fw.code = 0x9D ∧
    (let r := { fmcS with fw := { recovery := true, st := .ready, newSlot := 1, slot0 := slot 3 6 } }
     cmd r 0x724 0x100 (fwW 3) = true ∧ respOf (.fwCancel .fmc) r = [.regDone .fmc 0 0] ∧ (arrives (.fwCancel .fmc) r).fw.st = .ready ∧
     (arrives (.fwActivate .fmc) r).fw.running = true ∧ (arrives (.fwActivate .fmc) r).fw.slot1.actSeq = 7) := by
  decide +kernel

theorem test_Firmware_slots : keeps (.fwProgramDone true) (fwS {}) = true ∧ (arrives (.fwProgramDone false) (fwS { st := .programming, lockLen := 9 })).fw.code = 0xA2 ∧
    (arrives (.fwProgramDone true) (fwS { st := .programming, newSlot := 1, newRb := 3, newEpoch := 7 })).fw.slot1 = ⟨true, 3, 7, 0⟩ ∧
    (let p := fwS { st := .pause, newSlot := 1, slot0 := slot 3 6, slot1 := ⟨true, 4, 44, 0⟩, inPause := true }
     p.fw.loaded = false ∧ p.fw.newSlot ≤ 1 ∧ keeps .activationLoadDone (fwS {}) = true ∧
     (arrives .activationLoadDone p).fw.slot1.actSeq = 7 ∧ (arrives .activationLoadDone p).kp.rollback = 4 ∧ (arrives .activationLoadTimeout p).fw.code = 0xA1) := by
  decide +kernel

/-- A pause of 62,500 reference cycles ends between boundaries where no multiple of the period fits; PERIOD 50,000. -/
def pauS (period : Nat) (actPress : Nat) : State := withUnits [(0, unit 5 period 0)] (fwS { st := .pause, inPause := true, loaded := true, pauseFrom := 0, actPress := actPress })
theorem test_PauseEnd : running (pauS 50000 9) (refDie (pauS 50000 9)) = true ∧ pauseAtBoundary 50000 = true ∧ pauseAtBoundary 62501 = false ∧
    pauseLimit (pauS 62501 9) = 800000 ∧ 0 + pressCycles 62501 = 800012 ∧ keeps .pauseEnd (fwS {}) = true ∧ keeps .pauseEnd (pauS 50000 9) = true ∧ 5 + 1 = 5 + pausePresses 50000 ∧
    pauseAtBoundary 32000 = false ∧ 0 + pressCycles 32000 < pauseLimit (pauS 32000 9) ∧ keeps .pauseEnd (pauS 32000 9) = true ∧
    gives .pauseEnd (pauS 62501 9) (fun t => decide (t.fw.inPause = false ∧ t.fw.st = .idle ∧ t.fw.code = 0 ∧ t.fw.pauseLast = 62500 ∧ t.tm.fclk = 800000)) = true := by
  decide +kernel

/-- R553: a die whose tie-off inputs are wrong is out of service: its modules are not trained. -/
theorem test_PowerOn_tied : (let t := arrives (.por 0 false [] [2]) fmcS
    notInService t 2 = true ∧ notInService t 1 = false ∧ linkOf t 2 7 = {} ∧ linkOf t 1 7 = { st := .training } ∧
    linkOf (arrives (.fabricReset .fmc) { t with fw := { running := true } }) 2 7 = {}) := by
  decide +kernel

end Sys2Proof.Tests
end

section
/-! SUPPORT. The clock on an empty queue (O2); the freeze bits and the frequency ceiling (O22). -/
namespace Sys2Proof.Machine

/-! ### Frames -/

theorem ChangesOnly.refl (ps : List Part) (s : State) : ChangesOnly ps s s := changesOnly_of_clr ps s s rfl

/-! ### A step on an empty queue (R18) -/

theorem step_of_empty (s : State) (h : s.pending = []) : step s = .next (if fclkRuns s then tick s else s) := by
  unfold step
  rw [h]

theorem tick_frame (s : State) : ChangesOnly [.tm, .rg, .nt, .lk, .out] s (tick s) :=
  changesOnly_of_clr _ _ _ (tick_clr _ rfl rfl rfl rfl rfl _)

/-- Settles O2: the step is one cycle of the clock, whose frame and whose effect on the time base are known. -/
theorem emptyQueueIsOneCycle : Obligations.EmptyQueueIsOneCycle := by
  intro s hs
  cases hrun : fclkRuns s with
  | true =>
    refine ⟨tick s, by simp [step_of_empty s hs, hrun], tick_frame s, fun _ => ?_, nofun⟩
    rw [tick_fclk]
    exact ⟨rfl, rfl⟩
  | false => exact ⟨s, by simp [step_of_empty s hs, hrun], ChangesOnly.refl _ s, nofun, fun _ => rfl⟩

/-! ### The value a register takes from a write (R46) -/

/-- Bit x of what a register holds after a write: as written where the bit is writable and its field in range, else as before. -/
theorem merged_testBit (i : PageInfo) (row : RegRow) (m : Master) (cur v : Word) (x : Nat) (hx : x < 32) :
    (merged i row m cur v).toNat.testBit x =
      if (writable i row m).testBit x && !(badBits i row.off v).testBit x then v.toNat.testBit x else cur.toNat.testBit x := by
  have hw : ∀ n : Nat, (w32 n).getLsbD x = n.testBit x := fun n => by
    simp only [w32, BitVec.getLsbD_ofNat, hx, decide_true, Bool.true_and]
  unfold merged
  simp only [BitVec.testBit_toNat, BitVec.getLsbD_or, BitVec.getLsbD_and, BitVec.getLsbD_not, hw, hx, decide_true, Bool.true_and]
  cases (writable i row m).testBit x <;> cases (badBits i row.off v).testBit x <;> simp

/-- A field of two words is the same where their bits are. -/
theorem wbits_low_congr (a b : Word) (n : Nat) (h : ∀ x, x < n + 1 → a.toNat.testBit x = b.toNat.testBit x) :
    wbits a n 0 = wbits b n 0 := by
  refine Nat.eq_of_testBit_eq fun x => ?_
  simp only [wbits, bits, Nat.shiftRight_zero, Nat.sub_zero, Nat.testBit_mod_two_pow]
  by_cases hx : x < n + 1
  · simp [hx, h x hx]
  · simp [hx]

/-! ### ARB_FREEZE (R55) -/

/-- The row of ARB_FREEZE, the same on every page. -/
def arbFreezeRow : RegRow := { off := 0x44, acc := .rw, w := 0xFFFF }

theorem rowAt_arbFreeze (die : Nat) (i : PageInfo) : rowAt die i 0x44 = some arbFreezeRow := by
  have h : findRow i.kind 0x44 = some arbFreezeRow := rfl
  unfold rowAt
  simp [h]

/-- A write of ARB_FREEZE takes effect at once in the register's own word. -/
theorem writeRow_arbFreeze (die page : Nat) (i : PageInfo) (m : Master) (v : Word) (s : State) :
    writeRow die page i arbFreezeRow m v s = writeRw die page i arbFreezeRow m v s :=
  writeRow_single die page i arbFreezeRow m v s rfl rfl

theorem frozen_writeRw (die page : Nat) (i : PageInfo) (m : Master) (v : Word) (s : State) (x : Nat) (hx : x < 16) :
    frozen (writeRw die page i arbFreezeRow m v s) die page x = v.toNat.testBit x := by
  have hmask : (writable i arbFreezeRow m).testBit x = true := by
    have : writable i arbFreezeRow m = 2 ^ 16 - 1 := rfl
    rw [this, Nat.testBit_two_pow_sub_one]
    exact decide_eq_true hx
  have hbad : badBits i arbFreezeRow.off v = 0 := rfl
  unfold frozen writeRw
  rw [show (0x44 : Nat) = arbFreezeRow.off from rfl, show selOf s die page arbFreezeRow = 0 from rfl, reg_setReg_same,
    merged_testBit _ _ _ _ _ _ (by omega), hmask, hbad]
  simp

theorem arbCount_le (k : PageKind) : arbCount k ≤ 16 := by
  cases k <;> decide

/-! ### GOV_CEILING (R29) -/

/-- The page of the frequency governor and its ceiling's row. -/
def govPage : PageInfo := { kind := .fmc0, inst := 0 }
def ceilingRow : RegRow := { off := 0x104, acc := .rw, rst := 0x4B0, w := 0xFFF }

/-- A ceiling the governor takes (R29). -/
def legalCeiling (v : Word) : Prop := 400 ≤ wbits v 11 0 ∧ wbits v 11 0 ≤ 1900 ∧ wbits v 11 0 % 10 = 0

theorem badBits_ceiling (v : Word) : badBits govPage 0x104 v =
    badIf (outside (wbits v 11 0) 400 1900 || decide (wbits v 11 0 % 10 ≠ 0)) 11 0 := rfl

theorem badBits_of_legal (v : Word) (h : legalCeiling v) : badBits govPage 0x104 v = 0 := by
  obtain ⟨hlo, hhi, hstep⟩ := h
  simp [badBits_ceiling, badIf, outside, hlo, hhi, hstep]

theorem badBits_of_illegal (v : Word) (h : ¬ legalCeiling v) : badBits govPage 0x104 v = 0xFFF := by
  have hbad : (outside (wbits v 11 0) 400 1900 || decide (wbits v 11 0 % 10 ≠ 0)) = true := by
    simp only [legalCeiling, outside, Bool.or_eq_true, decide_eq_true_eq] at h ⊢
    omega
  rw [badBits_ceiling, hbad]
  rfl

theorem writes_ceiling (s : State) (m : Master) (v : Word) (h : Commands s m 0 0x720 0x104 v) :
    Writes s m 0 0x720 0x104 v govPage ceilingRow := ⟨h.1, h.2, rfl, rfl, rfl⟩

/-- A write of GOV_CEILING takes effect at once. -/
theorem writeRow_ceiling (m : Master) (v : Word) (s : State) :
    writeRow 0 0x720 govPage ceilingRow m v s = ceilingWrite govPage ceilingRow m v s :=
  writeRow_single 0 0x720 govPage ceilingRow m v s rfl rfl

/-- The ceiling in effect after the write. -/
theorem reg_ceilingWrite (m : Master) (v : Word) (s : State) :
    reg (ceilingWrite govPage ceilingRow m v s) 0 0x720 0x104 = merged govPage ceilingRow m (reg s 0 0x720 0x104) v := by
  have hreg : reg (plainWrite 0 0x720 govPage ceilingRow m v s) 0 0x720 0x104 =
      merged govPage ceilingRow m (reg s 0 0x720 0x104) v := reg_setReg_same 0 0x720 0x104 0 _ _
  unfold ceilingWrite
  split
  · exact hreg
  · exact hreg

theorem noteBad_counts (die page : Nat) (i : PageInfo) (row : RegRow) (m : Master) (v : Word) (s : State) :
    (noteBad die page i row m v s).rg.counts = s.rg.counts := by
  unfold noteBad
  split <;> rfl

theorem plainWrite_ceiling_counts (m : Master) (v : Word) (s : State) :
    (plainWrite 0 0x720 govPage ceilingRow m v s).rg.counts = s.rg.counts := noteBad_counts 0 0x720 govPage ceilingRow m v s

/-- A legal ceiling is in effect and counted. -/
theorem ceilingWrite_legal (m : Master) (v : Word) (s : State) (h : legalCeiling v) :
    rfld (ceilingWrite govPage ceilingRow m v s) 0 0x720 0x104 11 0 = wbits v 11 0 ∧
      countOf (ceilingWrite govPage ceilingRow m v s) 0 0x720 2 = countOf s 0 0x720 2 + 1 := by
  have hbad := badBits_of_legal v h
  constructor
  · unfold rfld
    rw [reg_ceilingWrite]
    refine wbits_low_congr _ _ 11 fun x hx => ?_
    have hmask : (writable govPage ceilingRow m).testBit x = true := by
      have : writable govPage ceilingRow m = 2 ^ 12 - 1 := rfl
      rw [this, Nat.testBit_two_pow_sub_one]
      exact decide_eq_true hx
    rw [merged_testBit _ _ _ _ _ _ (by omega), hmask, show ceilingRow.off = 0x104 from rfl, hbad]
    simp
  · unfold ceilingWrite
    rw [if_pos hbad]
    unfold countOf addCount
    simp only [look_upd, if_true, plainWrite_ceiling_counts]
    rfl

/-- Any other value leaves the ceiling and the count and is marked. -/
theorem ceilingWrite_illegal (m : Master) (v : Word) (s : State) (h : ¬ legalCeiling v) :
    rfld (ceilingWrite govPage ceilingRow m v s) 0 0x720 0x104 11 0 = rfld s 0 0x720 0x104 11 0 ∧
      countOf (ceilingWrite govPage ceilingRow m v s) 0 0x720 2 = countOf s 0 0x720 2 ∧
      (pageOf (ceilingWrite govPage ceilingRow m v s) 0 0x720).bad = true := by
  have hbad := badBits_of_illegal v h
  have hplain : ceilingWrite govPage ceilingRow m v s = plainWrite 0 0x720 govPage ceilingRow m v s := by
    unfold ceilingWrite
    rw [if_neg (by rw [hbad]; decide)]
  refine ⟨?_, ?_, ?_⟩
  · unfold rfld
    rw [reg_ceilingWrite]
    refine wbits_low_congr _ _ 11 fun x hx => ?_
    have hout : (0xFFF : Nat).testBit x = true := by
      rw [show (0xFFF : Nat) = 2 ^ 12 - 1 from rfl, Nat.testBit_two_pow_sub_one]
      exact decide_eq_true hx
    rw [merged_testBit _ _ _ _ _ _ (by omega), show ceilingRow.off = 0x104 from rfl, hbad, hout]
    simp
  · rw [hplain]
    unfold countOf
    rw [plainWrite_ceiling_counts]
  · have hnote : noteBad 0 0x720 govPage ceilingRow m v s = badWrite 0 0x720 s := by
      unfold noteBad
      rw [if_neg]
      rw [show ceilingRow.off = 0x104 from rfl, hbad, show writable govPage ceilingRow m = 0xFFF from rfl]
      decide
    have hpages : (plainWrite 0 0x720 govPage ceilingRow m v s).rg.pages = (badWrite 0 0x720 s).rg.pages := by
      rw [← hnote]
      rfl
    rw [hplain]
    unfold pageOf
    rw [hpages]
    simp [badWrite, modPage]

/-- Settles O22: both writes are taken at once; the value in effect is the written one in the bits whose fields are in range. -/
theorem freezeAndCeilingWrites : Obligations.FreezeAndCeilingWrites := by
  constructor
  · intro s m die page v i row hw
    obtain rfl : row = arbFreezeRow := by
      obtain ⟨-, -, -, hrow, -⟩ := hw
      rw [rowAt_arbFreeze] at hrow
      exact (Option.some.inj hrow).symm
    refine ⟨emit (.regDone m 0 0) (writeRw die page i arbFreezeRow m v s), ?_, ?_, fun x hx => ?_⟩
    · show Host.Outcome.next (writeOf m die page 0x44 v s) = _
      rw [writeOf_taken s m die page 0x44 v i arbFreezeRow hw, writeRow_arbFreeze]
    · exact changesOnly_of_clr _ _ _ ((emit_clr _ rfl _ _).trans (writeRw_clr _ rfl _ _ _ _ _ _ _))
    · exact frozen_writeRw die page i m v s x (Nat.lt_of_lt_of_le hx (arbCount_le i.kind))
  · intro s m v hc
    refine ⟨emit (.regDone m 0 0) (ceilingWrite govPage ceilingRow m v s), ?_, ?_, fun h => ?_, fun h => ?_⟩
    · show Host.Outcome.next (writeOf m 0 0x720 0x104 v s) = _
      rw [writeOf_taken s m 0 0x720 0x104 v govPage ceilingRow (writes_ceiling s m v hc), writeRow_ceiling]
    · exact changesOnly_of_clr _ _ _ ((emit_clr _ rfl _ _).trans (ceilingWrite_clr _ rfl rfl _ _ _ _ _))
    · exact ceilingWrite_legal m v s h
    · exact ceilingWrite_illegal m v s h

end Sys2Proof.Machine
end

section
/-! SUPPORT. Values of seams at member tiles, home engines and stage engines (O50). First what the operations of the loads leave and what
they read; then one lemma for each way a packet of values can go. -/
namespace Sys2Proof.Machine

/-! ### What a packet that leaves the network leaves unchanged -/

@[simp] theorem consume_rg (die n : Nat) (p : Packet) (s : State) : (consume die n p s).rg = s.rg := rfl
@[simp] theorem consume_se (die n : Nat) (p : Packet) (s : State) : (consume die n p s).se = s.se := rfl
@[simp] theorem consume_ft (die n : Nat) (p : Packet) (s : State) : (consume die n p s).ft = s.ft := rfl
@[simp] theorem consume_out (die n : Nat) (p : Packet) (s : State) : (consume die n p s).out = s.out := rfl
@[simp] theorem consume_inject (die n : Nat) (p : Packet) (s : State) : (consume die n p s).nt.inject = s.nt.inject := rfl
@[simp] theorem recOf_consume (die n k : Nat) (p : Packet) (s : State) : recOf (consume die n p s) k = recOf s k := rfl
@[simp] theorem recAt_consume (die n : Nat) (p : Packet) (q : SeamRef) (s : State) : recAt (consume die n p s) q = recAt s q := rfl

theorem consume_frame (die n : Nat) (p : Packet) (s : State) : ChangesOnly [.nt] s (consume die n p s) :=
  changesOnly_of_clr _ _ _ (consume_clr _ rfl _ _ _ _)

/-! ### What the seam's figures are read from: the registers in effect -/

theorem gWord_of_eff {s t : State} (h : t.rg.eff = s.rg.eff) (g w : Nat) : gWord t g w = gWord s g w := reg_of_eff h _ _ _ _

theorem gMembers_of_eff {s t : State} (h : t.rg.eff = s.rg.eff) (g : Nat) : gMembers t g = gMembers s g := by
  unfold gMembers; rw [gWord_of_eff h]

theorem gRankBase_of_eff {s t : State} (h : t.rg.eff = s.rg.eff) (g : Nat) : gRankBase t g = gRankBase s g := by
  unfold gRankBase; rw [gWord_of_eff h]

theorem gLocal_of_eff {s t : State} (h : t.rg.eff = s.rg.eff) (g : Nat) : gLocal t g = gLocal s g := by
  unfold gLocal gf; rw [gWord_of_eff h]

theorem gXpkg_of_eff {s t : State} (h : t.rg.eff = s.rg.eff) (g : Nat) : gXpkg t g = gXpkg s g := by
  unfold gXpkg; rw [gWord_of_eff h]

theorem rootDelivers_of_eff {s t : State} (h : t.rg.eff = s.rg.eff) (r : SeamRec) : rootDelivers t r = rootDelivers s r := by
  unfold rootDelivers; rw [gXpkg_of_eff h]

theorem outRange_of_eff {s t : State} (h : t.rg.eff = s.rg.eff) (r : SeamRec) (q : Nat) : outRange t r q = outRange s r q := by
  unfold outRange; rw [gMembers_of_eff h]

theorem outInLoad_of_eff {s t : State} (h : t.rg.eff = s.rg.eff) (r : SeamRec) (k q : Nat) : outInLoad t r k q = outInLoad s r k q := by
  unfold outInLoad; rw [outRange_of_eff h]

theorem expectAt_of_eff {s t : State} (h : t.rg.eff = s.rg.eff) (r : SeamRec) (load pos : Nat) :
    expectAt t r load pos = expectAt s r load pos := by
  unfold expectAt; rw [gRankBase_of_eff h, gXpkg_of_eff h, gLocal_of_eff h]

/-! ### Records and loads after a change -/

theorem recOf_of_recAt {s : State} {q : SeamRef} {r : SeamRec} (h : recAt s q = some r) : recOf s (keyOf q) = some r := by
  unfold recAt at h
  split at h
  · next x hx =>
    split at h
    · rw [hx, h]
    · cases h
  · cases h

theorem recOf_modRec {s : State} {k : Nat} {r : SeamRec} (f : SeamRec → SeamRec) (h : recOf s k = some r) :
    recOf (modRec k f s) k = some (f r) := by
  unfold recOf at h ⊢
  simp [modRec, h, lookQ_ins]

theorem recOf_modLoad {s : State} {k load : Nat} {r : SeamRec} {l : LoadSt} (f : LoadSt → LoadSt) (h : recOf s k = some r)
    (hl : look? r.loads load = some l) : recOf (modLoad k load f s) k = some { r with loads := ins r.loads load (f l) } := by
  unfold modLoad
  rw [recOf_modRec _ h]
  simp only [hl]

theorem recOf_of_se {s t : State} (h : t.se = s.se) (k : Nat) : recOf t k = recOf s k := by unfold recOf; rw [h]

theorem modRec_only_se (k : Nat) (f : SeamRec → SeamRec) (s : State) : ChangesOnly [.se] s (modRec k f s) :=
  changesOnly_of_clr _ _ _ (modRec_clr _ rfl _ _ _)

theorem modLoad_only_se (k load : Nat) (f : LoadSt → LoadSt) (s : State) : ChangesOnly [.se] s (modLoad k load f s) :=
  changesOnly_of_clr _ _ _ (modLoad_clr _ rfl _ _ _ _)

theorem poisonFail_only_se (k : Nat) (p : Packet) (s : State) : ChangesOnly [.se] s (poisonFail k p s) :=
  changesOnly_of_clr _ _ _ (poisonFail_clr _ rfl _ _ _)

theorem poisonFail_clean (k : Nat) (p : Packet) (s : State) (h : poisonStatus p = 0) : poisonFail k p s = s := by
  simp [poisonFail, h]

/-- A failure of a seam leaves what its tiles hold. -/
theorem poisonFail_loads (k : Nat) (p : Packet) (s : State) : (poisonFail k p s).se.loads = s.se.loads := by
  have h : ∀ f, (modRec k f s).se.loads = s.se.loads := fun f => by unfold modRec; split <;> rfl
  unfold poisonFail seamFail
  split
  · exact h _
  · split
    · exact h _
    · rfl

/-! ### The raising of an invalid partial (R209) -/

theorem shows_of_pages {s t : State} (h : t.rg.pages = s.rg.pages) (die page b : Nat) (hs : Shows s die page b) : Shows t die page b := by
  unfold Shows pageOf at hs ⊢
  rwa [h]

/-- The raising at a member tile. -/
def tileBad (die n ctx : Nat) (vs : List SVal) (s : State) : State :=
  if anyBad vs then raise die (drnPage s die n) 7 (some ctx) 0 s else s

theorem tileBad_only (die n ctx : Nat) (vs : List SVal) (s : State) : ChangesOnly [.rg, .ft] s (tileBad die n ctx vs s) := by
  unfold tileBad
  split
  · exact raise_same _ _ _ _ _ _
  · exact ChangesOnly.refl _ _

theorem tileBad_shows (die n ctx : Nat) (vs : List SVal) (s : State) (h : anyBad vs = true) :
    Shows (tileBad die n ctx vs s) die (drnPage s die n) 7 := by
  unfold tileBad
  rw [if_pos h]
  exact raise_bit _ _ _ _ _ _ (by decide)

theorem engBad_only (k : Nat) (r : SeamRec) (vs : List SVal) (s : State) : ChangesOnly [.rg, .ft] s (engBad k r vs s) :=
  changesOnly_of_clr _ _ _ (engBad_clr _ rfl rfl _ _ _ _)

theorem engBad_eff (k : Nat) (r : SeamRec) (vs : List SVal) (s : State) : (engBad k r vs s).rg.eff = s.rg.eff := by
  unfold engBad
  split
  · exact raise_eff _ _ _ _ _ _
  · rfl

theorem engBad_shows (k : Nat) (r : SeamRec) (vs : List SVal) (s : State) (h : anyBad vs = true) :
    Shows (engBad k r vs s) (keyDie k) (keyPage k) 0 := by
  unfold engBad
  rw [if_pos h]
  exact raise_bit _ _ _ _ _ _ (by decide)

/-! ### Ways of a packet of values -/

/-- The values a packet of partials carries for a seam. -/
def partVals (r : SeamRec) (p : Packet) : List SVal := unpackVals (descOfRec r) true false (extCount p) (extForms p) p.payload

/-- What reaches a tile for a seam whose record has gone is consumed. -/
theorem seamValues_gone (die n fd ft : Nat) (q : SeamRef) (p : Packet) (s : State) (h9 : aPort p.dest ≠ 9) (h : recAt s q = none) :
    seamValues die n q fd ft p s = consume die n p s := by
  simp [seamValues, h9, h]

theorem seamValues_tilePart (die n fd ft : Nat) (q : SeamRef) (p : Packet) (s : State) (r : SeamRec) (h9 : aPort p.dest ≠ 9)
    (h : recAt s q = some r) (hop : p.opcode = 0x25) :
    seamValues die n q fd ft p s = tilePart (keyOf q) q die n p (consume die n p s) := by
  simp [seamValues, h9, h, hop]

theorem seamValues_tileData (die n fd ft : Nat) (q : SeamRef) (p : Packet) (s : State) (r : SeamRec) (h9 : aPort p.dest ≠ 9)
    (h : recAt s q = some r) (hop : p.opcode = 0x26) :
    seamValues die n q fd ft p s = tileData (keyOf q) q die n fd ft p (consume die n p s) := by
  simp [seamValues, h9, h, hop]

theorem seamValues_home (die n fd ft : Nat) (q : SeamRef) (p : Packet) (s : State) (h9 : aPort p.dest = 9) (hio : dieType die ≠ .io) :
    seamValues die n q fd ft p s = homeArrive (keyOf q) fd ft p (consume die n p s) := by
  simp [seamValues, h9, hio]

/-- The packets a stage engine keeps until its record comes (R348). -/
def keepEarly (die eng : Nat) (p : Packet) (s : State) : State :=
  { s with se := { s.se with early := upd [] s.se.early (ek die eng) (· ++ [p]) } }

theorem seamValues_early (die n fd ft : Nat) (q : SeamRef) (p : Packet) (s : State) (h9 : aPort p.dest = 9) (hio : dieType die = .io)
    (h : findStage s die (stageEng n) (bits p.operand.toNat 63 48) (bits p.operand.toNat 47 0) = none) :
    seamValues die n q fd ft p s = keepEarly die (stageEng n) p (consume die n p s) := by
  have h' : findStage (consume die n p s) die (stageEng n) (bits p.operand.toNat 63 48) (bits p.operand.toNat 47 0) = none := h
  simp only [seamValues, h9, hio, if_true, h']
  rfl

/-! ### SEAM_PART at a member tile (R27, R334) -/

/-- A child's partials joined to those of a tile's load. -/
def joinTile (r : SeamRec) (p : Packet) (l : TLoad) : TLoad :=
  { l with vals := joinVals (combOf (descOfRec r)) l.vals (extFirst p) (inherit p (partVals r p)) }

theorem tilePart_eq (k die n : Nat) (q : SeamRef) (p : Packet) (s : State) (r : SeamRec) (h : recOf s k = some r) :
    tilePart k q die n p s =
      modTLoad die n q (extLoad p) (joinTile r p) (tileBad die n q.ctx (partVals r p) (poisonFail k p s)) := by
  unfold tilePart
  rw [h]
  rfl

/-- A tile's load after a change of it that keeps its seam and number. -/
theorem tloadOf_modTLoad (die n load : Nat) (q : SeamRef) (f : TLoad → TLoad) (s : State)
    (hf : ∀ l, (f l).ref = l.ref ∧ (f l).load = l.load) :
    tloadOf (modTLoad die n q load f s) die n q load = (tloadOf s die n q load).map f := by
  unfold tloadOf tloadsOf modTLoad
  simp only [look_upd, if_true]
  induction look [] s.se.loads (tk die n) with
  | nil => rfl
  | cons l ls ih =>
    cases hl : sameSeam l.ref q && decide (l.load = load) with
    | true =>
      have hfl : (sameSeam (f l).ref q && decide ((f l).load = load)) = true := by rw [(hf l).1, (hf l).2, hl]
      simp only [List.map_cons, List.find?_cons, hl, if_true, hfl, Option.map_some]
    | false => simp only [List.map_cons, List.find?_cons, hl, Bool.false_eq_true, if_false, ih]

theorem tloadOf_of_loads {s t : State} (h : t.se.loads = s.se.loads) (die n load : Nat) (q : SeamRef) :
    tloadOf t die n q load = tloadOf s die n q load := by
  unfold tloadOf tloadsOf; rw [h]

theorem tilePart_only (k die n : Nat) (q : SeamRef) (p : Packet) (s : State) : ChangesOnly [.rg, .se, .ft] s (tilePart k q die n p s) :=
  changesOnly_of_clr _ _ _ (tilePart_clr _ rfl rfl rfl _ _ _ _ _ _)

theorem tilePart_shows (k die n : Nat) (q : SeamRef) (p : Packet) (s : State) (r : SeamRec) (h : recOf s k = some r)
    (hb : anyBad (partVals r p) = true) : Shows (tilePart k q die n p s) die (drnPage s die n) 7 := by
  have hft : (poisonFail k p s).ft = s.ft := poisonFail_only_se k p s .ft (by decide)
  have hpage : drnPage (poisonFail k p s) die n = drnPage s die n := by
    unfold drnPage physTile spareOf
    rw [hft]
  rw [tilePart_eq k die n q p s r h]
  refine shows_of_pages rfl die _ 7 (s := tileBad die n q.ctx (partVals r p) (poisonFail k p s)) ?_
  rw [← hpage]
  exact tileBad_shows die n q.ctx _ _ hb

theorem tloadOf_tilePart (k die n : Nat) (q : SeamRef) (p : Packet) (s : State) (r : SeamRec) (h : recOf s k = some r) :
    tloadOf (tilePart k q die n p s) die n q (extLoad p) = (tloadOf s die n q (extLoad p)).map (joinTile r p) := by
  rw [tilePart_eq k die n q p s r h, tloadOf_modTLoad die n _ q (joinTile r p) _ fun l => ⟨rfl, rfl⟩]
  congr 1
  refine tloadOf_of_loads ?_ die n _ q
  rw [show (tileBad die n q.ctx (partVals r p) (poisonFail k p s)).se = (poisonFail k p s).se from
    tileBad_only die n q.ctx _ _ .se (by decide), poisonFail_loads]

/-! ### SEAM_DATA at a member tile (R335) -/

/-- An output that one round of a loop gives, and no round takes back, is there at the end. -/
theorem mem_forEach_out {α : Type} (P : State → Prop) (xs : List α) (f : α → State → State) (s : State) (x : α) (y : Output)
    (hP : ∀ x s, P s → P (f x s)) (hmono : ∀ x s, y ∈ s.out → y ∈ (f x s).out) (hx : x ∈ xs) (hgive : ∀ s, P s → y ∈ (f x s).out)
    (hs : P s) : y ∈ (forEach xs f s).out := by
  have hkeep : ∀ (xs : List α) (s : State), y ∈ s.out → y ∈ (forEach xs f s).out := fun xs s h =>
    forEach_keeps (fun t => y ∈ t.out) xs f s hmono h
  induction xs generalizing s with
  | nil => cases hx
  | cons a xs ih =>
    show y ∈ (forEach xs f (f a s)).out
    rcases List.mem_cons.mp hx with rfl | hx
    · exact hkeep xs _ (hgive s hs)
    · exact ih (f a s) hx (hP a s hs)

/-- A write of user memory adds its accesses to the outputs; which, the die's safe state decides. -/
theorem storeBy_out {s t : State} (h : t.ft = s.ft) (die : Nat) (a : DWord) (bs : List Byte) :
    (storeBy die a bs t).out = t.out ++ (storeBy die a bs { s with out := [] }).out := by
  have hsafe : isSafe { s with out := [] } die = isSafe t die := by simp only [isSafe, h]
  unfold storeBy
  rw [hsafe]
  split
  · simp
  · simp [userStore]

/-- The positions of a load, of those a packet brings, that an open's rank receives. -/
def shareSpan (s : State) (r : SeamRec) (o : MemberOpen) (load first len : Nat) : Nat × Nat :=
  (max (outInLoad s r load o.rank).1 first, min (outInLoad s r load o.rank).2 (first + len))

/-- The write of an open's share of them to its DST. -/
def storeShare (s : State) (r : SeamRec) (o : MemberOpen) (die load first : Nat) (elems : List (List Byte)) : State → State :=
  let span := shareSpan s r o load first elems.length
  storeBy die (o.desc.dst + w64 ((loadFirst r load + span.1 - (outRange s r o.rank).1) * outElem (descOfRec r)))
    ((elems.drop (span.1 - first)).take (span.2 - span.1)).flatten

/-- One round of `writeShare`: the open e.1, of index e.2 in its record. -/
def shareStep (k : Nat) (r : SeamRec) (die n load first : Nat) (elems : List (List Byte)) (e : MemberOpen × Nat) (s : State) : State :=
  if e.1.die = die ∧ e.1.tile = n ∧ (!e.1.shadow || e.1.joined) then
    let span := shareSpan s r e.1 load first elems.length
    if span.1 < span.2 then
      modLoad k load (fun l => { l with wrote := upd 0 l.wrote e.2 (· + (span.2 - span.1)) }) (storeShare s r e.1 die load first elems s)
    else s
  else s

theorem writeShare_eq {s : State} {k : Nat} {r : SeamRec} (hrec : recOf s k = some r) (die n load first : Nat)
    (elems : List (List Byte)) : writeShare k die n load first elems s =
      forEach r.opens.zipIdx (shareStep k r die n load first elems) s := by
  unfold writeShare
  rw [hrec]
  rfl

theorem shareSpan_of_eff {s t : State} (h : t.rg.eff = s.rg.eff) (r : SeamRec) (o : MemberOpen) (load first len : Nat) :
    shareSpan t r o load first len = shareSpan s r o load first len := by
  unfold shareSpan; rw [outInLoad_of_eff h]

theorem storeShare_of_eff {s t : State} (h : t.rg.eff = s.rg.eff) (r : SeamRec) (o : MemberOpen) (die load first : Nat)
    (elems : List (List Byte)) : storeShare t r o die load first elems = storeShare s r o die load first elems := by
  unfold storeShare; rw [shareSpan_of_eff h, outRange_of_eff h]

theorem shareStep_only (k : Nat) (r : SeamRec) (die n load first : Nat) (elems : List (List Byte)) (e : MemberOpen × Nat) (s : State) :
    ChangesOnly [.se, .out] s (shareStep k r die n load first elems e s) := by
  unfold shareStep
  split
  · dsimp only
    split
    · exact changesOnly_of_clr _ _ _ ((modLoad_clr _ rfl _ _ _ _).trans (storeBy_clr _ rfl _ _ _ _))
    · exact ChangesOnly.refl _ _
  · exact ChangesOnly.refl _ _

/-- A round adds to the outputs the write of the open's share, if the open is of the tile and has one. -/
theorem shareStep_out (k : Nat) (r : SeamRec) (die n load first : Nat) (elems : List (List Byte)) (e : MemberOpen × Nat) (s : State) :
    (shareStep k r die n load first elems e s).out = s.out ++
      if (e.1.die = die ∧ e.1.tile = n ∧ (!e.1.shadow || e.1.joined)) ∧
          (shareSpan s r e.1 load first elems.length).1 < (shareSpan s r e.1 load first elems.length).2 then
        (storeShare s r e.1 die load first elems { s with out := [] }).out
      else [] := by
  unfold shareStep
  by_cases hmine : e.1.die = die ∧ e.1.tile = n ∧ (!e.1.shadow || e.1.joined)
  · by_cases hlt : (shareSpan s r e.1 load first elems.length).1 < (shareSpan s r e.1 load first elems.length).2
    · rw [if_pos hmine, if_pos hlt, if_pos ⟨hmine, hlt⟩,
        show (modLoad _ _ _ _).out = (storeShare s r e.1 die load first elems s).out from modLoad_only_se _ _ _ _ .out (by decide)]
      exact storeBy_out rfl _ _ _
    · rw [if_pos hmine, if_neg hlt, if_neg fun h => hlt h.2, List.append_nil]
  · rw [if_neg hmine, if_neg fun h => hmine h.1, List.append_nil]

/-- The open of a tile's member that serves (R344). -/
def ServesAt (r : SeamRec) (die n : Nat) (o : MemberOpen) : Prop := o ∈ r.opens ∧ o.die = die ∧ o.tile = n ∧ o.shadow = false

/-- A serving member's share of results that reach its tile is written. The state s stands for the one before the packet was consumed. -/
theorem mem_writeShare_out {s u : State} (hrg : u.rg = s.rg) (hft : u.ft = s.ft) {k : Nat} {r : SeamRec} (hrec : recOf u k = some r)
    {die n : Nat} {o : MemberOpen} (ho : ServesAt r die n o) (load first : Nat) (elems : List (List Byte))
    (hlt : (shareSpan s r o load first elems.length).1 < (shareSpan s r o load first elems.length).2) (y : Output)
    (hy : y ∈ (storeShare s r o die load first elems { s with out := [] }).out) :
    y ∈ (writeShare k die n load first elems u).out := by
  obtain ⟨hmem, hdie, htile, hserve⟩ := ho
  obtain ⟨i, hi⟩ : ∃ i, (o, i) ∈ r.opens.zipIdx := by
    obtain ⟨i, hi, rfl⟩ := List.getElem_of_mem hmem
    exact ⟨i, by simp [List.mem_zipIdx_iff_getElem?, hi]⟩
  rw [writeShare_eq hrec]
  refine mem_forEach_out (fun t => t.rg = s.rg ∧ t.ft = s.ft) _ _ u (o, i) y ?keep ?mono hi ?give ⟨hrg, hft⟩
  case keep =>
    rintro e t ⟨hrg, hft⟩
    exact ⟨(shareStep_only _ _ _ _ _ _ _ _ _ .rg (by decide)).trans hrg, (shareStep_only _ _ _ _ _ _ _ _ _ .ft (by decide)).trans hft⟩
  case mono =>
    intro e t ht
    rw [shareStep_out]
    exact List.mem_append_left _ ht
  case give =>
    rintro t ⟨hrg, hft⟩
    have heff : t.rg.eff = s.rg.eff := congrArg Regs.eff hrg
    have hsame : (storeShare s r o die load first elems { t with out := [] }).out =
        (storeShare s r o die load first elems { s with out := [] }).out := storeBy_out (s := s) (t := { t with out := [] }) hft _ _ _
    rw [shareStep_out, shareSpan_of_eff heff, storeShare_of_eff heff, if_pos ⟨⟨hdie, htile, by simp [hserve]⟩, hlt⟩, hsame]
    exact List.mem_append_right _ hy

theorem checkFinished_only (k load : Nat) (s : State) : ChangesOnly [.rg, .se] s (checkFinished k load s) :=
  changesOnly_of_clr _ _ _ (checkFinished_clr _ rfl rfl _ _ _)

/-- What goes on down the tree from a tile is packets; the writes are those of its own share. -/
theorem tileDown_out {s : State} {k : Nat} {r : SeamRec} (hrec : recOf s k = some r) (q : SeamRef) (die n load first : Nat)
    (elems : List (List Byte)) : (tileDown k q die n load first elems s).out = (writeShare k die n load first elems s).out := by
  have hsend : ∀ (ps : State → Nat → List Packet) (kids : List Nat) (t : State),
      (forEach kids (fun c t => forEach (ps t c) (fun p t => tileSend die n q p t) t) t).out = t.out := fun ps kids t =>
    forEach_same (·.out) _ _ _ fun c t => forEach_same (·.out) _ _ _ fun p t =>
      same_of_clr [.nt] _ _ (tileSend_clr _ rfl _ _ _ _ _) .out (by decide)
  unfold tileDown
  rw [hrec]
  exact (checkFinished_only _ _ _ .out (by decide)).trans (hsend (fun t c => dataToTile t k q die n 1 die c load first elems) _ _)

/-- The elements of a packet of results. -/
def dataElems (r : SeamRec) (p : Packet) : List (List Byte) :=
  (List.range (extCount p)).map fun i => slice p.payload (i * outElem (descOfRec r)) (outElem (descOfRec r))

/-- Results from above: the writes of SEAM_DATA are those of the tile's own share. -/
theorem tileData_out {s : State} {k : Nat} {r : SeamRec} (hrec : recOf s k = some r) (q : SeamRef) (die n fd ft : Nat) (p : Packet)
    (habove : ¬ (fd = die ∧ ft ∈ treeChildren r die n)) :
    (tileData k q die n fd ft p s).out = (writeShare k die n (extLoad p) (extFirst p) (dataElems r p) s).out := by
  unfold tileData
  rw [hrec]
  dsimp only
  rw [if_neg habove]
  split
  · exact checkFinished_only _ _ _ .out (by decide)
  · exact tileDown_out hrec _ _ _ _ _ _

/-! ### The output of a load at its engine -/

theorem leaveBy_pages (die n out : Nat) (p : Packet) (s : State) : (leaveBy die n out p s).rg.pages = s.rg.pages := by
  have hsend : ∀ (link : Nat) (p : Packet) (s : State), (sendPacket die link p s).rg = s.rg := fun link p s =>
    same_of_clr [.lk, .out] _ _ (sendPacket_clr _ rfl rfl _ _ _ _) .rg (by decide)
  have hcount : ∀ page sel n (s : State), (addCount die page sel n s).rg.pages = s.rg.pages := fun _ _ _ _ => rfl
  unfold leaveBy
  split
  · rw [hcount, hsend]
  · split
    · rfl
    · dsimp only
      split
      · rw [hcount, show (sendLoss _ _ _ _ _ s).rg = s.rg from same_of_clr [.nt] _ _ (sendLoss_clr _ rfl _ _ _ _ _ _) .rg (by decide)]
      · rw [hcount, hsend]
  · split <;> rfl

theorem collectorDrain_pages (die : Nat) (s : State) : (collectorDrain die s).rg.pages = s.rg.pages := by
  refine forEach_same (fun t => t.rg.pages) _ _ _ fun p s => ?_
  unfold collectorGo
  dsimp only
  split
  · split
    · rfl
    · exact leaveBy_pages _ _ _ _ _
  · rfl

theorem engSend_pages (k : Nat) (p : Packet) (s : State) : (engSend k p s).rg.pages = s.rg.pages := by
  unfold engSend collectorSend
  dsimp only
  split
  · split
    · exact congrArg Regs.pages (same_of_clr [.nt] _ _ (sendLoss_clr _ rfl _ _ _ _ _ _) .rg (by decide))
    · exact collectorDrain_pages _ _
  · rfl

theorem sendResults_pages (k load : Nat) (elems : List (List Byte)) (s : State) : (sendResults k load elems s).rg.pages = s.rg.pages := by
  unfold sendResults
  split
  · rfl
  · refine forEach_same (fun t => t.rg.pages) _ _ _ fun dd t => ?_
    split
    · exact forEach_same (fun t => t.rg.pages) _ _ _ fun p t => engSend_pages k p t
    · rfl

theorem sendShadows_pages (k load : Nat) (elems : List (List Byte)) (s : State) : (sendShadows k load elems s).rg.pages = s.rg.pages := by
  unfold sendShadows
  split
  · rfl
  · exact forEach_same (fun t => t.rg.pages) _ _ _ fun o t => forEach_same (fun t => t.rg.pages) _ _ _ fun p t => engSend_pages k p t

theorem checkFinished_pages (k load : Nat) (s : State) : (checkFinished k load s).rg.pages = s.rg.pages := by
  have hload : ∀ f, (modLoad k load f s).rg.pages = s.rg.pages := fun f =>
    congrArg Regs.pages (modLoad_only_se k load f s .rg (by decide))
  unfold checkFinished
  split
  · rfl
  · split
    · rfl
    · split
      · dsimp only
        split
        · exact hload _
        · exact hload _
      · rfl

/-- The record and a load of an engine, with what of the load is settled. -/
def Settled (s : State) (k load : Nat) (sent final : Bool) (out : SMap (List Byte)) : Prop :=
  ∃ r l, recOf s k = some r ∧ look? r.loads load = some l ∧ l.sent = sent ∧ l.final = final ∧ l.out = out

theorem Settled.of_se {s t : State} (h : t.se = s.se) {k load : Nat} {sent final : Bool} {out : SMap (List Byte)}
    (hs : Settled s k load sent final out) : Settled t k load sent final out := by
  obtain ⟨r, l, hr, hl⟩ := hs
  exact ⟨r, l, (recOf_of_se h k).trans hr, hl⟩

/-- A load that ends keeps its output. -/
theorem Settled.checkFinished {s : State} {k load : Nat} {sent final : Bool} {out : SMap (List Byte)}
    (hs : Settled s k load sent final out) : Settled (checkFinished k load s) k load sent final out := by
  have hs' := hs
  obtain ⟨r, l, hr, hl, hsent, hfinal, hout⟩ := hs
  have hdone : Settled (modLoad k load (fun l => { l with finished := true, vals := [] }) s) k load sent final out :=
    ⟨_, { l with finished := true, vals := [] }, recOf_modLoad _ hr hl, by rw [lookQ_ins, if_pos rfl], hsent, hfinal, hout⟩
  unfold Machine.checkFinished
  simp only [hr, hl]
  split
  · split
    · exact hdone.of_se rfl
    · exact hdone
  · exact hs'

/-- A list of elements as a store by position. -/
def outStore (elems : List (List Byte)) : SMap (List Byte) := elems.zipIdx.foldl (fun m (e, i) => put [] m i e) []

theorem look_foldl_put (elems : List (List Byte)) (m : SMap (List Byte)) (a i : Nat) :
    look [] ((elems.zipIdx a).foldl (fun m (e, i) => put [] m i e) m) i =
      if h : a ≤ i ∧ i - a < elems.length then elems[i - a] else look [] m i := by
  induction elems generalizing m a with
  | nil => simp
  | cons e es ih =>
    simp only [List.zipIdx_cons, List.foldl_cons, ih, look_put, List.length_cons]
    by_cases h1 : i = a
    · subst h1
      simp
    · by_cases h2 : a + 1 ≤ i ∧ i - (a + 1) < es.length
      · have h3 : a ≤ i ∧ i - a < es.length + 1 := by omega
        rw [dif_pos h2, dif_pos h3]
        simp only [show i - a = (i - (a + 1)) + 1 by omega, List.getElem_cons_succ]
      · have h3 : ¬ (a ≤ i ∧ i - a < es.length + 1) := by omega
        rw [dif_neg h2, dif_neg h3, if_neg h1]

theorem look_outStore (elems : List (List Byte)) (i : Nat) (h : i < elems.length) : look [] (outStore elems) i = elems[i] := by
  unfold outStore
  rw [look_foldl_put, dif_pos ⟨Nat.zero_le i, h⟩]
  rfl

/-- Delivery makes the output of a load final. -/
theorem finishOut_settled {s : State} {k load : Nat} {r : SeamRec} {l : LoadSt} (hr : recOf s k = some r)
    (hl : look? r.loads load = some l) (elems : List (List Byte)) (fl : Byte) (send : Bool) :
    Settled (finishOut k load elems fl send s) k load l.sent true (outStore elems) := by
  have hset : Settled (modLoad k load (fun l => { l with final := true, out := outStore elems })
      (modRec k (fun r => { r with xflags := r.xflags ||| fl }) s)) k load l.sent true (outStore elems) :=
    ⟨_, { l with final := true, out := outStore elems }, recOf_modLoad _ (recOf_modRec _ hr) hl,
      by rw [lookQ_ins, if_pos rfl], rfl, rfl, rfl⟩
  have hresults : ∀ t, (sendResults k load elems t).se = t.se := fun t =>
    same_of_clr [.rg, .nt, .lk, .out] _ _ (sendResults_clr _ rfl rfl rfl rfl _ _ _ _) .se (by decide)
  unfold finishOut
  rw [hr]
  refine Settled.checkFinished (Settled.of_se
    (same_of_clr [.rg, .nt, .lk, .out] _ _ (sendShadows_clr _ rfl rfl rfl rfl _ _ _ _) .se (by decide))
    (Settled.of_se (doIf_same (·.se) send _ _ hresults) ?_))
  split
  · exact Settled.of_se (same_of_clr [.out] _ _ (writeCounts_clr _ rfl _ _) .se (by decide)) hset
  · exact hset

theorem finishOut_pages (k load : Nat) (elems : List (List Byte)) (fl : Byte) (send : Bool) (s : State) :
    (finishOut k load elems fl send s).rg.pages = s.rg.pages := by
  unfold finishOut
  split
  · rfl
  · next r hr =>
    have hmod : ∀ f g, (modLoad k load f (modRec k g s)).rg = s.rg := fun f g =>
      (modLoad_only_se k load f _ .rg (by decide)).trans (modRec_only_se k g s .rg (by decide))
    rw [checkFinished_pages, sendShadows_pages, doIf_same (fun t => t.rg.pages) send _ _ (sendResults_pages k load elems)]
    dsimp only
    split
    · rw [show (writeCounts _ _).rg = (modLoad k load _ (modRec k _ s)).rg from
        same_of_clr [.out] _ _ (writeCounts_clr _ rfl _ _) .rg (by decide), hmod]
    · rw [hmod]

/-! ### A home engine's load moves on (R335) -/

/-- A load of a seam of this package that waits at its home engine for values. -/
structure OpenLoad (s : State) (k load : Nat) (r : SeamRec) (l : LoadSt) : Prop where
  named : recOf s k = some r
  listed : look? r.loads load = some l
  here : gXpkg s r.group = false
  byEngine : rootDelivers s r = false
  notFinal : l.final = false
  notSent : l.sent = false

/-- Every position of a load has its contributions. -/
def Whole (s : State) (r : SeamRec) (load : Nat) (l : LoadSt) : Prop :=
  ∀ i, i < loadCount r load → expectAt s r load i ≤ (look {} l.vals i).n

/-- Until every position has its contributions nothing is rounded. -/
theorem OpenLoad.waits {s : State} {k load : Nat} {r : SeamRec} {l : LoadSt} (ho : OpenLoad s k load r l) (h : ¬ Whole s r load l) :
    advanceLoad k load s = s := by
  obtain ⟨hr, hl, hx, hroot, hfinal, hsent⟩ := ho
  have hall : ((List.range (loadCount r load)).all fun i => decide ((look {} l.vals i).n ≥ expectAt s r load i)) = false := by
    rw [← Bool.not_eq_true, List.all_eq_true]
    simpa [Whole] using h
  unfold advanceLoad
  simp only [hr, hl, hfinal, hroot, hsent, hall, Bool.false_eq_true, if_false, Bool.not_false, if_true]

/-- The state in which a load has been handed on to be rounded. -/
def handedOn (k load : Nat) (s : State) : State := modLoad k load (fun l => { l with sent := true }) s

/-- Once every position has them, the load is rounded and delivered. -/
theorem OpenLoad.rounds {s : State} {k load : Nat} {r : SeamRec} {l : LoadSt} (ho : OpenLoad s k load r l) (h : Whole s r load l) :
    advanceLoad k load s = finishOut k load (loadOut r load (loadCount r load) l.vals).1
      (loadOut r load (loadCount r load) l.vals).2 true (handedOn k load s) := by
  obtain ⟨hr, hl, hx, hroot, hfinal, hsent⟩ := ho
  have hall : ((List.range (loadCount r load)).all fun i => decide ((look {} l.vals i).n ≥ expectAt s r load i)) = true := by
    rw [List.all_eq_true]
    simpa [Whole] using h
  have heff : (handedOn k load s).rg.eff = s.rg.eff := congrArg Regs.eff (modLoad_only_se k load _ s .rg (by decide))
  have hx' : gXpkg (handedOn k load s) r.group = false := (gXpkg_of_eff heff _).trans hx
  unfold handedOn at hx' ⊢
  unfold advanceLoad
  simp only [hr, hl, hfinal, hroot, hsent, hall, hx', Bool.false_eq_true, if_false, Bool.not_false, if_true]

theorem OpenLoad.pages {s : State} {k load : Nat} {r : SeamRec} {l : LoadSt} (ho : OpenLoad s k load r l) :
    (advanceLoad k load s).rg.pages = s.rg.pages := by
  by_cases h : Whole s r load l
  · rw [ho.rounds h, finishOut_pages]
    exact congrArg Regs.pages (modLoad_only_se k load _ s .rg (by decide))
  · rw [ho.waits h]

/-- The output of a load once it is whole is final, and it is what the engine rounds. -/
theorem OpenLoad.settled {s : State} {k load : Nat} {r : SeamRec} {l : LoadSt} (ho : OpenLoad s k load r l) (h : Whole s r load l) :
    Settled (advanceLoad k load s) k load true true (outStore (loadOut r load (loadCount r load) l.vals).1) := by
  rw [ho.rounds h]
  exact finishOut_settled (recOf_modLoad _ ho.named ho.listed) (l := { l with sent := true }) (by rw [lookQ_ins, if_pos rfl]) _ _ _

/-- The output of a combining load: each position's combined value, rounded (R211, R335). -/
theorem look_loadOut_comb (r : SeamRec) (load n i : Nat) (vals : SMap SVal) (hc : isComb (descOfRec r).op = true) (hi : i < n) :
    look [] (outStore (loadOut r load n vals).1) i = (roundVal r (loadFirst r load + i) (look {} vals i)).1 := by
  have hout : (loadOut r load n vals).1 = (((List.range n).map fun i => look {} vals i).zipIdx.map
      fun (v, i) => roundVal r (loadFirst r load + i) v).map (·.1) := by
    unfold loadOut
    rw [if_pos hc]
  rw [hout, look_outStore _ i (by simpa using hi)]
  simp

/-! ### SEAM_PART at a home engine (R334, R335) -/

/-- Partials joined to those of a load of the engine. -/
def joinLoad (r : SeamRec) (p : Packet) (l : LoadSt) : LoadSt :=
  { l with vals := joinVals (combOf (descOfRec r)) l.vals (extFirst p) (inherit p (partVals r p)) }

/-- The record once they are joined. -/
def joinRec (r : SeamRec) (p : Packet) (l : LoadSt) : SeamRec := { r with loads := ins r.loads (extLoad p) (joinLoad r p l) }

/-- The engine's state once they are joined and an invalid one has raised its fault. -/
def joinState (k : Nat) (r : SeamRec) (p : Packet) (s : State) : State :=
  engBad k r (partVals r p) (modLoad k (extLoad p) (joinLoad r p) s)

theorem joinState_only (k : Nat) (r : SeamRec) (p : Packet) (s : State) : ChangesOnly [.rg, .se, .ft] s (joinState k r p s) :=
  changesOnly_of_clr _ _ _ ((engBad_clr _ rfl rfl _ _ _ _).trans (modLoad_clr _ rfl _ _ _ _))

theorem joinState_eff (k : Nat) (r : SeamRec) (p : Packet) (s : State) : (joinState k r p s).rg.eff = s.rg.eff :=
  (engBad_eff k r _ _).trans (congrArg Regs.eff (modLoad_only_se k _ _ s .rg (by decide)))

theorem OpenLoad.homeArrive {s : State} {k : Nat} {r : SeamRec} {l : LoadSt} {p : Packet} (ho : OpenLoad s k (extLoad p) r l)
    (fd ft : Nat) (hclean : poisonStatus p = 0) (hop : p.opcode = 0x25) :
    homeArrive k fd ft p s = advanceLoad k (extLoad p) (joinState k r p s) := by
  obtain ⟨hr, hl, hx, hroot, -, -⟩ := ho
  unfold Machine.homeArrive
  simp [hr, hl, poisonFail_clean k p s hclean, hx, hroot, hop]
  rfl

theorem OpenLoad.join {s : State} {k : Nat} {r : SeamRec} {l : LoadSt} {p : Packet} (ho : OpenLoad s k (extLoad p) r l) :
    OpenLoad (joinState k r p s) k (extLoad p) (joinRec r p l) (joinLoad r p l) where
  named := by
    unfold joinState
    rw [recOf_of_se (engBad_only k r _ _ .se (by decide)), recOf_modLoad _ ho.named ho.listed]
    rfl
  listed := by rw [joinRec, lookQ_ins, if_pos rfl]
  here := (gXpkg_of_eff (joinState_eff k r p s) _).trans ho.here
  byEngine := (rootDelivers_of_eff (joinState_eff k r p s) _).trans ho.byEngine
  notFinal := ho.notFinal
  notSent := ho.notSent

theorem whole_joinState (s : State) (k : Nat) (r : SeamRec) (p : Packet) (l : LoadSt) :
    Whole (joinState k r p s) (joinRec r p l) (extLoad p) (joinLoad r p l) ↔ Whole s r (extLoad p) (joinLoad r p l) := by
  simp only [Whole, expectAt_of_eff (joinState_eff k r p s)]
  rfl

section
variable {s : State} {k : Nat} {r : SeamRec} {l : LoadSt} {p : Packet} (ho : OpenLoad s k (extLoad p) r l)
include ho

/-- An invalid partial raises XA_FORM at the engine (R209). -/
theorem OpenLoad.join_shows (hb : anyBad (partVals r p) = true) :
    Shows (advanceLoad k (extLoad p) (joinState k r p s)) (keyDie k) (keyPage k) 0 :=
  shows_of_pages ho.join.pages _ _ _ (engBad_shows k r _ _ hb)

/-- Until the load is whole the partials are joined, and nothing is sent or rounded. -/
theorem OpenLoad.join_waits (hw : ¬ Whole s r (extLoad p) (joinLoad r p l)) :
    recOf (advanceLoad k (extLoad p) (joinState k r p s)) k = some (joinRec r p l) ∧
      (advanceLoad k (extLoad p) (joinState k r p s)).nt.inject = s.nt.inject ∧
      (advanceLoad k (extLoad p) (joinState k r p s)).out = s.out := by
  rw [ho.join.waits (mt (whole_joinState s k r p l).mp hw)]
  exact ⟨ho.join.named, congrArg Net.inject (joinState_only k r p s .nt (by decide)), joinState_only k r p s .out (by decide)⟩

/-- Once it is whole every output element of a combining seam is its position's combined value, rounded once. -/
theorem OpenLoad.join_rounds (hw : Whole s r (extLoad p) (joinLoad r p l)) (hc : isComb (descOfRec r).op = true) :
    ∃ r' l', recOf (advanceLoad k (extLoad p) (joinState k r p s)) k = some r' ∧ look? r'.loads (extLoad p) = some l' ∧
      l'.sent = true ∧ l'.final = true ∧ ∀ i, i < loadCount r (extLoad p) →
        look [] l'.out i = (roundVal r (loadFirst r (extLoad p) + i) (look {} (joinLoad r p l).vals i)).1 := by
  obtain ⟨r', l', hr', hl', hsent, hfinal, hout⟩ := ho.join.settled ((whole_joinState s k r p l).mpr hw)
  refine ⟨r', l', hr', hl', hsent, hfinal, fun i hi => ?_⟩
  rw [hout]
  exact look_loadOut_comb (joinRec r p l) (extLoad p) _ i _ hc hi

end

/-! ### The statement -/

/-- SEAM_PART and SEAM_DATA act alike up to what the packet is. -/
theorem exec_values (c : Instr) (s : State) (die n ft : Nat) (q : SeamRef) (p : Packet)
    (hc : c ∈ [Instr.seamPart die n q ft p, .seamData die n q p.srcDie ft p]) :
    exec c s = .next (seamValues die n q p.srcDie ft p s) := by
  simp only [List.mem_cons, List.not_mem_nil, or_false] at hc
  rcases hc with rfl | rfl
  · rfl
  · rfl

/-- Settles O50: the packet leaves the network, and what follows is read off the way it goes: by the tile's load, by the writes of the
tile's own share, by the engine's load before and after it is whole, by the packets a stage engine keeps. -/
theorem seamValuesCombineAndAreDelivered : Obligations.SeamValuesCombineAndAreDelivered := by
  refine ⟨fun s die n ft q p h9 => ⟨?gone, ?part, ?data⟩, fun s die n ft q p h9 hio => ⟨?noRecord, ?home⟩, ?early⟩
  case gone =>
    intro hrec c hc
    refine ⟨consume die n p s, ?_, consume_frame die n p s, rfl⟩
    rw [exec_values c s die n ft q p hc, seamValues_gone die n p.srcDie ft q p s h9 hrec]
  case part =>
    intro r hrec hop
    have hr : recOf (consume die n p s) (keyOf q) = some r := recOf_of_recAt hrec
    refine ⟨tilePart (keyOf q) q die n p (consume die n p s), ?_, ?_, ?_, fun hb => ?_, fun l hl => ?_⟩
    · exact congrArg Host.Outcome.next (seamValues_tilePart die n p.srcDie ft q p s r h9 hrec hop)
    · exact changesOnly_of_clr _ _ _ ((tilePart_clr _ rfl rfl rfl _ _ _ _ _ _).trans (consume_clr _ rfl _ _ _ _))
    · exact (congrArg Net.inject (tilePart_only (keyOf q) die n q p (consume die n p s) .nt (by decide))).trans
        (consume_inject die n p s)
    · exact tilePart_shows (keyOf q) die n q p _ r hr hb
    · have hl' : tloadOf (consume die n p s) die n q (extLoad p) = some l := hl
      exact ⟨joinTile r p l, by rw [tloadOf_tilePart _ _ _ _ _ _ r hr, hl']; rfl, rfl, rfl⟩
  case data =>
    intro r hrec hop habove
    have hr : recOf (consume die n p s) (keyOf q) = some r := recOf_of_recAt hrec
    refine ⟨tileData (keyOf q) q die n p.srcDie ft p (consume die n p s), ?_, fun o ho hdie htile hserve hlt y hy => ?_⟩
    · exact congrArg Host.Outcome.next (seamValues_tileData die n p.srcDie ft q p s r h9 hrec hop)
    · rw [tileData_out hr q die n p.srcDie ft p habove]
      exact mem_writeShare_out (consume_rg die n p s) (consume_ft die n p s) hr ⟨ho, hdie, htile, hserve⟩ _ _ (dataElems r p)
        (by simpa [shareSpan, dataElems] using hlt) y hy
  case noRecord =>
    intro hrec
    have hgone : homeArrive (keyOf q) p.srcDie ft p (consume die n p s) = consume die n p s := by
      unfold homeArrive
      rw [recOf_consume, hrec]
    refine ⟨consume die n p s, ?_, consume_frame die n p s, rfl⟩
    exact congrArg Host.Outcome.next ((seamValues_home die n p.srcDie ft q p s h9 hio).trans hgone)
  case home =>
    intro r l hr hl hclean hop hx hroot hfinal hsent
    have ho : OpenLoad (consume die n p s) (keyOf q) (extLoad p) r l := ⟨hr, hl, hx, hroot, hfinal, hsent⟩
    have hhome := ho.homeArrive p.srcDie ft hclean hop
    refine ⟨homeArrive (keyOf q) p.srcDie ft p (consume die n p s), ?_, ?_, fun hb => ?_, fun hw => ?_, fun hw hc => ?_⟩
    · exact congrArg Host.Outcome.next (seamValues_home die n p.srcDie ft q p s h9 hio)
    · exact changesOnly_of_clr _ _ _ ((homeArrive_clr _ rfl rfl rfl rfl rfl rfl _ _ _ _ _).trans (consume_clr _ rfl _ _ _ _))
    · rw [hhome]
      exact ho.join_shows hb
    · rw [hhome]
      obtain ⟨hrec, hinject, hout⟩ := ho.join_waits hw
      exact ⟨hrec, hinject.trans (consume_inject die n p s), hout.trans (consume_out die n p s)⟩
    · rw [hhome]
      exact ho.join_rounds hw hc
  case early =>
    intro s die n ft q p h9 hio hnone c hc
    refine ⟨keepEarly die (stageEng n) p (consume die n p s), ?_, ?_, ?_⟩
    · rw [exec_values c s die n ft q p hc, seamValues_early die n p.srcDie ft q p s h9 hio hnone]
    · exact changesOnly_of_clr _ _ _ ((upd_se _ rfl _ _).trans (consume_clr _ rfl _ _ _ _))
    · simp [keepEarly]

end Sys2Proof.Machine
end

section
/-! SUPPORT. The registers of the pages: refused accesses (O14), shadow values (O15, O16), commit requests (O17, O18), reads with their
latches (O20), the target boundary of a Press unit (O10). -/
namespace Sys2Proof.Machine

/-! ### The target boundary (R93) -/

/-- Judging the held commits of a die changes page headers alone. -/
theorem judge_tm (die : Nat) (s : State) : (judge die s).tm = s.tm :=
  same_of_clr [.rg] _ _ (judge_clr _ rfl _ _) .tm (by decide)

theorem unitOf_of_tm {s t : State} (h : t.tm = s.tm) (die : Nat) : unitOf t die = unitOf s die := by
  unfold unitOf; rw [h]

/-- The units read the same while the clock moves. -/
theorem unitOf_advanceTo (c : Nat) (s : State) (die : Nat) : unitOf (advanceTo c s) die = unitOf s die := by
  unfold unitOf; rw [advanceTo_tm]

/-- The unit of a die at the target boundary of its command (R93). -/
def atTarget (c : EpochCmd) (u : PressUnit) : PressUnit :=
  if c.follow then { u with st := .armed, period := c.period, start := c.target, followed := false, cmd := none }
  else { u with st := .run, press := c.start, period := c.period, start := c.target, followed := false, cmd := none }

/-- At the target boundary the clock is there and the one unit has taken the command. -/
theorem epochTarget_tm (die : Nat) (s : State) (c : EpochCmd) (h : (unitOf s die).cmd = some c) :
    (epochTarget die s).tm = (modUnit die (atTarget c) (advanceTo c.target s)).tm := by
  unfold epochTarget
  rw [h]
  dsimp only
  cases hf : c.follow with
  | true =>
    have hat : atTarget c = fun u =>
        { u with st := .armed, period := c.period, start := c.target, followed := false, cmd := none } := by
      funext u; simp [atTarget, hf]
    rw [hat]
    rfl
  | false =>
    have hat : atTarget c = fun u =>
        { u with st := .run, press := c.start, period := c.period, start := c.target, followed := false, cmd := none } := by
      funext u; simp [atTarget, hf]
    rw [hat]
    exact judge_tm die _

/-- Settles O10: the clock reaches the boundary, the unit takes the command's fields, and its held commits are judged. -/
theorem targetBoundarySetsThePressUnit : Obligations.TargetBoundarySetsThePressUnit := by
  intro s die c hc
  have htm := epochTarget_tm die s c hc
  have hu : ∀ d, unitOf (epochTarget die s) d = if d = die then atTarget c (unitOf s die) else unitOf s d := fun d => by
    rw [unitOf_of_tm htm, unitOf_modUnit]
    simp only [unitOf_advanceTo]
  refine ⟨epochTarget die s, rfl, ?_, ?_, ?_, ?_, ?_, fun hf => ?_, fun d hd => ?_, ?_⟩
  · rw [htm]
    exact congrArg TimeBase.fclk (advanceTo_tm c.target s)
  · rw [hu, if_pos rfl]; unfold atTarget; split <;> rfl
  · rw [hu, if_pos rfl]; unfold atTarget; split <;> rfl
  · rw [hu, if_pos rfl]; unfold atTarget; split <;> rfl
  · rw [hu, if_pos rfl]; unfold atTarget; split <;> rfl
  · rw [hu, if_pos rfl]; simp [atTarget, hf]
  · rw [hu, if_neg hd]
  · exact changesOnly_of_clr _ _ _ (epochTarget_clr _ rfl rfl rfl rfl rfl _ _)

/-! ### Refused accesses (R43) -/

/-- Settles O14: an access whose status is not REG_OK is answered with it, and the checks of the status come in the order of log 60. -/
theorem refusedAccessHasNoEffect : Obligations.RefusedAccessHasNoEffect := by
  intro s a hm
  refine ⟨fun hs => ?_, fun hs => congrArg Host.Outcome.next (doRead_refused a s hm hs), fun w => ⟨fun hp => ?_, fun hp ha => ?_,
    fun hp h4 hoff hi => ?_⟩⟩
  · exact ⟨congrArg Host.Outcome.next (doWrite_refused a s hm hs), congrArg Host.Outcome.next (doWrite_refused a s hm hs)⟩
  · simp [accessStatus, hp]
  · simp [accessStatus, hp, ha]
  · simp [accessStatus, hp, h4, hoff, hi]

/-! ### Writes of shadowed registers (R46, R48) -/

/-- A row found at an offset of a page is the row of its kind. -/
theorem findRow_of_rowAt {die : Nat} {i : PageInfo} {off : Nat} {row : RegRow} (h : rowAt die i off = some row) :
    findRow i.kind off = some row := by
  unfold rowAt at h
  split at h
  · cases h
  · exact h

/-- The header registers whose write has an effect of its own: PAGE_STATUS, FAULT_STATUS, SHADOW_COMMIT. -/
def headerOwn : List Nat := [0x14, 0x18, 0x40]

/-- The registers from 0x100 up whose write has an effect of its own, on the pages that hold shadowed registers too. -/
def pageOwn : PageKind → List Nat
  | .prs | .tile0 => [0x130]
  | .flt => [0x120, 0x180]
  | .drn => [0x194, 0x1A8]
  | .seam0 => [0x114]
  | .tly0 => [0x158]
  | _ => []

/-- The pages that hold no shadowed register but ARB_MODE, and have writes of their own. -/
def commandPages : List PageKind :=
  [.dbr, .lnk0, .opt, .hst, .fmc0, .fmc1, .fmc2, .fmc3, .fmc4, .keep0, .keep1, .keep2, .keep3]

theorem headerOwn_not_rws (k : PageKind) : ∀ o ∈ headerOwn, ∀ r, findRow k o = some r → r.acc ≠ .rws := by
  cases k <;> decide

theorem pageOwn_not_rws (k : PageKind) : ∀ o ∈ pageOwn k, ∀ r, findRow k o = some r → r.acc ≠ .rws := by
  cases k <;> decide

theorem commandPages_no_rws : ∀ k ∈ commandPages, ∀ r ∈ rowsOf k, r.acc ≠ .rws := by decide

/-- A write of a shadowed register that the page serves does what writeRws says. -/
theorem writeEffect_rws (die page : Nat) (i : PageInfo) (row : RegRow) (m : Master) (v : Word) (s : State)
    (hr : findRow i.kind row.off = some row) (ha : row.acc = .rws) (hn : notHere s die i row.off = false)
    (hf : ¬ (i.kind = .prs ∧ row.off = 0x114 ∧ die ≠ 0)) : writeEffect die page i row m v s = writeRws die page i row m v s := by
  have hplain : plainWrite die page i row m v s = writeRws die page i row m v s := by
    unfold plainWrite
    rw [ha]
  rw [← hplain]
  unfold writeEffect
  split
  · have hhead : row.off ∉ headerOwn := fun ho => headerOwn_not_rws i.kind _ ho row hr ha
    unfold headerWrite
    split
    case h_4 => rfl
    all_goals simp_all [headerOwn]
  · next hoff =>
    have hown : row.off ∉ pageOwn i.kind := fun ho => pageOwn_not_rws i.kind _ ho row hr ha
    have hcmd : i.kind ∉ commandPages := fun hk => by
      unfold findRow at hr
      rw [if_neg hoff] at hr
      exact commandPages_no_rws _ hk row (List.mem_of_find?_eq_some hr) ha
    split <;> simp_all [pageOwn, commandPages, groupWrite]

/-! Noting an out-of-range field marks the page header alone. -/

theorem noteBad_eff (die page : Nat) (i : PageInfo) (row : RegRow) (m : Master) (v : Word) (s : State) :
    (noteBad die page i row m v s).rg.eff = s.rg.eff := by
  unfold noteBad
  split <;> rfl

theorem noteBad_shadow (die page : Nat) (i : PageInfo) (row : RegRow) (m : Master) (v : Word) (s : State) :
    (noteBad die page i row m v s).rg.shadow = s.rg.shadow := by
  unfold noteBad
  split <;> rfl

/-- What a write of a shadowed register reads, it reads from the registers in effect and the shadow alone. -/
theorem freezeCtl_of_eff {s t : State} (h : t.rg.eff = s.rg.eff) (die page : Nat) : freezeCtl t die page = freezeCtl s die page := by
  unfold freezeCtl; rw [reg_of_eff h]

theorem frozen_of_eff {s t : State} (h : t.rg.eff = s.rg.eff) (die page a : Nat) : frozen t die page a = frozen s die page a := by
  unfold frozen; rw [reg_of_eff h]

theorem selOf_of_eff {s t : State} (h : t.rg.eff = s.rg.eff) (die page : Nat) (row : RegRow) : selOf t die page row = selOf s die page row := by
  unfold selOf
  split
  · rw [rfld_of_eff h]
  · rfl

theorem rwsEff_of_eff {s t : State} (h : t.rg.eff = s.rg.eff) (die page : Nat) (row : RegRow) : rwsEff t die page row = rwsEff s die page row := by
  unfold rwsEff
  rw [reg_of_eff h, selOf_of_eff h]

theorem rwsShadow_of_regs {s t : State} (h : t.rg.eff = s.rg.eff) (hs : t.rg.shadow = s.rg.shadow) (die page : Nat) (row : RegRow) :
    rwsShadow t die page row = rwsShadow s die page row := by
  unfold rwsShadow
  rw [hs, selOf_of_eff h, rwsEff_of_eff h]

/-- The shadow value after a write of the shadow. -/
theorem shadowReg_setShadow (die page off sel : Nat) (v : Word) (s : State) :
    shadowReg (setShadow die page off sel v s) die page off sel = v := by
  simp [shadowReg, setShadow, lookQ_ins]

/-- A shadowed register outside mechanism 1 takes the write in its shadow value. -/
theorem writeRws_shadows (die page : Nat) (i : PageInfo) (row : RegRow) (m : Master) (v : Word) (s : State)
    (h : (row.prio && freezeCtl s die page) = false) :
    writeRws die page i row m v s = setShadow die page row.off (selOf s die page row)
      (merged i row m (rwsShadow s die page row) (unreserved i row (selOf s die page row) v)) (noteBad die page i row m v s) := by
  unfold writeRws
  simp only [freezeCtl_of_eff (noteBad_eff die page i row m v s), h,
    rwsShadow_of_regs (noteBad_eff die page i row m v s) (noteBad_shadow die page i row m v s)]
  rfl

/-- Settles O15: the write goes to writeRws, which writes the shadow value. -/
theorem shadowedWriteKeepsValueInEffect : Obligations.ShadowedWriteKeepsValueInEffect := by
  intro s m die page off v i row hw ha hlo hhigh hn hf hfreeze a sel
  have htaken := writeOf_taken s m die page off v i row hw
  obtain ⟨-, -, -, hrow, rfl⟩ := hw
  have hr := findRow_of_rowAt hrow
  rw [writeRow_single die page i row m v s hhigh hlo, writeEffect_rws die page i row m v s hr ha hn hf] at htaken
  have hframe : ChangesOnly [.rg] s (writeRws die page i row m v s) := changesOnly_of_clr _ _ _ (writeRws_clr _ rfl _ _ _ _ _ _ _)
  refine ⟨emit (.regDone m 0 0) (writeRws die page i row m v s), congrArg Host.Outcome.next htaken,
    congrArg Host.Outcome.next htaken, ?_, ?_, ?_, ?_⟩
  · exact congrArg (· ++ [Output.regDone m 0 0]) (hframe .out (by decide))
  · rw [emit_rg, writeRws_shadows die page i row m v s hfreeze]
    exact noteBad_eff die page i row m v s
  · rw [writeRws_shadows die page i row m v s hfreeze]
    exact shadowReg_setShadow die page row.off sel _ _
  · exact changesOnly_of_clr _ _ _ ((emit_clr _ rfl _ _).trans (writeRws_clr _ rfl _ _ _ _ _ _ _))

/-! ### Priority registers under FREEZE_CTL = 1 (R56, R170) -/

/-- After a write of both values the register is in effect and nothing of it is uncommitted. -/
theorem reg_setBoth (die page off sel : Nat) (v : Word) (s : State) : reg (setBoth die page off sel v s) die page off sel = v :=
  reg_setReg_same die page off sel v s

theorem shadowReg_setBoth (die page off sel : Nat) (v : Word) (s : State) :
    shadowReg (setBoth die page off sel v s) die page off sel = v := by
  have hnone : look? (setBoth die page off sel v s).rg.shadow (rk die page off sel) = none := by simp [setBoth, lookQ_drop]
  unfold shadowReg
  rw [hnone]
  exact reg_setBoth die page off sel v s

/-- Under FREEZE_CTL = 1 a priority register takes the write in both values, if its arbiters are frozen. -/
theorem writeRws_freeze (die page : Nat) (i : PageInfo) (row : RegRow) (m : Master) (v : Word) (s : State)
    (h : (row.prio && freezeCtl s die page) = true) :
    writeRws die page i row m v s =
      if ∀ x ∈ prioArbs i.kind row.off, frozen s die page x = true then
        setBoth die page row.off (selOf s die page row)
          (merged i row m (rwsEff s die page row) (unreserved i row (selOf s die page row) v)) (noteBad die page i row m v s)
      else badWrite die page (noteBad die page i row m v s) := by
  unfold writeRws
  simp only [freezeCtl_of_eff (noteBad_eff die page i row m v s), h, frozen_of_eff (noteBad_eff die page i row m v s),
    rwsEff_of_eff (noteBad_eff die page i row m v s), List.all_eq_true, if_true]

/-- Settles O16: the write goes to writeRws, which tells frozen arbiters from others. -/
theorem priorityWriteUnderFreezeControl : Obligations.PriorityWriteUnderFreezeControl := by
  intro s m die page off v i row hw ha hlo hhigh hk hfreeze a sel
  have htaken := writeOf_taken s m die page off v i row hw
  obtain ⟨-, -, -, hrow, rfl⟩ := hw
  have hr := findRow_of_rowAt hrow
  have hn : notHere s die i row.off = false := by
    unfold notHere
    split <;> simp_all
  have hf : ¬ (i.kind = .prs ∧ row.off = 0x114 ∧ die ≠ 0) := by
    rintro ⟨hp, -⟩
    simp [hp] at hk
  rw [writeRow_single die page i row m v s hhigh hlo, writeEffect_rws die page i row m v s hr ha hn hf] at htaken
  refine ⟨emit (.regDone m 0 0) (writeRws die page i row m v s), congrArg Host.Outcome.next htaken, ?_, fun hall => ?_, fun hall => ?_⟩
  · exact changesOnly_of_clr _ _ _ ((emit_clr _ rfl _ _).trans (writeRws_clr _ rfl _ _ _ _ _ _ _))
  · rw [writeRws_freeze die page i row m v s hfreeze, if_pos hall]
    exact ⟨reg_setBoth .., shadowReg_setBoth ..⟩
  · rw [writeRws_freeze die page i row m v s hfreeze, if_neg hall]
    refine ⟨?_, noteBad_eff .., noteBad_shadow ..⟩
    show (pageOf (badWrite die page _) die page).bad = true
    rw [badWrite, pageOf_modPage, if_pos rfl]

/-! ### Commit requests (R49 to R53) -/

/-- The row of SHADOW_COMMIT, the same on every page. -/
def shadowCommitRow : RegRow := { off := 0x40, acc := .wo, w := 0xF }

theorem rowAt_shadowCommit (die : Nat) (i : PageInfo) : rowAt die i 0x40 = some shadowCommitRow := by
  have h : findRow i.kind 0x40 = some shadowCommitRow := rfl
  simp [rowAt, h]

/-- A write of SHADOW_COMMIT that is taken, whatever its value. -/
theorem writeOf_shadowCommit (s : State) (m : Master) (die page : Nat) (v v' : Word) (i : PageInfo) (row : RegRow)
    (h : Writes s m die page 0x40 v i row) : writeOf m die page 0x40 v' s = emit (.regDone m 0 0) (shadowCommit die page v' s) := by
  obtain ⟨hon, hst, hi, hrow, hoff⟩ := h
  have hw : Writes s m die page 0x40 v' i row := ⟨hon, hst, hi, hrow, hoff⟩
  rw [rowAt_shadowCommit] at hrow
  cases hrow
  rw [writeOf_taken s m die page 0x40 v' i _ hw, writeRow_single _ _ _ _ _ _ _ rfl rfl]
  rfl

/-- A write with COMMIT alone and a legal WHEN is a request; one with CANCEL and a legal WHEN cancels. -/
theorem shadowCommit_request (die page : Nat) (v : Word) (s : State) (h0 : v.toNat.testBit 0 = true) (h3 : v.toNat.testBit 3 = false)
    (hw : wbits v 2 1 ≠ 3) : shadowCommit die page v s = commitRequest die page (wbits v 2 1) s := by
  simp [shadowCommit, h0, h3, hw]

theorem shadowCommit_cancel (die page : Nat) (v : Word) (s : State) (h3 : v.toNat.testBit 3 = true) (hw : wbits v 2 1 ≠ 3) :
    shadowCommit die page v s = modPage die page (fun p => { p with commit := .none }) s := by
  simp [shadowCommit, h3, hw]

/-- A request while one is pending is ignored and marked. -/
theorem commitRequest_pending (die page w : Nat) (s : State) (h : (pageOf s die page).commit ≠ .none) :
    commitRequest die page w s = modPage die page (fun p => { p with overrun := true }) s := by
  simp [commitRequest, h]

theorem kindOf_eq {die page : Nat} {i : PageInfo} (h : pageInfo die page = some i) : kindOf die page = i.kind := by
  simp [kindOf, h]

/-- A request with none pending, by WHEN. -/
theorem commitRequest_immediate (die page : Nat) (s : State) (h : (pageOf s die page).commit = .none) :
    commitRequest die page 0 s =
      modPage die page (fun p => { p with commit := if pressOnly (kindOf die page) then .nextBoundary else .immediate }) s := by
  cases hp : pressOnly (kindOf die page) <;> simp [commitRequest, h, hp]

theorem commitRequest_nextBoundary (die page : Nat) (s : State) (h : (pageOf s die page).commit = .none) :
    commitRequest die page 1 s = modPage die page (fun p => { p with commit := .nextBoundary }) s := by
  simp [commitRequest, h]

theorem commitRequest_scheduled (die page : Nat) (s : State) (h : (pageOf s die page).commit = .none) :
    commitRequest die page 2 s = modPage die page (fun p =>
      if running s die = false then { p with commit := .heldScheduled (commitPress s die page) }
      else if commitPress s die page ≤ pressOf s die then { p with late := true }
      else { p with commit := .scheduled (commitPress s die page) }) s := by
  cases hr : running s die with
  | false => simp [commitRequest, h, hr]
  | true => by_cases hl : commitPress s die page ≤ pressOf s die <;> simp [commitRequest, h, hr, hl]

/-- Settles O17: each of the three values of SHADOW_COMMIT is a request, which is pending by its WHEN. -/
theorem commitRequestsArePending : Obligations.CommitRequestsArePending := by
  intro s m die page v i row hw hnone
  have hi : kindOf die page = i.kind := kindOf_eq hw.2.2.1
  have hwrite := fun v' => writeOf_shadowCommit s m die page v v' i row hw
  refine ⟨⟨_, congrArg Host.Outcome.next (hwrite 1), ?_⟩, ⟨_, congrArg Host.Outcome.next (hwrite 3), ?_⟩,
    ⟨_, congrArg Host.Outcome.next (hwrite 5), ?_⟩⟩
  · rw [shadowCommit_request _ _ _ _ (by decide) (by decide) (by decide), show wbits 1 2 1 = 0 by decide,
      commitRequest_immediate die page s hnone, hi]
  · rw [shadowCommit_request _ _ _ _ (by decide) (by decide) (by decide), show wbits 3 2 1 = 1 by decide,
      commitRequest_nextBoundary die page s hnone]
  · rw [shadowCommit_request _ _ _ _ (by decide) (by decide) (by decide), show wbits 5 2 1 = 2 by decide,
      commitRequest_scheduled die page s hnone]
    rfl

/-- Settles O18: a pending request turns a further one away; CANCEL goes before COMMIT. -/
theorem pendingCommitOverrunsOrIsCancelled : Obligations.PendingCommitOverrunsOrIsCancelled := by
  intro s m die page v i row hw ignored cancelled w
  have hwrite := fun v' => writeOf_shadowCommit s m die page v v' i row hw
  have hrequest : ∀ v' : Word, (pageOf s die page).commit ≠ .none → v'.toNat.testBit 0 = true → v'.toNat.testBit 3 = false →
      wbits v' 2 1 ≠ 3 → writeOf m die page 0x40 v' s = ignored := fun v' hpend h0 h3 hlegal => by
    rw [hwrite, shadowCommit_request die page v' s h0 h3 hlegal, commitRequest_pending die page _ s hpend]
  have hcancel : ∀ v' : Word, v'.toNat.testBit 3 = true → wbits v' 2 1 ≠ 3 → writeOf m die page 0x40 v' s = cancelled :=
    fun v' h3 hlegal => by rw [hwrite, shadowCommit_cancel die page v' s h3 hlegal]
  refine ⟨fun hpend => ⟨?_, ?_, ?_, fun h0 h3 hlegal => ?_⟩, ?_, fun h3 hlegal => ?_⟩
  · exact congrArg Host.Outcome.next (hrequest 1 hpend (by decide) (by decide) (by decide))
  · exact congrArg Host.Outcome.next (hrequest 3 hpend (by decide) (by decide) (by decide))
  · exact congrArg Host.Outcome.next (hrequest 5 hpend (by decide) (by decide) (by decide))
  · exact congrArg Host.Outcome.next (hrequest v hpend h0 h3 hlegal)
  · exact congrArg Host.Outcome.next (hcancel 8 (by decide) (by decide))
  · exact congrArg Host.Outcome.next (hcancel v h3 hlegal)

/-! ### Reads and latches (R37, R48) -/

/-- A read of a latched register answers the latched value and uses it up. -/
theorem regRead_latched (a : RegAcc) (s : State) (i : PageInfo) (row : RegRow) (v : Word) (hst : accessStatus s a false = 0)
    (hi : pageInfo a.die a.page = some i) (hrow : rowAt a.die i a.off = some row)
    (hv : look? s.rg.latch (latchKey a.master a.die a.page a.off) = some v) :
    regRead a s = (0, v, { s with rg := { s.rg with latch := drop s.rg.latch (latchKey a.master a.die a.page a.off) } }) := by
  simp [regRead, hst, hi, hrow, hv]

/-- What a read does after its value and its latches: a free value is used, AREA_ADDR moves on. -/
def afterRead (a : RegAcc) (i : PageInfo) (s : State) : State :=
  let s := if usesFree s i.kind a.off then freshen s else s
  if i.kind = .keep3 ∧ a.off = 0x104 then areaNext s else s

/-- A read of a register that is not latched answers its value now, and latches what belongs to it. -/
theorem regRead_now (a : RegAcc) (s : State) (i : PageInfo) (row : RegRow) (hst : accessStatus s a false = 0)
    (hi : pageInfo a.die a.page = some i) (hrow : rowAt a.die i a.off = some row)
    (hv : look? s.rg.latch (latchKey a.master a.die a.page a.off) = none) :
    regRead a s = (0, readNow s a.die a.page i row, afterRead a i (latchRest a.master a.die a.page i row s)) := by
  simp [regRead, hst, hi, hrow, hv, afterRead]

theorem afterRead_latch (a : RegAcc) (i : PageInfo) (s : State) : (afterRead a i s).rg.latch = s.rg.latch := by
  unfold afterRead
  split <;> (dsimp only; split <;> rfl)

/-- The read of a low half latches the high one. -/
theorem latchRest_low (m : Master) (die page : Nat) (i : PageInfo) (row hi : RegRow) (s : State) (hlo : row.lo = true)
    (hk : i.kind ≠ .tly0) (hrow : rowAt die i (row.off + 4) = some hi) :
    latchRest m die page i row s = setLatch (latchKey m die page (row.off + 4)) (readNow s die page i hi) s := by
  simp [latchRest, hlo, hk, hrow]

/-- A read that is answered by REG_OK. -/
theorem doRead_ok (a : RegAcc) (s t : State) (v : Word) (hon : masterOn s a.master = true) (h : regRead a s = (0, v, t)) :
    doRead a s = emit (.regDone a.master 0 v) t := by
  simp [doRead, hon, h]

/-- Settles O20: the read goes by what its master has latched. -/
theorem readsAnswerAndLatch : Obligations.ReadsAnswerAndLatch := by
  intro s a i row hon hst hi hrow hoff k
  refine ⟨doRead a s, rfl, changesOnly_of_clr _ _ _ (doRead_clr _ rfl rfl rfl _ _), fun v hv => ?_, fun hv => ?_⟩
  · rw [doRead_ok a s _ v hon (regRead_latched a s i row v hst hi hrow hv)]
    refine ⟨rfl, ?_, rfl⟩
    show look? (drop s.rg.latch _) _ = none
    rw [lookQ_drop, if_pos rfl]
  · rw [doRead_ok a s _ _ hon (regRead_now a s i row hst hi hrow hv)]
    have hout : (afterRead a i (latchRest a.master a.die a.page i row s)).out = s.out := by
      have hread := regRead_now a s i row hst hi hrow hv
      have := same_of_clr [.rg, .fresh] _ _ (regRead_clr _ rfl rfl a s) .out (by decide)
      rw [hread] at this
      exact this
    refine ⟨by rw [emit_out, hout], fun hlo hk hi' hrow' => ?_⟩
    rw [emit_rg, afterRead_latch, latchRest_low a.master a.die a.page i row hi' s hlo hk (by rw [hoff]; exact hrow')]
    simp [setLatch, lookQ_ins, hoff]

end Sys2Proof.Machine
end

section
/-! SUPPORT. What a commit puts into effect, and what the page's unit does with it (O19). -/
namespace Sys2Proof.Machine

/-! ### The registers without their counters -/

/-- The registers without the statistics counters: what no unit changes by counting. -/
def plainRegs (s : State) : Regs := { s.rg with counts := [] }

/-- Every part of State but the register pages. -/
def allButRegs : List Part :=
  [.tm, .nt, .pl, .mp, .dr, .se, .ci, .bk, .pg, .ty, .pr, .lk, .hs, .op, .ft, .kp, .rs, .fw, .sv, .ram, .jt, .out, .fresh, .pending]

/-- What leaves the register pages alone. -/
theorem plainRegs_of_clr {s t : State} (h : t.clr (Mask.of allButRegs) = s.clr (Mask.of allButRegs)) : plainRegs t = plainRegs s := by
  unfold plainRegs
  rw [same_of_clr allButRegs s t h .rg (by decide)]

theorem plainRegs_forEach {α : Type} (xs : List α) (f : α → State → State) (s : State)
    (h : ∀ x s, plainRegs (f x s) = plainRegs s) : plainRegs (forEach xs f s) = plainRegs s := forEach_same plainRegs xs f s h

/-! What goes on at a CIP's tile counts, and changes no register otherwise (R361, R364). -/

theorem waitOn_plainRegs (die n st ctx : Nat) (w : Wait) (s : State) : plainRegs (waitOn die n st ctx w s) = plainRegs s := by
  unfold waitOn
  split
  · rfl
  · dsimp only
    split <;> rfl

theorem askCredits_plainRegs (die n i : Nat) (s : State) : plainRegs (askCredits die n i s) = plainRegs s := by
  unfold askCredits
  split
  · rfl
  · dsimp only
    refine (plainRegs_of_clr (sendFrom_clr _ rfl _ _ _ _ _)).trans ?_
    exact (plainRegs_of_clr (modCache_clr _ rfl _ _ _ _ _)).trans (plainRegs_of_clr (takeSeq_clr _ rfl _ _ _))

theorem newEntry_plainRegs (die n st ctx i : Nat) (a : DWord) (k : Nat) (pl : List Byte) (s : State) :
    plainRegs (newEntry die n st ctx i a k pl s) = plainRegs s :=
  (waitOn_plainRegs _ _ _ _ _ _).trans (askCredits_plainRegs _ _ _ _)

theorem sendMsg_plainRegs (die n st ctx i : Nat) (a : DWord) (k : Nat) (pl : List Byte) (s : State) :
    plainRegs (sendMsg die n st ctx i a k pl s) = plainRegs s := by
  have hsent : ∀ p s, plainRegs (cipCount die n 0 (sendFrom die n 10 p s)) = plainRegs s := fun p s =>
    plainRegs_of_clr (t := sendFrom die n 10 p s) (sendFrom_clr _ rfl _ _ _ _ _)
  unfold sendMsg
  dsimp only
  refine (plainRegs_of_clr (endStream_clr _ rfl rfl _ _ _ _ _ _)).trans ?_
  split
  · split
    · exact (askCredits_plainRegs _ _ _ _).trans (hsent _ _)
    · exact hsent _ _
  · exact hsent _ _

theorem trySend_plainRegs (die n st ctx : Nat) (a : DWord) (k : Nat) (pl : List Byte) (s : State) :
    plainRegs (trySend die n st ctx a k pl s) = plainRegs s := by
  unfold trySend
  split
  · split
    · exact sendMsg_plainRegs _ _ _ _ _ _ _ _ _
    · refine (waitOn_plainRegs _ _ _ _ _ _).trans ?_
      split
      · exact askCredits_plainRegs _ _ _ _
      · rfl
  · split
    · exact newEntry_plainRegs _ _ _ _ _ _ _ _ _
    · split
      · exact (newEntry_plainRegs _ _ _ _ _ _ _ _ _).trans (plainRegs_of_clr (freeCache_clr _ rfl rfl _ _ _ _))
      · exact waitOn_plainRegs _ _ _ _ _ _

theorem endStream_plainRegs (die n st code : Nat) (data : List Byte) (s : State) :
    plainRegs (endStream die n st code data s) = plainRegs s := plainRegs_of_clr (endStream_clr _ rfl rfl _ _ _ _ _ _)

theorem wakeStream_plainRegs (die n st : Nat) (s : State) : plainRegs (wakeStream die n st s) = plainRegs s := by
  unfold wakeStream
  split
  · rfl
  · split
    · split
      · exact endStream_plainRegs _ _ _ _ _ _
      · exact plainRegs_of_clr (popEntry_clr _ rfl rfl _ _ _ _ _)
    · dsimp only
      split
      · exact endStream_plainRegs _ _ _ _ _ _
      · split
        · exact endStream_plainRegs _ _ _ _ _ _
        · rfl
    · dsimp only
      split
      · exact endStream_plainRegs _ _ _ _ _ _
      · rfl
    · exact trySend_plainRegs _ _ _ _ _ _ _ _
    · exact trySend_plainRegs _ _ _ _ _ _ _ _
    · split
      · exact (endStream_plainRegs _ _ _ _ _ _).trans (plainRegs_of_clr (leaveQueues_clr _ rfl _ _ _ _))
      · rfl
    all_goals rfl

theorem makeVisible_plainRegs (die n q : Nat) (e : QEntry) (s : State) : plainRegs (makeVisible die n q e s) = plainRegs s :=
  plainRegs_of_clr (s := cipCount die n 1 _) (storeBy_clr _ rfl _ _ _ _)

theorem cqRecord_plainRegs (die n ctx : Nat) (r : List Byte) (s : State) : plainRegs (cqRecord die n ctx r s) = plainRegs s := by
  unfold cqRecord
  split
  · rfl
  · split
    · rfl
    · exact makeVisible_plainRegs _ _ _ _ _

theorem closeDesc_plainRegs (die n id code : Nat) (s : State) : plainRegs (closeDesc die n id code s) = plainRegs s := by
  unfold closeDesc
  split
  · rfl
  · exact cqRecord_plainRegs _ _ _ _ _

theorem startDesc_plainRegs (die n id : Nat) (s : State) : plainRegs (startDesc die n id s) = plainRegs s := by
  have hread : ∀ s, plainRegs (readNext die n id s) = plainRegs s := fun s => plainRegs_of_clr (readNext_clr _ rfl rfl rfl _ _ _ _)
  unfold startDesc
  split
  · rfl
  · split
    · rfl
    · split
      · split
        · rfl
        · exact hread s
      · exact (plainRegs_of_clr (request_clr _ rfl rfl rfl _ _ _ _)).trans (plainRegs_of_clr (modDesc_clr _ rfl _ _ _ _ _))
      · split
        · exact hread s
        · exact closeDesc_plainRegs _ _ _ _ _
      · exact hread s

theorem countDefer_plainRegs (die n ctx y : Nat) (s : State) : plainRegs (countDefer die n ctx y s) = plainRegs s :=
  plainRegs_of_clr (countDefer_clr _ rfl _ _ _ _ _)

theorem cqRelease_plainRegs (die n ctx k : Nat) (s : State) : plainRegs (cqRelease die n ctx k s) = plainRegs s :=
  plainRegs_of_clr (cqRelease_clr _ rfl _ _ _ _ _)

theorem admitDma_plainRegs (die n st ctx : Nat) (x : List Byte) (s : State) : plainRegs (admitDma die n st ctx x s) = plainRegs s := by
  unfold admitDma
  dsimp only
  refine (endStream_plainRegs _ _ _ _ _ _).trans ?_
  split
  · exact (startDesc_plainRegs _ _ _ _).trans (cqRecord_plainRegs _ _ _ _ _)
  · exact (countDefer_plainRegs _ _ _ _ _).trans (cqRecord_plainRegs _ _ _ _ _)
  · exact (cqRelease_plainRegs _ _ _ _ _).trans (cqRecord_plainRegs _ _ _ _ _)

theorem acceptRun_plainRegs (die n id d : Nat) (b : Bind) (s : State) : plainRegs (acceptRun die n id d b s) = plainRegs s := by
  unfold acceptRun
  dsimp only
  split
  · rfl
  · exact (plainRegs_of_clr (fillQueue_clr _ rfl _ _ _)).trans rfl

theorem firstRun_plainRegs (die n : Nat) (r : Run) (s : State) : plainRegs (firstRun die n r s).2 = plainRegs s := by
  unfold firstRun
  dsimp only
  split
  · exact (acceptRun_plainRegs _ _ _ _ _ _).trans (cqRecord_plainRegs _ _ _ _ _)
  · exact (countDefer_plainRegs _ _ _ _ _).trans (cqRecord_plainRegs _ _ _ _ _)
  · exact (cqRelease_plainRegs _ _ _ _ _).trans (cqRecord_plainRegs _ _ _ _ _)

theorem admitPost_plainRegs (die n st ctx : Nat) (x : List Byte) (s : State) : plainRegs (admitPost die n st ctx x s) = plainRegs s := by
  unfold admitPost
  split
  · exact plainRegs_of_clr (sendOpen_clr _ rfl rfl _ _ _ _ _ _)
  · exact (endStream_plainRegs _ _ _ _ _ _).trans (firstRun_plainRegs _ _ _ _)
  · exact admitDma_plainRegs _ _ _ _ _ _

theorem resumeLocal_plainRegs (die n st : Nat) (s : State) : plainRegs (resumeLocal die n st s) = plainRegs s := by
  unfold resumeLocal
  split
  · rfl
  · split
    · exact admitPost_plainRegs _ _ _ _ _ _
    · split
      · exact endStream_plainRegs _ _ _ _ _ _
      · exact (endStream_plainRegs _ _ _ _ _ _).trans (plainRegs_of_clr (armEntry_clr _ rfl _ _ _ _ _ _ _))
    · rfl

theorem serveQueue_plainRegs (die n q f : Nat) (s : State) : plainRegs (serveQueue die n q f s) = plainRegs s := by
  induction f generalizing s with
  | zero => rfl
  | succ f ih =>
    unfold serveQueue
    dsimp only
    split
    · rfl
    · split
      · split
        · rfl
        · exact (ih _).trans (plainRegs_of_clr (s := modQueue _ _ _ _ s) (grantCredits_clr _ rfl rfl _ _ _ _ _))
      · split
        · rfl
        · exact (ih _).trans (resumeLocal_plainRegs _ _ _ _)

theorem settleOnce_plainRegs (die n : Nat) (s : State) : plainRegs (settleOnce die n s) = plainRegs s := by
  unfold settleOnce
  dsimp only
  refine (plainRegs_forEach _ _ _ fun e s => plainRegs_of_clr (serveRing_clr _ rfl rfl rfl _ _ _ _ _)).trans ?_
  refine (plainRegs_forEach _ _ _ fun e s => serveQueue_plainRegs _ _ _ _ _).trans ?_
  exact plainRegs_forEach _ _ _ fun st s => wakeStream_plainRegs _ _ _ _

theorem settleLoop_plainRegs (die n f : Nat) (s : State) : plainRegs (settleLoop die n f s) = plainRegs s := by
  induction f generalizing s with
  | zero => rfl
  | succ f ih => exact (ih _).trans (settleOnce_plainRegs die n s)

/-- Settling a tile changes no register but counters. -/
theorem settleTile_plainRegs (die n : Nat) (s : State) : plainRegs (settleTile die n s) = plainRegs s := by
  unfold settleTile
  dsimp only
  split
  · rfl
  · exact settleLoop_plainRegs _ _ _ _

/-! ### What a commit's unit leaves of the commits -/

/-- The uncommitted shadow values, and the commit request and COMMIT_COUNT of every page by its key. -/
def commitsOf (r : Regs) : SMap Word × (Nat → CommitReq × BitVec 16) :=
  (r.shadow, fun k => let p := look {} r.pages k; (p.commit, p.count))
def commitView (s : State) : SMap Word × (Nat → CommitReq × BitVec 16) := commitsOf (plainRegs s)

theorem commitView_of_plainRegs {s t : State} (h : plainRegs t = plainRegs s) : commitView t = commitView s := congrArg commitsOf h

theorem commitView_of_clr {s t : State} (h : t.clr (Mask.of allButRegs) = s.clr (Mask.of allButRegs)) : commitView t = commitView s :=
  commitView_of_plainRegs (plainRegs_of_clr h)

/-- A change of a page header that keeps its request and its count. -/
theorem commitView_modPage (die page : Nat) (f : Page → Page) (s : State) (h : ∀ p, (f p).commit = p.commit ∧ (f p).count = p.count) :
    commitView (modPage die page f s) = commitView s := by
  refine Prod.ext rfl (funext fun k => ?_)
  simp only [commitView, commitsOf, plainRegs, modPage, look_upd]
  split
  · next hk => rw [(h _).1, (h _).2, hk]
  · rfl

theorem commitView_badWrite (die page : Nat) (s : State) : commitView (badWrite die page s) = commitView s :=
  commitView_modPage die page _ s fun _ => ⟨rfl, rfl⟩

theorem commitView_raise (die page b : Nat) (ctx : Option Nat) (detail : Word) (s : State) :
    commitView (raise die page b ctx detail s) = commitView s := by
  have hdo : ∀ c s, commitView (doIf c (addCount die 1 2 1) s) = commitView s := fun c s => doIf_same commitView c _ s fun _ => rfl
  unfold raise
  dsimp only
  split
  · exact (hdo _ _).trans (commitView_modPage die page _ s fun _ => ⟨rfl, rfl⟩)
  · exact (hdo _ _).trans (commitView_modPage die page _ s fun _ => ⟨rfl, rfl⟩)

theorem commitView_checkGateList (die t np cls : Nat) (s : State) : commitView (checkGateList die t np cls s) = commitView s := by
  unfold checkGateList
  generalize (if budgetB s die = 0 then 2 ^ 32 else budgetB s die) = B
  dsimp only
  split
  · exact (commitView_raise _ _ _ _ _ _).trans rfl
  · rfl

theorem commitView_commitShapers (die t : Nat) (ch : List (Nat × Nat)) (s : State) :
    commitView (commitShapers die t ch s) = commitView s := by
  unfold commitShapers
  dsimp only
  refine (forEach_same commitView _ _ _ fun x s => commitView_checkGateList _ _ _ _ s).trans ?_
  refine (forEach_same commitView _ _ _ fun x s => commitView_of_clr (resetTok_clr _ rfl _ _ _)).trans ?_
  exact forEach_same commitView _ _ _ fun x s => commitView_of_clr (resetTok_clr _ rfl _ _ _)

theorem commitView_settleTile (die n : Nat) (s : State) : commitView (settleTile die n s) = commitView s :=
  commitView_of_plainRegs (settleTile_plainRegs die n s)

theorem commitView_restartQueue (die n q : Nat) (held : List QEntry) (s : State) :
    commitView (restartQueue die n q held s) = commitView s := by
  have hcount : ∀ k x s, commitView (cipCountN die n k x s) = commitView s := fun k x s => by
    unfold cipCountN
    split <;> rfl
  unfold restartQueue
  dsimp only
  split
  · exact hcount _ _ _
  · exact (forEach_same commitView _ _ _ fun w s => commitView_of_clr (denyWaiter_clr _ rfl rfl rfl _ _ _ _)).trans (hcount _ _ _)

theorem commitView_commitCip (old : State) (die page n : Nat) (bad : Bool) (ch : List (Nat × Nat)) (s : State) :
    commitView (commitCip old die page n bad ch s) = commitView s := by
  unfold commitCip
  dsimp only
  refine (commitView_settleTile _ _ _).trans ?_
  refine (forEach_same commitView _ _ _ fun r s => commitView_of_clr (restartRing_clr _ rfl rfl _ _ _ _)).trans ?_
  refine (forEach_same commitView _ _ _ fun q s => commitView_restartQueue _ _ _ _ _).trans ?_
  exact doIf_same commitView _ _ _ fun s => commitView_badWrite _ _ _

theorem commitView_commitBasket (old : State) (die page n b : Nat) (s : State) :
    commitView (commitBasket old die page n b s) = commitView s := by
  unfold commitBasket
  dsimp only
  split
  · exact (commitView_of_clr (unbindBasket_clr _ rfl rfl _ _ _ _ _)).trans (doIf_same commitView _ _ _ fun s => commitView_badWrite _ _ _)
  · exact doIf_same commitView _ _ _ fun s => commitView_badWrite _ _ _

theorem commitView_commitBaskets (old : State) (die page n : Nat) (s : State) :
    commitView (commitBaskets old die page n s) = commitView s :=
  (commitView_settleTile _ _ _).trans (forEach_same commitView _ _ _ fun _ _ => commitView_commitBasket _ _ _ _ _ _)

theorem commitView_commitGroup (g : Nat) (s : State) : commitView (commitGroup g s) = commitView s := by
  unfold commitGroup
  dsimp only
  refine (commitView_of_clr (groupChanged_clr _ rfl _ _)).trans ?_
  split <;> rfl

/-- Whatever a page's unit does with a commit, it leaves shadow values, requests and counts alone. -/
theorem commitView_commitUnit (old : State) (die page : Nat) (ch : List (Nat × Nat)) (s : State) :
    commitView (commitUnit old die page ch s) = commitView s := by
  have harbs : ∀ a b t k s, commitView (commitArbs a b die t k s) = commitView s := fun a b t k s =>
    commitView_of_clr (commitArbs_clr _ rfl _ _ _ _ _ _)
  unfold commitUnit
  dsimp only
  split
  · exact harbs _ _ _ _ _
  · rfl
  · exact (commitView_commitShapers _ _ _ _).trans (harbs _ _ _ _ _)
  · split
    · exact commitView_of_clr (mpRefuse_clr _ rfl rfl _ _ _)
    · rfl
  · split
    · exact commitView_commitCip _ _ _ _ _ _ _
    · rfl
  · split
    · split
      · exact commitView_of_clr (unstealLate_clr _ rfl _ _ _)
      · rfl
    · rfl
  · split
    · exact commitView_commitBaskets _ _ _ _ _
    · rfl
  · exact forEach_same commitView _ _ _ fun g s => commitView_commitGroup g s
  · exact commitView_of_clr (commitSlots_clr _ rfl _ _ _)
  · rfl

/-! ### The shadow values of a page -/

/-- The kinds of pages whose unit reacts with more than the new values, or whose values go elsewhere. -/
def reactingKinds : List PageKind := [.tile2, .cip, .bsk, .seam1, .seam2, .drn]

/-- On any other page no register in effect changes but by the commit. -/
theorem commitUnit_rg (old : State) (die page : Nat) (ch : List (Nat × Nat)) (s : State) (hk : kindOf die page ∉ reactingKinds) :
    (commitUnit old die page ch s).rg = s.rg := by
  unfold commitUnit
  dsimp only
  split
  · exact same_of_clr [.nt] _ _ (commitArbs_clr _ rfl _ _ _ _ _ _) .rg (by decide)
  · rfl
  · simp_all [reactingKinds]
  · split
    · exact same_of_clr [.nt, .mp] _ _ (mpRefuse_clr _ rfl rfl _ _ _) .rg (by decide)
    · rfl
  all_goals simp_all [reactingKinds]

/-- The key of a register gives back its page, offset and entry. -/
theorem rk_fields (die page off sel : Nat) (ho : off < 4096) (hs : sel < 16384) :
    rk die page off sel / 16384 / 4096 = pk die page ∧ rk die page off sel / 16384 % 4096 = off ∧ rk die page off sel % 16384 = sel := by
  unfold rk
  generalize pk die page = p
  omega

theorem lookQ_keep {V : Type} (p : Nat → Bool) (m : SMap V) (k : Nat) : look? (keep p m) k = if p k then look? m k else none := by
  unfold keep
  induction m with
  | nil => simp [look?]
  | cons e m ih =>
    obtain ⟨a, v⟩ := e
    by_cases ha : a = k
    · subst ha
      cases hp : p a <;> simp_all [look?]
    · cases hp : p a <;> simp_all [look?]

theorem mem_of_lookQ {V : Type} (m : SMap V) (k : Nat) (v : V) (h : look? m k = some v) : (k, v) ∈ m := by
  induction m with
  | nil => cases h
  | cons e m ih =>
    obtain ⟨a, w⟩ := e
    unfold look? at h
    split at h
    · simp_all
    · exact List.mem_cons_of_mem _ (ih h)

/-- An uncommitted value is among the page's. -/
theorem mem_pageShadow (s : State) (die page off sel : Nat) (v : Word) (ho : off < 4096) (hs : sel < 16384)
    (h : look? s.rg.shadow (rk die page off sel) = some v) : (off, sel, v) ∈ pageShadow s die page := by
  obtain ⟨hp, hoff, hsel⟩ := rk_fields die page off sel ho hs
  refine List.mem_map.mpr ⟨(rk die page off sel, v), List.mem_filter.mpr ⟨mem_of_lookQ _ _ _ h, by simp [hp]⟩, ?_⟩
  simp [hoff, hsel, h]

/-- The page's values are those its shadow reads as. -/
theorem pageShadow_value (s : State) (die page : Nat) (e : Nat × Nat × Word) (he : e ∈ pageShadow s die page) :
    e.1 < 4096 ∧ e.2.1 < 16384 ∧ ∀ v, look? s.rg.shadow (rk die page e.1 e.2.1) = some v → e.2.2 = v := by
  obtain ⟨x, hx, rfl⟩ := List.mem_map.mp he
  have hkey : x.1 / 16384 / 4096 = pk die page := by simpa using (List.mem_filter.mp hx).2
  have hrk : rk die page (x.1 / 16384 % 4096) (x.1 % 16384) = x.1 := by
    unfold rk
    omega
  refine ⟨Nat.mod_lt _ (by decide), Nat.mod_lt _ (by decide), fun v hv => ?_⟩
  dsimp only at hv ⊢
  rw [hrk] at hv
  rw [hv]
  rfl

/-- A register that is written last with v, or holds v and is not written with another value, holds v. -/
theorem reg_forEach_setReg (die page off sel : Nat) (v : Word) (es : List (Nat × Nat × Word)) (s : State) (ho : off < 4096) (hs : sel < 16384)
    (hes : ∀ e ∈ es, e.1 < 4096 ∧ e.2.1 < 16384 ∧ (e.1 = off → e.2.1 = sel → e.2.2 = v))
    (h : reg s die page off sel = v ∨ (off, sel, v) ∈ es) :
    reg (forEach es (fun e s => setReg die page e.1 e.2.1 e.2.2 s) s) die page off sel = v := by
  induction es generalizing s with
  | nil => simpa [forEach] using h
  | cons e es ih =>
    obtain ⟨heo, hes', hev⟩ := hes e List.mem_cons_self
    refine ih (setReg die page e.1 e.2.1 e.2.2 s) (fun x hx => hes x (List.mem_cons_of_mem _ hx)) ?_
    by_cases hk : rk die page off sel = rk die page e.1 e.2.1
    · have hf := rk_fields die page off sel ho hs
      have hf' := rk_fields die page e.1 e.2.1 heo hes'
      rw [hk] at hf
      have h1 : e.1 = off := hf'.2.1.symm.trans hf.2.1
      have h2 : e.2.1 = sel := hf'.2.2.symm.trans hf.2.2
      refine Or.inl ?_
      rw [h1, h2, hev h1 h2, reg_setReg_same]
    · rcases h with h | h
      · exact Or.inl ((reg_setReg_ne _ _ _ _ _ _ _ _ _ _ hk).trans h)
      · rcases List.mem_cons.mp h with h | h
        · subst h
          exact absurd rfl hk
        · exact Or.inr h

/-- The page's uncommitted values are in effect, where they are its own and none is adjusted. -/
theorem reg_applyShadow (die page off sel : Nat) (v : Word) (s : State) (hk : kindOf die page ∉ reactingKinds) (ho : off < 4096)
    (hs : sel < 16384) (h : look? s.rg.shadow (rk die page off sel) = some v) : reg (applyShadow die page s) die page off sel = v := by
  have hhome : ∀ o, homePage die page o = page := fun o => by
    unfold homePage
    rw [if_neg]
    rintro ⟨h2, -⟩
    simp [h2, reactingKinds] at hk
  have hcomm : (pageShadow s die page).map (committed (kindOf die page)) = pageShadow s die page := by
    have : committed (kindOf die page) = id := by
      funext e
      unfold committed
      rw [if_neg]
      · rfl
      · rintro ⟨h2, -⟩
        simp [h2, reactingKinds] at hk
    rw [this, List.map_id]
  show reg (forEach ((pageShadow s die page).map (committed (kindOf die page))) _ s) die page off sel = v
  simp only [hcomm, hhome]
  refine reg_forEach_setReg die page off sel v _ s ho hs (fun e he => ?_) (Or.inr (mem_pageShadow s die page off sel v ho hs h))
  obtain ⟨h1, h2, h3⟩ := pageShadow_value s die page e he
  exact ⟨h1, h2, fun ho hs => h3 v (by rw [ho, hs]; exact h)⟩

theorem applyShadow_pages (die page : Nat) (s : State) : (applyShadow die page s).rg.pages = s.rg.pages :=
  forEach_same (fun t => t.rg.pages) _ _ _ fun _ _ => rfl

/-- Nothing of the page is uncommitted any more. -/
theorem applyShadow_shadow (die page off sel : Nat) (s : State) (ho : off < 4096) (hs : sel < 16384) :
    look? (applyShadow die page s).rg.shadow (rk die page off sel) = none := by
  unfold applyShadow
  dsimp only
  rw [lookQ_keep, if_neg]
  simp [(rk_fields die page off sel ho hs).1]

/-! ### The statement -/

/-- A commit that no patch load refuses (R290). -/
theorem takeCommit_taken (die page : Nat) (s : State) (h : psLoading s die page = false) :
    takeCommit die page s = commitUnit s die page (commitChanges s die page)
      (modPage die page (fun p => { p with commit := .none, count := p.count + 1 }) (applyShadow die page s)) := by
  simp [takeCommit, h]

/-- The commit state of a page, from the view. -/
theorem commits_of_view {s t : State} (h : commitView t = commitView s) (d p : Nat) :
    (pageOf t d p).commit = (pageOf s d p).commit ∧ (pageOf t d p).count = (pageOf s d p).count := by
  have := congrFun (congrArg Prod.snd h) (pk d p)
  exact Prod.ext_iff.mp this

/-- Settles O19: the values are put into effect, the header is closed, and the page's unit leaves both alone. -/
theorem immediateCommitTakesShadows : Obligations.ImmediateCommitTakesShadows := by
  intro s die page
  refine ⟨fun h => ?_, fun hc hidle hload => ?_⟩
  · refine congrArg Host.Outcome.next ?_
    unfold immediateCommit
    split
    · next hc => simp_all
    · rfl
  · have htake : immediateCommit die page s = takeCommit die page s := by simp [immediateCommit, hc, hidle]
    rw [takeCommit_taken die page s hload] at htake
    have hview := commitView_commitUnit s die page (commitChanges s die page)
      (modPage die page (fun p => { p with commit := .none, count := p.count + 1 }) (applyShadow die page s))
    have hpages : ∀ d p, pageOf (applyShadow die page s) d p = pageOf s d p := fun d p => by
      unfold pageOf
      rw [applyShadow_pages]
    refine ⟨_, congrArg Host.Outcome.next htake, ?_, ?_, fun d p hne => ?_, fun off sel ho hs => ?_, fun hk off sel v ho hs hv => ?_⟩
    · rw [(commits_of_view hview die page).1, pageOf_modPage, if_pos rfl]
    · rw [(commits_of_view hview die page).2, pageOf_modPage, if_pos rfl, hpages]
    · rw [(commits_of_view hview d p).1, (commits_of_view hview d p).2, pageOf_modPage, if_neg hne, hpages]
      exact ⟨rfl, rfl⟩
    · rw [show (commitUnit _ _ _ _ _).rg.shadow = _ from congrArg Prod.fst hview]
      exact applyShadow_shadow die page off sel s ho hs
    · rw [reg_of_eff (congrArg Regs.eff (commitUnit_rg _ _ _ _ _ hk))]
      exact reg_applyShadow die page off sel v s hk ho hs hv

end Sys2Proof.Machine
end

section
/-! SUPPORT. A patch load whose tile is not found again from its page (O39). -/
namespace Sys2Proof.Machine

/-- The FMC runs; the spare column of die 1, a memory-side die, is given as 5, where its columns are 0 to 4 (R485). Physical tile 4 is then
logical tile 4, but logical tile 4 is physical tile 5. -/
def sparedPast : State := { State.reset with fw := { running := true }, ft := { spare := [(1, 5)] } }

/-- PS_LOAD_CMD for one instruction of context 0; PS_LOAD is 0, which is no address of user memory. -/
def loadOne : Word := 0x80000400

def drnPageInfo : PageInfo := { kind := .drn, inst := 4 }
def psLoadRow : RegRow := { off := 0x1A8, acc := .wo, w := 0xFFFFFFFF }

theorem sparedPast_writes : Writes sparedPast .fmc 1 0x124 0x1A8 loadOne drnPageInfo psLoadRow := by
  unfold Writes
  decide +kernel

/-- The page's tile is 4, the page of tile 4 is another one. -/
theorem sparedPast_tile : pageTile sparedPast 1 0x124 = some 4 ∧ drnPage sparedPast 1 4 = 0x12C := by
  decide +kernel

/-- The command is in order, and its one read is refused. -/
theorem sparedPast_ok : shadowBusy sparedPast 1 4 = false ∧ (drnTile sparedPast 1 4).load = none ∧
    psPieces 10 ((reg64 sparedPast 1 0x124 0x1A0).toNat / 8 * 8) (wbits loadOne 9 0) (wbits loadOne 19 10) = [(0, 0, 1)] ∧
    spanStatus sparedPast 1 4 (wbits loadOne 30 20) (w64 0) (8 * 1) ≠ 0 := by
  decide +kernel

/-- LOAD_ERR is not set on the page the command was written to. -/
theorem sparedPast_noError : (reg (writeOf .fmc 1 0x124 0x1A8 loadOne sparedPast) 1 0x124 0x180).toNat.testBit 6 = false := by
  decide +kernel

/-- Refutes O39 by its quantifier over every State: with a spare position that the die does not have (SPARE_CFG and the router test give
none, R485, but a State holds the position as a plain number) the refused read of a load sets LOAD_ERR on the page of physical tile 5,
where the command came by the page of physical tile 4. -/
theorem not_patchStoreLoads : ¬ Obligations.PatchStoreLoads := by
  intro ⟨_, hload, _⟩
  obtain ⟨htile, -⟩ := sparedPast_tile
  obtain ⟨hbusy, hnone, hpieces, hbad⟩ := sparedPast_ok
  obtain ⟨t, ht, -, -, -, hok⟩ := hload sparedPast .fmc 1 0x124 4 loadOne drnPageInfo psLoadRow sparedPast_writes rfl htile
  obtain ⟨l, -, -, -, -, -, herr, -⟩ := hok (by decide) ⟨hbusy, hnone, by decide, by decide⟩
  obtain rfl : writeOf .fmc 1 0x124 0x1A8 loadOne sparedPast = t := by
    injection ht
  have := herr ⟨(0, 0, 1), by rw [hpieces]; exact List.mem_singleton.mpr rfl, hbad⟩
  rw [sparedPast_noError] at this
  cases this

end Sys2Proof.Machine
end

section
/-! SUPPORT. The host adapters (R454 to R459): what one inbound TLP does (O56). -/
namespace Sys2Proof.Machine

/-! ### Counters and stores -/

/-- A counter of a page after a count: w64 n more, every other counter as before. -/
theorem countOf_addCount (die page sel d p x n : Nat) (s : State) : countOf (addCount die page sel n s) d p x =
    if ckey d p x = ckey die page sel then countOf s die page sel + w64 n else countOf s d p x := by
  simp [countOf, addCount]

/-- A counter of a host adapter after a count of one of its counters. -/
theorem countOf_hostCount (h k j : Nat) (s : State) : countOf (hostCount h k s) (hostDie h) 0x718 j =
    if j = k then countOf s (hostDie h) 0x718 k + 1 else countOf s (hostDie h) 0x718 j := by
  have hw : w64 1 = 1 := rfl
  simp only [hostCount, countOf_addCount, hw, ckey, Nat.add_left_cancel_iff]

/-- A write at another key leaves a read as it was, whatever an unlisted key reads as. -/
theorem look_put_ne {V : Type} [DecidableEq V] (d d' : V) (m : SMap V) (i j : Nat) (v : V) (h : j ≠ i) :
    look d (put d' m i v) j = look d m j := by
  unfold put
  split
  · simp [look_drop, h]
  · simp [look_ins, h]

/-! ### What an adapter does with a TLP (R455, R456) -/

/-- A TLP that is no access of a BAR is completed with UR, or counted. -/
theorem badTlp_effect (h tag : Nat) (np : Bool) (s t : State) (ht : t = badTlp h tag np (hostCount h 0 s)) :
    ChangesOnly [.rg, .out] s t ∧ countOf t (hostDie h) 0x718 0 = countOf s (hostDie h) 0x718 0 + 1 ∧
      (np = true → t.out = s.out ++ [.tlp h tag 1 []] ∧ countOf t (hostDie h) 0x718 1 = countOf s (hostDie h) 0x718 1 + 1) ∧
      (np = false → t.out = s.out ∧ countOf t (hostDie h) 0x718 5 = countOf s (hostDie h) 0x718 5 + 1) := by
  have hc : ∀ o u j, countOf (emit o u) (hostDie h) 0x718 j = countOf u (hostDie h) 0x718 j := fun _ _ _ => rfl
  subst ht
  refine ⟨changesOnly_of_clr _ _ _ ((badTlp_clr _ rfl rfl _ _ _ _).trans (hostCount_clr _ rfl _ _ _)), ?_, ?_, ?_⟩
  · cases np <;> simp [badTlp, cplError, tlpStatus, hc, countOf_hostCount]
  · rintro rfl
    exact ⟨rfl, by simp [badTlp, cplError, tlpStatus, hc, countOf_hostCount]⟩
  · rintro rfl
    exact ⟨rfl, by simp [badTlp, countOf_hostCount]⟩

/-- The request is counted and put behind those that wait. -/
def hostQueued (h : Nat) (we : Bool) (p : Tlp) (s : State) : State :=
  modHost h (fun x => { x with waiting := x.waiting ++ [(we, p)] }) (hostCount h 0 s)

/-- The request is taken from the front. -/
def hostTook (h : Nat) (we : Bool) (p : Tlp) (s : State) : State :=
  modHost h (fun x => { x with waiting := [] }) (hostQueued h we p s)

theorem inbound_queued (h : Nat) (we : Bool) (p : Tlp) (s : State) (hm : masterOn s (.host h) = true)
    (hb : p.bar = 0 ∨ p.bar = 2 ∨ p.bar = 4) : inbound h we p s = hostRun h (hostQueued h we p s) := by
  have hn : ¬ (p.bar ≠ 0 ∧ p.bar ≠ 2 ∧ p.bar ≠ 4) := by omega
  unfold inbound
  simp only [hm, Bool.not_true, Bool.false_eq_true, if_false, if_neg hn]
  rfl

theorem hostOf_queued (h : Nat) (we : Bool) (p : Tlp) (s : State) :
    hostOf (hostQueued h we p s) h = { hostOf s h with waiting := (hostOf s h).waiting ++ [(we, p)] } := by
  simp only [hostQueued, hostOf_modHost, if_true]
  rfl

/-- Once nothing else waits, a request taken leaves the adapter as it was before. -/
theorem hostOf_took (h : Nat) (we : Bool) (p : Tlp) (s : State) (hw : (hostOf s h).waiting = []) (y : Nat) :
    hostOf (hostTook h we p s) y = hostOf s y := by
  by_cases hy : y = h
  · subst hy
    rw [hostTook, hostOf_modHost, if_pos rfl, hostOf_queued, ← hw]
  · simp only [hostTook, hostQueued, hostOf_modHost, if_neg hy]
    rfl

theorem took_only (h : Nat) (we : Bool) (p : Tlp) (s : State) : ChangesOnly [.rg, .hs] s (hostTook h we p s) :=
  changesOnly_of_clr _ _ _ (((modHost_clr _ rfl _ _ _).trans (modHost_clr _ rfl _ _ _)).trans (hostCount_clr _ rfl _ _ _))

/-- A read behind a write that is not acknowledged waits. -/
theorem hostRun_waits (h : Nat) (y : Tlp) (r : List (Bool × Tlp)) (s : State) (hw : (hostOf s h).waiting = (false, y) :: r)
    (ho : writesOut (hostOf s h) = true) : hostRun h s = s := by
  simp [hostRun, hostDrain, hw, ho]

/-- With nothing waiting the adapter is idle. -/
theorem hostDrain_idle (h f : Nat) (s : State) (hw : (hostOf s h).waiting = []) : hostDrain h f s = s := by
  cases f with
  | zero => rfl
  | succ f => simp [hostDrain, hw]

/-- A request that finds nothing waiting, and is no read behind a write, is served. -/
theorem inbound_served (h : Nat) (we : Bool) (p : Tlp) (s : State) (hm : masterOn s (.host h) = true)
    (hb : p.bar = 0 ∨ p.bar = 2 ∨ p.bar = 4) (hw : (hostOf s h).waiting = []) (hr : we = true ∨ writesOut (hostOf s h) = false)
    (hi : (hostOf (hostServe h we p (hostTook h we p s)) h).waiting = []) :
    inbound h we p s = hostServe h we p (hostTook h we p s) := by
  have hq := hostOf_queued h we p s
  have hgo : (!we && writesOut (hostOf (hostQueued h we p s) h)) = false := by
    rw [hq]
    cases hr with
    | inl h => simp [h]
    | inr h => exact (congrArg (!we && ·) h).trans (Bool.and_false _)
  rw [inbound_queued h we p s hm hb]
  unfold hostRun
  rw [hq, hw]
  show hostDrain h 2 _ = _
  unfold hostDrain
  rw [hq, hw]
  rw [hq, hw] at hgo
  dsimp only [List.nil_append]
  rw [if_neg (by simpa using hgo)]
  exact hostDrain_idle h 1 _ hi

/-! ### BAR0: register accesses (R457) -/

/-- The registers and the adapters of a state with the request taken. -/
theorem hostAcc_took (h : Nat) (we : Bool) (p : Tlp) (s : State) : hostAcc (hostTook h we p s) h p = hostAcc s h p := rfl

theorem regRead_hs (a : RegAcc) (s : State) : (regRead a s).2.2.hs = s.hs :=
  same_of_clr [.rg, .fresh] _ _ (regRead_clr _ rfl rfl _ _) .hs (by decide)

/-- A read that is not answered REG_OK changes nothing. -/
theorem regRead_refused (a : RegAcc) (s : State) (h : (regRead a s).1 ≠ 0) : (regRead a s).2.2 = s := by
  unfold regRead at h ⊢
  dsimp only at h ⊢
  split
  · rfl
  · split
    · rfl
    · next i hi _ row hr =>
      rw [hi] at h
      dsimp only at h
      rw [hr] at h
      dsimp only at h
      split at h
      · exact absurd rfl h
      · exact absurd rfl h

/-- A read of a register by a host: its value, or its status. -/
theorem serve_regRead (h : Nat) (p : Tlp) (s : State) (hb : p.bar = 0) : hostServe h false p s =
    (let r := regRead (hostAcc s h p) s
     if r.1 = 0 then emit (.tlp h p.tag 0 (leBytes 4 r.2.1.toNat)) r.2.2
     else emit (.tlp h p.tag (tlpStatus r.1) []) (hostCount h (tlpStatus r.1) s)) := by
  have hs : hostServe h false p s = hostReg h false p s := by simp [hostServe, hb]
  rw [hs]
  unfold hostReg
  dsimp only
  split
  · next h => exact absurd h (by decide)
  · split
    · rfl
    · next h0 => rw [regRead_refused _ _ h0, cplError]

theorem serve_regRead_hs (h : Nat) (p : Tlp) (s : State) (hb : p.bar = 0) : (hostServe h false p s).hs = s.hs := by
  rw [serve_regRead h p s hb]
  dsimp only
  split
  · exact regRead_hs _ s
  · rfl

theorem serve_regWrite (h : Nat) (p : Tlp) (s : State) (hb : p.bar = 0) : hostServe h true p s =
    (let r := regWrite (hostAcc s h p) s
     if r.1 = 0 then r.2 else postedError h 0 p.offset r.1 r.2) := by
  simp [hostServe, hb, hostReg]

/-- A write that is not answered REG_OK changes nothing. -/
theorem regWrite_refused (a : RegAcc) (s : State) (h : (regWrite a s).1 ≠ 0) : (regWrite a s).2 = s := by
  unfold regWrite at h ⊢
  dsimp only at h ⊢
  split
  · rfl
  · split
    · rfl
    · next i hi _ row hr =>
      rw [hi] at h
      dsimp only at h
      rw [hr] at h
      exact absurd rfl h

/-- A posted write that failed shows in LAST_ERR. -/
theorem hostOf_postedError (h bar off code : Nat) (s : State) : hostOf (postedError h bar off code s) h =
    { hostOf s h with errValid := true, errCode := BitVec.ofNat 8 code, errAddr := w64 (off + bar / 2 * 2 ^ 62) } := by
  have hc : ∀ k u, hostOf (hostCount h k u) h = hostOf u h := fun _ _ => rfl
  rw [postedError, hc, hostOf_modHost, if_pos rfl]

/-! ### BAR2: the MSI-X table (R454, log 30) -/

theorem ceilDiv_four : ceilDiv 4 4 = 1 := rfl

theorem serve_msixRead (h : Nat) (p : Tlp) (s : State) (hb : p.bar = 2) (hl : p.length = 4) :
    hostServe h false p s = emit (.tlp h p.tag 0 (leBytes 4 (msixRead s h (p.offset / 4 * 4)).toNat)) s := by
  simp [hostServe, hb, hostMsix, hl, ceilDiv_four]

theorem serve_msixWrite (h : Nat) (p : Tlp) (s : State) (hb : p.bar = 2) (hl : p.length = 4) :
    hostServe h true p s = msixWrite h (p.offset / 4 * 4) (w32 (ofLe (p.data.take 4))) s := by
  simp [hostServe, hb, hostMsix, hl, ceilDiv_four, forEach, slice]

/-- The table after a write of one word. -/
def msixPut (h k : Nat) (v : Word) (s : State) : State :=
  modHost h (fun x => { x with msix := put (if k % 4 = 3 then 1 else 0) x.msix k v }) s

theorem msixWrite_eq (h k : Nat) (v : Word) (s : State) : msixWrite h (k * 4) v s =
    if k < 128 then msixUnmask h (k / 4) (msixPut h k v s) else s := by
  have hk : k * 4 / 4 = k := by omega
  have hc : k * 4 < 512 ↔ k < 128 := by omega
  simp only [msixWrite, hk, hc, msixPut]

theorem msixWord_put (h k j : Nat) (v : Word) (s : State) : msixWord (msixPut h k v s) h j = if j = k then v else msixWord s h j := by
  unfold msixWord msixPut
  rw [hostOf_modHost, if_pos rfl]
  by_cases hj : j = k
  · subst hj
    simp
  · rw [if_neg hj, look_put_ne _ _ _ _ _ _ hj]

/-- The unmasking of a vector leaves the table and what the masks depend on. -/
theorem msixUnmask_host (h v : Nat) (s : State) :
    (hostOf (msixUnmask h v s) h).msix = (hostOf s h).msix ∧ (hostOf (msixUnmask h v s) h).pins = (hostOf s h).pins ∧
      (hostOf (msixUnmask h v s) h).waiting = (hostOf s h).waiting := by
  have hs : ∀ u, hostOf (sendMsix h v u) h = hostOf u h := fun _ => rfl
  unfold msixUnmask
  split
  · rw [hs, hostOf_modHost, if_pos rfl]
    exact ⟨rfl, rfl, rfl⟩
  · exact ⟨rfl, rfl, rfl⟩

theorem msixWord_of_msix {s t : State} {h : Nat} (hm : (hostOf t h).msix = (hostOf s h).msix) (i : Nat) :
    msixWord t h i = msixWord s h i := by
  unfold msixWord
  rw [hm]

theorem msixMasked_of_host {s t : State} {h : Nat} (hm : (hostOf t h).msix = (hostOf s h).msix)
    (hp : (hostOf t h).pins = (hostOf s h).pins) (v : Nat) : msixMasked t h v = msixMasked s h v := by
  unfold msixMasked
  rw [msixWord_of_msix hm, hp]

/-- The message of a vector, from the words of its table entry. -/
def msixMsg (s : State) (h v : Nat) : Output :=
  .msix h v (pair64 (msixWord s h (v * 4)) (msixWord s h (v * 4 + 1))) (msixWord s h (v * 4 + 2))

theorem msixUnmask_out (h v : Nat) (s : State) : (msixUnmask h v s).out =
    s.out ++ (if (hostOf s h).pendingBits.toNat.testBit v = true ∧ msixMasked s h v = false then [msixMsg s h v] else []) := by
  have hsend : ∀ u : State, (hostOf u h).msix = (hostOf s h).msix → u.out = s.out → (sendMsix h v u).out = s.out ++ [msixMsg s h v] := by
    intro u hu ho
    have h0 : (sendMsix h v u).out = u.out ++ [msixMsg u h v] := by
      rw [msixMsg, Nat.mul_comm]
      rfl
    rw [h0, ho, msixMsg, msixWord_of_msix hu, msixWord_of_msix hu, msixWord_of_msix hu, ← msixMsg]
  unfold msixUnmask
  by_cases hp : (hostOf s h).pendingBits.toNat.testBit v = true ∧ msixMasked s h v = false
  · rw [if_pos (by simp [hp]), if_pos hp]
    exact hsend _ (by rw [hostOf_modHost, if_pos rfl]) rfl
  · have hc : ((hostOf s h).pendingBits.toNat.testBit v && !msixMasked s h v) = false := by
      simpa using hp
    simp [hc, hp]

/-! ### BAR4: granules of HOST_CTX (R456) -/

/-- What is issued for a good address. -/
theorem hostIssue_good (h : Nat) (we : Bool) (tag off left : Nat) (data : List Byte) (s : State)
    (hc : addrStatus s (hostDie h) 5 (hostCtx s h) (apertureAddr s h off) = 0) : hostIssue h we tag off left data s =
    sendFrom (hostDie h) 5 10 (hostPacket s h we (hostOf s h).sseq (apertureAddr s h off) (inThisGranule (apertureAddr s h off) left) data)
      (modHost h (fun x => { x with
        sseq := x.sseq + 1
        sent := x.sent ++ [{ sseq := (hostOf s h).sseq, tag := tag, we := we, offset := off, left := left }] }) s) := by
  unfold hostIssue
  exact if_neg (not_not.mpr hc)

/-- What is answered for a bad address. -/
theorem hostIssue_bad (h : Nat) (we : Bool) (tag off left : Nat) (data : List Byte) (s : State)
    (hc : addrStatus s (hostDie h) 5 (hostCtx s h) (apertureAddr s h off) ≠ 0) : hostIssue h we tag off left data s =
    (let code := addrStatus s (hostDie h) 5 (hostCtx s h) (apertureAddr s h off)
     if we then postedError h 4 off code s else cplError h tag code s) := by
  unfold hostIssue
  dsimp only
  rw [if_pos hc]

/-- A write that stays in its granule is one piece. -/
theorem writePieces_one (s : State) (h f off : Nat) (data : List Byte) (hd : data ≠ [])
    (hn : data.length ≤ inThisGranule (apertureAddr s h off) data.length) :
    writePieces s h (f + 1) off data = [(off, data)] := by
  have hnil : data.drop (inThisGranule (apertureAddr s h off) data.length) = [] := List.drop_eq_nil_of_le hn
  have htake : data.take (inThisGranule (apertureAddr s h off) data.length) = data := List.take_of_length_le hn
  unfold writePieces
  rw [if_neg hd]
  simp only [hnil, htake]
  cases f <;> simp [writePieces]

theorem length_padTo (n : Nat) (bs : List Byte) : (padTo n bs).length = n := by
  simp only [padTo, List.length_append, List.length_take, List.length_replicate]
  omega

theorem forEach_one {α : Type} (x : α) (f : α → State → State) (s : State) : forEach [x] f s = f x s := rfl

theorem serve_bar4 (h : Nat) (we : Bool) (p : Tlp) (s : State) (hb : p.bar = 4) : hostServe h we p s = hostBulk h we p s := by
  simp [hostServe, hb]

theorem hostBulk_write (h : Nat) (p : Tlp) (s : State) : hostBulk h true p s =
    forEach (writePieces s h 10 p.offset (padTo p.length p.data)) (fun e s => hostIssue h true p.tag e.1 e.2.length e.2 s) s := by
  unfold hostBulk
  exact if_pos rfl

/-- An access of BAR4 within one granule is issued as one request. -/
theorem serve_bulk (h : Nat) (we : Bool) (p : Tlp) (s : State) (hb : p.bar = 4) (hl : p.length ≠ 0)
    (hn : we = true → p.length ≤ inThisGranule (apertureAddr s h p.offset) p.length) : hostServe h we p s =
    hostIssue h we p.tag p.offset p.length (if we then padTo p.length p.data else []) s := by
  have hlen := length_padTo p.length p.data
  rw [serve_bar4 h we p s hb]
  cases we with
  | false => simp [hostBulk, hl]
  | true =>
    have hne : padTo p.length p.data ≠ [] := fun he => hl (by rw [← hlen, he]; rfl)
    rw [hostBulk_write, writePieces_one s h 9 p.offset _ hne (by rw [hlen]; exact hn rfl), forEach_one]
    dsimp only
    rw [hlen, if_pos rfl]

theorem half_vc (a b : Bool) : (2 * b2n a + b2n b) / 2 = b2n a := by
  cases a <;> cases b <;> rfl

/-- A packet sent joins its injection queue; the adapter's own record of it stands apart. -/
theorem sendFrom_sent (die n port : Nat) (q : Packet) (s u : State) (hin : u.nt.inject = s.nt.inject) (hclk : u.tm.fclk = s.tm.fclk)
    (hft : u.ft.spare = s.ft.spare) : Sent s (sendFrom die n port q u) die n port q := by
  have hp : physTile u die n = physTile s die n := by
    unfold physTile spareOf
    rw [hft]
  have hq : ∀ k, injQ (sendFrom die n port q u) k = if k = ikey die (physTile s die n) port (planeOf q.cls) then
      injQ s k ++ [{ pkt := startPkt u die n q, since := s.tm.fclk + 1 }] else injQ s k := by
    intro k
    have hcls : (startPkt u die n q).cls = q.cls := rfl
    simp only [injQ, sendFrom, look_put, hin, hclk, hp, hcls]
    split
    · next hk => rw [hk]
    · rfl
  refine ⟨⟨{ pkt := startPkt u die n q, since := s.tm.fclk + 1 }, ?_, rfl, rfl, ?_⟩, fun k hk => ?_⟩
  · rw [hq, if_pos rfl]
  · exact half_vc (isRsp q) _
  · rw [hq, if_neg hk]

/-! ### One request of a host, served at once -/

theorem hostOf_sendFrom (die n port : Nat) (q : Packet) (s : State) (y : Nat) : hostOf (sendFrom die n port q s) y = hostOf s y := rfl

theorem apertureAddr_took (h : Nat) (we : Bool) (p : Tlp) (s : State) (off : Nat) :
    apertureAddr (hostTook h we p s) h off = apertureAddr s h off := rfl

theorem hostCtx_took (h : Nat) (we : Bool) (p : Tlp) (s : State) : hostCtx (hostTook h we p s) h = hostCtx s h := rfl

theorem addrStatus_took (h : Nat) (we : Bool) (p : Tlp) (s : State) (die n ctx : Nat) (a : DWord) :
    addrStatus (hostTook h we p s) die n ctx a = addrStatus s die n ctx a := rfl

theorem hostPacket_took (h : Nat) (we : Bool) (p : Tlp) (s : State) (q : BitVec 16) (a : DWord) (n : Nat) (data : List Byte) :
    hostPacket (hostTook h we p s) h we q a n data = hostPacket s h we q a n data := rfl

/-- Issuing a granule leaves what waits. -/
theorem hostIssue_waiting (h : Nat) (we : Bool) (tag off left : Nat) (data : List Byte) (s : State) :
    (hostOf (hostIssue h we tag off left data s) h).waiting = (hostOf s h).waiting := by
  have hcpl : ∀ code, hostOf (cplError h tag code s) h = hostOf s h := fun _ => rfl
  by_cases hc : addrStatus s (hostDie h) 5 (hostCtx s h) (apertureAddr s h off) = 0
  · rw [hostIssue_good _ _ _ _ _ _ _ hc, hostOf_sendFrom, hostOf_modHost, if_pos rfl]
  · rw [hostIssue_bad _ _ _ _ _ _ _ hc]
    dsimp only
    split
    · rw [hostOf_postedError]
    · rw [hcpl]

theorem hostIssue_took_bad (h : Nat) (we : Bool) (p : Tlp) (data : List Byte) (s : State)
    (hc : addrStatus s (hostDie h) 5 (hostCtx s h) (apertureAddr s h p.offset) ≠ 0) :
    hostIssue h we p.tag p.offset p.length data (hostTook h we p s) =
      (let code := addrStatus s (hostDie h) 5 (hostCtx s h) (apertureAddr s h p.offset)
       if we then postedError h 4 p.offset code (hostTook h we p s) else cplError h p.tag code (hostTook h we p s)) := by
  rw [← addrStatus_took h we p, ← hostCtx_took h we p, ← apertureAddr_took h we p] at hc
  rw [hostIssue_bad _ _ _ _ _ _ _ hc, addrStatus_took, hostCtx_took, apertureAddr_took]

theorem hostIssue_took_good (h : Nat) (we : Bool) (p : Tlp) (data : List Byte) (s : State) (hw : (hostOf s h).waiting = [])
    (hc : addrStatus s (hostDie h) 5 (hostCtx s h) (apertureAddr s h p.offset) = 0) :
    hostIssue h we p.tag p.offset p.length data (hostTook h we p s) =
      sendFrom (hostDie h) 5 10 (hostPacket s h we (hostOf s h).sseq (apertureAddr s h p.offset)
          (inThisGranule (apertureAddr s h p.offset) p.length) data)
        (modHost h (fun x => { x with
          sseq := x.sseq + 1
          sent := x.sent ++ [{ sseq := (hostOf s h).sseq, tag := p.tag, we := we, offset := p.offset, left := p.length }] })
          (hostTook h we p s)) := by
  rw [← addrStatus_took h we p, ← hostCtx_took h we p, ← apertureAddr_took h we p] at hc
  rw [hostIssue_good _ _ _ _ _ _ _ hc, apertureAddr_took, hostPacket_took, hostOf_took h we p s hw]

theorem exec_tlp (h : Nat) (we : Bool) (p : Tlp) (s : State) :
    exec (if we then .mwr h p else .mrd h p) s = .next (inbound h we p s) := by
  cases we <;> rfl

theorem hostOf_of_hs {s t : State} (hs : t.hs = s.hs) (y : Nat) : hostOf t y = hostOf s y := by
  unfold hostOf
  rw [hs]

theorem waiting_of_hs {s t : State} (h : Nat) (hs : t.hs = s.hs) (hw : (hostOf s h).waiting = []) : (hostOf t h).waiting = [] := by
  rwa [hostOf_of_hs hs]

section
variable (s : State) (h : Nat) (p : Tlp) (hm : masterOn s (.host h) = true) (hw : (hostOf s h).waiting = [])
include hm hw

/-- BAR0 read: the value, or the status. -/
theorem mrd_bar0 (hb : p.bar = 0) (ho : writesOut (hostOf s h) = false) :
    let r := regRead (hostAcc s h p) (hostTook h false p s)
    inbound h false p s = if r.1 = 0 then emit (.tlp h p.tag 0 (leBytes 4 r.2.1.toNat)) r.2.2
      else emit (.tlp h p.tag (tlpStatus r.1) []) (hostCount h (tlpStatus r.1) (hostTook h false p s)) := by
  have hu := hostOf_took h false p s hw h
  rw [inbound_served h false p s hm (.inl hb) hw (.inr ho)
    (waiting_of_hs h (serve_regRead_hs h p _ hb) (by rw [hu, hw])), serve_regRead h p _ hb]
  rfl

/-- BAR0 write: the register's effect. -/
theorem mwr_bar0_ok (hb : p.bar = 0) : let r := regWrite (hostAcc s h p) (hostTook h true p s)
    r.1 = 0 → (hostOf r.2 h).waiting = [] → inbound h true p s = r.2 := by
  intro r h0 hr
  have hserve : hostServe h true p (hostTook h true p s) = r.2 := (serve_regWrite h p _ hb).trans (if_pos h0)
  rw [inbound_served h true p s hm (.inl hb) hw (.inl rfl) (by rw [hserve]; exact hr), hserve]

/-- BAR0 write that fails: LAST_ERR. -/
theorem mwr_bar0_bad (hb : p.bar = 0) : let r := regWrite (hostAcc s h p) (hostTook h true p s)
    r.1 ≠ 0 → (inbound h true p s).out = s.out ∧ hostOf (inbound h true p s) h =
      { hostOf s h with errValid := true, errCode := BitVec.ofNat 8 r.1, errAddr := w64 p.offset } := by
  intro r h0
  have hserve : hostServe h true p (hostTook h true p s) = postedError h 0 p.offset r.1 (hostTook h true p s) := by
    rw [serve_regWrite h p _ hb, hostAcc_took]
    refine (if_neg h0).trans ?_
    rw [regWrite_refused _ _ h0]
  have hhost : hostOf (postedError h 0 p.offset r.1 (hostTook h true p s)) h =
      { hostOf s h with errValid := true, errCode := BitVec.ofNat 8 r.1, errAddr := w64 p.offset } := by
    rw [hostOf_postedError, hostOf_took h true p s hw]
    simp
  rw [inbound_served h true p s hm (.inl hb) hw (.inl rfl) (by rw [hserve, hhost]; exact hw), hserve]
  exact ⟨rfl, hhost⟩

/-- BAR2 read of a word. -/
theorem mrd_bar2 (hb : p.bar = 2) (hl : p.length = 4) (ho : writesOut (hostOf s h) = false) :
    inbound h false p s =
      emit (.tlp h p.tag 0 (leBytes 4 (msixRead s h (p.offset / 4 * 4)).toNat)) (hostTook h false p s) := by
  have hserve := serve_msixRead h p (hostTook h false p s) hb hl
  have hu := hostOf_took h false p s hw h
  rw [inbound_served h false p s hm (.inr (.inl hb)) hw (.inr ho)
    (by rw [hserve]; exact (congrArg HostPort.waiting hu).trans hw), hserve]
  simp only [msixRead, msixWord, hu]

/-- BAR2 write of a word: past the table it changes nothing; in it the word, and the message of an unmasked vector. -/
theorem mwr_bar2 (hb : p.bar = 2) (hl : p.length = 4) :
    inbound h true p s = if p.offset / 4 < 128 then
      msixUnmask h (p.offset / 4 / 4) (msixPut h (p.offset / 4) (w32 (ofLe (p.data.take 4))) (hostTook h true p s))
      else hostTook h true p s := by
  have hserve := (serve_msixWrite h p (hostTook h true p s) hb hl).trans (msixWrite_eq h (p.offset / 4) _ _)
  have hu := (congrArg HostPort.waiting (hostOf_took h true p s hw h)).trans hw
  rw [inbound_served h true p s hm (.inr (.inl hb)) hw (.inl rfl) ?_, hserve]
  rw [hserve]
  split
  · rw [(msixUnmask_host _ _ _).2.2, msixPut, hostOf_modHost, if_pos rfl]
    exact hu
  · exact hu

/-- What the table write shows: the word, every other word as before, the message of a pending vector that is unmasked. -/
theorem mwr_bar2_word (hb : p.bar = 2) (hl : p.length = 4) (hk : p.offset / 4 < 128) :
    let k := p.offset / 4
    let t := inbound h true p s
    msixWord t h k = w32 (ofLe (p.data.take 4)) ∧ (∀ j, j ≠ k → msixWord t h j = msixWord s h j) ∧
      t.out = s.out ++ (if (hostOf s h).pendingBits.toNat.testBit (k / 4) = true ∧ msixMasked t h (k / 4) = false
        then [msixMsg t h (k / 4)] else []) := by
  intro k t
  have ht : t = msixUnmask h (k / 4) (msixPut h k (w32 (ofLe (p.data.take 4))) (hostTook h true p s)) :=
    (mwr_bar2 s h p hm hw hb hl).trans (if_pos hk)
  rw [ht]
  generalize hv : w32 (ofLe (p.data.take 4)) = v
  obtain ⟨hmsix, hpins, -⟩ := msixUnmask_host h (k / 4) (msixPut h k v (hostTook h true p s))
  have hword : ∀ j, msixWord (hostTook h true p s) h j = msixWord s h j := fun j => by
    unfold msixWord
    rw [hostOf_took h true p s hw]
  have hpend : (hostOf (msixPut h k v (hostTook h true p s)) h).pendingBits = (hostOf s h).pendingBits := by
    rw [msixPut, hostOf_modHost, if_pos rfl, hostOf_took h true p s hw]
  refine ⟨?_, fun j hj => ?_, ?_⟩
  · rw [msixWord_of_msix hmsix, msixWord_put, if_pos rfl]
  · rw [msixWord_of_msix hmsix, msixWord_put, if_neg hj, hword]
  · rw [msixUnmask_out, hpend, msixMasked_of_host hmsix hpins]
    simp only [msixMsg, msixWord_of_msix hmsix]
    rfl

/-- BAR4: what one granule does. -/
theorem inbound_bar4 (we : Bool) (hr : we = true ∨ writesOut (hostOf s h) = false) (hb : p.bar = 4) (hl : p.length ≠ 0)
    (hn : we = true → p.length ≤ inThisGranule (apertureAddr s h p.offset) p.length) : inbound h we p s =
    hostIssue h we p.tag p.offset p.length (if we then padTo p.length p.data else []) (hostTook h we p s) := by
  have hserve := serve_bulk h we p (hostTook h we p s) hb hl (by rw [apertureAddr_took]; exact hn)
  have hu := (congrArg HostPort.waiting (hostOf_took h we p s hw h)).trans hw
  rw [inbound_served h we p s hm (.inr (.inr hb)) hw hr (by rw [hserve, hostIssue_waiting, hu]), hserve]

/-- BAR4, an address that is not good for the context. -/
theorem inbound_bar4_bad (we : Bool) (hr : we = true ∨ writesOut (hostOf s h) = false) (hb : p.bar = 4) (hl : p.length ≠ 0)
    (hn : we = true → p.length ≤ inThisGranule (apertureAddr s h p.offset) p.length) :
    let code := addrStatus s (hostDie h) 5 (hostCtx s h) (apertureAddr s h p.offset)
    let t := inbound h we p s
    code ≠ 0 → t.nt = s.nt ∧ (we = false → t.out = s.out ++ [.tlp h p.tag (tlpStatus code) []]) ∧
      (we = true → hostOf t h = { hostOf s h with
        errValid := true, errCode := BitVec.ofNat 8 code, errAddr := w64 (p.offset + 2 ^ 63) }) := by
  intro code t hc
  have ht : t = if we then postedError h 4 p.offset code (hostTook h we p s) else cplError h p.tag code (hostTook h we p s) := by
    rw [← hostIssue_took_bad h we p (if we then padTo p.length p.data else []) s hc]
    exact inbound_bar4 s h p hm hw we hr hb hl hn
  rw [ht]
  cases we with
  | false => exact ⟨rfl, fun _ => rfl, fun he => by cases he⟩
  | true =>
    refine ⟨rfl, fun he => (by cases he), fun _ => ?_⟩
    have hbar : 4 / 2 * 2 ^ 62 = 2 ^ 63 := by norm_num
    rw [if_pos rfl, hostOf_postedError, hostOf_took h true p s hw, hbar]

/-- BAR4, a good address: one packet, and the request noted. -/
theorem inbound_bar4_good (we : Bool) (hr : we = true ∨ writesOut (hostOf s h) = false) (hb : p.bar = 4) (hl : p.length ≠ 0)
    (hn : we = true → p.length ≤ inThisGranule (apertureAddr s h p.offset) p.length) :
    let a := apertureAddr s h p.offset
    let x := hostOf s h
    let t := inbound h we p s
    addrStatus s (hostDie h) 5 (hostCtx s h) a = 0 → t.out = s.out ∧
      Sent s t (hostDie h) 5 10 (hostPacket s h we x.sseq a (inThisGranule a p.length) (if we then padTo p.length p.data else [])) ∧
      hostOf t h = { x with sseq := x.sseq + 1, sent := x.sent ++
        [{ sseq := x.sseq, tag := p.tag, we := we, offset := p.offset, left := p.length }] } := by
  intro a x t hc
  have ht : t = _ := (inbound_bar4 s h p hm hw we hr hb hl hn).trans (hostIssue_took_good h we p _ s hw hc)
  rw [ht]
  refine ⟨rfl, sendFrom_sent _ _ _ _ _ _ rfl rfl rfl, ?_⟩
  rw [hostOf_sendFrom, hostOf_modHost, if_pos rfl, hostOf_took h we p s hw]

end

/-! ### Link loss and resets (R459) -/

theorem hostDiscard_host (h y : Nat) (f : HostPort → HostPort) (s : State) :
    hostOf (hostDiscard h (modHost h f s)) y =
      if y = h then { f (hostOf s h) with waiting := [], sent := [] } else hostOf s y := by
  unfold hostDiscard
  by_cases hy : y = h
  · subst hy; simp
  · simp [hy]

end Sys2Proof.Machine
end

section
/-! SUPPORT. The laser modules (R460 to R464): what their operations leave of engines, links and fault bits (O56). -/
namespace Sys2Proof.Machine

/-! ### Fault bits and links -/

/-- A fault bit that shows stays when another is raised. -/
theorem shows_raise (die page b d p x : Nat) (ctx : Option Nat) (detail : Word) (s : State) (h : Shows s d p x) :
    Shows (raise die page b ctx detail s) d p x := by
  have hpages : ∀ f : Page → Page, (∀ q, (q.fault.toNat.testBit x = true → (f q).fault.toNat.testBit x = true)) →
      Shows (modPage die page f s) d p x := by
    intro f hf
    unfold Shows at h ⊢
    rw [pageOf_modPage]
    split
    · next hk => exact hf _ (by unfold pageOf at h ⊢; rwa [hk] at h)
    · exact h
  have hor : ∀ a c : Word, a.toNat.testBit x = true → (a ||| c).toNat.testBit x = true := fun a c ha => by
    simp [ha]
  have hsame : ∀ u v : State, v.rg.pages = u.rg.pages → Shows u d p x → Shows v d p x := fun u v hp hs => by
    unfold Shows pageOf at hs ⊢
    rwa [hp]
  unfold raise
  dsimp only
  split
  · exact hsame _ _ (doIf_same (fun t => t.rg.pages) _ _ _ fun _ => rfl) (hpages _ fun q hq => hor _ _ hq)
  · exact hsame _ _ (doIf_same (fun t => t.rg.pages) _ _ _ fun _ => rfl) (hpages _ fun q hq => hor _ _ hq)

/-- A LNK port of a die after a change of one of its LNK ports. -/
theorem linkOf_modLink (die l k : Nat) (f : Link → Link) (s : State) (hl : 16 ≤ l) (hk : 16 ≤ k) :
    linkOf (modLink die l f s) die k = if k = l then f (linkOf s die l) else linkOf s die k := by
  have hml : isMod l = false := by simp [isMod]; omega
  have hmk : isMod k = false := by simp [isMod]; omega
  have hport : linkPort die k = linkPort die l ↔ k = l := by
    unfold linkPort portOf
    omega
  simp only [linkOf, modLink, hml, hmk, Bool.false_eq_true, if_false, lnkOf_modLnk, hport]

theorem linkOf_of_lk {s t : State} (h : t.lk = s.lk) (die k : Nat) : linkOf t die k = linkOf s die k := by
  unfold linkOf lnkOf
  rw [h]

theorem engineOf_of_op {s t : State} (h : t.op = s.op) (die g : Nat) : engineOf t die g = engineOf s die g := by
  unfold engineOf
  rw [h]

theorem engineOf_modEngine_same (die g : Nat) (f : Engine → Engine) (s : State) :
    engineOf (modEngine die g f s) die g = f (engineOf s die g) := by simp

@[simp] theorem engineOf_emit (o : Output) (s : State) (die g : Nat) : engineOf (emit o s) die g = engineOf s die g := rfl

@[simp] theorem engineOf_laserOut (d j : Nat) (on : Bool) (s : State) (die g : Nat) :
    engineOf (laserOut d j on s) die g = engineOf s die g := rfl

@[simp] theorem engineOf_setShadowHours (d j hours : Nat) (key : DWord) (s : State) (die g : Nat) :
    engineOf (setShadowHours d j key hours s) die g = engineOf s die g := rfl

/-! ### A fault of a module -/

theorem optFault_shows (die g b : Nat) (s : State) (hb : b < 32) : Shows (optFault die g b s) die (optPage g) b :=
  raise_bit _ _ _ _ _ _ hb

theorem optFault_keeps_shows (die g b d p x : Nat) (s : State) (h : Shows s d p x) : Shows (optFault die g b s) d p x :=
  shows_raise _ _ _ _ _ _ _ _ _ h

theorem optFault_same (die g b : Nat) (s : State) (p : Part) (hp : p ∉ [Part.rg, .ft]) : p.same s (optFault die g b s) :=
  raise_same _ _ _ _ _ _ p hp

/-- A raising appends a record; the safe dies stay. -/
theorem raise_safeDies (die page b : Nat) (ctx : Option Nat) (detail : Word) (s : State) :
    (raise die page b ctx detail s).ft.safeDies = s.ft.safeDies := by
  unfold raise
  dsimp only
  split <;> exact doIf_same (fun t => t.ft.safeDies) _ _ _ fun _ => rfl

/-! ### Wear (R463) -/

/-- The first step of checkWear: WEAR, with its fault. -/
def wearStep (die g : Nat) (s : State) : State :=
  if (engineOf s die g).hours ≥ 576000 ∧ !(engineOf s die g).wear then
    optFault die g 0 (modEngine die g (fun e => { e with wear := true }) s) else s

/-- The second step: EOL, with its fault. -/
def eolStep (die g : Nat) (s : State) : State :=
  if (engineOf s die g).hours ≥ 640000 ∧ !(engineOf s die g).eol then
    optFault die g 1 (modEngine die g (fun e => { e with eol := true }) s) else s

theorem wearStep_engine (die g : Nat) (s : State) : engineOf (wearStep die g s) die g =
    { engineOf s die g with wear := (engineOf s die g).wear || decide (576000 ≤ (engineOf s die g).hours) } := by
  unfold wearStep
  generalize he : engineOf s die g = e
  by_cases hw : e.wear = true
  · simp [hw, he]
    rw [← hw]
  · by_cases hh : 576000 ≤ e.hours
    · rw [if_pos ⟨hh, by simp [hw]⟩, engineOf_of_op (optFault_same _ _ _ _ .op (by decide)), engineOf_modEngine_same, he]
      simp [hh]
    · rw [if_neg (fun h => hh h.1), he]
      simp [hh]

theorem eolStep_engine (die g : Nat) (s : State) : engineOf (eolStep die g s) die g =
    { engineOf s die g with eol := (engineOf s die g).eol || decide (640000 ≤ (engineOf s die g).hours) } := by
  unfold eolStep
  generalize he : engineOf s die g = e
  by_cases hw : e.eol = true
  · simp [hw, he]
    rw [← hw]
  · by_cases hh : 640000 ≤ e.hours
    · rw [if_pos ⟨hh, by simp [hw]⟩, engineOf_of_op (optFault_same _ _ _ _ .op (by decide)), engineOf_modEngine_same, he]
      simp [hh]
    · rw [if_neg (fun h => hh h.1), he]
      simp [hh]

theorem checkWear_eq (die g : Nat) (s : State) : checkWear die g s = eolStep die g (wearStep die g s) := by
  have h := wearStep_engine die g s
  have hh : (engineOf (wearStep die g s) die g).hours = (engineOf s die g).hours := by rw [h]
  have he : (engineOf (wearStep die g s) die g).eol = (engineOf s die g).eol := by rw [h]
  unfold eolStep
  rw [hh, he]
  rfl

theorem checkWear_engine (die g : Nat) (s : State) : engineOf (checkWear die g s) die g =
    { engineOf s die g with
      wear := (engineOf s die g).wear || decide (576000 ≤ (engineOf s die g).hours)
      eol := (engineOf s die g).eol || decide (640000 ≤ (engineOf s die g).hours) } := by
  rw [checkWear_eq, eolStep_engine, wearStep_engine]

theorem checkWear_same (die g : Nat) (s : State) (p : Part) (hp : p ∉ [Part.rg, .op, .ft]) : p.same s (checkWear die g s) :=
  same_of_clr _ _ _ (checkWear_clr _ rfl rfl rfl _ _ _) p hp

theorem eolStep_keeps_shows (die g d p x : Nat) (s : State) (h : Shows s d p x) : Shows (eolStep die g s) d p x := by
  unfold eolStep
  split
  · exact optFault_keeps_shows _ _ _ _ _ _ _ h
  · exact h

theorem checkWear_keeps_shows (die g d p x : Nat) (s : State) (h : Shows s d p x) : Shows (checkWear die g s) d p x := by
  rw [checkWear_eq]
  refine eolStep_keeps_shows _ _ _ _ _ _ ?_
  unfold wearStep
  split
  · exact optFault_keeps_shows _ _ _ _ _ _ _ h
  · exact h

/-- HOURS crosses 576,000: OPT_WEAR. -/
theorem checkWear_shows_wear (die g : Nat) (s : State) (hh : 576000 ≤ (engineOf s die g).hours) (hw : (engineOf s die g).wear = false) :
    Shows (checkWear die g s) die (optPage g) 0 := by
  rw [checkWear_eq]
  refine eolStep_keeps_shows _ _ _ _ _ _ ?_
  unfold wearStep
  rw [if_pos ⟨hh, by simp [hw]⟩]
  exact optFault_shows _ _ _ _ (by decide)

/-- HOURS crosses 640,000: OPT_EOL. -/
theorem checkWear_shows_eol (die g : Nat) (s : State) (hh : 640000 ≤ (engineOf s die g).hours) (hw : (engineOf s die g).eol = false) :
    Shows (checkWear die g s) die (optPage g) 1 := by
  have he := wearStep_engine die g s
  rw [checkWear_eq]
  unfold eolStep
  rw [if_pos ⟨by rw [he]; exact hh, by rw [he]; simp [hw]⟩]
  exact optFault_shows _ _ _ _ (by decide)

/-! ### The hour shadow (R462) -/

theorem shadowOf_setShadowHours (die g hours : Nat) (key : DWord) (s : State) :
    shadowOf (setShadowHours die g key hours s) die g = (key, hours) := by
  simp [shadowOf, setShadowHours]

theorem shadowOf_emit (o : Output) (s : State) (die g : Nat) : shadowOf (emit o s) die g = shadowOf s die g := rfl

theorem shadowOf_laserOut (d j : Nat) (on : Bool) (s : State) (die g : Nat) : shadowOf (laserOut d j on s) die g = shadowOf s die g := rfl

theorem shadowOf_of_kp {s t : State} (h : t.kp = s.kp) (die g : Nat) : shadowOf t die g = shadowOf s die g := by
  unfold shadowOf
  rw [h]

/-! ### The two ports of an engine -/

/-- The two ports of an engine are two LNK ports. -/
theorem mem_enginePorts (g l : Nat) : l ∈ enginePorts g ↔ l = 16 + 2 * g ∨ l = 17 + 2 * g := by
  simp [enginePorts]

/-- A change of the ports one by one, each by its own state, changes each as it was. -/
theorem linkOf_forEach_ports (die g : Nat) (step : Nat → State → State) (f : Nat → Link → Link) (s : State)
    (hs : ∀ l k u, 16 ≤ l → 16 ≤ k → k ≠ l → linkOf (step l u) die k = linkOf u die k)
    (hf : ∀ l ∈ enginePorts g, ∀ u, linkOf u die l = linkOf s die l → u.tm = s.tm → u.fw = s.fw →
      linkOf (step l u) die l = f l (linkOf s die l))
    (htm : ∀ l u, (step l u).tm = u.tm) (hfw : ∀ l u, (step l u).fw = u.fw) :
    ∀ l ∈ enginePorts g, linkOf (forEach (enginePorts g) step s) die l = f l (linkOf s die l) := by
  have hrun : forEach (enginePorts g) step s = step (17 + 2 * g) (step (16 + 2 * g) s) := rfl
  intro l hl
  rw [hrun]
  obtain rfl | rfl := (mem_enginePorts g l).mp hl
  · rw [hs _ _ _ (by omega) (by omega) (by omega)]
    exact hf _ hl s rfl rfl rfl
  · refine hf _ hl _ ?_ (htm _ _) (hfw _ _)
    exact hs _ _ _ (by omega) (by omega) (by omega)

/-! ### OPT_MODULE_DETECT (R460 to R462) -/

/-- The engine and the shadow after the record is read. -/
def detected (die g st hours : Nat) (key : DWord) (rc : List Byte) (s : State) : State :=
  laserOut die g (decide (st = 2)) (setShadowHours die g key hours (modEngine die g (fun e => { e with
    st := st, record := rc, hours := hours, ticks := 0, wear := false, eol := false, fails := 0, low0 := 0, low1 := 0,
    good0 := 0, good1 := 0 }) s))

/-- The ports of a module that is not on the accept list are off. -/
def unlistedPorts (die g : Nat) (s : State) : State :=
  optFault die g 3 (forEach (enginePorts g) (fun l s => modLink die l (fun x => { x with st := .off, step := 0, cause := 0x7E }) s) s)

/-- The ports of a listed module get their light. -/
def listedPorts (die g : Nat) (s : State) : State :=
  forEach (enginePorts g) (fun l s =>
    if (linkOf s die l).cause = 0x7E ∨ (linkOf s die l).cause = 0x7F ∨ (linkOf s die l).st = .off then relight die l s else s) s

/-- The state OPT_MODULE_DETECT leaves the engine in. -/
def detectSt (s : State) (die g : Nat) (rc : List Byte) : Nat :=
  if accepted s (moduleKey rc) = false then 1 else if rfld s die (optPage g) 0x100 0 0 = 1 then 2 else 3

/-- HOURS as read: the greater of store and shadow where the shadow holds the key. -/
def detectHours (s : State) (die g : Nat) (rc : List Byte) : Nat :=
  if (shadowOf s die g).1 = moduleKey rc then max (field rc 16 4) (shadowOf s die g).2 else field rc 16 4

theorem detect_eq (die g : Nat) (bytes : List Byte) (s : State) (he : isEngine die g = true) :
    let rc := padTo 32 bytes
    let u := detected die g (detectSt s die g rc) (detectHours s die g rc) (moduleKey rc) rc s
    detect die g bytes s = checkWear die g (if detectSt s die g rc = 1 then unlistedPorts die g u else listedPorts die g u) := by
  intro rc u
  have hst : (if (!accepted s (moduleKey rc)) = true then 1 else if rfld s die (optPage g) 0x100 0 0 = 1 then 2 else 3) =
      detectSt s die g rc := by
    unfold detectSt
    cases accepted s (moduleKey rc) <;> rfl
  unfold detect
  rw [if_neg (by simp [he])]
  dsimp only
  rw [hst]
  rfl

theorem detected_engine (die g st hours : Nat) (key : DWord) (rc : List Byte) (s : State) :
    engineOf (detected die g st hours key rc s) die g = { engineOf s die g with
      st := st, record := rc, hours := hours, ticks := 0, wear := false, eol := false, fails := 0, low0 := 0, low1 := 0,
      good0 := 0, good1 := 0 } := by
  unfold detected
  rw [engineOf_laserOut, engineOf_setShadowHours, engineOf_modEngine_same]

theorem detected_out (die g st hours : Nat) (key : DWord) (rc : List Byte) (s : State) :
    (detected die g st hours key rc s).out = s.out ++ [.laser die g (decide (st = 2))] := rfl

theorem listedPorts_same (die g : Nat) (s : State) (p : Part) (hp : p ∉ [Part.rg, .lk]) : p.same s (listedPorts die g s) := by
  refine same_of_clr [.rg, .lk] _ _ (forEach_clr _ _ _ _ fun l u => ?_) p hp
  split
  · exact relight_clr _ rfl rfl _ _ _
  · rfl

theorem unlistedPorts_same (die g : Nat) (s : State) (p : Part) (hp : p ∉ [Part.rg, .lk, .ft]) : p.same s (unlistedPorts die g s) :=
  same_of_clr [.rg, .lk, .ft] _ _ ((optFault_clr _ rfl rfl _ _ _ _).trans (forEach_clr _ _ _ _ fun _ _ => modLink_clr _ rfl _ _ _ _)) p hp

/-- Neither way of setting the ports changes engines, Keep or outputs. -/
theorem detectPorts_same (die g : Nat) (c : Prop) [Decidable c] (s : State) (p : Part) (hp : p ∉ [Part.rg, .lk, .ft]) :
    p.same s (if c then unlistedPorts die g s else listedPorts die g s) := by
  split
  · exact unlistedPorts_same die g s p hp
  · exact listedPorts_same die g s p (fun h => hp (by simp only [List.mem_cons, List.not_mem_nil, or_false] at h ⊢; tauto))

/-- The ports of an unlisted module are off. -/
theorem unlistedPorts_link (die g : Nat) (s : State) (l : Nat) (hl : l ∈ enginePorts g) :
    linkOf (unlistedPorts die g s) die l = { linkOf s die l with st := .off, step := 0, cause := 0x7E } := by
  unfold unlistedPorts
  rw [linkOf_of_lk (optFault_same _ _ _ _ .lk (by decide))]
  refine linkOf_forEach_ports die g _ (fun _ x => { x with st := .off, step := 0, cause := 0x7E }) s ?_ ?_ ?_ ?_ l hl
  · intro l k u hl hk hne
    rw [linkOf_modLink _ _ _ _ _ hl hk, if_neg hne]
  · intro l hl u hu _ _
    have h16 : 16 ≤ l := by
      obtain rfl | rfl := (mem_enginePorts g l).mp hl <;> omega
    rw [linkOf_modLink _ _ _ _ _ h16 h16, if_pos rfl, hu]
  · exact fun l u => same_of_clr [.lk] _ _ (modLink_clr _ rfl _ _ _ _) .tm (by decide)
  · exact fun l u => same_of_clr [.lk] _ _ (modLink_clr _ rfl _ _ _ _) .fw (by decide)

/-- What OPT_MODULE_DETECT leaves. -/
theorem detect_effect (die g : Nat) (bytes : List Byte) (s : State) (he : isEngine die g = true) :
    let rc := padTo 32 bytes
    let hours := detectHours s die g rc
    let st := detectSt s die g rc
    let t := detect die g bytes s
    engineOf t die g = { engineOf s die g with
      st := st, record := rc, hours := hours, ticks := 0, wear := decide (576000 ≤ hours), eol := decide (640000 ≤ hours), fails := 0,
      low0 := 0, low1 := 0, good0 := 0, good1 := 0 } ∧
    shadowOf t die g = (moduleKey rc, hours) ∧ t.out = s.out ++ [.laser die g (decide (st = 2))] ∧
    (st = 1 → Shows t die (optPage g) 3 ∧ ∀ l ∈ enginePorts g, (linkOf t die l).st = .off ∧ (linkOf t die l).cause = 0x7E) := by
  intro rc hours st t
  have ht : t = _ := detect_eq die g bytes s he
  have hports := detectPorts_same die g (st = 1) (detected die g st hours (moduleKey rc) rc s)
  refine ⟨?_, ?_, ?_, fun h1 => ?_⟩
  · rw [ht, checkWear_engine, engineOf_of_op (hports .op (by decide)), detected_engine]
    simp only [Bool.false_or, hours, st, rc]
  · rw [ht, shadowOf_of_kp (checkWear_same _ _ _ .kp (by decide)), shadowOf_of_kp (hports .kp (by decide))]
    rw [detected, shadowOf_laserOut, shadowOf_setShadowHours]
  · rw [ht, checkWear_same _ _ _ .out (by decide), hports .out (by decide), detected_out]
  · rw [ht, if_pos h1]
    refine ⟨checkWear_keeps_shows _ _ _ _ _ _ (optFault_shows _ _ _ _ (by decide)), fun l hl => ?_⟩
    rw [linkOf_of_lk (checkWear_same _ _ _ .lk (by decide)), unlistedPorts_link _ _ _ _ hl]
    exact ⟨rfl, rfl⟩

/-- OPT_MODULE_DETECT at an engine (R460 to R462). -/
theorem detect_settles (s : State) (die g : Nat) (bytes : List Byte) (he : isEngine die g = true) : let rc := padTo 32 bytes
      let sh := shadowOf s die g
      let hours := if sh.1 = moduleKey rc then max (field rc 16 4) sh.2 else field rc 16 4
      let st := if accepted s (moduleKey rc) = false then 1 else if rfld s die (optPage g) 0x100 0 0 = 1 then 2 else 3
      ∃ t, exec (.optModuleDetect die g bytes) s = .next t ∧ (engineOf t die g).st = st ∧ (engineOf t die g).record = rc ∧
        (engineOf t die g).hours = hours ∧ (engineOf t die g).wear = decide (576000 ≤ hours) ∧
        (engineOf t die g).eol = decide (640000 ≤ hours) ∧ shadowOf t die g = (moduleKey rc, hours) ∧
        (∃ o, t.out = s.out ++ .laser die g (decide (st = 2)) :: o) ∧
        (st = 1 → Shows t die (optPage g) 3 ∧ ∀ l ∈ enginePorts g, (linkOf t die l).st = .off ∧ (linkOf t die l).cause = 0x7E) := by
  intro rc sh hours st
  have hst : st = detectSt s die g rc := rfl
  have hhours : hours = detectHours s die g rc := rfl
  obtain ⟨heng, hshadow, hout, hoff⟩ := detect_effect die g bytes s he
  rw [hst, hhours]
  refine ⟨detect die g bytes s, rfl, ?_, ?_, ?_, ?_, ?_, hshadow, ⟨[], hout⟩, hoff⟩
  · rw [heng]
  · rw [heng]
  · rw [heng]
  · rw [heng]
  · rw [heng]

/-! ### LASER_HOUR_TICK (R462, R463) -/

/-- The hour counted, before wear is looked at. -/
def ticked (die g : Nat) (s : State) : State :=
  let e := engineOf s die g
  let u := setShadowHours die g (moduleKey e.record) (e.hours + 1)
    (modEngine die g (fun e => { e with hours := e.hours + 1, ticks := (e.ticks + 1) % 16 }) s)
  if e.ticks = 15 then emit (.moduleStore die g (e.hours + 1)) u else u

theorem hourTick_eq (die g : Nat) (s : State) (he : isEngine die g = true) (hst : (engineOf s die g).st = 2) :
    hourTick die g s = checkWear die g (ticked die g s) := by
  unfold hourTick
  rw [if_neg (by simp [he, hst])]
  rfl

theorem ticked_engine (die g : Nat) (s : State) : engineOf (ticked die g s) die g =
    { engineOf s die g with hours := (engineOf s die g).hours + 1, ticks := ((engineOf s die g).ticks + 1) % 16 } := by
  unfold ticked
  dsimp only
  split
  · rw [engineOf_emit, engineOf_setShadowHours, engineOf_modEngine_same]
  · rw [engineOf_setShadowHours, engineOf_modEngine_same]

theorem ticked_shadow (die g : Nat) (s : State) : shadowOf (ticked die g s) die g =
    (moduleKey (engineOf s die g).record, (engineOf s die g).hours + 1) := by
  unfold ticked
  dsimp only
  split
  · rw [shadowOf_emit, shadowOf_setShadowHours]
  · rw [shadowOf_setShadowHours]

theorem ticked_out (die g : Nat) (s : State) : (ticked die g s).out =
    s.out ++ (if (engineOf s die g).ticks = 15 then [.moduleStore die g ((engineOf s die g).hours + 1)] else []) := by
  unfold ticked
  dsimp only
  split
  · rfl
  · exact (List.append_nil _).symm

/-! ### A laser switched off (R464) -/

/-- A port of a laser that goes off is held, unless it is a Sundi port that is off. -/
def darkPort (die cause l : Nat) (s : State) : State :=
  if (linkOf s die l).st = .off ∧ isSundi die l then s
  else modLink die l (fun x => { x with st := .hold, cause := cause, since := waitPress s die }) s

theorem laserOff_eq (die g st cause : Nat) (s : State) : laserOff die g st cause s =
    forEach (enginePorts g) (darkPort die cause) (laserOut die g false (modEngine die g (fun e => { e with st := st }) s)) := rfl

theorem darkPorts_same (die g cause : Nat) (s : State) (p : Part) (hp : p ∉ [Part.lk]) :
    p.same s (forEach (enginePorts g) (darkPort die cause) s) := by
  refine same_of_clr [.lk] _ _ (forEach_clr _ _ _ _ fun l u => ?_) p hp
  unfold darkPort
  split
  · rfl
  · exact modLink_clr _ rfl _ _ _ _

theorem laserOff_engine (die g st cause : Nat) (s : State) :
    engineOf (laserOff die g st cause s) die g = { engineOf s die g with st := st } := by
  rw [laserOff_eq, engineOf_of_op (darkPorts_same _ _ _ _ .op (by decide)), engineOf_laserOut, engineOf_modEngine_same]

theorem laserOff_out (die g st cause : Nat) (s : State) : (laserOff die g st cause s).out = s.out ++ [.laser die g false] := by
  rw [laserOff_eq, darkPorts_same _ _ _ _ .out (by decide)]
  rfl

theorem laserOff_rg (die g st cause : Nat) (s : State) : (laserOff die g st cause s).rg = s.rg := by
  rw [laserOff_eq, darkPorts_same _ _ _ _ .rg (by decide)]
  rfl

/-- A port that was not off is held for the cause. -/
theorem laserOff_link (die g st cause : Nat) (s : State) (l : Nat) (hl : l ∈ enginePorts g) (hon : (linkOf s die l).st ≠ .off) :
    (linkOf (laserOff die g st cause s) die l).st = .hold ∧ (linkOf (laserOff die g st cause s) die l).cause = cause := by
  have hother : ∀ l k u, 16 ≤ l → 16 ≤ k → k ≠ l → linkOf (darkPort die cause l u) die k = linkOf u die k := by
    intro l k u hl hk hne
    unfold darkPort
    split
    · rfl
    · rw [linkOf_modLink _ _ _ _ _ hl hk, if_neg hne]
  have hheld : ∀ u, (linkOf u die l).st ≠ .off → (linkOf (darkPort die cause l u) die l).st = .hold ∧
      (linkOf (darkPort die cause l u) die l).cause = cause := by
    intro u hu
    have h16 : 16 ≤ l := by
      obtain rfl | rfl := (mem_enginePorts g l).mp hl <;> omega
    unfold darkPort
    rw [if_neg (fun h => hu h.1), linkOf_modLink _ _ _ _ _ h16 h16, if_pos rfl]
    exact ⟨rfl, rfl⟩
  rw [laserOff_eq]
  generalize hv : laserOut die g false (modEngine die g (fun e => { e with st := st }) s) = v
  have hlk : ∀ k, linkOf v die k = linkOf s die k := fun k => by rw [← hv]; rfl
  have hrun : forEach (enginePorts g) (darkPort die cause) v = darkPort die cause (17 + 2 * g) (darkPort die cause (16 + 2 * g) v) := rfl
  rw [hrun]
  obtain rfl | rfl := (mem_enginePorts g l).mp hl
  · rw [hother _ _ _ (by omega) (by omega) (by omega)]
    exact hheld _ (by rwa [hlk])
  · refine hheld _ ?_
    rwa [hother _ _ _ (by omega) (by omega) (by omega), hlk]

/-! ### Light again (R464) -/

theorem relight_same (die l : Nat) (s : State) (p : Part) (hp : p ∉ [Part.rg, .lk]) : p.same s (relight die l s) :=
  same_of_clr _ _ _ (relight_clr _ rfl rfl _ _ _) p hp

theorem modLink_same (die l : Nat) (f : Link → Link) (s : State) (p : Part) (hp : p ∉ [Part.lk]) : p.same s (modLink die l f s) :=
  same_of_clr _ _ _ (modLink_clr _ rfl _ _ _ _) p hp

/-- A retrain counts; registers and fault bits stay. -/
theorem retrain_regs (die l : Nat) (s : State) : (retrain die l s).rg.eff = s.rg.eff ∧ (retrain die l s).rg.pages = s.rg.pages := by
  unfold retrain
  split
  · exact ⟨rfl, rfl⟩
  · have h : ∀ f k, (addCount die (cntPage l) k 1 (modLink die l f s)).rg = (addCount die (cntPage l) k 1 s).rg := fun f k => by
      unfold addCount
      rw [modLink_same die l f s .rg (by decide)]
    dsimp only
    rw [h]
    exact ⟨rfl, rfl⟩

theorem relight_regs (die l : Nat) (s : State) : (relight die l s).rg.eff = s.rg.eff ∧ (relight die l s).rg.pages = s.rg.pages := by
  unfold relight
  split
  · obtain ⟨he, hp⟩ := retrain_regs die l (modLink die l (fun x => { x with cause := 0 }) s)
    rw [he, hp, modLink_same die l _ s .rg (by decide)]
    exact ⟨rfl, rfl⟩
  · rw [modLink_same die l _ s .rg (by decide)]
    exact ⟨rfl, rfl⟩

theorem linkOf_addCount (d p k n : Nat) (s : State) (die l : Nat) : linkOf (addCount d p k n s) die l = linkOf s die l := rfl

theorem relight_other (die l k : Nat) (s : State) (hl : 16 ≤ l) (hk : 16 ≤ k) (hne : k ≠ l) :
    linkOf (relight die l s) die k = linkOf s die k := by
  have hm : ∀ f u, linkOf (modLink die l f u) die k = linkOf u die k := fun f u => by
    rw [linkOf_modLink _ _ _ _ _ hl hk, if_neg hne]
  unfold relight retrain
  split
  · split
    · exact hm _ s
    · dsimp only
      rw [linkOf_addCount, hm, hm]
  · exact hm _ s

/-- A Sundi port that nothing keeps from it trains. -/
theorem relight_trains (die l : Nat) (s : State) (hs : isSundi die l = true) (hen : linkEnabled s die l = true)
    (hp : s.fw.inPause = false) (hn : notInService s die = false) (hpeer : (linkOf s die l).peerSafe = false) :
    (linkOf (relight die l s) die l).st = .training := by
  have hl : 16 ≤ l := by
    simp only [isSundi, Bool.and_eq_true, decide_eq_true_eq] at hs
    exact hs.1.1.1
  generalize hu : modLink die l (fun x => { x with cause := 0 }) s = u
  have hsame : ∀ p : Part, p ∉ [Part.lk] → p.same s u := fun p hp => by
    rw [← hu]
    exact modLink_same _ _ _ _ p hp
  have hgo : (!isLink die l || !linkEnabled u die l || u.fw.inPause || notInService u die ||
      (!isMod l && (linkOf u die l).peerSafe)) = false := by
    have h1 : isLink die l = true := by simp [isLink, hs]
    have h2 : linkEnabled u die l = true := by
      rw [← hen]
      unfold linkEnabled
      rw [rfld_of_eff (congrArg Regs.eff (hsame .rg (by decide)))]
    have h3 : u.fw.inPause = false := by
      rw [hsame .fw (by decide)]
      exact hp
    have h4 : notInService u die = false := by
      rw [← hn]
      unfold notInService
      rw [hsame .tm (by decide)]
    have h5 : (linkOf u die l).peerSafe = false := by
      rw [← hu, linkOf_modLink _ _ _ _ _ hl hl, if_pos rfl]
      exact hpeer
    simp [h1, h2, h3, h4, h5]
  unfold relight
  rw [if_pos hs, hu]
  unfold retrain
  rw [if_neg (by rw [hgo]; decide)]
  dsimp only
  rw [linkOf_addCount, linkOf_modLink _ _ _ _ _ hl hl, if_pos rfl]

/-! ### POWER_SAMPLE (R464) -/

/-- The engine after a sample of its port k. -/
def sampled (k p lim : Nat) (e : Engine) : Engine :=
  if k = 0 then { e with
    p0 := p, low0 := if p < lim then min 3 (e.low0 + 1) else 0, good0 := if p < lim then 0 else min 3 (e.good0 + 1) }
  else { e with
    p1 := p, low1 := if p < lim then min 3 (e.low1 + 1) else 0, good1 := if p < lim then 0 else min 3 (e.good1 + 1) }

def powerLim (s : State) (die g : Nat) : Nat := rfld s die (optPage g) 0x128 15 0

/-- The samples in a row below the limit, and at or above it, of a port. -/
def lowsOf (k : Nat) (e : Engine) : Nat := if k = 0 then e.low0 else e.low1
def goodsOf (k : Nat) (e : Engine) : Nat := if k = 0 then e.good0 else e.good1

/-- What a sample does to its port: held at the third low one, its light again at the third good one. -/
def portSampled (die g k p : Nat) (e : Engine) (s : State) : State :=
  if isSafe s die ∨ e.st = 1 then s
  else if p < powerLim s die g ∧ min 3 (lowsOf k e + 1) = 3 ∧ lowsOf k e < 3 then
    optFault die g 2 (modLink die (16 + 2 * g + k) (fun x => { x with st := .hold, cause := 0x7D, since := waitPress s die }) s)
  else if ¬ p < powerLim s die g ∧ min 3 (goodsOf k e + 1) = 3 ∧ (linkOf s die (16 + 2 * g + k)).st = .hold ∧
      (linkOf s die (16 + 2 * g + k)).cause = 0x7D then relight die (16 + 2 * g + k) s
  else s

theorem modEngine_congr (die g : Nat) (f f' : Engine → Engine) (s : State) (h : f (engineOf s die g) = f' (engineOf s die g)) :
    modEngine die g f s = modEngine die g f' s := by
  unfold engineOf at h
  unfold modEngine upd
  rw [h]

theorem powerOf_eq (die g k p : Nat) (s : State) : powerOf die g k p s =
    portSampled die g k p (engineOf s die g) (modEngine die g (sampled k p (powerLim s die g)) s) := by
  unfold powerOf
  dsimp only
  rw [modEngine_congr die g _ (sampled k p (powerLim s die g)) s]
  · by_cases hlow : p < powerLim s die g
    · have hl' : p < rfld s die (optPage g) 0x128 15 0 := hlow
      have hu : p < powerLim (modEngine die g (sampled k p (powerLim s die g)) s) die g := hlow
      simp only [portSampled, hl', hu, decide_true, if_true, true_and, not_true_eq_false, false_and, if_false, lowsOf,
        Bool.not_true, Bool.false_eq_true]
    · have hl' : ¬ p < rfld s die (optPage g) 0x128 15 0 := hlow
      have hu : ¬ p < powerLim (modEngine die g (sampled k p (powerLim s die g)) s) die g := hlow
      simp only [portSampled, hl', hu, decide_false, true_and, not_false_eq_true, false_and, if_false, goodsOf,
        Bool.not_false, Bool.false_eq_true]
  · unfold sampled powerLim
    by_cases hk : k = 0 <;> by_cases hlow : p < rfld s die (optPage g) 0x128 15 0 <;> simp [hk, hlow]

theorem portSampled_same (die g k p : Nat) (e : Engine) (s : State) (q : Part) (hq : q ∉ [Part.rg, .lk, .ft]) :
    q.same s (portSampled die g k p e s) := by
  refine same_of_clr [.rg, .lk, .ft] _ _ ?_ q hq
  unfold portSampled
  split
  · rfl
  · split
    · exact (optFault_clr _ rfl rfl _ _ _ _).trans (modLink_clr _ rfl _ _ _ _)
    · split
      · exact relight_clr _ rfl rfl _ _ _
      · rfl

/-- A sample leaves the registers in effect, the fault bits that show, and the safe dies. -/
theorem portSampled_keeps (die g k p : Nat) (e : Engine) (s : State) : (portSampled die g k p e s).rg.eff = s.rg.eff ∧
    (∀ d q b, Shows s d q b → Shows (portSampled die g k p e s) d q b) ∧ (portSampled die g k p e s).ft.safeDies = s.ft.safeDies := by
  have hm : ∀ f, (modLink die (16 + 2 * g + k) f s).rg = s.rg ∧ (modLink die (16 + 2 * g + k) f s).ft = s.ft := fun f =>
    ⟨modLink_same _ _ _ _ .rg (by decide), modLink_same _ _ _ _ .ft (by decide)⟩
  unfold portSampled
  split
  · exact ⟨rfl, fun _ _ _ h => h, rfl⟩
  · split
    · refine ⟨?_, fun d q b h => optFault_keeps_shows _ _ _ _ _ _ _ ?_, ?_⟩
      · rw [optFault, raise_eff, (hm _).1]
      · exact shows_of_pages (congrArg Regs.pages (hm _).1) d q b h
      · rw [optFault, raise_safeDies, (hm _).2]
    · split
      · obtain ⟨he, hp⟩ := relight_regs die (16 + 2 * g + k) s
        exact ⟨he, fun d q b h => shows_of_pages hp d q b h, congrArg Faults.safeDies (relight_same _ _ _ .ft (by decide))⟩
      · exact ⟨rfl, fun _ _ _ h => h, rfl⟩

theorem portSampled_other (die g k p l : Nat) (e : Engine) (s : State) (hl : 16 ≤ l) (hne : l ≠ 16 + 2 * g + k) :
    linkOf (portSampled die g k p e s) die l = linkOf s die l := by
  unfold portSampled
  split
  · rfl
  · split
    · rw [linkOf_of_lk (optFault_same _ _ _ _ .lk (by decide)), linkOf_modLink _ _ _ _ _ (by omega) hl, if_neg hne]
    · split
      · exact relight_other _ _ _ _ (by omega) hl hne
      · rfl

/-- The third low sample holds the port. -/
theorem portSampled_holds (die g k p : Nat) (e : Engine) (s : State) (hsafe : isSafe s die = false) (hst : e.st ≠ 1)
    (hp : p < powerLim s die g) (hlow : lowsOf k e = 2) : let t := portSampled die g k p e s
    (linkOf t die (16 + 2 * g + k)).st = .hold ∧ (linkOf t die (16 + 2 * g + k)).cause = 0x7D ∧ Shows t die (optPage g) 2 := by
  intro t
  have h16 : 16 ≤ 16 + 2 * g + k := by omega
  have ht : t = optFault die g 2
      (modLink die (16 + 2 * g + k) (fun x => { x with st := .hold, cause := 0x7D, since := waitPress s die }) s) :=
    (if_neg (by simp [hsafe, hst])).trans (if_pos ⟨hp, by rw [hlow]; rfl, by rw [hlow]; decide⟩)
  rw [ht]
  refine ⟨?_, ?_, optFault_shows _ _ _ _ (by decide)⟩
  · rw [linkOf_of_lk (optFault_same _ _ _ _ .lk (by decide)), linkOf_modLink _ _ _ _ _ h16 h16, if_pos rfl]
  · rw [linkOf_of_lk (optFault_same _ _ _ _ .lk (by decide)), linkOf_modLink _ _ _ _ _ h16 h16, if_pos rfl]

/-- The third good sample has a held port train. -/
theorem portSampled_trains (die g k p : Nat) (e : Engine) (s : State) (hsafe : isSafe s die = false) (hst : e.st ≠ 1)
    (hp : powerLim s die g ≤ p) (hgood : goodsOf k e = 2) (hs : isSundi die (16 + 2 * g + k) = true)
    (hen : linkEnabled s die (16 + 2 * g + k) = true) (hpause : s.fw.inPause = false) (hn : notInService s die = false)
    (hpeer : (linkOf s die (16 + 2 * g + k)).peerSafe = false) (hh : (linkOf s die (16 + 2 * g + k)).st = .hold)
    (hc : (linkOf s die (16 + 2 * g + k)).cause = 0x7D) :
    (linkOf (portSampled die g k p e s) die (16 + 2 * g + k)).st = .training := by
  have ht : portSampled die g k p e s = relight die (16 + 2 * g + k) s :=
    (if_neg (by simp [hsafe, hst])).trans ((if_neg (by omega)).trans (if_pos ⟨by omega, by rw [hgood]; rfl, hh, hc⟩))
  rw [ht]
  exact relight_trains die _ s hs hen hpause hn hpeer

theorem powerOf_engine (die g k p : Nat) (s : State) :
    engineOf (powerOf die g k p s) die g = sampled k p (powerLim s die g) (engineOf s die g) := by
  rw [powerOf_eq, engineOf_of_op (portSampled_same _ _ _ _ _ _ .op (by decide)), engineOf_modEngine_same]

theorem powerLim_of_eff {s t : State} (h : t.rg.eff = s.rg.eff) (die g : Nat) : powerLim t die g = powerLim s die g := by
  unfold powerLim
  rw [rfld_of_eff h]

theorem isSafe_of_ft {s t : State} (h : t.ft.safeDies = s.ft.safeDies) (die : Nat) : isSafe t die = isSafe s die := by
  unfold isSafe
  rw [h]

/-- A good transaction: both ports are sampled, one after the other. -/
def bothSampled (die g p0 p1 : Nat) (s : State) : State :=
  powerOf die g 1 (p1 % 65536) (powerOf die g 0 (p0 % 65536) (modEngine die g (fun e => { e with fails := 0 }) s))

theorem bothSampled_engine (die g p0 p1 : Nat) (s : State) : engineOf (bothSampled die g p0 p1 s) die g =
    sampled 1 (p1 % 65536) (powerLim s die g) (sampled 0 (p0 % 65536) (powerLim s die g) { engineOf s die g with fails := 0 }) := by
  have hlim : powerLim (powerOf die g 0 (p0 % 65536) (modEngine die g (fun e => { e with fails := 0 }) s)) die g = powerLim s die g := by
    rw [powerOf_eq, powerLim_of_eff (portSampled_keeps _ _ _ _ _ _).1]
    rfl
  rw [bothSampled, powerOf_engine, powerOf_engine, hlim, engineOf_modEngine_same]
  rfl

/-- Port 0 of the engine after both samples is as after its own. -/
theorem bothSampled_port0 (die g p0 p1 : Nat) (s : State) : ∃ u, u.lk = s.lk ∧ u.rg = s.rg ∧ u.ft = s.ft ∧ u.fw = s.fw ∧ u.tm = s.tm ∧
    let e := { engineOf s die g with fails := 0 }
    let v := portSampled die g 0 (p0 % 65536) e u
    linkOf (bothSampled die g p0 p1 s) die (16 + 2 * g) = linkOf v die (16 + 2 * g) ∧
      ∀ d q b, Shows v d q b → Shows (bothSampled die g p0 p1 s) d q b := by
  refine ⟨modEngine die g (sampled 0 (p0 % 65536) (powerLim s die g)) (modEngine die g (fun e => { e with fails := 0 }) s),
    rfl, rfl, rfl, rfl, rfl, ?_⟩
  intro e v
  have h0 : powerOf die g 0 (p0 % 65536) (modEngine die g (fun e => { e with fails := 0 }) s) = v := by
    rw [powerOf_eq, engineOf_modEngine_same]
    rfl
  unfold bothSampled
  rw [h0, powerOf_eq]
  refine ⟨?_, fun d q b h => (portSampled_keeps _ _ _ _ _ _).2.1 d q b h⟩
  rw [portSampled_other _ _ _ _ _ _ _ (by omega) (by omega)]
  rfl

/-- Port 1 of the engine after both samples. -/
theorem bothSampled_port1 (die g p0 p1 : Nat) (s : State) : ∃ u, u.rg.eff = s.rg.eff ∧ u.ft.safeDies = s.ft.safeDies ∧
    ∃ e : Engine, e.st = (engineOf s die g).st ∧ e.low1 = (engineOf s die g).low1 ∧
      bothSampled die g p0 p1 s = portSampled die g 1 (p1 % 65536) e u := by
  have hv := powerOf_eq die g 0 (p0 % 65536) (modEngine die g (fun e => { e with fails := 0 }) s)
  have he := powerOf_engine die g 0 (p0 % 65536) (modEngine die g (fun e => { e with fails := 0 }) s)
  generalize hw : powerOf die g 0 (p0 % 65536) (modEngine die g (fun e => { e with fails := 0 }) s) = w at hv he
  obtain ⟨heff, -, hsafe⟩ := portSampled_keeps die g 0 (p0 % 65536) (engineOf (modEngine die g (fun e => { e with fails := 0 }) s) die g)
    (modEngine die g (sampled 0 (p0 % 65536) (powerLim (modEngine die g (fun e => { e with fails := 0 }) s) die g))
      (modEngine die g (fun e => { e with fails := 0 }) s))
  rw [← hv] at heff hsafe
  rw [engineOf_modEngine_same] at he
  refine ⟨modEngine die g (sampled 1 (p1 % 65536) (powerLim w die g)) w, heff, hsafe, engineOf w die g, ?_, ?_, ?_⟩
  · rw [he]
    rfl
  · rw [he]
    rfl
  · unfold bothSampled
    rw [hw, powerOf_eq]

theorem powerSample_ok (die g p0 p1 : Nat) (s : State) (he : isEngine die g = true) (hst : (engineOf s die g).st ≠ 0) :
    powerSample die g true p0 p1 s = bothSampled die g p0 p1 s := by
  unfold powerSample
  rw [if_neg (by simp [he, hst])]
  rfl

theorem powerSample_failed (die g p0 p1 : Nat) (s : State) (he : isEngine die g = true) (hst : (engineOf s die g).st ≠ 0) :
    powerSample die g false p0 p1 s =
      (let u := modEngine die g (fun e => { e with fails := min 3 ((engineOf s die g).fails + 1) }) s
       if (engineOf s die g).fails + 1 = 3 then optFault die g 4 (laserOff die g 4 0x7F u) else u) := by
  unfold powerSample
  rw [if_neg (by simp [he, hst])]
  rfl

/-! ### OPT_CTRL (R461) -/

/-- STATE after a write of POWER_EN. -/
def ctrlSt (v : Word) (st : Nat) : Nat :=
  if v.toNat.testBit 0 = false ∧ st = 2 then 3 else if v.toNat.testBit 0 = true ∧ st = 3 then 2 else st

theorem optCtrl_engine (die g : Nat) (v : Word) (s : State) :
    engineOf (optCtrl die g v s) die g = { engineOf s die g with st := ctrlSt v (engineOf s die g).st } := by
  have hset : engineOf (setReg die (optPage g) 0x100 0 (v &&& 1) s) die g = engineOf s die g := rfl
  unfold optCtrl ctrlSt
  dsimp only
  rw [hset]
  by_cases hoff : v.toNat.testBit 0 = false ∧ (engineOf s die g).st = 2
  · rw [if_pos (by simpa using hoff), if_pos hoff, laserOff_engine, hset]
  · rw [if_neg (by simpa using hoff), if_neg hoff]
    by_cases hon : v.toNat.testBit 0 = true ∧ (engineOf s die g).st = 3
    · rw [if_pos hon, if_pos hon]
      rw [engineOf_of_op (same_of_clr [.rg, .lk] _ _ (forEach_clr _ _ _ _ fun l u => relight_clr _ rfl rfl _ _ _) .op (by decide)),
        engineOf_laserOut, engineOf_modEngine_same, hset]
    · rw [if_neg hon, if_neg hon, hset]

theorem optCtrl_eff (die g : Nat) (v : Word) (s : State) :
    (optCtrl die g v s).rg.eff = (setReg die (optPage g) 0x100 0 (v &&& 1) s).rg.eff := by
  unfold optCtrl
  dsimp only
  split
  · rw [laserOff_rg]
  · split
    · exact forEach_same (fun t => t.rg.eff) _ _ _ fun l u => (relight_regs die l u).1
    · rfl

theorem optCtrl_kp (die g : Nat) (v : Word) (s : State) : (optCtrl die g v s).kp = s.kp :=
  same_of_clr [.rg, .lk, .op, .out] _ _ (optCtrl_clr _ rfl rfl rfl rfl _ _ _ _) .kp (by decide)

/-- OPT_MODULE_DETECT changes no register in effect. -/
theorem detect_eff (die g : Nat) (bytes : List Byte) (s : State) (he : isEngine die g = true) :
    (detect die g bytes s).rg.eff = s.rg.eff := by
  have hwear : ∀ u, (wearStep die g u).rg.eff = u.rg.eff := fun u => by
    unfold wearStep
    split
    · exact raise_eff _ _ _ _ _ _
    · rfl
  have heol : ∀ u, (eolStep die g u).rg.eff = u.rg.eff := fun u => by
    unfold eolStep
    split
    · exact raise_eff _ _ _ _ _ _
    · rfl
  have hlisted : ∀ u, (listedPorts die g u).rg.eff = u.rg.eff := fun u =>
    forEach_same (fun t => t.rg.eff) _ _ _ fun l w => by
      split
      · exact (relight_regs die l w).1
      · rfl
  have hunlisted : ∀ u, (unlistedPorts die g u).rg.eff = u.rg.eff := fun u =>
    (raise_eff _ _ _ _ _ _).trans (forEach_same (fun t => t.rg.eff) _ _ _ fun l w =>
      congrArg Regs.eff (modLink_same _ _ _ _ .rg (by decide)))
  rw [detect_eq die g bytes s he, checkWear_eq, heol, hwear]
  split
  · rw [hunlisted]
    rfl
  · rw [hlisted]
    rfl

theorem tilePage_not_opt (die t j : Nat) (i : PageInfo) (h : tilePage die t j = some i) : i.kind ≠ .opt := by
  unfold tilePage at h
  repeat' split at h
  all_goals cases h
  all_goals simp

/-- The pages of laser modules are those of the engines of I/O dies. -/
theorem pageInfo_opt (die page : Nat) (i : PageInfo) (h : pageInfo die page = some i) (hk : i.kind = .opt) :
    page = optPage i.inst ∧ isEngine die i.inst = true := by
  have hne : ∀ j : PageInfo, j.kind ≠ .opt → some j ≠ some i := by
    rintro j hj ⟨⟩
    exact hj hk
  have hskip : ∀ (c : Prop) [Decidable c] (j : PageInfo) (b : Option PageInfo),
      (if c then some j else b) = some i → j.kind ≠ .opt → b = some i := by
    intro c _ j b hi hj
    obtain ⟨-, h⟩ | ⟨-, h⟩ := ite_eq_iff.mp hi
    · exact absurd h (hne j hj)
    · exact h
  unfold pageInfo at h
  obtain ⟨-, h⟩ | ⟨-, h⟩ := ite_eq_iff.mp h
  · cases h
  have h := hskip _ _ _ (hskip _ _ _ (hskip _ _ _ h (by decide)) (by decide)) (by simp)
  obtain ⟨-, h⟩ | ⟨-, h⟩ := ite_eq_iff.mp h
  · exact absurd hk (tilePage_not_opt _ _ _ _ h)
  obtain ⟨-, h⟩ | ⟨-, h⟩ := ite_eq_iff.mp h
  · obtain ⟨-, h⟩ | ⟨-, h⟩ := ite_eq_iff.mp h
    · split at h
      case h_4 => cases h
      all_goals exact absurd h (hne _ (by simp))
    · cases h
  cases hd : dieType die with
  | compute => rw [hd] at h; cases h
  | memside =>
    rw [hd] at h
    cases hskip _ _ _ (hskip _ _ _ (hskip _ _ _ h (by decide)) (by decide)) (by decide)
  | io =>
    rw [hd] at h
    have h := hskip _ _ _ h (by split <;> simp)
    obtain ⟨hp, h⟩ | ⟨-, h⟩ := ite_eq_iff.mp h
    · cases h
      refine ⟨?_, by simp [isEngine, hd]; omega⟩
      simp only [optPage]
      omega
    have h := hskip _ _ _ (hskip _ _ _ h (by decide)) (by decide)
    obtain ⟨-, h⟩ | ⟨-, h⟩ := ite_eq_iff.mp h
    · split at h
      case h_10 => cases h
      all_goals exact absurd h (hne _ (by decide))
    · cases h

end Sys2Proof.Machine
end

section
/-! SUPPORT. What hosts and laser modules are asked, clause by clause (O56). -/
namespace Sys2Proof.Machine

theorem accepted_of_kp {s t : State} (h : t.kp = s.kp) (key : DWord) : accepted t key = accepted s key := by
  unfold accepted
  rw [h]

/-- A write of OPT_CTRL. -/
def optWritten (die g : Nat) (v : Word) (s : State) : State := doIf (v.toNat.testBit 1) (rescan die g) (optCtrl die g v s)

theorem optWritten_plain (die g : Nat) (v : Word) (s : State) (h : v.toNat.testBit 1 = false) :
    optWritten die g v s = optCtrl die g v s := by
  unfold optWritten
  rw [h, doIf_false]

/-- RESCAN of a module that is there reads it again. -/
theorem optWritten_rescan (die g : Nat) (v : Word) (s : State) (h : v.toNat.testBit 1 = true) (hst : (engineOf s die g).st ≠ 0) :
    optWritten die g v s = detect die g (engineOf s die g).record (optCtrl die g v s) := by
  have hc : ctrlSt v (engineOf s die g).st ≠ 0 := by
    unfold ctrlSt
    split
    · decide
    · split
      · decide
      · exact hst
  unfold optWritten rescan
  rw [h, doIf_true]
  dsimp only
  rw [optCtrl_engine]
  exact if_neg hc

/-- The register takes POWER_EN. -/
theorem optWritten_eff (die g : Nat) (v : Word) (s : State) (he : isEngine die g = true) :
    (optWritten die g v s).rg.eff = (setReg die (optPage g) 0x100 0 (v &&& 1) s).rg.eff := by
  rw [← optCtrl_eff]
  unfold optWritten
  cases v.toNat.testBit 1 with
  | false => rfl
  | true =>
    rw [doIf_true]
    unfold rescan
    dsimp only
    split
    · rfl
    · exact detect_eff die g _ _ he

theorem reg_optWritten (die g : Nat) (v : Word) (s : State) (he : isEngine die g = true) :
    reg (optWritten die g v s) die (optPage g) 0x100 = v &&& 1 := by
  rw [reg_of_eff (optWritten_eff die g v s he), reg_setReg_same]

/-- POWER_EN as OPT_MODULE_DETECT reads it after the write. -/
theorem power_en_written (die g : Nat) (v : Word) (s : State) :
    rfld (optCtrl die g v s) die (optPage g) 0x100 0 0 = 1 ↔ v.toNat.testBit 0 = true := by
  rw [rfld_of_eff (optCtrl_eff die g v s)]
  unfold rfld wbits bits
  rw [reg_setReg_same]
  simp [Nat.testBit_zero]

/-- The write of OPT_CTRL that a master makes. -/
theorem optRescan_eq (s : State) (m : Master) (die page : Nat) (v : Word) (i : PageInfo) (row : RegRow)
    (hw : Writes s m die page 0x100 v i row) (hk : i.kind = .opt) :
    exec (.optRescan m die page v) s = .next (emit (.regDone m 0 0) (optWritten die i.inst v s)) := by
  have htaken := writeOf_taken s m die page 0x100 v i row hw
  obtain ⟨-, -, -, hrow, -⟩ := hw
  have hfind : findRow .opt 0x100 = some row := hk ▸ findRow_of_rowAt hrow
  cases hfind
  have hhigh : isHigh i 0x100 = false := by
    unfold isHigh
    rw [hk]
    rfl
  rw [writeRow_single _ _ _ _ _ _ _ hhigh rfl] at htaken
  refine congrArg Host.Outcome.next (htaken.trans (congrArg (emit _) ?_))
  unfold writeEffect
  rw [if_neg (by decide), hk]
  dsimp only
  unfold ioWrite
  rw [hk]
  rfl

/-- A disabled adapter takes nothing (log 6). -/
theorem disabled_adapter_idle : ∀ (s : State) (h tag : Nat) (p : Tlp) (b : Bool), masterOn s (.host h) = false →
    exec (.mrd h p) s = .next s ∧ exec (.mwr h p) s = .next s ∧ exec (.unsupportedTlp h tag b) s = .next s := by
  intro s h tag p b hm
  have hin : ∀ we, inbound h we p s = s := fun we => by simp [inbound, hm]
  exact ⟨congrArg Host.Outcome.next (hin false), congrArg Host.Outcome.next (hin true),
    congrArg Host.Outcome.next (by simp [otherTlp, hm])⟩

/-- A TLP of another BAR or type (R455). -/
theorem unsupported_tlp_answered : ∀ (s : State) (h tag : Nat) (p : Tlp) (b : Bool), masterOn s (.host h) = true → p.bar ≠ 0 → p.bar ≠ 2 → p.bar ≠ 4 → ∀ c g np,
    (c = .unsupportedTlp h tag b ∧ g = tag ∧ np = b) ∨ (c = .mrd h p ∧ g = p.tag ∧ np = true) ∨ (c = .mwr h p ∧ g = p.tag ∧ np = false) →
      ∃ t, exec c s = .next t ∧ ChangesOnly [.rg, .out] s t ∧ countOf t (hostDie h) 0x718 0 = countOf s (hostDie h) 0x718 0 + 1 ∧
        (np = true → t.out = s.out ++ [.tlp h g 1 []] ∧ countOf t (hostDie h) 0x718 1 = countOf s (hostDie h) 0x718 1 + 1) ∧
        (np = false → t.out = s.out ∧ countOf t (hostDie h) 0x718 5 = countOf s (hostDie h) 0x718 5 + 1) := by
  intro s h tag p b hm h0 h2 h4 c g np hc
  have hbad : exec c s = .next (badTlp h g np (hostCount h 0 s)) := by
    have hin : ∀ we, inbound h we p s = badTlp h p.tag (!we) (hostCount h 0 s) := fun we => by
      simp [inbound, hm, h0, h2, h4]
    obtain ⟨rfl, rfl, rfl⟩ | ⟨rfl, rfl, rfl⟩ | ⟨rfl, rfl, rfl⟩ := hc
    · exact congrArg Host.Outcome.next (by simp [otherTlp, hm])
    · exact congrArg Host.Outcome.next (hin false)
    · exact congrArg Host.Outcome.next (hin true)
  exact ⟨_, hbad, badTlp_effect h g np s _ rfl⟩

/-- A TLP of BAR0, BAR2 or BAR4 (R455 to R457). -/
theorem bar_access_served : ∀ (s : State) (h : Nat) (p : Tlp) (we : Bool), masterOn s (.host h) = true → p.bar = 0 ∨ p.bar = 2 ∨ p.bar = 4 →
    let c : Instr := if we then .mwr h p else .mrd h p
    let x := hostOf s h
    let w := x.waiting ++ [(we, p)]
    (∀ y r, w = (false, y) :: r → writesOut x = true →
      ∃ t, exec c s = .next t ∧ ChangesOnly [.rg, .hs] s t ∧ hostOf t h = { x with waiting := w }) ∧
    (x.waiting = [] → we = true ∨ writesOut x = false →
      ∃ u, ChangesOnly [.rg, .hs] s u ∧ (∀ y, hostOf u y = hostOf s y) ∧ (∀ d g o k, reg u d g o k = reg s d g o k) ∧
        countOf u (hostDie h) 0x718 0 = countOf s (hostDie h) 0x718 0 + 1 ∧
        (p.bar = 0 → we = false → let r := regRead (hostAcc s h p) u
          (r.1 = 0 → exec c s = .next (emit (.tlp h p.tag 0 (leBytes 4 r.2.1.toNat)) r.2.2)) ∧
          (r.1 ≠ 0 → exec c s = .next (emit (.tlp h p.tag (tlpStatus r.1) []) (hostCount h (tlpStatus r.1) u)))) ∧
        (p.bar = 0 → we = true → let r := regWrite (hostAcc s h p) u
          (r.1 = 0 → (hostOf r.2 h).waiting = [] → exec c s = .next r.2) ∧
          (r.1 ≠ 0 → ∃ t, exec c s = .next t ∧ t.out = s.out ∧ hostOf t h = { x with errValid := true, errCode := BitVec.ofNat 8 r.1, errAddr := w64 p.offset })) ∧
        (p.bar = 2 → p.length = 4 → we = false →
          exec c s = .next (emit (.tlp h p.tag 0 (leBytes 4 (msixRead s h (p.offset / 4 * 4)).toNat)) u)) ∧
        (p.bar = 2 → p.length = 4 → we = true → let k := p.offset / 4
          (128 ≤ k → exec c s = .next u) ∧
          (k < 128 → ∃ t, exec c s = .next t ∧ msixWord t h k = w32 (ofLe (p.data.take 4)) ∧ (∀ j, j ≠ k → msixWord t h j = msixWord s h j) ∧
            let sends := x.pendingBits.toNat.testBit (k / 4) = true ∧ msixMasked t h (k / 4) = false
            t.out = s.out ++ (if sends then [.msix h (k / 4) (pair64 (msixWord t h (k / 4 * 4)) (msixWord t h (k / 4 * 4 + 1)))
              (msixWord t h (k / 4 * 4 + 2))] else []))) ∧
        (p.bar = 4 → p.length ≠ 0 → let a := apertureAddr s h p.offset
          let n := inThisGranule a p.length
          let code := addrStatus s (hostDie h) 5 (hostCtx s h) a
          (we = true → p.length ≤ n) →
          (code ≠ 0 → ∃ t, exec c s = .next t ∧ t.nt = s.nt ∧
            (we = false → t.out = s.out ++ [.tlp h p.tag (tlpStatus code) []]) ∧
            (we = true → hostOf t h = { x with errValid := true, errCode := BitVec.ofNat 8 code, errAddr := w64 (p.offset + 2 ^ 63) })) ∧
          (code = 0 → ∃ t, exec c s = .next t ∧ t.out = s.out ∧
            Sent s t (hostDie h) 5 10 (hostPacket s h we x.sseq a n (if we then padTo p.length p.data else [])) ∧
            let r : HostReq := { sseq := x.sseq, tag := p.tag, we := we, offset := p.offset, left := p.length }
            hostOf t h = { x with sseq := x.sseq + 1, sent := x.sent ++ [r] }))) := by
  intro s h p we hm hb
  refine ⟨fun y r hw ho => ?_, fun hw hr => ?_⟩
  · refine ⟨hostQueued h we p s, ?_, ?_, hostOf_queued h we p s⟩
    · rw [exec_tlp, inbound_queued h we p s hm hb, hostRun_waits h y r _ ((congrArg HostPort.waiting (hostOf_queued h we p s)).trans hw)
        ((congrArg writesOut (hostOf_queued h we p s)).trans ho)]
    · exact changesOnly_of_clr _ _ _ ((modHost_clr _ rfl _ _ _).trans (hostCount_clr _ rfl _ _ _))
  · simp only [exec_tlp]
    refine ⟨hostTook h we p s, took_only h we p s, hostOf_took h we p s hw, fun _ _ _ _ => rfl,
      (countOf_hostCount h 0 0 s).trans (if_pos rfl), fun hb hwe => ?_, fun hb hwe => ?_, fun hb hl hwe => ?_, fun hb hl hwe => ?_,
      fun hb hl hn => ⟨fun hc => ?_, fun hc => ?_⟩⟩
    · subst hwe
      have ho := hr.resolve_left (by decide)
      exact ⟨fun h0 => congrArg Host.Outcome.next ((mrd_bar0 s h p hm hw hb ho).trans (if_pos h0)),
        fun h0 => congrArg Host.Outcome.next ((mrd_bar0 s h p hm hw hb ho).trans (if_neg h0))⟩
    · subst hwe
      exact ⟨fun h0 hq => congrArg Host.Outcome.next (mwr_bar0_ok s h p hm hw hb h0 hq),
        fun h0 => ⟨_, rfl, mwr_bar0_bad s h p hm hw hb h0⟩⟩
    · subst hwe
      exact congrArg Host.Outcome.next (mrd_bar2 s h p hm hw hb hl (hr.resolve_left (by decide)))
    · subst hwe
      exact ⟨fun hk => congrArg Host.Outcome.next ((mwr_bar2 s h p hm hw hb hl).trans (if_neg (by omega))),
        fun hk => ⟨_, rfl, mwr_bar2_word s h p hm hw hb hl hk⟩⟩
    · exact ⟨_, rfl, inbound_bar4_bad s h p hm hw we hr hb hl hn hc⟩
    · exact ⟨_, rfl, inbound_bar4_good s h p hm hw we hr hb hl hn hc⟩

/-- Link loss, FLR and hot reset (R459). -/
theorem adapter_reset_discards : ∀ (s : State) (h : Nat), (4 ≤ h → ∀ c ∈ [Instr.hstLinkDown h, .hstFlr h, .hstHotReset h], exec c s = .next s) ∧
    (h < 4 → ∀ c ∈ [Instr.hstLinkDown h, .hstFlr h, .hstHotReset h], ∃ t, exec c s = .next t ∧
      hostOf t h = (let x := hostOf s h
        { x with waiting := [], sent := [], pins := if c = .hstLinkDown h then { x.pins with linkUp := false } else { x.pins with inReset := true } }) ∧ (∀ y, y ≠ h → hostOf t y = hostOf s y) ∧
      (c = .hstLinkDown h → Shows t (hostDie h) 0x718 0 ∧ ChangesOnly [.rg, .hs, .ft] s t) ∧ (c ≠ .hstLinkDown h → ChangesOnly [.hs] s t)) := by
  intro s h
  refine ⟨fun h4 c hc => ?_, fun h4 c hc => ?_⟩
  · have hlink : exec (.hstLinkDown h) s = .next s := congrArg Host.Outcome.next (if_neg (by omega))
    have hreset : hostReset h s = s := if_neg (by omega)
    simp only [List.mem_cons, List.not_mem_nil, or_false] at hc
    obtain rfl | rfl | rfl := hc
    · exact hlink
    · exact congrArg Host.Outcome.next hreset
    · exact congrArg Host.Outcome.next hreset
  · have hreset : hostReset h s = hostDiscard h (modHost h (fun x => { x with pins.inReset := true }) s) := if_pos h4
    have hres : ∀ c : Instr, c ≠ .hstLinkDown h → exec c s = .next (hostReset h s) → ∃ t, exec c s = .next t ∧
        hostOf t h = (let x := hostOf s h
          { x with waiting := [], sent := [], pins := if c = .hstLinkDown h then { x.pins with linkUp := false } else { x.pins with inReset := true } }) ∧
        (∀ y, y ≠ h → hostOf t y = hostOf s y) ∧
        (c = .hstLinkDown h → Shows t (hostDie h) 0x718 0 ∧ ChangesOnly [.rg, .hs, .ft] s t) ∧
        (c ≠ .hstLinkDown h → ChangesOnly [.hs] s t) := fun c hne he => by
      rw [hreset] at he
      refine ⟨_, he, ?_, fun y hy => ?_, fun h => absurd h hne, fun _ => ?_⟩
      · dsimp only
        rw [hostDiscard_host, if_pos rfl, if_neg hne]
      · rw [hostDiscard_host, if_neg hy]
      · exact changesOnly_of_clr _ _ _ ((hostDiscard_clr _ rfl _ _).trans (modHost_clr _ rfl _ _ _))
    simp only [List.mem_cons, List.not_mem_nil, or_false] at hc
    obtain rfl | rfl | rfl := hc
    · have hhs : ∀ y, hostOf (raise0 (hostDie h) 0x718 0 (hostDiscard h (modHost h (fun x => { x with pins.linkUp := false }) s))) y =
          hostOf (hostDiscard h (modHost h (fun x => { x with pins.linkUp := false }) s)) y := fun y =>
        hostOf_of_hs (raise_same _ _ _ _ _ _ .hs (by decide)) y
      refine ⟨_, congrArg Host.Outcome.next (if_pos h4), ?_, fun y hy => ?_, fun _ => ⟨raise_bit _ _ _ _ _ _ (by decide), ?_⟩,
        fun hne => absurd rfl hne⟩
      · dsimp only
        rw [hhs, hostDiscard_host, if_pos rfl, if_pos rfl]
      · rw [hhs, hostDiscard_host, if_neg hy]
      · exact changesOnly_of_clr _ _ _ ((raise0_clr _ rfl rfl _ _ _ _).trans ((hostDiscard_clr _ rfl _ _).trans (modHost_clr _ rfl _ _ _)))
    · exact hres _ (by simp) rfl
    · exact hres _ (by simp) rfl

/-- LASER_HOUR_TICK (R462, R463). -/
theorem laser_hour_counts : ∀ (s : State) (die g : Nat), let e := engineOf s die g
    let on := isEngine die g = true ∧ e.st = 2
    (¬ on → exec (.laserHourTick die g) s = .next s) ∧
    (on → ∃ t, exec (.laserHourTick die g) s = .next t ∧ ChangesOnly [.rg, .op, .ft, .kp, .out] s t ∧
      (engineOf t die g).hours = e.hours + 1 ∧ (engineOf t die g).ticks = (e.ticks + 1) % 16 ∧
      shadowOf t die g = (moduleKey e.record, e.hours + 1) ∧
      t.out = s.out ++ (if e.ticks = 15 then [.moduleStore die g (e.hours + 1)] else []) ∧
      (576000 ≤ e.hours + 1 → (engineOf t die g).wear = true ∧ (e.wear = false → Shows t die (optPage g) 0)) ∧
      (640000 ≤ e.hours + 1 → (engineOf t die g).eol = true ∧ (e.eol = false → Shows t die (optPage g) 1))) := by
  intro s die g
  refine ⟨fun hn => ?_, fun ⟨he, hst⟩ => ?_⟩
  · exact congrArg Host.Outcome.next (if_pos (by
      by_cases he : isEngine die g = true
      · simpa [he] using fun hst => hn ⟨he, hst⟩
      · simp [he]))
  · have ht := hourTick_eq die g s he hst
    have heng := ticked_engine die g s
    refine ⟨hourTick die g s, rfl, changesOnly_of_clr _ _ _ (hourTick_clr _ rfl rfl rfl rfl rfl _ _ _), ?_, ?_, ?_, ?_,
      fun hh => ⟨?_, fun hw => ?_⟩, fun hh => ⟨?_, fun hw => ?_⟩⟩
    · rw [ht, checkWear_engine, heng]
    · rw [ht, checkWear_engine, heng]
    · rw [ht, shadowOf_of_kp (checkWear_same _ _ _ .kp (by decide)), ticked_shadow]
    · rw [ht, checkWear_same _ _ _ .out (by decide), ticked_out]
    · rw [ht, checkWear_engine, heng]
      simp [hh]
    · rw [ht]
      exact checkWear_shows_wear _ _ _ (by rw [heng]; exact hh) (by rw [heng]; exact hw)
    · rw [ht, checkWear_engine, heng]
      simp [hh]
    · rw [ht]
      exact checkWear_shows_eol _ _ _ (by rw [heng]; exact hh) (by rw [heng]; exact hw)

/-- POWER_SAMPLE (R464). -/
theorem power_sample_held : ∀ (s : State) (die g p0 p1 : Nat), let e := engineOf s die g
    let lim := rfld s die (optPage g) 0x128 15 0
    let on := isEngine die g = true ∧ e.st ≠ 0
    (∀ b, ¬ on → exec (.powerSample die g b p0 p1) s = .next s) ∧
    (on → e.fails ≠ 2 → ∃ t, exec (.powerSample die g false p0 p1) s = .next t ∧ ChangesOnly [.op] s t ∧
      engineOf t die g = { e with fails := min 3 (e.fails + 1) }) ∧
    (on → e.fails = 2 → ∃ t, exec (.powerSample die g false p0 p1) s = .next t ∧ (engineOf t die g).st = 4 ∧ Shows t die (optPage g) 4 ∧
      t.out = s.out ++ [.laser die g false] ∧
      ∀ l ∈ enginePorts g, (linkOf s die l).st ≠ .off → (linkOf t die l).st = .hold ∧ (linkOf t die l).cause = 0x7F) ∧
    (on → ∃ t, exec (.powerSample die g true p0 p1) s = .next t ∧ (engineOf t die g).fails = 0 ∧ (engineOf t die g).p0 = p0 % 65536 ∧
      (engineOf t die g).p1 = p1 % 65536 ∧ (engineOf t die g).low0 = (if p0 % 65536 < lim then min 3 (e.low0 + 1) else 0) ∧
      (engineOf t die g).low1 = (if p1 % 65536 < lim then min 3 (e.low1 + 1) else 0) ∧
      (isSafe s die = false → e.st ≠ 1 → p0 % 65536 < lim → e.low0 = 2 →
        (linkOf t die (16 + 2 * g)).st = .hold ∧ (linkOf t die (16 + 2 * g)).cause = 0x7D ∧ Shows t die (optPage g) 2) ∧
      (isSafe s die = false → e.st ≠ 1 → p1 % 65536 < lim → e.low1 = 2 →
        (linkOf t die (17 + 2 * g)).st = .hold ∧ (linkOf t die (17 + 2 * g)).cause = 0x7D ∧ Shows t die (optPage g) 2) ∧
      (isSafe s die = false → e.st ≠ 1 → isSundi die (16 + 2 * g) = true → lim ≤ p0 % 65536 → e.good0 = 2 → linkEnabled s die (16 + 2 * g) = true →
        s.fw.inPause = false → notInService s die = false → (linkOf s die (16 + 2 * g)).peerSafe = false →
        (linkOf s die (16 + 2 * g)).st = .hold → (linkOf s die (16 + 2 * g)).cause = 0x7D → (linkOf t die (16 + 2 * g)).st = .training)) := by
  intro s die g p0 p1
  refine ⟨fun b hn => ?_, fun ⟨he, hst⟩ hf => ?_, fun ⟨he, hst⟩ hf => ?_, fun ⟨he, hst⟩ => ?_⟩
  · exact congrArg Host.Outcome.next (if_pos (by
      by_cases he : isEngine die g = true
      · simpa [he] using fun hst => hn ⟨he, hst⟩
      · simp [he]))
  · have ht := (powerSample_failed die g p0 p1 s he hst).trans (if_neg (by omega))
    refine ⟨_, congrArg Host.Outcome.next ht, changesOnly_of_clr _ _ _ (modEngine_clr _ rfl _ _ _ _), ?_⟩
    rw [engineOf_modEngine_same]
  · have ht := (powerSample_failed die g p0 p1 s he hst).trans (if_pos (by omega))
    refine ⟨_, congrArg Host.Outcome.next ht, ?_, optFault_shows _ _ _ _ (by decide), ?_, fun l hl hon => ?_⟩
    · rw [engineOf_of_op (optFault_same _ _ _ _ .op (by decide)), laserOff_engine]
    · rw [optFault_same _ _ _ _ .out (by decide), laserOff_out]
      rfl
    · rw [linkOf_of_lk (optFault_same _ _ _ _ .lk (by decide))]
      exact laserOff_link _ _ _ _ _ _ hl hon
  · have heng := bothSampled_engine die g p0 p1 s
    obtain ⟨u, hlk, hrg, hft, hfw, htm, hlink, hshows⟩ := bothSampled_port0 die g p0 p1 s
    obtain ⟨w, hweff, hwsafe, e, hest, helow, hboth⟩ := bothSampled_port1 die g p0 p1 s
    have hulim : powerLim u die g = powerLim s die g := powerLim_of_eff (congrArg Regs.eff hrg) die g
    refine ⟨bothSampled die g p0 p1 s, congrArg Host.Outcome.next (powerSample_ok die g p0 p1 s he hst), ?_, ?_, ?_, ?_, ?_,
      fun hsafe h1 hlow h2 => ?_, fun hsafe h1 hlow h2 => ?_, fun hsafe h1 hs hgood h2 hen hp hn hpeer hh hc => ?_⟩
    · rw [heng]; rfl
    · rw [heng]; rfl
    · rw [heng]; rfl
    · rw [heng]; rfl
    · rw [heng]; rfl
    · have hheld := portSampled_holds die g 0 (p0 % 65536) { engineOf s die g with fails := 0 } u
        (by rw [isSafe_of_ft (congrArg Faults.safeDies hft)]; exact hsafe) h1 (by rw [hulim]; exact hlow) h2
      obtain ⟨hst', hc', hsh⟩ := hheld
      rw [hlink]
      exact ⟨hst', hc', hshows _ _ _ hsh⟩
    · have hl : 17 + 2 * g = 16 + 2 * g + 1 := by omega
      rw [hboth, hl]
      exact portSampled_holds die g 1 (p1 % 65536) e w (by rw [isSafe_of_ft hwsafe]; exact hsafe) (by rw [hest]; exact h1)
        (by rw [powerLim_of_eff hweff]; exact hlow) (helow.trans h2)
    · rw [hlink]
      have hul : linkOf u die (16 + 2 * g) = linkOf s die (16 + 2 * g) := linkOf_of_lk hlk die _
      refine portSampled_trains die g 0 (p0 % 65536) { engineOf s die g with fails := 0 } u
        (by rw [isSafe_of_ft (congrArg Faults.safeDies hft)]; exact hsafe) h1 (by rw [hulim]; exact hgood) h2 hs ?_ ?_ ?_ ?_ ?_ ?_
      · unfold linkEnabled
        rw [rfld_of_eff (congrArg Regs.eff hrg)]
        exact hen
      · rw [hfw]; exact hp
      · unfold notInService
        rw [htm]; exact hn
      · rw [Nat.add_zero, hul]; exact hpeer
      · rw [Nat.add_zero, hul]; exact hh
      · rw [Nat.add_zero, hul]; exact hc

/-- OPT_RESCAN (R461). -/
theorem opt_rescan_reads_again : ∀ (s : State) (m : Master) (die page : Nat) (v : Word) (i : PageInfo) (row : RegRow), Writes s m die page 0x100 v i row → i.kind = .opt →
    let e := engineOf s die i.inst
    ∃ t, exec (.optRescan m die page v) s = .next t ∧ reg t die page 0x100 = v &&& 1 ∧
      (v.toNat.testBit 1 = true → e.st ≠ 0 → let good := accepted s (moduleKey (padTo 32 e.record))
        (engineOf t die i.inst).st = if good = false then 1 else if v.toNat.testBit 0 then 2 else 3) ∧
      (v.toNat.testBit 1 = false → v.toNat.testBit 0 = false → e.st = 2 → (engineOf t die i.inst).st = 3) ∧
      (v.toNat.testBit 1 = false → v.toNat.testBit 0 = true → e.st = 3 → (engineOf t die i.inst).st = 2) ∧
      (e.st = 0 ∨ e.st = 1 ∨ e.st = 4 → v.toNat.testBit 1 = false → engineOf t die i.inst = e) := by
  intro s m die page v i row hw hk
  have ⟨_, _, hinfo, _, _⟩ := hw
  obtain ⟨hpage, he⟩ := pageInfo_opt die page i hinfo hk
  have hctrl := optCtrl_engine die i.inst v s
  refine ⟨_, optRescan_eq s m die page v i row hw hk, ?_, fun h1 hst => ?_, fun h1 h0 hst => ?_, fun h1 h0 hst => ?_, fun hst h1 => ?_⟩
  · rw [hpage]
    exact reg_optWritten die i.inst v s he
  · rw [engineOf_emit, optWritten_rescan die i.inst v s h1 hst, (detect_effect die i.inst _ _ he).1]
    simp only [detectSt, accepted_of_kp (optCtrl_kp die i.inst v s), power_en_written]
  · rw [engineOf_emit, optWritten_plain die i.inst v s h1, hctrl, hst]
    simp [ctrlSt, h0]
  · rw [engineOf_emit, optWritten_plain die i.inst v s h1, hctrl, hst]
    simp [ctrlSt, h0]
  · have hsame : ctrlSt v (engineOf s die i.inst).st = (engineOf s die i.inst).st := by
      unfold ctrlSt
      rw [if_neg (by omega), if_neg (by omega)]
    rw [engineOf_emit, optWritten_plain die i.inst v s h1, hctrl, hsame]
  

/-- Settles O56: each clause is what its one operation does. -/
theorem hostRequestsAndLasers : Obligations.HostRequestsAndLasers :=
  ⟨disabled_adapter_idle, unsupported_tlp_answered, bar_access_served, adapter_reset_discards,
    fun s die g bytes => ⟨fun he => congrArg Host.Outcome.next (if_pos (by rw [he]; rfl)), detect_settles s die g bytes⟩,
    laser_hour_counts, power_sample_held, opt_rescan_reads_again⟩

end Sys2Proof.Machine
end

section
/-! SUPPORT. Arbiters (R163 to R173): who wins, and what starting a packet leaves of the router's queues, credits and arbiters (O25). -/
namespace Sys2Proof.Machine

/-! ### Who wins (R164 to R166) -/

/-- From a class or a number on, one of the list is taken. -/
theorem wrapFrom_mem (m : Nat) (xs : List Nat) (w : Nat) (h : wrapFrom m xs = some w) : w ∈ xs := by
  unfold wrapFrom at h
  split at h
  · next hx => cases h; exact List.mem_of_find?_eq_some hx
  · exact List.mem_of_head? h

theorem wrapFrom_some (m : Nat) (xs : List Nat) (h : xs ≠ []) : ∃ w, wrapFrom m xs = some w := by
  unfold wrapFrom
  split
  · exact ⟨_, rfl⟩
  · cases xs with
    | nil => exact absurd rfl h
    | cons x xs => exact ⟨x, rfl⟩

/-- One step of the search for the requester that waits longest. -/
def older (b : Option (Nat × Nat)) (x : Nat × Nat) : Option (Nat × Nat) :=
  match b with
  | none => some x
  | some y => if x.2 < y.2 ∨ (x.2 = y.2 ∧ x.1 < y.1) then some x else some y

theorem older_some (b : Option (Nat × Nat)) (x : Nat × Nat) : ∃ y, older b x = some y ∧ (y = x ∨ b = some y) := by
  cases b with
  | none => exact ⟨x, rfl, .inl rfl⟩
  | some z =>
    unfold older
    dsimp only
    split
    · exact ⟨x, rfl, .inl rfl⟩
    · exact ⟨z, rfl, .inr rfl⟩

theorem foldl_older (xs : List (Nat × Nat)) (y : Nat × Nat) : ∃ z, xs.foldl older (some y) = some z ∧ (z = y ∨ z ∈ xs) := by
  induction xs generalizing y with
  | nil => exact ⟨y, rfl, .inl rfl⟩
  | cons x xs ih =>
    obtain ⟨u, hu, hux⟩ := older_some (some y) x
    obtain ⟨z, hz, hzu⟩ := ih u
    refine ⟨z, by rw [List.foldl_cons, hu, hz], ?_⟩
    obtain rfl | hmem := hzu
    · obtain rfl | hy := hux
      · exact .inr (List.mem_cons_self ..)
      · exact .inl (Option.some.inj hy).symm
    · exact .inr (List.mem_cons_of_mem _ hmem)

/-- The oldest of some requesters is one of them. -/
theorem oldest_mem (xs : List (Nat × Nat)) (h : xs ≠ []) : ∃ w, oldest xs = some w ∧ w ∈ xs.map (·.1) := by
  cases xs with
  | nil => exact absurd rfl h
  | cons x xs =>
    obtain ⟨z, hz, hmem⟩ := foldl_older xs x
    have ho : oldest (x :: xs) = (xs.foldl older (some x)).map (·.1) := rfl
    refine ⟨z.1, by rw [ho, hz]; rfl, List.mem_map_of_mem ?_⟩
    obtain rfl | hmem := hmem
    · exact List.mem_cons_self ..
    · exact List.mem_cons_of_mem _ hmem

/-- The lowest class somebody of the requesters has. -/
theorem find_class (prio : Nat → Nat) (ids : List Nat) (hp : ∀ i, prio i < 4) (h : ids ≠ []) :
    ∃ c, ([0, 1, 2, 3].find? fun c => ids.any fun r => prio r = c) = some c ∧ (∃ r ∈ ids, prio r = c) ∧ ∀ r ∈ ids, c ≤ prio r := by
  obtain ⟨i, hi⟩ := List.exists_mem_of_ne_nil ids h
  have hrange : [0, 1, 2, 3] = List.range 4 := rfl
  rw [hrange]
  cases hf : (List.range 4).find? fun c => ids.any fun r => prio r = c with
  | none =>
    have hno := List.find?_eq_none.mp hf _ (List.mem_range.mpr (hp i))
    exact absurd (List.any_eq_true.mpr ⟨i, hi, decide_eq_true rfl⟩) hno
  | some c =>
    obtain ⟨hany, -, hlow⟩ := List.find?_range_eq_some.mp hf
    obtain ⟨r, hr, hc⟩ := List.any_eq_true.mp hany
    refine ⟨c, rfl, ⟨r, hr, of_decide_eq_true hc⟩, fun r hr => ?_⟩
    by_contra hlt
    have hno := hlow (prio r) (by omega)
    simp only [Bool.not_eq_true', List.any_eq_false] at hno
    exact hno r hr (decide_eq_true rfl)

/-- Nobody wins where nobody asks. -/
theorem pickWinner_nil (two : Bool) (starve : Nat) (a : Arb) (prio : Nat → Nat) : pickWinner two starve a prio [] = none := by
  unfold pickWinner
  dsimp only
  split
  · rfl
  · split
    · rfl
    · exact List.find?_eq_none.mpr (by simp)

/-- Where somebody asks, somebody of them wins; in two-level mode, but for a grant by age, of the lowest class. -/
theorem pickWinner_some (two : Bool) (starve : Nat) (a : Arb) (prio : Nat → Nat) (xs : List (Nat × Nat)) (hp : ∀ i, prio i < 4)
    (h : xs ≠ []) : ∃ w, pickWinner two starve a prio xs = some w ∧ w ∈ xs.map (·.1) ∧
      (two = true → starve = 0 ∨ (a.count + 1) % starve ≠ 0 → ∀ i ∈ xs.map (·.1), prio w ≤ prio i) := by
  have hids : xs.map (·.1) ≠ [] := fun he => h (List.map_eq_nil_iff.mp he)
  unfold pickWinner
  dsimp only
  generalize hi : xs.map (·.1) = ids at hids
  split
  · next hage =>
    obtain ⟨w, hw, hmem⟩ := oldest_mem xs h
    exact ⟨w, hw, hi ▸ hmem, fun _ hn => by omega⟩
  · split
    · obtain ⟨c, hc, ⟨r, hr, hrc⟩, hlow⟩ := find_class prio ids hp hids
      have hne : ids.filter (fun r => prio r = c) ≠ [] :=
        List.ne_nil_of_mem (List.mem_filter.mpr ⟨hr, decide_eq_true hrc⟩)
      obtain ⟨w, hw⟩ := wrapFrom_some (a.prev.getD c 0) _ hne
      obtain ⟨hmem, hwc⟩ := List.mem_filter.mp (wrapFrom_mem _ _ _ hw)
      rw [hc]
      exact ⟨w, hw, hmem, fun _ _ i hi => by rw [of_decide_eq_true hwc]; exact hlow i hi⟩
    · next htwo =>
      cases hf : ids.find? fun r => !decide (r ∈ a.order) with
      | some r => exact ⟨r, rfl, List.mem_of_find?_eq_some hf, fun ht => absurd ht htwo⟩
      | none =>
        obtain ⟨i, hmem⟩ := List.exists_mem_of_ne_nil ids hids
        have hord : i ∈ a.order := by
          simpa using List.find?_eq_none.mp hf i hmem
        cases hg : a.order.find? fun r => decide (r ∈ ids) with
        | none => exact absurd (decide_eq_true hmem) (List.find?_eq_none.mp hg i hord)
        | some w =>
          have hw := List.find?_some hg
          exact ⟨w, rfl, of_decide_eq_true hw, fun ht => absurd ht htwo⟩

/-! ### What the transit units and the credits leave (R130, R147) -/

/-- What names a packet in a buffer. -/
def nameOf (x : QPkt) : DWord × BitVec 16 × List Byte := (x.pkt.dest, x.pkt.sseq, x.pkt.payload)

/-- A router's buffers by the names of their packets, its credits in use, its arbiters, what it handed over and put on wires. -/
def routerView (s : State) : SMap Nat × SMap Arb × List Wire × List Wire × (Nat → List (DWord × BitVec 16 × List Byte)) :=
  (s.nt.used, s.nt.arbs, s.nt.delivered, s.nt.wires, fun k => (bufQ s k).map nameOf)

/-- The view of a state whose network differs from another's in other fields alone. -/
theorem routerView_of_nt {s t : State} (hu : t.nt.used = s.nt.used) (ha : t.nt.arbs = s.nt.arbs) (hd : t.nt.delivered = s.nt.delivered)
    (hw : t.nt.wires = s.nt.wires) (hb : t.nt.bufs = s.nt.bufs) : routerView t = routerView s := by
  unfold routerView bufQ
  rw [hu, ha, hd, hw, hb]

theorem routerView_of_same {s t : State} (h : t.nt = s.nt) : routerView t = routerView s := by
  unfold routerView bufQ
  rw [h]

theorem bufQ_put (s : State) (k k' : Nat) (xs : List QPkt) :
    bufQ { s with nt := { s.nt with bufs := put [] s.nt.bufs k xs } } k' = if k' = k then xs else bufQ s k' := by
  simp [bufQ]

/-- A front packet that takes a grant keeps its name. -/
theorem takeGrant_view (k port cls : Nat) (s : State) : routerView (takeGrant k port cls s) = routerView s := by
  unfold takeGrant setFront
  split
  · rfl
  · next q qs hq =>
    dsimp only
    have hb : ∀ k', (bufQ { s with nt := { s.nt with
        bufs := put [] s.nt.bufs k ({ q with escAt := s.tm.fclk + 1, pkt := { q.pkt with via := viaOf port cls } } :: qs) } } k').map nameOf =
        (bufQ s k').map nameOf := fun k' => by
      rw [bufQ_put]
      split
      · next hk => rw [hk, hq]; rfl
      · rfl
    unfold routerView
    simp only [hb]

theorem sendFrom_view (die n port : Nat) (p : Packet) (s : State) : routerView (sendFrom die n port p s) = routerView s :=
  routerView_of_nt rfl rfl rfl rfl rfl

theorem sendLoss_view (die n port code : Nat) (p : Packet) (s : State) : routerView (sendLoss die n port code p s) = routerView s := by
  unfold sendLoss
  split
  · exact sendFrom_view _ _ _ _ _
  · rfl

theorem askTransit_view (die t n k : Nat) (s : State) : routerView (askTransit die t n k s) = routerView s := by
  unfold askTransit
  split
  · rfl
  · split
    · rfl
    · dsimp only
      split
      · rw [takeGrant_view]
        exact routerView_of_nt rfl rfl rfl rfl rfl
      · refine forEach_same routerView _ _ _ fun e u => ?_
        split
        · split
          · rfl
          · exact routerView_of_nt rfl rfl rfl rfl rfl
        · split
          · rfl
          · exact routerView_of_nt rfl rfl rfl rfl rfl

theorem askFronts_view (die t n : Nat) (s : State) : routerView (askFronts die t n s) = routerView s :=
  forEach_same routerView _ _ _ fun k u => askTransit_view die t n k u

theorem useGrant_view (die t n port cls : Nat) (s : State) : routerView (useGrant die t n port cls s) = routerView s := by
  unfold useGrant
  split
  · exact takeGrant_view _ _ _ _
  · exact routerView_of_nt rfl rfl rfl rfl rfl

theorem grantOne_view (port : Nat) (s : State) : routerView (grantOne port s) = routerView s := by
  unfold grantOne
  split
  · rfl
  · dsimp only
    split
    · rw [askFronts_view, useGrant_view]
      exact routerView_of_nt rfl rfl rfl rfl rfl
    · exact routerView_of_nt rfl rfl rfl rfl rfl

theorem freeTransit_view (p : Packet) (s : State) : routerView (freeTransit p s) = routerView s := by
  unfold freeTransit releaseSlot grantNext
  split
  · exact (forEach_same routerView _ _ _ fun _ u => grantOne_view _ u).trans (routerView_of_nt rfl rfl rfl rfl rfl)
  · rfl

theorem creditSym_nt (die link plane vc cls n : Nat) (s : State) : (creditSym die link plane vc cls n s).nt = s.nt :=
  same_of_clr [.lk, .out] _ _ (creditSym_clr _ rfl rfl _ _ _ _ _ _ _) .nt (by decide)

theorem oweCredits_view (k flits : Nat) (s : State) : routerView (oweCredits k flits s) = routerView s := by
  unfold oweCredits
  dsimp only
  split
  · rfl
  · split
    · rfl
    · split
      · rw [routerView_of_same (creditSym_nt _ _ _ _ _ _ _)]
        exact routerView_of_nt rfl rfl rfl rfl rfl
      · exact routerView_of_same (creditSym_nt _ _ _ _ _ _ _)
      · split
        · exact routerView_of_nt rfl rfl rfl rfl rfl
        · rfl

/-- Of the network, the tokens and the charges of nodes alone differ. -/
def ChargesOnly (s t : State) : Prop := ∃ tok ch, t.nt = { s.nt with tokens := tok, charges := ch }

theorem ChargesOnly.of_same {s t : State} (h : t.nt = s.nt) : ChargesOnly s t := ⟨s.nt.tokens, s.nt.charges, h⟩

theorem ChargesOnly.trans {s t u : State} (h : ChargesOnly s t) (h' : ChargesOnly t u) : ChargesOnly s u := by
  obtain ⟨tok, ch, ht⟩ := h
  obtain ⟨tok', ch', hu⟩ := h'
  exact ⟨tok', ch', by rw [hu, ht]⟩

theorem setTok_charges (key : Nat) (tok : Int) (s : State) : ChargesOnly s (setTok key tok s) := ⟨_, _, rfl⟩

theorem noteCharge_charges (key bytes : Nat) (s : State) : ChargesOnly s (noteCharge key bytes s) := ⟨_, _, rfl⟩

theorem chargeNode_charges (key : Nat) (cfg : NodeCfg) (bytes : Nat) (s : State) : ChargesOnly s (chargeNode key cfg bytes s) := by
  unfold chargeNode
  refine .trans ?_ (noteCharge_charges _ _ _)
  split
  · exact setTok_charges _ _ _
  · exact .of_same rfl

theorem chargeCtx_charges (die t c bytes : Nat) (s : State) : ChargesOnly s (chargeCtx die t c bytes s) :=
  .trans (chargeNode_charges _ _ _ _) (.of_same rfl)

/-- Charging a start leaves everything of the network but tokens and charges. -/
theorem chargeStart_charges (die t n port : Nat) (p : Packet) (s : State) : ChargesOnly s (chargeStart die t n port p s) := by
  unfold chargeStart
  dsimp only
  split
  · exact .of_same rfl
  · have hctx : ∀ b bytes u, ChargesOnly u (doIf b (chargeCtx die t p.ctx bytes) u) := fun b bytes u => by
      unfold doIf
      split
      · exact chargeCtx_charges _ _ _ _ _
      · exact .of_same rfl
    refine .trans ?_ (noteCharge_charges _ _ _)
    split
    · refine .trans ?_ (chargeNode_charges _ _ _ _)
      refine .trans ?_ (hctx _ _ _)
      exact .of_same rfl
    · refine .trans ?_ (setTok_charges _ _ _)
      refine .trans ?_ (chargeNode_charges _ _ _ _)
      refine .trans ?_ (hctx _ _ _)
      exact .of_same rfl

theorem ChargesOnly.view {s t : State} (h : ChargesOnly s t) : routerView t = routerView s := by
  obtain ⟨tok, ch, ht⟩ := h
  exact routerView_of_nt (by rw [ht]) (by rw [ht]) (by rw [ht]) (by rw [ht]) (by rw [ht])

end Sys2Proof.Machine
end

section
/-! SUPPORT. What starting a packet at an output leaves (O25). -/
namespace Sys2Proof.Machine

/-! ### The buffer a granted packet leaves -/

/-- A front packet replaced by one of its name. -/
theorem setFront_view (k : Nat) (q q' : QPkt) (qs : List QPkt) (s : State) (hq : bufQ s k = q :: qs) (hn : nameOf q' = nameOf q) :
    routerView (setFront k q' s) = routerView s := by
  have hb : ∀ k', (bufQ { s with nt := { s.nt with bufs := put [] s.nt.bufs k (q' :: qs) } } k').map nameOf = (bufQ s k').map nameOf := by
    intro k'
    rw [bufQ_put]
    split
    · next hk => rw [hk, hq, List.map_cons, List.map_cons, hn]
    · rfl
  unfold setFront
  rw [hq]
  dsimp only
  unfold routerView
  simp only [hb]

/-- The buffers by name once the front packet of one has left. -/
def withoutFront (s : State) (k k' : Nat) : List (DWord × BitVec 16 × List Byte) :=
  if k' = k then ((bufQ s k).map nameOf).tail else (bufQ s k').map nameOf

/-- The front packet leaves; the next one's age alone changes. -/
theorem popBuf_cons (k beats : Nat) (q : QPkt) (qs : List QPkt) (s : State) (hq : bufQ s k = q :: qs) : ∃ rest,
    rest.map nameOf = qs.map nameOf ∧ popBuf k beats s = { s with nt := { s.nt with
      bufs := put [] s.nt.bufs k rest, leaving := ins s.nt.leaving k (q.pkt.len + 1, s.tm.fclk) } } := by
  unfold popBuf
  rw [hq]
  cases qs with
  | nil => exact ⟨[], rfl, rfl⟩
  | cons x xs => exact ⟨{ x with since := max x.since (s.tm.fclk + beats) } :: xs, rfl, rfl⟩

theorem popBuf_view (k beats : Nat) (s : State) : routerView (popBuf k beats s) =
    (s.nt.used, s.nt.arbs, s.nt.delivered, s.nt.wires, withoutFront s k) := by
  cases hq : bufQ s k with
  | nil =>
    have hp : popBuf k beats s = s := by
      unfold popBuf
      rw [hq]
    have hw : withoutFront s k = fun k' => (bufQ s k').map nameOf := by
      funext k'
      unfold withoutFront
      split
      · next hk => rw [hk, hq]; rfl
      · rfl
    rw [hp, hw]
    rfl
  | cons q qs =>
    obtain ⟨rest, hrest, hp⟩ := popBuf_cons k beats q qs s hq
    have hw : (fun k' => (bufQ (popBuf k beats s) k').map nameOf) = withoutFront s k := by
      funext k'
      have hput : bufQ (popBuf k beats s) k' = if k' = k then rest else bufQ s k' := by
        rw [hp]
        exact look_put _ _ _ _ _
      unfold withoutFront
      rw [hput, hq]
      split
      · exact hrest
      · rfl
    unfold routerView
    rw [hw, hp]

/-- What is left of the outputs a multicast packet asks for. -/
def outsLeft (out : Nat) (r : Req) : List Nat := if r.q.pkt.mc then r.q.outs.filter (· ≠ out) else []

/-- The packet leaves its buffer, or keeps its place for the outputs it still asks for. -/
def leftBuffer (die t n out flits beats : Nat) (r : Req) (s : State) : State :=
  if outsLeft out r = [] then askFronts die t n (oweCredits r.key flits (popBuf r.key beats s))
  else setFront r.key { r.q with outs := outsLeft out r } s

theorem leftBuffer_view (die t n out flits beats : Nat) (r : Req) (s : State) (h : outsLeft out r = []) :
    routerView (leftBuffer die t n out flits beats r s) =
      (s.nt.used, s.nt.arbs, s.nt.delivered, s.nt.wires, withoutFront s r.key) := by
  rw [leftBuffer, if_pos h, askFronts_view, oweCredits_view, popBuf_view]

theorem leftBuffer_rest (die t n out flits beats : Nat) (r : Req) (s : State) :
    let u := leftBuffer die t n out flits beats r s
    u.nt.used = s.nt.used ∧ u.nt.arbs = s.nt.arbs ∧ u.nt.delivered = s.nt.delivered ∧ u.nt.wires = s.nt.wires := by
  intro u
  by_cases hl : outsLeft out r = []
  · have hu := leftBuffer_view die t n out flits beats r s hl
    simp only [routerView, Prod.mk.injEq] at hu
    obtain ⟨h1, h2, h3, h4, -⟩ := hu
    exact ⟨h1, h2, h3, h4⟩
  · have hu : u = setFront r.key { r.q with outs := outsLeft out r } s := if_neg hl
    rw [hu]
    unfold setFront
    split <;> exact ⟨rfl, rfl, rfl, rfl⟩

theorem leftBuffer_names (die t n out flits beats : Nat) (r : Req) (s : State) (hmc : r.q.pkt.mc = false) (k : Nat) :
    (bufQ (leftBuffer die t n out flits beats r s) k).map nameOf = withoutFront s r.key k := by
  have hu := leftBuffer_view die t n out flits beats r s (by simp [outsLeft, hmc])
  simp only [routerView, Prod.mk.injEq] at hu
  obtain ⟨-, -, -, -, hnames⟩ := hu
  exact congrFun hnames k

/-! ### Modules: who carries a track, what is kept for replay (R432, R491) -/

/-- What decides the carrier of a module's tracks. -/
def lossView (s : State) : List (Nat × Nat) × (Nat → Bool) := (s.lk.folded, fun k => (look {} s.lk.mods k).lost)

theorem carrier_of_loss {s t : State} (h : lossView t = lossView s) (die b m : Nat) : carrier t die b m = carrier s die b m := by
  simp only [lossView, Prod.mk.injEq] at h
  have hl : (modOf t die b m).lost = (modOf s die b m).lost := congrFun h.2 (mkey die b m)
  unfold carrier
  rw [hl, h.1]

theorem modLink_loss (die link : Nat) (f : Link → Link) (s : State) (hf : ∀ l, (f l).lost = l.lost) :
    lossView (modLink die link f s) = lossView s := by
  unfold modLink
  split
  · unfold lossView
    simp only [Prod.mk.injEq, true_and]
    funext k
    rw [look_upd]
    split
    · next hk => rw [hf, hk]
    · rfl
  · rfl

theorem putFrame_lk (die link : Nat) (f : TxFrame) (s : State) : (putFrame die link f s).lk = s.lk :=
  same_of_clr [.out] _ _ (putFrame_clr _ rfl _ _ _ _) .lk (by decide)

theorem lossView_of_lk {s t : State} (h : t.lk = s.lk) : lossView t = lossView s := by
  unfold lossView
  rw [h]

theorem sendFrame_loss (die link sym : Nat) (slots : List FlitSlot) (units : List (List Byte)) (pkts : List Packet) (s : State) :
    lossView (sendFrame die link sym slots units pkts s) = lossView s :=
  (lossView_of_lk (putFrame_lk _ _ _ _)).trans (modLink_loss _ _ _ _ fun _ => rfl)

theorem creditSym_loss (die link plane vc cls n : Nat) (s : State) : lossView (creditSym die link plane vc cls n s) = lossView s := by
  unfold creditSym sendSym
  split
  · rfl
  · split
    · exact sendFrame_loss _ _ _ _ _ _ _
    · rfl

theorem oweCredits_loss (k flits : Nat) (s : State) : lossView (oweCredits k flits s) = lossView s := by
  unfold oweCredits
  dsimp only
  split
  · rfl
  · split
    · rfl
    · split
      · rw [creditSym_loss]
        rfl
      · exact creditSym_loss _ _ _ _ _ _ _
      · split <;> rfl

theorem leftBuffer_loss (die t n out flits beats : Nat) (r : Req) (s : State) :
    lossView (leftBuffer die t n out flits beats r s) = lossView s := by
  unfold leftBuffer
  split
  · rw [lossView_of_lk (same_of_clr [.nt] _ _ (askFronts_clr _ rfl _ _ _ _) .lk (by decide)), oweCredits_loss,
      lossView_of_lk (same_of_clr [.nt] _ _ (popBuf_clr _ rfl _ _ _) .lk (by decide))]
  · exact lossView_of_lk (same_of_clr [.nt] _ _ (setFront_clr _ rfl _ _ _) .lk (by decide))

theorem linkOf_modLink_same (die link : Nat) (f : Link → Link) (s : State) :
    linkOf (modLink die link f s) die link = f (linkOf s die link) := by
  unfold linkOf modLink
  split
  · simp
  · simp

/-- The frame sent last is the last kept. -/
theorem sendFrame_kept (die link sym : Nat) (slots : List FlitSlot) (units : List (List Byte)) (pkts : List Packet) (s : State) :
    ((linkOf (sendFrame die link sym slots units pkts s) die link).replay.getLast?).map (·.pkts) = some pkts := by
  have hmax : 1 ≤ replayMax link := by
    unfold replayMax
    split <;> decide
  have hlk : ∀ f u, linkOf (putFrame die link f u) die link = linkOf u die link := fun f u => by
    unfold linkOf lnkOf
    rw [putFrame_lk]
  unfold sendFrame
  dsimp only
  rw [hlk, linkOf_modLink_same]
  dsimp only
  rw [List.getLast?_drop, if_neg (by simp only [List.length_append, List.length_cons, List.length_nil]; omega)]
  simp

/-- A packet over a module is kept with the last of its groups. -/
theorem sendGroups_kept (die link : Nat) (p : Packet) (g : List FlitSlot) (gs : List (List FlitSlot)) (s : State) :
    ((linkOf (sendGroups die link p (g :: gs) s) die link).replay.getLast?).map (·.pkts) = some [p] := by
  induction gs generalizing g s with
  | nil => exact sendFrame_kept _ _ _ _ _ _ _
  | cons g' gs ih => exact ih g' _

theorem sendPacket_kept (die b m : Nat) (p : Packet) (s : State) (hb : b < 4) (hm : m < 4) :
    ((modOf (sendPacket die (4 * b + m) p s) die b m).replay.getLast?).map (·.pkts) = some [p] := by
  have hmod : isMod (4 * b + m) = true := by
    simp only [isMod, decide_eq_true_eq]
    omega
  have hlink : ∀ u, modOf u die b m = linkOf u die (4 * b + m) := fun u => by
    have hk : mkey die b m = die * 16 + (4 * b + m) := by
      unfold mkey
      omega
    unfold modOf linkOf
    rw [if_pos hmod, hk]
  have hgroups : ∃ g gs, slotGroups (packetSlots p) = g :: gs := by
    unfold slotGroups
    split
    · exact ⟨_, _, rfl⟩
    · exact ⟨_, _, rfl⟩
  obtain ⟨g, gs, hg⟩ := hgroups
  rw [hlink, sendPacket, if_pos hmod, hg]
  exact sendGroups_kept _ _ _ _ _ _

theorem carrier_lt (s : State) (die b m : Nat) (hm : m < 4) : (carrier s die b m).getD m < 4 := by
  unfold carrier
  split
  · cases s.lk.folded.find? fun e => e.1 = mkey die b m with
    | none => exact hm
    | some e => exact Nat.mod_lt _ (by decide)
  · exact hm

end Sys2Proof.Machine
end

section
/-! SUPPORT. A packet granted at an output starts (O25). -/
namespace Sys2Proof.Machine

/-! ### Leaving by an output (R120, R432, R587) -/

theorem outAttach_none (die n out : Nat) (h8 : out ≠ 8) (h9 : out ≠ 9) : outAttach die n out = .none := by
  unfold outAttach
  rw [if_neg (by omega)]

theorem sendPacket_nt (die link : Nat) (p : Packet) (s : State) : (sendPacket die link p s).nt = s.nt :=
  same_of_clr [.lk, .out] _ _ (sendPacket_clr _ rfl rfl _ _ _ _) .nt (by decide)

/-- Two states with the same credits in use, arbiters and buffers by name. -/
def SameQueues (s t : State) : Prop :=
  t.nt.used = s.nt.used ∧ t.nt.arbs = s.nt.arbs ∧ ∀ k, (bufQ t k).map nameOf = (bufQ s k).map nameOf

theorem SameQueues.of_view {s t : State} (h : routerView t = routerView s) : SameQueues s t := by
  simp only [routerView, Prod.mk.injEq] at h
  obtain ⟨hu, ha, -, -, hn⟩ := h
  exact ⟨hu, ha, congrFun hn⟩

theorem addCount_view (die page sel n : Nat) (s : State) : routerView (addCount die page sel n s) = routerView s := rfl

/-- A packet that leaves changes no credit in use, arbiter or buffer. -/
theorem leaveBy_rest (die n out : Nat) (p : Packet) (s : State) : SameQueues s (leaveBy die n out p s) := by
  unfold leaveBy
  split
  · exact .of_view ((addCount_view _ _ _ _ _).trans (routerView_of_same (sendPacket_nt _ _ _ _)))
  · split
    · exact ⟨rfl, rfl, fun _ => rfl⟩
    · dsimp only
      split
      · exact .of_view ((addCount_view _ _ _ _ _).trans (sendLoss_view _ _ _ _ _ _))
      · exact .of_view ((addCount_view _ _ _ _ _).trans (routerView_of_same (sendPacket_nt _ _ _ _)))
  · split
    · exact ⟨rfl, rfl, fun _ => rfl⟩
    · exact ⟨rfl, rfl, fun _ => rfl⟩

theorem leaveBy_local (die n out : Nat) (p : Packet) (s : State) (h : out = 10 ∨ out = 11) :
    (leaveBy die n out p s).nt.delivered = s.nt.delivered ++ [{ die := die, tile := n, port := out, pkt := p }] := by
  unfold leaveBy
  rw [outAttach_none die n out (by omega) (by omega)]
  dsimp only
  rw [if_pos (by omega)]

theorem leaveBy_mesh (die n out : Nat) (p : Packet) (s : State) (h : out < 8) : (leaveBy die n out p s).nt.wires =
    s.nt.wires ++ [{ die := die, tile := physTile s die (meshStep die n out).1, port := (meshStep die n out).2, pkt := p }] := by
  unfold leaveBy
  rw [outAttach_none die n out (by omega) (by omega)]
  dsimp only
  rw [if_neg (by omega)]

theorem leaveBy_module (die n out b m : Nat) (p : Packet) (s : State) (h : outAttach die n out = .module b m) (hb : b < 4) (hm : m < 4) :
    ((modOf (leaveBy die n out p s) die b ((carrier s die b m).getD m)).replay.getLast?).map (·.pkts) = some [p] := by
  unfold leaveBy
  rw [h]
  exact sendPacket_kept die b _ p s hb (carrier_lt s die b m hm)

/-! ### Starting (R129, R163) -/

/-- The credits the packet takes. -/
def credited (die t n out plane vc cls flits : Nat) (s : State) : State :=
  if noCount die n out then s
  else { s with nt := { s.nt with used := upd 0 s.nt.used (credKey s die t n out plane vc cls) (· + flits) } }

/-- Everything a start does before the packet goes. -/
def departing (die t n out plane vc cls beats : Nat) (r : Req) (p : Packet) (s : State) : State :=
  doIf (isEgressPort die n out) (chargeStart die t n out p)
    (doIf (r.escape && isAdaptive r.q.pkt.vc) (addCount die (tpage t 0) 0x80 1)
      (flitCount die t out plane 0 (p.len + 1)
        (leftBuffer die t n out (p.len + 1) beats r (credited die t n out plane vc cls (p.len + 1) s))))

/-- The output is an off-package port. -/
def offPackage (die n out : Nat) : Bool := match outAttach die n out with | .lnk _ => true | _ => false

theorem startOut_eq (die t n out plane vc cls beats : Nat) (r : Req) (s : State) :
    let p := afterHop s die n r.inPort out r.escape r.q.pkt
    startOut die t n out plane vc cls beats r s =
      doIf (offPackage die n out) (freeTransit r.q.pkt) (leaveBy die n out p (departing die t n out plane vc cls beats r p s)) := rfl

/-- The counters and the shaper nodes leave the router's queues, credits and arbiters. -/
theorem departing_view (die t n out plane vc cls beats : Nat) (r : Req) (p : Packet) (s : State) :
    routerView (departing die t n out plane vc cls beats r p s) =
      routerView (leftBuffer die t n out (p.len + 1) beats r (credited die t n out plane vc cls (p.len + 1) s)) := by
  unfold departing
  have hcharge : ∀ c u, routerView (doIf c (chargeStart die t n out p) u) = routerView u := fun c u =>
    doIf_same routerView c _ u fun w => (chargeStart_charges die t n out p w).view
  have hcount : ∀ c u, routerView (doIf c (addCount die (tpage t 0) 0x80 1) u) = routerView u := fun c u =>
    doIf_same routerView c _ u fun w => rfl
  rw [hcharge, hcount]
  rfl

theorem departing_loss (die t n out plane vc cls beats : Nat) (r : Req) (p : Packet) (s : State) :
    lossView (departing die t n out plane vc cls beats r p s) = lossView s := by
  have hcharge : ∀ c u, lossView (doIf c (chargeStart die t n out p) u) = lossView u := fun c u =>
    doIf_same lossView c _ u fun w => lossView_of_lk (same_of_clr [.rg, .nt] _ _ (chargeStart_clr _ rfl rfl _ _ _ _ _ _) .lk (by decide))
  have hcount : ∀ c u, lossView (doIf c (addCount die (tpage t 0) 0x80 1) u) = lossView u := fun c u =>
    doIf_same lossView c _ u fun w => rfl
  have hflit : ∀ k u, lossView (flitCount die t out plane 0 k u) = lossView u := fun _ _ => rfl
  have hcredit : lossView (credited die t n out plane vc cls (p.len + 1) s) = lossView s := by
    unfold credited
    split <;> rfl
  rw [departing, hcharge, hcount, hflit, leftBuffer_loss, hcredit]

theorem leftBuffer_ft (die t n out flits beats : Nat) (r : Req) (s : State) : (leftBuffer die t n out flits beats r s).ft = s.ft := by
  unfold leftBuffer
  split
  · exact same_of_clr [.nt, .lk, .out] _ _ ((askFronts_clr _ rfl _ _ _ _).trans ((oweCredits_clr _ rfl rfl rfl _ _ _).trans
      (popBuf_clr _ rfl _ _ _))) .ft (by decide)
  · exact same_of_clr [.nt] _ _ (setFront_clr _ rfl _ _ _) .ft (by decide)

/-- The spare positions, which place the tiles, stay. -/
theorem departing_ft (die t n out plane vc cls beats : Nat) (r : Req) (p : Packet) (s : State) :
    (departing die t n out plane vc cls beats r p s).ft = s.ft := by
  have hcharge : ∀ c u, (doIf c (chargeStart die t n out p) u).ft = u.ft := fun c u =>
    doIf_same (fun w => w.ft) c _ u fun w => same_of_clr [.rg, .nt] _ _ (chargeStart_clr _ rfl rfl _ _ _ _ _ _) .ft (by decide)
  have hcount : ∀ c u, (doIf c (addCount die (tpage t 0) 0x80 1) u).ft = u.ft := fun c u =>
    doIf_same (fun w => w.ft) c _ u fun w => rfl
  have hflit : ∀ k u, (flitCount die t out plane 0 k u).ft = u.ft := fun _ _ => rfl
  have hcredit : (credited die t n out plane vc cls (p.len + 1) s).ft = s.ft := by
    unfold credited
    split <;> rfl
  rw [departing, hcharge, hcount, hflit, leftBuffer_ft, hcredit]

theorem credited_used (die t n out plane vc cls flits : Nat) (s : State) (h : noCount die n out = false) (k : Nat) :
    look 0 (credited die t n out plane vc cls flits s).nt.used k =
      if k = credKey s die t n out plane vc cls then look 0 s.nt.used (credKey s die t n out plane vc cls) + flits
      else look 0 s.nt.used k := by
  unfold credited
  rw [if_neg (by rw [h]; decide)]
  exact look_upd 0 s.nt.used (credKey s die t n out plane vc cls) k (· + flits)

/-- What a start leaves of the router. -/
theorem startOut_effect (die t n out plane vc cls beats : Nat) (r : Req) (s : State) :
    let p := afterHop s die n r.inPort out r.escape r.q.pkt
    let u := startOut die t n out plane vc cls beats r s
    u.nt.arbs = s.nt.arbs ∧
    (noCount die n out = false → let k := credKey s die t n out plane vc cls
      look 0 u.nt.used k = look 0 s.nt.used k + (p.len + 1) ∧ ∀ k', k' ≠ k → look 0 u.nt.used k' = look 0 s.nt.used k') ∧
    (r.q.pkt.mc = false → ∀ k, (bufQ u k).map nameOf = withoutFront s r.key k) ∧
    (out = 10 ∨ out = 11 → u.nt.delivered = s.nt.delivered ++ [{ die := die, tile := n, port := out, pkt := p }]) ∧
    (out < 8 → u.nt.wires = s.nt.wires ++
      [{ die := die, tile := physTile s die (meshStep die n out).1, port := (meshStep die n out).2, pkt := p }]) ∧
    (∀ b m, outAttach die n out = .module b m → b < 4 → m < 4 →
      ((modOf u die b ((carrier s die b m).getD m)).replay.getLast?).map (·.pkts) = some [p]) := by
  intro p u
  have hu : u = doIf (offPackage die n out) (freeTransit r.q.pkt) (leaveBy die n out p (departing die t n out plane vc cls beats r p s)) := rfl
  clear_value u
  generalize hd : departing die t n out plane vc cls beats r p s = d at hu
  have hfree : routerView u = routerView (leaveBy die n out p d) := by
    rw [hu]
    exact doIf_same routerView _ _ _ fun w => freeTransit_view _ w
  have hdep := departing_view die t n out plane vc cls beats r p s
  rw [hd] at hdep
  obtain ⟨hused, harbs, hdel, hwires⟩ := leftBuffer_rest die t n out (p.len + 1) beats r (credited die t n out plane vc cls (p.len + 1) s)
  obtain ⟨hlused, hlarbs, hlnames⟩ := leaveBy_rest die n out p d
  have hcred : ∀ w : State, w = credited die t n out plane vc cls (p.len + 1) s → w.nt.arbs = s.nt.arbs ∧
      w.nt.delivered = s.nt.delivered ∧ w.nt.wires = s.nt.wires ∧ w.nt.bufs = s.nt.bufs := by
    rintro w rfl
    unfold credited
    split <;> exact ⟨rfl, rfl, rfl, rfl⟩
  obtain ⟨hcarbs, hcdel, hcwires, hcbufs⟩ := hcred _ rfl
  simp only [routerView, Prod.mk.injEq] at hfree hdep
  obtain ⟨hfused, hfarbs, hfdel, hfwires, hfnames⟩ := hfree
  obtain ⟨hdused, hdarbs, hddel, hdwires, hdnames⟩ := hdep
  refine ⟨?_, fun hn => ?_, fun hmc k => ?_, fun ho => ?_, fun ho => ?_, fun b m hm hb hm4 => ?_⟩
  · rw [hfarbs, hlarbs, hdarbs, harbs, hcarbs]
  · rw [hfused, hlused, hdused, hused]
    refine ⟨?_, fun k' hk' => ?_⟩
    · rw [credited_used _ _ _ _ _ _ _ _ _ hn, if_pos rfl]
    · rw [credited_used _ _ _ _ _ _ _ _ _ hn, if_neg hk']
  · refine (congrFun hfnames k).trans ((hlnames k).trans ((congrFun hdnames k).trans ?_))
    rw [leftBuffer_names _ _ _ _ _ _ _ _ hmc]
    unfold withoutFront bufQ
    rw [hcbufs]
  · rw [hfdel, leaveBy_local _ _ _ _ _ ho, hddel, hdel, hcdel]
  · have hphys : ∀ j, physTile d die j = physTile s die j := fun j => by
      unfold physTile spareOf
      rw [← hd, departing_ft]
    rw [hfwires, leaveBy_mesh _ _ _ _ _ ho, hdwires, hwires, hcwires, hphys]
  · have hoff : offPackage die n out = false := by
      unfold offPackage
      rw [hm]
    have hcar : carrier d die b m = carrier s die b m := carrier_of_loss (by rw [← hd, departing_loss]) die b m
    rw [hu, hoff, doIf_false, ← hcar]
    exact leaveBy_module die n out b m p d hm hb hm4

end Sys2Proof.Machine
end

section
/-! SUPPORT. The decision of an output port arbiter (O25). -/
namespace Sys2Proof.Machine

theorem onEscape_shape (die n : Nat) (p : Packet) : (onEscape die n p).len = p.len ∧ (onEscape die n p).cls = p.cls := by
  unfold onEscape
  split <;> exact ⟨rfl, rfl⟩

/-- The hop changes neither length nor class. -/
theorem afterHop_shape (s : State) (die n i out : Nat) (esc : Bool) (p : Packet) :
    (afterHop s die n i out esc p).len = p.len ∧ (afterHop s die n i out esc p).cls = p.cls := by
  have hesc : (if esc then onEscape die n p else p).len = p.len ∧ (if esc then onEscape die n p else p).cls = p.cls := by
    split
    · exact onEscape_shape die n p
    · exact ⟨rfl, rfl⟩
  unfold afterHop
  dsimp only
  split
  · exact hesc
  · split <;> exact hesc
  · exact hesc

/-- A state with other arbiters. -/
def withArbs (a : SMap Arb) (s : State) : State := { s with nt := { s.nt with arbs := a } }

theorem afterHop_withArbs (a : SMap Arb) (s : State) (die n i out : Nat) (esc : Bool) (p : Packet) :
    afterHop (withArbs a s) die n i out esc p = afterHop s die n i out esc p := rfl

theorem credKey_withArbs (a : SMap Arb) (s : State) (die t n port plane vc cls : Nat) :
    credKey (withArbs a s) die t n port plane vc cls = credKey s die t n port plane vc cls := rfl

theorem withoutFront_withArbs (a : SMap Arb) (s : State) (k : Nat) : withoutFront (withArbs a s) k = withoutFront s k := rfl

theorem physTile_withArbs (a : SMap Arb) (s : State) (die n : Nat) : physTile (withArbs a s) die n = physTile s die n := rfl

theorem carrier_withArbs (a : SMap Arb) (s : State) (die b m : Nat) : carrier (withArbs a s) die b m = carrier s die b m := rfl

/-- A requester may be granted the output. -/
def mayStart (s : State) (die t n out plane vc cls i : Nat) (r : Req) : Prop :=
  i < 12 ∧ r ∈ portReqs (atStart s) die t n out plane vc cls i ∧ outEligible (atStart s) die t n out plane vc cls r = true ∧
    outRoom s die t n out plane vc cls r.q.pkt = true

/-- The requester that stands for each input port. -/
def outReqs (s : State) (die t n out plane vc cls : Nat) : List Req :=
  (List.range 12).filterMap fun i => (portReqs (atStart s) die t n out plane vc cls i).find? fun r =>
    outEligible (atStart s) die t n out plane vc cls r && outRoom s die t n out plane vc cls r.q.pkt

/-- A request stands at the front of its buffer, and names its input port. -/
theorem portReqs_front (s : State) (die t n out plane vc cls i : Nat) (r : Req) (h : r ∈ portReqs s die t n out plane vc cls i) :
    r.inPort = i := by
  unfold portReqs at h
  obtain ⟨⟨v, c⟩, -, hr⟩ := List.mem_filterMap.mp h
  dsimp only at hr
  split at hr
  · cases hr
  · split at hr
    · cases hr
    · obtain ⟨⟨o, e⟩, -, hoe⟩ := List.exists_of_findSome?_eq_some hr
      dsimp only at hoe
      split at hoe
      · cases hoe; rfl
      · cases hoe

/-- The requesters that stand for their ports are eligible. -/
theorem mem_outReqs (s : State) (die t n out plane vc cls : Nat) (r : Req) (h : r ∈ outReqs s die t n out plane vc cls) :
    mayStart s die t n out plane vc cls r.inPort r := by
  obtain ⟨i, hi, hf⟩ := List.mem_filterMap.mp h
  have hmem := List.mem_of_find?_eq_some hf
  have hok := List.find?_some hf
  rw [portReqs_front _ _ _ _ _ _ _ _ _ _ hmem]
  rw [Bool.and_eq_true] at hok
  exact ⟨List.mem_range.mp hi, hmem, hok.1, hok.2⟩

/-- A port with an eligible requester has one that stands for it. -/
theorem outReqs_of_mayStart (s : State) (die t n out plane vc cls i : Nat) (r : Req) (h : mayStart s die t n out plane vc cls i r) :
    i ∈ (outReqs s die t n out plane vc cls).map (·.inPort) := by
  obtain ⟨hi, hmem, hel, hroom⟩ := h
  cases hf : (portReqs (atStart s) die t n out plane vc cls i).find? fun r =>
      outEligible (atStart s) die t n out plane vc cls r && outRoom s die t n out plane vc cls r.q.pkt with
  | none =>
    exact absurd (show _ = true by rw [hel, hroom]; rfl) (List.find?_eq_none.mp hf r hmem)
  | some x =>
    exact List.mem_map.mpr ⟨x, List.mem_filterMap.mpr ⟨i, List.mem_range.mpr hi, hf⟩,
      portReqs_front _ _ _ _ _ _ _ _ _ _ (List.mem_of_find?_eq_some hf)⟩

/-- The class of an input port at an output. -/
def outPrio (s : State) (die t out i : Nat) : Nat := rfld (atStart s) die (tpage t 0) (0x140 + 4 * out) (2 * i + 1) (2 * i)

theorem outPrio_lt (s : State) (die t out i : Nat) : outPrio s die t out i < 4 := by
  unfold outPrio rfld wbits bits
  have h : 2 * i + 1 + 1 - 2 * i = 2 := by omega
  rw [h]
  exact Nat.mod_lt _ (by decide)

/-- The grant of an output to a requester: the arbiter moves on and the packet starts. -/
def granted (s : State) (die t n out plane vc cls : Nat) (r : Req) : State :=
  let ak := outArb die t out plane vc cls
  let beats := beatsOf s die t out r.q.pkt
  startOut die t n out plane vc cls beats r (withArbs
    (put {} s.nt.arbs ak (afterGrant (look {} s.nt.arbs ak) r.inPort (outPrio s die t out r.inPort) s.tm.fclk beats)) s)

/-- What a grant leaves of the router. -/
theorem granted_effect (s : State) (die t n out plane vc cls : Nat) (r : Req) :
    let p := afterHop s die n r.inPort out r.escape r.q.pkt
    let u := granted s die t n out plane vc cls r
    let a := look {} s.nt.arbs (outArb die t out plane vc cls)
    look {} u.nt.arbs (outArb die t out plane vc cls) =
      afterGrant a r.inPort (outPrio s die t out r.inPort) s.tm.fclk (beatsOf s die t out r.q.pkt) ∧
    (noCount die n out = false → let k := credKey s die t n out plane vc cls
      look 0 u.nt.used k = look 0 s.nt.used k + (p.len + 1) ∧ ∀ k', k' ≠ k → look 0 u.nt.used k' = look 0 s.nt.used k') ∧
    (r.q.pkt.mc = false → ∀ k, (bufQ u k).map nameOf = withoutFront s r.key k) ∧
    (out = 10 ∨ out = 11 → u.nt.delivered = s.nt.delivered ++ [{ die := die, tile := n, port := out, pkt := p }]) ∧
    (out < 8 → u.nt.wires = s.nt.wires ++
      [{ die := die, tile := physTile s die (meshStep die n out).1, port := (meshStep die n out).2, pkt := p }]) ∧
    (∀ b m, outAttach die n out = .module b m → b < 4 → m < 4 →
      ((modOf u die b ((carrier s die b m).getD m)).replay.getLast?).map (·.pkts) = some [p]) := by
  intro p u a
  generalize hw : put {} s.nt.arbs (outArb die t out plane vc cls)
    (afterGrant a r.inPort (outPrio s die t out r.inPort) s.tm.fclk (beatsOf s die t out r.q.pkt)) = w
  have hu : u = startOut die t n out plane vc cls (beatsOf s die t out r.q.pkt) r (withArbs w s) := by
    rw [← hw]
    rfl
  have heff := startOut_effect die t n out plane vc cls (beatsOf s die t out r.q.pkt) r (withArbs w s)
  dsimp only at heff
  rw [← hu] at heff
  simp only [afterHop_withArbs, credKey_withArbs, withoutFront_withArbs, physTile_withArbs, carrier_withArbs] at heff
  obtain ⟨harbs, hrest⟩ := heff
  refine ⟨?_, hrest⟩
  have hput : (withArbs w s).nt.arbs = put {} s.nt.arbs (outArb die t out plane vc cls)
      (afterGrant a r.inPort (outPrio s die t out r.inPort) s.tm.fclk (beatsOf s die t out r.q.pkt)) := hw.symm
  rw [harbs, hput, look_put, if_pos rfl]

theorem decideOutput_held (s : State) (die t n out plane vc cls : Nat) (hn : logTile s die t = some n)
    (h : frozen (atStart s) die (tpage t 0) out = true ∨ s.tm.fclk < (look {} s.nt.arbs (outArb die t out plane vc cls)).endAt) :
    decideOutput die t out plane vc cls s = s := by
  unfold decideOutput
  rw [hn]
  exact if_pos h

/-- The winner of a free arbiter. -/
theorem decideOutput_free (s : State) (die t n out plane vc cls : Nat) (hn : logTile s die t = some n)
    (hf : frozen (atStart s) die (tpage t 0) out = false) (he : (look {} s.nt.arbs (outArb die t out plane vc cls)).endAt ≤ s.tm.fclk) :
    decideOutput die t out plane vc cls s =
      match pickWinner (decide (rfld (atStart s) die (tpage t 0) 0x48 0 0 = 1)) (rfld (atStart s) die (tpage t 0) 0x48 15 8)
          (look {} s.nt.arbs (outArb die t out plane vc cls)) (outPrio s die t out)
          ((outReqs s die t n out plane vc cls).map fun r => (r.inPort, r.q.since)) with
      | none => s
      | some w =>
        match (outReqs s die t n out plane vc cls).find? fun r => r.inPort = w with
        | none => s
        | some r =>
          let ak := outArb die t out plane vc cls
          let beats := beatsOf s die t out r.q.pkt
          startOut die t n out plane vc cls beats r { s with nt := { s.nt with
            arbs := put {} s.nt.arbs ak (afterGrant (look {} s.nt.arbs ak) w (outPrio s die t out w) s.tm.fclk beats) } } := by
  unfold decideOutput
  rw [hn]
  exact if_neg (by rw [hf]; simp; omega)

theorem decideOutput_idle (s : State) (die t n out plane vc cls : Nat) (hn : logTile s die t = some n)
    (hf : frozen (atStart s) die (tpage t 0) out = false) (he : (look {} s.nt.arbs (outArb die t out plane vc cls)).endAt ≤ s.tm.fclk)
    (hno : ∀ i r, ¬ mayStart s die t n out plane vc cls i r) : decideOutput die t out plane vc cls s = s := by
  have hnil : outReqs s die t n out plane vc cls = [] :=
    List.eq_nil_iff_forall_not_mem.mpr fun r hr => hno _ r (mem_outReqs _ _ _ _ _ _ _ _ r hr)
  rw [decideOutput_free s die t n out plane vc cls hn hf he, hnil, List.map_nil, pickWinner_nil]

/-- Somebody eligible is granted, by the rules of the mode. -/
theorem decideOutput_grants (s : State) (die t n out plane vc cls : Nat) (hn : logTile s die t = some n)
    (hf : frozen (atStart s) die (tpage t 0) out = false) (he : (look {} s.nt.arbs (outArb die t out plane vc cls)).endAt ≤ s.tm.fclk)
    (hsome : ∃ i r, mayStart s die t n out plane vc cls i r) :
    let a := look {} s.nt.arbs (outArb die t out plane vc cls)
    let starve := rfld (atStart s) die (tpage t 0) 0x48 15 8
    ∃ r, mayStart s die t n out plane vc cls r.inPort r ∧ decideOutput die t out plane vc cls s = granted s die t n out plane vc cls r ∧
      (decide (rfld (atStart s) die (tpage t 0) 0x48 0 0 = 1) = true → (starve = 0 ∨ (a.count + 1) % starve ≠ 0) →
        ∀ i' r', mayStart s die t n out plane vc cls i' r' → outPrio s die t out r.inPort ≤ outPrio s die t out i') := by
  intro a starve
  obtain ⟨i, r, hr⟩ := hsome
  have hids : ((outReqs s die t n out plane vc cls).map fun r => (r.inPort, r.q.since)).map (·.1) =
      (outReqs s die t n out plane vc cls).map (·.inPort) := by
    rw [List.map_map]
    rfl
  have hne : (outReqs s die t n out plane vc cls).map (fun r => (r.inPort, r.q.since)) ≠ [] := fun h => by
    have hmem := outReqs_of_mayStart s die t n out plane vc cls i r hr
    rw [← hids, h] at hmem
    cases hmem
  obtain ⟨w, hw, hwmem, hlow⟩ := pickWinner_some (decide (rfld (atStart s) die (tpage t 0) 0x48 0 0 = 1)) starve a (outPrio s die t out) _
    (outPrio_lt s die t out) hne
  rw [hids] at hwmem hlow
  obtain ⟨x, hx, hxw⟩ := List.mem_map.mp hwmem
  cases hfind : (outReqs s die t n out plane vc cls).find? fun r => r.inPort = w with
  | none => exact absurd (decide_eq_true hxw) (List.find?_eq_none.mp hfind x hx)
  | some g =>
    have hgw : g.inPort = w := of_decide_eq_true (List.find?_some hfind :)
    refine ⟨g, mem_outReqs _ _ _ _ _ _ _ _ g (List.mem_of_find?_eq_some hfind), ?_, fun htwo hage i' r' hr' => ?_⟩
    · rw [decideOutput_free s die t n out plane vc cls hn hf he, hw]
      dsimp only
      rw [hfind]
      dsimp only
      rw [← hgw]
      rfl
    · rw [hgw]
      exact hlow htwo hage i' (outReqs_of_mayStart s die t n out plane vc cls i' r' hr')

end Sys2Proof.Machine
end

section
/-! SUPPORT. The decision of an output port arbiter as O25 has it. -/
namespace Sys2Proof.Machine

/-- An output port arbiter grants one eligible requester, whose packet moves on (R162 to R168). -/
theorem output_arbiter_grants : ∀ (s : State) (die tile out plane vc cls n : Nat), logTile s die tile = some n →
      let page := tpage tile 0
      let s0 := atStart s
      let a := look {} s.nt.arbs (outArb die tile out plane vc cls)
      let two := decide (rfld s0 die page 0x48 0 0 = 1)
      let starve := rfld s0 die page 0x48 15 8
      let prio (i : Nat) := rfld s0 die page (0x140 + 4 * out) (2 * i + 1) (2 * i)
      let can (i : Nat) (r : Req) := i < 12 ∧ r ∈ portReqs s0 die tile n out plane vc cls i ∧
        outEligible s0 die tile n out plane vc cls r = true ∧ outRoom s die tile n out plane vc cls r.q.pkt = true
      ∃ t, exec (.arbitrationDecision (.output die tile out plane vc cls)) s = .next t ∧
        ((frozen s0 die page out = true ∨ s.tm.fclk < a.endAt ∨ ∀ i r, ¬ can i r) → t = s) ∧
        (frozen s0 die page out = false → a.endAt ≤ s.tm.fclk → (∃ i r, can i r) → ∃ i r, can i r ∧
          let p := afterHop s die n i out r.escape r.q.pkt
          let beats := if portLocked s die tile out ∧ planeOf p.cls = 0 then p.len / 2 + 1 else p.len + 1
          (two = true → (starve = 0 ∨ (a.count + 1) % starve ≠ 0) → ∀ i' r', can i' r' → prio i ≤ prio i') ∧
          look {} t.nt.arbs (outArb die tile out plane vc cls) =
            { count := a.count + 1, order := a.order.filter (· ≠ i) ++ [i], prev := a.prev.set (prio i) (i + 1),
              endAt := s.tm.fclk + beats, startAt := s.tm.fclk + 1 } ∧
          (noCount die n out = false → let k := credKey s die tile n out plane vc cls
            look 0 t.nt.used k = look 0 s.nt.used k + (p.len + 1) ∧ ∀ k', k' ≠ k → look 0 t.nt.used k' = look 0 s.nt.used k') ∧
          (r.q.pkt.mc = false → let names (x : QPkt) := (x.pkt.dest, x.pkt.sseq, x.pkt.payload)
            (bufQ t r.key).map names = ((bufQ s r.key).map names).tail ∧ ∀ k', k' ≠ r.key → (bufQ t k').map names = (bufQ s k').map names) ∧
          (out = 10 ∨ out = 11 → t.nt.delivered = s.nt.delivered ++ [{ die := die, tile := n, port := out, pkt := p }]) ∧
          (out < 8 → let st := meshStep die n out
            t.nt.wires = s.nt.wires ++ [{ die := die, tile := physTile s die st.1, port := st.2, pkt := p }]) ∧
          (∀ b m, outAttach die n out = .module b m → b < 4 → m < 4 →
            ((modOf t die b ((carrier s die b m).getD m)).replay.getLast?).map (·.pkts) = some [p])) := by
  intro s die tile out plane vc cls n hn page s0 a two starve prio can
  refine ⟨decideOutput die tile out plane vc cls s, rfl, fun h => ?_, fun hf he hsome => ?_⟩
  · by_cases hheld : frozen s0 die page out = true ∨ s.tm.fclk < a.endAt
    · exact decideOutput_held s die tile n out plane vc cls hn hheld
    · have hno : ∀ i r, ¬ can i r := (h.resolve_left fun h1 => hheld (.inl h1)).resolve_left fun h2 => hheld (.inr h2)
      exact decideOutput_idle s die tile n out plane vc cls hn (Bool.eq_false_iff.mpr fun hfr => hheld (.inl hfr))
        (Nat.le_of_not_lt fun hlt => hheld (.inr hlt)) hno
  · obtain ⟨r, hr, hgrant, hlow⟩ := decideOutput_grants s die tile n out plane vc cls hn hf he hsome
    obtain ⟨hlen, hcls⟩ := afterHop_shape s die n r.inPort out r.escape r.q.pkt
    obtain ⟨harb, hused, hnames, hlocal, hmesh, hmod⟩ := granted_effect s die tile n out plane vc cls r
    rw [hgrant]
    refine ⟨r.inPort, r, hr, hlow, ?_, hused, fun hmc => ⟨?_, fun k' hk' => ?_⟩, hlocal, hmesh, hmod⟩
    · rw [harb, hlen, hcls]
      rfl
    · exact (hnames hmc r.key).trans (if_pos rfl)
    · exact (hnames hmc k').trans (if_neg hk')

end Sys2Proof.Machine
end

section
/-! SUPPORT. The decision of an injection port and plane (R173), and O25. -/
namespace Sys2Proof.Machine

/-! ### The front packets of a queue -/

theorem sameFlow_refl (p : Packet) : sameFlow p p = true := by
  simp [sameFlow]

/-- A front packet is no packet of a flow seen before it, and is in the queue. -/
theorem fronts_new (xs : List QPkt) (seen : List Packet) (q : QPkt) (h : q ∈ fronts xs seen) :
    q ∈ xs ∧ ∀ p ∈ seen, sameFlow p q.pkt = false := by
  induction xs generalizing seen with
  | nil => cases h
  | cons x xs ih =>
    unfold fronts at h
    split at h
    · obtain ⟨hmem, hnew⟩ := ih seen h
      exact ⟨List.mem_cons_of_mem _ hmem, hnew⟩
    · next hx =>
      obtain rfl | hq := List.mem_cons.mp h
      · refine ⟨List.mem_cons_self .., fun p hp => ?_⟩
        rw [Bool.eq_false_iff]
        exact fun hs => hx (List.any_eq_true.mpr ⟨p, hp, hs⟩)
      · obtain ⟨hmem, hnew⟩ := ih _ hq
        exact ⟨List.mem_cons_of_mem _ hmem, fun p hp => hnew p (List.mem_cons_of_mem _ hp)⟩

/-- Of the packets equal to a front packet it is the first, so that erasing it by place and by content is the same. -/
theorem map_erase_front (xs : List QPkt) (seen : List Packet) (q : QPkt) (h : q ∈ fronts xs seen) :
    (xs.erase q).map (·.pkt) = (xs.map (·.pkt)).erase q.pkt := by
  induction xs generalizing seen with
  | nil => cases h
  | cons x xs ih =>
    have hpass : ∀ seen', q ∈ fronts xs seen' → x.pkt ≠ q.pkt → ((x :: xs).erase q).map (·.pkt) = ((x :: xs).map (·.pkt)).erase q.pkt := by
      intro seen' hq hne
      have hx : x ≠ q := fun he => hne (by rw [he])
      rw [List.erase_cons_tail (by simpa using hx), List.map_cons, List.map_cons, List.erase_cons_tail (by simpa using hne), ih _ hq]
    unfold fronts at h
    split at h
    · next hx =>
      refine hpass seen h fun he => ?_
      obtain ⟨p, hp, hs⟩ := List.any_eq_true.mp hx
      rw [he, (fronts_new xs seen q h).2 p hp] at hs
      cases hs
    · obtain rfl | hq := List.mem_cons.mp h
      · simp
      · refine hpass _ hq fun he => ?_
        have hf := (fronts_new xs _ q hq).2 x.pkt (List.mem_cons_self ..)
        rw [he, sameFlow_refl] at hf
        cases hf

theorem removeInj_go_pkt (q : QPkt) (now : Nat) (xs : List QPkt) : (removeInj.go q now xs).map (·.pkt) = xs.map (·.pkt) := by
  induction xs with
  | nil => rfl
  | cons x xs ih =>
    unfold removeInj.go
    split
    · rfl
    · rw [List.map_cons, ih, List.map_cons]

/-- The packets left after a front packet leaves. -/
theorem removeInj_pkt (q : QPkt) (now : Nat) (xs : List QPkt) (h : q ∈ fronts xs []) :
    (removeInj q now xs).map (·.pkt) = (xs.map (·.pkt)).erase q.pkt := by
  rw [← map_erase_front xs [] q h]
  exact removeInj_go_pkt q now (xs.erase q)

theorem mem_insBy {α : Type} (lt : α → α → Bool) (x y : α) (xs : List α) : y ∈ insBy lt x xs ↔ y = x ∨ y ∈ xs := by
  induction xs with
  | nil => simp [insBy]
  | cons z xs ih =>
    unfold insBy
    split
    · simp
    · simp only [List.mem_cons, ih]
      tauto

theorem mem_sortBy {α : Type} (lt : α → α → Bool) (y : α) (xs : List α) : y ∈ sortBy lt xs ↔ y ∈ xs := by
  induction xs with
  | nil => rfl
  | cons x xs ih => rw [sortBy, mem_insBy, ih, List.mem_cons]

/-! ### The two schedulers (R173) -/

/-- A packet that may be injected. -/
def mayInject (s : State) (die t n port k : Nat) (q : QPkt) : Prop :=
  q ∈ fronts (injQ s k) [] ∧ q.since ≤ s.tm.fclk ∧ injEligible (atStart s) die t n port q.pkt = true

def injReqs (s : State) (die t n port k : Nat) : List QPkt := (waitingOn s k).filter fun q => injEligible (atStart s) die t n port q.pkt

theorem mem_injReqs (s : State) (die t n port k : Nat) (q : QPkt) : q ∈ injReqs s die t n port k ↔ mayInject s die t n port k q := by
  simp only [injReqs, waitingOn, List.mem_filter, decide_eq_true_eq, mayInject, and_assoc]

/-- The requesters of a scheduler: the keys of the packets, each with its age. -/
def askers (key : QPkt → Nat) (xs : List QPkt) : List (Nat × Nat) :=
  (sortBy (fun a b => decide (a < b)) ((xs.map key).eraseDups)).map fun c => (c, sinceOf (xs.filter fun q => key q = c))

theorem mem_askers (key : QPkt → Nat) (xs : List QPkt) (c : Nat) : c ∈ (askers key xs).map (·.1) ↔ ∃ q ∈ xs, key q = c := by
  have hmap : (askers key xs).map (·.1) = sortBy (fun a b => decide (a < b)) ((xs.map key).eraseDups) := by
    unfold askers
    rw [List.map_map]
    exact List.map_id _
  rw [hmap, mem_sortBy, List.mem_eraseDups, List.mem_map]

/-- A scheduler with a packet to choose from takes the key of one. -/
theorem askers_winner (two : Bool) (starve : Nat) (a : Arb) (prio : Nat → Nat) (hp : ∀ i, prio i < 4) (key : QPkt → Nat)
    (xs : List QPkt) (q : QPkt) (hq : q ∈ xs) :
    ∃ c, pickWinner two starve a prio (askers key xs) = some c ∧ ∃ q' ∈ xs, key q' = c := by
  have hne : askers key xs ≠ [] := fun he => by
    have hmem := (mem_askers key xs (key q)).mpr ⟨q, hq, rfl⟩
    rw [he] at hmem
    cases hmem
  obtain ⟨c, hc, hmem, -⟩ := pickWinner_some two starve a prio _ hp hne
  exact ⟨c, hc, (mem_askers key xs c).mp hmem⟩

def ctxPrio (s : State) (die t c : Nat) : Nat := if c = 2048 then 0 else rfld (atStart s) die (tpage t 2) 0x10C 1 0 c
def clsPrio (s : State) (die t port c : Nat) : Nat :=
  rfld (atStart s) die (tpage t 2) (0x140 + 4 * nodePort port) (2 * c + 1) (2 * c)

theorem ctxPrio_lt (s : State) (die t c : Nat) : ctxPrio s die t c < 4 := by
  unfold ctxPrio
  split
  · decide
  · exact Nat.lt_of_lt_of_le (Nat.mod_lt _ (by decide)) (by decide)

theorem clsPrio_lt (s : State) (die t port c : Nat) : clsPrio s die t port c < 4 := by
  unfold clsPrio rfld wbits bits
  have h : 2 * c + 1 + 1 - 2 * c = 2 := by omega
  rw [h]
  exact Nat.mod_lt _ (by decide)

/-- The arbiters after a grant of both schedulers. -/
def injArbs (s : State) (die t port plane c z beats : Nat) : SMap Arb :=
  put {} (put {} s.nt.arbs (injArb die t port plane 0)
      (afterGrant (look {} s.nt.arbs (injArb die t port plane 0)) c (ctxPrio s die t c) s.tm.fclk beats))
    (injArb die t port plane 1)
    (afterGrant (look {} s.nt.arbs (injArb die t port plane 1)) z (clsPrio s die t port z) s.tm.fclk beats)

/-- The packet has left its queue. -/
def unqueued (s : State) (die t port plane c z : Nat) (q : QPkt) : State :=
  let beats := beatsOf s die t port q.pkt
  let k := ikey die t port plane
  { s with nt := { s.nt with
    arbs := injArbs s die t port plane c z beats
    inject := put [] s.nt.inject k (removeInj q (s.tm.fclk + beats) (injQ s k)) } }

/-- The packet starts into the router. -/
def injected (s : State) (die t n port plane c z : Nat) (q : QPkt) : State :=
  placePacket die t n port (escCls q.pkt q.pkt.vc) (chooseLane (atStart s) die t q.pkt)
    (chargeStart die t n port q.pkt (unqueued s die t port plane c z q))

theorem decideInject_held (s : State) (die t port plane n : Nat) (hn : logTile s die t = some n)
    (h : frozen (atStart s) die (tpage t 2) (2 * nodePort port) = true ∨ frozen (atStart s) die (tpage t 2) (2 * nodePort port + 1) = true ∨
      s.tm.fclk < (look {} s.nt.arbs (injArb die t port plane 0)).endAt) : decideInject die t port plane s = s := by
  unfold decideInject
  rw [hn]
  exact if_pos h

/-- The choice of the free schedulers. -/
theorem decideInject_free (s : State) (die t port plane n : Nat) (hn : logTile s die t = some n)
    (h : ¬ (frozen (atStart s) die (tpage t 2) (2 * nodePort port) = true ∨ frozen (atStart s) die (tpage t 2) (2 * nodePort port + 1) = true ∨
      s.tm.fclk < (look {} s.nt.arbs (injArb die t port plane 0)).endAt)) :
    let two := decide (rfld (atStart s) die (tpage t 2) 0x48 0 0 = 1)
    let starve := rfld (atStart s) die (tpage t 2) 0x48 15 8
    let fs := injReqs s die t n port (ikey die t port plane)
    decideInject die t port plane s =
      match pickWinner two starve (look {} s.nt.arbs (injArb die t port plane 0)) (ctxPrio s die t) (askers (fun q => ctxReq q.pkt) fs) with
      | none => s
      | some c =>
        match pickWinner two starve (look {} s.nt.arbs (injArb die t port plane 1)) (clsPrio s die t port)
            (askers (fun q => clsCode q.pkt.cls) (fs.filter fun q => ctxReq q.pkt = c)) with
        | none => s
        | some z =>
          match (fs.filter fun q => ctxReq q.pkt = c).find? fun q => clsCode q.pkt.cls = z with
          | none => s
          | some q => injected s die t n port plane c z q := by
  unfold decideInject
  rw [hn]
  exact if_neg h

theorem decideInject_idle (s : State) (die t port plane n : Nat) (hn : logTile s die t = some n)
    (hno : ∀ q, ¬ mayInject s die t n port (ikey die t port plane) q) : decideInject die t port plane s = s := by
  by_cases h : frozen (atStart s) die (tpage t 2) (2 * nodePort port) = true ∨ frozen (atStart s) die (tpage t 2) (2 * nodePort port + 1) = true ∨
      s.tm.fclk < (look {} s.nt.arbs (injArb die t port plane 0)).endAt
  · exact decideInject_held s die t port plane n hn h
  · have hnil : injReqs s die t n port (ikey die t port plane) = [] :=
      List.eq_nil_iff_forall_not_mem.mpr fun q hq => hno q ((mem_injReqs _ _ _ _ _ _ q).mp hq)
    have haskers : ∀ key, askers key [] = [] := fun _ => rfl
    rw [decideInject_free s die t port plane n hn h, hnil, haskers, pickWinner_nil]

/-- Some packet that may be injected is. -/
theorem decideInject_grants (s : State) (die t port plane n : Nat) (hn : logTile s die t = some n)
    (h : ¬ (frozen (atStart s) die (tpage t 2) (2 * nodePort port) = true ∨ frozen (atStart s) die (tpage t 2) (2 * nodePort port + 1) = true ∨
      s.tm.fclk < (look {} s.nt.arbs (injArb die t port plane 0)).endAt))
    (hsome : ∃ q, mayInject s die t n port (ikey die t port plane) q) :
    ∃ q c z, mayInject s die t n port (ikey die t port plane) q ∧ decideInject die t port plane s = injected s die t n port plane c z q := by
  obtain ⟨q, hq⟩ := hsome
  have heq := decideInject_free s die t port plane n hn h
  dsimp only at heq
  generalize decide (rfld (atStart s) die (tpage t 2) 0x48 0 0 = 1) = two at heq
  generalize rfld (atStart s) die (tpage t 2) 0x48 15 8 = starve at heq
  obtain ⟨c, hc, q1, hq1, hc1⟩ := askers_winner two starve (look {} s.nt.arbs (injArb die t port plane 0)) (ctxPrio s die t)
    (ctxPrio_lt s die t) (fun q => ctxReq q.pkt) _ q ((mem_injReqs _ _ _ _ _ _ q).mpr hq)
  have hmine : q1 ∈ (injReqs s die t n port (ikey die t port plane)).filter fun q => ctxReq q.pkt = c :=
    List.mem_filter.mpr ⟨hq1, decide_eq_true hc1⟩
  obtain ⟨z, hz, q2, hq2, hz2⟩ := askers_winner two starve (look {} s.nt.arbs (injArb die t port plane 1)) (clsPrio s die t port)
    (clsPrio_lt s die t port) (fun q => clsCode q.pkt.cls) _ q1 hmine
  rw [hc] at heq
  dsimp only at heq
  rw [hz] at heq
  dsimp only at heq
  cases hfind : ((injReqs s die t n port (ikey die t port plane)).filter fun q => ctxReq q.pkt = c).find? fun q => clsCode q.pkt.cls = z with
  | none => exact absurd (decide_eq_true hz2) (List.find?_eq_none.mp hfind q2 hq2)
  | some g =>
    rw [hfind] at heq
    exact ⟨g, c, z, (mem_injReqs _ _ _ _ _ _ g).mp (List.mem_filter.mp (List.mem_of_find?_eq_some hfind)).1, heq⟩

/-! ### Into the router's buffer -/

/-- A packet of this package goes by no lost bridge where none is lost. -/
theorem towardLost_none (s : State) (die t n : Nat) (p : Packet) (h : ∀ x m, (modOf s die x m).unplaced = false) :
    towardLost s die t n p = false := by
  unfold towardLost
  split
  · rfl
  · split
    · split
      · exact h _ _
      · rfl
    · rfl

/-- A packet for this package, no multicast, with its bridges standing, joins its buffer. -/
theorem placePacket_local (die t n port cls : Nat) (p : Packet) (s : State) (hmc : p.mc = false) (hpkg : aPkg p.dest = pkgNo s)
    (h : ∀ x m, (modOf s die x m).unplaced = false) :
    placePacket die t n port cls p s = pushBuf (bkey die t port (planeOf p.cls) p.vc cls) { pkt := p } s := by
  unfold placePacket
  dsimp only
  rw [if_neg (by rw [hmc]; decide), towardLost_none s die t n p h, if_neg (by decide), if_neg (fun hn => hn.1 hpkg)]

theorem chooseLane_local (s : State) (die t : Nat) (p : Packet) (hpkg : aPkg p.dest = pkgNo s) : chooseLane s die t p = p := by
  unfold chooseLane
  rw [if_pos (by simp [hpkg])]

theorem bufQ_pushBuf (k : Nat) (q : QPkt) (s : State) (k' : Nat) : bufQ (pushBuf k q s) k' =
    if k' = k then bufQ s k ++ [{ q with since := max (s.tm.fclk + 1) (leavesAt s k) }] else bufQ s k' :=
  look_put _ _ _ _ _

theorem injQ_pushBuf (k : Nat) (q : QPkt) (s : State) (k' : Nat) : injQ (pushBuf k q s) k' = injQ s k' := rfl

/-- Before the packet enters its buffer: it has left its queue, both schedulers have counted, the nodes are charged. -/
theorem charged_effect (s : State) (die t n port plane c z : Nat) (q : QPkt) :
    let u := chargeStart die t n port q.pkt (unqueued s die t port plane c z q)
    u.tm = s.tm ∧ u.lk = s.lk ∧ u.nt.bufs = s.nt.bufs ∧ u.nt.leaving = s.nt.leaving ∧ u.nt.lockMode = s.nt.lockMode ∧
      u.nt.arbs = injArbs s die t port plane c z (beatsOf s die t port q.pkt) ∧
      u.nt.inject = put [] s.nt.inject (ikey die t port plane)
        (removeInj q (s.tm.fclk + beatsOf s die t port q.pkt) (injQ s (ikey die t port plane))) := by
  intro u
  have hsame := chargeStart_clr (Mask.of [.rg, .nt]) rfl rfl die t n port q.pkt (unqueued s die t port plane c z q)
  obtain ⟨tok, ch, hnt⟩ := chargeStart_charges die t n port q.pkt (unqueued s die t port plane c z q)
  refine ⟨same_of_clr _ _ _ hsame .tm (by decide), same_of_clr _ _ _ hsame .lk (by decide), ?_, ?_, ?_, ?_, ?_⟩
  · rw [hnt]; rfl
  · rw [hnt]; rfl
  · rw [hnt]; rfl
  · rw [hnt]; rfl
  · rw [hnt]; rfl

theorem leavesAt_of_nt {s t : State} (hl : t.nt.leaving = s.nt.leaving) (hm : t.nt.lockMode = s.nt.lockMode) (k : Nat) :
    leavesAt t k = leavesAt s k := by
  unfold leavesAt portLocked
  rw [hl, hm]

theorem injArb_stages (die t port plane : Nat) : injArb die t port plane 0 ≠ injArb die t port plane 1 := by
  unfold injArb
  omega

/-- What an injection leaves. -/
theorem injected_effect (s : State) (die t n port plane c z : Nat) (q : QPkt) (hmc : q.pkt.mc = false)
    (hpkg : aPkg q.pkt.dest = pkgNo s) (h : ∀ x m, (modOf s die x m).unplaced = false)
    (hq : q ∈ fronts (injQ s (ikey die t port plane)) []) :
    let u := injected s die t n port plane c z q
    let k := ikey die t port plane
    let kb := bkey die t port (planeOf q.pkt.cls) q.pkt.vc (escCls q.pkt q.pkt.vc)
    let beats := beatsOf s die t port q.pkt
    (injQ u k).map (·.pkt) = ((injQ s k).map (·.pkt)).erase q.pkt ∧ (∀ k', k' ≠ k → injQ u k' = injQ s k') ∧
    bufQ u kb = bufQ s kb ++ [{ pkt := q.pkt, since := max (s.tm.fclk + 1) (leavesAt s kb) }] ∧ (∀ k', k' ≠ kb → bufQ u k' = bufQ s k') ∧
    (look {} u.nt.arbs (injArb die t port plane 0)).count = (look {} s.nt.arbs (injArb die t port plane 0)).count + 1 ∧
    (look {} u.nt.arbs (injArb die t port plane 0)).endAt = s.tm.fclk + beats ∧
    (look {} u.nt.arbs (injArb die t port plane 1)).count = (look {} s.nt.arbs (injArb die t port plane 1)).count + 1 := by
  intro u k kb beats
  obtain ⟨htm, hlk, hbufs, hleaving, hlock, harbs, hinject⟩ := charged_effect s die t n port plane c z q
  generalize hv : chargeStart die t n port q.pkt (unqueued s die t port plane c z q) = v at htm hlk hbufs hleaving hlock harbs hinject
  have hlane : chooseLane (atStart s) die t q.pkt = q.pkt := chooseLane_local _ _ _ _ hpkg
  have hu : u = pushBuf kb { pkt := q.pkt } v := by
    show injected s die t n port plane c z q = _
    rw [injected, hlane, hv]
    refine placePacket_local _ _ _ _ _ _ _ hmc ?_ fun x m => ?_
    · unfold pkgNo
      rw [htm]
      exact hpkg
    · unfold modOf
      rw [hlk]
      exact h x m
  have hinj : ∀ k', injQ v k' = if k' = k then removeInj q (s.tm.fclk + beats) (injQ s k) else injQ s k' := fun k' => by
    unfold injQ
    rw [hinject]
    exact look_put _ _ _ _ _
  have hbuf : ∀ k', bufQ v k' = bufQ s k' := fun k' => by
    unfold bufQ
    rw [hbufs]
  have harb : u.nt.arbs = injArbs s die t port plane c z beats := by
    rw [hu]
    exact harbs
  have h01 := injArb_stages die t port plane
  refine ⟨?_, fun k' hk' => ?_, ?_, fun k' hk' => ?_, ?_, ?_, ?_⟩
  · rw [hu, injQ_pushBuf, hinj, if_pos rfl]
    exact removeInj_pkt q _ _ hq
  · rw [hu, injQ_pushBuf, hinj, if_neg hk']
  · rw [hu, bufQ_pushBuf, if_pos rfl, hbuf, htm, leavesAt_of_nt hleaving hlock]
  · rw [hu, bufQ_pushBuf, if_neg hk', hbuf]
  · rw [harb, injArbs, look_put, if_neg h01, look_put, if_pos rfl]
    rfl
  · rw [harb, injArbs, look_put, if_neg h01, look_put, if_pos rfl]
    rfl
  · rw [harb, injArbs, look_put, if_pos rfl]
    rfl

/-- Settles O25: the output arbiter and the two schedulers each take one of the eligible, and its packet moves on. -/
theorem arbitersGrantOne : Obligations.ArbitersGrantOne := by
  refine ⟨output_arbiter_grants, fun s die tile port plane n hn => ?_⟩
  intro page k a b pa s0 can held
  refine ⟨decideInject die tile port plane s, rfl, fun h => ?_, fun hfree hsome hall hbridges => ?_⟩
  · obtain hheld | hno := h
    · exact decideInject_held s die tile port plane n hn hheld
    · exact decideInject_idle s die tile port plane n hn hno
  · obtain ⟨q, c, z, hq, heq⟩ := decideInject_grants s die tile port plane n hn hfree hsome
    obtain ⟨hmc, hpkg⟩ := hall q (fronts_new _ _ q hq.1).1
    rw [heq]
    exact ⟨q, hq, injected_effect s die tile n port plane c z q hmc hpkg (fun x m => hbridges x m) hq.1⟩

end Sys2Proof.Machine
end

section
/-! SUPPORT. The plan: what PLAN_CMD leaves (R84), what a good image is (R81, R82), the ports that change over (R85); O23. -/
namespace Sys2Proof.Machine

/-! ### PLAN_CMD -/

/-- The page of the plan unit and the row of PLAN_CMD. -/
def planPage : PageInfo := { kind := .fmc1, inst := 0, sub := 1 }
def planCmdRow : RegRow := { off := 0x150, acc := .wo, w := 0x7 }

/-- Whether a command register's write is taken does not depend on the value. -/
theorem writes_planCmd {s : State} {m : Master} {v : Word} (h : Commands s m 0 0x721 0x150 v) (w : Word) :
    Writes s m 0 0x721 0x150 w planPage planCmdRow := ⟨h.1, h.2, rfl, rfl, rfl⟩

theorem writeOf_planCmd {s : State} {m : Master} {v : Word} (h : Commands s m 0 0x721 0x150 v) (w : Word) :
    writeOf m 0 0x721 0x150 w s = emit (.regDone m 0 0) (planCmd w s) := by
  rw [writeOf_taken s m 0 0x721 0x150 w planPage planCmdRow (writes_planCmd h w), writeRow_single 0 0x721 planPage planCmdRow m w s rfl rfl]
  rfl

theorem exec_planCheck {s : State} {m : Master} {v : Word} (h : Commands s m 0 0x721 0x150 v) :
    exec (.planCheck m) s = .next (emit (.regDone m 0 0) (planCheck s)) := congrArg Host.Outcome.next (writeOf_planCmd h 1)

theorem exec_planAdopt {s : State} {m : Master} {v : Word} (h : Commands s m 0 0x721 0x150 v) :
    exec (.planAdopt m) s = .next (emit (.regDone m 0 0) (planAdopt s)) := congrArg Host.Outcome.next (writeOf_planCmd h 2)

theorem exec_planCancel {s : State} {m : Master} {v : Word} (h : Commands s m 0 0x721 0x150 v) :
    exec (.planCancel m) s = .next (emit (.regDone m 0 0) (planCancel s)) := congrArg Host.Outcome.next (writeOf_planCmd h 4)

/-- The parts a command of the plan unit may change. -/
def planParts : List Part := [.pl, .rg, .hs, .sv, .out]

/-- The answer of a command changes no more than the outputs. -/
theorem answered_frame (o : Output) {s t : State} (h : t.clr (Mask.of planParts) = s.clr (Mask.of planParts)) :
    ChangesOnly planParts s (emit o t) := changesOnly_of_clr _ _ _ ((emit_clr _ rfl _ _).trans h)

theorem planBusy_iff (s : State) : planBusy s = true ↔ s.pl.next ≠ none ∨ s.fw.st = .armed ∨ s.fw.st = .pause := by
  unfold planBusy
  rw [Bool.or_eq_true, Option.isSome_iff_ne_none]
  refine or_congr_right ?_
  cases s.fw.st <;> simp

/-- Of the plan unit a code reported is all that changes: the notice and the hosts' cause leave it. -/
theorem planCode_pl (c : Nat) (s : State) : (planCode c s).pl = { s.pl with code := c } := by
  unfold planCode
  split
  · next h => rw [← h]
  · exact (same_of_clr [.rg, .hs, .out] _ _ (hostCause_clr _ rfl rfl rfl _ _) .pl (by decide)).trans
      (same_of_clr [.rg, .sv, .out] _ _ (notice_clr _ rfl rfl rfl _ _ _) .pl (by decide))

theorem planCheck_busy {s : State} (h : planBusy s = true) : planCheck s = s := if_pos h

theorem planCheck_pl {s : State} (h : ¬ planBusy s = true) :
    (planCheck s).pl = { s.pl with code := (checkImage s (planAt s) (planLen s)).1 } := by
  rw [planCheck, if_neg h, planCode_pl]

theorem planAdopt_busy {s : State} (h : planBusy s = true) : planAdopt s = s := if_pos h

theorem planAdopt_bad {s : State} (h : ¬ planBusy s = true) (hr : (checkImage s (planAt s) (planLen s)).2 = none) :
    planAdopt s = planCode (checkImage s (planAt s) (planLen s)).1 s := by
  rw [planAdopt, if_neg h]
  dsimp only
  rw [hr]

theorem planAdopt_good {s : State} {img : PlanImage} (h : ¬ planBusy s = true) (hr : (checkImage s (planAt s) (planLen s)).2 = some img) :
    planAdopt s =
      if (reg64 s 0 0x721 0x148).toNat ≤ pkgPress s + 1 then planCode 0x09 s
      else planCode (checkImage s (planAt s) (planLen s)).1 { s with pl := { s.pl with
        next := some img, adoptPress := (reg64 s 0 0x721 0x148).toNat, lockAt := planAt s, lockLen := planLen s } } := by
  rw [planAdopt, if_neg h]
  dsimp only
  rw [hr]

theorem planCancel_pl (s : State) : (planCancel s).pl = { s.pl with next := none, draining := false, lockLen := 0, code := 0x0B } :=
  planCode_pl _ _

/-! ### A good image (R81, R82) -/

/-- A slice record that is sound under the package masks (R78). -/
def GoodSlice (ms : List (Nat × DWord)) (x : Slice) : Prop :=
  x.ctx ≤ 2047 ∧ 1 ≤ x.members.length ∧ x.members.length ≤ 4096 ∧ x.members.Nodup ∧ ∀ q ∈ x.members, maskHas ms q = true

/-- The check of slice records: each is sound, and their contexts rise from prev on. -/
theorem slicesOk_sound (ms : List (Nat × DWord)) (xs : List Slice) (prev : Nat) (h : slicesOk ms prev xs = true) :
    (∀ x ∈ xs, prev ≤ x.ctx ∧ GoodSlice ms x) ∧ xs.Pairwise (fun a b => a.ctx < b.ctx) := by
  induction xs generalizing prev with
  | nil => exact ⟨nofun, .nil⟩
  | cons x xs ih =>
    simp only [slicesOk, Bool.and_eq_true, decide_eq_true_eq, List.all_eq_true] at h
    obtain ⟨⟨⟨⟨⟨⟨hprev, hctx⟩, hone⟩, hmax⟩, hmem⟩, hnodup⟩, hrest⟩ := h
    obtain ⟨hgood, hrise⟩ := ih (x.ctx + 1) hrest
    refine ⟨fun y hy => ?_, List.pairwise_cons.mpr ⟨fun y hy => (hgood y hy).1, hrise⟩⟩
    obtain rfl | hy := List.mem_cons.mp hy
    · exact ⟨hprev, hctx, hone, hmax, hnodup, hmem⟩
    · exact ⟨by have := (hgood y hy).1; omega, (hgood y hy).2⟩

/-- An image passes a check of the ladder where that check's code is not answered. -/
theorem check_passed {c : Prop} [Decidable c] {n code : Nat} {img : PlanImage} {rest : Nat × Option PlanImage}
    (h : (if c then (n, none) else rest) = (code, some img)) : ¬ c ∧ rest = (code, some img) := by
  split at h
  · cases h
  · next hc => exact ⟨hc, h⟩

/-- What the check of an image has found where it gives one: every code of the ladder has been passed. -/
theorem checkImage_sound {s : State} {off len code : Nat} {img : PlanImage} (h : checkImage s off len = (code, some img)) :
    code = 0x01 ∧ off + len ≤ stagingBytes ∧ planEpoch s < img.epoch ∧ img.shape ≤ 2 ∧
      img.pairMode = s.tm.straps.toNat.testBit 12 ∧ maskHas img.masks (pkgNo s) = true ∧ slicesOk img.masks 0 img.slices = true := by
  unfold checkImage at h
  obtain ⟨-, h⟩ := check_passed h
  dsimp only at h
  obtain ⟨-, h⟩ := check_passed h
  obtain ⟨hlen, h⟩ := check_passed h
  split at h
  · cases h
  · obtain ⟨-, h⟩ := check_passed h
    obtain ⟨hepoch, h⟩ := check_passed h
    obtain ⟨hshape, h⟩ := check_passed h
    obtain ⟨hpair, h⟩ := check_passed h
    obtain ⟨hmask, h⟩ := check_passed h
    obtain ⟨hslices, h⟩ := check_passed h
    obtain ⟨rfl, himg⟩ := Prod.mk.inj h
    obtain rfl := Option.some.inj himg
    simp only [not_or, not_not, Bool.not_eq_true', Bool.not_eq_false, Nat.not_lt, Nat.not_le] at hlen hepoch hshape hpair hmask hslices
    obtain ⟨-, -, -, hend, -⟩ := hlen
    exact ⟨rfl, hend, hepoch, hshape.1, hpair, hmask, hslices.2⟩

/-! ### The ports that change over (R85) -/

theorem portOld_iff (s : State) (port : Nat) : portOld s port = true ↔
    (∃ f ∈ (lnkOf s port).replay, f.pkts ≠ []) ∨ ∃ e ∈ s.nt.poolUsed, e.1 / 64 = port ∧ 0 < e.2 := by
  simp [portOld, -Prod.exists]

/-- The port off the list of those that hold packets of the old plan. -/
def portDrained (port : Nat) (s : State) : State := { s with pl := { s.pl with oldPorts := s.pl.oldPorts.filter (· ≠ port) } }

theorem oldDrained_holds {s : State} {port : Nat} (h : portOld s port = true) : oldDrained port s = s := if_pos h

theorem oldDrained_clear {s : State} {port : Nat} (h : ¬ portOld s port = true) : oldDrained port s = grantNext port (portDrained port s) :=
  if_neg h

/-- Granting changes the network alone. -/
theorem grantNext_pl (port : Nat) (s : State) : (grantNext port s).pl = s.pl :=
  same_of_clr [.nt] _ _ (grantNext_clr _ rfl _ _) .pl (by decide)

/-- Where no request waits for an egress, none is granted. -/
theorem grantNext_none (port : Nat) (s : State) (h : ∀ r ∈ s.nt.transitWait, r.egress ≠ port) : grantNext port s = s := by
  unfold grantNext
  rw [List.filter_eq_nil_iff.mpr fun r hr => by simpa using h r hr]
  rfl

/-! ### The statement -/

/-- Settles O23: what each command leaves of the plan unit; what the check's ladder has passed; the port that has drained. -/
theorem planCommands : Obligations.PlanCommands := by
  refine ⟨fun s m v hc => ?_, fun s off len img himg => ?_, fun s port => ?_⟩
  · intro r p busy
    have hbusy : busy ↔ planBusy s = true := (planBusy_iff s).symm
    refine ⟨⟨_, exec_planCheck hc, answered_frame _ (planCheck_clr _ rfl rfl rfl rfl rfl _), fun hb => ?_, fun hb => ?_⟩,
      ⟨_, exec_planAdopt hc, answered_frame _ (planAdopt_clr _ rfl rfl rfl rfl rfl _), fun hb => ?_, fun hb hr => ?_,
        fun img hb hr => ⟨fun hp => ?_, fun hp => ?_⟩⟩,
      ⟨_, exec_planCancel hc, answered_frame _ (planCancel_clr _ rfl rfl rfl rfl rfl _), planCancel_pl s⟩⟩
    · rw [planCheck_busy (hbusy.mp hb)]
    · exact planCheck_pl (mt hbusy.mpr hb)
    · rw [planAdopt_busy (hbusy.mp hb)]
    · rw [emit_pl, planAdopt_bad (mt hbusy.mpr hb) hr, planCode_pl]
      rfl
    · rw [emit_pl, planAdopt_good (mt hbusy.mpr hb) hr, if_pos hp, planCode_pl]
    · have hcode : (checkImage s (planAt s) (planLen s)).1 = 0x01 := (checkImage_sound (Prod.ext rfl hr)).1
      rw [emit_pl, planAdopt_good (mt hbusy.mpr hb) hr, if_neg (Nat.not_le.mpr hp), planCode_pl, hcode]
      rfl
  · obtain ⟨hcode, hend, hepoch, hshape, hpair, hmask, hslices⟩ := checkImage_sound (Prod.ext rfl himg)
    obtain ⟨hgood, hrise⟩ := slicesOk_sound img.masks img.slices 0 hslices
    exact ⟨hcode, hend, hepoch, hshape, hpair, hmask, hrise, fun x hx => (hgood x hx).2⟩
  · refine ⟨oldDrained port s, rfl, fun hold => oldDrained_holds ((portOld_iff s port).mpr hold), fun hreplay hpool => ?_⟩
    have hclear : ¬ portOld s port = true := by
      rw [portOld_iff]
      rintro (⟨f, hf, hpkts⟩ | ⟨e, he, hport, hused⟩)
      · exact hpkts (hreplay f hf)
      · rw [hpool e he hport] at hused
        cases hused
    rw [oldDrained_clear hclear]
    refine ⟨?_, grantNext_pl port _, fun hno => ?_⟩
    · exact changesOnly_of_clr [.nt, .pl] s _ (grantNext_clr _ rfl port (portDrained port s))
    · rw [grantNext_none port (portDrained port s) hno]
      rfl

end Sys2Proof.Machine
end

section
/-! SUPPORT. What an endpoint answers with, and READ and WRITE at a tile (R118, R119, R159, R406); O28. -/
namespace Sys2Proof.Machine

/-! ### Answers (R118) -/

/-- A STATUS for a request whose packet has been taken. -/
theorem replyStatus_refused (die n port code : Nat) (p : Packet) (s : State) :
    Refused s (replyStatus die n port p code (consume die n p s)) die n port p code :=
  ⟨statusRsp (consume die n p s) die n p code, sendFrom_sent _ _ _ _ _ _ rfl rfl rfl, rfl, rfl, rfl, rfl, rfl, rfl, rfl, rfl⟩

/-- An answer with data to a request whose packet has been taken. -/
theorem reply_answered (die n port opcode : Nat) (operand : DWord) (data : List Byte) (p : Packet) (s : State) :
    Answered s (reply die n port p opcode operand data (consume die n p s)) die n port p opcode operand data :=
  ⟨{ response (consume die n p s) die n p opcode operand data with poison := flushing (consume die n p s) die n },
    sendFrom_sent _ _ _ _ _ _ rfl rfl rfl, rfl, rfl, rfl, rfl, rfl, rfl, rfl, rfl⟩

theorem served_fenced {s : State} {die n : Nat} (hf : fenced s die n = true) (port : Nat) (p : Packet) (f : State → State) :
    served die n port p f s = replyStatus die n port p 0x20 (consume die n p s) := if_pos hf

theorem served_open {s : State} {die n : Nat} (hf : fenced s die n = false) (port : Nat) (p : Packet) (f : State → State) :
    served die n port p f s = f (consume die n p s) := if_neg (by rw [hf]; decide)

/-! ### Which unit a request reaches (R68) -/

section
variable {s : State} {die n : Nat} {p : Packet}

theorem memArrive_fenced (hr : aRegion p.dest = 0) (hf : fenced s die n = true) :
    memArrive die n p s = replyStatus die n 10 p 0x20 (consume die n p s) := by
  rw [memArrive, served_fenced hf, if_neg (by rw [hr]; rintro ⟨-, h, -⟩; cases h)]

theorem memArrive_port (hm : p.mc = false) (hf : fenced s die n = false) (hd : dieType die = .memside) (hr : aRegion p.dest = 0) :
    memArrive die n p s = mpRequest die n p (consume die n p s) := by
  rw [memArrive, served_open hf, hm, if_neg (by decide), if_pos hr, hd]

theorem memArrive_cluster (hm : p.mc = false) (hf : fenced s die n = false) (hd : dieType die = .compute) (hr : aRegion p.dest = 0) :
    memArrive die n p s = cmRequest die n p (consume die n p s) := by
  rw [memArrive, served_open hf, hm, if_neg (by decide), if_pos hr, hd]

theorem memArrive_tally (hm : p.mc = false) (hf : fenced s die n = false) (hd : dieType die = .memside) (hr : aRegion p.dest = 1)
    (hp : aPort p.dest = 10) (ho : p.opcode = 0) : memArrive die n p s = tallyRead die n p (consume die n p s) := by
  rw [memArrive, served_open hf, hm, if_neg (by decide), if_neg (by rw [hr]; decide), if_pos ⟨hr, hp, hd, ho⟩]

/-! ### A memory port (R119, R159) -/

/-- The port takes the request: ENABLE is 1, the bytes lie in one granule and inside the stack. -/
def PortTakes (s : State) (die n : Nat) (p : Packet) : Prop :=
  rfld s die (mpPage s die n) 0x100 0 0 = 1 ∧ 1 ≤ countBytes p ∧ countBytes p ≤ 512 ∧ p.dest.toNat % 512 + countBytes p ≤ 512 ∧
    aOff44 p.dest + countBytes p ≤ stackBytes

/-- A field of one bit is 0 or 1. -/
theorem rfld_bit (s : State) (die page off b sel : Nat) : rfld s die page off b b sel < 2 := by
  unfold rfld wbits bits
  rw [Nat.add_sub_cancel_left]
  exact Nat.mod_lt _ (by decide)

theorem inGranule_iff (a : DWord) (k : Nat) : inGranule a k = true ↔ 1 ≤ k ∧ k ≤ 512 ∧ a.toNat % 512 + k ≤ 512 := by
  simp [inGranule, and_assoc]

theorem mpRequest_taken (h : PortTakes s die n p) :
    mpRequest die n p s = modMp die n (fun m => { m with waiting := m.waiting ++ [p] }) s := by
  obtain ⟨hen, h1, h512, hgran, hstack⟩ := h
  have hin : inGranule p.dest (countBytes p) = true := (inGranule_iff _ _).mpr ⟨h1, h512, hgran⟩
  unfold mpRequest
  dsimp only
  rw [if_neg (by rw [hen]; decide), if_neg (by rw [hin]; simpa using hstack)]

theorem mpRequest_refused (h : ¬ PortTakes s die n p) : mpRequest die n p s = replyStatus die n 10 p 0x10 s := by
  unfold mpRequest
  dsimp only
  split
  · rfl
  · next hen =>
    refine if_pos ?_
    by_contra hno
    rw [not_or, Bool.not_eq_true', Bool.not_eq_false, inGranule_iff, Nat.not_lt] at hno
    obtain ⟨⟨h1, h512, hgran⟩, hstack⟩ := hno
    exact h ⟨by have := rfld_bit s die (mpPage s die n) 0x100 0 0; omega, h1, h512, hgran, hstack⟩

/-! ### A cluster memory (R119, R585) -/

/-- The cluster memory takes the request: the bytes lie in one granule and inside MEM_SIZE. -/
def ClusterTakes (die n : Nat) (p : Packet) : Prop :=
  1 ≤ countBytes p ∧ countBytes p ≤ 512 ∧ aOff36 p.dest % 512 + countBytes p ≤ 512 ∧ aOff36 p.dest + countBytes p ≤ cmSize die n

/-- The request as it waits for the cluster memory. -/
def clusterReq (p : Packet) : CmReq :=
  { tag := 0, addr := aOff36 p.dest, we := decide (p.opcode = 1),
    data := if decide (p.opcode = 1) then padTo (countBytes p) p.payload else [], pkt := some p }

theorem cmRequest_taken (hm : p.mc = false) (h : ClusterTakes die n p) :
    cmRequest die n p s = modCip die n (fun c => { c with cmWaiting := c.cmWaiting ++ [clusterReq p] }) s := by
  obtain ⟨h1, h512, hgran, hsize⟩ := h
  have hoff : cmOffset p = aOff36 p.dest := if_neg (by rw [hm]; decide)
  unfold cmRequest
  dsimp only
  rw [hoff, if_neg (by omega)]
  rfl

theorem cmRequest_refused (hm : p.mc = false) (h : ¬ ClusterTakes die n p) :
    cmRequest die n p s = replyStatus die n 10 p 0x10 s := by
  have hoff : cmOffset p = aOff36 p.dest := if_neg (by rw [hm]; decide)
  unfold cmRequest
  dsimp only
  unfold ClusterTakes at h
  rw [hoff, if_pos (by omega), hm, if_neg (by decide)]

/-! ### The tally endpoint (R406) -/

theorem tallyRead_answers (hk : countBytes p = 48) (hc : p.ctx = aIdx p.dest) :
    tallyRead die n p s = reply die n 11 p 0x80 48 (tallyBytes s p.ctx) s := by
  unfold tallyRead
  dsimp only
  rw [if_pos ⟨hk, hc⟩, hc]

theorem tallyRead_refuses (h : countBytes p ≠ 48 ∨ p.ctx ≠ aIdx p.dest) : tallyRead die n p s = replyStatus die n 11 p 0x6E s := by
  unfold tallyRead
  dsimp only
  rw [if_neg fun hno => h.elim (· hno.1) (· hno.2)]

end

/-! ### The statement -/

theorem exec_memory {i : Instr} {die n : Nat} {p : Packet} (hi : i ∈ [Instr.read die n p, Instr.write die n p]) (s : State) :
    exec i s = .next (memArrive die n p s) := by
  obtain rfl | hi := List.mem_cons.mp hi
  · rfl
  · obtain rfl := List.mem_singleton.mp hi
    rfl

/-- Settles O28: the unit the address names takes the request or answers it, by the conditions of R119, R159 and R406. -/
theorem memoryRequestsWaitOrAreRefused : Obligations.MemoryRequestsWaitOrAreRefused := by
  intro s die n p hm i hi
  refine ⟨memArrive die n p s, exec_memory hi s, changesOnly_of_clr _ _ _ (memArrive_clr _ rfl rfl rfl _ _ _ _), fun hr hf => ?_,
    fun hf hd hr => ⟨fun hgood => ?_, fun hbad => ?_⟩, fun hf hd hr => ⟨fun hgood => ?_, fun hbad => ?_⟩,
    fun hf hd hr hp ho => ⟨fun hk hc => ?_, fun hbad => ?_⟩⟩
  · rw [memArrive_fenced hr hf]
    exact ⟨replyStatus_refused _ _ _ _ _ _, rfl, rfl⟩
  · rw [memArrive_port hm hf hd hr, mpRequest_taken (s := consume die n p s) hgood]
    exact ⟨rfl, changesOnly_of_clr _ _ _ (modMp_clr _ rfl _ _ _ _)⟩
  · rw [memArrive_port hm hf hd hr, mpRequest_refused (s := consume die n p s) hbad]
    exact ⟨replyStatus_refused _ _ _ _ _ _, rfl, rfl⟩
  · rw [memArrive_cluster hm hf hd hr, cmRequest_taken hm hgood]
    refine ⟨changesOnly_of_clr _ _ _ (modCip_clr _ rfl _ _ _ _), clusterReq p, ?_, rfl, rfl, rfl, fun ho => ?_⟩
    · rw [cipOf_modCip, if_pos rfl]
      rfl
    · exact if_pos (decide_eq_true ho)
  · rw [memArrive_cluster hm hf hd hr, cmRequest_refused hm hbad]
    exact ⟨replyStatus_refused _ _ _ _ _ _, rfl⟩
  · rw [memArrive_tally hm hf hd hr hp ho, tallyRead_answers hk hc]
    exact reply_answered _ _ _ _ _ _ _ _
  · rw [memArrive_tally hm hf hd hr hp ho, tallyRead_refuses hbad]
    exact replyStatus_refused _ _ _ _ _ _

end Sys2Proof.Machine
end

section
/-! SUPPORT. What starting and completing descriptors leaves of a CIP: no descriptor is added, and records join the queues at their end
(R380 to R382). -/
namespace Sys2Proof.Machine

/-! ### How a CIP goes on -/

/-- From one state of a CIP to a later one: no descriptor has come, and the entries a queue shows are still there, first. -/
def GoesOn (c c' : Cip) : Prop :=
  (∀ y ∈ c'.descs, ∃ x ∈ c.descs, x.id = y.id) ∧ ∀ q, ∃ es, (look {} c'.queues q).visible = (look {} c.queues q).visible ++ es

/-- Where the queues are the same, it is enough that no descriptor has come. -/
theorem GoesOn.of_queues {c c' : Cip} (hq : c'.queues = c.queues) (hd : ∀ y ∈ c'.descs, ∃ x ∈ c.descs, x.id = y.id) : GoesOn c c' :=
  ⟨hd, fun q => ⟨[], by rw [hq, List.append_nil]⟩⟩

theorem GoesOn.refl (c : Cip) : GoesOn c c := .of_queues rfl fun y hy => ⟨y, hy, rfl⟩

theorem GoesOn.trans {a b c : Cip} (h : GoesOn a b) (h' : GoesOn b c) : GoesOn a c := by
  obtain ⟨hd, hq⟩ := h
  obtain ⟨hd', hq'⟩ := h'
  refine ⟨fun z hz => ?_, fun q => ?_⟩
  · obtain ⟨y, hy, hyz⟩ := hd' z hz
    obtain ⟨x, hx, hxy⟩ := hd y hy
    exact ⟨x, hx, hxy.trans hyz⟩
  · obtain ⟨es, hes⟩ := hq q
    obtain ⟨fs, hfs⟩ := hq' q
    exact ⟨es ++ fs, by rw [hfs, hes, List.append_assoc]⟩

section
variable {s t : State} (die n id : Nat)

theorem cipOf_of_ci (h : t.ci = s.ci) : cipOf t die n = cipOf s die n := by
  unfold cipOf
  rw [h]

theorem GoesOn.of_ci (h : t.ci = s.ci) : GoesOn (cipOf s die n) (cipOf t die n) := by
  rw [cipOf_of_ci die n h]
  exact .refl _

theorem cipOf_modCip_same (f : Cip → Cip) : cipOf (modCip die n f s) die n = f (cipOf s die n) := by
  rw [cipOf_modCip, if_pos rfl]

theorem cipOf_modDesc (f : Desc → Desc) : cipOf (modDesc die n id f s) die n =
    { cipOf s die n with descs := mapIf (fun d => d.id = id) f (cipOf s die n).descs } := cipOf_modCip_same die n _

theorem mem_mapIf {α : Type} {p : α → Bool} {f : α → α} {xs : List α} {y : α} (h : y ∈ mapIf p f xs) :
    y ∈ xs ∨ ∃ x ∈ xs, y = f x := by
  obtain ⟨x, hx, hy⟩ := List.mem_map.mp h
  split at hy
  · exact .inr ⟨x, hx, hy.symm⟩
  · exact .inl (hy ▸ hx)

theorem modDesc_goesOn (f : Desc → Desc) (hf : ∀ d, (f d).id = d.id) : GoesOn (cipOf s die n) (cipOf (modDesc die n id f s) die n) := by
  rw [cipOf_modDesc]
  refine .of_queues rfl fun y hy => ?_
  obtain hy | ⟨x, hx, rfl⟩ := mem_mapIf hy
  · exact ⟨y, hy, rfl⟩
  · exact ⟨x, hx, (hf x).symm⟩

theorem takeSeq_goesOn : GoesOn (cipOf s die n) (cipOf (takeSeq die n s).2 die n) := by
  unfold takeSeq
  rw [cipOf_modCip_same]
  exact .of_queues rfl fun y hy => ⟨y, hy, rfl⟩

theorem request_goesOn (s : State) : GoesOn (cipOf s die n) (cipOf (request die n id s) die n) := by
  unfold request
  split
  · exact .refl _
  · dsimp only
    refine (takeSeq_goesOn die n).trans ?_
    split
    · refine (modDesc_goesOn die n id (fun d => { d with sseq := (takeSeq die n s).1, again := false }) fun _ => rfl).trans ?_
      split
      · exact .of_ci die n (same_of_clr [.nt, .mp] _ _ (mcAsk_clr _ rfl rfl _ _) .ci (by decide))
      · exact .of_ci die n rfl
    · exact .refl _

theorem readNext_goesOn (s : State) : GoesOn (cipOf s die n) (cipOf (readNext die n id s) die n) :=
  (modDesc_goesOn die n id (fun d => { d with phase := .reading, header := false, len := pieceLen d }) fun _ => rfl).trans
    (request_goesOn die n id _)

/-! ### Records (R380) -/

/-- An entry made visible stands at the end of its queue; of the CIP nothing else changes but the queue's tail. -/
theorem cipOf_makeVisible (q : Nat) (e : QEntry) (s : State) : cipOf (makeVisible die n q e s) die n =
    { cipOf s die n with queues := upd {} (cipOf s die n).queues q fun x => { x with tail := x.tail + 1, visible := x.visible ++ [e] } } := by
  unfold makeVisible
  dsimp only
  rw [cipOf_of_ci die n (same_of_clr [.out] _ _ (storeBy_clr _ rfl _ _ _ _) .ci (by decide))]
  exact cipOf_modCip_same die n _

theorem makeVisible_goesOn (q : Nat) (e : QEntry) (s : State) : GoesOn (cipOf s die n) (cipOf (makeVisible die n q e s) die n) := by
  rw [cipOf_makeVisible]
  refine ⟨fun y hy => ⟨y, hy, rfl⟩, fun q' => ?_⟩
  rw [look_upd]
  split
  · next h => exact ⟨[e], by rw [h]⟩
  · exact ⟨[], (List.append_nil _).symm⟩

theorem freeEntry_goesOn (q : Nat) (s : State) :
    GoesOn (cipOf s die n) (cipOf (modQueue die n q (fun x => { x with resv := x.resv - 1 }) s) die n) := by
  rw [modQueue, cipOf_modCip_same]
  refine ⟨fun y hy => ⟨y, hy, rfl⟩, fun q' => ?_⟩
  rw [look_upd]
  split
  · next h => exact ⟨[], by rw [h, List.append_nil]⟩
  · exact ⟨[], (List.append_nil _).symm⟩

theorem cqRecord_goesOn (ctx : Nat) (r : List Byte) (s : State) : GoesOn (cipOf s die n) (cipOf (cqRecord die n ctx r s) die n) := by
  unfold cqRecord
  split
  · exact .of_ci die n rfl
  · split
    · exact .of_ci die n rfl
    · exact (freeEntry_goesOn die n _ s).trans (makeVisible_goesOn die n _ _ _)

/-- A record with a reserved entry is the last the queue shows. -/
theorem cqRecord_written {ctx q : Nat} (r : List Byte) (s : State) (hq : cqOf s die n ctx = some q) (hr : (queueOf s die n q).resv ≠ 0) :
    ∃ e : QEntry, e.data = r ∧ (queueOf (cqRecord die n ctx r s) die n q).visible = (queueOf s die n q).visible ++ [e] := by
  unfold cqRecord
  rw [hq]
  dsimp only
  rw [if_neg hr]
  refine ⟨{ word := metaWord s die n 0x7F 0 1 16 0, data := r }, rfl, ?_⟩
  unfold queueOf
  rw [cipOf_makeVisible]
  simp only [look_upd, if_true]
  rw [show look {} (cipOf (modQueue die n q _ s) die n).queues q = _ from queueOf_modQueue die n q _ s]
  rfl

/-! ### Completion (R380 to R382) -/

/-- A CIP without a descriptor. -/
def withoutDesc (id : Nat) (c : Cip) : Cip := { c with descs := c.descs.filter fun x => x.id ≠ id }

theorem closeDesc_none {code : Nat} {s : State} (h : descAt s die n id = none) : closeDesc die n id code s = s := by
  unfold closeDesc
  rw [h]

/-- The record of a completion, and what it leaves of the CIP. -/
theorem closeDesc_some {code : Nat} {s : State} {d : Desc} (h : descAt s die n id = some d) : closeDesc die n id code s =
    cqRecord die n d.ctx (record16 (dTag d.bytes) 6 0 code (if d.kind = 2 then d.acked / dLen d.bytes else 0) (pressOf s die % 2 ^ 32))
      (modCip die n (withoutDesc id) s) := by
  unfold closeDesc
  rw [h]
  rfl

theorem withoutDesc_goesOn (c : Cip) : GoesOn c (withoutDesc id c) :=
  .of_queues rfl fun y hy => ⟨y, List.mem_of_mem_filter hy, rfl⟩

/-- A closed descriptor is gone. -/
theorem closeDesc_gone (code : Nat) (s : State) : ∀ y ∈ (cipOf (closeDesc die n id code s) die n).descs, y.id ≠ id := by
  intro y hy
  cases hd : descAt s die n id with
  | none =>
    rw [closeDesc_none die n id hd] at hy
    exact fun he => List.find?_eq_none.mp hd y hy (decide_eq_true he)
  | some d =>
    rw [closeDesc_some die n id hd] at hy
    obtain ⟨x, hx, hxy⟩ := (cqRecord_goesOn die n _ _ _).1 y hy
    rw [cipOf_modCip_same] at hx
    rw [← hxy]
    exact of_decide_eq_true (List.mem_filter.mp hx).2

theorem closeDesc_goesOn (code : Nat) (s : State) : GoesOn (cipOf s die n) (cipOf (closeDesc die n id code s) die n) := by
  cases hd : descAt s die n id with
  | none =>
    rw [closeDesc_none die n id hd]
    exact .refl _
  | some d =>
    rw [closeDesc_some die n id hd]
    refine GoesOn.trans ?_ (cqRecord_goesOn die n _ _ _)
    rw [cipOf_modCip_same]
    exact withoutDesc_goesOn id _

/-- The completion record of a multicast, where an entry is reserved for it. -/
theorem closeDesc_record {code q : Nat} {s : State} {d : Desc} (hd : descAt s die n id = some d) (hk : d.kind = 2)
    (hq : cqOf s die n d.ctx = some q) (hr : (queueOf s die n q).resv ≠ 0) :
    ∃ e : QEntry, e.data = record16 (dTag d.bytes) 6 0 code (d.acked / dLen d.bytes) (pressOf s die % 2 ^ 32) ∧
      (queueOf (closeDesc die n id code s) die n q).visible = (queueOf s die n q).visible ++ [e] := by
  have hsame : queueOf (modCip die n (withoutDesc id) s) die n q = queueOf s die n q := by
    unfold queueOf
    rw [cipOf_modCip_same]
    rfl
  rw [closeDesc_some die n id hd, if_pos hk, ← hsame]
  exact cqRecord_written die n _ _ hq (by rw [hsame]; exact hr)

theorem startDesc_goesOn (s : State) : GoesOn (cipOf s die n) (cipOf (startDesc die n id s) die n) := by
  unfold startDesc
  split
  · exact .refl _
  · split
    · exact .refl _
    · split
      · split
        · exact .refl _
        · exact readNext_goesOn die n id s
      · exact (modDesc_goesOn die n id (fun d => { d with phase := .reserving, since := waitPress s die }) fun _ => rfl).trans
          (request_goesOn die n id _)
      · split
        · exact readNext_goesOn die n id s
        · exact closeDesc_goesOn die n id _ s
      · exact readNext_goesOn die n id s

/-- What follows a completion goes on from the closed descriptor: the next multicast of its tree starts. -/
theorem finishDesc_goesOn (code : Nat) (s : State) :
    GoesOn (cipOf (closeDesc die n id code s) die n) (cipOf (finishDesc die n id code s) die n) := by
  unfold finishDesc
  split
  · next hno =>
    rw [closeDesc_none die n id hno]
    exact .refl _
  · dsimp only
    split
    · split
      · exact startDesc_goesOn die n _ _
      · exact .refl _
    · exact .refl _

theorem finishDesc_gone (code : Nat) (s : State) : ∀ y ∈ (cipOf (finishDesc die n id code s) die n).descs, y.id ≠ id := by
  intro y hy
  obtain ⟨x, hx, hxy⟩ := (finishDesc_goesOn die n id code s).1 y hy
  rw [← hxy]
  exact closeDesc_gone die n id code s x hx

/-- The record of a multicast is the first that its queue shows anew. -/
theorem finishDesc_record {code q : Nat} {s : State} {d : Desc} (hd : descAt s die n id = some d) (hk : d.kind = 2)
    (hq : cqOf s die n d.ctx = some q) (hr : (queueOf s die n q).resv ≠ 0) :
    ∃ e es, (queueOf (finishDesc die n id code s) die n q).visible = (queueOf s die n q).visible ++ e :: es ∧
      e.data = record16 (dTag d.bytes) 6 0 code (d.acked / dLen d.bytes) (pressOf s die % 2 ^ 32) := by
  obtain ⟨e, hdata, hvis⟩ := closeDesc_record die n id (code := code) hd hk hq hr
  obtain ⟨es, hes⟩ := (finishDesc_goesOn die n id code s).2 q
  refine ⟨e, es, ?_, hdata⟩
  rw [show (queueOf (finishDesc die n id code s) die n q).visible = _ from hes,
    show (look {} (cipOf (closeDesc die n id code s) die n).queues q).visible = _ from hvis, List.append_assoc]
  rfl

/-- A change of a descriptor that keeps its number, read back. -/
theorem descAt_modDesc {s : State} {d : Desc} (f : Desc → Desc) (hf : ∀ x, (f x).id = x.id) (h : descAt s die n id = some d) :
    descAt (modDesc die n id f s) die n id = some (f d) := by
  have hid : (fun x : Desc => decide (x.id = id)) ∘ (fun x => if decide (x.id = id) then f x else x) = fun x => decide (x.id = id) := by
    funext x
    rw [Function.comp_apply]
    split
    · rw [hf]
    · rfl
  unfold descAt at h ⊢
  rw [cipOf_modDesc, mapIf, List.find?_map, hid, h]
  exact congrArg some (if_pos (List.find?_some h))

end

end Sys2Proof.Machine
end

section
/-! SUPPORT. Acknowledgements of multicasts at their owner and on their way, their waits (R382, R383), and fetches (R559, R582); O46. -/
namespace Sys2Proof.Machine

/-- A packet sent is the one packet that joins its queue. -/
theorem Sent.all {s t : State} {die n port : Nat} {q : Packet} (h : Sent s t die n port q) : SentAll s t die n port q.cls [q] := by
  obtain ⟨⟨x, hx, -, hpkt, -⟩, hrest⟩ := h
  have hun : unrouted x.pkt = unrouted q := by
    rw [hpkt]
    rfl
  refine ⟨?_, hrest⟩
  rw [hx, List.map_append, List.map_singleton, hun]
  rfl

/-! ### MC_ACK at the owner (R383) -/

/-- The bytes an acknowledgement carries, and its tree. -/
def ackBytes (p : Packet) : Nat := bits p.operand.toNat 47 0
def ackTree (p : Packet) : Nat := bits p.operand.toNat 59 48

/-- The multicast an acknowledgement belongs to. -/
def ackedDesc (s : State) (die n : Nat) (p : Packet) : Option Desc :=
  (cipOf s die n).descs.find? fun d => d.kind = 2 && dAux d.bytes = ackTree p && d.phase ≠ .queued && d.ctx = p.ctx

section
variable {s : State} {die n : Nat} {p : Packet} {d : Desc}

theorem ackArrive_none (h : ackedDesc s die n p = none) : ackArrive die n p s = cipCount die n 6 s := by
  unfold ackedDesc ackTree at h
  unfold ackArrive
  dsimp only
  rw [h]

theorem ackArrive_some (h : ackedDesc s die n p = some d) : ackArrive die n p s =
    if d.phase = .acking ∧ d.acked + ackBytes p ≥ dAux2 d.bytes * dLen d.bytes then
      finishDesc die n d.id 0 (modDesc die n d.id (fun x => { x with acked := d.acked + ackBytes p }) s)
    else modDesc die n d.id (fun x => { x with acked := d.acked + ackBytes p }) s := by
  unfold ackedDesc ackTree at h
  unfold ackArrive
  dsimp only
  rw [h]
  rfl

theorem exec_mcAck_owner (hm : aPkg p.dest = pkgNo s ∧ aDie p.dest = die ∧ aTile p.dest = n) :
    exec (.mcAck die n p) s = .next (settleTile die n (served die n 10 p (ackArrive die n p) s)) := congrArg Host.Outcome.next (if_pos hm)

theorem exec_mcAck_pass (hm : ¬ (aPkg p.dest = pkgNo s ∧ aDie p.dest = die ∧ aTile p.dest = n)) :
    exec (.mcAck die n p) s = .next (mergeAck die n p s) := congrArg Host.Outcome.next (if_neg hm)

/-- At a fenced owner an acknowledgement is refused. -/
theorem mcAck_owner_fenced (hm : aPkg p.dest = pkgNo s ∧ aDie p.dest = die ∧ aTile p.dest = n) (hf : fenced s die n = true) :
    Settles (.mcAck die n p) s die n fun u => Refused s u die n 10 p 0x20 := by
  refine ⟨_, ?_, exec_mcAck_owner hm⟩
  rw [served_fenced hf]
  exact replyStatus_refused _ _ _ _ _ _

/-- One of no multicast under way is counted. -/
theorem mcAck_owner_counted (hm : aPkg p.dest = pkgNo s ∧ aDie p.dest = die ∧ aTile p.dest = n) (hf : fenced s die n = false)
    (hno : ackedDesc s die n p = none) : Settles (.mcAck die n p) s die n fun u => ChangesOnly [.rg, .nt] s u ∧
      countOf u die (cipPage s die n) 6 = countOf s die (cipPage s die n) 6 + 1 := by
  refine ⟨_, ?_, exec_mcAck_owner hm⟩
  rw [served_open hf, ackArrive_none (s := consume die n p s) hno]
  exact ⟨changesOnly_of_clr _ _ _ ((cipCount_clr _ rfl _ _ _ _).trans (consume_clr _ rfl _ _ _ _)),
    (countOf_addCount _ _ _ _ _ _ _ _).trans (if_pos rfl)⟩

/-- Its bytes join the multicast while more are to come. -/
theorem mcAck_owner_joined (hm : aPkg p.dest = pkgNo s ∧ aDie p.dest = die ∧ aTile p.dest = n) (hf : fenced s die n = false)
    (hd : ackedDesc s die n p = some d) (hat : descAt s die n d.id = some d)
    (hall : ¬ (d.phase = .acking ∧ dAux2 d.bytes * dLen d.bytes ≤ d.acked + ackBytes p)) :
    Settles (.mcAck die n p) s die n fun u => ChangesOnly [.nt, .ci] s u ∧
      descAt u die n d.id = some { d with acked := d.acked + ackBytes p } := by
  refine ⟨_, ?_, exec_mcAck_owner hm⟩
  rw [served_open hf, ackArrive_some (s := consume die n p s) hd, if_neg hall]
  exact ⟨changesOnly_of_clr _ _ _ ((modDesc_clr _ rfl _ _ _ _ _).trans (consume_clr _ rfl _ _ _ _)),
    descAt_modDesc die n d.id (s := consume die n p s) (fun x => { x with acked := d.acked + ackBytes p }) (fun _ => rfl) hat⟩

/-- With the last of them the multicast completes. -/
theorem mcAck_owner_completed (hm : aPkg p.dest = pkgNo s ∧ aDie p.dest = die ∧ aTile p.dest = n) (hf : fenced s die n = false)
    (hd : ackedDesc s die n p = some d) (hall : d.phase = .acking ∧ dAux2 d.bytes * dLen d.bytes ≤ d.acked + ackBytes p) :
    Settles (.mcAck die n p) s die n fun u => ∀ y ∈ (cipOf u die n).descs, y.id ≠ d.id := by
  refine ⟨_, ?_, exec_mcAck_owner hm⟩
  rw [served_open hf, ackArrive_some (s := consume die n p s) hd, if_pos hall]
  exact finishDesc_gone die n d.id 0 _

/-! ### MC_ACK on its way (R383) -/

/-- The packet is at the front of a buffer. -/
def atFront (p : Packet) : List QPkt → Bool
  | q :: _ => q.pkt = p
  | [] => false

/-- The buffer of a tile's router where the packet waits. -/
def waitsIn (s : State) (die n : Nat) (p : Packet) : Option (Nat × List QPkt) :=
  s.nt.bufs.find? fun e => e.1 / 1024 = tk die (physTile s die n) && atFront p e.2

/-- An entry of the acknowledgement's tree and destination. -/
def sameAck (p : Packet) (m : AckMerge) : Bool := m.tree = ackTree p && m.dest = p.dest

/-- The tile knows the acknowledgement's tree and destination, or has room for one more entry. -/
def takesAck (s : State) (die n : Nat) (p : Packet) : Bool :=
  (mergesOf s die n).any (sameAck p) || decide ((mergesOf s die n).length < ackRoom s die n)

/-- The packet has left its buffer. -/
def leftRouter (p : Packet) (key : Nat) (s : State) : State := oweCredits key (p.len + 1) (popBuf key (p.len + 1) s)

theorem mergeAck_absent (h : waitsIn s die n p = none) : mergeAck die n p s = s := by
  unfold mergeAck
  dsimp only
  split
  · rfl
  · next e he => cases he.symm.trans h

theorem mergeAck_full (h : takesAck s die n p = false) : mergeAck die n p s = s := by
  unfold mergeAck
  dsimp only
  split
  · rfl
  · exact if_neg fun ht => Bool.eq_false_iff.mp h ht

theorem mergeAck_taken {e : Nat × List QPkt} (h : waitsIn s die n p = some e) (ht : takesAck s die n p = true) :
    mergeAck die n p s = bskCount die n 3 (addAck die n (ackTree p) p.ctx (ackBytes p) p.dest false (leftRouter p e.1 s)) := by
  unfold mergeAck
  dsimp only
  split
  · next hno => cases hno.symm.trans h
  · next e' he =>
    cases he.symm.trans h
    exact if_pos ht

theorem leftRouter_same (key : Nat) (q : Part) (hq : q ∉ [Part.nt, Part.lk, Part.out]) : q.same s (leftRouter p key s) :=
  same_of_clr [.nt, .lk, .out] _ _ ((oweCredits_clr _ rfl rfl rfl _ _ _).trans (popBuf_clr _ rfl _ _ _)) q hq

/-- The entries of a tile after bytes have joined them. -/
theorem mergesOf_modMerges (f : List AckMerge → List AckMerge) : mergesOf (modMerges die n f s) die n = f (mergesOf s die n) := by
  simp [mergesOf, modMerges]

/-- An entry with the bytes of an acknowledgement. -/
def withBytes (p : Packet) (m : AckMerge) : AckMerge := { m with bytes := m.bytes + ackBytes p }

/-- The bytes join every entry of their tree and destination; where there is none, they are a new one. -/
theorem mergesOf_addAck (s : State) (die n : Nat) (p : Packet) :
    mergesOf (addAck die n (ackTree p) p.ctx (ackBytes p) p.dest false s) die n =
      if (mergesOf s die n).any (sameAck p) then (mergesOf s die n).map fun m => if sameAck p m then withBytes p m else m
      else mergesOf s die n ++ [{ tree := ackTree p, dest := p.dest, ctx := p.ctx, bytes := ackBytes p, at_ := s.tm.fclk }] :=
  mergesOf_modMerges _

theorem addAck_known (h : (mergesOf s die n).any (sameAck p) = true) :
    ∃ m ∈ mergesOf (addAck die n (ackTree p) p.ctx (ackBytes p) p.dest false s) die n,
      m.tree = ackTree p ∧ m.dest = p.dest ∧ ackBytes p ≤ m.bytes := by
  obtain ⟨m, hm, hs⟩ := List.any_eq_true.mp h
  have hkeys : m.tree = ackTree p ∧ m.dest = p.dest := by simpa [sameAck] using hs
  refine ⟨withBytes p m, ?_, hkeys.1, hkeys.2, Nat.le_add_left _ _⟩
  rw [mergesOf_addAck, if_pos h]
  exact List.mem_map.mpr ⟨m, hm, if_pos hs⟩

theorem addAck_new (h : (mergesOf s die n).any (sameAck p) = false) :
    mergesOf (addAck die n (ackTree p) p.ctx (ackBytes p) p.dest false s) die n =
      mergesOf s die n ++ [{ tree := ackTree p, dest := p.dest, ctx := p.ctx, bytes := ackBytes p, at_ := s.tm.fclk }] := by
  rw [mergesOf_addAck, if_neg (by rw [h]; decide)]

/-- What a merged acknowledgement leaves of the tile's entries and its counter. -/
theorem mergeAck_effect {e : Nat × List QPkt} (h : waitsIn s die n p = some e) (ht : takesAck s die n p = true) :
    let u := mergeAck die n p s
    let known := (mergesOf s die n).any (sameAck p)
    ∃ m, m ∈ mergesOf u die n ∧ m.tree = ackTree p ∧ m.dest = p.dest ∧ ackBytes p ≤ m.bytes ∧
      (known = false → mergesOf u die n = mergesOf s die n ++ [m] ∧ m.bytes = ackBytes p) ∧
      countOf u die (bskPage s die n) 3 = countOf s die (bskPage s die n) 3 + 1 := by
  intro u known
  have hu : u = _ := mergeAck_taken h ht
  have hmerges : mergesOf (leftRouter p e.1 s) die n = mergesOf s die n := by
    unfold mergesOf
    rw [show (leftRouter p e.1 s).ci = s.ci from leftRouter_same e.1 .ci (by decide)]
  have hpage : bskPage (addAck die n (ackTree p) p.ctx (ackBytes p) p.dest false (leftRouter p e.1 s)) die n = bskPage s die n := by
    have hft : (addAck die n (ackTree p) p.ctx (ackBytes p) p.dest false (leftRouter p e.1 s)).ft = s.ft :=
      leftRouter_same e.1 .ft (by decide)
    unfold bskPage physTile spareOf
    rw [hft]
  have hcount : countOf u die (bskPage s die n) 3 = countOf s die (bskPage s die n) 3 + 1 := by
    have hrg : (addAck die n (ackTree p) p.ctx (ackBytes p) p.dest false (leftRouter p e.1 s)).rg = s.rg :=
      leftRouter_same e.1 .rg (by decide)
    rw [hu, bskCount, hpage, countOf_addCount, if_pos rfl]
    unfold countOf
    rw [hrg]
    rfl
  cases hk : known with
  | true =>
    obtain ⟨m, hm, htree, hdest, hbytes⟩ := addAck_known (s := leftRouter p e.1 s) (by rw [hmerges]; exact hk)
    exact ⟨m, by rw [hu]; exact hm, htree, hdest, hbytes, nofun, hcount⟩
  | false =>
    have hnew := addAck_new (s := leftRouter p e.1 s) (by rw [hmerges]; exact hk)
    rw [hmerges] at hnew
    have hall : mergesOf u die n = _ := (congrArg (fun w => mergesOf w die n) hu).trans hnew
    refine ⟨_, ?_, rfl, rfl, Nat.le_refl _, fun _ => ⟨hall, rfl⟩, hcount⟩
    rw [hall]
    exact List.mem_append_right _ (List.mem_singleton_self _)

end

/-! ### The hold of an acknowledgement (R383) -/

section
variable {s : State} {die n tree : Nat}

/-- The entry of a tree whose hold is over. -/
def dueAck (s : State) (die n tree : Nat) : Option AckMerge :=
  (mergesOf s die n).find? fun m => m.tree = tree && decide (s.tm.fclk ≥ m.at_ + ackHold s die n)

/-- The acknowledgement of an entry. -/
def mergedAckPacket (s : State) (die n : Nat) (m : AckMerge) : Packet :=
  { cls := .ctrl, ctx := m.ctx, dest := m.dest, opcode := 0x16, srcPkg := pkgNo s, srcDie := die, srcTile := n, srcPort := 0,
    operand := w64 (m.bytes % 2 ^ 48 + m.tree * 2 ^ 48) }

/-- The entry is gone, and counted. -/
def ackTaken (die n : Nat) (m : AckMerge) (s : State) : State :=
  doIf (hasCip die n) (cipCount die n 7) (modMerges die n (fun ms => ms.erase m) s)

theorem ackHoldExpiry_none (h : dueAck s die n tree = none) : ackHoldExpiry die n tree s = s := by
  unfold ackHoldExpiry
  rw [show (mergesOf s die n).find? _ = none from h]

theorem ackHoldExpiry_some {m : AckMerge} (h : dueAck s die n tree = some m) :
    ackHoldExpiry die n tree s = sendFrom die n 10 (mergedAckPacket s die n m) (ackTaken die n m s) := by
  unfold ackHoldExpiry
  rw [show (mergesOf s die n).find? _ = some m from h]
  rfl

theorem ackTaken_same {α : Type} (g : State → α) (hg : ∀ u, g (cipCount die n 7 u) = g u) (m : AckMerge) :
    g (ackTaken die n m s) = g (modMerges die n (fun ms => ms.erase m) s) := doIf_same g _ _ _ hg

theorem ackHoldExpiry_effect {m : AckMerge} (h : dueAck s die n tree = some m) :
    mergesOf (ackHoldExpiry die n tree s) die n = (mergesOf s die n).erase m ∧
      SentAll s (ackHoldExpiry die n tree s) die n 10 .ctrl [mergedAckPacket s die n m] := by
  rw [ackHoldExpiry_some h]
  refine ⟨?_, (sendFrom_sent die n 10 (mergedAckPacket s die n m) s (ackTaken die n m s) ?_ ?_ ?_).all⟩
  · exact (ackTaken_same (fun u => mergesOf u die n) (fun _ => rfl) m).trans (mergesOf_modMerges _)
  · exact ackTaken_same (fun u => u.nt.inject) (fun _ => rfl) m
  · exact ackTaken_same (fun u => u.tm.fclk) (fun _ => rfl) m
  · exact ackTaken_same (fun u => u.ft.spare) (fun _ => rfl) m

/-! ### The wait for acknowledgements (R383) -/

/-- The multicast of a tree that waits for acknowledgements. -/
def waitingDesc (s : State) (die n tree : Nat) : Option Desc :=
  (cipOf s die n).descs.find? fun d => d.kind = 2 && dAux d.bytes = tree && d.phase = .acking

/-- Its wait is over. -/
def waitOver (s : State) (die n : Nat) (d : Desc) : Prop := d.injected + rfld s die (cipPage s die n) 0x10C 7 0 ≤ waitPress s die

theorem ackWaitExpiry_none (h : waitingDesc s die n tree = none) : ackWaitExpiry die n tree s = s := by
  unfold ackWaitExpiry
  rw [show (cipOf s die n).descs.find? _ = none from h]

theorem ackWaitExpiry_early {d : Desc} (h : waitingDesc s die n tree = some d) (hl : ¬ waitOver s die n d) :
    ackWaitExpiry die n tree s = s := by
  unfold ackWaitExpiry
  rw [show (cipOf s die n).descs.find? _ = some d from h]
  exact if_neg hl

theorem ackWaitExpiry_late {d : Desc} (h : waitingDesc s die n tree = some d) (hl : waitOver s die n d) :
    ackWaitExpiry die n tree s = finishDesc die n d.id 0x61 s := by
  unfold ackWaitExpiry
  rw [show (cipOf s die n).descs.find? _ = some d from h]
  exact if_pos hl

theorem waitingDesc_kind {d : Desc} (h : waitingDesc s die n tree = some d) : d.kind = 2 := by
  have hp := List.find?_some h
  simp only [Bool.and_eq_true, decide_eq_true_eq] at hp
  obtain ⟨⟨hkind, -⟩, -⟩ := hp
  exact hkind

theorem exec_mcAckWaitExpiry (s : State) :
    exec (.mcAckWaitExpiry die n tree) s = .next (settleTile die n (ackWaitExpiry die n tree s)) := rfl

end

/-! ### Fetches (R559) -/

section
variable {s : State} {h : CipHdr} {a : DWord}

/-- The requests a stream has outstanding. -/
def fetchesOut (s : State) (h : CipHdr) : Nat := ((cipOf s h.die h.tile).fetches.filter fun f => f.stream = h.stream).length

/-- The CIP takes a fetch of the stream. -/
def fetchTaken (s : State) (h : CipHdr) : Prop := cipReady s h.die h.tile = true ∧ fetchesOut s h < 4 ∧ h.stream < 128

/-- The fetch is noted under the number it goes out with. -/
def fetchNoted (h : CipHdr) (s : State) : State :=
  modCip h.die h.tile (fun c => { c with fetches := c.fetches ++ [{ stream := h.stream, sseq := (cipOf s h.die h.tile).reqSeq }] })
    (takeSeq h.die h.tile s).2

theorem fetchGate_iff (s : State) (h : CipHdr) :
    (!cipReady s h.die h.tile || decide (fetchesOut s h ≥ 4) || decide (h.stream ≥ 128)) = true ↔ ¬ fetchTaken s h := by
  cases hr : cipReady s h.die h.tile with
  | false => simp [fetchTaken, hr]
  | true =>
    simp only [fetchTaken, hr, Bool.or_eq_true, Bool.not_true, decide_eq_true_eq, true_and, Bool.false_eq_true, false_or]
    omega

theorem startFetch_ignored (ht : ¬ fetchTaken s h) : startFetch h a s = s := if_pos ((fetchGate_iff s h).mpr ht)

theorem startFetch_open (ht : fetchTaken s h) : startFetch h a s =
    if fetchStatus s h a ≠ 0 then emit (.fetchRsp h.die h.tile h.stream (fetchStatus s h a) []) s
    else sendFrom h.die h.tile 10 (fetchReq (fetchNoted h s) h a (cipOf s h.die h.tile).reqSeq) (fetchNoted h s) :=
  if_neg fun hg => (fetchGate_iff s h).mp hg ht

theorem startFetch_answered (ht : fetchTaken s h) (hc : fetchStatus s h a ≠ 0) :
    startFetch h a s = emit (.fetchRsp h.die h.tile h.stream (fetchStatus s h a) []) s := by
  rw [startFetch_open ht, if_pos hc]

theorem startFetch_sent (ht : fetchTaken s h) (hc : fetchStatus s h a = 0) : startFetch h a s =
    sendFrom h.die h.tile 10 (fetchReq (fetchNoted h s) h a (cipOf s h.die h.tile).reqSeq) (fetchNoted h s) := by
  rw [startFetch_open ht, if_neg (fun hne => hne hc)]

theorem fetches_noted : (cipOf (fetchNoted h s) h.die h.tile).fetches =
    (cipOf s h.die h.tile).fetches ++ [{ stream := h.stream, sseq := (cipOf s h.die h.tile).reqSeq }] := by
  rw [fetchNoted, cipOf_modCip_same, takeSeq, cipOf_modCip_same]

end

/-! ### The statement -/

/-- Settles O46: an acknowledgement at its owner, on its way, at the end of its hold; the end of the wait for it; a fetch. -/
theorem multicastAcknowledgementsAndFetches : Obligations.MulticastAcknowledgementsAndFetches := by
  refine ⟨fun s die n p => ?_, fun s die n tree => ?_, fun s h a => ?_⟩
  · intro tree got mine find
    refine ⟨mcAck_owner_fenced, mcAck_owner_counted,
      fun hm hf d hd hat => ⟨mcAck_owner_joined hm hf hd hat, mcAck_owner_completed hm hf hd⟩, fun hm => ?_⟩
    rw [exec_mcAck_pass hm]
    intro t at_ known
    refine ⟨fun hno => ?_, fun hk hroom => ?_, fun e he hroom => ?_⟩
    · rw [mergeAck_absent hno]
    · rw [mergeAck_full]
      exact Bool.or_eq_false_iff.mpr ⟨hk, decide_eq_false (Nat.not_lt.mpr hroom)⟩
    · have ht : takesAck s die n p = true := (Bool.or_eq_true _ _).mpr (hroom.imp id decide_eq_true)
      obtain ⟨m, hm, hrest⟩ := mergeAck_effect he ht
      exact ⟨_, m, rfl, hm, hrest⟩
  · intro due
    refine ⟨fun hno => ?_, fun m hm => ?_, ?_⟩
    · exact congrArg Host.Outcome.next (ackHoldExpiry_none hno)
    · obtain ⟨hmerges, hsent⟩ := ackHoldExpiry_effect (tree := tree) hm
      exact ⟨_, _, rfl, hmerges, hsent, rfl, rfl, rfl, rfl⟩
    · intro wait
      refine ⟨fun hno => ⟨_, ackWaitExpiry_none hno, exec_mcAckWaitExpiry s⟩, fun d hd => ?_⟩
      intro late
      refine ⟨fun hl => ⟨_, ackWaitExpiry_early hd hl, exec_mcAckWaitExpiry s⟩, fun hl => ⟨_, ?_, exec_mcAckWaitExpiry s⟩⟩
      rw [ackWaitExpiry_late hd hl]
      exact ⟨finishDesc_gone die n d.id _ s, fun hat q hq hr => finishDesc_record die n d.id hat (waitingDesc_kind hd) hq hr⟩
  · intro mine taken q code
    refine ⟨fun ht => ?_, fun ht hc => ?_, fun ht hc => ?_⟩
    · exact congrArg Host.Outcome.next (startFetch_ignored ht)
    · exact congrArg Host.Outcome.next (startFetch_answered ht hc)
    · refine ⟨_, _, congrArg Host.Outcome.next (startFetch_sent ht hc), ?_,
        (sendFrom_sent h.die h.tile 10 _ s (fetchNoted h s) rfl rfl rfl).all, rfl, rfl, rfl, rfl, rfl, rfl, fetches_noted⟩
      exact changesOnly_of_clr _ _ _ ((sendFrom_clr _ rfl _ _ _ _ _).trans ((modCip_clr _ rfl _ _ _ _).trans (takeSeq_clr _ rfl _ _ _)))

end Sys2Proof.Machine
end

section
/-! SUPPORT. What each command may change, one arm a command: the frames of its operations put together (O5, O4). -/
namespace Sys2Proof.Machine

/-- An answer at a CIP that the CIP may also have to take as a STATUS (R118). -/
theorem cipAnswer_marked_clr (M : Mask) (hrg : M.rg = true) (hnt : M.nt = true) (hmp : M.mp = true) (hdr : M.dr = true)
    (hse : M.se = true) (hci : M.ci = true) (hbk : M.bk = true) (hty : M.ty = true) (hft : M.ft = true) (hout : M.out = true)
    (die n : Nat) (p : Packet) (f : State → State) (s : State) (hf : ∀ t, (f t).clr M = t.clr M) :
    (cipAnswer die n p (marked p f (cipStatus die n p)) s).clr M = s.clr M :=
  cipAnswer_clr M hrg hnt hmp hdr hci hbk hout _ _ _ _ _ fun _ =>
    marked_clr M _ _ _ _ hf fun _ => cipStatus_clr M hrg hnt hmp hdr hse hci hty hft hout _ _ _ _

/-- Every command answers a next state, which differs from the state before in no part outside the command's footprint. -/
theorem exec_clr (c : Instr) (s : State) :
    ∃ t, exec c s = .next t ∧ t.clr (Mask.of (footprint c)) = s.clr (Mask.of (footprint c)) := by
  cases c with
  | pressBoundary pins =>
    exact ⟨_, rfl, boundary_clr _ rfl rfl rfl rfl rfl rfl rfl rfl rfl rfl rfl rfl rfl rfl rfl rfl rfl rfl rfl rfl rfl ..⟩
  | foldStart => exact ⟨_, rfl, foldStart_clr _ rfl rfl rfl rfl rfl rfl rfl ..⟩
  | portLockModeChange die tile port => exact ⟨_, rfl, portLockChange_clr _ rfl ..⟩
  | gateWindowEdge die tile port cls cycle => exact ⟨_, rfl, gateEdge_clr _ rfl rfl rfl rfl rfl ..⟩
  | epochCommand die frame idleBefore idleAfter => exact ⟨_, rfl, epochCommand_clr _ rfl rfl rfl ..⟩
  | epochTargetBoundary die => exact ⟨_, rfl, epochTarget_clr _ rfl rfl rfl rfl rfl ..⟩
  | pressLost die => exact ⟨_, rfl, pressLost_clr _ rfl rfl rfl rfl rfl rfl rfl rfl rfl rfl rfl rfl rfl rfl ..⟩
  | marker die link st press period lag => exact ⟨_, rfl, markerArrive_clr _ rfl rfl rfl rfl ..⟩
  | registerWrite a | priorityRegisterWrite a =>
    exact ⟨_, rfl, doWrite_clr _ rfl rfl rfl rfl rfl rfl rfl rfl rfl rfl rfl rfl rfl rfl rfl rfl rfl rfl rfl rfl rfl ..⟩
  | lowHalfRead a | tally0Read a | areaDataRead m => exact ⟨_, rfl, doRead_clr _ rfl rfl rfl ..⟩
  | shadowCommitImmediate m die page | shadowCommitNextBoundary m die page | shadowCommitScheduled m die page
  | shadowCommitCancel m die page | arbFreezeWrite m die page value | govCeilingWrite m value | planCheck m | planAdopt m
  | planCancel m | psDataLoWrite m die page value | psLoadCmd m die page value | seamAbortCmd m die page value
  | checkpointCmd m die page value | dbrRetrain m die page value | lnkRetrain m die page value | optRescan m die page value
  | errCtrlWrite m value | fabricReset m | dieReset m die | tileReset m die tile | portReset m die port | contextActivate m ctx
  | contextDeactivate m ctx | contextResetRequest m ctx | lp2Enter m | lp3Enter m | lpExit m | lp1ReqWrite m index value
  | rollbackWrite m value | areaDataWrite m value | fwCheck m | fwProgram m | fwActivate m | fwCancel m | fwBind m =>
    exact ⟨_, rfl, writeOf_clr _ rfl rfl rfl rfl rfl rfl rfl rfl rfl rfl rfl rfl rfl rfl rfl rfl rfl rfl rfl rfl rfl ..⟩
  | immediateCommitTakesEffect die page => exact ⟨_, rfl, immediateCommit_clr _ rfl rfl rfl rfl rfl rfl rfl rfl rfl ..⟩
  | portOldPlanDrained port => exact ⟨_, rfl, oldDrained_clr _ rfl rfl ..⟩
  | packetArrival die tile port p e => exact ⟨_, rfl, arrive_clr _ rfl rfl rfl rfl ..⟩
  | arbitrationDecision r =>
    cases r with
    | inject d t p pl => exact ⟨_, rfl, decideInject_clr _ rfl rfl rfl ..⟩
    | output d t p pl vc c => exact ⟨_, rfl, decideOutput_clr _ rfl rfl rfl rfl ..⟩
  | credit die tile port plane vc cls n => exact ⟨_, rfl, creditReturn__clr _ rfl rfl rfl ..⟩
  | adaptEscWaitExpiry b => exact ⟨_, rfl, escWait_clr _ rfl ..⟩
  | escapeStall b => exact ⟨_, rfl, escStall_clr _ rfl rfl rfl ..⟩
  | transitReq die tile p => exact ⟨_, rfl, transitArrive_clr _ rfl ..⟩
  | transitGrant die tile p => exact ⟨_, rfl, transitGranted_clr _ rfl ..⟩
  | transitEscapeWaitExpiry port p => exact ⟨_, rfl, transitExpire_clr _ rfl ..⟩
  | read die tile p | write die tile p => exact ⟨_, rfl, memArrive_clr _ rfl rfl rfl ..⟩
  | readData die tile p =>
    exact ⟨_, rfl, readDataAt_clr _ rfl rfl rfl rfl rfl rfl rfl rfl rfl rfl rfl rfl rfl rfl rfl rfl rfl rfl rfl rfl rfl rfl ..⟩
  | writeAck die tile p =>
    exact ⟨_, rfl, writeAckAt_clr _ rfl rfl rfl rfl rfl rfl rfl rfl rfl rfl rfl rfl rfl rfl rfl rfl rfl rfl rfl rfl rfl rfl ..⟩
  | status die tile p =>
    exact ⟨_, rfl, statusAt_clr _ rfl rfl rfl rfl rfl rfl rfl rfl rfl rfl rfl rfl rfl rfl rfl rfl rfl rfl rfl rfl rfl rfl ..⟩
  | mpRequestIssue die tile => exact ⟨_, rfl, mpIssue_clr _ rfl rfl rfl rfl ..⟩
  | mpResponse die tile tag data err => exact ⟨_, rfl, mpAnswer_clr _ rfl rfl rfl rfl rfl rfl rfl ..⟩
  | mpStall die tile tag => exact ⟨_, rfl, mpStalled_clr _ rfl rfl rfl ..⟩
  | cmResponse die tile tag data err => exact ⟨_, rfl, cmRespond_clr _ rfl rfl ..⟩
  | taskDispatch die tile darner data e => exact ⟨_, rfl, dispatchTask_clr _ rfl rfl rfl rfl rfl rfl ..⟩
  | taskComplete die tile darner data e => exact ⟨_, rfl, completeTask_clr _ rfl rfl rfl rfl rfl rfl ..⟩
  | reorderRelease die tile stream => exact ⟨_, rfl, releaseOrdered_clr _ rfl rfl rfl rfl rfl ..⟩
  | stealRequest die tile darner dir => exact ⟨_, rfl, askSteal_clr _ rfl ..⟩
  | stealGrant die tile darner data linkErr => exact ⟨_, rfl, grantSteal_clr _ rfl rfl rfl rfl ..⟩
  | patchRunComplete die tile run =>
    exact ⟨_, rfl, (settleTile_clr _ rfl rfl rfl rfl rfl rfl rfl ..).trans (completeRun_clr _ rfl rfl rfl rfl ..)⟩
  | creditIdleReturn die tile entry =>
    exact ⟨_, rfl, (settleTile_clr _ rfl rfl rfl rfl rfl rfl rfl ..).trans (idleReturn_clr _ rfl rfl ..)⟩
  | creditStall die tile stream =>
    exact ⟨_, rfl, (settleTile_clr _ rfl rfl rfl rfl rfl rfl rfl ..).trans (creditStalled_clr _ rfl rfl rfl rfl rfl rfl ..)⟩
  | mcAckWaitExpiry die tile tree =>
    exact ⟨_, rfl, (settleTile_clr _ rfl rfl rfl rfl rfl rfl rfl ..).trans (ackWaitExpiry_clr _ rfl rfl rfl rfl rfl ..)⟩
  | nop u f | next u f | drop u f | halt u f | loop u f | mov u f | abs u f | neg u f | lane u f | setl u f | salu u f | cmp u f
  | cls u f | pset u f | pone u f | plog u f | pcnt u f | acc u f | cnt u f | sel u f | azero u f | emit u f | kemit u f =>
    exact ⟨_, rfl, runPatch_clr _ rfl rfl rfl ..⟩
  | psLoadComplete die tile => exact ⟨_, rfl, psLoadEnd_clr _ rfl ..⟩
  | seamOpen die eng p => exact ⟨_, rfl, served_clr _ rfl _ _ _ _ _ _ (fun _ => openArrive_clr _ rfl rfl rfl rfl rfl rfl ..)⟩
  | seamAdmit die tile p =>
    exact ⟨_, rfl, cipAnswer_marked_clr _ rfl rfl rfl rfl rfl rfl rfl rfl rfl rfl _ _ _ _ _
      (fun _ => admitArrive_clr _ rfl rfl rfl ..)⟩
  | seamDone die tile p =>
    exact ⟨_, rfl, cipAnswer_clr _ rfl rfl rfl rfl rfl rfl rfl _ _ _ _ _ (fun _ => cqRecord_clr _ rfl rfl rfl ..)⟩
  | creditGrant die tile p =>
    exact ⟨_, rfl, cipAnswer_marked_clr _ rfl rfl rfl rfl rfl rfl rfl rfl rfl rfl _ _ _ _ _
      (fun _ => creditGranted_clr _ rfl rfl ..)⟩
  | ringGrant die tile p =>
    exact ⟨_, rfl, cipAnswer_marked_clr _ rfl rfl rfl rfl rfl rfl rfl rfl rfl rfl _ _ _ _ _
      (fun _ => ringGranted_clr _ rfl rfl rfl ..)⟩
  | bskDone die tile p =>
    exact ⟨_, rfl, cipAnswer_marked_clr _ rfl rfl rfl rfl rfl rfl rfl rfl rfl rfl _ _ _ _ _
      (fun _ => addAnswered_clr _ rfl rfl ..)⟩
  | pegDone die tile p =>
    exact ⟨_, rfl, cipAnswer_marked_clr _ rfl rfl rfl rfl rfl rfl rfl rfl rfl rfl _ _ _ _ _
      (fun _ => pegDoneArrive_clr _ rfl rfl ..)⟩
  | seamSummary die eng rec p => exact ⟨_, rfl, (summaryAt_clr _ rfl rfl rfl rfl rfl ..).trans (consume_clr _ rfl ..)⟩
  | seamReserve die tile r => exact ⟨_, rfl, reserveArrive_clr _ rfl rfl rfl rfl rfl ..⟩
  | seamGrant die eng rec fromDie fromTile outcome =>
    exact ⟨_, rfl, (grantArrive_clr _ rfl rfl rfl rfl rfl ..).trans (consumeOp_clr _ rfl ..)⟩
  | seamYieldAsk die eng rec fromDie fromTile =>
    exact ⟨_, rfl, (yieldAsk_clr _ rfl rfl rfl rfl rfl ..).trans (consumeOp_clr _ rfl ..)⟩
  | seamYield die tile r yielded => exact ⟨_, rfl, yieldArrive_clr _ rfl rfl rfl rfl rfl ..⟩
  | seamSet die tile r load => exact ⟨_, rfl, setArrive_clr _ rfl rfl rfl ..⟩
  | seamPart die tile r fromTile p | seamData die tile r fromDie fromTile p =>
    exact ⟨_, rfl, seamValues_clr _ rfl rfl rfl rfl rfl rfl rfl ..⟩
  | seamAbort die eng rec p => exact ⟨_, rfl, abortArrive_clr _ rfl rfl rfl rfl rfl ..⟩
  | seamRelease die tile r => exact ⟨_, rfl, (releaseEval_clr _ rfl rfl rfl rfl rfl ..).trans (consumeOp_clr _ rfl ..)⟩
  | seamTimeout die eng rec => exact ⟨_, rfl, seamTimedOut_clr _ rfl ..⟩
  | seamResStall die eng rec tileDie tile => exact ⟨_, rfl, resStalled_clr _ rfl rfl rfl ..⟩
  | seamLinkLost die eng rec => exact ⟨_, rfl, seamLinkLostAt_clr _ rfl rfl rfl rfl rfl ..⟩
  | send h addr nbytes payload => exact ⟨_, rfl, doSend_clr _ rfl rfl rfl rfl rfl rfl rfl ..⟩
  | add h addr entry element => exact ⟨_, rfl, doAdd_clr _ rfl rfl rfl rfl rfl rfl rfl ..⟩
  | recv h queue nowait => exact ⟨_, rfl, doRecv_clr _ rfl rfl rfl rfl rfl rfl rfl ..⟩
  | ringWait h ring => exact ⟨_, rfl, doRingWait_clr _ rfl rfl rfl rfl rfl rfl rfl ..⟩
  | ringFree h ring head => exact ⟨_, rfl, doRingFree_clr _ rfl rfl rfl rfl rfl rfl rfl ..⟩
  | bskArm h basket entry tag expect => exact ⟨_, rfl, doBskArm_clr _ rfl rfl rfl rfl rfl rfl rfl ..⟩
  | pegArmCmd h addr target auto => exact ⟨_, rfl, doPegArmCmd_clr _ rfl rfl rfl rfl rfl rfl rfl ..⟩
  | pegAddCmd h addr k => exact ⟨_, rfl, doPegAddCmd_clr _ rfl rfl rfl rfl rfl rfl rfl ..⟩
  | pegWaitCmd h addr w => exact ⟨_, rfl, doPegWaitCmd_clr _ rfl rfl rfl rfl rfl rfl rfl ..⟩
  | pegReadCmd h addr => exact ⟨_, rfl, doPegReadCmd_clr _ rfl rfl rfl rfl rfl rfl rfl ..⟩
  | dbWait h doorbell v => exact ⟨_, rfl, doDbWait_clr _ rfl rfl rfl rfl rfl rfl rfl ..⟩
  | deferRead h => exact ⟨_, rfl, doDeferRead_clr _ rfl rfl rfl rfl rfl rfl rfl ..⟩
  | fetchRequest h addr => exact ⟨_, rfl, startFetch_clr _ rfl rfl rfl ..⟩
  | copy h desc | multicast h desc | ringSend h desc | logPut h desc | patchRunPost h desc | seamOpenPost h desc =>
    exact ⟨_, rfl, doPost_clr _ rfl rfl rfl rfl rfl rfl rfl ..⟩
  | msg die tile p =>
    exact ⟨_, rfl, cipPacket_clr _ rfl rfl rfl rfl rfl rfl rfl _ _ _ _ _ (fun _ => msgArrive_clr _ rfl rfl rfl rfl ..)⟩
  | creditReq die tile p =>
    exact ⟨_, rfl, cipPacket_clr _ rfl rfl rfl rfl rfl rfl rfl _ _ _ _ _ (fun _ => creditAsked_clr _ rfl rfl ..)⟩
  | creditReturn die tile p =>
    exact ⟨_, rfl, cipPacket_clr _ rfl rfl rfl rfl rfl rfl rfl _ _ _ _ _ (fun _ => creditBack_clr _ rfl ..)⟩
  | ringReserve die tile p =>
    exact ⟨_, rfl, cipPacket_clr _ rfl rfl rfl rfl rfl rfl rfl _ _ _ _ _ (fun _ => ringReserve_clr _ rfl rfl rfl ..)⟩
  | ringCommit die tile p =>
    exact ⟨_, rfl, cipPacket_clr _ rfl rfl rfl rfl rfl rfl rfl _ _ _ _ _ (fun _ => ringCommit_clr _ rfl rfl ..)⟩
  | bskAdd die tile p =>
    exact ⟨_, rfl, cipPacket_clr _ rfl rfl rfl rfl rfl rfl rfl _ _ _ _ _
      (fun _ => bskAddArrive_clr _ rfl rfl rfl rfl rfl rfl ..)⟩
  | dbInc die tile p => exact ⟨_, rfl, cipPacket_clr _ rfl rfl rfl rfl rfl rfl rfl _ _ _ _ _ (fun _ => dbInc_clr _ rfl rfl ..)⟩
  | stallNote die tile p =>
    exact ⟨_, rfl, cipPacket_clr _ rfl rfl rfl rfl rfl rfl rfl _ _ _ _ _ (fun _ => stallNoted_clr _ rfl rfl rfl ..)⟩
  | mcAck die tile p => exact ⟨_, rfl, mcAckAt_clr _ rfl rfl rfl rfl rfl rfl rfl rfl ..⟩
  | pegArm die p => exact ⟨_, rfl, pegOp_clr _ rfl rfl _ _ _ _ (fun _ _ => pegArmOp_clr _ rfl rfl ..)⟩
  | pegAdd die p => exact ⟨_, rfl, pegOp_clr _ rfl rfl _ _ _ _ (fun _ _ => pegAddOp_clr _ rfl rfl rfl rfl ..)⟩
  | pegWait die p => exact ⟨_, rfl, pegOp_clr _ rfl rfl _ _ _ _ (fun _ _ => pegWaitOp_clr _ rfl rfl rfl ..)⟩
  | pegRead die p => exact ⟨_, rfl, pegOp_clr _ rfl rfl _ _ _ _ (fun _ _ => pegReadOp_clr _ rfl ..)⟩
  | mcAckHoldExpiry die tile tree => exact ⟨_, rfl, ackHoldExpiry_clr _ rfl rfl rfl ..⟩
  | logRec port record => exact ⟨_, rfl, logRecArrive_clr _ rfl rfl rfl rfl rfl ..⟩
  | datagramClose port => exact ⟨_, rfl, datagramClose_clr _ rfl rfl rfl rfl ..⟩
  | gapRecord die ctx => exact ⟨_, rfl, gapSent_clr _ rfl rfl rfl ..⟩
  | pairDelta p => exact ⟨_, rfl, deltaArrive_clr _ rfl rfl ..⟩
  | pairAck port p => exact ⟨_, rfl, ackArrived_clr _ rfl rfl rfl ..⟩
  | heldEventApply index => exact ⟨_, rfl, heldApply_clr _ rfl rfl rfl rfl rfl rfl rfl rfl rfl rfl rfl ..⟩
  | pairLagLimit index => exact ⟨_, rfl, lagExpired_clr _ rfl rfl rfl ..⟩
  | pairPrimaryLost => exact ⟨_, rfl, primaryLost_clr _ rfl rfl rfl ..⟩
  | pairMirrorLost => exact ⟨_, rfl, mirrorLost_clr _ rfl rfl rfl ..⟩
  | bridgeGroup die bridge module c0 c1 c2 c3 =>
    exact ⟨_, rfl, groupIn_clr _ rfl rfl rfl rfl rfl rfl rfl rfl rfl rfl rfl rfl ..⟩
  | course port seq fecOk units sym => exact ⟨_, rfl, courseIn_clr _ rfl rfl rfl rfl rfl rfl rfl rfl rfl rfl rfl rfl ..⟩
  | ack die link seq => exact ⟨_, rfl, acked_clr _ rfl ..⟩
  | nak die link seq select => exact ⟨_, rfl, naked_clr _ rfl rfl rfl rfl ..⟩
  | faultIdle die link => exact ⟨_, rfl, faultIdle_clr _ rfl rfl rfl rfl rfl rfl rfl rfl rfl ..⟩
  | ident die link fragment bytes => exact ⟨_, rfl, identArrive_clr _ rfl rfl rfl rfl rfl ..⟩
  | echo die link reply count => exact ⟨_, rfl, echoArrive_clr _ rfl rfl rfl ..⟩
  | moduleTrainingDone die bridge module r => exact ⟨_, rfl, moduleTrained_clr _ rfl rfl rfl rfl rfl ..⟩
  | dbrTrainFail die bridge module => exact ⟨_, rfl, moduleFails_clr _ rfl rfl ..⟩
  | trainingRetry die link => exact ⟨_, rfl, trainAgain_clr _ rfl ..⟩
  | sundiTrainingStepDone port r => exact ⟨_, rfl, sundiStep_clr _ rfl rfl rfl rfl rfl ..⟩
  | lnkTrainFail port => exact ⟨_, rfl, sundiFails_clr _ rfl rfl ..⟩
  | linkLoss die link => exact ⟨_, rfl, linkLoss_clr _ rfl rfl rfl rfl ..⟩
  | fecWindowEnd port corrected => exact ⟨_, rfl, fecWindow_clr _ rfl rfl ..⟩
  | stoLinkDown port => exact ⟨_, rfl, stoLost_clr _ rfl rfl rfl ..⟩
  | storageFrameReceived port => exact ⟨_, rfl, stoCount_clr _ rfl ..⟩
  | mrd h t | mwr h t =>
    exact ⟨_, rfl, inbound_clr _ rfl rfl rfl rfl rfl rfl rfl rfl rfl rfl rfl rfl rfl rfl rfl rfl rfl rfl rfl rfl rfl rfl ..⟩
  | hstLinkDown h =>
    refine ⟨_, rfl, ?_⟩
    split
    · exact (raise0_clr _ rfl rfl ..).trans ((hostDiscard_clr _ rfl ..).trans (modHost_clr _ rfl ..))
    · rfl
  | hstFlr h | hstHotReset h => exact ⟨_, rfl, hostReset_clr _ rfl ..⟩
  | optModuleDetect die g record => exact ⟨_, rfl, detect_clr _ rfl rfl rfl rfl rfl rfl ..⟩
  | laserHourTick die g => exact ⟨_, rfl, hourTick_clr _ rfl rfl rfl rfl rfl ..⟩
  | powerSample die g i3cOk p0 p1 => exact ⟨_, rfl, powerSample_clr _ rfl rfl rfl rfl rfl ..⟩
  | faultRecordDie die parity => exact ⟨_, rfl, collect_clr _ rfl rfl rfl rfl rfl rfl rfl rfl rfl rfl rfl rfl rfl ..⟩
  | faultRecordRoot => exact ⟨_, rfl, rootRecord_clr _ rfl rfl rfl rfl rfl rfl rfl ..⟩
  | errNPulseEnd => exact ⟨_, rfl, pulseEnd_clr _ rfl rfl ..⟩
  | routerPoll die tile => exact ⟨_, rfl, routerDead_clr _ rfl rfl ..⟩
  | quiesceResetPhase => exact ⟨_, rfl, quiesceDrained_clr _ rfl rfl rfl rfl rfl rfl rfl rfl rfl rfl rfl rfl rfl rfl rfl rfl ..⟩
  | quiesceLimit => exact ⟨_, rfl, quiesceLimit_clr _ rfl rfl rfl rfl rfl rfl rfl rfl rfl rfl rfl rfl rfl rfl rfl rfl ..⟩
  | quiesceReturn => exact ⟨_, rfl, quiesceReturn_clr _ rfl rfl rfl rfl ..⟩
  | clWake die tile => exact ⟨_, rfl, clWoken_clr _ rfl rfl ..⟩
  | por straps eccLost failedRouters mistied =>
    exact ⟨_, rfl, por_clr _ rfl rfl rfl rfl rfl rfl rfl rfl rfl rfl rfl rfl rfl rfl rfl rfl rfl rfl rfl rfl rfl rfl ..⟩
  | porNLow => exact ⟨_, rfl, porLow_clr _ rfl rfl rfl rfl ..⟩
  | fmcStart partsOk0 partsOk1 => exact ⟨_, rfl, fmcStart_clr _ rfl rfl rfl rfl rfl ..⟩
  | regRead src addr => exact ⟨_, rfl, request__clr _ rfl rfl rfl _ _ _ _ (fun _ => svcRead_clr _ rfl rfl ..)⟩
  | regWrite src addr value =>
    exact ⟨_, rfl, request__clr _ rfl rfl rfl _ _ _ _
      (fun _ => svcWrite_clr _ rfl rfl rfl rfl rfl rfl rfl rfl rfl rfl rfl rfl rfl rfl rfl rfl rfl rfl rfl rfl rfl ..)⟩
  | stageWrite src offset data => exact ⟨_, rfl, request__clr _ rfl rfl rfl _ _ _ _ (fun _ => stageWrite_clr _ rfl ..)⟩
  | stageRead src offset count => exact ⟨_, rfl, request__clr _ rfl rfl rfl _ _ _ _ (fun _ => stageRead_clr _ ..)⟩
  | ping src data => exact ⟨_, rfl, request__clr _ rfl rfl rfl _ _ _ _ (fun _ => pingBack_clr _ ..)⟩
  | sidebandWrite index data | svcCommit => exact ⟨_, rfl, sideband_clr _ rfl rfl ..⟩
  | fwCheckDone => exact ⟨_, rfl, fwChecked_clr _ rfl rfl rfl rfl rfl ..⟩
  | fwProgramDone readBackOk => exact ⟨_, rfl, fwProgrammed_clr _ rfl rfl rfl rfl rfl ..⟩
  | activationLoadDone => exact ⟨_, rfl, actLoaded_clr _ rfl rfl ..⟩
  | activationLoadTimeout => exact ⟨_, rfl, actFailed_clr _ rfl rfl rfl rfl rfl ..⟩
  | pauseEnd =>
    exact ⟨_, rfl, pauseEnd_clr _ rfl rfl rfl rfl rfl rfl rfl rfl rfl rfl rfl rfl rfl rfl rfl rfl rfl rfl rfl rfl rfl ..⟩
  | bypass die tdi => exact ⟨_, rfl, bypassShift_clr _ rfl rfl ..⟩
  | idcode die => exact ⟨_, rfl, emit_clr _ rfl ..⟩
  | samplePreload die => exact ⟨_, rfl, sampleOut_clr _ rfl rfl ..⟩
  | extest die =>
    refine ⟨_, rfl, ?_⟩
    split
    · exact sampleOut_clr _ rfl rfl ..
    · exact bypassShift_clr _ rfl rfl ..
  | referenceEdgesResumed die => exact ⟨_, rfl, modUnit_clr _ rfl ..⟩
  | brownOut => exact ⟨_, rfl, brownedOut_clr _ rfl ..⟩
  | fabricSupplyLoss => exact ⟨_, rfl, supplyLost_clr _ rfl rfl rfl rfl rfl ..⟩
  | stoPcsLinkUp port => exact ⟨_, rfl, stoLinked_clr _ rfl rfl rfl rfl ..⟩
  | unsupportedTlp h tag nonPosted => exact ⟨_, rfl, otherTlp_clr _ rfl rfl ..⟩
  | serviceDatagramRejected src bytes => exact ⟨_, rfl, rejected_clr _ rfl rfl rfl ..⟩
  | cmRequestIssue die tile => exact ⟨_, rfl, cmIssue_clr _ rfl rfl ..⟩

end Sys2Proof.Machine
end

section
/-! SUPPORT. What the invariant speaks of, and the operations that leave it: the clock, the fold, the update unit, the safe state,
the boundary but for its counting (O4, O6). -/
namespace Sys2Proof.Machine

/-! ### What the invariant speaks of -/

/-- The Press units, staging SRAM, ROLLBACK, the slots, and what PROGRAM writes to which slot. -/
def invData (s : State) : SMap PressUnit × List Host.Cell × Nat × SetSlot × SetSlot × Nat × Nat :=
  (s.tm.units, s.ram, s.kp.rollback, s.fw.slot0, s.fw.slot1, s.fw.newRb, s.fw.newSlot)

theorem Inv.of_data {s t : State} (h : invData t = invData s) (hi : Inv s) : Inv t := by
  simp only [invData, Prod.mk.injEq] at h
  obtain ⟨hu, hram, hrb, h0, h1, hn, hs⟩ := h
  unfold Inv at hi ⊢
  rw [hu, hram, hrb, h0, h1, hn, hs]
  exact hi

/-- The parts the invariant does not speak of. -/
def quietParts : List Part :=
  [.rg, .nt, .pl, .mp, .dr, .se, .ci, .bk, .pg, .ty, .pr, .lk, .hs, .op, .ft, .rs, .sv, .jt, .out, .fresh, .pending]

theorem data_of_changes {s t : State} (h : ChangesOnly quietParts s t) : invData t = invData s := by
  have htm : t.tm = s.tm := h .tm (by decide)
  have hkp : t.kp = s.kp := h .kp (by decide)
  have hfw : t.fw = s.fw := h .fw (by decide)
  have hram : t.ram = s.ram := h .ram (by decide)
  unfold invData
  rw [htm, hkp, hfw, hram]

theorem data_of_clr {s t : State} (h : t.clr (Mask.of quietParts) = s.clr (Mask.of quietParts)) : invData t = invData s :=
  data_of_changes (changesOnly_of_clr _ _ _ h)

theorem Inv.of_clr {s t : State} (h : t.clr (Mask.of quietParts) = s.clr (Mask.of quietParts)) (hi : Inv s) : Inv t :=
  hi.of_data (data_of_clr h)

/-! ### The clock and the fold -/

theorem setClock_data (c : Nat) (s : State) : invData (setClock c s) = invData s := (data_of_clr
  (startCycle_clr _ rfl ..)).trans rfl

/-- Of the time base only the clock, the locks, the fold and the straps may change. -/
theorem data_of_units {s t : State} (h : t.clr (Mask.of (.tm :: quietParts)) = s.clr (Mask.of (.tm :: quietParts)))
    (hu : t.tm.units = s.tm.units) : invData t = invData s := by
  have hkp : t.kp = s.kp := same_of_clr _ _ _ h .kp (by decide)
  have hfw : t.fw = s.fw := same_of_clr _ _ _ h .fw (by decide)
  have hram : t.ram = s.ram := same_of_clr _ _ _ h .ram (by decide)
  unfold invData
  rw [hu, hkp, hfw, hram]

theorem tick_data (s : State) : invData (tick s) = invData s := data_of_units (tick_clr _ rfl rfl rfl rfl rfl ..)
  (by rw [tick_fclk])

theorem advanceTo_data (c : Nat) (s : State) : invData (advanceTo c s) = invData s :=
  data_of_units (advanceTo_clr _ rfl rfl rfl rfl rfl ..) (by rw [advanceTo_tm])

theorem reach_data (c : Nat) (s : State) : invData (reach c s) = invData s := by
  unfold reach
  split
  · exact setClock_data _ s
  · exact advanceTo_data c s

theorem gateEdge_data (die t port cls cycle : Nat) (s : State) : invData (gateEdge die t port cls cycle s) = invData s := by
  unfold gateEdge
  split
  · rfl
  · split
    · exact advanceTo_data _ s
    · rfl

theorem foldStart_data (s : State) : invData (foldStart s) = invData s := by
  unfold foldStart
  dsimp only
  split
  · rfl
  · refine Eq.trans ?_ (advanceTo_data ((unitOf s (refDie s)).start + budgetB s (refDie s)) s)
    split
    · exact (data_of_clr (showTallies_clr _ rfl ..)).trans rfl
    · exact (data_of_clr ((sendDeltas_clr _ rfl rfl rfl rfl ..).trans (showTallies_clr _ rfl ..))).trans rfl

/-! ### The update unit (R534 to R551) -/

theorem fwDone_data (code : Nat) (st : FwState) (s : State) : invData (fwDone code st s) = invData s :=
  (data_of_clr ((hostCause_clr _ rfl rfl rfl ..).trans (notice_clr _ rfl rfl rfl ..))).trans rfl

theorem fwState_data (st : FwState) (s : State) : invData (fwState st s) = invData s := by
  unfold fwState
  split
  · rfl
  · exact (data_of_clr (notice_clr _ rfl rfl rfl ..)).trans rfl

theorem fwIdle_data (code : Nat) (s : State) : invData (fwIdle code s) = invData s := fwDone_data code .idle _

theorem fwCheck_data (s : State) : invData (fwCheck s) = invData s := by
  unfold fwCheck
  split
  · exact fwState_data _ _
  · exact fwDone_data _ _ s

theorem fwCancel_data (s : State) : invData (fwCancel s) = invData s := by
  unfold fwCancel
  split
  · exact fwDone_data _ _ s
  · exact fwDone_data _ _ s
  · exact fwIdle_data 0 s

theorem fwBind_data (s : State) : invData (fwBind s) = invData s := by
  unfold fwBind
  split
  · exact fwDone_data _ _ s
  · split
    · exact fwDone_data _ _ _
    · exact fwDone_data _ _ s

theorem actFailed_data (s : State) : invData (actFailed s) = invData s := by
  unfold actFailed
  split
  · exact fwIdle_data _ s
  · rfl

theorem pauseBegins_data (s : State) : invData (pauseBegins s) = invData s :=
  (data_of_clr (keepAlives_clr _ rfl rfl ..)).trans (fwState_data .pause _)

theorem pauseStops_data (s : State) : invData (pauseStops s) = invData s := by
  unfold pauseStops
  dsimp only
  split
  · exact (fwIdle_data _ _).trans ((data_of_clr ((forEach_clr _ _ _ _ fun e t => (sendIdent_clr _ rfl rfl ..)).trans
    (resumeLinks_clr _ rfl rfl rfl rfl ..))).trans rfl)
  · exact (data_of_clr ((forEach_clr _ _ _ _ fun e t => (sendIdent_clr _ rfl rfl ..)).trans
    (resumeLinks_clr _ rfl rfl rfl rfl ..))).trans rfl

/-! ### The safe state and the records of faults (R469 to R478) -/

theorem cutPause_data (s : State) : invData (cutPause s) = invData s := by
  unfold cutPause
  dsimp only
  split
  · exact fwDone_data _ _ _
  · rfl

theorem enterSafe_data (die : Nat) (s : State) : invData (enterSafe die s) = invData s := by
  unfold enterSafe
  split
  · rfl
  · refine Eq.trans (data_of_clr ?_) (cutPause_data s)
    have hrounds : ∀ t : State, (forEach (List.range (nTiles die)) (fun n s => failFetches die n 0x89
      (failBlocked die n 0x89 s)) t).clr
        (Mask.of quietParts) = t.clr (Mask.of quietParts) :=
      fun t => forEach_clr _ _ _ _ fun n t => (failFetches_clr _ rfl rfl ..).trans (failBlocked_clr _ rfl rfl ..)
    have hlinks : ∀ t : State, (forEach ((List.range 22).filter (isLink die)) (fun l s => sendSym die l 6 0 s) t).clr
        (Mask.of quietParts) = t.clr (Mask.of quietParts) := fun t => forEach_clr _ _ _ _ fun l t => (sendSym_clr _ rfl rfl ..)
    have hsafe : ∀ (ks : List Nat) (t : State), (forEach ks (fun k s => safeMembers die k s) t).clr
        (Mask.of quietParts) = t.clr (Mask.of quietParts) := fun ks t => forEach_clr _ _ _ _ fun k t =>
          (safeMembers_clr _ rfl rfl rfl rfl ..)
    have hft : ∀ (f : Faults) (t : State), State.clr (Mask.of quietParts) { t with ft := f } = t.clr (Mask.of quietParts) :=
      fun f t => upd_ft _ rfl t f
    dsimp only
    split
    · exact (setErr_clr _ rfl rfl ..).trans ((hft _ _).trans ((hsafe _ _).trans ((hrounds _).trans (hlinks _))))
    · exact (hft _ _).trans ((hsafe _ _).trans ((hrounds _).trans (hlinks _)))

theorem faultIdle_data (die link : Nat) (s : State) : invData (faultIdle die link s) = invData s := by
  unfold faultIdle
  split
  · split
    · exact (enterSafe_data die _).trans (data_of_clr (modLink_clr _ rfl ..))
    · rfl
  · split
    · rfl
    · exact data_of_clr (modLink_clr _ rfl ..)

theorem collect_data (die : Nat) (parity : Bool) (s : State) : invData (collect die parity s) = invData s := by
  have hraise : (doIf (parity && decide (die < 64)) (raise0 die 1 0) s).clr (Mask.of quietParts) = s.clr (Mask.of quietParts) :=
    doIf_clr _ _ _ _ fun t => (raise0_clr _ rfl rfl ..)
  have hone : ∀ (rs : List FaultRec) (t : State), invData (forEach rs (fun r s => collectOne die r s) t) = invData t :=
    fun rs t => data_of_clr (forEach_clr _ _ _ _ fun r t => (collectOne_clr _ rfl rfl rfl ..))
  refine Eq.trans ?_ (data_of_clr hraise)
  unfold collect
  dsimp only
  split
  · rfl
  · split
    · refine (enterSafe_data die _).trans ?_
      split
      · exact hone _ _
      · exact hone _ _
    · split
      · exact (data_of_clr (isolateDie_clr _ rfl rfl rfl rfl rfl rfl rfl rfl rfl rfl ..)).trans (hone _ _)
      · exact hone _ _

theorem keepRecord_data (r : FaultRec) (s : State) : invData (keepRecord r s) = invData s := by
  unfold keepRecord
  split <;> rfl

theorem ite_data {c : Prop} [Decidable c] {a s : State} (h : invData a = invData s) :
  invData (if c then a else s) = invData s := by
  split
  · exact h
  · rfl

theorem branch_data {c : Prop} [Decidable c] {a b s : State} (ha : invData a = invData s) (hb : invData b = invData s) :
    invData (if c then a else b) = invData s := by
  split
  · exact ha
  · exact hb

theorem rootRecord_data (s : State) : invData (rootRecord s) = invData s := by
  unfold rootRecord
  split
  · rfl
  · next p r _ =>
    split
    · rfl
    · dsimp only
      generalize hx : (if r.sev ≥ 1 then notice _ _ _ else keepRecord r _) = x
      have dx : invData x = invData s := hx ▸ (ite_data (data_of_clr ((notice_clr _ rfl rfl rfl ..).trans
        (hostCause_clr _ rfl rfl rfl ..)))).trans
        ((keepRecord_data r _).trans ((data_of_clr (consume_clr _ rfl ..)).trans rfl))
      refine (ite_data (data_of_clr (pulseErr_clr _ rfl rfl ..))).trans (Eq.trans ?_ dx)
      split
      · exact ite_data rfl
      · rfl

/-! ### Keep, the laser modules, the service port -/

theorem setShadowHours_data (die g : Nat) (key : DWord) (hours : Nat) (s : State) :
    invData (setShadowHours die g key hours s) = invData s := rfl

theorem detect_data (die g : Nat) (record : List Byte) (s : State) : invData (detect die g record s) = invData s := by
  unfold detect
  split
  · rfl
  · dsimp only
    generalize hx : laserOut die g _ _ = x
    have dx : invData x = invData s := hx ▸ (data_of_clr (laserOut_clr _ rfl ..)).trans ((setShadowHours_data _ _ _ _ _).trans
      (data_of_clr (modEngine_clr _ rfl ..)))
    refine (data_of_clr (checkWear_clr _ rfl rfl rfl ..)).trans (Eq.trans ?_ dx)
    refine branch_data (data_of_clr ((optFault_clr _ rfl rfl ..).trans (forEach_clr _ _ _ _ fun l t => (modLink_clr _ rfl ..))))
      (data_of_clr (forEach_clr _ _ _ _ fun l t => ?_))
    split
    · exact (relight_clr _ rfl rfl ..)
    · rfl

theorem rescan_data (die g : Nat) (s : State) : invData (rescan die g s) = invData s := by
  unfold rescan
  dsimp only
  split
  · rfl
  · exact detect_data _ _ _ s

theorem hourTick_data (die g : Nat) (s : State) : invData (hourTick die g s) = invData s := by
  unfold hourTick
  dsimp only
  split
  · rfl
  · exact (data_of_clr (checkWear_clr _ rfl rfl rfl ..)).trans ((ite_data (data_of_clr (emit_clr _ rfl ..))).trans
    ((setShadowHours_data _ _ _ _ _).trans
      (data_of_clr (modEngine_clr _ rfl ..))))

theorem areaSet_data (v : Word) (s : State) : invData (areaSet v s) = invData s := by
  unfold areaSet
  split
  · exact (data_of_clr (areaNext_clr _ rfl ..)).trans rfl
  · exact data_of_clr ((areaNext_clr _ rfl ..).trans (badWrite_clr _ rfl ..))

theorem spareSet_data (die : Nat) (v : Word) (s : State) : invData (spareSet die v s) = invData s := by
  unfold spareSet
  split <;> rfl

theorem spareWrite_data (die : Nat) (v : Word) (s : State) : invData (spareWrite die v s) = invData s := by
  unfold spareWrite
  exact branch_data ((spareSet_data _ _ _).trans (data_of_clr (badWrite_clr _ rfl ..))) (spareSet_data _ _ s)

theorem pairWrite_data (i : PageInfo) (row : RegRow) (m : Master) (v : Word) (s : State) :
    invData (pairWrite i row m v s) = invData s := (data_of_clr (noteBad_clr _ rfl ..)).trans rfl

theorem brownedOut_data (s : State) : invData (brownedOut s) = invData s := by
  unfold brownedOut
  split <;> rfl

theorem porLow_data (s : State) : invData (porLow s) = invData s := by
  unfold porLow
  dsimp only
  split <;> rfl

theorem sideband_data (i : Nat) (data : List Byte) (s : State) : invData (sideband i data s) = invData s := by
  unfold sideband
  split
  · rfl
  · refine forEach_same invData _ _ _ fun e t => ?_
    unfold sidebandByte
    split
    · rfl
    · split <;> rfl

theorem ioWrite_data (die page : Nat) (i : PageInfo) (row : RegRow) (m : Master) (v : Word) (s : State) :
    invData (ioWrite die page i row m v s) = invData s := by
  unfold ioWrite
  split
  · exact data_of_clr (linkCtrl_clr _ rfl rfl ..)
  · exact data_of_clr (linkCtrl_clr _ rfl rfl ..)
  · exact (doIf_same invData _ _ _ fun t => rescan_data _ _ t).trans (data_of_clr (optCtrl_clr _ rfl rfl rfl rfl ..))
  · exact data_of_clr (modHost_clr _ rfl ..)
  · exact ite_data (data_of_clr (modHost_clr _ rfl ..))
  · exact data_of_clr (plainWrite_clr _ rfl ..)

theorem takePins_data (p : Pins) (s : State) : invData (takePins p s) = invData s := by
  unfold takePins
  refine (data_of_clr (forEach_clr _ _ _ _ fun e t => (hostPins_clr _ rfl rfl rfl ..))).trans ?_
  cases p.straps <;> rfl

/-! ### The boundary (R105) -/

theorem shiftLock_data (s : State) : invData (shiftLock s) = invData s := rfl

theorem step6_data (s : State) : invData (step6 s) = invData s :=
  (shiftLock_data _).trans (data_of_clr ((govern_clr _ rfl rfl rfl ..).trans (takeGates_clr _ rfl ..)))

theorem steps2to6_data (n : Nat) (promoted : Bool) (s : State) : invData (steps2to6 n promoted s) = invData s := by
  refine (step6_data _).trans (data_of_clr ((tallyStep_clr _ rfl rfl rfl rfl rfl rfl ..).trans
    ((mirrorStep5_clr _ rfl rfl rfl rfl rfl rfl rfl rfl rfl rfl rfl ..).trans ?_)))
  refine (doIf_clr _ _ _ _ fun t => (epochAll_clr _ rfl ..)).trans
    ((doIf_clr _ _ _ _ fun t => (epochAll_clr _ rfl ..).trans (promotePegs_clr _ rfl rfl rfl rfl ..)).trans ?_)
  exact (seamsBoundary_clr _ rfl rfl rfl rfl rfl rfl rfl rfl rfl ..).trans ((releaseAll_clr _ rfl rfl rfl rfl ..).trans
    ((ctxStep3_clr _ rfl rfl rfl rfl rfl rfl rfl rfl rfl rfl rfl rfl rfl ..).trans
      ((mirrorStep3_clr _ rfl rfl rfl rfl rfl rfl rfl rfl rfl rfl rfl ..).trans
    ((planStep_clr _ rfl rfl rfl rfl rfl rfl rfl rfl rfl rfl ..).trans
      (commitsStep2_clr _ rfl rfl rfl rfl rfl rfl rfl rfl rfl ..)))))

theorem afterSteps_data (start : Bool) (acts : Nat → Bool) (n : Nat) (s : State) :
  invData (afterSteps start acts n s) = invData s := by
  unfold afterSteps
  split
  · exact pauseBegins_data s
  · exact (ite_data (data_of_clr ((lp1Step_clr _ rfl rfl rfl rfl ..).trans
    (step7_clr _ rfl rfl rfl rfl rfl rfl rfl rfl rfl rfl rfl rfl rfl rfl ..)))).trans rfl

/-- Step 1 counts; nothing before or after it in the boundary changes what the invariant speaks of. -/
theorem fullBoundary_data (s : State) : ∃ a, invData a = invData s ∧ invData (fullBoundary s) = invData (step1 a) := by
  refine ⟨putOffLoads (doIf (promotes s) promote s),
    data_of_clr ((putOffLoads_clr _ rfl ..).trans (doIf_clr _ _ _ _ fun t => (promote_clr _ rfl rfl rfl rfl ..))), ?_⟩
  unfold fullBoundary
  refine (data_of_clr ((routeAround_clr _ rfl rfl rfl rfl rfl ..).trans (closeDelta_clr _ rfl ..))).trans
    ((afterSteps_data _ _ _ _).trans ?_)
  refine (data_of_clr ((countAcks_clr _ rfl ..).trans (mirrorAck_clr _ rfl rfl rfl rfl rfl ..))).trans
    ((steps2to6_data _ _ _).trans (data_of_clr ?_))
  exact (markAllLate_clr _ rfl rfl rfl ..).trans ((mirrorTake_clr _ rfl rfl rfl rfl ..).trans ((mirrorBase_clr _ rfl ..).trans
    ((checkStraps_clr _ rfl rfl rfl ..).trans
    ((doIf_clr _ _ _ _ fun t => (runHeld_clr _ rfl rfl rfl rfl rfl rfl rfl rfl rfl rfl ..)).trans (doIf_clr _ _ _ _ fun t =>
      (planLate_clr _ rfl rfl rfl ..))))))

theorem pausedBoundary_data (s : State) : ∃ a, invData a = invData s ∧ invData (pausedBoundary s) = invData (step1 a) :=
  ⟨putOffLoads s, data_of_clr (putOffLoads_clr _ rfl ..),
    (data_of_clr (closeDelta_clr _ rfl ..)).trans ((step6_data _).trans (data_of_clr (checkStraps_clr _ rfl rfl rfl ..)))⟩

theorem lpStep_leaving_data (s : State) (h : s.rs.lp = .leaving) : invData (lpStep s) = invData s := by
  unfold lpStep
  rw [h]
  exact (data_of_clr ((zeroTokens_clr _ rfl ..).trans (wakeLinks_clr _ rfl ..))).trans rfl

/-- What the boundary of a package in RUN does: all but the counting
  (step 1) and the change of the power state leaves the units, Keep's
ROLLBACK, the slots and staging SRAM. -/
theorem runBoundary_shape (s : State) :
    ∃ a b, invData a = invData s ∧ invData b = invData (step1 a) ∧ runBoundary s = markers (lpStep b) := by
  unfold runBoundary
  dsimp only
  generalize hx : foldStart s = x
  have dx : invData x = invData s := hx ▸ foldStart_data s
  generalize hy : (if x.fw.inPause ∧ !pauseAtBoundary (unitOf s (refDie s)).period ∧
    pauseLimit x ≤ (unitOf s (refDie s)).start + pressCycles (unitOf s (refDie s)).period then
      pauseStops (advanceTo (pauseLimit x) x) else x) = y
  have dy : invData y = invData s := hy ▸ (ite_data ((pauseStops_data _).trans (advanceTo_data _ x))).trans dx
  generalize hz : reach _ y = z
  have dz : invData z = invData s := hz ▸ (reach_data _ y).trans dy
  generalize hw : (if z.fw.inPause ∧ pauseAtBoundary (unitOf s (refDie s)).period ∧
    (unitOf s (refDie s)).press + 1 ≥ z.fw.actPress + pausePresses (unitOf s (refDie s)).period then pauseStops z else z) = w
  have dw : invData w = invData s := hw ▸ (ite_data (pauseStops_data z)).trans dz
  generalize hv : (if w.rs.lp = .leaving then lpStep w else w) = v
  have dv : invData v = invData s := by
    rw [← hv]
    split
    · next h => exact (lpStep_leaving_data w h).trans dw
    · exact dw
  have hb : ∃ a, invData a = invData v ∧ invData (if v.fw.inPause then pausedBoundary v else fullBoundary v) =
    invData (step1 a) := by
    split
    · exact pausedBoundary_data v
    · exact fullBoundary_data v
  obtain ⟨a, ha, hb⟩ := hb
  exact ⟨a, _, ha.trans dv, hb, rfl⟩

end Sys2Proof.Machine
end

section
/-! SUPPORT. The invariant at the Press units, the markers, the frames of links and the boundary (O4). -/
namespace Sys2Proof.Machine

/-! ### Stores: what a write adds, what a read finds -/

section Stores
variable {V : Type}

theorem mem_drop (m : SMap V) (k : Nat) (e : Nat × V) (h : e ∈ drop m k) : e ∈ m := by
  induction m with
  | nil => exact h
  | cons x m ih =>
    obtain ⟨a, v⟩ := x
    unfold drop at h
    split at h
    · exact List.mem_cons_of_mem _ (ih h)
    · rcases List.mem_cons.mp h with rfl | h
      · exact List.mem_cons_self
      · exact List.mem_cons_of_mem _ (ih h)

theorem mem_ins (m : SMap V) (k : Nat) (v : V) (e : Nat × V) (h : e ∈ ins m k v) : e = (k, v) ∨ e ∈ m := by
  induction m with
  | nil => exact .inl (List.mem_singleton.mp h)
  | cons x m ih =>
    obtain ⟨a, w⟩ := x
    unfold ins at h
    split at h
    · exact List.mem_cons.mp h
    · split at h
      · exact (List.mem_cons.mp h).imp id (List.mem_cons_of_mem _)
      · rcases List.mem_cons.mp h with rfl | h
        · exact .inr List.mem_cons_self
        · exact (ih h).imp id (List.mem_cons_of_mem _)

theorem mem_put [DecidableEq V] (d : V) (m : SMap V) (k : Nat) (v : V) (e : Nat × V) (h : e ∈ put d m k v) :
    e = (k, v) ∨ e ∈ m := by
  unfold put at h
  split at h
  · exact .inr (mem_drop m k e h)
  · exact mem_ins m k v e h

theorem look_mem (d : V) (m : SMap V) (k : Nat) : look d m k = d ∨ (k, look d m k) ∈ m := by
  induction m with
  | nil => exact .inl rfl
  | cons x m ih =>
    obtain ⟨a, v⟩ := x
    unfold look
    split
    · next h => subst h; exact .inr List.mem_cons_self
    · exact ih.imp id (List.mem_cons_of_mem _)

end Stores

/-! ### The Press units (R87, R91) -/

theorem unitOf_ok {s : State} (hi : Inv s) (die : Nat) : unitOk (unitOf s die) = true := by
  rcases look_mem ({} : PressUnit) s.tm.units die with h | h
  · unfold unitOf; rw [h]; rfl
  · exact hi.2.1 _ h

theorem periodOk_of_running {u : PressUnit} (h : unitOk u = true) (hst : u.st ≠ .unset) : periodOk u.period = true := by
  unfold unitOk at h
  simp only [hst, decide_false, Bool.false_or, Bool.and_eq_true] at h
  exact h.1

theorem periodOk_of_cmd {u : PressUnit} (h : unitOk u = true) {c : EpochCmd}
  (hc : u.cmd = some c) : periodOk c.period = true := by
  unfold unitOk at h
  rw [hc] at h
  exact (Bool.and_eq_true _ _ ▸ h).2

/-- A change of a unit that leaves every legal unit legal. -/
theorem modUnit_inv (die : Nat) (f : PressUnit → PressUnit) {s : State} (hf : ∀ u, unitOk u = true → unitOk (f u) = true)
    (hi : Inv s) : Inv (modUnit die f s) := by
  have hunit := hf _ (unitOf_ok hi die)
  obtain ⟨hram, hu, hrest⟩ := hi
  refine ⟨hram, fun e he => ?_, hrest⟩
  rcases mem_put _ _ _ _ e he with rfl | he
  · exact hunit
  · exact hu e he

theorem enterRun_inv (die press period start : Nat) (followed : Bool) {s : State} (hp : periodOk period = true) (hi : Inv s) :
    Inv (enterRun die press period start followed s) := by
  refine Inv.of_clr (judge_clr _ rfl ..) (modUnit_inv die _ (fun _ _ => ?_) hi)
  simp [unitOk, hp]

theorem epochTarget_inv (die : Nat) {s : State} (hi : Inv s) : Inv (epochTarget die s) := by
  unfold epochTarget
  split
  · exact hi
  · next c hc =>
    have hp := periodOk_of_cmd (unitOf_ok hi die) hc
    have ha := hi.of_data (advanceTo_data c.target s)
    dsimp only
    split
    · exact modUnit_inv die _ (fun _ _ => by simp [unitOk, hp]) ha
    · exact enterRun_inv die _ _ _ _ hp ha

theorem parseEpoch_period {frame : List Byte} {f : EpochFrame} (h : parseEpoch frame = some f) : periodOk f.period = true := by
  unfold parseEpoch at h
  dsimp only at h
  split at h
  · next hc =>
    cases h
    exact hc.2.2.2.1
  · exact absurd h nofun

theorem epochActs_inv (die : Nat) (f : EpochFrame) {s : State} (hp : periodOk f.period = true) (hi : Inv s) :
    Inv (epochActs die f s) := by
  have hcount : Inv (modUnit die (fun u => { u with epochCount := u.epochCount + 1 }) s) := modUnit_inv die _ (fun _ h => h) hi
  have hraise : Inv (raisePrs die 0 none 0 s) := Inv.of_clr (raisePrs_clr _ rfl rfl ..) hi
  unfold epochActs
  dsimp only
  split
  · split
    · exact hi
    · refine modUnit_inv die _ (fun _ h => ?_) hi
      simp only [unitOk, Bool.and_eq_true] at h ⊢
      exact ⟨h.1, hp⟩
  · split
    · exact hcount
    · exact hraise
  · split
    · exact hcount
    · exact hraise

theorem epochCommand_inv (die : Nat) (frame : List Byte) (before after : Bool) {s : State} (hi : Inv s) :
    Inv (epochCommand die frame before after s) := by
  unfold epochCommand
  split
  · exact hi
  · split
    · next f hf =>
      split
      · exact epochActs_inv die f (parseEpoch_period hf) hi
      · exact Inv.of_clr (raisePrs_clr _ rfl rfl ..) hi
    · exact Inv.of_clr (raisePrs_clr _ rfl rfl ..) hi

theorem pressLost_inv (die : Nat) {s : State} (hi : Inv s) : Inv (pressLost die s) := by
  have hr : Inv (raisePrs die 2 none 0 s) := Inv.of_clr (raisePrs_clr _ rfl rfl ..) hi
  unfold pressLost
  dsimp only
  split
  · exact hi
  · split
    · exact modUnit_inv die _ (fun _ h => h) hr
    · exact Inv.of_clr (lossEffects_clr _ rfl rfl rfl rfl rfl rfl rfl rfl rfl rfl rfl rfl rfl ..) (modUnit_inv die _
      (fun _ _ => rfl) hr)

/-! ### Markers (R96 to R98) -/

theorem setPhase_inv (die link : Nat) (ph : Int) {s : State} (hi : Inv s) : Inv (setPhase die link ph s) := by
  have hm : Inv (modLink die link (fun l => { l with markerOk := true })
      (modUnit die (fun u => { u with phases := put 0 u.phases (phaseKey link) ph }) s)) :=
    Inv.of_clr (modLink_clr _ rfl ..) (modUnit_inv die _ (fun _ h => h) hi)
  unfold setPhase
  dsimp only
  split
  · exact Inv.of_clr (raisePrs_clr _ rfl rfl ..) hm
  · exact hm

theorem takeRun_inv (die link : Nat) (phase : Bool) (press period start : Nat) {s : State} (hp : periodOk period = true)
    (hi : Inv s) : Inv (takeRun die link phase press period start s) :=
  modUnit_inv die _ (fun _ h => h) (enterRun_inv die _ _ _ _ hp hi)

theorem takePhase_inv (die link press period : Nat) (b : Int) {s : State} (hp : periodOk period = true) (hi : Inv s) :
    Inv (takePhase die link press period b s) :=
  setPhase_inv die link _ (takeRun_inv die link _ _ _ _ hp hi)

theorem markerRuns_inv (die link press period lag : Nat) {s : State} (hi : Inv s) :
  Inv (markerRuns die link press period lag s) := by
  have hmis : Inv (markerMismatch die link s) := Inv.of_clr ((raisePrs_clr _ rfl rfl ..).trans (modLink_clr _ rfl ..)) hi
  have hown : (unitOf s die).st ≠ .unset → ¬ period ≠ (unitOf s die).period → periodOk period = true := fun hst hper =>
    (of_not_not hper).symm ▸ periodOk_of_running (unitOf_ok hi die) hst
  unfold markerRuns
  dsimp only
  split
  · next hst =>
    have hst : (unitOf s die).st ≠ .unset := by simp [hst]
    split
    · split
      · next hp => exact takePhase_inv _ _ _ _ _ hp hi
      · exact hi
    · split
      · exact hmis
      · next hper => exact setPhase_inv _ _ _ (takeRun_inv _ _ _ _ _ _ (hown hst hper) hi)
    · split
      · exact setPhase_inv _ _ _ hi
      · exact hmis
  · next hst =>
    have hst : (unitOf s die).st ≠ .unset := by simp [hst]
    split
    · exact hmis
    · next hper =>
      split
      · exact setPhase_inv _ _ _ (takeRun_inv _ _ _ _ _ _ (hown hst hper) hi)
      · exact setPhase_inv _ _ _ hi
  · split
    · next hp => exact takePhase_inv _ _ _ _ _ (Bool.and_eq_true _ _ ▸ hp).2 hi
    · exact hi

theorem markerArrive_inv (die link : Nat) (st : PressState) (press period lag : Nat) {s : State} (hi : Inv s) :
    Inv (markerArrive die link st press period lag s) := by
  unfold markerArrive
  dsimp only
  split
  · exact hi
  · exact markerRuns_inv die link press period lag hi

/-! ### Frames of links, which carry markers and FAULT_IDLE (R427 to R432) -/

theorem applySym_inv (die link sym : Nat) {s : State} (hi : Inv s) : Inv (applySym die link sym s) := by
  unfold applySym
  dsimp only
  split
  · exact Inv.of_clr (addCount_clr _ rfl ..) hi
  · split
    · exact Inv.of_clr (forEach_clr _ _ _ _ fun e t => (returnTo_clr _ rfl rfl rfl ..)) hi
    · exact markerArrive_inv _ _ _ _ _ _ hi
    · exact Inv.of_clr (acked_clr _ rfl ..) hi
    · exact Inv.of_clr (naked_clr _ rfl rfl rfl rfl ..) hi
    · exact hi.of_data (faultIdle_data _ _ _)
    · exact Inv.of_clr (identArrive_clr _ rfl rfl rfl rfl rfl ..) hi
    · exact Inv.of_clr (echoArrive_clr _ rfl rfl rfl ..) hi
    · exact hi

theorem inOrder_inv (die link : Nat) (f : TxFrame) (contents : State → State) {s : State} (hc : ∀ t, Inv t → Inv (contents t))
    (hi : Inv s) : Inv (inOrder die link f contents s) := by
  have hs := applySym_inv die link f.sym (hc _ (Inv.of_clr (t := modLink die link (fun l => { l with rxSeq := f.seq }) s)
    (modLink_clr _ rfl ..) hi))
  unfold inOrder
  dsimp only
  split
  · exact Inv.of_clr ((modLink_clr _ rfl ..).trans (takeAhead_clr _ rfl rfl rfl rfl ..)) hs
  · exact Inv.of_clr ((sendSym_clr _ rfl rfl ..).trans ((modLink_clr _ rfl ..).trans (takeAhead_clr _ rfl rfl rfl rfl ..))) hs

theorem receive_inv (die link : Nat) (f : TxFrame) (ok : Bool) {s : State} (hi : Inv s) : Inv (receive die link f ok s) := by
  have hdamaged : ∀ n, Inv (damaged die link n s) := fun n => Inv.of_clr (damaged_clr _ rfl rfl rfl ..) hi
  unfold receive
  dsimp only
  split
  · exact hi
  · split
    · exact hdamaged _
    · split
      · split
        · exact inOrder_inv die link f _ (fun t h => Inv.of_clr (takeSlots_clr _ rfl rfl rfl rfl ..) h) hi
        · split
          · exact hdamaged _
          · exact inOrder_inv die link f _ (fun t h => Inv.of_clr (takeUnits_clr _ rfl rfl rfl rfl ..) h) hi
      · split
        · exact Inv.of_clr (sendSym_clr _ rfl rfl ..) hi
        · split
          · exact applySym_inv _ _ _ (Inv.of_clr (modLink_clr _ rfl ..) hi)
          · split
            · exact hi
            · exact Inv.of_clr ((sendSym_clr _ rfl rfl ..).trans (modLink_clr _ rfl ..)) hi

/-! ### The boundary -/

theorem stepUnit_ok (c : Nat) (u : PressUnit) (h : unitOk u = true) : unitOk (stepUnit c u) = true := by
  have hst : (stepUnit c u).st = u.st := by unfold stepUnit; split <;> rfl
  have hp : (stepUnit c u).period = u.period := by unfold stepUnit; split <;> rfl
  have hc : (stepUnit c u).cmd = u.cmd := by unfold stepUnit; split <;> rfl
  unfold unitOk at h ⊢
  rw [hst, hp, hc]
  exact h

theorem step1_inv {s : State} (hi : Inv s) : Inv (step1 s) := by
  obtain ⟨hram, hu, hrest⟩ := hi
  refine ⟨hram, fun e he => ?_, hrest⟩
  obtain ⟨x, hx, rfl⟩ := List.mem_map.mp he
  exact stepUnit_ok _ _ (hu x hx)

theorem lpStep_inv {s : State} (hi : Inv s) : Inv (lpStep s) := by
  unfold lpStep
  split
  · split
    · exact hi
    · split
      · obtain ⟨hram, _, hrest⟩ := Inv.of_clr ((sleepLinks_clr _ rfl ..).trans (sleepLasers_clr _ rfl rfl ..)) hi
        exact ⟨hram, nofun, hrest⟩
      · exact Inv.of_clr (sleepLinks_clr _ rfl ..) (hi.of_data rfl)
  · exact Inv.of_clr ((zeroTokens_clr _ rfl ..).trans (wakeLinks_clr _ rfl ..)) (hi.of_data rfl)
  · exact hi

theorem runBoundary_inv {s : State} (hi : Inv s) : Inv (runBoundary s) := by
  obtain ⟨a, b, ha, hb, he⟩ := runBoundary_shape s
  rw [he]
  exact Inv.of_clr (markers_clr _ rfl rfl ..) (lpStep_inv ((step1_inv (hi.of_data ha)).of_data hb))

theorem boundary_inv (pins : Pins) {s : State} (hi : Inv s) : Inv (boundary pins s) := by
  have hp := hi.of_data (takePins_data pins s)
  unfold boundary
  dsimp only
  split
  · exact hp
  · split
    · exact runBoundary_inv hp
    · split
      · exact Inv.of_clr (markers_clr _ rfl rfl ..) (step1_inv (hp.of_data (reach_data _ _)))
      · exact hp

theorem pauseEnd_inv {s : State} (hi : Inv s) : Inv (pauseEnd s) := by
  unfold pauseEnd
  dsimp only
  split
  · exact hi
  · split
    · split
      · exact boundary_inv {} hi
      · exact hi
    · split
      · exact hi.of_data ((pauseStops_data _).trans (advanceTo_data _ s))
      · exact hi

end Sys2Proof.Machine
end

section
/-! SUPPORT. The invariant at resets, at the slots and at ROLLBACK (O4). -/
namespace Sys2Proof.Machine

/-! ### Resets (R505, R516, R524) -/

theorem bringUp_inv (failed : List (Nat × Nat)) {s : State} (hi : Inv s) : Inv (bringUp failed s) := by
  obtain ⟨hram, _, hrb, h0, h1, _, _⟩ := Inv.of_clr (lasersOff_clr _ rfl ..) hi
  refine Inv.of_clr ((startCycle_clr _ rfl ..).trans ((testRouters_clr _ rfl rfl ..).trans (trainModules_clr _ rfl ..))) ?_
  exact ⟨hram, nofun, hrb, h0, h1, Nat.zero_le _, Nat.zero_le _⟩

theorem fabricReset_inv (lp3 : Bool) {s : State} (hi : Inv s) : Inv (fabricReset lp3 s) := by
  have hb : Inv (bringUp (failedAgain s) (nextEpoch s)) := bringUp_inv _ (hi.of_data rfl)
  unfold fabricReset
  generalize bringUp (failedAgain s) (nextEpoch s) = b at hb
  have he : invData (if s.ft.errLow then emit (.errN false) b else b) = invData b := ite_data (data_of_clr (emit_clr _ rfl ..))
  dsimp only
  generalize (if s.ft.errLow then emit (.errN false) b else b) = e at he
  split
  · exact Inv.of_data rfl (hb.of_data he)
  · exact hb.of_data he

theorem checkKeep_inv (eccLost : Bool) {s : State} (hi : Inv s) : Inv (checkKeep eccLost s) := by
  obtain ⟨hram, hu, hrb, hrest⟩ := hi
  unfold checkKeep
  split
  · exact ⟨hram, hu, Nat.zero_le _, hrest⟩
  · exact ⟨hram, hu, hrb, hrest⟩

theorem por_inv (straps : BitVec 16) (eccLost : Bool) (failed : List (Nat × Nat)) (mistied : List Nat) {s : State}
  (hi : Inv s) :
    Inv (por straps eccLost failed mistied s) := by
  obtain ⟨_, hrest⟩ := checkKeep_inv eccLost hi
  exact bringUp_inv failed ⟨rfl, hrest⟩

theorem dropUnit_inv (die : Nat) {s : State}
  (hi : Inv s) : Inv { s with tm := { s.tm with units := drop s.tm.units die } } := by
  obtain ⟨hram, hu, hrest⟩ := hi
  exact ⟨hram, fun e he => hu e (mem_drop _ _ e he), hrest⟩

theorem resetDie_inv (die : Nat) {s : State} (hi : Inv s) : Inv (resetDie die s) := by
  have hpages := Inv.of_clr ((forEach_clr _ (dieUnitPages die) (fun p s => resetPage die p s) _ fun p t =>
    (resetPage_clr _ rfl ..)).trans
    ((forEach_clr _ (List.range (nPhys die)) (fun t s => resetEndpointPages die t (zeroTileTokens die t s)) _
      fun n t => (resetEndpointPages_clr _ rfl ..).trans (zeroTileTokens_clr _ rfl ..)).trans
      (loseRuntime_clr _ rfl rfl rfl rfl rfl rfl rfl rfl rfl rfl rfl loseTile die s fun _ _ t =>
        (loseTile_clr _ rfl rfl rfl rfl rfl rfl rfl rfl rfl ..)))) hi
  refine Inv.of_clr (zeroReg_clr _ rfl ..) (dropUnit_inv die ?_)
  split
  · exact Inv.of_clr (hostDiscard_clr _ rfl ..) hpages
  · exact hpages

theorem quiesceReset_inv (q : Quiesce) (limit : Bool) {s : State} (hi : Inv s) : Inv (quiesceReset q limit s) := by
  refine Inv.of_clr (forEach_clr _ _ _ _ fun p t => (sendLoss_clr _ rfl ..)) (Inv.of_data rfl ?_)
  split
  · exact resetDie_inv _ hi
  · exact Inv.of_clr (resetTile_clr _ rfl rfl rfl rfl rfl rfl rfl rfl rfl ..) hi
  · exact Inv.of_clr (resetPort_clr _ rfl rfl rfl ..) hi

theorem quiesceDrained_inv {s : State} (hi : Inv s) : Inv (quiesceDrained s) := by
  unfold quiesceDrained
  split
  · split
    · exact quiesceReset_inv _ _ hi
    · exact hi
  · exact hi

theorem quiesceLimit_inv {s : State} (hi : Inv s) : Inv (quiesceLimit s) := by
  unfold quiesceLimit
  split
  · split
    · exact hi
    · split
      · exact quiesceReset_inv _ _ hi
      · exact quiesceReset_inv _ _ (Inv.of_clr (raise0_clr _ rfl rfl ..) hi)
  · exact hi

/-! ### The slots and ROLLBACK (R522, R534, R537) -/

theorem fwSlot_rb {s : State} (hi : Inv s) (i : Nat) : (fwSlot s i).rb ≤ 255 := by
  obtain ⟨_, _, _, h0, h1, _, _⟩ := hi
  unfold fwSlot
  split
  · exact h1
  · exact h0

theorem setFwSlot_inv (i : Nat) (x : SetSlot) {s : State} (hx : x.rb ≤ 255) (hi : Inv s) : Inv (setFwSlot i x s) := by
  obtain ⟨hram, hu, hrb, h0, h1, hn, hs⟩ := hi
  unfold setFwSlot
  by_cases h : i = 1
  · rw [if_pos h]; exact ⟨hram, hu, hrb, h0, hx, hn, hs⟩
  · rw [if_neg h]; exact ⟨hram, hu, hrb, hx, h1, hn, hs⟩

theorem takeSlot_inv {s : State} (hi : Inv s) : Inv (takeSlot_ s) := setFwSlot_inv _ _ (fwSlot_rb hi _) hi

theorem inactiveSlot_le (s : State) : inactiveSlot s ≤ 1 := by
  unfold inactiveSlot
  split <;> decide

theorem startFrom_inv (i : Nat) (fallback : Bool) {s : State} (hi : Inv s) : Inv (startFrom i fallback s) := by
  have hx := fwSlot_rb hi i
  obtain ⟨hram, hu, hrb, hrest⟩ := hi
  have hback : (if s.kp.lost then max s.kp.rollback (fwSlot s i).rb else s.kp.rollback) ≤ 255 := by
    split
    · exact Nat.max_le.mpr ⟨hrb, hx⟩
    · exact hrb
  unfold startFrom
  dsimp only
  generalize hy : loadService _ = y
  have hl : Inv y := hy ▸ Inv.of_clr (loadService_clr _ rfl ..) ⟨hram, hu, hback, hrest⟩
  split
  · exact Inv.of_clr (setErr_clr _ rfl rfl ..) hl
  · exact hl

theorem branch_inv {c : Prop} [Decidable c] {a b : State} (ha : Inv a) (hb : Inv b) : Inv (if c then a else b) := by
  split
  · exact ha
  · exact hb

theorem fmcStart_inv (ok0 ok1 : Bool) {s : State} (hi : Inv s) : Inv (fmcStart ok0 ok1 s) := by
  have hrecovery : Inv (loadService { s with fw := { s.fw with recovery := true } }) := Inv.of_clr (loadService_clr _ rfl ..)
    (hi.of_data rfl)
  unfold fmcStart
  refine branch_inv hi ?_
  dsimp only
  split
  · exact branch_inv (startFrom_inv _ _ hi) (branch_inv (startFrom_inv _ _ hi) hrecovery)
  · exact hrecovery

theorem actLoaded_inv {s : State} (hi : Inv s) : Inv (actLoaded s) := by
  unfold actLoaded
  split
  · have ht := takeSlot_inv (s := { s with fw := { s.fw with loaded := true } }) hi
    have hx := fwSlot_rb ht
    obtain ⟨hram, hu, hrb, hrest⟩ := ht
    exact ⟨hram, hu, Nat.max_le.mpr ⟨hrb, hx _⟩, hrest⟩
  · exact hi

theorem field_one_le (bs : List Byte) (o : Nat) : field bs o 1 ≤ 255 := by
  unfold field slice
  cases bs.drop o with
  | nil => exact Nat.zero_le _
  | cons b bs =>
    simp only [List.take_succ_cons, List.take_zero, ofLe]
    omega

theorem fwChecked_inv {s : State} (hi : Inv s) : Inv (fwChecked s) := by
  unfold fwChecked
  dsimp only
  split
  · split
    · exact hi.of_data (fwIdle_data _ _)
    · refine Inv.of_data (fwDone_data _ _ _) ?_
      obtain ⟨hram, hu, hrb, h0, h1, _, hs⟩ := hi
      exact ⟨hram, hu, hrb, h0, h1, field_one_le _ _, hs⟩
  · exact hi

theorem fwProgram_inv {s : State} (hi : Inv s) : Inv (fwProgram s) := by
  unfold fwProgram
  split
  · refine Inv.of_data (fwState_data _ _) ?_
    obtain ⟨hram, hu, hrb, h0, h1, hn, _⟩ := setFwSlot_inv (inactiveSlot s) {} (Nat.zero_le _) hi
    exact ⟨hram, hu, hrb, h0, h1, hn, inactiveSlot_le s⟩
  · exact hi.of_data (fwDone_data _ _ _)

theorem fwProgrammed_inv (ok : Bool) {s : State} (hi : Inv s) : Inv (fwProgrammed ok s) := by
  unfold fwProgrammed
  split
  · split
    · obtain ⟨_, _, _, _, _, hn, _⟩ := id hi
      exact Inv.of_data (fwDone_data _ _ _) (setFwSlot_inv _ _ hn hi)
    · exact hi.of_data (fwIdle_data _ _)
  · exact hi

theorem armed_inv (p : Nat) {s : State} (hi : Inv s) : Inv (fwState .armed { s with fw := { s.fw with actPress := p } }) :=
  Inv.of_data (fwState_data _ _) (hi.of_data rfl)

theorem fwActivate_inv {s : State} (hi : Inv s) : Inv (fwActivate s) := by
  unfold fwActivate
  split
  · exact hi.of_data (fwDone_data _ _ _)
  · split
    · exact startFrom_inv _ _ ((takeSlot_inv hi).of_data (fwIdle_data _ _))
    · dsimp only
      split
      · exact hi.of_data (fwDone_data _ _ _)
      · exact armed_inv _ hi

theorem fwCmd_inv (v : Word) {s : State} (hi : Inv s) : Inv (fwCmd v s) := by
  unfold fwCmd
  split
  · exact hi
  · split
    · exact hi.of_data (fwCheck_data s)
    · exact fwProgram_inv hi
    · exact fwActivate_inv hi
    · split
      · exact hi
      · exact hi.of_data (fwCancel_data s)
    · split
      · exact hi
      · exact hi.of_data (fwBind_data s)
    · exact Inv.of_clr (badWrite_clr _ rfl ..) hi

theorem rollbackSet_inv (v : Word) {s : State} (hi : Inv s) : Inv (rollbackSet v s) := by
  unfold rollbackSet
  split
  · exact Inv.of_clr (badWrite_clr _ rfl ..) hi
  · next hv =>
    obtain ⟨hram, hu, _, hrest⟩ := hi
    exact ⟨hram, hu, by dsimp only; omega, hrest⟩

end Sys2Proof.Machine
end

section
/-! SUPPORT. The invariant at register writes, host adapters and the service port, and every step (O4). -/
namespace Sys2Proof.Machine

/-! ### Register writes (R36, R46) -/

theorem acceptSet_inv (k : Nat) (high : Bool) (v : Word) {s : State} (hi : Inv s) : Inv (acceptSet k high v s) := hi.of_data rfl

theorem keepWrite_inv (page : Nat) (i : PageInfo) (row : RegRow) (m : Master) (v : Word) {s : State} (hi : Inv s) :
    Inv (keepWrite page i row m v s) := by
  have hplain : Inv (plainWrite 0 page i row m v s) := Inv.of_clr (plainWrite_clr _ rfl ..) hi
  unfold keepWrite
  split
  · exact branch_inv (hi.of_data rfl) hi
  · exact rollbackSet_inv v hi
  · exact acceptSet_inv _ _ v hi
  · exact acceptSet_inv _ _ v hi
  · exact hi.of_data (areaSet_data v s)
  · exact branch_inv (hi.of_data rfl) hplain
  · exact hplain

theorem lpCmd_inv (v : Word) {s : State} (hi : Inv s) : Inv (lpCmd v s) := by
  unfold lpCmd
  split
  · exact hi
  · split
    · exact Inv.of_clr (lpEnter_clr _ rfl ..) hi
    · exact Inv.of_clr (lpEnter_clr _ rfl ..) hi
    · unfold lpLeave
      split
      · exact fabricReset_inv true hi
      · exact Inv.of_clr (endLp2_clr _ rfl ..) hi
    · exact hi

theorem resetCmd_inv (m : Master) (v : Word) {s : State} (hi : Inv s) : Inv (resetCmd m v s) := by
  unfold resetCmd
  dsimp only
  split
  · exact hi
  · split
    · exact fabricReset_inv false hi
    · exact Inv.of_clr (resetPart_clr _ rfl rfl rfl rfl rfl rfl rfl rfl rfl rfl ..) hi
    · exact Inv.of_clr (resetPart_clr _ rfl rfl rfl rfl rfl rfl rfl rfl rfl rfl ..) hi
    · exact Inv.of_clr (resetPart_clr _ rfl rfl rfl rfl rfl rfl rfl rfl rfl rfl ..) hi
    · exact Inv.of_clr (resetResult_clr _ rfl ..) hi

theorem fmcWrite_inv (page : Nat) (i : PageInfo) (row : RegRow) (m : Master) (v : Word) {s : State} (hi : Inv s) :
    Inv (fmcWrite page i row m v s) := by
  unfold fmcWrite
  split
  · exact Inv.of_clr (ceilingWrite_clr _ rfl rfl ..) hi
  · exact Inv.of_clr (clearWrite_clr _ rfl ..) hi
  · exact branch_inv (hi.of_data rfl) hi
  · exact Inv.of_clr (planCmd_clr _ rfl rfl rfl rfl rfl ..) hi
  · exact hi.of_data (pairWrite_data i row m v s)
  · exact branch_inv (hi.of_data rfl) hi
  · exact resetCmd_inv m v hi
  · exact Inv.of_clr (ctxCmdWrite_clr _ rfl rfl ..) hi
  · exact Inv.of_clr (lp1Write_clr _ rfl rfl rfl ..) hi
  · exact Inv.of_clr (lp1Write_clr _ rfl rfl rfl ..) hi
  · exact Inv.of_clr (lp1Write_clr _ rfl rfl rfl ..) hi
  · exact Inv.of_clr (lp1Write_clr _ rfl rfl rfl ..) hi
  · exact lpCmd_inv v hi
  · exact fwCmd_inv v hi
  · exact Inv.of_clr (plainWrite_clr _ rfl ..) hi

theorem writeEffect_inv (die page : Nat) (i : PageInfo) (row : RegRow) (m : Master) (v : Word) {s : State} (hi : Inv s) :
    Inv (writeEffect die page i row m v s) := by
  have hplain : Inv (plainWrite die page i row m v s) := Inv.of_clr (plainWrite_clr _ rfl ..) hi
  have hclear : ∀ off, Inv (clearWrite die page off v s) := fun off => Inv.of_clr (clearWrite_clr _ rfl ..) hi
  unfold writeEffect
  refine branch_inv (Inv.of_clr (headerWrite_clr _ rfl ..) hi) ?_
  split
  · exact branch_inv (hclear _) (branch_inv hi hplain)
  · exact branch_inv (hi.of_data (spareWrite_data die v s)) (branch_inv (Inv.of_clr (errCtrl_clr _ rfl rfl rfl ..) hi) hplain)
  · exact branch_inv (hclear _) hplain
  · exact branch_inv (Inv.of_clr (psStore_clr _ rfl rfl ..) hi) (branch_inv (Inv.of_clr
    (psLoadStart_clr _ rfl rfl rfl ..) hi) hplain)
  · exact branch_inv (Inv.of_clr (abortCmdEffect_clr _ rfl ..) hi) hplain
  · exact Inv.of_clr (groupWrite_clr _ rfl ..) hi
  · exact branch_inv (Inv.of_clr (checkpoint_clr _ rfl ..) hi) hplain
  iterate 4 exact hi.of_data (ioWrite_data die page i row m v s)
  iterate 5 exact fmcWrite_inv page i row m v hi
  iterate 4 exact keepWrite_inv page i row m v hi
  all_goals exact hplain

theorem writePair_inv (die page : Nat) (i : PageInfo) (row : RegRow) (m : Master) (lo high : Word) {s : State} (hi : Inv s) :
    Inv (writePair die page i row m lo high s) := by
  unfold writePair
  refine branch_inv (Inv.of_clr (badWrite_clr _ rfl ..) hi) (writeEffect_inv _ _ _ _ _ _ ?_)
  split
  · exact writeEffect_inv _ _ _ _ _ _ hi
  · exact hi

theorem writeRow_inv (die page : Nat) (i : PageInfo) (row : RegRow) (m : Master) (v : Word) {s : State} (hi : Inv s) :
    Inv (writeRow die page i row m v s) := by
  have heffect := writeEffect_inv die page i row m v hi
  unfold writeRow
  refine branch_inv (hi.of_data rfl) (branch_inv ?_ heffect)
  split
  · exact writePair_inv _ _ _ _ _ _ _ (hi.of_data rfl)
  · exact heffect

theorem regWrite_inv (a : RegAcc) {s : State} (hi : Inv s) : Inv (regWrite a s).2 := by
  unfold regWrite
  dsimp only
  split
  · exact hi
  · split
    · exact hi
    · exact writeRow_inv _ _ _ _ _ _ hi

theorem doWrite_inv (a : RegAcc) {s : State} (hi : Inv s) : Inv (doWrite a s) :=
  branch_inv (Inv.of_clr (emit_clr _ rfl ..) (regWrite_inv a hi)) hi

theorem writeOf_inv (m : Master) (die page off : Nat) (v : Word) {s : State} (hi : Inv s) : Inv (writeOf m die page off v s) :=
  doWrite_inv _ hi

/-! ### Host adapters (R454 to R458) -/

theorem hostReg_inv (h : Nat) (we : Bool) (t : Tlp) {s : State} (hi : Inv s) : Inv (hostReg h we t s) := by
  have hw := regWrite_inv (hostAcc s h t) hi
  have hr : Inv (regRead (hostAcc s h t) s).2.2 := Inv.of_clr (regRead_clr _ rfl rfl ..) hi
  unfold hostReg
  exact branch_inv (branch_inv hw (Inv.of_clr (postedError_clr _ rfl rfl ..) hw))
    (branch_inv (Inv.of_clr (emit_clr _ rfl ..) hr) (Inv.of_clr (cplError_clr _ rfl rfl ..) hr))

theorem hostServe_inv (h : Nat) (we : Bool) (t : Tlp) {s : State} (hi : Inv s) : Inv (hostServe h we t s) := by
  unfold hostServe
  split
  · exact hostReg_inv h we t hi
  · exact Inv.of_clr (hostMsix_clr _ rfl rfl rfl ..) hi
  · exact Inv.of_clr (hostBulk_clr _ rfl rfl rfl rfl ..) hi

theorem hostDrain_inv (h fuel : Nat) {s : State} (hi : Inv s) : Inv (hostDrain h fuel s) := by
  induction fuel generalizing s with
  | zero => exact hi
  | succ n ih =>
    unfold hostDrain
    split
    · exact hi
    · exact branch_inv hi (ih (hostServe_inv _ _ _ (Inv.of_clr (modHost_clr _ rfl ..) hi)))

theorem hostRun_inv (h : Nat) {s : State} (hi : Inv s) : Inv (hostRun h s) := hostDrain_inv h _ hi

theorem inbound_inv (h : Nat) (we : Bool) (t : Tlp) {s : State} (hi : Inv s) : Inv (inbound h we t s) :=
  branch_inv hi (branch_inv (Inv.of_clr ((badTlp_clr _ rfl rfl ..).trans (hostCount_clr _ rfl ..)) hi)
    (hostRun_inv h (Inv.of_clr ((modHost_clr _ rfl ..).trans (hostCount_clr _ rfl ..)) hi)))

theorem hostAnswer_inv (h : Nat) (p : Packet) (code : Nat) (data : List Byte) {s : State} (hi : Inv s) :
    Inv (hostAnswer h p code data s) := by
  unfold hostAnswer
  split
  · exact Inv.of_clr (hostCount_clr _ rfl ..) hi
  · next r rest _ =>
    dsimp only
    generalize hx : modHost h (fun x => { x with sent := rest }) s = x
    have hm : Inv x := hx ▸ Inv.of_clr (modHost_clr _ rfl ..) hi
    refine hostRun_inv h (branch_inv (branch_inv hm (Inv.of_clr (postedError_clr _ rfl rfl ..) hm)) (branch_inv (Inv.of_clr
      (cplError_clr _ rfl rfl ..) hm) ?_))
    exact branch_inv (Inv.of_clr ((hostIssue_clr _ rfl rfl rfl rfl ..).trans (emit_clr _ rfl ..)) hm) (Inv.of_clr
      (emit_clr _ rfl ..) hm)

theorem hostResponse_inv (die h : Nat) (p : Packet) (code : Nat) {s : State} (hi : Inv s) : Inv (hostResponse die h p code s) :=
  hostAnswer_inv h p _ _ (Inv.of_clr (consume_clr _ rfl ..) hi)

theorem readDataAt_inv (die n : Nat) (p : Packet) {s : State} (hi : Inv s) : Inv (readDataAt die n p s) := by
  unfold readDataAt
  split
  · exact hostResponse_inv _ _ _ _ hi
  · exact Inv.of_clr (cipAnswer_marked_clr _ rfl rfl rfl rfl rfl rfl rfl rfl rfl rfl _ _ _ _ _ fun t =>
    (readAnswered_clr _ rfl rfl rfl rfl rfl rfl rfl rfl rfl ..)) hi

theorem writeAckAt_inv (die n : Nat) (p : Packet) {s : State} (hi : Inv s) : Inv (writeAckAt die n p s) := by
  unfold writeAckAt
  split
  · exact hostResponse_inv _ _ _ _ hi
  · exact Inv.of_clr (cipAnswer_clr _ rfl rfl rfl rfl rfl rfl rfl _ _ _ _ _ fun t =>
    (writeAnswered_clr _ rfl rfl rfl rfl rfl ..)) hi

theorem statusAt_inv (die n : Nat) (p : Packet) {s : State} (hi : Inv s) : Inv (statusAt die n p s) := by
  unfold statusAt
  split
  · exact hostResponse_inv _ _ _ _ hi
  · refine branch_inv (Inv.of_clr (engineStatus_clr _ rfl rfl ..) hi) (branch_inv (Inv.of_clr (tileStatus_clr _ rfl ..) hi) ?_)
    exact Inv.of_clr (cipAnswer_clr _ rfl rfl rfl rfl rfl rfl rfl _ _ _ _ _ fun t =>
      (cipStatus_clr _ rfl rfl rfl rfl rfl rfl rfl rfl rfl ..)) hi

/-! ### The service port (R528 to R532) -/

theorem request_inv (src : SvcSrc) (typ : Nat) (f : State → Nat × List Byte × State) {s : State}
    (hf : ∀ t, Inv t → Inv (f t).2.2) (hi : Inv s) : Inv (request_ src typ f s) := by
  unfold request_
  refine branch_inv hi (branch_inv (Inv.of_clr (svcCount_clr _ rfl ..) hi) ?_)
  split
  · exact Inv.of_clr ((emit_clr _ rfl ..).trans (svcCount_clr _ rfl ..)) hi
  · exact Inv.of_clr ((svcAnswer_clr _ rfl rfl rfl ..).trans (svcCount_clr _ rfl ..)) (hf _ hi)

theorem svcWrite_inv (addr : DWord) (value : Word) {s : State} (hi : Inv s) : Inv (svcWrite addr value s).2.2 := by
  unfold svcWrite
  split
  · exact hi
  · exact regWrite_inv _ hi

theorem stageWrite_inv (o : Nat) (data : List Byte) {s : State} (hi : Inv s) : Inv (stageWrite o data s).2.2 := by
  obtain ⟨hram, hrest⟩ := hi
  have hw := stageWrite_wf o data s hram
  have hkeep : ∀ t : State, t.clr (Mask.of [.ram]) = s.clr (Mask.of [.ram]) → Memory.wf t.ram = true → Inv t := by
    intro t h hwf
    have htm : t.tm = s.tm := same_of_clr _ _ _ h .tm (by decide)
    have hkp : t.kp = s.kp := same_of_clr _ _ _ h .kp (by decide)
    have hfw : t.fw = s.fw := same_of_clr _ _ _ h .fw (by decide)
    refine ⟨hwf, ?_⟩
    rw [htm, hkp, hfw]
    exact hrest
  exact hkeep _ (stageWrite_clr _ rfl ..) hw

/-! ### Commands and steps -/

/-- A command whose footprint lies outside what the invariant speaks of. -/
def quiet (c : Instr) : Bool := (footprint c).all fun p => decide (p ∈ quietParts)

theorem quiet_inv (c : Instr) {s : State} (h : quiet c = true) (hi : Inv s) : ∃ t, exec c s = .next t ∧ Inv t := by
  obtain ⟨t, ht, hclr⟩ := exec_clr c s
  have hq : ∀ p ∈ footprint c, p ∈ quietParts := fun p hp => of_decide_eq_true (List.all_eq_true.mp h p hp)
  exact ⟨t, ht, hi.of_data (data_of_changes ((changesOnly_of_clr _ _ _ hclr).mono hq))⟩

/-- Every command keeps the invariant. -/
theorem exec_inv (c : Instr) {s : State} (hi : Inv s) : ∃ t, exec c s = .next t ∧ Inv t := by
  cases c with
  | pressBoundary pins => exact ⟨_, rfl, boundary_inv pins hi⟩
  | foldStart => exact ⟨_, rfl, hi.of_data (foldStart_data s)⟩
  | gateWindowEdge die tile port cls cycle => exact ⟨_, rfl, hi.of_data (gateEdge_data _ _ _ _ _ _)⟩
  | epochCommand die frame before after => exact ⟨_, rfl, epochCommand_inv _ _ _ _ hi⟩
  | epochTargetBoundary die => exact ⟨_, rfl, epochTarget_inv die hi⟩
  | pressLost die => exact ⟨_, rfl, pressLost_inv die hi⟩
  | referenceEdgesResumed die => exact ⟨_, rfl, modUnit_inv die _ (fun _ h => h) hi⟩
  | marker die link st press period lag => exact ⟨_, rfl, markerArrive_inv _ _ _ _ _ _ hi⟩
  | bridgeGroup die bridge module c0 c1 c2 c3 => exact ⟨_, rfl, receive_inv _ _ _ _ hi⟩
  | course port seq fecOk units sym => exact ⟨_, rfl, receive_inv _ _ _ _ hi⟩
  | faultIdle die link => exact ⟨_, rfl, hi.of_data (faultIdle_data _ _ _)⟩
  | pauseEnd => exact ⟨_, rfl, pauseEnd_inv hi⟩
  | registerWrite a | priorityRegisterWrite a => exact ⟨_, rfl, doWrite_inv a hi⟩
  | shadowCommitImmediate m die page | shadowCommitNextBoundary m die page | shadowCommitScheduled m die page
  | shadowCommitCancel m die page => exact ⟨_, rfl, writeOf_inv _ _ _ _ _ hi⟩
  | arbFreezeWrite m die page v | psDataLoWrite m die page v | psLoadCmd m die page v | seamAbortCmd m die page v
  | checkpointCmd m die page v | dbrRetrain m die page v | lnkRetrain m die page v | optRescan m die page v =>
    exact ⟨_, rfl, writeOf_inv _ _ _ _ _ hi⟩
  | planCheck m | planAdopt m | planCancel m | fabricReset m | lp2Enter m | lp3Enter m | lpExit m | fwCheck m | fwProgram m
  | fwActivate m | fwCancel m | fwBind m => exact ⟨_, rfl, writeOf_inv _ _ _ _ _ hi⟩
  | govCeilingWrite m v | errCtrlWrite m v | rollbackWrite m v | areaDataWrite m v | dieReset m v | contextActivate m v
  | contextDeactivate m v | contextResetRequest m v => exact ⟨_, rfl, writeOf_inv _ _ _ _ _ hi⟩
  | tileReset m die part | portReset m die part | lp1ReqWrite m die part => exact ⟨_, rfl, writeOf_inv _ _ _ _ _ hi⟩
  | readData die tile p => exact ⟨_, rfl, readDataAt_inv _ _ _ hi⟩
  | writeAck die tile p => exact ⟨_, rfl, writeAckAt_inv _ _ _ hi⟩
  | status die tile p => exact ⟨_, rfl, statusAt_inv _ _ _ hi⟩
  | mrd h t => exact ⟨_, rfl, inbound_inv _ _ _ hi⟩
  | mwr h t => exact ⟨_, rfl, inbound_inv _ _ _ hi⟩
  | optModuleDetect die g record => exact ⟨_, rfl, hi.of_data (detect_data _ _ _ _)⟩
  | laserHourTick die g => exact ⟨_, rfl, hi.of_data (hourTick_data _ _ _)⟩
  | faultRecordDie die parity => exact ⟨_, rfl, hi.of_data (collect_data _ _ _)⟩
  | faultRecordRoot => exact ⟨_, rfl, hi.of_data (rootRecord_data _)⟩
  | quiesceResetPhase => exact ⟨_, rfl, quiesceDrained_inv hi⟩
  | quiesceLimit => exact ⟨_, rfl, quiesceLimit_inv hi⟩
  | por straps eccLost failed mistied => exact ⟨_, rfl, por_inv _ _ _ _ hi⟩
  | porNLow => exact ⟨_, rfl, hi.of_data (porLow_data s)⟩
  | fabricSupplyLoss => exact ⟨_, rfl, (hi.of_data (porLow_data s)).of_data rfl⟩
  | brownOut => exact ⟨_, rfl, hi.of_data (brownedOut_data s)⟩
  | fmcStart ok0 ok1 => exact ⟨_, rfl, fmcStart_inv _ _ hi⟩
  | regWrite src addr v => exact ⟨_, rfl, request_inv _ _ _ (fun _ h => svcWrite_inv _ _ h) hi⟩
  | stageWrite src o data => exact ⟨_, rfl, request_inv _ _ _ (fun _ h => stageWrite_inv _ _ h) hi⟩
  | sidebandWrite i data => exact ⟨_, rfl, hi.of_data (sideband_data _ _ _)⟩
  | svcCommit => exact ⟨_, rfl, hi.of_data (sideband_data _ _ _)⟩
  | fwCheckDone => exact ⟨_, rfl, fwChecked_inv hi⟩
  | fwProgramDone ok => exact ⟨_, rfl, fwProgrammed_inv ok hi⟩
  | activationLoadDone => exact ⟨_, rfl, actLoaded_inv hi⟩
  | activationLoadTimeout => exact ⟨_, rfl, hi.of_data (actFailed_data s)⟩
  | _ => exact quiet_inv _ rfl hi

/-- Settles O4: a command that waits keeps the invariant, and so does a cycle of the clock. -/
theorem stepKeepsInvariant : Obligations.StepKeepsInvariant := by
  intro s t hi hst
  unfold Steps step at hst
  split at hst
  · next c cs _ =>
    obtain ⟨u, hu, hinv⟩ := exec_inv c (s := { s with pending := cs }) (hi.of_data rfl)
    rw [hu] at hst
    cases hst
    exact hinv
  · cases hst
    exact branch_inv (hi.of_data (tick_data s)) hi

end Sys2Proof.Machine
end

section
/-! SUPPORT. The Press (04): the boundary's count (O6), the fold (O7), epoch commands (O8, O9), the loss of the reference (O11). -/
namespace Sys2Proof.Machine

/-! ### Units that read the same -/

theorem unitOf_of_units {s t : State} (h : t.tm.units = s.tm.units) (die : Nat) : unitOf t die = unitOf s die := by
  unfold unitOf; rw [h]

theorem units_of_data {s t : State} (h : invData t = invData s) : t.tm.units = s.tm.units := congrArg Prod.fst h

theorem running_of_units {s t : State} (h : t.tm.units = s.tm.units) (die : Nat) : running t die = running s die := by
  unfold running; rw [unitOf_of_units h]

theorem refDie_of_units {s t : State} (h : t.tm.units = s.tm.units) : refDie t = refDie s := by
  unfold refDie
  simp only [running_of_units h]

theorem running_iff (s : State) (die : Nat) : running s die = true ↔ (unitOf s die).st = .run := by
  unfold running; exact decide_eq_true_iff

/-! ### The boundary counts (R90) -/

theorem look_map_units (f : PressUnit → PressUnit) (hf : f {} = {}) (m : SMap PressUnit) (k : Nat) :
    look {} (m.map fun e => (e.1, f e.2)) k = f (look {} m k) := by
  induction m with
  | nil => exact hf.symm
  | cons e m ih =>
    simp only [List.map_cons, look]
    split
    · rfl
    · exact ih

theorem unitOf_step1 (s : State) (die : Nat) : unitOf (step1 s) die = stepUnit s.tm.fclk (unitOf s die) :=
  look_map_units (stepUnit s.tm.fclk) rfl s.tm.units die

theorem stepUnit_run (c : Nat) (u : PressUnit) (h : u.st = .run) :
    stepUnit c u = { u with press := u.press + 1, start := u.start + pressCycles u.period } := by
  unfold stepUnit
  rw [h]

/-- A change of the power state leaves the units, but at the entry of LP3, where they lose their number (R510). -/
theorem lpStep_units (s : State) : (lpStep s).rs.lp = .lp3 ∨ (lpStep s).tm.units = s.tm.units := by
  unfold lpStep
  split
  · split
    · exact .inr rfl
    · split
      · exact .inl rfl
      · exact .inr (units_of_data ((data_of_clr (sleepLinks_clr _ rfl ..)).trans rfl))
  · exact .inr (units_of_data ((data_of_clr ((zeroTokens_clr _ rfl ..).trans (wakeLinks_clr _ rfl ..))).trans rfl))
  · exact .inr rfl

theorem markers_same (s : State) : ChangesOnly [.lk, .out] s (markers s) := changesOnly_of_clr _ _ _ (markers_clr _ rfl rfl ..)

theorem takePins_porLow (pins : Pins) (s : State) : (takePins pins s).tm.porLow = s.tm.porLow := by
  unfold takePins
  dsimp only
  rw [forEach_same (fun t => t.tm.porLow)]
  · cases pins.straps <;> rfl
  · exact fun e t => congrArg TimeBase.porLow (same_of_clr [.rg, .hs, .out] _ _ (hostPins_clr _ rfl rfl rfl ..) .tm (by decide))

theorem boundary_of_running (pins : Pins) (s : State) (hpor : s.tm.porLow = false) (hrun : running s (refDie s) = true) :
    boundary pins s = runBoundary (takePins pins s) := by
  have hu := units_of_data (takePins_data pins s)
  unfold boundary
  dsimp only
  rw [takePins_porLow, hpor, refDie_of_units hu, running_of_units hu, hrun]
  rfl

/-- Settles O6: of all a boundary does, only its step 1 changes a unit in RUN, unless the package enters LP3. -/
theorem pressNumberAdvances : Obligations.PressNumberAdvances := by
  intro s pins hpor hrun
  refine ⟨boundary pins s, rfl, fun die hdie => ?_⟩
  obtain ⟨a, b, ha, hb, he⟩ := runBoundary_shape (takePins pins s)
  have hua : unitOf a die = unitOf s die := unitOf_of_units (units_of_data (ha.trans (takePins_data pins s))) die
  have hub : unitOf b die = stepUnit a.tm.fclk (unitOf a die) :=
    (unitOf_of_units (units_of_data hb) die).trans (unitOf_step1 a die)
  rw [hua, stepUnit_run _ _ ((running_iff s die).mp hdie)] at hub
  rw [boundary_of_running pins s hpor hrun, he]
  have hrs : (markers (lpStep b)).rs = (lpStep b).rs := markers_same _ .rs (by decide)
  have htm : (markers (lpStep b)).tm = (lpStep b).tm := markers_same _ .tm (by decide)
  rcases lpStep_units b with h3 | hu
  · exact .inl (hrs ▸ h3)
  · have ht : unitOf (markers (lpStep b)) die = _ := ((unitOf_of_tm htm die).trans (unitOf_of_units hu die)).trans hub
    refine .inr ⟨?_, ?_, ?_, ?_⟩
    · rw [running_iff, ht]; exact (running_iff s die).mp hdie
    · rw [ht]
    · rw [ht]
    · rw [ht]

/-! ### The fold (R89, R108, R109) -/

/-- The lock state is read from registers in effect and from the posted descriptors, which the clock leaves. -/
theorem lockOf_advanceTo (m c : Nat) (s : State) : lockOf m (advanceTo c s) = lockOf m s := by
  have heff := advanceTo_eff c s
  have hci : (advanceTo c s).ci = s.ci := advanceTo_frame c s .ci (by decide)
  unfold lockOf reg64 weightPosted
  rw [rfld_of_eff heff, reg_of_eff heff, reg_of_eff heff, hci]

/-- The state in the fold, before the deltas go out: the clock is at cycle B, the lock state of Press n + 2 is decided, the
  tally is
shown. -/
def inTheFold (s : State) : State :=
  let d := refDie s
  let a := advanceTo ((unitOf s d).start + budgetB s d) s
  showTallies { a with tm := { a.tm with inFold := true, lockAfter := lockOf (pressOf s d + 2) a } }

theorem foldStart_of_running (s : State) (hf : s.tm.inFold = false) (hr : running s (refDie s) = true)
  (hs : lpSleeps s = false) :
    foldStart s = if (inTheFold s).fw.carried then inTheFold s else sendDeltas (pressOf s (refDie s)) (inTheFold s) := by
  unfold foldStart
  dsimp only
  rw [if_neg (by simp [hf, hr, hs])]
  rfl

theorem sendDeltas_same (n : Nat) (s : State) : ChangesOnly [.rg, .pr, .lk, .out] s (sendDeltas n s) :=
  changesOnly_of_clr _ _ _ (sendDeltas_clr _ rfl rfl rfl rfl ..)

/-- What the fold leaves of the time base and of the chains is what the state in the fold has. -/
theorem foldStart_same (s : State) (hf : s.tm.inFold = false) (hr : running s (refDie s) = true) (hs : lpSleeps s = false) :
    (foldStart s).tm = (inTheFold s).tm ∧ (foldStart s).ty = (inTheFold s).ty := by
  rw [foldStart_of_running s hf hr hs]
  split
  · exact ⟨rfl, rfl⟩
  · exact ⟨sendDeltas_same _ _ .tm (by decide), sendDeltas_same _ _ .ty (by decide)⟩

theorem inTheFold_tm (s : State) : (inTheFold s).tm =
    { s.tm with
      fclk := max s.tm.fclk ((unitOf s (refDie s)).start + budgetB s (refDie s)), inFold := true
      lockAfter := lockOf (pressOf s (refDie s) + 2) s } := by
  have h : (inTheFold s).tm = { (advanceTo ((unitOf s (refDie s)).start + budgetB s (refDie s)) s).tm with
      inFold := true
      lockAfter := lockOf (pressOf s (refDie s) + 2) (advanceTo ((unitOf s (refDie s)).start + budgetB s (refDie s)) s) } := rfl
  rw [h, lockOf_advanceTo, advanceTo_tm]

theorem inTheFold_shown (s : State) : ∀ e ∈ (inTheFold s).ty.chains, e.2.shown = none := by
  intro e he
  obtain ⟨x, _, rfl⟩ := List.mem_map.mp he
  rfl

/-- Settles O7: the fold sets the clock to cycle B, decides the lock by LOCK_MODE and shows the tally; sending deltas leaves
  all that. -/
theorem foldDecidesTheLock : Obligations.FoldDecidesTheLock := by
  intro s hf hr hs
  obtain ⟨htm, hty⟩ := foldStart_same s hf hr hs
  refine ⟨foldStart s, rfl, ?_, ?_, ?_, fun h0 => ?_, fun h1 => ?_, fun h2 => ?_, ?_, changesOnly_of_clr _ _ _
    (foldStart_clr _ rfl rfl rfl rfl rfl rfl rfl ..)⟩
  · rw [htm, inTheFold_tm]
  · rw [htm, inTheFold_tm]
  · rw [htm, inTheFold_tm]; exact Nat.le_max_right ..
  · rw [htm, inTheFold_tm]; unfold lockOf; rw [h0]; rfl
  · rw [htm, inTheFold_tm]; unfold lockOf; rw [h1]; rfl
  · rw [htm, inTheFold_tm]; unfold lockOf; rw [h2]; rfl
  · rw [hty]; exact inTheFold_shown s

/-! ### Epoch commands (R91 to R94, R553, R578) -/

theorem epochCommand_of_inService (die : Nat) (frame : List Byte) (after : Bool) (s : State) (hpor : s.tm.porLow = false)
    (hin : notInService s die = false) :
    epochCommand die frame true after s = match parseEpoch frame with
      | some f => if after then epochActs die f s else raisePrs die 3 none 0 s
      | none => raisePrs die 3 none 0 s := by
  unfold epochCommand
  exact if_neg (by simp [hpor, hin])

theorem raisePrs_tm (die b : Nat) (ctx : Option Nat) (detail : Word) (s : State) : (raisePrs die b ctx detail s).tm = s.tm :=
  raisePrs_same die b ctx detail s .tm (by decide)

/-- A command agrees with a unit in RUN: PERIOD_REF, target boundary, START_PRESS (R94). -/
theorem boundaryAgrees_iff (u : PressUnit) (target period : Nat) : boundaryAgrees u target period = true ↔
    period = u.period ∧ u.start < target ∧ (target - u.start) % pressCycles u.period = 0 := by
  unfold boundaryAgrees
  simp only [Bool.and_eq_true, decide_eq_true_eq, and_assoc]

/-- Settles O8: a command that agrees is counted, another raises PRESS_MISMATCH, which leaves the time base. -/
theorem epochCommandInRun : Obligations.EpochCommandInRun := by
  intro s die frame f hpor hin hf hrun
  have hst := (running_iff s die).mp hrun
  dsimp only
  refine ⟨epochCommand die frame true true s, rfl, ?_⟩
  have hacts : epochCommand die frame true true s = epochActs die f s := by
    rw [epochCommand_of_inService die frame true s hpor hin, hf]; rfl
  rw [hacts]
  unfold epochActs
  dsimp only
  rw [hst]
  dsimp only
  simp only [boundaryAgrees_iff, numberAt, and_assoc]
  split
  · next hagree =>
    have hu : unitOf (modUnit die (fun u => { u with epochCount := u.epochCount + 1 }) s) die =
        { unitOf s die with epochCount := (unitOf s die).epochCount + 1 } := by rw [unitOf_modUnit, if_pos rfl]
    rw [hu]
    exact ⟨hst, rfl, rfl, rfl, fun _ => rfl, fun h => absurd hagree h⟩
  · next hdiffer =>
    rw [unitOf_of_tm (raisePrs_tm die 0 none 0 s)]
    exact ⟨hst, rfl, rfl, rfl, fun h => absurd h hdiffer, fun _ => ⟨raisePrs_tm .., raisePrs_status die 0 none 0 s (by decide),
      raisePrs_fault die 0 none 0 s (by decide)⟩⟩

/-- Settles O9: by the die's service, the frame's validity and the neighbours. -/
theorem epochCommandOutsideRun : Obligations.EpochCommandOutsideRun := by
  refine ⟨fun s die frame before after hout => ?_, fun s die frame hpor hin => ⟨fun f hf hst => ?_, fun after hbad => ?_⟩⟩
  · have h : epochCommand die frame before after s = s := if_pos (.inr (.inl hout))
    exact congrArg Host.Outcome.next h
  · have hacts : epochCommand die frame true true s = if runningNeighbour s die then s else
        modUnit die (fun u => { u with
          cmd := some { target := s.tm.fclk + f.delay / 5 * 64, start := f.start, period := f.period, follow := f.follow } }) s
            := by
      rw [epochCommand_of_inService die frame true s hpor hin, hf]
      unfold epochActs
      simp only [hst, if_true]
    refine ⟨epochCommand die frame true true s, rfl, fun hn => ?_, fun hn => ?_⟩
    · rw [hacts, if_pos hn]
    · rw [hacts, if_neg (by simp [hn])]
      refine ⟨changesOnly_of_clr _ _ _ (modUnit_clr _ rfl ..), rfl, ?_, fun d hd => ?_⟩
      · rw [unitOf_modUnit, if_pos rfl]
      · rw [unitOf_modUnit, if_neg hd]
  · have hraise : epochCommand die frame true after s = raisePrs die 3 none 0 s := by
      rw [epochCommand_of_inService die frame after s hpor hin]
      rcases hbad with h | h
      · rw [h]
      · rw [h]; split <;> rfl
    refine ⟨epochCommand die frame true after s, rfl, ?_⟩
    rw [hraise]
    exact ⟨raisePrs_tm .., raisePrs_status die 3 none 0 s (by decide), raisePrs_fault die 3 none 0 s (by decide)⟩

/-! ### The loss of the reference (R95, R579) -/

theorem lossEffects_tm (die : Nat) (s : State) : (lossEffects die s).tm = s.tm :=
  same_of_clr [.rg, .nt, .dr, .se, .ci, .bk, .pg, .ty, .pr, .lk, .ft, .rs, .out] _ _
    (lossEffects_clr _ rfl rfl rfl rfl rfl rfl rfl rfl rfl rfl rfl rfl rfl ..) .tm (by decide)

/-- The unit of a die after a loss: in UNSET, the loss noted. -/
def afterLoss (u : PressUnit) : PressUnit :=
  if u.st = .unset then { u with lost := true } else { lost := true, epochCount := u.epochCount, phases := u.phases }

theorem unitOf_pressLost (die d : Nat) (s : State) (hl : (unitOf s die).lost = false) (hpor : s.tm.porLow = false) :
    unitOf (pressLost die s) d = if d = die then afterLoss (unitOf s die) else unitOf s d := by
  have hr : ∀ x, unitOf (raisePrs die 2 none 0 s) x = unitOf s x := unitOf_of_tm (raisePrs_tm ..)
  unfold pressLost
  dsimp only
  rw [if_neg (by simp [hl, hpor])]
  split
  · next hst => rw [unitOf_modUnit, hr, hr, afterLoss, if_pos hst]
  · next hst => rw [unitOf_of_tm (lossEffects_tm ..), unitOf_modUnit, hr, hr, afterLoss, if_neg hst]

theorem pressLost_again (die : Nat) (s : State) (hl : (unitOf s die).lost = true) : pressLost die s = s := if_pos (.inl hl)

/-- Settles O11: the unit is afterLoss of what it was, and what the loss takes from the die is no unit. -/
theorem lossOfReference : Obligations.LossOfReference := by
  intro s die
  refine ⟨⟨pressLost die s, rfl, pressLost_again die s, fun hl hpor => ?_⟩, rfl⟩
  have hu : unitOf (pressLost die s) die = afterLoss (unitOf s die) := by rw [unitOf_pressLost _ _ _ hl hpor, if_pos rfl]
  have hkeeps : (afterLoss (unitOf s die)).st = .unset ∧ (afterLoss (unitOf s die)).lost = true ∧
      (afterLoss (unitOf s die)).epochCount = (unitOf s die).epochCount ∧ (afterLoss (unitOf s die)).phases =
        (unitOf s die).phases := by
    unfold afterLoss
    split
    · next hst => exact ⟨hst, rfl, rfl, rfl⟩
    · exact ⟨rfl, rfl, rfl, rfl⟩
  obtain ⟨hst, hlost, hcount, hphases⟩ := hkeeps
  rw [hu]
  exact ⟨hst, hlost, hcount, hphases, fun d hd => by rw [unitOf_pressLost _ _ _ hl hpor, if_neg hd],
    changesOnly_of_clr _ _ _ (pressLost_clr _ rfl rfl rfl rfl rfl rfl rfl rfl rfl rfl rfl rfl rfl rfl ..)⟩
end Sys2Proof.Machine
end

section
/-! SUPPORT. Markers (O12), plane lock and gate edges (O13), the state after reset (O3). -/
namespace Sys2Proof.Machine

/-! ### The phase of a link, a marker that disagrees (R96, R98) -/

/-- Setting a phase: the unit notes it, the link has its marker; PHASE_ERR at most marks registers. -/
theorem setPhase_same (die link : Nat) (ph : Int) (s : State) :
    (setPhase die link ph s).tm = (modUnit die (fun u => { u with phases := put 0 u.phases (phaseKey link) ph }) s).tm ∧
      (setPhase die link ph s).lk = (modLink die link (fun l => { l with markerOk := true })
        (modUnit die (fun u => { u with phases := put 0 u.phases (phaseKey link) ph }) s)).lk := by
  generalize hx : modUnit die (fun u => { u with phases := put 0 u.phases (phaseKey link) ph }) s = x
  have hm : (modLink die link (fun l => { l with markerOk := true }) x).tm = x.tm := modLink_same _ _ _ _ .tm (by decide)
  unfold setPhase
  dsimp only
  rw [hx]
  split
  · exact ⟨(raisePrs_tm ..).trans hm, raisePrs_same _ _ _ _ _ .lk (by decide)⟩
  · exact ⟨hm, rfl⟩

theorem unitOf_setPhase (die link d : Nat) (ph : Int) (s : State) : unitOf (setPhase die link ph s) d =
    if d = die then { unitOf s die with phases := put 0 (unitOf s die).phases (phaseKey link) ph } else unitOf s d := by
  rw [unitOf_of_tm (setPhase_same die link ph s).1, unitOf_modUnit]

theorem linkOf_setPhase (die link : Nat) (ph : Int) (s : State) :
    linkOf (setPhase die link ph s) die link = { linkOf s die link with markerOk := true } := by
  rw [linkOf_of_lk (setPhase_same die link ph s).2, linkOf_modLink_same]
  rfl

theorem unitOf_markerMismatch (die link d : Nat) (s : State) : unitOf (markerMismatch die link s) d = unitOf s d :=
  unitOf_of_tm ((raisePrs_tm ..).trans (modLink_same _ _ _ _ .tm (by decide))) d

/-- The port of a marker that disagrees is in HOLD with its cause, and PRESS_MISMATCH is set. -/
theorem markerMismatch_hold (die link : Nat) (s : State) :
    (linkOf (markerMismatch die link s) die link).st = .hold ∧ (linkOf (markerMismatch die link s) die link).cause = 0x18 ∧
      (reg (markerMismatch die link s) die 0 0x104).toNat.testBit 5 = true := by
  have hlk : ∀ b ctx detail t, linkOf (raisePrs die b ctx detail t) die link = linkOf t die link := fun b ctx detail t =>
    linkOf_of_lk (raisePrs_same die b ctx detail t .lk (by decide)) die link
  unfold markerMismatch
  refine ⟨?_, ?_, raisePrs_status die 0 none _ _ (by decide)⟩
  · rw [hlk, linkOf_modLink_same]
  · rw [hlk, linkOf_modLink_same]

/-! ### A number taken from a marker (R97) -/

theorem unitOf_takeRun (die link d : Nat) (phase : Bool) (press period start : Nat) (s : State) :
    unitOf (takeRun die link phase press period start s) d = if d = die then
      { unitOf s die with
        st := .run, press := press, period := period, start := start, followed := true, cmd := none
        took := some (link, s.tm.fclk, phase) }
    else unitOf s d := by
  have hrun : ∀ x, unitOf (enterRun die press period start true s) x = if x = die then
      { unitOf s die with st := .run, press := press, period := period, start := start, followed := true, cmd := none }
      else unitOf s x := fun x => (unitOf_of_tm (judge_tm ..) x).trans (unitOf_modUnit ..)
  unfold takeRun
  rw [unitOf_modUnit, hrun, hrun, if_pos rfl]
  split
  · rfl
  · rfl

theorem markerArrive_of_up (die link press period lag : Nat) (s : State) (hpor : s.tm.porLow = false)
    (hlink : isLink die link = true) (hup : (linkOf s die link).st = .up) :
    markerArrive die link .run press period lag s = markerRuns die link press period lag s := by
  unfold markerArrive
  dsimp only
  rw [if_neg (by simp [hpor, hlink, hup])]

theorem mayFollow_of_module (s : State) (die link : Nat) (h : isMod link = true) : mayFollow s die link = true := by
  simp [mayFollow, h]

/-! ### A marker of a sender in RUN -/

section MarkerInRun
variable (s : State) (die link press period lag : Nat)

/-- At a unit in RUN that has no lower port's number to take, the marker is compared (R96). -/
theorem markerRuns_run (hrun : (unitOf s die).st = .run) (hlow : lowerPort s die link = none) :
    markerRuns die link press period lag s =
      if period = (unitOf s die).period ∧
          shiftPress (unitOf s die).press (nearest (unitOf s die).start (unitOf s die).period
            (remoteBoundary s die link lag)).1 = press then
        setPhase die link (nearest (unitOf s die).start (unitOf s die).period (remoteBoundary s die link lag)).2 s
      else markerMismatch die link s := by
  unfold markerRuns
  dsimp only
  rw [hrun, hlow]

/-- A unit in UNSET takes number and phase of a module's marker (R97). -/
theorem markerRuns_unset (hst : (unitOf s die).st = .unset) (hmod : isMod link = true) (hp : periodOk period = true) :
    markerRuns die link press period lag s = takePhase die link press period (remoteBoundary s die link lag) s := by
  unfold markerRuns
  dsimp only
  rw [hst]
  exact if_pos (by simp [mayFollow_of_module s die link hmod, hp])

/-- A unit in ARMED takes the number of a module's marker with its PERIOD_REF, at its own phase (R97). -/
theorem markerRuns_armed (hst : (unitOf s die).st = .armed) (hmod : isMod link = true) (hp : period = (unitOf s die).period) :
    markerRuns die link press period lag s =
      setPhase die link (nearest (unitOf s die).start (unitOf s die).period (remoteBoundary s die link lag)).2
        (takeRun die link false
          (shiftPress press (-(nearest (unitOf s die).start (unitOf s die).period (remoteBoundary s die link lag)).1)) period
          (unitOf s die).start s) := by
  unfold markerRuns
  dsimp only
  rw [hst]
  dsimp only
  rw [if_neg (not_not_intro hp), if_pos (mayFollow_of_module s die link hmod)]

theorem unitOf_takePhase (b : Int) : unitOf (takePhase die link press period b s) die =
    { unitOf s die with
      st := .run, press := press, period := period, start := (b.toNat + 2) / 5 * 64, followed := true, cmd := none
      took := some (link, s.tm.fclk, true)
      phases := put 0 (unitOf s die).phases (phaseKey link) (b - (((b.toNat + 2) / 5 * 5 : Nat) : Int)) } := by
  unfold takePhase
  dsimp only
  rw [unitOf_setPhase, if_pos rfl, unitOf_takeRun, if_pos rfl, Nat.mul_div_cancel _ (by decide)]

end MarkerInRun

/-- Settles O12: the marker is compared, or gives its number, by the state of the unit; what each does to unit and link is
  known. -/
theorem markersCompareOrGiveTheNumber : Obligations.MarkersCompareOrGiveTheNumber := by
  refine ⟨fun s die link press period lag hpor hlink hup hrun hlow => ?_,
    fun s die link press period lag hpor hlink hmod hup hper => ?_⟩
  · have hruns := (markerArrive_of_up die link press.toNat period lag s hpor hlink hup).trans
      (markerRuns_run s die link press.toNat period lag ((running_iff s die).mp hrun) hlow)
    dsimp only
    refine ⟨markerArrive die link .run press.toNat period lag s, rfl, changesOnly_of_clr _ _ _
      (markerArrive_clr _ rfl rfl rfl rfl ..), fun d hd => ?_,
      fun hsame => ?_, fun hdiff => ?_⟩
    · rw [hruns]
      split
      · rw [unitOf_setPhase, if_neg hd]
      · exact unitOf_markerMismatch ..
    · rw [hruns, if_pos hsame, unitOf_setPhase, if_pos rfl, linkOf_setPhase]
      exact ⟨rfl, rfl, hup⟩
    · rw [hruns, if_neg hdiff]
      exact ⟨unitOf_markerMismatch .., markerMismatch_hold die link s⟩
  · have hruns := markerArrive_of_up die link press.toNat period lag s hpor hlink hup
    dsimp only
    refine ⟨markerArrive die link .run press.toNat period lag s, rfl, fun hst => ?_, fun hst hp => ?_⟩
    · rw [hruns, markerRuns_unset _ _ _ _ _ _ hst hmod hper, unitOf_takePhase]
      exact ⟨rfl, rfl, rfl, rfl, rfl, rfl⟩
    · rw [hruns, markerRuns_armed _ _ _ _ _ _ hst hmod hp, unitOf_setPhase, if_pos rfl, unitOf_takeRun, if_pos rfl]
      exact ⟨rfl, rfl, hp, rfl⟩

/-! ### Plane lock and gate edges (R111, R182, R183) -/

theorem portLockChange_of_empty (die t port : Nat) (s : State) (h : holdsLocked s die t port = false) :
    portLockChange die t port s =
      { s with nt := { s.nt with lockMode := put false s.nt.lockMode (lockKey die t port) s.tm.lockNow } } := by
  unfold portLockChange
  rw [if_neg (by simp [h])]

theorem gateEdge_of_tile (die t n port cls cycle : Nat) (s : State) (ht : logTile s die t = some n)
  (hr : running s die = true) :
    gateEdge die t port cls cycle s =
      if cycle ∈ gateEdges s die t n port cls then advanceTo ((unitOf s die).start + cycle) s else s := by
  unfold gateEdge
  rw [ht]
  simp [hr]

/-- Settles O13: a port's mode by what its buffers hold; the clock by whether the cycle is an edge. -/
theorem lockModesAndGateEdges : Obligations.LockModesAndGateEdges := by
  refine ⟨fun s die t port => ⟨portLockChange die t port s, rfl, changesOnly_of_clr _ _ _
    (portLockChange_clr _ rfl ..), ?_, fun h => ?_,
    fun h => ?_⟩, fun s die t n port cls cycle ht hr => ?_⟩
  · unfold portLockChange
    split <;> rfl
  · exact if_pos h
  · rw [portLockChange_of_empty die t port s h]
    refine ⟨?_, fun d x p hne => ?_⟩
    · exact (look_put ..).trans (if_pos rfl)
    · exact (look_put ..).trans (if_neg hne)
  · have hedge := gateEdge_of_tile die t n port cls cycle s ht hr
    refine ⟨gateEdge die t port cls cycle s, rfl, units_of_data (gateEdge_data ..), changesOnly_of_clr _ _ _
      (gateEdge_clr _ rfl rfl rfl rfl rfl ..),
      fun hc => ?_, fun hc => ?_⟩
    · rw [hedge, if_pos hc, advanceTo_tm]
    · rw [hedge, if_neg hc]

/-! ### The state after reset -/

/-- Settles O3: every store of the state after reset is empty, so that every unit and every register reads its default. -/
theorem resetState : Obligations.ResetState :=
  ⟨⟨reset_ram_wf, nofun, Nat.zero_le _, Nat.zero_le _, Nat.zero_le _, Nat.zero_le _, Nat.zero_le _⟩, fun _ => rfl, rfl, rfl,
    rfl, rfl,
    rfl, rfl, fun _ _ _ _ => rfl⟩
end Sys2Proof.Machine
end

section
/-! SUPPORT. States that differ in their CIPs alone, the records of completion queues, the youngest descriptor of a CIP
and its request (R250, R380 to R382); O45. -/
namespace Sys2Proof.Machine

/-! ### States that differ in their CIPs, counters and outputs -/

/-- A state with other CIPs, counters and outputs. -/
def withCips (ci : Cips) (cs : SMap DWord) (out : List Output) (s : State) : State :=
  { s with ci := ci, rg := { s.rg with counts := cs }, out := out }

/-- A state is another one but for CIPs, counters and outputs. -/
def OnlyCipsDiffer (s t : State) : Prop := ∃ ci cs out, t = withCips ci cs out s

section Differ
variable {s t : State}

theorem OnlyCipsDiffer.refl (s : State) : OnlyCipsDiffer s s := ⟨s.ci, s.rg.counts, s.out, rfl⟩

theorem OnlyCipsDiffer.trans {u : State} (h : OnlyCipsDiffer s t) (h' : OnlyCipsDiffer t u) : OnlyCipsDiffer s u := by
  obtain ⟨ci, cs, out, rfl⟩ := h
  obtain ⟨ci', cs', out', rfl⟩ := h'
  exact ⟨ci', cs', out', rfl⟩

/-- What CIPs, counters and outputs do not enter is the same in both. -/
theorem OnlyCipsDiffer.same {α : Type} (h : OnlyCipsDiffer s t) (g : State → α)
    (hg : ∀ ci cs out, g (withCips ci cs out s) = g s) : g t = g s := by
  obtain ⟨ci, cs, out, rfl⟩ := h
  exact hg ci cs out

theorem OnlyCipsDiffer.modCip (h : OnlyCipsDiffer s t) (die n : Nat) (f : Cip → Cip) : OnlyCipsDiffer s (modCip die n f t) :=
  h.trans ⟨_, t.rg.counts, t.out, rfl⟩

theorem OnlyCipsDiffer.storeBy (h : OnlyCipsDiffer s t) (die : Nat) (a : DWord) (bs : List Byte) :
    OnlyCipsDiffer s (storeBy die a bs t) := by
  unfold Machine.storeBy
  split
  · exact h
  · exact h.trans ⟨t.ci, t.rg.counts, _, rfl⟩

theorem OnlyCipsDiffer.cqRecord (h : OnlyCipsDiffer s t) (die n ctx : Nat) (r : List Byte) :
    OnlyCipsDiffer s (cqRecord die n ctx r t) := by
  have hcount : OnlyCipsDiffer t (cipCount die n 6 t) := ⟨t.ci, _, t.out, rfl⟩
  unfold Machine.cqRecord
  split
  · exact h.trans hcount
  · split
    · exact h.trans hcount
    · exact h.trans (OnlyCipsDiffer.storeBy ⟨_, _, t.out, rfl⟩ _ _ _)

end Differ

/-! ### The record of a post (R250, R380) -/

section Records
variable {s : State} {die n ctx q : Nat}

/-- Two entries of a completion queue are reserved. -/
def reserveTwo (die n q : Nat) (s : State) : State := modQueue die n q (fun y => { y with resv := y.resv + 2 }) s

/-- The first of the two holds a record. -/
def recorded (die n ctx q : Nat) (r : List Byte) (s : State) : State := cqRecord die n ctx r (reserveTwo die n q s)

theorem reserveTwo_onlyCips (s : State) : OnlyCipsDiffer s (reserveTwo die n q s) := (OnlyCipsDiffer.refl s).modCip _ _ _

theorem recorded_onlyCips (r : List Byte) (s : State) : OnlyCipsDiffer s (recorded die n ctx q r s) :=
  (reserveTwo_onlyCips s).cqRecord _ _ _ _

/-- The entry of a record. -/
def recordEntry (s : State) (die n : Nat) (r : List Byte) : QEntry := { word := metaWord s die n 0x7F 0 1 16 0, data := r }

/-- A queue in which a record has taken a reserved entry. -/
def withRecord (e : QEntry) (y : Queue) : Queue :=
  { y with resv := y.resv - 1, tail := y.tail + 1, visible := y.visible ++ [e] }

theorem cqRecord_eq (r : List Byte) (hq : cqOf s die n ctx = some q) (hr : (queueOf s die n q).resv ≠ 0) :
    cqRecord die n ctx r s =
      makeVisible die n q (recordEntry s die n r) (modQueue die n q (fun y => { y with resv := y.resv - 1 }) s) := by
  unfold cqRecord
  rw [hq]
  exact if_neg hr

/-- A record changes nothing of the CIP but its queues. -/
theorem cipOf_cqRecord (r : List Byte) (hq : cqOf s die n ctx = some q) (hr : (queueOf s die n q).resv ≠ 0) :
    ∃ qs, cipOf (cqRecord die n ctx r s) die n = { cipOf s die n with queues := qs } ∧
      look {} qs q = withRecord (recordEntry s die n r) (queueOf s die n q) := by
  rw [cqRecord_eq r hq hr, cipOf_makeVisible, modQueue, cipOf_modCip_same]
  refine ⟨_, rfl, ?_⟩
  simp only [look_upd, if_true]
  rfl

/-- The CIP once a post has its record: one entry is still reserved. -/
theorem cipOf_recorded (r : List Byte) (hq : cqOf s die n ctx = some q) :
    ∃ qs, cipOf (recorded die n ctx q r s) die n = { cipOf s die n with queues := qs } ∧
      look {} qs q = { queueOf s die n q with
        resv := (queueOf s die n q).resv + 1
        tail := (queueOf s die n q).tail + 1
        visible := (queueOf s die n q).visible ++ [recordEntry s die n r] } := by
  have hres : queueOf (reserveTwo die n q s) die n q = _ := queueOf_modQueue die n q _ s
  obtain ⟨qs, hc, hl⟩ := cipOf_cqRecord (s := reserveTwo die n q s) r (q := q) hq (by rw [hres]; exact Nat.succ_ne_zero _)
  refine ⟨qs, ?_, ?_⟩
  · rw [recorded, hc, reserveTwo, modQueue, cipOf_modCip_same]
  · rw [hl, hres]
    rfl

theorem recorded_visible (r : List Byte) (hq : cqOf s die n ctx = some q) :
    (queueOf (recorded die n ctx q r s) die n q).visible = (queueOf s die n q).visible ++ [recordEntry s die n r] := by
  obtain ⟨qs, hc, hl⟩ := cipOf_recorded r hq
  rw [queueOf, hc, hl]

theorem recorded_resv (r : List Byte) (hq : cqOf s die n ctx = some q) :
    (queueOf (recorded die n ctx q r s) die n q).resv = (queueOf s die n q).resv + 1 := by
  obtain ⟨qs, hc, hl⟩ := cipOf_recorded r hq
  rw [queueOf, hc, hl]

theorem recorded_cqOf (r : List Byte) (s : State) : cqOf (recorded die n ctx q r s) die n ctx = cqOf s die n ctx :=
  (recorded_onlyCips r s).same (cqOf · die n ctx) fun _ _ _ => rfl

/-- The entry of a record that never comes returns to the pool (R380). -/
theorem cqRelease_eq (k : Nat) (hq : cqOf s die n ctx = some q) :
    cqRelease die n ctx k s = modQueue die n q (fun y => { y with resv := y.resv - k }) s := by
  unfold cqRelease
  rw [hq]

/-- A refused post keeps none of its two entries. -/
theorem released_resv {t : State} (hq : cqOf t die n ctx = some q)
    (hr : (queueOf t die n q).resv = (queueOf s die n q).resv + 1) :
    (queueOf (cqRelease die n ctx 1 t) die n q).resv = (queueOf s die n q).resv := by
  rw [cqRelease_eq 1 hq, queueOf_modQueue]
  exact (congrArg (· - 1) hr).trans (Nat.add_sub_cancel _ 1)

theorem released_visible {t : State} (hq : cqOf t die n ctx = some q) :
    (queueOf (cqRelease die n ctx 1 t) die n q).visible = (queueOf t die n q).visible := by
  rw [cqRelease_eq 1 hq, queueOf_modQueue]

theorem released_descs (t : State) : (cipOf (cqRelease die n ctx 1 t) die n).descs = (cipOf t die n).descs := by
  unfold cqRelease
  split
  · rfl
  · rw [modQueue, cipOf_modCip_same]

end Records

/-! ### The answer of a stream -/

section Answers
variable (die n st code : Nat) (data : List Byte) (s : State)

theorem endStream_out : (endStream die n st code data s).out.getLast? = some (.cipRsp die n st code data) := by
  simp [endStream, cipRsp, emit]

theorem cipOf_endStream : cipOf (endStream die n st code data s) die n =
    { cipOf s die n with streams := drop (cipOf s die n).streams st } :=
  cipOf_modCip_same die n _

theorem queueOf_endStream (q : Nat) : queueOf (endStream die n st code data s) die n q = queueOf s die n q := by
  unfold queueOf
  rw [cipOf_endStream]

theorem descs_endStream : (cipOf (endStream die n st code data s) die n).descs = (cipOf s die n).descs := by
  rw [cipOf_endStream]

theorem inject_endStream : (endStream die n st code data s).nt.inject = s.nt.inject := rfl

theorem deferOf_endStream (d m c k : Nat) : deferOf (endStream die n st code data s) d m c k = deferOf s d m c k := rfl

theorem mpOf_endStream (d m : Nat) : mpOf (endStream die n st code data s) d m = mpOf s d m := rfl

theorem drnTile_endStream (d m : Nat) : drnTile (endStream die n st code data s) d m = drnTile s d m := rfl

theorem runOf_endStream (d m id : Nat) : runOf (endStream die n st code data s) d m id = runOf s d m id := rfl

theorem countOf_endStream (d page sel : Nat) : countOf (endStream die n st code data s) d page sel = countOf s d page sel := rfl

theorem sentAll_endStream (t : State) (d m port : Nat) (c : TClass) (ps : List Packet) :
    SentAll t (endStream die n st code data s) d m port c ps ↔ SentAll t s d m port c ps := Iff.rfl

end Answers

/-! ### The youngest descriptor of a CIP -/

/-- The last descriptor of a CIP is d, after ds, all of lower number. -/
def Youngest (s : State) (die n : Nat) (ds : List Desc) (d : Desc) : Prop :=
  (cipOf s die n).descs = ds ++ [d] ∧ ∀ x ∈ ds, x.id < d.id

section Youngest
variable {s t : State} {die n : Nat} {ds : List Desc} {d : Desc}

theorem mapIf_last {α : Type} {p : α → Bool} (f : α → α) {xs : List α} {x : α} (hxs : ∀ y ∈ xs, p y = false)
    (hx : p x = true) :
    mapIf p f (xs ++ [x]) = xs ++ [f x] := by
  have hfront : xs.map (fun y => if p y then f y else y) = xs :=
    (List.map_congr_left fun y hy => by rw [hxs y hy]; rfl).trans (List.map_id _)
  rw [mapIf, List.map_append, hfront, List.map_singleton, if_pos hx]

theorem Youngest.ne (h : Youngest s die n ds d) : ∀ x ∈ ds, decide (x.id = d.id) = false :=
  fun x hx => decide_eq_false (Nat.ne_of_lt (h.2 x hx))

theorem Youngest.descAt (h : Youngest s die n ds d) : descAt s die n d.id = some d := by
  have hnone : ds.find? (fun x => decide (x.id = d.id)) = none := List.find?_eq_none.mpr fun x hx => by rw [h.ne x hx]; decide
  rw [Machine.descAt, h.1, List.find?_append, hnone, List.find?_singleton, if_pos (decide_eq_true rfl)]
  rfl

theorem Youngest.modDesc (h : Youngest s die n ds d) (f : Desc → Desc) (hf : (f d).id = d.id) :
    Youngest (modDesc die n d.id f s) die n ds (f d) := by
  refine ⟨?_, fun x hx => by rw [hf]; exact h.2 x hx⟩
  rw [cipOf_modDesc, h.1]
  exact mapIf_last f h.ne (decide_eq_true rfl)

theorem Youngest.takeSeq (h : Youngest s die n ds d) : Youngest (takeSeq die n s).2 die n ds d := by
  refine ⟨?_, h.2⟩
  rw [Machine.takeSeq, cipOf_modCip_same]
  exact h.1

/-- Without it the CIP's descriptors are the older ones. -/
theorem Youngest.filter (h : Youngest s die n ds d) : (cipOf s die n).descs.filter (fun x => x.id ≠ d.id) = ds := by
  have hkeep : ds.filter (fun x => decide (x.id ≠ d.id)) = ds :=
    List.filter_eq_self.mpr fun x hx => decide_eq_true (Nat.ne_of_lt (h.2 x hx))
  rw [h.1, List.filter_append, hkeep, List.filter_singleton, decide_eq_false (not_not.mpr rfl)]
  exact List.append_nil ds

/-! ### Its first request -/

/-- A descriptor that has asked under a number. -/
def asked (q : BitVec 16) (d : Desc) : Desc := { d with sseq := q, again := false }

/-- The state in which a descriptor's request leaves. -/
def requesting (die n id : Nat) (s : State) : State := modDesc die n id (asked (cipOf s die n).reqSeq) (takeSeq die n s).2

theorem requesting_onlyCips (h : OnlyCipsDiffer s t) (id : Nat) : OnlyCipsDiffer s (requesting die n id t) :=
  (h.modCip _ _ _).modCip _ _ _

theorem Youngest.requesting (h : Youngest s die n ds d) :
    Youngest (requesting die n d.id s) die n ds (asked (cipOf s die n).reqSeq d) := h.takeSeq.modDesc _ rfl

theorem Youngest.request (h : Youngest s die n ds d) {p : Packet}
    (hp : phaseReq (Machine.takeSeq die n s).2 die n d (cipOf s die n).reqSeq = some p) :
    request die n d.id s =
      if d.kind = 2 then mcAsk p (Machine.requesting die n d.id s)
      else sendFrom die n 10 p (Machine.requesting die n d.id s) := by
  have hseq : (Machine.takeSeq die n s).1 = (cipOf s die n).reqSeq := rfl
  unfold Machine.request
  rw [h.descAt]
  dsimp only
  rw [hseq, hp]
  rfl

/-- A descriptor of no multicast sends it from its tile. -/
theorem Youngest.request_sent (h : Youngest t die n ds d) (hs : OnlyCipsDiffer s t) (hk : d.kind ≠ 2) {p : Packet}
    (hp : phaseReq (Machine.takeSeq die n t).2 die n d (cipOf t die n).reqSeq = some p) :
    (cipOf (Machine.request die n d.id t) die n).descs = ds ++ [asked (cipOf t die n).reqSeq d] ∧
      SentAll s (Machine.request die n d.id t) die n 10 p.cls [p] := by
  have hu := requesting_onlyCips (die := die) (n := n) hs d.id
  rw [h.request hp, if_neg hk]
  refine ⟨h.requesting.1, (sendFrom_sent die n 10 p s _ ?_ ?_ ?_).all⟩
  · exact hu.same (·.nt.inject) fun _ _ _ => rfl
  · exact hu.same (·.tm.fclk) fun _ _ _ => rfl
  · exact hu.same (·.ft.spare) fun _ _ _ => rfl

/-- A memory port open to a request of a granule. -/
def portTakes (s : State) (p : Packet) : Prop :=
  fenced s (aDie p.dest) (memTile p.dest) = false ∧
    rfld s (aDie p.dest) (mpPage s (aDie p.dest) (memTile p.dest)) 0x100 0 0 = 1 ∧
    inGranule p.dest (countBytes p) = true ∧ aOff44 p.dest + countBytes p ≤ stackBytes

theorem mcAsk_waits {p : Packet} (h : portTakes s p) :
    mcAsk p s = modMp (aDie p.dest) (memTile p.dest) (fun m => { m with waiting := m.waiting ++ [p] }) s := by
  obtain ⟨hf, he, hg, ho⟩ := h
  unfold mcAsk
  dsimp only
  rw [if_neg (by rw [hf]; decide)]
  unfold mpRequest
  dsimp only
  rw [if_neg (by rw [he]; decide), if_neg (by rw [hg]; exact fun hor => hor.elim (by decide) (Nat.not_lt.mpr ho))]

/-- A multicast's waits at the memory port that owns the piece (R382). -/
theorem Youngest.request_asked (h : Youngest t die n ds d) (hs : OnlyCipsDiffer s t) (hk : d.kind = 2) {p : Packet}
    (hp : phaseReq (Machine.takeSeq die n t).2 die n d (cipOf t die n).reqSeq = some p) (ht : portTakes s p) :
    (cipOf (Machine.request die n d.id t) die n).descs = ds ++ [asked (cipOf t die n).reqSeq d] ∧
      (mpOf (Machine.request die n d.id t) (aDie p.dest) (memTile p.dest)).waiting =
        (mpOf s (aDie p.dest) (memTile p.dest)).waiting ++ [p] ∧
      (Machine.request die n d.id t).nt.inject = s.nt.inject := by
  have hu := requesting_onlyCips (die := die) (n := n) hs d.id
  have htake : portTakes (Machine.requesting die n d.id t) p := (hu.same (portTakes · p) fun _ _ _ => rfl).mpr ht
  rw [h.request hp, if_pos hk, mcAsk_waits htake]
  refine ⟨h.requesting.1, ?_, hu.same (·.nt.inject) fun _ _ _ => rfl⟩
  rw [mpOf_modMp, if_pos rfl, hu.same (mpOf · (aDie p.dest) (memTile p.dest)) fun _ _ _ => rfl]

end Youngest
end Sys2Proof.Machine
end

section
/-! SUPPORT. A DMA descriptor's beginning, its admission record and what each answer leaves (R110, R187, R188, R380 to R382); O45. -/
namespace Sys2Proof.Machine

/-! ### A DMA descriptor that begins (R380 to R382) -/

/-- The descriptor of a post. -/
def postedDesc (s : State) (h : CipHdr) (x : List Byte) : Desc :=
  { id := (cipOf s h.die h.tile).nextDesc, bytes := x, kind := dKind x, stream := h.stream, ctx := h.ctx,
    admPress := stampPress s h.die }

/-- The answer to the post of a DMA descriptor: with 32 held, one that would be deferred is refused (R188). -/
def postAdm (s : State) (h : CipHdr) (x : List Byte) : Adm :=
  match descAdm s h.die h.tile h.ctx x with
  | .defer r => if 32 ≤ ((cipOf s h.die h.tile).descs.filter (·.held)).length then Adm.refuse 0x2A else .defer r
  | b => b

/-- A descriptor with its first piece under way, under a number. -/
def readingDesc (q : BitVec 16) (d : Desc) : Desc := { d with phase := .reading, len := pieceLen d, sseq := q }

/-- A descriptor with its record's room asked for, under a number. -/
def reservingDesc (q : BitVec 16) (since : Nat) (d : Desc) : Desc := { d with phase := .reserving, since := since, sseq := q }

section Begins
variable {s t : State} {h : CipHdr} {x : List Byte} {ds : List Desc}

/-- Admitted in the fold, a descriptor waits for the next Press (R110). -/
theorem startDesc_in_fold (hs : OnlyCipsDiffer s t) (hy : Youngest t h.die h.tile ds (postedDesc s h x))
    (hf : s.tm.inFold = true) :
    startDesc h.die h.tile (postedDesc s h x).id t = t := by
  have hpress : pressOf t h.die = pressOf s h.die := hs.same (pressOf · h.die) fun _ _ _ => rfl
  have hearly : pressOf t h.die < (postedDesc s h x).admPress := by
    rw [hpress, postedDesc, stampPress, hf]
    exact Nat.lt_succ_self _
  unfold startDesc
  rw [hy.descAt]
  exact if_pos (by simp [hearly])

/-- The gate of a start is open to a descriptor admitted outside the fold. -/
theorem startDesc_gate (hs : OnlyCipsDiffer s t) (hf : s.tm.inFold = false) :
    ¬ ((postedDesc s h x).held || (postedDesc s h x).phase ≠ .queued ||
      decide (pressOf t h.die < (postedDesc s h x).admPress)) = true := by
  have hpress : pressOf t h.die = pressOf s h.die := hs.same (pressOf · h.die) fun _ _ _ => rfl
  rw [hpress]
  simp [postedDesc, stampPress, hf, b2n]

theorem startDesc_copy (hs : OnlyCipsDiffer s t) (hy : Youngest t h.die h.tile ds (postedDesc s h x))
    (hf : s.tm.inFold = false) (hk : dKind x = 1) :
    startDesc h.die h.tile (postedDesc s h x).id t = readNext h.die h.tile (postedDesc s h x).id t := by
  unfold startDesc
  rw [hy.descAt]
  dsimp only
  rw [if_neg (startDesc_gate hs hf), show (postedDesc s h x).kind = 1 from hk]
  rfl

theorem startDesc_multicast (hs : OnlyCipsDiffer s t) (hy : Youngest t h.die h.tile ds (postedDesc s h x))
    (hf : s.tm.inFold = false) (hk : dKind x = 2) : startDesc h.die h.tile (postedDesc s h x).id t =
      if treeBusy (cipOf t h.die h.tile) (dAux x) || s.tm.lockNow then t
      else readNext h.die h.tile (postedDesc s h x).id t := by
  have hlock : t.tm.lockNow = s.tm.lockNow := hs.same (·.tm.lockNow) fun _ _ _ => rfl
  unfold startDesc
  rw [hy.descAt]
  dsimp only
  rw [if_neg (startDesc_gate hs hf), show (postedDesc s h x).kind = 2 from hk, hlock]
  rfl

theorem startDesc_ringSend (hs : OnlyCipsDiffer s t) (hy : Youngest t h.die h.tile ds (postedDesc s h x))
    (hf : s.tm.inFold = false) (hk : dKind x = 3) :
    startDesc h.die h.tile (postedDesc s h x).id t = request h.die h.tile (postedDesc s h x).id
      (modDesc h.die h.tile (postedDesc s h x).id (fun d => { d with phase := .reserving, since := waitPress t h.die }) t) := by
  unfold startDesc
  rw [hy.descAt]
  dsimp only
  rw [if_neg (startDesc_gate hs hf), show (postedDesc s h x).kind = 3 from hk]
  rfl

theorem startDesc_logPut (hs : OnlyCipsDiffer s t) (hy : Youngest t h.die h.tile ds (postedDesc s h x))
    (hf : s.tm.inFold = false) (hk : dKind x = 4) : startDesc h.die h.tile (postedDesc s h x).id t =
      if logEn s h.ctx then readNext h.die h.tile (postedDesc s h x).id t
      else closeDesc h.die h.tile (postedDesc s h x).id 0x6D t := by
  have hlog : logEn t h.ctx = logEn s h.ctx := hs.same (logEn · h.ctx) fun _ _ _ => rfl
  unfold startDesc
  rw [hy.descAt]
  dsimp only
  rw [if_neg (startDesc_gate hs hf), show (postedDesc s h x).kind = 4 from hk, ← hlog]
  rfl

/-! ### What the beginning descriptor asks for -/

/-- The request for the first piece. -/
def firstPiece (s : State) (h : CipHdr) (x : List Byte) : Packet :=
  bulkReq s h.die h.tile h.ctx 0 (dSrc x) (cipOf s h.die h.tile).reqSeq (pieceLen (postedDesc s h x)) []

/-- The descriptor with its first piece chosen. -/
def pieceChosen (d : Desc) : Desc := { d with phase := .reading, header := false, len := pieceLen d }

theorem asked_pieceChosen (q : BitVec 16) : asked q (pieceChosen (postedDesc s h x)) = readingDesc q (postedDesc s h x) := rfl

theorem add_w64_zero (a : DWord) : a + w64 0 = a := BitVec.add_zero a

theorem phaseReq_reading (hs : OnlyCipsDiffer s t) (q : BitVec 16) (hq : q = (cipOf s h.die h.tile).reqSeq) :
    phaseReq t h.die h.tile (pieceChosen (postedDesc s h x)) q = some (firstPiece s h x) := by
  subst hq
  have hreq : ∀ a, bulkReq t h.die h.tile h.ctx 0 a (cipOf s h.die h.tile).reqSeq (pieceLen (postedDesc s h x)) [] =
      bulkReq s h.die h.tile h.ctx 0 a (cipOf s h.die h.tile).reqSeq (pieceLen (postedDesc s h x)) [] :=
    fun a => hs.same (bulkReq · h.die h.tile h.ctx 0 a _ _ []) fun _ _ _ => rfl
  exact congrArg some ((hreq _).trans (congrArg (fun a => bulkReq s h.die h.tile h.ctx 0 a _ _ []) (add_w64_zero (dSrc x))))

theorem reqSeq_modDesc (f : Desc → Desc) (die n id : Nat) (s : State) :
    (cipOf (modDesc die n id f s) die n).reqSeq = (cipOf s die n).reqSeq := by
  rw [cipOf_modDesc]

/-- The first piece of a COPY or a LOG_PUT leaves the tile. -/
theorem readNext_sent (hs : OnlyCipsDiffer s t) (hy : Youngest t h.die h.tile ds (postedDesc s h x))
    (hq : (cipOf t h.die h.tile).reqSeq = (cipOf s h.die h.tile).reqSeq) (hk : dKind x ≠ 2) :
    let u := readNext h.die h.tile (postedDesc s h x).id t
    (cipOf u h.die h.tile).descs = ds ++ [readingDesc (cipOf s h.die h.tile).reqSeq (postedDesc s h x)] ∧
      SentAll s u h.die h.tile 10 .bulk [firstPiece s h x] := by
  have hc : OnlyCipsDiffer s (modDesc h.die h.tile (postedDesc s h x).id pieceChosen t) := hs.modCip _ _ _
  have hseq : (cipOf (modDesc h.die h.tile (postedDesc s h x).id pieceChosen t) h.die h.tile).reqSeq = _ :=
    (reqSeq_modDesc _ _ _ _ _).trans hq
  rw [← asked_pieceChosen, ← hseq]
  exact (hy.modDesc pieceChosen rfl).request_sent hc hk (phaseReq_reading (hc.modCip _ _ _) _ hseq)

/-- The first piece of a multicast waits at the memory port that owns it. -/
theorem readNext_asked (hs : OnlyCipsDiffer s t) (hy : Youngest t h.die h.tile ds (postedDesc s h x))
    (hq : (cipOf t h.die h.tile).reqSeq = (cipOf s h.die h.tile).reqSeq) (hk : dKind x = 2)
    (ht : portTakes s (firstPiece s h x)) :
    let u := readNext h.die h.tile (postedDesc s h x).id t
    (cipOf u h.die h.tile).descs = ds ++ [readingDesc (cipOf s h.die h.tile).reqSeq (postedDesc s h x)] ∧
      (mpOf u (aDie (dSrc x)) (memTile (dSrc x))).waiting =
        (mpOf s (aDie (dSrc x)) (memTile (dSrc x))).waiting ++ [firstPiece s h x] ∧
      u.nt.inject = s.nt.inject := by
  have hc : OnlyCipsDiffer s (modDesc h.die h.tile (postedDesc s h x).id pieceChosen t) := hs.modCip _ _ _
  have hseq : (cipOf (modDesc h.die h.tile (postedDesc s h x).id pieceChosen t) h.die h.tile).reqSeq = _ :=
    (reqSeq_modDesc _ _ _ _ _).trans hq
  rw [← asked_pieceChosen, ← hseq]
  exact (hy.modDesc pieceChosen rfl).request_asked (p := firstPiece s h x) hc hk (phaseReq_reading (hc.modCip _ _ _) _ hseq) ht

/-- The request for a record's room. -/
def roomRequest (s : State) (h : CipHdr) (x : List Byte) : Packet :=
  ctrlReq s h.die h.tile h.ctx 0x13 (dDst x) (cipOf s h.die h.tile).reqSeq (0x80 + h.stream) (recBytes x)

/-- A RING_SEND asks for the room of its record (R375). -/
theorem startDesc_reserves (hs : OnlyCipsDiffer s t) (hy : Youngest t h.die h.tile ds (postedDesc s h x))
    (hf : s.tm.inFold = false) (hq : (cipOf t h.die h.tile).reqSeq = (cipOf s h.die h.tile).reqSeq) (hk : dKind x = 3) :
    let u := startDesc h.die h.tile (postedDesc s h x).id t
    (cipOf u h.die h.tile).descs = ds ++ [reservingDesc (cipOf s h.die h.tile).reqSeq (waitPress s h.die) (postedDesc s h x)] ∧
      SentAll s u h.die h.tile 10 .ctrl [roomRequest s h x] := by
  have hwait : waitPress t h.die = waitPress s h.die := hs.same (waitPress · h.die) fun _ _ _ => rfl
  intro u
  have hu : u = _ := startDesc_ringSend hs hy hf hk
  rw [hwait] at hu
  have hc : OnlyCipsDiffer s (modDesc h.die h.tile (postedDesc s h x).id
    (fun d => { d with phase := .reserving, since := waitPress s h.die }) t) := hs.modCip _ _ _
  have hseq := (reqSeq_modDesc (fun d => { d with phase := .reserving, since := waitPress s h.die }) h.die h.tile
    (postedDesc s h x).id t).trans hq
  have hreq := (hc.modCip h.die h.tile fun c => { c with reqSeq := c.reqSeq + 1 }).same
    (ctrlReq · h.die h.tile h.ctx 0x13 (dDst x) (cipOf s h.die h.tile).reqSeq (0x80 + h.stream) (recBytes x)) fun _ _ _ => rfl
  have hyr := hy.modDesc (fun d => { d with phase := .reserving, since := waitPress s h.die }) rfl
  obtain ⟨hdescs, hsent⟩ := hyr.request_sent hc
    (fun h2 => absurd (hk.symm.trans h2) (by decide)) (p := roomRequest s h x) (by rw [hseq]; exact congrArg some hreq)
  rw [hseq] at hdescs
  exact ⟨by rw [hu]; exact hdescs, by rw [hu]; exact hsent⟩

/-- A LOG_PUT of a context that does not log ends at once. -/
theorem startDesc_not_logged (hs : OnlyCipsDiffer s t) (hy : Youngest t h.die h.tile ds (postedDesc s h x))
    (hf : s.tm.inFold = false) (hk : dKind x = 4) (hl : logEn s h.ctx = false) :
    let u := startDesc h.die h.tile (postedDesc s h x).id t
    (cipOf u h.die h.tile).descs = ds ∧ u.nt.inject = s.nt.inject := by
  intro u
  have hu : u = _ := (startDesc_logPut hs hy hf hk).trans (if_neg (by rw [hl]; decide))
  rw [closeDesc_some _ _ _ hy.descAt] at hu
  have hdescs : ∀ (r : List Byte) (v : State),
      (cipOf (cqRecord h.die h.tile (postedDesc s h x).ctx r v) h.die h.tile).descs = (cipOf v h.die h.tile).descs := by
    intro r v
    unfold cqRecord
    split
    · rfl
    · split
      · rfl
      · rw [cipOf_makeVisible, modQueue, cipOf_modCip_same]
  rw [hu]
  refine ⟨?_, ((hs.modCip _ _ _).cqRecord _ _ _ _).same (·.nt.inject) fun _ _ _ => rfl⟩
  rw [hdescs, cipOf_modCip_same]
  exact hy.filter

end Begins

/-! ### The post of a DMA descriptor (R187, R188, R380) -/

/-- The state with the admission record of a post, which holds its outcome word. -/
def postRecorded (s : State) (h : CipHdr) (q : Nat) (x : List Byte) (a : Adm) : State :=
  recorded h.die h.tile h.ctx q (record16 (dTag x) 5 0 (admWord a) 0 (pressOf s h.die % 2 ^ 32)) s

/-- A descriptor joins those of its CIP. -/
def addDesc (die n : Nat) (d : Desc) (s : State) : State :=
  modCip die n (fun c => { c with descs := c.descs ++ [d], nextDesc := c.nextDesc + 1 }) s

/-- The state with the admission record and the descriptor. -/
def joined (s : State) (h : CipHdr) (q : Nat) (x : List Byte) (a : Adm) (d : Desc) : State :=
  addDesc h.die h.tile d (postRecorded s h q x a)

/-- What an answer leads to, for the descriptor d. -/
def afterAdm (s : State) (h : CipHdr) (q : Nat) (x : List Byte) (d : Desc) (a : Adm) : State :=
  match a with
  | .accept => startDesc h.die h.tile d.id (joined s h q x a d)
  | .defer r => countDefer h.die h.tile h.ctx r (joined s h q x a { d with held := true })
  | .refuse _ => cqRelease h.die h.tile h.ctx 1 (postRecorded s h q x a)

section Posts
variable {s : State} {h : CipHdr} {x : List Byte} {q : Nat} {a : Adm} {d : Desc}

theorem postRecorded_onlyCips (s : State) (h : CipHdr) (q : Nat) (x : List Byte) (a : Adm) :
    OnlyCipsDiffer s (postRecorded s h q x a) := recorded_onlyCips _ s

theorem joined_onlyCips (d : Desc) : OnlyCipsDiffer s (joined s h q x a d) := (postRecorded_onlyCips s h q x a).modCip _ _ _

/-- The CIP with the record and the descriptor differs in its queues, its descriptors and their count. -/
theorem cipOf_joined (hq : cqOf s h.die h.tile h.ctx = some q) : ∃ qs, cipOf (joined s h q x a d) h.die h.tile =
    { cipOf s h.die h.tile with
      queues := qs
      descs := (cipOf s h.die h.tile).descs ++ [d]
      nextDesc := (cipOf s h.die h.tile).nextDesc + 1 } := by
  obtain ⟨qs, hc, -⟩ := cipOf_recorded (s := s) (record16 (dTag x) 5 0 (admWord a) 0 (pressOf s h.die % 2 ^ 32)) hq
  exact ⟨qs, by rw [joined, addDesc, cipOf_modCip_same, postRecorded, hc]⟩

theorem joined_youngest (hq : cqOf s h.die h.tile h.ctx = some q)
    (hids : ∀ y ∈ (cipOf s h.die h.tile).descs, y.id < (cipOf s h.die h.tile).nextDesc)
    (hd : d.id = (cipOf s h.die h.tile).nextDesc) :
    Youngest (joined s h q x a d) h.die h.tile (cipOf s h.die h.tile).descs d := by
  obtain ⟨qs, hc⟩ := cipOf_joined (x := x) (a := a) (d := d) hq
  exact ⟨by rw [hc], fun y hy => by rw [hd]; exact hids y hy⟩

theorem joined_reqSeq (hq : cqOf s h.die h.tile h.ctx = some q) :
    (cipOf (joined s h q x a d) h.die h.tile).reqSeq = (cipOf s h.die h.tile).reqSeq := by
  obtain ⟨qs, hc⟩ := cipOf_joined (x := x) (a := a) (d := d) hq
  rw [hc]

theorem queueOf_joined (d : Desc) :
    queueOf (joined s h q x a d) h.die h.tile q = queueOf (postRecorded s h q x a) h.die h.tile q := by
  rw [queueOf, joined, addDesc, cipOf_modCip_same]
  rfl

/-- The record changes nothing the descriptor is made from. -/
theorem postedDesc_recorded (hq : cqOf s h.die h.tile h.ctx = some q) :
    postedDesc (postRecorded s h q x a) h x = postedDesc s h x := by
  obtain ⟨qs, hc, -⟩ := cipOf_recorded (s := s) (record16 (dTag x) 5 0 (admWord a) 0 (pressOf s h.die % 2 ^ 32)) hq
  have hstamp : stampPress (postRecorded s h q x a) h.die = stampPress s h.die :=
    (postRecorded_onlyCips s h q x a).same (stampPress · h.die) fun _ _ _ => rfl
  have hnext : (cipOf (postRecorded s h q x a) h.die h.tile).nextDesc = (cipOf s h.die h.tile).nextDesc := by
    rw [postRecorded, hc]
  rw [postedDesc, hstamp, hnext]
  rfl

theorem admitDma_eq (hq : cqOf s h.die h.tile h.ctx = some q) :
    admitDma h.die h.tile h.stream h.ctx x (reserveTwo h.die h.tile q s) =
      endStream h.die h.tile h.stream 0 (leBytes 2 (admWord (postAdm s h x)))
        (afterAdm s h q x (postedDesc s h x) (postAdm s h x)) := by
  have hres : (cipOf (reserveTwo h.die h.tile q s) h.die h.tile).descs = (cipOf s h.die h.tile).descs := by
    rw [reserveTwo, modQueue, cipOf_modCip_same]
  have hadm : descAdm (reserveTwo h.die h.tile q s) h.die h.tile h.ctx x = descAdm s h.die h.tile h.ctx x := rfl
  rw [← postedDesc_recorded (a := postAdm s h x) hq]
  unfold admitDma
  dsimp only
  rw [hres, hadm]
  rfl

/-! ### What each answer leaves -/

theorem postRecorded_visible (hq : cqOf s h.die h.tile h.ctx = some q) (a : Adm) :
    ∃ e : QEntry, e.data = record16 (dTag x) 5 0 (admWord a) 0 (pressOf s h.die % 2 ^ 32) ∧
      (queueOf (postRecorded s h q x a) h.die h.tile q).visible = (queueOf s h.die h.tile q).visible ++ [e] :=
  ⟨_, rfl, recorded_visible _ hq⟩

theorem postRecorded_cqOf (hq : cqOf s h.die h.tile h.ctx = some q) (a : Adm) :
    cqOf (postRecorded s h q x a) h.die h.tile h.ctx = some q := (recorded_cqOf _ s).trans hq

theorem visible_joined_start (d : Desc) (id : Nat) : ∃ es,
    (queueOf (startDesc h.die h.tile id (joined s h q x a d)) h.die h.tile q).visible =
      (queueOf (postRecorded s h q x a) h.die h.tile q).visible ++ es := by
  obtain ⟨es, hes⟩ := (startDesc_goesOn h.die h.tile id (joined s h q x a d)).2 q
  exact ⟨es, by rw [← queueOf_joined d]; exact hes⟩

/-- Whatever the answer, the admission record is the first entry its queue shows anew. -/
theorem afterAdm_record (hq : cqOf s h.die h.tile h.ctx = some q) (a : Adm) (d : Desc) : ∃ e es,
    (queueOf (afterAdm s h q x d a) h.die h.tile q).visible = (queueOf s h.die h.tile q).visible ++ e :: es ∧
      e.data = record16 (dTag x) 5 0 (admWord a) 0 (pressOf s h.die % 2 ^ 32) := by
  obtain ⟨e, hdata, hvis⟩ := postRecorded_visible (x := x) hq a
  have hmore : ∃ es, (queueOf (afterAdm s h q x d a) h.die h.tile q).visible =
      (queueOf (postRecorded s h q x a) h.die h.tile q).visible ++ es := by
    cases a with
    | accept => exact visible_joined_start d d.id
    | defer r => exact ⟨[], by rw [List.append_nil, ← queueOf_joined (d := { d with held := true })]; rfl⟩
    | refuse r => exact ⟨[], by rw [List.append_nil]; exact released_visible (postRecorded_cqOf hq _)⟩
  obtain ⟨es, hes⟩ := hmore
  exact ⟨e, es, by rw [hes, hvis, List.append_assoc]; rfl, hdata⟩

/-- A deferred descriptor is held and counted (R188). -/
theorem afterAdm_defer (hq : cqOf s h.die h.tile h.ctx = some q) (r : Nat) :
    let u := afterAdm s h q x d (.defer r)
    (cipOf u h.die h.tile).descs = (cipOf s h.die h.tile).descs ++ [{ d with held := true }] ∧ u.nt.inject = s.nt.inject ∧
      deferOf u h.die h.tile h.ctx (deferIdx r) = deferOf s h.die h.tile h.ctx (deferIdx r) + 1 := by
  have hs : OnlyCipsDiffer s (joined s h q x (.defer r) { d with held := true }) := joined_onlyCips _
  obtain ⟨qs, hc⟩ := cipOf_joined (x := x) (a := .defer r) (d := { d with held := true }) hq
  refine ⟨congrArg Cip.descs hc, hs.same (·.nt.inject) fun _ _ _ => rfl, ?_⟩
  rw [← hs.same (deferOf · h.die h.tile h.ctx (deferIdx r)) fun _ _ _ => rfl]
  simp [afterAdm, countDefer, deferOf]

/-- A refused one leaves nothing, and gives its second entry back. -/
theorem afterAdm_refuse (hq : cqOf s h.die h.tile h.ctx = some q) (r : Nat) :
    let u := afterAdm s h q x d (.refuse r)
    (cipOf u h.die h.tile).descs = (cipOf s h.die h.tile).descs ∧ u.nt.inject = s.nt.inject ∧
      (queueOf u h.die h.tile q).resv = (queueOf s h.die h.tile q).resv := by
  obtain ⟨qs, hc, -⟩ := cipOf_recorded (s := s) (record16 (dTag x) 5 0 (admWord (.refuse r)) 0 (pressOf s h.die % 2 ^ 32)) hq
  have hnt : (afterAdm s h q x d (.refuse r)).nt = s.nt := by
    rw [afterAdm, cqRelease_eq 1 (postRecorded_cqOf hq _)]
    exact ((postRecorded_onlyCips s h q x _).modCip _ _ _).same (·.nt) fun _ _ _ => rfl
  refine ⟨?_, congrArg Net.inject hnt, released_resv (postRecorded_cqOf hq _) (recorded_resv _ hq)⟩
  rw [afterAdm, released_descs, postRecorded, hc]

/-! ### An accepted descriptor -/

variable (hq : cqOf s h.die h.tile h.ctx = some q)
  (hids : ∀ y ∈ (cipOf s h.die h.tile).descs, y.id < (cipOf s h.die h.tile).nextDesc)
include hq hids

/-- It waits in the CIP where its start changes nothing. -/
theorem accepted_waits (hw : startDesc h.die h.tile (postedDesc s h x).id (joined s h q x .accept (postedDesc s h x)) =
      joined s h q x .accept (postedDesc s h x)) :
    let u := afterAdm s h q x (postedDesc s h x) .accept
    (cipOf u h.die h.tile).descs = (cipOf s h.die h.tile).descs ++ [postedDesc s h x] ∧ u.nt.inject = s.nt.inject := by
  intro u
  have hu : u = _ := hw
  rw [hu]
  exact ⟨(joined_youngest hq hids rfl).1, (joined_onlyCips _).same (·.nt.inject) fun _ _ _ => rfl⟩

theorem accepted_in_fold (hf : s.tm.inFold = true) :
    let u := afterAdm s h q x (postedDesc s h x) .accept
    (cipOf u h.die h.tile).descs = (cipOf s h.die h.tile).descs ++ [postedDesc s h x] ∧ u.nt.inject = s.nt.inject :=
  accepted_waits hq hids (startDesc_in_fold (joined_onlyCips _) (joined_youngest hq hids rfl) hf)

/-- A COPY, and a LOG_PUT of a context that logs, read their first piece. -/
theorem accepted_reads (hf : s.tm.inFold = false) (hk : dKind x = 1 ∨ dKind x = 4 ∧ logEn s h.ctx = true) :
    let u := afterAdm s h q x (postedDesc s h x) .accept
    (cipOf u h.die h.tile).descs =
        (cipOf s h.die h.tile).descs ++ [readingDesc (cipOf s h.die h.tile).reqSeq (postedDesc s h x)] ∧
      SentAll s u h.die h.tile 10 .bulk [firstPiece s h x] := by
  have hs : OnlyCipsDiffer s (joined s h q x .accept (postedDesc s h x)) := joined_onlyCips _
  have hy := joined_youngest (x := x) (a := .accept) (d := postedDesc s h x) hq hids rfl
  intro u
  have hu : u = readNext h.die h.tile (postedDesc s h x).id (joined s h q x .accept (postedDesc s h x)) := by
    obtain hk | ⟨hk, hl⟩ := hk
    · exact startDesc_copy hs hy hf hk
    · exact (startDesc_logPut hs hy hf hk).trans (if_pos hl)
  have hne : dKind x ≠ 2 := by
    obtain hk | ⟨hk, -⟩ := hk <;> rw [hk] <;> decide
  rw [hu]
  exact readNext_sent hs hy (joined_reqSeq hq) hne

/-- Descriptors that wait do not make a tree busy. -/
theorem treeBusy_joined (tree : Nat) : treeBusy (cipOf (joined s h q x a (postedDesc s h x)) h.die h.tile) tree =
    treeBusy (cipOf s h.die h.tile) tree := by
  rw [treeBusy, (joined_youngest hq hids rfl).1, List.any_append]
  simp [treeBusy, postedDesc]

/-- A multicast's first piece is read at the memory port that owns it. -/
theorem accepted_multicast (hf : s.tm.inFold = false) (hk : dKind x = 2)
    (hb : treeBusy (cipOf s h.die h.tile) (dAux x) = false) (hl : s.tm.lockNow = false) (ht : portTakes s (firstPiece s h x)) :
    let u := afterAdm s h q x (postedDesc s h x) .accept
    (cipOf u h.die h.tile).descs =
        (cipOf s h.die h.tile).descs ++ [readingDesc (cipOf s h.die h.tile).reqSeq (postedDesc s h x)] ∧
      (mpOf u (aDie (dSrc x)) (memTile (dSrc x))).waiting =
        (mpOf s (aDie (dSrc x)) (memTile (dSrc x))).waiting ++ [firstPiece s h x] ∧
      u.nt.inject = s.nt.inject := by
  have hs : OnlyCipsDiffer s (joined s h q x .accept (postedDesc s h x)) := joined_onlyCips _
  have hy := joined_youngest (x := x) (a := .accept) (d := postedDesc s h x) hq hids rfl
  intro u
  have hu : u = _ := startDesc_multicast hs hy hf hk
  rw [treeBusy_joined hq hids, hb, hl, if_neg (by decide)] at hu
  rw [hu]
  exact readNext_asked hs hy (joined_reqSeq hq) hk ht

/-- With its tree busy it waits for the multicast before it. -/
theorem accepted_tree_busy (hk : dKind x = 2) (hb : treeBusy (cipOf s h.die h.tile) (dAux x) = true) :
    let u := afterAdm s h q x (postedDesc s h x) .accept
    (cipOf u h.die h.tile).descs = (cipOf s h.die h.tile).descs ++ [postedDesc s h x] ∧ u.nt.inject = s.nt.inject := by
  cases hf : s.tm.inFold with
  | true => exact accepted_in_fold hq hids hf
  | false =>
    refine accepted_waits hq hids ?_
    rw [startDesc_multicast (joined_onlyCips _) (joined_youngest hq hids rfl) hf hk, treeBusy_joined hq hids, hb]
    exact if_pos rfl

theorem accepted_reserves (hf : s.tm.inFold = false) (hk : dKind x = 3) :
    let u := afterAdm s h q x (postedDesc s h x) .accept
    (cipOf u h.die h.tile).descs = (cipOf s h.die h.tile).descs ++
        [reservingDesc (cipOf s h.die h.tile).reqSeq (waitPress s h.die) (postedDesc s h x)] ∧
      SentAll s u h.die h.tile 10 .ctrl [roomRequest s h x] :=
  startDesc_reserves (joined_onlyCips _) (joined_youngest hq hids rfl) hf (joined_reqSeq hq) hk

theorem accepted_not_logged (hf : s.tm.inFold = false) (hk : dKind x = 4) (hl : logEn s h.ctx = false) :
    let u := afterAdm s h q x (postedDesc s h x) .accept
    (cipOf u h.die h.tile).descs = (cipOf s h.die h.tile).descs ∧ u.nt.inject = s.nt.inject :=
  startDesc_not_logged (joined_onlyCips _) (joined_youngest hq hids rfl) hf hk hl

end Posts

/-! ### The first piece of a multicast -/

section FirstPiece
variable {s : State} {h : CipHdr} {x : List Byte}

/-- A good multicast descriptor has bytes to send. -/
theorem dLen_ne_zero (hk : dKind x = 2) (hb : descBad s h.die h.tile h.ctx x = false) : dLen x ≠ 0 := by
  unfold descBad at hb
  rw [hk] at hb
  simp only [Bool.or_eq_false_iff, decide_eq_false_iff_not] at hb
  tauto

/-- Its first piece lies in one granule of its source. -/
theorem pieceLen_bounds (hk : dKind x = 2) (hl : dLen x ≠ 0) :
    1 ≤ pieceLen (postedDesc s h x) ∧ (dSrc x).toNat % 512 + pieceLen (postedDesc s h x) ≤ 512 := by
  have hlen : pieceLen (postedDesc s h x) =
      min (min (dLen x - 0) (512 - ((dSrc x).toNat + 0) % 512)) (512 - pieceDst (postedDesc s h x) % 512) := by
    unfold pieceLen
    rw [show (postedDesc s h x).kind = 2 from hk]
    rfl
  rw [hlen]
  omega

theorem countBytes_firstPiece (hp : pieceLen (postedDesc s h x) ≤ 512) :
    countBytes (firstPiece s h x) = pieceLen (postedDesc s h x) := by
  have hsmall : pieceLen (postedDesc s h x) < 2 ^ 64 := Nat.lt_of_le_of_lt hp (by decide)
  have hnat : (w64 (pieceLen (postedDesc s h x))).toNat = pieceLen (postedDesc s h x) := by
    rw [w64, BitVec.toNat_ofNat, Nat.mod_eq_of_lt hsmall]
  change bits (w64 (pieceLen (postedDesc s h x))).toNat 9 0 = _
  rw [hnat, bits, Nat.shiftRight_zero]
  exact Nat.mod_eq_of_lt (Nat.lt_of_le_of_lt hp (by decide))

theorem firstPiece_taken (hk : dKind x = 2) (hb : descBad s h.die h.tile h.ctx x = false)
    (hf : fenced s (aDie (dSrc x)) (memTile (dSrc x)) = false)
    (he : rfld s (aDie (dSrc x)) (mpPage s (aDie (dSrc x)) (memTile (dSrc x))) 0x100 0 0 = 1)
    (hs : bits (dSrc x).toNat 43 0 + pieceLen (postedDesc s h x) ≤ stackBytes) : portTakes s (firstPiece s h x) := by
  obtain ⟨hlo, hhi⟩ := pieceLen_bounds (s := s) (h := h) hk (dLen_ne_zero hk hb)
  have hcount := countBytes_firstPiece (s := s) (h := h) (x := x) (by omega)
  have hgran : inGranule (dSrc x) (pieceLen (postedDesc s h x)) = true := by
    simp only [inGranule, Bool.and_eq_true, decide_eq_true_eq]
    omega
  refine ⟨hf, he, ?_, ?_⟩
  · rw [hcount]
    exact hgran
  · rw [hcount]
    exact hs

end FirstPiece

/-- Outside the fold a multicast is accepted with its plane unlocked only (R187). -/
theorem accepted_unlocked {s : State} {h : CipHdr} {x : List Byte} (ha : postAdm s h x = .accept) (hk : dKind x = 2)
    (hf : s.tm.inFold = false) : s.tm.lockNow = false := by
  refine Bool.eq_false_iff.mpr fun hl => ?_
  have hlock : (dKind x = 2 && lockAdmit s) = true := by simp [hk, lockAdmit, hf, hl]
  have hno : descAdm s h.die h.tile h.ctx x ≠ .accept := by
    unfold descAdm dmaAdm
    rw [hlock]
    split
    · nofun
    · split <;> nofun
  unfold postAdm at ha
  split at ha
  · split at ha <;> cases ha
  · exact hno ha
end Sys2Proof.Machine
end

section
/-! SUPPORT. The post of a patch run: its admission record and what each answer leaves (R188, R246, R248, R250); O45. -/
namespace Sys2Proof.Machine

/-! ### The post of a patch run (R188, R246, R250) -/

/-- The answer to the post of a patch run: with 32 held, one that would be deferred is refused. -/
def runPostAdm (s : State) (die n : Nat) (r : Run) : Adm :=
  match (runAdm s die n r).1 with
  | .defer k => if 32 ≤ (drnTile s die n).held.length then Adm.refuse 0x2A else .defer k
  | b => b

/-- The state with the admission record of a run, its number taken. -/
def runRecorded (s : State) (die n q : Nat) (r : Run) (a : Adm) : State :=
  modDrn die n (fun t => { t with nextRun := t.nextRun + 1 })
    (recorded die n r.ctx q (record16 r.tag.toNat 1 0 (admWord a) 0 (pressOf s die)) s)

/-- What an answer leads to, for a run of this number, binding and home darner. -/
def afterRunAdm (s : State) (die n q id d : Nat) (b : Bind) (r : Run) (a : Adm) : State :=
  match a with
  | .accept => acceptRun die n id d b (modDrn die n (fun t => { t with runs := ins t.runs id r }) (runRecorded s die n q r a))
  | .defer k => countDefer die n r.ctx k (modDrn die n (fun t => { t with
      runs := ins t.runs id (markPosted (runRecorded s die n q r a) die n r)
      held := t.held ++ [id] }) (runRecorded s die n q r a))
  | .refuse _ => cqRelease die n r.ctx 1 (runRecorded s die n q r a)

section Runs
variable {s : State} {die n q id d : Nat} {b : Bind} {r : Run} {a : Adm}

theorem drnTile_modDrn_same (f : DrnTile → DrnTile) (s : State) : drnTile (modDrn die n f s) die n = f (drnTile s die n) := by
  rw [drnTile_modDrn, if_pos rfl]

theorem drnTile_recorded (r : List Byte) (ctx : Nat) : drnTile (recorded die n ctx q r s) die n = drnTile s die n :=
  (recorded_onlyCips r s).same (drnTile · die n) fun _ _ _ => rfl

theorem drnTile_runRecorded (a : Adm) : drnTile (runRecorded s die n q r a) die n =
    { drnTile s die n with nextRun := (drnTile s die n).nextRun + 1 } := by
  rw [runRecorded, drnTile_modDrn_same, drnTile_recorded]

/-- The record of a run changes nothing that marks it. -/
theorem markPosted_runRecorded (a : Adm) : markPosted (runRecorded s die n q r a) die n r = markPosted s die n r :=
  (show markPosted (runRecorded s die n q r a) die n r = markPosted (recorded die n r.ctx q _ s) die n r from rfl).trans
    ((recorded_onlyCips _ s).same (markPosted · die n r) fun _ _ _ => rfl)

theorem firstRun_eq (die n q : Nat) (r : Run) (s : State) : firstRun die n r (reserveTwo die n q s) =
    (admWord (runPostAdm s die n r), afterRunAdm s die n q (drnTile s die n).nextRun (runAdm s die n r).2.2
      (runAdm s die n r).2.1 r (runPostAdm s die n r)) := by
  have hadm : runAdm (reserveTwo die n q s) die n r = runAdm s die n r := rfl
  have htile : drnTile (reserveTwo die n q s) die n = drnTile s die n := rfl
  unfold firstRun
  dsimp only
  rw [hadm, htile]
  split
  · next ha =>
    rw [show runPostAdm s die n r = .accept from ha, ha]
    rfl
  · next k ha =>
    rw [show runPostAdm s die n r = .defer k from ha, ha]
    rfl
  · next k ha =>
    rw [show runPostAdm s die n r = .refuse k from ha, ha]
    rfl

/-! ### What an accepted run leaves (R246, R248) -/

/-- A run of the tile with this binding, cost and Press. -/
def RunStands (t : State) (die n id : Nat) (b : Bind) (cost press : Nat) : Prop :=
  ∃ r, runOf t die n id = some r ∧ r.bind = b ∧ r.cost = cost ∧ r.press = press

theorem runOf_modDrn (f : DrnTile → DrnTile) (t : State) :
    runOf (modDrn die n f t) die n id = look? (f (drnTile t die n)).runs id := by
  rw [runOf, drnTile_modDrn_same]

/-- A chunk that enters the queue changes only how many of its run have entered. -/
theorem enterChunk_runStands {t : State} {cost press : Nat} (other : Nat) (h : RunStands t die n id b cost press) :
    RunStands (enterChunk die n other t) die n id b cost press := by
  obtain ⟨r, hr, hb, hc, hp⟩ := h
  unfold enterChunk
  dsimp only
  split
  · exact ⟨r, hr, hb, hc, hp⟩
  · next r' hr' =>
    split
    · exact ⟨r, hr, hb, hc, hp⟩
    · unfold RunStands
      rw [runOf_modDrn, lookQ_ins]
      split
      · next hid =>
        subst hid
        cases hr'.symm.trans hr
        exact ⟨_, rfl, hb, hc, hp⟩
      · exact ⟨r, hr, hb, hc, hp⟩

theorem fillQueue_runStands {t : State} {cost press : Nat} (h : RunStands t die n id b cost press) :
    RunStands (fillQueue die n t) die n id b cost press := by
  unfold fillQueue
  refine forEach_keeps (RunStands · die n id b cost press) _ _ _ (fun e u hu => ?_) h
  exact forEach_keeps (RunStands · die n id b cost press) _ _ _ (fun _ _ hv => enterChunk_runStands e.1 hv) hu

theorem countOf_fillQueue (t : State) (page sel : Nat) : countOf (fillQueue die n t) die page sel = countOf t die page sel := by
  unfold countOf
  rw [show (fillQueue die n t).rg = t.rg from same_of_clr [.dr] _ _ (fillQueue_clr _ rfl ..) .rg (by decide)]

/-- The accepted run has its binding, its cost and this Press, and is counted. -/
theorem acceptRun_effect {t : State} (hr : runOf t die n id = some r) :
    RunStands (acceptRun die n id d b t) die n id b (runCost b r.count) (pressOf t die) ∧
      countOf (acceptRun die n id d b t) die (drnPage t die n) 5 = countOf t die (drnPage t die n) 5 + 1 := by
  unfold runOf at hr
  unfold acceptRun
  dsimp only
  rw [hr]
  dsimp only
  refine ⟨fillQueue_runStands ?_, (countOf_fillQueue _ _ _).trans ((countOf_addCount _ _ _ _ _ _ _ _).trans (if_pos rfl))⟩
  change RunStands (modDarner die n d _ (modDrn die n _ t)) die n id b _ _
  unfold RunStands
  rw [modDarner, runOf_modDrn, drnTile_modDrn_same, lookQ_ins, if_pos rfl]
  exact ⟨_, rfl, rfl, rfl, rfl⟩

/-! ### What the post of a run leaves -/

/-- A record is counted at the CIP, among its received entries. -/
theorem countOf_recorded (hq : cqOf s die n r.ctx = some q) (rec_ : List Byte) (page : Nat) :
    countOf (recorded die n r.ctx q rec_ s) die page 5 = countOf s die page 5 := by
  have hres : queueOf (reserveTwo die n q s) die n q = _ := queueOf_modQueue die n q _ s
  have hstore : ∀ (a : DWord) (bs : List Byte) (u : State), countOf (storeBy die a bs u) die page 5 = countOf u die page 5 := by
    intro a bs u
    unfold countOf
    rw [show (storeBy die a bs u).rg = u.rg from same_of_clr [.out] _ _ (storeBy_clr _ rfl ..) .rg (by decide)]
  have hkey : ∀ pg, ckey die page 5 ≠ ckey die pg 1 := by
    intro pg
    unfold ckey
    omega
  rw [recorded, cqRecord_eq (s := reserveTwo die n q s) (q := q) rec_ hq (by rw [hres]; exact Nat.succ_ne_zero _), makeVisible,
    hstore, cipCount, countOf_addCount, if_neg (hkey _)]
  rfl

variable (hq : cqOf s die n r.ctx = some q)
include hq

/-- The admission record of a run is the one new entry of its queue. -/
theorem afterRunAdm_record (a : Adm) : ∃ e : QEntry,
    (queueOf (afterRunAdm s die n q id d b r a) die n q).visible = (queueOf s die n q).visible ++ [e] ∧
      e.data = record16 r.tag.toNat 1 0 (admWord a) 0 (pressOf s die) := by
  refine ⟨_, Eq.trans ?_ (recorded_visible _ hq), rfl⟩
  cases a with
  | accept =>
    have hci : (afterRunAdm s die n q id d b r .accept).ci = (runRecorded s die n q r .accept).ci :=
      same_of_clr [.rg, .dr] _ _ (acceptRun_clr _ rfl rfl ..) .ci (by decide)
    rw [queueOf, cipOf_of_ci die n hci]
    rfl
  | defer k => rfl
  | refuse k => exact released_visible ((recorded_cqOf _ s).trans hq)

theorem afterRunAdm_accept :
    let u := afterRunAdm s die n q id d b r .accept
    RunStands u die n id b (runCost b r.count) (pressOf s die) ∧
      countOf u die (drnPage s die n) 5 = countOf s die (drnPage s die n) 5 + 1 := by
  have hrun : runOf (modDrn die n (fun t => { t with runs := ins t.runs id r }) (runRecorded s die n q r .accept)) die n id =
      some r := by
    rw [runOf_modDrn, lookQ_ins, if_pos rfl]
  obtain ⟨hstands, hcount⟩ := acceptRun_effect (d := d) (b := b) hrun
  have hpress : pressOf (modDrn die n (fun t => { t with runs := ins t.runs id r }) (runRecorded s die n q r .accept)) die =
      pressOf s die := (recorded_onlyCips _ s).same (pressOf · die) fun _ _ _ => rfl
  have hpage : drnPage (modDrn die n (fun t => { t with runs := ins t.runs id r }) (runRecorded s die n q r .accept)) die n =
      drnPage s die n := (recorded_onlyCips _ s).same (drnPage · die n) fun _ _ _ => rfl
  rw [hpress] at hstands
  rw [hpage] at hcount
  exact ⟨hstands, hcount.trans (congrArg (· + 1) (countOf_recorded hq _ _))⟩

omit hq in
/-- A deferred run is held under its number (R188). -/
theorem afterRunAdm_defer (k : Nat) :
    let u := afterRunAdm s die n q id d b r (.defer k)
    runOf u die n id = some (markPosted s die n r) ∧ (drnTile u die n).held = (drnTile s die n).held ++ [id] := by
  intro u
  have htile : drnTile u die n = _ := drnTile_modDrn_same (die := die) (n := n) _ _
  rw [runOf, htile, drnTile_runRecorded, markPosted_runRecorded]
  exact ⟨by rw [lookQ_ins, if_pos rfl], rfl⟩

theorem afterRunAdm_refuse (k : Nat) :
    let u := afterRunAdm s die n q id d b r (.refuse k)
    (drnTile u die n).runs = (drnTile s die n).runs ∧ (queueOf u die n q).resv = (queueOf s die n q).resv := by
  have hcq : cqOf (runRecorded s die n q r (.refuse k)) die n r.ctx = some q := (recorded_cqOf _ s).trans hq
  refine ⟨?_, released_resv hcq (recorded_resv _ hq)⟩
  rw [afterRunAdm, cqRelease_eq 1 hcq]
  have htile := congrArg DrnTile.runs (drnTile_runRecorded (s := s) (die := die) (n := n) (q := q) (r := r) (.refuse k))
  exact htile

end Runs
end Sys2Proof.Machine
end

section
/-! SUPPORT. The six posts: their checks, the wait for entries, seam opens (R316, R379, R380); O45. -/
namespace Sys2Proof.Machine

/-! ### The six posts (R379, R380) -/

/-- The six posts of a descriptor. -/
def postsOf (h : CipHdr) (x : List Byte) : List Instr :=
  [.copy h x, .multicast h x, .ringSend h x, .logPut h x, .patchRunPost h x, .seamOpenPost h x]

section SixPosts
variable {s : State} {h : CipHdr} {x : List Byte} {i : Instr} {q : Nat}

theorem exec_post (hi : i ∈ postsOf h x) : exec i s = .next (settleTile h.die h.tile (cipCmd h i (startPost h x) s)) := by
  simp only [postsOf, List.mem_cons, List.not_mem_nil, or_false] at hi
  obtain rfl | rfl | rfl | rfl | rfl | rfl := hi <;> rfl

theorem cipCmd_go (f : State → State) (hg : cipGate s h = .go) : cipCmd h i f s = f s := by
  unfold cipCmd
  rw [hg]

/-- Past its gate a post does what starting it does. -/
theorem post_settles {P : State → Prop} (hi : i ∈ postsOf h x) (hg : cipGate s h = .go) (hP : P (startPost h x s)) :
    Settles i s h.die h.tile P := ⟨startPost h x s, hP, by rw [exec_post hi, cipCmd_go _ hg]⟩

theorem startPost_bad (hb : descBad s h.die h.tile h.ctx x = true) :
    startPost h x s = emit (.cipRsp h.die h.tile h.stream 0x5C []) s := if_pos hb

theorem startPost_no_queue (hb : descBad s h.die h.tile h.ctx x = false) (hq : cqOf s h.die h.tile h.ctx = none) :
    startPost h x s = emit (.cipRsp h.die h.tile h.stream 0x5D []) s := by
  unfold startPost
  rw [if_neg (by rw [hb]; decide), hq]
  rfl

/-- A queue with room for the records of a post. -/
def postRoom (s : State) (h : CipHdr) (q : Nat) : Prop :=
  (queueOf s h.die h.tile q).waiters = [] ∧ 2 ≤ freePool s h.die h.tile q

theorem startPost_room (hb : descBad s h.die h.tile h.ctx x = false) (hq : cqOf s h.die h.tile h.ctx = some q)
    (hr : postRoom s h q) :
    startPost h x s = admitPost h.die h.tile h.stream h.ctx x (reserveTwo h.die h.tile q s) := by
  unfold startPost
  rw [if_neg (by rw [hb]; decide), hq]
  exact if_pos hr

theorem cipOf_modQueue {die n q : Nat} (f : Queue → Queue) (s : State) : cipOf (modQueue die n q f s) die n =
    { cipOf s die n with queues := upd {} (cipOf s die n).queues q f } := cipOf_modCip_same die n _

/-- A post that waits for room joins the waiters of its queue. -/
def queuedPost (h : CipHdr) (q : Nat) (s : State) : State :=
  modQueue h.die h.tile q (fun y => { y with waiters := y.waiters ++ [.localResv h.stream 2] }) s

theorem startPost_no_room (hb : descBad s h.die h.tile h.ctx x = false) (hq : cqOf s h.die h.tile h.ctx = some q)
    (hr : ¬ postRoom s h q) :
    startPost h x s = waitOn h.die h.tile h.stream h.ctx (.post x) (queuedPost h q s) := by
  unfold startPost
  rw [if_neg (by rw [hb]; decide), hq]
  exact if_neg hr

/-- A stream past its gate has no command. -/
theorem stream_free (hg : cipGate s h = .go) : look? (cipOf s h.die h.tile).streams h.stream = none := by
  by_contra hs
  have hbusy : streamBusy s h.die h.tile h.stream = true := by
    unfold streamBusy
    dsimp only
    rw [Option.isSome_iff_ne_none.mpr hs]
    rfl
  have hignore : cipGate s h = .ignore := if_pos (by rw [hbusy]; simp)
  cases hignore.symm.trans hg

/-- A wait of a free stream, for what is counted as a wait for credits. -/
theorem waitOn_free {die n st ctx : Nat} {w : Wait} {t : State} (hf : look? (cipOf t die n).streams st = none)
    (hw : isCreditWait w = true) : waitOn die n st ctx w t =
      modCip die n (fun c => { c with
        streams := ins c.streams st { ctx := ctx, wait := w, since := waitPress t die, order := c.order }
        order := c.order + 1 }) (cipCount die n 3 t) := by
  unfold waitOn
  rw [hf]
  dsimp only
  rw [if_pos hw]
  rfl

/-- Without two free entries the post waits for them. -/
theorem startPost_waits (hg : cipGate s h = .go) (hb : descBad s h.die h.tile h.ctx x = false)
    (hq : cqOf s h.die h.tile h.ctx = some q) (hr : ¬ postRoom s h q) :
    let u := startPost h x s
    WaitsOn u h (.post x) ∧ u.out = s.out ∧
      (queueOf u h.die h.tile q).waiters = (queueOf s h.die h.tile q).waiters ++ [.localResv h.stream 2] ∧
      (cipOf u h.die h.tile).descs = (cipOf s h.die h.tile).descs := by
  have hcip : cipOf (queuedPost h q s) h.die h.tile = _ := cipOf_modQueue _ _
  have hqueue : queueOf (queuedPost h q s) h.die h.tile q = _ := queueOf_modQueue _ _ _ _ _
  have hfree : look? (cipOf (queuedPost h q s) h.die h.tile).streams h.stream = none := by rw [hcip]; exact stream_free hg
  intro u
  have hu : u = _ := (startPost_no_room hb hq hr).trans (waitOn_free hfree rfl)
  have hcu : cipOf u h.die h.tile = _ := (congrArg (cipOf · h.die h.tile) hu).trans (cipOf_modCip_same _ _ _)
  have hcount : cipOf (cipCount h.die h.tile 3 (queuedPost h q s)) h.die h.tile = cipOf (queuedPost h q s) h.die h.tile := rfl
  rw [hcount] at hcu
  have hstream : look? (cipOf u h.die h.tile).streams h.stream = some _ :=
    (congrArg (fun c => look? (Cip.streams c) h.stream) hcu).trans ((lookQ_ins _ _ _ _).trans (if_pos rfl))
  refine ⟨⟨_, hstream, rfl, rfl⟩, by rw [hu]; rfl, ?_, ?_⟩
  · rw [queueOf, hcu]
    exact congrArg Queue.waiters hqueue
  · rw [hcu, hcip]

/-! ### The admission of each kind -/

theorem admitPost_dma (hk : dKind x < 0x10) (t : State) :
    admitPost h.die h.tile h.stream h.ctx x t = admitDma h.die h.tile h.stream h.ctx x t := by
  unfold admitPost
  split
  · next h16 => omega
  · next h32 => omega
  · rfl

theorem admitPost_run (hk : dKind x = 0x20) (t : State) : admitPost h.die h.tile h.stream h.ctx x t =
    endStream h.die h.tile h.stream 0 (leBytes 2 (firstRun h.die h.tile (runOfDesc h.stream h.ctx x) t).1)
      (firstRun h.die h.tile (runOfDesc h.stream h.ctx x) t).2 := by
  unfold admitPost
  rw [hk]
  rfl

theorem admitPost_open (hk : dKind x = 0x10) (t : State) :
    admitPost h.die h.tile h.stream h.ctx x t = sendOpen h.die h.tile h.stream h.ctx x t := by
  unfold admitPost
  rw [hk]
  rfl

theorem startPost_dma (hb : descBad s h.die h.tile h.ctx x = false) (hq : cqOf s h.die h.tile h.ctx = some q)
    (hr : postRoom s h q) (hk : dKind x < 0x10) : startPost h x s =
      endStream h.die h.tile h.stream 0 (leBytes 2 (admWord (postAdm s h x)))
        (afterAdm s h q x (postedDesc s h x) (postAdm s h x)) := by
  rw [startPost_room hb hq hr, admitPost_dma hk, admitDma_eq hq]

theorem startPost_run (hb : descBad s h.die h.tile h.ctx x = false) (hq : cqOf s h.die h.tile h.ctx = some q)
    (hr : postRoom s h q) (hk : dKind x = 0x20) :
    let r := runOfDesc h.stream h.ctx x
    let ad := runAdm s h.die h.tile r
    startPost h x s =
      endStream h.die h.tile h.stream 0 (leBytes 2 (admWord (runPostAdm s h.die h.tile r)))
        (afterRunAdm s h.die h.tile q (drnTile s h.die h.tile).nextRun ad.2.2 ad.2.1 r (runPostAdm s h.die h.tile r)) := by
  intro r ad
  rw [startPost_room hb hq hr, admitPost_run hk, firstRun_eq]

/-- The request of a seam open to the home engine. -/
def openRequest (s : State) (h : CipHdr) (x : List Byte) : Packet :=
  let g := field x 4 2 % 4096
  { ctrlReq s h.die h.tile h.ctx 0x20 (engAddr (pkgNo s) (homeDie g) (homeEng g) 0)
      (cipOf s h.die h.tile).reqSeq h.stream 0 with
    payload := x, len := 4, why := List.replicate 4 0 }

/-- The open of a seam that has left. -/
def seamOpening (s : State) (h : CipHdr) (x : List Byte) : OpenPost :=
  { sseq := (cipOf s h.die h.tile).reqSeq, stream := h.stream, ctx := h.ctx, desc := x }

/-- The CIP in which a seam open leaves. -/
def opening (s : State) (h : CipHdr) (q : Nat) (x : List Byte) : State :=
  modCip h.die h.tile (fun c => { c with streams := drop c.streams h.stream, opens := c.opens ++ [seamOpening s h x] })
    (takeSeq h.die h.tile (reserveTwo h.die h.tile q s)).2

theorem startPost_open (hb : descBad s h.die h.tile h.ctx x = false) (hq : cqOf s h.die h.tile h.ctx = some q)
    (hr : postRoom s h q) (hk : dKind x = 0x10) :
    startPost h x s = sendFrom h.die h.tile 10 (openRequest s h x) (opening s h q x) := by
  have hseq : (takeSeq h.die h.tile (reserveTwo h.die h.tile q s)).1 = (cipOf s h.die h.tile).reqSeq := by
    rw [takeSeq, reserveTwo, modQueue, cipOf_modCip_same]
  rw [startPost_room hb hq hr, admitPost_open hk]
  unfold sendOpen
  dsimp only
  rw [hseq]
  rfl

/-- A seam open keeps its two entries and leaves for the home engine. -/
theorem startPost_opens (hb : descBad s h.die h.tile h.ctx x = false) (hq : cqOf s h.die h.tile h.ctx = some q)
    (hr : postRoom s h q) (hk : dKind x = 0x10) :
    let u := startPost h x s
    u.out = s.out ∧ (queueOf u h.die h.tile q).resv = (queueOf s h.die h.tile q).resv + 2 ∧
      (cipOf u h.die h.tile).opens = (cipOf s h.die h.tile).opens ++ [seamOpening s h x] ∧
      SentAll s u h.die h.tile 10 .ctrl [openRequest s h x] := by
  have hqueue : queueOf (reserveTwo h.die h.tile q s) h.die h.tile q = _ := queueOf_modQueue _ _ _ _ _
  have hcip : cipOf (opening s h q x) h.die h.tile = _ := cipOf_modCip_same _ _ _
  have htake : cipOf (takeSeq h.die h.tile (reserveTwo h.die h.tile q s)).2 h.die h.tile = _ := cipOf_modCip_same _ _ _
  have hres : cipOf (reserveTwo h.die h.tile q s) h.die h.tile = _ := cipOf_modQueue _ _
  intro u
  have hu : u = _ := startPost_open hb hq hr hk
  have hcu : cipOf u h.die h.tile = cipOf (opening s h q x) h.die h.tile := by rw [hu]; rfl
  have hs : OnlyCipsDiffer s (opening s h q x) := ((reserveTwo_onlyCips s).modCip _ _ _).modCip _ _ _
  have hsent := sendFrom_sent h.die h.tile 10 (openRequest s h x) s (opening s h q x) (hs.same (·.nt.inject) fun _ _ _ => rfl)
    (hs.same (·.tm.fclk) fun _ _ _ => rfl) (hs.same (·.ft.spare) fun _ _ _ => rfl)
  refine ⟨by rw [hu]; rfl, ?_, ?_, by rw [hu]; exact hsent.all⟩
  · rw [queueOf, hcu, hcip, htake]
    exact congrArg Queue.resv hqueue
  · rw [hcu, hcip, htake, hres]

end SixPosts

/-! ### The statement -/

/-- Settles O45: the checks of a post, its wait for entries, and its admission by kind. -/
theorem descriptorsArePostedAndAdmitted : Obligations.DescriptorsArePostedAndAdmitted := by
  intro s h x hg die n c q0 press i hi
  refine ⟨fun hb => post_settles hi hg (startPost_bad hb), fun hb hq => post_settles hi hg (startPost_no_queue hb hq),
    fun q hb hq hids => ?_⟩
  intro y room
  refine ⟨fun hr => post_settles hi hg (startPost_waits hg hb hq hr), fun hr hk => ?_, fun hr hk => ?_, fun hr hk => ?_⟩
  · intro a d0 begins src md mt
    refine post_settles hi hg ?_
    rw [startPost_dma hb hq hr hk]
    refine ⟨endStream_out _ _ _ _ _ _, ?_, fun ha hf => ?_, fun ⟨ha, hf⟩ hk => ?_, fun ⟨ha, hf⟩ hk hb' hfen he hstack => ?_,
      fun ⟨ha, hf⟩ hk hl => ?_, fun ha hk hb' => ?_, fun ⟨ha, hf⟩ hk => ?_, fun r ha => ?_, fun r ha => ?_⟩
    · rw [queueOf_endStream]
      exact afterAdm_record hq _ _
    · rw [descs_endStream, inject_endStream, show postAdm s h x = .accept from ha]
      exact accepted_in_fold hq hids hf
    · rw [descs_endStream, sentAll_endStream, show postAdm s h x = .accept from ha]
      exact accepted_reads hq hids hf hk
    · rw [descs_endStream, mpOf_endStream, inject_endStream, show postAdm s h x = .accept from ha]
      exact accepted_multicast hq hids hf hk hb' (accepted_unlocked ha hk hf) (firstPiece_taken hk hb hfen he hstack)
    · rw [descs_endStream, inject_endStream, show postAdm s h x = .accept from ha]
      exact accepted_not_logged hq hids hf hk hl
    · rw [descs_endStream, inject_endStream, show postAdm s h x = .accept from ha]
      exact accepted_tree_busy hq hids hk hb'
    · rw [descs_endStream, sentAll_endStream, show postAdm s h x = .accept from ha]
      exact accepted_reserves hq hids hf hk
    · rw [descs_endStream, inject_endStream, deferOf_endStream, show postAdm s h x = .defer r from ha]
      exact afterAdm_defer hq r
    · rw [descs_endStream, inject_endStream, queueOf_endStream, show postAdm s h x = .refuse r from ha]
      exact afterAdm_refuse hq r
  · intro r id ad a
    refine post_settles hi hg ?_
    rw [startPost_run hb hq hr hk]
    refine ⟨endStream_out _ _ _ _ _ _, ?_, fun ha => ?_, fun k ha => ?_, fun k ha => ?_⟩
    · rw [queueOf_endStream]
      exact afterRunAdm_record hq _
    · rw [runOf_endStream, countOf_endStream, show runPostAdm s die n r = .accept from ha]
      obtain ⟨⟨r', hrun, hbind, hcost, hpress⟩, hcount⟩ := afterRunAdm_accept (r := r) (id := id) (d := ad.2.2) (b := ad.2.1) hq
      exact ⟨r', hrun, hbind, hcost, hpress, hcount⟩
    · rw [runOf_endStream, drnTile_endStream, show runPostAdm s die n r = .defer k from ha]
      exact afterRunAdm_defer k
    · rw [drnTile_endStream, queueOf_endStream, show runPostAdm s die n r = .refuse k from ha]
      exact afterRunAdm_refuse hq k
  · intro g
    exact post_settles hi hg (startPost_opens hb hq hr hk)
end Sys2Proof.Machine
end

section
/-! SUPPORT. Requests that a memory port and a cluster memory send on (R159, R476, R558): the free tag, who goes, what is counted; O29. -/
namespace Sys2Proof.Machine

/-- A command answers a next state, which differs in its footprint alone. -/
theorem exec_frame (c : Instr) (s : State) : ∃ t, exec c s = .next t ∧ ChangesOnly (footprint c) s t := by
  obtain ⟨t, ht, hclr⟩ := exec_clr c s
  exact ⟨t, ht, changesOnly_of_clr _ _ _ hclr⟩

/-- What two changes in turn leave, both leave. -/
theorem ChangesOnly.trans {ps : List Part} {s t u : State} (h : ChangesOnly ps s t) (h' : ChangesOnly ps t u) : ChangesOnly ps s u := by
  intro p hp
  have ht := h p hp
  have hu := h' p hp
  cases p <;> exact Eq.trans hu ht

/-! ### What a packet's way out of an endpoint is read from -/

/-- In both states a packet sent from a tile joins the same queue at the same cycle. -/
def SendsAlike (s u : State) : Prop := u.nt.inject = s.nt.inject ∧ u.tm.fclk = s.tm.fclk ∧ u.ft.spare = s.ft.spare

theorem SendsAlike.sent {s u : State} (h : SendsAlike s u) (die n port : Nat) (q : Packet) : Sent s (sendFrom die n port q u) die n port q :=
  sendFrom_sent die n port q s u h.1 h.2.1 h.2.2

theorem SendsAlike.answered {s u : State} (h : SendsAlike s u) (die n port opcode : Nat) (operand : DWord) (data : List Byte) (p : Packet) :
    Answered s (reply die n port p opcode operand data u) die n port p opcode operand data :=
  ⟨{ response u die n p opcode operand data with poison := flushing u die n }, h.sent _ _ _ _, rfl, rfl, rfl, rfl, rfl, rfl, rfl, rfl⟩

theorem SendsAlike.refused {s u : State} (h : SendsAlike s u) (die n port code : Nat) (p : Packet) :
    Refused s (replyStatus die n port p code u) die n port p code :=
  ⟨statusRsp u die n p code, h.sent _ _ _ _, rfl, rfl, rfl, rfl, rfl, rfl, rfl, rfl⟩

/-- A counter of a page after a count of the page. -/
theorem countOf_addCount_page (die page sel x n : Nat) (s : State) : countOf (addCount die page sel n s) die page x =
    if x = sel then countOf s die page sel + w64 n else countOf s die page x := by
  simp only [countOf_addCount, ckey, Nat.add_left_cancel_iff]

/-! ### Free tags (log 125) -/

/-- Where fewer tags than k are taken, one below k is free. -/
theorem exists_free_tag (taken : List Nat) (k : Nat) (h : taken.length < k) : ∃ t ∈ List.range k, t ∉ taken := by
  by_contra hno
  have hsub : List.range k ⊆ taken := fun t ht => by_contra fun hn => hno ⟨t, ht, hn⟩
  have hlen := (List.subperm_of_subset List.nodup_range hsub).length_le
  rw [List.length_range] at hlen
  omega

/-- The search for a free tag finds one. -/
theorem find_free_tag (taken : List Nat) (k : Nat) (free : Nat → Bool) (hfree : ∀ t, free t = true ↔ t ∉ taken) (h : taken.length < k) :
    ((List.range k).find? free).getD 0 < k ∧ ((List.range k).find? free).getD 0 ∉ taken := by
  obtain ⟨t, ht, hno⟩ := exists_free_tag taken k h
  cases hf : (List.range k).find? free with
  | none => exact absurd ((hfree t).mpr hno) (List.find?_eq_none.mp hf t ht)
  | some x => exact ⟨List.mem_range.mp (List.mem_of_find?_eq_some hf), (hfree x).mp (List.find?_some hf)⟩

theorem freeTag_free (m : MemPort) (h : m.out.length < 512) : freeTag m < 512 ∧ ∀ r ∈ m.out, r.tag ≠ freeTag m := by
  obtain ⟨hlt, hno⟩ := find_free_tag (m.out.map (·.tag)) 512 (fun t => m.out.all fun r => r.tag ≠ t) (fun t => by simp) (by simpa using h)
  exact ⟨hlt, fun r hr he => hno (List.mem_map.mpr ⟨r, hr, he⟩)⟩

theorem freeCmTag_free (c : Cip) (h : c.cmOut.length < 1024) : freeCmTag c < 1024 ∧ ∀ r ∈ c.cmOut, r.tag ≠ freeCmTag c := by
  obtain ⟨hlt, hno⟩ := find_free_tag (c.cmOut.map (·.tag)) 1024 (fun t => c.cmOut.all fun r => r.tag ≠ t) (fun t => by simp) (by simpa using h)
  exact ⟨hlt, fun r hr he => hno (List.mem_map.mpr ⟨r, hr, he⟩)⟩

/-! ### A memory port (R159, R476) -/

section
variable {s : State} {die n : Nat} {p : Packet} {ps : List Packet}

/-- A port takes no request more: as many as MP_OUTSTANDING are out. -/
def portFull (s : State) (die n : Nat) : Bool := decide ((mpOf s die n).out.length ≥ min 512 (rfld s die (mpPage s die n) 0x108 9 0))

/-- The port once the oldest request is out. -/
def portIssues (s : State) (die n : Nat) (p : Packet) (ps : List Packet) (m : MemPort) : MemPort :=
  { m with waiting := ps
           out := m.out ++ [{ tag := freeTag (mpOf s die n), pkt := p, offset := aOff44 p.dest, since := s.tm.fclk }] }

/-- The requests and the bytes of a port are counted, those of writes apart. -/
def portCounts (die n : Nat) (p : Packet) (s : State) : State :=
  addCount die (mpPage s die n) (b2n (decide (p.opcode = 1))) 1
    (addCount die (mpPage s die n) (2 + b2n (decide (p.opcode = 1))) (countBytes p) s)

theorem mpIssue_idle (h : (mpOf s die n).waiting = []) : mpIssue die n s = s := by
  unfold mpIssue
  dsimp only
  rw [h]

/-- A port with ENABLE 0 answers everything that waits. -/
theorem mpIssue_disabled (h : (mpOf s die n).waiting ≠ []) (he : rfld s die (mpPage s die n) 0x100 0 0 = 0) :
    mpIssue die n s = forEach (mpOf s die n).waiting (fun p s => replyStatus die n 10 p 0x10 s)
      (modMp die n (fun m => { m with waiting := [] }) s) := by
  obtain ⟨p, ps, hw⟩ := List.exists_cons_of_ne_nil h
  unfold mpIssue
  dsimp only
  rw [hw]
  dsimp only
  rw [if_pos he, mpRefuse, if_neg (not_not.mpr he)]
  dsimp only
  rw [hw]

theorem mpIssue_enabled (hw : (mpOf s die n).waiting = p :: ps) (he : rfld s die (mpPage s die n) 0x100 0 0 = 1) :
    mpIssue die n s =
      if portFull s die n || (isSafe s die && decide (p.opcode = 1)) then s
      else emit (.mpReq die n (freeTag (mpOf s die n)) (aOff44 p.dest) (decide (p.opcode = 1))
          (if decide (p.opcode = 1) then p.payload.take (countBytes p) else []))
        (portCounts die n p (modMp die n (portIssues s die n p ps) s)) := by
  unfold mpIssue
  dsimp only
  rw [hw]
  dsimp only
  rw [if_neg (by rw [he]; decide)]
  rfl

theorem mpIssue_held (hw : (mpOf s die n).waiting = p :: ps) (he : rfld s die (mpPage s die n) 0x100 0 0 = 1)
    (h : portFull s die n = true ∨ p.opcode = 1 ∧ isSafe s die = true) : mpIssue die n s = s := by
  rw [mpIssue_enabled hw he]
  refine if_pos ?_
  obtain hf | ⟨ho, hs⟩ := h
  · rw [hf, Bool.true_or]
  · rw [hs, decide_eq_true ho, Bool.and_true, Bool.or_true]

theorem mpIssue_goes (hw : (mpOf s die n).waiting = p :: ps) (he : rfld s die (mpPage s die n) 0x100 0 0 = 1)
    (hf : portFull s die n = false) (h : p.opcode ≠ 1 ∨ isSafe s die = false) : mpIssue die n s =
      emit (.mpReq die n (freeTag (mpOf s die n)) (aOff44 p.dest) (decide (p.opcode = 1))
          (if decide (p.opcode = 1) then p.payload.take (countBytes p) else []))
        (portCounts die n p (modMp die n (portIssues s die n p ps) s)) := by
  rw [mpIssue_enabled hw he]
  refine if_neg ?_
  rw [hf, Bool.false_or]
  obtain ho | hs := h
  · rw [decide_eq_false ho, Bool.and_false]
    decide
  · rw [hs, Bool.false_and]
    decide

theorem portCounts_requests (die n : Nat) (p : Packet) (s : State) :
    countOf (portCounts die n p s) die (mpPage s die n) (b2n (decide (p.opcode = 1))) =
      countOf s die (mpPage s die n) (b2n (decide (p.opcode = 1))) + 1 := by
  rw [portCounts, countOf_addCount_page, if_pos rfl, countOf_addCount_page, if_neg (by omega)]
  rfl

theorem portCounts_bytes (die n : Nat) (p : Packet) (s : State) :
    countOf (portCounts die n p s) die (mpPage s die n) (2 + b2n (decide (p.opcode = 1))) =
      countOf s die (mpPage s die n) (2 + b2n (decide (p.opcode = 1))) + w64 (countBytes p) := by
  rw [portCounts, countOf_addCount_page, if_neg (by omega), countOf_addCount_page, if_pos rfl]

/-- What MP_REQUEST_ISSUE leaves at a port with ENABLE 0. -/
theorem mpIssue_refuses (h : (mpOf s die n).waiting ≠ []) (he : rfld s die (mpPage s die n) 0x100 0 0 = 0) :
    let t := mpIssue die n s
    ChangesOnly [.nt, .mp] s t ∧ t.mp = upd {} s.mp (tk die n) (fun m => { m with waiting := [] }) ∧
      ∀ p, (mpOf s die n).waiting = [p] → Refused s t die n 10 p 0x10 := by
  intro t
  have ht : t = _ := mpIssue_disabled h he
  refine ⟨?_, ?_, fun p hp => ?_⟩
  · rw [ht]
    exact changesOnly_of_clr _ _ _ ((forEach_clr _ _ _ _ fun p u => replyStatus_clr _ rfl die n 10 p 0x10 u).trans (modMp_clr _ rfl _ _ _ _))
  · rw [ht]
    exact forEach_same (fun u => u.mp) _ (fun p u => replyStatus die n 10 p 0x10 u) _ fun _ _ => rfl
  · rw [ht, hp, forEach_one]
    exact SendsAlike.refused ⟨rfl, rfl, rfl⟩ die n 10 0x10 p

/-- The request that MP_REQUEST_ISSUE sends on. -/
theorem mpIssue_sends (hw : (mpOf s die n).waiting = p :: ps) (he : rfld s die (mpPage s die n) 0x100 0 0 = 1)
    (hf : portFull s die n = false) (h : p.opcode ≠ 1 ∨ isSafe s die = false) :
    let t := mpIssue die n s
    let page := mpPage s die n
    ∃ tag, tag < 512 ∧ (∀ r ∈ (mpOf s die n).out, r.tag ≠ tag) ∧ t.nt = s.nt ∧
      t.mp = upd {} s.mp (tk die n) (fun m =>
        { m with waiting := ps, out := (mpOf s die n).out ++ [{ tag := tag, pkt := p, offset := aOff44 p.dest, since := s.tm.fclk }] }) ∧
      t.out = s.out ++ [.mpReq die n tag (aOff44 p.dest) (decide (p.opcode = 1))
        (if p.opcode = 1 then p.payload.take (countBytes p) else [])] ∧
      countOf t die page (if p.opcode = 1 then 1 else 0) = countOf s die page (if p.opcode = 1 then 1 else 0) + 1 ∧
      countOf t die page (if p.opcode = 1 then 3 else 2) = countOf s die page (if p.opcode = 1 then 3 else 2) + w64 (countBytes p) := by
  intro t page
  have ht : t = _ := mpIssue_goes hw he hf h
  have hlen : (mpOf s die n).out.length < 512 := by
    have hout := of_decide_eq_false hf
    omega
  obtain ⟨hlt, hfree⟩ := freeTag_free _ hlen
  have hreq := portCounts_requests die n p (modMp die n (portIssues s die n p ps) s)
  have hbytes := portCounts_bytes die n p (modMp die n (portIssues s die n p ps) s)
  refine ⟨freeTag (mpOf s die n), hlt, hfree, ?_, ?_, ?_, ?_, ?_⟩
  · rw [ht]
    rfl
  · rw [ht]
    rfl
  · rw [ht]
    simp only [decide_eq_true_eq]
    rfl
  · have hsel : (if p.opcode = 1 then 1 else 0) = b2n (decide (p.opcode = 1)) := by simp [b2n]
    rw [ht, hsel]
    exact hreq
  · have hsel : (if p.opcode = 1 then 3 else 2) = 2 + b2n (decide (p.opcode = 1)) := by
      by_cases ho : p.opcode = 1
      · rw [if_pos ho, decide_eq_true ho]
        rfl
      · rw [if_neg ho, decide_eq_false ho]
        rfl
    rw [ht, hsel]
    exact hbytes

end

/-! ### A cluster memory (R476, R558) -/

section
variable {s : State} {die n : Nat} {r : CmReq} {rs : List CmReq}

/-- The CIP once the oldest request of its cluster memory is out. -/
def clusterIssues (tag : Nat) (r : CmReq) (rs : List CmReq) (c : Cip) : Cip :=
  { c with cmWaiting := rs, cmOut := c.cmOut ++ [{ r with tag := tag }] }

theorem cmIssue_idle (h : (cipOf s die n).cmWaiting = []) : cmIssue die n s = s := by
  unfold cmIssue
  dsimp only
  rw [h]

theorem cmIssue_waiting (hw : (cipOf s die n).cmWaiting = r :: rs) : cmIssue die n s =
    if (decide ((cipOf s die n).cmOut.length ≥ 1024) || (isSafe s die && r.we)) = true then s
    else emit (.cmReq die n (freeCmTag (cipOf s die n)) r.addr r.we r.data)
      (modCip die n (clusterIssues (freeCmTag (cipOf s die n)) r rs) s) := by
  unfold cmIssue
  dsimp only
  rw [hw]
  rfl

theorem cmIssue_held (hw : (cipOf s die n).cmWaiting = r :: rs)
    (h : 1024 ≤ (cipOf s die n).cmOut.length ∨ r.we = true ∧ isSafe s die = true) : cmIssue die n s = s := by
  rw [cmIssue_waiting hw]
  refine if_pos ?_
  obtain hf | ⟨ho, hs⟩ := h
  · rw [decide_eq_true hf, Bool.true_or]
  · rw [hs, ho, Bool.and_true, Bool.or_true]

theorem cmIssue_goes (hw : (cipOf s die n).cmWaiting = r :: rs) (hf : (cipOf s die n).cmOut.length < 1024)
    (h : r.we = false ∨ isSafe s die = false) : cmIssue die n s =
      emit (.cmReq die n (freeCmTag (cipOf s die n)) r.addr r.we r.data)
        (modCip die n (clusterIssues (freeCmTag (cipOf s die n)) r rs) s) := by
  rw [cmIssue_waiting hw]
  refine if_neg ?_
  rw [decide_eq_false (Nat.not_le.mpr hf), Bool.false_or]
  obtain ho | hs := h
  · rw [ho, Bool.and_false]
    decide
  · rw [hs, Bool.false_and]
    decide

end

/-! ### The statement -/

/-- Settles O29: of the requests that wait the oldest goes, below the limit and under a free tag. -/
theorem memoryRequestsGoOutInOrder : Obligations.MemoryRequestsGoOutInOrder := by
  intro s die n
  refine ⟨?_, ?_⟩
  · intro m page on full
    refine ⟨mpIssue die n s, rfl, changesOnly_of_clr _ _ _ (mpIssue_clr _ rfl rfl rfl rfl _ _ _), mpIssue_idle,
      fun he hw => mpIssue_refuses hw he, fun p ps hw hon => ⟨fun h => mpIssue_held hw hon (h.imp_left decide_eq_true), fun hf hsafe => ?_⟩⟩
    obtain ⟨tag, hlt, hfree, hrest⟩ := mpIssue_sends hw hon (decide_eq_false hf) hsafe
    exact ⟨tag, hlt, hfree, hrest⟩
  · intro c
    refine ⟨cmIssue die n s, rfl, changesOnly_of_clr _ _ _ (cmIssue_clr _ rfl rfl _ _ _), cmIssue_idle,
      fun r rs hw => ⟨cmIssue_held hw, fun hf hsafe => ?_⟩⟩
    obtain ⟨hlt, hfree⟩ := freeCmTag_free _ hf
    rw [cmIssue_goes hw hf hsafe]
    exact ⟨freeCmTag c, hlt, hfree, cipOf_modCip_same die n _, fun k hk => (look_upd _ _ _ _ _).trans (if_neg hk), rfl⟩

end Sys2Proof.Machine
end

section
/-! SUPPORT. What a memory's response leaves (R118, R159, R160, R558): the answer, the poisoned data, MP_RSP_ERR and MP_STALL; O30. -/
namespace Sys2Proof.Machine

/-! ### Faults of a page -/

/-- Raising a fault records it; where the spares stand does not change. -/
theorem raise_spare (die page b : Nat) (ctx : Option Nat) (detail : Word) (s : State) :
    (raise die page b ctx detail s).ft.spare = s.ft.spare := by
  unfold raise
  dsimp only
  split <;> exact doIf_same (fun t => t.ft.spare) _ _ _ fun _ => rfl

theorem raise_nt (die page b : Nat) (ctx : Option Nat) (detail : Word) (s : State) : (raise die page b ctx detail s).nt = s.nt :=
  raise_same die page b ctx detail s .nt (by decide)

theorem raise_tm (die page b : Nat) (ctx : Option Nat) (detail : Word) (s : State) : (raise die page b ctx detail s).tm = s.tm :=
  raise_same die page b ctx detail s .tm (by decide)

/-- Raising counts at the collector of the die alone. -/
theorem raise_counts (die page b : Nat) (ctx : Option Nat) (detail : Word) (s : State) (k : Nat) (h1 : k ≠ ckey die 1 1) (h2 : k ≠ ckey die 1 2) :
    look 0 (raise die page b ctx detail s).rg.counts k = look 0 s.rg.counts k := by
  have hcount : ∀ sel u, k ≠ ckey die 1 sel → look 0 (addCount die 1 sel 1 u).rg.counts k = look 0 u.rg.counts k := fun sel u hk =>
    (look_upd 0 u.rg.counts (ckey die 1 sel) k (· + w64 1)).trans (if_neg hk)
  have hmasked : ∀ c u, look 0 (doIf c (addCount die 1 2 1) u).rg.counts k = look 0 u.rg.counts k := fun c u =>
    doIf_same (fun t => look 0 t.rg.counts k) _ _ _ fun t => hcount 2 t h2
  unfold raise
  dsimp only
  split
  · exact (hmasked _ _).trans rfl
  · exact (hcount 1 _ h1).trans ((hmasked _ _).trans rfl)

/-- The counters of a unit's page, which is not the collector's, stay. -/
theorem countOf_raise (die page b sel : Nat) (ctx : Option Nat) (detail : Word) (s : State) (hp : page ≠ 1) (hs : sel < 4096) :
    countOf (raise die page b ctx detail s) die page sel = countOf s die page sel := by
  have hne : ∀ x, x < 4096 → ckey die page sel ≠ ckey die 1 x := fun x hx => by
    unfold ckey pk
    omega
  exact raise_counts die page b ctx detail s _ (hne 1 (by decide)) (hne 2 (by decide))

/-! ### The answer to a READ -/

/-- RD_DATA for a READ; after an error each flit is marked as poisoned (R135, R160). -/
def readAnswer (s : State) (die n : Nat) (q : Packet) (data : List Byte) (err : Bool) : Packet :=
  let p := response s die n q 0x80 (w64 (countBytes q)) (padTo (countBytes q) data)
  { (if err then { p with why := p.why.map fun _ => 1 } else p) with poison := flushing s die n }

theorem readAnswer_fields (s : State) (die n : Nat) (q : Packet) (data : List Byte) (err : Bool) :
    let a := readAnswer s die n q data err
    a.dest = srcAddr q ∧ a.cls = q.cls ∧ a.ctx = q.ctx ∧ a.sseq = q.sseq ∧ a.flags = q.flags ∧ a.opcode = BitVec.ofNat 8 0x80 ∧
      a.operand = w64 (countBytes q) ∧ a.payload = padTo (countBytes q) data := by
  cases err <;> exact ⟨rfl, rfl, rfl, rfl, rfl, rfl, rfl, rfl⟩

theorem readAnswer_why (s : State) (die n : Nat) (q : Packet) (data : List Byte) (err : Bool) :
    (readAnswer s die n q data err).why = List.replicate (flitsFor q.cls (countBytes q)) (b2n err) := by
  have hwhy : (response s die n q 0x80 (w64 (countBytes q)) (padTo (countBytes q) data)).why =
      List.replicate (flitsFor q.cls (countBytes q)) 0 := by
    show List.replicate (flitsFor q.cls (padTo (countBytes q) data).length) 0 = _
    rw [length_padTo]
  cases err with
  | false => exact hwhy
  | true =>
    show List.map (fun _ => 1) _ = _
    rw [hwhy, List.map_replicate]
    rfl

/-- The data of a READ leave with their marks. -/
theorem readAnswer_sent {s u : State} (h : SendsAlike s u) (die n : Nat) (q : Packet) (data : List Byte) (err : Bool) :
    let t := sendFrom die n 10 (readAnswer u die n q data err) u
    Answered s t die n 10 q 0x80 (w64 (countBytes q)) (padTo (countBytes q) data) ∧
      ∃ p, Sent s t die n 10 p ∧ p.why = List.replicate (flitsFor q.cls (countBytes q)) (b2n err) :=
  ⟨⟨_, h.sent _ _ _ _, readAnswer_fields u die n q data err⟩, _, h.sent _ _ _ _, readAnswer_why u die n q data err⟩

/-- What a memory answers its requester once the response is in (R118, R160). -/
def memAnswer (die n : Nat) (q : Packet) (data : List Byte) (err : Bool) (s : State) : State :=
  if q.opcode = 0 then sendFrom die n 10 (readAnswer s die n q data err) s
  else if err then replyStatus die n 10 q 0x26 s
  else if q.operand.toNat.testBit 10 then reply die n 10 q 0x81 0 [] s
  else s

/-- The answer by the request's kind. -/
theorem memAnswer_effect {s u : State} (h : SendsAlike s u) (die n : Nat) (q : Packet) (data : List Byte) (err : Bool) :
    let t := memAnswer die n q data err u
    (q.opcode = 0 → Answered s t die n 10 q 0x80 (w64 (countBytes q)) (padTo (countBytes q) data) ∧
      ∃ p, Sent s t die n 10 p ∧ p.why = List.replicate (flitsFor q.cls (countBytes q)) (b2n err)) ∧
    (q.opcode ≠ 0 → err = true → Refused s t die n 10 q 0x26) ∧
    (q.opcode ≠ 0 → err = false → q.operand.toNat.testBit 10 = true → Answered s t die n 10 q 0x81 0 []) ∧
    (q.opcode ≠ 0 → err = false → q.operand.toNat.testBit 10 = false → t = u) := by
  intro t
  have ht : t = memAnswer die n q data err u := rfl
  unfold memAnswer at ht
  clear_value t
  subst ht
  refine ⟨fun ho => ?_, fun ho he => ?_, fun ho he hw => ?_, fun ho he hw => ?_⟩
  · rw [if_pos ho]
    exact readAnswer_sent h die n q data err
  · rw [if_neg ho, he, if_pos rfl]
    exact h.refused die n 10 0x26 q
  · rw [if_neg ho, he, if_neg (by decide), if_pos hw]
    exact h.answered die n 10 0x81 0 [] q
  · rw [if_neg ho, he, if_neg (by decide), hw, if_neg (by decide)]

/-- An answer changes the network alone. -/
theorem memAnswer_frame (die n : Nat) (q : Packet) (data : List Byte) (err : Bool) (s : State) :
    ChangesOnly [.nt] s (memAnswer die n q data err s) := by
  unfold memAnswer
  split
  · exact changesOnly_of_clr _ _ _ (sendFrom_clr _ rfl _ _ _ _ _)
  · split
    · exact changesOnly_of_clr _ _ _ (replyStatus_clr _ rfl _ _ _ _ _ _)
    · split
      · exact changesOnly_of_clr _ _ _ (reply_clr _ rfl _ _ _ _ _ _ _ _)
      · exact .refl _ _

/-! ### MP_RESPONSE (R159, R160) -/

section
variable {s : State} {die n tag : Nat} {data : List Byte} {err : Bool} {r : MpReq}

/-- The request a tag of a port names. -/
def portOut (s : State) (die n tag : Nat) : Option MpReq := (mpOf s die n).out.find? fun r => r.tag = tag

/-- The tag's request is no longer out at the port. -/
def portTook (die n tag : Nat) : State → State := modMp die n fun m => { m with out := m.out.filter fun x => x.tag ≠ tag }

/-- MP_RSP_ERR: the stack offset is recorded, the fault raised and counted. -/
def portError (die n : Nat) (r : MpReq) (s : State) : State :=
  addCount die (mpPage s die n) 4 1
    (raise die (mpPage s die n) 0 (if hasCtx r.pkt then some r.pkt.ctx else none) 0 (mpFaultAddr die n r.offset s))

/-- The port before it answers: the request taken, an error noted. -/
def portNoted (die n tag : Nat) (err : Bool) (r : MpReq) (s : State) : State :=
  if err then portError die n r (portTook die n tag s) else portTook die n tag s

/-- The offset as MP_FAULT_ADDR shows it. -/
theorem mpFaultAddr_reg (s : State) (die n off : Nat) : reg (mpFaultAddr die n off s) die (mpPage s die n) 0x110 = w32 off := by
  unfold mpFaultAddr
  rw [reg_setReg_ne _ _ _ _ _ _ _ _ _ _ (by unfold rk; omega), reg_setReg_same]

/-- A memory port's page is not the collector's. -/
theorem mpPage_ne (s : State) (die n : Nat) : mpPage s die n ≠ 1 := by
  unfold mpPage tpage
  omega

theorem mpRespond_none (h : portOut s die n tag = none) : mpRespond die n tag data err s = s := by
  unfold mpRespond
  rw [show (mpOf s die n).out.find? _ = none from h]

theorem mpRespond_some (h : portOut s die n tag = some r) :
    mpRespond die n tag data err s = memAnswer die n r.pkt data err (portNoted die n tag err r s) := by
  unfold mpRespond
  rw [show (mpOf s die n).out.find? _ = some r from h]
  rfl

theorem mpAnswer_none (h : portOut s die n tag = none) : mpAnswer die n tag data err s = s := by
  unfold mpAnswer
  rw [show (mpOf s die n).out.find? _ = none from h]

theorem mpAnswer_plain (h : portOut s die n tag = some r) (hm : mcPiece s r.pkt = none) :
    mpAnswer die n tag data err s = memAnswer die n r.pkt data err (portNoted die n tag err r s) := by
  unfold mpAnswer
  rw [show (mpOf s die n).out.find? _ = some r from h]
  dsimp only
  rw [hm]
  exact mpRespond_some h

/-- What has been read for a multicast goes to its tree. -/
theorem mpAnswer_piece {d : Desc} (h : portOut s die n tag = some r) (hm : mcPiece s r.pkt = some d) (hf : flushing s die n = false) :
    mpAnswer die n tag data false s = pieceRead r.pkt.srcDie r.pkt.srcTile d.id data (portTook die n tag s) := by
  unfold mpAnswer
  rw [show (mpOf s die n).out.find? _ = some r from h]
  dsimp only
  rw [hm]
  dsimp only
  rw [hf, Bool.or_false, if_neg (by decide)]
  rfl

theorem portNoted_frame : ChangesOnly [.rg, .mp, .ft] s (portNoted die n tag err r s) := by
  have htook := modMp_clr (Mask.of [.rg, .mp, .ft]) rfl die n (fun m => { m with out := m.out.filter fun x => x.tag ≠ tag }) s
  unfold portNoted
  split
  · exact changesOnly_of_clr _ _ _ ((addCount_clr _ rfl _ _ _ _ _).trans ((raise_clr _ rfl rfl _ _ _ _ _ _).trans
      ((mpFaultAddr_clr _ rfl _ _ _ _).trans htook)))
  · exact changesOnly_of_clr _ _ _ htook

theorem portNoted_sends (s : State) (die n tag : Nat) (err : Bool) (r : MpReq) : SendsAlike s (portNoted die n tag err r s) := by
  refine ⟨congrArg Net.inject (portNoted_frame .nt (by decide)), congrArg TimeBase.fclk (portNoted_frame .tm (by decide)), ?_⟩
  unfold portNoted
  split
  · exact raise_spare _ _ _ _ _ _
  · rfl

theorem portNoted_mp (s : State) (die n tag : Nat) (err : Bool) (r : MpReq) : (portNoted die n tag err r s).mp =
    upd {} s.mp (tk die n) (fun m => { m with out := m.out.filter fun x => x.tag ≠ tag }) := by
  unfold portNoted
  split
  · exact raise_same _ _ _ _ _ _ .mp (by decide)
  · rfl

/-- FAULT_STATUS, MP_FAULT_ADDR and the counter after an error. -/
theorem portError_effect (s : State) (die n : Nat) (r : MpReq) :
    let u := portError die n r s
    let page := mpPage s die n
    Shows u die page 0 ∧ reg u die page 0x110 = w32 r.offset ∧ countOf u die page 4 = countOf s die page 4 + 1 := by
  refine ⟨raise_bit _ _ _ _ _ _ (by decide), ?_, ?_⟩
  · exact (reg_of_eff (raise_eff _ _ _ _ _ _) _ _ _ _).trans (mpFaultAddr_reg s die n r.offset)
  · rw [portError, countOf_addCount_page, if_pos rfl, countOf_raise _ _ _ _ _ _ _ (mpPage_ne s die n) (by decide)]
    rfl

/-- What a response that is no multicast's leaves. -/
theorem mpAnswer_effect (h : portOut s die n tag = some r) (hm : mcPiece s r.pkt = none) :
    let t := mpAnswer die n tag data err s
    let page := mpPage s die n
    ChangesOnly [.rg, .nt, .mp, .ft] s t ∧
      t.mp = upd {} s.mp (tk die n) (fun m => { m with out := m.out.filter fun x => decide (x.tag ≠ tag) }) ∧
      (r.pkt.opcode = 0 → Answered s t die n 10 r.pkt 0x80 (w64 (countBytes r.pkt)) (padTo (countBytes r.pkt) data) ∧
        ∃ q, Sent s t die n 10 q ∧ q.why = List.replicate (flitsFor r.pkt.cls (countBytes r.pkt)) (b2n err)) ∧
      (r.pkt.opcode ≠ 0 → err = false → r.pkt.operand.toNat.testBit 10 = true → Answered s t die n 10 r.pkt 0x81 0 []) ∧
      (r.pkt.opcode ≠ 0 → err = false → r.pkt.operand.toNat.testBit 10 = false → t.nt = s.nt) ∧
      (r.pkt.opcode ≠ 0 → err = true → Refused s t die n 10 r.pkt 0x26) ∧
      (err = true → Shows t die page 0 ∧ reg t die page 0x110 = w32 r.offset ∧ countOf t die page 4 = countOf s die page 4 + 1) := by
  intro t page
  have ht : t = memAnswer die n r.pkt data err (portNoted die n tag err r s) := mpAnswer_plain h hm
  have hsends := portNoted_sends s die n tag err r
  have hnoted : ChangesOnly [.rg, .mp, .ft] s (portNoted die n tag err r s) := portNoted_frame
  have hanswer := memAnswer_frame die n r.pkt data err (portNoted die n tag err r s)
  obtain ⟨hread, hbad, hack, hsilent⟩ := memAnswer_effect hsends die n r.pkt data err
  rw [← ht] at hanswer hread hbad hack hsilent
  refine ⟨(hnoted.mono (by decide)).trans (hanswer.mono (by decide)), ?_, hread, hack, fun ho he hw => ?_, hbad, fun he => ?_⟩
  · exact (hanswer .mp (by decide)).trans (portNoted_mp s die n tag err r)
  · rw [hsilent ho he hw]
    exact hnoted .nt (by decide)
  · have hrg : t.rg = (portError die n r (portTook die n tag s)).rg := by
      rw [show t.rg = _ from hanswer .rg (by decide), portNoted, if_pos he]
    have hreads := portError_effect (portTook die n tag s) die n r
    unfold Shows pageOf reg countOf at hreads ⊢
    rw [hrg]
    exact hreads

/-! ### MP_STALL (R159) -/

/-- The port once the stall of a tag's request has been noted. -/
def portStall (die n tag : Nat) : State → State :=
  modMp die n fun m => { m with out := mapIf (fun x => x.tag = tag) (fun x => { x with stalled := true }) m.out }

/-- MP_STALL: the stack offset is recorded and the fault raised. -/
def portStalls (die n tag : Nat) (r : MpReq) (s : State) : State :=
  raise die (mpPage s die n) 1 (if hasCtx r.pkt then some r.pkt.ctx else none) 0 (mpFaultAddr die n r.offset (portStall die n tag s))

theorem mpStalled_none (h : portOut s die n tag = none) : mpStalled die n tag s = s := by
  unfold mpStalled
  rw [show (mpOf s die n).out.find? _ = none from h]

theorem mpStalled_some (h : portOut s die n tag = some r) : mpStalled die n tag s =
    if r.stalled = true ∨ s.tm.fclk < r.since + rfld s die (mpPage s die n) 0x10C 23 0 then s
    else portStalls die n tag r s := by
  unfold mpStalled
  rw [show (mpOf s die n).out.find? _ = some r from h]
  rfl

theorem mpOf_of_mp {s t : State} (h : t.mp = s.mp) (die n : Nat) : mpOf t die n = mpOf s die n := by
  unfold mpOf
  rw [h]

/-- A search that a rewriting of elements does not disturb finds the rewritten one. -/
theorem find_mapIf {α : Type} {c : α → Bool} {f : α → α} {xs : List α} {x : α} (hf : ∀ y, c (f y) = c y) (h : xs.find? c = some x) :
    (mapIf c f xs).find? c = some (f x) := by
  have hc : c ∘ (fun y => if c y then f y else y) = c := by
    funext y
    rw [Function.comp_apply]
    split
    · exact hf y
    · rfl
  rw [mapIf, List.find?_map, hc, h]
  exact congrArg some (if_pos (List.find?_some h))

/-- A rewriting of elements that keeps a value keeps the list of values. -/
theorem map_mapIf {α β : Type} (g : α → β) (c : α → Bool) (f : α → α) (xs : List α) (hg : ∀ y, g (f y) = g y) :
    (mapIf c f xs).map g = xs.map g := by
  rw [mapIf, List.map_map]
  refine List.map_congr_left fun y _ => ?_
  rw [Function.comp_apply]
  split
  · exact hg y
  · rfl

/-- What the first expiry leaves: the fault, the offset, the requests in their order; a second expiry changes nothing. -/
theorem mpStalled_effect (h : portOut s die n tag = some r) (hlate : r.since + rfld s die (mpPage s die n) 0x10C 23 0 ≤ s.tm.fclk)
    (hfirst : r.stalled = false) :
    let t := mpStalled die n tag s
    let page := mpPage s die n
    Shows t die page 1 ∧ reg t die page 0x110 = w32 r.offset ∧
      (mpOf t die n).out.map (·.pkt) = (mpOf s die n).out.map (·.pkt) ∧ mpStalled die n tag t = t := by
  intro t page
  have ht : t = portStalls die n tag r s := by
    refine (mpStalled_some h).trans (if_neg fun hor => hor.elim ?_ (Nat.not_lt.mpr hlate))
    rw [hfirst]
    decide
  have hout : (mpOf t die n).out = mapIf (fun x => x.tag = tag) (fun x => { x with stalled := true }) (mpOf s die n).out := by
    have hmp : t.mp = (portStall die n tag s).mp := by
      rw [ht]
      exact raise_same _ _ _ _ _ _ .mp (by decide)
    have hport : mpOf t die n = mpOf (portStall die n tag s) die n := mpOf_of_mp hmp die n
    rw [hport, portStall, mpOf_modMp, if_pos rfl]
  refine ⟨?_, ?_, ?_, ?_⟩
  · rw [ht]
    exact raise_bit _ _ _ _ _ _ (by decide)
  · rw [ht]
    exact (reg_of_eff (raise_eff _ _ _ _ _ _) _ _ _ _).trans (mpFaultAddr_reg (portStall die n tag s) die n r.offset)
  · rw [hout]
    exact map_mapIf _ _ _ _ fun _ => rfl
  · have hagain : portOut t die n tag = some { r with stalled := true } := by
      unfold portOut
      rw [hout]
      exact find_mapIf (fun _ => rfl) h
    exact (mpStalled_some hagain).trans (if_pos (.inl rfl))

end

/-! ### CM_RESPONSE (R160, R558) -/

/-- The response of a cluster memory to a request that came as a packet. -/
theorem cmRespond_packet {s : State} {die n tag : Nat} {r : CmReq} {q : Packet} (data : List Byte) (err : Bool)
    (h : (cipOf s die n).cmOut.find? (fun r => decide (r.tag = tag)) = some r) (hq : r.pkt = some q) (hm : q.mc = false) :
    cmRespond die n tag data err s = memAnswer die n q data err
      (modCip die n (fun c => { c with cmOut := c.cmOut.filter fun x => x.tag ≠ tag }) s) := by
  unfold cmRespond
  rw [h]
  dsimp only
  rw [hq]
  dsimp only
  rw [hm, if_neg (by decide)]
  rfl

/-! ### The statement -/

theorem portOut_none {s : State} {die n tag : Nat} (h : ∀ r ∈ (mpOf s die n).out, r.tag ≠ tag) : portOut s die n tag = none :=
  List.find?_eq_none.mpr fun r hr => by simpa using h r hr

/-- Settles O30: what each response leaves, by the request its tag names. -/
theorem memoryResponsesReturn : Obligations.MemoryResponsesReturn := by
  refine ⟨fun s die n tag data err => ⟨exec_frame _ s, exec_frame _ s, exec_frame _ s⟩,
    fun s die n tag data err => ?_, fun s die n tag data err r q h hq hm => ?_⟩
  · intro page
    refine ⟨fun hno => ?_, fun r hr => ⟨fun hm => ⟨_, rfl, mpAnswer_effect hr hm⟩, fun d hm he hf => ?_, fun hearly => ?_,
      fun hlate hfirst => ?_⟩⟩
    · exact ⟨congrArg Host.Outcome.next (mpAnswer_none (portOut_none hno)), congrArg Host.Outcome.next (mpStalled_none (portOut_none hno))⟩
    · rw [he]
      exact congrArg Host.Outcome.next (mpAnswer_piece hr hm hf)
    · exact congrArg Host.Outcome.next ((mpStalled_some hr).trans (if_pos (.inr hearly)))
    · obtain ⟨hshows, hreg, hout, hagain⟩ := mpStalled_effect hr hlate hfirst
      exact ⟨_, rfl, hshows, hreg, hout, congrArg Host.Outcome.next hagain⟩
  · refine ⟨_, congrArg Host.Outcome.next (cmRespond_packet data err h hq hm), ?_, ?_⟩
    · rw [cipOf_of_ci die n (memAnswer_frame die n q data err _ .ci (by decide))]
      exact cipOf_modCip_same die n _
    · obtain ⟨hread, hbad, hack, hsilent⟩ := memAnswer_effect (s := s)
        (u := modCip die n (fun c => { c with cmOut := c.cmOut.filter fun x => x.tag ≠ tag }) s) ⟨rfl, rfl, rfl⟩ die n q data err
      exact ⟨hread, hbad, hack, fun ho he hw => (congrArg State.nt (hsilent ho he hw)).trans rfl⟩

end Sys2Proof.Machine
end

section
/-! SUPPORT. Credits that return (R130), front packets that wait for an escape output (R140, R154); O26. -/
namespace Sys2Proof.Machine

/-! ### Faults with the head of a packet -/

/-- FAULT_STATUS and FAULT_HEAD after a fault about a packet; the network stays. -/
theorem raiseHead_effect (die t b : Nat) (p : Packet) (s : State) (hb : b < 32) :
    let u := raiseHead die t b p s
    u.nt = s.nt ∧ Shows u die (tpage t 0) b ∧ reg u die (tpage t 0) 0x128 = lo32 p.dest ∧ reg u die (tpage t 0) 0x12C = hi32 p.dest := by
  intro u
  have heff : u.rg.eff = (faultHead die t p s).rg.eff := raise_eff _ _ _ _ _ _
  refine ⟨raise_nt _ _ _ _ _ _, raise_bit _ _ _ _ _ _ hb, ?_, ?_⟩
  · rw [reg_of_eff heff, faultHead, reg_setReg_ne _ _ _ _ _ _ _ _ _ _ (by unfold rk; omega), reg_setReg_same]
  · rw [reg_of_eff heff, faultHead, reg_setReg_same]

/-! ### Credits (R130) -/

/-- The credits are owed no longer. -/
def creditPaid (key k : Nat) (s : State) : State := { s with nt := { s.nt with owed := upd 0 s.nt.owed key (· - k) } }

/-- They free as much of the downstream buffer's count. -/
def creditFreed (key k : Nat) (s : State) : State := { s with nt := { s.nt with used := put 0 s.nt.used key (look 0 s.nt.used key - k) } }

section
variable {s : State} {die tile port plane vc cls k n : Nat}

theorem credit_taken (hn : logTile s die tile = some n) (h : k ≤ look 0 s.nt.used (credKey s die tile n port plane vc cls)) :
    creditReturn_ die tile port plane vc cls k s =
      creditFreed (credKey s die tile n port plane vc cls) k (creditPaid (credKey s die tile n port plane vc cls) k s) := by
  unfold creditReturn_
  rw [hn]
  exact if_neg (Nat.not_lt.mpr h)

theorem credit_overflow (hn : logTile s die tile = some n) (h : look 0 s.nt.used (credKey s die tile n port plane vc cls) < k) :
    creditReturn_ die tile port plane vc cls k s =
      raise die (tpage tile 0) 1 none (reg s die (tpage tile 0) 0x128) (creditPaid (credKey s die tile n port plane vc cls) k s) := by
  unfold creditReturn_
  rw [hn]
  exact if_pos h

theorem creditPaid_owed (key : Nat) (s : State) (k' : Nat) :
    look 0 (creditPaid key k s).nt.owed k' = if k' = key then look 0 s.nt.owed key - k else look 0 s.nt.owed k' :=
  look_upd 0 s.nt.owed key k' (· - k)

theorem creditFreed_used (key : Nat) (s : State) (k' : Nat) :
    look 0 (creditFreed key k s).nt.used k' = if k' = key then look 0 s.nt.used key - k else look 0 s.nt.used k' :=
  look_put 0 s.nt.used key k' _

/-- The network after credits have come, taken or not. -/
theorem credit_nt (hn : logTile s die tile = some n) :
    let key := credKey s die tile n port plane vc cls
    let t := creditReturn_ die tile port plane vc cls k s
    t.nt = { (creditPaid key k s).nt with used := t.nt.used } ∧
      (look 0 s.nt.used key < k → t.nt.used = s.nt.used) ∧ (k ≤ look 0 s.nt.used key → t = creditFreed key k (creditPaid key k s)) := by
  intro key t
  by_cases h : k ≤ look 0 s.nt.used key
  · have ht : t = creditFreed key k (creditPaid key k s) := credit_taken hn h
    exact ⟨by rw [ht]; rfl, fun hlt => absurd h (Nat.not_le.mpr hlt), fun _ => ht⟩
  · have ht : t.nt = (creditPaid key k s).nt := by
      rw [show t = _ from credit_overflow hn (Nat.lt_of_not_le h)]
      exact raise_nt _ _ _ _ _ _
    exact ⟨by rw [ht], fun _ => by rw [ht]; rfl, fun hle => absurd hle h⟩

end

/-! ### Front packets (R140, R154) -/

section
variable {s : State} {b : BufKey} {q : QPkt} {qs : List QPkt}

theorem setFront_cons {k : Nat} (h : bufQ s k = q :: qs) (q' : QPkt) :
    setFront k q' s = { s with nt := { s.nt with bufs := put [] s.nt.bufs k (q' :: qs) } } := by
  unfold setFront
  rw [h]

theorem bufQ_setFront {k : Nat} (h : bufQ s k = q :: qs) (q' : QPkt) (k' : Nat) :
    bufQ (setFront k q' s) k' = if k' = k then q' :: qs else bufQ s k' := by
  rw [setFront_cons h]
  exact bufQ_put s k k' (q' :: qs)

/-- The packet is in transit and has no grant yet: it asks for no output. -/
def ungranted (s : State) (p : Packet) : Bool := inTransit s p && decide (p.via = 0)

theorem ungranted_false {p : Packet} (h : inTransit s p = false ∨ p.via ≠ 0) : ungranted s p = false := by
  obtain h | h := h
  · rw [ungranted, h, Bool.false_and]
  · rw [ungranted, decide_eq_false h, Bool.and_false]

theorem escWait_due (h : bufQ s (bufKey b) = q :: qs) (ha : isAdaptive q.pkt.vc = true) (hm : q.pkt.mc = false) (he : q.alsoEscape = false)
    (ht : inTransit s q.pkt = false ∨ q.pkt.via ≠ 0) (hw : q.since + rfld s b.die (tpage b.tile 0) 0x108 7 0 ≤ s.tm.fclk) :
    escWait b s = setFront (bufKey b) { q with alsoEscape := true, escAt := s.tm.fclk + 1 } s := by
  have hu : (inTransit s q.pkt && decide (q.pkt.via = 0)) = false := ungranted_false ht
  unfold escWait
  rw [h]
  dsimp only
  rw [ha, hm, he, hu]
  exact if_pos ⟨rfl, rfl, rfl, rfl, hw⟩

theorem escWait_early (h : bufQ s (bufKey b) = q :: qs) (hw : s.tm.fclk < q.since + rfld s b.die (tpage b.tile 0) 0x108 7 0) :
    escWait b s = s := by
  unfold escWait
  rw [h]
  exact if_neg fun ⟨_, _, _, _, hle⟩ => Nat.not_le.mpr hw hle

theorem escSince_some (ht : inTransit s q.pkt = false ∨ q.pkt.via ≠ 0)
    (ha : isAdaptive q.pkt.vc = false ∨ q.pkt.mc = true ∨ q.alsoEscape = true ∨ q.expired = true) :
    escSince s q = some (max q.since q.escAt) := by
  have hu : (inTransit s q.pkt && decide (q.pkt.via = 0)) = false := ungranted_false ht
  unfold escSince
  rw [hu, if_neg (by decide)]
  refine if_neg ?_
  obtain h | h | h | h := ha <;> simp [h]

/-- The stall of a front packet, as it is noted. -/
def frontStalls (b : BufKey) (q : QPkt) (s : State) : State :=
  raiseHead b.die b.tile 0 q.pkt (setFront (bufKey b) { q with stalled := true } s)

theorem escStall_late (h : bufQ s (bufKey b) = q :: qs) {c : Nat} (hc : escSince s q = some c) (hs : q.stalled = false)
    (hon : rfld s b.die (tpage b.tile 0) 0x100 2 2 = 1) (hlate : c + rfld s b.die (tpage b.tile 0) 0x104 23 0 < s.tm.fclk) :
    escStall b s = frontStalls b q s := by
  unfold escStall
  rw [h]
  dsimp only
  rw [hc]
  dsimp only
  rw [hs]
  exact if_pos ⟨rfl, hon, hlate⟩

/-- A stall is noted once. -/
theorem escStall_again (h : bufQ s (bufKey b) = q :: qs) (hs : q.stalled = true) : escStall b s = s := by
  unfold escStall
  rw [h]
  dsimp only
  cases escSince s q with
  | none => rfl
  | some c =>
    dsimp only
    rw [hs]
    exact if_neg fun ⟨hno, _⟩ => by cases hno

/-- What a noted stall leaves: the fault, its head, the packet in its place. -/
theorem frontStalls_effect (h : bufQ s (bufKey b) = q :: qs) :
    let t := frontStalls b q s
    Shows t b.die (tpage b.tile 0) 0 ∧ reg t b.die (tpage b.tile 0) 0x128 = lo32 q.pkt.dest ∧
      reg t b.die (tpage b.tile 0) 0x12C = hi32 q.pkt.dest ∧ bufQ t (bufKey b) = { q with stalled := true } :: qs ∧
      (∀ k, k ≠ bufKey b → bufQ t k = bufQ s k) ∧ escStall b t = t := by
  intro t
  obtain ⟨hnt, hshows, hlo, hhi⟩ := raiseHead_effect b.die b.tile 0 q.pkt (setFront (bufKey b) { q with stalled := true } s) (by decide)
  have hbuf : ∀ k, bufQ t k = if k = bufKey b then { q with stalled := true } :: qs else bufQ s k := fun k => by
    rw [← bufQ_setFront h { q with stalled := true } k]
    unfold bufQ
    rw [show t.nt = _ from hnt]
  have hfront := (hbuf (bufKey b)).trans (if_pos rfl)
  exact ⟨hshows, hlo, hhi, hfront, fun k hk => (hbuf k).trans (if_neg hk), escStall_again hfront rfl⟩

end

/-! ### The statement -/

/-- Settles O26: credits within and beyond what is used; the two waits of a front packet. -/
theorem creditsAndWaits : Obligations.CreditsAndWaits := by
  refine ⟨fun s die tile port plane vc cls k b => ⟨exec_frame _ s, exec_frame _ s, exec_frame _ s⟩,
    fun s die tile port plane vc cls k n hn => ?_, fun s b q qs h => ⟨fun ha hm he ht hw => ?_, fun hw => ?_, fun ht ha hs hon hlate => ?_⟩⟩
  · intro key
    obtain ⟨hnt, hover, htaken⟩ := credit_nt (port := port) (plane := plane) (vc := vc) (cls := cls) (k := k) hn
    refine ⟨creditReturn_ die tile port plane vc cls k s, rfl, ?_, fun k' hk' => ?_, ?_, fun hle => ?_, fun hlt => ⟨hover hlt, ?_⟩⟩
    · rw [hnt]
      exact (creditPaid_owed key s key).trans (if_pos rfl)
    · rw [hnt]
      exact (creditPaid_owed key s k').trans (if_neg hk')
    · rw [hnt]
      rfl
    · rw [htaken hle]
      exact ⟨changesOnly_of_clr [.nt] s _ (upd_nt _ rfl s _), (creditFreed_used key _ key).trans (if_pos rfl),
        fun k' hk' => (creditFreed_used key _ k').trans (if_neg hk')⟩
    · rw [credit_overflow hn hlt]
      exact raise_bit _ _ _ _ _ _ (by decide)
  · refine ⟨escWait b s, rfl, ?_⟩
    rw [escWait_due h ha hm he ht hw]
    refine ⟨(bufQ_setFront h _ _).trans (if_pos rfl), fun k hk => (bufQ_setFront h _ _).trans (if_neg hk), ?_⟩
    rw [setFront_cons h]
  · exact congrArg Host.Outcome.next (escWait_early h hw)
  · obtain ⟨hshows, hlo, hhi, hfront, hrest, hagain⟩ := frontStalls_effect h
    exact ⟨frontStalls b q s, congrArg Host.Outcome.next (escStall_late h (escSince_some ht ha) hs hon hlate), hshows, hlo, hhi, hfront,
      hrest, congrArg Host.Outcome.next hagain⟩

end Sys2Proof.Machine
end

section
/-! SUPPORT. Transit grants at an egress and at an ingress, and the end of an adaptive packet's wait for one (R146 to R148); O27. -/
namespace Sys2Proof.Machine

/-! ### The egress (R147) -/

section
variable {s : State} {port : Nat}

/-- No request that waits for the port can be granted. -/
def noneGrantable (s : State) (port : Nat) : Prop := ∀ r ∈ s.nt.transitWait, r.egress = port → slotFree s port r.cls = false

theorem grantOne_idle (h : noneGrantable s port) : grantOne port s = s := by
  have hnone : s.nt.transitWait.find? (fun r => decide (r.egress = port) && slotFree s port r.cls) = none :=
    List.find?_eq_none.mpr fun r hr => by
      by_cases he : r.egress = port
      · simp [h r hr he]
      · simp [he]
  unfold grantOne
  rw [hnone]

theorem grantNext_idle (h : noneGrantable s port) : grantNext port s = s := by
  unfold grantNext
  exact forEach_keeps (· = s) _ _ s (fun _ u hu => by rw [hu]; exact grantOne_idle h) rfl

/-- The only request that waits for a port. -/
def OnlyWaiter (s : State) (port : Nat) (ws : List TransitReq) (r : TransitReq) : Prop :=
  s.nt.transitWait = ws ++ [r] ∧ r.egress = port ∧ ∀ x ∈ ws, x.egress ≠ port

/-- The state once an egress has granted a request of another die. -/
def slotGranted (port : Nat) (r : TransitReq) (s : State) : State :=
  takeSlot port r.cls { s with nt := { s.nt with transitWait := s.nt.transitWait.erase r } }

/-- The grant that leaves an egress. -/
def grantPacket (s : State) (port : Nat) (r : TransitReq) : Packet :=
  transitPkt s 0xE0 (portDie port) (lnkTile (port % 6)).1 (epAddr (pkgNo s) r.srcDie r.srcTile 0 0) port r.cls r.sseq

theorem OnlyWaiter.grantNext {ws : List TransitReq} {r : TransitReq} (h : OnlyWaiter s port ws r) :
    grantNext port s = grantOne port s := by
  obtain ⟨hw, hr, hno⟩ := h
  have hfilter : (ws ++ [r]).filter (fun x => decide (x.egress = port)) = [r] := by
    rw [List.filter_append, List.filter_eq_nil_iff.mpr fun x hx => by simpa using hno x hx, List.filter_singleton,
      decide_eq_true hr]
    rfl
  unfold Machine.grantNext
  rw [hw, hfilter]
  rfl

theorem OnlyWaiter.grantOne {ws : List TransitReq} {r : TransitReq} (h : OnlyWaiter s port ws r) (hf : slotFree s port r.cls = true)
    (hd : r.srcDie ≠ portDie port) :
    grantOne port s = sendFrom (portDie port) (lnkTile (port % 6)).1 10 (grantPacket s port r) (slotGranted port r s) := by
  obtain ⟨hw, hr, hno⟩ := h
  have hfind : s.nt.transitWait.find? (fun x => decide (x.egress = port) && slotFree s port x.cls) = some r := by
    rw [hw, List.find?_append, List.find?_eq_none.mpr fun x hx => by simp [hno x hx], List.find?_singleton, hf, decide_eq_true hr]
    rfl
  unfold Machine.grantOne
  rw [hfind]
  exact if_neg hd

theorem OnlyWaiter.erase {ws : List TransitReq} {r : TransitReq} (h : OnlyWaiter s port ws r) : s.nt.transitWait.erase r = ws := by
  obtain ⟨hw, hr, hno⟩ := h
  rw [hw, List.erase_append_right _ fun hmem => hno r hmem hr, List.erase_cons_head, List.append_nil]

end

/-! ### A request at its egress -/

section
variable {s : State} {die n : Nat} {p : Packet}

/-- The port and the pool class that a request or grant names (log 16). -/
def namedPort (p : Packet) : Nat := bits p.operand.toNat 7 0
def namedCls (p : Packet) : Nat := bits p.operand.toNat 15 8

/-- The request a packet brings. -/
def broughtReq (p : Packet) : TransitReq :=
  { srcDie := p.srcDie, srcTile := p.srcTile, egress := namedPort p, cls := namedCls p, sseq := p.sseq }

/-- The request waits behind the others. -/
def reqWaits (die n : Nat) (p : Packet) (s : State) : State :=
  { consume die n p s with nt := { (consume die n p s).nt with transitWait := s.nt.transitWait ++ [broughtReq p] } }

theorem transitArrive_here (h : portDie (namedPort p) = die) : transitArrive die n p s = grantNext (namedPort p) (reqWaits die n p s) :=
  if_neg (not_not.mpr h)

/-- With a slot free and nobody else waiting, the request is granted. -/
theorem transitArrive_grants (h : portDie (namedPort p) = die) (hd : p.srcDie ≠ die)
    (hno : ∀ r ∈ s.nt.transitWait, r.egress ≠ namedPort p) (hf : slotFree s (namedPort p) (namedCls p) = true) :
    let t := transitArrive die n p s
    poolUsed t (namedPort p) (namedCls p) = poolUsed s (namedPort p) (namedCls p) + 1 ∧ t.nt.transitWait = s.nt.transitWait ∧
      Sent s t die (lnkTile (namedPort p % 6)).1 10 (grantPacket s (namedPort p) (broughtReq p)) := by
  intro t
  have honly : OnlyWaiter (reqWaits die n p s) (namedPort p) s.nt.transitWait (broughtReq p) := ⟨rfl, rfl, hno⟩
  have ht : t = sendFrom (portDie (namedPort p)) (lnkTile (namedPort p % 6)).1 10 (grantPacket s (namedPort p) (broughtReq p))
      (slotGranted (namedPort p) (broughtReq p) (reqWaits die n p s)) := by
    rw [show t = _ from transitArrive_here h, honly.grantNext]
    exact honly.grantOne hf (by rw [h]; exact hd)
  rw [ht, h]
  refine ⟨?_, honly.erase, sendFrom_sent _ _ _ _ _ _ rfl rfl rfl⟩
  exact (look_upd 0 s.nt.poolUsed (poolKey (namedPort p) (namedCls p)) _ (· + 1)).trans (if_pos rfl)

/-- Where neither it nor one before it has a free slot, the request waits. -/
theorem transitArrive_waits (h : portDie (namedPort p) = die) (hno : noneGrantable s (namedPort p))
    (hf : slotFree s (namedPort p) (namedCls p) = false) : transitArrive die n p s = reqWaits die n p s := by
  rw [transitArrive_here h]
  refine grantNext_idle fun r hr he => ?_
  obtain hr | hr := List.mem_append.mp hr
  · exact hno r hr he
  · rw [List.mem_singleton.mp hr]
    exact hf

end

/-! ### A grant at its ingress -/

section
variable {s : State} {die n : Nat} {p : Packet}

/-- No packet in transit waits for a grant at the front of a buffer. -/
def noneWaits (s : State) : Prop := ∀ k, ∀ q ∈ (bufQ s k).head?, inTransit s q.pkt = false ∨ q.pkt.via ≠ 0

theorem askTransit_idle (h : noneWaits s) (die t n k : Nat) : askTransit die t n k s = s := by
  unfold askTransit
  split
  · rfl
  · next q qs hq =>
    refine if_pos ?_
    obtain ht | hv := h k q (by rw [hq]; rfl)
    · rw [ht]
      rfl
    · rw [decide_eq_true hv, Bool.or_true]

theorem askFronts_idle (h : noneWaits s) (die t n : Nat) : askFronts die t n s = s :=
  forEach_keeps (· = s) _ _ s (fun k u hu => by rw [hu]; exact askTransit_idle h die t n k) rfl

/-- A grant that no packet waits for frees its slot. -/
theorem useGrant_idle (h : noneWaits s) (die t n port cls : Nat) : useGrant die t n port cls s = freeSlot port cls s := by
  unfold useGrant
  split
  · next k hk =>
    exfalso
    have hfit := List.find?_some hk
    cases hq : bufQ s k with
    | nil => simp [hq] at hfit
    | cons q qs =>
      have hno := ungranted_false (h k q (by rw [hq]; rfl))
      unfold ungranted at hno
      simp [hq, hno] at hfit
  · rfl

/-- What an ingress has asked for and a grant answers. -/
def grantAnswers (die n : Nat) (p : Packet) : TransitReq → Bool := sameAsk die n (namedPort p, namedCls p)

/-- The request a grant answers is no longer out. -/
def grantTaken (die n : Nat) (p : Packet) (s : State) : State :=
  { consume die n p s with nt := { (consume die n p s).nt with transitAsked := (takeFirst (grantAnswers die n p) s.nt.transitAsked).2 } }

theorem transitGranted_asked (h : s.nt.transitAsked.any (grantAnswers die n p) = true) :
    let t := physTile s die n
    transitGranted die n p s =
      grantNext (namedPort p) (askFronts die t n (useGrant die t n (namedPort p) (namedCls p) (grantTaken die n p s))) :=
  if_pos h

theorem grantAnswers_of {a : TransitReq} (hd : a.srcDie = die) (ht : a.srcTile = n) (he : a.egress = namedPort p)
    (hc : a.cls = namedCls p) : grantAnswers die n p a = true := by
  simp [grantAnswers, sameAsk, hd, ht, he, hc]

/-- A grant nobody needs any more goes back to its pool. -/
theorem transitGranted_returns {a : TransitReq} (ha : s.nt.transitAsked = [a]) (h : grantAnswers die n p a = true) (hno : noneWaits s)
    (hw : ∀ r ∈ s.nt.transitWait, r.egress ≠ namedPort p) :
    transitGranted die n p s = freeSlot (namedPort p) (namedCls p) (grantTaken die n p s) := by
  have hany : s.nt.transitAsked.any (grantAnswers die n p) = true := by rw [ha, List.any_cons, h, Bool.true_or]
  have hno' : noneWaits (grantTaken die n p s) := hno
  have hfreed : noneWaits (freeSlot (namedPort p) (namedCls p) (grantTaken die n p s)) := hno
  rw [transitGranted_asked hany, useGrant_idle hno', askFronts_idle hfreed]
  exact grantNext_none _ _ hw

end

/-! ### The end of an adaptive packet's wait (R148) -/

/-- On escape a packet is not adaptive. -/
theorem onEscape_adaptive (die n : Nat) (p : Packet) : isAdaptive (onEscape die n p).vc = false := by
  unfold onEscape
  split
  · simp [isAdaptive]
  · next h => exact Bool.eq_false_iff.mpr h

/-- Each lane of a direction leads to one port. -/
theorem lanePorts_lane (s : State) (die t d l : Nat) : ((lanePorts s die t d).filter fun e => decide (e.1 = l)).length ≤ 1 := by
  have hpair : (lanePorts s die t d).Pairwise fun e f => e.1 ≠ f.1 := by
    refine List.pairwise_filterMap.mpr (List.nodup_range.imp fun {a b} hab e he f hf => ?_)
    obtain ⟨_, _, rfl⟩ := Option.map_eq_some_iff.mp he
    obtain ⟨_, _, rfl⟩ := Option.map_eq_some_iff.mp hf
    exact hab
  have hfil := hpair.filter fun e => decide (e.1 = l)
  have hall : ∀ e ∈ (lanePorts s die t d).filter (fun e => decide (e.1 = l)), e.1 = l := fun e he =>
    of_decide_eq_true (List.mem_filter.mp he).2
  generalize (lanePorts s die t d).filter (fun e => decide (e.1 = l)) = xs at hfil hall
  match xs, hfil, hall with
  | [], _, _ => exact Nat.zero_le 1
  | [_], _, _ => exact Nat.le_refl 1
  | a :: b :: rest, hfil, hall =>
    have hab := (List.pairwise_cons.mp hfil).1 b (List.mem_cons_self ..)
    exact absurd ((hall a (List.mem_cons_self ..)).trans (hall b (List.mem_cons_of_mem _ (List.mem_cons_self ..))).symm) hab

/-- A packet that goes on as escape asks for a slot of one port, if any. -/
theorem transitPorts_escape (s : State) (die t n : Nat) (q : QPkt) (h : q.expired = true) : (transitPorts s die t n q).length ≤ 1 := by
  unfold transitPorts
  rw [h, if_pos rfl]
  dsimp only
  split
  · exact Nat.zero_le 1
  · rw [onEscape_adaptive, if_neg (by decide), List.length_map]
    split
    · exact lanePorts_lane s die t _ _
    · exact Nat.zero_le 1

/-- One request of the transit unit for a slot, unless it has asked before (R147). -/
def askSlot (die n : Nat) (sseq : BitVec 16) (e : Nat × Nat) (s : State) : State :=
  let r : TransitReq := { srcDie := die, srcTile := n, egress := e.1, cls := e.2, sseq := sseq }
  if portDie e.1 = die then
    if s.nt.transitWait.any (sameAsk die n e) then s
    else { s with nt := { s.nt with transitWait := s.nt.transitWait ++ [r] } }
  else if s.nt.transitAsked.any (sameAsk die n e) then s
  else
    sendFrom die n 10 (transitPkt s 0x60 die n (epAddr (pkgNo s) (portDie e.1) (lnkTile (e.1 % 6)).1 0 0) e.1 e.2 sseq)
      { s with nt := { s.nt with transitAsked := s.nt.transitAsked ++ [r] } }

theorem askSlot_bufs (die n : Nat) (sseq : BitVec 16) (e : Nat × Nat) (s : State) : (askSlot die n sseq e s).nt.bufs = s.nt.bufs := by
  unfold askSlot
  dsimp only
  split
  · split <;> rfl
  · split <;> rfl

/-- A slot of another die is asked for, now or before. -/
theorem askSlot_asked (die n : Nat) (sseq : BitVec 16) (e : Nat × Nat) (s : State) (h : portDie e.1 ≠ die) :
    ∃ r ∈ (askSlot die n sseq e s).nt.transitAsked, r.srcDie = die ∧ r.srcTile = n ∧ r.egress = e.1 ∧ r.cls = e.2 := by
  unfold askSlot
  dsimp only
  rw [if_neg h]
  split
  · next hany =>
    obtain ⟨r, hr, hsame⟩ := List.any_eq_true.mp hany
    exact ⟨r, hr, by simpa [sameAsk, and_assoc] using hsame⟩
  · exact ⟨_, List.mem_append_right _ (List.mem_singleton_self _), rfl, rfl, rfl, rfl⟩

section
variable {s : State} {die t n k : Nat} {q : QPkt} {qs : List QPkt}

/-- A slot on the packet's own die that it can have at once. -/
def slotHere (s : State) (die t n : Nat) (q : QPkt) : Option (Nat × Nat) :=
  (transitPorts s die t n q).find? fun e => decide (portDie e.1 = die) && slotFree s e.1 e.2

theorem askTransit_here {e : Nat × Nat} (h : bufQ s k = q :: qs) (ht : inTransit s q.pkt = true) (hv : q.pkt.via = 0)
    (he : slotHere s die t n q = some e) : askTransit die t n k s = takeGrant k e.1 e.2 (takeSlot e.1 e.2 s) := by
  unfold askTransit
  rw [h]
  dsimp only
  rw [ht, hv, if_neg (by decide), show (transitPorts s die t n q).find? _ = some e from he]

theorem askTransit_away (h : bufQ s k = q :: qs) (ht : inTransit s q.pkt = true) (hv : q.pkt.via = 0)
    (he : slotHere s die t n q = none) : askTransit die t n k s = forEach (transitPorts s die t n q) (askSlot die n q.pkt.sseq) s := by
  unfold askTransit
  rw [h]
  dsimp only
  rw [ht, hv, if_neg (by decide), show (transitPorts s die t n q).find? _ = none from he]
  rfl

theorem eq_singleton_of_mem {α : Type} {xs : List α} {x : α} (h : xs.length ≤ 1) (hx : x ∈ xs) : xs = [x] := by
  match xs, h, hx with
  | [y], _, hx => rw [List.mem_singleton.mp hx]
  | _ :: _ :: _, h, _ => simp at h

/-- Asking for a grant leaves every other buffer; its own keeps its packets and what they are. -/
theorem askTransit_bufs (h : bufQ s k = q :: qs) (ht : inTransit s q.pkt = true) (hv : q.pkt.via = 0) :
    let u := askTransit die t n k s
    (∀ k', k' ≠ k → bufQ u k' = bufQ s k') ∧ ∃ x, bufQ u k = x :: qs ∧ x.expired = q.expired ∧ x.pkt.dest = q.pkt.dest := by
  intro u
  cases he : slotHere s die t n q with
  | some e =>
    have hslot : bufQ (takeSlot e.1 e.2 s) k = q :: qs := h
    have hu : u = setFront k { q with escAt := s.tm.fclk + 1, pkt := { q.pkt with via := viaOf e.1 e.2 } } (takeSlot e.1 e.2 s) := by
      rw [show u = _ from askTransit_here h ht hv he, takeGrant, hslot]
      rfl
    rw [hu]
    exact ⟨fun k' hk' => (bufQ_setFront hslot _ _).trans (if_neg hk'), _, (bufQ_setFront hslot _ _).trans (if_pos rfl), rfl, rfl⟩
  | none =>
    have hbufs : u.nt.bufs = s.nt.bufs := by
      rw [show u = _ from askTransit_away h ht hv he]
      exact forEach_same (fun v => v.nt.bufs) _ _ _ fun e v => askSlot_bufs die n q.pkt.sseq e v
    have hq : ∀ k', bufQ u k' = bufQ s k' := fun k' => by
      unfold bufQ
      rw [hbufs]
    exact ⟨fun k' _ => hq k', q, (hq k).trans h, rfl, rfl⟩

/-- A packet that has one slot at most to ask for, on another die, keeps its place and has asked for it. -/
theorem askTransit_remote (h : bufQ s k = q :: qs) (ht : inTransit s q.pkt = true) (hv : q.pkt.via = 0)
    (hone : (transitPorts s die t n q).length ≤ 1) (hd : ∀ e ∈ transitPorts s die t n q, portDie e.1 ≠ die) :
    let u := askTransit die t n k s
    bufQ u k = q :: qs ∧
      ∀ e ∈ transitPorts s die t n q, ∃ r ∈ u.nt.transitAsked, r.srcDie = die ∧ r.srcTile = n ∧ r.egress = e.1 ∧ r.cls = e.2 := by
  intro u
  have hnone : slotHere s die t n q = none := List.find?_eq_none.mpr fun e he => by simp [hd e he]
  have hu : u = _ := askTransit_away h ht hv hnone
  have hbufs : u.nt.bufs = s.nt.bufs := by
    rw [hu]
    exact forEach_same (fun v => v.nt.bufs) _ _ _ fun e v => askSlot_bufs die n q.pkt.sseq e v
  refine ⟨?_, fun e he => ?_⟩
  · rw [← h]
    unfold bufQ
    rw [hbufs]
  · have hlist : transitPorts s die t n q = [e] := eq_singleton_of_mem hone he
    rw [hu, hlist]
    exact askSlot_asked die n q.pkt.sseq e s (hd e he)

end

/-- The buffer an adaptive packet over a Sundi port waits in. -/
def ingressKey (s : State) (port : Nat) (p : Packet) : Nat :=
  bkey (portDie port) (physTile s (portDie port) (lnkTile (port % 6)).1) (8 + (lnkTile (port % 6)).2) (planeOf p.cls) p.vc 0

theorem transitExpire_due {s : State} {port : Nat} {p : Packet} {q : QPkt} {qs : List QPkt} (h : bufQ s (ingressKey s port p) = q :: qs)
    (hp : q.pkt = p) (ha : isAdaptive p.vc = true) (hx : q.expired = false) (ht : inTransit s p = true) (hv : p.via = 0)
    (hw : q.since + 16 * rfld s (portDie port) (tpage (physTile s (portDie port) (lnkTile (port % 6)).1) 0) 0x108 7 0 ≤ s.tm.fclk) :
    transitExpire port p s = askTransit (portDie port) (physTile s (portDie port) (lnkTile (port % 6)).1) (lnkTile (port % 6)).1
      (ingressKey s port p) (setFront (ingressKey s port p) { q with expired := true } s) := by
  unfold ingressKey at h ⊢
  unfold transitExpire
  dsimp only
  rw [h]
  refine if_pos ⟨hp, ha, ?_, ht, hv, hw⟩
  rw [hx]
  rfl

/-! ### The statement -/

/-- Settles O27: a request at its egress, a grant at its ingress, an adaptive packet's wait that is over. -/
theorem transitGrants : Obligations.TransitGrants := by
  refine ⟨fun s die tile p => ?_, fun s die tile p a => ?_, fun s port p q qs => ?_⟩
  · intro port c hd
    refine ⟨transitArrive die tile p s, rfl, changesOnly_of_clr _ _ _ (transitArrive_clr _ rfl _ _ _ _), fun hsrc hall hf => ?_,
      fun hno hf => ?_⟩
    · obtain ⟨hpool, hwait, hsent⟩ := transitArrive_grants (n := tile) hd hsrc (fun r hr => of_decide_eq_true (List.all_eq_true.mp hall r hr)) hf
      exact ⟨hpool, hwait, _, hsent, rfl, rfl, rfl⟩
    · rw [transitArrive_waits hd hno hf]
      exact ⟨rfl, rfl, rfl⟩
  · intro port c ha hd ht he hc hno hw
    refine ⟨transitGranted die tile p s, rfl, changesOnly_of_clr _ _ _ (transitGranted_clr _ rfl _ _ _ _), ?_⟩
    have hanswers : grantAnswers die tile p a = true := grantAnswers_of hd ht he hc
    have hasked : (grantTaken die tile p s).nt.transitAsked = [] := by
      rw [grantTaken, ha, takeFirst, if_pos hanswers]
    rw [transitGranted_returns ha hanswers hno hw]
    exact ⟨hasked, (look_upd 0 s.nt.poolUsed (poolKey port c) _ (· - 1)).trans (if_pos rfl), rfl⟩
  · intro die at_ tile k asks h hp ha hx ht hv hw
    have hfront : bufQ (setFront k { q with expired := true } s) k = { q with expired := true } :: qs := (bufQ_setFront h _ _).trans (if_pos rfl)
    have hset := setFront_cons h { q with expired := true }
    have htransit : inTransit (setFront k { q with expired := true } s) q.pkt = true := by
      rw [hset, hp]
      exact ht
    have hports : transitPorts (setFront k { q with expired := true } s) die tile at_.1 { q with expired := true } = asks := by
      rw [hset]
      rfl
    have hvia : q.pkt.via = 0 := by rw [hp]; exact hv
    have hone : asks.length ≤ 1 := transitPorts_escape s die tile at_.1 _ rfl
    obtain ⟨hrest, x, hx', hexp, hdest⟩ := askTransit_bufs (die := die) (t := tile) (n := at_.1) hfront htransit hvia
    refine ⟨transitExpire port p s, rfl, changesOnly_of_clr _ _ _ (transitExpire_clr _ rfl _ _ _), ?_⟩
    have hexpire : transitExpire port p s = askTransit die tile at_.1 k (setFront k { q with expired := true } s) :=
      transitExpire_due h hp ha hx ht hv hw
    rw [hexpire]
    refine ⟨?_, ?_, fun k' hk' => ?_, hone, fun haway => ?_⟩
    · rw [hx', List.map_cons, hexp]
    · rw [hx', h, List.map_cons, List.map_cons, hdest]
    · exact (hrest k' hk').trans ((bufQ_setFront h _ _).trans (if_neg hk'))
    · have hremote := askTransit_remote (die := die) (t := tile) (n := at_.1) hfront htransit hvia (by rw [hports]; exact hone)
        (by rw [hports]; exact haway)
      rw [hports] at hremote
      exact hremote

end Sys2Proof.Machine
end

section
/-! SUPPORT. Packets that arrive at a router (R126, R127, R134, R135, R149, R448, R481): what decides their way, what an arrival changes
before the packet is placed, where it is placed; O24. -/
namespace Sys2Proof.Machine

/-! ### What decides a packet's way (R143, R495) -/

section
variable {s u : State} (h : u.rg.eff = s.rg.eff)
include h

theorem hopDir_of_eff (die t dst : Nat) : hopDir u die t dst = hopDir s die t dst := by
  unfold hopDir
  rw [reg_of_eff h]

theorem egress_of_eff (die t dir lane : Nat) : egress u die t dir lane = egress s die t dir lane := reg_of_eff h _ _ _ _

theorem lanePorts_of_eff (die t d : Nat) : lanePorts u die t d = lanePorts s die t d := by
  unfold lanePorts
  simp only [rfld_of_eff h, egress_of_eff h]

theorem laneFor_of_eff (die t dir a b : Nat) : laneFor u die t dir a b = laneFor s die t dir a b := by
  unfold laneFor
  simp only [rfld_of_eff h, egress_of_eff h]

/-- The leg a packet leaves by is read from the registers in effect. -/
theorem legOf_of_eff (die t : Nat) (p : Packet) : legOf u die t p = legOf s die t p := by
  unfold legOf
  simp only [hopDir_of_eff h, lanePorts_of_eff h, laneFor_of_eff h]

theorem entryKey_of_eff (die t : Nat) (p : Packet) : entryKey u die t p = entryKey s die t p := by
  unfold entryKey
  rw [legOf_of_eff h]

end

/-! ### What an arrival changes before the packet is placed -/

/-- Two states whose routers hold the same packets, at the same cycle, over the same links. -/
structure SameRouters (s u : State) : Prop where
  tm : u.tm = s.tm
  lk : u.lk = s.lk
  bufs : u.nt.bufs = s.nt.bufs
  leaving : u.nt.leaving = s.nt.leaving
  lockMode : u.nt.lockMode = s.nt.lockMode
  sends : SendsAlike s u

section
variable {s u v : State}

theorem SameRouters.trans (h : SameRouters s u) (h' : SameRouters u v) : SameRouters s v where
  tm := h'.tm.trans h.tm
  lk := h'.lk.trans h.lk
  bufs := h'.bufs.trans h.bufs
  leaving := h'.leaving.trans h.leaving
  lockMode := h'.lockMode.trans h.lockMode
  sends := ⟨h'.sends.1.trans h.sends.1, h'.sends.2.1.trans h.sends.2.1, h'.sends.2.2.trans h.sends.2.2⟩

theorem SameRouters.bufQ_eq (h : SameRouters s u) (k : Nat) : bufQ u k = bufQ s k := by
  unfold bufQ
  rw [h.bufs]

theorem SameRouters.pkgNo_eq (h : SameRouters s u) : pkgNo u = pkgNo s := by
  unfold pkgNo
  rw [h.tm]

theorem SameRouters.modOf_eq (h : SameRouters s u) (die b m : Nat) : modOf u die b m = modOf s die b m := by
  unfold modOf
  rw [h.lk]

/-- A packet that joins a buffer is the last there. -/
theorem SameRouters.pushed (h : SameRouters s u) (k : Nat) (x : QPkt) :
    bufQ (pushBuf k x u) k = bufQ s k ++ [{ x with since := max (s.tm.fclk + 1) (leavesAt s k) }] ∧
      ∀ k', k' ≠ k → bufQ (pushBuf k x u) k' = bufQ s k' := by
  refine ⟨?_, fun k' hk' => ?_⟩
  · rw [bufQ_pushBuf, if_pos rfl, h.bufQ_eq, h.tm, leavesAt_of_nt h.leaving h.lockMode]
  · rw [bufQ_pushBuf, if_neg hk', h.bufQ_eq]

/-- The tokens and charges of nodes are no part of a router. -/
theorem SameRouters.of_charges (h : ChargesOnly s u) (htm : u.tm = s.tm) (hlk : u.lk = s.lk) (hft : u.ft = s.ft) : SameRouters s u := by
  obtain ⟨tok, ch, hnt⟩ := h
  exact ⟨htm, hlk, by rw [hnt], by rw [hnt], by rw [hnt], by rw [hnt], by rw [htm], by rw [hft]⟩

end

/-- The packet is off its wire and its flits are counted. -/
def headIn (die t port : Nat) (p : Packet) (s : State) : State :=
  flitCount die t port (planeOf p.cls) 1 (p.len + 1) { s with nt := { s.nt with wires :=
    (takeFirst (fun w : Wire => w.die = die && w.tile = t && w.port = port && w.pkt = p) s.nt.wires).2 } }

theorem headIn_same (die t port : Nat) (p : Packet) (s : State) : SameRouters s (headIn die t port p s) :=
  ⟨rfl, rfl, rfl, rfl, rfl, rfl, rfl, rfl⟩

theorem headIn_eff (die t port : Nat) (p : Packet) (s : State) : (headIn die t port p s).rg.eff = s.rg.eff := rfl

theorem headIn_frame (die t port : Nat) (p : Packet) (s : State) : ChangesOnly [.rg, .nt] s (headIn die t port p s) :=
  changesOnly_of_clr _ _ _ ((flitCount_clr _ rfl _ _ _ _ _ _ _).trans (upd_nt _ rfl s _))

theorem satCount_same (die page off n : Nat) (s : State) : SameRouters s (satCount die page off n s) :=
  ⟨rfl, rfl, rfl, rfl, rfl, rfl, rfl, rfl⟩

theorem raiseHead_same (die t b : Nat) (p : Packet) (s : State) : SameRouters s (raiseHead die t b p s) := by
  have hnt : (raiseHead die t b p s).nt = s.nt := raise_nt _ _ _ _ _ _
  have htm : (raiseHead die t b p s).tm = s.tm := raise_tm _ _ _ _ _ _
  exact ⟨htm, raise_same _ _ _ _ _ _ .lk (by decide), by rw [hnt], by rw [hnt], by rw [hnt], by rw [hnt], by rw [htm],
    raise_spare _ _ _ _ _ _⟩

/-- The tile has left LP1 if the packet is for an endpoint that wakes it (R512). -/
def tileWoken (die n : Nat) (p : Packet) (s : State) : State := doIf (wakes s die n p) (wakeTile die n) s

theorem zeroTileTokens_charges (die t : Nat) (s : State) : ChargesOnly s (zeroTileTokens die t s) := by
  unfold zeroTileTokens
  refine forEach_keeps (ChargesOnly s) _ _ _ (fun np u hu => hu.trans (setTok_charges _ _ _)) ⟨_, _, rfl⟩

theorem wakeTile_charges (die n : Nat) (s : State) : ChargesOnly s (wakeTile die n s) := by
  unfold wakeTile
  split
  · exact .trans (.of_same rfl) (zeroTileTokens_charges _ _ _)
  · exact .of_same rfl

theorem tileWoken_frame (die n : Nat) (p : Packet) (s : State) : ChangesOnly [.nt, .rs] s (tileWoken die n p s) :=
  changesOnly_of_clr _ _ _ (doIf_clr _ _ _ _ fun u => wakeTile_clr _ rfl rfl die n u)

theorem tileWoken_same (die n : Nat) (p : Packet) (s : State) : SameRouters s (tileWoken die n p s) := by
  have hframe := tileWoken_frame die n p s
  exact .of_charges (doIf_keeps (ChargesOnly s) _ _ _ (fun _ => wakeTile_charges _ _ _) (.of_same rfl)) (hframe .tm (by decide))
    (hframe .lk (by decide)) (hframe .ft (by decide))

end Sys2Proof.Machine
end

section
/-! SUPPORT. An arriving packet is placed in its buffer, or lost (R127, R134, R135, R144, R146, R149, R410, R448, R481); O24. -/
namespace Sys2Proof.Machine

/-! ### What an arrival does, event by event -/

/-- A port of a Sundi link that goes in no direction: the router takes nothing from it. -/
def mirrorEnd (s : State) (die n port : Nat) : Bool :=
  match outAttach die n port with
  | .lnk q => (match portRole (shapeOf s) (portOf die q) with | .dir _ _ => false | _ => true)
  | _ => false

/-- A port of a Sundi link. -/
def linkEnd (die n port : Nat) : Bool := match outAttach die n port with | .lnk _ => true | _ => false

/-- The router of tile n, at site t, takes packets at the port. -/
structure Takes (s : State) (die t port n : Nat) : Prop where
  site : logTile s die t = some n
  isInput : port < 10
  stands : portExists die n port = true
  routes : mirrorEnd s die n port = false

/-- Before the packet is placed: its tile has left LP1 and the context node of its leg is charged (R175, R512). -/
def readied (die t n port : Nat) (p : Packet) (s : State) : State :=
  let u := tileWoken die n p s
  doIf (inTransit u p && linkEnd die n port && hasCtx p) (chargeCtx die t p.ctx (countedLen u die t (nodePort port) p)) u

/-- A good packet is placed, and asks for a transit slot where its leg starts here. -/
def placeIn (die t n port : Nat) (q : Packet) (s : State) : State :=
  let p := ingressFix s die t n port q
  doIf (inTransit (tileWoken die n p s) p && linkEnd die n port) (askFronts die t n)
    (placePacket die t n port (inCls die n port q) p (readied die t n port p s))

/-- What each event makes of a packet that is off its wire (R410, R450, R481). -/
def arriveEvent (die t port n : Nat) (p : Packet) (e : ArrivalEvent) (s : State) : State :=
  match e with
  | .ok => placeIn die t n port p s
  | .corrected k => placeIn die t n port p (satCount die (tpage t 0) 0x130 k s)
  | .payloadEcc f => placeIn die t n port { p with why := p.why.set f 1 } s
  | .headEcc => raiseHead die t 2 p s
  | .routeParity =>
    if decide (entryKey s die t p ∈ s.nt.reloaded) then raise die 1 1 none (w32 t) s
    else placeIn die t n port p (routeParity die t p s)

section
variable {s : State} {die t port n : Nat}

theorem Takes.arrive (h : Takes s die t port n) (p : Packet) (e : ArrivalEvent) :
    arrive die t port p e s = arriveEvent die t port n p e (headIn die t port p s) := by
  have hgo : ¬ (mirrorEnd s die n port || !(decide (port < 10) && portExists die n port)) = true := by
    simp [h.routes, h.isInput, h.stands]
  unfold Machine.arrive
  rw [h.site]
  exact if_neg hgo

theorem arrive_mirror (hn : logTile s die t = some n) (h : mirrorEnd s die n port = true) (p : Packet) (e : ArrivalEvent) :
    arrive die t port p e s = s := by
  have hno : (mirrorEnd s die n port || !(decide (port < 10) && portExists die n port)) = true := by simp [h]
  unfold Machine.arrive
  rw [hn]
  exact if_pos hno

theorem exec_arrival (p : Packet) (e : ArrivalEvent) : exec (.packetArrival die t port p e) s = .next (arrive die t port p e s) := rfl

end

/-! ### Before the packet is placed -/

section
variable {s u : State} {die t n port : Nat} {p q : Packet}

/-- Waking a tile and charging a context write no register and raise nothing. -/
theorem readied_regs (die t n port : Nat) (p : Packet) (s : State) :
    (readied die t n port p s).rg.eff = s.rg.eff ∧ (readied die t n port p s).rg.pages = s.rg.pages := by
  have hw : (tileWoken die n p s).rg = s.rg := tileWoken_frame die n p s .rg (by decide)
  have hcharge : ∀ c b v, (chargeCtx die t c b v).rg.eff = v.rg.eff ∧ (chargeCtx die t c b v).rg.pages = v.rg.pages := fun c b v => by
    have hnode : (chargeNode (ctxNodeKey die t c) (ctxNode v die t c) b v).rg = v.rg := by
      unfold chargeNode
      split <;> rfl
    exact ⟨(addCount_eff _ _ _ _ _).trans (by rw [hnode]),
      (show (chargeCtx die t c b v).rg.pages = (chargeNode (ctxNodeKey die t c) (ctxNode v die t c) b v).rg.pages from rfl).trans (by rw [hnode])⟩
  unfold readied
  dsimp only
  exact ⟨(doIf_same (fun v => v.rg.eff) _ _ _ fun v => (hcharge _ _ v).1).trans (by rw [hw]),
    (doIf_same (fun v => v.rg.pages) _ _ _ fun v => (hcharge _ _ v).2).trans (by rw [hw])⟩

theorem chargeCtx_same (die t c bytes : Nat) (s : State) : SameRouters s (chargeCtx die t c bytes s) := by
  have hframe : ChangesOnly [.rg, .nt] s (chargeCtx die t c bytes s) := changesOnly_of_clr _ _ _ (chargeCtx_clr _ rfl rfl _ _ _ _ _)
  exact .of_charges (chargeCtx_charges _ _ _ _ _) (hframe .tm (by decide)) (hframe .lk (by decide)) (hframe .ft (by decide))

theorem readied_same (die t n port : Nat) (p : Packet) (s : State) : SameRouters s (readied die t n port p s) :=
  doIf_keeps (SameRouters s) _ _ _ (fun h => h.trans (chargeCtx_same _ _ _ _ _)) (tileWoken_same die n p s)

theorem readied_clr (die t n port : Nat) (p : Packet) (s : State) :
    (readied die t n port p s).clr (Mask.of [.rg, .nt, .rs]) = s.clr (Mask.of [.rg, .nt, .rs]) :=
  (doIf_clr _ _ _ _ fun v => chargeCtx_clr _ rfl rfl _ _ _ _ v).trans (doIf_clr _ _ _ _ fun v => wakeTile_clr _ rfl rfl die n v)

/-! ### Placing -/

/-- A packet that is no multicast raises no fault where it is placed. -/
theorem placePacket_quiet (hmc : p.mc = false) (cls : Nat) (s : State) :
    (placePacket die t n port cls p s).clr (Mask.of [.rg, .nt, .rs]) = s.clr (Mask.of [.rg, .nt, .rs]) := by
  have hlose : (freeTransit p (sendLoss die n 10 0x77 p s)).clr (Mask.of [.rg, .nt, .rs]) = s.clr (Mask.of [.rg, .nt, .rs]) :=
    (freeTransit_clr _ rfl _ _).trans (sendLoss_clr _ rfl _ _ _ _ _ _)
  unfold placePacket
  dsimp only
  rw [if_neg (by rw [hmc]; decide)]
  split
  · exact hlose
  · split
    · exact hlose
    · exact pushBuf_clr _ rfl _ _ _

theorem ingressFix_mc (s : State) (die t n port : Nat) (q : Packet) : (ingressFix s die t n port q).mc = q.mc := by
  unfold ingressFix
  split <;> rfl

theorem ingressFix_plain (h : linkEnd die n port = false) : ingressFix s die t n port q = q := by
  unfold linkEnd at h
  unfold ingressFix
  split
  · next hq => rw [hq] at h; cases h
  · rfl

theorem ingressFix_dest (s : State) (die t n port : Nat) (q : Packet) : (ingressFix s die t n port q).dest = q.dest := by
  unfold ingressFix
  split <;> rfl

/-- The way out of the package does not depend on the track or the PDL. -/
theorem ingressFix_leg (s v : State) (die t n port : Nat) (q : Packet) : legOf v die t (ingressFix s die t n port q) = legOf v die t q := by
  unfold ingressFix
  split <;> rfl

theorem ingressFix_buffer (s : State) (die t n port : Nat) (q : Packet) :
    planeOf (ingressFix s die t n port q).cls = planeOf q.cls ∧ (ingressFix s die t n port q).vc = q.vc := by
  unfold ingressFix
  split <;> exact ⟨rfl, rfl⟩

theorem placeIn_frame (hmc : q.mc = false) : ChangesOnly [.rg, .nt, .rs] u (placeIn die t n port q u) :=
  changesOnly_of_clr _ _ _ ((doIf_clr _ _ _ _ fun v => askFronts_clr _ rfl die t n v).trans
    ((placePacket_quiet (by rw [ingressFix_mc, hmc]) _ _).trans (readied_clr _ _ _ _ _ _)))

/-- At a port of no Sundi link a packet is placed as it came. -/
theorem placeIn_plain (h : linkEnd die n port = false) :
    placeIn die t n port q u = placePacket die t n port (inCls die n port q) q (readied die t n port q u) := by
  unfold placeIn
  dsimp only
  rw [ingressFix_plain h, h, Bool.and_false]
  rfl

/-- The buffer of an arriving packet: of the plane, VC and class it was sent with (R127). -/
def inKey (die t n port : Nat) (q : Packet) : Nat := bkey die t port (planeOf q.cls) q.vc (inCls die n port q)

/-- Packet x has joined the end of buffer k, for the outputs named; every other buffer is as before. -/
def PlacedAs (s t : State) (k : Nat) (x : Packet) (outs : List Nat) : Prop :=
  bufQ t k = bufQ s k ++ [{ pkt := x, since := max (s.tm.fclk + 1) (leavesAt s k), outs := outs }] ∧ ∀ k', k' ≠ k → bufQ t k' = bufQ s k'

/-- A packet for this package joins the end of its buffer. -/
theorem placeIn_local (h : SameRouters s u) (hmc : q.mc = false) (hpkg : aPkg q.dest = pkgNo s)
    (hstand : ∀ b m, (modOf s die b m).unplaced = false) :
    PlacedAs s (placeIn die t n port q u) (inKey die t n port q) (ingressFix u die t n port q) [] ∧
      (placeIn die t n port q u).rg.pages = u.rg.pages := by
  have hx := ingressFix_dest u die t n port q
  have hr := h.trans (readied_same die t n port (ingressFix u die t n port q) u)
  have hplaced : placeIn die t n port q u = pushBuf (inKey die t n port q) { pkt := ingressFix u die t n port q }
      (readied die t n port (ingressFix u die t n port q) u) := by
    have htransit : inTransit (tileWoken die n (ingressFix u die t n port q) u) (ingressFix u die t n port q) = false := by
      unfold inTransit
      rw [hx, (h.trans (tileWoken_same _ _ _ _)).pkgNo_eq, hpkg]
      simp
    obtain ⟨hplane, hvc⟩ := ingressFix_buffer u die t n port q
    unfold placeIn inKey
    dsimp only
    rw [htransit, Bool.false_and, doIf_false, placePacket_local _ _ _ _ _ _ _ (by rw [ingressFix_mc, hmc])
      (by rw [hx, hr.pkgNo_eq, hpkg]) (fun b m => by rw [hr.modOf_eq, hstand]), hplane, hvc]
  rw [hplaced]
  exact ⟨hr.pushed _ _, (readied_regs _ _ _ _ _ _).2⟩

/-- A packet for another package that no leg can carry joins no buffer; its requester is told (R448). -/
theorem placeIn_lost (hend : linkEnd die n port = false) (heff : u.rg.eff = s.rg.eff) (h : SameRouters s u) (hmc : q.mc = false)
    (hpkg : aPkg q.dest ≠ pkgNo s) (hleg : legOf s die t q = none) (hlog : q.cls ≠ .log) (hmgmt : q.cls ≠ .mgmt) (hvia : q.via = 0) :
    (placeIn die t n port q u).nt.bufs = s.nt.bufs ∧
      ∃ x, Sent s (placeIn die t n port q u) die n 10 x ∧ x.dest = lossTo q ∧ x.sseq = q.sseq ∧ x.operand = 0x77 := by
  have hr := h.trans (readied_same die t n port q u)
  generalize hv : readied die t n port q u = v at hr
  have hvleg : legOf v die t q = none := by
    rw [← hv, legOf_of_eff ((readied_regs _ _ _ _ _ _).1.trans heff), hleg]
  have hnear : towardLost v die t n q = false := by
    unfold towardLost targetOf
    rw [if_neg (by rw [hr.pkgNo_eq]; exact hpkg), hvleg]
    rfl
  have hplaced : placeIn die t n port q u = sendFrom die n 10 (lossRsp v die n 0x77 q) v := by
    rw [placeIn_plain hend, hv]
    unfold placePacket
    dsimp only
    rw [if_neg (by rw [hmc]; decide), hnear, if_neg (by decide), if_pos ⟨by rw [hr.pkgNo_eq]; exact hpkg, by rw [hvleg]; rfl⟩]
    unfold freeTransit sendLoss
    rw [if_neg (by simp [hvia]), if_pos (by simp [awaited, hmc, hlog, hmgmt])]
  rw [hplaced]
  exact ⟨hr.bufs, _, hr.sends.sent _ _ _ _, rfl, rfl, rfl⟩

/-- A multicast packet waits for the outputs of its tree entry, or finds the entry empty (R149, R151). -/
theorem placeIn_multicast (hend : linkEnd die n port = false) (heff : u.rg.eff = s.rg.eff) (h : SameRouters s u) (hmc : q.mc = true) :
    let w := rfld s die (tpage t 1) 0x12C 11 0 (bits q.dest.toNat 11 0)
    (w ≠ 0 → PlacedAs s (placeIn die t n port q u) (inKey die t n port q) q ((List.range 12).filter fun o => w.testBit o)) ∧
      (w = 0 → (placeIn die t n port q u).nt.bufs = s.nt.bufs ∧ Shows (placeIn die t n port q u) die (tpage t 0) 4) := by
  intro w
  have hr := h.trans (readied_same die t n port q u)
  have hw : rfld (readied die t n port q u) die (tpage t 1) 0x12C 11 0 (bits q.dest.toNat 11 0) = w :=
    rfld_of_eff ((readied_regs _ _ _ _ _ _).1.trans heff) _ _ _ _ _ _
  rw [placeIn_plain hend]
  unfold placePacket
  dsimp only
  rw [if_pos hmc, hw]
  refine ⟨fun hne => ?_, fun h0 => ?_⟩
  · rw [if_neg hne]
    exact hr.pushed _ _
  · rw [if_pos h0]
    obtain ⟨hnt, hshows, -⟩ := raiseHead_effect die t 4 q (readied die t n port q u) (by decide)
    exact ⟨by rw [hnt, hr.bufs], hshows⟩

/-- A packet that goes on to another package joins the end of its buffer; asking for transit slots moves no packet (R146). -/
theorem placeIn_onward (heff : u.rg.eff = s.rg.eff) (h : SameRouters s u) (hmc : q.mc = false) (hleg : legOf s die t q ≠ none)
    (hstand : ∀ b m, (modOf s die b m).unplaced = false) :
    let t' := placeIn die t n port q u
    (bufQ t' (inKey die t n port q)).map (·.pkt.dest) = (bufQ s (inKey die t n port q)).map (·.pkt.dest) ++ [q.dest] ∧
      ∀ k', k' ≠ inKey die t n port q → (bufQ t' k').map (·.pkt.dest) = (bufQ s k').map (·.pkt.dest) := by
  intro t'
  generalize hx : ingressFix u die t n port q = x
  have hr := h.trans (readied_same die t n port x u)
  have hvleg : legOf (readied die t n port x u) die t x ≠ none := by
    rw [legOf_of_eff ((readied_regs _ _ _ _ _ _).1.trans heff), ← hx, ingressFix_leg]
    exact hleg
  have hplaced : placePacket die t n port (inCls die n port q) x (readied die t n port x u) =
      pushBuf (inKey die t n port q) { pkt := x } (readied die t n port x u) := by
    obtain ⟨hplane, hvc⟩ := ingressFix_buffer u die t n port q
    unfold placePacket inKey
    dsimp only
    rw [if_neg (by rw [← hx, ingressFix_mc, hmc]; decide), towardLost_none _ _ _ _ _ (fun b m => by rw [hr.modOf_eq, hstand]),
      if_neg (by decide), if_neg (fun hno => hvleg (Option.isNone_iff_eq_none.mp hno.2)), ← hx, hplane, hvc]
  have hview : routerView t' = routerView (pushBuf (inKey die t n port q) { pkt := x } (readied die t n port x u)) := by
    rw [← hplaced, ← hx]
    exact doIf_same routerView _ _ _ fun v => askFronts_view die t n v
  have hdest : ∀ k', (bufQ t' k').map (·.pkt.dest) =
      (bufQ (pushBuf (inKey die t n port q) { pkt := x } (readied die t n port x u)) k').map (·.pkt.dest) := fun k' => by
    have hnames : ∀ qs : List QPkt, qs.map (·.pkt.dest) = (qs.map nameOf).map (·.1) := fun qs => by
      rw [List.map_map]; rfl
    obtain ⟨-, -, hsame⟩ := SameQueues.of_view hview
    rw [hnames, hnames, hsame k']
  obtain ⟨hmine, hothers⟩ := hr.pushed (inKey die t n port q) { pkt := x }
  refine ⟨?_, fun k' hk' => by rw [hdest, hothers k' hk']⟩
  rw [hdest, hmine, List.map_append, ← hx]
  simp [ingressFix_dest]

end

end Sys2Proof.Machine
end

section
/-! SUPPORT. PACKET_ARRIVAL at a mesh or bridge port and at the router port of a Sundi link (R127, R410, R450, R481); O24. -/
namespace Sys2Proof.Machine

section
variable {s : State} {die t port n q : Nat} {p : Packet}

/-! ### The ports -/

theorem plain_ends (h : ∀ q, outAttach die n port ≠ .lnk q) (s : State) : linkEnd die n port = false ∧ mirrorEnd s die n port = false := by
  unfold linkEnd mirrorEnd
  cases hq : outAttach die n port with
  | lnk q => exact absurd hq (h q)
  | module b m => exact ⟨rfl, rfl⟩
  | none => exact ⟨rfl, rfl⟩

theorem plain_takes (hn : logTile s die t = some n) (hp : port < 10) (hx : portExists die n port = true)
    (h : ∀ q, outAttach die n port ≠ .lnk q) : Takes s die t port n := ⟨hn, hp, hx, (plain_ends h s).2⟩

theorem link_port (h : outAttach die n port = .lnk q) : port < 10 ∧ portExists die n port = true := by
  have hport : port = 8 ∨ port = 9 := by
    by_contra hno
    rw [outAttach_none die n port (by omega) (by omega)] at h
    cases h
  rcases hport with rfl | rfl <;> exact ⟨by decide, by simp [portExists, h]⟩

theorem link_mirror (hn : logTile s die t = some n) (h : outAttach die n port = .lnk q)
    (hm : ∀ d l, portRole (shapeOf s) (portOf die q) ≠ .dir d l) (p : Packet) (e : ArrivalEvent) : arrive die t port p e s = s := by
  refine arrive_mirror hn ?_ p e
  unfold mirrorEnd
  rw [h]
  dsimp only
  split
  · next d l hr => exact absurd hr (hm d l)
  · rfl

theorem link_takes (hn : logTile s die t = some n) (h : outAttach die n port = .lnk q) {d l : Nat}
    (hd : portRole (shapeOf s) (portOf die q) = .dir d l) : Takes s die t port n :=
  ⟨hn, (link_port h).1, (link_port h).2, by unfold mirrorEnd; rw [h]; dsimp only; rw [hd]⟩

/-- Over a Sundi link the class is the PDL the packet was sent with (R127). -/
theorem link_class (h : outAttach die n port = .lnk q) (p : Packet) : inCls die n port p = if isAdaptive p.vc then 0 else b2n p.pdl := by
  unfold inCls downCls
  rw [h]

/-- A packet that goes on in no direction from here takes PDL 0 and the home track (R126, R144). -/
theorem link_fix (h : outAttach die n port = .lnk q) (hend : hopDir s die t (aPkg p.dest) = none) :
    ingressFix s die t n port p = { p with pdl := false, track := homeTrack die n } := by
  unfold ingressFix
  rw [h]
  dsimp only
  rw [hend]
  cases portRole (shapeOf s) (portOf die q) <;> simp

/-! ### The events -/

/-- A packet that is placed, corrected or marked as it may be, changes registers, the network and which tiles sleep alone. -/
theorem arrive_good (h : Takes s die t port n) (hmc : p.mc = false) : ChangesOnly [.rg, .nt, .rs] s (arrive die t port p .ok s) ∧
    (∀ c, ChangesOnly [.rg, .nt, .rs] s (arrive die t port p (.corrected c) s)) ∧
    ∀ f, ChangesOnly [.rg, .nt, .rs] s (arrive die t port p (.payloadEcc f) s) := by
  have hhead : ChangesOnly [.rg, .nt, .rs] s (headIn die t port p s) := changesOnly_of_clr _ _ _
    ((flitCount_clr _ rfl _ _ _ _ _ _ _).trans (upd_nt _ rfl s _))
  have hcount : ∀ c u, ChangesOnly [.rg, .nt, .rs] u (satCount die (tpage t 0) 0x130 c u) := fun c u =>
    changesOnly_of_clr _ _ _ (satCount_clr _ rfl _ _ _ _ _)
  refine ⟨?_, fun c => ?_, fun f => ?_⟩ <;> rw [h.arrive]
  · exact hhead.trans (placeIn_frame hmc)
  · exact (hhead.trans (hcount c _)).trans (placeIn_frame hmc)
  · exact hhead.trans (placeIn_frame (q := { p with why := p.why.set f 1 }) hmc)

/-- A packet for this package, at a port of no Sundi link, is placed as it came, however its error was corrected or marked. -/
theorem arrive_local (h : Takes s die t port n) (hend : linkEnd die n port = false) (hmc : p.mc = false) (hpkg : aPkg p.dest = pkgNo s)
    (hstand : ∀ b m, (modOf s die b m).unplaced = false) :
    PlacedAs s (arrive die t port p .ok s) (inKey die t n port p) p [] ∧
      (∀ c, PlacedAs s (arrive die t port p (.corrected c) s) (inKey die t n port p) p []) ∧
      (∀ f, PlacedAs s (arrive die t port p (.payloadEcc f) s) (inKey die t n port p) { p with why := p.why.set f 1 } []) ∧
      (entryKey s die t p ∉ s.nt.reloaded → PlacedAs s (arrive die t port p .routeParity s) (inKey die t n port p) p [] ∧
        Shows (arrive die t port p .routeParity s) die (tpage t 0) 3) := by
  have hplain : ∀ x u, SameRouters s u → x.mc = false → aPkg x.dest = pkgNo s →
      PlacedAs s (placeIn die t n port x u) (inKey die t n port x) x [] ∧ (placeIn die t n port x u).rg.pages = u.rg.pages :=
    fun x u hu hx hd => by
      have hplaced := placeIn_local (n := n) (die := die) (t := t) (port := port) hu hx hd hstand
      rwa [ingressFix_plain hend] at hplaced
  have hhead := headIn_same die t port p s
  refine ⟨?_, fun c => ?_, fun f => ?_, fun hnew => ?_⟩ <;> rw [h.arrive]
  · exact (hplain p _ hhead hmc hpkg).1
  · exact (hplain p _ (hhead.trans (satCount_same _ _ _ _ _)) hmc hpkg).1
  · exact (hplain { p with why := p.why.set f 1 } _ hhead hmc hpkg).1
  · have hkey : entryKey (headIn die t port p s) die t p ∉ (headIn die t port p s).nt.reloaded := by
      rwa [entryKey_of_eff (headIn_eff die t port p s)]
    generalize hu : headIn die t port p s = u at hkey hhead
    have hevent : arriveEvent die t port n p .routeParity u = placeIn die t n port p
        (raiseHead die t 3 p { u with nt := { u.nt with reloaded := u.nt.reloaded ++ [entryKey u die t p] } }) := by
      unfold arriveEvent routeParity
      dsimp only
      rw [if_neg (by simpa using hkey), if_neg (by simpa using hkey)]
    have hnoted : SameRouters u { u with nt := { u.nt with reloaded := u.nt.reloaded ++ [entryKey u die t p] } } :=
      ⟨rfl, rfl, rfl, rfl, rfl, rfl, rfl, rfl⟩
    obtain ⟨hplaced, hpages⟩ := hplain p _ ((hhead.trans hnoted).trans (raiseHead_same die t 3 p _)) hmc hpkg
    obtain ⟨-, hshows, -⟩ := raiseHead_effect die t 3 p
      { u with nt := { u.nt with reloaded := u.nt.reloaded ++ [entryKey u die t p] } } (by decide)
    rw [hevent]
    refine ⟨hplaced, ?_⟩
    unfold Shows pageOf at hshows ⊢
    rwa [hpages]

/-- A header error discards the packet with FAULT_HEAD; a repeated route parity error is TILE_DEAD (R450, R481). -/
theorem arrive_discards (h : Takes s die t port n) (p : Packet) :
    ((arrive die t port p .headEcc s).nt.bufs = s.nt.bufs ∧ Shows (arrive die t port p .headEcc s) die (tpage t 0) 2 ∧
      reg (arrive die t port p .headEcc s) die (tpage t 0) 0x128 = lo32 p.dest ∧
      reg (arrive die t port p .headEcc s) die (tpage t 0) 0x12C = hi32 p.dest) ∧
    (entryKey s die t p ∈ s.nt.reloaded →
      (arrive die t port p .routeParity s).nt.bufs = s.nt.bufs ∧ Shows (arrive die t port p .routeParity s) die 1 1) := by
  refine ⟨?_, fun hagain => ?_⟩ <;> rw [h.arrive]
  · obtain ⟨hnt, hfault⟩ := raiseHead_effect die t 2 p (headIn die t port p s) (by decide)
    have hbufs : (raiseHead die t 2 p (headIn die t port p s)).nt.bufs = s.nt.bufs := by rw [hnt]; rfl
    exact ⟨hbufs, hfault⟩
  · have hevent : arriveEvent die t port n p .routeParity (headIn die t port p s) = raise die 1 1 none (w32 t) (headIn die t port p s) := by
      refine if_pos (decide_eq_true ?_)
      rwa [entryKey_of_eff (headIn_eff die t port p s)]
    rw [hevent]
    exact ⟨by rw [raise_nt]; rfl, raise_bit _ _ _ _ _ _ (by decide)⟩

end

/-! ### The statement -/

/-- Settles O24. An arrival takes the packet off its wire, which leaves the routers as they were, and places it, replaces it or raises its
fault by its event. -/
theorem packetsArriveInTheirBuffers : Obligations.PacketsArriveInTheirBuffers := by
  unfold Obligations.PacketsArriveInTheirBuffers
  refine ⟨fun s die tile port p e => exec_frame _ s, fun s die tile port n p hn hp hx hplain hstand => ?_,
    fun s die tile port n q p hn hlnk hmc hstand => ?_⟩
  · have h := plain_takes hn hp hx hplain
    obtain ⟨hend, -⟩ := plain_ends hplain s
    have hhead := headIn_same die tile port p s
    intro kq placed
    refine ⟨fun hmc hpkg => ?_, fun hmc hpkg hleg hlog hmgmt hvia => ⟨_, exec_arrival p .ok, ?_⟩, ⟨_, exec_arrival p .headEcc, ?_⟩,
      fun hagain => ⟨_, exec_arrival p .routeParity, (arrive_discards h p).2 hagain⟩, fun hmc => ⟨_, exec_arrival p .ok, ?_⟩⟩
    · obtain ⟨hok, hcorrected, hmarked, hparity⟩ := arrive_local h hend hmc hpkg hstand
      obtain ⟨hframe, hframeC, hframeF⟩ := arrive_good h hmc
      exact ⟨⟨_, exec_arrival p .ok, hframe, hok⟩, fun c => ⟨_, exec_arrival p (.corrected c), hframeC c, hcorrected c⟩,
        fun f => ⟨_, exec_arrival p (.payloadEcc f), hframeF f, hmarked f⟩, fun hnew => ⟨_, exec_arrival p .routeParity, hparity hnew⟩⟩
    · rw [h.arrive]
      exact placeIn_lost hend (headIn_eff die tile port p s) hhead hmc hpkg hleg hlog hmgmt hvia
    · exact (arrive_discards h p).1
    · rw [h.arrive]
      exact placeIn_multicast hend (headIn_eff die tile port p s) hhead hmc
  · refine ⟨_, exec_arrival p .ok, ?_, fun hm => link_mirror hn hlnk hm p .ok, fun d l hd => ?_⟩
    · by_cases hm : ∀ d l, portRole (shapeOf s) (portOf die q) ≠ .dir d l
      · rw [link_mirror hn hlnk hm p .ok]
        exact .refl _ _
      · simp only [not_forall, not_not] at hm
        obtain ⟨d, l, hd⟩ := hm
        exact (arrive_good (link_takes hn hlnk hd) hmc).1
    · have hhead := headIn_same die tile port p s
      have heff := headIn_eff die tile port p s
      have hk : bkey die tile port (planeOf p.cls) p.vc (if isAdaptive p.vc then 0 else b2n p.pdl) = inKey die tile n port p := by
        unfold inKey
        rw [link_class hlnk]
      intro k
      rw [show k = inKey die tile n port p from hk, (link_takes hn hlnk hd).arrive]
      refine ⟨fun hpkg hdir => ?_, fun _ hleg => placeIn_onward heff hhead hmc hleg hstand⟩
      have hplaced := (placeIn_local (n := n) (die := die) (t := tile) (port := port) hhead hmc hpkg hstand).1
      rwa [link_fix hlnk (by rw [hopDir_of_eff heff, hdir])] at hplaced

end Sys2Proof.Machine
end

section
/-! SUPPORT. READ_DATA, WRITE_ACK and STATUS at a CIP (R118, R381, R482, R559, R586); O47. -/
namespace Sys2Proof.Machine

/-! ### What a response does at a CIP -/

section
variable {s : State} {die n : Nat} {p : Packet}

/-- While a quiesce covers the CIP its responses are discarded and counted (R482). -/
theorem responses_fenced (hh : toHost die n p = none) (hf : fenced s die n = true) (hport : aPort p.dest = 0) :
    ∀ i ∈ [Instr.readData die n p, .writeAck die n p, .status die n p], exec i s = .next (cipCount die n 6 (consume die n p s)) := by
  have hdrop : ∀ f, cipAnswer die n p f s = cipCount die n 6 (consume die n p s) := fun f => if_pos hf
  have hread : readDataAt die n p s = cipCount die n 6 (consume die n p s) := by
    unfold readDataAt
    rw [hh]
    exact hdrop _
  have hwrite : writeAckAt die n p s = cipCount die n 6 (consume die n p s) := by
    unfold writeAckAt
    rw [hh]
    exact hdrop _
  have hstatus : statusAt die n p s = cipCount die n 6 (consume die n p s) := by
    unfold statusAt
    rw [hh, hport]
    exact (if_neg (by omega)).trans ((if_neg (by omega)).trans (hdrop _))
  intro i hi
  simp only [List.mem_cons, List.not_mem_nil, or_false] at hi
  rcases hi with rfl | rfl | rfl
  · exact congrArg _ hread
  · exact congrArg _ hwrite
  · exact congrArg _ hstatus

theorem cipAnswer_open (hf : fenced s die n = false) (f : State → State) : cipAnswer die n p f s = settleTile die n (f (consume die n p s)) :=
  if_neg (show ¬ fenced s die n = true by rw [hf]; decide)

section
variable (hh : toHost die n p = none) (hf : fenced s die n = false)
include hh hf

theorem readData_clean (hclean : poisonStatus p = 0) :
    exec (.readData die n p) s = .next (settleTile die n (readAnswered die n p 0 p.payload (consume die n p s))) := by
  refine congrArg _ (show readDataAt die n p s = _ from ?_)
  unfold readDataAt
  rw [hh]
  dsimp only
  rw [cipAnswer_open hf, marked, if_neg (not_not.mpr hclean)]

theorem writeAck_clean : exec (.writeAck die n p) s = .next (settleTile die n (writeAnswered die n p (consume die n p s))) := by
  refine congrArg _ (show writeAckAt die n p s = _ from ?_)
  unfold writeAckAt
  rw [hh]
  exact cipAnswer_open hf _

/-- A STATUS in answer to a memory request (R118). -/
theorem status_clean (hclean : poisonStatus p = 0) (hport : aPort p.dest = 0) (hop : p.opcode = 0x8F) : exec (.status die n p) s =
    .next (settleTile die n (readAnswered die n p (bits p.operand.toNat 7 0) [] (consume die n p s))) := by
  have hcode : cipStatus die n p (consume die n p s) = readAnswered die n p (bits p.operand.toNat 7 0) [] (consume die n p s) := by
    unfold cipStatus
    rw [hop, hclean]
    rfl
  refine congrArg _ (show statusAt die n p s = _ from ?_)
  unfold statusAt
  rw [hh, hport]
  rw [← hcode]
  exact (if_neg (by omega)).trans ((if_neg (by omega)).trans (cipAnswer_open hf _))

end

/-! ### Fetches (R559) -/

theorem readAnswered_fetch (hc : p.cls = .fetch) (hq : ∃ f ∈ (cipOf s die n).fetches, f.sseq = p.sseq) (code : Nat) (data : List Byte) :
    readAnswered die n p code data s =
      fetchDone die n (p.flags.toNat % 128) p.sseq code (if code = 0 then padTo 64 data else []) s := by
  obtain ⟨f, hmem, hf⟩ := hq
  unfold readAnswered
  rw [if_pos hc, if_pos (List.any_eq_true.mpr ⟨f, hmem, decide_eq_true hf⟩)]

/-- The fetch is no longer out, and is answered. -/
theorem fetchDone_effect (st : Nat) (q : BitVec 16) (code : Nat) (data : List Byte) (s : State) :
    (cipOf (fetchDone die n st q code data s) die n).fetches = (cipOf s die n).fetches.filter (fun f => decide (f.sseq ≠ q)) ∧
      (fetchDone die n st q code data s).out = s.out ++ [.fetchRsp die n st code data] := by
  refine ⟨?_, rfl⟩
  change (cipOf (modCip die n _ s) die n).fetches = _
  rw [cipOf_modCip_same]

/-! ### Descriptors (R381, R586) -/

variable {d : Desc} {id : Nat}

theorem readAnswered_desc (hc : p.cls ≠ .fetch) (h2 : p.flags ≠ 2) (h3 : p.flags ≠ 3) (hd : descOfReq s die n p.sseq = some d) (code : Nat)
    (data : List Byte) : readAnswered die n p code data s =
      if code ≠ 0 then descStatus die n d code s else if d.phase = .reading then pieceRead die n d.id data s else s := by
  unfold readAnswered
  rw [if_neg hc, if_neg h2, if_neg h3, hd]

theorem writeAnswered_desc (hclean : poisonStatus p = 0) (hd : descOfReq s die n p.sseq = some d) (hw : d.phase = .writing) :
    writeAnswered die n p s = pieceWritten die n d.id s := by
  unfold writeAnswered
  rw [hd]
  dsimp only
  rw [if_neg (not_not.mpr hclean), if_pos hw]

theorem descAt_requesting (h : descAt s die n id = some d) :
    descAt (requesting die n id s) die n id = some (asked (cipOf s die n).reqSeq d) := by
  refine descAt_modDesc die n id _ (fun _ => rfl) ?_
  unfold descAt at h ⊢
  rw [takeSeq, cipOf_modCip_same]
  exact h

theorem request_sends {q : Packet} (hd : descAt s die n id = some d) (hk : d.kind ≠ 2)
    (hq : phaseReq (takeSeq die n s).2 die n d (cipOf s die n).reqSeq = some q) :
    request die n id s = sendFrom die n 10 q (requesting die n id s) := by
  have hseq : (takeSeq die n s).1 = (cipOf s die n).reqSeq := rfl
  unfold request
  rw [hd]
  dsimp only
  rw [hseq, hq]
  exact if_neg hk

/-- A descriptor of no multicast asks for its phase's request under the CIP's next number (R381). -/
theorem request_effect {u : State} {q : Packet} (hs : SendsAlike s u) (hd : descAt u die n id = some d) (hk : d.kind ≠ 2)
    (hq : phaseReq (takeSeq die n u).2 die n d (cipOf u die n).reqSeq = some q) :
    ChangesOnly [.nt, .ci] u (request die n id u) ∧ descAt (request die n id u) die n id = some (asked (cipOf u die n).reqSeq d) ∧
      SentAll s (request die n id u) die n 10 q.cls [q] := by
  rw [request_sends hd hk hq]
  refine ⟨changesOnly_of_clr _ _ _ ?_, descAt_requesting hd, ?_⟩
  · exact (sendFrom_clr _ rfl _ _ _ _ _).trans ((modDesc_clr _ rfl _ _ _ _ _).trans (takeSeq_clr _ rfl _ _ _))
  · have hreq : SendsAlike s (requesting die n id u) := hs
    exact (hreq.sent die n 10 q).all

/-! ### A COPY from piece to piece (R381) -/

/-- A descriptor that holds the bytes of its piece. -/
def pieceHeld (bs : List Byte) (d : Desc) : Desc := { d with phase := .writing, data := bs, nacks := 0 }

/-- A descriptor whose piece has been written. -/
def pieceDone (d : Desc) : Desc := { d with nacks := 0, header := false, pos := if d.header then d.pos else d.pos + d.len, data := [] }

theorem pieceRead_copy (hd : descAt s die n id = some d) (hk : d.kind = 1) (bs : List Byte) :
    pieceRead die n id bs s = request die n id (modDesc die n id (pieceHeld (padTo d.len bs)) s) := by
  unfold pieceRead
  rw [hd]
  dsimp only
  rw [hk]
  rfl

theorem pieceWritten_more (hd : descAt s die n id = some d) (hh : d.header = false) (hmore : d.pos + d.len < dLen d.bytes) :
    pieceWritten die n id s = request die n id (modDesc die n id pieceChosen (modDesc die n id pieceDone s)) := by
  unfold pieceWritten
  rw [hd]
  dsimp only
  rw [hh, if_neg (by simpa using hmore)]
  rfl

theorem finishDesc_plain (hd : descAt s die n id = some d) (hk : d.kind ≠ 2) (code : Nat) :
    finishDesc die n id code s = closeDesc die n id code s := by
  unfold finishDesc
  rw [hd]
  exact if_neg hk

theorem finishWrites_copy (hd : descAt s die n id = some d) (hk : d.kind = 1) (hfl : dFlags d.bytes = 0) :
    finishWrites die n id s = closeDesc die n id 0 s := by
  unfold finishWrites
  rw [hd]
  dsimp only
  rw [if_neg (by omega), if_neg (by omega), finishDesc_plain hd (by omega)]

theorem pieceWritten_last (hd : descAt s die n id = some d) (hk : d.kind = 1) (hh : d.header = false)
    (hlast : dLen d.bytes ≤ d.pos + d.len) (hfl : dFlags d.bytes = 0) :
    pieceWritten die n id s = closeDesc die n id 0 (modDesc die n id pieceDone s) := by
  have hdone : descAt (modDesc die n id pieceDone s) die n id = some (pieceDone d) := descAt_modDesc die n id _ (fun _ => rfl) hd
  rw [← finishWrites_copy hdone hk hfl]
  unfold pieceWritten
  rw [hd]
  dsimp only
  rw [hh, if_pos (by simpa using hlast)]
  rfl

theorem descStatus_again (code : Nat) (hcode : code = 0x20 ∧ d.nacks + 1 < 16) (s : State) :
    descStatus die n d code s = modDesc die n d.id (fun d => { d with nacks := d.nacks + 1, again := true }) s := if_pos hcode

theorem descStatus_ends (hd : descAt s die n d.id = some d) (hk : d.kind ≠ 2) {code : Nat} (hcode : ¬ (code = 0x20 ∧ d.nacks + 1 < 16)) :
    descStatus die n d code s = closeDesc die n d.id code s := (if_neg hcode).trans (finishDesc_plain hd hk code)

/-- A descriptor of no multicast that completes is gone, with its record in the completion queue where an entry is reserved (R380). -/
theorem closeDesc_plain {code : Nat} (hd : descAt s die n id = some d) (hk : d.kind ≠ 2) :
    (∀ y ∈ (cipOf (closeDesc die n id code s) die n).descs, y.id ≠ id) ∧ (closeDesc die n id code s).nt.inject = s.nt.inject ∧
      ∀ r, cqOf s die n d.ctx = some r → (queueOf s die n r).resv ≠ 0 →
        ∃ e, (queueOf (closeDesc die n id code s) die n r).visible = (queueOf s die n r).visible ++ [e] ∧
          e.data = record16 (dTag d.bytes) 6 0 code 0 (pressOf s die % 2 ^ 32) := by
  refine ⟨closeDesc_gone die n id code s, ?_, fun r hr hresv => ?_⟩ <;> rw [closeDesc_some die n id hd]
  · exact (((OnlyCipsDiffer.refl s).modCip die n (withoutDesc id)).cqRecord die n d.ctx _).same (·.nt.inject) fun _ _ _ => rfl
  · have hsame : queueOf (modCip die n (withoutDesc id) s) die n r = queueOf s die n r := by
      unfold queueOf
      rw [cipOf_modCip_same]
      rfl
    rw [if_neg hk, ← hsame]
    obtain ⟨e, hdata, hvis⟩ := cqRecord_written die n (record16 (dTag d.bytes) 6 0 code 0 (pressOf s die % 2 ^ 32))
      (modCip die n (withoutDesc id) s) hr (by rw [hsame]; exact hresv)
    exact ⟨e, hvis, hdata⟩

end

/-! ### The answers to a COPY's requests, from a state in which the response has left the network -/

section
variable {s : State} {die n : Nat} {d : Desc}

theorem queueOf_modDesc (f : Desc → Desc) (id q : Nat) (s : State) : queueOf (modDesc die n id f s) die n q = queueOf s die n q := by
  unfold queueOf
  rw [cipOf_modDesc]

/-- READ_DATA: the piece goes on to its destination. -/
theorem copy_read (hd : descAt s die n d.id = some d) (hk : d.kind = 1) (hh : d.header = false) (bs : List Byte) :
    let q := (cipOf s die n).reqSeq
    let u := pieceRead die n d.id bs s
    ChangesOnly [.nt, .ci] s u ∧
      descAt u die n d.id = some { d with phase := .writing, data := padTo d.len bs, nacks := 0, sseq := q, again := false } ∧
      SentAll s u die n 10 .bulk [bulkReq s die n d.ctx 1 (w64 ((dDst d.bytes).toNat + d.pos)) q (d.len + 1024) (padTo d.len bs)] := by
  intro q u
  have hheld : descAt (modDesc die n d.id (pieceHeld (padTo d.len bs)) s) die n d.id = some (pieceHeld (padTo d.len bs) d) :=
    descAt_modDesc die n d.id _ (fun _ => rfl) hd
  have hseq : (cipOf (modDesc die n d.id (pieceHeld (padTo d.len bs)) s) die n).reqSeq = q := reqSeq_modDesc _ _ _ _ _
  have hreq : phaseReq (takeSeq die n (modDesc die n d.id (pieceHeld (padTo d.len bs)) s)).2 die n (pieceHeld (padTo d.len bs) d) q =
      some (bulkReq s die n d.ctx 1 (w64 ((dDst d.bytes).toNat + d.pos)) q (d.len + 1024) (padTo d.len bs)) := by
    have hdst : pieceDst (pieceHeld (padTo d.len bs) d) = (dDst d.bytes).toNat + d.pos := by
      simp only [pieceDst, pieceHeld, hk]
    have hdata : pieceData (pieceHeld (padTo d.len bs) d) = padTo d.len bs := if_neg (by simp [pieceHeld, hk])
    unfold phaseReq
    simp only [pieceHeld, hh, Bool.false_eq_true, if_false] at hdst hdata ⊢
    rw [hdst, hdata, length_padTo]
    rfl
  obtain ⟨hframe, hdesc, hsent⟩ := request_effect (s := s)
    (u := modDesc die n d.id (pieceHeld (padTo d.len bs)) s) ⟨rfl, rfl, rfl⟩ hheld (by simp [pieceHeld, hk]) (by rw [hseq]; exact hreq)
  rw [← pieceRead_copy hd hk] at hframe hdesc hsent
  rw [hseq] at hdesc
  exact ⟨.trans (changesOnly_of_clr _ _ _ (modDesc_clr _ rfl _ _ _ _ _)) hframe, hdesc, hsent⟩

/-- WRITE_ACK before the last piece: the next one is read. -/
theorem copy_goes_on (hd : descAt s die n d.id = some d) (hk : d.kind = 1) (hh : d.header = false)
    (hmore : d.pos + d.len < dLen d.bytes) :
    let q := (cipOf s die n).reqSeq
    let k := pieceLen { d with pos := d.pos + d.len }
    let u := pieceWritten die n d.id s
    ChangesOnly [.nt, .ci] s u ∧
      descAt u die n d.id =
        some { d with phase := .reading, pos := d.pos + d.len, len := k, data := [], nacks := 0, sseq := q, again := false } ∧
      SentAll s u die n 10 .bulk [bulkReq s die n d.ctx 0 (dSrc d.bytes + w64 (d.pos + d.len)) q k []] := by
  intro q k u
  have hnext : pieceChosen (pieceDone d) = { d with phase := .reading, pos := d.pos + d.len, len := k, data := [], nacks := 0 } := by
    have hdone : pieceDone d = { d with pos := d.pos + d.len, data := [], nacks := 0 } := by simp [pieceDone, hh]
    rw [hdone]
    simp only [pieceChosen, hh, k]
    rfl
  have hchosen : descAt (modDesc die n d.id pieceChosen (modDesc die n d.id pieceDone s)) die n d.id = some (pieceChosen (pieceDone d)) :=
    descAt_modDesc die n d.id _ (fun _ => rfl) (descAt_modDesc die n d.id _ (fun _ => rfl) hd)
  have hseq : (cipOf (modDesc die n d.id pieceChosen (modDesc die n d.id pieceDone s)) die n).reqSeq = q :=
    (reqSeq_modDesc _ _ _ _ _).trans (reqSeq_modDesc _ _ _ _ _)
  rw [hnext] at hchosen
  obtain ⟨hframe, hdesc, hsent⟩ := request_effect (s := s)
    (u := modDesc die n d.id pieceChosen (modDesc die n d.id pieceDone s))
    (q := bulkReq s die n d.ctx 0 (dSrc d.bytes + w64 (d.pos + d.len)) q k []) ⟨rfl, rfl, rfl⟩ hchosen (by simp [hk]) (by rw [hseq]; rfl)
  rw [← pieceWritten_more hd hh hmore] at hframe hdesc hsent
  rw [hseq] at hdesc
  exact ⟨.trans (changesOnly_of_clr _ _ _ ((modDesc_clr _ rfl _ _ _ _ _).trans (modDesc_clr _ rfl _ _ _ _ _))) hframe, hdesc, hsent⟩

/-- WRITE_ACK of the last piece: the descriptor completes with its record (R380, R381). -/
theorem copy_completes (hd : descAt s die n d.id = some d) (hk : d.kind = 1) (hh : d.header = false)
    (hlast : dLen d.bytes ≤ d.pos + d.len) (hfl : dFlags d.bytes = 0) :
    let u := pieceWritten die n d.id s
    (∀ y ∈ (cipOf u die n).descs, y.id ≠ d.id) ∧ u.nt.inject = s.nt.inject ∧
      ∀ r, cqOf s die n d.ctx = some r → (queueOf s die n r).resv ≠ 0 →
        ∃ e, (queueOf u die n r).visible = (queueOf s die n r).visible ++ [e] ∧
          e.data = record16 (dTag d.bytes) 6 0 0 0 (pressOf s die % 2 ^ 32) := by
  have hdone : descAt (modDesc die n d.id pieceDone s) die n d.id = some (pieceDone d) := descAt_modDesc die n d.id _ (fun _ => rfl) hd
  obtain ⟨hgone, hinject, hrecord⟩ := closeDesc_plain (code := 0) hdone (by simp [pieceDone, hk])
  rw [pieceWritten_last hd hk hh hlast hfl]
  refine ⟨hgone, hinject, fun r hr hresv => ?_⟩
  have hsame := queueOf_modDesc (die := die) (n := n) pieceDone d.id r s
  rw [← hsame]
  exact hrecord r hr (by rw [hsame]; exact hresv)

end

end Sys2Proof.Machine
end

section
/-! SUPPORT. READ_DATA, WRITE_ACK and STATUS at a host adapter (R456, R457, R459, R482); O47. -/
namespace Sys2Proof.Machine

/-! ### A response and the request it answers -/

theorem takeFirst_none {α : Type} {c : α → Bool} : ∀ {xs : List α}, (∀ x ∈ xs, c x = false) → takeFirst c xs = (none, xs)
  | [], _ => rfl
  | x :: xs, h => by
    have hx : c x = false := h x (List.mem_cons_self ..)
    simp only [takeFirst, hx, takeFirst_none fun y hy => h y (List.mem_cons_of_mem x hy)]
    rfl

/-- The request is no longer out. -/
def hostTakes (h : Nat) (rs : List HostReq) (s : State) : State := modHost h (fun x => { x with sent := rs }) s

/-- What the answer makes of the request. -/
def hostReply (h : Nat) (r : HostReq) (code : Nat) (data : List Byte) (s : State) : State :=
  let k := inThisGranule (apertureAddr s h r.offset) r.left
  if r.we then (if code = 0 then s else postedError h 4 r.offset code s)
  else if code ≠ 0 then cplError h r.tag code s
  else
    let s := emit (.tlp h r.tag 0 (padTo k data)) s
    if k < r.left then hostIssue h false r.tag (r.offset + k) (r.left - k) [] s else s

/-- What a response counts as: of a quiesced tile a PART_RESET, else what a mark says, else its own code (R135, R482). -/
def hostCode (s : State) (die : Nat) (p : Packet) (code : Nat) : Nat :=
  if fenced s die 5 then 0x88 else if poisonStatus p ≠ 0 then poisonStatus p else code

section
variable {s : State} {die n h code : Nat} {p : Packet} {r : HostReq} {rs : List HostReq} {data : List Byte}

theorem hostCode_clean (hf : fenced s die 5 = false) (hclean : poisonStatus p = 0) : hostCode s die p code = code := by
  unfold hostCode
  rw [hf, hclean]
  rfl

theorem hostOf_takes : hostOf (hostTakes h rs s) h = { hostOf s h with sent := rs } := by
  rw [hostTakes, hostOf_modHost, if_pos rfl]

theorem hostAnswer_lost (hq : ∀ r ∈ (hostOf s h).sent, r.sseq ≠ p.sseq) : hostAnswer h p code data s = hostCount h 5 s := by
  unfold hostAnswer
  rw [takeFirst_none fun r hr => decide_eq_false (hq r hr)]

theorem hostAnswer_found (hq : takeFirst (fun x : HostReq => decide (x.sseq = p.sseq)) (hostOf s h).sent = (some r, rs)) :
    hostAnswer h p code data s = hostRun h (hostReply h r code data (hostTakes h rs s)) := by
  unfold hostAnswer
  rw [hq]
  rfl

/-! ### What the request ends with -/

theorem hostReply_written (hr : r.we = true) : hostReply h r 0 data s = s := by
  unfold hostReply
  dsimp only
  rw [if_pos hr]
  rfl

theorem hostReply_not_written (hr : r.we = true) (hc : code ≠ 0) : hostReply h r code data s = postedError h 4 r.offset code s := by
  unfold hostReply
  dsimp only
  rw [if_pos hr, if_neg hc]

theorem hostReply_read (hr : r.we = false) (hk : r.left ≤ inThisGranule (apertureAddr s h r.offset) r.left) :
    hostReply h r 0 data s = emit (.tlp h r.tag 0 (padTo (inThisGranule (apertureAddr s h r.offset) r.left) data)) s := by
  unfold hostReply
  dsimp only
  rw [if_neg (by rw [hr]; decide), if_neg (not_not.mpr rfl), if_neg (Nat.not_lt.mpr hk)]

theorem hostReply_not_read (hr : r.we = false) (hc : code ≠ 0) : hostReply h r code data s = cplError h r.tag code s := by
  unfold hostReply
  dsimp only
  rw [if_neg (by rw [hr]; decide), if_pos hc]

/-- The adapter takes the answer and has nothing else to serve. -/
theorem hostAnswer_settles (hq : takeFirst (fun x : HostReq => decide (x.sseq = p.sseq)) (hostOf s h).sent = (some r, rs)) {u : State}
    (hu : hostReply h r code data (hostTakes h rs s) = u) (hw : (hostOf u h).waiting = []) : hostAnswer h p code data s = u := by
  rw [hostAnswer_found hq, hu]
  exact hostDrain_idle h _ u hw

/-! ### The commands -/

/-- Each of the three responses to an adapter, with the code it counts as. -/
theorem responses_host (hh : toHost die n p = some h) :
    exec (.readData die n p) s = .next (hostAnswer h p (hostCode s die p 0) p.payload (consume die 5 p s)) ∧
      exec (.writeAck die n p) s = .next (hostAnswer h p (hostCode s die p 0) p.payload (consume die 5 p s)) ∧
      exec (.status die n p) s =
        .next (hostAnswer h p (hostCode s die p (bits p.operand.toNat 7 0)) p.payload (consume die 5 p s)) := by
  refine ⟨congrArg _ (show readDataAt die n p s = _ from ?_), congrArg _ (show writeAckAt die n p s = _ from ?_),
    congrArg _ (show statusAt die n p s = _ from ?_)⟩
  · unfold readDataAt
    rw [hh]
    rfl
  · unfold writeAckAt
    rw [hh]
    rfl
  · unfold statusAt
    rw [hh]
    rfl

end

/-! ### The statement -/

/-- At a CIP whose tile is in a reset or on an isolated die a response is discarded and counted. -/
theorem responses_discarded {s : State} {die n : Nat} {p : Packet} (hh : toHost die n p = none) (hf : fenced s die n = true)
    (hport : aPort p.dest = 0) : ∀ i ∈ [Instr.readData die n p, .writeAck die n p, .status die n p], ∃ t, exec i s = .next t ∧
      ChangesOnly [.rg, .nt] s t ∧ countOf t die (cipPage s die n) 6 = countOf s die (cipPage s die n) 6 + 1 := fun i hi => by
  refine ⟨_, responses_fenced hh hf hport i hi,
    changesOnly_of_clr _ _ _ ((cipCount_clr _ rfl _ _ _ _).trans (consume_clr _ rfl _ _ _ _)), ?_⟩
  have hcount : ∀ u, countOf (cipCount die n 6 u) die (cipPage u die n) 6 = countOf u die (cipPage u die n) 6 + 1 := fun u => by
    rw [cipCount, countOf_addCount, if_pos rfl]
    rfl
  exact hcount (consume die n p s)

/-- A response at a host adapter that no request waits for is counted (R459). -/
theorem responses_uncalled {s : State} {die n h : Nat} {p : Packet} (hh : toHost die n p = some h)
    (hq : ∀ r ∈ (hostOf s h).sent, r.sseq ≠ p.sseq) : ∀ i ∈ [Instr.readData die n p, .writeAck die n p, .status die n p],
      ∃ t, exec i s = .next t ∧ ChangesOnly [.rg, .nt] s t ∧ countOf t (hostDie h) 0x718 5 = countOf s (hostDie h) 0x718 5 + 1 := by
  obtain ⟨hread, hwrite, hstatus⟩ := responses_host (s := s) hh
  have hlost : ∀ code, hostAnswer h p code p.payload (consume die 5 p s) = hostCount h 5 (consume die 5 p s) := fun code => hostAnswer_lost hq
  rw [hlost] at hread hwrite hstatus
  have hall : ∀ i ∈ [Instr.readData die n p, .writeAck die n p, .status die n p], exec i s = .next (hostCount h 5 (consume die 5 p s)) := by
    intro i hi
    simp only [List.mem_cons, List.not_mem_nil, or_false] at hi
    rcases hi with rfl | rfl | rfl
    · exact hread
    · exact hwrite
    · exact hstatus
  refine fun i hi => ⟨_, hall i hi, changesOnly_of_clr _ _ _ ((hostCount_clr _ rfl _ _ _).trans (consume_clr _ rfl _ _ _ _)), ?_⟩
  rw [countOf_hostCount, if_pos rfl]
  rfl

/-- Settles O47. A response leaves the network and meets the fetch, the descriptor or the host request of its SSEQ. -/
theorem responsesReachTheirRequester : Obligations.ResponsesReachTheirRequester := by
  unfold Obligations.ResponsesReachTheirRequester
  refine ⟨fun s die n p hh hf hport => responses_discarded hh hf hport, fun s die n p hh hf hclean hport => ?_,
    fun s die n h p hh hw => ⟨responses_uncalled hh, fun r rs hq => ?_⟩⟩
  · intro q code gone
    have hread := readData_clean hh hf hclean
    have hwrite := writeAck_clean hh hf
    have hstatus := fun hop => status_clean hh hf hclean hport hop
    have hframe : ∀ {u}, ChangesOnly [.nt, .ci] (consume die n p s) u → ChangesOnly [.nt, .ci] s u :=
      .trans (changesOnly_of_clr _ _ _ (consume_clr _ rfl _ _ _ _))
    refine ⟨fun hc hfetch => ⟨⟨_, ?_, hread⟩, fun hop hcode => ⟨_, ?_, hstatus hop⟩⟩, fun d hc h2 h3 hd hat hk hhead => ?_⟩
    · rw [readAnswered_fetch (s := consume die n p s) hc hfetch, if_pos rfl]
      exact fetchDone_effect _ _ _ _ _
    · rw [readAnswered_fetch (s := consume die n p s) hc hfetch, if_neg hcode]
      exact fetchDone_effect _ _ _ _ _
    · have hatc : descAt (consume die n p s) die n d.id = some d := hat
      rw [readAnswered_desc (s := consume die n p s) hc h2 h3 hd, if_neg (not_not.mpr rfl)] at hread
      simp only [readAnswered_desc (s := consume die n p s) hc h2 h3 hd] at hstatus
      refine ⟨fun hph => ⟨_, ?_, hread⟩, fun hph hmore => ⟨_, ?_, hwrite⟩, fun hph hlast hfl => ⟨_, ?_, hwrite⟩,
        fun hop hcode hnack => ⟨_, ?_, hstatus hop⟩, fun hop hcode hends => ⟨_, ?_, hstatus hop⟩⟩
      · rw [if_pos hph]
        obtain ⟨hchanges, hdesc, hsent⟩ := copy_read hatc hk hhead p.payload
        exact ⟨hframe hchanges, hdesc, hsent⟩
      · rw [writeAnswered_desc (s := consume die n p s) hclean hd hph]
        obtain ⟨hchanges, hdesc, hsent⟩ := copy_goes_on hatc hk hhead hmore
        exact ⟨hframe hchanges, hdesc, hsent⟩
      · rw [writeAnswered_desc (s := consume die n p s) hclean hd hph]
        exact copy_completes hatc hk hhead hlast hfl
      · rw [if_pos (by rw [show bits p.operand.toNat 7 0 = 0x20 from hcode]; decide), descStatus_again _ ⟨hcode, hnack⟩]
        exact ⟨rfl, descAt_modDesc die n d.id _ (fun _ => rfl) hatc⟩
      · rw [if_pos hcode, descStatus_ends hatc (by omega) hends]
        obtain ⟨hgone, -, hrecord⟩ := closeDesc_plain hatc (by omega)
        exact ⟨hgone, hrecord⟩
  · intro k code
    obtain ⟨hread, hwrite, hstatus⟩ := responses_host (s := s) hh
    have hcode : code = hostCode s die p (bits p.operand.toNat 7 0) := rfl
    have htake : takeFirst (fun x : HostReq => decide (x.sseq = p.sseq)) (hostOf (consume die 5 p s) h).sent = (some r, rs) := hq
    have hidle : (hostOf (hostTakes h rs (consume die 5 p s)) h).waiting = [] := by
      rw [hostOf_takes]
      exact hw
    have hsent : (hostOf (hostTakes h rs (consume die 5 p s)) h).sent = rs := by rw [hostOf_takes]
    refine ⟨fun hr hf hclean hk => ⟨_, hread, ?_⟩, fun hr hf hclean => ⟨_, hwrite, ?_⟩, fun hr hc => ⟨_, hstatus, ?_⟩,
      fun hr hc => ⟨_, hstatus, ?_⟩⟩
    · rw [hostCode_clean hf hclean, hostAnswer_settles htake (hostReply_read hr hk) hidle]
      exact ⟨rfl, hsent⟩
    · rw [hostCode_clean hf hclean, hostAnswer_settles htake (hostReply_written hr) hidle]
      exact ⟨rfl, hostOf_takes⟩
    · rw [← hcode, hostAnswer_settles htake (hostReply_not_read hr hc) hidle]
      exact ⟨rfl, hsent⟩
    · have herr := hostOf_postedError h 4 r.offset code (hostTakes h rs (consume die 5 p s))
      rw [← hcode, hostAnswer_settles htake (hostReply_not_written hr hc) (by rw [hostOf_postedError]; exact hidle), herr]
      exact ⟨rfl, rfl, rfl⟩

end Sys2Proof.Machine
end

section
/-! SUPPORT. A descriptor that has begun stands while its tile settles (R361, R364, R380, R381), and what RING_GRANT makes of one (R376,
R586); O43. -/
namespace Sys2Proof.Machine

/-! ### What leaves the descriptors of a CIP -/

/-- The descriptors of a CIP. -/
def descsOf (s : State) (die n : Nat) : List Desc := (cipOf s die n).descs

section
variable {s t : State} (die n : Nat)

theorem descsOf_of_ci (h : t.ci = s.ci) : descsOf t die n = descsOf s die n := congrArg Cip.descs (cipOf_of_ci die n h)

theorem descsOf_modCip (f : Cip → Cip) (s : State) : descsOf (modCip die n f s) die n = (f (cipOf s die n)).descs :=
  congrArg Cip.descs (cipOf_modCip_same die n f)

theorem descsOf_modQueue (q : Nat) (f : Queue → Queue) (s : State) : descsOf (modQueue die n q f s) die n = descsOf s die n :=
  descsOf_modCip die n _ s

theorem descsOf_takeSeq (s : State) : descsOf (takeSeq die n s).2 die n = descsOf s die n := descsOf_modCip die n _ s

theorem descsOf_modCache (i : Nat) (f : CacheEntry → CacheEntry) (s : State) : descsOf (modCache die n i f s) die n = descsOf s die n :=
  descsOf_modCip die n _ s

theorem descsOf_endStream (st code : Nat) (data : List Byte) (s : State) :
    descsOf (endStream die n st code data s) die n = descsOf s die n := descs_endStream die n st code data s

theorem descsOf_waitOn (st ctx : Nat) (w : Wait) (s : State) : descsOf (waitOn die n st ctx w s) die n = descsOf s die n := by
  unfold waitOn
  split
  · exact descsOf_modCip die n _ s
  · refine (descsOf_modCip die n _ _).trans (descsOf_of_ci die n ?_)
    split
    · rfl
    · rfl

/-! ### Sends -/

theorem descsOf_sentCounted (p : Packet) (k : Nat) (s : State) :
    descsOf (sendFrom die n 10 p (cipCount die n k s)) die n = descsOf s die n := rfl

theorem descsOf_askCredits (i : Nat) (s : State) : descsOf (askCredits die n i s) die n = descsOf s die n := by
  unfold askCredits
  split
  · rfl
  · exact (descsOf_sentCounted die n _ _ _).trans ((descsOf_modCache die n i _ _).trans (descsOf_takeSeq die n s))

theorem descsOf_freeCache (i : Nat) (s : State) : descsOf (freeCache die n i s) die n = descsOf s die n := by
  unfold freeCache
  split
  · rfl
  · dsimp only
    split
    · exact descsOf_modCip die n _ s
    · exact (descsOf_takeSeq die n _).trans (descsOf_modCip die n _ s)

theorem descsOf_sendMsg (st ctx i : Nat) (a : DWord) (k : Nat) (pl : List Byte) (s : State) :
    descsOf (sendMsg die n st ctx i a k pl s) die n = descsOf s die n := by
  have hsent : ∀ p s, descsOf (cipCount die n 0 (sendFrom die n 10 p s)) die n = descsOf s die n := fun p s => rfl
  have htaken : ∀ f (g : Cip → SMap (BitVec 16)) s, descsOf (modCache die n i f (modCip die n (fun c => { c with
      sseq := g c, order := c.order + 1 }) s)) die n = descsOf s die n := fun f g s =>
    (descsOf_modCache die n i f _).trans (descsOf_modCip die n _ s)
  unfold sendMsg
  dsimp only
  refine (descsOf_endStream die n _ _ _ _).trans ?_
  split
  · split
    · exact (descsOf_askCredits die n i _).trans ((hsent _ _).trans (htaken _ _ s))
    · exact (hsent _ _).trans (htaken _ _ s)
  · exact (hsent _ _).trans (htaken _ _ s)

theorem descsOf_newEntry (st ctx i : Nat) (a : DWord) (k : Nat) (pl : List Byte) (s : State) :
    descsOf (newEntry die n st ctx i a k pl s) die n = descsOf s die n :=
  (descsOf_waitOn die n _ _ _ _).trans ((descsOf_askCredits die n i _).trans (descsOf_modCip die n _ s))

theorem descsOf_trySend (st ctx : Nat) (a : DWord) (k : Nat) (pl : List Byte) (s : State) :
    descsOf (trySend die n st ctx a k pl s) die n = descsOf s die n := by
  unfold trySend
  split
  · split
    · exact descsOf_sendMsg die n _ _ _ _ _ _ s
    · refine (descsOf_waitOn die n _ _ _ _).trans ?_
      split
      · exact descsOf_askCredits die n _ s
      · rfl
  · split
    · exact descsOf_newEntry die n _ _ _ _ _ _ s
    · split
      · exact (descsOf_newEntry die n _ _ _ _ _ _ _).trans (descsOf_freeCache die n _ s)
      · exact descsOf_waitOn die n _ _ _ s

/-! ### Streams that go on -/

theorem descsOf_popEntry (st q : Nat) (s : State) : descsOf (popEntry die n st q s) die n = descsOf s die n := by
  unfold popEntry
  split
  · rfl
  · exact (descsOf_endStream die n _ _ _ _).trans (descsOf_modQueue die n q _ s)

theorem descsOf_leaveQueues (st : Nat) (s : State) : descsOf (leaveQueues die n st s) die n = descsOf s die n :=
  forEach_same (descsOf · die n) _ _ s fun e s => descsOf_modQueue die n e.1 _ s

theorem descsOf_wakeStream (st : Nat) (s : State) : descsOf (wakeStream die n st s) die n = descsOf s die n := by
  have hend : ∀ code data, descsOf (endStream die n st code data s) die n = descsOf s die n := fun code data =>
    descsOf_endStream die n st code data s
  unfold wakeStream
  split
  · rfl
  · split
    case h_1 =>
      split
      · exact hend _ _
      · exact descsOf_popEntry die n st _ s
    case h_2 =>
      dsimp only
      split
      · exact hend _ _
      · split
        · exact hend _ _
        · rfl
    case h_3 =>
      dsimp only
      split
      · exact hend _ _
      · rfl
    case h_4 | h_5 => exact descsOf_trySend die n st _ _ _ _ s
    case h_6 =>
      split
      · exact (descsOf_endStream die n _ _ _ _).trans (descsOf_leaveQueues die n st s)
      · rfl
    all_goals rfl

/-! ### Records, runs, rings -/

theorem descsOf_cqRecord (ctx : Nat) (r : List Byte) (s : State) : descsOf (cqRecord die n ctx r s) die n = descsOf s die n := by
  unfold cqRecord
  split
  · rfl
  · split
    · rfl
    · refine (congrArg Cip.descs (cipOf_makeVisible die n _ _ _)).trans ?_
      exact descsOf_modQueue die n _ _ s

theorem descsOf_cqRelease (ctx k : Nat) (s : State) : descsOf (cqRelease die n ctx k s) die n = descsOf s die n := by
  unfold cqRelease
  split
  · rfl
  · exact descsOf_modQueue die n _ _ s

theorem descsOf_firstRun (r : Run) (s : State) : descsOf (firstRun die n r s).2 die n = descsOf s die n := by
  have hrecord : ∀ x, descsOf (runRecord die n r 1 0 x 0 (pressOf s die) s) die n = descsOf s die n := fun x =>
    descsOf_cqRecord die n r.ctx _ s
  have haccept : ∀ id d b t, descsOf (acceptRun die n id d b t) die n = descsOf t die n := fun id d b t =>
    descsOf_of_ci die n (same_of_clr [.rg, .dr] _ _ (acceptRun_clr _ rfl rfl _ _ _ _ _ _) .ci (by decide))
  unfold firstRun
  dsimp only
  split
  · exact (haccept _ _ _ _).trans (hrecord _)
  · exact hrecord _
  · exact (descsOf_cqRelease die n _ _ _).trans (hrecord _)

theorem descsOf_modRing (r : Nat) (f : Ring → Ring) (s : State) : descsOf (modRing die n r f s) die n = descsOf s die n :=
  descsOf_modCip die n _ s

theorem descsOf_placeRec (r need : Nat) (s : State) : descsOf (placeRec die n r need s).2 die n = descsOf s die n := by
  have hpad : ∀ toEnd, descsOf (writePad die n r toEnd s) die n = descsOf s die n := fun toEnd =>
    (descsOf_modRing die n r _ _).trans
      (descsOf_of_ci die n (same_of_clr [.out] _ _ (storeBy_clr _ rfl _ _ _ _) .ci (by decide)))
  unfold placeRec
  dsimp only
  split
  · rfl
  · split
    · split
      · exact hpad _
      · exact (descsOf_modRing die n r _ _).trans (hpad _)
    · split
      · rfl
      · exact descsOf_modRing die n r _ s

theorem descsOf_serveRing (r f : Nat) (s : State) : descsOf (serveRing die n r f s) die n = descsOf s die n := by
  induction f generalizing s with
  | zero => rfl
  | succ f ih =>
    unfold serveRing
    split
    · rfl
    · dsimp only
      split
      · exact descsOf_placeRec die n r _ s
      · exact (ih _).trans ((descsOf_modRing die n r _ _).trans (descsOf_placeRec die n r _ s))

theorem descsOf_grantCredits (q : Nat) (p : Packet) (s : State) : descsOf (grantCredits die n q p s) die n = descsOf s die n :=
  descsOf_modQueue die n q _ s

theorem descsOf_sendOpen (st ctx : Nat) (x : List Byte) (s : State) : descsOf (sendOpen die n st ctx x s) die n = descsOf s die n := by
  unfold sendOpen
  exact (descsOf_modCip die n _ _).trans (descsOf_takeSeq die n s)

end

/-! ### A descriptor that has begun -/

/-- The descriptor stands under its number. -/
def Stands (die n : Nat) (d : Desc) (s : State) : Prop := descAt s die n d.id = some d

section
variable {s t : State} {die n : Nat} {d : Desc}

theorem Stands.of_descs (h : Stands die n d s) (ht : descsOf t die n = descsOf s die n) : Stands die n d t := by
  unfold Stands descAt at h ⊢
  rw [← h]
  exact congrArg (List.find? _) ht

theorem Stands.of_ci (h : Stands die n d s) (ht : t.ci = s.ci) : Stands die n d t := h.of_descs (descsOf_of_ci die n ht)

/-- A change of another descriptor that keeps its number. -/
theorem Stands.modDesc {id : Nat} (h : Stands die n d s) (hid : d.id ≠ id) (f : Desc → Desc) (hf : ∀ x, (f x).id = x.id) :
    Stands die n d (modDesc die n id f s) := by
  have hkeep : (fun x : Desc => decide (x.id = d.id)) ∘ (fun x => if decide (x.id = id) then f x else x) =
      fun x => decide (x.id = d.id) := by
    funext x
    rw [Function.comp_apply]
    split
    · rw [hf]
    · rfl
  unfold Stands descAt at h ⊢
  rw [cipOf_modDesc, mapIf, List.find?_map, hkeep, h]
  exact congrArg some (if_neg (by simpa using hid))

/-- The end of another descriptor. -/
theorem Stands.closeDesc {id : Nat} (h : Stands die n d s) (hid : d.id ≠ id) (code : Nat) : Stands die n d (closeDesc die n id code s) := by
  cases hat : descAt s die n id with
  | none => rwa [closeDesc_none die n id hat]
  | some y =>
    have hleft : Stands die n d (modCip die n (withoutDesc id) s) := by
      unfold Stands descAt at h ⊢
      rw [cipOf_modCip_same, withoutDesc, List.find?_filter, ← h]
      congr 1
      funext x
      by_cases hx : x.id = d.id
      · simp [hx, hid]
      · simp [hx]
    rw [closeDesc_some die n id hat]
    exact hleft.of_descs (descsOf_cqRecord die n _ _ _)

theorem Stands.request {id : Nat} (h : Stands die n d s) (hid : d.id ≠ id) : Stands die n d (request die n id s) := by
  have hseq : Stands die n d (takeSeq die n s).2 := h.of_descs (descsOf_takeSeq die n s)
  unfold Machine.request
  split
  · exact h
  · dsimp only
    split
    · have hasked := hseq.modDesc hid (fun d => { d with sseq := (takeSeq die n s).1, again := false }) fun _ => rfl
      split
      · exact hasked.of_ci (same_of_clr [.nt, .mp] _ _ (mcAsk_clr _ rfl rfl _ _) .ci (by decide))
      · exact hasked.of_ci rfl
    · exact hseq

theorem Stands.readNext {id : Nat} (h : Stands die n d s) (hid : d.id ≠ id) : Stands die n d (readNext die n id s) :=
  (h.modDesc hid (fun d => { d with phase := .reading, header := false, len := pieceLen d }) fun _ => rfl).request hid

/-- Another descriptor may start; the one that has begun does not start again. -/
theorem Stands.startDesc (h : Stands die n d s) (hd : d.phase ≠ .queued) (id : Nat) : Stands die n d (startDesc die n id s) := by
  by_cases hid : d.id = id
  · have hat : descAt s die n id = some d := hid ▸ h
    unfold Machine.startDesc
    rw [hat]
    dsimp only
    rw [if_pos (by simp [hd])]
    exact h
  · unfold Machine.startDesc
    split
    · exact h
    · split
      · exact h
      · split
        · split
          · exact h
          · exact h.readNext hid
        · exact (h.modDesc hid (fun d => { d with phase := .reserving, since := waitPress s die }) fun _ => rfl).request hid
        · split
          · exact h.readNext hid
          · exact h.closeDesc hid _
        · exact h.readNext hid

/-- A descriptor that joins stands behind it. -/
theorem Stands.join (h : Stands die n d s) (y : Desc) (next : Nat) :
    Stands die n d (modCip die n (fun c => { c with descs := c.descs ++ [y], nextDesc := next }) s) := by
  unfold Stands descAt at h ⊢
  rw [cipOf_modCip_same, List.find?_append, h]
  rfl

theorem Stands.admitDma (h : Stands die n d s) (hd : d.phase ≠ .queued) (st ctx : Nat) (x : List Byte) :
    Stands die n d (admitDma die n st ctx x s) := by
  have hrecord : ∀ r, Stands die n d (cqRecord die n ctx r s) := fun r => h.of_descs (descsOf_cqRecord die n ctx r s)
  unfold Machine.admitDma
  dsimp only
  refine Stands.of_descs ?_ (descsOf_endStream die n _ _ _ _)
  split
  · exact Stands.startDesc (Stands.join (hrecord _) _ _) hd _
  · exact Stands.of_ci (Stands.join (hrecord _) _ _) rfl
  · exact (hrecord _).of_descs (descsOf_cqRelease die n _ _ _)

theorem Stands.admitPost (h : Stands die n d s) (hd : d.phase ≠ .queued) (st ctx : Nat) (x : List Byte) :
    Stands die n d (admitPost die n st ctx x s) := by
  unfold Machine.admitPost
  split
  · exact h.of_descs (descsOf_sendOpen die n _ _ _ s)
  · exact h.of_descs ((descsOf_endStream die n _ _ _ _).trans (descsOf_firstRun die n _ s))
  · exact h.admitDma hd st ctx x

/-! ### A tile that settles (R361, R364) -/

theorem Stands.resumeLocal (h : Stands die n d s) (hd : d.phase ≠ .queued) (st : Nat) : Stands die n d (resumeLocal die n st s) := by
  unfold Machine.resumeLocal
  split
  · exact h
  · split
    · exact h.admitPost hd _ _ _
    · split
      · exact h.of_descs ((descsOf_endStream die n _ _ _ _).trans (descsOf_modQueue die n _ _ s))
      · exact h.of_descs (descsOf_endStream die n _ _ _ _)
    · exact h

theorem Stands.serveQueue (q f : Nat) (h : Stands die n d s) (hd : d.phase ≠ .queued) : Stands die n d (serveQueue die n q f s) := by
  induction f generalizing s with
  | zero => exact h
  | succ f ih =>
    unfold Machine.serveQueue
    dsimp only
    split
    · exact h
    · split
      · split
        · exact h
        · exact ih (h.of_descs ((descsOf_grantCredits die n q _ _).trans (descsOf_modQueue die n q _ s)))
      · split
        · exact h
        · exact ih (Stands.resumeLocal (h.of_descs ((descsOf_modQueue die n q _ _).trans (descsOf_modQueue die n q _ s))) hd _)

theorem Stands.settleOnce (h : Stands die n d s) (hd : d.phase ≠ .queued) : Stands die n d (settleOnce die n s) := by
  unfold Machine.settleOnce
  dsimp only
  refine forEach_keeps (Stands die n d) _ _ _ (fun e s hs => hs.of_descs (descsOf_serveRing die n _ _ s)) ?_
  refine forEach_keeps (Stands die n d) _ _ _ (fun e s hs => hs.serveQueue _ _ hd) ?_
  exact forEach_keeps (Stands die n d) _ _ _ (fun st s hs => hs.of_descs (descsOf_wakeStream die n st s)) h

theorem Stands.settleLoop (f : Nat) (h : Stands die n d s) (hd : d.phase ≠ .queued) : Stands die n d (settleLoop die n f s) := by
  induction f generalizing s with
  | zero => exact h
  | succ f ih => exact ih (h.settleOnce hd)

/-- Whatever a CIP holds, settling it leaves a descriptor that has begun as it is. -/
theorem Stands.settleTile (h : Stands die n d s) (hd : d.phase ≠ .queued) : Stands die n d (settleTile die n s) := by
  unfold Machine.settleTile
  dsimp only
  split
  · exact h
  · exact h.settleLoop _ hd

end

/-! ### RING_GRANT at the sender (R376, R586) -/

/-- A descriptor whose record has its place: the header is to be written, and the NACK_RETRYs in a row are counted anew. -/
def placedDesc (x : Nat) (d : Desc) : Desc :=
  { d with phase := .writing, header := true, nacks := 0, ringOff := bits x 31 0, ringBase := bits x 55 32 * 4096, ringSize := 2 ^ bits x 60 56 }

/-- A descriptor of a RING_SEND waits for its place under the number of the request that the packet answers. -/
structure AwaitsPlace (s : State) (die n : Nat) (p : Packet) (d : Desc) : Prop where
  isOpen : fenced s die n = false
  clean : poisonStatus p = 0
  ringSend : d.kind = 3
  asks : (cipOf s die n).descs.find? (fun y => decide (y.phase = .reserving) && decide (y.sseq = p.sseq)) = some d
  at_ : descAt s die n d.id = some d

theorem ringGranted_some {s : State} {die n : Nat} {p : Packet} {d : Desc}
    (h : (cipOf s die n).descs.find? (fun y => decide (y.phase = .reserving) && decide (y.sseq = p.sseq)) = some d) :
    ringGranted die n p s = request die n d.id (modDesc die n d.id (placedDesc p.operand.toNat) s) := by
  unfold ringGranted
  rw [h]
  rfl

/-- After RING_GRANT the descriptor writes its header under the CIP's next number, its count of NACK_RETRYs 0. -/
theorem AwaitsPlace.granted {s : State} {die n : Nat} {p : Packet} {d : Desc} (h : AwaitsPlace s die n p d) :
    ∃ t, exec (.ringGrant die n p) s = .next t ∧
      descAt t die n d.id = some (asked (cipOf s die n).reqSeq (placedDesc p.operand.toNat d)) := by
  obtain ⟨hf, hclean, hk, hfind, hat⟩ := h
  have hplaced : descAt (modDesc die n d.id (placedDesc p.operand.toNat) (consume die n p s)) die n d.id =
      some (placedDesc p.operand.toNat d) := descAt_modDesc die n d.id _ (fun _ => rfl) hat
  obtain ⟨-, hdesc, -⟩ := request_effect (s := s) (u := modDesc die n d.id (placedDesc p.operand.toNat) (consume die n p s)) ⟨rfl, rfl, rfl⟩ hplaced (by simp [placedDesc, hk]) rfl
  rw [← ringGranted_some (s := consume die n p s) hfind, reqSeq_modDesc] at hdesc
  have hexec : exec (.ringGrant die n p) s = .next (settleTile die n (ringGranted die n p (consume die n p s))) := by
    refine congrArg Host.Outcome.next ((cipAnswer_open hf _).trans ?_)
    rw [marked, if_neg (not_not.mpr hclean)]
  exact ⟨_, hexec, Stands.settleTile (d := asked (cipOf s die n).reqSeq (placedDesc p.operand.toNat d)) hdesc nofun⟩

/-! ### The statement -/

/-- A RING_SEND whose RING_RESERVE was answered NACK_RETRY once and has been repeated. -/
def retriedSend : Desc := { id := 1, bytes := [], kind := 3, stream := 0, ctx := 0, phase := .reserving, nacks := 1 }

/-- The CIP of tile 0 of die 0 holds it. -/
def retriedState : State := { State.reset with ci := { tiles := [(0, { descs := [retriedSend], nextDesc := 2 })] } }

/-- The grant of its place at the start of a ring. -/
def firstPlace : Packet := { opcode := 0x93 }

theorem retriedSend_awaits : AwaitsPlace retriedState 0 0 firstPlace retriedSend where
  isOpen := rfl
  clean := rfl
  ringSend := rfl
  asks := rfl
  at_ := rfl

/-- Refutes O43 at RING_GRANT: the statement keeps every other field of the descriptor, but a grant ends a row of NACK_RETRYs (R586), so
that of a RING_SEND whose RING_RESERVE had been answered NACK_RETRY once the count is 0 afterwards, not 1. -/
theorem not_ringsAndDoorbells : ¬ Obligations.RingsAndDoorbells := by
  intro ⟨_, _, hgrant, _⟩
  obtain ⟨hf, hclean, hk, hfind, hat⟩ := retriedSend_awaits
  obtain ⟨u, ⟨-, hdesc, -⟩, hexec⟩ := hgrant retriedState 0 0 firstPlace retriedSend hf hclean hk hfind hat
  obtain ⟨t, ht, hplaced⟩ := retriedSend_awaits.granted
  have hstands : Stands 0 0 { retriedSend with
      phase := .writing, header := true, ringOff := 0, ringBase := 0, ringSize := 1, sseq := 0, again := false } (settleTile 0 0 u) :=
    Stands.settleTile hdesc nofun
  obtain rfl : t = settleTile 0 0 u := by
    injection ht.symm.trans hexec
  cases hplaced.symm.trans hstands

end Sys2Proof.Machine
end

section
/-! SUPPORT. SEAM_OPEN at its home engine (R187, R316 to R320, R345, R413, R547); O48. -/
namespace Sys2Proof.Machine

/-! ### What an open is evaluated by -/

/-- The group of an open, the GSEQ its endpoint's next accepted open takes, its member slot, and the record of that GSEQ. -/
def openGroup (p : Packet) : Nat := (descOf p.payload).group
def openSeq (s : State) (p : Packet) : Nat := nextSeq s (openGroup p) p.srcDie p.srcTile
def openSlot (s : State) (p : Packet) : Option (Nat × Word) := findSlot s (openGroup p) p.srcDie p.srcTile
def openRec (s : State) (p : Packet) : Option Nat := findRec s (openGroup p) (openSeq s p)

/-- An open as its engine keeps it: OPERAND holds the endpoint's ordinal. -/
def numbered (s : State) (p : Packet) : Packet := { p with operand := w64 (postOrdinal s p) }

/-- The state in which an open is evaluated: its packet has left the network and its ordinal is taken. -/
def reached (die eng : Nat) (p : Packet) (s : State) : State :=
  let s := consume die (engTile die eng) p s
  { s with se := { s.se with posts := upd 0 s.se.posts (seqKey (openGroup p) p.srcDie p.srcTile) (· + 1) } }

/-- The same, the pair having been told the outcome. -/
def evaluating (die eng : Nat) (p : Packet) (x : Pair) (s : State) : State := { reached die eng p s with pr := x }

/-- The packets an engine keeps while it does not evaluate. -/
def keepOpen (die eng : Nat) (p : Packet) (s : State) : State :=
  { s with se := { s.se with mirror := upd [] s.se.mirror (ek die eng) (· ++ [p]) } }

section
variable {s : State} {die eng : Nat} {p : Packet}

theorem exec_seamOpen_fenced (hf : fenced s die (engTile die eng) = true) : exec (.seamOpen die eng p) s =
    .next (replyStatus die (engTile die eng) (engPort die) p 0x20 (consume die (engTile die eng) p s)) :=
  congrArg Host.Outcome.next (served_fenced hf _ _ _)

theorem exec_seamOpen (hf : fenced s die (engTile die eng) = false) :
    exec (.seamOpen die eng p) s = .next (openArrive die eng p (consume die (engTile die eng) p s)) :=
  congrArg Host.Outcome.next (served_open hf _ _ _)

/-- A following mirror and an activation pause keep the open (R413, R547). -/
theorem openArrive_kept (h : s.pr.following = true ∨ s.fw.carried = true) :
    openArrive die eng p (consume die (engTile die eng) p s) = keepOpen die eng (numbered s p) (reached die eng p s) := by
  unfold openArrive
  dsimp only
  by_cases hfollow : s.pr.following = true
  · exact if_pos hfollow
  · exact (if_neg hfollow).trans (if_pos (h.resolve_left hfollow))

theorem openArrive_evaluated (h : s.pr.following = false ∧ s.fw.carried = false) :
    openArrive die eng p (consume die (engTile die eng) p s) =
      evalOpen die eng true (numbered s p) (firstAdm s die eng p) (reached die eng p s) := by
  obtain ⟨hfollow, hcarried⟩ := h
  unfold openArrive
  dsimp only
  exact (if_neg (show ¬ s.pr.following = true by rw [hfollow]; decide)).trans
    (if_neg (show ¬ s.fw.carried = true by rw [hcarried]; decide))

/-! ### The late open of a shadow (R345) -/

theorem evalOpen_late {a : Adm} (ha : ¬ ∃ x, a = .refuse x) (hl : isLateShadow s p = true) :
    evalOpen die eng true p a s = holdLate true p s := by
  cases a with
  | refuse x => exact absurd ⟨x, rfl⟩ ha
  | accept => exact if_pos hl
  | defer x => exact if_pos hl

theorem evalOpen_now {a : Adm} (h : (∃ x, a = .refuse x) ∨ isLateShadow s p = false) :
    evalOpen die eng true p a s = applyOpen die eng true p a s := by
  cases a with
  | refuse x => rfl
  | accept | defer x =>
    have hl : isLateShadow s p = false := h.resolve_left nofun
    exact if_neg (by rw [hl]; decide)

theorem holdLate_some {k : Nat} (h : openRec s p = some k) (first : Bool) :
    holdLate first p s = modRec k (fun r => { r with lateOpens := r.lateOpens ++ [(p, first)] }) s := by
  unfold openRec openSeq openGroup at h
  unfold holdLate
  dsimp only
  rw [h]

/-! ### The outcome of an evaluation -/

theorem pairEvent_eq (b : List Byte) (s : State) : ∃ x, pairEvent b s = { s with pr := x } := by
  unfold pairEvent
  split
  · exact ⟨_, rfl⟩
  · exact ⟨s.pr, rfl⟩

/-- An engine keeps the open for its step 7. -/
def keepDeferred (die eng : Nat) (p : Packet) (s : State) : State :=
  { s with se := { s.se with deferred := upd [] s.se.deferred (ek die eng) (· ++ [p]) } }

/-- What each outcome changes before the open is answered. -/
def afterOutcome (die eng : Nat) (p : Packet) (a : Adm) (s : State) : State :=
  match a with
  | .accept => acceptOpen die eng p s
  | .defer x => keepDeferred die eng p (countDefer die (engTile die eng) p.ctx x s)
  | .refuse x => afterRefusal p x s

/-- The first evaluation tells the pair, takes effect, and is answered. -/
theorem applyOpen_first (a : Adm) (s : State) :
    ∃ x, applyOpen die eng true p a s = sendAdmit die eng p a (afterOutcome die eng p a { s with pr := x }) := by
  obtain ⟨x, hx⟩ := pairEvent_eq (evOpen (openGroup p) p.srcDie p.srcTile p.operand.toNat (admWord a) (openSeq s p)) s
  refine ⟨x, ?_⟩
  rw [← hx]
  cases a with
  | accept => rfl
  | defer x => rfl
  | refuse x => rfl

/-- The answer to an open (R321, R338). -/
theorem sendAdmit_answered {u : State} (h : SendsAlike s u) (htm : u.tm = s.tm) (a : Adm) :
    Answered s (sendAdmit die eng p a u) die (engTile die eng) (engPort die) p 0xA0
      (w64 (admWord a + pressOf s die % 2 ^ 32 * 2 ^ 32)) [] := by
  have hpress : pressOf u die = pressOf s die := by
    unfold pressOf unitOf
    rw [htm]
  rw [← hpress]
  exact ⟨response u die (engTile die eng) p 0xA0 (w64 (admWord a + pressOf u die % 2 ^ 32 * 2 ^ 32)) [], h.sent _ _ _ _,
    rfl, rfl, rfl, rfl, rfl, rfl, rfl, rfl⟩

theorem SendsAlike.of_se {u t : State} (h : SendsAlike s u) (ht : ChangesOnly [.se] u t) : SendsAlike s t := by
  obtain ⟨hin, hclk, hspare⟩ := h
  exact ⟨(congrArg Net.inject (ht .nt (by decide))).trans hin, (congrArg TimeBase.fclk (ht .tm (by decide))).trans hclk,
    (congrArg Faults.spare (ht .ft (by decide))).trans hspare⟩

end

/-! ### A refused open (R320) -/

section
variable {s : State} {p : Packet}

theorem nextSeq_bumpSeq (g die tile : Nat) (s : State) : nextSeq (bumpSeq g die tile s) g die tile = nextSeq s g die tile + 1 := by
  unfold nextSeq bumpSeq
  rw [look_upd, if_pos rfl]

/-- A refusal changes no record and keeps no open; it counts for the endpoint for SEAM_LATE_OPEN alone. -/
theorem afterRefusal_effect (c : Nat) (s : State) :
    (afterRefusal p c s).se.recs = s.se.recs ∧ (afterRefusal p c s).se.deferred = s.se.deferred ∧
      SendsAlike s (afterRefusal p c s) ∧ (afterRefusal p c s).tm = s.tm ∧
      openSeq (afterRefusal p c s) p = if c = 0x50 then openSeq s p + 1 else openSeq s p := by
  unfold afterRefusal
  dsimp only
  split
  · next hc =>
    exact ⟨rfl, rfl, ⟨rfl, rfl, rfl⟩, rfl, nextSeq_bumpSeq _ _ _ s⟩
  · split
    · exact ⟨rfl, rfl, ⟨rfl, rfl, rfl⟩, rfl, rfl⟩
    · exact ⟨rfl, rfl, ⟨rfl, rfl, rfl⟩, rfl, rfl⟩

/-! ### An accepted open (R317, R319, R343) -/

theorem accept_of_ite {c : Prop} [Decidable c] {x : Nat} {a : Adm} (h : (if c then Adm.refuse x else a) = .accept) :
    ¬ c ∧ a = .accept := by
  split at h
  · cases h
  · next hc => exact ⟨hc, h⟩

/-- An accepted open has a member slot, and the first one of its seam a free record. -/
theorem openAdm_accept {die eng : Nat} (h : openAdm s die eng p = .accept) :
    (∃ i w, openSlot s p = some (i, w)) ∧ (openRec s p = none → ∃ x, freeRec s die eng = some x) := by
  unfold openAdm at h
  obtain ⟨-, h⟩ := accept_of_ite h
  obtain ⟨-, h⟩ := accept_of_ite h
  cases hslot : openSlot s p with
  | none =>
    unfold openSlot openGroup at hslot
    rw [hslot] at h
    cases h
  | some e =>
    unfold openSlot openGroup at hslot
    rw [hslot] at h
    obtain ⟨-, h⟩ := accept_of_ite h
    obtain ⟨-, h⟩ := accept_of_ite h
    obtain ⟨-, h⟩ := accept_of_ite h
    obtain ⟨-, h⟩ := accept_of_ite h
    obtain ⟨hroom, -⟩ := accept_of_ite h
    refine ⟨⟨e.1, e.2, rfl⟩, fun hnone => Option.isSome_iff_exists.mp (Option.isSome_iff_ne_none.mpr fun hfree => hroom ?_)⟩
    exact ⟨Option.isNone_iff_eq_none.mpr hnone, .inl (Option.isNone_iff_eq_none.mpr hfree)⟩

theorem firstAdm_accept {die eng : Nat} (h : firstAdm s die eng p = .accept) : openAdm s die eng p = .accept := by
  unfold firstAdm at h
  split at h
  · split at h
    · cases h
    · cases h
  · exact h

/-- The open as its record holds it; served: its rank has one already. -/
def memberOpen (s : State) (p : Packet) (rank : Nat) (served : Bool) : MemberOpen :=
  { rank := rank, die := p.srcDie, tile := p.srcTile, stream := p.flags.toNat, desc := descOf p.payload, epoch := ctxEpoch s p.ctx,
    shadow := served, joined := served, at_ := s.tm.fclk }

/-- A record's rank has an open. -/
def rankServed (r : SeamRec) (rank : Nat) : Bool := r.opens.any fun o => o.rank = rank

/-- The opens of a record once one of a rank, of slot word w, has joined. -/
def joinedOpens (s : State) (p : Packet) (rank : Nat) (w : Word) (r : SeamRec) : List MemberOpen :=
  settleServing s.tm.fclk (slotPrimary w) (memberOpen s p rank (rankServed r rank)) r.opens

/-- A record with these opens. -/
def withOpens (s : State) (die : Nat) (p : Packet) (os : List MemberOpen) (r : SeamRec) : SeamRec :=
  let full := (os.filter fun o => !o.shadow).length ≥ gLocal s (openGroup p)
  { r with opens := os, allIn := if full && r.allIn.isNone then some (stampPress s die) else r.allIn }

/-- An open joins a record; the tile of a shadow is asked for its share where the others have been (R326, R344). -/
def joinOpen (die k : Nat) (p : Packet) (rank : Nat) (w : Word) (r : SeamRec) (s : State) : State :=
  let u := modRec k (withOpens s die p (joinedOpens s p rank w r)) s
  if rankServed r rank ∧ r.phase = 1 ∧ r.asked then sendReserve k p.srcDie p.srcTile u else u

/-- The key of an open's record: that of its GSEQ, else the engine's lowest free one. -/
def openKey (s : State) (die eng : Nat) (p : Packet) : Nat :=
  match openRec s p with
  | some k => k
  | none => seamKey die eng ((freeRec s die eng).getD 0)

/-- The record of a seam's first open. -/
def firstRec (s : State) (die : Nat) (p : Packet) : SeamRec :=
  { group := openGroup p, gseq := openSeq s p, ctx := p.ctx, first := waitPress s die }

/-- The count is taken and the open's record is there, with the summaries that came before it. -/
def openRecorded (die eng : Nat) (p : Packet) (s : State) : State :=
  let k := openKey s die eng p
  let tag := openGroup p * 2 ^ 48 + openSeq s p
  let u := bumpSeq (openGroup p) p.srcDie p.srcTile s
  let early := (look [] u.se.early (ek die eng)).filter fun x => x.operand.toNat = tag
  if (openRec s p).isNone then forEach early (fun x s => summaryArrive k x s) { u with se := { u.se with
      recs := ins u.se.recs k (firstRec s die p)
      early := upd [] u.se.early (ek die eng) fun es => es.filter fun x => x.operand.toNat ≠ tag } }
  else u

section
variable {die eng k i x : Nat} {w : Word} {r : SeamRec}

/-- The count is taken, the record is there, and the open joins it. -/
theorem acceptOpen_eq (hslot : openSlot s p = some (i, w)) : acceptOpen die eng p s =
    match recOf (openRecorded die eng p s) (openKey s die eng p) with
    | none => openRecorded die eng p s
    | some r => joinOpen die (openKey s die eng p) p (gRankBase s (openGroup p) + i) w r (openRecorded die eng p s) := by
  unfold openSlot openGroup at hslot
  unfold acceptOpen
  dsimp only
  rw [hslot]
  rfl

/-! ### What joining leaves -/

theorem modRec_some {f : SeamRec → SeamRec} (h : recOf s k = some r) :
    modRec k f s = { s with se := { s.se with recs := ins s.se.recs k (f r) } } := by
  unfold recOf at h
  unfold modRec
  rw [h]

theorem seqs_modRec (k : Nat) (f : SeamRec → SeamRec) (s : State) : (modRec k f s).se.seqs = s.se.seqs := by
  unfold modRec
  split
  · rfl
  · rfl

theorem engSend_se (k : Nat) (q : Packet) (s : State) : (engSend k q s).se = s.se :=
  same_of_clr [.rg, .nt, .lk, .out] _ _ (engSend_clr _ rfl rfl rfl rfl _ _ _) .se (by decide)

theorem sendSummaries_se (k : Nat) (r : SeamRec) (pkg : Nat) (xs : List (List Byte)) (s : State) :
    (sendSummaries k r pkg xs s).se = s.se :=
  same_of_clr [.rg, .nt, .lk, .out] _ _ (sendSummaries_clr _ rfl rfl rfl rfl _ _ _ _ _) .se (by decide)

theorem seqs_summaryArrive (k : Nat) (q : Packet) (s : State) : (summaryArrive k q s).se.seqs = s.se.seqs := by
  unfold summaryArrive
  split
  · rfl
  · dsimp only
    split
    · split
      · exact seqs_modRec k _ s
      · rw [sendSummaries_se]
        exact seqs_modRec k _ s
    · exact seqs_modRec k _ s

theorem sendReserve_some (d n : Nat) (h : recOf s k = some r) :
    ∃ q, ∃ reqs : SeamRec → List ResvAsk, sendReserve k d n s = engSend k q (modRec k (fun r => { r with reqs := reqs r }) s) := by
  unfold sendReserve
  rw [h]
  exact ⟨_, _, rfl⟩

theorem seqs_sendReserve (d n : Nat) (s : State) : (sendReserve k d n s).se.seqs = s.se.seqs := by
  unfold sendReserve
  split
  · rfl
  · dsimp only
    rw [engSend_se, seqs_modRec]

/-- The record after an open has joined it: its phase is the same; only in phase 1 is something sent. -/
theorem joinOpen_effect {die rank : Nat} (hr : recOf s k = some r) :
    ∃ r', recOf (joinOpen die k p rank w r s) k = some r' ∧ r'.phase = r.phase ∧ r'.group = r.group ∧ r'.gseq = r.gseq ∧ r'.ctx = r.ctx ∧
      r'.opens = joinedOpens s p rank w r ∧ (r.phase ≠ 1 → ChangesOnly [.se] s (joinOpen die k p rank w r s)) := by
  have hjoined := recOf_modRec (withOpens s die p (joinedOpens s p rank w r)) hr
  unfold joinOpen
  dsimp only
  split
  · next hask =>
    obtain ⟨q, reqs, hsend⟩ := sendReserve_some p.srcDie p.srcTile hjoined
    rw [hsend]
    refine ⟨_, (recOf_of_se (engSend_se k q _) k).trans (recOf_modRec _ hjoined), rfl, rfl, rfl, rfl, rfl, fun hph => ?_⟩
    exact absurd hask.2.1 hph
  · exact ⟨_, hjoined, rfl, rfl, rfl, rfl, rfl, fun _ => modRec_only_se k _ s⟩

theorem seqs_joinOpen {die rank : Nat} : (joinOpen die k p rank w r s).se.seqs = s.se.seqs := by
  unfold joinOpen
  dsimp only
  split
  · rw [seqs_sendReserve, seqs_modRec]
  · exact seqs_modRec k _ s

/-- The open is among those of its record, as itself or in the place of one that served. -/
theorem mem_settleServing (now : Nat) (prim : Nat × Nat) (o : MemberOpen) (os : List MemberOpen) :
    ∃ y ∈ settleServing now prim o os, y.die = o.die ∧ y.tile = o.tile ∧ y.desc = o.desc := by
  unfold settleServing
  split
  · exact ⟨_, List.mem_append_right _ (List.mem_singleton_self _), rfl, rfl, rfl⟩
  · exact ⟨o, List.mem_append_right _ (List.mem_singleton_self _), rfl, rfl, rfl⟩

/-! ### The record of an accepted open -/

/-- An accepted open takes its endpoint's GSEQ. -/
theorem openSeq_acceptOpen (hslot : openSlot s p = some (i, w)) : openSeq (acceptOpen die eng p s) p = openSeq s p + 1 := by
  have hrecorded : (openRecorded die eng p s).se.seqs = (bumpSeq (openGroup p) p.srcDie p.srcTile s).se.seqs := by
    unfold openRecorded
    dsimp only
    split
    · exact forEach_same (·.se.seqs) _ _ _ fun q s => seqs_summaryArrive _ q s
    · rfl
  have hseqs : (acceptOpen die eng p s).se.seqs = (bumpSeq (openGroup p) p.srcDie p.srcTile s).se.seqs := by
    rw [acceptOpen_eq hslot, ← hrecorded]
    split
    · rfl
    · exact seqs_joinOpen
  rw [openSeq, nextSeq, hseqs]
  exact nextSeq_bumpSeq _ _ _ s

theorem acceptOpen_joins (hslot : openSlot s p = some (i, w)) (hrec : openRec s p = some k) (hr : recOf s k = some r) :
    acceptOpen die eng p s =
      joinOpen die k p (gRankBase s (openGroup p) + i) w r (bumpSeq (openGroup p) p.srcDie p.srcTile s) := by
  have hkey : openKey s die eng p = k := by
    unfold openKey
    rw [hrec]
  have hu : openRecorded die eng p s = bumpSeq (openGroup p) p.srcDie p.srcTile s := by
    unfold openRecorded
    rw [hrec]
    rfl
  have hr' : recOf (bumpSeq (openGroup p) p.srcDie p.srcTile s) k = some r := hr
  rw [acceptOpen_eq hslot, hkey, hu, hr']

/-- The first open of a seam takes the engine's lowest free record. -/
theorem acceptOpen_starts (hslot : openSlot s p = some (i, w)) (hrec : openRec s p = none) (hfree : freeRec s die eng = some x)
    (hearly : ∀ y ∈ look [] s.se.early (ek die eng), y.operand.toNat ≠ openGroup p * 2 ^ 48 + openSeq s p) :
    ∃ u, ChangesOnly [.se] s u ∧ recOf u (seamKey die eng x) = some (firstRec s die p) ∧ acceptOpen die eng p s =
      joinOpen die (seamKey die eng x) p (gRankBase s (openGroup p) + i) w (firstRec s die p) u := by
  have hkey : openKey s die eng p = seamKey die eng x := by
    unfold openKey
    rw [hrec, hfree]
    rfl
  have hnone : (look [] s.se.early (ek die eng)).filter (fun y => decide (y.operand.toNat = openGroup p * 2 ^ 48 + openSeq s p)) = [] :=
    List.filter_eq_nil_iff.mpr fun y hy => by simpa using hearly y hy
  have hu : ∃ se, openRecorded die eng p s = { s with se := se } ∧ se.recs = ins s.se.recs (seamKey die eng x) (firstRec s die p) := by
    unfold openRecorded
    dsimp only
    rw [hrec, hkey, show (look [] (bumpSeq (openGroup p) p.srcDie p.srcTile s).se.early (ek die eng)).filter _ = [] from hnone]
    exact ⟨_, rfl, rfl⟩
  obtain ⟨se, hse, hrecs⟩ := hu
  have hr : recOf { s with se := se } (seamKey die eng x) = some (firstRec s die p) := by
    unfold recOf
    rw [show ({ s with se := se } : State).se.recs = _ from hrecs, lookQ_ins, if_pos rfl]
  refine ⟨{ s with se := se }, changesOnly_of_clr _ _ _ (upd_se _ rfl _ _), hr, ?_⟩
  rw [acceptOpen_eq hslot, hkey, hse, hr]

end
end

/-! ### SEAM_OPEN evaluated -/

section
variable {s u : State} {die eng k i x : Nat} {p : Packet} {w : Word} {r : SeamRec}

theorem seamOpen_frame (s : State) (die eng : Nat) (p : Packet) :
    ChangesOnly [.rg, .nt, .se, .pr, .lk, .out] s (openArrive die eng p (consume die (engTile die eng) p s)) :=
  changesOnly_of_clr _ _ _ ((openArrive_clr _ rfl rfl rfl rfl rfl rfl _ _ _ _).trans (consume_clr _ rfl _ _ _ _))

/-- What an evaluation that answers leaves. -/
theorem openArrive_answers (hgo : s.pr.following = false ∧ s.fw.carried = false)
    (h : (∃ x, firstAdm s die eng p = .refuse x) ∨ isLateShadow s p = false) :
    ∃ x, openArrive die eng p (consume die (engTile die eng) p s) = sendAdmit die eng (numbered s p) (firstAdm s die eng p)
      (afterOutcome die eng (numbered s p) (firstAdm s die eng p) (evaluating die eng p x s)) := by
  have hlate : isLateShadow (reached die eng p s) (numbered s p) = isLateShadow s p := rfl
  rw [openArrive_evaluated hgo, evalOpen_now (by rw [hlate]; exact h)]
  exact applyOpen_first _ _

theorem settleServing_nil (now : Nat) (prim : Nat × Nat) (o : MemberOpen) : settleServing now prim o [] = [o] := by
  simp [settleServing]

/-- The first open of a seam: its record holds it alone, and it is answered. -/
theorem accept_starts (hs : SendsAlike s u) (htm : u.tm = s.tm) (hslot : openSlot u p = some (i, w)) (hrec : openRec u p = none)
    (hfree : freeRec u die eng = some x)
    (hearly : ∀ y ∈ look [] u.se.early (ek die eng), y.operand.toNat ≠ openGroup p * 2 ^ 48 + openSeq u p) :
    let t := sendAdmit die eng p .accept (acceptOpen die eng p u)
    Answered s t die (engTile die eng) (engPort die) p 0xA0 (w64 (admWord .accept + pressOf s die % 2 ^ 32 * 2 ^ 32)) [] ∧
      ∃ r o, recOf t (seamKey die eng x) = some r ∧ r.group = openGroup p ∧ r.gseq = openSeq u p ∧ r.ctx = p.ctx ∧ r.phase = 0 ∧
        r.opens = [o] ∧ o.die = p.srcDie ∧ o.tile = p.srcTile ∧ o.desc = descOf p.payload ∧ o.shadow = false ∧
        o.rank = gRankBase u (openGroup p) + i := by
  obtain ⟨v, hv, hr, heq⟩ := acceptOpen_starts hslot hrec hfree hearly
  obtain ⟨r, hr', hphase, hgroup, hgseq, hctx, hopens, hframe⟩ := joinOpen_effect (p := p) (w := w) (die := die)
    (rank := gRankBase u (openGroup p) + i) hr
  rw [heq]
  intro t
  have hse := hframe (show (0 : Nat) ≠ 1 by decide)
  refine ⟨sendAdmit_answered ((hs.of_se hv).of_se hse) (((hse .tm (by decide)).trans (hv .tm (by decide))).trans htm) _, r,
    memberOpen v p (gRankBase u (openGroup p) + i) false, hr', hgroup, hgseq, hctx, hphase, ?_, rfl, rfl, rfl, rfl, rfl⟩
  rw [hopens]
  exact settleServing_nil _ _ _

/-- A further open of a seam joins its record; where no tile is asked for its share it is answered first. -/
theorem accept_joins (hs : SendsAlike s u) (htm : u.tm = s.tm) (hslot : openSlot u p = some (i, w)) (hrec : openRec u p = some k)
    (hr : recOf u k = some r) :
    let t := sendAdmit die eng p .accept (acceptOpen die eng p u)
    ∃ r', recOf t k = some r' ∧ r'.phase = r.phase ∧
      (r.phase ≠ 1 →
        Answered s t die (engTile die eng) (engPort die) p 0xA0 (w64 (admWord .accept + pressOf s die % 2 ^ 32 * 2 ^ 32)) []) ∧
      ∃ o ∈ r'.opens, o.die = p.srcDie ∧ o.tile = p.srcTile ∧ o.desc = descOf p.payload := by
  have hv : ChangesOnly [.se] u (bumpSeq (openGroup p) p.srcDie p.srcTile u) := changesOnly_of_clr _ _ _ (bumpSeq_clr _ rfl _ _ _ _)
  obtain ⟨r', hr', hphase, -, -, -, hopens, hframe⟩ := joinOpen_effect (s := bumpSeq (openGroup p) p.srcDie p.srcTile u) (p := p) (w := w)
    (die := die) (rank := gRankBase u (openGroup p) + i) hr
  rw [acceptOpen_joins hslot hrec hr]
  intro t
  refine ⟨r', hr', hphase, fun hph => ?_, ?_⟩
  · have hse := hframe hph
    exact sendAdmit_answered ((hs.of_se hv).of_se hse) (((hse .tm (by decide)).trans (hv .tm (by decide))).trans htm) _
  · rw [hopens]
    exact mem_settleServing _ _ _ _

/-- A deferred open is kept and counted, and answered (R188, R191). -/
theorem defer_kept (hs : SendsAlike s u) (htm : u.tm = s.tm) :
    let t := sendAdmit die eng p (.defer x) (afterOutcome die eng p (.defer x) u)
    Answered s t die (engTile die eng) (engPort die) p 0xA0 (w64 (admWord (.defer x) + pressOf s die % 2 ^ 32 * 2 ^ 32)) [] ∧
      t.se.recs = u.se.recs ∧ look [] t.se.deferred (ek die eng) = look [] u.se.deferred (ek die eng) ++ [p] ∧
      deferOf t die (engTile die eng) p.ctx (deferIdx x) = deferOf u die (engTile die eng) p.ctx (deferIdx x) + 1 := by
  refine ⟨sendAdmit_answered (u := afterOutcome die eng p (.defer x) u) hs htm _, rfl, ?_, ?_⟩
  · exact (look_upd [] u.se.deferred (ek die eng) (ek die eng) (· ++ [p])).trans (if_pos rfl)
  · let key := deferKey die (engTile die eng) p.ctx (deferIdx x)
    exact (look_upd 0 u.nt.defer key key (· + 1)).trans (if_pos rfl)

/-- A refused open changes no record and is answered. -/
theorem refuse_answered (hs : SendsAlike s u) (htm : u.tm = s.tm) :
    let t := sendAdmit die eng p (.refuse x) (afterOutcome die eng p (.refuse x) u)
    Answered s t die (engTile die eng) (engPort die) p 0xA0 (w64 (admWord (.refuse x) + pressOf s die % 2 ^ 32 * 2 ^ 32)) [] ∧
      t.se.recs = u.se.recs ∧ t.se.deferred = u.se.deferred ∧ openSeq t p = if x = 0x50 then openSeq u p + 1 else openSeq u p := by
  obtain ⟨hrecs, hdeferred, ⟨hin, hclk, hspare⟩, htm', hseq⟩ := afterRefusal_effect (p := p) x u
  obtain ⟨hin0, hclk0, hspare0⟩ := hs
  exact ⟨sendAdmit_answered (u := afterRefusal p x u) ⟨hin.trans hin0, hclk.trans hclk0, hspare.trans hspare0⟩ (htm'.trans htm) _,
    hrecs, hdeferred, hseq⟩

end

/-! ### SEAM_OPEN whole -/

section
variable {s : State} {die eng : Nat} {p : Packet}

theorem seamOpen_refused (hf : fenced s die (engTile die eng) = true) :
    ∃ t, exec (.seamOpen die eng p) s = .next t ∧ Refused s t die (engTile die eng) (engPort die) p 0x20 ∧ t.se = s.se :=
  ⟨_, exec_seamOpen_fenced hf, replyStatus_refused _ _ _ _ _ _, rfl⟩

theorem seamOpen_keeps (hf : fenced s die (engTile die eng) = false) (h : s.pr.following = true ∨ s.fw.carried = true) :
    ∃ t, exec (.seamOpen die eng p) s = .next t ∧ t.nt.inject = s.nt.inject ∧ t.se.recs = s.se.recs ∧
      look [] t.se.mirror (ek die eng) = look [] s.se.mirror (ek die eng) ++ [numbered s p] := by
  rw [exec_seamOpen hf, openArrive_kept h]
  exact ⟨_, rfl, rfl, rfl, (look_upd [] s.se.mirror (ek die eng) (ek die eng) (· ++ [numbered s p])).trans (if_pos rfl)⟩

theorem seamOpen_late {k : Nat} {r : SeamRec} (hf : fenced s die (engTile die eng) = false)
    (hgo : s.pr.following = false ∧ s.fw.carried = false) (ha : ¬ ∃ x, firstAdm s die eng p = .refuse x) (hl : isLateShadow s p = true)
    (hrec : openRec s p = some k) (hr : recOf s k = some r) :
    ∃ t, exec (.seamOpen die eng p) s = .next t ∧ t.nt.inject = s.nt.inject ∧
      recOf t k = some { r with lateOpens := r.lateOpens ++ [(numbered s p, true)] } := by
  have hlate : isLateShadow (reached die eng p s) (numbered s p) = true := hl
  have hheld : openRec (reached die eng p s) (numbered s p) = some k := hrec
  rw [exec_seamOpen hf, openArrive_evaluated hgo, evalOpen_late ha hlate, holdLate_some hheld]
  have hin (f : SeamRec → SeamRec) : (modRec k f (reached die eng p s)).nt = (reached die eng p s).nt :=
    modRec_only_se k f _ .nt (by decide)
  exact ⟨_, rfl, (congrArg Net.inject (hin _)).trans rfl, recOf_modRec _ hr⟩

section
variable (hgo : s.pr.following = false ∧ s.fw.carried = false)
  (hnow : (∃ x, firstAdm s die eng p = .refuse x) ∨ isLateShadow s p = false)
include hgo hnow

theorem openArrive_accepts (ha : firstAdm s die eng p = .accept) :
    let t := openArrive die eng p (consume die (engTile die eng) p s)
    let answered := Answered s t die (engTile die eng) (engPort die) p 0xA0 (w64 (admWord .accept + pressOf s die % 2 ^ 32 * 2 ^ 32)) []
    openSeq t p = openSeq s p + 1 ∧
      (openRec s p = none → (∀ y ∈ look [] s.se.early (ek die eng), y.operand.toNat ≠ openGroup p * 2 ^ 48 + openSeq s p) →
        answered ∧ ∃ x r o, freeRec s die eng = some x ∧ recOf t (seamKey die eng x) = some r ∧ r.group = openGroup p ∧
          r.gseq = openSeq s p ∧ r.ctx = p.ctx ∧ r.phase = 0 ∧ r.opens = [o] ∧ o.die = p.srcDie ∧ o.tile = p.srcTile ∧
          o.desc = descOf p.payload ∧ o.shadow = false ∧
          ∀ i w, openSlot s p = some (i, w) → o.rank = gRankBase s (openGroup p) + i) ∧
      ∀ k r, openRec s p = some k → recOf s k = some r → ∃ r', recOf t k = some r' ∧ r'.phase = r.phase ∧
        (r.phase ≠ 1 → answered) ∧ ∃ o ∈ r'.opens, o.die = p.srcDie ∧ o.tile = p.srcTile ∧ o.desc = descOf p.payload := by
  obtain ⟨⟨i, w, hslot⟩, hroom⟩ := openAdm_accept (firstAdm_accept ha)
  obtain ⟨x, hx⟩ := openArrive_answers hgo hnow
  rw [ha] at hx
  rw [hx]
  have hs : SendsAlike s (evaluating die eng p x s) := ⟨rfl, rfl, rfl⟩
  have hslot' : openSlot (evaluating die eng p x s) (numbered s p) = some (i, w) := hslot
  refine ⟨?_, fun hnone hearly => ?_, fun k r hrec hr => ?_⟩
  · exact openSeq_acceptOpen hslot'
  · obtain ⟨y, hfree⟩ := hroom hnone
    obtain ⟨hans, r, o, hr, hgroup, hgseq, hctx, hphase, hopens, hdie, htile, hdesc, hshadow, hrank⟩ :=
      accept_starts (p := numbered s p) hs rfl hslot' hnone hfree hearly
    refine ⟨hans, y, r, o, hfree, hr, hgroup, hgseq, hctx, hphase, hopens, hdie, htile, hdesc, hshadow, fun i' w' hslot2 => ?_⟩
    obtain ⟨rfl, -⟩ := Prod.mk.inj (Option.some.inj (hslot.symm.trans hslot2))
    exact hrank
  · exact accept_joins (p := numbered s p) hs rfl hslot' hrec hr

theorem openArrive_defers {x : Nat} (ha : firstAdm s die eng p = .defer x) :
    let t := openArrive die eng p (consume die (engTile die eng) p s)
    Answered s t die (engTile die eng) (engPort die) p 0xA0 (w64 (admWord (.defer x) + pressOf s die % 2 ^ 32 * 2 ^ 32)) [] ∧
      t.se.recs = s.se.recs ∧ look [] t.se.deferred (ek die eng) = look [] s.se.deferred (ek die eng) ++ [numbered s p] ∧
      deferOf t die (engTile die eng) p.ctx (deferIdx x) = deferOf s die (engTile die eng) p.ctx (deferIdx x) + 1 := by
  obtain ⟨y, hy⟩ := openArrive_answers hgo hnow
  rw [ha] at hy
  rw [hy]
  exact defer_kept (u := evaluating die eng p y s) ⟨rfl, rfl, rfl⟩ rfl

theorem openArrive_refuses {x : Nat} (ha : firstAdm s die eng p = .refuse x) :
    let t := openArrive die eng p (consume die (engTile die eng) p s)
    Answered s t die (engTile die eng) (engPort die) p 0xA0 (w64 (admWord (.refuse x) + pressOf s die % 2 ^ 32 * 2 ^ 32)) [] ∧
      t.se.recs = s.se.recs ∧ t.se.deferred = s.se.deferred ∧ openSeq t p = if x = 0x50 then openSeq s p + 1 else openSeq s p := by
  obtain ⟨y, hy⟩ := openArrive_answers hgo hnow
  rw [ha] at hy
  rw [hy]
  exact refuse_answered (u := evaluating die eng p y s) (p := numbered s p) ⟨rfl, rfl, rfl⟩ rfl

end
end

end Sys2Proof.Machine
end

section
/-! SUPPORT. SEAM_DONE and SEAM_ADMIT at a member tile (R317, R321, R338); O48. -/
namespace Sys2Proof.Machine

section
variable {s : State} {die n : Nat} {p : Packet} {o : OpenPost}

/-! ### Records without a place -/

theorem cqRecord_none {ctx : Nat} (r : List Byte) (h : cqOf s die n ctx = none) : cqRecord die n ctx r s = cipCount die n 6 s := by
  unfold cqRecord
  rw [h]

theorem opens_cqRecord (ctx : Nat) (r : List Byte) (s : State) :
    (cipOf (cqRecord die n ctx r s) die n).opens = (cipOf s die n).opens := by
  unfold cqRecord
  split
  · rfl
  · split
    · rfl
    · rw [cipOf_makeVisible, modQueue, cipOf_modCip_same]

theorem opens_cqRelease (ctx k : Nat) (s : State) :
    (cipOf (cqRelease die n ctx k s) die n).opens = (cipOf s die n).opens := by
  unfold cqRelease
  split
  · rfl
  · rw [modQueue, cipOf_modCip_same]

/-! ### SEAM_DONE -/

theorem exec_seamDone (hf : fenced s die n = false) : exec (.seamDone die n p) s =
    .next (settleTile die n (cqRecord die n p.ctx (padTo 16 p.payload) (consume die n p s))) :=
  congrArg Host.Outcome.next (cipAnswer_open hf _)

theorem seamDone_frame (r : List Byte) (s : State) :
    ChangesOnly [.rg, .nt, .ci, .out] s (cqRecord die n p.ctx r (consume die n p s)) :=
  changesOnly_of_clr _ _ _ ((cqRecord_clr _ rfl rfl rfl _ _ _ _ _).trans (consume_clr _ rfl _ _ _ _))

/-- The record finds its reserved entry. -/
theorem seamDone_writes {q : Nat} (r : List Byte) (hq : cqOf s die n p.ctx = some q) (hr : (queueOf s die n q).resv ≠ 0) :
    ∃ e, (queueOf (cqRecord die n p.ctx r (consume die n p s)) die n q).visible = (queueOf s die n q).visible ++ [e] ∧ e.data = r := by
  obtain ⟨e, hdata, hvis⟩ := cqRecord_written die n r (consume die n p s) hq hr
  exact ⟨e, hvis, hdata⟩

/-- Without a completion queue the record is counted. -/
theorem seamDone_counts (r : List Byte) (h : cqOf s die n p.ctx = none) :
    let u := cqRecord die n p.ctx r (consume die n p s)
    u.ci = s.ci ∧ countOf u die (cipPage s die n) 6 = countOf s die (cipPage s die n) 6 + 1 := by
  have h' : cqOf (consume die n p s) die n p.ctx = none := h
  rw [cqRecord_none r h']
  exact ⟨rfl, (countOf_addCount_page die (cipPage s die n) 6 6 1 (consume die n p s)).trans (if_pos rfl)⟩

/-! ### SEAM_ADMIT -/

/-- The outcome word of an admission answer, and the record that holds it. -/
def admitWord (p : Packet) : Nat := bits p.operand.toNat 15 0
def admitRecord (p : Packet) (o : OpenPost) : List Byte :=
  seamRecord (field o.desc 6 2) 3 0 (admitWord p) 0 0 (bits p.operand.toNat 63 32)

/-- The open is no longer pending; its record is written; a refused one gives its second entry back. -/
def admitFreed (die n : Nat) (p : Packet) : State → State :=
  modCip die n fun c => { c with opens := c.opens.filter fun x => x.sseq ≠ p.sseq }
def admitRecorded (die n : Nat) (p : Packet) (o : OpenPost) (s : State) : State :=
  cqRecord die n o.ctx (admitRecord p o) (admitFreed die n p s)
def admitReleased (die n : Nat) (p : Packet) (o : OpenPost) (s : State) : State :=
  if admitWord p / 2 ^ 14 = 2 then cqRelease die n o.ctx 1 (admitRecorded die n p o s) else admitRecorded die n p o s

theorem admitArrive_found (h : (cipOf s die n).opens.find? (fun x => decide (x.sseq = p.sseq)) = some o) :
    admitArrive die n p s = cipRsp die n o.stream 0 (leBytes 2 (admitWord p)) (admitReleased die n p o s) := by
  unfold admitArrive
  rw [h]
  rfl

theorem exec_seamAdmit (hf : fenced s die n = false) (hclean : poisonStatus p = 0)
    (h : (cipOf s die n).opens.find? (fun x => decide (x.sseq = p.sseq)) = some o) : exec (.seamAdmit die n p) s =
      .next (settleTile die n (cipRsp die n o.stream 0 (leBytes 2 (admitWord p)) (admitReleased die n p o (consume die n p s)))) := by
  have hgood : marked p (admitArrive die n p) (cipStatus die n p) = admitArrive die n p := if_neg (not_not.mpr hclean)
  have h' : (cipOf (consume die n p s) die n).opens.find? (fun x => decide (x.sseq = p.sseq)) = some o := h
  refine congrArg Host.Outcome.next ?_
  rw [cipAnswer_open hf, hgood, admitArrive_found h']

theorem opens_admitReleased : (cipOf (admitReleased die n p o s) die n).opens =
    (cipOf s die n).opens.filter fun x => decide (x.sseq ≠ p.sseq) := by
  have hrecorded : (cipOf (admitRecorded die n p o s) die n).opens =
      (cipOf s die n).opens.filter fun x => decide (x.sseq ≠ p.sseq) := by
    rw [admitRecorded, opens_cqRecord, admitFreed, cipOf_modCip_same]
  unfold admitReleased
  split
  · rw [opens_cqRelease, hrecorded]
  · exact hrecorded

/-- The record takes one reserved entry, and a refusal gives the second one back (R338). -/
theorem queueOf_admitReleased {q : Nat} (hq : cqOf s die n o.ctx = some q) (hr : (queueOf s die n q).resv ≠ 0) :
    ∃ e, e.data = admitRecord p o ∧ (queueOf (admitReleased die n p o s) die n q).visible = (queueOf s die n q).visible ++ [e] ∧
      (queueOf (admitReleased die n p o s) die n q).resv =
        (queueOf s die n q).resv - (if admitWord p / 2 ^ 14 = 2 then 2 else 1) := by
  have hqueue : queueOf (admitFreed die n p s) die n q = queueOf s die n q := by
    unfold queueOf
    rw [admitFreed, cipOf_modCip_same]
  obtain ⟨qs, hcip, hlook⟩ := cipOf_cqRecord (s := admitFreed die n p s) (admitRecord p o) (q := q) hq (by rwa [hqueue])
  have hrec : queueOf (admitRecorded die n p o s) die n q =
      withRecord (recordEntry (admitFreed die n p s) die n (admitRecord p o)) (queueOf s die n q) := by
    rw [queueOf, admitRecorded, hcip, hlook, hqueue]
  have hcq : cqOf (admitRecorded die n p o s) die n o.ctx = some q :=
    (((OnlyCipsDiffer.refl s).modCip die n _).cqRecord die n o.ctx _ |>.same (cqOf · die n o.ctx) fun _ _ _ => rfl).trans hq
  refine ⟨recordEntry (admitFreed die n p s) die n (admitRecord p o), rfl, ?_⟩
  unfold admitReleased
  split
  · rw [cqRelease_eq 1 hcq, queueOf_modQueue, hrec]
    exact ⟨rfl, rfl⟩
  · rw [hrec]
    exact ⟨rfl, rfl⟩

theorem settles_seamAdmit (hf : fenced s die n = false) (hclean : poisonStatus p = 0)
    (h : (cipOf s die n).opens.find? (fun x => decide (x.sseq = p.sseq)) = some o) :
    Settles (.seamAdmit die n p) s die n fun u => u.out.getLast? = some (.cipRsp die n o.stream 0 (leBytes 2 (admitWord p))) ∧
      (cipOf u die n).opens = (cipOf s die n).opens.filter (fun x => decide (x.sseq ≠ p.sseq)) ∧
      ∀ q, cqOf s die n o.ctx = some q → (queueOf s die n q).resv ≠ 0 →
        (∃ e, (queueOf u die n q).visible = (queueOf s die n q).visible ++ [e] ∧ e.data = admitRecord p o) ∧
        (queueOf u die n q).resv = (queueOf s die n q).resv - (if admitWord p / 2 ^ 14 = 2 then 2 else 1) := by
  refine ⟨_, ⟨?_, ?_, fun q hq hr => ?_⟩, exec_seamAdmit hf hclean h⟩
  · exact List.getLast?_concat
  · exact opens_admitReleased (s := consume die n p s)
  · obtain ⟨e, hdata, hvis, hresv⟩ := queueOf_admitReleased (s := consume die n p s) (p := p) hq hr
    exact ⟨⟨e, hvis, hdata⟩, hresv⟩

end

end Sys2Proof.Machine
end

section
/-! SUPPORT. SEAM_SUMMARY at a home engine (R325, R347; log 36); O48. -/
namespace Sys2Proof.Machine

/-! ### Pieces of a payload -/

theorem chunk_nil (n f : Nat) : chunk n f [] = [] := by
  cases f <;> rfl

theorem chunk_of_fits {n f : Nat} {bs : List Byte} (hne : bs ≠ []) (hlen : bs.length ≤ n) : chunk n (f + 1) bs = [bs] := by
  match bs, hne with
  | b :: bs, _ =>
    rw [chunk, List.take_of_length_le hlen, List.drop_of_length_le hlen, chunk_nil]
    nofun

theorem length_chunk_le (n f : Nat) (bs : List Byte) : (chunk n f bs).length ≤ f := by
  induction f generalizing bs with
  | zero => exact Nat.le_refl 0
  | succ f ih =>
    match bs with
    | [] => exact Nat.zero_le _
    | b :: bs => exact Nat.succ_le_succ (ih _)

/-- A piece holds one to n bytes. -/
theorem mem_chunk {n f : Nat} {bs x : List Byte} (hn : 0 < n) (h : x ∈ chunk n f bs) : x ≠ [] ∧ x.length ≤ n := by
  induction f generalizing bs with
  | zero => cases h
  | succ f ih =>
    match bs with
    | [] => cases h
    | b :: bs =>
      rcases List.mem_cons.mp h with rfl | hrest
      · refine ⟨?_, List.length_take_le _ _⟩
        rw [ne_eq, List.take_eq_nil_iff, not_or]
        exact ⟨hn.ne', nofun⟩
      · exact ih hrest

theorem flatten_ne_nil_of_mem_chunk {n f : Nat} {bs : List Byte} {xs : List (List Byte)} (hn : 0 < n) (hsub : xs.Sublist (chunk n f bs))
    (hne : xs ≠ []) : xs.flatten ≠ [] := by
  obtain ⟨x, hx⟩ := List.exists_mem_of_ne_nil xs hne
  exact fun h => (mem_chunk hn (hsub.subset hx)).1 (List.flatten_eq_nil_iff.mp h x hx)

theorem length_flatten_le_of_chunk {n f : Nat} {bs : List Byte} {xs : List (List Byte)} (hn : 0 < n)
    (hsub : xs.Sublist (chunk n f bs)) : xs.flatten.length ≤ f * n := by
  have hsum : (xs.map List.length).sum ≤ (xs.map List.length).length • n := by
    refine List.sum_le_card_nsmul _ n fun y hy => ?_
    obtain ⟨x, hx, rfl⟩ := List.mem_map.mp hy
    exact (mem_chunk hn (hsub.subset hx)).2
  rw [List.length_flatten]
  calc (xs.map List.length).sum ≤ xs.length * n := by simpa using hsum
    _ ≤ f * n := Nat.mul_le_mul_right n (hsub.length_le.trans (length_chunk_le n f bs))

/-! ### SEAM_SUMMARY -/

section
variable {s : State} {die eng x k : Nat} {p : Packet} {r : SeamRec}

/-- The summaries of a packet that a record has not, and those that go on: a package's own does not go back to it. -/
def newSummaries (r : SeamRec) (p : Packet) : List (List Byte) :=
  (chunk 64 8 p.payload).filter fun b => r.summaries.all fun y => decide (field y 0 2 ≠ field b 0 2)
def onSummaries (s : State) (r : SeamRec) (p : Packet) : List (List Byte) :=
  (newSummaries r p).filter fun b => decide (field b 0 2 ≠ gNext s r.group)

/-- A record that has taken summaries. -/
def withSummaries (xs : List (List Byte)) (r : SeamRec) : SeamRec := { r with summaries := r.summaries ++ xs }

/-- The record of a seam has taken the packet's new summaries. -/
def summarized (k : Nat) (r : SeamRec) (p : Packet) (s : State) : State := modRec k (withSummaries (newSummaries r p)) s

/-- The packet in which summaries go on. -/
def summaryPacket (s : State) (k : Nat) (r : SeamRec) (bs : List Byte) : Packet :=
  { reducePkt s 0x21 r.ctx (keyDie k) (engTile (keyDie k) (keyEng k)) 9 (engAddr (gNext s r.group) (keyDie k) (keyEng k) 0) [] bs with
    operand := w64 (r.group * 2 ^ 48 + r.gseq) }

theorem onSummaries_sublist : (onSummaries s r p).Sublist (chunk 64 8 p.payload) := List.filter_sublist.trans List.filter_sublist

theorem sendSummaries_on (hon : onSummaries s r p ≠ []) (u : State) (hu : gNext u r.group = gNext s r.group) :
    sendSummaries k r (gNext s r.group) (onSummaries s r p) u = engSend k (summaryPacket u k r (onSummaries s r p).flatten) u := by
  have hne := flatten_ne_nil_of_mem_chunk (by decide) (onSummaries_sublist (s := s)) hon
  have hlen : (onSummaries s r p).flatten.length ≤ 512 := length_flatten_le_of_chunk (by decide) onSummaries_sublist
  unfold sendSummaries summaryPacket
  rw [chunk_of_fits hne hlen, hu]
  rfl

/-- Where a packet's record is known: its summaries are taken, and on the ring go on. -/
theorem summaryArrive_eq (hr : recOf s k = some r) : summaryArrive k p s =
    if p.srcPkg / 64 = pkgNo s / 64 then
      if onSummaries s r p = [] then summarized k r p s
      else sendSummaries k r (gNext s r.group) (onSummaries s r p) (summarized k r p s)
    else summarized k r p s := by
  have hse : ∃ se, summarized k r p s = { s with se := se } := ⟨_, modRec_some hr⟩
  obtain ⟨se, hse⟩ := hse
  have htaken : summaryArrive k p s = (let u := summarized k r p s
      if p.srcPkg / 64 = pkgNo u / 64 then
        if onSummaries u r p = [] then u else sendSummaries k r (gNext u r.group) (onSummaries u r p) u
      else u) := by
    unfold summaryArrive
    rw [hr]
    rfl
  rw [htaken, hse]
  rfl

theorem recOf_summaryArrive (hr : recOf s k = some r) :
    recOf (summaryArrive k p s) k = some (withSummaries (newSummaries r p) r) := by
  have hsum : recOf (summarized k r p s) k = some (withSummaries (newSummaries r p) r) := recOf_modRec _ hr
  rw [summaryArrive_eq hr]
  split
  · split
    · exact hsum
    · exact (recOf_of_se (sendSummaries_se k r _ _ _) k).trans hsum
  · exact hsum

theorem summaryArrive_ends (hr : recOf s k = some r) (h : p.srcPkg / 64 ≠ pkgNo s / 64 ∨ onSummaries s r p = []) :
    summaryArrive k p s = summarized k r p s := by
  rw [summaryArrive_eq hr]
  rcases h with hpkg | hon
  · exact if_neg hpkg
  · rw [if_pos hon, ite_self]

theorem gNext_summarized (hr : recOf s k = some r) : gNext (summarized k r p s) r.group = gNext s r.group := by
  rw [summarized, modRec_some hr]
  rfl

theorem summaryArrive_goesOn (hr : recOf s k = some r) (hpkg : p.srcPkg / 64 = pkgNo s / 64) (hon : onSummaries s r p ≠ []) :
    summaryArrive k p s =
      engSend k (summaryPacket (summarized k r p s) k r (onSummaries s r p).flatten) (summarized k r p s) := by
  rw [summaryArrive_eq hr, if_pos hpkg, if_neg hon, sendSummaries_on hon _ (gNext_summarized hr)]

theorem summarized_frame : ChangesOnly [.nt, .se] s (summarized k r p (consume die eng p s)) :=
  changesOnly_of_clr _ _ _ ((modRec_clr _ rfl _ _ _).trans (consume_clr _ rfl _ _ _ _))

theorem inject_summarized (u : State) : (summarized k r p u).nt.inject = u.nt.inject :=
  congrArg Net.inject (modRec_only_se k (withSummaries (newSummaries r p)) u .nt (by decide))

theorem exec_seamSummary_some (h : namedRec s die eng x p = some k) :
    exec (.seamSummary die eng x p) s = .next (summaryArrive k p (consume die (engTile die eng) p s)) := by
  have h' : namedRec (consume die (engTile die eng) p s) die eng x p = some k := h
  refine congrArg Host.Outcome.next ?_
  unfold summaryAt
  rw [h']

theorem exec_seamSummary_none (h : namedRec s die eng x p = none) : ∃ t, exec (.seamSummary die eng x p) s = .next t ∧
    t.nt.inject = s.nt.inject ∧ t.se.recs = s.se.recs ∧
      look [] t.se.early (ek die eng) = look [] s.se.early (ek die eng) ++ [p] := by
  have h' : namedRec (consume die (engTile die eng) p s) die eng x p = none := h
  have hexec : exec (.seamSummary die eng x p) s = .next (summaryAt die eng x p (consume die (engTile die eng) p s)) := rfl
  rw [hexec]
  unfold summaryAt
  rw [h']
  exact ⟨_, rfl, rfl, rfl, (look_upd [] s.se.early (ek die eng) (ek die eng) (· ++ [p])).trans (if_pos rfl)⟩

theorem seamSummary_frame (s : State) : ChangesOnly [.rg, .nt, .se, .lk, .out] s (summaryArrive k p (consume die eng p s)) :=
  changesOnly_of_clr _ _ _ ((summaryArrive_clr _ rfl rfl rfl rfl rfl _ _ _).trans (consume_clr _ rfl _ _ _ _))

end

end Sys2Proof.Machine
end

section
/-! SUPPORT. Seams open and answer (O48). -/
namespace Sys2Proof.Machine

/-- Settles O48: an evaluated open is answered from a state that sends as the one before it, its record made or joined by `joinOpen`; the
answers are read off the member's queue, and on the ring the new summaries fill one packet. -/
theorem seamsOpenAndAnswer : Obligations.SeamsOpenAndAnswer := by
  refine ⟨?_, ?_, ?_⟩
  · intro s die eng p n d g gseq p' kept a refused answer go
    refine ⟨seamOpen_refused, seamOpen_keeps, ?_, ?_⟩
    · intro ⟨hf, hgo⟩ hn hl k r hrec hr
      exact seamOpen_late hf hgo hn hl hrec hr
    · intro ⟨hf, hgo⟩ hnow
      refine ⟨_, exec_seamOpen hf, seamOpen_frame s die eng p, fun hacc => ?_, fun x hdef => ?_, fun x href => ?_⟩
      · rw [show answer = _ from by unfold answer; rw [hacc]]
        exact openArrive_accepts hgo hnow hacc
      · rw [show answer = _ from by unfold answer; rw [hdef]]
        exact openArrive_defers hgo hnow hdef
      · rw [show answer = _ from by unfold answer; rw [href]]
        exact openArrive_refuses hgo hnow href
  · intro s die n p hf w writes
    refine ⟨⟨_, ⟨seamDone_frame _ s, fun q hq hr => seamDone_writes _ hq hr, seamDone_counts _⟩, exec_seamDone hf⟩, ?_⟩
    intro o hclean hfind
    obtain ⟨u, ⟨hout, hopens, hqueue⟩, hexec⟩ := settles_seamAdmit hf hclean hfind
    exact ⟨u, ⟨hout, hopens, fun q hq hr => (hqueue q hq hr).1, fun q hq hr => (hqueue q hq hr).2⟩, hexec⟩
  · intro s die eng x p
    refine ⟨exec_seamSummary_none, fun k r hk hr => ⟨_, exec_seamSummary_some hk, seamSummary_frame s, recOf_summaryArrive hr, ?_, ?_⟩⟩
    · intro h
      rw [summaryArrive_ends (s := consume die (engTile die eng) p s) hr h]
      exact ⟨summarized_frame, inject_summarized _⟩
    · intro hpkg hon
      have hnext : gNext (summarized k r p (consume die (engTile die eng) p s)) r.group = gNext s r.group :=
        gNext_summarized (s := consume die (engTile die eng) p s) hr
      exact ⟨_, _, summarized_frame, inject_summarized _, summaryArrive_goesOn (s := consume die (engTile die eng) p s) hr hpkg hon,
        rfl, rfl, by rw [← hnext]; rfl⟩

end Sys2Proof.Machine
end

section
/-! SUPPORT. The patch machine: what one instruction leaves of its darner, where it is done, where it is stopped, and where the next
instruction cannot be fetched (R278, R283, R284, R286); O34, O35. -/
namespace Sys2Proof.Machine

/-! ### Counting and moving on change no register -/

theorem countInstr_counts (m : Mach) :
    countInstr m = { m with bodyCount := (countInstr m).bodyCount, sideCount := (countInstr m).sideCount } := by
  unfold countInstr
  split <;> rfl

@[simp] theorem countInstr_bind (m : Mach) : (countInstr m).bind = m.bind := by rw [countInstr_counts]
@[simp] theorem countInstr_k (m : Mach) : (countInstr m).k = m.k := by rw [countInstr_counts]
@[simp] theorem countInstr_gidx (m : Mach) : (countInstr m).gidx = m.gidx := by rw [countInstr_counts]
@[simp] theorem countInstr_buffered (m : Mach) : (countInstr m).buffered = m.buffered := by rw [countInstr_counts]
@[simp] theorem countInstr_xflags (m : Mach) : (countInstr m).xflags = m.xflags := by rw [countInstr_counts]
@[simp] theorem sRead_countInstr (m : Mach) (r : Nat) (imm : Word) : sRead (countInstr m) r imm = sRead m r imm := by
  rw [countInstr_counts]; rfl
@[simp] theorem vRead_countInstr (m : Mach) (r : Nat) : vRead (countInstr m) r = vRead m r := by rw [countInstr_counts]; rfl
@[simp] theorem vFmt_countInstr (m : Mach) (r : Nat) : vFmt (countInstr m) r = vFmt m r := by rw [countInstr_counts]; rfl
@[simp] theorem pRead_countInstr (m : Mach) (i : Nat) : pRead (countInstr m) i = pRead m i := by rw [countInstr_counts]; rfl
@[simp] theorem slotOf_countInstr (m : Mach) (i : Nat) : slotOf (countInstr m) i = slotOf m i := by rw [countInstr_counts]; rfl

theorem pRead_advance (skip : Nat) (m : Mach) (i : Nat) : pRead (advance skip m) i = pRead m i := rfl
theorem slotOf_advance (skip : Nat) (m : Mach) (i : Nat) : slotOf (advance skip m) i = slotOf m i := rfl

/-! ### What a change of one darner leaves -/

theorem darnerOf_of_dr {s t : State} (h : t.dr = s.dr) (die n d : Nat) : darnerOf t die n d = darnerOf s die n d := by
  unfold darnerOf drnTile
  rw [h]

theorem darnerOf_modDarner_other (die n d n' e : Nat) (f : Darner → Darner) (s : State) (h : n' ≠ n ∨ e ≠ d) :
    darnerOf (modDarner die n d f s) die n' e = darnerOf s die n' e := by
  by_cases hn : n' = n
  · subst hn
    exact darnerOf_modDarner_ne _ _ _ _ _ _ (h.resolve_left fun h => h rfl)
  · have hk : tk die n' ≠ tk die n := fun h => hn (Nat.add_left_cancel h)
    simp [darnerOf, modDarner, hk]

/-- A machine stopped by a fault: its registers stand, its records are gone (R286). -/
def stopped (code : Nat) (m : Mach) : Mach := { m with sect := .done, fault := code, records := [], buffered := [] }

theorem patchFault_darners (u : DrnRef) (code : Nat) (s : State) (n e : Nat) :
    darnerOf (patchFault u code s) u.die n e =
      darnerOf (modDarner u.die u.tile u.darner (fun d => { d with mach := stopped code d.mach }) s) u.die n e := by
  unfold patchFault
  exact darnerOf_of_dr ((raise_same _ _ _ _ _ _ .dr (by decide)).trans (setReg_dr _ _ _ _ _ _)) _ _ _

theorem patchFault_darner (u : DrnRef) (code : Nat) (s : State) :
    darnerOf (patchFault u code s) u.die u.tile u.darner =
      { darnerOf s u.die u.tile u.darner with mach := stopped code (darnerOf s u.die u.tile u.darner).mach } :=
  (patchFault_darners u code s _ _).trans (darnerOf_modDarner _ _ _ _ _)

theorem patchFault_others (u : DrnRef) (code : Nat) (s : State) (n e : Nat) (h : n ≠ u.tile ∨ e ≠ u.darner) :
    darnerOf (patchFault u code s) u.die n e = darnerOf s u.die n e :=
  (patchFault_darners u code s _ _).trans (darnerOf_modDarner_other _ _ _ _ _ _ _ h)

theorem patchBit_lt (code : Nat) : patchBit code < 32 := by
  unfold patchBit
  split <;> decide

/-- The code of a patch fault is the low field of its PATCH_FAULT word. -/
theorem faultWord_code (pc ctx code : Nat) (h : code < 2 ^ 11) : wbits (w32 (pc * 2 ^ 22 + ctx * 2 ^ 11 + code)) 10 0 = code := by
  simp only [wbits, bits, w32, BitVec.toNat_ofNat, Nat.shiftRight_zero]
  omega

theorem patchStops_patchFault (s : State) (u : DrnRef) (code : Nat) (h : code < 2 ^ 11) : PatchStops s (patchFault u code s) u code := by
  refine ⟨patchFault_darner u code s, raise_bit _ _ _ _ _ _ (patchBit_lt code), ?_,
    changesOnly_of_clr _ _ _ (patchFault_clr _ rfl rfl rfl _ _ _)⟩
  refine (congrArg (wbits · 10 0) ((reg_of_eff (raise_eff _ _ _ _ _ _) _ _ _ _).trans (reg_setReg_same _ _ _ _ _ _))).trans ?_
  exact faultWord_code _ _ code h

/-- A machine put into its darner: the step it makes, with the fault of the next fetch. -/
theorem patchStep_fetchCheck (s : State) (u : DrnRef) (m : Mach) :
    PatchStep s (fetchCheck u (modDarner u.die u.tile u.darner (fun d => { d with mach := m }) s)) u m := by
  have hown := darnerOf_modDarner u.die u.tile u.darner (fun d => { d with mach := m }) s
  have hother := fun n e => darnerOf_modDarner_other u.die u.tile u.darner n e (fun d => { d with mach := m }) s
  have hframe : ChangesOnly [.rg, .dr, .ft] s (fetchCheck u (modDarner u.die u.tile u.darner (fun d => { d with mach := m }) s)) :=
    changesOnly_of_clr _ _ _ ((fetchCheck_clr _ rfl rfl rfl _ _).trans (modDarner_clr _ rfl _ _ _ _ _))
  generalize modDarner u.die u.tile u.darner (fun d => { d with mach := m }) s = s₁ at hown hother hframe
  unfold PatchStep
  by_cases hbad : badFetch s₁ u (darnerOf s₁ u.die u.tile u.darner) = true
  · obtain ⟨c, hc, hf⟩ : ∃ c, c ≠ 0 ∧ fetchCheck u s₁ = patchFault u c s₁ :=
      ⟨if overBudget (darnerOf s₁ u.die u.tile u.darner).mach then 0x40 else 0x41, by split <;> decide, if_pos hbad⟩
    rw [hf] at hframe ⊢
    rw [patchFault_darner, hown]
    exact ⟨rfl, rfl, fun h => absurd h hc, fun n e h => (patchFault_others u c s₁ n e h).trans (hother n e h), hframe⟩
  · have hf : fetchCheck u s₁ = s₁ := if_neg hbad
    rw [hf] at hframe ⊢
    rw [hown]
    exact ⟨rfl, rfl, fun _ => rfl, hother, hframe⟩

/-! ### One instruction (R278, R283, R286) -/

section
variable {s : State} {u : DrnRef} {op : Nat} {f : PFields} {legal : State → Darner → Bool}

/-- A ready and legal instruction leaves the machine its effect gives, and the next is fetched. -/
theorem patchStep_runPatch {eff : Nat → Mach → PRes} {m : Mach} (hr : PatchReady s u op f)
    (hl : legal s (darnerOf s u.die u.tile u.darner) = true)
    (he : eff (guardMask (darnerOf s u.die u.tile u.darner).mach f) (countInstr (darnerOf s u.die u.tile u.darner).mach) = .ok m) :
    PatchStep s (runPatch u op f legal eff s) u m := by
  obtain ⟨hcan, hbudget, -, hparity⟩ := hr
  simp only [runPatch, hcan, hbudget, hparity, hl, he, if_true, Bool.false_eq_true, if_false]
  exact patchStep_fetchCheck s u m

/-- A ready and legal instruction whose effect is a fault is stopped by it. -/
theorem patchStops_runPatch {eff : Nat → Mach → PRes} {code : Nat} (hr : PatchReady s u op f)
    (hl : legal s (darnerOf s u.die u.tile u.darner) = true) (hc : code < 2 ^ 11)
    (he : eff (guardMask (darnerOf s u.die u.tile u.darner).mach f) (countInstr (darnerOf s u.die u.tile u.darner).mach) = .fault code) :
    PatchStops s (runPatch u op f legal eff s) u code := by
  obtain ⟨hcan, hbudget, -, hparity⟩ := hr
  simp only [runPatch, hcan, hbudget, hparity, hl, he, if_true, Bool.false_eq_true, if_false]
  exact patchStops_patchFault s u code hc

/-- An instruction that only changes registers. -/
theorem patchStep_dataOp {always : Bool} {g : Nat → Mach → Mach} (hr : PatchReady s u op f)
    (hl : legal s (darnerOf s u.die u.tile u.darner) = true) :
    let m := (darnerOf s u.die u.tile u.darner).mach
    PatchStep s (runPatch u op f legal (dataOp always g) s) u
      (advance 0 (if always ∨ guardMask m f ≠ 0 then g (guardMask m f) (countInstr m) else countInstr m)) :=
  patchStep_runPatch hr hl rfl

end

end Sys2Proof.Machine
end

section
/-! SUPPORT. Patch instructions that write a scalar or a predicate (R224, R278 to R280); O34. -/
namespace Sys2Proof.Machine

section
variable {s : State} {u : DrnRef} {op : Nat} {f : PFields} {legal : State → Darner → Bool} {i : Instr}

/-! ### Scalar destinations -/

/-- The instruction writes its scalar destination with v, under a mask that is not empty. -/
def WritesScalar (s : State) (u : DrnRef) (f : PFields) (i : Instr) (v : Word) : Prop :=
  let m := (darnerOf s u.die u.tile u.darner).mach
  ∃ t, exec i s = .next t ∧
    PatchStep s t u (advance 0 (if guardMask m f = 0 then countInstr m else sWrite f.d v (countInstr m)))

theorem writesScalar_dataOp {g : Nat → Mach → Mach} {v : Word} (hr : PatchReady s u op f)
    (hi : exec i s = .next (runPatch u op f legal (dataOp false g) s)) (hl : legal s (darnerOf s u.die u.tile u.darner) = true)
    (hg : let m := (darnerOf s u.die u.tile u.darner).mach
      g (guardMask m f) (countInstr m) = sWrite f.d v (countInstr m)) : WritesScalar s u f i v := by
  have h := patchStep_dataOp (always := false) (g := g) hr hl
  simp only [Bool.false_eq_true, false_or, ne_eq, ite_not, hg] at h
  exact ⟨_, hi, h⟩

theorem salu_writesScalar {k : Nat} (hr : PatchReady s u 0x0D f) (hd : clsSD f.d = true) (ha : clsS f.a = true) (hb : clsS f.b = true)
    (hm : f.m = k) (hk : k < 8) :
    let m := (darnerOf s u.die u.tile u.darner).mach
    WritesScalar s u f (.salu u f) (saluOp k (sRead m f.a f.imm) (sRead m f.b f.imm)) :=
  writesScalar_dataOp hr rfl (by simp [hm, hk, hd, ha, hb]) (by simp [hm])

/-- A scalar destination is no vector register. -/
theorem not_vector_of_clsSD {d : Nat} (h : clsSD d = true) : ¬ d < 8 := by
  simp only [clsSD, Bool.and_eq_true, decide_eq_true_eq] at h
  omega

theorem mov_writesScalar (hr : PatchReady s u 0x08 f) (hm : f.m = 0) (hd : clsSD f.d = true) (ha : clsS f.a = true) :
    WritesScalar s u f (.mov u f) (sRead (darnerOf s u.die u.tile u.darner).mach f.a f.imm) :=
  writesScalar_dataOp hr rfl (by simp [mZero, hm, hd, ha]) (by simp [not_vector_of_clsSD hd])

theorem pcnt_writesScalar (hr : PatchReady s u 0x15 f) (hm : f.m = 0) (hd : clsSD f.d = true) :
    let m := (darnerOf s u.die u.tile u.darner).mach
    WritesScalar s u f (.pcnt u f) (w32 (popcount (pRead m f.a &&& guardMask m f))) :=
  writesScalar_dataOp hr rfl (by simp [mZero, hm, hd]) (by simp)

/-! ### Predicate destinations -/

/-- The instruction writes its predicate destination: bit x is p x under a 1 of the mask and 0 under a 0; no other register changes. -/
def WritesPredicate (s : State) (u : DrnRef) (f : PFields) (i : Instr) (p : Nat → Bool) : Prop :=
  let m := (darnerOf s u.die u.tile u.darner).mach
  ∃ t m', exec i s = .next t ∧ PatchStep s t u m' ∧ m' = { advance 0 (countInstr m) with p := m'.p } ∧
    (∀ x, x % 8 ≠ f.d % 8 → pRead m' x = pRead m x) ∧
    ∀ x, x < 16 → (pRead m' f.d).testBit x = ((guardMask m f).testBit x && p x)

theorem pRead_pWrite_same (m : Mach) (i v : Nat) (h : i % 8 ≠ 0) : pRead (pWrite i v m) i = v % 2 ^ 16 := by
  unfold pRead pWrite
  simp [h]

theorem pRead_pWrite_ne (m : Mach) (i j v : Nat) (h : j % 8 ≠ i % 8) : pRead (pWrite i v m) j = pRead m j := by
  unfold pRead pWrite
  simp [h]

/-- A predicate instruction writes the bits it computes under the mask. -/
theorem writesPredicate_dataOp {g : Mach → Nat} {p : Nat → Bool} (hr : PatchReady s u op f)
    (hi : exec i s = .next (runPatch u op f legal (dataOp true fun mask m => pWrite f.d (g m &&& mask) m) s))
    (hl : legal s (darnerOf s u.die u.tile u.darner) = true) (hd : f.d % 8 ≠ 0)
    (hg : ∀ x, x < 16 → (g (countInstr (darnerOf s u.die u.tile u.darner).mach)).testBit x = p x) : WritesPredicate s u f i p := by
  refine ⟨_, _, hi, patchStep_dataOp hr hl, rfl, fun x hx => ?_, fun x hx => ?_⟩
  · simp only [pRead_advance, true_or, if_true]
    rw [pRead_pWrite_ne _ _ _ _ hx, pRead_countInstr]
  · simp only [pRead_advance, true_or, if_true]
    rw [pRead_pWrite_same _ _ _ hd, Nat.testBit_mod_two_pow, Nat.testBit_and, hg x hx, Bool.and_comm (p x)]
    simp [hx]

/-- The sum of the powers of the numbers below n that satisfy c has exactly their bits. -/
theorem testBit_foldl_pow (c : Nat → Bool) (n x : Nat) :
    ((List.range n).foldl (fun p e => if c e then p + 2 ^ e else p) 0).testBit x = (decide (x < n) && c x) ∧
      (List.range n).foldl (fun p e => if c e then p + 2 ^ e else p) 0 < 2 ^ n := by
  induction n generalizing x with
  | zero => simp
  | succ n ih =>
    have hlt := (ih x).2
    have hbit := (ih x).1
    rw [List.range_succ, List.foldl_append]
    simp only [List.foldl_cons, List.foldl_nil]
    generalize (List.range n).foldl (fun p e => if c e then p + 2 ^ e else p) 0 = q at hlt hbit
    have hpow : 2 ^ (n + 1) = 2 * 2 ^ n := Nat.pow_succ'
    by_cases hc : c n = true
    · rw [if_pos hc, Nat.add_comm]
      refine ⟨?_, by omega⟩
      rcases Nat.lt_trichotomy x n with hx | hx | hx
      · rw [Nat.testBit_two_pow_add_gt hx, hbit]
        simp [hx, Nat.lt_succ_of_lt hx]
      · subst hx
        rw [Nat.testBit_two_pow_add_eq, Nat.testBit_lt_two_pow hlt]
        simp [hc]
      · have hle : 2 ^ (n + 1) ≤ 2 ^ x := Nat.pow_le_pow_right (by decide) hx
        rw [Nat.testBit_lt_two_pow (by omega)]
        simp [Nat.not_lt.mpr hx]
    · rw [if_neg hc]
      refine ⟨?_, by omega⟩
      rw [hbit]
      rcases Nat.lt_trichotomy x n with hx | hx | hx
      · simp [hx, Nat.lt_succ_of_lt hx]
      · simp [hx, hc]
      · simp [Nat.not_lt.mpr hx, Nat.lt_asymm hx]

theorem pset_writesPredicate (hr : PatchReady s u 0x12 f) (hm : f.m = 0) (hd : f.d % 8 ≠ 0) :
    WritesPredicate s u f (.pset u f) fun x => f.imm.toNat.testBit x :=
  writesPredicate_dataOp hr rfl (by simp [mZero, hm, clsPD, hd]) hd fun x hx => by
    rw [Nat.testBit_mod_two_pow, decide_eq_true hx, Bool.true_and]

theorem pone_writesPredicate (hr : PatchReady s u 0x13 f) (hm : f.m = 0) (hd : f.d % 8 ≠ 0) (ha : clsS f.a = true) :
    let m := (darnerOf s u.die u.tile u.darner).mach
    WritesPredicate s u f (.pone u f) fun x => decide (x = (sRead m f.a f.imm).toNat % groupSize m.bind) :=
  writesPredicate_dataOp hr rfl (by simp [mZero, hm, clsPD, hd, ha]) hd fun x _ => by
    simp [Nat.testBit_two_pow, eq_comm]

theorem testBit_plogOp (op a b x : Nat) (hop : op < 4) (hx : x < 16) : (plogOp op a b).testBit x =
    [a.testBit x && b.testBit x, a.testBit x || b.testBit x, a.testBit x ^^ b.testBit x, a.testBit x && !b.testBit x].getD op false := by
  have hones : Nat.testBit 0xFFFF x = true := by
    rw [show 0xFFFF = 2 ^ 16 - 1 from rfl, Nat.testBit_two_pow_sub_one]
    exact decide_eq_true hx
  match op, hop with
  | 0, _ => exact Nat.testBit_and ..
  | 1, _ => exact Nat.testBit_or ..
  | 2, _ => exact Nat.testBit_xor ..
  | 3, _ => simp [plogOp, hones]

theorem plog_writesPredicate {k : Nat} (hr : PatchReady s u 0x14 f) (hd : f.d % 8 ≠ 0) (hm : f.m = k) (hk : k < 4) :
    let x := pRead (darnerOf s u.die u.tile u.darner).mach f.a
    let y := pRead (darnerOf s u.die u.tile u.darner).mach f.b
    WritesPredicate s u f (.plog u f) fun i =>
      [x.testBit i && y.testBit i, x.testBit i || y.testBit i, x.testBit i ^^ y.testBit i, x.testBit i && !y.testBit i].getD k false :=
  writesPredicate_dataOp hr rfl (by simp [clsPD, hd, hm, hk]) hd fun x hx => by
    simpa only [hm, pRead_countInstr] using testBit_plogOp k _ _ x hk hx

theorem cls_writesPredicate (hr : PatchReady s u 0x11 f) (hm : f.m < 16) (hd : f.d % 8 ≠ 0) (ha : clsV f.a = true)
    (hmx : isMX (bFmt (darnerOf s u.die u.tile u.darner).mach.bind) = false) :
    let m := (darnerOf s u.die u.tile u.darner).mach
    WritesPredicate s u f (.cls u f) fun i => decide (i < groupSize m.bind) &&
      f.m.testBit (elemClass (vFmt m f.a) (vElem (fmtBits (vFmt m f.a)) (vRead m f.a) i)) :=
  writesPredicate_dataOp hr rfl (by simp [clsPD, hd, hm, ha, hmx]) hd fun x _ => by
    simpa using (testBit_foldl_pow _ _ x).1

/-! ### CMP -/

/-- CMP may stand with these operands and this condition. -/
theorem cmp_legal (hm : f.m < 6 ∨ (8 ≤ f.m ∧ f.m < 14)) (hd : f.d % 8 ≠ 0)
    (hmx : isMX (bFmt (darnerOf s u.die u.tile u.darner).mach.bind) = false)
    (ha : clsV f.a = true ∨ clsS f.a = true) (hb : clsV f.b = true ∨ clsS f.b = true) :
    ((f.m < 6 || (8 ≤ f.m && f.m < 14)) && clsPD f.d && (clsV f.a || clsS f.a) && (clsV f.b || clsS f.b) &&
      !isMX (bFmt (darnerOf s u.die u.tile u.darner).mach.bind)) = true := by
  simp [hm, clsPD, hd, hmx, ha, hb]

theorem cmp_scalars_writesPredicate (hr : PatchReady s u 0x10 f) (hm : f.m < 6 ∨ (8 ≤ f.m ∧ f.m < 14)) (hd : f.d % 8 ≠ 0)
    (hmx : isMX (bFmt (darnerOf s u.die u.tile u.darner).mach.bind) = false) (ha : clsS f.a = true) (hb : clsS f.b = true) :
    let m := (darnerOf s u.die u.tile u.darner).mach
    WritesPredicate s u f (.cmp u f) fun _ =>
      condHolds f.m (some (compare (sRead m f.a f.imm).toInt (sRead m f.b f.imm).toInt)) :=
  writesPredicate_dataOp hr rfl (cmp_legal hm hd hmx (.inr ha) (.inr hb)) hd fun x hx => by
    unfold cmpPred
    rw [if_pos ⟨ha, hb⟩]
    simp only [sRead_countInstr]
    split
    · next h => rw [h, show 0xFFFF = 2 ^ 16 - 1 from rfl, Nat.testBit_two_pow_sub_one]; exact decide_eq_true hx
    · next h => rw [Nat.zero_testBit]; exact (Bool.eq_false_iff.mpr h).symm

theorem cmp_elements_writesPredicate (hr : PatchReady s u 0x10 f) (hm : f.m < 6 ∨ (8 ≤ f.m ∧ f.m < 14)) (hd : f.d % 8 ≠ 0)
    (hmx : isMX (bFmt (darnerOf s u.die u.tile u.darner).mach.bind) = false)
    (ha : clsV f.a = true ∨ clsS f.a = true) (hb : clsV f.b = true ∨ clsS f.b = true) (hab : (clsS f.a && clsS f.b) = false) :
    let m := (darnerOf s u.die u.tile u.darner).mach
    let opnd (c r i : Nat) := if clsV r then vElem (fmtBits (vFmt m r)) (vRead m r) i else (sRead m r f.imm).toNat % 2 ^ fmtBits c
    let c := if clsV f.a then vFmt m f.a else vFmt m f.b
    let ca := if clsV f.a then vFmt m f.a else c
    let cb := if clsV f.b then vFmt m f.b else c
    WritesPredicate s u f (.cmp u f) fun i => decide (i < groupSize m.bind) &&
      condHolds f.m (if 8 ≤ f.m then keyCmp ca cb (opnd c f.a i) (opnd c f.b i) else valueCmp ca cb (opnd c f.a i) (opnd c f.b i)) :=
  writesPredicate_dataOp hr rfl (cmp_legal hm hd hmx ha hb) hd fun x _ => by
    unfold cmpPred
    rw [if_neg (by simpa using hab)]
    simp only [sRead_countInstr, vRead_countInstr, vFmt_countInstr, countInstr_bind]
    exact (testBit_foldl_pow _ _ x).1

end

/-- Settles O34: each instruction writes its scalar, or the bits it computes, and nothing else. -/
theorem patchScalarsAndPredicates : Obligations.PatchScalarsAndPredicates := by
  intro s u f m mask g a b sets bits16 opnd
  refine ⟨fun hr hd ha hb => ?_, mov_writesScalar, pcnt_writesScalar, fun hr hm hd hmx => ⟨?_, ?_⟩, cls_writesPredicate, pset_writesPredicate,
    pone_writesPredicate, fun hr hd => ?_⟩
  · have hop := fun {k} hm => salu_writesScalar (k := k) hr hd ha hb hm
    exact ⟨fun hm => hop hm (by decide), fun hm => hop hm (by decide), fun hm => hop hm (by decide), fun hm => hop hm (by decide),
      fun hm => hop hm (by decide), fun hm => hop hm (by decide), fun hm => hop hm (by decide), fun hm => hop hm (by decide)⟩
  · exact cmp_scalars_writesPredicate hr hm hd hmx
  · exact cmp_elements_writesPredicate hr hm hd hmx
  · have hop := fun {k} hm => plog_writesPredicate (k := k) hr hd hm
    exact ⟨fun hm => hop hm (by decide), fun hm => hop hm (by decide), fun hm => hop hm (by decide), fun hm => hop hm (by decide)⟩

end Sys2Proof.Machine
end

section
/-! SUPPORT. Patch instructions that change a slot or add records (R199, R205, R223, R232, R282, R284); O35. -/
namespace Sys2Proof.Machine

/-! ### Sums of accumulators -/

/-- A sum of accumulators field by field: the addends modulo 2^w, the marks joined (R198, R199). -/
theorem foldl_accAdd_fields {w : Nat} (es : List (AccW w)) (z : AccW w) :
    (es.foldl accAdd z).a = z.a + (es.map (·.a)).sum ∧ (es.foldl accAdd z).nan = (z.nan || es.any (·.nan)) ∧
      (es.foldl accAdd z).pinf = (z.pinf || es.any (·.pinf)) ∧ (es.foldl accAdd z).ninf = (z.ninf || es.any (·.ninf)) := by
  induction es generalizing z with
  | nil => simp
  | cons e es ih =>
    obtain ⟨ha, hnan, hpinf, hninf⟩ := ih (accAdd z e)
    rw [List.foldl_cons, ha, hnan, hpinf, hninf]
    simp [accAdd, BitVec.add_assoc, Bool.or_assoc]

/-- An integer enters with its value at the place of 2^0 (R205). -/
theorem enterInt_a {w : Nat} (off n k : Nat) :
    (enterInt off n k : AccW w).a = BitVec.ofInt w ((BitVec.ofNat n k).toInt * 2 ^ off) := by
  unfold enterInt
  generalize (BitVec.ofNat n k).toInt = v
  by_cases hv : v = 0
  · simp [hv, accZero]
  · have hval : (if decide (v < 0) then -((v.natAbs <<< off : Nat) : Int) else (v.natAbs <<< off : Nat)) = v * 2 ^ off := by
      rw [Nat.shiftLeft_eq]
      push_cast
      by_cases hneg : v < 0
      · rw [if_pos (decide_eq_true hneg), abs_of_neg hneg, Int.neg_mul, Int.neg_neg]
      · rw [if_neg (by simpa using hneg), abs_of_nonneg (Int.not_lt.mp hneg)]
    simp only [hv, if_false, accFinite]
    rw [show ((0 : Int) + (off : Int)).toNat = off by omega, hval]

theorem popcount_le (x : Nat) : popcount x ≤ 16 := (List.length_filter_le ..).trans (by simp)

theorem enterInt_popcount_a (x : Nat) : (enterInt 192 32 (popcount x) : Acc).a = BitVec.ofNat 384 (popcount x * 2 ^ 192) := by
  have hle := popcount_le x
  have hint : (BitVec.ofNat 32 (popcount x)).toInt = popcount x := by
    rw [BitVec.toInt_eq_toNat_of_lt] <;> rw [BitVec.toNat_ofNat, Nat.mod_eq_of_lt] <;> omega
  rw [enterInt_a, hint]
  exact BitVec.ofInt_natCast 384 (popcount x * 2 ^ 192)

/-! ### Slots -/

section
variable {s : State} {u : DrnRef} {op : Nat} {f : PFields} {legal : State → Darner → Bool} {i : Instr}

theorem slotOf_setSlot (m : Mach) (k j : Nat) (a : Acc) : slotOf (setSlot k a m) j = if j = k then a else slotOf m j :=
  look_put _ _ _ _ _

/-- The instruction leaves its slot as q says; no other slot or register changes. -/
def ChangesSlot (s : State) (u : DrnRef) (f : PFields) (i : Instr) (q : Acc → Prop) : Prop :=
  let m := (darnerOf s u.die u.tile u.darner).mach
  ∃ t m', exec i s = .next t ∧ PatchStep s t u m' ∧ m' = { advance 0 (countInstr m) with slots := m'.slots } ∧
    (∀ k, k ≠ f.d - 0x20 → slotOf m' k = slotOf m k) ∧ q (slotOf m' (f.d - 0x20))

/-- A slot instruction gives its slot the value it computes, unless its mask is empty. -/
theorem changesSlot_dataOp {g : Nat → Mach → Acc} {q : Acc → Prop} (hr : PatchReady s u op f)
    (hi : exec i s = .next (runPatch u op f legal (dataOp false fun mask m => setSlot (f.d - 0x20) (g mask m) m) s))
    (hl : legal s (darnerOf s u.die u.tile u.darner) = true)
    (hq : let m := (darnerOf s u.die u.tile u.darner).mach
      q (if guardMask m f = 0 then slotOf m (f.d - 0x20) else g (guardMask m f) (countInstr m))) : ChangesSlot s u f i q := by
  refine ⟨_, _, hi, patchStep_dataOp hr hl, ?_, fun k hk => ?_, ?_⟩
  · split <;> rfl
  · rw [slotOf_advance]
    split
    · rw [slotOf_setSlot, if_neg hk, slotOf_countInstr]
    · rw [slotOf_countInstr]
  · refine Eq.mp (congrArg q ?_) hq
    rw [slotOf_advance]
    by_cases hz : guardMask (darnerOf s u.die u.tile u.darner).mach f = 0
    · simp [hz]
    · simp [hz, slotOf_setSlot]

theorem enterMasked_countInstr (f : PFields) (mask : Nat) (m : Mach) : enterMasked f mask (countInstr m) = enterMasked f mask m := by
  simp only [enterMasked, vRead_countInstr, vFmt_countInstr, countInstr_bind]

/-- Under an empty mask no element enters. -/
theorem enterMasked_zero (f : PFields) (m : Mach) : enterMasked f 0 m = [] := by
  simp [enterMasked]

/-- A fold over the masked elements is the slot as it was where the mask is empty. -/
theorem foldl_enterMasked (f : PFields) (mask : Nat) (m : Mach) (comb : Acc → Acc → Acc) (a : Acc) :
    (if mask = 0 then a else (enterMasked f mask (countInstr m)).foldl comb a) = (enterMasked f mask m).foldl comb a := by
  rw [enterMasked_countInstr]
  split
  · next h => rw [h, enterMasked_zero, List.foldl_nil]
  · rfl

theorem acc_changesSlot (hr : PatchReady s u 0x18 f) (hm : f.m = 0) (hd : clsA f.d = true) (ha : clsV f.a = true)
    (hs : bSel (darnerOf s u.die u.tile u.darner).mach.bind (f.d - 0x20) = false) :
    let m := (darnerOf s u.die u.tile u.darner).mach
    let es := enterMasked f (guardMask m f) m
    let z := slotOf m (f.d - 0x20)
    ChangesSlot s u f (.acc u f) fun r => r.a = z.a + (es.map (·.a)).sum ∧ r.nan = (z.nan || es.any (·.nan)) ∧
      r.pinf = (z.pinf || es.any (·.pinf)) ∧ r.ninf = (z.ninf || es.any (·.ninf)) :=
  changesSlot_dataOp hr rfl (by simp [mZero, hm, hd, ha, hs]) (by
    simp only [slotOf_countInstr]
    rw [foldl_enterMasked]
    exact foldl_accAdd_fields _ _)

theorem cnt_changesSlot (hr : PatchReady s u 0x19 f) (hm : f.m = 0) (hd : clsA f.d = true)
    (hs : bSel (darnerOf s u.die u.tile u.darner).mach.bind (f.d - 0x20) = false) :
    let m := (darnerOf s u.die u.tile u.darner).mach
    ChangesSlot s u f (.cnt u f) fun r =>
      r.a = (slotOf m (f.d - 0x20)).a + BitVec.ofNat 384 (popcount (guardMask m f) * 2 ^ 192) :=
  changesSlot_dataOp hr rfl (by simp [mZero, hm, hd, hs]) (by
    simp only [slotOf_countInstr]
    split
    · next h => simp [h, popcount]
    · exact congrArg (BitVec.add _) (enterInt_popcount_a _))

theorem sel_changesSlot (hr : PatchReady s u 0x1A f) (hm : f.m = 0) (hd : clsA f.d = true) (ha : clsV f.a = true)
    (hs : bSel (darnerOf s u.die u.tile u.darner).mach.bind (f.d - 0x20) = true) :
    let m := (darnerOf s u.die u.tile u.darner).mach
    ChangesSlot s u f (.sel u f) fun r =>
      r = (enterMasked f (guardMask m f) m).foldl (accSelect (!bMin m.bind (f.d - 0x20))) (slotOf m (f.d - 0x20)) :=
  changesSlot_dataOp hr rfl (by simp [mZero, hm, hd, ha, hs]) (by
    simp only [slotOf_countInstr, countInstr_bind]
    exact foldl_enterMasked ..)

theorem azero_changesSlot (hr : PatchReady s u 0x1B f) (hm : f.m = 0) (hd : clsA f.d = true) :
    let m := (darnerOf s u.die u.tile u.darner).mach
    ChangesSlot s u f (.azero u f) fun r => r = if guardMask m f = 0 then slotOf m (f.d - 0x20) else {} :=
  changesSlot_dataOp hr rfl (by simp [mZero, hm, hd]) rfl

/-! ### Records -/

/-- The instruction buffers the records r under a mask that is not empty, its flags xf joining the run's; more than 512 bytes stop it. -/
def AddsRecords (s : State) (u : DrnRef) (f : PFields) (i : Instr) (r : List Byte) (xf : Byte) : Prop :=
  let m := (darnerOf s u.die u.tile u.darner).mach
  ∃ t, exec i s = .next t ∧
    (guardMask m f = 0 → PatchStep s t u (advance 0 (countInstr m))) ∧
    (guardMask m f ≠ 0 → m.buffered.length + r.length ≤ 512 →
      PatchStep s t u (advance 0 { countInstr m with buffered := m.buffered ++ r, xflags := m.xflags ||| xf })) ∧
    (guardMask m f ≠ 0 → 512 < m.buffered.length + r.length → PatchStops s t u 0x44)

theorem addsRecords_addRecs {eff : Nat → Mach → PRes} {r : List Byte} {xf : Byte} (hr : PatchReady s u op f)
    (hi : exec i s = .next (runPatch u op f legal eff s)) (hl : legal s (darnerOf s u.die u.tile u.darner) = true)
    (he : let m := (darnerOf s u.die u.tile u.darner).mach
      eff (guardMask m f) (countInstr m) =
        if guardMask m f = 0 then .ok (advance 0 (countInstr m))
        else addRecs r { countInstr m with xflags := m.xflags ||| xf }) : AddsRecords s u f i r xf := by
  dsimp only at he
  refine ⟨_, hi, fun h => ?_, fun h hfit => ?_, fun h hover => ?_⟩
  · exact patchStep_runPatch hr hl (by rw [he, if_pos h])
  · refine patchStep_runPatch hr hl ?_
    rw [he, if_neg h, addRecs, countInstr_buffered, if_neg (Nat.not_lt.mpr hfit)]
  · refine patchStops_runPatch hr hl (by decide) ?_
    rw [he, if_neg h, addRecs, countInstr_buffered, if_pos hover]

theorem emitRecs_countInstr (f : PFields) (mask : Nat) (m : Mach) : emitRecs f mask (countInstr m) = emitRecs f mask m := by
  simp only [emitRecs, vRead_countInstr, countInstr_bind, countInstr_gidx, countInstr_k]

theorem emit_addsRecords (hr : PatchReady s u 0x20 f) (hm : f.m < 2) (ha : clsV f.a = true)
    (hmx : isMX (bFmt (darnerOf s u.die u.tile u.darner).mach.bind) = false) :
    let m := (darnerOf s u.die u.tile u.darner).mach
    AddsRecords s u f (.emit u f) (emitRecs f (guardMask m f) m) 0 :=
  addsRecords_addRecs hr rfl (by simp [hm, ha, hmx]) (by
    have hzero : ∀ x : Byte, x ||| 0 = x := fun _ => BitVec.or_zero
    simp only [hzero, emitRecs_countInstr]
    rw [← countInstr_xflags (darnerOf s u.die u.tile u.darner).mach])

/-- The records of EMIT as R282 has them. -/
theorem emitRecs_eq (hm : f.m < 2) (mask : Nat) (m : Mach) : emitRecs f mask m =
    ((List.range (groupSize m.bind)).filter fun i => mask.testBit i).flatMap fun i =>
      (if f.m = 1 then leBytes 4 (m.gidx + i) else []) ++ (if bKeyed m.bind then leBytes 4 (vElem 32 { bits := m.k } i) else []) ++
      leBytes (fmtBits (bFmt m.bind) / 8) (vElem (fmtBits (bFmt m.bind)) (vRead m f.a) i) := by
  unfold emitRecs
  rw [Nat.mod_eq_of_lt hm]

theorem kemit_addsRecords (hr : PatchReady s u 0x21 f) (hm : f.m = 0) (ha : clsS f.a = true) (hb : clsA f.b = true) :
    let m := (darnerOf s u.die u.tile u.darner).mach
    let r := deliverSlot m.bind (slotOf m (f.b - 0x20))
    AddsRecords s u f (.kemit u f)
      (leBytes 4 (sRead m f.a f.imm).toNat ++ r.1 ++ List.replicate ((4 - r.1.length % 4) % 4) 0) r.2 :=
  addsRecords_addRecs hr rfl (by simp [mZero, hm, ha, hb]) (by
    simp only [pad4, List.append_assoc, sRead_countInstr, slotOf_countInstr, countInstr_bind, countInstr_xflags])

end

/-- Settles O35: each slot instruction gives its slot the value it computes; EMIT and KEMIT add their records, or are stopped. -/
theorem patchSlotsAndRecords : Obligations.PatchSlotsAndRecords := by
  intro s u f m mask x c es slot recs
  refine ⟨acc_changesSlot, cnt_changesSlot, sel_changesSlot, azero_changesSlot, fun hr hm ha hmx => ?_, kemit_addsRecords⟩
  rw [← emitRecs_eq hm]
  exact emit_addsRecords hr hm ha hmx

end Sys2Proof.Machine
end

section
/-! SUPPORT. Sums and selections in any order (R198, R199, R205, R223); O36. -/
namespace Sys2Proof.Machine

section
variable {w : Nat}

/-! ### Sums -/

/-- The state ZK of a sum: ordinary if either is, empty if both are, otherwise all-negative-zero (R199). -/
def sumZk (a b : Nat) : Nat := if a = 0 ∨ b = 0 then 0 else if a = 2 ∧ b = 2 then 2 else 1

theorem accAdd_eq (x y : AccW w) : accAdd x y =
    { a := x.a + y.a, zk := sumZk x.zk y.zk, nan := x.nan || y.nan, pinf := x.pinf || y.pinf, ninf := x.ninf || y.ninf,
      bad := x.bad || y.bad } := rfl

theorem sumZk_cases (a b : Nat) :
    (sumZk a b = 0 ∧ (a = 0 ∨ b = 0)) ∨ (sumZk a b = 2 ∧ a = 2 ∧ b = 2) ∨
      (sumZk a b = 1 ∧ a ≠ 0 ∧ b ≠ 0 ∧ ¬ (a = 2 ∧ b = 2)) := by
  unfold sumZk
  split
  · next h => exact .inl ⟨rfl, h⟩
  · next h =>
    split
    · next h2 => exact .inr (.inl ⟨rfl, h2⟩)
    · next h2 => exact .inr (.inr ⟨rfl, fun ha => h (.inl ha), fun hb => h (.inr hb), h2⟩)

theorem sumZk_comm (a b : Nat) : sumZk a b = sumZk b a := by
  have hab := sumZk_cases a b
  have hba := sumZk_cases b a
  omega

theorem sumZk_assoc (a b c : Nat) : sumZk (sumZk a b) c = sumZk a (sumZk b c) := by
  have hab := sumZk_cases a b
  have hbc := sumZk_cases b c
  have hl := sumZk_cases (sumZk a b) c
  have hr := sumZk_cases a (sumZk b c)
  omega

theorem sumZk_empty (a : Nat) (h : a ≤ 2) : sumZk 2 a = a := by
  have h2 := sumZk_cases 2 a
  omega

theorem accAdd_comm (x y : AccW w) : accAdd x y = accAdd y x := by
  simp only [accAdd_eq, sumZk_comm x.zk, BitVec.add_comm x.a, Bool.or_comm x.nan, Bool.or_comm x.pinf, Bool.or_comm x.ninf,
    Bool.or_comm x.bad]

theorem accAdd_assoc (x y z : AccW w) : accAdd (accAdd x y) z = accAdd x (accAdd y z) := by
  simp only [accAdd_eq, sumZk_assoc, BitVec.add_assoc, Bool.or_assoc]

theorem accAdd_empty (x : AccW w) (h : x.zk ≤ 2) : accAdd {} x = x := by
  simp [accAdd_eq, sumZk_empty x.zk h]

/-! ### Maxima and minima -/

/-- The canonical values a selection meets. -/
def Selectable (a : AccW w) : Prop :=
  a.zk ≤ 2 ∧ a.bad = false ∧ (a.nan = true → a = accNaN) ∧
    ((a.pinf || a.ninf) = true → a.a = 0 ∧ a.zk = 0 ∧ a.pinf ≠ a.ninf) ∧ (a.zk ≠ 0 → a = { zk := a.zk })

/-- The place of a value without NaN in the order of R223: -∞ lowest, -0 just below +0, +∞ highest. -/
def selKey (x : AccW w) : Int :=
  if x.ninf then -(4 * 2 ^ w) else if x.pinf then 4 * 2 ^ w else 2 * x.a.toInt - (if x.zk = 1 then 1 else 0)

/-- The rank by which a selection goes: NaN over all, the empty state below all, between them the order of R223 or its reverse. -/
def selRank (isMax : Bool) (x : AccW w) : Int :=
  if x.nan then 8 * 2 ^ w else if x.zk = 2 then -(8 * 2 ^ w) else if isMax then selKey x else -selKey x

variable {x y z : AccW w} {mx : Bool}

theorem selKey_ninf (h : x.ninf = true) : selKey x = -(4 * 2 ^ w) := if_pos h

theorem selKey_pinf (hn : x.ninf = false) (hp : x.pinf = true) : selKey x = 4 * 2 ^ w := by simp [selKey, hn, hp]

theorem selKey_finite (hn : x.ninf = false) (hp : x.pinf = false) : selKey x = 2 * x.a.toInt - (if x.zk = 1 then 1 else 0) := by
  simp [selKey, hn, hp]

/-- Finite values lie between the infinities. -/
theorem selKey_finite_bounds (hn : x.ninf = false) (hp : x.pinf = false) : -(4 * 2 ^ w) < selKey x ∧ selKey x < 4 * 2 ^ w := by
  have hlo := x.a.le_two_mul_toInt
  have hhi := x.a.two_mul_toInt_lt
  have hpos : (0 : Int) < 2 ^ w := by positivity
  rw [selKey_finite hn hp]
  split <;> omega

theorem selKey_gt (h : x.ninf = false) : -(4 * 2 ^ w) < selKey x := by
  cases hp : x.pinf with
  | true =>
    rw [selKey_pinf h hp]
    have hpos : (0 : Int) < 2 ^ w := by positivity
    omega
  | false => exact (selKey_finite_bounds h hp).1

theorem selKey_lt (h : x.ninf = true ∨ x.pinf = false) : selKey x < 4 * 2 ^ w := by
  cases hn : x.ninf with
  | true =>
    rw [selKey_ninf hn]
    have hpos : (0 : Int) < 2 ^ w := by positivity
    omega
  | false => exact (selKey_finite_bounds hn (by simpa [hn] using h)).2

theorem toInt_eq_zero (v : BitVec w) : v.toInt = 0 ↔ v = 0 := by
  rw [← BitVec.toInt_inj]
  exact (Eq.congr_right BitVec.toInt_zero).symm

/-- A value that is not ordinary has A = 0. -/
theorem Selectable.toInt_eq_zero (h : Selectable x) (h1 : x.zk = 1) : x.a.toInt = 0 := by
  obtain ⟨-, -, -, -, hzk⟩ := h
  exact (Machine.toInt_eq_zero _).mpr (by rw [hzk (by omega)])

/-- The order of R223 is that of the keys. -/
theorem accLt_eq (hx : Selectable x) (hy : Selectable y) : accLt x y = decide (selKey x < selKey y) := by
  unfold accLt
  cases hxn : x.ninf with
  | true =>
    cases hyn : y.ninf with
    | true => simp [selKey_ninf hxn, selKey_ninf hyn]
    | false => simpa [selKey_ninf hxn] using selKey_gt hyn
  | false =>
  cases hyn : y.ninf with
  | true => simpa [selKey_ninf hyn] using (selKey_gt hxn).le
  | false =>
  cases hyp : y.pinf with
  | true =>
    rw [selKey_pinf hyn hyp]
    cases hxp : x.pinf with
    | true => simp [selKey_pinf hxn hxp]
    | false => simpa using selKey_lt (.inr hxp)
  | false =>
  cases hxp : x.pinf with
  | true => simpa [selKey_pinf hxn hxp] using (selKey_lt (.inr hyp)).le
  | false =>
    have hx1 := hx.toInt_eq_zero
    have hy1 := hy.toInt_eq_zero
    simp only [selKey_finite hxn hxp, selKey_finite hyn hyp, ← toInt_eq_zero, Bool.false_eq_true, if_false]
    by_cases hz : x.a.toInt = 0 ∧ y.a.toInt = 0
    · rw [if_pos hz, ← Bool.decide_and, decide_eq_decide, hz.1, hz.2]
      split <;> split <;> omega
    · rw [if_neg hz, decide_eq_decide]
      split <;> split <;> omega

/-- The infinities are canonical. -/
theorem Selectable.eq_accInf (h : Selectable x) (hnan : x.nan = false) (hinf : (x.pinf || x.ninf) = true) : x = accInf x.ninf := by
  obtain ⟨-, hbad, -, hmarks, -⟩ := h
  obtain ⟨ha, hzk, hne⟩ := hmarks hinf
  obtain ⟨a, zk, nan, pinf, ninf, bad⟩ := x
  simp_all [accInf, Bool.eq_not_iff]

theorem Selectable.eq_finite (h : Selectable x) (hnan : x.nan = false) (hn : x.ninf = false) (hp : x.pinf = false) :
    x = { a := x.a, zk := x.zk } := by
  obtain ⟨-, hbad, -⟩ := h
  obtain ⟨a, zk, nan, pinf, ninf, bad⟩ := x
  simp_all

/-- Two values of one key are the same. -/
theorem selKey_inj (hx : Selectable x) (hy : Selectable y) (hxn : x.nan = false) (hyn : y.nan = false) (hx2 : x.zk ≠ 2) (hy2 : y.zk ≠ 2)
    (h : selKey x = selKey y) : x = y := by
  have hninf : x.ninf = y.ninf := by
    cases hxi : x.ninf <;> cases hyi : y.ninf
    · rfl
    · exact absurd (selKey_gt hxi) (by rw [h, selKey_ninf hyi]; exact lt_irrefl _)
    · exact absurd (selKey_gt hyi) (by rw [← h, selKey_ninf hxi]; exact lt_irrefl _)
    · rfl
  cases hyi : y.ninf with
  | true =>
    rw [hx.eq_accInf hxn (by simp [hninf, hyi]), hy.eq_accInf hyn (by simp [hyi]), hninf]
  | false =>
  have hxi := hninf.trans hyi
  cases hxp : x.pinf <;> cases hyp : y.pinf
  · rw [hx.eq_finite hxn hxi hxp, hy.eq_finite hyn hyi hyp]
    rw [selKey_finite hxi hxp, selKey_finite hyi hyp] at h
    have hx3 := hx.1
    have hy3 := hy.1
    have ha : x.a.toInt = y.a.toInt := by split at h <;> split at h <;> omega
    have hzk : x.zk = y.zk := by split at h <;> split at h <;> omega
    rw [BitVec.eq_of_toInt_eq ha, hzk]
  · exact absurd (selKey_lt (.inr hxp)) (by rw [h, selKey_pinf hyi hyp]; exact lt_irrefl _)
  · exact absurd (selKey_lt (.inr hyp)) (by rw [← h, selKey_pinf hxi hxp]; exact lt_irrefl _)
  · rw [hx.eq_accInf hxn (by simp [hxp]), hy.eq_accInf hyn (by simp [hyp]), hninf]

/-! ### The rank -/

theorem selKey_bounds (x : AccW w) : -(4 * 2 ^ w) ≤ selKey x ∧ selKey x ≤ 4 * 2 ^ w := by
  have hpos : (0 : Int) < 2 ^ w := by positivity
  cases hn : x.ninf with
  | true => rw [selKey_ninf hn]; omega
  | false =>
  cases hp : x.pinf with
  | true => rw [selKey_pinf hn hp]; omega
  | false => exact ⟨(selKey_finite_bounds hn hp).1.le, (selKey_finite_bounds hn hp).2.le⟩

theorem selRank_nan (h : x.nan = true) : selRank mx x = 8 * 2 ^ w := if_pos h

theorem selRank_empty (hn : x.nan = false) (h : x.zk = 2) : selRank mx x = -(8 * 2 ^ w) := by simp [selRank, hn, h]

theorem selRank_value (hn : x.nan = false) (h : x.zk ≠ 2) : selRank mx x = if mx then selKey x else -selKey x := by
  simp [selRank, hn, h]

/-- Values lie between the empty state and NaN. -/
theorem selRank_value_bounds (hn : x.nan = false) (h : x.zk ≠ 2) :
    -(8 * 2 ^ w) < selRank mx x ∧ selRank mx x < 8 * 2 ^ w := by
  have hb := selKey_bounds x
  have hpos : (0 : Int) < 2 ^ w := by positivity
  rw [selRank_value hn h]
  split <;> omega

theorem selRank_lt (hn : x.nan = false) : selRank mx x < 8 * 2 ^ w := by
  by_cases h : x.zk = 2
  · have hpos : (0 : Int) < 2 ^ w := by positivity
    rw [selRank_empty hn h]
    omega
  · exact (selRank_value_bounds hn h).2

theorem selRank_bounds (mx : Bool) (x : AccW w) : -(8 * 2 ^ w) ≤ selRank mx x ∧ selRank mx x ≤ 8 * 2 ^ w := by
  have hpos : (0 : Int) < 2 ^ w := by positivity
  cases hn : x.nan with
  | true => rw [selRank_nan hn]; omega
  | false =>
  by_cases h : x.zk = 2
  · rw [selRank_empty hn h]; omega
  · exact ⟨(selRank_value_bounds hn h).1.le, (selRank_value_bounds hn h).2.le⟩

theorem Selectable.eq_accNaN (h : Selectable x) (hn : x.nan = true) : x = accNaN := by
  obtain ⟨-, -, hnan, -⟩ := h
  exact hnan hn

theorem Selectable.eq_empty (h : Selectable x) (h2 : x.zk = 2) : x = {} := by
  obtain ⟨-, -, -, -, hzk⟩ := h
  rw [hzk (by omega), h2]

/-- The empty state alone has the lowest rank. -/
theorem Selectable.eq_of_lowest (h : Selectable x) (hr : selRank mx x ≤ -(8 * 2 ^ w)) : x = {} := by
  have hpos : (0 : Int) < 2 ^ w := by positivity
  cases hn : x.nan with
  | true => rw [selRank_nan hn] at hr; omega
  | false =>
  by_cases h2 : x.zk = 2
  · exact h.eq_empty h2
  · have hb := selRank_value_bounds (mx := mx) hn h2
    omega

/-- NaN alone has the highest rank. -/
theorem Selectable.eq_of_highest (h : Selectable x) (hr : 8 * 2 ^ w ≤ selRank mx x) : x = accNaN := by
  cases hn : x.nan with
  | true => exact h.eq_accNaN hn
  | false =>
    have hlt := selRank_lt (mx := mx) hn
    omega

/-- Two selected values of one rank are the same. -/
theorem selRank_inj (hx : Selectable x) (hy : Selectable y) (h : selRank mx x = selRank mx y) : x = y := by
  cases hxn : x.nan with
  | true =>
    rw [selRank_nan hxn] at h
    rw [hx.eq_accNaN hxn, hy.eq_of_highest h.le]
  | false =>
  cases hyn : y.nan with
  | true =>
    rw [selRank_nan hyn] at h
    rw [hy.eq_accNaN hyn, hx.eq_of_highest h.ge]
  | false =>
  by_cases hx2 : x.zk = 2
  · rw [selRank_empty hxn hx2] at h
    rw [hx.eq_empty hx2, hy.eq_of_lowest h.ge]
  by_cases hy2 : y.zk = 2
  · rw [selRank_empty hyn hy2] at h
    rw [hy.eq_empty hy2, hx.eq_of_lowest h.le]
  rw [selRank_value hxn hx2, selRank_value hyn hy2] at h
  exact selKey_inj hx hy hxn hyn hx2 hy2 (by split at h <;> omega)

/-- A selection takes the value of the higher rank. -/
theorem accSelect_eq (hx : Selectable x) (hy : Selectable y) :
    accSelect mx x y = if selRank mx x < selRank mx y then y else x := by
  have hbad : (x.bad || y.bad) = false := by rw [hx.2.1, hy.2.1]; rfl
  have hxb : { x with bad := false } = x := by rw [← hx.2.1]
  have hyb : { y with bad := false } = y := by rw [← hy.2.1]
  simp only [accSelect, hbad, hxb, hyb]
  cases hxn : x.nan with
  | true =>
    rw [if_neg (show ¬ selRank mx x < selRank mx y by rw [selRank_nan hxn]; exact (selRank_bounds mx y).2.not_gt), hx.eq_accNaN hxn]
    rfl
  | false =>
  cases hyn : y.nan with
  | true =>
    rw [if_pos (show selRank mx x < selRank mx y by rw [selRank_nan hyn]; exact selRank_lt hxn), hy.eq_accNaN hyn]
    rfl
  | false =>
  simp only [Bool.or_false, Bool.false_eq_true, if_false]
  by_cases hx2 : x.zk = 2
  · rw [if_pos hx2]
    split
    · rfl
    · next hle =>
      rw [selRank_empty hxn hx2, not_lt] at hle
      rw [hy.eq_of_lowest hle, hx.eq_empty hx2]
  by_cases hy2 : y.zk = 2
  · rw [if_neg hx2, if_pos hy2, if_neg (by rw [selRank_empty hyn hy2]; exact (selRank_bounds mx x).1.not_gt)]
  rw [if_neg hx2, if_neg hy2, accLt_eq hx hy, accLt_eq hy hx, selRank_value hxn hx2, selRank_value hyn hy2]
  cases mx <;> simp

theorem accSelect_comm (hx : Selectable x) (hy : Selectable y) : accSelect mx x y = accSelect mx y x := by
  rw [accSelect_eq hx hy, accSelect_eq hy hx]
  rcases lt_trichotomy (selRank mx x) (selRank mx y) with h | h | h
  · rw [if_pos h, if_neg h.not_gt]
  · rw [selRank_inj hx hy h]
  · rw [if_neg h.not_gt, if_pos h]

theorem Selectable.accSelect (hx : Selectable x) (hy : Selectable y) : Selectable (accSelect mx x y) := by
  rw [accSelect_eq hx hy]
  split
  · exact hy
  · exact hx

theorem accSelect_assoc (hx : Selectable x) (hy : Selectable y) (hz : Selectable z) :
    accSelect mx (accSelect mx x y) z = accSelect mx x (accSelect mx y z) := by
  rw [accSelect_eq (hx.accSelect hy) hz, accSelect_eq hx (hy.accSelect hz), accSelect_eq hx hy, accSelect_eq hy hz]
  by_cases hxy : selRank mx x < selRank mx y <;> by_cases hyz : selRank mx y < selRank mx z
  · rw [if_pos hxy, if_pos hyz, if_pos (hxy.trans hyz)]
  · rw [if_pos hxy, if_neg hyz, if_pos hxy]
  · rw [if_neg hxy, if_pos hyz]
  · rw [if_neg hxy, if_neg hyz, if_neg hxy, if_neg (fun h => hyz ((not_lt.mp hxy).trans_lt h))]

end

/-! ### Integers -/

/-- An INT32 element enters as its value times 2^192. -/
theorem enter_int32 (x : BitVec 32) : (enter 192 0x12 x.toNat : Acc).a.toInt = x.toInt * 2 ^ 192 := by
  have hlo := x.le_toInt
  have hhi := x.toInt_lt
  rw [show (enter 192 0x12 x.toNat : Acc) = enterInt 192 32 x.toNat from rfl, enterInt_a, BitVec.ofNat_toNat, BitVec.setWidth_eq,
    BitVec.toInt_ofInt, Int.bmod_eq_of_le] <;> omega

end Sys2Proof.Machine
end

section
/-! SUPPORT. Partials: what is encoded decodes to the same accumulator, windowed or long, on either path (R206 to R209, R230); O36. -/
namespace Sys2Proof.Machine

/-! ### Little-endian fields -/

@[simp] theorem leBytes_length (n x : Nat) : (leBytes n x).length = n := by
  induction n generalizing x with
  | zero => rfl
  | succ n ih => rw [leBytes, List.length_cons, ih]

theorem ofLe_leBytes (n x : Nat) : ofLe (leBytes n x) = x % 256 ^ n := by
  induction n generalizing x with
  | zero => rw [Nat.pow_zero, Nat.mod_one]; rfl
  | succ n ih =>
    rw [leBytes, ofLe, ih, BitVec.toNat_ofNat, show 256 ^ (n + 1) = 256 * 256 ^ n from Nat.pow_succ']
    exact Nat.mod_mul.symm

theorem ofLe_zeros (n : Nat) : ofLe (List.replicate n 0) = 0 := by
  induction n with
  | zero => rfl
  | succ n ih => rw [List.replicate_succ, ofLe, ih]; rfl

/-- The first field of a byte string, and those after it. -/
theorem field_append_left (xs ys : List Byte) : field (xs ++ ys) 0 xs.length = ofLe xs := by
  simp [field, slice]

theorem field_append_right (xs ys : List Byte) (n : Nat) : field (xs ++ ys) xs.length n = field ys 0 n := by
  simp [field, slice]

/-! ### Windowed partials -/

/-- The bytes of a windowed partial: the window, the index word, and zero bytes (R206, R230). -/
def windowBytes (win ix pad : Nat) : List Byte := leBytes 16 win ++ leBytes 4 ix ++ List.replicate pad 0

theorem windowBytes_window (win ix pad : Nat) (h : win < 2 ^ 128) : field (windowBytes win ix pad) 0 16 = win := by
  have hf := field_append_left (leBytes 16 win) (leBytes 4 ix ++ List.replicate pad 0)
  rw [leBytes_length, ofLe_leBytes, Nat.mod_eq_of_lt (by omega)] at hf
  rw [windowBytes, List.append_assoc, hf]

theorem windowBytes_index (win ix pad : Nat) (h : ix < 2 ^ 32) : field (windowBytes win ix pad) 16 4 = ix := by
  have hf := field_append_right (leBytes 16 win) (leBytes 4 ix ++ List.replicate pad 0) 4
  have hl := field_append_left (leBytes 4 ix) (List.replicate pad 0)
  rw [leBytes_length] at hf hl
  rw [windowBytes, List.append_assoc, hf, hl, ofLe_leBytes, Nat.mod_eq_of_lt (by omega)]

theorem windowBytes_pad (win ix pad : Nat) : field (windowBytes win ix pad) 20 pad = 0 := by
  have hf := field_append_right (leBytes 16 win ++ leBytes 4 ix) (List.replicate pad 0) pad
  have hl := field_append_left (List.replicate pad 0) []
  rw [List.append_nil, List.length_replicate, ofLe_zeros] at hl
  rw [List.length_append, leBytes_length, leBytes_length, hl] at hf
  exact hf

section
variable {w : Nat}

/-- The fields of an index word: BASE in the low bits, the state in [12:8], the reserved bits 0. -/
theorem index_fields (x : AccW w) (base bb : Nat) (hzk : x.zk ≤ 2) (hbb : bb ≤ 8) (hbase : base < 2 ^ bb) :
    (base + stateBits x) % 2 ^ bb = base ∧ bits (base + stateBits x) 9 8 = x.zk ∧ (base + stateBits x) / 2 ^ 13 = 0 ∧
      bits (base + stateBits x) 7 bb = 0 ∧ (base + stateBits x).testBit 10 = x.nan ∧ (base + stateBits x).testBit 11 = x.pinf ∧
      (base + stateBits x).testBit 12 = x.ninf := by
  have h256 : 256 = 2 ^ bb * 2 ^ (8 - bb) := by
    rw [← Nat.pow_add, Nat.add_sub_cancel' hbb]
  have hlow : base < 256 := hbase.trans_le (Nat.pow_le_pow_right (by decide) hbb)
  have hix : base + stateBits x = base + 2 ^ bb * (2 ^ (8 - bb) * (x.zk + 4 * b2n x.nan + 8 * b2n x.pinf + 16 * b2n x.ninf)) := by
    rw [← Nat.mul_assoc, ← h256, Nat.mul_comm 256, stateBits]
  have hle : ∀ c, b2n c ≤ 1 := by decide
  have hone : ∀ c, decide (b2n c = 1) = c := by decide
  have hnan := hle x.nan
  have hpinf := hle x.pinf
  have hninf := hle x.ninf
  refine ⟨?_, ?_, ?_, ?_, ?_⟩
  · rw [hix, Nat.add_mul_mod_self_left, Nat.mod_eq_of_lt hbase]
  · rw [bits, Nat.shiftRight_eq_div_pow, stateBits]
    omega
  · rw [stateBits]
    omega
  · rw [bits, Nat.shiftRight_eq_div_pow, hix, Nat.add_mul_div_left _ _ (Nat.two_pow_pos bb), Nat.div_eq_of_lt hbase, Nat.zero_add]
    exact Nat.mul_mod_right ..
  · simp only [Nat.testBit_eq_decide_div_mod_eq, stateBits]
    exact ⟨(decide_eq_decide.mpr (by omega)).trans (hone x.nan), (decide_eq_decide.mpr (by omega)).trans (hone x.pinf),
      (decide_eq_decide.mpr (by omega)).trans (hone x.ninf)⟩

/-- A windowed partial decodes to its window at its place and its state. -/
theorem decodeWindow_windowBytes (x : AccW w) (win : BitVec 128) (ws most bb pad base : Nat) (hzk : x.zk ≤ 2) (hbb : bb ≤ 8)
    (hmost : base ≤ most) (hbase : base < 2 ^ bb) :
    decodeWindow ws most bb pad (windowBytes win.toNat (base + stateBits x) pad) =
      ({ a := BitVec.ofInt w (win.toInt * (2 ^ (ws * base) : Nat)), zk := x.zk, nan := x.nan, pinf := x.pinf, ninf := x.ninf } : AccW w) := by
  obtain ⟨hix, hzkb, htop, hres, hnan, hpinf, hninf⟩ := index_fields x base bb hzk hbb hbase
  have hlt : base + stateBits x < 2 ^ 32 := by omega
  unfold decodeWindow
  rw [windowBytes_window _ _ _ win.isLt, windowBytes_index _ _ _ hlt, windowBytes_pad]
  simp only [hix, hzkb, htop, hres, hnan, hpinf, hninf, BitVec.ofNat_toNat, BitVec.setWidth_eq]
  rw [if_neg (by simp; omega)]

end

/-! ### The canonical form -/

theorem zeroWords_le (ws n a : Nat) : zeroWords ws n a ≤ n := by
  induction n generalizing a with
  | zero => rfl
  | succ n ih =>
    have h := ih (a / 2 ^ ws)
    rw [zeroWords]
    split <;> omega

/-- The words counted are zero. -/
theorem dvd_zeroWords (ws n a : Nat) : 2 ^ (ws * zeroWords ws n a) ∣ a := by
  induction n generalizing a with
  | zero => simp [zeroWords]
  | succ n ih =>
    rw [zeroWords]
    split
    · next h =>
      rw [Nat.mul_add, Nat.mul_one, Nat.pow_add]
      calc 2 ^ ws * 2 ^ (ws * zeroWords ws n (a / 2 ^ ws)) ∣ 2 ^ ws * (a / 2 ^ ws) := Nat.mul_dvd_mul_left _ (ih _)
        _ = a := Nat.mul_div_cancel' (Nat.dvd_of_mod_eq_zero h)
    · simp

section
variable {w : Nat}

/-- What divides A without its sign, and the modulus, divides A. -/
theorem dvd_toInt {k : Nat} (a : BitVec w) (hk : k ≤ w) (h : 2 ^ k ∣ a.toNat) : ((2 ^ k : Nat) : Int) ∣ a.toInt := by
  have hw : ((2 ^ k : Nat) : Int) ∣ ((2 ^ w : Nat) : Int) := Int.natCast_dvd_natCast.mpr (Nat.pow_dvd_pow 2 hk)
  have ha : ((2 ^ k : Nat) : Int) ∣ (a.toNat : Int) := Int.natCast_dvd_natCast.mpr h
  rw [BitVec.toInt_eq_toNat_cond]
  split
  · exact ha
  · exact Int.dvd_sub ha hw

/-- Decoding by form: the two paths differ in their widths alone (R206, R207, R230). -/
def decodePartial (ws most bb pad : Nat) (long : Bool) (bs : List Byte) : AccW w :=
  if long then decodeLong bs else decodeWindow ws most bb pad bs

/-- A special partial travels as its state alone. -/
theorem encodePartial_special (ws most pad : Nat) (x : AccW w) (h : isSpecial x = true) :
    encodePartial ws most pad x = (false, windowBytes (0 : BitVec 128).toNat (0 + stateBits x) pad) := by
  rw [encodePartial, if_pos h, Nat.zero_add]
  rfl

/-- An ordinary value has no mark. -/
theorem ordinary_of_not_special (x : AccW w) (hbad : x.bad = false) (h : isSpecial x = false) : x = { a := x.a, zk := 0 } := by
  obtain ⟨a, zk, nan, pinf, ninf, bad⟩ := x
  simp [isSpecial] at h
  simp_all

theorem decodePartial_encodePartial (ws most bb pad : Nat) (x : AccW w) (hzk : x.zk ≤ 2) (hbad : x.bad = false)
    (ha : isSpecial x = true → x.a = 0) (hbb : bb ≤ 8) (hmost : most < 2 ^ bb) (hw : ws * most ≤ w) (h8 : w % 8 = 0) :
    decodePartial ws most bb pad (encodePartial ws most pad x).1 (encodePartial ws most pad x).2 = x := by
  cases hs : isSpecial x with
  | true =>
    rw [encodePartial_special ws most pad x hs]
    refine (decodeWindow_windowBytes x 0 ws most bb pad 0 hzk hbb (Nat.zero_le _) (Nat.two_pow_pos _)).trans ?_
    have ha := ha hs
    obtain ⟨a, zk, nan, pinf, ninf, bad⟩ := x
    simp_all
  | false =>
    have hx := ordinary_of_not_special x hbad hs
    have hle := zeroWords_le ws most x.a.toNat
    have hdvd := dvd_toInt x.a ((Nat.mul_le_mul_left ws hle).trans hw) (dvd_zeroWords ws most x.a.toNat)
    rw [encodePartial, hs]
    simp only [Bool.false_eq_true, if_false]
    generalize zeroWords ws most x.a.toNat = base at hle hdvd
    split
    · next hfit =>
      refine (decodeWindow_windowBytes x (BitVec.ofInt 128 (x.a.toInt / (2 ^ (ws * base) : Nat))) ws most bb pad base hzk hbb hle
        (hle.trans_lt hmost)).trans ?_
      rw [BitVec.toInt_ofInt, Int.bmod_eq_of_le (by omega) (by omega), Int.ediv_mul_cancel hdvd, BitVec.ofInt_toInt]
      rw [← hbad]
    · have hbytes : 256 ^ (w / 8) = 2 ^ w := by
        rw [show 256 = 2 ^ 8 from rfl, ← Nat.pow_mul]
        congr 1
        omega
      rw [hx]
      simp [decodePartial, decodeLong, ofLe_leBytes, hbytes]

end

theorem decodeW_encodeW (x : Acc) (hzk : x.zk ≤ 2) (hbad : x.bad = false) (ha : isSpecial x = true → x.a = 0) :
    decodeW (encodeW x).1 (encodeW x).2 = x :=
  decodePartial_encodePartial 32 8 4 0 x hzk hbad ha (by decide) (by decide) (by decide) (by decide)

theorem decodeDW_encodeDW (x : DAcc) (hzk : x.zk ≤ 2) (hbad : x.bad = false) (ha : isSpecial x = true → x.a = 0) :
    decodeDW (encodeDW x).1 (encodeDW x).2 = x :=
  decodePartial_encodePartial 64 32 6 4 x hzk hbad ha (by decide) (by decide) (by decide) (by decide)

/-- Settles O36: the sum is commutative and associative field by field, a selection takes the higher rank, and decoding undoes encoding. -/
theorem sumsAreOrderFreeAndTravelExactly : Obligations.SumsAreOrderFreeAndTravelExactly := by
  refine ⟨fun w x y z => ⟨accAdd_comm x y, accAdd_assoc x y z⟩, fun w x => accAdd_empty x, fun w mx x y z h => ?_, enter_int32,
    decodeW_encodeW, decodeDW_encodeDW⟩
  have hsel : ∀ a ∈ [x, y, z], Selectable a := h
  have hx := hsel x (by simp)
  have hy := hsel y (by simp)
  exact ⟨accSelect_comm hx hy, accSelect_assoc hx hy (hsel z (by simp))⟩

end Sys2Proof.Machine
end

section
/-! SUPPORT. A tile's queue, runs, streams and darners: what entering and leaving the queue, starting and ending a task and a chunk's
output change of them (R239 to R252, R265, R274); O37, O38, O49. -/
namespace Sys2Proof.Machine

/-! ### What is read of a tile -/

section TileReads
variable {β : Type} (g : DrnTile → β)

theorem drnTile_of_dr {s t : State} (h : t.dr = s.dr) (die n : Nat) : drnTile t die n = drnTile s die n := by
  unfold drnTile
  rw [h]

theorem runOf_of_dr {s t : State} (h : t.dr = s.dr) (die n id : Nat) : runOf t die n id = runOf s die n id := by
  unfold runOf
  rw [drnTile_of_dr h]

theorem darnerOf_of_darners {s t : State} {die n : Nat} (h : (drnTile t die n).darners = (drnTile s die n).darners) (d : Nat) :
    darnerOf t die n d = darnerOf s die n d := by
  unfold darnerOf
  rw [h]

/-- What a change of one tile keeps of it, it keeps of every tile. -/
theorem drnTile_modDrn_keeps (die n d m : Nat) (f : DrnTile → DrnTile) (s : State)
    (h : g (f (drnTile s die n)) = g (drnTile s die n)) : g (drnTile (modDrn die n f s) d m) = g (drnTile s d m) := by
  rw [drnTile_modDrn]
  split
  · next hk =>
    rw [h]
    unfold drnTile
    rw [hk]
  · rfl

/-- What does not depend on queue and runs, a chunk that enters leaves. -/
theorem drnTile_enterChunk (hg : ∀ t q rs, g { t with queue := q, runs := rs } = g t) (die n id d m : Nat) (s : State) :
    g (drnTile (enterChunk die n id s) d m) = g (drnTile s d m) := by
  unfold enterChunk
  dsimp only
  split
  · rfl
  · split
    · rfl
    · exact drnTile_modDrn_keeps g die n d m _ s (hg _ _ _)

theorem drnTile_fillQueue (hg : ∀ t q rs, g { t with queue := q, runs := rs } = g t) (die n d m : Nat) (s : State) :
    g (drnTile (fillQueue die n s) d m) = g (drnTile s d m) := by
  unfold fillQueue
  exact forEach_same (fun t => g (drnTile t d m)) _ _ _ fun e t =>
    forEach_same (fun t => g (drnTile t d m)) _ _ _ fun _ t => drnTile_enterChunk g hg die n e.1 d m t

/-- What does not depend on the queue, the tasks of a seam that enter leave. -/
theorem drnTile_fillSeam (hg : ∀ t q, g { t with queue := q } = g t) (die n d m : Nat) (s : State) :
    g (drnTile (fillSeam die n s) d m) = g (drnTile s d m) := by
  have hdeliver : ∀ k q load t, g (drnTile (enterDeliver k q die n load t) d m) = g (drnTile t d m) := fun k q load t => by
    unfold enterDeliver
    split
    · split
      · rfl
      · split
        · rfl
        · exact drnTile_modDrn_keeps g die n d m _ t (hg _ _)
    · rfl
  have hstripe : ∀ k q load t, g (drnTile (enterStripe k q die n load t) d m) = g (drnTile t d m) := fun k q load t => by
    unfold enterStripe
    split
    · dsimp only
      split
      · rfl
      · exact drnTile_modDrn_keeps g die n d m _ t (hg _ _)
    · rfl
  unfold fillSeam
  refine forEach_same (fun t => g (drnTile t d m)) _ _ _ fun l t => ?_
  refine (forEach_same (fun t => g (drnTile t d m)) _ _ _ fun _ t => hstripe _ _ _ t).trans ?_
  exact forEach_same (fun t => g (drnTile t d m)) _ _ _ fun _ t => hdeliver _ _ _ t

end TileReads

/-! ### Darners and streams that stand -/

section Stands
variable (die n d e m : Nat) (s : State)

theorem darnerOf_modDrn (f : DrnTile → DrnTile) (h : (f (drnTile s die n)).darners = (drnTile s die n).darners) :
    darnerOf (modDrn die n f s) d m e = darnerOf s d m e :=
  darnerOf_of_darners (drnTile_modDrn_keeps DrnTile.darners die n d m f s h) e

theorem darnerOf_fillQueue : darnerOf (fillQueue die n s) d m e = darnerOf s d m e :=
  darnerOf_of_darners (drnTile_fillQueue DrnTile.darners (fun _ _ _ => rfl) die n d m s) e

theorem darnerOf_fillSeam : darnerOf (fillSeam die n s) d m e = darnerOf s d m e :=
  darnerOf_of_darners (drnTile_fillSeam DrnTile.darners (fun _ _ => rfl) die n d m s) e

theorem darnerOf_unqueue (t : Task) : darnerOf (unqueue die n t s) d m e = darnerOf s d m e :=
  darnerOf_modDrn die n d e m s _ rfl

theorem darnerOf_modRun (id : Nat) (f : Run → Run) : darnerOf (modRun die n id f s) d m e = darnerOf s d m e :=
  darnerOf_modDrn die n d e m s _ (by split <;> rfl)

theorem darnerOf_storeBy (a : DWord) (bs : List Byte) : darnerOf (storeBy die a bs s) d m e = darnerOf s d m e :=
  darnerOf_of_dr (same_of_clr [.out] _ _ (storeBy_clr _ rfl ..) .dr (by decide)) d m e

theorem darnerOf_chunkOut (id : Nat) (bytes : List Byte) (fault : Nat) (xf : Byte) :
    darnerOf (chunkOut die n id bytes fault xf s) d m e = darnerOf s d m e := by
  unfold chunkOut
  dsimp only
  split
  · rfl
  · split
    · exact darnerOf_modRun die n d e m s id _
    · split
      · exact darnerOf_modRun die n d e m s id _
      · split
        · exact darnerOf_modRun die n d e m s id _
        · exact (darnerOf_storeBy die d e m _ _ _).trans (darnerOf_modRun die n d e m s id _)

theorem darnerOf_dropChunk (t : Task) : darnerOf (dropChunk die n t s) d m e = darnerOf s d m e := by
  unfold dropChunk
  dsimp only
  split
  · exact (darnerOf_modDrn die n d e m _ _ rfl).trans (darnerOf_unqueue die n d e m s t)
  · exact (darnerOf_chunkOut die n d e m _ _ _ _ _).trans (darnerOf_unqueue die n d e m s t)

end Stands

/-! ### The beginning of a task (R237, R274) -/

section Starts
variable (die n d : Nat) (s : State)

theorem darnerOf_readInput (v : Nat) (t : Task) (m e : Nat) : darnerOf (readInput die v t s) die m e = darnerOf s die m e :=
  darnerOf_of_dr (same_of_clr [.out] _ _ (readInput_clr _ rfl ..) .dr (by decide)) die m e

/-- A fetch that cannot be made stops the machine; of the darner nothing else changes. -/
theorem darnerOf_fetchCheck (u : DrnRef) :
    (∃ m, darnerOf (fetchCheck u s) u.die u.tile u.darner = { darnerOf s u.die u.tile u.darner with mach := m }) ∧
      ∀ n' e, n' ≠ u.tile ∨ e ≠ u.darner → darnerOf (fetchCheck u s) u.die n' e = darnerOf s u.die n' e := by
  unfold fetchCheck
  dsimp only
  split
  · exact ⟨⟨_, patchFault_darner u _ s⟩, patchFault_others u _ s⟩
  · exact ⟨⟨_, rfl⟩, fun _ _ _ => rfl⟩

/-- The darner of a task that starts. -/
def withTask (now from_ bank : Nat) (t : Task) (m : Mach) (x : Darner) : Darner :=
  { x with since := now, task := some t, from_ := from_, bank := bank, lastRun := if t.kind = .patch then t.run else x.lastRun,
           asks := none, mach := m, poisoned := false }

theorem startTask_eq (from_ bank : Nat) (t : Task) (b : Bind) (data : List Byte) : ∃ m, startTask die n d from_ bank t b data s =
    if t.kind = .patch then fetchCheck { die := die, tile := n, darner := d } (modDarner die n d (withTask s.tm.fclk from_ bank t m) s)
    else modDarner die n d (withTask s.tm.fclk from_ bank t m) s := ⟨_, rfl⟩

theorem darnerOf_startTask (from_ bank : Nat) (t : Task) (b : Bind) (data : List Byte) :
    (∃ m, darnerOf (startTask die n d from_ bank t b data s) die n d = withTask s.tm.fclk from_ bank t m (darnerOf s die n d)) ∧
      ∀ n' e, n' ≠ n ∨ e ≠ d → darnerOf (startTask die n d from_ bank t b data s) die n' e = darnerOf s die n' e := by
  obtain ⟨m₀, heq⟩ := startTask_eq die n d s from_ bank t b data
  have hown := darnerOf_modDarner die n d (withTask s.tm.fclk from_ bank t m₀) s
  have hother := fun n' e => darnerOf_modDarner_other die n d n' e (withTask s.tm.fclk from_ bank t m₀) s
  rw [heq]
  split
  · obtain ⟨⟨m, hm⟩, hrest⟩ := darnerOf_fetchCheck (modDarner die n d (withTask s.tm.fclk from_ bank t m₀) s)
      { die := die, tile := n, darner := d }
    exact ⟨⟨m, hm.trans (by rw [hown]; rfl)⟩, fun n' e h => (hrest n' e h).trans (hother n' e h)⟩
  · exact ⟨⟨m₀, hown⟩, hother⟩

end Starts

/-! ### The end of a task (R265) -/

section Ends
variable (die n d : Nat) (s : State)

/-- A busy darner's cycles are counted, and its count begins anew. -/
theorem countBusy_busy (x : Task) (h : (darnerOf s die n d).task = some x) : countBusy die n d s =
    modDarner die n d (fun x => { x with since := s.tm.fclk }) (addCount die (drnPage s die n)
      (if (darnerOf s die n d).holding then 4 else 0) (s.tm.fclk - (darnerOf s die n d).since) s) := by
  unfold countBusy
  simp only [h, reduceCtorEq, if_false]

theorem darnerOf_addCount (page sel k m e : Nat) : darnerOf (addCount die page sel k s) die m e = darnerOf s die m e := rfl

/-- The count of a darner's cycles leaves every tile but for its darners. -/
theorem drnTile_countBusy {β : Type} (g : DrnTile → β) (hg : ∀ t ds, g { t with darners := ds } = g t) (m : Nat) :
    g (drnTile (countBusy die n d s) die m) = g (drnTile s die m) := by
  unfold countBusy
  dsimp only
  split
  · rfl
  · exact drnTile_modDrn_keeps g die n die m _ _ (hg _ _)

theorem drnTile_freeDarner {β : Type} (g : DrnTile → β) (hg : ∀ t ds, g { t with darners := ds } = g t) (m : Nat) :
    g (drnTile (freeDarner die n d s) die m) = g (drnTile s die m) :=
  (drnTile_modDrn_keeps g die n die m _ _ (hg _ _)).trans (drnTile_countBusy die n d s g hg m)

/-- A darner that becomes idle has no task and holds nothing. -/
theorem darnerOf_freeDarner : (darnerOf (freeDarner die n d s) die n d).task = none ∧
    (darnerOf (freeDarner die n d s) die n d).holding = false := by
  unfold freeDarner
  rw [darnerOf_modDarner]
  exact ⟨rfl, rfl⟩

/-- Its cycles are in the counters of busy and of holding darners (0 and 4). -/
theorem countOf_countBusy (page sel : Nat) (h0 : sel ≠ 0) (h4 : sel ≠ 4) (hs : sel < 4096) :
    countOf (countBusy die n d s) die page sel = countOf s die page sel := by
  unfold countBusy
  dsimp only
  split
  · rfl
  · refine (countOf_addCount die _ _ die page sel _ s).trans (if_neg ?_)
    unfold ckey pk
    split <;> omega

theorem countOf_freeDarner (page sel : Nat) (h0 : sel ≠ 0) (h4 : sel ≠ 4) (hs : sel < 4096) :
    countOf (freeDarner die n d s) die page sel = countOf s die page sel :=
  countOf_countBusy die n d s page sel h0 h4 hs

end Ends

/-! ### Runs (R249, R251) -/

section RunsAfter
variable (die n id : Nat) (s : State)

theorem runOf_modRun (f : Run → Run) : runOf (modRun die n id f s) die n id = (runOf s die n id).map f := by
  unfold modRun
  rw [runOf_modDrn]
  unfold runOf
  cases h : look? (drnTile s die n).runs id with
  | none => exact h
  | some r => simp [lookQ_ins]

theorem runOf_freeDarner (m d : Nat) : runOf (freeDarner die m d s) die n id = runOf s die n id :=
  congrArg (look? · id) (drnTile_freeDarner die m d s DrnTile.runs (fun _ _ => rfl) n)

/-- A chunk that enters is counted in its run; of a run nothing else changes. -/
theorem runOf_enterChunk {r : Run} (other : Nat) (h : ∃ k, runOf s die n id = some { r with entered := k }) :
    ∃ k, runOf (enterChunk die n other s) die n id = some { r with entered := k } := by
  obtain ⟨k, hk⟩ := h
  unfold enterChunk
  dsimp only
  split
  · exact ⟨k, hk⟩
  · next r' hr' =>
    split
    · exact ⟨k, hk⟩
    · rw [runOf_modDrn, lookQ_ins]
      split
      · next hid =>
        subst hid
        cases hr'.symm.trans hk
        exact ⟨_, rfl⟩
      · exact ⟨k, hk⟩

theorem runOf_fillQueue {r : Run} (h : runOf s die n id = some r) :
    ∃ k, runOf (fillQueue die n s) die n id = some { r with entered := k } := by
  unfold fillQueue
  refine forEach_keeps (fun t => ∃ k, runOf t die n id = some { r with entered := k }) _ _ _ (fun e t ht => ?_) ⟨r.entered, h⟩
  exact forEach_keeps (fun t => ∃ k, runOf t die n id = some { r with entered := k }) _ _ _
    (fun _ t ht => runOf_enterChunk die n id t e.1 ht) ht

end RunsAfter
end Sys2Proof.Machine
end

section
/-! SUPPORT. The task a darner takes (R242), its start, a queue entry with a parity error (R270, R286); O37. -/
namespace Sys2Proof.Machine

/-! ### The oldest task -/

/-- At least as old: the task that entered first, the lower entry index on a tie. -/
def Older (x y : Task) : Prop := x.born < y.born ∨ (x.born = y.born ∧ x.entry ≤ y.entry)

theorem Older.refl (x : Task) : Older x x := Or.inr ⟨rfl, Nat.le_refl _⟩

theorem Older.trans {x y z : Task} (h : Older x y) (h' : Older y z) : Older x z := by
  unfold Older at *
  omega

/-- The older of the best task so far and one more. -/
def olderOf (best : Option Task) (t : Task) : Option Task :=
  match best with
  | none => some t
  | some b => if t.born < b.born ∨ (t.born = b.born ∧ t.entry < b.entry) then some t else some b

theorem oldestTask_eq (q : List Task) : oldestTask q = q.foldl olderOf none := rfl

/-- The older of two is one of them and at least as old as both. -/
theorem olderOf_spec (best : Option Task) (t : Task) :
    ∃ x, olderOf best t = some x ∧ (x = t ∨ best = some x) ∧ Older x t ∧ ∀ b, best = some b → Older x b := by
  cases best with
  | none => exact ⟨t, rfl, .inl rfl, .refl t, nofun⟩
  | some b =>
    by_cases h : t.born < b.born ∨ (t.born = b.born ∧ t.entry < b.entry)
    · refine ⟨t, if_pos h, .inl rfl, .refl t, fun _ hb => ?_⟩
      cases hb
      unfold Older
      omega
    · refine ⟨b, if_neg h, .inr rfl, ?_, fun _ hb => ?_⟩
      · unfold Older
        omega
      · cases hb
        exact .refl b

theorem foldl_olderOf (q : List Task) (best : Option Task) (x : Task) (h : q.foldl olderOf best = some x) :
    (x ∈ q ∨ best = some x) ∧ (∀ y ∈ q, Older x y) ∧ ∀ b, best = some b → Older x b := by
  induction q generalizing best with
  | nil => exact ⟨.inr h, nofun, fun b hb => by cases hb.symm.trans h; exact .refl _⟩
  | cons t q ih =>
    obtain ⟨z, hz, hmem, hzt, hzb⟩ := olderOf_spec best t
    obtain ⟨hx, hq, hbest⟩ := ih _ h
    have hxz : Older x z := hbest z hz
    refine ⟨?_, fun y hy => ?_, fun b hb => hxz.trans (hzb b hb)⟩
    · rcases hx with hx | hx
      · exact .inl (List.mem_cons_of_mem _ hx)
      · cases hx.symm.trans hz
        exact hmem.imp (fun he : x = t => by rw [he]; exact List.mem_cons_self) id
    · rcases List.mem_cons.mp hy with rfl | hy
      · exact hxz.trans hzt
      · exact hq y hy

theorem oldestTask_spec {q : List Task} {x : Task} (h : oldestTask q = some x) : x ∈ q ∧ ∀ y ∈ q, Older x y := by
  obtain ⟨hx, hq, -⟩ := foldl_olderOf q none x ((oldestTask_eq q).symm.trans h)
  exact ⟨hx.resolve_right nofun, hq⟩

theorem foldl_olderOf_isSome (q : List Task) (b : Task) : (q.foldl olderOf (some b)).isSome = true := by
  induction q generalizing b with
  | nil => rfl
  | cons t q ih =>
    obtain ⟨z, hz, -⟩ := olderOf_spec (some b) t
    rw [List.foldl_cons, hz]
    exact ih z

/-- Of some tasks one is the oldest. -/
theorem oldestTask_none {q : List Task} (h : oldestTask q = none) : q = [] := by
  cases q with
  | nil => rfl
  | cons t q =>
    have := foldl_olderOf_isSome q t
    rw [show q.foldl olderOf (some t) = none from h] at this
    cases this

/-! ### The task a darner takes (R242, R252, R255) -/

/-- The tasks a darner may run that are lowest in their streams. -/
def mayTake (s : State) (die n d : Nat) : List Task :=
  (drnTile s die n).queue.filter fun t => mayRun s die n d t && lowestInStream (drnTile s die n).queue t

theorem mem_mayTake {s : State} {die n d : Nat} {x : Task} : x ∈ mayTake s die n d ↔ x ∈ (drnTile s die n).queue ∧
    mayRun s die n d x = true ∧ lowestInStream (drnTile s die n).queue x = true := by
  simp [mayTake]

/-- It is the oldest of those it must run first, where there are any, else of those it may run. -/
theorem pickTask_spec {s : State} {die n d : Nat} {x : Task} (h : pickTask s die n d = some x) : x ∈ mayTake s die n d ∧
    ∀ y ∈ mayTake s die n d, (mustRun s die n d y = true → mustRun s die n d x = true) ∧
      (mustRun s die n d y = mustRun s die n d x → Older x y) := by
  have heq : pickTask s die n d = match oldestTask ((mayTake s die n d).filter fun t => mustRun s die n d t) with
    | some t => some t | none => oldestTask (mayTake s die n d) := rfl
  rw [heq] at h
  split at h
  · next t ht =>
    cases h
    obtain ⟨hx, hold⟩ := oldestTask_spec ht
    obtain ⟨hmem, hmust⟩ := List.mem_filter.mp hx
    exact ⟨hmem, fun y hy => ⟨fun _ => hmust, fun he => hold y (List.mem_filter.mpr ⟨hy, he.trans hmust⟩)⟩⟩
  · next hnone =>
    obtain ⟨hmem, hold⟩ := oldestTask_spec h
    have hno := List.filter_eq_nil_iff.mp (oldestTask_none hnone)
    exact ⟨hmem, fun y hy => ⟨fun hm => absurd hm (hno y hy), fun _ => hold y hy⟩⟩

/-! ### TASK_DISPATCH -/

section Dispatch
variable {s : State} {die n d : Nat} {data : List Byte} {x : Task}

theorem dispatchTask_stays (e : TaskErr) (h : drnIdle s die n d = false ∨ pickTask s die n d = none) :
    dispatchTask die n d data e s = s := by
  unfold dispatchTask
  split
  · rfl
  · next hi =>
    rw [h.resolve_left (by simpa using hi)]

/-- A parity error of the store stops the patch as it fetches (R286). -/
def storeFault (die n d : Nat) (x : Task) (e : TaskErr) (s : State) : State :=
  if e = .storeParity ∧ x.kind = .patch then patchFault { die := die, tile := n, darner := d } 0x45 s else s

theorem dispatchTask_starts (e : TaskErr) (hi : drnIdle s die n d = true) (hp : pickTask s die n d = some x) (he : e ≠ .entryParity) :
    ∃ b bank, dispatchTask die n d data e s = fillSeam die n (fillQueue die n (storeFault die n d x e
      (readInput die n x (startTask die n d 0 bank x b data (unqueue die n x s))))) := by
  unfold dispatchTask
  rw [hi, hp]
  dsimp only
  rw [if_neg he]
  exact ⟨_, _, rfl⟩

/-- The darner that took the task, and every other one. -/
theorem darnerOf_started (from_ bank : Nat) (b : Bind) :
    let u := readInput die n x (startTask die n d from_ bank x b data (unqueue die n x s))
    (∃ m, darnerOf u die n d = withTask s.tm.fclk from_ bank x m (darnerOf s die n d)) ∧
      ∀ n' e, n' ≠ n ∨ e ≠ d → darnerOf u die n' e = darnerOf s die n' e := by
  obtain ⟨⟨m, hm⟩, hrest⟩ := darnerOf_startTask die n d (unqueue die n x s) from_ bank x b data
  have hunq := fun m e => darnerOf_unqueue die n die e m s x
  refine ⟨⟨m, ?_⟩, fun n' e h => ?_⟩
  · rw [darnerOf_readInput, hm, hunq]
    rfl
  · rw [darnerOf_readInput, hrest n' e h, hunq]

theorem dispatchTask_ok (hi : drnIdle s die n d = true) (hp : pickTask s die n d = some x) :
    let t := dispatchTask die n d data .ok s
    (∃ bank m, darnerOf t die n d = withTask s.tm.fclk 0 bank x m (darnerOf s die n d)) ∧
      ∀ n' d', n' ≠ n ∨ d' ≠ d → darnerOf t die n' d' = darnerOf s die n' d' := by
  obtain ⟨b, bank, heq⟩ := dispatchTask_starts (data := data) .ok hi hp nofun
  have hfault : ∀ u, storeFault die n d x .ok u = u := fun u => if_neg fun h => nomatch h.1
  obtain ⟨⟨m, hm⟩, hrest⟩ := darnerOf_started (s := s) (die := die) (n := n) (d := d) (data := data) (x := x) 0 bank b
  refine ⟨⟨bank, m, ?_⟩, fun n' d' h => ?_⟩
  · rw [heq, darnerOf_fillSeam, darnerOf_fillQueue, hfault, hm]
  · rw [heq, darnerOf_fillSeam, darnerOf_fillQueue, hfault, hrest n' d' h]

/-- A patch stopped by a parity error of the store is over, with its code. -/
theorem dispatchTask_storeParity (hi : drnIdle s die n d = true) (hp : pickTask s die n d = some x) (hk : x.kind = .patch) :
    let v := darnerOf (dispatchTask die n d data .storeParity s) die n d
    v.task = some x ∧ v.mach.sect = .done ∧ v.mach.fault = 0x45 := by
  obtain ⟨b, bank, heq⟩ := dispatchTask_starts (data := data) .storeParity hi hp nofun
  obtain ⟨⟨m, hm⟩, -⟩ := darnerOf_started (s := s) (die := die) (n := n) (d := d) (data := data) (x := x) 0 bank b
  have hfault : ∀ u, storeFault die n d x .storeParity u = patchFault { die := die, tile := n, darner := d } 0x45 u :=
    fun u => if_pos ⟨rfl, hk⟩
  intro v
  have hv : v = { withTask s.tm.fclk 0 bank x m (darnerOf s die n d) with mach := stopped 0x45 m } := by
    refine Eq.trans (b := darnerOf (patchFault { die := die, tile := n, darner := d } 0x45 _) die n d) ?_
      ((patchFault_darner { die := die, tile := n, darner := d } 0x45 _).trans (by rw [hm]; rfl))
    rw [← hfault, ← darnerOf_fillQueue die n die d n, ← darnerOf_fillSeam die n die d n, ← heq]
  rw [hv]
  exact ⟨rfl, rfl, rfl⟩

/-- An entry with a parity error is discarded: its seam fails, or its chunk ends; TASK_PARITY is raised and no darner takes it (R270). -/
theorem dispatchTask_entryParity (hi : drnIdle s die n d = true) (hp : pickTask s die n d = some x) :
    let t := dispatchTask die n d data .entryParity s
    Shows t die (drnPage s die n) 3 ∧ ∀ n' d', darnerOf t die n' d' = darnerOf s die n' d' := by
  have hraised : Shows (raise die (drnPage s die n) 3 (some x.ctx) 0 s) die (drnPage s die n) 3 := raise_bit _ _ _ _ _ _ (by decide)
  have hsame := fun n' d' => darnerOf_of_dr (raise_same die (drnPage s die n) 3 (some x.ctx) 0 s .dr (by decide)) die n' d'
  unfold dispatchTask
  rw [hi, hp]
  dsimp only
  rw [if_neg (by decide), if_pos rfl]
  generalize raise die (drnPage s die n) 3 (some x.ctx) 0 s = u at hraised hsame
  split
  · next q hq =>
    refine ⟨shows_of_pages (congrArg Regs.pages ?_) _ _ _ hraised, fun n' d' => ?_⟩
    · exact same_of_clr [.nt, .dr, .se] _ _ ((fillSeam_clr _ rfl rfl ..).trans ((tileAbort_clr _ rfl ..).trans (unqueue_clr _ rfl ..)))
        .rg (by decide)
    · rw [darnerOf_fillSeam, darnerOf_of_dr (same_of_clr [.nt] _ _ (tileAbort_clr _ rfl ..) .dr (by decide)), darnerOf_unqueue, hsame]
  · refine ⟨shows_of_pages (congrArg Regs.pages ?_) _ _ _ hraised, fun n' d' => ?_⟩
    · exact same_of_clr [.dr, .out] _ _ ((fillQueue_clr _ rfl ..).trans (dropChunk_clr _ rfl rfl ..)) .rg (by decide)
    · rw [darnerOf_fillQueue, darnerOf_dropChunk, hsame]

end Dispatch
end Sys2Proof.Machine
end

section
/-! SUPPORT. The end of a PATCH task: its output placed or held, its release in OSEQ order (R249, R251, R265); O37. -/
namespace Sys2Proof.Machine

/-! ### The output of a chunk (R249, R251, R286) -/

section Output
variable (die n id fault : Nat) (bytes : List Byte) (xf : Byte) (s : State)

/-- The run has its chunk's output no further than DST_LIMIT, or the fault that stops it. -/
def TakesOutput (bytes : List Byte) (fault : Nat) (s : State) (out : List Output) (r r' : Run) : Prop :=
  r'.finished = r.finished + 1 ∧
    (fault = 0 → r.stopped = false → r.outFull = false →
      (r.limit - resBytes r.bind < r.outBytes + bytes.length → r'.outFull = true ∧ r'.outBytes = r.outBytes) ∧
      (¬ r.limit - resBytes r.bind < r.outBytes + bytes.length → r'.outBytes = r.outBytes + bytes.length ∧
        out = (userStore (r.dst + w64 r.outBytes) bytes s).out)) ∧
    (fault ≠ 0 → r.stopped = false → r'.stopped = true ∧ r'.status = fault)

theorem runOf_storeBy (a : DWord) (bs : List Byte) : runOf (storeBy die a bs s) die n id = runOf s die n id :=
  runOf_of_dr (same_of_clr [.out] _ _ (storeBy_clr _ rfl ..) .dr (by decide)) die n id

theorem chunkOut_takesOutput {r : Run} (h : runOf s die n id = some r) (hsafe : isSafe s die = false) :
    let t := chunkOut die n id bytes fault xf s
    ∃ r', runOf t die n id = some r' ∧ TakesOutput bytes fault s t.out r r' := by
  have hmod : ∀ r', runOf (modRun die n id (fun _ => r') s) die n id = some r' := fun r' => by
    rw [runOf_modRun, h]
    rfl
  unfold chunkOut
  dsimp only
  rw [h]
  dsimp only
  split
  · next hstop =>
    have hno : r.stopped = false → False := fun h' => by rw [hstop] at h'; cases h'
    exact ⟨_, hmod _, rfl, fun _ h' => (hno h').elim, fun _ h' => (hno h').elim⟩
  · split
    · next hf => exact ⟨_, hmod _, rfl, fun h' => absurd h' hf, fun _ _ => ⟨rfl, rfl⟩⟩
    · next hf =>
      split
      · next hfull =>
        refine ⟨_, hmod _, rfl, fun _ _ hno => ⟨fun _ => ⟨rfl, rfl⟩, fun hle => absurd (hfull.resolve_left ?_) hle⟩, fun h' => absurd h' hf⟩
        rw [hno]
        decide
      · next hfit =>
        refine ⟨_, (runOf_storeBy die n id _ _ _).trans (hmod _), rfl, fun _ _ _ => ⟨fun hle => absurd (.inr hle) hfit, fun _ =>
          ⟨rfl, ?_⟩⟩, fun h' => absurd h' hf⟩
        unfold storeBy
        rw [if_neg (show ¬ isSafe (modRun die n id _ s) die = true from fun h' => by cases hsafe.symm.trans h')]
        rfl

end Output

/-! ### TASK_COMPLETE of a PATCH task -/

section Complete
variable {s : State} {die n d : Nat} {x : Task}

theorem completeTask_stays (data : List Byte) (e : SlotEcc) (ht : (darnerOf s die n d).task = some x) (hk : x.kind = .patch)
    (h : (darnerOf s die n d).mach.sect ≠ .done ∨ (darnerOf s die n d).holding = true ∨ isSafe s die = true) :
    completeTask die n d data e s = s := by
  unfold completeTask
  dsimp only
  rw [ht]
  dsimp only
  split
  · rfl
  · next hno =>
    have hsect : (darnerOf s die n d).mach.sect ≠ .done := h.resolve_right fun h' => hno (by simpa using h')
    rw [hk]
    exact if_pos hsect

/-- The task is counted, and without a fault its results join the run's. -/
def chunkCounted (die n owner : Nat) (x : Task) (v : Darner) (s : State) : State :=
  if chunkFault v .ok = 0 then chunkResults die owner x.run v.mach (addCount die (drnPage s die n) 1 1 s)
  else addCount die (drnPage s die n) 1 1 s

/-- The records a chunk leaves: none after a fault. -/
def chunkBytes (v : Darner) : List Byte := if chunkFault v .ok = 0 then v.mach.records else []

theorem completeTask_ends (data : List Byte) (ht : (darnerOf s die n d).task = some x) (hk : x.kind = .patch)
    (hd : (darnerOf s die n d).mach.sect = .done) (hh : (darnerOf s die n d).holding = false) (hs : isSafe s die = false) :
    let v := darnerOf s die n d
    let owner := ownerTile die n v
    completeTask die n d data .ok s = fillQueue die owner (endChunk die n d owner x (chunkBytes v) (chunkFault v .ok) v.mach.xflags
      (chunkCounted die n owner x v s)) := by
  unfold completeTask
  dsimp only
  rw [ht]
  dsimp only
  rw [hh, hs, if_neg (by decide), hk]
  dsimp only
  rw [if_neg (not_not.mpr hd)]
  rfl

theorem chunkFault_ok_eq_zero (v : Darner) : chunkFault v .ok = 0 ↔ v.mach.fault = 0 ∧ v.poisoned = false := by
  unfold chunkFault
  cases hp : v.poisoned <;> by_cases hf : v.mach.fault = 0 <;> simp [hf]

theorem chunkFault_of_fault (v : Darner) (h : v.mach.fault ≠ 0) : chunkFault v .ok = v.mach.fault := if_pos h

/-- What joining results leaves: all of a tile but its runs, and all parts but the counters and the tiles. -/
theorem chunkCounted_frame (owner : Nat) (v : Darner) : ChangesOnly [.rg, .dr] s (chunkCounted die n owner x v s) := by
  refine changesOnly_of_clr _ _ _ ?_
  unfold chunkCounted
  split
  · exact (chunkResults_clr _ rfl ..).trans (addCount_clr _ rfl ..)
  · exact addCount_clr _ rfl ..

theorem drnTile_chunkCounted {β : Type} (g : DrnTile → β) (hg : ∀ t rs, g { t with runs := rs } = g t) (owner m : Nat) (v : Darner) :
    g (drnTile (chunkCounted die n owner x v s) die m) = g (drnTile s die m) := by
  unfold chunkCounted
  split
  · refine drnTile_modDrn_keeps g die owner die m _ _ ?_
    split
    · exact hg _ _
    · rfl
  · rfl

theorem darnerOf_chunkCounted (owner m e : Nat) (v : Darner) :
    darnerOf (chunkCounted die n owner x v s) die m e = darnerOf s die m e :=
  darnerOf_of_darners (drnTile_chunkCounted DrnTile.darners (fun _ _ => rfl) owner m v) e

theorem countOf_chunkCounted (owner : Nat) (v : Darner) :
    countOf (chunkCounted die n owner x v s) die (drnPage s die n) 1 = countOf s die (drnPage s die n) 1 + 1 := by
  have hcount := (countOf_addCount_page die (drnPage s die n) 1 1 1 s).trans (if_pos rfl)
  unfold chunkCounted
  split
  · exact hcount
  · exact hcount

theorem runOf_chunkCounted {owner : Nat} {r : Run} (v : Darner) (h : runOf s die owner x.run = some r) :
    ∃ rs, runOf (chunkCounted die n owner x v s) die owner x.run = some { r with results := rs } := by
  have h' : runOf (addCount die (drnPage s die n) 1 1 s) die owner x.run = some r := h
  unfold chunkCounted
  split
  · unfold chunkResults
    rw [runOf_modRun, h']
    exact ⟨_, rfl⟩
  · exact ⟨r.results, h'⟩

/-! ### An ordered task's output is held (R265) -/

/-- An output joins those a stream holds. -/
def holdOutput (st : Nat) (h : HeldOut) (t : DrnTile) : DrnTile :=
  { t with streams := upd {} t.streams st fun k => { k with held := k.held ++ [h] } }

theorem endChunk_ordered (owner fault : Nat) (bytes : List Byte) (xf : Byte) (u : State) (ho : x.ordered = true) :
    endChunk die n d owner x bytes fault xf u = modDarner die n d (fun y => { y with holding := true }) (countBusy die n d
      (modDrn die owner (holdOutput x.stream
        { oseq := x.oseq, darner := d, thief := n, bytes := bytes, fault := fault, xflags := xf }) u)) := by
  unfold endChunk
  rw [if_pos ho]
  rfl

/-- The darner holds its output from now on. -/
theorem darnerOf_endChunk_ordered (owner fault : Nat) (bytes : List Byte) (xf : Byte) (u : State) (ho : x.ordered = true)
    (ht : (darnerOf u die n d).task = some x) :
    darnerOf (endChunk die n d owner x bytes fault xf u) die n d = { darnerOf u die n d with holding := true, since := u.tm.fclk } := by
  have hheld : ∀ h, darnerOf (modDrn die owner (holdOutput x.stream h) u) die n d = darnerOf u die n d := fun h =>
    darnerOf_modDrn die owner die d n u _ rfl
  rw [endChunk_ordered owner fault bytes xf u ho, darnerOf_modDarner, countBusy_busy die n d _ x (by rw [hheld]; exact ht), darnerOf_modDarner]
  rw [darnerOf_addCount, hheld, modDrn_tm]

theorem streams_endChunk_ordered (owner fault : Nat) (bytes : List Byte) (xf : Byte) (u : State) (ho : x.ordered = true) :
    (look ({} : Stream16) (drnTile (endChunk die n d owner x bytes fault xf u) die owner).streams x.stream).held =
      (look ({} : Stream16) (drnTile u die owner).streams x.stream).held ++
        [{ oseq := x.oseq, darner := d, thief := n, bytes := bytes, fault := fault, xflags := xf }] := by
  rw [endChunk_ordered owner fault bytes xf u ho,
    show ∀ v f, (drnTile (modDarner die n d f v) die owner).streams = (drnTile v die owner).streams from fun v f =>
      drnTile_modDrn_keeps DrnTile.streams die n die owner _ v rfl,
    drnTile_countBusy die n d _ DrnTile.streams (fun _ _ => rfl), drnTile_modDrn_same]
  unfold holdOutput
  rw [look_upd, if_pos rfl]

theorem countOf_endChunk (owner fault page sel : Nat) (bytes : List Byte) (xf : Byte) (u : State) (h0 : sel ≠ 0) (h4 : sel ≠ 4)
    (hs : sel < 4096) : countOf (endChunk die n d owner x bytes fault xf u) die page sel = countOf u die page sel := by
  unfold endChunk
  split
  · exact (countOf_countBusy die n d _ page sel h0 h4 hs).trans rfl
  · refine (countOf_freeDarner die n d _ page sel h0 h4 hs).trans ?_
    unfold countOf
    rw [show (chunkOut die owner x.run bytes fault xf u).rg = u.rg from same_of_clr [.dr, .out] _ _ (chunkOut_clr _ rfl rfl ..) .rg (by decide)]

/-! ### An unordered task's output is placed (R249, R251) -/

theorem endChunk_unordered (owner fault : Nat) (bytes : List Byte) (xf : Byte) (u : State) (ho : x.ordered = false) :
    endChunk die n d owner x bytes fault xf u = freeDarner die n d (chunkOut die owner x.run bytes fault xf u) := by
  unfold endChunk
  rw [ho]
  rfl

theorem freeDarner_out (u : State) : (freeDarner die n d u).out = u.out :=
  same_of_clr [.rg, .dr] _ _ (freeDarner_clr _ rfl rfl ..) .out (by decide)

theorem fillQueue_out (u : State) : (fillQueue die n u).out = u.out :=
  same_of_clr [.dr] _ _ (fillQueue_clr _ rfl ..) .out (by decide)

/-- The run once its chunk's output is placed and its darner free. -/
theorem runOf_completed {owner fault : Nat} {bytes : List Byte} {xf : Byte} {r : Run} (v : Darner)
    (h : runOf s die owner x.run = some r) (hs : isSafe s die = false) :
    let t := fillQueue die owner (freeDarner die n d (chunkOut die owner x.run bytes fault xf (chunkCounted die n owner x v s)))
    ∃ r', runOf t die owner x.run = some r' ∧ TakesOutput bytes fault s t.out r r' := by
  have hframe : ChangesOnly [.rg, .dr] s (chunkCounted die n owner x v s) := chunkCounted_frame owner v
  obtain ⟨rs, hrun⟩ := runOf_chunkCounted (n := n) v h
  have hsafe : isSafe (chunkCounted die n owner x v s) die = false :=
    (isSafe_of_ft (congrArg Faults.safeDies (show (chunkCounted die n owner x v s).ft = s.ft from hframe .ft (by decide))) die).trans hs
  obtain ⟨r₁, hr₁, hfin, hplaced, hfault⟩ := chunkOut_takesOutput die owner x.run fault bytes xf _ hrun hsafe
  obtain ⟨k, hk⟩ := runOf_fillQueue die owner x.run _ ((runOf_freeDarner die owner x.run _ n d).trans hr₁)
  refine ⟨_, hk, hfin, fun hf hst hfull => ?_, hfault⟩
  obtain ⟨hover, hfit⟩ := hplaced hf hst hfull
  refine ⟨hover, fun hno => ⟨(hfit hno).1, ?_⟩⟩
  rw [fillQueue_out, freeDarner_out, (hfit hno).2]
  exact congrArg (· ++ _) (hframe .out (by decide))

end Complete

/-! ### What the completed task leaves -/

section Completed
variable {s : State} {die n d : Nat} {x : Task} (data : List Byte) (ht : (darnerOf s die n d).task = some x) (hk : x.kind = .patch)
  (hd : (darnerOf s die n d).mach.sect = .done) (hh : (darnerOf s die n d).holding = false) (hs : isSafe s die = false)
include ht hk hd hh hs

theorem countOf_completeTask :
    countOf (completeTask die n d data .ok s) die (drnPage s die n) 1 = countOf s die (drnPage s die n) 1 + 1 := by
  rw [completeTask_ends data ht hk hd hh hs, countOf_fillQueue, countOf_endChunk _ _ _ _ _ _ _ (by decide) (by decide) (by decide),
    countOf_chunkCounted]

/-- The output an ordered task's darner holds. -/
def heldOutput (n d : Nat) (x : Task) (v : Darner) : HeldOut :=
  { oseq := x.oseq, darner := d, thief := n, bytes := chunkBytes v, fault := chunkFault v .ok, xflags := v.mach.xflags }

theorem completeTask_ordered (ho : x.ordered = true) :
    let v := darnerOf s die n d
    let owner := ownerTile die n v
    let t := completeTask die n d data .ok s
    darnerOf t die n d = { v with holding := true, since := s.tm.fclk } ∧
      (look ({} : Stream16) (drnTile t die owner).streams x.stream).held =
        (look ({} : Stream16) (drnTile s die owner).streams x.stream).held ++ [heldOutput n d x v] := by
  intro v owner t
  have heq : t = _ := completeTask_ends data ht hk hd hh hs
  have hframe : ChangesOnly [.rg, .dr] s (chunkCounted die n owner x v s) := chunkCounted_frame owner v
  rw [heq]
  refine ⟨?_, ?_⟩
  · rw [darnerOf_fillQueue, darnerOf_endChunk_ordered _ _ _ _ _ ho (by rw [darnerOf_chunkCounted]; exact ht), darnerOf_chunkCounted,
      show (chunkCounted die n owner x v s).tm = s.tm from hframe .tm (by decide)]
  · rw [drnTile_fillQueue DrnTile.streams (fun _ _ _ => rfl), streams_endChunk_ordered _ _ _ _ _ ho,
      drnTile_chunkCounted DrnTile.streams (fun _ _ => rfl)]
    rfl

theorem completeTask_unordered (ho : x.ordered = false) :
    let v := darnerOf s die n d
    let owner := ownerTile die n v
    let t := completeTask die n d data .ok s
    ((darnerOf t die n d).task = none ∧ (darnerOf t die n d).holding = false) ∧
      ∀ r, runOf s die owner x.run = some r → ∃ r', runOf t die owner x.run = some r' ∧
        TakesOutput (chunkBytes v) (chunkFault v .ok) s t.out r r' := by
  intro v owner t
  have heq : t = _ := completeTask_ends data ht hk hd hh hs
  rw [heq, endChunk_unordered _ _ _ _ _ ho]
  refine ⟨?_, fun r hr => runOf_completed v hr hs⟩
  rw [darnerOf_fillQueue]
  exact darnerOf_freeDarner die n d _

end Completed

theorem chunkBytes_clean {v : Darner} (h : v.mach.fault = 0) (hp : v.poisoned = false) : chunkBytes v = v.mach.records :=
  if_pos ((chunkFault_ok_eq_zero v).mpr ⟨h, hp⟩)

theorem chunkBytes_eq (v : Darner) : chunkBytes v = if v.mach.fault = 0 ∧ v.poisoned = false then v.mach.records else [] := by
  unfold chunkBytes
  simp only [chunkFault_ok_eq_zero]

/-! ### REORDER_RELEASE (R251, R265) -/

section Release
variable {s : State} {die n st : Nat}

theorem releaseOrdered_stays (h : ∀ h ∈ (look ({} : Stream16) (drnTile s die n).streams st).held,
    h.oseq ≠ (look ({} : Stream16) (drnTile s die n).streams st).next) : releaseOrdered die n st s = s := by
  unfold releaseOrdered
  dsimp only
  rw [List.find?_eq_none.mpr fun y hy => by simpa using h y hy]

/-- The output of the next OSEQ leaves its stream. -/
def streamMoved (h : HeldOut) (k : Stream16) : Stream16 :=
  { k with next := k.next + 1, offset := k.offset + h.bytes.length, held := k.held.filter fun x => x.oseq ≠ h.oseq }

theorem releaseOrdered_run {h : HeldOut} (hst : 12 ≤ st) (hh : (look ({} : Stream16) (drnTile s die n).streams st).held.find?
      (fun h => decide (h.oseq = (look ({} : Stream16) (drnTile s die n).streams st).next)) = some h) :
    let u := chunkOut die n (look ({} : Stream16) (drnTile s die n).streams st).run h.bytes h.fault h.xflags
      (modDrn die n (fun t => { t with streams := upd {} t.streams st (streamMoved h) }) s)
    releaseOrdered die n st s = fillQueue die n (if h.darner < 8 then freeDarner die h.thief h.darner u else u) := by
  unfold releaseOrdered
  dsimp only
  rw [hh]
  exact if_pos hst

theorem streams_chunkOut (id fault : Nat) (bytes : List Byte) (xf : Byte) (u : State) :
    (drnTile (chunkOut die n id bytes fault xf u) die n).streams = (drnTile u die n).streams := by
  have hmod : ∀ f u, (drnTile (modRun die n id f u) die n).streams = (drnTile u die n).streams := fun f u =>
    drnTile_modDrn_keeps DrnTile.streams die n die n _ u (by split <;> rfl)
  have hstore : ∀ a bs u, (drnTile (storeBy die a bs u) die n).streams = (drnTile u die n).streams := fun a bs u =>
    congrArg DrnTile.streams (drnTile_of_dr (same_of_clr [.out] _ _ (storeBy_clr _ rfl ..) .dr (by decide)) die n)
  unfold chunkOut
  dsimp only
  split
  · rfl
  · split
    · exact hmod _ _
    · split
      · exact hmod _ _
      · split
        · exact hmod _ _
        · exact (hstore _ _ _).trans (hmod _ _)

theorem releaseOrdered_effect {h : HeldOut} (hst : 12 ≤ st) (hh : (look ({} : Stream16) (drnTile s die n).streams st).held.find?
      (fun h => decide (h.oseq = (look ({} : Stream16) (drnTile s die n).streams st).next)) = some h) :
    let t := releaseOrdered die n st s
    (h.darner < 8 → (darnerOf t die h.thief h.darner).task = none) ∧
      look ({} : Stream16) (drnTile t die n).streams st = streamMoved h (look ({} : Stream16) (drnTile s die n).streams st) := by
  rw [releaseOrdered_run hst hh]
  refine ⟨fun hd => ?_, ?_⟩
  · rw [darnerOf_fillQueue, if_pos hd]
    exact (darnerOf_freeDarner die h.thief h.darner _).1
  · rw [drnTile_fillQueue DrnTile.streams (fun _ _ _ => rfl)]
    have hmoved : ∀ u, (drnTile (if h.darner < 8 then freeDarner die h.thief h.darner u else u) die n).streams =
        (drnTile u die n).streams := fun u => by
      split
      · exact drnTile_freeDarner die h.thief h.darner u DrnTile.streams (fun _ _ => rfl) n
      · rfl
    rw [hmoved, streams_chunkOut, drnTile_modDrn_same, look_upd, if_pos rfl]

end Release

/-! ### The statement -/

/-- Settles O37: the task picked is the oldest of those that go first; its end places or holds its output; a release takes the next OSEQ. -/
theorem tasksRunInOrder : Obligations.TasksRunInOrder := by
  refine ⟨fun s die n d data => ⟨fun e h => congrArg _ (dispatchTask_stays e h), fun x hi hp => ⟨?_, ?_, ?_, fun hk => ?_⟩⟩,
    fun s die n d data x => ?_, fun s die n st => ⟨fun h => congrArg _ (releaseOrdered_stays h), fun hst h hh => ?_⟩⟩
  · obtain ⟨hx, hfirst⟩ := pickTask_spec hp
    obtain ⟨hmem, hmay, hlow⟩ := mem_mayTake.mp hx
    exact ⟨hmem, hmay, hlow, fun y hy hym hyl => hfirst y (mem_mayTake.mpr ⟨hy, hym, hyl⟩)⟩
  · obtain ⟨⟨bank, m, hown⟩, hrest⟩ := dispatchTask_ok (data := data) hi hp
    refine ⟨_, rfl, ?_, ?_, ?_, hrest⟩
    all_goals rw [hown]; rfl
  · exact ⟨_, rfl, dispatchTask_entryParity hi hp⟩
  · exact ⟨_, rfl, dispatchTask_storeParity hi hp hk⟩
  · intro v owner ht hk
    refine ⟨fun h e => congrArg _ (completeTask_stays data e ht hk h), fun hd hh hs => ⟨_, rfl, ?_⟩⟩
    refine ⟨countOf_completeTask data ht hk hd hh hs, fun ho => ?_, fun ho => ?_⟩
    · obtain ⟨hown, hheld⟩ := completeTask_ordered data ht hk hd hh hs ho
      exact ⟨hown, heldOutput n d x v, rfl, rfl, rfl, chunkBytes_eq v, hheld⟩
    · obtain ⟨⟨htask, hhold⟩, hrun⟩ := completeTask_unordered data ht hk hd hh hs ho
      refine ⟨htask, hhold, fun r hr => ?_⟩
      obtain ⟨r', hr', hfin, hplaced, hfault⟩ := hrun r hr
      refine ⟨r', hr', hfin, fun hf hp hst hfull => ?_, fun hf hst => ?_⟩
      · have hout := hplaced ((chunkFault_ok_eq_zero v).mpr ⟨hf, hp⟩) hst hfull
        rw [chunkBytes_clean hf hp] at hout
        exact ⟨hout.1, fun hno _ => hout.2 hno⟩
      · have hcode := chunkFault_of_fault v hf
        rw [← hcode]
        exact hfault (by rw [hcode]; exact hf) hst
  · obtain ⟨hfree, hstream⟩ := releaseOrdered_effect hst hh
    refine ⟨_, rfl, hfree, ?_⟩
    rw [hstream]
    exact ⟨rfl, rfl, rfl⟩

end Sys2Proof.Machine
end

section
/-! SUPPORT. Steals: what is asked for and what is granted, an error of the path (R258 to R262, R269); O38. -/
namespace Sys2Proof.Machine

/-! ### STEAL_REQUEST (R258 to R260) -/

section Asks
variable {s : State} {die n d dir : Nat}

theorem stealTask_spec {x : Task} (h : stealTask s die n d dir = some x) :
    ∃ v, meshNeighbour die n dir = some v ∧ x ∈ (drnTile s die v).queue ∧ maySteal s die n d v dir x = true := by
  unfold stealTask at h
  split at h
  · cases h
  · next v hv =>
    split at h
    · cases h
    · exact ⟨v, hv, List.mem_filter.mp (oldestTask_spec h).1⟩

/-- The direction the rotation reaches first has a task. -/
theorem stealFirst_spec (h : stealFirst s die n d = some dir) : ∃ x, stealTask s die n d dir = some x := by
  unfold stealFirst at h
  exact Option.isSome_iff_exists.mp (List.find?_some (p := fun dir => (stealTask s die n d dir).isSome) h)

/-- When a darner asks for a steal in a direction. -/
def Asks (s : State) (die n d dir : Nat) : Prop :=
  drnIdle s die n d = true ∧ (reg s die (drnPage s die n) 0x100).toNat.testBit 0 = true ∧ (darnerOf s die n d).asks = none ∧
    pickTask s die n d = none ∧ stealFirst s die n d = some dir

theorem askSteal_not (h : ¬ Asks s die n d dir) : askSteal die n d dir s = s := if_neg h

theorem askSteal_asks (h : Asks s die n d dir) : ∃ x, stealTask s die n d dir = some x ∧
    askSteal die n d dir s = modDarner die n d (fun y => { y with asks := some (dir, x, s.tm.fclk) }) s := by
  obtain ⟨x, hx⟩ := stealFirst_spec h.2.2.2.2
  refine ⟨x, hx, ?_⟩
  unfold askSteal
  refine (if_pos h).trans ?_
  rw [hx]

end Asks

/-! ### An error of the steal path (R269) -/

section PathError
variable (die c t dr : Nat) (s : State)

theorem physTile_of_spare {s u : State} (h : u.ft.spare = s.ft.spare) (die n : Nat) : physTile u die n = physTile s die n := by
  unfold physTile spareOf
  rw [h]

theorem drnPage_of_spare {s u : State} (h : u.ft.spare = s.ft.spare) (die n : Nat) : drnPage u die n = drnPage s die n := by
  unfold drnPage
  rw [physTile_of_spare h]

theorem drnPage_ne_one (n : Nat) : drnPage s die n ≠ 1 := by
  unfold drnPage tpage
  omega

theorem stealDir_of_same {s u : State} (he : u.rg.eff = s.rg.eff) (hs : u.ft.spare = s.ft.spare) (die n k : Nat) :
    stealDir u die n k = stealDir s die n k := by
  unfold stealDir
  rw [drnPage_of_spare hs, reg_of_eff he]

/-- A tile steals no more in a direction, and raises STEAL_LINK. -/
def stealEnds : State := raise die (drnPage s die t) 2 (some c) 0
  (setReg die (drnPage s die t) 0x100 0 (reg s die (drnPage s die t) 0x100 &&& ~~~(w32 (2 ^ (4 + dr)))) s)

theorem stealLinkErr_eq (n v dir : Nat) : stealLinkErr die n v dir c s = stealEnds die c v (oppDir dir) (stealEnds die c n dir s) := rfl

/-- Raising counts at the page of the die's collector alone. -/
theorem countOf_raise_page (page b p sel : Nat) (ctx : Option Nat) (detail : Word) (s : State) (hp : p ≠ 1) (hs : sel < 4096) :
    countOf (raise die page b ctx detail s) die p sel = countOf s die p sel := by
  have hne : ∀ x, x < 4096 → ckey die p sel ≠ ckey die 1 x := fun x hx => by
    unfold ckey pk
    omega
  exact raise_counts die page b ctx detail s _ (hne 1 (by decide)) (hne 2 (by decide))

theorem countOf_setReg (page off sel p x : Nat) (w : Word) (s : State) :
    countOf (setReg die page off sel w s) die p x = countOf s die p x := rfl

theorem stealEnds_spare : (stealEnds die c t dr s).ft.spare = s.ft.spare := raise_spare _ _ _ _ _ _

theorem countOf_stealEnds (page sel : Nat) (hp : page ≠ 1) (hs : sel < 4096) :
    countOf (stealEnds die c t dr s) die page sel = countOf s die page sel := by
  rw [stealEnds, countOf_raise_page _ _ _ _ _ _ _ _ hp hs, countOf_setReg]

theorem stealEnds_shows : Shows (stealEnds die c t dr s) die (drnPage s die t) 2 := raise_bit _ _ _ _ _ _ (by decide)

theorem stealEnds_keeps_shows (page b : Nat) (h : Shows s die page b) : Shows (stealEnds die c t dr s) die page b :=
  shows_raise _ _ _ _ _ _ _ _ _ (shows_of_pages rfl die page b h)

/-- STEAL_ENABLE of a tile after a direction of some tile has ended. -/
theorem stealEnable_stealEnds (m : Nat) : reg (stealEnds die c t dr s) die (drnPage s die m) 0x100 =
    if drnPage s die m = drnPage s die t then reg s die (drnPage s die t) 0x100 &&& ~~~(w32 (2 ^ (4 + dr)))
    else reg s die (drnPage s die m) 0x100 := by
  rw [show reg (stealEnds die c t dr s) die (drnPage s die m) 0x100 = _ from reg_of_eff (raise_eff _ _ _ _ _ _) _ _ _ _]
  split
  · next h => rw [h, reg_setReg_same]
  · next h =>
    refine reg_setReg_ne _ _ _ _ _ _ _ _ _ _ ?_
    unfold rk pk
    omega

theorem testBit_cleared (w : Word) (k : Nat) (h : k < 32) : (w &&& ~~~(w32 (2 ^ k))).toNat.testBit k = false := by
  have hk : (w32 (2 ^ k)).getLsbD k = true := by
    rw [w32, BitVec.getLsbD_ofNat, Nat.testBit_two_pow_self]
    simpa using h
  rw [BitVec.testBit_toNat, BitVec.getLsbD_and, BitVec.getLsbD_not, hk]
  simp

theorem testBit_and_left (w m : Word) (k : Nat) (h : w.toNat.testBit k = false) : (w &&& m).toNat.testBit k = false := by
  rw [BitVec.toNat_and, Nat.testBit_and, h, Bool.false_and]

theorem stealDir_stealEnds (h : dr < 4) : stealDir (stealEnds die c t dr s) die t dr = false := by
  unfold stealDir
  rw [drnPage_of_spare (stealEnds_spare die c t dr s), stealEnable_stealEnds, if_pos rfl]
  exact testBit_cleared _ _ (by omega)

theorem stealDir_stealEnds_off (m k : Nat) (h : stealDir s die m k = false) : stealDir (stealEnds die c t dr s) die m k = false := by
  unfold stealDir at h ⊢
  rw [drnPage_of_spare (stealEnds_spare die c t dr s), stealEnable_stealEnds]
  split
  · next hp =>
    rw [hp] at h
    exact testBit_and_left _ _ _ h
  · exact h

theorem oppDir_lt (dir : Nat) : oppDir dir < 4 := by
  unfold oppDir
  split <;> decide

/-- After an error of the path both tiles show STEAL_LINK and neither steals over it. -/
theorem stealLinkErr_effect (n v dir : Nat) (hd : dir < 4) :
    let u := stealLinkErr die n v dir c s
    Shows u die (drnPage s die n) 2 ∧ Shows u die (drnPage s die v) 2 ∧ stealDir u die n dir = false ∧ stealDir u die v (oppDir dir) = false := by
  rw [stealLinkErr_eq]
  refine ⟨stealEnds_keeps_shows _ _ _ _ _ _ _ (stealEnds_shows die c n dir s), ?_,
    stealDir_stealEnds_off _ _ _ _ _ _ _ (stealDir_stealEnds die c n dir s hd), stealDir_stealEnds die c v _ _ (oppDir_lt dir)⟩
  rw [← drnPage_of_spare (stealEnds_spare die c n dir s) die v]
  exact stealEnds_shows die c v _ _

theorem countOf_stealLinkErr (n v dir page sel : Nat) (hp : page ≠ 1) (hs : sel < 4096) :
    countOf (stealLinkErr die n v dir c s) die page sel = countOf s die page sel := by
  rw [stealLinkErr_eq, countOf_stealEnds _ _ _ _ _ _ _ hp hs, countOf_stealEnds _ _ _ _ _ _ _ hp hs]

end PathError

/-! ### STEAL_GRANT (R261, R262) -/

section Grants
variable {s : State} {die n d dir c v : Nat} {data : List Byte} {err : Bool} {x : Task}

theorem grantSteal_unasked (h : (darnerOf s die n d).asks = none) : grantSteal die n d data err s = s := by
  unfold grantSteal
  rw [h]

theorem grantSteal_early (h : (darnerOf s die n d).asks = some (dir, x, c)) (hc : s.tm.fclk < c + 8) : grantSteal die n d data err s = s := by
  unfold grantSteal
  rw [h]
  exact if_pos hc

/-- What a request rests on (R258, R259, R262, R273). -/
theorem maySettle_iff : maySettle s die n d v dir c x = true ↔ x ∈ (drnTile s die v).queue ∧ drnIdle s die n d = true ∧
    pickTask s die n d = none ∧ (reg s die (drnPage s die n) 0x100).toNat.testBit 0 = true ∧ maySteal s die n d v dir x = true ∧
    stealBeaten s die v dir x c = false ∧ ownTakes s die v x = false ∧ tileQuiesced s die v = false := by
  simp only [maySettle, Bool.and_eq_true, decide_eq_true_eq, Bool.not_eq_true', and_assoc]

theorem grantSteal_refused (h : (darnerOf s die n d).asks = some (dir, x, c)) (hc : c + 8 ≤ s.tm.fclk)
    (hv : meshNeighbour die n dir = some v) (hno : maySettle s die n d v dir c x = false) :
    grantSteal die n d data err s = modDarner die n d (fun y => { y with asks := none }) s := by
  unfold grantSteal
  rw [h]
  dsimp only
  rw [if_neg (by omega), hv]
  dsimp only
  rw [hno]
  rfl

/-- The thief runs the task, at the cost of its own window. -/
def asThief (dir : Nat) (x : Task) (err : Bool) (y : Darner) : Darner :=
  { y with rot := dir, endAt := y.endAt + x.cost, admitted := y.admitted + x.cost, poisoned := err }

/-- The state in which the thief has the task, before the counters. -/
def stolen (die n d v dir bank : Nat) (x : Task) (err : Bool) (b : Bind) (data : List Byte) (s : State) : State :=
  modDarner die n d (asThief dir x err) (startTask die n d (dir + 1) bank x b data (unqueue die v x s))

/-- Both tiles count it. -/
def stealCounted (die n v : Nat) (u : State) : State := addCount die (drnPage u die v) 3 1 (addCount die (drnPage u die n) 2 1 u)

/-- The input is read and the victim's queue filled, after the end of a path with an error. -/
def stealEnded (die n v dir : Nat) (x : Task) (err : Bool) (w : State) : State :=
  fillQueue die v (readInput die v x (doIf err (stealLinkErr die n v dir x.ctx) w))

theorem grantSteal_granted (h : (darnerOf s die n d).asks = some (dir, x, c)) (hc : c + 8 ≤ s.tm.fclk)
    (hv : meshNeighbour die n dir = some v) (hyes : maySettle s die n d v dir c x = true) :
    ∃ bank b, grantSteal die n d data err s =
      stealEnded die n v dir x err (stealCounted die n v (stolen die n d v dir bank x err b data s)) := by
  unfold grantSteal
  rw [h]
  dsimp only
  rw [if_neg (by omega), hv]
  dsimp only
  rw [hyes]
  exact ⟨_, _, rfl⟩

theorem fetchCheck_spare (u : DrnRef) (t : State) : (fetchCheck u t).ft.spare = t.ft.spare := by
  unfold fetchCheck
  dsimp only
  split
  · rw [patchFault, raise_spare, setReg_ft, modDarner_ft]
  · rfl

theorem countOf_fetchCheck (u : DrnRef) (t : State) (page sel : Nat) (hp : page ≠ 1) (hs : sel < 4096) :
    countOf (fetchCheck u t) u.die page sel = countOf t u.die page sel := by
  unfold fetchCheck
  dsimp only
  split
  · rw [patchFault, countOf_raise_page _ _ _ _ _ _ _ _ hp hs, countOf_setReg]
    rfl
  · rfl

theorem startTask_spare (from_ bank : Nat) (b : Bind) (t : State) :
    (startTask die n d from_ bank x b data t).ft.spare = t.ft.spare := by
  obtain ⟨m, heq⟩ := startTask_eq die n d t from_ bank x b data
  rw [heq]
  split
  · exact fetchCheck_spare _ _
  · rfl

theorem countOf_startTask (from_ bank : Nat) (b : Bind) (t : State) (page sel : Nat) (hp : page ≠ 1) (hs : sel < 4096) :
    countOf (startTask die n d from_ bank x b data t) die page sel = countOf t die page sel := by
  obtain ⟨m, heq⟩ := startTask_eq die n d t from_ bank x b data
  rw [heq]
  split
  · exact countOf_fetchCheck { die := die, tile := n, darner := d } _ page sel hp hs
  · rfl

theorem stolen_spare (bank : Nat) (b : Bind) : (stolen die n d v dir bank x err b data s).ft.spare = s.ft.spare :=
  startTask_spare _ _ _ _

theorem darnerOf_stolen (bank : Nat) (b : Bind) : ∃ m, darnerOf (stolen die n d v dir bank x err b data s) die n d =
    asThief dir x err (withTask s.tm.fclk (dir + 1) bank x m (darnerOf s die n d)) := by
  obtain ⟨⟨m, hm⟩, -⟩ := darnerOf_startTask die n d (unqueue die v x s) (dir + 1) bank x b data
  refine ⟨m, ?_⟩
  rw [stolen, darnerOf_modDarner, hm, darnerOf_unqueue]
  rfl

theorem countOf_stolen (bank : Nat) (b : Bind) (page sel : Nat) (hp : page ≠ 1) (hs : sel < 4096) :
    countOf (stolen die n d v dir bank x err b data s) die page sel = countOf s die page sel :=
  countOf_startTask (dir + 1) bank b (unqueue die v x s) page sel hp hs

/-- A granted steal: the state in which the thief has the task, then the counters and what follows. -/
theorem grantSteal_stolen (h : (darnerOf s die n d).asks = some (dir, x, c)) (hc : c + 8 ≤ s.tm.fclk)
    (hv : meshNeighbour die n dir = some v) (hyes : maySettle s die n d v dir c x = true) :
    ∃ u, grantSteal die n d data err s = stealEnded die n v dir x err (stealCounted die n v u) ∧
      (∃ bank m, darnerOf u die n d = asThief dir x err (withTask s.tm.fclk (dir + 1) bank x m (darnerOf s die n d))) ∧
      u.ft.spare = s.ft.spare ∧ ∀ page sel, page ≠ 1 → sel < 4096 → countOf u die page sel = countOf s die page sel := by
  obtain ⟨bank, b, heq⟩ := grantSteal_granted (data := data) (err := err) h hc hv hyes
  obtain ⟨m, hm⟩ := darnerOf_stolen bank b
  exact ⟨_, heq, ⟨bank, m, hm⟩, stolen_spare bank b, countOf_stolen bank b⟩

/-- Counters are no darners and no faults. -/
theorem darnerOf_stealCounted (w : State) : darnerOf (stealCounted die n v w) die n d = darnerOf w die n d := rfl

theorem stealCounted_spare (w : State) : (stealCounted die n v w).ft.spare = w.ft.spare := rfl

theorem countOf_stealCounted (w : State) :
    countOf (stealCounted die n v w) die (drnPage w die n) 2 = countOf w die (drnPage w die n) 2 + 1 ∧
      countOf (stealCounted die n v w) die (drnPage w die v) 3 = countOf w die (drnPage w die v) 3 + 1 := by
  have hne : ∀ p p' : Nat, ckey die p 2 ≠ ckey die p' 3 := fun p p' => by
    unfold ckey
    omega
  refine ⟨?_, ?_⟩
  · rw [stealCounted, countOf_addCount, if_neg (hne _ _), countOf_addCount, if_pos rfl]
    rfl
  · rw [stealCounted, countOf_addCount, if_pos rfl, countOf_addCount, if_neg (hne _ _).symm]
    rfl

/-! ### What follows a steal -/

theorem stealEnded_frame (w : State) :
    ChangesOnly [.dr, .out] (doIf err (stealLinkErr die n v dir x.ctx) w) (stealEnded die n v dir x err w) :=
  changesOnly_of_clr _ _ _ ((fillQueue_clr _ rfl ..).trans (readInput_clr _ rfl ..))

theorem stealEnded_rg (w : State) : (stealEnded die n v dir x err w).rg = (doIf err (stealLinkErr die n v dir x.ctx) w).rg :=
  stealEnded_frame w .rg (by decide)

theorem stealEnded_ft (w : State) : (stealEnded die n v dir x err w).ft = (doIf err (stealLinkErr die n v dir x.ctx) w).ft :=
  stealEnded_frame w .ft (by decide)

theorem darnerOf_stealEnded (w : State) : darnerOf (stealEnded die n v dir x err w) die n d = darnerOf w die n d := by
  rw [stealEnded, darnerOf_fillQueue, darnerOf_readInput]
  exact doIf_same (darnerOf · die n d) _ _ _ fun u =>
    darnerOf_of_dr (same_of_clr [.rg, .ft] _ _ (stealLinkErr_clr _ rfl rfl ..) .dr (by decide)) die n d

theorem countOf_stealEnded (w : State) (page sel : Nat) (hp : page ≠ 1) (hs : sel < 4096) :
    countOf (stealEnded die n v dir x err w) die page sel = countOf w die page sel := by
  unfold countOf
  rw [stealEnded_rg]
  exact doIf_same (countOf · die page sel) _ _ _ fun u => countOf_stealLinkErr die x.ctx u n v dir page sel hp hs

/-- An error of the path ends the steals over it on both tiles. -/
theorem stealEnded_error (w : State) (he : err = true) (hd : dir < 4) :
    let t := stealEnded die n v dir x err w
    Shows t die (drnPage w die n) 2 ∧ Shows t die (drnPage w die v) 2 ∧ stealDir t die n dir = false ∧
      stealDir t die v (oppDir dir) = false := by
  obtain ⟨hsn, hsv, hdn, hdv⟩ := stealLinkErr_effect die x.ctx w n v dir hd
  have hrg : (stealEnded die n v dir x err w).rg = (stealLinkErr die n v dir x.ctx w).rg := by rw [stealEnded_rg, he, doIf_true]
  have hft : (stealEnded die n v dir x err w).ft = (stealLinkErr die n v dir x.ctx w).ft := by rw [stealEnded_ft, he, doIf_true]
  have hdir := fun m k => stealDir_of_same (congrArg Regs.eff hrg) (congrArg Faults.spare hft) die m k
  have hpages := congrArg Regs.pages hrg
  exact ⟨shows_of_pages hpages _ _ _ hsn, shows_of_pages hpages _ _ _ hsv, (hdir _ _).trans hdn, (hdir _ _).trans hdv⟩

/-- A steal granted: the thief's darner, both tiles' counts, and the end of a path with an error. -/
theorem grantSteal_effect (h : (darnerOf s die n d).asks = some (dir, x, c)) (hc : c + 8 ≤ s.tm.fclk)
    (hv : meshNeighbour die n dir = some v) (hyes : maySettle s die n d v dir c x = true) :
    let t := grantSteal die n d data err s
    (∃ bank m, darnerOf t die n d = asThief dir x err (withTask s.tm.fclk (dir + 1) bank x m (darnerOf s die n d))) ∧
      countOf t die (drnPage s die n) 2 = countOf s die (drnPage s die n) 2 + 1 ∧
      countOf t die (drnPage s die v) 3 = countOf s die (drnPage s die v) 3 + 1 ∧
      (err = true → dir < 4 → Shows t die (drnPage s die n) 2 ∧ Shows t die (drnPage s die v) 2 ∧ stealDir t die n dir = false ∧
        stealDir t die v (oppDir dir) = false) := by
  obtain ⟨u, heq, ⟨bank, m, hm⟩, hspare, hcount⟩ := grantSteal_stolen (data := data) (err := err) h hc hv hyes
  have hpage := drnPage_of_spare hspare die
  have hpage' : ∀ m, drnPage (stealCounted die n v u) die m = drnPage s die m := fun m =>
    (drnPage_of_spare (stealCounted_spare u) die m).trans (hpage m)
  obtain ⟨hn, hvict⟩ := countOf_stealCounted (die := die) (n := n) (v := v) u
  rw [hpage] at hn hvict
  intro t
  have ht : t = stealEnded die n v dir x err (stealCounted die n v u) := heq
  rw [ht]
  refine ⟨⟨bank, m, ?_⟩, ?_, ?_, fun he hd => ?_⟩
  · rw [darnerOf_stealEnded, darnerOf_stealCounted, hm]
  · rw [countOf_stealEnded _ _ _ (drnPage_ne_one die s n) (by decide), hn, hcount _ _ (drnPage_ne_one die s n) (by decide)]
  · rw [countOf_stealEnded _ _ _ (drnPage_ne_one die s v) (by decide), hvict, hcount _ _ (drnPage_ne_one die s v) (by decide)]
  · rw [← hpage' n, ← hpage' v]
    exact stealEnded_error (stealCounted die n v u) he hd

end Grants
end Sys2Proof.Machine
end

section
/-! SUPPORT. The end of a patch run (R250, R297); O38. -/
namespace Sys2Proof.Machine

/-! ### Where a completion queue is found -/

section Search
variable {V : Type} {p : Nat × V → Bool} {k : Nat} (hp : ∀ v, p (k, v) = false)
include hp

theorem find_drop (m : SMap V) : (drop m k).find? p = m.find? p := by
  induction m with
  | nil => rfl
  | cons e m ih =>
    obtain ⟨a, v⟩ := e
    unfold drop
    split
    · next h =>
      subst h
      rw [ih, List.find?_cons, hp]
    · rw [List.find?_cons, List.find?_cons, ih]

theorem find_ins (m : SMap V) (w : V) : (ins m k w).find? p = m.find? p := by
  induction m with
  | nil => simp [ins, hp]
  | cons e m ih =>
    obtain ⟨a, v⟩ := e
    unfold ins
    split
    · rw [List.find?_cons, hp]
    · split
      · next h =>
        subst h
        rw [List.find?_cons, hp, List.find?_cons, hp]
      · rw [List.find?_cons, List.find?_cons, ih]

/-- A search that no entry of a key ends does not notice a write at that key. -/
theorem find_put [DecidableEq V] (d : V) (m : SMap V) (w : V) : (put d m k w).find? p = m.find? p := by
  unfold put
  split
  · exact find_drop hp m
  · exact find_ins hp m w

end Search

/-- Completion queues are found by their configuration; a register of another offset is none. -/
theorem cqOf_setReg (die n ctx d page off sel : Nat) (w : Word) (s : State) (ho : off < 4096) (hsel : sel < 16384) (hne : off ≠ 0x114) :
    cqOf (setReg d page off sel w s) die n ctx = cqOf s die n ctx := by
  unfold cqOf
  refine congrArg (Option.map _) (find_put (fun v => ?_) _ _ _)
  have hoff : rk d page off sel / 16384 ≠ pk die (cipPage s die n) * 4096 + 0x114 := by
    unfold rk
    omega
  simp only [Bool.and_eq_false_iff, decide_eq_false_iff_not]
  exact .inl hoff

/-! ### PATCH_RUN_COMPLETE -/

section RunEnd
variable {s : State} {die n id : Nat} {r : Run}

theorem completeRun_stays (h : ∀ r, runOf s die n id = some r → r.bind = [] ∨ r.finished < r.nChunks) : completeRun die n id s = s := by
  unfold completeRun
  split
  · rfl
  · next r hr => exact if_pos (h r hr)

/-- What a run's results are: the bytes of its result slots, with their flags. -/
def runOutputs (r : Run) : List (List Byte × Byte) := (resSlots r.bind).map fun i => deliverSlot r.bind (look {} r.results i)

/-- A run without a fault has its results placed; a late one is counted (R103, R297). -/
def resultsPlaced (die : Nat) (r : Run) (s : State) : State :=
  doIf r.late (satCount die 0 0x130 1) (if r.stopped then s else
    storeBy die (r.dst + w64 (r.limit - resBytes r.bind)) ((runOutputs r).flatMap fun o => pad4 o.1) s)

/-- The code a run ends with. -/
def runCode (r : Run) : Nat := if r.stopped then r.status else if r.outFull then 0x3B else 0

theorem completeRun_ends (h : runOf s die n id = some r) (hb : r.bind ≠ []) (hf : r.nChunks ≤ r.finished) :
    ∃ xf, completeRun die n id s = fillQueue die n (dropRun die n id
      (cqRecord die n r.ctx (record16 r.tag.toNat 2 xf (runCode r) r.outBytes (r.press % 2 ^ 32)) (resultsPlaced die r s))) := by
  unfold completeRun
  rw [h]
  dsimp only
  rw [if_neg fun h' => h'.elim hb (Nat.not_lt.mpr hf)]
  exact ⟨_, rfl⟩

theorem resultsPlaced_frame : ChangesOnly [.rg, .out] s (resultsPlaced die r s) := by
  refine changesOnly_of_clr _ _ _ ((doIf_clr _ _ _ _ fun u => satCount_clr _ rfl ..).trans ?_)
  split
  · rfl
  · exact storeBy_clr _ rfl ..

theorem cqOf_resultsPlaced (ctx : Nat) : cqOf (resultsPlaced die r s) die n ctx = cqOf s die n ctx := by
  unfold resultsPlaced
  refine (doIf_same (cqOf · die n ctx) _ _ _ fun u =>
    cqOf_setReg die n ctx die 0 0x130 0 _ u (by decide) (by decide) (by decide)).trans ?_
  split
  · rfl
  · exact (OnlyCipsDiffer.refl s).storeBy die _ _ |>.same (cqOf · die n ctx) fun _ _ _ => rfl

theorem queueOf_resultsPlaced (q : Nat) : queueOf (resultsPlaced die r s) die n q = queueOf s die n q := by
  unfold queueOf
  rw [cipOf_of_ci die n (resultsPlaced_frame .ci (by decide))]

theorem runOf_dropRun (u : State) : runOf (dropRun die n id u) die n id = none := by
  unfold dropRun
  rw [runOf_modDrn, lookQ_drop, if_pos rfl]

/-- Chunks that enter bring no run back. -/
theorem runOf_fillQueue_none (u : State) (h : runOf u die n id = none) : runOf (fillQueue die n u) die n id = none := by
  have henter : ∀ other u, runOf u die n id = none → runOf (enterChunk die n other u) die n id = none := fun other u hu => by
    unfold enterChunk
    dsimp only
    split
    · exact hu
    · next r' hr' =>
      split
      · exact hu
      · rw [runOf_modDrn, lookQ_ins, if_neg fun hid => ?_]
        · exact hu
        · subst hid
          cases hr'.symm.trans hu
  unfold fillQueue
  refine forEach_keeps (fun t => runOf t die n id = none) _ _ _ (fun e t ht => ?_) h
  exact forEach_keeps (fun t => runOf t die n id = none) _ _ _ (fun _ t ht => henter e.1 t ht) ht

/-- The run leaves, and its record stands in its completion queue. -/
theorem completeRun_effect (h : runOf s die n id = some r) (hb : r.bind ≠ []) (hf : r.nChunks ≤ r.finished) :
    let t := completeRun die n id s
    runOf t die n id = none ∧ ∀ q, cqOf s die n r.ctx = some q → (queueOf s die n q).resv ≠ 0 → ∃ e xf,
      (queueOf t die n q).visible = (queueOf s die n q).visible ++ [e] ∧ (queueOf t die n q).resv = (queueOf s die n q).resv - 1 ∧
      e.data = record16 r.tag.toNat 2 xf (runCode r) r.outBytes (r.press % 2 ^ 32) := by
  obtain ⟨xf, heq⟩ := completeRun_ends h hb hf
  intro t
  have ht : t = _ := heq
  rw [ht]
  refine ⟨runOf_fillQueue_none _ (runOf_dropRun _), fun q hq hr => ?_⟩
  obtain ⟨qs, hcip, hlook⟩ := cipOf_cqRecord (s := resultsPlaced die r s)
    (record16 r.tag.toNat 2 xf (runCode r) r.outBytes (r.press % 2 ^ 32)) ((cqOf_resultsPlaced r.ctx).trans hq)
    (by rwa [queueOf_resultsPlaced])
  have hqueue : ∀ u, queueOf (fillQueue die n (dropRun die n id u)) die n q = queueOf u die n q := fun u => by
    unfold queueOf
    rw [cipOf_of_ci die n (same_of_clr [.dr] _ _ ((fillQueue_clr _ rfl ..).trans (dropRun_clr _ rfl ..)) .ci (by decide))]
  rw [hqueue, queueOf, hcip, hlook, queueOf_resultsPlaced]
  exact ⟨_, xf, rfl, rfl, rfl⟩

end RunEnd

/-! ### The statement -/

/-- Settles O38: the request notes what its first direction offers; the grant takes it where everything it rests on stands; a run that is
over leaves with its record. -/
theorem stealsAndRunEnds : Obligations.StealsAndRunEnds := by
  refine ⟨fun s die n d dir => ⟨fun h => congrArg _ (askSteal_not h), fun h => ?_⟩,
    fun s die n d data err => ⟨fun h => congrArg _ (grantSteal_unasked h), fun dir x c h =>
      ⟨fun hc => congrArg _ (grantSteal_early h hc), fun hc v hv => ⟨_, rfl, fun hno => ?_, fun hok => ?_⟩⟩⟩,
    fun s die n id => ⟨fun h => congrArg (fun t => Host.Outcome.next (settleTile die n t)) (completeRun_stays h), fun r hr hb hf =>
      ⟨completeRun die n id s, completeRun_effect hr hb hf, rfl⟩⟩⟩
  · obtain ⟨x, hx, heq⟩ := askSteal_asks h
    obtain ⟨v, hv, hmem, hmay⟩ := stealTask_spec hx
    refine ⟨_, v, x, congrArg Host.Outcome.next heq, changesOnly_of_clr _ _ _ (modDarner_clr _ rfl ..), hv, hmem, hmay, darnerOf_modDarner _ _ _ _ _,
      fun n' d' hne => darnerOf_modDarner_other _ _ _ _ _ _ _ hne⟩
  · rw [grantSteal_refused h hc hv (Bool.eq_false_iff.mpr fun hyes => hno (maySettle_iff.mp hyes))]
    exact ⟨changesOnly_of_clr _ _ _ (modDarner_clr _ rfl ..), darnerOf_modDarner _ _ _ _ _,
      drnTile_modDrn_keeps DrnTile.queue die n die v _ s rfl⟩
  · obtain ⟨⟨bank, m, hown⟩, hn, hvict, herr⟩ := grantSteal_effect (data := data) (err := err) h hc hv (maySettle_iff.mpr hok)
    intro y
    have hy : y = asThief dir x err (withTask s.tm.fclk (dir + 1) bank x m (darnerOf s die n d)) := hown
    rw [hy]
    exact ⟨rfl, rfl, rfl, rfl, rfl, rfl, rfl, hn, hvict, herr⟩

end Sys2Proof.Machine
end

section
/-! SUPPORT. SEAM_RESERVE at a tile or a stage engine: refused, granted or deferred (R253, R254, R326 to R328, R384); O49. -/
namespace Sys2Proof.Machine

/-! ### Packets of opcode that leave the network -/

theorem consumeOp_frame (die n : Nat) (op : Byte) (s : State) : ChangesOnly [.nt] s (consumeOp die n op s) :=
  changesOnly_of_clr _ _ _ (consumeOp_clr _ rfl ..)

theorem consumeOp_inject (die n : Nat) (op : Byte) (s : State) : (consumeOp die n op s).nt.inject = s.nt.inject := rfl

/-- Queues of injection are read alone by what is sent. -/
theorem SentAll.of_inject {s t u : State} {die n port : Nat} {c : TClass} {ps : List Packet} (h : SentAll s t die n port c ps)
    (hi : u.nt.inject = t.nt.inject) : SentAll s u die n port c ps := by
  have hq : ∀ k, injQ u k = injQ t k := fun k => by
    unfold injQ
    rw [hi]
  unfold SentAll
  simp only [hq]
  exact h

/-! ### The reservations of a tile -/

section Resv
variable {s : State} {die n : Nat} {q : SeamRef} {rs : List TileResv} {x : TileResv}

theorem sameSeam_self (q : SeamRef) : sameSeam q q = true := by simp [sameSeam]

theorem resvOf_modResv (f : List TileResv → List TileResv) (s : State) : resvOf (modResv die n f s) die n = f (resvOf s die n) := by
  unfold resvOf modResv
  rw [look_upd, if_pos rfl]

/-- The reservations without a seam that has none are all of them. -/
theorem filter_unknown (h : ∀ r ∈ rs, sameSeam r.ref q = false) : (rs.filter fun r => !sameSeam r.ref q) = rs :=
  List.filter_eq_self.mpr fun r hr => by rw [h r hr]; rfl

theorem filter_appended (h : ∀ r ∈ rs, sameSeam r.ref q = false) (hx : sameSeam x.ref q = true) :
    ((rs ++ [x]).filter fun r => !sameSeam r.ref q) = rs := by
  rw [List.filter_append, filter_unknown h, List.filter_cons, hx]
  exact List.append_nil rs

theorem map_appended (h : ∀ r ∈ rs, sameSeam r.ref q = false) (hx : sameSeam x.ref q = true) (g : TileResv → TileResv) :
    ((rs ++ [x]).map fun r => if sameSeam r.ref q then g r else r) = rs ++ [g x] := by
  have hrs : (rs.map fun r => if sameSeam r.ref q then g r else r) = rs :=
    (List.map_congr_left fun r hr => by rw [h r hr]; rfl).trans (List.map_id rs)
  rw [List.map_append, hrs, List.map_singleton, hx]
  rfl

theorem find_appended (h : ∀ r ∈ rs, sameSeam r.ref q = false) (hx : sameSeam x.ref q = true) :
    ((rs ++ [x]).find? fun r => sameSeam r.ref q) = some x := by
  have hno : (rs.find? fun r => sameSeam r.ref q) = none := List.find?_eq_none.mpr fun r hr => by rw [h r hr]; exact Bool.false_ne_true
  rw [List.find?_append, hno, List.find?_cons, hx]
  rfl

/-- Where every request has been granted nothing is evaluated. -/
theorem evalResv_idle (h : ∀ r ∈ resvOf s die n, r.granted = true) : evalResv die n s = s := by
  have hno : ((resvOf s die n).filter fun r => !r.granted) = [] :=
    List.filter_eq_nil_iff.mpr fun r hr => by rw [h r hr]; exact Bool.false_ne_true
  unfold evalResv
  rw [hno]
  rfl

/-! ### The answer -/

/-- The answer to a request: SEAM_GRANT with an outcome word, whose SSEQ names engine and record. -/
def grantWord (s : State) (die n : Nat) (q : SeamRef) (a : Adm) : Packet :=
  { seamCtrl s 0xA2 q.ctx die n (resvPort die) (engAddr q.pkg q.die q.eng q.slot) (admWord a) [] with
    sseq := BitVec.ofNat 16 (256 * q.eng + q.slot) }

theorem sendGrant_sent {u : State} (h : SendsAlike s u) (ht : u.tm = s.tm) (a : Adm) :
    SentAll s (sendGrant die n q a u) die n 10 .ctrl [grantWord s die n q a] := by
  have hword : grantWord u die n q a = grantWord s die n q a := by
    unfold grantWord seamCtrl pkgNo
    rw [ht]
  rw [← hword]
  exact (h.sent die n 10 (grantWord u die n q a)).all

theorem resvOf_sendGrant (a : Adm) (s : State) : resvOf (sendGrant die n q a s) die n = resvOf s die n := rfl

/-! ### A request joins those that wait -/

/-- A new request waits. -/
def newAsk (q : SeamRef) : TileResv := { ref := q }
def asking (die n : Nat) (q : SeamRef) (s : State) : State := modResv die n (fun rs => rs ++ [newAsk q]) (consumeOp die n 0x22 s)

theorem asking_sends (die n : Nat) (q : SeamRef) (s : State) : SendsAlike s (asking die n q s) := ⟨rfl, rfl, rfl⟩

theorem resvOf_asking : resvOf (asking die n q s) die n = resvOf s die n ++ [newAsk q] := resvOf_modResv _ _

theorem reserveArrive_known (h : ((resvOf s die n).any fun r => sameSeam r.ref q) = true ∨ recAt s q = none) :
    reserveArrive die n q s = consumeOp die n 0x22 s := by
  have h' : ((resvOf (consumeOp die n 0x22 s) die n).any fun r => sameSeam r.ref q) = true ∨
      (recAt (consumeOp die n 0x22 s) q).isNone = true := h.imp id fun h => by
    rw [show recAt (consumeOp die n 0x22 s) q = none from h]
    rfl
  exact if_pos h'

/-- The only request that waits is evaluated. -/
theorem reserveArrive_new (hk : ((resvOf s die n).any fun r => sameSeam r.ref q) = false) (hr : recAt s q ≠ none)
    (hg : ∀ r ∈ resvOf s die n, r.granted = true) : reserveArrive die n q s = evalOne die n q (asking die n q s) := by
  have hno : ¬ (((resvOf (consumeOp die n 0x22 s) die n).any fun r => sameSeam r.ref q) = true ∨
      (recAt (consumeOp die n 0x22 s) q).isNone = true) := fun h => h.elim
    (fun h => by cases hk.symm.trans h) fun h => hr (Option.isNone_iff_eq_none.mp h)
  have hwait : ((resvOf (asking die n q s) die n).filter fun r => !r.granted) = [newAsk q] := by
    rw [resvOf_asking, List.filter_append, List.filter_eq_nil_iff.mpr fun r hr => by rw [hg r hr]; exact Bool.false_ne_true]
    rfl
  refine (if_neg hno).trans ?_
  change evalResv die n (asking die n q s) = _
  unfold evalResv
  rw [hwait]
  rfl

/-- A request that waits holds nothing. -/
theorem tileFree_asking : tileFree (asking die n q s) die n [] = tileFree s die n [] := by
  have hheld : ((resvOf (asking die n q s) die n).filter fun r => r.granted && !decide (r ∈ ([] : List TileResv))) =
      (resvOf s die n).filter fun r => r.granted && !decide (r ∈ ([] : List TileResv)) := by
    rw [resvOf_asking, List.filter_append]
    exact List.append_nil _
  unfold tileFree
  rw [hheld]
  rfl

theorem resvFits_asking : resvFits (asking die n q s) die n q [] = resvFits s die n q [] := by
  unfold resvFits
  rw [tileFree_asking]

end Resv

/-! ### Refused (R253, R384) -/

section Evaluated
variable {s : State} {die n : Nat} {q : SeamRef} (hk : ∀ r ∈ resvOf s die n, sameSeam r.ref q = false)

/-- A refused request waits no more. -/
def refusedAsk (die n c : Nat) (q : SeamRef) (u : State) : State :=
  sendGrant die n q (.refuse c) (modResv die n (fun rs => rs.filter fun r => !sameSeam r.ref q) u)

theorem evalOne_limit {u : State} (hio : dieType die ≠ .io) (h : rfld u die (drnPage u die n) 0x108 3 0 < q.darners) :
    evalOne die n q u = refusedAsk die n 0x3C q u := if_pos ⟨hio, h⟩

theorem evalOne_noShare {u : State} (hio : dieType die ≠ .io) (h : q.darners ≤ rfld u die (drnPage u die n) 0x108 3 0)
    (hs : seamShare u die n = 0) : evalOne die n q u = refusedAsk die n 0x53 q u :=
  (if_neg fun h' => absurd h'.2 (Nat.not_lt.mpr h)).trans (if_pos ⟨hio, hs⟩)

include hk in
theorem refusedAsk_effect (c : Nat) :
    let t := refusedAsk die n c q (asking die n q s)
    SentAll s t die n 10 .ctrl [grantWord s die n q (.refuse c)] ∧ resvOf t die n = resvOf s die n ∧ t.dr = s.dr := by
  refine ⟨sendGrant_sent (asking_sends die n q s) rfl _, ?_, rfl⟩
  rw [refusedAsk, resvOf_sendGrant, resvOf_modResv, resvOf_asking]
  exact filter_appended hk (sameSeam_self q)

/-! ### Deferred (R327) -/

/-- Without a seam of a higher ticket that is not set nothing can be yielded. -/
theorem victims_none (h : ∀ r ∈ resvOf s die n, r.set = true ∨ ticketLt q r.ref = false) :
    victims s die n q = [] := by
  have hno : ((resvOf s die n).filter fun r => r.granted && !r.set && ticketLt q r.ref) = [] :=
    List.filter_eq_nil_iff.mpr fun r hr => by rcases h r hr with h | h <;> simp [h]
  unfold victims
  rw [hno]
  change (match [0].find? fun i => resvFits s die n q (([] : List TileResv).take i) with
    | some i => ([] : List TileResv).take i | none => []) = []
  split
  · exact List.take_nil
  · rfl

/-- A request that cannot be met is told once. -/
theorem evalOne_defer {u : State} (h : q.darners ≤ rfld u die (drnPage u die n) 0x108 3 0)
    (hs : seamShare u die n ≠ 0) (hf : resvFits u die n q [] = false) (hv : victims u die n q = []) {r : TileResv}
    (hr : ((resvOf u die n).find? fun r => sameSeam r.ref q) = some r) (ht : r.told = false) :
    evalOne die n q u = sendGrant die n q (.defer 0x52)
      (modResv die n (fun rs => rs.map fun x => if sameSeam x.ref q then { x with told := true } else x) u) := by
  unfold evalOne
  dsimp only
  rw [if_neg fun h' => absurd h'.2 (Nat.not_lt.mpr h), if_neg fun h' => hs h'.2, if_neg (by rw [hf]; exact Bool.false_ne_true), hv]
  change (match ((resvOf u die n).find? fun r => sameSeam r.ref q) with | some r => _ | none => _) = _
  rw [hr]
  dsimp only
  rw [ht]
  rfl

include hk in
theorem deferredAsk_effect :
    let t := sendGrant die n q (.defer 0x52)
      (modResv die n (fun rs => rs.map fun x => if sameSeam x.ref q then { x with told := true } else x) (asking die n q s))
    SentAll s t die n 10 .ctrl [grantWord s die n q (.defer 0x52)] ∧
      resvOf t die n = resvOf s die n ++ [{ ref := q, told := true }] ∧ t.dr = s.dr := by
  refine ⟨sendGrant_sent (asking_sends die n q s) rfl _, ?_, rfl⟩
  rw [resvOf_sendGrant, resvOf_modResv, resvOf_asking]
  exact map_appended hk (sameSeam_self q) _

/-! ### Granted at a tile (R326) -/

/-- A change of some darners of a tile that, made twice, is made once. -/
theorem darnerOf_forEach (f : Darner → Darner) (hf : ∀ x, f (f x) = f x) (ds : List Nat) (u : State) (e : Nat) :
    darnerOf (forEach ds (fun d s => modDarner die n d f s) u) die n e = if e ∈ ds then f (darnerOf u die n e) else darnerOf u die n e := by
  induction ds generalizing u with
  | nil => rfl
  | cons d ds ih =>
    refine (ih (modDarner die n d f u)).trans ?_
    by_cases he : e = d
    · subst he
      rw [darnerOf_modDarner, hf, if_pos List.mem_cons_self, ite_self]
    · rw [darnerOf_modDarner_ne die n d e f u he]
      simp only [List.mem_cons, he, false_or]

/-- The darners a grant takes: the lowest that no seam has reserved. -/
def freeDarners (s : State) (die n : Nat) (q : SeamRef) : List Nat :=
  ((List.range 8).filter fun d => (darnerOf s die n d).resv = none).take q.darners

/-- A darner reserved by a seam whose grant has not taken effect. -/
def reservedBy (q : SeamRef) (x : Darner) : Darner := { x with resv := some q, resvFrom := 0 }

/-- The stream a grant takes: the lowest free one for an ordered seam. -/
def freeStream (s : State) (die n : Nat) (q : SeamRef) : Nat := if q.ordered then (tileFree s die n []).stream.getD 16 else 16

/-- The darners and the stream of a grant are taken. -/
def darnersTaken (die n : Nat) (q : SeamRef) (ds : List Nat) (st : Nat) (u : State) : State :=
  let v := forEach ds (fun d s => modDarner die n d (reservedBy q) s) u
  if st < 12 then modDrn die n (fun t => { t with streams := put {} t.streams st { active := true, ctx := q.ctx } }) v else v

/-- The reservation once granted. -/
def grantedResv (s : State) (die n : Nat) (q : SeamRef) (r : TileResv) : TileResv :=
  { r with granted := true, darners := freeDarners s die n q, stream := freeStream s die n q,
           basket := (tileFree s die n []).basket.getD 64 }

theorem grantResv_tile (hio : dieType die ≠ .io) (u : State) : grantResv die n q u = sendGrant die n q .accept
    (modResv die n (fun rs => rs.map fun r => if sameSeam r.ref q then grantedResv u die n q r else r)
      (darnersTaken die n q (freeDarners u die n q) (freeStream u die n q) u)) := if_neg hio

theorem darnersTaken_frame (ds : List Nat) (st : Nat) (u : State) : ChangesOnly [.dr] u (darnersTaken die n q ds st u) := by
  refine changesOnly_of_clr _ _ _ ?_
  have hds := forEach_clr (Mask.of [.dr]) ds (fun d s => modDarner die n d (reservedBy q) s) u fun d t => modDarner_clr _ rfl ..
  unfold darnersTaken
  dsimp only
  split
  · exact (modDrn_clr _ rfl ..).trans hds
  · exact hds

theorem darnerOf_darnersTaken (ds : List Nat) (st e : Nat) (u : State) : darnerOf (darnersTaken die n q ds st u) die n e =
    if e ∈ ds then reservedBy q (darnerOf u die n e) else darnerOf u die n e := by
  have hds := darnerOf_forEach (die := die) (n := n) (reservedBy q) (fun _ => rfl) ds u e
  unfold darnersTaken
  dsimp only
  split
  · exact (darnerOf_modDrn die n die e n _ _ rfl).trans hds
  · exact hds

include hk in
theorem grantedAsk_effect (hio : dieType die ≠ .io) :
    let t := grantResv die n q (asking die n q s)
    SentAll s t die n 10 .ctrl [grantWord s die n q .accept] ∧
      resvOf t die n = resvOf s die n ++ [grantedResv s die n q (newAsk q)] ∧
      ∀ d, darnerOf t die n d = if d ∈ freeDarners s die n q then reservedBy q (darnerOf s die n d) else darnerOf s die n d := by
  have hframe := darnersTaken_frame (die := die) (n := n) (q := q) (freeDarners (asking die n q s) die n q)
    (freeStream (asking die n q s) die n q) (asking die n q s)
  have hdarners := fun d => darnerOf_darnersTaken (die := die) (n := n) (q := q) (freeDarners (asking die n q s) die n q)
    (freeStream (asking die n q s) die n q) d (asking die n q s)
  have hresv : ∀ r, grantedResv (asking die n q s) die n q r = grantedResv s die n q r := fun r => by
    unfold grantedResv freeStream
    rw [tileFree_asking]
    rfl
  rw [grantResv_tile hio]
  generalize darnersTaken die n q _ _ (asking die n q s) = v at hframe hdarners
  have hnt := hframe .nt (by decide)
  have htm := hframe .tm (by decide)
  have hft := hframe .ft (by decide)
  have hse := hframe .se (by decide)
  refine ⟨sendGrant_sent ⟨congrArg Net.inject hnt, congrArg TimeBase.fclk htm, congrArg Faults.spare hft⟩ htm _, ?_, hdarners⟩
  rw [resvOf_sendGrant, resvOf_modResv, show resvOf v die n = resvOf (asking die n q s) die n by unfold resvOf; rw [hse], resvOf_asking,
    map_appended hk (sameSeam_self q), hresv]

/-! ### Granted at a stage engine (R348) -/

/-- A record of the seam at a stage engine. -/
def NamesSeam (q : SeamRef) (r : SeamRec) : Prop := r.group = q.group ∧ r.gseq = q.gseq ∧ r.home = some q

/-- A change of some record that keeps a property of records keeps it of every record. -/
theorem modRec_keeps {P : SeamRec → Prop} {k j : Nat} {f : SeamRec → SeamRec} {u : State} (hf : ∀ r, P r → P (f r))
    (h : ∃ r, recOf u k = some r ∧ P r) : ∃ r, recOf (modRec j f u) k = some r ∧ P r := by
  obtain ⟨r, hr, hp⟩ := h
  unfold modRec
  split
  · next r' hr' =>
    unfold recOf
    rw [lookQ_ins]
    split
    · next hkj =>
      subst hkj
      cases hr'.symm.trans hr
      exact ⟨_, rfl, hf _ hp⟩
    · exact ⟨r, hr, hp⟩
  · exact ⟨r, hr, hp⟩

theorem takeEarly_namesSeam {k home : Nat} {d : SeamDesc} {u : State} (h : ∃ r, recOf u k = some r ∧ NamesSeam q r) :
    ∃ r, recOf (takeEarly k home d u) k = some r ∧ NamesSeam q r := by
  have hpoison : ∀ p v, (∃ r, recOf v k = some r ∧ NamesSeam q r) → ∃ r, recOf (poisonFail home p v) k = some r ∧ NamesSeam q r :=
    fun p v hv => by
      unfold poisonFail seamFail
      split
      · exact modRec_keeps (fun _ hr => hr) hv
      · split
        · exact modRec_keeps (fun _ hr => hr) hv
        · exact hv
  unfold takeEarly
  split
  · exact h
  · next r hr =>
    refine modRec_keeps (fun _ hr => hr) ?_
    refine forEach_keeps (fun v => ∃ r, recOf v k = some r ∧ NamesSeam q r) _ _ _ (fun p v hv => ?_) h
    obtain ⟨r', hr', hn⟩ := hpoison p v hv
    exact ⟨r', (recOf_of_se (engBad_only _ _ _ _ .se (by decide)) k).trans hr', hn⟩

/-- The record a stage engine opens for a seam, named in the home engine's record. -/
def stageOpened (die n x : Nat) (q : SeamRef) (u : State) : State :=
  let r : SeamRec := { group := q.group, gseq := q.gseq, ctx := q.ctx, phase := 1, first := waitPress u die,
                       opens := match recAt u q with | some r => r.opens | none => [], home := some q }
  modRec (keyOf q) (fun r => { r with stage := some { q with die := die, eng := stageEng n, slot := x } })
    { u with se := { u.se with recs := ins u.se.recs (seamKey die (stageEng n) x) r } }

/-- The request is granted with that record. -/
def stageGranted (die n x : Nat) (q : SeamRef) (u : State) : State :=
  modResv die n (fun rs => rs.map fun r => if sameSeam r.ref q then { r with granted := true, basket := x } else r) (stageOpened die n x q u)

theorem grantResv_stage {u : State} {x : Nat} (hio : dieType die = .io) (hx : freeRec u die (stageEng n) = some x) :
    ∃ d, grantResv die n q u =
      takeEarly (seamKey die (stageEng n) x) (keyOf q) d (sendGrant die n q .accept (stageGranted die n x q u)) := by
  have hslot : (tileFree u die n []).record.getD 0 = x := by
    rw [show (tileFree u die n []).record = freeRec u die (stageEng n) from rfl, hx]
    rfl
  unfold grantResv
  dsimp only
  rw [if_pos hio, hslot]
  exact ⟨_, rfl⟩

theorem stageGranted_frame (x : Nat) (u : State) : ChangesOnly [.se] u (stageGranted die n x q u) :=
  changesOnly_of_clr _ _ _ ((modResv_clr _ rfl ..).trans ((modRec_clr _ rfl ..).trans (upd_se _ rfl ..)))

theorem recOf_stageGranted (x : Nat) (u : State) :
    ∃ r, recOf (stageGranted die n x q u) (seamKey die (stageEng n) x) = some r ∧ NamesSeam q r := by
  refine modRec_keeps (u := { u with se := _ }) (fun _ hr => hr) ?_
  unfold recOf
  rw [lookQ_ins, if_pos rfl]
  exact ⟨_, rfl, rfl, rfl, rfl⟩

theorem evalOne_fits {u : State} (hl : dieType die ≠ .io → q.darners ≤ rfld u die (drnPage u die n) 0x108 3 0 ∧ seamShare u die n ≠ 0)
    (hf : resvFits u die n q [] = true) : evalOne die n q u = grantResv die n q u := by
  unfold evalOne
  dsimp only
  rw [if_neg fun h => absurd h.2 (Nat.not_lt.mpr (hl h.1).1), if_neg fun h => (hl h.1).2 h.2, if_pos hf]

theorem stageAsk_effect {x : Nat} (hio : dieType die = .io) (hx : freeRec s die (stageEng n) = some x) :
    let t := evalOne die n q (asking die n q s)
    SentAll s t die n 10 .ctrl [grantWord s die n q .accept] ∧
      ∃ r, recOf t (seamKey die (stageEng n) x) = some r ∧ NamesSeam q r := by
  have hx' : freeRec (asking die n q s) die (stageEng n) = some x := hx
  have hfits : resvFits (asking die n q s) die n q [] = true := by
    unfold resvFits
    dsimp only
    rw [if_pos hio, show (tileFree (asking die n q s) die n []).record = some x from hx']
    rfl
  obtain ⟨d, heq⟩ := grantResv_stage (q := q) hio hx'
  rw [evalOne_fits (fun h => absurd hio h) hfits, heq]
  have hframe := stageGranted_frame (die := die) (n := n) (q := q) x (asking die n q s)
  have hopened := recOf_stageGranted (die := die) (n := n) (q := q) x (asking die n q s)
  generalize stageGranted die n x q (asking die n q s) = v at hframe hopened
  have hnt : v.nt.inject = s.nt.inject := (congrArg Net.inject (show v.nt = (asking die n q s).nt from hframe .nt (by decide))).trans
    (asking_sends die n q s).1
  have htm : v.tm = s.tm := hframe .tm (by decide)
  have hft : v.ft = s.ft := hframe .ft (by decide)
  have hsent := sendGrant_sent (die := die) (n := n) (q := q) (s := s) (u := v)
    ⟨hnt, congrArg TimeBase.fclk htm, congrArg Faults.spare hft⟩ htm .accept
  exact ⟨hsent.of_inject (congrArg Net.inject (same_of_clr [.rg, .se, .ft] _ _ (takeEarly_clr _ rfl rfl rfl ..) .nt (by decide))),
    takeEarly_namesSeam hopened⟩

end Evaluated
end Sys2Proof.Machine
end

section
/-! SUPPORT. What becomes of a request at a tile or a stage engine (R253, R254, R326 to R328, R384); O49. -/
namespace Sys2Proof.Machine

theorem ticketLt_self (q : SeamRef) : ticketLt q q = false := by simp [ticketLt]

section Request
variable {s : State} {die n : Nat} {q : SeamRef}

theorem seamReserve_known (h : ((resvOf s die n).any fun r => sameSeam r.ref q) = true ∨ recAt s q = none) :
    ∃ t, exec (.seamReserve die n q) s = .next t ∧ ChangesOnly [.nt] s t ∧ t.nt.inject = s.nt.inject :=
  ⟨_, congrArg Host.Outcome.next (reserveArrive_known h), consumeOp_frame _ _ _ _, consumeOp_inject _ _ _ _⟩

variable (hk : ((resvOf s die n).any fun r => sameSeam r.ref q) = false) (hr : recAt s q ≠ none)
  (hg : ∀ r ∈ resvOf s die n, r.granted = true)

include hk in
theorem unknown_of_any : ∀ r ∈ resvOf s die n, sameSeam r.ref q = false :=
  fun r hr => Bool.eq_false_iff.mpr (List.any_eq_false.mp hk r hr)

include hk hr hg in
theorem seamReserve_evaluates : ∃ t, exec (.seamReserve die n q) s = .next t ∧ t = evalOne die n q (asking die n q s) ∧
    ChangesOnly [.rg, .nt, .dr, .se, .ft] s t :=
  ⟨_, rfl, reserveArrive_new hk hr hg, changesOnly_of_clr _ _ _ (reserveArrive_clr _ rfl rfl rfl rfl rfl ..)⟩

include hk in
theorem asked_granted (hio : dieType die ≠ .io) (hl : q.darners ≤ rfld s die (drnPage s die n) 0x108 3 0) (hs : seamShare s die n ≠ 0)
    (hf : resvFits s die n q [] = true) :
    let t := evalOne die n q (asking die n q s)
    SentAll s t die n 10 .ctrl [grantWord s die n q .accept] ∧
      resvOf t die n = resvOf s die n ++ [grantedResv s die n q (newAsk q)] ∧
      (∀ d ∈ freeDarners s die n q, (darnerOf t die n d).resv = some q ∧ (darnerOf t die n d).resvFrom = 0) ∧
      ∀ d, d ∉ freeDarners s die n q → darnerOf t die n d = darnerOf s die n d := by
  rw [evalOne_fits (u := asking die n q s) (fun _ => ⟨hl, hs⟩) (resvFits_asking.trans hf)]
  obtain ⟨hsent, hresv, hdarner⟩ := grantedAsk_effect (unknown_of_any hk) hio
  refine ⟨hsent, hresv, fun d hd => ?_, fun d hd => (hdarner d).trans (if_neg hd)⟩
  rw [hdarner, if_pos hd]
  exact ⟨rfl, rfl⟩

include hk in
theorem asked_deferred (hl : q.darners ≤ rfld s die (drnPage s die n) 0x108 3 0) (hs : seamShare s die n ≠ 0)
    (hf : resvFits s die n q [] = false) (hv : ∀ r ∈ resvOf s die n, r.set = true ∨ ticketLt q r.ref = false) :
    let t := evalOne die n q (asking die n q s)
    SentAll s t die n 10 .ctrl [grantWord s die n q (.defer 0x52)] ∧
      resvOf t die n = resvOf s die n ++ [{ ref := q, told := true }] ∧ t.dr = s.dr := by
  have hfound : ((resvOf (asking die n q s) die n).find? fun r => sameSeam r.ref q) = some (newAsk q) := by
    rw [resvOf_asking]
    exact find_appended (unknown_of_any hk) (sameSeam_self q)
  have hnone : victims (asking die n q s) die n q = [] := victims_none fun r hr => by
    rw [resvOf_asking, List.mem_append, List.mem_singleton] at hr
    rcases hr with hr | rfl
    · exact hv r hr
    · exact .inr (ticketLt_self q)
  rw [evalOne_defer (u := asking die n q s) hl hs (resvFits_asking.trans hf) hnone hfound rfl]
  exact deferredAsk_effect (unknown_of_any hk)

end Request
end Sys2Proof.Machine
end

section
/-! SUPPORT. SEAM_GRANT and SEAM_YIELD_ASK at a home engine (R327 to R329, R332); O49. -/
namespace Sys2Proof.Machine

/-! ### What an engine sends -/

theorem engSend_ctrl {q : Packet} (hq : q.cls = .ctrl) (k : Nat) (s : State) :
    engSend k q s =
      sendFrom (keyDie k) (engTile (keyDie k) (keyEng k)) (engPort (keyDie k)) { q with sseq := BitVec.ofNat 16 (k % 1024) } s :=
  if_neg fun h => by cases hq.symm.trans h.1

/-- The injection queue of an engine's control packets. -/
def engQ (s : State) (k : Nat) : Nat :=
  ikey (keyDie k) (physTile s (keyDie k) (engTile (keyDie k) (keyEng k))) (engPort (keyDie k)) (planeOf .ctrl)

/-- The engine of a record has sent this many control packets and changed records of seams, nothing else. -/
def EngSent (k m : Nat) (s t : State) : Prop :=
  ChangesOnly [.nt, .se] s t ∧ (injQ t (engQ s k)).length = (injQ s (engQ s k)).length + m

section EngSent
variable {k m m' : Nat} {s t u : State}

theorem engQ_of_ft (h : t.ft = s.ft) : engQ t k = engQ s k := by
  unfold engQ physTile spareOf
  rw [h]

theorem EngSent.engQ (h : EngSent k m s t) : engQ t k = engQ s k := engQ_of_ft (h.1 .ft (by decide))

theorem EngSent.trans (h : EngSent k m s t) (h' : EngSent k m' t u) : EngSent k (m + m') s u := by
  refine ⟨h.1.trans h'.1, ?_⟩
  have hlen := h'.2
  rw [h.engQ, h.2] at hlen
  rw [hlen, Nat.add_assoc]

theorem EngSent.modRec (j : Nat) (f : SeamRec → SeamRec) (h : EngSent k m s t) : EngSent k m s (modRec j f t) := by
  refine ⟨h.1.trans ((modRec_only_se j f t).mono (by decide)), ?_⟩
  have hnt : (Sys2Proof.Machine.modRec j f t).nt = t.nt := modRec_only_se j f t .nt (by decide)
  unfold injQ
  rw [hnt]
  exact h.2

theorem engSent_consumeOp (k die n : Nat) (op : Byte) (s : State) : EngSent k 0 s (consumeOp die n op s) :=
  ⟨(consumeOp_frame die n op s).mono (by decide), rfl⟩

theorem engSent_engSend {q : Packet} (hq : q.cls = .ctrl) (s : State) : EngSent k 1 s (engSend k q s) := by
  rw [engSend_ctrl hq]
  refine ⟨changesOnly_of_clr _ _ _ (sendFrom_clr _ rfl ..), ?_⟩
  obtain ⟨⟨x, hx, -⟩, -⟩ := sendFrom_sent (keyDie k) (engTile (keyDie k) (keyEng k)) (engPort (keyDie k))
    { q with sseq := BitVec.ofNat 16 (k % 1024) } s s rfl rfl rfl
  have hkey : ikey (keyDie k) (physTile s (keyDie k) (engTile (keyDie k) (keyEng k))) (engPort (keyDie k)) (planeOf q.cls) = engQ s k := by
    rw [hq]
    rfl
  change injQ _ (ikey _ _ _ (planeOf q.cls)) = injQ s (ikey _ _ _ (planeOf q.cls)) ++ [x] at hx
  rw [hkey] at hx
  exact (congrArg List.length hx).trans List.length_append

/-- A loop whose rounds each send one packet, as long as a property holds that they keep. -/
theorem EngSent.forEach {α : Type} {P : State → Prop} {f : α → State → State} (xs : List α)
    (hf : ∀ x v, P v → EngSent k 1 v (f x v) ∧ P (f x v)) (h : EngSent k m s t) (hp : P t) :
    EngSent k (m + xs.length) s (forEach xs f t) := by
  induction xs generalizing t m with
  | nil => exact h
  | cons x xs ih =>
    obtain ⟨hsent, hkept⟩ := hf x t hp
    have hall := ih (h.trans hsent) hkept
    rwa [Nat.add_assoc, Nat.add_comm 1] at hall

end EngSent

/-- A loop of packets an engine sends leaves the records. -/
theorem forEach_engSend_se {α : Type} (k : Nat) (xs : List α) (p : α → State → Packet) (s : State) :
    (forEach xs (fun x v => engSend k (p x v) v) s).se = s.se :=
  forEach_same (·.se) xs _ s fun x v => engSend_se k (p x v) v

theorem EngSent.sends {α : Type} {k m : Nat} {s t : State} (xs : List α) {p : α → State → Packet} (hp : ∀ x v, (p x v).cls = .ctrl)
    (h : EngSent k m s t) : EngSent k (m + xs.length) s (Sys2Proof.Machine.forEach xs (fun x v => engSend k (p x v) v) t) :=
  h.forEach (P := fun _ => True) xs (fun x v _ => ⟨engSent_engSend (hp x v) v, trivial⟩) trivial

end Sys2Proof.Machine
end

section
/-! SUPPORT. SEAM_GRANT at a home engine: it joins the grants, and with the last one the seam is set (R328, R329, R332); O49. -/
namespace Sys2Proof.Machine

section Grant
variable {k fd fn w : Nat} {u v : State} {r : SeamRec}

/-- The record once a tile has granted. -/
def grantHeld (fd fn : Nat) (r : SeamRec) : SeamRec :=
  { r with grants := if (fd, fn) ∈ r.grants then r.grants else r.grants ++ [(fd, fn)],
           reqs := r.reqs.filter fun y => !(decide (y.die = fd) && decide (y.tile = fn)),
           wait := if r.wait = some (fd, fn) then none else r.wait }

/-- Every request is out and granted (R329). -/
def AllGranted (s : State) (r : SeamRec) : Prop := r.asked = true ∧ ∀ y ∈ resvPlaces s r, y ∈ r.grants

/-- The record of a seam once it is set. -/
def setRec (press l : Nat) (r : SeamRec) : SeamRec := { r with phase := 2, setPress := press, load := l, wait := none }

theorem grantArrive_unreserving (hr : recOf u k = some r) (hp : r.phase ≠ 1) : grantArrive k fd fn w u = u := by
  unfold grantArrive
  rw [hr]
  exact if_pos hp

theorem grantArrive_deferred (hr : recOf u k = some r) (hp : r.phase = 1) (ho : w / 2 ^ 14 % 4 = 1) :
    grantArrive k fd fn w u = modRec k (fun r => { r with wait := some (fd, fn) }) u := by
  unfold grantArrive
  rw [hr]
  dsimp only
  rw [if_neg (not_not_intro hp), ho]
  rfl

theorem grantArrive_refused (hr : recOf u k = some r) (hp : r.phase = 1) (ho : 2 ≤ w / 2 ^ 14 % 4) :
    grantArrive k fd fn w u = seamFail k (w % 256) 0 u := by
  unfold grantArrive
  rw [hr]
  dsimp only
  rw [if_neg (not_not_intro hp)]
  split
  · omega
  · omega
  · rfl

theorem grantArrive_granted (hr : recOf u k = some r) (hp : r.phase = 1) (ho : w / 2 ^ 14 % 4 = 0) :
    grantArrive k fd fn w u = trySet k (modRec k (grantHeld fd fn) u) := by
  unfold grantArrive
  rw [hr]
  dsimp only
  rw [if_neg (not_not_intro hp), ho]
  rfl

/-! ### With every grant the seam is set (R329, R332) -/

theorem allGranted_iff {s : State} (hp : r.phase = 1) : AllGranted s r ↔
    (decide (r.phase = 1) && r.asked && (resvPlaces s r).all fun t => decide (t ∈ r.grants)) = true := by
  simp [AllGranted, hp]

theorem trySet_waits (hr : recOf v k = some r) (hp : r.phase = 1) (hw : ¬ AllGranted v r) : trySet k v = v := by
  unfold trySet
  rw [hr]
  exact if_neg fun h => hw ((allGranted_iff hp).mpr h)

theorem trySet_short (hr : recOf v k = some r) (hp : r.phase = 1) (hw : AllGranted v r) (hl : loadSize v (keyDie k) r = none) :
    trySet k v = seamFail k 0x1D 0 v := by
  unfold trySet
  rw [hr]
  dsimp only
  rw [if_pos ((allGranted_iff hp).mp hw), hl]

theorem trySet_sets {l : Nat} (hr : recOf v k = some r) (hp : r.phase = 1) (hw : AllGranted v r)
    (hl : loadSize v (keyDie k) r = some l) : ∃ m, trySet k v =
      sendSet k l (addCount (keyDie k) (keyPage k) 6 m (modRec k (setRec (pressOf v (keyDie k)) l) v)) := by
  unfold trySet
  rw [hr]
  dsimp only
  rw [if_pos ((allGranted_iff hp).mp hw), hl]
  exact ⟨_, rfl⟩

theorem sendSet_sent (hr : recOf v k = some r) (l : Nat) :
    EngSent k (resvPlaces v r).length v (sendSet k l v) ∧ recOf (sendSet k l v) k = some r := by
  unfold sendSet
  rw [hr]
  have hnone : EngSent k 0 v v := ⟨ChangesOnly.refl _ v, rfl⟩
  have hsent := hnone.sends (resvPlaces v r) (p := fun t u => seamCtrl u 0x24 r.ctx (keyDie k) (engTile (keyDie k) (keyEng k)) 9
    (if dieType t.1 = .io then engAddr (pkgNo u) t.1 (stageEng t.2) (match r.stage with | some q => q.slot | none => 0)
      else tileAddr u t.1 t.2 (basketOf u t.1 t.2 (refOf u k r))) l []) fun _ _ => rfl
  rw [Nat.zero_add] at hsent
  exact ⟨hsent, (recOf_of_se (forEach_engSend_se k _ _ v) k).trans hr⟩

/-- The seam set from a state in which every grant is held. -/
theorem trySet_sends {l : Nat} (hr : recOf v k = some r) (hp : r.phase = 1) (hw : AllGranted v r)
    (hl : loadSize v (keyDie k) r = some l) :
    ChangesOnly [.rg, .nt, .se] v (trySet k v) ∧ recOf (trySet k v) k = some (setRec (pressOf v (keyDie k)) l r) ∧
      (injQ (trySet k v) (engQ v k)).length = (injQ v (engQ v k)).length + (resvPlaces v r).length := by
  obtain ⟨m, heq⟩ := trySet_sets hr hp hw hl
  rw [heq, modRec_some hr]
  obtain ⟨⟨hframe, hlen⟩, hrec⟩ := sendSet_sent (k := k) (r := setRec (pressOf v (keyDie k)) l r)
    (v := addCount (keyDie k) (keyPage k) 6 m
    { v with se := { v.se with recs := ins v.se.recs k (setRec (pressOf v (keyDie k)) l r) } }) (by
      unfold recOf
      exact (lookQ_ins ..).trans (if_pos rfl)) l
  refine ⟨?_, hrec, hlen⟩
  refine ChangesOnly.trans (changesOnly_of_clr _ _ _ ?_) (hframe.mono (by decide))
  exact (addCount_clr _ rfl ..).trans (upd_se _ rfl ..)

end Grant

section SeamGrant
variable {s : State} {die eng x fd fn : Nat} {w : BitVec 16} {r : SeamRec} (hr : recOf s (seamKey die eng x) = some r)

include hr in
theorem seamGrant_unreserving (hp : r.phase ≠ 1) : ∃ t, exec (.seamGrant die eng x fd fn w) s = .next t ∧ ChangesOnly [.nt] s t := by
  exact ⟨_, congrArg Host.Outcome.next (grantArrive_unreserving (u := consumeOp die (engTile die eng) 0xA2 s) hr hp),
    consumeOp_frame _ _ _ _⟩

include hr in
/-- A change of the record once a packet has left the network. -/
theorem changedRec_keeps {op : Byte} (f : SeamRec → SeamRec) :
    let t := modRec (seamKey die eng x) f (consumeOp die (engTile die eng) op s)
    ChangesOnly [.nt, .se] s t ∧ recOf t (seamKey die eng x) = some (f r) ∧ t.nt.inject = s.nt.inject := by
  refine ⟨((engSent_consumeOp (seamKey die eng x) die _ op s).modRec _ f).1,
    recOf_modRec (s := consumeOp die (engTile die eng) op s) f hr, ?_⟩
  rw [modRec_some (s := consumeOp die (engTile die eng) op s) hr]
  rfl

/-- The state in which a grant has joined. -/
def seamGrantJoined (die eng x fd fn : Nat) (s : State) : State :=
  modRec (seamKey die eng x) (grantHeld fd fn) (consumeOp die (engTile die eng) 0xA2 s)

include hr in
theorem seamGrantJoined_keeps (fd fn : Nat) : let v := seamGrantJoined die eng x fd fn s
    recOf v (seamKey die eng x) = some (grantHeld fd fn r) ∧ ChangesOnly [.nt, .se] s v ∧ v.nt.inject = s.nt.inject ∧
      resvPlaces v (grantHeld fd fn r) = resvPlaces s r ∧ loadSize v (keyDie (seamKey die eng x)) (grantHeld fd fn r) =
        loadSize s (keyDie (seamKey die eng x)) r := by
  obtain ⟨hframe, hrec, hinject⟩ := changedRec_keeps hr (op := 0xA2) (grantHeld fd fn)
  refine ⟨hrec, hframe, hinject, ?_⟩
  rw [seamGrantJoined, modRec_some (s := consumeOp die (engTile die eng) 0xA2 s) hr]
  exact ⟨rfl, rfl⟩

include hr in
/-- What a granted place leaves: the seam waits for others, has too short a Press, or is set. -/
theorem seamGrant_granted (hp : r.phase = 1) (ho : w.toNat / 2 ^ 14 % 4 = 0) :
    let k := seamKey die eng x
    let r' := grantHeld fd fn r
    let whole := r.asked = true ∧ ∀ y ∈ resvPlaces s r, y ∈ r'.grants
    ∃ t, exec (.seamGrant die eng x fd fn w) s = .next t ∧ ChangesOnly [.rg, .nt, .se] s t ∧
      (¬ whole → recOf t k = some r' ∧ t.nt.inject = s.nt.inject) ∧
      (whole → (loadSize s (keyDie k) r = none → recOf t k = some { r' with fails := r'.fails ++ [(0x1D, 0)] }) ∧
        ∀ l, loadSize s (keyDie k) r = some l → recOf t k = some (setRec (pressOf s (keyDie k)) l r') ∧
          (injQ t (engQ s k)).length = (injQ s (engQ s k)).length + (resvPlaces s r).length) := by
  intro k r' whole
  refine ⟨trySet k (seamGrantJoined die eng x fd fn s),
    congrArg Host.Outcome.next (grantArrive_granted (u := consumeOp die (engTile die eng) 0xA2 s) hr hp ho), ?_⟩
  obtain ⟨hrec, hframe, hinject, hplaces, hload⟩ := seamGrantJoined_keeps hr fd fn
  generalize seamGrantJoined die eng x fd fn s = v at *
  have hwhole : AllGranted v r' ↔ whole := by
    unfold AllGranted
    rw [hplaces]
    rfl
  have hframe' : ChangesOnly [.rg, .nt, .se] s v := hframe.mono (by decide)
  have hp' : r'.phase = 1 := hp
  by_cases hw : whole
  · have hall := hwhole.mpr hw
    cases hl : loadSize s (keyDie k) r with
    | none =>
      rw [trySet_short hrec hp' hall (hload.trans hl)]
      refine ⟨hframe'.trans ((modRec_only_se k _ v).mono (by decide)), fun h => absurd hw h, fun _ =>
        ⟨fun _ => recOf_modRec _ hrec, nofun⟩⟩
    | some l =>
      obtain ⟨hset, hrec', hlen⟩ := trySet_sends hrec hp' hall (hload.trans hl)
      refine ⟨hframe'.trans hset, fun h => absurd hw h, fun _ => ⟨nofun, fun l' h => ?_⟩⟩
      cases h
      have hpress : pressOf v (keyDie k) = pressOf s (keyDie k) := by
        unfold pressOf unitOf
        rw [hframe .tm (by decide)]
      have hqueue : engQ v k = engQ s k := engQ_of_ft (hframe .ft (by decide))
      rw [hpress] at hrec'
      rw [hqueue, show injQ v (engQ s k) = injQ s (engQ s k) by unfold injQ; rw [hinject], hplaces] at hlen
      exact ⟨hrec', hlen⟩
  · rw [trySet_waits hrec hp' fun h => hw (hwhole.mp h)]
    exact ⟨hframe', fun _ => ⟨hrec, hinject⟩, fun h => absurd h hw⟩

include hr in
theorem seamGrant_deferred (hp : r.phase = 1) (ho : w.toNat / 2 ^ 14 % 4 = 1) :
    ∃ t, exec (.seamGrant die eng x fd fn w) s = .next t ∧ ChangesOnly [.rg, .nt, .se] s t ∧
      recOf t (seamKey die eng x) = some { r with wait := some (fd, fn) } ∧ t.nt.inject = s.nt.inject := by
  refine ⟨_, congrArg Host.Outcome.next (grantArrive_deferred (u := consumeOp die (engTile die eng) 0xA2 s) hr hp ho), ?_⟩
  obtain ⟨hframe, hrest⟩ := changedRec_keeps hr (op := 0xA2) _
  exact ⟨hframe.mono (by decide), hrest⟩

include hr in
theorem seamGrant_refused (hp : r.phase = 1) (ho : 2 ≤ w.toNat / 2 ^ 14 % 4) :
    ∃ t, exec (.seamGrant die eng x fd fn w) s = .next t ∧ ChangesOnly [.rg, .nt, .se] s t ∧
      recOf t (seamKey die eng x) = some { r with fails := r.fails ++ [(w.toNat % 256, 0)] } ∧ t.nt.inject = s.nt.inject := by
  refine ⟨_, congrArg Host.Outcome.next (grantArrive_refused (u := consumeOp die (engTile die eng) 0xA2 s) hr hp ho), ?_⟩
  obtain ⟨hframe, hrest⟩ := changedRec_keeps hr (op := 0xA2) _
  exact ⟨hframe.mono (by decide), hrest⟩

end SeamGrant

end Sys2Proof.Machine
end

section
/-! SUPPORT. SEAM_YIELD_ASK at a home engine: a seam that is not set goes back to reservation (R327); O49. -/
namespace Sys2Proof.Machine

section YieldAsk
variable {k fd fn : Nat} {s u : State} {r : SeamRec}

/-- The request that waits at a place from a Press on (R330). -/
def askSince (press : Nat) (y : Nat × Nat) : ResvAsk := { die := y.1, tile := y.2, since := press }

/-! ### Asking again -/

/-- The record is as it was but for its requests, and these places have been asked. -/
def Reasked (k press : Nat) (b : SeamRec) (ys : List (Nat × Nat)) (v : State) : Prop :=
  waitPress v (keyDie k) = press ∧ ∃ z, recOf v k = some z ∧ z = { b with reqs := z.reqs } ∧ ∀ y ∈ ys, askSince press y ∈ z.reqs

theorem waitPress_of_frame {v w : State} (h : ChangesOnly [.nt, .se] v w) (die : Nat) : waitPress w die = waitPress v die := by
  unfold waitPress pressOf unitOf
  rw [h .tm (by decide), h .fw (by decide)]

/-- The requests once a place is asked: its request replaces the one before. -/
def askedAgain (press : Nat) (y : Nat × Nat) (r : SeamRec) : SeamRec :=
  { r with reqs := (r.reqs.filter fun x => !(decide (x.die = y.1) && decide (x.tile = y.2))) ++ [askSince press y] }

theorem sendReserve_asks {v : State} {z : SeamRec} (h : recOf v k = some z) (y : Nat × Nat) : ∃ q : Packet, q.cls = .ctrl ∧
    sendReserve k y.1 y.2 v = engSend k q (modRec k (askedAgain (waitPress v (keyDie k)) y) v) := by
  unfold sendReserve
  rw [h]
  exact ⟨_, rfl, rfl⟩

/-- A request that waits at another place, or is the new one, is not replaced. -/
theorem mem_askedAgain {press : Nat} {y y' : Nat × Nat} {z : SeamRec} (h : y' = y ∨ askSince press y' ∈ z.reqs) :
    askSince press y' ∈ (askedAgain press y z).reqs := by
  unfold askedAgain
  rw [List.mem_append, List.mem_singleton]
  by_cases hy : y' = y
  · exact .inr (by rw [hy])
  · refine .inl (List.mem_filter.mpr ⟨h.resolve_left hy, ?_⟩)
    rw [← Bool.decide_and, decide_eq_false fun he => hy (Prod.ext he.1 he.2)]
    rfl

theorem sendReserve_reasks {press : Nat} {b : SeamRec} {ys : List (Nat × Nat)} {v : State} (y : Nat × Nat) (h : Reasked k press b ys v) :
    EngSent k 1 v (sendReserve k y.1 y.2 v) ∧ Reasked k press b (ys ++ [y]) (sendReserve k y.1 y.2 v) := by
  obtain ⟨hpress, z, hz, hb, hasked⟩ := h
  obtain ⟨q, hq, heq⟩ := sendReserve_asks hz y
  rw [heq, hpress]
  have hsent : EngSent k (0 + 1) v (engSend k q (modRec k (askedAgain press y) v)) :=
    (EngSent.modRec k _ ⟨ChangesOnly.refl _ v, rfl⟩).trans (engSent_engSend hq _)
  refine ⟨hsent, (waitPress_of_frame hsent.1 _).trans hpress, _,
    (recOf_of_se (engSend_se k q _) k).trans (recOf_modRec (askedAgain press y) hz), ?_, fun y' hy' => mem_askedAgain ?_⟩
  · rw [hb]
    rfl
  · rw [List.mem_append, List.mem_singleton] at hy'
    exact hy'.symm.imp id (hasked y')

theorem forEach_sendReserve {press m : Nat} {b : SeamRec} {v w : State} (xs : List (Nat × Nat)) {ys : List (Nat × Nat)}
    (h : EngSent k m v w) (ha : Reasked k press b ys w) :
    let t := forEach xs (fun y u => sendReserve k y.1 y.2 u) w
    EngSent k (m + xs.length) v t ∧ Reasked k press b (ys ++ xs) t := by
  induction xs generalizing m w ys with
  | nil => exact ⟨h, by rwa [List.append_nil]⟩
  | cons x xs ih =>
    obtain ⟨hsent, hnext⟩ := sendReserve_reasks x ha
    have hall := ih (h.trans hsent) hnext
    rwa [Nat.add_assoc, Nat.add_comm 1, List.append_assoc] at hall

/-! ### The answer -/

/-- SEAM_YIELD of an engine to a place: whether its seam has yielded. -/
def yieldWord (k fd fn y : Nat) (r : SeamRec) (s : State) : Packet :=
  seamCtrl s 0xA3 r.ctx (keyDie k) (engTile (keyDie k) (keyEng k)) 9
    (if dieType fd = .io then engAddr (pkgNo s) fd (stageEng fn) 0 else tileAddr s fd fn 0) y []

/-- The release of a grant. -/
def releaseWord (k : Nat) (r : SeamRec) (y : Nat × Nat) (s : State) : Packet :=
  seamCtrl s 0x29 r.ctx (keyDie k) (engTile (keyDie k) (keyEng k)) 9
    (if dieType y.1 = .io then engAddr (pkgNo s) y.1 (stageEng y.2) 0 else tileAddr s y.1 y.2 0) 0 []

theorem yieldAsk_holds (hr : recOf u k = some r) (hp : r.phase ≠ 1) : yieldAsk k fd fn u = engSend k (yieldWord k fd fn 0 r u) u := by
  unfold yieldAsk
  rw [hr]
  exact if_neg hp

/-- The grants of a seam are given back, and the one who asked is answered. -/
def grantsBack (k fd fn : Nat) (r : SeamRec) (u : State) : State :=
  let v := forEach (r.grants.filter fun y => decide (y ≠ (fd, fn))) (fun y v => engSend k (releaseWord k r y v) v) u
  modRec k (fun r => { r with grants := [], stage := none }) (engSend k (yieldWord k fd fn 1 r v) v)

theorem yieldAsk_yields (hr : recOf u k = some r) (hp : r.phase = 1) : yieldAsk k fd fn u = addCount (keyDie k) (keyPage k) 3 1
    (forEach r.grants (fun y v => sendReserve k y.1 y.2 v) (grantsBack k fd fn r u)) := by
  unfold yieldAsk
  rw [hr]
  exact if_pos hp

theorem grantsBack_effect {m : Nat} (hr : recOf u k = some r) (h : EngSent k m s u) :
    EngSent k (m + (r.grants.filter fun y => decide (y ≠ (fd, fn))).length + 1) s (grantsBack k fd fn r u) ∧
      recOf (grantsBack k fd fn r u) k = some { r with grants := [], stage := none } := by
  have hsent := h.sends (r.grants.filter fun y => decide (y ≠ (fd, fn))) (p := releaseWord k r) fun _ _ => rfl
  have hrec := (recOf_of_se (forEach_engSend_se k (r.grants.filter fun y => decide (y ≠ (fd, fn))) (releaseWord k r) u) k).trans hr
  unfold grantsBack
  dsimp only
  generalize forEach (r.grants.filter fun y => decide (y ≠ (fd, fn))) (fun y v => engSend k (releaseWord k r y v) v) u = v at hsent hrec
  exact ⟨(hsent.trans (engSent_engSend (q := yieldWord k fd fn 1 r v) rfl v)).modRec k _,
    recOf_modRec _ ((recOf_of_se (engSend_se k _ v) k).trans hrec)⟩

end YieldAsk

section SeamYieldAsk
variable {s : State} {die eng x fd fn : Nat} {r : SeamRec} (hr : recOf s (seamKey die eng x) = some r)

include hr in
theorem seamYieldAsk_holds (hp : r.phase ≠ 1) :
    let k := seamKey die eng x
    let kd := keyDie k
    ∃ t, exec (.seamYieldAsk die eng x fd fn) s = .next t ∧ ChangesOnly [.rg, .nt, .se] s t ∧ recOf t k = some r ∧
      ∃ m, SentAll s t kd (engTile kd (keyEng k)) (engPort kd) .ctrl [m] ∧ m.opcode = 0xA3 ∧ m.operand = 0 := by
  intro k kd
  refine ⟨_, congrArg Host.Outcome.next (yieldAsk_holds (u := consumeOp die (engTile die eng) 0x23 s) hr hp), ?_⟩
  have hsent := (engSent_consumeOp k die (engTile die eng) 0x23 s).trans (engSent_engSend (k := k)
    (q := yieldWord k fd fn 0 r (consumeOp die (engTile die eng) 0x23 s)) rfl _)
  refine ⟨hsent.1.mono (by decide), (recOf_of_se (engSend_se k _ _) k).trans hr, ?_⟩
  rw [engSend_ctrl (q := yieldWord _ _ _ _ _ _) rfl]
  have hword : Sent s _ _ _ _ _ := sendFrom_sent kd (engTile kd (keyEng k)) (engPort kd)
    { yieldWord k fd fn 0 r (consumeOp die (engTile die eng) 0x23 s) with sseq := BitVec.ofNat 16 (k % 1024) } s
    (consumeOp die (engTile die eng) 0x23 s) rfl rfl rfl
  exact ⟨_, hword.all, rfl, rfl⟩

include hr in
theorem seamYieldAsk_yields (hp : r.phase = 1) :
    let k := seamKey die eng x
    let kd := keyDie k
    ∃ t, exec (.seamYieldAsk die eng x fd fn) s = .next t ∧ ChangesOnly [.rg, .nt, .se] s t ∧
      (∃ z, recOf t k = some z ∧ z = { r with grants := [], stage := none, reqs := z.reqs } ∧
        ∀ y ∈ r.grants, askSince (waitPress s kd) y ∈ z.reqs) ∧
      countOf t kd (keyPage k) 3 = countOf s kd (keyPage k) 3 + 1 ∧ (injQ t (engQ s k)).length =
        (injQ s (engQ s k)).length + (r.grants.filter fun y => decide (y ≠ (fd, fn))).length + 1 + r.grants.length := by
  intro k kd
  refine ⟨_, congrArg Host.Outcome.next (yieldAsk_yields (u := consumeOp die (engTile die eng) 0x23 s) hr hp), ?_⟩
  obtain ⟨hback, hrec⟩ := grantsBack_effect (fd := fd) (fn := fn) (u := consumeOp die (engTile die eng) 0x23 s) hr
    (engSent_consumeOp k die (engTile die eng) 0x23 s)
  have hasked : Reasked k (waitPress s kd) { r with grants := [], stage := none } []
      (grantsBack k fd fn r (consumeOp die (engTile die eng) 0x23 s)) :=
    ⟨waitPress_of_frame hback.1 kd, _, hrec, rfl, fun y hy => by cases hy⟩
  obtain ⟨⟨hframe, hlen⟩, -, hz⟩ := forEach_sendReserve r.grants hback hasked
  generalize forEach r.grants _ _ = v at *
  refine ⟨(hframe.mono (by decide)).trans (changesOnly_of_clr _ _ _ (addCount_clr _ rfl ..)), hz, ?_, ?_⟩
  · rw [countOf_addCount_page, if_pos rfl]
    unfold countOf
    rw [hframe .rg (by decide)]
    rfl
  · rw [Nat.zero_add, ← Nat.add_assoc, ← Nat.add_assoc] at hlen
    exact hlen

end SeamYieldAsk
end Sys2Proof.Machine
end

section
/-! SUPPORT. SEAM_SET, SEAM_YIELD and SEAM_RELEASE at a tile (R256, R327, R329, R332); O49. -/
namespace Sys2Proof.Machine

/-! ### Set (R329, R332) -/

section Set
variable {s : State} {die n l : Nat} {q : SeamRef}

/-- A darner a seam has reserved is held from a Press on. -/
def heldFrom (q : SeamRef) (press : Nat) (x : Darner) : Darner := if x.resv = some q then { x with resvFrom := press } else x

theorem heldFrom_twice (press : Nat) (x : Darner) : heldFrom q press (heldFrom q press x) = heldFrom q press x := by
  by_cases h : x.resv = some q
  · simp [heldFrom, h]
  · simp [heldFrom, h]

/-- The reservation of a seam is marked as set. -/
def resvSet (die n l : Nat) (q : SeamRef) (s : State) : State :=
  modResv die n (fun rs => rs.map fun r => if sameSeam r.ref q then { r with set := true, load := l } else r) (consumeOp die n 0x24 s)

theorem setArrive_some {r : SeamRec} (h : recAt s q = some r) : setArrive die n q l s =
    forEach (List.range 8) (fun d u => modDarner die n d (heldFrom q (r.setPress + 1)) u) (resvSet die n l q s) := by
  unfold setArrive
  dsimp only
  rw [show recAt (modResv die n _ (consumeOp die n 0x24 s)) q = some r from h]
  rfl

theorem setArrive_none (h : recAt s q = none) : setArrive die n q l s = resvSet die n l q s := by
  unfold setArrive
  dsimp only
  rw [show recAt (modResv die n _ (consumeOp die n 0x24 s)) q = none from h]
  rfl

theorem resvOf_setArrive : resvOf (setArrive die n q l s) die n =
    (resvOf s die n).map fun r => if sameSeam r.ref q then { r with set := true, load := l } else r := by
  have hset := resvOf_modResv (die := die) (n := n)
    (fun rs => rs.map fun r => if sameSeam r.ref q then { r with set := true, load := l } else r) (consumeOp die n 0x24 s)
  cases h : recAt s q with
  | none => rw [setArrive_none h]; exact hset
  | some r =>
    rw [setArrive_some h]
    have hsame := forEach_same (resvOf · die n) (List.range 8) (fun d u => modDarner die n d (heldFrom q (r.setPress + 1)) u)
      (resvSet die n l q s) fun _ _ => rfl
    exact hsame.trans hset

theorem darnerOf_setArrive {d : Nat} (hd : d < 8) : darnerOf (setArrive die n q l s) die n d =
    match recAt s q with
    | some r => heldFrom q (r.setPress + 1) (darnerOf s die n d)
    | none => darnerOf s die n d := by
  cases h : recAt s q with
  | none => rw [setArrive_none h]; rfl
  | some r =>
    rw [setArrive_some h, darnerOf_forEach _ (heldFrom_twice _), if_pos (List.mem_range.mpr hd)]
    rfl

end Set

/-! ### Released (R256) -/

section Release
variable {s : State} {die n : Nat} {q : SeamRef}

/-- The tile holds nothing of the seam: no darner, no entry of its queue. -/
def HoldsNothing (die n : Nat) (q : SeamRef) (t : State) : Prop :=
  (∀ d y, (darnerOf t die n d).resv = some y → sameSeam y q = false) ∧
    ∀ z ∈ (drnTile t die n).queue, ∀ y, z.seam = some y → sameSeam y q = false

/-- Belongs to the seam. -/
def ofSeam (q : SeamRef) (x : Option SeamRef) : Bool := match x with | some y => sameSeam y q | none => false

theorem ofSeam_false {x : Option SeamRef} (h : ofSeam q x = false) : ∀ y, x = some y → sameSeam y q = false := fun y hy => by
  rw [hy] at h
  exact h

/-- A darner without its reservation by the seam. -/
def withoutResv (q : SeamRef) (x : Darner) : Darner := if ofSeam q x.resv then { x with resv := none, resvFrom := 0 } else x

theorem resv_withoutResv (x : Darner) : ofSeam q (withoutResv q x).resv = false := by
  unfold withoutResv
  split
  · rfl
  · next h => exact Bool.eq_false_iff.mpr h

/-- What every changed darner and an idle one have, every darner has after the change. -/
theorem look_mapDarners {P : Darner → Prop} {f : Darner → Darner} (hf : ∀ x, P (f x)) (h0 : P {}) (ds : SMap Darner) (d : Nat) :
    P (look {} (mapDarners f ds) d) := by
  unfold mapDarners
  induction ds with
  | nil => exact h0
  | cons e ds ih =>
    rw [List.filterMap_cons]
    split
    · exact ih
    · next e' he =>
      split at he
      · cases he
      · cases he
        unfold look
        split
        · exact hf e.2
        · exact ih

/-- A tile without what the seam of a reservation holds. -/
def tileWithoutSeam (q : SeamRef) (r : TileResv) (t : DrnTile) : DrnTile :=
  { t with queue := t.queue.filter (fun x => !ofSeam q x.seam), darners := mapDarners (withoutResv q) t.darners,
           streams := if r.granted && decide (r.stream < 12) then drop t.streams r.stream else t.streams }

/-- The reservations of a tile without those of the seam. -/
def unresv (die n : Nat) (q : SeamRef) (s : State) : State := modResv die n (fun rs => rs.filter fun x => !sameSeam x.ref q) s

theorem releaseAt_tile {r : TileResv} (hio : dieType die ≠ .io) (h : ((resvOf s die n).find? fun r => sameSeam r.ref q) = some r) :
    ∃ v ls, v.se = (unresv die n q s).se ∧
      releaseAt die n q s = { modDrn die n (tileWithoutSeam q r) v with se := { v.se with loads := ls } } := by
  unfold releaseAt
  dsimp only
  rw [h]
  dsimp only
  rw [if_neg hio]
  refine ⟨_, _, ?_, rfl⟩
  refine forEach_same (·.se) _ _ _ fun t u => forEach_same (·.se) _ _ _ fun d u => ?_
  split
  · exact same_of_clr [.rg, .dr] _ _ (dropSeamTask_clr _ rfl rfl ..) .se (by decide)
  · rfl

theorem releaseAt_frame : ChangesOnly [.rg, .dr, .se] s (releaseAt die n q s) :=
  changesOnly_of_clr _ _ _ (releaseAt_clr _ rfl rfl rfl ..)

theorem resvOf_releaseAt : resvOf (releaseAt die n q s) die n = (resvOf s die n).filter fun r => !sameSeam r.ref q := by
  have hun : resvOf (unresv die n q s) die n = (resvOf s die n).filter fun r => !sameSeam r.ref q := resvOf_modResv _ s
  cases h : (resvOf s die n).find? fun r => sameSeam r.ref q with
  | none =>
    rw [filter_unknown fun r hr => Bool.eq_false_iff.mpr (List.find?_eq_none.mp h r hr)]
    unfold releaseAt
    dsimp only
    rw [h]
  | some r =>
    by_cases hio : dieType die = .io
    · unfold releaseAt
      dsimp only
      rw [h]
      dsimp only
      rw [if_pos hio]
      split
      · exact hun
      · exact hun
    · obtain ⟨v, ls, hse, heq⟩ := releaseAt_tile hio h
      rw [heq, ← hun]
      unfold resvOf
      rw [← hse]

theorem releaseAt_holdsNothing (hio : dieType die ≠ .io) (h : ∃ r ∈ resvOf s die n, sameSeam r.ref q = true) :
    HoldsNothing die n q (releaseAt die n q s) := by
  obtain ⟨r, hr⟩ := Option.isSome_iff_exists.mp (List.find?_isSome.mpr h)
  obtain ⟨v, ls, -, heq⟩ := releaseAt_tile hio hr
  have htile : drnTile (releaseAt die n q s) die n = tileWithoutSeam q r (drnTile v die n) := by
    rw [heq]
    exact drnTile_modDrn_same ..
  unfold HoldsNothing darnerOf
  rw [htile]
  refine ⟨fun d => ofSeam_false ?_, fun z hz => ofSeam_false ?_⟩
  · exact look_mapDarners (P := fun x => ofSeam q x.resv = false) resv_withoutResv rfl _ d
  · exact Bool.not_eq_true' _ ▸ (List.mem_filter.mp hz).2

/-! ### The patch share after a release -/

theorem enterChunk_holdsNothing {u : State} (id : Nat) (h : HoldsNothing die n q u) : HoldsNothing die n q (enterChunk die n id u) := by
  obtain ⟨hdarners, hqueue⟩ := h
  unfold enterChunk
  dsimp only
  split
  · exact ⟨hdarners, hqueue⟩
  · split
    · exact ⟨hdarners, hqueue⟩
    · refine ⟨fun d => ?_, fun z hz y hy => ?_⟩
      · rw [darnerOf_modDrn die n die d n _ _ rfl]
        exact hdarners d
      · rw [drnTile_modDrn_same, List.mem_append, List.mem_singleton] at hz
        rcases hz with hz | hz
        · exact hqueue z hz y hy
        · have hnone : z.seam = none := by
            rw [hz]
            split
            · rfl
            · rfl
          cases hnone.symm.trans hy

theorem fillQueue_holdsNothing {u : State} (h : HoldsNothing die n q u) : HoldsNothing die n q (fillQueue die n u) :=
  forEach_keeps _ _ _ _ (fun e _ hv => forEach_keeps _ _ _ _ (fun _ _ hw => enterChunk_holdsNothing e.1 hw) hv) h

/-! ### A release while the seam goes on -/

/-- Where nothing else waits, a release evaluates nothing. -/
theorem releaseEval_idle (h : ∀ r ∈ resvOf s die n, r.granted = true) : releaseEval die n q s =
    if dieType die = .io then releaseAt die n q s else fillQueue die n (releaseAt die n q s) := by
  unfold releaseEval
  rw [evalResv_idle]
  intro r hr
  rw [resvOf_releaseAt] at hr
  exact h r (List.mem_filter.mp hr).1

/-- What a release leaves, and its packet's way out of the network. -/
theorem releaseEval_effect {op : Byte} (h : ∀ r ∈ resvOf s die n, r.granted = true) :
    let t := releaseEval die n q (consumeOp die n op s)
    ChangesOnly [.rg, .nt, .dr, .se] s t ∧ resvOf t die n = (resvOf s die n).filter (fun r => !sameSeam r.ref q) ∧
      (dieType die ≠ .io → (∃ r ∈ resvOf s die n, sameSeam r.ref q = true) → HoldsNothing die n q t) := by
  have hgone := (consumeOp_frame die n op s).mono (qs := [.rg, .nt, .dr, .se]) (by decide)
  have hreleased := releaseAt_frame (die := die) (n := n) (q := q) (s := consumeOp die n op s)
  have hframe := hgone.trans (hreleased.mono (by decide))
  have hresv : resvOf (releaseAt die n q (consumeOp die n op s)) die n = (resvOf s die n).filter fun r => !sameSeam r.ref q :=
    resvOf_releaseAt
  dsimp only
  rw [releaseEval_idle (s := consumeOp die n op s) h]
  split
  · next hio => exact ⟨hframe, hresv, fun h => absurd hio h⟩
  · have hfill : ChangesOnly [.dr] (releaseAt die n q (consumeOp die n op s)) (fillQueue die n (releaseAt die n q (consumeOp die n op s))) :=
      changesOnly_of_clr _ _ _ (fillQueue_clr _ rfl ..)
    refine ⟨hframe.trans (hfill.mono (by decide)), ?_, fun hio hex => fillQueue_holdsNothing (releaseAt_holdsNothing hio hex)⟩
    unfold resvOf at hresv ⊢
    rwa [hfill .se (by decide)]

end Release
end Sys2Proof.Machine
end

section
/-! SUPPORT. A tile grants, defers or refuses a reservation; with every grant held the seam is set; O49. -/
namespace Sys2Proof.Machine

/-- Settles O49: a tile evaluates the only request that waits, an engine counts its grants, and a release leaves nothing of the seam. -/
theorem seamsReserveYieldAndSet : Obligations.SeamsReserveYieldAndSet := by
  refine ⟨fun s die n q => ⟨seamReserve_known, fun hk hr hg => ?_⟩,
    fun s die eng x fd fn w r hr => ⟨seamGrant_unreserving hr, fun hp => ?_, ?_⟩,
    fun s die n l q => ⟨?_, fun hg => ⟨?_, fun c hc => ?_⟩⟩⟩
  · obtain ⟨t, hexec, heq, hframe⟩ := seamReserve_evaluates hk hr hg
    subst heq
    refine ⟨_, hexec, hframe, fun hio hl => ?_, fun hio hl hs => ?_, fun hio hl hs hf => asked_granted hk hio hl hs hf,
      fun _ hl hs hf hv => asked_deferred hk hl hs hf hv, fun hio x hx => stageAsk_effect hio hx⟩
    · rw [evalOne_limit (u := asking die n q s) hio hl]
      exact refusedAsk_effect (unknown_of_any hk) 0x3C
    · rw [evalOne_noShare (u := asking die n q s) hio hl hs]
      exact refusedAsk_effect (unknown_of_any hk) 0x53
  · intro o grants reqs r' whole
    by_cases h0 : o = 0
    · obtain ⟨t, hexec, hframe, hwaits, hwhole⟩ := seamGrant_granted hr (fd := fd) (fn := fn) hp h0
      exact ⟨t, hexec, hframe, fun h => by omega, fun h => by omega, fun _ => hwaits, fun _ => hwhole⟩
    · by_cases h1 : o = 1
      · obtain ⟨t, hexec, hframe, hrec⟩ := seamGrant_deferred hr (fd := fd) (fn := fn) hp h1
        exact ⟨t, hexec, hframe, fun _ => hrec, fun h => by omega, fun h => by omega, fun h => by omega⟩
      · obtain ⟨t, hexec, hframe, hrec⟩ := seamGrant_refused hr (fd := fd) (fn := fn) hp (show 2 ≤ o by omega)
        exact ⟨t, hexec, hframe, fun h => by omega, fun _ => hrec, fun h => by omega, fun h => by omega⟩
  · by_cases hp : r.phase = 1
    · obtain ⟨t, hexec, hframe, hyields⟩ := seamYieldAsk_yields hr (fd := fd) (fn := fn) hp
      exact ⟨t, hexec, hframe, fun h => absurd hp h, fun _ => hyields⟩
    · obtain ⟨t, hexec, hframe, hholds⟩ := seamYieldAsk_holds hr (fd := fd) (fn := fn) hp
      exact ⟨t, hexec, hframe, fun _ => hholds, fun h => absurd h hp⟩
  · exact ⟨_, rfl, changesOnly_of_clr _ _ _ (setArrive_clr _ rfl rfl rfl ..), resvOf_setArrive, fun d hd => darnerOf_setArrive hd⟩
  · exact ⟨_, congrArg Host.Outcome.next (evalResv_idle (s := consumeOp die n 0xA3 s) hg), consumeOp_frame die n 0xA3 s⟩
  · rw [List.mem_cons, List.mem_singleton] at hc
    rcases hc with rfl | rfl
    · exact ⟨_, rfl, releaseEval_effect (op := 0xA3) hg⟩
    · exact ⟨_, rfl, releaseEval_effect (op := 0x29) hg⟩

end Sys2Proof.Machine
end
